-- ==== Sys2Proof/Word.lean ====
section
/-! DEFINITION. The word and byte types of the register pages and wire formats (R12: registers are 32 bits wide). -/

namespace Sys2Proof

/-- A 32-bit register word. -/
abbrev Word := BitVec 32

/-- A byte of a wire format or of memory. -/
abbrev Byte := BitVec 8

/-- A byte string in order of transmission (R12: byte 0 first). -/
abbrev Bytes := List Byte

end Sys2Proof
end

