-- ==== Sys2Proof/Syntax.lean ====
section
/-! DEFINITION. The commands of the block: one constructor per row of the spec's table of operations and events, and the
payload types their operands use. An operand is what comes from outside at that moment: a written word, a received
frame, a pin's level, what a memory access returned, the core cycle within the tick. -/

namespace Sys2Proof

/-- One detection of an error source of one page in one core cycle (R435): page type and instance, source code, capture
words, whether software forced it (R442), and the source of the event being handled into which it is merged (R440). -/
structure Det where
  ty : Nat
  inst : Nat
  src : Nat
  capLo : Nat
  capHi : Nat
  forced : Bool
  into : Option Nat
  deriving DecidableEq, Repr

/-- Who injected a frame, for its completion (R369, R420): 0 a navigator, 1 a host ring; the cluster or ring; the tag; and
the requests TS_REQ, ONE_STEP and NO_MACSEC. -/
structure Inj where
  host : Bool
  who : Nat
  slot : Nat
  tag : Bytes
  tsReq : Bool
  oneStep : Bool
  noMacsec : Bool
  deriving DecidableEq, Repr

/-- A frame inside the device, with its descriptor: bytes without FCS, source and destination logical ports, half-pipe of
arrival (slice × 2 + half), service domain, class, drop eligibility, the parser's PTP event and EAPOL marks, meridian
count, absolute core cycle and ingress times (both domains, elapsed count of TC_DOMAIN) at arrival, FLOW on a tree, and
the injection it came from. -/
structure Pkt where
  data : Bytes
  src : Nat
  dst : Nat
  hp : Nat
  domain : Nat
  cls : Nat
  yellow : Bool
  ptp : Bool
  eapol : Bool
  tick : Nat
  born : Nat
  tA : Nat
  tB : Nat
  el : Nat
  flow : Nat
  inj : Option Inj
  deriving DecidableEq, Repr

/-- What a cipher item does (R213). -/
inductive CKind where
  | enc | dec | ctr
  deriving DecidableEq, Repr

/-- A cipher item: AX, tree, IV tick and KP (tick-IV work), sequence, direction and pair-member bits, kind, urgency,
half-pipe, an IV formed outside (MACsec), AAD, data and tag. -/
structure CItem where
  ax : Nat
  tree : Nat
  tick : Nat
  kp : Nat
  seq : Nat
  kind : CKind
  urgent : Bool
  half : Nat
  iv : Option Bytes
  aad : Bytes
  data : Bytes
  tag : Bytes
  deriving DecidableEq, Repr

/-- A slot command's source and operands (R207): 0 the host or 1 + cluster, AX, POS, KSIZE, ALM_ARG[0..7], and the bytes
read from the window or navigator memory it names. -/
structure SlotReq where
  caller : Nat
  ax : Nat
  pos : Nat
  k256 : Bool
  args : List Nat
  data : Bytes
  deriving DecidableEq, Repr

/-- A burst as the receiver of a tree hears it (R96 to R100): whether there was light in its blocks; the bits received, from 511 bit
times before the first bit of the delimiter as expected; the bit times of light in the guard and of early end; and the
amplitude, threshold and phase measured. -/
structure Burst where
  light : Bool
  line : List Bool
  guard : Nat
  early : Nat
  amp : Nat
  thr : Int
  phase : Nat
  deriving DecidableEq, Repr

/-- The commands, in the order of the table. -/
inductive Instr where
  /-- R7. A host write to a register that has no row of its own stores, sets, clears or is ignored according to its
  access code. -/
  | registerWrite (addr : Nat) (v : Word) (be cycle : Nat) (data : List Byte)
  /-- R406. A PCIe request that covers several registers is split into 32-bit accesses, with a 64-bit pair written
  _HI first and read _LO first. -/
  | multiRegisterRequest (write : Bool) (addr n : Nat) (words : List Word) (cycle : Nat) (data : List Byte)
  /-- R11. A read of the _LO half of a 64-bit pair copies _HI into the master's shadow. -/
  | loRegisterRead (master addr cycle : Nat)
  /-- R11. A write to the _HI half of a 64-bit pair is held without effect. -/
  | hiRegisterWrite (master addr : Nat) (v : Word)
  /-- R11. A write to the _LO half of a 64-bit pair commits both halves in one cycle. -/
  | loRegisterWrite (master addr : Nat) (v : Word) (cycle : Nat) (data : List Byte)
  /-- R407. A write of CTL.SRST resets one block as its chapter states and keeps its RWO locks. -/
  | blockSoftReset (ty inst : Nat)
  /-- R69. A write of COUNT_CTL.CLR_ALL clears every counter in the page's range at once. -/
  | countClrAll (ty inst : Nat)
  /-- R31. A write of TICK_STAGE_CTL.MAX_CLR clears TICK_DONE_MAX. -/
  | maxClr (ty inst : Nat)
  /-- R20. The core tick ends and core tick n starts at B(n) less 4 us, seen by every stage in the same cycle. -/
  | tickBoundary
  /-- R19. A write of E greater than the intended E becomes pending for the next boundary. -/
  | epochWrite (e : Nat)
  /-- R32. A stage's deadline passes without its tick work done, so the overrun is counted, recorded and answered as
  R30 states. -/
  | tickOverrun (ty inst : Nat)
  /-- R28. A descriptor passes its stage's age limit and is dropped, with its cells freed and the drop counted. -/
  | descriptorAgeExpiry (ty inst cycle : Nat)
  /-- R28. A descriptor reaches a stage's input queue and is dropped if the queue is full. -/
  | stageDescriptorReceive (ty inst : Nat) (full : Bool)
  /-- R17. A frame enters the slice crossbar towards the half-pipe of its egress port. -/
  | xbarCross (src dst : Nat) (full : Bool)
  /-- R36. TTX stages the header, grant map, control section and circuit section of frame n + 1 in core tick n. -/
  | ttxFrameStage (tree cycle : Nat)
  /-- R35. A staged downstream frame is sent from B(n) as 750 LDPC codewords in PAM4. -/
  | talFrameTransmit (tree : Nat)
  /-- R56. TTX places the next unit or fragment of its serve list into the unit stream. -/
  | ttxUnitPlace (tree : Nat) (onDie : Bool) (ready : Option Nat)
  /-- R65. A write of TTX_CTL.MODE sets the line output from the next frame boundary. -/
  | ttxModeWrite (tree : Nat) (v : Word)
  /-- R69. A write of CKT_LEN_PG for the standby TSI page is stored, and one for the page in effect is rejected. -/
  | cktLenPgWrite (tree page : Nat) (v : Word)
  /-- R96. TRX receives an expected burst, searches for its delimiter and decodes it against the grant map. -/
  | trxBurstReceive (tree utick start : Nat) (b : Burst)
  /-- R97. Light in a block outside every expected burst and discovery window is counted as rogue and attributed if
  possible. -/
  | rogueLight (tree utick first : Nat) (lit : List Nat)
  /-- R103. A unit still in progress when its first fragment's tick plus 8 passes is discarded. -/
  | reassemblyExpiry (tree : Nat)
  /-- R102. The replay window of upstream tick u is dropped once tick u + 8 has passed. -/
  | replayWindowRetire (tree : Nat)
  /-- R94. PROFILE_CMD READ returns a terminal's seed and current profile words. -/
  | profileRead (tree term : Nat)
  /-- R94. PROFILE_CMD WRITE_SEED sets both the seed and the current value from PROFILE_DATA_LO. -/
  | profileWriteSeed (tree term : Nat)
  /-- R94. PROFILE_CMD RESEED sets the seed to the current value and clears the DRIFT_MAP bit. -/
  | profileReseed (tree term : Nat)
  /-- R94. PROFILE_CMD INVALIDATE clears VALID in both words, so the default profile is used. -/
  | profileInvalidate (tree term : Nat)
  /-- R144. A write of PREAMBLE_CFG or PREAMBLE_AT sets the preamble change and triggers TREE_PARAMS in the next
  frame. -/
  | preambleCfgWrite (tree : Nat) (at_ : Bool) (v : Nat)
  /-- R121. At COMPUTE_AT the Orrery takes its inputs and computes the grant map of each enabled tree in five passes.
  -/
  | orrCompute (slice : Nat)
  /-- R130. A completed map is handed to TTX, TRX, the Almanac and the mate link in one cycle. -/
  | orrMapPublish (tree cycle : Nat)
  /-- R119. A grant hint from navigator firmware is held, dropped, rejected or discarded as late. -/
  | orrHintReceive (tree : Nat)
  /-- R135. ALLOC_CMD READ_CFG returns an allocation record in ALLOC_DATA. -/
  | allocReadCfg (slice ltree alloc : Nat)
  /-- R114. ALLOC_CMD WRITE_CFG writes an allocation record, rejecting bad fixed allocations. -/
  | allocWriteCfg (slice ltree alloc : Nat)
  /-- R134. ALLOC_CMD DELETE removes an allocation and clears its credits and ledger. -/
  | allocDelete (slice ltree alloc : Nat)
  /-- R135. ALLOC_CMD READ_STATE returns an allocation's report, credits and last grant. -/
  | allocReadState (slice ltree alloc : Nat)
  /-- R127. A write of TREE_CFG is refused for D while the tree is enabled, and for a FIX_BASE that strands a fixed
  allocation. -/
  | treeCfgWrite (slice i : Nat) (v : Word)
  /-- R143. The Sextant hands the Orrery the discovery, ranging and control-poll entries of the next map. -/
  | sxtEntriesHandover (tree base cycle : Nat)
  /-- R147. At an upstream tick that is a multiple of PERIOD, a discovery window is opened and announced. -/
  | discWindowOpen (tree : Nat)
  /-- R149. A discovery response is matched against the records, binding a terminal and sending ASSIGN or posting an
  event. -/
  | discRespReceive (tree utick : Nat) (bursts : List (Int × Burst))
  /-- R150. A ranging burst's offset is judged, storing EQD or correcting it and counting a failed try. -/
  | rangingBurst (tree term : Nat)
  /-- R153. An upstream control message is checked for form and MIC and acted on. -/
  | sxtControlReceive (tree : Nat)
  /-- R146. An ACK that echoes a pending message's TYPE and MSG_SEQ completes that message. -/
  | ackReceive (tree : Nat)
  /-- R146. An unacknowledged message is sent again after ACK_TIMEOUT, and ACK_LOST follows after the last retry. -/
  | ackTimeout (tree term : Nat)
  /-- R144. The broadcast DEACTIVATE is sent again ACK_TIMEOUT ticks later, RETRY_MAX times. -/
  | bcastDeactivateRepeat (tree term : Nat)
  /-- R154. A terminal's violation window closes QUAR_WIN ticks after it opened and WIN_COUNT returns to 0. -/
  | violWindowClose (tree term : Nat)
  /-- R156. A tree's rogue window closes QUAR_WIN ticks after it opened. -/
  | rogueWindowClose (tree : Nat)
  /-- R139. With AUTO_RELEASE set, a quarantined terminal without a violation for QUAR_HOLD ticks returns to
  OPERATIONAL. -/
  | quarHoldExpiry (tree term : Nat)
  /-- R139. A DEACTIVATED record returns to INIT after DEACT_HOLD ticks. -/
  | deactHoldExpiry (tree term : Nat)
  /-- R185. AUTH_TIMEOUT expires in AUTHENTICATING, so KX_ABORT is sent and the record is deactivated with reason
  AUTH. -/
  | authTimeoutExpiry (tree term : Nat)
  /-- R144. TREE_PARAMS is broadcast in every frame whose tick is a multiple of 16. -/
  | treeParamsSend (tree : Nat)
  /-- R161. TERM_CMD READ returns a terminal record in TERM_DATA. -/
  | termRead (tree term : Nat)
  /-- R161. TERM_CMD WRITE writes a binding, refused for a duplicate serial or a record in the wrong state. -/
  | termWrite (tree term : Nat)
  /-- R161. TERM_CMD DEACTIVATE deactivates a record that is not in INIT or DEACTIVATED. -/
  | termDeactivate (tree term : Nat)
  /-- R161. TERM_CMD DEACTIVATE with DARK sends DEACTIVATE with DARK, broadcast for a record in INIT. -/
  | termDeactivateDark (tree term : Nat)
  /-- R161. TERM_CMD QUARANTINE quarantines an OPERATIONAL terminal. -/
  | termQuarantine (tree term : Nat)
  /-- R161. TERM_CMD RELEASE returns a quarantined terminal to OPERATIONAL. -/
  | termRelease (tree term : Nat)
  /-- R151. TERM_CMD RERANGE places a ranging grant without changing the terminal's state. -/
  | termRerange (tree term : Nat)
  /-- R161. TERM_CMD FIND makes the next discovery window MODE 2 for the record's SNI. -/
  | termFind (tree term : Nat)
  /-- R161. TERM_CMD ENABLE clears DARK and sends ENABLE. -/
  | termEnable (tree term : Nat)
  /-- R161. TERM_CMD CLEAR_VIOL clears the record's violation state. -/
  | termClearViol (tree term : Nat)
  /-- R161. TERM_CMD ALLOC_PUSH sends ALLOC_ASSIGN to the terminal. -/
  | termAllocPush (tree term : Nat)
  /-- R161. TERM_CMD COUNTER_REQ sends COUNTER_REQ to the terminal. -/
  | termCounterReq (tree term : Nat)
  /-- R156. DARK_TEST START sends DARK_TEST and withholds entries for the named terminals for 16 ticks. -/
  | darkTestStart (tree : Nat) (v : Word)
  /-- R156. The 16-tick dark test ends and TEST_ACTIVE clears. -/
  | darkTestEnd (tree : Nat)
  /-- R161. A write of REACH_CFG is refused for inconsistent bounds or a span above 4, and otherwise applies from the
  next window. -/
  | reachCfgWrite (tree : Nat) (v : Word)
  /-- R161. A write of DISC_CFG is refused for slots needing a span above 4, and otherwise applies from the next
  window. -/
  | discCfgWrite (tree : Nat) (v : Word)
  /-- R173. The key agent opens a session when its conditions allow, sending KX_START, HE_SHARE and HE_CHAIN. -/
  | kxSessionOpen (tree term : Nat)
  /-- R169. A KX_SEG segment of an object is stored, ignored or refused. -/
  | kxSegReceive (tree : Nat)
  /-- R170. A KX_STATUS from the terminal completes an object or triggers a resend of its missing segments. -/
  | kxStatusReceive (tree : Nat)
  /-- R185. A terminal's KX_ABORT fails the session with its code. -/
  | kxAbortReceive (tree : Nat)
  /-- R170. OBJ_WAIT ticks pass, so a status of an incomplete object is sent or a whole object is sent again. -/
  | objWaitExpiry (tree term obj : Nat)
  /-- R173. The key agent finishes checking the terminal chain, shares and proof, and stages HE_PROOF and KX_DONE or
  fails the session. -/
  | kxVerifyDone (tree term : Nat)
  /-- R184. A re-agreement session exceeding SESSION_LIMIT fails with code TIMEOUT. -/
  | sessionLimitExpiry (tree term : Nat)
  /-- R183. REKEY_TICKS passes since the terminal's last switch, so a unicast switch falls due. -/
  | rekeyDue (tree term : Nat)
  /-- R180. A due switch is started, at most REKEY_RATE per tick, with the new generation derived and KEY_SWITCH
  staged. -/
  | keySwitchStart
  /-- R181. At the boundary of T + 5 the old generation is zeroised and SW_PEND clears. -/
  | oldGenerationDestroy (ax : Nat)
  /-- R184. A TMS reaches REAGREE_TICKS of age, so a MODE 2 re-agreement falls due. -/
  | reagreeDue (tree term : Nat)
  /-- R184. REAGREE_RETRY ticks after a failed re-agreement it falls due again. -/
  | reagreeRetryExpiry (tree term : Nat)
  /-- R184. A TMS that reaches twice REAGREE_TICKS without re-agreement deactivates the record with reason KEY. -/
  | tmsAgeLimit (tree term : Nat)
  /-- R179. A group rekey starts, naming one T and sending GROUP_KEY to each member. -/
  | groupRekeyStart (gax : Nat)
  /-- R226. KA_CMD REKEY makes a unicast key switch of the named terminal due. -/
  | kaRekey
  /-- R226. KA_CMD REAGREE makes a re-agreement of the named terminal due. -/
  | kaReagree
  /-- R226. KA_CMD GROUP_REKEY makes a rekey of the named group or broadcast association due. -/
  | kaGroupRekey
  /-- R226. TABLE_CMD LOAD_ANCHORS replaces the trust anchors from a window. -/
  | loadAnchors (window : Nat) (data : List Byte)
  /-- R226. TABLE_CMD LOAD_DENY replaces the deny list from a window. -/
  | loadDeny (window : Nat) (data : List Byte)
  /-- R226. TABLE_CMD LOAD_CHAIN replaces the head-end chain after the form and algorithm checks. -/
  | loadChain (window : Nat) (data : List Byte)
  /-- R226. TABLE_CMD CLEAR_CHAIN empties the head-end chain store. -/
  | clearChain
  /-- R187. TIME_OF_DAY is broadcast in every frame whose tick is a multiple of TOD_PERIOD. -/
  | todBroadcast (tree : Nat)
  /-- R187. A TIME_REQ from a keyed terminal is answered with unicast TIME_OF_DAY within 8 frames. -/
  | timeReqReceive (tree : Nat)
  /-- R166. Each second with the chain store empty, every waiting record is counted in KA_NO_CHAIN. -/
  | kaNoChainCount
  /-- R228. After a DRBG health failure, reseeding is retried every 8,000 ticks. -/
  | drbgReseedRetry (ok : Bool)
  /-- R207. Slot command READ_ATTR returns an association's attributes, never a key. -/
  | readAttr (ax pos : Nat) (k256 : Bool)
  /-- R207. Slot command SET_ATTR writes PIN, EXP_RESET, LIMIT_EXP and, where allowed, USE. -/
  | setAttr (ax pos : Nat) (k256 : Bool)
  /-- R207. Slot command GEN_KEY places a DRBG key in a position. -/
  | genKey (ax pos : Nat) (k256 : Bool)
  /-- R207. Slot command DESTROY_POS zeroises one position, making the association INVALID if it was current. -/
  | destroyPos (ax pos : Nat) (k256 : Bool)
  /-- R207. Slot command DESTROY makes the association INVALID. -/
  | destroy (ax pos : Nat) (k256 : Bool)
  /-- R209. Slot command IMPORT checks an 80-byte blob under an import session and writes its key. -/
  | importKey (ax pos : Nat) (k256 : Bool) (data : List Byte)
  /-- R208. Slot command IMPORT_PUB writes the signed import public record to a window. -/
  | importPub (ax pos : Nat) (k256 : Bool)
  /-- R208. Slot command IMPORT_OPEN derives an ISK from the key server's share. -/
  | importOpen (ax pos : Nat) (k256 : Bool) (data : List Byte)
  /-- R208. Slot command IMPORT_CLOSE destroys an ISK. -/
  | importClose (ax pos : Nat) (k256 : Bool)
  /-- R210. Slot command MKA_KDF derives ICK and KEK from a CAK into two targets. -/
  | mkaKdf (ax pos : Nat) (k256 : Bool)
  /-- R210. Slot command CMAC computes AES-CMAC under an ICK. -/
  | cmac (ax pos : Nat) (k256 : Bool) (data : List Byte)
  /-- R210. Slot command WRAP wraps a trunk SA key under a KEK. -/
  | wrap (ax pos : Nat) (k256 : Bool)
  /-- R210. Slot command UNWRAP unwraps a SAK into an empty trunk SA position. -/
  | unwrap (ax pos : Nat) (k256 : Bool) (data : List Byte)
  /-- R211. Slot command GROUP joins or removes a multicast member, creating or destroying the group key. -/
  | groupMembership (ax pos : Nat) (k256 : Bool)
  /-- R199. A serve list, map or TSI page shown to the Almanac loads the associations it names into hot slots with
  holds. -/
  | almPrefetch (slice : Nat) (axs : List Nat) (hold : Nat)
  /-- R197. A re-mask pass not finished within 1,024 ticks raises error source 0x06. -/
  | remaskPassOverdue
  /-- R213. A cipher pool takes a GCM or CTR item and runs it on the core with the least queued work. -/
  | ciphItem (inst : Nat) (it : CItem)
  /-- R201. A demand load completes and releases the held items in order, or drops them on an error. -/
  | demandLoadComplete (inst ax : Nat) (ok : Bool)
  /-- R201. A held item whose hold passes before its load completes is dropped. -/
  | missHoldExpiry (inst : Nat)
  /-- R216. CIPH_TEST.KAT_START runs the known-answer test on every enabled core. -/
  | katStart (inst : Nat)
  /-- R216. The known-answer test finishes, and failing cores are removed from CORE_EN. -/
  | katDone (inst fails : Nat)
  /-- R229. A write of TRK_MODE is stored only while every port is disabled. -/
  | trkModeWrite (v : Word)
  /-- R232. A trunk frame is received, FCS-checked and length-checked. -/
  | trkRxFrame (port cycle : Nat) (frame : List Byte) (full : Bool) (corr bad : Nat)
  /-- R288. A trunk port ready for a frame selects the next candidate among its queue heads. -/
  | trkTxSelect (port cycle : Nat)
  /-- R236. TX_SA_CTL.START arms a change of the encoding SA, now or at a named tick. -/
  | txSaStart (inst : Nat) (v : Word)
  /-- R249. SA_CMD READ returns an SA or SC entry. -/
  | saRead (inst sc an table : Nat)
  /-- R249. SA_CMD WRITE writes an SA or SC entry, refused for the encoding SA or a foreign SA. -/
  | saWrite (inst sc an table : Nat)
  /-- R249. SA_CMD ENABLE sets IN_USE on an entry. -/
  | saEnable (inst sc an table : Nat)
  /-- R249. SA_CMD DISABLE clears IN_USE, refused for the encoding SA. -/
  | saDisable (inst sc an table : Nat)
  /-- R247. A trunk port's link goes up or down on fault or alignment. -/
  | trkLinkChange (port : Nat) (anDone aligned localF remoteF : Bool) (locks : Nat)
  /-- R349. A two-step match entry unmatched within MATCH_AGE ticks is freed and counted. -/
  | tcMatchExpiry (slice : Nat)
  /-- R256. A frame is classified, policed and looked up in its domain, and forwarded, flooded or dropped. -/
  | fwdFrame (slice cycle : Nat)
  /-- R264. A queued learn request inserts or updates the source entry. -/
  | learnRequest (slice : Nat)
  /-- R267. FWD_CMD SEARCH returns an entry and its position. -/
  | fwdSearch (slice : Nat)
  /-- R268. FWD_CMD NEXT returns the next entry at or after the cursor, beginning a walk with START. -/
  | fwdNext (slice : Nat) (start : Bool)
  /-- R267. FWD_CMD INSERT inserts a COPIED or STATIC entry. -/
  | fwdInsert (slice : Nat)
  /-- R267. FWD_CMD DELETE clears an entry. -/
  | fwdDelete (slice : Nat)
  /-- R267. FWD_CMD FLUSH_BY_PORT clears the entries of a port and optional domain. -/
  | flushByPort (slice : Nat)
  /-- R267. FWD_CMD TBL_READ returns a DOMAIN, VMAP, AMAP, PORT or GROUP record. -/
  | tblRead (slice table : Nat)
  /-- R267. FWD_CMD TBL_WRITE writes such a record, refused for another slice's VMAP or AMAP. -/
  | tblWrite (slice table : Nat)
  /-- R269. AGE_CTL.START flips the ageing parity and starts the sweep. -/
  | ageSweepStart (slice : Nat)
  /-- R269. The sweep visits the last position, so AGE_RESULT is set and AGE_BUSY falls. -/
  | ageSweepDone (slice cycle : Nat)
  /-- R275. A frame reaching its egress queue is admitted or dropped by quota, threshold and pool rules. -/
  | qschAdmit (slice cycle : Nat)
  /-- R277. A bank below WM_SPILL pages queue tails out to HBM until WM_STOP. -/
  | spillPageOut (slice n : Nat)
  /-- R277. A queue whose on-die part falls below HEAD_KEEP has its oldest pages read back. -/
  | pageIn (slice table idx : Nat) (ok : Bool)
  /-- R287. QSCH builds the serve list of frame n + 1 for each enabled tree by strict and deficit passes. -/
  | serveListBuild (slice cycle : Nat) (cut bad : List (Nat × Nat))
  /-- R299. Q_CMD READ returns a QSCH table record. -/
  | qRead (slice table : Nat)
  /-- R299. Q_CMD WRITE writes a QSCH table record. -/
  | qWrite (slice table : Nat)
  /-- R299. Q_CMD READ_STATE returns a queue's, node's or policer's state. -/
  | qReadState (slice table : Nat)
  /-- R298. Q_CMD FLUSH empties a terminal, group or trunk queue. -/
  | qFlush (slice table : Nat)
  /-- R292. Every STRIDE ticks a round of queues is sampled into the latency-sample area. -/
  | queueSample (slice : Nat)
  /-- R289. GATE_COMMIT copies the admin list into the pending list, or refuses it. -/
  | gateCommit (inst cycle : Nat)
  /-- R290. At its start time the pending list becomes active with the gates of entry 0. -/
  | gateListStart (inst cycle : Nat)
  /-- R290. An entry's interval ends and the next entry's gate states take effect. -/
  | gateEntryAdvance (inst cycle : Nat)
  /-- R309. A circuit-link frame is sent from B(n). -/
  | cktFrameTransmit (link : Nat)
  /-- R311. A received circuit frame is delineated, placed in a receive tick and checked. -/
  | cktFrameReceive (link cycle : Nat) (at0 : Bool) (frame : List Byte)
  /-- R315. The lane's signal detector loses or regains signal, declaring or clearing LOS. -/
  | cktSignalChange (link : Nat) (lost : Bool)
  /-- R319. A second of the active domain ends and is classified as ES, SES, BBE or unavailable. -/
  | pmSecondEnd (link : Nat)
  /-- R320. A bin becomes final 10 s after its end. -/
  | pmBinFinal (link : Nat)
  /-- R329. PATH_CMD READ returns a path's configuration. -/
  | pathRead (link path : Nat)
  /-- R312. PATH_CMD WRITE writes a path, refused on overlap. -/
  | pathWrite (link path : Nat)
  /-- R329. PATH_CMD READ_STATE returns a path's defects and counts. -/
  | pathReadState (link path : Nat)
  /-- R329. PATH_CMD CLEAR_COUNTS clears a path's counts. -/
  | pathClearCounts (link path : Nat)
  /-- R320. BIN_CMD READ returns a performance bin. -/
  | binRead (link ent bin : Nat) (ok : Bool)
  /-- R323. The TSI stages destination frame n + 1 from source frame n − 1 under the page in effect. -/
  | tsiStage (cycle moved : Nat)
  /-- R332. CONN_CMD READ returns a connection entry of a page. -/
  | connRead (page : Nat)
  /-- R324. CONN_CMD WRITE writes a standby-page entry, refused while locked. -/
  | connWrite
  /-- R332. CONN_CMD CLEAR clears a standby-page entry. -/
  | connClear
  /-- R332. CONN_CMD COPY_ACTIVE copies the active page into the standby page. -/
  | copyActive
  /-- R332. CONN_CMD CLEAR_PAGE clears the standby page. -/
  | clearPage
  /-- R324. SWITCH_CTL.ARM starts verification of the standby page for a switch at T. -/
  | tsiArm
  /-- R324. Verification completes and arms the switch or reports the first failing entry. -/
  | tsiVerifyDone
  /-- R324. SWITCH_CTL.CANCEL disarms a pending page switch before T. -/
  | tsiCancel
  /-- R325. ASSIGN_CMD PUSH standby queues CKT_ASSIGN of the standby page for a terminal. -/
  | assignPushStandby (tree term : Nat)
  /-- R325. ASSIGN_CMD PUSH active queues CKT_ASSIGN of the active page for a terminal. -/
  | assignPushActive (tree term : Nat)
  /-- R336. A write of INCR_LO commits a domain's increment, refused outside range. -/
  | incrWrite (d incr cycle : Nat)
  /-- R337. ADJ_CTL START with OP ADD pends a signed adjustment for the next boundary. -/
  | adjAdd (d subns : Nat)
  /-- R337. ADJ_CTL START with OP SET pends a load of the counter for the next boundary. -/
  | adjSet (d subns : Nat)
  /-- R338. A write of KEEPALIVE restarts the holdover watchdog and ends holdover. -/
  | keepalive (d : Nat)
  /-- R338. HOLD_TICKS pass without discipline and the domain enters holdover. -/
  | holdoverEnter (d : Nat)
  /-- R338. Every 8,000 ticks of holdover ACC_NOW grows by ACC_GROWTH. -/
  | accGrowth (d : Nat)
  /-- R340. SWITCH_CTL.START requests a switch of network time to the other domain. -/
  | domainSwitchStart (target mode : Nat)
  /-- R341. A write of DOM_CTL.VALID declares a domain valid or invalid. -/
  | domValidWrite (d : Nat) (v : Word)
  /-- R342. A write of a compare channel sets its target and fires at once if it lies in the past. -/
  | cmpWrite (c : Nat) (secLo secHi ns ctl : Word) (cycle : Nat)
  /-- R342. A compare channel reaches its target, fires, drives PPS_OUT and advances a periodic target. -/
  | cmpFire (cycle : Nat)
  /-- R344. An asserted PPS_IN edge latches both domain times. -/
  | ppsInEdge (rising : Bool) (cycle : Nat)
  /-- R345. SNAP_CTL.SNAP latches both domain times, network time, M and the cycle. -/
  | snapshot (cycle : Nat)
  /-- R359. A navigator executes a base RV64IMAC instruction. -/
  | navInstruction (cluster nav cycle : Nat) (stalls : List Nat) (hold : Bool)
  /-- R360. WLD loads 16 bytes into a wide register. -/
  | wld (cluster nav cycle : Nat) (stalls : List Nat)
  /-- R360. WST stores a wide register to 16 bytes. -/
  | wst (cluster nav cycle : Nat) (stalls : List Nat)
  /-- R360. WADD adds wide registers lane-wise. -/
  | wadd (cluster nav cycle : Nat) (stalls : List Nat)
  /-- R360. WSUB subtracts wide registers lane-wise. -/
  | wsub (cluster nav cycle : Nat) (stalls : List Nat)
  /-- R360. WAND is a bitwise AND of wide registers. -/
  | wand (cluster nav cycle : Nat) (stalls : List Nat)
  /-- R360. WOR is a bitwise OR of wide registers. -/
  | wor (cluster nav cycle : Nat) (stalls : List Nat)
  /-- R360. WXOR is a bitwise XOR of wide registers. -/
  | wxor (cluster nav cycle : Nat) (stalls : List Nat)
  /-- R360. WCMPEQ compares wide registers lane-wise. -/
  | wcmpeq (cluster nav cycle : Nat) (stalls : List Nat)
  /-- R360. WSHL shifts wide register lanes left. -/
  | wshl (cluster nav cycle : Nat) (stalls : List Nat)
  /-- R360. WSHR shifts wide register lanes right. -/
  | wshr (cluster nav cycle : Nat) (stalls : List Nat)
  /-- R360. WINS inserts an integer into one lane. -/
  | wins (cluster nav cycle : Nat) (stalls : List Nat)
  /-- R360. WEXT extracts one lane into an integer register. -/
  | wext (cluster nav cycle : Nat) (stalls : List Nat)
  /-- R361. CRCSTEP advances a CRC over up to 16 bytes. -/
  | crcstep (cluster nav cycle : Nat) (stalls : List Nat)
  /-- R366. MBX.SEND sends 16 bytes to an endpoint and returns accepted, full or refused. -/
  | mbxSend (cluster nav cycle : Nat) (stalls : List Nat) (full : Bool)
  /-- R366. MBX.RECV takes the oldest message of the receive queue. -/
  | mbxRecv (cluster nav cycle : Nat) (stalls : List Nat)
  /-- R362. WFT waits for a tick boundary or a message, or returns at once if one has passed. -/
  | wft (cluster nav cycle : Nat) (stalls : List Nat)
  /-- R370. FLK looks up a key in the slice's forwarding table. -/
  | flk (cluster nav cycle : Nat) (stalls : List Nat)
  /-- R371. ALMREQ issues a slot command from a request block. -/
  | almreq (cluster nav cycle : Nat) (stalls : List Nat)
  /-- R366. A message is delivered to a navigator's receive queue, or dropped if it is full. -/
  | mbxDeliver (cluster : Nat)
  /-- R367. A register message to MSEC performs a permitted read or write and sends a reply. -/
  | msecRegMessage (cluster inst : Nat)
  /-- R369. An injection descriptor to INJECT reads the frame and enters it into the parser. -/
  | navInject (cluster cycle : Nat)
  /-- R369. An injected frame departs or is refused and its completion is sent. -/
  | injectComplete
  /-- R371. A navigator slot command completes and its results and completion are written. -/
  | almreqComplete (cluster nav : Nat)
  /-- R366. A message to HOST is posted to exception ring HOST_RING. -/
  | hostMailboxPost (cluster : Nat)
  /-- R368. A frame to a cluster is written to its frame ring with a notice, or dropped. -/
  | navFrameRx (cluster : Nat)
  /-- R358. A navigator with no WFT across WDOG_TICKS boundaries is restarted with cause WATCHDOG. -/
  | navWatchdog (cluster nav : Nat)
  /-- R373. An engine fails on an uncorrectable or parity error and stops, discarding its requests. -/
  | engineFail (cluster nav : Nat)
  /-- R372. A write of NAV_CTL.EN or RUN_MASK starts navigators COLD at the next boundary or stops them at once. -/
  | navEnable (cluster : Nat) (v : Word)
  /-- R375. IMG_CMD LOAD copies and checks a Vuthiuz image and writes it into the target bank. -/
  | imgLoad (cluster : Nat) (v : Word) (image : List Byte)
  /-- R375. The image load completes with its status. -/
  | imgLoadDone (cluster : Nat) (err : Bool)
  /-- R376. A write of MIN_SVN is stored only if greater. -/
  | minSvnWrite (cluster : Nat) (v : Word)
  /-- R377. BANK_CTL.ARM schedules a switch of the active bank at T. -/
  | bankArm (cluster : Nat)
  /-- R377. BANK_CTL.CANCEL disarms a bank switch before T. -/
  | bankCancel (cluster : Nat)
  /-- R377. At T + 1 a navigator still in the old bank is stopped and started in the new one. -/
  | bankForced (cluster nav : Nat)
  /-- R379. A write of REGION_CFG commits a Quadrant region in one cycle. -/
  | regionCommit (inst : Nat) (v : Word)
  /-- R379. A read of FENCE waits for accesses checked under replaced rules. -/
  | qmapFence (inst waited : Nat)
  /-- R389. SEAL_CTL.INIT checks the stack map and initialises protected ranges and trees. -/
  | sealInit (inst : Nat)
  /-- R389. Initialisation completes and READY sets. -/
  | sealInitDone (inst : Nat)
  /-- R392. A line read is decrypted, tag-checked and verified through the counter tree. -/
  | hbmLineRead (inst master line : Nat) (got : List Byte) (ecc : Bool) (bad : List Nat)
  /-- R393. A whole-line write increments the counter, encrypts and writes a fresh tag. -/
  | hbmLineWrite (inst master off : Nat) (data : List Byte) (got : List (List Byte)) (ecc : List Bool) (bad : List Nat)
  /-- R398. RESEAL_CMD RESEAL_RANGE raises the epoch and rewrites a whole range. -/
  | resealRange (inst r : Nat)
  /-- R398. RESEAL_CMD RESEAL_NODE rebuilds the oldest listed poisoned node. -/
  | resealNode (inst r : Nat)
  /-- R398. A reseal completes and RESEAL_BUSY falls. -/
  | resealDone (inst : Nat)
  /-- R412. A ring doorbell hands descriptors to the device or gives it descriptors. -/
  | doorbellWrite (ring index : Nat) (descs : List (List Byte))
  /-- R415. A WRITE command writes data registers highest first. -/
  | ringCmdWrite (ring cycle : Nat) (data : List Byte)
  /-- R415. A READ command reads data registers lowest first. -/
  | ringCmdRead (ring cycle : Nat)
  /-- R415. An EXEC command writes data, writes the command register and waits for BUSY to fall. -/
  | ringCmdExec (ring cycle : Nat) (data : List Byte)
  /-- R415. A BULK command copies records of a page into a window. -/
  | ringCmdBulk (ring cycle : Nat)
  /-- R417. BUSY still 1 after WAIT_MS completes the command with TIMEOUT. -/
  | execTimeout (ring cycle : Nat)
  /-- R417. A completion is written to a given descriptor, waiting for one if none is given. -/
  | completionPost (ring : Nat)
  /-- R419. An event item or frame is written to an exception ring, truncated or dropped. -/
  | exceptionPost (ring : Nat)
  /-- R420. An injection-ring descriptor's frame is read and entered into the parser. -/
  | injectionDescriptor (ring cycle : Nat) (data : List Byte)
  /-- R421. A host-interface fault discards in-flight items, clears windows and rings, and quiesces. -/
  | hifFault (cause : Nat)
  /-- R421. A ring DMA read error or timeout discards that ring's items and clears its EN. -/
  | ringFault (ring : Nat) (timeout : Bool)
  /-- R421. HIF_CTL.RESUME clears QUIESCED. -/
  | hifResume
  /-- R411. RING_CTL.EN set clears ring state, refused while quiesced. -/
  | ringEnable (v : Word)
  /-- R410. A read of WIN_FENCE waits for transfers checked under replaced settings. -/
  | winFenceRead (waited : Nat)
  /-- R423. A write of VEC_EOI re-enables a vector, sending again if its request is 1. -/
  | vecEoi (v : Nat)
  /-- R422. COAL_US passes since the first unsignalled item and raises a ring request. -/
  | ringCoalTimeout (ring cycle : Nat)
  /-- R423. Unmasking a vector sends its pending message if its request is 1. -/
  | msixUnmask (v : Nat)
  /-- R424. CRC_CTL.START loads the state from CRC_INIT. -/
  | crcStart (inst : Nat) (v : Word)
  /-- R424. A write of DATA8 feeds 1 byte. -/
  | crcData8 (inst : Nat) (v : Word)
  /-- R424. A write of DATA16 feeds 2 bytes. -/
  | crcData16 (inst : Nat) (v : Word)
  /-- R424. A write of DATA32 feeds 4 bytes. -/
  | crcData32 (inst : Nat) (v : Word)
  /-- R424. A write of DATA128[3] feeds 16 bytes. -/
  | crcData128 (inst : Nat) (v : Word)
  /-- R424. CHECK compares RESULT with EXPECT after the FIFO drains. -/
  | crcCheck (inst : Nat)
  /-- R425. Every K ticks the PMC latches every counter and writes a snapshot slot. -/
  | pmcSnapshot (cycle : Nat) (own : Bool)
  /-- R435. A block detects an error source and reports an event, which is classified, captured and counted. -/
  | errEvent (evs : List Det)
  /-- R437. A source's escalation window closes after ESC_W ticks and its count returns to 0. -/
  | escWindowClose (ty inst src : Nat)
  /-- R438. Writing 1 to ERR_OVF.CAPT releases a page's first-error capture. -/
  | errCaptureRelease (ty inst : Nat)
  /-- R442. A write of ERR_FORCE bit i raises one forced event of source i. -/
  | errForce (ty inst : Nat) (v : Word)
  /-- R443. Clearing the last SEVERE bit deasserts ERR_N. -/
  | severeClear (hi : Bool) (v : Word)
  /-- R450. FIRST_CTL.RELEASE clears the device-wide first record. -/
  | firstRelease
  /-- R459. ROLE_IN changes and is filtered for FILT ns. -/
  | roleInChange (level : Bool) (cycle : Nat)
  /-- R462. When both are active, the earlier one becomes standby at the second boundary. -/
  | roleYield
  /-- R465. A HELLO, CT or PROOF of the pair handshake is received and checked, deriving the pair key when complete.
  -/
  | mateHandshakeMessage (kind : Nat) (d : Bytes)
  /-- R464. A mate frame is checked, decrypted and its mirror records applied. -/
  | mateFrameReceive (frame : Bytes)
  /-- R466. Every LINK_REKEY ticks member 0 names a pair-link key switch. -/
  | linkRekeyDue
  /-- R472. PAIR_CMD RESYNC forces a mirror resynchronisation. -/
  | pairResync
  /-- R472. PAIR_CMD REKEY_NOW names a pair-link key switch now. -/
  | pairRekeyNow
  /-- R533. After POR_N release the device locks its PLL, reads OTP, evaluates the life cycle, regenerates the root,
  repairs and trains. -/
  | powerOnSequence (array : List Word) (navBad katBad : List (Nat × Nat)) (drbg : Bool) (hbmBad pllBad : List Nat)
  /-- R533. PERST_N deasserted lets the PCIe core leave reset and train the link. -/
  | perstDeassert
  /-- R537. POR_N asserted resets the device cold. -/
  | porAssert
  /-- R444. VDD_CORE falls and returns, the only way out of a halt. -/
  | powerCycle (torn : Option (List Byte))
  /-- R521. A dip longer than 10 us resets the device with no VOLT event, and the VBAT domain takes over. -/
  | supplyLoss (core : Bool) (torn : Option (List Byte))
  /-- R483. VBAT below 2.0 V with the main supplies off loses the backup cell. -/
  | vbatLoss
  /-- R480. LCS_CMD ADVANCE moves the life cycle forward, destroying keys and programming LC_STATE. -/
  | lcAdvance (target : Nat) (data : Bytes) (cut : Option (Nat × Nat))
  /-- R482. LCS_CMD READ_ID writes ID_PUB and its signature to a window. -/
  | readId (window : Nat)
  /-- R475. LCS_CMD WRITE_ROOT_HASH programs ROOT_CA_HASH once. -/
  | writeRootHash (window : Nat) (d : Bytes)
  /-- R475. LCS_CMD WRITE_IMAGE_KEY programs an image-key slot once. -/
  | writeImageKey (slot window : Nat) (d : Bytes)
  /-- R475. LCS_CMD REVOKE_IMAGE_KEY sets a slot's REVOKED bit. -/
  | revokeImageKey (slot : Nat)
  /-- R475. LCS_CMD WRITE_SUBSYS programs the subsystem IDs once. -/
  | writeSubsys (window : Nat) (d : Bytes)
  /-- R498. LCS_CMD LOG_APPEND appends a software Logbook entry from LOG_SW. -/
  | logAppend
  /-- R492. A queued Logbook entry is programmed into OTP, or lost or diverted when the queue or Logbook is full. -/
  | logbookAppend (torn : Option Bytes)
  /-- R486. At each 32.768 kHz sample every enabled monitor is judged against its FILT count. -/
  | tamperSample (conds tin : Nat)
  /-- R486. A VOLT or CLOCK fast detector sees a dip, glitch or stop and raises or latches it. -/
  | tamperFastDetect (i : Nat)
  /-- R488. TAMP_CMD FUSE permanently disables a monitor. -/
  | tampFuse (src : Nat)
  /-- R489. TAMP_CMD TEST stimulates one monitor's detector for 1 ms with its response suppressed. -/
  | tampTest (src : Nat)
  /-- R489. The 1 ms test ends and sets PASSED or FAILED. -/
  | tampTestEnd (detected : Bool)
  /-- R484. A write of RTC_SEC_LO commits the RTC seconds and sets RTC_VALID. -/
  | rtcSet (sec : Nat)
  /-- R493. An Eyepiece instruction is selected, or BYPASS if refused. -/
  | tapInstruction (ir : Nat)
  /-- R495. A debug access is checked at issue and performed or refused. -/
  | dapaccAccess (addr : Nat) (v : Option Word) (cycle : Nat) (got : List Byte) (ecc : Bool) (bad : List Nat)
  /-- R502. A write of TOKEN_FIFO adds one token word. -/
  | tokenFifoWrite (v : Word)
  /-- R496. TOKEN_CMD.SUBMIT checks an unlock token and unlocks the port or counts a failure. -/
  | tokenSubmit
  /-- R502. DBG_CTL.RELOCK ends the unlock. -/
  | dbgRelock
  /-- R496. DBG_CTL.CHAL_NEW draws a new challenge. -/
  | chalNew
  /-- R496. The unlock's DURATION passes and the port closes. -/
  | unlockExpiry
  /-- R507. A mate or circuit link leaves electrical idle with a training burst and sends TRAIN blocks. -/
  | linkBringupStart (link : Nat)
  /-- R506. A training block is received, advancing block lock and the TRAIN, READY and STEP sequence. -/
  | trainingBlockReceive (n : Nat) (b : Bytes)
  /-- R507. At the end of the COUNT 0 STEP block the lanes switch to the high rate and start training. -/
  | stepSwitch (link : Nat)
  /-- R507. Start-up training at the high rate completes and the lane can become UP. -/
  | highRateTrainingDone (n : Nat) (v : List Nat)
  /-- R507. A lane not UP within STEP_TIMEOUT returns the link to the low rate. -/
  | stepTimeout (link : Nat)
  /-- R508. A mate codeword is decoded, deskewed and its chunk added to the byte stream. -/
  | mateCodewordReceive (n hdr : Nat) (chunk : Bytes) (fec skew : Nat)
  /-- R512. A partner leaving a short electrical idle is relocked within the training burst. -/
  | fastExit (n : Nat)
  /-- R532. A lane PLL or its reference loses lock and the lane idles until it relocks. -/
  | laneLockLoss (n : Nat)
  /-- R513. A write of PRBS_CTL sets the generator and checker, refused while traffic is enabled. -/
  | prbsCtlWrite (n : Nat) (v : Word)
  /-- R514. PRBS_CTL.INJ_ONE inverts one transmitted bit. -/
  | injOne (n : Nat)
  /-- R515. Background adaptation updates the equalizer and flags drift from the seeds. -/
  | adaptUpdate (n : Nat) (v : List Nat)
  /-- R516. ADAPT_CMD READ returns the seed and current value of one quantity. -/
  | adaptRead (n index : Nat)
  /-- R516. ADAPT_CMD RESEED makes every seed its current value and clears DRIFT. -/
  | adaptReseed (n : Nat)
  /-- R516. ADAPT_CMD RETRAIN takes the lane through full bring-up. -/
  | adaptRetrain (n : Nat)
  /-- R405. The PCIe link trains back up by itself after a link-down, hot reset or FLR, setting WIDTH and SPEED while
  the interface stays quiesced until RESUME. -/
  | pcieLinkUp (width speed : Nat)
  /-- R512. A mate receiver sees its partner's transmitter enter electrical idle and keeps its CDR and adaptation
  state. -/
  | electricalIdleDetect (n : Nat)
  /-- R512. An electrical idle of the partner or of the own transmitter outlasts IDLE_KEEP, so the link leaves
  fast-exit readiness and goes through the full bring-up of R507. -/
  | idleKeepExpiry (n : Nat)
  /-- R532. A lane PLL, or its reference clock, locks again after a loss, and the lane leaves idle to bring up
  afresh. -/
  | lanePllRelock (n : Nat)
  /-- R513. The PRBS checker takes received bits, gains lock after 64 error-free bits, loses lock, and counts
  PRBS_BITS and PRBS_ERR. -/
  | prbsCheck (n : Nat) (errs : List Bool) (lose : Bool)
  deriving DecidableEq, Repr

end Sys2Proof
end

