-- ==== Sys2Proof/Decode.lean ====
section
/-! DEFINITION. The table of operations and events gives no row any bits: a command reaches the block as a register access, a frame, a
pin event or an internal event, never as an encoded word. What a navigator fetches is decoded in Machine/Rv.lean. -/

namespace Sys2Proof

/-- No word spells a command. (DESIGN CHOICE, log entry 3) -/
def decodeTableWord (_nbits _w : Nat) : Option Instr := none

end Sys2Proof
end

