-- ==== Sys2Proof/Machine/RegMap.lean ====
section
/-! DEFINITION. The register map: every register page of the spec (R6, R31, R69, R107, R135, R161, R218, R223, R226,
R246, R249, R271, R295, R298, R302, R329, R332, R353, R382, R385, R402, R407, R428, R431, R433, R450, R451, R472, R498,
R500, R502, R530), with every field's place, access code, reset value and storing rule, as the chapters' register
tables give them. A register is named by `RegId` (type code of R408, offset), a field by `FldId`. -/

namespace Sys2Proof.Machine

/-- The access codes of R7. -/
inductive Acc where
  | rw | ro | w1c | w1s | wo | rwo
  deriving DecidableEq, Repr

/-- One field of a register: place, access, reset value, and the storing rule ("stored within cLo to cHi", and
"mLo to mHi stored as mTo" where mLo is at most mHi). -/
structure FieldSpec where
  lo : Nat
  w : Nat
  acc : Acc
  rst : Nat
  cLo : Nat
  cHi : Nat
  mLo : Nat
  mHi : Nat
  mTo : Nat
  deriving DecidableEq, Repr

/-- One register, or an array of `n` registers `stride` bytes apart. -/
structure RegSpec where
  off : Nat
  n : Nat
  stride : Nat
  fields : List FieldSpec
  deriving DecidableEq, Repr

/-- A register of a page: the page's type code and the offset. -/
structure RegId where
  ty : Nat
  off : Nat
  deriving DecidableEq, Repr

/-- A field of a register: the page's type code, the register's offset, the field's lowest bit and width. -/
structure FldId where
  ty : Nat
  off : Nat
  lo : Nat
  w : Nat
  deriving DecidableEq, Repr

/-- A field with no storing rule. -/
def fs (lo w : Nat) (a : Acc) (r : Nat) : FieldSpec := ⟨lo, w, a, r, 0, 2 ^ w - 1, 1, 0, 0⟩
/-- A field stored within a range. -/
def fc (lo w r cLo cHi : Nat) : FieldSpec := ⟨lo, w, .rw, r, cLo, cHi, 1, 0, 0⟩
/-- A field some of whose values are stored as another. -/
def fm (lo w r mLo mHi mTo : Nat) : FieldSpec := ⟨lo, w, .rw, r, 0, 2 ^ w - 1, mLo, mHi, mTo⟩

/-! The type codes of R408. -/
namespace Ty
def TOP : Nat := 0x00
def BIN : Nat := 0x01
def HIF : Nat := 0x02
def PMC : Nat := 0x03
def CRC : Nat := 0x04
def AST : Nat := 0x05
def ALM : Nat := 0x06
def PKA : Nat := 0x07
def LCS : Nat := 0x08
def TAMP : Nat := 0x09
def DBG : Nat := 0x0A
def PAIR : Nat := 0x0B
def SEAL : Nat := 0x0C
def BUF : Nat := 0x0D
def TTX : Nat := 0x10
def TRX : Nat := 0x11
def SXT : Nat := 0x12
def ORR : Nat := 0x13
def TRK : Nat := 0x18
def MSEC : Nat := 0x19
def CIPH : Nat := 0x1A
def FWD : Nat := 0x1C
def QSCH : Nat := 0x1D
def GATE : Nat := 0x1E
def CKT : Nat := 0x20
def TSI : Nat := 0x21
def NAV : Nat := 0x24
def QMAP : Nat := 0x25
def SER : Nat := 0x28
end Ty

/-! ## Names of the registers and of their fields -/

namespace Reg
def TOP_PART_ID : RegId := ⟨0x00, 0x040⟩
def TOP_PART_ID_PART_CODE : FldId := ⟨0x00, 0x040, 16, 16⟩
def TOP_PART_ID_STEPPING : FldId := ⟨0x00, 0x040, 8, 8⟩
def TOP_UNIT_COUNTS : RegId := ⟨0x00, 0x044⟩
def TOP_UNIT_COUNTS_TREES : FldId := ⟨0x00, 0x044, 0, 8⟩
def TOP_UNIT_COUNTS_TRUNK_LANES : FldId := ⟨0x00, 0x044, 8, 8⟩
def TOP_UNIT_COUNTS_NAVIGATORS : FldId := ⟨0x00, 0x044, 16, 10⟩
def TOP_UNIT_COUNTS_HBM_STACKS : FldId := ⟨0x00, 0x044, 26, 2⟩
def TOP_UNIT_COUNTS_CKT_TSI : FldId := ⟨0x00, 0x044, 28, 1⟩
def TOP_UNIT_COUNTS_PQC_KEM : FldId := ⟨0x00, 0x044, 29, 1⟩
def BIN_CTL : RegId := ⟨0x01, 0x040⟩
def BIN_CTL_ERR_N_EN : FldId := ⟨0x01, 0x040, 0, 1⟩
def BIN_CTL_LOG_SEVERE : FldId := ⟨0x01, 0x040, 1, 1⟩
def BIN_STS : RegId := ⟨0x01, 0x044⟩
def BIN_STS_FATAL : FldId := ⟨0x01, 0x044, 0, 1⟩
def BIN_STS_ERR_N : FldId := ⟨0x01, 0x044, 1, 1⟩
def BIN_STS_FIRST_VALID : FldId := ⟨0x01, 0x044, 2, 1⟩
def BIN_BLOCK_ERR_LO : RegId := ⟨0x01, 0x048⟩
def BIN_BLOCK_ERR_LO_TYPES : FldId := ⟨0x01, 0x048, 0, 32⟩
def BIN_BLOCK_ERR_HI : RegId := ⟨0x01, 0x04C⟩
def BIN_BLOCK_ERR_HI_TYPES : FldId := ⟨0x01, 0x04C, 0, 32⟩
def BIN_SEVERE_LO : RegId := ⟨0x01, 0x050⟩
def BIN_SEVERE_LO_TYPES : FldId := ⟨0x01, 0x050, 0, 32⟩
def BIN_SEVERE_HI : RegId := ⟨0x01, 0x054⟩
def BIN_SEVERE_HI_TYPES : FldId := ⟨0x01, 0x054, 0, 32⟩
def BIN_FIRST_SRC : RegId := ⟨0x01, 0x058⟩
def BIN_FIRST_SRC_SOURCE : FldId := ⟨0x01, 0x058, 0, 8⟩
def BIN_FIRST_SRC_CLASS : FldId := ⟨0x01, 0x058, 8, 2⟩
def BIN_FIRST_SRC_ESCALATED : FldId := ⟨0x01, 0x058, 10, 1⟩
def BIN_FIRST_SRC_FORCED : FldId := ⟨0x01, 0x058, 11, 1⟩
def BIN_FIRST_SRC_VALID : FldId := ⟨0x01, 0x058, 15, 1⟩
def BIN_FIRST_SRC_INSTANCE : FldId := ⟨0x01, 0x058, 16, 8⟩
def BIN_FIRST_SRC_TYPE : FldId := ⟨0x01, 0x058, 24, 8⟩
def BIN_FIRST_TICK_LO : RegId := ⟨0x01, 0x05C⟩
def BIN_FIRST_TICK_LO_TICK : FldId := ⟨0x01, 0x05C, 0, 32⟩
def BIN_FIRST_TICK_HI : RegId := ⟨0x01, 0x060⟩
def BIN_FIRST_TICK_HI_TICK : FldId := ⟨0x01, 0x060, 0, 16⟩
def BIN_FIRST_CTL : RegId := ⟨0x01, 0x064⟩
def BIN_FIRST_CTL_RELEASE : FldId := ⟨0x01, 0x064, 0, 1⟩
def BIN_FATAL_SRC : RegId := ⟨0x01, 0x068⟩
def BIN_FATAL_SRC_SOURCE : FldId := ⟨0x01, 0x068, 0, 8⟩
def BIN_FATAL_SRC_CLASS : FldId := ⟨0x01, 0x068, 8, 2⟩
def BIN_FATAL_SRC_ESCALATED : FldId := ⟨0x01, 0x068, 10, 1⟩
def BIN_FATAL_SRC_FORCED : FldId := ⟨0x01, 0x068, 11, 1⟩
def BIN_FATAL_SRC_VALID : FldId := ⟨0x01, 0x068, 15, 1⟩
def BIN_FATAL_SRC_INSTANCE : FldId := ⟨0x01, 0x068, 16, 8⟩
def BIN_FATAL_SRC_TYPE : FldId := ⟨0x01, 0x068, 24, 8⟩
def BIN_FATAL_TICK_LO : RegId := ⟨0x01, 0x06C⟩
def BIN_FATAL_TICK_LO_TICK : FldId := ⟨0x01, 0x06C, 0, 32⟩
def BIN_FATAL_TICK_HI : RegId := ⟨0x01, 0x070⟩
def BIN_FATAL_TICK_HI_TICK : FldId := ⟨0x01, 0x070, 0, 16⟩
def BIN_NOTICE_EVENTS : RegId := ⟨0x01, 0x074⟩
def BIN_CORRECTED_EVENTS : RegId := ⟨0x01, 0x078⟩
def BIN_SEVERE_EVENTS : RegId := ⟨0x01, 0x07C⟩
def BIN_ESCALATIONS : RegId := ⟨0x01, 0x080⟩
def BIN_MERGED_EVENTS : RegId := ⟨0x01, 0x084⟩
def BIN_FORCED_EVENTS : RegId := ⟨0x01, 0x088⟩
def BIN_SUPERSEDED : RegId := ⟨0x01, 0x08C⟩
def BIN_COUNT_CTL : RegId := ⟨0x01, 0x090⟩
def BIN_COUNT_CTL_CLR_ALL : FldId := ⟨0x01, 0x090, 0, 1⟩
def HIF_CTL : RegId := ⟨0x02, 0x040⟩
def HIF_CTL_RESUME : FldId := ⟨0x02, 0x040, 0, 1⟩
def HIF_STS : RegId := ⟨0x02, 0x044⟩
def HIF_STS_WIDTH : FldId := ⟨0x02, 0x044, 0, 5⟩
def HIF_STS_SPEED : FldId := ⟨0x02, 0x044, 5, 3⟩
def HIF_STS_QUIESCED : FldId := ⟨0x02, 0x044, 8, 1⟩
def HIF_STS_FAULT_CAUSE : FldId := ⟨0x02, 0x044, 9, 3⟩
def HIF_WIN_SEL : RegId := ⟨0x02, 0x048⟩
def HIF_WIN_SEL_WINDOW : FldId := ⟨0x02, 0x048, 0, 4⟩
def HIF_WIN_BASE_LO : RegId := ⟨0x02, 0x04C⟩
def HIF_WIN_BASE_LO_BASE : FldId := ⟨0x02, 0x04C, 12, 20⟩
def HIF_WIN_BASE_HI : RegId := ⟨0x02, 0x050⟩
def HIF_WIN_BASE_HI_BASE : FldId := ⟨0x02, 0x050, 0, 32⟩
def HIF_WIN_SIZE : RegId := ⟨0x02, 0x054⟩
def HIF_WIN_SIZE_PAGES : FldId := ⟨0x02, 0x054, 0, 21⟩
def HIF_WIN_CTL : RegId := ⟨0x02, 0x058⟩
def HIF_WIN_CTL_EN : FldId := ⟨0x02, 0x058, 0, 1⟩
def HIF_WIN_CTL_RD : FldId := ⟨0x02, 0x058, 1, 1⟩
def HIF_WIN_CTL_WR : FldId := ⟨0x02, 0x058, 2, 1⟩
def HIF_WIN_FENCE : RegId := ⟨0x02, 0x05C⟩
def HIF_WIN_FENCE_WAITED : FldId := ⟨0x02, 0x05C, 0, 16⟩
def HIF_RING_SEL : RegId := ⟨0x02, 0x060⟩
def HIF_RING_SEL_RING : FldId := ⟨0x02, 0x060, 0, 8⟩
def HIF_RING_OFF_LO : RegId := ⟨0x02, 0x064⟩
def HIF_RING_OFF_LO_OFFSET : FldId := ⟨0x02, 0x064, 6, 26⟩
def HIF_RING_OFF_HI : RegId := ⟨0x02, 0x068⟩
def HIF_RING_OFF_HI_OFFSET : FldId := ⟨0x02, 0x068, 0, 32⟩
def HIF_RING_CFG : RegId := ⟨0x02, 0x06C⟩
def HIF_RING_CFG_WINDOW : FldId := ⟨0x02, 0x06C, 0, 4⟩
def HIF_RING_CFG_LOG2_SIZE : FldId := ⟨0x02, 0x06C, 4, 5⟩
def HIF_RING_CFG_CQ : FldId := ⟨0x02, 0x06C, 9, 3⟩
def HIF_RING_CFG_VECTOR : FldId := ⟨0x02, 0x06C, 12, 8⟩
def HIF_RING_COAL : RegId := ⟨0x02, 0x070⟩
def HIF_RING_COAL_COAL_CNT : FldId := ⟨0x02, 0x070, 0, 8⟩
def HIF_RING_COAL_COAL_US : FldId := ⟨0x02, 0x070, 8, 10⟩
def HIF_RING_CTL : RegId := ⟨0x02, 0x074⟩
def HIF_RING_CTL_EN : FldId := ⟨0x02, 0x074, 0, 1⟩
def HIF_RING_STS : RegId := ⟨0x02, 0x078⟩
def HIF_RING_STS_DEV_IDX : FldId := ⟨0x02, 0x078, 0, 16⟩
def HIF_RING_STS_HANDED : FldId := ⟨0x02, 0x078, 16, 15⟩
def HIF_RING_STS_ERR : FldId := ⟨0x02, 0x078, 31, 1⟩
def HIF_LAST_DONE_SEQ : RegId := ⟨0x02, 0x07C⟩
def HIF_LAST_DONE_SEQ_SEQ : FldId := ⟨0x02, 0x07C, 0, 32⟩
def HIF_ROUTE_SEL : RegId := ⟨0x02, 0x080⟩
def HIF_ROUTE_SEL_INSTANCE : FldId := ⟨0x02, 0x080, 0, 8⟩
def HIF_ROUTE_SEL_TYPE : FldId := ⟨0x02, 0x080, 8, 8⟩
def HIF_ROUTE_DATA : RegId := ⟨0x02, 0x084⟩
def HIF_ROUTE_DATA_VECTOR : FldId := ⟨0x02, 0x084, 0, 8⟩
def HIF_ROUTE_DATA_EN : FldId := ⟨0x02, 0x084, 8, 1⟩
def HIF_INT_TYPE_LO : RegId := ⟨0x02, 0x088⟩
def HIF_INT_TYPE_LO_TYPES : FldId := ⟨0x02, 0x088, 0, 32⟩
def HIF_INT_TYPE_HI : RegId := ⟨0x02, 0x08C⟩
def HIF_INT_TYPE_HI_TYPES : FldId := ⟨0x02, 0x08C, 0, 32⟩
def HIF_VEC_EOI : RegId := ⟨0x02, 0x090⟩
def HIF_VEC_EOI_VECTOR : FldId := ⟨0x02, 0x090, 0, 8⟩
def HIF_CMD_DONE_LO : RegId := ⟨0x02, 0x0A0⟩
def HIF_CMD_DONE_HI : RegId := ⟨0x02, 0x0A4⟩
def HIF_BAD_ACCESS : RegId := ⟨0x02, 0x0A8⟩
def HIF_WIN_FAULT : RegId := ⟨0x02, 0x0AC⟩
def HIF_OWN_STALL : RegId := ⟨0x02, 0x0B0⟩
def HIF_RING_ERR : RegId := ⟨0x02, 0x0B4⟩
def HIF_DISCARDS : RegId := ⟨0x02, 0x0B8⟩
def HIF_EXC_FRAME_DROP : RegId := ⟨0x02, 0x0BC⟩
def HIF_ABSENT_CMD : RegId := ⟨0x02, 0x0C0⟩
def HIF_CFG_REJECT : RegId := ⟨0x02, 0x0C4⟩
def HIF_COUNT_CTL : RegId := ⟨0x02, 0x0C8⟩
def HIF_COUNT_CTL_CLR_ALL : FldId := ⟨0x02, 0x0C8, 0, 1⟩
def HIF_DOORBELL : RegId := ⟨0x02, 0x800⟩
def HIF_DOORBELL_INDEX : FldId := ⟨0x02, 0x800, 0, 16⟩
def PMC_CTL : RegId := ⟨0x03, 0x060⟩
def PMC_CTL_EN : FldId := ⟨0x03, 0x060, 0, 1⟩
def PMC_CTL_K : FldId := ⟨0x03, 0x060, 16, 16⟩
def PMC_DUMP_CFG : RegId := ⟨0x03, 0x064⟩
def PMC_DUMP_CFG_WINDOW : FldId := ⟨0x03, 0x064, 0, 4⟩
def PMC_DUMP_CFG_SLOTS : FldId := ⟨0x03, 0x064, 8, 8⟩
def PMC_DUMP_OFF_LO : RegId := ⟨0x03, 0x068⟩
def PMC_DUMP_OFF_LO_OFFSET : FldId := ⟨0x03, 0x068, 0, 32⟩
def PMC_DUMP_OFF_HI : RegId := ⟨0x03, 0x06C⟩
def PMC_DUMP_OFF_HI_OFFSET : FldId := ⟨0x03, 0x06C, 0, 32⟩
def PMC_SLOT_BYTES : RegId := ⟨0x03, 0x070⟩
def PMC_SLOT_BYTES_BYTES : FldId := ⟨0x03, 0x070, 0, 24⟩
def PMC_DUMP_IDX : RegId := ⟨0x03, 0x074⟩
def PMC_DUMP_IDX_SLOT : FldId := ⟨0x03, 0x074, 0, 8⟩
def PMC_SAMP_CFG : RegId := ⟨0x03, 0x078⟩
def PMC_SAMP_CFG_WINDOW : FldId := ⟨0x03, 0x078, 0, 4⟩
def PMC_SAMP_CFG_LOG2_SIZE : FldId := ⟨0x03, 0x078, 4, 5⟩
def PMC_SAMP_CFG_EN : FldId := ⟨0x03, 0x078, 9, 1⟩
def PMC_SAMP_OFF_LO : RegId := ⟨0x03, 0x07C⟩
def PMC_SAMP_OFF_LO_OFFSET : FldId := ⟨0x03, 0x07C, 0, 32⟩
def PMC_SAMP_OFF_HI : RegId := ⟨0x03, 0x080⟩
def PMC_SAMP_OFF_HI_OFFSET : FldId := ⟨0x03, 0x080, 0, 32⟩
def PMC_SAMP_PROD : RegId := ⟨0x03, 0x084⟩
def PMC_SAMP_PROD_INDEX : FldId := ⟨0x03, 0x084, 0, 21⟩
def PMC_SAMP_CONS : RegId := ⟨0x03, 0x088⟩
def PMC_SAMP_CONS_INDEX : FldId := ⟨0x03, 0x088, 0, 21⟩
def PMC_SNAPSHOTS : RegId := ⟨0x03, 0x08C⟩
def PMC_SNAP_SKIP : RegId := ⟨0x03, 0x090⟩
def PMC_SNAP_LATE : RegId := ⟨0x03, 0x094⟩
def PMC_CFG_REJECT : RegId := ⟨0x03, 0x098⟩
def PMC_COUNT_CTL : RegId := ⟨0x03, 0x09C⟩
def PMC_COUNT_CTL_CLR_ALL : FldId := ⟨0x03, 0x09C, 0, 1⟩
def CRC_CTL : RegId := ⟨0x04, 0x040⟩
def CRC_CTL_ALG : FldId := ⟨0x04, 0x040, 0, 2⟩
def CRC_CTL_START : FldId := ⟨0x04, 0x040, 8, 1⟩
def CRC_INIT_LO : RegId := ⟨0x04, 0x044⟩
def CRC_INIT_LO_INIT : FldId := ⟨0x04, 0x044, 0, 32⟩
def CRC_INIT_HI : RegId := ⟨0x04, 0x048⟩
def CRC_INIT_HI_INIT : FldId := ⟨0x04, 0x048, 0, 32⟩
def CRC_XOR_LO : RegId := ⟨0x04, 0x04C⟩
def CRC_XOR_LO_XOR : FldId := ⟨0x04, 0x04C, 0, 32⟩
def CRC_XOR_HI : RegId := ⟨0x04, 0x050⟩
def CRC_XOR_HI_XOR : FldId := ⟨0x04, 0x050, 0, 32⟩
def CRC_DATA8 : RegId := ⟨0x04, 0x054⟩
def CRC_DATA8_DATA : FldId := ⟨0x04, 0x054, 0, 8⟩
def CRC_DATA16 : RegId := ⟨0x04, 0x058⟩
def CRC_DATA16_DATA : FldId := ⟨0x04, 0x058, 0, 16⟩
def CRC_DATA32 : RegId := ⟨0x04, 0x05C⟩
def CRC_DATA32_DATA : FldId := ⟨0x04, 0x05C, 0, 32⟩
def CRC_DATA128 : RegId := ⟨0x04, 0x060⟩
def CRC_DATA128_DATA : FldId := ⟨0x04, 0x060, 0, 32⟩
def CRC_RESULT_LO : RegId := ⟨0x04, 0x070⟩
def CRC_RESULT_LO_RESULT : FldId := ⟨0x04, 0x070, 0, 32⟩
def CRC_RESULT_HI : RegId := ⟨0x04, 0x074⟩
def CRC_RESULT_HI_RESULT : FldId := ⟨0x04, 0x074, 0, 32⟩
def CRC_EXPECT_LO : RegId := ⟨0x04, 0x078⟩
def CRC_EXPECT_LO_EXPECT : FldId := ⟨0x04, 0x078, 0, 32⟩
def CRC_EXPECT_HI : RegId := ⟨0x04, 0x07C⟩
def CRC_EXPECT_HI_EXPECT : FldId := ⟨0x04, 0x07C, 0, 32⟩
def CRC_CHECK : RegId := ⟨0x04, 0x080⟩
def CRC_CHECK_CHECK : FldId := ⟨0x04, 0x080, 0, 1⟩
def CRC_STS : RegId := ⟨0x04, 0x084⟩
def CRC_STS_BUSY : FldId := ⟨0x04, 0x084, 0, 1⟩
def CRC_STS_MATCH : FldId := ⟨0x04, 0x084, 1, 1⟩
def CRC_STS_CHECKED : FldId := ⟨0x04, 0x084, 2, 1⟩
def CRC_BYTES_LO : RegId := ⟨0x04, 0x088⟩
def CRC_BYTES_HI : RegId := ⟨0x04, 0x08C⟩
def CRC_MISMATCHES : RegId := ⟨0x04, 0x090⟩
def CRC_COUNT_CTL : RegId := ⟨0x04, 0x094⟩
def CRC_COUNT_CTL_CLR_ALL : FldId := ⟨0x04, 0x094, 0, 1⟩
def AST_STS : RegId := ⟨0x05, 0x040⟩
def AST_STS_TICK_FREE : FldId := ⟨0x05, 0x040, 0, 1⟩
def AST_STS_ACTIVE : FldId := ⟨0x05, 0x040, 1, 1⟩
def AST_STS_SWITCHING : FldId := ⟨0x05, 0x040, 2, 1⟩
def AST_STS_SLEWING : FldId := ⟨0x05, 0x040, 3, 1⟩
def AST_SNAP_CTL : RegId := ⟨0x05, 0x044⟩
def AST_SNAP_CTL_SNAP : FldId := ⟨0x05, 0x044, 0, 1⟩
def AST_MERIDIAN_LO : RegId := ⟨0x05, 0x048⟩
def AST_MERIDIAN_LO_TICK : FldId := ⟨0x05, 0x048, 0, 32⟩
def AST_MERIDIAN_HI : RegId := ⟨0x05, 0x04C⟩
def AST_MERIDIAN_HI_TICK : FldId := ⟨0x05, 0x04C, 0, 16⟩
def AST_EPOCH_LO : RegId := ⟨0x05, 0x050⟩
def AST_EPOCH_LO_E_LO : FldId := ⟨0x05, 0x050, 0, 32⟩
def AST_EPOCH_HI : RegId := ⟨0x05, 0x054⟩
def AST_EPOCH_HI_E_HI : FldId := ⟨0x05, 0x054, 0, 16⟩
def AST_HIGH_WATER_LO : RegId := ⟨0x05, 0x058⟩
def AST_HIGH_WATER_LO_TICK : FldId := ⟨0x05, 0x058, 0, 32⟩
def AST_HIGH_WATER_HI : RegId := ⟨0x05, 0x05C⟩
def AST_HIGH_WATER_HI_TICK : FldId := ⟨0x05, 0x05C, 0, 16⟩
def AST_PHASE_ERR : RegId := ⟨0x05, 0x060⟩
def AST_PHASE_ERR_NS : FldId := ⟨0x05, 0x060, 0, 32⟩
def AST_SWITCH_CTL : RegId := ⟨0x05, 0x064⟩
def AST_SWITCH_CTL_TARGET : FldId := ⟨0x05, 0x064, 0, 1⟩
def AST_SWITCH_CTL_MODE : FldId := ⟨0x05, 0x064, 1, 1⟩
def AST_SWITCH_CTL_START : FldId := ⟨0x05, 0x064, 31, 1⟩
def AST_SWITCH_RESID : RegId := ⟨0x05, 0x068⟩
def AST_SWITCH_RESID_NS : FldId := ⟨0x05, 0x068, 0, 32⟩
def AST_TC_CFG : RegId := ⟨0x05, 0x06C⟩
def AST_TC_CFG_TC_EN : FldId := ⟨0x05, 0x06C, 0, 1⟩
def AST_TC_CFG_TWO_STEP : FldId := ⟨0x05, 0x06C, 1, 1⟩
def AST_TC_CFG_TC_DOMAIN : FldId := ⟨0x05, 0x06C, 2, 1⟩
def AST_TC_CFG_TS_DOMAIN : FldId := ⟨0x05, 0x06C, 3, 2⟩
def AST_TC_CFG_MATCH_AGE : FldId := ⟨0x05, 0x06C, 16, 16⟩
def AST_PPS_CFG : RegId := ⟨0x05, 0x070⟩
def AST_PPS_CFG_PPS_IN_EN : FldId := ⟨0x05, 0x070, 0, 1⟩
def AST_PPS_CFG_PPS_IN_POL : FldId := ⟨0x05, 0x070, 1, 1⟩
def AST_PPS_CFG_PPS_OUT_EN : FldId := ⟨0x05, 0x070, 2, 1⟩
def AST_PPS_CFG_PPS_OUT_POL : FldId := ⟨0x05, 0x070, 3, 1⟩
def AST_PPS_CFG_WIDTH : FldId := ⟨0x05, 0x070, 4, 20⟩
def AST_PPS_ADJ : RegId := ⟨0x05, 0x074⟩
def AST_PPS_ADJ_OUT : FldId := ⟨0x05, 0x074, 0, 16⟩
def AST_PPS_ADJ_IN : FldId := ⟨0x05, 0x074, 16, 16⟩
def AST_RCLK_CFG0 : RegId := ⟨0x05, 0x078⟩
def AST_RCLK_CFG0_SRC : FldId := ⟨0x05, 0x078, 0, 6⟩
def AST_RCLK_CFG0_EN : FldId := ⟨0x05, 0x078, 6, 1⟩
def AST_RCLK_CFG0_SQUELCH_EN : FldId := ⟨0x05, 0x078, 7, 1⟩
def AST_RCLK_CFG0_SQUELCHED : FldId := ⟨0x05, 0x078, 8, 1⟩
def AST_RCLK_CFG0_DIV : FldId := ⟨0x05, 0x078, 16, 16⟩
def AST_RCLK_CFG1 : RegId := ⟨0x05, 0x07C⟩
def AST_RCLK_CFG1_SRC : FldId := ⟨0x05, 0x07C, 0, 6⟩
def AST_RCLK_CFG1_EN : FldId := ⟨0x05, 0x07C, 6, 1⟩
def AST_RCLK_CFG1_SQUELCH_EN : FldId := ⟨0x05, 0x07C, 7, 1⟩
def AST_RCLK_CFG1_SQUELCHED : FldId := ⟨0x05, 0x07C, 8, 1⟩
def AST_RCLK_CFG1_DIV : FldId := ⟨0x05, 0x07C, 16, 16⟩
def AST_DOM_CTL : RegId := ⟨0x05, 0x080⟩
def AST_DOM_CTL_VALID : FldId := ⟨0x05, 0x080, 0, 1⟩
def AST_DOM_CTL_HOLD : FldId := ⟨0x05, 0x080, 1, 1⟩
def AST_DOM_CTL_LEAP61 : FldId := ⟨0x05, 0x080, 2, 1⟩
def AST_DOM_CTL_LEAP59 : FldId := ⟨0x05, 0x080, 3, 1⟩
def AST_DOM_CTL_ACCURACY : FldId := ⟨0x05, 0x080, 16, 16⟩
def AST_DOM_HOLD : RegId := ⟨0x05, 0x084⟩
def AST_DOM_HOLD_HOLD_TICKS : FldId := ⟨0x05, 0x084, 0, 16⟩
def AST_DOM_HOLD_ACC_GROWTH : FldId := ⟨0x05, 0x084, 16, 16⟩
def AST_DOM_STS : RegId := ⟨0x05, 0x088⟩
def AST_DOM_STS_HOLDOVER : FldId := ⟨0x05, 0x088, 0, 1⟩
def AST_DOM_STS_ACC_NOW : FldId := ⟨0x05, 0x088, 16, 16⟩
def AST_INCR_LO : RegId := ⟨0x05, 0x08C⟩
def AST_INCR_LO_INCR : FldId := ⟨0x05, 0x08C, 0, 32⟩
def AST_INCR_HI : RegId := ⟨0x05, 0x090⟩
def AST_INCR_HI_INCR : FldId := ⟨0x05, 0x090, 0, 8⟩
def AST_ADJ_S_LO : RegId := ⟨0x05, 0x094⟩
def AST_ADJ_S_LO_SEC_LO : FldId := ⟨0x05, 0x094, 0, 32⟩
def AST_ADJ_S_HI : RegId := ⟨0x05, 0x098⟩
def AST_ADJ_S_HI_SEC_HI : FldId := ⟨0x05, 0x098, 0, 16⟩
def AST_ADJ_NS : RegId := ⟨0x05, 0x09C⟩
def AST_ADJ_NS_NS : FldId := ⟨0x05, 0x09C, 0, 30⟩
def AST_ADJ_CTL : RegId := ⟨0x05, 0x0A0⟩
def AST_ADJ_CTL_SUBNS : FldId := ⟨0x05, 0x0A0, 0, 16⟩
def AST_ADJ_CTL_OP : FldId := ⟨0x05, 0x0A0, 16, 2⟩
def AST_ADJ_CTL_PENDING : FldId := ⟨0x05, 0x0A0, 30, 1⟩
def AST_ADJ_CTL_START : FldId := ⟨0x05, 0x0A0, 31, 1⟩
def AST_KEEPALIVE : RegId := ⟨0x05, 0x0A4⟩
def AST_KEEPALIVE_KICK : FldId := ⟨0x05, 0x0A4, 0, 1⟩
def AST_SNAP_S_LO : RegId := ⟨0x05, 0x100⟩
def AST_SNAP_S_LO_SEC : FldId := ⟨0x05, 0x100, 0, 32⟩
def AST_SNAP_S_HI : RegId := ⟨0x05, 0x104⟩
def AST_SNAP_S_HI_SEC : FldId := ⟨0x05, 0x104, 0, 16⟩
def AST_SNAP_S_HI_SUBNS : FldId := ⟨0x05, 0x104, 16, 16⟩
def AST_SNAP_NS : RegId := ⟨0x05, 0x108⟩
def AST_SNAP_NS_NS : FldId := ⟨0x05, 0x108, 0, 30⟩
def AST_SNAP_TICK_LO : RegId := ⟨0x05, 0x124⟩
def AST_SNAP_TICK_LO_TICK : FldId := ⟨0x05, 0x124, 0, 32⟩
def AST_SNAP_TICK_HI : RegId := ⟨0x05, 0x128⟩
def AST_SNAP_TICK_HI_TICK : FldId := ⟨0x05, 0x128, 0, 16⟩
def AST_SNAP_CYCLE : RegId := ⟨0x05, 0x12C⟩
def AST_SNAP_CYCLE_CYCLE : FldId := ⟨0x05, 0x12C, 0, 18⟩
def AST_CMP_S_LO : RegId := ⟨0x05, 0x140⟩
def AST_CMP_S_LO_SEC : FldId := ⟨0x05, 0x140, 0, 32⟩
def AST_CMP_S_HI : RegId := ⟨0x05, 0x144⟩
def AST_CMP_S_HI_SEC : FldId := ⟨0x05, 0x144, 0, 16⟩
def AST_CMP_NS : RegId := ⟨0x05, 0x148⟩
def AST_CMP_NS_NS : FldId := ⟨0x05, 0x148, 0, 30⟩
def AST_CMP_CTL : RegId := ⟨0x05, 0x14C⟩
def AST_CMP_CTL_EN : FldId := ⟨0x05, 0x14C, 0, 1⟩
def AST_CMP_CTL_DOMAIN : FldId := ⟨0x05, 0x14C, 1, 1⟩
def AST_CMP_CTL_FOLLOW_ACTIVE : FldId := ⟨0x05, 0x14C, 2, 1⟩
def AST_CMP_CTL_PPS : FldId := ⟨0x05, 0x14C, 3, 1⟩
def AST_CMP_CTL_PERIOD : FldId := ⟨0x05, 0x14C, 8, 24⟩
def AST_CAPT_S_LO : RegId := ⟨0x05, 0x180⟩
def AST_CAPT_S_LO_SEC : FldId := ⟨0x05, 0x180, 0, 32⟩
def AST_CAPT_S_HI : RegId := ⟨0x05, 0x184⟩
def AST_CAPT_S_HI_SEC : FldId := ⟨0x05, 0x184, 0, 16⟩
def AST_CAPT_S_HI_SUBNS : FldId := ⟨0x05, 0x184, 16, 16⟩
def AST_CAPT_NS : RegId := ⟨0x05, 0x188⟩
def AST_CAPT_NS_NS : FldId := ⟨0x05, 0x188, 0, 30⟩
def AST_TC_CORRECTED_LO : RegId := ⟨0x05, 0x1A0⟩
def AST_TC_CORRECTED_HI : RegId := ⟨0x05, 0x1A4⟩
def AST_TIME_STEP_FWD : RegId := ⟨0x05, 0x1A8⟩
def AST_TIME_STEP_BACK : RegId := ⟨0x05, 0x1AC⟩
def AST_EPOCH_ADVANCE : RegId := ⟨0x05, 0x1B0⟩
def AST_EPOCH_REJECT : RegId := ⟨0x05, 0x1B4⟩
def AST_TICK_SLEW : RegId := ⟨0x05, 0x1B8⟩
def AST_INCR_REJECT : RegId := ⟨0x05, 0x1BC⟩
def AST_SWITCH_REJECT : RegId := ⟨0x05, 0x1C0⟩
def AST_CMP_LATE : RegId := ⟨0x05, 0x1C4⟩
def AST_PPS_IN_EDGES : RegId := ⟨0x05, 0x1C8⟩
def AST_TC_NO_MATCH : RegId := ⟨0x05, 0x1CC⟩
def AST_TC_TABLE_FULL : RegId := ⟨0x05, 0x1D0⟩
def AST_TC_SKIP : RegId := ⟨0x05, 0x1D4⟩
def AST_CFG_REJECT : RegId := ⟨0x05, 0x1D8⟩
def AST_COUNT_CTL : RegId := ⟨0x05, 0x1DC⟩
def AST_COUNT_CTL_CLR_ALL : FldId := ⟨0x05, 0x1DC, 0, 1⟩
def AST_TS_ADJ : RegId := ⟨0x05, 0x200⟩
def AST_TS_ADJ_RX : FldId := ⟨0x05, 0x200, 0, 16⟩
def AST_TS_ADJ_TX : FldId := ⟨0x05, 0x200, 16, 16⟩
def ALM_CTL : RegId := ⟨0x06, 0x060⟩
def ALM_CTL_PREFETCH_EN : FldId := ⟨0x06, 0x060, 0, 1⟩
def ALM_STS : RegId := ⟨0x06, 0x064⟩
def ALM_STS_STORE_OK : FldId := ⟨0x06, 0x064, 0, 1⟩
def ALM_STS_ISK_OPEN : FldId := ⟨0x06, 0x064, 1, 4⟩
def ALM_STS_TICK_REFUSE : FldId := ⟨0x06, 0x064, 5, 1⟩
def ALM_CMD : RegId := ⟨0x06, 0x068⟩
def ALM_CMD_AX : FldId := ⟨0x06, 0x068, 0, 18⟩
def ALM_CMD_POS : FldId := ⟨0x06, 0x068, 18, 1⟩
def ALM_CMD_KSIZE : FldId := ⟨0x06, 0x068, 19, 1⟩
def ALM_CMD_OP : FldId := ⟨0x06, 0x068, 20, 4⟩
def ALM_CMD_STATUS : FldId := ⟨0x06, 0x068, 24, 4⟩
def ALM_CMD_BUSY : FldId := ⟨0x06, 0x068, 31, 1⟩
def ALM_ARG : RegId := ⟨0x06, 0x06C⟩
def ALM_ARG_ARG : FldId := ⟨0x06, 0x06C, 0, 32⟩
def ALM_USAGE_CFG : RegId := ⟨0x06, 0x08C⟩
def ALM_USAGE_CFG_LIMIT_EXP : FldId := ⟨0x06, 0x08C, 0, 6⟩
def ALM_PIN_MAX : RegId := ⟨0x06, 0x090⟩
def ALM_PIN_MAX_MAX : FldId := ⟨0x06, 0x090, 0, 13⟩
def ALM_EVT_CFG : RegId := ⟨0x06, 0x094⟩
def ALM_EVT_CFG_RING : FldId := ⟨0x06, 0x094, 0, 6⟩
def ALM_EVT_CFG_EN : FldId := ⟨0x06, 0x094, 8, 1⟩
def ALM_NAV_WIN_SEL : RegId := ⟨0x06, 0x098⟩
def ALM_NAV_WIN_SEL_CLUSTER : FldId := ⟨0x06, 0x098, 0, 5⟩
def ALM_SLICE_STS : RegId := ⟨0x06, 0x0B0⟩
def ALM_SLICE_STS_USED : FldId := ⟨0x06, 0x0B0, 0, 13⟩
def ALM_SLICE_STS_PINNED : FldId := ⟨0x06, 0x0B0, 13, 13⟩
def ALM_LOADS_LO : RegId := ⟨0x06, 0x0C0⟩
def ALM_LOADS_HI : RegId := ⟨0x06, 0x0C4⟩
def ALM_EVICTIONS_LO : RegId := ⟨0x06, 0x0C8⟩
def ALM_EVICTIONS_HI : RegId := ⟨0x06, 0x0CC⟩
def ALM_PREFETCH_FULL : RegId := ⟨0x06, 0x0D0⟩
def ALM_DEMAND_LOADS : RegId := ⟨0x06, 0x0D4⟩
def ALM_USAGE_WARN : RegId := ⟨0x06, 0x0D8⟩
def ALM_USAGE_STOP : RegId := ⟨0x06, 0x0DC⟩
def ALM_LOAD_ERR : RegId := ⟨0x06, 0x0E0⟩
def ALM_CMD_REJECT : RegId := ⟨0x06, 0x0E4⟩
def ALM_IMPORT_REJECT : RegId := ⟨0x06, 0x0E8⟩
def ALM_NAMED_TICK_LATE : RegId := ⟨0x06, 0x0EC⟩
def ALM_REMASK_PASSES : RegId := ⟨0x06, 0x0F0⟩
def ALM_EVT_DROP : RegId := ⟨0x06, 0x0F4⟩
def ALM_SWITCH_FAIL : RegId := ⟨0x06, 0x0F8⟩
def ALM_COUNT_CTL : RegId := ⟨0x06, 0x0FC⟩
def ALM_COUNT_CTL_CLR_ALL : FldId := ⟨0x06, 0x0FC, 0, 1⟩
def ALM_NAV_WIN_DATA0 : RegId := ⟨0x06, 0x09C⟩
def ALM_NAV_WIN_DATA0_SW_BASE : FldId := ⟨0x06, 0x09C, 0, 18⟩
def ALM_NAV_WIN_DATA1 : RegId := ⟨0x06, 0x0A0⟩
def ALM_NAV_WIN_DATA1_SW_COUNT : FldId := ⟨0x06, 0x0A0, 0, 18⟩
def ALM_NAV_WIN_DATA2 : RegId := ⟨0x06, 0x0A4⟩
def ALM_NAV_WIN_DATA2_TRK_BASE : FldId := ⟨0x06, 0x0A4, 0, 13⟩
def ALM_NAV_WIN_DATA2_TRK_COUNT : FldId := ⟨0x06, 0x0A4, 14, 14⟩
def PKA_KA_CTL : RegId := ⟨0x07, 0x040⟩
def PKA_KA_CTL_KA_EN : FldId := ⟨0x07, 0x040, 0, 1⟩
def PKA_KA_CTL_LEAVE_REKEY : FldId := ⟨0x07, 0x040, 1, 1⟩
def PKA_KA_CTL_TIME_CHECK : FldId := ⟨0x07, 0x040, 2, 1⟩
def PKA_SESSION_CFG : RegId := ⟨0x07, 0x044⟩
def PKA_SESSION_CFG_SESSION_MAX : FldId := ⟨0x07, 0x044, 0, 11⟩
def PKA_SESSION_CFG_SEG_MAX : FldId := ⟨0x07, 0x044, 16, 6⟩
def PKA_WAIT_CFG : RegId := ⟨0x07, 0x048⟩
def PKA_WAIT_CFG_OBJ_WAIT : FldId := ⟨0x07, 0x048, 0, 8⟩
def PKA_WAIT_CFG_KX_RETRY : FldId := ⟨0x07, 0x048, 8, 3⟩
def PKA_SESSION_LIMIT : RegId := ⟨0x07, 0x04C⟩
def PKA_SESSION_LIMIT_TICKS : FldId := ⟨0x07, 0x04C, 0, 16⟩
def PKA_SWITCH_CFG : RegId := ⟨0x07, 0x050⟩
def PKA_SWITCH_CFG_SWITCH_LEAD : FldId := ⟨0x07, 0x050, 0, 13⟩
def PKA_SWITCH_CFG_REKEY_RATE : FldId := ⟨0x07, 0x050, 16, 7⟩
def PKA_REKEY_TICKS : RegId := ⟨0x07, 0x054⟩
def PKA_REKEY_TICKS_TICKS : FldId := ⟨0x07, 0x054, 0, 32⟩
def PKA_REAGREE_TICKS : RegId := ⟨0x07, 0x058⟩
def PKA_REAGREE_TICKS_TICKS : FldId := ⟨0x07, 0x058, 0, 32⟩
def PKA_REAGREE_RETRY : RegId := ⟨0x07, 0x05C⟩
def PKA_REAGREE_RETRY_TICKS : FldId := ⟨0x07, 0x05C, 0, 25⟩
def PKA_TIME_CFG : RegId := ⟨0x07, 0x060⟩
def PKA_TIME_CFG_UTC_OFFSET : FldId := ⟨0x07, 0x060, 0, 16⟩
def PKA_TIME_CFG_TOD_PERIOD : FldId := ⟨0x07, 0x060, 16, 16⟩
def PKA_TABLE_CMD : RegId := ⟨0x07, 0x064⟩
def PKA_TABLE_CMD_OP : FldId := ⟨0x07, 0x064, 0, 3⟩
def PKA_TABLE_CMD_WINDOW : FldId := ⟨0x07, 0x064, 4, 4⟩
def PKA_TABLE_CMD_STATUS : FldId := ⟨0x07, 0x064, 24, 4⟩
def PKA_TABLE_CMD_BUSY : FldId := ⟨0x07, 0x064, 31, 1⟩
def PKA_TABLE_ADDR_LO : RegId := ⟨0x07, 0x068⟩
def PKA_TABLE_ADDR_LO_OFFSET : FldId := ⟨0x07, 0x068, 0, 32⟩
def PKA_TABLE_ADDR_HI : RegId := ⟨0x07, 0x06C⟩
def PKA_TABLE_ADDR_HI_OFFSET : FldId := ⟨0x07, 0x06C, 0, 32⟩
def PKA_TABLE_LEN : RegId := ⟨0x07, 0x070⟩
def PKA_TABLE_LEN_BYTES : FldId := ⟨0x07, 0x070, 0, 18⟩
def PKA_TABLE_STS : RegId := ⟨0x07, 0x074⟩
def PKA_TABLE_STS_ANCHORS : FldId := ⟨0x07, 0x074, 0, 5⟩
def PKA_TABLE_STS_DENY : FldId := ⟨0x07, 0x074, 5, 13⟩
def PKA_TABLE_STS_CHAIN_LEN : FldId := ⟨0x07, 0x074, 18, 12⟩
def PKA_KA_STS : RegId := ⟨0x07, 0x078⟩
def PKA_KA_STS_SESSIONS : FldId := ⟨0x07, 0x078, 0, 11⟩
def PKA_KA_STS_DRBG_OK : FldId := ⟨0x07, 0x078, 11, 1⟩
def PKA_EVT_CFG : RegId := ⟨0x07, 0x07C⟩
def PKA_EVT_CFG_RING : FldId := ⟨0x07, 0x07C, 0, 6⟩
def PKA_EVT_CFG_EN : FldId := ⟨0x07, 0x07C, 8, 1⟩
def PKA_KA_NO_CHAIN : RegId := ⟨0x07, 0x080⟩
def PKA_KA_WAIT : RegId := ⟨0x07, 0x084⟩
def PKA_KA_TIME_SKIP : RegId := ⟨0x07, 0x088⟩
def PKA_KX_OK : RegId := ⟨0x07, 0x08C⟩
def PKA_KX_STRAY : RegId := ⟨0x07, 0x090⟩
def PKA_KX_RETRIED : RegId := ⟨0x07, 0x094⟩
def PKA_KX_FAILED : RegId := ⟨0x07, 0x098⟩
def PKA_REKEYS : RegId := ⟨0x07, 0x09C⟩
def PKA_REKEY_DEFERRED : RegId := ⟨0x07, 0x0A0⟩
def PKA_REKEY_ACK_LATE : RegId := ⟨0x07, 0x0A4⟩
def PKA_GROUP_LATE : RegId := ⟨0x07, 0x0A8⟩
def PKA_KEY_FAIL : RegId := ⟨0x07, 0x0AC⟩
def PKA_TOD_SENT : RegId := ⟨0x07, 0x0B0⟩
def PKA_KA_EVT_DROP : RegId := ⟨0x07, 0x0B4⟩
def PKA_COUNT_CTL : RegId := ⟨0x07, 0x0B8⟩
def PKA_COUNT_CTL_CLR_ALL : FldId := ⟨0x07, 0x0B8, 0, 1⟩
def PKA_HE_SNI : RegId := ⟨0x07, 0x0C0⟩
def PKA_HE_SNI_SNI : FldId := ⟨0x07, 0x0C0, 0, 18⟩
def PKA_KA_CMD : RegId := ⟨0x07, 0x0C4⟩
def PKA_KA_CMD_OP : FldId := ⟨0x07, 0x0C4, 0, 3⟩
def PKA_KA_CMD_STATUS : FldId := ⟨0x07, 0x0C4, 24, 4⟩
def PKA_KA_CMD_BUSY : FldId := ⟨0x07, 0x0C4, 31, 1⟩
def PKA_KA_ARG : RegId := ⟨0x07, 0x0C8⟩
def PKA_KA_ARG_TERMINAL : FldId := ⟨0x07, 0x0C8, 0, 9⟩
def PKA_KA_ARG_TREE : FldId := ⟨0x07, 0x0C8, 9, 5⟩
def PKA_KA_ARG_GROUP : FldId := ⟨0x07, 0x0C8, 16, 12⟩
def PKA_KA_ARG_BCAST : FldId := ⟨0x07, 0x0C8, 28, 1⟩
def PKA_DOWN_FRAC : RegId := ⟨0x07, 0x100⟩
def PKA_DOWN_FRAC_FRAC : FldId := ⟨0x07, 0x100, 0, 16⟩
def LCS_STS : RegId := ⟨0x08, 0x040⟩
def LCS_STS_STATE : FldId := ⟨0x08, 0x040, 0, 3⟩
def LCS_STS_CODE : FldId := ⟨0x08, 0x040, 8, 8⟩
def LCS_STS_ROOT_OK : FldId := ⟨0x08, 0x040, 16, 1⟩
def LCS_STS_ROOT_CA_SET : FldId := ⟨0x08, 0x040, 17, 1⟩
def LCS_STS_VBAT_LOST : FldId := ⟨0x08, 0x040, 18, 1⟩
def LCS_STS_LOG_FULL : FldId := ⟨0x08, 0x040, 19, 1⟩
def LCS_STS_LOG_NEAR : FldId := ⟨0x08, 0x040, 20, 1⟩
def LCS_STS_TORN : FldId := ⟨0x08, 0x040, 21, 1⟩
def LCS_CMD : RegId := ⟨0x08, 0x044⟩
def LCS_CMD_OP : FldId := ⟨0x08, 0x044, 0, 4⟩
def LCS_CMD_TARGET : FldId := ⟨0x08, 0x044, 4, 3⟩
def LCS_CMD_SLOT : FldId := ⟨0x08, 0x044, 8, 2⟩
def LCS_CMD_WINDOW : FldId := ⟨0x08, 0x044, 12, 4⟩
def LCS_CMD_STATUS : FldId := ⟨0x08, 0x044, 24, 4⟩
def LCS_CMD_BUSY : FldId := ⟨0x08, 0x044, 31, 1⟩
def LCS_ADDR_LO : RegId := ⟨0x08, 0x048⟩
def LCS_ADDR_LO_OFFSET : FldId := ⟨0x08, 0x048, 0, 32⟩
def LCS_ADDR_HI : RegId := ⟨0x08, 0x04C⟩
def LCS_ADDR_HI_OFFSET : FldId := ⟨0x08, 0x04C, 0, 32⟩
def LCS_LOG_COUNT : RegId := ⟨0x08, 0x050⟩
def LCS_LOG_COUNT_ENTRIES : FldId := ⟨0x08, 0x050, 0, 12⟩
def LCS_IMAGE_KEYS : RegId := ⟨0x08, 0x054⟩
def LCS_IMAGE_KEYS_WRITTEN : FldId := ⟨0x08, 0x054, 0, 4⟩
def LCS_IMAGE_KEYS_REVOKED : FldId := ⟨0x08, 0x054, 4, 4⟩
def LCS_LOG_SW : RegId := ⟨0x08, 0x058⟩
def LCS_LOG_SW_DETAIL : FldId := ⟨0x08, 0x058, 0, 24⟩
def LCS_LOG_SW_CODE : FldId := ⟨0x08, 0x058, 24, 8⟩
def LCS_LOG_LOST : RegId := ⟨0x08, 0x060⟩
def LCS_LOG_FULL_DROP : RegId := ⟨0x08, 0x064⟩
def LCS_CFG_REJECT : RegId := ⟨0x08, 0x068⟩
def LCS_COUNT_CTL : RegId := ⟨0x08, 0x06C⟩
def LCS_COUNT_CTL_CLR_ALL : FldId := ⟨0x08, 0x06C, 0, 1⟩
def TAMP_CTL : RegId := ⟨0x09, 0x040⟩
def TAMP_CTL_LOCK : FldId := ⟨0x09, 0x040, 0, 1⟩
def TAMP_STS : RegId := ⟨0x09, 0x044⟩
def TAMP_STS_COND : FldId := ⟨0x09, 0x044, 0, 10⟩
def TAMP_STS_RTC_VALID : FldId := ⟨0x09, 0x044, 16, 1⟩
def TAMP_STS_SECRET_OK : FldId := ⟨0x09, 0x044, 17, 1⟩
def TAMP_STS_SLOTS : FldId := ⟨0x09, 0x044, 18, 4⟩
def TAMP_STS_TESTING : FldId := ⟨0x09, 0x044, 22, 1⟩
def TAMP_SRC_CFG : RegId := ⟨0x09, 0x048⟩
def TAMP_SRC_CFG_EN : FldId := ⟨0x09, 0x048, 0, 1⟩
def TAMP_SRC_CFG_RESPONSE : FldId := ⟨0x09, 0x048, 1, 2⟩
def TAMP_SRC_CFG_FUSED : FldId := ⟨0x09, 0x048, 3, 1⟩
def TAMP_SRC_CFG_FILT : FldId := ⟨0x09, 0x048, 4, 8⟩
def TAMP_SRC_CFG_LEVEL : FldId := ⟨0x09, 0x048, 12, 1⟩
def TAMP_CMD : RegId := ⟨0x09, 0x070⟩
def TAMP_CMD_SRC : FldId := ⟨0x09, 0x070, 0, 4⟩
def TAMP_CMD_OP : FldId := ⟨0x09, 0x070, 4, 3⟩
def TAMP_CMD_STATUS : FldId := ⟨0x09, 0x070, 24, 4⟩
def TAMP_CMD_BUSY : FldId := ⟨0x09, 0x070, 31, 1⟩
def TAMP_TEST_STS : RegId := ⟨0x09, 0x074⟩
def TAMP_TEST_STS_PASSED : FldId := ⟨0x09, 0x074, 0, 10⟩
def TAMP_TEST_STS_FAILED : FldId := ⟨0x09, 0x074, 16, 10⟩
def TAMP_RTC_SEC_LO : RegId := ⟨0x09, 0x078⟩
def TAMP_RTC_SEC_LO_SEC_LO : FldId := ⟨0x09, 0x078, 0, 32⟩
def TAMP_RTC_SEC_HI : RegId := ⟨0x09, 0x07C⟩
def TAMP_RTC_SEC_HI_SEC_HI : FldId := ⟨0x09, 0x07C, 0, 8⟩
def TAMP_RTC_FRAC : RegId := ⟨0x09, 0x080⟩
def TAMP_RTC_FRAC_FRAC : FldId := ⟨0x09, 0x080, 0, 15⟩
def TAMP_RTC_TRIM : RegId := ⟨0x09, 0x084⟩
def TAMP_RTC_TRIM_PPM : FldId := ⟨0x09, 0x084, 0, 16⟩
def TAMP_EVENTS : RegId := ⟨0x09, 0x088⟩
def TAMP_TESTS : RegId := ⟨0x09, 0x08C⟩
def TAMP_ZEROISES : RegId := ⟨0x09, 0x090⟩
def TAMP_CFG_REJECT : RegId := ⟨0x09, 0x094⟩
def TAMP_COUNT_CTL : RegId := ⟨0x09, 0x098⟩
def TAMP_COUNT_CTL_CLR_ALL : FldId := ⟨0x09, 0x098, 0, 1⟩
def TAMP_SLOT_DATA : RegId := ⟨0x09, 0x100⟩
def TAMP_SLOT_DATA_WORD : FldId := ⟨0x09, 0x100, 0, 32⟩
def DBG_STS : RegId := ⟨0x0A, 0x040⟩
def DBG_STS_PORT : FldId := ⟨0x0A, 0x040, 0, 2⟩
def DBG_STS_SCOPE : FldId := ⟨0x0A, 0x040, 2, 5⟩
def DBG_STS_FAILS : FldId := ⟨0x0A, 0x040, 7, 3⟩
def DBG_STS_BLOCKED : FldId := ⟨0x0A, 0x040, 10, 1⟩
def DBG_CTL : RegId := ⟨0x0A, 0x044⟩
def DBG_CTL_RELOCK : FldId := ⟨0x0A, 0x044, 0, 1⟩
def DBG_CTL_CHAL_NEW : FldId := ⟨0x0A, 0x044, 1, 1⟩
def DBG_CHALLENGE : RegId := ⟨0x0A, 0x048⟩
def DBG_CHALLENGE_CHAL : FldId := ⟨0x0A, 0x048, 0, 32⟩
def DBG_UNLOCK_REMAIN : RegId := ⟨0x0A, 0x068⟩
def DBG_UNLOCK_REMAIN_SEC : FldId := ⟨0x0A, 0x068, 0, 17⟩
def DBG_TOKEN_FIFO : RegId := ⟨0x0A, 0x06C⟩
def DBG_TOKEN_FIFO_WORD : FldId := ⟨0x0A, 0x06C, 0, 32⟩
def DBG_TOKEN_CMD : RegId := ⟨0x0A, 0x070⟩
def DBG_TOKEN_CMD_SUBMIT : FldId := ⟨0x0A, 0x070, 0, 1⟩
def DBG_TOKEN_CMD_STATUS : FldId := ⟨0x0A, 0x070, 4, 4⟩
def DBG_TOKEN_CMD_BUSY : FldId := ⟨0x0A, 0x070, 31, 1⟩
def DBG_UNLOCKS : RegId := ⟨0x0A, 0x074⟩
def DBG_UNLOCK_FAIL : RegId := ⟨0x0A, 0x078⟩
def DBG_REFUSED : RegId := ⟨0x0A, 0x07C⟩
def DBG_CFG_REJECT : RegId := ⟨0x0A, 0x080⟩
def DBG_COUNT_CTL : RegId := ⟨0x0A, 0x084⟩
def DBG_COUNT_CTL_CLR_ALL : FldId := ⟨0x0A, 0x084, 0, 1⟩
def PAIR_CTL : RegId := ⟨0x0B, 0x040⟩
def PAIR_CTL_PAIR_EN : FldId := ⟨0x0B, 0x040, 0, 1⟩
def PAIR_CTL_MEMBER : FldId := ⟨0x0B, 0x040, 1, 1⟩
def PAIR_CTL_MATE_EN : FldId := ⟨0x0B, 0x040, 2, 1⟩
def PAIR_CTL_YIELD_EN : FldId := ⟨0x0B, 0x040, 3, 1⟩
def PAIR_STS : RegId := ⟨0x0B, 0x044⟩
def PAIR_STS_ROLE : FldId := ⟨0x0B, 0x044, 0, 1⟩
def PAIR_STS_ROLE_IN : FldId := ⟨0x0B, 0x044, 1, 1⟩
def PAIR_STS_HEALTH : FldId := ⟨0x0B, 0x044, 2, 2⟩
def PAIR_STS_MIRROR : FldId := ⟨0x0B, 0x044, 4, 3⟩
def PAIR_STS_PEER_ACTIVE : FldId := ⟨0x0B, 0x044, 7, 1⟩
def PAIR_STS_ACTIVE_STALE : FldId := ⟨0x0B, 0x044, 8, 1⟩
def PAIR_STS_LINK_KP : FldId := ⟨0x0B, 0x044, 9, 1⟩
def PAIR_STS_HS_CAUSE : FldId := ⟨0x0B, 0x044, 10, 3⟩
def PAIR_HB_CFG : RegId := ⟨0x0B, 0x048⟩
def PAIR_HB_CFG_HB_EN : FldId := ⟨0x0B, 0x048, 0, 1⟩
def PAIR_HB_CFG_HB_MASK : FldId := ⟨0x0B, 0x048, 4, 4⟩
def PAIR_HB_CFG_WIDTH : FldId := ⟨0x0B, 0x048, 8, 8⟩
def PAIR_HEALTH_CFG : RegId := ⟨0x0B, 0x04C⟩
def PAIR_HEALTH_CFG_DEGRADE_MASK : FldId := ⟨0x0B, 0x04C, 0, 5⟩
def PAIR_HEALTH_CFG_CAP : FldId := ⟨0x0B, 0x04C, 8, 2⟩
def PAIR_ROLE_CFG : RegId := ⟨0x0B, 0x050⟩
def PAIR_ROLE_CFG_FILT : FldId := ⟨0x0B, 0x050, 0, 14⟩
def PAIR_PEER_KEY_HASH : RegId := ⟨0x0B, 0x054⟩
def PAIR_PEER_KEY_HASH_HASH : FldId := ⟨0x0B, 0x054, 0, 32⟩
def PAIR_CMD : RegId := ⟨0x0B, 0x084⟩
def PAIR_CMD_OP : FldId := ⟨0x0B, 0x084, 0, 3⟩
def PAIR_CMD_STATUS : FldId := ⟨0x0B, 0x084, 24, 4⟩
def PAIR_CMD_BUSY : FldId := ⟨0x0B, 0x084, 31, 1⟩
def PAIR_LINK_REKEY : RegId := ⟨0x0B, 0x088⟩
def PAIR_LINK_REKEY_TICKS : FldId := ⟨0x0B, 0x088, 0, 32⟩
def PAIR_LAST_ROLE_LO : RegId := ⟨0x0B, 0x08C⟩
def PAIR_LAST_ROLE_LO_TICK_LO : FldId := ⟨0x0B, 0x08C, 0, 32⟩
def PAIR_LAST_ROLE_HI : RegId := ⟨0x0B, 0x090⟩
def PAIR_LAST_ROLE_HI_TICK_HI : FldId := ⟨0x0B, 0x090, 0, 16⟩
def PAIR_MIRROR_BACKLOG : RegId := ⟨0x0B, 0x094⟩
def PAIR_MIRROR_BACKLOG_KIB : FldId := ⟨0x0B, 0x094, 0, 14⟩
def PAIR_ROLE_CHANGES : RegId := ⟨0x0B, 0x098⟩
def PAIR_YIELDS : RegId := ⟨0x0B, 0x09C⟩
def PAIR_BOTH_ACTIVE : RegId := ⟨0x0B, 0x0A0⟩
def PAIR_NONE_ACTIVE : RegId := ⟨0x0B, 0x0A4⟩
def PAIR_MIRROR_SENT_LO : RegId := ⟨0x0B, 0x0A8⟩
def PAIR_MIRROR_SENT_HI : RegId := ⟨0x0B, 0x0AC⟩
def PAIR_MIRROR_DROP : RegId := ⟨0x0B, 0x0B0⟩
def PAIR_MATE_TAG_FAIL : RegId := ⟨0x0B, 0x0B4⟩
def PAIR_MATE_DOWN : RegId := ⟨0x0B, 0x0B8⟩
def PAIR_HS_FAIL : RegId := ⟨0x0B, 0x0BC⟩
def PAIR_RESYNCS : RegId := ⟨0x0B, 0x0C0⟩
def PAIR_TICK_MISMATCH : RegId := ⟨0x0B, 0x0C4⟩
def PAIR_MIRROR_WRITE_REJECT : RegId := ⟨0x0B, 0x0C8⟩
def PAIR_CFG_REJECT : RegId := ⟨0x0B, 0x0CC⟩
def PAIR_COUNT_CTL : RegId := ⟨0x0B, 0x0D0⟩
def PAIR_COUNT_CTL_CLR_ALL : FldId := ⟨0x0B, 0x0D0, 0, 1⟩
def SEAL_CTL : RegId := ⟨0x0C, 0x040⟩
def SEAL_CTL_INIT : FldId := ⟨0x0C, 0x040, 0, 1⟩
def SEAL_CTL_SCRATCH_DBG : FldId := ⟨0x0C, 0x040, 1, 1⟩
def SEAL_CTL_SCRATCH_DMA : FldId := ⟨0x0C, 0x040, 2, 1⟩
def SEAL_STS : RegId := ⟨0x0C, 0x044⟩
def SEAL_STS_READY : FldId := ⟨0x0C, 0x044, 0, 1⟩
def SEAL_STS_INIT_BUSY : FldId := ⟨0x0C, 0x044, 1, 1⟩
def SEAL_STS_ROOT_OK : FldId := ⟨0x0C, 0x044, 2, 1⟩
def SEAL_STS_RESEAL_BUSY : FldId := ⟨0x0C, 0x044, 3, 1⟩
def SEAL_STS_INIT_ERR : FldId := ⟨0x0C, 0x044, 4, 4⟩
def SEAL_STS_POISONED : FldId := ⟨0x0C, 0x044, 8, 4⟩
def SEAL_STS_LISTED : FldId := ⟨0x0C, 0x044, 12, 5⟩
def SEAL_SPILL_CFG : RegId := ⟨0x0C, 0x048⟩
def SEAL_SPILL_CFG_BASE : FldId := ⟨0x0C, 0x048, 0, 13⟩
def SEAL_SPILL_CFG_SIZE : FldId := ⟨0x0C, 0x048, 16, 13⟩
def SEAL_RANGE_CFG : RegId := ⟨0x0C, 0x04C⟩
def SEAL_RANGE_CFG_BASE : FldId := ⟨0x0C, 0x04C, 0, 13⟩
def SEAL_RANGE_CFG_SIZE : FldId := ⟨0x0C, 0x04C, 13, 13⟩
def SEAL_RANGE_CFG_USE : FldId := ⟨0x0C, 0x04C, 26, 2⟩
def SEAL_TREE_NODES : RegId := ⟨0x0C, 0x05C⟩
def SEAL_TREE_NODES_NODES : FldId := ⟨0x0C, 0x05C, 0, 23⟩
def SEAL_RESEAL_CMD : RegId := ⟨0x0C, 0x060⟩
def SEAL_RESEAL_CMD_RANGE : FldId := ⟨0x0C, 0x060, 0, 2⟩
def SEAL_RESEAL_CMD_OP : FldId := ⟨0x0C, 0x060, 4, 2⟩
def SEAL_RESEAL_CMD_STATUS : FldId := ⟨0x0C, 0x060, 24, 4⟩
def SEAL_RESEAL_CMD_BUSY : FldId := ⟨0x0C, 0x060, 31, 1⟩
def SEAL_POISON_NODE : RegId := ⟨0x0C, 0x064⟩
def SEAL_POISON_NODE_RANGE : FldId := ⟨0x0C, 0x064, 0, 2⟩
def SEAL_POISON_NODE_LEVEL : FldId := ⟨0x0C, 0x064, 2, 3⟩
def SEAL_POISON_NODE_INDEX : FldId := ⟨0x0C, 0x064, 5, 22⟩
def SEAL_POISON_NODE_VALID : FldId := ⟨0x0C, 0x064, 31, 1⟩
def SEAL_LAST_ERR_ADDR_LO : RegId := ⟨0x0C, 0x068⟩
def SEAL_LAST_ERR_ADDR_LO_OFFSET_LO : FldId := ⟨0x0C, 0x068, 0, 32⟩
def SEAL_LAST_ERR_ADDR_HI : RegId := ⟨0x0C, 0x06C⟩
def SEAL_LAST_ERR_ADDR_HI_OFFSET_HI : FldId := ⟨0x0C, 0x06C, 0, 2⟩
def SEAL_READS_LO : RegId := ⟨0x0C, 0x070⟩
def SEAL_READS_HI : RegId := ⟨0x0C, 0x074⟩
def SEAL_WRITES_LO : RegId := ⟨0x0C, 0x078⟩
def SEAL_WRITES_HI : RegId := ⟨0x0C, 0x07C⟩
def SEAL_CC_MISS_LO : RegId := ⟨0x0C, 0x080⟩
def SEAL_CC_MISS_HI : RegId := ⟨0x0C, 0x084⟩
def SEAL_TAG_FAIL : RegId := ⟨0x0C, 0x088⟩
def SEAL_ECC_UNCORR : RegId := ⟨0x0C, 0x08C⟩
def SEAL_POISON_HIT : RegId := ⟨0x0C, 0x090⟩
def SEAL_PARTIAL_REFUSED : RegId := ⟨0x0C, 0x094⟩
def SEAL_NODE_POISON : RegId := ⟨0x0C, 0x098⟩
def SEAL_BLOCKED : RegId := ⟨0x0C, 0x09C⟩
def SEAL_RESEALS : RegId := ⟨0x0C, 0x0A0⟩
def SEAL_CFG_REJECT : RegId := ⟨0x0C, 0x0A4⟩
def SEAL_COUNT_CTL : RegId := ⟨0x0C, 0x0A8⟩
def SEAL_COUNT_CTL_CLR_ALL : FldId := ⟨0x0C, 0x0A8, 0, 1⟩
def BUF_CTL : RegId := ⟨0x0D, 0x060⟩
def BUF_CTL_SPILL_EN : FldId := ⟨0x0D, 0x060, 0, 1⟩
def BUF_STS : RegId := ⟨0x0D, 0x064⟩
def BUF_STS_SPILLING : FldId := ⟨0x0D, 0x064, 0, 4⟩
def BUF_STS_SPILL_FULL : FldId := ⟨0x0D, 0x064, 4, 1⟩
def BUF_WM_SPILL : RegId := ⟨0x0D, 0x068⟩
def BUF_WM_SPILL_CELLS : FldId := ⟨0x0D, 0x068, 0, 17⟩
def BUF_WM_STOP : RegId := ⟨0x0D, 0x06C⟩
def BUF_WM_STOP_CELLS : FldId := ⟨0x0D, 0x06C, 0, 17⟩
def BUF_POOL_RESERVE : RegId := ⟨0x0D, 0x070⟩
def BUF_POOL_RESERVE_CELLS : FldId := ⟨0x0D, 0x070, 0, 17⟩
def BUF_HEAD_KEEP : RegId := ⟨0x0D, 0x074⟩
def BUF_HEAD_KEEP_CELLS : FldId := ⟨0x0D, 0x074, 0, 8⟩
def BUF_SPILL_PAGES : RegId := ⟨0x0D, 0x078⟩
def BUF_SPILL_PAGES_PAGES : FldId := ⟨0x0D, 0x078, 0, 24⟩
def BUF_SPILL_FREE : RegId := ⟨0x0D, 0x07C⟩
def BUF_SPILL_FREE_PAGES : FldId := ⟨0x0D, 0x07C, 0, 24⟩
def BUF_BANK_FREE : RegId := ⟨0x0D, 0x080⟩
def BUF_BANK_FREE_CELLS : FldId := ⟨0x0D, 0x080, 0, 17⟩
def BUF_PAGES_OUT_LO : RegId := ⟨0x0D, 0x090⟩
def BUF_PAGES_OUT_HI : RegId := ⟨0x0D, 0x094⟩
def BUF_PAGES_IN_LO : RegId := ⟨0x0D, 0x098⟩
def BUF_PAGES_IN_HI : RegId := ⟨0x0D, 0x09C⟩
def BUF_XBAR_DROP : RegId := ⟨0x0D, 0x0A0⟩
def BUF_NO_BUFFER : RegId := ⟨0x0D, 0x0A4⟩
def BUF_PAGE_LATE : RegId := ⟨0x0D, 0x0A8⟩
def BUF_PAGE_ERR : RegId := ⟨0x0D, 0x0AC⟩
def BUF_COUNT_CTL : RegId := ⟨0x0D, 0x0B0⟩
def BUF_COUNT_CTL_CLR_ALL : FldId := ⟨0x0D, 0x0B0, 0, 1⟩
def TTX_CTL : RegId := ⟨0x10, 0x060⟩
def TTX_CTL_MODE : FldId := ⟨0x10, 0x060, 0, 2⟩
def TTX_CTL_SCR_OFF : FldId := ⟨0x10, 0x060, 2, 1⟩
def TTX_STS : RegId := ⟨0x10, 0x064⟩
def TTX_STS_LINE : FldId := ⟨0x10, 0x064, 0, 2⟩
def TTX_STS_FREE : FldId := ⟨0x10, 0x064, 2, 1⟩
def TTX_STS_STANDBY : FldId := ⟨0x10, 0x064, 3, 1⟩
def TTX_STS_SLEW : FldId := ⟨0x10, 0x064, 4, 1⟩
def TTX_STS_CKT_PAGE : FldId := ⟨0x10, 0x064, 5, 1⟩
def TTX_CKT_LEN_PG0 : RegId := ⟨0x10, 0x068⟩
def TTX_CKT_LEN_PG0_LEN : FldId := ⟨0x10, 0x068, 0, 15⟩
def TTX_CKT_LEN_PG1 : RegId := ⟨0x10, 0x06C⟩
def TTX_CKT_LEN_PG1_LEN : FldId := ⟨0x10, 0x06C, 0, 15⟩
def TTX_CTRL_MAX : RegId := ⟨0x10, 0x070⟩
def TTX_CTRL_MAX_MAX : FldId := ⟨0x10, 0x070, 0, 9⟩
def TTX_URGENT_CLASS : RegId := ⟨0x10, 0x074⟩
def TTX_URGENT_CLASS_MASK : FldId := ⟨0x10, 0x074, 0, 8⟩
def TTX_URGENT_CLASS_PTP_URGENT : FldId := ⟨0x10, 0x074, 8, 1⟩
def TTX_LAST_TICK_LO : RegId := ⟨0x10, 0x078⟩
def TTX_LAST_TICK_LO_TICK_LO : FldId := ⟨0x10, 0x078, 0, 32⟩
def TTX_LAST_TICK_HI : RegId := ⟨0x10, 0x07C⟩
def TTX_LAST_TICK_HI_TICK_HI : FldId := ⟨0x10, 0x07C, 0, 16⟩
def TTX_LAST_SECTIONS : RegId := ⟨0x10, 0x080⟩
def TTX_LAST_SECTIONS_MAP_LEN : FldId := ⟨0x10, 0x080, 0, 11⟩
def TTX_LAST_SECTIONS_CTRL_COUNT : FldId := ⟨0x10, 0x080, 11, 9⟩
def TTX_LAST_SECTIONS_FLAGS : FldId := ⟨0x10, 0x080, 20, 4⟩
def TTX_LAST_UNIT_START : RegId := ⟨0x10, 0x084⟩
def TTX_LAST_UNIT_START_U : FldId := ⟨0x10, 0x084, 0, 21⟩
def TTX_FRAMES_SENT_LO : RegId := ⟨0x10, 0x088⟩
def TTX_FRAMES_SENT_HI : RegId := ⟨0x10, 0x08C⟩
def TTX_UNITS_SENT_LO : RegId := ⟨0x10, 0x090⟩
def TTX_UNITS_SENT_HI : RegId := ⟨0x10, 0x094⟩
def TTX_IDLE_BYTES_LO : RegId := ⟨0x10, 0x098⟩
def TTX_IDLE_BYTES_HI : RegId := ⟨0x10, 0x09C⟩
def TTX_GAP_FRAMES : RegId := ⟨0x10, 0x0A0⟩
def TTX_SKIP_FRAMES : RegId := ⟨0x10, 0x0A4⟩
def TTX_FIXED_ONLY_FRAMES : RegId := ⟨0x10, 0x0A8⟩
def TTX_CTRL_DEFERRED : RegId := ⟨0x10, 0x0AC⟩
def TTX_CKT_FILL_BYTES : RegId := ⟨0x10, 0x0B0⟩
def TTX_PREEMPTIONS : RegId := ⟨0x10, 0x0B4⟩
def TTX_SPLIT_UNITS : RegId := ⟨0x10, 0x0B8⟩
def TTX_UNIT_HELD : RegId := ⟨0x10, 0x0BC⟩
def TTX_UNIT_OVERSIZE : RegId := ⟨0x10, 0x0C0⟩
def TTX_CFG_REJECT : RegId := ⟨0x10, 0x0C4⟩
def TTX_COUNT_CTL : RegId := ⟨0x10, 0x0C8⟩
def TTX_COUNT_CTL_CLR_ALL : FldId := ⟨0x10, 0x0C8, 0, 1⟩
def TRX_CTL : RegId := ⟨0x11, 0x060⟩
def TRX_CTL_RX_EN : FldId := ⟨0x11, 0x060, 0, 1⟩
def TRX_CTL_ROGUE_EN : FldId := ⟨0x11, 0x060, 1, 1⟩
def TRX_CTL_PROF_UPD : FldId := ⟨0x11, 0x060, 2, 1⟩
def TRX_CTL_SCR_OFF : FldId := ⟨0x11, 0x060, 3, 1⟩
def TRX_STS : RegId := ⟨0x11, 0x064⟩
def TRX_STS_RX_ACTIVE : FldId := ⟨0x11, 0x064, 0, 1⟩
def TRX_STS_STANDBY : FldId := ⟨0x11, 0x064, 1, 1⟩
def TRX_STS_MAP_OK : FldId := ⟨0x11, 0x064, 2, 1⟩
def TRX_STS_DISC_WINDOW : FldId := ⟨0x11, 0x064, 3, 1⟩
def TRX_STS_PREAMBLE_PENDING : FldId := ⟨0x11, 0x064, 4, 1⟩
def TRX_PREAMBLE_CFG : RegId := ⟨0x11, 0x068⟩
def TRX_PREAMBLE_CFG_BITS : FldId := ⟨0x11, 0x068, 0, 6⟩
def TRX_PREAMBLE_CFG_CUR : FldId := ⟨0x11, 0x068, 8, 6⟩
def TRX_PREAMBLE_CFG_DISC : FldId := ⟨0x11, 0x068, 16, 6⟩
def TRX_PREAMBLE_AT_LO : RegId := ⟨0x11, 0x06C⟩
def TRX_PREAMBLE_AT_LO_TICK_LO : FldId := ⟨0x11, 0x06C, 0, 32⟩
def TRX_PREAMBLE_AT_HI : RegId := ⟨0x11, 0x070⟩
def TRX_PREAMBLE_AT_HI_TICK_HI : FldId := ⟨0x11, 0x070, 0, 16⟩
def TRX_DELIM_CFG : RegId := ⟨0x11, 0x074⟩
def TRX_DELIM_CFG_WINDOW : FldId := ⟨0x11, 0x074, 0, 9⟩
def TRX_DELIM_CFG_ERR_MAX : FldId := ⟨0x11, 0x074, 12, 4⟩
def TRX_DELIM_CFG_OFFSET_LIM : FldId := ⟨0x11, 0x074, 16, 8⟩
def TRX_BRST_CFG : RegId := ⟨0x11, 0x078⟩
def TRX_BRST_CFG_START : FldId := ⟨0x11, 0x078, 0, 8⟩
def TRX_BRST_CFG_WIDTH : FldId := ⟨0x11, 0x078, 8, 8⟩
def TRX_BRST_CFG_POL : FldId := ⟨0x11, 0x078, 16, 1⟩
def TRX_BRST_CFG_FORCE : FldId := ⟨0x11, 0x078, 17, 1⟩
def TRX_LEN_CFG : RegId := ⟨0x11, 0x07C⟩
def TRX_LEN_CFG_GUARD_LIGHT_LIM : FldId := ⟨0x11, 0x07C, 0, 8⟩
def TRX_LEN_CFG_EARLY_END_LIM : FldId := ⟨0x11, 0x07C, 8, 8⟩
def TRX_PROFILE_LIM : RegId := ⟨0x11, 0x080⟩
def TRX_PROFILE_LIM_AMP_LIM : FldId := ⟨0x11, 0x080, 0, 8⟩
def TRX_PROFILE_LIM_THR_LIM : FldId := ⟨0x11, 0x080, 8, 8⟩
def TRX_PROFILE_LIM_PHASE_LIM : FldId := ⟨0x11, 0x080, 16, 7⟩
def TRX_PROFILE_DEFAULT : RegId := ⟨0x11, 0x084⟩
def TRX_PROFILE_DEFAULT_AMP : FldId := ⟨0x11, 0x084, 0, 10⟩
def TRX_PROFILE_DEFAULT_THR : FldId := ⟨0x11, 0x084, 10, 10⟩
def TRX_PROFILE_DEFAULT_PHASE : FldId := ⟨0x11, 0x084, 20, 7⟩
def TRX_PROFILE_DEFAULT_VALID : FldId := ⟨0x11, 0x084, 31, 1⟩
def TRX_PROFILE_CMD : RegId := ⟨0x11, 0x088⟩
def TRX_PROFILE_CMD_TERMINAL : FldId := ⟨0x11, 0x088, 0, 9⟩
def TRX_PROFILE_CMD_OP : FldId := ⟨0x11, 0x088, 16, 3⟩
def TRX_PROFILE_CMD_BUSY : FldId := ⟨0x11, 0x088, 31, 1⟩
def TRX_PROFILE_DATA_LO : RegId := ⟨0x11, 0x08C⟩
def TRX_PROFILE_DATA_LO_AMP : FldId := ⟨0x11, 0x08C, 0, 10⟩
def TRX_PROFILE_DATA_LO_THR : FldId := ⟨0x11, 0x08C, 10, 10⟩
def TRX_PROFILE_DATA_LO_PHASE : FldId := ⟨0x11, 0x08C, 20, 7⟩
def TRX_PROFILE_DATA_LO_VALID : FldId := ⟨0x11, 0x08C, 31, 1⟩
def TRX_PROFILE_DATA_HI : RegId := ⟨0x11, 0x090⟩
def TRX_PROFILE_DATA_HI_AMP : FldId := ⟨0x11, 0x090, 0, 10⟩
def TRX_PROFILE_DATA_HI_THR : FldId := ⟨0x11, 0x090, 10, 10⟩
def TRX_PROFILE_DATA_HI_PHASE : FldId := ⟨0x11, 0x090, 20, 7⟩
def TRX_PROFILE_DATA_HI_VALID : FldId := ⟨0x11, 0x090, 31, 1⟩
def TRX_LAST_OFFSET : RegId := ⟨0x11, 0x094⟩
def TRX_LAST_OFFSET_OFFSET : FldId := ⟨0x11, 0x094, 0, 10⟩
def TRX_LAST_OFFSET_TERMINAL : FldId := ⟨0x11, 0x094, 16, 9⟩
def TRX_NAMED_TICK_LATE : RegId := ⟨0x11, 0x09C⟩
def TRX_BURSTS_OK_LO : RegId := ⟨0x11, 0x0A0⟩
def TRX_BURSTS_OK_HI : RegId := ⟨0x11, 0x0A4⟩
def TRX_CW_DECODED_LO : RegId := ⟨0x11, 0x0A8⟩
def TRX_CW_DECODED_HI : RegId := ⟨0x11, 0x0AC⟩
def TRX_CW_CORR_BITS_LO : RegId := ⟨0x11, 0x0B0⟩
def TRX_CW_CORR_BITS_HI : RegId := ⟨0x11, 0x0B4⟩
def TRX_CW_UNCORR : RegId := ⟨0x11, 0x0B8⟩
def TRX_NO_LIGHT : RegId := ⟨0x11, 0x0BC⟩
def TRX_DELIM_MISS : RegId := ⟨0x11, 0x0C0⟩
def TRX_OFFSET_HIGH : RegId := ⟨0x11, 0x0C4⟩
def TRX_LEN_WRONG : RegId := ⟨0x11, 0x0C8⟩
def TRX_ROGUE_BLOCKS : RegId := ⟨0x11, 0x0CC⟩
def TRX_BHDR_BAD : RegId := ⟨0x11, 0x0D0⟩
def TRX_RPT_REJECT : RegId := ⟨0x11, 0x0D4⟩
def TRX_UNIT_HCHK : RegId := ⟨0x11, 0x0D8⟩
def TRX_UNIT_RESYNC : RegId := ⟨0x11, 0x0DC⟩
def TRX_UNIT_HUNT_BYTES : RegId := ⟨0x11, 0x0E0⟩
def TRX_US_FRAG_LOST : RegId := ⟨0x11, 0x0E4⟩
def TRX_US_KP_REJECT : RegId := ⟨0x11, 0x0E8⟩
def TRX_US_SEQ_REJECT : RegId := ⟨0x11, 0x0EC⟩
def TRX_CKT_UNIT_BAD : RegId := ⟨0x11, 0x0F0⟩
def TRX_PROFILE_DRIFT_EVENTS : RegId := ⟨0x11, 0x0F4⟩
def TRX_MAP_MISSING : RegId := ⟨0x11, 0x0F8⟩
def TRX_COUNT_CTL : RegId := ⟨0x11, 0x0FC⟩
def TRX_COUNT_CTL_CLR_ALL : FldId := ⟨0x11, 0x0FC, 0, 1⟩
def TRX_DRIFT_MAP : RegId := ⟨0x11, 0x100⟩
def TRX_DRIFT_MAP_DRIFT : FldId := ⟨0x11, 0x100, 0, 32⟩
def SXT_CTL : RegId := ⟨0x12, 0x060⟩
def SXT_CTL_DISC_EN : FldId := ⟨0x12, 0x060, 0, 1⟩
def SXT_CTL_TRACK_EN : FldId := ⟨0x12, 0x060, 1, 1⟩
def SXT_CTL_AUTO_RELEASE : FldId := ⟨0x12, 0x060, 2, 1⟩
def SXT_CTL_NOTICE_EN : FldId := ⟨0x12, 0x060, 3, 1⟩
def SXT_STS : RegId := ⟨0x12, 0x064⟩
def SXT_STS_SPAN : FldId := ⟨0x12, 0x064, 0, 3⟩
def SXT_STS_STANDBY : FldId := ⟨0x12, 0x064, 3, 1⟩
def SXT_STS_TEST_ACTIVE : FldId := ⟨0x12, 0x064, 4, 1⟩
def SXT_STS_DSLOT : FldId := ⟨0x12, 0x064, 8, 8⟩
def SXT_STS_OPERATIONAL : FldId := ⟨0x12, 0x064, 16, 10⟩
def SXT_DISC_CFG : RegId := ⟨0x12, 0x068⟩
def SXT_DISC_CFG_PERIOD : FldId := ⟨0x12, 0x068, 0, 16⟩
def SXT_DISC_CFG_SLOTS : FldId := ⟨0x12, 0x068, 16, 11⟩
def SXT_REACH_CFG : RegId := ⟨0x12, 0x06C⟩
def SXT_REACH_CFG_MIN : FldId := ⟨0x12, 0x06C, 0, 10⟩
def SXT_REACH_CFG_MAX : FldId := ⟨0x12, 0x06C, 16, 10⟩
def SXT_DISC_EQD : RegId := ⟨0x12, 0x070⟩
def SXT_DISC_EQD_EQD : FldId := ⟨0x12, 0x070, 0, 26⟩
def SXT_RESV_MAX : RegId := ⟨0x12, 0x074⟩
def SXT_RESV_MAX_BLOCKS : FldId := ⟨0x12, 0x074, 0, 16⟩
def SXT_RANGE_CFG : RegId := ⟨0x12, 0x078⟩
def SXT_RANGE_CFG_RANGE_TOL : FldId := ⟨0x12, 0x078, 0, 8⟩
def SXT_RANGE_CFG_RANGE_TRIES : FldId := ⟨0x12, 0x078, 8, 4⟩
def SXT_RANGE_CFG_RANGE_MARGIN : FldId := ⟨0x12, 0x078, 16, 8⟩
def SXT_RANGE_CFG_EQD_LEAD : FldId := ⟨0x12, 0x078, 24, 8⟩
def SXT_ACT_CFG : RegId := ⟨0x12, 0x07C⟩
def SXT_ACT_CFG_CTRL_POLL : FldId := ⟨0x12, 0x07C, 0, 8⟩
def SXT_ACT_CFG_CTRL_UNITS : FldId := ⟨0x12, 0x07C, 8, 4⟩
def SXT_ACT_CFG_RETRY_MAX : FldId := ⟨0x12, 0x07C, 12, 4⟩
def SXT_ACT_CFG_ACK_TIMEOUT : FldId := ⟨0x12, 0x07C, 16, 8⟩
def SXT_ACT_CFG_EQD_TRACK : FldId := ⟨0x12, 0x07C, 24, 4⟩
def SXT_QUAR_CFG : RegId := ⟨0x12, 0x080⟩
def SXT_QUAR_CFG_QUAR_N : FldId := ⟨0x12, 0x080, 0, 8⟩
def SXT_QUAR_CFG_DEACT_N : FldId := ⟨0x12, 0x080, 8, 8⟩
def SXT_QUAR_CFG_QUAR_POLL : FldId := ⟨0x12, 0x080, 16, 8⟩
def SXT_QUAR_WIN : RegId := ⟨0x12, 0x084⟩
def SXT_QUAR_WIN_WINDOW : FldId := ⟨0x12, 0x084, 0, 16⟩
def SXT_QUAR_WIN_QUAR_HOLD : FldId := ⟨0x12, 0x084, 16, 16⟩
def SXT_LOSS_CFG : RegId := ⟨0x12, 0x088⟩
def SXT_LOSS_CFG_LOS_LIMIT : FldId := ⟨0x12, 0x088, 0, 8⟩
def SXT_LOSS_CFG_DEACT_HOLD : FldId := ⟨0x12, 0x088, 8, 16⟩
def SXT_ROGUE_CFG : RegId := ⟨0x12, 0x08C⟩
def SXT_ROGUE_CFG_ROGUE_NEAR : FldId := ⟨0x12, 0x08C, 0, 8⟩
def SXT_ROGUE_CFG_ROGUE_N : FldId := ⟨0x12, 0x08C, 8, 8⟩
def SXT_BUDGET_CFG : RegId := ⟨0x12, 0x090⟩
def SXT_BUDGET_CFG_SXT_BUDGET : FldId := ⟨0x12, 0x090, 0, 16⟩
def SXT_BUDGET_CFG_AUTH_TIMEOUT : FldId := ⟨0x12, 0x090, 16, 16⟩
def SXT_PAIR_SKEW : RegId := ⟨0x12, 0x094⟩
def SXT_PAIR_SKEW_SKEW : FldId := ⟨0x12, 0x094, 0, 24⟩
def SXT_EVT_CFG : RegId := ⟨0x12, 0x098⟩
def SXT_EVT_CFG_RING : FldId := ⟨0x12, 0x098, 0, 6⟩
def SXT_EVT_CFG_EN : FldId := ⟨0x12, 0x098, 8, 1⟩
def SXT_EVT_CFG_CNT_FWD : FldId := ⟨0x12, 0x098, 9, 1⟩
def SXT_DARK_TEST : RegId := ⟨0x12, 0x09C⟩
def SXT_DARK_TEST_FIRST : FldId := ⟨0x12, 0x09C, 0, 9⟩
def SXT_DARK_TEST_LAST : FldId := ⟨0x12, 0x09C, 16, 9⟩
def SXT_DARK_TEST_START : FldId := ⟨0x12, 0x09C, 31, 1⟩
def SXT_TERM_CMD : RegId := ⟨0x12, 0x0A0⟩
def SXT_TERM_CMD_TERMINAL : FldId := ⟨0x12, 0x0A0, 0, 9⟩
def SXT_TERM_CMD_OP : FldId := ⟨0x12, 0x0A0, 16, 4⟩
def SXT_TERM_CMD_STATUS : FldId := ⟨0x12, 0x0A0, 24, 4⟩
def SXT_TERM_CMD_BUSY : FldId := ⟨0x12, 0x0A0, 31, 1⟩
def SXT_TERM_DATA : RegId := ⟨0x12, 0x0A4⟩
def SXT_TERM_DATA_WORD : FldId := ⟨0x12, 0x0A4, 0, 32⟩
def SXT_DISC_WINDOWS : RegId := ⟨0x12, 0x0C4⟩
def SXT_DISC_RESP_OK : RegId := ⟨0x12, 0x0C8⟩
def SXT_DISC_COLLIDE : RegId := ⟨0x12, 0x0CC⟩
def SXT_UNKNOWN_SERIAL : RegId := ⟨0x12, 0x0D0⟩
def SXT_DUP_SERIAL : RegId := ⟨0x12, 0x0D4⟩
def SXT_RANGE_OK : RegId := ⟨0x12, 0x0D8⟩
def SXT_RANGE_FAIL : RegId := ⟨0x12, 0x0DC⟩
def SXT_ACK_LOST : RegId := ⟨0x12, 0x0E0⟩
def SXT_CTRL_BAD : RegId := ⟨0x12, 0x0E4⟩
def SXT_CTRL_UNAUTH : RegId := ⟨0x12, 0x0E8⟩
def SXT_VIOLATIONS : RegId := ⟨0x12, 0x0EC⟩
def SXT_QUARANTINES : RegId := ⟨0x12, 0x0F0⟩
def SXT_DEACTIVATIONS : RegId := ⟨0x12, 0x0F4⟩
def SXT_ROGUE_UNATTR : RegId := ⟨0x12, 0x0F8⟩
def SXT_EQD_UPDATES : RegId := ⟨0x12, 0x0FC⟩
def SXT_EVT_DROP : RegId := ⟨0x12, 0x100⟩
def SXT_CFG_REJECT : RegId := ⟨0x12, 0x104⟩
def SXT_COUNT_CTL : RegId := ⟨0x12, 0x108⟩
def SXT_COUNT_CTL_CLR_ALL : FldId := ⟨0x12, 0x108, 0, 1⟩
def SXT_CNT_CFG : RegId := ⟨0x12, 0x10C⟩
def SXT_CNT_CFG_CNT_PERIOD : FldId := ⟨0x12, 0x10C, 0, 16⟩
def ORR_CTL : RegId := ⟨0x13, 0x060⟩
def ORR_CTL_TREE_EN : FldId := ⟨0x13, 0x060, 0, 8⟩
def ORR_CTL_ROLE_POLL_EN : FldId := ⟨0x13, 0x060, 8, 1⟩
def ORR_STS : RegId := ⟨0x13, 0x064⟩
def ORR_STS_TREE_ACTIVE : FldId := ⟨0x13, 0x064, 0, 8⟩
def ORR_STS_FIXED_ONLY_LAST : FldId := ⟨0x13, 0x064, 8, 8⟩
def ORR_STS_STANDBY : FldId := ⟨0x13, 0x064, 16, 1⟩
def ORR_COMPUTE_AT : RegId := ⟨0x13, 0x068⟩
def ORR_COMPUTE_AT_CYCLE : FldId := ⟨0x13, 0x068, 0, 18⟩
def ORR_ALLOC_CMD : RegId := ⟨0x13, 0x06C⟩
def ORR_ALLOC_CMD_ALLOC : FldId := ⟨0x13, 0x06C, 0, 10⟩
def ORR_ALLOC_CMD_LTREE : FldId := ⟨0x13, 0x06C, 10, 3⟩
def ORR_ALLOC_CMD_OP : FldId := ⟨0x13, 0x06C, 16, 3⟩
def ORR_ALLOC_CMD_STATUS : FldId := ⟨0x13, 0x06C, 24, 4⟩
def ORR_ALLOC_CMD_BUSY : FldId := ⟨0x13, 0x06C, 31, 1⟩
def ORR_ALLOC_DATA : RegId := ⟨0x13, 0x070⟩
def ORR_ALLOC_DATA_WORD : FldId := ⟨0x13, 0x070, 0, 32⟩
def ORR_TREE_CFG : RegId := ⟨0x13, 0x0A0⟩
def ORR_TREE_CFG_D : FldId := ⟨0x13, 0x0A0, 0, 3⟩
def ORR_TREE_CFG_SLACK_EN : FldId := ⟨0x13, 0x0A0, 3, 1⟩
def ORR_TREE_CFG_RPT_AGE : FldId := ⟨0x13, 0x0A0, 4, 8⟩
def ORR_TREE_CFG_FIX_BASE : FldId := ⟨0x13, 0x0A0, 12, 16⟩
def ORR_LAST_MAP : RegId := ⟨0x13, 0x0C0⟩
def ORR_LAST_MAP_MAP_LEN : FldId := ⟨0x13, 0x0C0, 0, 11⟩
def ORR_LAST_MAP_FIXED_ONLY : FldId := ⟨0x13, 0x0C0, 11, 1⟩
def ORR_LAST_MAP_ROLE_POLL : FldId := ⟨0x13, 0x0C0, 12, 1⟩
def ORR_LAST_MAP_UNGRANTED : FldId := ⟨0x13, 0x0C0, 13, 16⟩
def ORR_MAPS_PUBLISHED_LO : RegId := ⟨0x13, 0x0E0⟩
def ORR_MAPS_PUBLISHED_HI : RegId := ⟨0x13, 0x0E4⟩
def ORR_GRANTS_LO : RegId := ⟨0x13, 0x0E8⟩
def ORR_GRANTS_HI : RegId := ⟨0x13, 0x0EC⟩
def ORR_BLOCKS_GRANTED_LO : RegId := ⟨0x13, 0x0F0⟩
def ORR_BLOCKS_GRANTED_HI : RegId := ⟨0x13, 0x0F4⟩
def ORR_SLACK_BLOCKS_LO : RegId := ⟨0x13, 0x0F8⟩
def ORR_SLACK_BLOCKS_HI : RegId := ⟨0x13, 0x0FC⟩
def ORR_FIXED_ONLY_MAPS : RegId := ⟨0x13, 0x100⟩
def ORR_NEED_UNMET : RegId := ⟨0x13, 0x104⟩
def ORR_ASSURED_SHORT : RegId := ⟨0x13, 0x108⟩
def ORR_RTG_LATE : RegId := ⟨0x13, 0x10C⟩
def ORR_HINTS_USED : RegId := ⟨0x13, 0x110⟩
def ORR_HINT_LATE : RegId := ⟨0x13, 0x114⟩
def ORR_HINT_DROP : RegId := ⟨0x13, 0x118⟩
def ORR_HINT_REJECT : RegId := ⟨0x13, 0x11C⟩
def ORR_SXT_CLASH : RegId := ⟨0x13, 0x120⟩
def ORR_PLACE_LOSS : RegId := ⟨0x13, 0x124⟩
def ORR_ENTRY_LIMIT : RegId := ⟨0x13, 0x128⟩
def ORR_FIX_SHORT : RegId := ⟨0x13, 0x12C⟩
def ORR_CFG_REJECT : RegId := ⟨0x13, 0x130⟩
def ORR_COUNT_CTL : RegId := ⟨0x13, 0x134⟩
def ORR_COUNT_CTL_CLR_ALL : FldId := ⟨0x13, 0x134, 0, 1⟩
def TRK_MODE : RegId := ⟨0x18, 0x040⟩
def TRK_MODE_MODE : FldId := ⟨0x18, 0x040, 0, 2⟩
def TRK_PORT_CTL : RegId := ⟨0x18, 0x044⟩
def TRK_PORT_CTL_EN : FldId := ⟨0x18, 0x044, 0, 1⟩
def TRK_PORT_CTL_AN_EN : FldId := ⟨0x18, 0x044, 1, 1⟩
def TRK_PORT_CTL_LOOPBACK : FldId := ⟨0x18, 0x044, 2, 1⟩
def TRK_PORT_CTL_MAX_FRAME : FldId := ⟨0x18, 0x044, 16, 14⟩
def TRK_PORT_STS : RegId := ⟨0x18, 0x048⟩
def TRK_PORT_STS_LINK : FldId := ⟨0x18, 0x048, 0, 1⟩
def TRK_PORT_STS_AN_DONE : FldId := ⟨0x18, 0x048, 1, 1⟩
def TRK_PORT_STS_ALIGNED : FldId := ⟨0x18, 0x048, 2, 1⟩
def TRK_PORT_STS_LOCAL_FAULT : FldId := ⟨0x18, 0x048, 3, 1⟩
def TRK_PORT_STS_REMOTE_FAULT : FldId := ⟨0x18, 0x048, 4, 1⟩
def TRK_PORT_STS_LANE_LOCK : FldId := ⟨0x18, 0x048, 5, 1⟩
def TRK_PORT_STS_PRIMARY : FldId := ⟨0x18, 0x048, 6, 1⟩
def TRK_RX_FRAMES_LO : RegId := ⟨0x18, 0x050⟩
def TRK_RX_FRAMES_HI : RegId := ⟨0x18, 0x054⟩
def TRK_TX_FRAMES_LO : RegId := ⟨0x18, 0x058⟩
def TRK_TX_FRAMES_HI : RegId := ⟨0x18, 0x05C⟩
def TRK_RX_OCTETS_LO : RegId := ⟨0x18, 0x060⟩
def TRK_RX_OCTETS_HI : RegId := ⟨0x18, 0x064⟩
def TRK_TX_OCTETS_LO : RegId := ⟨0x18, 0x068⟩
def TRK_TX_OCTETS_HI : RegId := ⟨0x18, 0x06C⟩
def TRK_FEC_CORR_CW_LO : RegId := ⟨0x18, 0x070⟩
def TRK_FEC_CORR_CW_HI : RegId := ⟨0x18, 0x074⟩
def TRK_FEC_UNCORR_CW : RegId := ⟨0x18, 0x078⟩
def TRK_RX_FCS_ERR : RegId := ⟨0x18, 0x07C⟩
def TRK_RX_RUNT : RegId := ⟨0x18, 0x080⟩
def TRK_RX_OVERSIZE : RegId := ⟨0x18, 0x084⟩
def TRK_RX_PAUSE : RegId := ⟨0x18, 0x088⟩
def TRK_TX_DISCARD : RegId := ⟨0x18, 0x08C⟩
def TRK_HALFPIPE_OVF : RegId := ⟨0x18, 0x090⟩
def TRK_LINK_DOWN : RegId := ⟨0x18, 0x094⟩
def TRK_CFG_REJECT : RegId := ⟨0x18, 0x098⟩
def TRK_COUNT_CTL : RegId := ⟨0x18, 0x09C⟩
def TRK_COUNT_CTL_CLR_ALL : FldId := ⟨0x18, 0x09C, 0, 1⟩
def MSEC_CTL : RegId := ⟨0x19, 0x040⟩
def MSEC_CTL_EN : FldId := ⟨0x19, 0x040, 0, 1⟩
def MSEC_CTL_SUITE : FldId := ⟨0x19, 0x040, 1, 2⟩
def MSEC_CTL_CONF_OFFSET : FldId := ⟨0x19, 0x040, 3, 2⟩
def MSEC_CTL_INTEG_ONLY : FldId := ⟨0x19, 0x040, 5, 1⟩
def MSEC_CTL_SEND_SCI : FldId := ⟨0x19, 0x040, 6, 1⟩
def MSEC_CTL_VALIDATE : FldId := ⟨0x19, 0x040, 7, 2⟩
def MSEC_CTL_REPLAY_EN : FldId := ⟨0x19, 0x040, 9, 1⟩
def MSEC_STS : RegId := ⟨0x19, 0x044⟩
def MSEC_STS_TX_AN : FldId := ⟨0x19, 0x044, 0, 2⟩
def MSEC_STS_TX_PENDING : FldId := ⟨0x19, 0x044, 2, 1⟩
def MSEC_STS_TX_EXHAUSTED : FldId := ⟨0x19, 0x044, 3, 1⟩
def MSEC_TX_SCI_LO : RegId := ⟨0x19, 0x048⟩
def MSEC_TX_SCI_LO_SCI : FldId := ⟨0x19, 0x048, 0, 32⟩
def MSEC_TX_SCI_HI : RegId := ⟨0x19, 0x04C⟩
def MSEC_TX_SCI_HI_SCI : FldId := ⟨0x19, 0x04C, 0, 32⟩
def MSEC_REPLAY_WINDOW : RegId := ⟨0x19, 0x050⟩
def MSEC_REPLAY_WINDOW_WINDOW : FldId := ⟨0x19, 0x050, 0, 31⟩
def MSEC_TX_SA_CTL : RegId := ⟨0x19, 0x054⟩
def MSEC_TX_SA_CTL_NEXT_AN : FldId := ⟨0x19, 0x054, 0, 2⟩
def MSEC_TX_SA_CTL_AT_EN : FldId := ⟨0x19, 0x054, 2, 1⟩
def MSEC_TX_SA_CTL_START : FldId := ⟨0x19, 0x054, 31, 1⟩
def MSEC_TX_SA_AT_LO : RegId := ⟨0x19, 0x058⟩
def MSEC_TX_SA_AT_LO_TICK_LO : FldId := ⟨0x19, 0x058, 0, 32⟩
def MSEC_TX_SA_AT_HI : RegId := ⟨0x19, 0x05C⟩
def MSEC_TX_SA_AT_HI_TICK_HI : FldId := ⟨0x19, 0x05C, 0, 16⟩
def MSEC_PN_THRESH_LO : RegId := ⟨0x19, 0x060⟩
def MSEC_PN_THRESH_LO_PN : FldId := ⟨0x19, 0x060, 0, 32⟩
def MSEC_PN_THRESH_HI : RegId := ⟨0x19, 0x064⟩
def MSEC_PN_THRESH_HI_PN : FldId := ⟨0x19, 0x064, 0, 32⟩
def MSEC_MKA_CFG : RegId := ⟨0x19, 0x068⟩
def MSEC_MKA_CFG_CLUSTER : FldId := ⟨0x19, 0x068, 0, 5⟩
def MSEC_MKA_CFG_EN : FldId := ⟨0x19, 0x068, 5, 1⟩
def MSEC_MKA_CFG_RX_RATE : FldId := ⟨0x19, 0x068, 8, 8⟩
def MSEC_MKA_CFG_BAD_THRESH : FldId := ⟨0x19, 0x068, 16, 16⟩
def MSEC_SA_CMD : RegId := ⟨0x19, 0x06C⟩
def MSEC_SA_CMD_SC : FldId := ⟨0x19, 0x06C, 0, 6⟩
def MSEC_SA_CMD_AN : FldId := ⟨0x19, 0x06C, 6, 2⟩
def MSEC_SA_CMD_TABLE : FldId := ⟨0x19, 0x06C, 8, 2⟩
def MSEC_SA_CMD_OP : FldId := ⟨0x19, 0x06C, 16, 3⟩
def MSEC_SA_CMD_STATUS : FldId := ⟨0x19, 0x06C, 24, 4⟩
def MSEC_SA_CMD_BUSY : FldId := ⟨0x19, 0x06C, 31, 1⟩
def MSEC_SA_DATA : RegId := ⟨0x19, 0x070⟩
def MSEC_SA_DATA_WORD : FldId := ⟨0x19, 0x070, 0, 32⟩
def MSEC_OUT_PROTECTED_LO : RegId := ⟨0x19, 0x090⟩
def MSEC_OUT_PROTECTED_HI : RegId := ⟨0x19, 0x094⟩
def MSEC_OUT_ENCRYPTED_LO : RegId := ⟨0x19, 0x098⟩
def MSEC_OUT_ENCRYPTED_HI : RegId := ⟨0x19, 0x09C⟩
def MSEC_IN_OK_LO : RegId := ⟨0x19, 0x0A0⟩
def MSEC_IN_OK_HI : RegId := ⟨0x19, 0x0A4⟩
def MSEC_OUT_TOO_LONG : RegId := ⟨0x19, 0x0A8⟩
def MSEC_TX_PN_EXHAUST : RegId := ⟨0x19, 0x0AC⟩
def MSEC_TX_SA_FAIL : RegId := ⟨0x19, 0x0B0⟩
def MSEC_IN_UNCHECKED : RegId := ⟨0x19, 0x0B4⟩
def MSEC_IN_DELAYED : RegId := ⟨0x19, 0x0B8⟩
def MSEC_IN_LATE : RegId := ⟨0x19, 0x0BC⟩
def MSEC_IN_INVALID : RegId := ⟨0x19, 0x0C0⟩
def MSEC_IN_NOT_VALID : RegId := ⟨0x19, 0x0C4⟩
def MSEC_IN_UNTAGGED : RegId := ⟨0x19, 0x0C8⟩
def MSEC_IN_NO_TAG : RegId := ⟨0x19, 0x0CC⟩
def MSEC_IN_BAD_TAG : RegId := ⟨0x19, 0x0D0⟩
def MSEC_IN_UNKNOWN_SCI : RegId := ⟨0x19, 0x0D4⟩
def MSEC_IN_NO_SCI : RegId := ⟨0x19, 0x0D8⟩
def MSEC_IN_NO_SA : RegId := ⟨0x19, 0x0DC⟩
def MSEC_IN_NO_SA_ERR : RegId := ⟨0x19, 0x0E0⟩
def MSEC_MKA_RX_DROP : RegId := ⟨0x19, 0x0E4⟩
def MSEC_NAMED_TICK_LATE : RegId := ⟨0x19, 0x0E8⟩
def MSEC_CFG_REJECT : RegId := ⟨0x19, 0x0EC⟩
def MSEC_COUNT_CTL : RegId := ⟨0x19, 0x0F0⟩
def MSEC_COUNT_CTL_CLR_ALL : FldId := ⟨0x19, 0x0F0, 0, 1⟩
def CIPH_CTL : RegId := ⟨0x1A, 0x060⟩
def CIPH_CTL_CORE_EN : FldId := ⟨0x1A, 0x060, 0, 12⟩
def CIPH_STS : RegId := ⟨0x1A, 0x064⟩
def CIPH_STS_CORE_BUSY : FldId := ⟨0x1A, 0x064, 0, 12⟩
def CIPH_STS_CTX_USED : FldId := ⟨0x1A, 0x064, 12, 9⟩
def CIPH_STS_MISS_KIB : FldId := ⟨0x1A, 0x064, 21, 9⟩
def CIPH_TEST : RegId := ⟨0x1A, 0x068⟩
def CIPH_TEST_KAT_START : FldId := ⟨0x1A, 0x068, 0, 1⟩
def CIPH_TEST_KAT_DONE : FldId := ⟨0x1A, 0x068, 1, 1⟩
def CIPH_TEST_KAT_FAIL : FldId := ⟨0x1A, 0x068, 16, 12⟩
def CIPH_ITEMS_LO : RegId := ⟨0x1A, 0x070⟩
def CIPH_ITEMS_HI : RegId := ⟨0x1A, 0x074⟩
def CIPH_BLOCKS_LO : RegId := ⟨0x1A, 0x078⟩
def CIPH_BLOCKS_HI : RegId := ⟨0x1A, 0x07C⟩
def CIPH_TAG_FAIL : RegId := ⟨0x1A, 0x080⟩
def CIPH_MISS_HELD : RegId := ⟨0x1A, 0x084⟩
def CIPH_MISS_DROP : RegId := ⟨0x1A, 0x088⟩
def CIPH_MISS_BUF_FULL : RegId := ⟨0x1A, 0x08C⟩
def CIPH_NO_KEY : RegId := ⟨0x1A, 0x090⟩
def CIPH_USAGE_STOP_DROP : RegId := ⟨0x1A, 0x094⟩
def CIPH_FREE_REFUSE : RegId := ⟨0x1A, 0x098⟩
def CIPH_SUSPENDS : RegId := ⟨0x1A, 0x09C⟩
def CIPH_CTX_PARKED : RegId := ⟨0x1A, 0x0A0⟩
def CIPH_CTX_LOST : RegId := ⟨0x1A, 0x0A4⟩
def CIPH_COUNT_CTL : RegId := ⟨0x1A, 0x0A8⟩
def CIPH_COUNT_CTL_CLR_ALL : FldId := ⟨0x1A, 0x0A8, 0, 1⟩
def FWD_CTL : RegId := ⟨0x1C, 0x060⟩
def FWD_CTL_LEARN_EN : FldId := ⟨0x1C, 0x060, 0, 1⟩
def FWD_CTL_MOVE_DEPTH : FldId := ⟨0x1C, 0x060, 1, 3⟩
def FWD_STS : RegId := ⟨0x1C, 0x064⟩
def FWD_STS_ENTRIES : FldId := ⟨0x1C, 0x064, 0, 19⟩
def FWD_STS_STASH_USED : FldId := ⟨0x1C, 0x064, 19, 5⟩
def FWD_STS_AGE_BUSY : FldId := ⟨0x1C, 0x064, 24, 1⟩
def FWD_STS_WALK_MOVED : FldId := ⟨0x1C, 0x064, 25, 1⟩
def FWD_STS_AGE_PARITY : FldId := ⟨0x1C, 0x064, 26, 1⟩
def FWD_CMD : RegId := ⟨0x1C, 0x068⟩
def FWD_CMD_OP : FldId := ⟨0x1C, 0x068, 0, 4⟩
def FWD_CMD_TABLE : FldId := ⟨0x1C, 0x068, 4, 3⟩
def FWD_CMD_START : FldId := ⟨0x1C, 0x068, 7, 1⟩
def FWD_CMD_STATUS : FldId := ⟨0x1C, 0x068, 24, 4⟩
def FWD_CMD_BUSY : FldId := ⟨0x1C, 0x068, 31, 1⟩
def FWD_IDX : RegId := ⟨0x1C, 0x06C⟩
def FWD_IDX_INDEX : FldId := ⟨0x1C, 0x06C, 0, 19⟩
def FWD_DATA : RegId := ⟨0x1C, 0x070⟩
def FWD_DATA_WORD : FldId := ⟨0x1C, 0x070, 0, 32⟩
def FWD_AGE_CTL : RegId := ⟨0x1C, 0x080⟩
def FWD_AGE_CTL_START : FldId := ⟨0x1C, 0x080, 0, 1⟩
def FWD_AGE_RESULT : RegId := ⟨0x1C, 0x084⟩
def FWD_AGE_RESULT_AGED : FldId := ⟨0x1C, 0x084, 0, 19⟩
def FWD_EVT_CFG : RegId := ⟨0x1C, 0x088⟩
def FWD_EVT_CFG_RING : FldId := ⟨0x1C, 0x088, 0, 6⟩
def FWD_EVT_CFG_EN : FldId := ⟨0x1C, 0x088, 8, 1⟩
def FWD_EVT_CFG_CODES : FldId := ⟨0x1C, 0x088, 9, 5⟩
def FWD_EVT_CFG_EVT_RATE : FldId := ⟨0x1C, 0x088, 16, 10⟩
def FWD_LOOKUPS_LO : RegId := ⟨0x1C, 0x090⟩
def FWD_LOOKUPS_HI : RegId := ⟨0x1C, 0x094⟩
def FWD_FLOODS_LO : RegId := ⟨0x1C, 0x098⟩
def FWD_FLOODS_HI : RegId := ⟨0x1C, 0x09C⟩
def FWD_LEARNED : RegId := ⟨0x1C, 0x0A0⟩
def FWD_MOVES : RegId := ⟨0x1C, 0x0A4⟩
def FWD_STATIC_MOVE : RegId := ⟨0x1C, 0x0A8⟩
def FWD_LEARN_DROP : RegId := ⟨0x1C, 0x0AC⟩
def FWD_LEARN_LIMIT : RegId := ⟨0x1C, 0x0B0⟩
def FWD_INSERT_FAIL : RegId := ⟨0x1C, 0x0B4⟩
def FWD_RELOCATIONS : RegId := ⟨0x1C, 0x0B8⟩
def FWD_AGED : RegId := ⟨0x1C, 0x0BC⟩
def FWD_FENCE_DROP : RegId := ⟨0x1C, 0x0C0⟩
def FWD_SAME_PORT : RegId := ⟨0x1C, 0x0C4⟩
def FWD_UNKNOWN_DROP : RegId := ⟨0x1C, 0x0C8⟩
def FWD_DOMAIN_MISS : RegId := ⟨0x1C, 0x0CC⟩
def FWD_TERM_TAGGED : RegId := ⟨0x1C, 0x0D0⟩
def FWD_LINK_LOCAL_DROP : RegId := ⟨0x1C, 0x0D4⟩
def FWD_SA_BAD : RegId := ⟨0x1C, 0x0D8⟩
def FWD_PEER_COPY_LIMIT : RegId := ⟨0x1C, 0x0DC⟩
def FWD_PEER_RING_BAD : RegId := ⟨0x1C, 0x0E0⟩
def FWD_EVT_DROP : RegId := ⟨0x1C, 0x0E4⟩
def FWD_CFG_REJECT : RegId := ⟨0x1C, 0x0E8⟩
def FWD_COUNT_CTL : RegId := ⟨0x1C, 0x0EC⟩
def FWD_COUNT_CTL_CLR_ALL : FldId := ⟨0x1C, 0x0EC, 0, 1⟩
def QSCH_CTL : RegId := ⟨0x1D, 0x060⟩
def QSCH_CTL_TREE_EN : FldId := ⟨0x1D, 0x060, 0, 8⟩
def QSCH_CTL_POLICE_EN : FldId := ⟨0x1D, 0x060, 8, 1⟩
def QSCH_CTL_SAMPLE_EN : FldId := ⟨0x1D, 0x060, 9, 1⟩
def QSCH_STS : RegId := ⟨0x1D, 0x064⟩
def QSCH_STS_PARTIAL : FldId := ⟨0x1D, 0x064, 0, 8⟩
def QSCH_Q_CMD : RegId := ⟨0x1D, 0x068⟩
def QSCH_Q_CMD_OP : FldId := ⟨0x1D, 0x068, 0, 4⟩
def QSCH_Q_CMD_TABLE : FldId := ⟨0x1D, 0x068, 4, 4⟩
def QSCH_Q_CMD_STATUS : FldId := ⟨0x1D, 0x068, 24, 4⟩
def QSCH_Q_CMD_BUSY : FldId := ⟨0x1D, 0x068, 31, 1⟩
def QSCH_Q_IDX : RegId := ⟨0x1D, 0x06C⟩
def QSCH_Q_IDX_INDEX : FldId := ⟨0x1D, 0x06C, 0, 16⟩
def QSCH_Q_DATA : RegId := ⟨0x1D, 0x070⟩
def QSCH_Q_DATA_WORD : FldId := ⟨0x1D, 0x070, 0, 32⟩
def QSCH_SAMPLE_CFG : RegId := ⟨0x1D, 0x088⟩
def QSCH_SAMPLE_CFG_STRIDE : FldId := ⟨0x1D, 0x088, 0, 4⟩
def QSCH_ENQUEUED_LO : RegId := ⟨0x1D, 0x090⟩
def QSCH_ENQUEUED_HI : RegId := ⟨0x1D, 0x094⟩
def QSCH_SERVED_LO : RegId := ⟨0x1D, 0x098⟩
def QSCH_SERVED_HI : RegId := ⟨0x1D, 0x09C⟩
def QSCH_SERVED_BYTES_LO : RegId := ⟨0x1D, 0x0A0⟩
def QSCH_SERVED_BYTES_HI : RegId := ⟨0x1D, 0x0A4⟩
def QSCH_QUOTA_DROP : RegId := ⟨0x1D, 0x0A8⟩
def QSCH_THRESH_DROP : RegId := ⟨0x1D, 0x0AC⟩
def QSCH_POOL_DROP : RegId := ⟨0x1D, 0x0B0⟩
def QSCH_TERM_DOWN_DROP : RegId := ⟨0x1D, 0x0B4⟩
def QSCH_FLUSH_DROP : RegId := ⟨0x1D, 0x0B8⟩
def QSCH_ECN_MARKED : RegId := ⟨0x1D, 0x0BC⟩
def QSCH_POLICE_YELLOW : RegId := ⟨0x1D, 0x0C0⟩
def QSCH_POLICE_RED : RegId := ⟨0x1D, 0x0C4⟩
def QSCH_SHAPE_OVERSIZE : RegId := ⟨0x1D, 0x0C8⟩
def QSCH_SAMPLE_DROP : RegId := ⟨0x1D, 0x0CC⟩
def QSCH_CFG_REJECT : RegId := ⟨0x1D, 0x0D0⟩
def QSCH_COUNT_CTL : RegId := ⟨0x1D, 0x0D4⟩
def QSCH_COUNT_CTL_CLR_ALL : FldId := ⟨0x1D, 0x0D4, 0, 1⟩
def GATE_CTL : RegId := ⟨0x1E, 0x040⟩
def GATE_CTL_EN : FldId := ⟨0x1E, 0x040, 0, 1⟩
def GATE_COMMIT : RegId := ⟨0x1E, 0x044⟩
def GATE_COMMIT_COMMIT : FldId := ⟨0x1E, 0x044, 0, 1⟩
def GATE_STS : RegId := ⟨0x1E, 0x048⟩
def GATE_STS_GATES : FldId := ⟨0x1E, 0x048, 0, 8⟩
def GATE_STS_ENTRY : FldId := ⟨0x1E, 0x048, 8, 8⟩
def GATE_STS_PENDING : FldId := ⟨0x1E, 0x048, 16, 1⟩
def GATE_STS_NO_TIME : FldId := ⟨0x1E, 0x048, 17, 1⟩
def GATE_STS_OPER_VALID : FldId := ⟨0x1E, 0x048, 18, 1⟩
def GATE_GUARD_BYTES : RegId := ⟨0x1E, 0x04C⟩
def GATE_GUARD_BYTES_BYTES : FldId := ⟨0x1E, 0x04C, 0, 8⟩
def GATE_ADMIN_LEN : RegId := ⟨0x1E, 0x050⟩
def GATE_ADMIN_LEN_ENTRIES : FldId := ⟨0x1E, 0x050, 0, 9⟩
def GATE_ADMIN_CYCLE : RegId := ⟨0x1E, 0x054⟩
def GATE_ADMIN_CYCLE_NS : FldId := ⟨0x1E, 0x054, 0, 30⟩
def GATE_ADMIN_BASE_NS : RegId := ⟨0x1E, 0x058⟩
def GATE_ADMIN_BASE_NS_NS : FldId := ⟨0x1E, 0x058, 0, 30⟩
def GATE_ADMIN_BASE_S_LO : RegId := ⟨0x1E, 0x05C⟩
def GATE_ADMIN_BASE_S_LO_SEC_LO : FldId := ⟨0x1E, 0x05C, 0, 32⟩
def GATE_ADMIN_BASE_S_HI : RegId := ⟨0x1E, 0x060⟩
def GATE_ADMIN_BASE_S_HI_SEC_HI : FldId := ⟨0x1E, 0x060, 0, 16⟩
def GATE_LIST_IDX : RegId := ⟨0x1E, 0x064⟩
def GATE_LIST_IDX_ENTRY : FldId := ⟨0x1E, 0x064, 0, 8⟩
def GATE_LIST_IDX_LIST : FldId := ⟨0x1E, 0x064, 8, 1⟩
def GATE_LIST_DATA0 : RegId := ⟨0x1E, 0x068⟩
def GATE_LIST_DATA0_GATES : FldId := ⟨0x1E, 0x068, 0, 8⟩
def GATE_LIST_DATA1 : RegId := ⟨0x1E, 0x06C⟩
def GATE_LIST_DATA1_INTERVAL : FldId := ⟨0x1E, 0x06C, 0, 30⟩
def GATE_OPER_CYCLE : RegId := ⟨0x1E, 0x070⟩
def GATE_OPER_CYCLE_NS : FldId := ⟨0x1E, 0x070, 0, 30⟩
def GATE_OPER_START_NS : RegId := ⟨0x1E, 0x074⟩
def GATE_OPER_START_NS_NS : FldId := ⟨0x1E, 0x074, 0, 30⟩
def GATE_OPER_START_S_LO : RegId := ⟨0x1E, 0x078⟩
def GATE_OPER_START_S_LO_SEC_LO : FldId := ⟨0x1E, 0x078, 0, 32⟩
def GATE_OPER_START_S_HI : RegId := ⟨0x1E, 0x07C⟩
def GATE_OPER_START_S_HI_SEC_HI : FldId := ⟨0x1E, 0x07C, 0, 16⟩
def GATE_PAST_BASE : RegId := ⟨0x1E, 0x080⟩
def GATE_OVERSIZE_FOR_WINDOW : RegId := ⟨0x1E, 0x084⟩
def GATE_LIST_SWITCHES : RegId := ⟨0x1E, 0x088⟩
def GATE_CFG_REJECT : RegId := ⟨0x1E, 0x08C⟩
def GATE_COUNT_CTL : RegId := ⟨0x1E, 0x090⟩
def GATE_COUNT_CTL_CLR_ALL : FldId := ⟨0x1E, 0x090, 0, 1⟩
def CKT_CTL : RegId := ⟨0x20, 0x060⟩
def CKT_CTL_TX_MODE : FldId := ⟨0x20, 0x060, 0, 2⟩
def CKT_CTL_TX_AIS : FldId := ⟨0x20, 0x060, 2, 1⟩
def CKT_CTL_TX_RDI : FldId := ⟨0x20, 0x060, 3, 1⟩
def CKT_CTL_RX_EN : FldId := ⟨0x20, 0x060, 4, 1⟩
def CKT_CTL_PM_EN : FldId := ⟨0x20, 0x060, 5, 1⟩
def CKT_CTL_SCR_OFF : FldId := ⟨0x20, 0x060, 6, 1⟩
def CKT_STS : RegId := ⟨0x20, 0x064⟩
def CKT_STS_RX_STATE : FldId := ⟨0x20, 0x064, 0, 2⟩
def CKT_STS_LOS : FldId := ⟨0x20, 0x064, 2, 1⟩
def CKT_STS_LOF : FldId := ⟨0x20, 0x064, 3, 1⟩
def CKT_STS_LOMF : FldId := ⟨0x20, 0x064, 4, 1⟩
def CKT_STS_S_AIS : FldId := ⟨0x20, 0x064, 5, 1⟩
def CKT_STS_S_DEG : FldId := ⟨0x20, 0x064, 6, 1⟩
def CKT_STS_RX_RDI : FldId := ⟨0x20, 0x064, 7, 1⟩
def CKT_STS_PATH_DEF : FldId := ⟨0x20, 0x064, 8, 1⟩
def CKT_DEG_CFG : RegId := ⟨0x20, 0x068⟩
def CKT_DEG_CFG_S_THR : FldId := ⟨0x20, 0x068, 0, 16⟩
def CKT_DEG_CFG_DEG_M : FldId := ⟨0x20, 0x068, 16, 4⟩
def CKT_DEG_CFG_P_THR : FldId := ⟨0x20, 0x068, 20, 9⟩
def CKT_SES_CFG : RegId := ⟨0x20, 0x06C⟩
def CKT_SES_CFG_S_SES : FldId := ⟨0x20, 0x06C, 0, 16⟩
def CKT_SES_CFG_P_SES : FldId := ⟨0x20, 0x06C, 16, 9⟩
def CKT_RX_PHASE : RegId := ⟨0x20, 0x070⟩
def CKT_RX_PHASE_NS : FldId := ⟨0x20, 0x070, 0, 18⟩
def CKT_RX_PHASE_VALID : FldId := ⟨0x20, 0x070, 31, 1⟩
def CKT_PATH_CMD : RegId := ⟨0x20, 0x074⟩
def CKT_PATH_CMD_PATH : FldId := ⟨0x20, 0x074, 0, 11⟩
def CKT_PATH_CMD_OP : FldId := ⟨0x20, 0x074, 16, 3⟩
def CKT_PATH_CMD_STATUS : FldId := ⟨0x20, 0x074, 24, 4⟩
def CKT_PATH_CMD_BUSY : FldId := ⟨0x20, 0x074, 31, 1⟩
def CKT_PATH_DATA : RegId := ⟨0x20, 0x078⟩
def CKT_PATH_DATA_WORD : FldId := ⟨0x20, 0x078, 0, 32⟩
def CKT_BIN_CMD : RegId := ⟨0x20, 0x088⟩
def CKT_BIN_CMD_ENTITY : FldId := ⟨0x20, 0x088, 0, 12⟩
def CKT_BIN_CMD_BIN : FldId := ⟨0x20, 0x088, 12, 6⟩
def CKT_BIN_CMD_READ : FldId := ⟨0x20, 0x088, 18, 1⟩
def CKT_BIN_CMD_STATUS : FldId := ⟨0x20, 0x088, 24, 4⟩
def CKT_BIN_CMD_BUSY : FldId := ⟨0x20, 0x088, 31, 1⟩
def CKT_BIN_DATA : RegId := ⟨0x20, 0x08C⟩
def CKT_BIN_DATA_WORD : FldId := ⟨0x20, 0x08C, 0, 32⟩
def CKT_RX_LINK_EXP : RegId := ⟨0x20, 0x0A4⟩
def CKT_RX_LINK_EXP_LINK : FldId := ⟨0x20, 0x0A4, 0, 2⟩
def CKT_FRAMES_RX_LO : RegId := ⟨0x20, 0x0A8⟩
def CKT_FRAMES_RX_HI : RegId := ⟨0x20, 0x0AC⟩
def CKT_S_BIP_ERR : RegId := ⟨0x20, 0x0B0⟩
def CKT_S_FEBE_ERR : RegId := ⟨0x20, 0x0B4⟩
def CKT_HDR_MISS : RegId := ⟨0x20, 0x0B8⟩
def CKT_RESYNC : RegId := ⟨0x20, 0x0BC⟩
def CKT_TX_SLIP : RegId := ⟨0x20, 0x0C0⟩
def CKT_RX_SLIP : RegId := ⟨0x20, 0x0C4⟩
def CKT_FILL_BYTES : RegId := ⟨0x20, 0x0C8⟩
def CKT_LINK_MISMATCH : RegId := ⟨0x20, 0x0CC⟩
def CKT_CFG_REJECT : RegId := ⟨0x20, 0x0D0⟩
def CKT_COUNT_CTL : RegId := ⟨0x20, 0x0D4⟩
def CKT_COUNT_CTL_CLR_ALL : FldId := ⟨0x20, 0x0D4, 0, 1⟩
def CKT_DEF_CHANGE : RegId := ⟨0x20, 0x100⟩
def CKT_DEF_CHANGE_CHANGE : FldId := ⟨0x20, 0x100, 0, 32⟩
def TSI_CTL : RegId := ⟨0x21, 0x060⟩
def TSI_CTL_EN : FldId := ⟨0x21, 0x060, 0, 1⟩
def TSI_STS : RegId := ⟨0x21, 0x064⟩
def TSI_STS_ACTIVE_PAGE : FldId := ⟨0x21, 0x064, 0, 1⟩
def TSI_STS_ARMED : FldId := ⟨0x21, 0x064, 1, 1⟩
def TSI_STS_VERIFYING : FldId := ⟨0x21, 0x064, 2, 1⟩
def TSI_STS_ASSIGN_OPEN : FldId := ⟨0x21, 0x064, 4, 15⟩
def TSI_CONN_CMD : RegId := ⟨0x21, 0x068⟩
def TSI_CONN_CMD_OP : FldId := ⟨0x21, 0x068, 0, 3⟩
def TSI_CONN_CMD_PAGE : FldId := ⟨0x21, 0x068, 3, 1⟩
def TSI_CONN_CMD_STATUS : FldId := ⟨0x21, 0x068, 24, 4⟩
def TSI_CONN_CMD_BUSY : FldId := ⟨0x21, 0x068, 31, 1⟩
def TSI_CONN_IDX : RegId := ⟨0x21, 0x06C⟩
def TSI_CONN_IDX_ENTRY : FldId := ⟨0x21, 0x06C, 0, 18⟩
def TSI_CONN_DATA : RegId := ⟨0x21, 0x070⟩
def TSI_CONN_DATA_WORD : FldId := ⟨0x21, 0x070, 0, 32⟩
def TSI_SWITCH_AT_LO : RegId := ⟨0x21, 0x080⟩
def TSI_SWITCH_AT_LO_TICK_LO : FldId := ⟨0x21, 0x080, 0, 32⟩
def TSI_SWITCH_AT_HI : RegId := ⟨0x21, 0x084⟩
def TSI_SWITCH_AT_HI_TICK_HI : FldId := ⟨0x21, 0x084, 0, 16⟩
def TSI_SWITCH_CTL : RegId := ⟨0x21, 0x088⟩
def TSI_SWITCH_CTL_ARM : FldId := ⟨0x21, 0x088, 0, 1⟩
def TSI_SWITCH_CTL_FORCE : FldId := ⟨0x21, 0x088, 1, 1⟩
def TSI_SWITCH_CTL_CANCEL : FldId := ⟨0x21, 0x088, 2, 1⟩
def TSI_VERIFY_RESULT : RegId := ⟨0x21, 0x08C⟩
def TSI_VERIFY_RESULT_INDEX : FldId := ⟨0x21, 0x08C, 0, 18⟩
def TSI_VERIFY_RESULT_REASON : FldId := ⟨0x21, 0x08C, 18, 4⟩
def TSI_VERIFY_RESULT_FAIL : FldId := ⟨0x21, 0x08C, 31, 1⟩
def TSI_ASSIGN_CMD : RegId := ⟨0x21, 0x090⟩
def TSI_ASSIGN_CMD_TERMINAL : FldId := ⟨0x21, 0x090, 0, 9⟩
def TSI_ASSIGN_CMD_TREE : FldId := ⟨0x21, 0x090, 9, 5⟩
def TSI_ASSIGN_CMD_OP : FldId := ⟨0x21, 0x090, 16, 2⟩
def TSI_ASSIGN_CMD_STATUS : FldId := ⟨0x21, 0x090, 24, 4⟩
def TSI_ASSIGN_CMD_BUSY : FldId := ⟨0x21, 0x090, 31, 1⟩
def TSI_BYTES_MOVED_LO : RegId := ⟨0x21, 0x098⟩
def TSI_BYTES_MOVED_HI : RegId := ⟨0x21, 0x09C⟩
def TSI_OWNER_FILL : RegId := ⟨0x21, 0x0A0⟩
def TSI_PAGE_SWITCHES : RegId := ⟨0x21, 0x0A4⟩
def TSI_NAMED_TICK_LATE : RegId := ⟨0x21, 0x0A8⟩
def TSI_CFG_REJECT : RegId := ⟨0x21, 0x0AC⟩
def TSI_COUNT_CTL : RegId := ⟨0x21, 0x0B0⟩
def TSI_COUNT_CTL_CLR_ALL : FldId := ⟨0x21, 0x0B0, 0, 1⟩
def NAV_CTL : RegId := ⟨0x24, 0x060⟩
def NAV_CTL_EN : FldId := ⟨0x24, 0x060, 0, 1⟩
def NAV_CTL_SPARE_EN : FldId := ⟨0x24, 0x060, 1, 1⟩
def NAV_CTL_EVT_NAV : FldId := ⟨0x24, 0x060, 4, 4⟩
def NAV_CTL_HOST_RING : FldId := ⟨0x24, 0x060, 8, 6⟩
def NAV_CTL_RUN_MASK : FldId := ⟨0x24, 0x060, 16, 16⟩
def NAV_STS : RegId := ⟨0x24, 0x064⟩
def NAV_STS_ACTIVE_BANK : FldId := ⟨0x24, 0x064, 0, 1⟩
def NAV_STS_VALID0 : FldId := ⟨0x24, 0x064, 1, 1⟩
def NAV_STS_VALID1 : FldId := ⟨0x24, 0x064, 2, 1⟩
def NAV_STS_ARMED : FldId := ⟨0x24, 0x064, 3, 1⟩
def NAV_STS_OLD_BANK_BUSY : FldId := ⟨0x24, 0x064, 4, 1⟩
def NAV_STS_SPARE_AVAIL : FldId := ⟨0x24, 0x064, 5, 1⟩
def NAV_STS_SPARE_FOR : FldId := ⟨0x24, 0x064, 6, 4⟩
def NAV_STS_SPARE_IN_USE : FldId := ⟨0x24, 0x064, 10, 1⟩
def NAV_STS_LOADING : FldId := ⟨0x24, 0x064, 11, 1⟩
def NAV_STS_SDATA_SKIPPED : FldId := ⟨0x24, 0x064, 12, 1⟩
def NAV_RUN : RegId := ⟨0x24, 0x068⟩
def NAV_RUN_RUNNING : FldId := ⟨0x24, 0x068, 0, 16⟩
def NAV_RUN_WAITING : FldId := ⟨0x24, 0x068, 16, 16⟩
def NAV_FAILED : RegId := ⟨0x24, 0x06C⟩
def NAV_FAILED_LOST : FldId := ⟨0x24, 0x06C, 0, 16⟩
def NAV_WDOG_CFG : RegId := ⟨0x24, 0x070⟩
def NAV_WDOG_CFG_TICKS : FldId := ⟨0x24, 0x070, 0, 8⟩
def NAV_BANK_AT_LO : RegId := ⟨0x24, 0x074⟩
def NAV_BANK_AT_LO_TICK_LO : FldId := ⟨0x24, 0x074, 0, 32⟩
def NAV_BANK_AT_HI : RegId := ⟨0x24, 0x078⟩
def NAV_BANK_AT_HI_TICK_HI : FldId := ⟨0x24, 0x078, 0, 16⟩
def NAV_BANK_CTL : RegId := ⟨0x24, 0x07C⟩
def NAV_BANK_CTL_ARM : FldId := ⟨0x24, 0x07C, 0, 1⟩
def NAV_BANK_CTL_CANCEL : FldId := ⟨0x24, 0x07C, 1, 1⟩
def NAV_BANK_CTL_STATUS : FldId := ⟨0x24, 0x07C, 24, 4⟩
def NAV_IMG_CMD : RegId := ⟨0x24, 0x080⟩
def NAV_IMG_CMD_OP : FldId := ⟨0x24, 0x080, 0, 2⟩
def NAV_IMG_CMD_WINDOW : FldId := ⟨0x24, 0x080, 4, 4⟩
def NAV_IMG_CMD_STATUS : FldId := ⟨0x24, 0x080, 24, 4⟩
def NAV_IMG_CMD_BUSY : FldId := ⟨0x24, 0x080, 31, 1⟩
def NAV_IMG_ADDR_LO : RegId := ⟨0x24, 0x084⟩
def NAV_IMG_ADDR_LO_OFFSET : FldId := ⟨0x24, 0x084, 0, 32⟩
def NAV_IMG_ADDR_HI : RegId := ⟨0x24, 0x088⟩
def NAV_IMG_ADDR_HI_OFFSET : FldId := ⟨0x24, 0x088, 0, 32⟩
def NAV_IMG_LEN : RegId := ⟨0x24, 0x08C⟩
def NAV_IMG_LEN_BYTES : FldId := ⟨0x24, 0x08C, 0, 21⟩
def NAV_MIN_SVN : RegId := ⟨0x24, 0x090⟩
def NAV_MIN_SVN_SVN : FldId := ⟨0x24, 0x090, 0, 32⟩
def NAV_BANK_SVN0 : RegId := ⟨0x24, 0x094⟩
def NAV_BANK_SVN0_SVN : FldId := ⟨0x24, 0x094, 0, 32⟩
def NAV_BANK_SVN1 : RegId := ⟨0x24, 0x098⟩
def NAV_BANK_SVN1_SVN : FldId := ⟨0x24, 0x098, 0, 32⟩
def NAV_RX_RING : RegId := ⟨0x24, 0x09C⟩
def NAV_RX_RING_BASE : FldId := ⟨0x24, 0x09C, 0, 14⟩
def NAV_RX_RING_SLOTS : FldId := ⟨0x24, 0x09C, 14, 11⟩
def NAV_RX_RING_SLOT_KIB : FldId := ⟨0x24, 0x09C, 25, 4⟩
def NAV_TRAP_INFO : RegId := ⟨0x24, 0x0A0⟩
def NAV_TRAP_INFO_NAV : FldId := ⟨0x24, 0x0A0, 0, 4⟩
def NAV_TRAP_INFO_CAUSE : FldId := ⟨0x24, 0x0A0, 4, 8⟩
def NAV_TRAP_INFO_UMODE : FldId := ⟨0x24, 0x0A0, 12, 1⟩
def NAV_TRAP_PC : RegId := ⟨0x24, 0x0A4⟩
def NAV_TRAP_PC_PC : FldId := ⟨0x24, 0x0A4, 0, 32⟩
def NAV_MBX_SENT_LO : RegId := ⟨0x24, 0x0B0⟩
def NAV_MBX_SENT_HI : RegId := ⟨0x24, 0x0B4⟩
def NAV_MBX_DROP : RegId := ⟨0x24, 0x0B8⟩
def NAV_MBX_REFUSED : RegId := ⟨0x24, 0x0BC⟩
def NAV_MBX_RX_DROP : RegId := ⟨0x24, 0x0C0⟩
def NAV_FRAME_RX : RegId := ⟨0x24, 0x0C4⟩
def NAV_FRAME_DROP : RegId := ⟨0x24, 0x0C8⟩
def NAV_INJECT_OK : RegId := ⟨0x24, 0x0CC⟩
def NAV_INJECT_REJECT : RegId := ⟨0x24, 0x0D0⟩
def NAV_ALM_REQ : RegId := ⟨0x24, 0x0D4⟩
def NAV_TRAPS : RegId := ⟨0x24, 0x0D8⟩
def NAV_WDOG_RESTARTS : RegId := ⟨0x24, 0x0DC⟩
def NAV_SPARE_SWAPS : RegId := ⟨0x24, 0x0E0⟩
def NAV_BANK_FORCED : RegId := ⟨0x24, 0x0E4⟩
def NAV_IMG_REJECT : RegId := ⟨0x24, 0x0E8⟩
def NAV_NAMED_TICK_LATE : RegId := ⟨0x24, 0x0EC⟩
def NAV_CFG_REJECT : RegId := ⟨0x24, 0x0F0⟩
def NAV_COUNT_CTL : RegId := ⟨0x24, 0x0F4⟩
def NAV_COUNT_CTL_CLR_ALL : FldId := ⟨0x24, 0x0F4, 0, 1⟩
def QMAP_REGION_SEL : RegId := ⟨0x25, 0x040⟩
def QMAP_REGION_SEL_NAV : FldId := ⟨0x25, 0x040, 0, 4⟩
def QMAP_REGION_SEL_REGION : FldId := ⟨0x25, 0x040, 4, 4⟩
def QMAP_REGION_SEL_ALL : FldId := ⟨0x25, 0x040, 8, 1⟩
def QMAP_REGION_BASE : RegId := ⟨0x25, 0x044⟩
def QMAP_REGION_BASE_BASE : FldId := ⟨0x25, 0x044, 6, 26⟩
def QMAP_REGION_LIMIT : RegId := ⟨0x25, 0x048⟩
def QMAP_REGION_LIMIT_LIMIT : FldId := ⟨0x25, 0x048, 6, 26⟩
def QMAP_REGION_CFG : RegId := ⟨0x25, 0x04C⟩
def QMAP_REGION_CFG_MR : FldId := ⟨0x25, 0x04C, 0, 1⟩
def QMAP_REGION_CFG_MW : FldId := ⟨0x25, 0x04C, 1, 1⟩
def QMAP_REGION_CFG_MX : FldId := ⟨0x25, 0x04C, 2, 1⟩
def QMAP_REGION_CFG_UR : FldId := ⟨0x25, 0x04C, 3, 1⟩
def QMAP_REGION_CFG_UW : FldId := ⟨0x25, 0x04C, 4, 1⟩
def QMAP_REGION_CFG_UX : FldId := ⟨0x25, 0x04C, 5, 1⟩
def QMAP_REGION_CFG_EN : FldId := ⟨0x25, 0x04C, 6, 1⟩
def QMAP_REGION_CFG_LOCKED : FldId := ⟨0x25, 0x04C, 7, 1⟩
def QMAP_FENCE : RegId := ⟨0x25, 0x050⟩
def QMAP_FENCE_WAITED : FldId := ⟨0x25, 0x050, 0, 16⟩
def QMAP_FAULTS : RegId := ⟨0x25, 0x054⟩
def QMAP_OVERLAP : RegId := ⟨0x25, 0x058⟩
def QMAP_DBG_LOCK_HIT : RegId := ⟨0x25, 0x05C⟩
def QMAP_LAST_FAULT_ADDR : RegId := ⟨0x25, 0x060⟩
def QMAP_LAST_FAULT_ADDR_ADDR : FldId := ⟨0x25, 0x060, 0, 32⟩
def QMAP_LAST_FAULT_INFO : RegId := ⟨0x25, 0x064⟩
def QMAP_LAST_FAULT_INFO_NAV : FldId := ⟨0x25, 0x064, 0, 4⟩
def QMAP_LAST_FAULT_INFO_KIND : FldId := ⟨0x25, 0x064, 4, 3⟩
def QMAP_LAST_FAULT_INFO_UMODE : FldId := ⟨0x25, 0x064, 7, 1⟩
def QMAP_LAST_FAULT_INFO_OVERLAP : FldId := ⟨0x25, 0x064, 8, 1⟩
def QMAP_LAST_FAULT_INFO_LOCKED : FldId := ⟨0x25, 0x064, 9, 1⟩
def QMAP_CFG_REJECT : RegId := ⟨0x25, 0x068⟩
def QMAP_COUNT_CTL : RegId := ⟨0x25, 0x06C⟩
def QMAP_COUNT_CTL_CLR_ALL : FldId := ⟨0x25, 0x06C, 0, 1⟩
def QMAP_REGION_BASE_EXT : RegId := ⟨0x25, 0x070⟩
def QMAP_REGION_BASE_EXT_BASE_EXT : FldId := ⟨0x25, 0x070, 0, 8⟩
def QMAP_REGION_LIMIT_EXT : RegId := ⟨0x25, 0x074⟩
def QMAP_REGION_LIMIT_EXT_LIMIT_EXT : FldId := ⟨0x25, 0x074, 0, 8⟩
def QMAP_LAST_FAULT_ADDR_EXT : RegId := ⟨0x25, 0x078⟩
def QMAP_LAST_FAULT_ADDR_EXT_ADDR_EXT : FldId := ⟨0x25, 0x078, 0, 8⟩
def SER_CTL : RegId := ⟨0x28, 0x040⟩
def SER_CTL_TX_EN : FldId := ⟨0x28, 0x040, 0, 1⟩
def SER_CTL_RX_EN : FldId := ⟨0x28, 0x040, 1, 1⟩
def SER_CTL_IDLE : FldId := ⟨0x28, 0x040, 2, 1⟩
def SER_CTL_POL_TX : FldId := ⟨0x28, 0x040, 3, 1⟩
def SER_CTL_POL_RX : FldId := ⟨0x28, 0x040, 4, 1⟩
def SER_CTL_STEP_EN : FldId := ⟨0x28, 0x040, 5, 1⟩
def SER_CTL_LOOP : FldId := ⟨0x28, 0x040, 6, 1⟩
def SER_CTL_ADAPT_EN : FldId := ⟨0x28, 0x040, 7, 1⟩
def SER_STS : RegId := ⟨0x28, 0x044⟩
def SER_STS_SIGNAL : FldId := ⟨0x28, 0x044, 0, 1⟩
def SER_STS_CDR_LOCK : FldId := ⟨0x28, 0x044, 1, 1⟩
def SER_STS_HIGH_RATE : FldId := ⟨0x28, 0x044, 2, 1⟩
def SER_STS_STATE : FldId := ⟨0x28, 0x044, 3, 3⟩
def SER_STS_MARKER_LOCK : FldId := ⟨0x28, 0x044, 6, 1⟩
def SER_STS_PRBS_LOCK : FldId := ⟨0x28, 0x044, 7, 1⟩
def SER_TX_EQ : RegId := ⟨0x28, 0x048⟩
def SER_TX_EQ_PRE_2 : FldId := ⟨0x28, 0x048, 0, 6⟩
def SER_TX_EQ_PRE_1 : FldId := ⟨0x28, 0x048, 6, 6⟩
def SER_TX_EQ_MAIN : FldId := ⟨0x28, 0x048, 12, 8⟩
def SER_TX_EQ_POST_1 : FldId := ⟨0x28, 0x048, 20, 6⟩
def SER_LINK_CFG : RegId := ⟨0x28, 0x04C⟩
def SER_LINK_CFG_STEP_TIMEOUT : FldId := ⟨0x28, 0x04C, 0, 8⟩
def SER_LINK_CFG_IDLE_KEEP : FldId := ⟨0x28, 0x04C, 8, 16⟩
def SER_ADAPT_LIM : RegId := ⟨0x28, 0x050⟩
def SER_ADAPT_LIM_CTLE_LIM : FldId := ⟨0x28, 0x050, 0, 8⟩
def SER_ADAPT_LIM_VGA_LIM : FldId := ⟨0x28, 0x050, 8, 8⟩
def SER_ADAPT_LIM_TAP_LIM : FldId := ⟨0x28, 0x050, 16, 8⟩
def SER_ADAPT_CMD : RegId := ⟨0x28, 0x054⟩
def SER_ADAPT_CMD_INDEX : FldId := ⟨0x28, 0x054, 0, 3⟩
def SER_ADAPT_CMD_OP : FldId := ⟨0x28, 0x054, 4, 3⟩
def SER_ADAPT_CMD_STATUS : FldId := ⟨0x28, 0x054, 24, 4⟩
def SER_ADAPT_CMD_BUSY : FldId := ⟨0x28, 0x054, 31, 1⟩
def SER_ADAPT_DATA : RegId := ⟨0x28, 0x058⟩
def SER_ADAPT_DATA_SEED : FldId := ⟨0x28, 0x058, 0, 8⟩
def SER_ADAPT_DATA_CURRENT : FldId := ⟨0x28, 0x058, 8, 8⟩
def SER_DRIFT : RegId := ⟨0x28, 0x05C⟩
def SER_DRIFT_DRIFT : FldId := ⟨0x28, 0x05C, 0, 8⟩
def SER_PRBS_CTL : RegId := ⟨0x28, 0x060⟩
def SER_PRBS_CTL_POLY : FldId := ⟨0x28, 0x060, 0, 3⟩
def SER_PRBS_CTL_GEN_EN : FldId := ⟨0x28, 0x060, 3, 1⟩
def SER_PRBS_CTL_CHK_EN : FldId := ⟨0x28, 0x060, 4, 1⟩
def SER_PRBS_CTL_INJ_ONE : FldId := ⟨0x28, 0x060, 5, 1⟩
def SER_PRBS_CTL_INJ_EXP : FldId := ⟨0x28, 0x060, 6, 5⟩
def SER_DESKEW : RegId := ⟨0x28, 0x064⟩
def SER_DESKEW_SKEW : FldId := ⟨0x28, 0x064, 0, 11⟩
def SER_PRBS_ERR_LO : RegId := ⟨0x28, 0x068⟩
def SER_PRBS_ERR_HI : RegId := ⟨0x28, 0x06C⟩
def SER_PRBS_BITS_LO : RegId := ⟨0x28, 0x070⟩
def SER_PRBS_BITS_HI : RegId := ⟨0x28, 0x074⟩
def SER_FEC_CORR_CW_LO : RegId := ⟨0x28, 0x078⟩
def SER_FEC_CORR_CW_HI : RegId := ⟨0x28, 0x07C⟩
def SER_FEC_UNCORR_CW : RegId := ⟨0x28, 0x080⟩
def SER_LOCK_LOSS : RegId := ⟨0x28, 0x084⟩
def SER_STEP_FAIL : RegId := ⟨0x28, 0x088⟩
def SER_DRIFT_EVENTS : RegId := ⟨0x28, 0x08C⟩
def SER_IDLE_EXITS : RegId := ⟨0x28, 0x090⟩
def SER_CFG_REJECT : RegId := ⟨0x28, 0x094⟩
def SER_COUNT_CTL : RegId := ⟨0x28, 0x098⟩
def SER_COUNT_CTL_CLR_ALL : FldId := ⟨0x28, 0x098, 0, 1⟩
/-- Common header (R407). -/
def BLOCK_ID (ty : Nat) : RegId := ⟨ty, 0x000⟩
/-- Common header (R407). -/
def BLOCK_VER (ty : Nat) : RegId := ⟨ty, 0x004⟩
/-- Common header (R407). -/
def CAP (ty : Nat) : RegId := ⟨ty, 0x008⟩
/-- Common header (R407). -/
def CTL (ty : Nat) : RegId := ⟨ty, 0x00C⟩
/-- Common header (R407). -/
def STS (ty : Nat) : RegId := ⟨ty, 0x010⟩
/-- Common header (R407). -/
def INT_STS (ty : Nat) : RegId := ⟨ty, 0x014⟩
/-- Common header (R407). -/
def INT_EN (ty : Nat) : RegId := ⟨ty, 0x018⟩
/-- Common header (R407). -/
def INT_SET (ty : Nat) : RegId := ⟨ty, 0x01C⟩
/-- Common header (R407). -/
def ERR_FIRST (ty : Nat) : RegId := ⟨ty, 0x020⟩
/-- Common header (R407). -/
def ERR_CAPTURE_LO (ty : Nat) : RegId := ⟨ty, 0x024⟩
/-- Common header (R407). -/
def ERR_CAPTURE_HI (ty : Nat) : RegId := ⟨ty, 0x028⟩
/-- Common header (R407). -/
def ERR_OVF (ty : Nat) : RegId := ⟨ty, 0x02C⟩
/-- Common header (R407). -/
def ERR_FORCE (ty : Nat) : RegId := ⟨ty, 0x030⟩
/-- Common header (R407). -/
def ERR_INV_CHECK (ty : Nat) : RegId := ⟨ty, 0x034⟩
/-- Common header (R407). -/
def ERR_COUNT (ty : Nat) : RegId := ⟨ty, 0x038⟩
/-- Common header (R407). -/
def ERR_CLASS_CFG (ty : Nat) : RegId := ⟨ty, 0x03C⟩
/-- Tick-stage register (R31). -/
def TICK_DEADLINE (ty : Nat) : RegId := ⟨ty, 0x040⟩
/-- Tick-stage register (R31). -/
def TICK_DONE_LAST (ty : Nat) : RegId := ⟨ty, 0x044⟩
/-- Tick-stage register (R31). -/
def TICK_DONE_MAX (ty : Nat) : RegId := ⟨ty, 0x048⟩
/-- Tick-stage register (R31). -/
def OVERRUN_COUNT (ty : Nat) : RegId := ⟨ty, 0x04C⟩
/-- Tick-stage register (R31). -/
def OVERRUN_TICK_LO (ty : Nat) : RegId := ⟨ty, 0x050⟩
/-- Tick-stage register (R31). -/
def OVERRUN_TICK_HI (ty : Nat) : RegId := ⟨ty, 0x054⟩
/-- Tick-stage register (R31). -/
def TICK_STAGE_CTL (ty : Nat) : RegId := ⟨ty, 0x058⟩
end Reg

/-! ## The map: common header, tick-stage registers, and each page -/

/-- Registers of the COMMON page, part 0. -/
def regsCOMMON0 : List RegSpec := [
  ⟨0x000, 1, 4, [fs 0 16 .ro 0, fs 16 16 .ro 0]⟩,
  ⟨0x004, 1, 4, [fs 0 8 .ro 0, fs 8 8 .ro 1]⟩,
  ⟨0x008, 1, 4, [fs 0 1 .ro 0]⟩,
  ⟨0x00C, 1, 4, [fs 0 1 .rw 1, fs 1 1 .rw 0]⟩,
  ⟨0x010, 1, 4, []⟩,
  ⟨0x014, 1, 4, [fs 0 32 .w1c 0]⟩,
  ⟨0x018, 1, 4, [fs 0 32 .rw 0]⟩,
  ⟨0x01C, 1, 4, [fs 0 32 .w1s 0]⟩,
  ⟨0x020, 1, 4, [fs 0 8 .ro 0, fs 8 2 .ro 0, fs 10 1 .ro 0, fs 11 1 .ro 0, fs 12 1 .ro 0, fs 15 1 .ro 0, fs 16 16 .ro 0]⟩,
  ⟨0x024, 1, 4, [fs 0 32 .ro 0]⟩,
  ⟨0x028, 1, 4, [fs 0 32 .ro 0]⟩,
  ⟨0x02C, 1, 4, [fs 0 1 .w1c 0, fs 1 1 .w1c 0, fs 31 1 .w1c 0]⟩,
  ⟨0x030, 1, 4, [fs 1 31 .w1s 0]⟩,
  ⟨0x034, 1, 4, [fs 0 32 .rw 0]⟩,
  ⟨0x038, 1, 4, [fs 0 32 .ro 0]⟩,
  ⟨0x03C, 1, 4, [fs 0 8 .rw 16, fc 8 16 8000 1 65535, fs 24 1 .rw 1, fs 25 1 .rw 1]⟩]
/-- The block registers of the COMMON page. -/
def regsCOMMON : List RegSpec := regsCOMMON0

/-- Registers of the TICK page, part 0: a deadline of 0 is stored as 1, one above the page's highest as that. -/
def regsTICK0 (top : Nat) : List RegSpec := [
  ⟨0x040, 1, 4, [fc 0 18 0 1 top]⟩,
  ⟨0x044, 1, 4, [fs 0 18 .ro 0, fs 31 1 .ro 0]⟩,
  ⟨0x048, 1, 4, [fs 0 18 .ro 0]⟩,
  ⟨0x04C, 1, 4, [fs 0 32 .ro 0]⟩,
  ⟨0x050, 1, 4, [fs 0 32 .ro 0]⟩,
  ⟨0x054, 1, 4, [fs 0 16 .ro 0]⟩,
  ⟨0x058, 1, 4, [fs 0 1 .wo 0]⟩]
/-- The block registers of the TICK page. -/
def regsTICK : List RegSpec := regsTICK0 156200

/-- Registers of the TOP page, part 0. -/
def regsTOP0 : List RegSpec := [
  ⟨0x040, 1, 4, [fs 16 16 .ro 0, fs 8 8 .ro 0]⟩,
  ⟨0x044, 1, 4, [fs 0 8 .ro 0, fs 8 8 .ro 0, fs 16 10 .ro 0, fs 26 2 .ro 0, fs 28 1 .ro 0, fs 29 1 .ro 1]⟩]
/-- The block registers of the TOP page. -/
def regsTOP : List RegSpec := regsTOP0

/-- Registers of the BIN page, part 0. -/
def regsBIN0 : List RegSpec := [
  ⟨0x040, 1, 4, [fs 0 1 .rw 1, fs 1 1 .rw 1]⟩,
  ⟨0x044, 1, 4, [fs 0 1 .ro 0, fs 1 1 .ro 0, fs 2 1 .ro 0]⟩,
  ⟨0x048, 1, 4, [fs 0 32 .w1c 0]⟩,
  ⟨0x04C, 1, 4, [fs 0 32 .w1c 0]⟩,
  ⟨0x050, 1, 4, [fs 0 32 .w1c 0]⟩,
  ⟨0x054, 1, 4, [fs 0 32 .w1c 0]⟩,
  ⟨0x058, 1, 4, [fs 0 8 .ro 0, fs 8 2 .ro 0, fs 10 1 .ro 0, fs 11 1 .ro 0, fs 15 1 .ro 0, fs 16 8 .ro 0, fs 24 8 .ro 0]⟩,
  ⟨0x05C, 1, 4, [fs 0 32 .ro 0]⟩,
  ⟨0x060, 1, 4, [fs 0 16 .ro 0]⟩,
  ⟨0x064, 1, 4, [fs 0 1 .wo 0]⟩,
  ⟨0x068, 1, 4, [fs 0 8 .ro 0, fs 8 2 .ro 0, fs 10 1 .ro 0, fs 11 1 .ro 0, fs 15 1 .ro 0, fs 16 8 .ro 0, fs 24 8 .ro 0]⟩,
  ⟨0x06C, 1, 4, [fs 0 32 .ro 0]⟩,
  ⟨0x070, 1, 4, [fs 0 16 .ro 0]⟩,
  ⟨0x074, 1, 4, [fs 0 32 .ro 0]⟩,
  ⟨0x078, 1, 4, [fs 0 32 .ro 0]⟩,
  ⟨0x07C, 1, 4, [fs 0 32 .ro 0]⟩,
  ⟨0x080, 1, 4, [fs 0 32 .ro 0]⟩,
  ⟨0x084, 1, 4, [fs 0 32 .ro 0]⟩,
  ⟨0x088, 1, 4, [fs 0 32 .ro 0]⟩,
  ⟨0x08C, 1, 4, [fs 0 32 .ro 0]⟩]
/-- Registers of the BIN page, part 1. -/
def regsBIN1 : List RegSpec := [
  ⟨0x090, 1, 4, [fs 0 1 .wo 0]⟩]
/-- The block registers of the BIN page. -/
def regsBIN : List RegSpec := regsBIN0 ++ regsBIN1

/-- Registers of the HIF page, part 0. -/
def regsHIF0 : List RegSpec := [
  ⟨0x040, 1, 4, [fs 0 1 .wo 0]⟩,
  ⟨0x044, 1, 4, [fs 0 5 .ro 0, fs 5 3 .ro 0, fs 8 1 .ro 1, fs 9 3 .ro 1]⟩,
  ⟨0x048, 1, 4, [fs 0 4 .rw 0]⟩,
  ⟨0x04C, 1, 4, [fs 12 20 .rw 0]⟩,
  ⟨0x050, 1, 4, [fs 0 32 .rw 0]⟩,
  ⟨0x054, 1, 4, [fc 0 21 1 1 1048576]⟩,
  ⟨0x058, 1, 4, [fs 0 1 .rw 0, fs 1 1 .rw 0, fs 2 1 .rw 0]⟩,
  ⟨0x05C, 1, 4, [fs 0 16 .ro 0]⟩,
  ⟨0x060, 1, 4, [fc 0 8 0 0 143]⟩,
  ⟨0x064, 1, 4, [fs 6 26 .rw 0]⟩,
  ⟨0x068, 1, 4, [fs 0 32 .rw 0]⟩,
  ⟨0x06C, 1, 4, [fs 0 4 .rw 0, fc 4 5 8 4 16, fs 9 3 .rw 0, fs 12 8 .rw 0]⟩,
  ⟨0x070, 1, 4, [fc 0 8 1 1 255, fs 8 10 .rw 0]⟩,
  ⟨0x074, 1, 4, [fs 0 1 .rw 0]⟩,
  ⟨0x078, 1, 4, [fs 0 16 .ro 0, fs 16 15 .ro 0, fs 31 1 .ro 0]⟩,
  ⟨0x07C, 1, 4, [fs 0 32 .ro 0]⟩,
  ⟨0x080, 1, 4, [fs 0 8 .rw 0, fs 8 8 .rw 0]⟩,
  ⟨0x084, 1, 4, [fs 0 8 .rw 255, fs 8 1 .rw 1]⟩,
  ⟨0x088, 1, 4, [fs 0 32 .ro 0]⟩,
  ⟨0x08C, 1, 4, [fs 0 32 .ro 0]⟩]
/-- Registers of the HIF page, part 1. -/
def regsHIF1 : List RegSpec := [
  ⟨0x090, 1, 4, [fs 0 8 .wo 0]⟩,
  ⟨0x0A0, 1, 4, [fs 0 32 .ro 0]⟩,
  ⟨0x0A4, 1, 4, [fs 0 32 .ro 0]⟩,
  ⟨0x0A8, 1, 4, [fs 0 32 .ro 0]⟩,
  ⟨0x0AC, 1, 4, [fs 0 32 .ro 0]⟩,
  ⟨0x0B0, 1, 4, [fs 0 32 .ro 0]⟩,
  ⟨0x0B4, 1, 4, [fs 0 32 .ro 0]⟩,
  ⟨0x0B8, 1, 4, [fs 0 32 .ro 0]⟩,
  ⟨0x0BC, 1, 4, [fs 0 32 .ro 0]⟩,
  ⟨0x0C0, 1, 4, [fs 0 32 .ro 0]⟩,
  ⟨0x0C4, 1, 4, [fs 0 32 .ro 0]⟩,
  ⟨0x0C8, 1, 4, [fs 0 1 .wo 0]⟩,
  ⟨0x800, 144, 4, [fs 0 16 .wo 0]⟩]
/-- The block registers of the HIF page. -/
def regsHIF : List RegSpec := regsHIF0 ++ regsHIF1

/-- Registers of the PMC page, part 0. -/
def regsPMC0 : List RegSpec := [
  ⟨0x060, 1, 4, [fs 0 1 .rw 0, fc 16 16 8000 8 65535]⟩,
  ⟨0x064, 1, 4, [fs 0 4 .rw 0, fc 8 8 2 2 255]⟩,
  ⟨0x068, 1, 4, [fs 0 32 .rw 0]⟩,
  ⟨0x06C, 1, 4, [fs 0 32 .rw 0]⟩,
  ⟨0x070, 1, 4, [fs 0 24 .ro 0]⟩,
  ⟨0x074, 1, 4, [fs 0 8 .ro 0]⟩,
  ⟨0x078, 1, 4, [fs 0 4 .rw 0, fc 4 5 8 8 20, fs 9 1 .rw 0]⟩,
  ⟨0x07C, 1, 4, [fs 0 32 .rw 0]⟩,
  ⟨0x080, 1, 4, [fs 0 32 .rw 0]⟩,
  ⟨0x084, 1, 4, [fs 0 21 .ro 0]⟩,
  ⟨0x088, 1, 4, [fs 0 21 .rw 0]⟩,
  ⟨0x08C, 1, 4, [fs 0 32 .ro 0]⟩,
  ⟨0x090, 1, 4, [fs 0 32 .ro 0]⟩,
  ⟨0x094, 1, 4, [fs 0 32 .ro 0]⟩,
  ⟨0x098, 1, 4, [fs 0 32 .ro 0]⟩,
  ⟨0x09C, 1, 4, [fs 0 1 .wo 0]⟩]
/-- The block registers of the PMC page. -/
def regsPMC : List RegSpec := regsPMC0

/-- Registers of the CRC page, part 0. -/
def regsCRC0 : List RegSpec := [
  ⟨0x040, 1, 4, [fs 0 2 .rw 1, fs 8 1 .wo 0]⟩,
  ⟨0x044, 1, 4, [fs 0 32 .rw 4294967295]⟩,
  ⟨0x048, 1, 4, [fs 0 32 .rw 0]⟩,
  ⟨0x04C, 1, 4, [fs 0 32 .rw 4294967295]⟩,
  ⟨0x050, 1, 4, [fs 0 32 .rw 0]⟩,
  ⟨0x054, 1, 4, [fs 0 8 .wo 0]⟩,
  ⟨0x058, 1, 4, [fs 0 16 .wo 0]⟩,
  ⟨0x05C, 1, 4, [fs 0 32 .wo 0]⟩,
  ⟨0x060, 4, 4, [fs 0 32 .wo 0]⟩,
  ⟨0x070, 1, 4, [fs 0 32 .ro 0]⟩,
  ⟨0x074, 1, 4, [fs 0 32 .ro 0]⟩,
  ⟨0x078, 1, 4, [fs 0 32 .rw 0]⟩,
  ⟨0x07C, 1, 4, [fs 0 32 .rw 0]⟩,
  ⟨0x080, 1, 4, [fs 0 1 .wo 0]⟩,
  ⟨0x084, 1, 4, [fs 0 1 .ro 0, fs 1 1 .ro 0, fs 2 1 .ro 0]⟩,
  ⟨0x088, 1, 4, [fs 0 32 .ro 0]⟩,
  ⟨0x08C, 1, 4, [fs 0 32 .ro 0]⟩,
  ⟨0x090, 1, 4, [fs 0 32 .ro 0]⟩,
  ⟨0x094, 1, 4, [fs 0 1 .wo 0]⟩]
/-- The block registers of the CRC page. -/
def regsCRC : List RegSpec := regsCRC0

/-- Registers of the AST page, part 0. -/
def regsAST0 : List RegSpec := [
  ⟨0x040, 1, 4, [fs 0 1 .ro 1, fs 1 1 .ro 0, fs 2 1 .ro 0, fs 3 1 .ro 0]⟩,
  ⟨0x044, 1, 4, [fs 0 1 .wo 0]⟩,
  ⟨0x048, 1, 4, [fs 0 32 .ro 0]⟩,
  ⟨0x04C, 1, 4, [fs 0 16 .ro 0]⟩,
  ⟨0x050, 1, 4, [fs 0 32 .rw 0]⟩,
  ⟨0x054, 1, 4, [fs 0 16 .rw 0]⟩,
  ⟨0x058, 1, 4, [fs 0 32 .ro 0]⟩,
  ⟨0x05C, 1, 4, [fs 0 16 .ro 0]⟩,
  ⟨0x060, 1, 4, [fs 0 32 .ro 0]⟩,
  ⟨0x064, 1, 4, [fs 0 1 .rw 1, fs 1 1 .rw 0, fs 31 1 .wo 0]⟩,
  ⟨0x068, 1, 4, [fs 0 32 .ro 0]⟩,
  ⟨0x06C, 1, 4, [fs 0 1 .rw 0, fs 1 1 .rw 0, fs 2 1 .rw 0, fm 3 2 2 3 3 2, fc 16 16 8000 1 65535]⟩,
  ⟨0x070, 1, 4, [fs 0 1 .rw 0, fs 1 1 .rw 0, fs 2 1 .rw 0, fs 3 1 .rw 0, fc 4 20 100000 1 999999]⟩,
  ⟨0x074, 1, 4, [fs 0 16 .rw 0, fs 16 16 .rw 0]⟩,
  ⟨0x078, 1, 4, [fs 0 6 .rw 63, fs 6 1 .rw 0, fs 7 1 .rw 1, fs 8 1 .ro 0, fc 16 16 2125 16 65535]⟩,
  ⟨0x07C, 1, 4, [fs 0 6 .rw 63, fs 6 1 .rw 0, fs 7 1 .rw 1, fs 8 1 .ro 0, fc 16 16 2125 16 65535]⟩,
  ⟨0x080, 2, 64, [fs 0 1 .rw 0, fs 1 1 .rw 0, fs 2 1 .rw 0, fs 3 1 .rw 0, fs 16 16 .rw 65535]⟩,
  ⟨0x084, 2, 64, [fs 0 16 .rw 16000, fs 16 16 .rw 100]⟩,
  ⟨0x088, 2, 64, [fs 0 1 .ro 0, fs 16 16 .ro 65535]⟩,
  ⟨0x08C, 2, 64, [fs 0 32 .rw 3435973837]⟩]
/-- Registers of the AST page, part 1. -/
def regsAST1 : List RegSpec := [
  ⟨0x090, 2, 64, [fs 0 8 .rw 0]⟩,
  ⟨0x094, 2, 64, [fs 0 32 .rw 0]⟩,
  ⟨0x098, 2, 64, [fs 0 16 .rw 0]⟩,
  ⟨0x09C, 2, 64, [fs 0 30 .rw 0]⟩,
  ⟨0x0A0, 2, 64, [fs 0 16 .rw 0, fs 16 2 .rw 0, fs 30 1 .ro 0, fs 31 1 .wo 0]⟩,
  ⟨0x0A4, 2, 64, [fs 0 1 .wo 0]⟩,
  ⟨0x100, 3, 12, [fs 0 32 .ro 0]⟩,
  ⟨0x104, 3, 12, [fs 0 16 .ro 0, fs 16 16 .ro 0]⟩,
  ⟨0x108, 3, 12, [fs 0 30 .ro 0]⟩,
  ⟨0x124, 1, 4, [fs 0 32 .ro 0]⟩,
  ⟨0x128, 1, 4, [fs 0 16 .ro 0]⟩,
  ⟨0x12C, 1, 4, [fs 0 18 .ro 0]⟩,
  ⟨0x140, 4, 16, [fs 0 32 .rw 0]⟩,
  ⟨0x144, 4, 16, [fs 0 16 .rw 0]⟩,
  ⟨0x148, 4, 16, [fs 0 30 .rw 0]⟩,
  ⟨0x14C, 4, 16, [fs 0 1 .rw 0, fs 1 1 .rw 0, fs 2 1 .rw 0, fs 3 1 .rw 0, fs 8 24 .rw 0]⟩,
  ⟨0x180, 2, 12, [fs 0 32 .ro 0]⟩,
  ⟨0x184, 2, 12, [fs 0 16 .ro 0, fs 16 16 .ro 0]⟩,
  ⟨0x188, 2, 12, [fs 0 30 .ro 0]⟩,
  ⟨0x1A0, 1, 4, [fs 0 32 .ro 0]⟩]
/-- Registers of the AST page, part 2. -/
def regsAST2 : List RegSpec := [
  ⟨0x1A4, 1, 4, [fs 0 32 .ro 0]⟩,
  ⟨0x1A8, 1, 4, [fs 0 32 .ro 0]⟩,
  ⟨0x1AC, 1, 4, [fs 0 32 .ro 0]⟩,
  ⟨0x1B0, 1, 4, [fs 0 32 .ro 0]⟩,
  ⟨0x1B4, 1, 4, [fs 0 32 .ro 0]⟩,
  ⟨0x1B8, 1, 4, [fs 0 32 .ro 0]⟩,
  ⟨0x1BC, 1, 4, [fs 0 32 .ro 0]⟩,
  ⟨0x1C0, 1, 4, [fs 0 32 .ro 0]⟩,
  ⟨0x1C4, 1, 4, [fs 0 32 .ro 0]⟩,
  ⟨0x1C8, 1, 4, [fs 0 32 .ro 0]⟩,
  ⟨0x1CC, 1, 4, [fs 0 32 .ro 0]⟩,
  ⟨0x1D0, 1, 4, [fs 0 32 .ro 0]⟩,
  ⟨0x1D4, 1, 4, [fs 0 32 .ro 0]⟩,
  ⟨0x1D8, 1, 4, [fs 0 32 .ro 0]⟩,
  ⟨0x1DC, 1, 4, [fs 0 1 .wo 0]⟩,
  ⟨0x200, 32, 4, [fs 0 16 .rw 0, fs 16 16 .rw 0]⟩]
/-- The block registers of the AST page. -/
def regsAST : List RegSpec := regsAST0 ++ regsAST1 ++ regsAST2

/-- Registers of the ALM page, part 0. -/
def regsALM0 : List RegSpec := [
  ⟨0x060, 1, 4, [fs 0 1 .rw 1]⟩,
  ⟨0x064, 1, 4, [fs 0 1 .ro 0, fs 1 4 .ro 0, fs 5 1 .ro 1]⟩,
  ⟨0x068, 1, 4, [fs 0 18 .rw 0, fs 18 1 .rw 0, fs 19 1 .rw 1, fs 20 4 .rw 0, fs 24 4 .ro 0, fs 31 1 .ro 0]⟩,
  ⟨0x06C, 8, 4, [fs 0 32 .rw 0]⟩,
  ⟨0x08C, 1, 4, [fc 0 6 36 20 40]⟩,
  ⟨0x090, 1, 4, [fc 0 13 3072 0 4032]⟩,
  ⟨0x094, 1, 4, [fs 0 6 .rw 0, fs 8 1 .rw 0]⟩,
  ⟨0x098, 1, 4, [fs 0 5 .rw 0]⟩,
  ⟨0x0B0, 4, 4, [fs 0 13 .ro 0, fs 13 13 .ro 0]⟩,
  ⟨0x0C0, 1, 4, [fs 0 32 .ro 0]⟩,
  ⟨0x0C4, 1, 4, [fs 0 32 .ro 0]⟩,
  ⟨0x0C8, 1, 4, [fs 0 32 .ro 0]⟩,
  ⟨0x0CC, 1, 4, [fs 0 32 .ro 0]⟩,
  ⟨0x0D0, 1, 4, [fs 0 32 .ro 0]⟩,
  ⟨0x0D4, 1, 4, [fs 0 32 .ro 0]⟩,
  ⟨0x0D8, 1, 4, [fs 0 32 .ro 0]⟩,
  ⟨0x0DC, 1, 4, [fs 0 32 .ro 0]⟩,
  ⟨0x0E0, 1, 4, [fs 0 32 .ro 0]⟩,
  ⟨0x0E4, 1, 4, [fs 0 32 .ro 0]⟩,
  ⟨0x0E8, 1, 4, [fs 0 32 .ro 0]⟩]
/-- Registers of the ALM page, part 1. -/
def regsALM1 : List RegSpec := [
  ⟨0x0EC, 1, 4, [fs 0 32 .ro 0]⟩,
  ⟨0x0F0, 1, 4, [fs 0 32 .ro 0]⟩,
  ⟨0x0F4, 1, 4, [fs 0 32 .ro 0]⟩,
  ⟨0x0F8, 1, 4, [fs 0 32 .ro 0]⟩,
  ⟨0x0FC, 1, 4, [fs 0 1 .wo 0]⟩,
  ⟨0x09C, 1, 4, [fs 0 18 .rw 0]⟩,
  ⟨0x0A0, 1, 4, [fs 0 18 .rw 0]⟩,
  ⟨0x0A4, 1, 4, [fs 0 13 .rw 0, fs 14 14 .rw 0]⟩]
/-- The block registers of the ALM page. -/
def regsALM : List RegSpec := regsALM0 ++ regsALM1

/-- Registers of the PKA page, part 0. -/
def regsPKA0 : List RegSpec := [
  ⟨0x040, 1, 4, [fs 0 1 .rw 0, fs 1 1 .rw 1, fs 2 1 .rw 1]⟩,
  ⟨0x044, 1, 4, [fc 0 11 256 1 1024, fc 16 6 16 1 32]⟩,
  ⟨0x048, 1, 4, [fc 0 8 24 8 255, fs 8 3 .rw 2]⟩,
  ⟨0x04C, 1, 4, [fc 0 16 8000 800 65535]⟩,
  ⟨0x050, 1, 4, [fc 0 13 32 16 4096, fc 16 7 16 1 64]⟩,
  ⟨0x054, 1, 4, [fc 0 32 16777216 65536 4294967295]⟩,
  ⟨0x058, 1, 4, [fc 0 32 691200000 1048576 4294967295]⟩,
  ⟨0x05C, 1, 4, [fc 0 25 80000 800 16777216]⟩,
  ⟨0x060, 1, 4, [fs 0 16 .rw 37, fs 16 16 .rw 8000]⟩,
  ⟨0x064, 1, 4, [fs 0 3 .rw 0, fs 4 4 .rw 0, fs 24 4 .ro 0, fs 31 1 .ro 0]⟩,
  ⟨0x068, 1, 4, [fs 0 32 .rw 0]⟩,
  ⟨0x06C, 1, 4, [fs 0 32 .rw 0]⟩,
  ⟨0x070, 1, 4, [fs 0 18 .rw 0]⟩,
  ⟨0x074, 1, 4, [fs 0 5 .ro 0, fs 5 13 .ro 0, fs 18 12 .ro 0]⟩,
  ⟨0x078, 1, 4, [fs 0 11 .ro 0, fs 11 1 .ro 0]⟩,
  ⟨0x07C, 1, 4, [fs 0 6 .rw 0, fs 8 1 .rw 0]⟩,
  ⟨0x080, 1, 4, [fs 0 32 .ro 0]⟩,
  ⟨0x084, 1, 4, [fs 0 32 .ro 0]⟩,
  ⟨0x088, 1, 4, [fs 0 32 .ro 0]⟩,
  ⟨0x08C, 1, 4, [fs 0 32 .ro 0]⟩]
/-- Registers of the PKA page, part 1. -/
def regsPKA1 : List RegSpec := [
  ⟨0x090, 1, 4, [fs 0 32 .ro 0]⟩,
  ⟨0x094, 1, 4, [fs 0 32 .ro 0]⟩,
  ⟨0x098, 1, 4, [fs 0 32 .ro 0]⟩,
  ⟨0x09C, 1, 4, [fs 0 32 .ro 0]⟩,
  ⟨0x0A0, 1, 4, [fs 0 32 .ro 0]⟩,
  ⟨0x0A4, 1, 4, [fs 0 32 .ro 0]⟩,
  ⟨0x0A8, 1, 4, [fs 0 32 .ro 0]⟩,
  ⟨0x0AC, 1, 4, [fs 0 32 .ro 0]⟩,
  ⟨0x0B0, 1, 4, [fs 0 32 .ro 0]⟩,
  ⟨0x0B4, 1, 4, [fs 0 32 .ro 0]⟩,
  ⟨0x0B8, 1, 4, [fs 0 1 .wo 0]⟩,
  ⟨0x0C0, 1, 4, [fc 0 18 0 0 262142]⟩,
  ⟨0x0C4, 1, 4, [fs 0 3 .rw 0, fs 24 4 .ro 0, fs 31 1 .ro 0]⟩,
  ⟨0x0C8, 1, 4, [fs 0 9 .rw 0, fs 9 5 .rw 0, fs 16 12 .rw 0, fs 28 1 .rw 0]⟩,
  ⟨0x100, 32, 4, [fc 0 16 32768 1 65535]⟩]
/-- The block registers of the PKA page. -/
def regsPKA : List RegSpec := regsPKA0 ++ regsPKA1

/-- Registers of the LCS page, part 0. -/
def regsLCS0 : List RegSpec := [
  ⟨0x040, 1, 4, [fs 0 3 .ro 0, fs 8 8 .ro 0, fs 16 1 .ro 0, fs 17 1 .ro 0, fs 18 1 .ro 0, fs 19 1 .ro 0, fs 20 1 .ro 0, fs 21 1 .ro 0]⟩,
  ⟨0x044, 1, 4, [fs 0 4 .rw 0, fs 4 3 .rw 0, fs 8 2 .rw 0, fs 12 4 .rw 0, fs 24 4 .ro 0, fs 31 1 .ro 0]⟩,
  ⟨0x048, 1, 4, [fs 0 32 .rw 0]⟩,
  ⟨0x04C, 1, 4, [fs 0 32 .rw 0]⟩,
  ⟨0x050, 1, 4, [fs 0 12 .ro 0]⟩,
  ⟨0x054, 1, 4, [fs 0 4 .ro 0, fs 4 4 .ro 0]⟩,
  ⟨0x058, 1, 4, [fs 0 24 .rw 0, fc 24 8 112 112 127]⟩,
  ⟨0x060, 1, 4, [fs 0 32 .ro 0]⟩,
  ⟨0x064, 1, 4, [fs 0 32 .ro 0]⟩,
  ⟨0x068, 1, 4, [fs 0 32 .ro 0]⟩,
  ⟨0x06C, 1, 4, [fs 0 1 .wo 0]⟩]
/-- The block registers of the LCS page. -/
def regsLCS : List RegSpec := regsLCS0

/-- Registers of the TAMP page, part 0. -/
def regsTAMP0 : List RegSpec := [
  ⟨0x040, 1, 4, [fs 0 1 .rwo 0]⟩,
  ⟨0x044, 1, 4, [fs 0 10 .ro 0, fs 16 1 .ro 0, fs 17 1 .ro 0, fs 18 4 .ro 0, fs 22 1 .ro 0]⟩,
  ⟨0x048, 10, 4, [fs 0 1 .rw 0, fm 1 2 0 3 3 2, fs 3 1 .ro 0, fs 4 8 .rw 0, fs 12 1 .rw 0]⟩,
  ⟨0x070, 1, 4, [fs 0 4 .rw 0, fs 4 3 .rw 0, fs 24 4 .ro 0, fs 31 1 .ro 0]⟩,
  ⟨0x074, 1, 4, [fs 0 10 .ro 0, fs 16 10 .ro 0]⟩,
  ⟨0x078, 1, 4, [fs 0 32 .rw 0]⟩,
  ⟨0x07C, 1, 4, [fs 0 8 .rw 0]⟩,
  ⟨0x080, 1, 4, [fs 0 15 .ro 0]⟩,
  ⟨0x084, 1, 4, [fs 0 16 .rw 0]⟩,
  ⟨0x088, 1, 4, [fs 0 32 .ro 0]⟩,
  ⟨0x08C, 1, 4, [fs 0 32 .ro 0]⟩,
  ⟨0x090, 1, 4, [fs 0 32 .ro 0]⟩,
  ⟨0x094, 1, 4, [fs 0 32 .ro 0]⟩,
  ⟨0x098, 1, 4, [fs 0 1 .wo 0]⟩,
  ⟨0x100, 32, 4, [fs 0 32 .ro 0]⟩]
/-- The block registers of the TAMP page. -/
def regsTAMP : List RegSpec := regsTAMP0

/-- Registers of the DBG page, part 0. -/
def regsDBG0 : List RegSpec := [
  ⟨0x040, 1, 4, [fs 0 2 .ro 0, fs 2 5 .ro 0, fs 7 3 .ro 0, fs 10 1 .ro 0]⟩,
  ⟨0x044, 1, 4, [fs 0 1 .wo 0, fs 1 1 .wo 0]⟩,
  ⟨0x048, 8, 4, [fs 0 32 .ro 0]⟩,
  ⟨0x068, 1, 4, [fs 0 17 .ro 0]⟩,
  ⟨0x06C, 1, 4, [fs 0 32 .wo 0]⟩,
  ⟨0x070, 1, 4, [fs 0 1 .wo 0, fs 4 4 .ro 0, fs 31 1 .ro 0]⟩,
  ⟨0x074, 1, 4, [fs 0 32 .ro 0]⟩,
  ⟨0x078, 1, 4, [fs 0 32 .ro 0]⟩,
  ⟨0x07C, 1, 4, [fs 0 32 .ro 0]⟩,
  ⟨0x080, 1, 4, [fs 0 32 .ro 0]⟩,
  ⟨0x084, 1, 4, [fs 0 1 .wo 0]⟩]
/-- The block registers of the DBG page. -/
def regsDBG : List RegSpec := regsDBG0

/-- Registers of the PAIR page, part 0. -/
def regsPAIR0 : List RegSpec := [
  ⟨0x040, 1, 4, [fs 0 1 .rw 0, fs 1 1 .rw 0, fs 2 1 .rw 0, fs 3 1 .rw 1]⟩,
  ⟨0x044, 1, 4, [fs 0 1 .ro 1, fs 1 1 .ro 0, fs 2 2 .ro 1, fs 4 3 .ro 0, fs 7 1 .ro 0, fs 8 1 .ro 0, fs 9 1 .ro 0, fs 10 3 .ro 0]⟩,
  ⟨0x048, 1, 4, [fs 0 1 .rw 1, fs 4 4 .rw 0, fc 8 8 10 1 255]⟩,
  ⟨0x04C, 1, 4, [fs 0 5 .rw 15, fs 8 2 .rw 3]⟩,
  ⟨0x050, 1, 4, [fc 0 14 1000 100 10000]⟩,
  ⟨0x054, 12, 4, [fs 0 32 .rw 0]⟩,
  ⟨0x084, 1, 4, [fs 0 3 .rw 0, fs 24 4 .ro 0, fs 31 1 .ro 0]⟩,
  ⟨0x088, 1, 4, [fc 0 32 16777216 65536 4294967295]⟩,
  ⟨0x08C, 1, 4, [fs 0 32 .ro 0]⟩,
  ⟨0x090, 1, 4, [fs 0 16 .ro 0]⟩,
  ⟨0x094, 1, 4, [fs 0 14 .ro 0]⟩,
  ⟨0x098, 1, 4, [fs 0 32 .ro 0]⟩,
  ⟨0x09C, 1, 4, [fs 0 32 .ro 0]⟩,
  ⟨0x0A0, 1, 4, [fs 0 32 .ro 0]⟩,
  ⟨0x0A4, 1, 4, [fs 0 32 .ro 0]⟩,
  ⟨0x0A8, 1, 4, [fs 0 32 .ro 0]⟩,
  ⟨0x0AC, 1, 4, [fs 0 32 .ro 0]⟩,
  ⟨0x0B0, 1, 4, [fs 0 32 .ro 0]⟩,
  ⟨0x0B4, 1, 4, [fs 0 32 .ro 0]⟩,
  ⟨0x0B8, 1, 4, [fs 0 32 .ro 0]⟩]
/-- Registers of the PAIR page, part 1. -/
def regsPAIR1 : List RegSpec := [
  ⟨0x0BC, 1, 4, [fs 0 32 .ro 0]⟩,
  ⟨0x0C0, 1, 4, [fs 0 32 .ro 0]⟩,
  ⟨0x0C4, 1, 4, [fs 0 32 .ro 0]⟩,
  ⟨0x0C8, 1, 4, [fs 0 32 .ro 0]⟩,
  ⟨0x0CC, 1, 4, [fs 0 32 .ro 0]⟩,
  ⟨0x0D0, 1, 4, [fs 0 1 .wo 0]⟩]
/-- The block registers of the PAIR page. -/
def regsPAIR : List RegSpec := regsPAIR0 ++ regsPAIR1

/-- Registers of the SEAL page, part 0. -/
def regsSEAL0 : List RegSpec := [
  ⟨0x040, 1, 4, [fs 0 1 .wo 0, fs 1 1 .rw 0, fs 2 1 .rw 0]⟩,
  ⟨0x044, 1, 4, [fs 0 1 .ro 0, fs 1 1 .ro 0, fs 2 1 .ro 0, fs 3 1 .ro 0, fs 4 4 .ro 0, fs 8 4 .ro 0, fs 12 5 .ro 0]⟩,
  ⟨0x048, 1, 4, [fs 0 13 .rw 0, fs 16 13 .rw 0]⟩,
  ⟨0x04C, 4, 4, [fs 0 13 .rw 0, fs 13 13 .rw 0, fs 26 2 .rw 0]⟩,
  ⟨0x05C, 1, 4, [fs 0 23 .ro 0]⟩,
  ⟨0x060, 1, 4, [fs 0 2 .rw 0, fs 4 2 .rw 0, fs 24 4 .ro 0, fs 31 1 .ro 0]⟩,
  ⟨0x064, 1, 4, [fs 0 2 .ro 0, fs 2 3 .ro 0, fs 5 22 .ro 0, fs 31 1 .ro 0]⟩,
  ⟨0x068, 1, 4, [fs 0 32 .ro 0]⟩,
  ⟨0x06C, 1, 4, [fs 0 2 .ro 0]⟩,
  ⟨0x070, 1, 4, [fs 0 32 .ro 0]⟩,
  ⟨0x074, 1, 4, [fs 0 32 .ro 0]⟩,
  ⟨0x078, 1, 4, [fs 0 32 .ro 0]⟩,
  ⟨0x07C, 1, 4, [fs 0 32 .ro 0]⟩,
  ⟨0x080, 1, 4, [fs 0 32 .ro 0]⟩,
  ⟨0x084, 1, 4, [fs 0 32 .ro 0]⟩,
  ⟨0x088, 1, 4, [fs 0 32 .ro 0]⟩,
  ⟨0x08C, 1, 4, [fs 0 32 .ro 0]⟩,
  ⟨0x090, 1, 4, [fs 0 32 .ro 0]⟩,
  ⟨0x094, 1, 4, [fs 0 32 .ro 0]⟩,
  ⟨0x098, 1, 4, [fs 0 32 .ro 0]⟩]
/-- Registers of the SEAL page, part 1. -/
def regsSEAL1 : List RegSpec := [
  ⟨0x09C, 1, 4, [fs 0 32 .ro 0]⟩,
  ⟨0x0A0, 1, 4, [fs 0 32 .ro 0]⟩,
  ⟨0x0A4, 1, 4, [fs 0 32 .ro 0]⟩,
  ⟨0x0A8, 1, 4, [fs 0 1 .wo 0]⟩]
/-- The block registers of the SEAL page. -/
def regsSEAL : List RegSpec := regsSEAL0 ++ regsSEAL1

/-- Registers of the BUF page, part 0. -/
def regsBUF0 : List RegSpec := [
  ⟨0x060, 1, 4, [fs 0 1 .rw 1]⟩,
  ⟨0x064, 1, 4, [fs 0 4 .ro 0, fs 4 1 .ro 0]⟩,
  ⟨0x068, 1, 4, [fc 0 17 16384 0 98304]⟩,
  ⟨0x06C, 1, 4, [fs 0 17 .rw 24576]⟩,
  ⟨0x070, 1, 4, [fs 0 17 .rw 8192]⟩,
  ⟨0x074, 1, 4, [fc 0 8 32 8 255]⟩,
  ⟨0x078, 1, 4, [fs 0 24 .ro 0]⟩,
  ⟨0x07C, 1, 4, [fs 0 24 .ro 0]⟩,
  ⟨0x080, 4, 4, [fs 0 17 .ro 98304]⟩,
  ⟨0x090, 1, 4, [fs 0 32 .ro 0]⟩,
  ⟨0x094, 1, 4, [fs 0 32 .ro 0]⟩,
  ⟨0x098, 1, 4, [fs 0 32 .ro 0]⟩,
  ⟨0x09C, 1, 4, [fs 0 32 .ro 0]⟩,
  ⟨0x0A0, 1, 4, [fs 0 32 .ro 0]⟩,
  ⟨0x0A4, 1, 4, [fs 0 32 .ro 0]⟩,
  ⟨0x0A8, 1, 4, [fs 0 32 .ro 0]⟩,
  ⟨0x0AC, 1, 4, [fs 0 32 .ro 0]⟩,
  ⟨0x0B0, 1, 4, [fs 0 1 .wo 0]⟩]
/-- The block registers of the BUF page. -/
def regsBUF : List RegSpec := regsBUF0

/-- Registers of the TTX page, part 0. -/
def regsTTX0 : List RegSpec := [
  ⟨0x060, 1, 4, [fm 0 2 0 3 3 1, fs 2 1 .rw 0]⟩,
  ⟨0x064, 1, 4, [fs 0 2 .ro 0, fs 2 1 .ro 1, fs 3 1 .ro 0, fs 4 1 .ro 0, fs 5 1 .ro 0]⟩,
  ⟨0x068, 1, 4, [fc 0 15 0 0 16384]⟩,
  ⟨0x06C, 1, 4, [fc 0 15 0 0 16384]⟩,
  ⟨0x070, 1, 4, [fc 0 9 256 1 256]⟩,
  ⟨0x074, 1, 4, [fs 0 8 .rw 128, fs 8 1 .rw 1]⟩,
  ⟨0x078, 1, 4, [fs 0 32 .ro 0]⟩,
  ⟨0x07C, 1, 4, [fs 0 16 .ro 0]⟩,
  ⟨0x080, 1, 4, [fs 0 11 .ro 0, fs 11 9 .ro 0, fs 20 4 .ro 0]⟩,
  ⟨0x084, 1, 4, [fs 0 21 .ro 0]⟩,
  ⟨0x088, 1, 4, [fs 0 32 .ro 0]⟩,
  ⟨0x08C, 1, 4, [fs 0 32 .ro 0]⟩,
  ⟨0x090, 1, 4, [fs 0 32 .ro 0]⟩,
  ⟨0x094, 1, 4, [fs 0 32 .ro 0]⟩,
  ⟨0x098, 1, 4, [fs 0 32 .ro 0]⟩,
  ⟨0x09C, 1, 4, [fs 0 32 .ro 0]⟩,
  ⟨0x0A0, 1, 4, [fs 0 32 .ro 0]⟩,
  ⟨0x0A4, 1, 4, [fs 0 32 .ro 0]⟩,
  ⟨0x0A8, 1, 4, [fs 0 32 .ro 0]⟩,
  ⟨0x0AC, 1, 4, [fs 0 32 .ro 0]⟩]
/-- Registers of the TTX page, part 1. -/
def regsTTX1 : List RegSpec := [
  ⟨0x0B0, 1, 4, [fs 0 32 .ro 0]⟩,
  ⟨0x0B4, 1, 4, [fs 0 32 .ro 0]⟩,
  ⟨0x0B8, 1, 4, [fs 0 32 .ro 0]⟩,
  ⟨0x0BC, 1, 4, [fs 0 32 .ro 0]⟩,
  ⟨0x0C0, 1, 4, [fs 0 32 .ro 0]⟩,
  ⟨0x0C4, 1, 4, [fs 0 32 .ro 0]⟩,
  ⟨0x0C8, 1, 4, [fs 0 1 .wo 0]⟩]
/-- The block registers of the TTX page. -/
def regsTTX : List RegSpec := regsTTX0 ++ regsTTX1

/-- Registers of the TRX page, part 0. -/
def regsTRX0 : List RegSpec := [
  ⟨0x060, 1, 4, [fs 0 1 .rw 0, fs 1 1 .rw 1, fs 2 1 .rw 1, fs 3 1 .rw 0]⟩,
  ⟨0x064, 1, 4, [fs 0 1 .ro 0, fs 1 1 .ro 0, fs 2 1 .ro 0, fs 3 1 .ro 0, fs 4 1 .ro 0]⟩,
  ⟨0x068, 1, 4, [fc 0 6 8 2 32, fs 8 6 .ro 8, fc 16 6 16 8 32]⟩,
  ⟨0x06C, 1, 4, [fs 0 32 .rw 0]⟩,
  ⟨0x070, 1, 4, [fs 0 16 .rw 0]⟩,
  ⟨0x074, 1, 4, [fc 0 9 128 32 511, fc 12 4 4 0 8, fs 16 8 .rw 32]⟩,
  ⟨0x078, 1, 4, [fc 0 8 32 0 208, fs 8 8 .rw 160, fs 16 1 .rw 0, fs 17 1 .rw 0]⟩,
  ⟨0x07C, 1, 4, [fs 0 8 .rw 32, fs 8 8 .rw 64]⟩,
  ⟨0x080, 1, 4, [fs 0 8 .rw 96, fs 8 8 .rw 48, fs 16 7 .rw 16]⟩,
  ⟨0x084, 1, 4, [fs 0 10 .rw 300, fs 10 10 .rw 0, fs 20 7 .rw 0, fs 31 1 .rw 1]⟩,
  ⟨0x088, 1, 4, [fs 0 9 .rw 0, fs 16 3 .rw 0, fs 31 1 .ro 0]⟩,
  ⟨0x08C, 1, 4, [fs 0 10 .rw 0, fs 10 10 .rw 0, fs 20 7 .rw 0, fs 31 1 .rw 0]⟩,
  ⟨0x090, 1, 4, [fs 0 10 .ro 0, fs 10 10 .ro 0, fs 20 7 .ro 0, fs 31 1 .ro 0]⟩,
  ⟨0x094, 1, 4, [fs 0 10 .ro 0, fs 16 9 .ro 0]⟩,
  ⟨0x09C, 1, 4, [fs 0 32 .ro 0]⟩,
  ⟨0x0A0, 1, 4, [fs 0 32 .ro 0]⟩,
  ⟨0x0A4, 1, 4, [fs 0 32 .ro 0]⟩,
  ⟨0x0A8, 1, 4, [fs 0 32 .ro 0]⟩,
  ⟨0x0AC, 1, 4, [fs 0 32 .ro 0]⟩,
  ⟨0x0B0, 1, 4, [fs 0 32 .ro 0]⟩]
/-- Registers of the TRX page, part 1. -/
def regsTRX1 : List RegSpec := [
  ⟨0x0B4, 1, 4, [fs 0 32 .ro 0]⟩,
  ⟨0x0B8, 1, 4, [fs 0 32 .ro 0]⟩,
  ⟨0x0BC, 1, 4, [fs 0 32 .ro 0]⟩,
  ⟨0x0C0, 1, 4, [fs 0 32 .ro 0]⟩,
  ⟨0x0C4, 1, 4, [fs 0 32 .ro 0]⟩,
  ⟨0x0C8, 1, 4, [fs 0 32 .ro 0]⟩,
  ⟨0x0CC, 1, 4, [fs 0 32 .ro 0]⟩,
  ⟨0x0D0, 1, 4, [fs 0 32 .ro 0]⟩,
  ⟨0x0D4, 1, 4, [fs 0 32 .ro 0]⟩,
  ⟨0x0D8, 1, 4, [fs 0 32 .ro 0]⟩,
  ⟨0x0DC, 1, 4, [fs 0 32 .ro 0]⟩,
  ⟨0x0E0, 1, 4, [fs 0 32 .ro 0]⟩,
  ⟨0x0E4, 1, 4, [fs 0 32 .ro 0]⟩,
  ⟨0x0E8, 1, 4, [fs 0 32 .ro 0]⟩,
  ⟨0x0EC, 1, 4, [fs 0 32 .ro 0]⟩,
  ⟨0x0F0, 1, 4, [fs 0 32 .ro 0]⟩,
  ⟨0x0F4, 1, 4, [fs 0 32 .ro 0]⟩,
  ⟨0x0F8, 1, 4, [fs 0 32 .ro 0]⟩,
  ⟨0x0FC, 1, 4, [fs 0 1 .wo 0]⟩,
  ⟨0x100, 16, 4, [fs 0 32 .w1c 0]⟩]
/-- The block registers of the TRX page. -/
def regsTRX : List RegSpec := regsTRX0 ++ regsTRX1

/-- Registers of the SXT page, part 0. -/
def regsSXT0 : List RegSpec := [
  ⟨0x060, 1, 4, [fs 0 1 .rw 0, fs 1 1 .rw 1, fs 2 1 .rw 0, fs 3 1 .rw 1]⟩,
  ⟨0x064, 1, 4, [fs 0 3 .ro 1, fs 3 1 .ro 0, fs 4 1 .ro 0, fs 8 8 .ro 48, fs 16 10 .ro 0]⟩,
  ⟨0x068, 1, 4, [fc 0 16 64 8 65535, fc 16 11 256 1 1024]⟩,
  ⟨0x06C, 1, 4, [fs 0 10 .rw 0, fs 16 10 .rw 60]⟩,
  ⟨0x070, 1, 4, [fs 0 26 .ro 38880000]⟩,
  ⟨0x074, 1, 4, [fs 0 16 .ro 36131]⟩,
  ⟨0x078, 1, 4, [fs 0 8 .rw 8, fc 8 4 3 1 15, fs 16 8 .rw 16, fc 24 8 8 8 255]⟩,
  ⟨0x07C, 1, 4, [fc 0 8 2 1 255, fc 8 4 4 1 8, fs 12 4 .rw 3, fs 16 8 .rw 16, fc 24 4 4 1 15]⟩,
  ⟨0x080, 1, 4, [fc 0 8 16 1 255, fs 8 8 .rw 64, fc 16 8 64 1 255]⟩,
  ⟨0x084, 1, 4, [fc 0 16 8000 1 65535, fs 16 16 .rw 40000]⟩,
  ⟨0x088, 1, 4, [fc 0 8 32 1 255, fs 8 16 .rw 64]⟩,
  ⟨0x08C, 1, 4, [fs 0 8 .rw 16, fc 8 8 8 1 255]⟩,
  ⟨0x090, 1, 4, [fs 0 16 .rw 4096, fc 16 16 10000 1 65535]⟩,
  ⟨0x094, 1, 4, [fs 0 24 .rw 0]⟩,
  ⟨0x098, 1, 4, [fs 0 6 .rw 0, fs 8 1 .rw 0, fs 9 1 .rw 1]⟩,
  ⟨0x09C, 1, 4, [fs 0 9 .rw 0, fs 16 9 .rw 0, fs 31 1 .wo 0]⟩,
  ⟨0x0A0, 1, 4, [fs 0 9 .rw 0, fs 16 4 .rw 0, fs 24 4 .ro 0, fs 31 1 .ro 0]⟩,
  ⟨0x0A4, 1, 4, [fs 0 3 .ro 0, fs 3 1 .rw 0, fs 4 2 .ro 0, fs 8 4 .ro 0, fs 12 18 .rw 0]⟩,
  ⟨0x0A8, 1, 4, [fs 0 32 .rw 0]⟩,
  ⟨0x0AC, 1, 4, [fs 0 32 .rw 0]⟩,
  ⟨0x0B0, 1, 4, [fs 0 26 .ro 0]⟩,
  ⟨0x0B4, 1, 4, [fs 0 10 .ro 0, fs 16 16 .ro 0]⟩,
  ⟨0x0B8, 1, 4, [fs 0 32 .ro 0]⟩,
  ⟨0x0BC, 1, 4, [fs 0 24 .ro 0]⟩,
  ⟨0x0C0, 1, 4, [fs 0 24 .ro 0]⟩,
  ⟨0x0C4, 1, 4, [fs 0 32 .ro 0]⟩,
  ⟨0x0C8, 1, 4, [fs 0 32 .ro 0]⟩]
/-- Registers of the SXT page, part 1. -/
def regsSXT1 : List RegSpec := [
  ⟨0x0CC, 1, 4, [fs 0 32 .ro 0]⟩,
  ⟨0x0D0, 1, 4, [fs 0 32 .ro 0]⟩,
  ⟨0x0D4, 1, 4, [fs 0 32 .ro 0]⟩,
  ⟨0x0D8, 1, 4, [fs 0 32 .ro 0]⟩,
  ⟨0x0DC, 1, 4, [fs 0 32 .ro 0]⟩,
  ⟨0x0E0, 1, 4, [fs 0 32 .ro 0]⟩,
  ⟨0x0E4, 1, 4, [fs 0 32 .ro 0]⟩,
  ⟨0x0E8, 1, 4, [fs 0 32 .ro 0]⟩,
  ⟨0x0EC, 1, 4, [fs 0 32 .ro 0]⟩,
  ⟨0x0F0, 1, 4, [fs 0 32 .ro 0]⟩,
  ⟨0x0F4, 1, 4, [fs 0 32 .ro 0]⟩,
  ⟨0x0F8, 1, 4, [fs 0 32 .ro 0]⟩,
  ⟨0x0FC, 1, 4, [fs 0 32 .ro 0]⟩,
  ⟨0x100, 1, 4, [fs 0 32 .ro 0]⟩,
  ⟨0x104, 1, 4, [fs 0 32 .ro 0]⟩,
  ⟨0x108, 1, 4, [fs 0 1 .wo 0]⟩,
  ⟨0x10C, 1, 4, [fs 0 16 .rw 8000]⟩]
/-- The block registers of the SXT page. -/
def regsSXT : List RegSpec := regsSXT0 ++ regsSXT1

/-- Registers of the ORR page, part 0. -/
def regsORR0 : List RegSpec := [
  ⟨0x060, 1, 4, [fs 0 8 .rw 0, fs 8 1 .rw 1]⟩,
  ⟨0x064, 1, 4, [fs 0 8 .ro 0, fs 8 8 .ro 0, fs 16 1 .ro 0]⟩,
  ⟨0x068, 1, 4, [fc 0 18 90000 15000 100000]⟩,
  ⟨0x06C, 1, 4, [fs 0 10 .rw 0, fs 10 3 .rw 0, fs 16 3 .rw 0, fs 24 4 .ro 0, fs 31 1 .ro 0]⟩,
  ⟨0x070, 1, 4, [fs 0 13 .rw 0, fm 16 8 1 0 0 1, fs 24 8 .rw 0]⟩,
  ⟨0x074, 1, 4, [fs 0 32 .rw 0]⟩,
  ⟨0x078, 1, 4, [fs 0 20 .rw 0]⟩,
  ⟨0x07C, 1, 4, [fs 0 20 .rw 0, fs 20 1 .ro 0]⟩,
  ⟨0x080, 1, 4, [fs 0 32 .rw 0]⟩,
  ⟨0x084, 1, 4, [fs 0 24 .rw 16777215, fs 24 8 .ro 0]⟩,
  ⟨0x0A0, 8, 4, [fc 0 3 6 2 6, fs 3 1 .rw 1, fs 4 8 .rw 64, fc 12 16 50625 0 50625]⟩,
  ⟨0x0C0, 8, 4, [fs 0 11 .ro 0, fs 11 1 .ro 0, fs 12 1 .ro 0, fs 13 16 .ro 0]⟩,
  ⟨0x0E0, 1, 4, [fs 0 32 .ro 0]⟩,
  ⟨0x0E4, 1, 4, [fs 0 32 .ro 0]⟩,
  ⟨0x0E8, 1, 4, [fs 0 32 .ro 0]⟩,
  ⟨0x0EC, 1, 4, [fs 0 32 .ro 0]⟩,
  ⟨0x0F0, 1, 4, [fs 0 32 .ro 0]⟩,
  ⟨0x0F4, 1, 4, [fs 0 32 .ro 0]⟩,
  ⟨0x0F8, 1, 4, [fs 0 32 .ro 0]⟩,
  ⟨0x0FC, 1, 4, [fs 0 32 .ro 0]⟩,
  ⟨0x100, 1, 4, [fs 0 32 .ro 0]⟩,
  ⟨0x104, 1, 4, [fs 0 32 .ro 0]⟩,
  ⟨0x108, 1, 4, [fs 0 32 .ro 0]⟩,
  ⟨0x10C, 1, 4, [fs 0 32 .ro 0]⟩,
  ⟨0x110, 1, 4, [fs 0 32 .ro 0]⟩]
/-- Registers of the ORR page, part 1. -/
def regsORR1 : List RegSpec := [
  ⟨0x114, 1, 4, [fs 0 32 .ro 0]⟩,
  ⟨0x118, 1, 4, [fs 0 32 .ro 0]⟩,
  ⟨0x11C, 1, 4, [fs 0 32 .ro 0]⟩,
  ⟨0x120, 1, 4, [fs 0 32 .ro 0]⟩,
  ⟨0x124, 1, 4, [fs 0 32 .ro 0]⟩,
  ⟨0x128, 1, 4, [fs 0 32 .ro 0]⟩,
  ⟨0x12C, 1, 4, [fs 0 32 .ro 0]⟩,
  ⟨0x130, 1, 4, [fs 0 32 .ro 0]⟩,
  ⟨0x134, 1, 4, [fs 0 1 .wo 0]⟩]
/-- The block registers of the ORR page. -/
def regsORR : List RegSpec := regsORR0 ++ regsORR1

/-- Registers of the TRK page, part 0. -/
def regsTRK0 : List RegSpec := [
  ⟨0x040, 1, 4, [fm 0 2 0 3 3 0]⟩,
  ⟨0x044, 1, 4, [fs 0 1 .rw 0, fs 1 1 .rw 1, fs 2 1 .rw 0, fc 16 14 9216 1518 10240]⟩,
  ⟨0x048, 1, 4, [fs 0 1 .ro 0, fs 1 1 .ro 0, fs 2 1 .ro 0, fs 3 1 .ro 0, fs 4 1 .ro 0, fs 5 1 .ro 0, fs 6 1 .ro 0]⟩,
  ⟨0x050, 1, 4, [fs 0 32 .ro 0]⟩,
  ⟨0x054, 1, 4, [fs 0 32 .ro 0]⟩,
  ⟨0x058, 1, 4, [fs 0 32 .ro 0]⟩,
  ⟨0x05C, 1, 4, [fs 0 32 .ro 0]⟩,
  ⟨0x060, 1, 4, [fs 0 32 .ro 0]⟩,
  ⟨0x064, 1, 4, [fs 0 32 .ro 0]⟩,
  ⟨0x068, 1, 4, [fs 0 32 .ro 0]⟩,
  ⟨0x06C, 1, 4, [fs 0 32 .ro 0]⟩,
  ⟨0x070, 1, 4, [fs 0 32 .ro 0]⟩,
  ⟨0x074, 1, 4, [fs 0 32 .ro 0]⟩,
  ⟨0x078, 1, 4, [fs 0 32 .ro 0]⟩,
  ⟨0x07C, 1, 4, [fs 0 32 .ro 0]⟩,
  ⟨0x080, 1, 4, [fs 0 32 .ro 0]⟩,
  ⟨0x084, 1, 4, [fs 0 32 .ro 0]⟩,
  ⟨0x088, 1, 4, [fs 0 32 .ro 0]⟩,
  ⟨0x08C, 1, 4, [fs 0 32 .ro 0]⟩,
  ⟨0x090, 1, 4, [fs 0 32 .ro 0]⟩]
/-- Registers of the TRK page, part 1. -/
def regsTRK1 : List RegSpec := [
  ⟨0x094, 1, 4, [fs 0 32 .ro 0]⟩,
  ⟨0x098, 1, 4, [fs 0 32 .ro 0]⟩,
  ⟨0x09C, 1, 4, [fs 0 1 .wo 0]⟩]
/-- The block registers of the TRK page. -/
def regsTRK : List RegSpec := regsTRK0 ++ regsTRK1

/-- Registers of the MSEC page, part 0. -/
def regsMSEC0 : List RegSpec := [
  ⟨0x040, 1, 4, [fs 0 1 .rw 0, fs 1 2 .rw 3, fm 3 2 0 3 3 0, fs 5 1 .rw 0, fs 6 1 .rw 1, fm 7 2 2 3 3 2, fs 9 1 .rw 1]⟩,
  ⟨0x044, 1, 4, [fs 0 2 .ro 0, fs 2 1 .ro 0, fs 3 1 .ro 0]⟩,
  ⟨0x048, 1, 4, [fs 0 32 .rw 0]⟩,
  ⟨0x04C, 1, 4, [fs 0 32 .rw 0]⟩,
  ⟨0x050, 1, 4, [fc 0 31 0 0 1073741824]⟩,
  ⟨0x054, 1, 4, [fs 0 2 .rw 0, fs 2 1 .rw 0, fs 31 1 .wo 0]⟩,
  ⟨0x058, 1, 4, [fs 0 32 .rw 0]⟩,
  ⟨0x05C, 1, 4, [fs 0 16 .rw 0]⟩,
  ⟨0x060, 1, 4, [fs 0 32 .rw 0]⟩,
  ⟨0x064, 1, 4, [fs 0 32 .rw 3221225472]⟩,
  ⟨0x068, 1, 4, [fs 0 5 .rw 0, fs 5 1 .rw 0, fc 8 8 4 1 255, fs 16 16 .rw 64]⟩,
  ⟨0x06C, 1, 4, [fs 0 6 .rw 0, fs 6 2 .rw 0, fs 8 2 .rw 0, fs 16 3 .rw 0, fs 24 4 .ro 0, fs 31 1 .ro 0]⟩,
  ⟨0x070, 1, 4, [fs 0 13 .rw 0, fs 16 1 .ro 0]⟩,
  ⟨0x074, 1, 4, [fs 0 32 .rw 0]⟩,
  ⟨0x078, 1, 4, [fs 0 32 .rw 0]⟩,
  ⟨0x07C, 1, 4, [fs 0 32 .rw 0]⟩,
  ⟨0x080, 1, 4, [fs 0 32 .rw 0]⟩,
  ⟨0x084, 1, 4, [fs 0 32 .rw 0]⟩,
  ⟨0x088, 1, 4, [fs 0 32 .rw 0]⟩,
  ⟨0x08C, 1, 4, [fs 0 32 .ro 0]⟩,
  ⟨0x090, 1, 4, [fs 0 32 .ro 0]⟩,
  ⟨0x094, 1, 4, [fs 0 32 .ro 0]⟩,
  ⟨0x098, 1, 4, [fs 0 32 .ro 0]⟩,
  ⟨0x09C, 1, 4, [fs 0 32 .ro 0]⟩,
  ⟨0x0A0, 1, 4, [fs 0 32 .ro 0]⟩,
  ⟨0x0A4, 1, 4, [fs 0 32 .ro 0]⟩,
  ⟨0x0A8, 1, 4, [fs 0 32 .ro 0]⟩]
/-- Registers of the MSEC page, part 1. -/
def regsMSEC1 : List RegSpec := [
  ⟨0x0AC, 1, 4, [fs 0 32 .ro 0]⟩,
  ⟨0x0B0, 1, 4, [fs 0 32 .ro 0]⟩,
  ⟨0x0B4, 1, 4, [fs 0 32 .ro 0]⟩,
  ⟨0x0B8, 1, 4, [fs 0 32 .ro 0]⟩,
  ⟨0x0BC, 1, 4, [fs 0 32 .ro 0]⟩,
  ⟨0x0C0, 1, 4, [fs 0 32 .ro 0]⟩,
  ⟨0x0C4, 1, 4, [fs 0 32 .ro 0]⟩,
  ⟨0x0C8, 1, 4, [fs 0 32 .ro 0]⟩,
  ⟨0x0CC, 1, 4, [fs 0 32 .ro 0]⟩,
  ⟨0x0D0, 1, 4, [fs 0 32 .ro 0]⟩,
  ⟨0x0D4, 1, 4, [fs 0 32 .ro 0]⟩,
  ⟨0x0D8, 1, 4, [fs 0 32 .ro 0]⟩,
  ⟨0x0DC, 1, 4, [fs 0 32 .ro 0]⟩,
  ⟨0x0E0, 1, 4, [fs 0 32 .ro 0]⟩,
  ⟨0x0E4, 1, 4, [fs 0 32 .ro 0]⟩,
  ⟨0x0E8, 1, 4, [fs 0 32 .ro 0]⟩,
  ⟨0x0EC, 1, 4, [fs 0 32 .ro 0]⟩,
  ⟨0x0F0, 1, 4, [fs 0 1 .wo 0]⟩]
/-- The block registers of the MSEC page. -/
def regsMSEC : List RegSpec := regsMSEC0 ++ regsMSEC1

/-- Registers of the CIPH page, part 0. -/
def regsCIPH0 : List RegSpec := [
  ⟨0x060, 1, 4, [fs 0 12 .rw 4095]⟩,
  ⟨0x064, 1, 4, [fs 0 12 .ro 0, fs 12 9 .ro 0, fs 21 9 .ro 0]⟩,
  ⟨0x068, 1, 4, [fs 0 1 .wo 0, fs 1 1 .ro 0, fs 16 12 .ro 0]⟩,
  ⟨0x070, 1, 4, [fs 0 32 .ro 0]⟩,
  ⟨0x074, 1, 4, [fs 0 32 .ro 0]⟩,
  ⟨0x078, 1, 4, [fs 0 32 .ro 0]⟩,
  ⟨0x07C, 1, 4, [fs 0 32 .ro 0]⟩,
  ⟨0x080, 1, 4, [fs 0 32 .ro 0]⟩,
  ⟨0x084, 1, 4, [fs 0 32 .ro 0]⟩,
  ⟨0x088, 1, 4, [fs 0 32 .ro 0]⟩,
  ⟨0x08C, 1, 4, [fs 0 32 .ro 0]⟩,
  ⟨0x090, 1, 4, [fs 0 32 .ro 0]⟩,
  ⟨0x094, 1, 4, [fs 0 32 .ro 0]⟩,
  ⟨0x098, 1, 4, [fs 0 32 .ro 0]⟩,
  ⟨0x09C, 1, 4, [fs 0 32 .ro 0]⟩,
  ⟨0x0A0, 1, 4, [fs 0 32 .ro 0]⟩,
  ⟨0x0A4, 1, 4, [fs 0 32 .ro 0]⟩,
  ⟨0x0A8, 1, 4, [fs 0 1 .wo 0]⟩]
/-- The block registers of the CIPH page. -/
def regsCIPH : List RegSpec := regsCIPH0

/-- Registers of the FWD page, part 0. -/
def regsFWD0 : List RegSpec := [
  ⟨0x060, 1, 4, [fs 0 1 .rw 1, fc 1 3 3 1 4]⟩,
  ⟨0x064, 1, 4, [fs 0 19 .ro 0, fs 19 5 .ro 0, fs 24 1 .ro 0, fs 25 1 .ro 0, fs 26 1 .ro 0]⟩,
  ⟨0x068, 1, 4, [fs 0 4 .rw 0, fs 4 3 .rw 0, fs 7 1 .rw 0, fs 24 4 .ro 0, fs 31 1 .ro 0]⟩,
  ⟨0x06C, 1, 4, [fs 0 19 .rw 0]⟩,
  ⟨0x070, 1, 4, [fs 0 32 .rw 0]⟩,
  ⟨0x074, 1, 4, [fs 0 32 .rw 0]⟩,
  ⟨0x078, 1, 4, [fs 0 19 .rw 0, fs 19 1 .ro 0]⟩,
  ⟨0x07C, 1, 4, [fs 0 19 .ro 0]⟩,
  ⟨0x080, 1, 4, [fs 0 1 .wo 0]⟩,
  ⟨0x084, 1, 4, [fs 0 19 .ro 0]⟩,
  ⟨0x088, 1, 4, [fs 0 6 .rw 0, fs 8 1 .rw 0, fs 9 5 .rw 27, fc 16 10 64 1 1023]⟩,
  ⟨0x090, 1, 4, [fs 0 32 .ro 0]⟩,
  ⟨0x094, 1, 4, [fs 0 32 .ro 0]⟩,
  ⟨0x098, 1, 4, [fs 0 32 .ro 0]⟩,
  ⟨0x09C, 1, 4, [fs 0 32 .ro 0]⟩,
  ⟨0x0A0, 1, 4, [fs 0 32 .ro 0]⟩,
  ⟨0x0A4, 1, 4, [fs 0 32 .ro 0]⟩,
  ⟨0x0A8, 1, 4, [fs 0 32 .ro 0]⟩,
  ⟨0x0AC, 1, 4, [fs 0 32 .ro 0]⟩,
  ⟨0x0B0, 1, 4, [fs 0 32 .ro 0]⟩,
  ⟨0x0B4, 1, 4, [fs 0 32 .ro 0]⟩,
  ⟨0x0B8, 1, 4, [fs 0 32 .ro 0]⟩,
  ⟨0x0BC, 1, 4, [fs 0 32 .ro 0]⟩]
/-- Registers of the FWD page, part 1. -/
def regsFWD1 : List RegSpec := [
  ⟨0x0C0, 1, 4, [fs 0 32 .ro 0]⟩,
  ⟨0x0C4, 1, 4, [fs 0 32 .ro 0]⟩,
  ⟨0x0C8, 1, 4, [fs 0 32 .ro 0]⟩,
  ⟨0x0CC, 1, 4, [fs 0 32 .ro 0]⟩,
  ⟨0x0D0, 1, 4, [fs 0 32 .ro 0]⟩,
  ⟨0x0D4, 1, 4, [fs 0 32 .ro 0]⟩,
  ⟨0x0D8, 1, 4, [fs 0 32 .ro 0]⟩,
  ⟨0x0DC, 1, 4, [fs 0 32 .ro 0]⟩,
  ⟨0x0E0, 1, 4, [fs 0 32 .ro 0]⟩,
  ⟨0x0E4, 1, 4, [fs 0 32 .ro 0]⟩,
  ⟨0x0E8, 1, 4, [fs 0 32 .ro 0]⟩,
  ⟨0x0EC, 1, 4, [fs 0 1 .wo 0]⟩]
/-- The block registers of the FWD page. -/
def regsFWD : List RegSpec := regsFWD0 ++ regsFWD1

/-- Registers of the QSCH page, part 0. -/
def regsQSCH0 : List RegSpec := [
  ⟨0x060, 1, 4, [fs 0 8 .rw 0, fs 8 1 .rw 1, fs 9 1 .rw 0]⟩,
  ⟨0x064, 1, 4, [fs 0 8 .ro 0]⟩,
  ⟨0x068, 1, 4, [fs 0 4 .rw 0, fs 4 4 .rw 0, fs 24 4 .ro 0, fs 31 1 .ro 0]⟩,
  ⟨0x06C, 1, 4, [fs 0 16 .rw 0]⟩,
  ⟨0x070, 1, 4, [fs 0 28 .rw 0, fs 28 4 .ro 0]⟩,
  ⟨0x074, 1, 4, [fs 0 28 .rw 0, fs 28 4 .ro 0]⟩,
  ⟨0x078, 1, 4, [fs 0 28 .rw 0]⟩,
  ⟨0x07C, 1, 4, [fs 0 24 .rw 0, fs 24 4 .ro 0]⟩,
  ⟨0x080, 1, 4, [fs 0 24 .rw 0, fs 24 4 .ro 0]⟩,
  ⟨0x084, 1, 4, [fs 0 16 .ro 0]⟩,
  ⟨0x088, 1, 4, [fc 0 4 1 1 15]⟩,
  ⟨0x090, 1, 4, [fs 0 32 .ro 0]⟩,
  ⟨0x094, 1, 4, [fs 0 32 .ro 0]⟩,
  ⟨0x098, 1, 4, [fs 0 32 .ro 0]⟩,
  ⟨0x09C, 1, 4, [fs 0 32 .ro 0]⟩,
  ⟨0x0A0, 1, 4, [fs 0 32 .ro 0]⟩,
  ⟨0x0A4, 1, 4, [fs 0 32 .ro 0]⟩,
  ⟨0x0A8, 1, 4, [fs 0 32 .ro 0]⟩,
  ⟨0x0AC, 1, 4, [fs 0 32 .ro 0]⟩,
  ⟨0x0B0, 1, 4, [fs 0 32 .ro 0]⟩,
  ⟨0x0B4, 1, 4, [fs 0 32 .ro 0]⟩,
  ⟨0x0B8, 1, 4, [fs 0 32 .ro 0]⟩,
  ⟨0x0BC, 1, 4, [fs 0 32 .ro 0]⟩,
  ⟨0x0C0, 1, 4, [fs 0 32 .ro 0]⟩,
  ⟨0x0C4, 1, 4, [fs 0 32 .ro 0]⟩]
/-- Registers of the QSCH page, part 1. -/
def regsQSCH1 : List RegSpec := [
  ⟨0x0C8, 1, 4, [fs 0 32 .ro 0]⟩,
  ⟨0x0CC, 1, 4, [fs 0 32 .ro 0]⟩,
  ⟨0x0D0, 1, 4, [fs 0 32 .ro 0]⟩,
  ⟨0x0D4, 1, 4, [fs 0 1 .wo 0]⟩]
/-- The block registers of the QSCH page. -/
def regsQSCH : List RegSpec := regsQSCH0 ++ regsQSCH1

/-- Registers of the GATE page, part 0. -/
def regsGATE0 : List RegSpec := [
  ⟨0x040, 1, 4, [fs 0 1 .rw 0]⟩,
  ⟨0x044, 1, 4, [fs 0 1 .wo 0]⟩,
  ⟨0x048, 1, 4, [fs 0 8 .ro 255, fs 8 8 .ro 0, fs 16 1 .ro 0, fs 17 1 .ro 1, fs 18 1 .ro 0]⟩,
  ⟨0x04C, 1, 4, [fs 0 8 .rw 52]⟩,
  ⟨0x050, 1, 4, [fc 0 9 1 1 256]⟩,
  ⟨0x054, 1, 4, [fc 0 30 1000000 1000 1000000000]⟩,
  ⟨0x058, 1, 4, [fs 0 30 .rw 0]⟩,
  ⟨0x05C, 1, 4, [fs 0 32 .rw 0]⟩,
  ⟨0x060, 1, 4, [fs 0 16 .rw 0]⟩,
  ⟨0x064, 1, 4, [fs 0 8 .rw 0, fs 8 1 .rw 0]⟩,
  ⟨0x068, 1, 4, [fs 0 8 .rw 0]⟩,
  ⟨0x06C, 1, 4, [fs 0 30 .rw 0]⟩,
  ⟨0x070, 1, 4, [fs 0 30 .ro 0]⟩,
  ⟨0x074, 1, 4, [fs 0 30 .ro 0]⟩,
  ⟨0x078, 1, 4, [fs 0 32 .ro 0]⟩,
  ⟨0x07C, 1, 4, [fs 0 16 .ro 0]⟩,
  ⟨0x080, 1, 4, [fs 0 32 .ro 0]⟩,
  ⟨0x084, 1, 4, [fs 0 32 .ro 0]⟩,
  ⟨0x088, 1, 4, [fs 0 32 .ro 0]⟩,
  ⟨0x08C, 1, 4, [fs 0 32 .ro 0]⟩]
/-- Registers of the GATE page, part 1. -/
def regsGATE1 : List RegSpec := [
  ⟨0x090, 1, 4, [fs 0 1 .wo 0]⟩]
/-- The block registers of the GATE page. -/
def regsGATE : List RegSpec := regsGATE0 ++ regsGATE1

/-- Registers of the CKT page, part 0. -/
def regsCKT0 : List RegSpec := [
  ⟨0x060, 1, 4, [fm 0 2 0 3 3 1, fs 2 1 .rw 0, fs 3 1 .rw 0, fs 4 1 .rw 0, fs 5 1 .rw 1, fs 6 1 .rw 0]⟩,
  ⟨0x064, 1, 4, [fs 0 2 .ro 0, fs 2 1 .ro 0, fs 3 1 .ro 0, fs 4 1 .ro 0, fs 5 1 .ro 0, fs 6 1 .ro 0, fs 7 1 .ro 0, fs 8 1 .ro 0]⟩,
  ⟨0x068, 1, 4, [fs 0 16 .rw 800, fc 16 4 7 2 10, fc 20 9 50 1 500]⟩,
  ⟨0x06C, 1, 4, [fc 0 16 2400 1 65535, fc 16 9 150 1 500]⟩,
  ⟨0x070, 1, 4, [fs 0 18 .ro 0, fs 31 1 .ro 0]⟩,
  ⟨0x074, 1, 4, [fs 0 11 .rw 0, fs 16 3 .rw 0, fs 24 4 .ro 0, fs 31 1 .ro 0]⟩,
  ⟨0x078, 1, 4, [fs 0 5 .rw 0, fs 5 1 .rw 1, fs 6 26 .ro 0]⟩,
  ⟨0x07C, 1, 4, [fs 0 18 .rw 288, fs 18 11 .rw 1, fs 29 3 .ro 0]⟩,
  ⟨0x080, 1, 4, [fs 0 32 .ro 0]⟩,
  ⟨0x084, 1, 4, [fs 0 32 .ro 0]⟩,
  ⟨0x088, 1, 4, [fs 0 12 .rw 0, fs 12 6 .rw 0, fs 18 1 .wo 0, fs 24 4 .ro 0, fs 31 1 .ro 0]⟩,
  ⟨0x08C, 6, 4, [fs 0 32 .ro 0]⟩,
  ⟨0x0A4, 1, 4, [fs 0 2 .rw 0]⟩,
  ⟨0x0A8, 1, 4, [fs 0 32 .ro 0]⟩,
  ⟨0x0AC, 1, 4, [fs 0 32 .ro 0]⟩,
  ⟨0x0B0, 1, 4, [fs 0 32 .ro 0]⟩,
  ⟨0x0B4, 1, 4, [fs 0 32 .ro 0]⟩,
  ⟨0x0B8, 1, 4, [fs 0 32 .ro 0]⟩,
  ⟨0x0BC, 1, 4, [fs 0 32 .ro 0]⟩,
  ⟨0x0C0, 1, 4, [fs 0 32 .ro 0]⟩,
  ⟨0x0C4, 1, 4, [fs 0 32 .ro 0]⟩,
  ⟨0x0C8, 1, 4, [fs 0 32 .ro 0]⟩,
  ⟨0x0CC, 1, 4, [fs 0 32 .ro 0]⟩]
/-- Registers of the CKT page, part 1. -/
def regsCKT1 : List RegSpec := [
  ⟨0x0D0, 1, 4, [fs 0 32 .ro 0]⟩,
  ⟨0x0D4, 1, 4, [fs 0 1 .wo 0]⟩,
  ⟨0x100, 64, 4, [fs 0 32 .w1c 0]⟩]
/-- The block registers of the CKT page. -/
def regsCKT : List RegSpec := regsCKT0 ++ regsCKT1

/-- Registers of the TSI page, part 0. -/
def regsTSI0 : List RegSpec := [
  ⟨0x060, 1, 4, [fs 0 1 .rw 0]⟩,
  ⟨0x064, 1, 4, [fs 0 1 .ro 0, fs 1 1 .ro 0, fs 2 1 .ro 0, fs 4 15 .ro 0]⟩,
  ⟨0x068, 1, 4, [fs 0 3 .rw 0, fs 3 1 .rw 0, fs 24 4 .ro 0, fs 31 1 .ro 0]⟩,
  ⟨0x06C, 1, 4, [fs 0 18 .rw 0]⟩,
  ⟨0x070, 1, 4, [fs 0 24 .rw 0, fs 31 1 .rw 0]⟩,
  ⟨0x074, 1, 4, [fs 0 24 .rw 0]⟩,
  ⟨0x078, 1, 4, [fs 0 9 .rw 0, fs 16 10 .rw 0]⟩,
  ⟨0x07C, 1, 4, [fs 0 16 .rw 0]⟩,
  ⟨0x080, 1, 4, [fs 0 32 .rw 0]⟩,
  ⟨0x084, 1, 4, [fs 0 16 .rw 0]⟩,
  ⟨0x088, 1, 4, [fs 0 1 .wo 0, fs 1 1 .rw 0, fs 2 1 .wo 0]⟩,
  ⟨0x08C, 1, 4, [fs 0 18 .ro 0, fs 18 4 .ro 0, fs 31 1 .ro 0]⟩,
  ⟨0x090, 1, 4, [fs 0 9 .rw 0, fs 9 5 .rw 0, fs 16 2 .rw 0, fs 24 4 .ro 0, fs 31 1 .ro 0]⟩,
  ⟨0x098, 1, 4, [fs 0 32 .ro 0]⟩,
  ⟨0x09C, 1, 4, [fs 0 32 .ro 0]⟩,
  ⟨0x0A0, 1, 4, [fs 0 32 .ro 0]⟩,
  ⟨0x0A4, 1, 4, [fs 0 32 .ro 0]⟩,
  ⟨0x0A8, 1, 4, [fs 0 32 .ro 0]⟩,
  ⟨0x0AC, 1, 4, [fs 0 32 .ro 0]⟩,
  ⟨0x0B0, 1, 4, [fs 0 1 .wo 0]⟩]
/-- The block registers of the TSI page. -/
def regsTSI : List RegSpec := regsTSI0

/-- Registers of the NAV page, part 0. -/
def regsNAV0 : List RegSpec := [
  ⟨0x060, 1, 4, [fs 0 1 .rw 0, fs 1 1 .rw 1, fs 4 4 .rw 0, fs 8 6 .rw 0, fs 16 16 .rw 65535]⟩,
  ⟨0x064, 1, 4, [fs 0 1 .ro 0, fs 1 1 .ro 0, fs 2 1 .ro 0, fs 3 1 .ro 0, fs 4 1 .ro 0, fs 5 1 .ro 1, fs 6 4 .ro 0, fs 10 1 .ro 0, fs 11 1 .ro 0, fs 12 1 .ro 0]⟩,
  ⟨0x068, 1, 4, [fs 0 16 .ro 0, fs 16 16 .ro 0]⟩,
  ⟨0x06C, 1, 4, [fs 0 16 .ro 0]⟩,
  ⟨0x070, 1, 4, [fs 0 8 .rw 8]⟩,
  ⟨0x074, 1, 4, [fs 0 32 .rw 0]⟩,
  ⟨0x078, 1, 4, [fs 0 16 .rw 0]⟩,
  ⟨0x07C, 1, 4, [fs 0 1 .wo 0, fs 1 1 .wo 0, fs 24 4 .ro 0]⟩,
  ⟨0x080, 1, 4, [fs 0 2 .rw 0, fs 4 4 .rw 0, fs 24 4 .ro 0, fs 31 1 .ro 0]⟩,
  ⟨0x084, 1, 4, [fs 0 32 .rw 0]⟩,
  ⟨0x088, 1, 4, [fs 0 32 .rw 0]⟩,
  ⟨0x08C, 1, 4, [fs 0 21 .rw 0]⟩,
  ⟨0x090, 1, 4, [fs 0 32 .rw 0]⟩,
  ⟨0x094, 1, 4, [fs 0 32 .ro 0]⟩,
  ⟨0x098, 1, 4, [fs 0 32 .ro 0]⟩,
  ⟨0x09C, 1, 4, [fs 0 14 .rw 0, fs 14 11 .rw 0, fc 25 4 2 1 10]⟩,
  ⟨0x0A0, 1, 4, [fs 0 4 .ro 0, fs 4 8 .ro 0, fs 12 1 .ro 0]⟩,
  ⟨0x0A4, 1, 4, [fs 0 32 .ro 0]⟩,
  ⟨0x0B0, 1, 4, [fs 0 32 .ro 0]⟩,
  ⟨0x0B4, 1, 4, [fs 0 32 .ro 0]⟩]
/-- Registers of the NAV page, part 1. -/
def regsNAV1 : List RegSpec := [
  ⟨0x0B8, 1, 4, [fs 0 32 .ro 0]⟩,
  ⟨0x0BC, 1, 4, [fs 0 32 .ro 0]⟩,
  ⟨0x0C0, 1, 4, [fs 0 32 .ro 0]⟩,
  ⟨0x0C4, 1, 4, [fs 0 32 .ro 0]⟩,
  ⟨0x0C8, 1, 4, [fs 0 32 .ro 0]⟩,
  ⟨0x0CC, 1, 4, [fs 0 32 .ro 0]⟩,
  ⟨0x0D0, 1, 4, [fs 0 32 .ro 0]⟩,
  ⟨0x0D4, 1, 4, [fs 0 32 .ro 0]⟩,
  ⟨0x0D8, 1, 4, [fs 0 32 .ro 0]⟩,
  ⟨0x0DC, 1, 4, [fs 0 32 .ro 0]⟩,
  ⟨0x0E0, 1, 4, [fs 0 32 .ro 0]⟩,
  ⟨0x0E4, 1, 4, [fs 0 32 .ro 0]⟩,
  ⟨0x0E8, 1, 4, [fs 0 32 .ro 0]⟩,
  ⟨0x0EC, 1, 4, [fs 0 32 .ro 0]⟩,
  ⟨0x0F0, 1, 4, [fs 0 32 .ro 0]⟩,
  ⟨0x0F4, 1, 4, [fs 0 1 .wo 0]⟩]
/-- The block registers of the NAV page. -/
def regsNAV : List RegSpec := regsNAV0 ++ regsNAV1

/-- Registers of the QMAP page, part 0. -/
def regsQMAP0 : List RegSpec := [
  ⟨0x040, 1, 4, [fs 0 4 .rw 0, fs 4 4 .rw 0, fs 8 1 .rw 0]⟩,
  ⟨0x044, 1, 4, [fs 6 26 .rw 0]⟩,
  ⟨0x048, 1, 4, [fs 6 26 .rw 0]⟩,
  ⟨0x04C, 1, 4, [fs 0 1 .rw 0, fs 1 1 .rw 0, fs 2 1 .rw 0, fs 3 1 .rw 0, fs 4 1 .rw 0, fs 5 1 .rw 0, fs 6 1 .rw 0, fs 7 1 .rwo 0]⟩,
  ⟨0x050, 1, 4, [fs 0 16 .ro 0]⟩,
  ⟨0x054, 1, 4, [fs 0 32 .ro 0]⟩,
  ⟨0x058, 1, 4, [fs 0 32 .ro 0]⟩,
  ⟨0x05C, 1, 4, [fs 0 32 .ro 0]⟩,
  ⟨0x060, 1, 4, [fs 0 32 .ro 0]⟩,
  ⟨0x064, 1, 4, [fs 0 4 .ro 0, fs 4 3 .ro 0, fs 7 1 .ro 0, fs 8 1 .ro 0, fs 9 1 .ro 0]⟩,
  ⟨0x068, 1, 4, [fs 0 32 .ro 0]⟩,
  ⟨0x06C, 1, 4, [fs 0 1 .wo 0]⟩,
  ⟨0x070, 1, 4, [fs 0 8 .rw 0]⟩,
  ⟨0x074, 1, 4, [fs 0 8 .rw 0]⟩,
  ⟨0x078, 1, 4, [fs 0 8 .ro 0]⟩]
/-- The block registers of the QMAP page. -/
def regsQMAP : List RegSpec := regsQMAP0

/-- Registers of the SER page, part 0. -/
def regsSER0 : List RegSpec := [
  ⟨0x040, 1, 4, [fs 0 1 .rw 1, fs 1 1 .rw 1, fs 2 1 .rw 0, fs 3 1 .rw 0, fs 4 1 .rw 0, fs 5 1 .rw 1, fs 6 1 .rw 0, fs 7 1 .rw 1]⟩,
  ⟨0x044, 1, 4, [fs 0 1 .ro 0, fs 1 1 .ro 0, fs 2 1 .ro 0, fs 3 3 .ro 0, fs 6 1 .ro 0, fs 7 1 .ro 0]⟩,
  ⟨0x048, 1, 4, [fs 0 6 .rw 0, fs 6 6 .rw 0, fc 12 8 160 80 255, fs 20 6 .rw 0]⟩,
  ⟨0x04C, 1, 4, [fc 0 8 100 25 255, fs 8 16 .rw 1000]⟩,
  ⟨0x050, 1, 4, [fs 0 8 .rw 6, fs 8 8 .rw 12, fs 16 8 .rw 16]⟩,
  ⟨0x054, 1, 4, [fs 0 3 .rw 0, fs 4 3 .rw 0, fs 24 4 .ro 0, fs 31 1 .ro 0]⟩,
  ⟨0x058, 1, 4, [fs 0 8 .ro 0, fs 8 8 .ro 0]⟩,
  ⟨0x05C, 1, 4, [fs 0 8 .w1c 0]⟩,
  ⟨0x060, 1, 4, [fm 0 3 5 6 7 5, fs 3 1 .rw 0, fs 4 1 .rw 0, fs 5 1 .wo 0, fm 6 5 0 1 9 10]⟩,
  ⟨0x064, 1, 4, [fs 0 11 .ro 0]⟩,
  ⟨0x068, 1, 4, [fs 0 32 .ro 0]⟩,
  ⟨0x06C, 1, 4, [fs 0 32 .ro 0]⟩,
  ⟨0x070, 1, 4, [fs 0 32 .ro 0]⟩,
  ⟨0x074, 1, 4, [fs 0 32 .ro 0]⟩,
  ⟨0x078, 1, 4, [fs 0 32 .ro 0]⟩,
  ⟨0x07C, 1, 4, [fs 0 32 .ro 0]⟩,
  ⟨0x080, 1, 4, [fs 0 32 .ro 0]⟩,
  ⟨0x084, 1, 4, [fs 0 32 .ro 0]⟩,
  ⟨0x088, 1, 4, [fs 0 32 .ro 0]⟩,
  ⟨0x08C, 1, 4, [fs 0 32 .ro 0]⟩]
/-- Registers of the SER page, part 1. -/
def regsSER1 : List RegSpec := [
  ⟨0x090, 1, 4, [fs 0 32 .ro 0]⟩,
  ⟨0x094, 1, 4, [fs 0 32 .ro 0]⟩,
  ⟨0x098, 1, 4, [fs 0 1 .wo 0]⟩]
/-- The block registers of the SER page. -/
def regsSER : List RegSpec := regsSER0 ++ regsSER1

/-- The block registers of a page type (R408); none for a type not listed. -/
def blockRegs (ty : Nat) : List RegSpec :=
  match ty with
  | 0x00 => regsTOP
  | 0x01 => regsBIN
  | 0x02 => regsHIF
  | 0x03 => regsTICK ++ regsPMC
  | 0x04 => regsCRC
  | 0x05 => regsAST
  | 0x06 => regsTICK ++ regsALM
  | 0x07 => regsPKA
  | 0x08 => regsLCS
  | 0x09 => regsTAMP
  | 0x0A => regsDBG
  | 0x0B => regsPAIR
  | 0x0C => regsSEAL
  | 0x0D => regsTICK ++ regsBUF
  | 0x10 => regsTICK ++ regsTTX
  | 0x11 => regsTICK ++ regsTRX
  | 0x12 => regsTICK ++ regsSXT
  | 0x13 => regsTICK ++ regsORR
  | 0x18 => regsTRK
  | 0x19 => regsMSEC
  | 0x1A => regsTICK0 2500 ++ regsCIPH
  | 0x1C => regsTICK ++ regsFWD
  | 0x1D => regsTICK ++ regsQSCH
  | 0x1E => regsGATE
  | 0x20 => regsTICK ++ regsCKT
  | 0x21 => regsTICK ++ regsTSI
  | 0x24 => regsTICK ++ regsNAV
  | 0x25 => regsQMAP
  | 0x28 => regsSER
  | _ => []

/-- The default deadline or age limit of R30 for a page type that is a tick stage. -/
def deadlineReset (ty : Nat) : Nat :=
  match ty with
  | 0x10 => 155000
  | 0x11 => 15000
  | 0x12 => 80000
  | 0x13 => 150000
  | 0x1D => 125000
  | 0x06 => 155000
  | 0x21 => 120000
  | 0x20 => 20000
  | 0x24 => 156000
  | 0x03 => 150000
  | 0x1C => 2500
  | 0x1A => 2500
  | 0x0D => 2500
  | _ => 0

/-- Whether a page type is a tick stage (R31), so that INT_STS bit 0 is TICK_OVERRUN. -/
def isTickStage (ty : Nat) : Bool := deadlineReset ty != 0

/-- The number of INT_STS and INT_EN bits a page type carries; the bits above are reserved. -/
def intBits (ty : Nat) : Nat :=
  match ty with
  | 0x10 => 8
  | 0x11 => 8
  | 0x13 => 8
  | 0x12 => 9
  | 0x06 => 8
  | 0x1A => 7
  | 0x07 => 6
  | 0x18 => 5
  | 0x19 => 8
  | 0x1C => 9
  | 0x0D => 6
  | 0x1D => 8
  | 0x1E => 5
  | 0x20 => 7
  | 0x21 => 6
  | 0x05 => 11
  | 0x24 => 12
  | 0x25 => 4
  | 0x0C => 8
  | 0x02 => 5
  | 0x04 => 2
  | 0x03 => 4
  | 0x01 => 5
  | 0x0B => 9
  | 0x08 => 4
  | 0x09 => 4
  | 0x0A => 4
  | 0x28 => 7
  | _ => 0

/-- The INT_STS bit that sets when a counter counts (the INT tables of the chapters), by page type and offset. -/
def intOfCounter (ty off : Nat) : Option Nat :=
  match ty, off with
  | 0x10, 0x0A8 => some 1
  | 0x10, 0x0A0 => some 2
  | 0x10, 0x0A4 => some 3
  | 0x10, 0x0AC => some 4
  | 0x10, 0x0B0 => some 5
  | 0x10, 0x0C0 => some 6
  | 0x10, 0x0C4 => some 7
  | 0x11, 0x0CC => some 1
  | 0x11, 0x0F4 => some 2
  | 0x11, 0x0C8 => some 3
  | 0x11, 0x0C0 => some 4
  | 0x11, 0x0D0 => some 5
  | 0x11, 0x0F8 => some 6
  | 0x11, 0x0B8 => some 7
  | 0x13, 0x100 => some 1
  | 0x13, 0x108 => some 2
  | 0x13, 0x114 => some 3
  | 0x13, 0x118 => some 3
  | 0x13, 0x11C => some 3
  | 0x13, 0x120 => some 4
  | 0x13, 0x124 => some 5
  | 0x13, 0x128 => some 5
  | 0x13, 0x12C => some 6
  | 0x13, 0x130 => some 7
  | 0x12, 0x0D0 => some 1
  | 0x12, 0x0D4 => some 2
  | 0x12, 0x0F0 => some 3
  | 0x12, 0x0F4 => some 4
  | 0x12, 0x0DC => some 6
  | 0x12, 0x100 => some 7
  | 0x12, 0x104 => some 8
  | 0x06, 0x0D8 => some 1
  | 0x06, 0x0DC => some 2
  | 0x06, 0x0E0 => some 3
  | 0x06, 0x0D0 => some 4
  | 0x06, 0x0E4 => some 5
  | 0x06, 0x0E8 => some 5
  | 0x06, 0x0F4 => some 6
  | 0x1A, 0x080 => some 1
  | 0x1A, 0x088 => some 2
  | 0x1A, 0x08C => some 2
  | 0x1A, 0x090 => some 3
  | 0x1A, 0x094 => some 4
  | 0x1A, 0x0A4 => some 5
  | 0x07, 0x098 => some 0
  | 0x07, 0x0AC => some 1
  | 0x07, 0x080 => some 2
  | 0x07, 0x0B4 => some 3
  | 0x18, 0x078 => some 1
  | 0x18, 0x07C => some 2
  | 0x18, 0x090 => some 3
  | 0x18, 0x098 => some 4
  | 0x19, 0x0AC => some 1
  | 0x19, 0x0B0 => some 3
  | 0x19, 0x0E4 => some 5
  | 0x19, 0x0EC => some 6
  | 0x1C, 0x0B4 => some 1
  | 0x1C, 0x0A8 => some 2
  | 0x1C, 0x0C0 => some 3
  | 0x1C, 0x0B0 => some 4
  | 0x1C, 0x0E4 => some 5
  | 0x0D, 0x0A0 => some 1
  | 0x0D, 0x0A4 => some 2
  | 0x0D, 0x0A8 => some 4
  | 0x0D, 0x0AC => some 5
  | 0x1D, 0x0A8 => some 1
  | 0x1D, 0x0AC => some 1
  | 0x1D, 0x0B0 => some 1
  | 0x1D, 0x0C4 => some 2
  | 0x1D, 0x0C8 => some 3
  | 0x1D, 0x0B8 => some 4
  | 0x1D, 0x0CC => some 5
  | 0x1D, 0x0D0 => some 6
  | 0x1E, 0x080 => some 0
  | 0x1E, 0x084 => some 1
  | 0x1E, 0x088 => some 2
  | 0x1E, 0x08C => some 3
  | 0x20, 0x0C0 => some 3
  | 0x20, 0x0C4 => some 3
  | 0x20, 0x0D0 => some 5
  | 0x21, 0x0A4 => some 1
  | 0x21, 0x0AC => some 4
  | 0x05, 0x1A8 => some 0
  | 0x05, 0x1AC => some 1
  | 0x05, 0x1B0 => some 2
  | 0x05, 0x1B4 => some 3
  | 0x05, 0x1B8 => some 4
  | 0x05, 0x1CC => some 9
  | 0x05, 0x1D0 => some 9
  | 0x05, 0x1BC => some 10
  | 0x05, 0x1C0 => some 10
  | 0x05, 0x1D8 => some 10
  | 0x24, 0x0E0 => some 1
  | 0x24, 0x0DC => some 3
  | 0x24, 0x0E4 => some 5
  | 0x24, 0x0E8 => some 7
  | 0x24, 0x0B8 => some 8
  | 0x24, 0x0C0 => some 8
  | 0x24, 0x0C8 => some 9
  | 0x24, 0x0D8 => some 10
  | 0x24, 0x0F0 => some 11
  | 0x25, 0x054 => some 0
  | 0x25, 0x058 => some 1
  | 0x25, 0x05C => some 2
  | 0x25, 0x068 => some 3
  | 0x0C, 0x088 => some 1
  | 0x0C, 0x098 => some 2
  | 0x0C, 0x090 => some 3
  | 0x0C, 0x094 => some 4
  | 0x0C, 0x09C => some 5
  | 0x0C, 0x0A4 => some 7
  | 0x02, 0x0B4 => some 1
  | 0x02, 0x0AC => some 2
  | 0x02, 0x0A8 => some 3
  | 0x02, 0x0BC => some 4
  | 0x03, 0x08C => some 1
  | 0x03, 0x090 => some 2
  | 0x01, 0x080 => some 2
  | 0x01, 0x084 => some 3
  | 0x01, 0x08C => some 4
  | 0x0B, 0x098 => some 0
  | 0x0B, 0x0A0 => some 1
  | 0x0B, 0x0A4 => some 2
  | 0x0B, 0x0B4 => some 4
  | 0x0B, 0x0BC => some 5
  | 0x0B, 0x0C4 => some 6
  | 0x0B, 0x09C => some 7
  | 0x0B, 0x0CC => some 8
  | 0x0B, 0x0C8 => some 8
  | 0x08, 0x060 => some 2
  | 0x0A, 0x074 => some 0
  | 0x0A, 0x078 => some 1
  | 0x0A, 0x07C => some 2
  | 0x28, 0x084 => some 0
  | 0x28, 0x08C => some 1
  | 0x28, 0x088 => some 2
  | 0x28, 0x068 => some 4
  | 0x28, 0x080 => some 5
  | 0x28, 0x094 => some 6
  | _, _ => none

/-- Whether an offset of a page is a counter that COUNT_CTL.CLR_ALL and a block soft reset clear. -/
def isCounter (ty off : Nat) : Bool :=
  match ty with
  | 0x01 => (0x074 ≤ off && off ≤ 0x08C)
  | 0x02 => (0x0A0 ≤ off && off ≤ 0x0C4)
  | 0x03 => (0x08C ≤ off && off ≤ 0x098)
  | 0x04 => (0x088 ≤ off && off ≤ 0x090)
  | 0x05 => (0x1A0 ≤ off && off ≤ 0x1D8)
  | 0x06 => (0x0C0 ≤ off && off ≤ 0x0F8)
  | 0x07 => (0x080 ≤ off && off ≤ 0x0B4)
  | 0x08 => (0x060 ≤ off && off ≤ 0x068)
  | 0x09 => (0x088 ≤ off && off ≤ 0x094)
  | 0x0A => (0x074 ≤ off && off ≤ 0x080)
  | 0x0B => (0x098 ≤ off && off ≤ 0x0CC)
  | 0x0C => (0x070 ≤ off && off ≤ 0x0A4)
  | 0x0D => (0x090 ≤ off && off ≤ 0x0AC)
  | 0x10 => (0x088 ≤ off && off ≤ 0x0C4)
  | 0x11 => (0x09C ≤ off && off ≤ 0x0F8)
  | 0x12 => (0x0C4 ≤ off && off ≤ 0x104)
  | 0x13 => (0x0E0 ≤ off && off ≤ 0x130)
  | 0x18 => (0x050 ≤ off && off ≤ 0x098)
  | 0x19 => (0x090 ≤ off && off ≤ 0x0EC)
  | 0x1A => (0x070 ≤ off && off ≤ 0x0A4)
  | 0x1C => (0x090 ≤ off && off ≤ 0x0E8)
  | 0x1D => (0x090 ≤ off && off ≤ 0x0D0)
  | 0x1E => (0x080 ≤ off && off ≤ 0x08C)
  | 0x20 => (0x0A8 ≤ off && off ≤ 0x0D0)
  | 0x21 => (0x098 ≤ off && off ≤ 0x0AC)
  | 0x24 => (0x0B0 ≤ off && off ≤ 0x0F0)
  | 0x25 => (0x054 ≤ off && off ≤ 0x05C) || (0x068 ≤ off && off ≤ 0x068)
  | 0x28 => (0x068 ≤ off && off ≤ 0x094)
  | _ => false

/-- The four classes of R435, in rising order. -/
inductive EClass where
  | notice | corrected | severe | fatal
  deriving DecidableEq, Repr

/-- The default class of an error source (the error tables of the chapters); none for a code no table lists. -/
def defaultClass (ty src : Nat) : Option EClass :=
  match ty, src with
  | 0x10, 1 => some .corrected
  | 0x10, 2 => some .severe
  | 0x10, 3 => some .notice
  | 0x10, 4 => some .severe
  | 0x10, 5 => some .notice
  | 0x11, 1 => some .corrected
  | 0x11, 2 => some .severe
  | 0x11, 3 => some .severe
  | 0x11, 4 => some .notice
  | 0x11, 5 => some .severe
  | 0x11, 6 => some .notice
  | 0x13, 1 => some .corrected
  | 0x13, 2 => some .severe
  | 0x13, 3 => some .notice
  | 0x13, 4 => some .severe
  | 0x13, 5 => some .notice
  | 0x12, 1 => some .corrected
  | 0x12, 2 => some .severe
  | 0x12, 3 => some .severe
  | 0x12, 4 => some .notice
  | 0x06, 1 => some .corrected
  | 0x06, 2 => some .severe
  | 0x06, 3 => some .severe
  | 0x06, 4 => some .fatal
  | 0x06, 5 => some .notice
  | 0x06, 6 => some .notice
  | 0x1A, 1 => some .corrected
  | 0x1A, 2 => some .severe
  | 0x1A, 3 => some .severe
  | 0x1A, 4 => some .severe
  | 0x1A, 5 => some .notice
  | 0x1A, 6 => some .severe
  | 0x1A, 7 => some .notice
  | 0x07, 1 => some .corrected
  | 0x07, 2 => some .severe
  | 0x07, 3 => some .severe
  | 0x07, 4 => some .severe
  | 0x07, 5 => some .fatal
  | 0x18, 1 => some .corrected
  | 0x18, 2 => some .severe
  | 0x18, 3 => some .notice
  | 0x18, 4 => some .severe
  | 0x19, 1 => some .corrected
  | 0x19, 2 => some .severe
  | 0x19, 3 => some .severe
  | 0x19, 4 => some .notice
  | 0x1C, 1 => some .corrected
  | 0x1C, 2 => some .severe
  | 0x1C, 3 => some .severe
  | 0x1C, 4 => some .notice
  | 0x1C, 5 => some .notice
  | 0x0D, 1 => some .corrected
  | 0x0D, 2 => some .severe
  | 0x0D, 3 => some .severe
  | 0x0D, 4 => some .notice
  | 0x0D, 5 => some .notice
  | 0x1D, 1 => some .corrected
  | 0x1D, 2 => some .severe
  | 0x1D, 3 => some .severe
  | 0x1D, 4 => some .notice
  | 0x1D, 5 => some .notice
  | 0x1E, 1 => some .corrected
  | 0x1E, 2 => some .severe
  | 0x1E, 3 => some .severe
  | 0x20, 1 => some .corrected
  | 0x20, 2 => some .severe
  | 0x20, 3 => some .notice
  | 0x20, 4 => some .notice
  | 0x20, 5 => some .notice
  | 0x21, 1 => some .severe
  | 0x21, 2 => some .notice
  | 0x05, 1 => some .severe
  | 0x05, 2 => some .corrected
  | 0x05, 3 => some .notice
  | 0x05, 4 => some .fatal
  | 0x24, 1 => some .corrected
  | 0x24, 2 => some .notice
  | 0x24, 3 => some .notice
  | 0x24, 4 => some .severe
  | 0x24, 5 => some .severe
  | 0x24, 6 => some .severe
  | 0x24, 7 => some .notice
  | 0x25, 1 => some .corrected
  | 0x25, 2 => some .severe
  | 0x25, 3 => some .notice
  | 0x0C, 1 => some .corrected
  | 0x0C, 2 => some .severe
  | 0x0C, 3 => some .severe
  | 0x0C, 4 => some .severe
  | 0x0C, 5 => some .severe
  | 0x0C, 6 => some .severe
  | 0x0C, 7 => some .notice
  | 0x0C, 8 => some .notice
  | 0x0C, 9 => some .notice
  | 0x02, 1 => some .corrected
  | 0x02, 2 => some .severe
  | 0x02, 3 => some .notice
  | 0x02, 4 => some .notice
  | 0x01, 1 => some .corrected
  | 0x01, 2 => some .notice
  | 0x01, 3 => some .fatal
  | 0x0B, 1 => some .corrected
  | 0x0B, 2 => some .severe
  | 0x0B, 3 => some .severe
  | 0x0B, 4 => some .notice
  | 0x08, 1 => some .fatal
  | 0x08, 2 => some .severe
  | 0x08, 3 => some .severe
  | 0x08, 4 => some .notice
  | 0x09, 1 => some .fatal
  | 0x09, 2 => some .severe
  | 0x09, 3 => some .severe
  | 0x09, 4 => some .notice
  | 0x09, 5 => some .fatal
  | 0x0A, 1 => some .notice
  | 0x0A, 2 => some .notice
  | 0x0A, 3 => some .severe
  | 0x28, 1 => some .corrected
  | 0x28, 2 => some .severe
  | 0x28, 3 => some .severe
  | 0x28, 4 => some .notice
  | 0x04, 1 => some .notice
  | 0x03, 1 => some .corrected
  | 0x03, 2 => some .notice
  | 0x03, 3 => some .notice
  | _, _ => none

/-- Offsets of the _LO halves of the 64-bit quantities of a page (R11); the four excluded pairs are not here. -/
def pairLo (ty : Nat) : List Nat :=
  match ty with
  | 0x01 => [0x05C, 0x06C]
  | 0x02 => [0x04C, 0x064, 0x0A0]
  | 0x03 => [0x050, 0x068, 0x07C]
  | 0x04 => [0x044, 0x04C, 0x070, 0x078, 0x088]
  | 0x05 => [0x048, 0x050, 0x058, 0x08C, 0x0CC, 0x094, 0x0D4, 0x100, 0x10C, 0x118, 0x124, 0x140, 0x150, 0x160, 0x170, 0x180, 0x18C, 0x1A0]
  | 0x06 => [0x050, 0x0C0, 0x0C8]
  | 0x07 => [0x068]
  | 0x08 => [0x048]
  | 0x09 => [0x078]
  | 0x0B => [0x08C, 0x0A8]
  | 0x0C => [0x068, 0x070, 0x078, 0x080]
  | 0x0D => [0x050, 0x090, 0x098]
  | 0x10 => [0x050, 0x078, 0x088, 0x090, 0x098]
  | 0x11 => [0x050, 0x06C, 0x0A0, 0x0A8, 0x0B0]
  | 0x12 => [0x050]
  | 0x13 => [0x050, 0x0E0, 0x0E8, 0x0F0, 0x0F8]
  | 0x18 => [0x050, 0x058, 0x060, 0x068, 0x070]
  | 0x19 => [0x048, 0x058, 0x060, 0x090, 0x098, 0x0A0]
  | 0x1A => [0x050, 0x070, 0x078]
  | 0x1C => [0x050, 0x090, 0x098]
  | 0x1D => [0x050, 0x090, 0x098, 0x0A0]
  | 0x1E => [0x05C, 0x078]
  | 0x20 => [0x050, 0x0A8]
  | 0x21 => [0x050, 0x080, 0x098]
  | 0x24 => [0x050, 0x074, 0x084, 0x0B0]
  | 0x28 => [0x068, 0x070, 0x078]
  | _ => []

end Sys2Proof.Machine
end

