-- ==== Sys2Proof/Config.lean ====
section
/-! DEFINITION. What the spec leaves to an implementation or to a named outside standard: constants with no body, so
that nothing can be proved of the value they take, and the free values. (DESIGN CHOICE, log entries 1 and 10; the Navigators' own choices PRESUMED, log entry 60.) -/

namespace Sys2Proof.Config

/-- A value the spec leaves open: the k-th free value, of w bits (log entry 1). `State.fresh` supplies k. -/
opaque freeBits (w k : Nat) : BitVec w

/-- The DRBG's k-th output of n bytes (R228; the generator is not given): a free value. -/
opaque drbg (n k : Nat) : Bytes

/-- What the privileged specification leaves to a core and R359 does not settle: the read-only identity CSRs by number,
whether mtval keeps its value on an exception of a cause, and the custom interrupt taken first of those pending. -/
opaque navIdCsr (csr : Nat) : BitVec 64
opaque navMtvalKept (cause : Nat) : Bool
opaque navIrqFirst (mask : Nat) : Nat

/-- SHA-384 (48 bytes). -/
opaque sha384 (msg : Bytes) : Bytes

/-- AES-GCM encryption: ciphertext and 16-byte tag, from key, 12-byte IV, additional data and plaintext. -/
opaque gcmEnc (key iv aad pt : Bytes) : Bytes × Bytes

/-- AES-GCM decryption: the plaintext, or none where the tag does not fit. -/
opaque gcmDec (key iv aad ct tag : Bytes) : Option Bytes

/-- n bytes of AES-CTR keystream under key and IV from counter block 2, as GCM uses for its payload (R48). -/
opaque ctrStream (key iv : Bytes) (n : Nat) : Bytes

/-- AES-256-XTS of one 64-byte data unit under K1 and K2 with a 128-bit tweak value (IEEE 1619), and its inverse. -/
opaque xtsEnc (k1 k2 : Bytes) (tweak : Nat) (d : Bytes) : Bytes
opaque xtsDec (k1 k2 : Bytes) (tweak : Nat) (d : Bytes) : Bytes

/-- AES-CMAC (16 bytes). -/
opaque cmac (key msg : Bytes) : Bytes

/-- AES key wrap of RFC 3394 and its inverse. -/
opaque keyWrap (kek k : Bytes) : Bytes
opaque keyUnwrap (kek w : Bytes) : Option Bytes

/-- HKDF-Extract and HKDF-Expand on SHA-384. -/
opaque hkdfExtract (salt ikm : Bytes) : Bytes
opaque hkdfExpand (prk info : Bytes) (n : Nat) : Bytes

/-- The MKA key derivation of IEEE 802.1X: label, CAK, context, output bytes. -/
opaque mkaKdf (cak label context : Bytes) (n : Nat) : Bytes

/-- ECDSA P-384 with SHA-384: public point (97 bytes) of a scalar, signature (96 bytes), verification. -/
opaque p384Pub (priv : Bytes) : Bytes
opaque p384Sign (priv msg : Bytes) (k : Nat) : Bytes
opaque p384Verify (pub msg sig : Bytes) : Bool
/-- Whether 97 bytes are an uncompressed point on P-384. -/
opaque p384OnCurve (pt : Bytes) : Bool
/-- ECDH P-384 shared secret. -/
opaque p384Dh (priv pub : Bytes) : Bytes

/-- ML-KEM-1024: encapsulation key of a seed, encapsulation with randomness (ciphertext, secret), decapsulation,
and the check of an encapsulation key. -/
opaque kemPub (seed : Bytes) : Bytes
opaque kemEnc (ek rnd : Bytes) : Bytes × Bytes
opaque kemDec (seed ct : Bytes) : Bytes
opaque kemEkOk (ek : Bytes) : Bool

/-- The 336 parity bytes of the LDPC mother code of ITU-T G.9804.2 for 1,824 information bytes (R61). -/
opaque ldpcParity (info : Bytes) : Bytes

/-- The 1,824 information bytes to which the decoder of that code corrects 2,160 received bytes that are no codeword; none for an
uncorrectable codeword. The spec does not say which errors are corrected. -/
opaque ldpcFix (received : Bytes) : Option Bytes

/-- The half-pipe (0 or 1) that the hash of R16 gives an 800GbE port's frame of a domain and destination MAC. -/
opaque halfPipeHash (domain mac : Nat) : Nat

/-- What the checks of R171 read from a DER X.509 v3 certificate (RFC 5280): the signed part, the signature (r and s), the
subject's P-384 point, the validity period in seconds of UTC from the PTP epoch, the serialNumber attributes of the
subject, keyUsage digitalSignature, cA TRUE, and a critical extension beyond those R171 allows. -/
structure Cert where
  tbs : Bytes
  sig : Bytes
  pub : Bytes
  notBefore : Int
  notAfter : Int
  serials : List Bytes
  digSig : Bool
  ca : Bool
  badCrit : Bool
  deriving DecidableEq, Repr

/-- A certificate read from DER (RFC 5280), none where it is not an X.509 v3 certificate with an ecdsa-with-SHA384
signature and a P-384 subject key. -/
opaque certOf (der : Bytes) : Option Cert

/-- HMAC-SHA-384 (48 bytes). -/
opaque hmac384 (key msg : Bytes) : Bytes

/-- Lodestone decoding (R476): the 786 message bits from array response and code offset, or none. -/
opaque lodestoneDecode (response offset : Bytes) : Option Bytes

/-- The 7,650 code bits of 786 message bits (R476): BCH(255,131) with 5-fold repetition. -/
opaque lodestoneCode (m : Bytes) : Bytes

/-- Reduction of 56 derived bytes to a P-384 scalar by the extra-random-bits method of FIPS 186-5 (R481). -/
opaque p384Scalar (b : Bytes) : Bytes

end Sys2Proof.Config
end

