-- ==== Sys2Proof/Machine/Table.lean ====
section
/-! DEFINITION. Sparse tables: the plain-data form of every indexed state of the block (register file, record tables,
memories). A table lists (key, value) pairs with keys strictly rising and no value equal to the one an unlisted key
reads as, so equal tables are equal lists. -/

namespace Sys2Proof.Machine

/-- A sparse table from Nat keys to values. -/
abbrev Tbl (α : Type) := List (Nat × α)

/-- The value listed at a key. -/
def Tbl.find {α : Type} (k : Nat) : Tbl α → Option α
  | [] => none
  | (k', v) :: t => if k = k' then some v else Tbl.find k t

/-- The value at a key; `d` gives what an unlisted key reads as. -/
def Tbl.getD {α : Type} (d : Nat → α) (t : Tbl α) (k : Nat) : α :=
  match t.find k with
  | some v => v
  | none => d k

/-- Remove a key. -/
def Tbl.erase {α : Type} (k : Nat) : Tbl α → Tbl α
  | [] => []
  | (k', v) :: t => if k = k' then Tbl.erase k t else (k', v) :: Tbl.erase k t

/-- List a value at a key, keeping the keys in rising order. -/
def Tbl.insert {α : Type} (k : Nat) (v : α) : Tbl α → Tbl α
  | [] => [(k, v)]
  | (k', v') :: t =>
    if k < k' then (k, v) :: (k', v') :: t
    else if k = k' then (k, v) :: t
    else (k', v') :: Tbl.insert k v t

/-- Write a key: a value equal to what an unlisted key reads as removes the entry. -/
def Tbl.setD {α : Type} [DecidableEq α] (d : Nat → α) (t : Tbl α) (k : Nat) (v : α) : Tbl α :=
  if v = d k then t.erase k else t.insert k v

/-- Every listed key is above `b`, and the keys rise. -/
def Tbl.above {α : Type} (b : Nat) : Tbl α → Bool
  | [] => true
  | (k, _) :: t => decide (b < k) && Tbl.above k t

/-- Keys rise strictly. -/
def Tbl.sorted {α : Type} : Tbl α → Bool
  | [] => true
  | (k, _) :: t => Tbl.above k t

/-- The canonical form: keys rise strictly and no listed value is the one an unlisted key reads as. -/
def Tbl.wf {α : Type} [DecidableEq α] (d : Nat → α) (t : Tbl α) : Bool :=
  t.sorted && t.all fun p => decide (p.2 ≠ d p.1)

/-- The reading with one default for every key. -/
def Tbl.get {α : Type} (d : α) (t : Tbl α) (k : Nat) : α := t.getD (fun _ => d) k

/-- The write with one default for every key. -/
def Tbl.set {α : Type} [DecidableEq α] (d : α) (t : Tbl α) (k : Nat) (v : α) : Tbl α := t.setD (fun _ => d) k v

/-- Keep the entries whose key and value meet a test. -/
def Tbl.keep {α : Type} (p : Nat → α → Bool) (t : Tbl α) : Tbl α := t.filter fun e => p e.1 e.2

/-- Change every listed value; a value that becomes the unlisted one leaves the table. -/
def Tbl.mapV {α : Type} [DecidableEq α] (d : Nat → α) (f : Nat → α → α) (t : Tbl α) : Tbl α :=
  (t.map fun p => (p.1, f p.1 p.2)).filter fun p => decide (p.2 ≠ d p.1)

/-- Memory: bytes by address; an unlisted byte reads 0 (see the log). -/
abbrev Memory := Tbl Byte

/-- What a byte of memory that nothing has written reads as (log entry 5). -/
def unwritten : Byte := 0

/-- Read one byte. (DESIGN CHOICE, log entry 5) -/
def Memory.read (m : Memory) (a : Nat) : Byte := Tbl.get unwritten m a

/-- Write one byte. (DESIGN CHOICE, log entry 5) -/
def Memory.write (m : Memory) (a : Nat) (b : Byte) : Memory := Tbl.set unwritten m a b

/-- The canonical form of a memory. -/
def Memory.wf (m : Memory) : Bool := Tbl.wf (fun _ => unwritten) m

/-- Read `n` bytes from an address upward. -/
def Memory.readN (m : Memory) (a : Nat) : Nat → Bytes
  | 0 => []
  | n + 1 => m.read a :: Memory.readN m (a + 1) n

/-- Write bytes from an address upward. -/
def Memory.writeN (m : Memory) (a : Nat) : Bytes → Memory
  | [] => m
  | b :: bs => Memory.writeN (m.write a b) (a + 1) bs

end Sys2Proof.Machine
end

