-- ==== Sys2Proof/Machine/Bits.lean ====
section
/-! DEFINITION. Bit fields, byte order, two's complement and the CRCs of the spec (R12, R38, R50, R260, R361, R424). -/

namespace Sys2Proof.Machine

/-- Bits lo to lo + w − 1 of a number. -/
def bitsOf (v lo w : Nat) : Nat := v / 2 ^ lo % 2 ^ w

/-- A number with bits lo to lo + w − 1 replaced. -/
def setBitsOf (v lo w x : Nat) : Nat := v - bitsOf v lo w * 2 ^ lo + x % 2 ^ w * 2 ^ lo

/-- One bit of a number. -/
def bitOf (v i : Nat) : Bool := v / 2 ^ i % 2 == 1

/-- A number with one bit set or cleared. -/
def setBitOf (v i : Nat) (b : Bool) : Nat := setBitsOf v i 1 (if b then 1 else 0)

/-- A number limited to a range. -/
def clampNat (lo hi v : Nat) : Nat := if v < lo then lo else if hi < v then hi else v

/-- An integer limited to a range. -/
def clampInt (lo hi v : Int) : Int := if v < lo then lo else if hi < v then hi else v

/-- ⌈a ÷ b⌉. -/
def ceilDiv (a b : Nat) : Nat := (a + b - 1) / b

/-- Two's complement reading of a w-bit field. -/
def toSigned (w v : Nat) : Int := if 2 * v < 2 ^ w then (v : Int) else (v : Int) - 2 ^ w

/-- Two's complement w-bit field of an integer. -/
def ofSigned (w : Nat) (i : Int) : Nat := (i % 2 ^ w).toNat

/-- The ASCII bytes of a label. -/
def ascii (l : String) : Bytes := l.toList.map fun c => BitVec.ofNat 8 c.toNat

/-- Most significant byte first (R12). -/
def beNat (bs : Bytes) : Nat := bs.foldl (fun a b => a * 256 + b.toNat) 0

/-- `n` bytes, most significant first (R12). -/
def toBE (n v : Nat) : Bytes := (List.range n).map fun i => BitVec.ofNat 8 (v / 256 ^ (n - 1 - i))

/-- Least significant byte first: registers and descriptors in host memory (R12). -/
def leNat : Bytes → Nat
  | [] => 0
  | b :: bs => b.toNat + 256 * leNat bs

/-- `n` bytes, least significant first. -/
def toLE : Nat → Nat → Bytes
  | 0, _ => []
  | n + 1, v => BitVec.ofNat 8 v :: toLE n (v / 256)

/-- Bytes i to i + n − 1 of a string; bytes past the end read 0. -/
def sliceB (bs : Bytes) (i n : Nat) : Bytes :=
  let s := (bs.drop i).take n
  s ++ List.replicate (n - s.length) 0

/-- The big-endian field at bytes i to i + n − 1. -/
def beAt (bs : Bytes) (i n : Nat) : Nat := beNat (sliceB bs i n)

/-- The little-endian field at bytes i to i + n − 1. -/
def leAt (bs : Bytes) (i n : Nat) : Nat := leNat (sliceB bs i n)

/-- The bits of a byte, most significant first. -/
def byteBits (b : Byte) : List Bool := (List.range 8).map fun i => b.getLsbD (7 - i)

/-- XOR of two byte strings, byte by byte, over the shorter. -/
def xorB (a b : Bytes) : Bytes := List.zipWith (fun x y => x ^^^ y) a b

/-- One step of a most-significant-bit-first CRC register of width w. -/
def crcBitMsb (w poly st : Nat) (bit : Bool) : Nat :=
  let top := st / 2 ^ (w - 1) % 2 == 1
  let sh := st * 2 % 2 ^ w
  if top != bit then sh ^^^ poly else sh

/-- A most-significant-bit-first CRC over bytes. -/
def crcMsb (w poly : Nat) (st : Nat) (bs : Bytes) : Nat :=
  bs.foldl (fun a b => (byteBits b).foldl (fun x c => crcBitMsb w poly x c) a) st

/-- One byte of a reflected CRC register. -/
def crcByteRefl (poly : Nat) (st : Nat) (b : Byte) : Nat :=
  (List.range 8).foldl (fun x _ => if x % 2 == 1 then x / 2 ^^^ poly else x / 2) (st ^^^ b.toNat)

/-- A reflected CRC over bytes. -/
def crcRefl (poly : Nat) (st : Nat) (bs : Bytes) : Nat := bs.foldl (crcByteRefl poly) st

/-- CRC-32 of R260 (IEEE 802.3), init and final XOR all ones. -/
def crc32 (bs : Bytes) : Nat := crcRefl 0xEDB88320 0xFFFFFFFF bs ^^^ 0xFFFFFFFF

/-- CRC-32C of R38, init and final XOR all ones. -/
def crc32c (bs : Bytes) : Nat := crcRefl 0x82F63B78 0xFFFFFFFF bs ^^^ 0xFFFFFFFF

/-- CRC-16 of R50: polynomial 0x1021, init all ones, most significant bit first. -/
def crc16 (bs : Bytes) : Nat := crcMsb 16 0x1021 0xFFFF bs

/-- The scrambler of R60: x^58 + x^39 + 1 run from a 58-bit seed. Returns bits b(58) onward as `n` bytes, the first
bit in the most significant place of the first byte. The register's bit i holds b(k + i). -/
def scrBits : Nat → Nat → List Bool
  | 0, _ => []
  | n + 1, st =>
    let b := (bitOf st 0 != bitOf st 19)
    b :: scrBits n (st / 2 + (if b then 2 ^ 57 else 0))

/-- Bits packed into bytes, most significant bit first. -/
def packBits : List Bool → Bytes
  | b0 :: b1 :: b2 :: b3 :: b4 :: b5 :: b6 :: b7 :: rest =>
    let v (b : Bool) (i : Nat) : Nat := if b then 2 ^ i else 0
    BitVec.ofNat 8 (v b0 7 + v b1 6 + v b2 5 + v b3 4 + v b4 3 + v b5 2 + v b6 1 + v b7 0) :: packBits rest
  | _ => []

end Sys2Proof.Machine
end

