-- ==== Sys2Proof/Machine/State.lean ====
section
/-! DEFINITION. The state of the block: every register page, table, queue, counter, mode and pin the spec names, as
plain data (INVENTORY.md lists each with its rule). A field that a register shows and nothing else holds lives in the
register file `regs`; everything else is named here. -/

namespace Sys2Proof.Machine

/-- A register's own word, or the reset value of R7: the parts of R4. -/
inductive Part where
  | bv3232 | bv3216 | bv3200
  deriving DecidableEq, Repr

/-- Why a command stops the block with a fault. No meaning of this model raises one: every command of the table has an
effect, or none that changes the state. -/
inductive Fault where
  /-- Raised by nobody: kept so that the type names the case of an internal state no rule describes; safe. -/
  | noRule
  deriving DecidableEq, Repr

/-- Why a command is not carried out. -/
inductive Refusal where
  /-- Raised by `exec` for a row that has no meaning yet; safe. -/
  | notModelled (mnemonic : String)
  deriving DecidableEq, Repr

/-! ## The 64-bit pairs of R11 -/

/-- Shadows and held halves of the 64-bit quantities, by master and address of the _HI half (key master × 2^28 +
address). Master 0 is the host, 1 to 8 are command rings 0 to 7, 9 is the Eyepiece. -/
structure PairRegs where
  shadow : Tbl Word
  held : Tbl (Option Word)
  deriving DecidableEq, Repr

/-! ## The Binnacle (R437, R446) -/

/-- One source's open escalation window: events counted, and the core tick (`TimeS.tickNo`) at whose boundary it
closes. -/
structure EscWin where
  count : Nat
  closes : Nat
  deriving DecidableEq, Repr

/-- An event that found a capture held: its core cycle, the words a capture of it has, and how many there were in the cycle. -/
structure LateEv where
  at_ : Nat
  word : Nat
  lo : Nat
  hi : Nat
  n : Nat
  deriving DecidableEq, Repr

/-- The Binnacle's own state beyond its registers. -/
structure BinS where
  /-- Escalation windows by page key × 32 + source. -/
  wins : Tbl EscWin
  /-- Page types whose first SEVERE event since a cold reset has its Logbook entry (R446). -/
  sevLogged : List Nat
  /-- In the present core tick: a SEVERE event (R457), and an overrun of TTX, ORR or QSCH. -/
  sevTick : Bool
  ovrTick : Bool
  /-- In the present core tick: a navigator was lost, and the active domain had VALID 0. -/
  lostTick : Bool
  invTick : Bool
  /-- The first event of a core cycle that found a capture held, by page, and under 65536 the one that found the device-wide record held:
  a release in the same cycle captures it afresh (R438, R449). -/
  late : Tbl LateEv
  deriving DecidableEq, Repr

/-! ## The host interface (R409 to R423) -/

/-- A shared window. -/
structure Win where
  base : Nat
  pages : Nat
  en : Bool
  rd : Bool
  wr : Bool
  deriving DecidableEq, Repr

/-- A ring of R411. -/
structure Ring where
  offset : Nat
  window : Nat
  log2 : Nat
  cq : Nat
  vector : Nat
  coalCnt : Nat
  coalUs : Nat
  en : Bool
  err : Bool
  devIdx : Nat
  bellIdx : Nat
  handed : Nat
  lastSeq : Nat
  /-- Items written since the last message of the ring's vector (R422). -/
  unsig : Nat
  /-- The ring's request (R422). -/
  req : Bool
  /-- Descriptors the device holds, as read: handed over by the host and not yet consumed, or given and not filled. -/
  desc : List Bytes
  /-- The span told by the doorbell ended at a descriptor with OWN 0 (R412). -/
  stalled : Bool
  /-- The command at the head: 0 not begun, 1 waits for BUSY before it begins, 2 waits for BUSY to fall (R415); the core cycle
  since when; and, after a host-interface fault, the SEQ and the command register of a block operation that goes on (R416). -/
  waiting : Nat
  waitAt : Nat
  orphan : Option (Nat × Nat)
  /-- A completion waits for a given descriptor (R417). -/
  compl : Option Bytes
  /-- Injection: descriptors handed to the parser or refused and not yet written back: slot, descriptor, result (STATUS, egress
  time) (R420). -/
  inj : List (Nat × Bytes × Option (Nat × Option Nat))
  /-- The core cycle of the first item not yet signalled (R422), and how often the ring has been enabled. -/
  unsigAt : Nat
  gen : Nat
  deriving DecidableEq, Repr

/-- One MSI-X vector (R423). -/
structure Vec where
  req : Bool
  outstanding : Bool
  masked : Bool
  pba : Bool
  sent : Nat
  deriving DecidableEq, Repr

/-- The host interface's state beyond its registers. -/
structure HifS where
  wins : Tbl Win
  rings : Tbl Ring
  /-- ROUTE_DATA by page key (type × 256 + instance): vector in [7:0], EN in [8]. -/
  routes : Tbl Nat
  vecs : Tbl Vec
  msixEn : Bool
  linkUp : Bool
  /-- PERST_N is asserted. (log entry 114) -/
  perst : Bool
  /-- Host memory as the device has written it, by host address. -/
  mem : Memory
  /-- The words of the last multi-register or debug read (R406, R495). -/
  readBack : List Word
  deriving DecidableEq, Repr

/-- A CRC unit (R424): the state register, and whether a parity error has spoilt it (R432). -/
structure CrcS where
  st : Nat
  bad : Bool
  deriving DecidableEq, Repr

/-- A snapshot latched and not yet written (R425): its stamp, its SEQ, the core tick of the latch, and the words of each page, in
increasing BAR0 address. -/
structure Snap where
  stamp : Nat
  seq : Nat
  tick : Nat
  words : List (Nat × List Nat)
  deriving DecidableEq, Repr

/-- The PMC (R425). -/
structure PmcS where
  seq : Nat
  /-- Ticks since EN was set, counted while free ticking. -/
  freeTicks : Nat
  /-- The core tick of the last snapshot. -/
  last : Nat
  latch : Option Snap
  /-- Pages whose latch words have met an uncorrectable error (R434). -/
  bad : List Nat
  deriving DecidableEq, Repr

/-! ## Lodestone, life cycle, tamper, debug (R475 to R503) -/

/-- The life-cycle states of R479, and an LCS code outside the table. -/
inductive Life where
  | blank | factory | field | ret | scrap | invalid
  deriving DecidableEq, Repr

/-- HELPER (R476): blank, every bit set, or the word mask, code offset and CHECK. -/
inductive Helper where
  | blank
  | full
  | data (mask offset check : Bytes)
  deriving DecidableEq, Repr

/-- The OTP fields of R475. -/
structure Otp where
  lcState : Nat
  div : Tbl (Option Nat)
  helper : Helper
  rootHash : Option Bytes
  imageKey : Tbl (Option Bytes)
  revoked : Nat
  subsys : Option Nat
  fuse : Nat
  /-- The Logbook's entries, 16 bytes each, in order of programming. -/
  log : List Bytes
  deriving DecidableEq, Repr

/-- The VBAT domain of R483; its TAMP settings stand in the TAMP page's registers. -/
structure Vbat where
  secret : Option Bytes
  sec : Nat
  frac : Nat
  rtcValid : Bool
  slots : List Bytes
  h : Nat
  e : Nat
  /-- The contents have been lost since the last start. -/
  lost : Bool
  deriving DecidableEq, Repr

/-- LCS, TAMP and DBG beyond their registers. -/
structure LcsS where
  otp : Otp
  vbat : Vbat
  life : Life
  /-- The Lodestone root, in its register (R477). -/
  root : Option Bytes
  /-- Logbook entries queued for programming (R492), oldest first. -/
  logQ : List Bytes
  torn : Bool
  /-- LCS_STS.VBAT_LOST: the backup cell had been lost at the last start (R483). -/
  vbatLost : Bool
  /-- The RETURN authority of a token accepted since POR_N (R480). -/
  retToken : Bool
  /-- The main supplies are absent; POR_N is asserted or the main supplies are absent; the hardware sequence of R533 has run
  since. -/
  dark : Bool
  off : Bool
  started : Bool
  /-- Conditions at the last sample (R486). -/
  cond : Nat
  /-- Consecutive samples with the condition, by monitor (R486). -/
  run : Tbl Nat
  /-- Conditions latched by the fast detectors (R486). -/
  latched : Nat
  /-- Monitors whose condition has raised its event and still holds. -/
  raised : Nat
  /-- The monitor under test (R489). -/
  test : Option Nat
  /-- The Eyepiece instruction selected (R493). -/
  ir : Nat
  /-- The unlock in force: SCOPE, and the core tick at which it ends (R496). -/
  unlock : Option (Nat × Nat)
  fails : Nat
  blocked : Bool
  challenge : Bytes
  fifo : List Word
  deriving DecidableEq, Repr

/-! ## Time (R18 to R27, R335 to R350) -/

/-- A pending adjustment of R337: OP SET or ADD, with ADJ_S, ADJ_NS and ADJ_SUBNS. -/
structure Adj where
  set : Bool
  sec : Nat
  ns : Nat
  sub : Nat
  deriving DecidableEq, Repr

/-- A time domain (R335): its counter and elapsed count in units of 2^−32 ns at the core cycle `TimeS.cycle`, the
pending adjustment, the ticks since its last discipline (R338), whether it is in holdover, its ticks in holdover, and
the accuracy it had reached there. -/
structure Dom where
  t : Nat
  el : Nat
  adj : Option Adj
  since : Nat
  hold : Bool
  held : Nat
  acc : Nat
  deriving DecidableEq, Repr

/-- An entry of the two-step match table (R349). -/
structure MatchE where
  domain : Nat
  port : Bytes
  seq : Nat
  kind : Nat
  ingress : Nat
  egress : Nat
  residence : Int
  age : Nat
  deriving DecidableEq, Repr

/-- The actions that are named for a tick (R27). -/
inductive NKind where
  | phase | txSa | tsiPage | navBank | preamble
  deriving DecidableEq, Repr

/-- A pending named-tick action: what, where (instance and index within it), its tick T, and whether it was late when
it was written. -/
structure Named where
  kind : NKind
  inst : Nat
  idx : Nat
  t : Nat
  late : Bool
  deriving DecidableEq, Repr

/-- The meridian count, the tick generator and the Astrolabe. -/
structure TimeS where
  /-- No valid meridian count yet (R26). -/
  free : Bool
  m : Nat
  e : Nat
  ePend : Option Nat
  /-- Core ticks since the start, free or counted. -/
  tickNo : Nat
  /-- Core cycles before the present tick's cycle 0. -/
  base : Nat
  /-- The core cycle within the tick at which the domain counters stand. -/
  cycle : Nat
  /-- The length of the current core tick in cycles (R22). -/
  len : Nat
  /-- The network tick at which the next boundary is placed (R23). -/
  planJ : Nat
  /-- Pending named-tick actions in the order in which they were written (R27). -/
  named : List Named
  doms : Tbl Dom
  /-- The active domain (R339). -/
  active : Nat
  /-- The tick generator is removing a phase error above 40 ns (R22). -/
  slewing : Bool
  /-- The present tick follows a tick step (R22): gap fill and circuit slips apply. -/
  stepped : Bool
  /-- The tick before was longer than a frame because of a tick step. -/
  wasStep : Bool
  /-- By how much the tick before was longer than a frame because of a tick step, in 2^−32 ns: the gap on the lines (R64). -/
  stepGap : Nat
  /-- The part of a one-shot offset that the tree transmitters have still to take up (R63), in 2^−32 ns. -/
  lineErr : Int
  /-- The residual R of R339, in units of 2^−32 ns. -/
  resid : Int
  /-- A switch requested for the next boundary: target and step mode (R340). -/
  swReq : Option (Nat × Bool)
  /-- Compare channels that have fired for their present target (R342). -/
  cmpFired : Nat
  /-- PPS_OUT pulses sent (R343). -/
  ppsOut : Nat
  /-- The core cycle at which the last such pulse began (R343). -/
  ppsAt : Option Nat
  /-- Domain A's elapsed count at the last PPS_IN edge taken (R344). -/
  ppsIn : Option Nat
  /-- Match tables, by slice (R349). -/
  tc : Tbl (List MatchE)
  deriving DecidableEq, Repr

/-! ## The Almanac and the cipher cores (R191 to R228) -/

/-- STATE of an association (R192). -/
inductive AState where
  | invalid | active | stopped
  deriving DecidableEq, Repr

/-- A key position: AK (with MK and WK for a terminal, R164), key length, invocation count, generation, and whether its
USAGE_WARN has been given. -/
structure KPos where
  key : Bytes
  mic : Bytes
  wrap : Bytes
  k256 : Bool
  use : Nat
  kgen : Nat
  warned : Bool
  deriving DecidableEq, Repr

/-- A pending switch (R206): to phase q at tick T, and whether the boundary of T has made q current. -/
structure Sw where
  t : Nat
  q : Nat
  taken : Bool
  deriving DecidableEq, Repr

/-- An association record (R192). -/
structure Assoc where
  st : AState
  fault : Bool
  pin : Bool
  exp : Bool
  usage : Nat
  limit : Nat
  cur : Nat
  p0 : Option KPos
  p1 : Option KPos
  sw : Option Sw
  deriving DecidableEq, Repr

/-- A hot slot (R196, R197): its number in the slice, the association, its hold tick, the stamp of its last use, its key mask, and the keys
of positions 0 and 1 XORed with it, empty where the position holds none. Its attributes and counts are the record's (DESIGN CHOICE, log
entry 111). -/
structure Hot where
  slot : Nat
  ax : Nat
  hold : Nat
  stamp : Nat
  mask : Bytes
  k0 : Bytes
  k1 : Bytes
  deriving DecidableEq, Repr

/-- An open import session (R208): ISK, the last nonce accepted under it, and the blobs accepted. -/
structure Isk where
  key : Bytes
  nonce : Option Nat
  blobs : Nat
  deriving DecidableEq, Repr

/-- A sequence counter of R203: the next SEQ of an AX, tree and IV tick. -/
structure SeqC where
  ax : Nat
  tree : Nat
  tick : Nat
  next : Nat
  deriving DecidableEq, Repr

/-- The Almanac. -/
structure AlmS where
  recs : Tbl Assoc
  /-- Hot slots by slice. -/
  hot : Tbl (List Hot)
  stamp : Nat
  isk : Tbl (Option Isk)
  /-- Tick boundaries until tick-IV invocations resume (R203). -/
  refuse : Nat
  /-- No tick-IV invocation below this tick (R203). -/
  minTick : Nat
  seqs : List SeqC
  /-- Group memberships (R211): multicast group and terminal AX. -/
  members : List (Nat × Nat)
  /-- NAV_WIN_DATA by cluster × 4 + word. -/
  navWin : Tbl Word
  /-- The slot at which each slice's re-mask pass stands, and the tick at which the pass began. -/
  remask : Tbl Nat
  remaskFrom : Nat
  remaskLate : Bool
  /-- The private key bus of each slice (R198): the slot last addressed, its masked key, its mask. -/
  bus : Tbl (Nat × Bytes × Bytes)
  /-- What the Almanac has told the key agent and it has not yet answered: AX and 0 usage warning, 1 stopped with no
  other key, 2 switch failed. -/
  toKa : List (Nat × Nat)
  deriving DecidableEq, Repr

/-- Work held for a key: a downstream unit of a tree, an upstream unit of a tree, an item of its own, or
a trunk frame received or to be sent under a packet number. -/
inductive Work where
  | down (tree : Nat) (flow : Nat) (urg : Bool) (p : Pkt)
  | up (tree ax alloc tick kp pm : Nat) (payload : Bytes)
  | item (it : CItem)
  | rx (port : Nat) (p : Pkt)
  | tx (port an pn : Nat) (p : Pkt)
  /-- The downstream circuit keystream of an owner in a frame, and a circuit unit received, for these slots of its tree. -/
  | stream (tree tick ax : Nat)
  | ckt (tree ax tick kp pm : Nat) (slots : List Nat) (payload : Bytes)
  deriving DecidableEq, Repr

/-- A held item of a miss buffer: its AX, its bytes and the core cycle at which it entered. -/
structure Held where
  ax : Nat
  bytes : Nat
  since : Nat
  work : Work
  deriving DecidableEq, Repr

/-- An item at a core, or its context (R198, R214): the hot slot it was read from, its AX and position, the key whose schedule the core
holds for it, its IV, AAD and data, urgency, the cycles it has still to run, and the downstream unit it is, if any (tree and FLOW). The
counter, the GHASH accumulator, the lengths so far and the unused keystream follow from these (log entry 112). -/
structure CoreJob where
  slot : Nat
  ax : Nat
  pos : Nat
  key : Bytes
  iv : Bytes
  aad : Bytes
  data : Bytes
  urg : Bool
  left : Nat
  unit : Option (Nat × Nat)
  deriving DecidableEq, Repr

/-- A cipher core (R198, R214, R215): the cycle up to which its work is accounted for, the item it runs, the contexts of items that an
urgent one has suspended and of units split at a frame end (4 in all), and the work handed to it after these. -/
structure CoreS where
  upTo : Nat
  run : Option CoreJob
  susp : List CoreJob
  split : List CoreJob
  queue : List CoreJob
  deriving DecidableEq, Repr

/-- A pool of 12 cores (R212 to R216). -/
structure CiphS where
  cores : Tbl CoreS
  /-- The context store (R215), oldest first. -/
  parked : List CoreJob
  miss : List Held
  /-- Results of the last items, in pool order: half-pipe and bytes, none for a failed tag. -/
  out : List (Nat × Option Bytes)
  kat : Bool
  /-- A parity error has been reported: the next item the pool takes is dropped (R225). (DESIGN CHOICE, log entry 113) -/
  drop : Bool
  deriving DecidableEq, Repr

/-! ## Tree downstream (R35 to R71) -/

/-- A control message awaiting its frame: TYPE, DEST, 48-byte body, and its authentication: 0 CRC, 1 MIC under the
generation in effect at the frame, 2 MIC under the outgoing generation (R177, R178). -/
structure CtlMsg where
  type : Nat
  dest : Nat
  body : Bytes
  auth : Nat
  deriving DecidableEq, Repr

/-- A unit begun and not finished (R56): FLOW, KP, urgency, whether a fragment has been sent, the payload bytes left, and
the payload bytes sent. -/
structure TxUnit where
  flow : Nat
  kp : Nat
  urg : Bool
  begun : Bool
  rest : Bytes
  sent : Nat
  deriving DecidableEq, Repr

/-- A frame of a serve list: FLOW, urgency, frame. -/
structure ServeE where
  flow : Nat
  urg : Bool
  pkt : Pkt
  deriving DecidableEq, Repr

/-- The staged sections of a frame (R36): grant-map entries, control messages after the section map message, and the circuit slots
before encryption: byte, the AX that owns it, and whether it has counted as not staged. -/
structure Staged where
  tick : Nat
  entries : List Bytes
  msgs : List CtlMsg
  ckt : List (Byte × Option Nat × Bool)
  page : Nat
  fixedOnly : Bool
  deriving DecidableEq, Repr

/-- One tree transmitter. -/
structure TtxS where
  ctrlQ : List CtlMsg
  /-- The standing map of fixed allocations (R41, R131). -/
  standMap : List Bytes
  /-- A map published for a frame: its tick, FIXED_ONLY, its entries. -/
  mapIn : Option (Nat × Bool × List Bytes)
  staged : Option Staged
  /-- The frame on the line: its staged sections, and its bytes before the unit stream. -/
  cur : Option (Staged × Bytes)
  /-- The unit stream of the frame on the line as placed so far. -/
  units : Bytes
  /-- Units in progress, in the order in which they began (R56). -/
  inProg : List TxUnit
  /-- An urgent unit has cut the unit on the line and comes next (R57). -/
  urgNext : Bool
  serve : List ServeE
  /-- The serve list published for the next frame. -/
  next : List ServeE
  /-- Frames held for the next frame because their SEQ would pass 65,535 (R54), in the order in which they were held. -/
  held : List ServeE
  /-- TICK of the last frame sent since the lanes left electrical idle. -/
  last : Option Nat
  gap : Bool
  /-- 0 electrical idle, 1 gap fill, 2 frames. -/
  line : Nat
  /-- The last frame staged and its U (R286). -/
  lastU : Nat × Nat
  /-- The PAM4 symbols of the frame period that ended last: training burst, gap fill, frame (R61, R62, R64, R65). -/
  symbols : List Nat
  /-- Symbols of the gap-fill sequence sent since it began (R64). -/
  gapAt : Nat
  /-- The lane has left electrical idle by a training burst at the start of the present period (R65). -/
  burst : Bool
  /-- The core tick of becoming active, until the lane has left electrical idle for the frame after it (R461). -/
  wakeAt : Option Nat
  deriving DecidableEq, Repr

/-! ## The Sextant (R138 to R163) -/

/-- The states of R138. -/
inductive TState where
  | init | discovered | ranged | authenticating | operational | quarantined | deactivated
  deriving DecidableEq, Repr

/-- The unacknowledged message of a terminal (R146): TYPE, MSG_SEQ, the message, the core tick it was last sent, retries
made. -/
structure OutMsg where
  type : Nat
  seq : Nat
  msg : CtlMsg
  sentAt : Nat
  tries : Nat
  deriving DecidableEq, Repr

/-- A terminal record (R138). Offsets are kept with 4 fraction bits. -/
structure Term where
  valid : Bool
  vendor : Nat
  serial : Nat
  sni : Nat
  st : TState
  dark : Bool
  keyed : Bool
  reason : Nat
  eqd : Int
  mean : Int
  stby : Int
  /-- WIN_COUNT and the core tick at which the violation window closes. -/
  winCount : Nat
  winCloses : Option Nat
  darkRun : Nat
  /-- V_OUTSIDE, V_LEN, V_HDR, V_CTRL, V_UNAUTH, V_RPT, V_ROGUE. -/
  viol : List Nat
  /-- The kinds for which a VIOL_NOTICE was drawn in the window, and whether a violation in it was rogue (R139, R153). -/
  noticed : List Nat
  rogueIn : Bool
  lastRogue : Option Nat
  lastViol : Nat
  dying : Bool
  nonce : Nat
  /-- The pending change's message has been handed over. -/
  told : Bool
  assignAcked : Bool
  tries : Nat
  nextSeq : Nat
  out : Option OutMsg
  queue : List CtlMsg
  /-- The state the record enters at the next boundary, with REASON and DARK (R139). -/
  pend : Option (TState × Nat × Bool)
  /-- The core tick at which the record entered its state. -/
  since : Nat
  /-- A ranging grant is due, for an upstream tick no earlier than this. -/
  rangeFrom : Option Nat
  /-- A ranging burst heard and not yet evaluated: its upstream tick, its offset where a delimiter was found, and the profile
  word measured (R150). -/
  rangeRes : Option (Nat × Option Int × Nat)
  /-- The ranging grant is a re-ranging one (RERANGE, R151). -/
  reRange : Bool
  /-- The upstream tick of the ranging grant issued and not yet judged. -/
  ranging : Option Nat
  lastPoll : Nat
  /-- Broadcast DEACTIVATE: repeats left, REASON, DARK, and the core tick of the next. -/
  bcast : Option (Nat × Nat × Bool × Nat)
  /-- EQD_SET in flight restarts the mean at this upstream tick (R151). -/
  eqdAt : Option Nat
  /-- An EQD_SET is decided and no frame has carried it yet; its APPLY_UTICK follows from that frame (R150, R151). -/
  eqdWait : Bool
  /-- A new ranging grant waits for the frame that carries EQD_SET (R150). -/
  rangeAfter : Bool
  /-- The last ALLOC_ASSIGN part has been acknowledged (R139). -/
  allocAcked : Bool
  /-- The management key the key agent keeps for DEACTIVATE (R139). -/
  keptMk : Option Bytes
  /-- The frame that carried STATE(OPERATIONAL) (R139). -/
  opFrame : Option Nat
  /-- Two consecutive misses with light draw a ranging grant (R153): misses so far. -/
  missRun : Nat
  /-- The discovery response had CAP bit 0 at 0: no ML-KEM-1024 (R185). -/
  noKem : Bool
  deriving DecidableEq, Repr

/-- An announced discovery window (R147): first upstream tick and geometry. -/
structure Window where
  utick : Nat
  span : Nat
  len : Nat
  slots : Nat
  dslot : Nat
  pdisc : Nat
  eqdDisc : Int
  sni : Option Nat
  /-- VENDOR and SERIAL of the valid responses received. -/
  seen : List (Nat × Nat)
  deriving DecidableEq, Repr

/-- A Sextant entry for a map (R143): KIND, terminal, first block where the Sextant fixes it, length, dark margin, the
earliest upstream tick. -/
structure SxtEnt where
  kind : Nat
  term : Nat
  start : Nat
  len : Nat
  margin : Nat
  utick : Nat
  deriving DecidableEq, Repr

/-- A control unit handed to the Sextant (R101): terminal, upstream tick, first block of the burst, place of the unit's
header in the burst, in a KIND 1 burst the number of control units before it, and the message. -/
structure CtrlIn where
  term : Nat
  utick : Nat
  sblk : Nat
  pos : Nat
  nth : Option Nat
  /-- It came in a ranging burst, which is judged as a ranging try only (R150). -/
  rng : Bool
  msg : Bytes
  deriving DecidableEq, Repr

/-- One Sextant. -/
structure SxtS where
  windows : List Window
  find : Option Nat
  /-- Broadcast and unacknowledged messages for the next frame. -/
  outbox : List CtlMsg
  /-- VIOL_NOTICEs due: core tick judged, terminal, CODE, WIN_COUNT, UTICK (R153, R154). -/
  notices : List (Nat × Nat × Nat × Nat × Nat)
  /-- Control messages judged good and not yet acted on (R153). -/
  good : List CtrlIn
  /-- Core tick at which the rogue window closes, ticks counted in it, and whether ROGUE_SUSPECT was posted. -/
  rogue : Option (Nat × Nat × Bool)
  /-- The core tick of the last unattributed rogue light counted. -/
  rogueTick : Option Nat
  /-- A dark test: FIRST, LAST, UTICK. -/
  darkTest : Option (Nat × Nat × Nat)
  /-- TREE_PARAMS is due because a value in it has changed. -/
  params : Bool
  /-- The values TREE_PARAMS last carried. -/
  sentParams : List Nat
  /-- After becoming active: no outside, length or loss judgement before this upstream tick (R159). -/
  graceTo : Nat
  /-- Control units handed over and not yet judged (R101). -/
  inbox : List CtrlIn
  deriving DecidableEq, Repr

/-! ## Circuits: the interchange (R321 to R334) -/

/-- A connection entry (R322, R332): VALID, SRC, DST, SRC_OWNER, DST_OWNER, DST_TREE, CHAN. -/
structure Conn where
  valid : Bool
  src : Nat
  dst : Nat
  srcOwner : Nat
  dstOwner : Nat
  dstTree : Bool
  chan : Nat
  deriving DecidableEq, Repr

/-- The TSI. -/
structure TsiS where
  /-- Entries by page × 2^18 + index. -/
  conns : Tbl Conn
  /-- Entries with a parity error, by page × 2^18 + index. -/
  badPar : List Nat
  active : Nat
  /-- The tick from which the active page has been active. -/
  since : Nat
  /-- Verification running: the core tick at which it began, T and FORCE. -/
  verify : Option (Nat × Nat × Bool)
  /-- Armed for tick T. -/
  armed : Option Nat
  /-- Unacknowledged CKT_ASSIGN messages, oldest first: (tree × 512 + terminal) × 2 + page, one per part. -/
  opens : List Nat
  /-- Bytes staged for downstream frames, by tree: the frame's tick and its (slot, byte) pairs. -/
  tal : Tbl (Nat × List (Nat × Nat))
  /-- Bytes staged for link frames, by link: the frame's tick and its (byte, value) pairs. -/
  link : Tbl (Nat × List (Nat × Nat))
  /-- Upstream circuit bytes by tree: (tick, slot, byte) of the last ticks. -/
  up : Tbl (List (Nat × Nat × Nat))
  deriving DecidableEq, Repr

/-! ## The Orrery (R110 to R137) -/

/-- A grant-map entry (R128). -/
structure GEnt where
  kind : Nat
  id : Nat
  start : Nat
  len : Nat
  fix : Bool
  poll : Bool
  deriving DecidableEq, Repr

/-- An allocation record and its state (R111, R115, R116, R135). RA and RM are in 1/16 unit, the credits in sixteenths of a
unit; the ledger lists (upstream tick, payload bytes). -/
structure OAlloc where
  valid : Bool
  type : Nat
  slack : Bool
  term : Nat
  weight : Nat
  poll : Nat
  fixStart : Nat
  fixLen : Nat
  ra : Nat
  rm : Nat
  ba : Nat
  bm : Nat
  rptLim : Nat
  occ : Nat
  rtick : Nat
  /-- The latest report has not been used in a map yet (R125). -/
  unused : Bool
  credA : Int
  credM : Int
  ledger : List (Nat × Nat)
  lastLen : Nat
  since : Nat
  deriving DecidableEq, Repr

/-- A pending hint (R118): UTICK 0 is the next map computed. -/
structure Hint where
  alloc : Nat
  op : Nat
  extra : Nat
  utick : Nat
  deriving DecidableEq, Repr

/-- A map computed and not yet published (R121, R122): its entries, its fixed grants, the Sextant entries left out and all of
them, the debits of credits by allocation, and what counts when it is published. -/
structure CMap where
  utick : Nat
  ents : List GEnt
  fixed : List GEnt
  sxtLeft : List SxtEnt
  sxtAll : List SxtEnt
  debits : List (Nat × Int × Int)
  owners : List (Nat × Nat)
  hints : Nat
  /-- Hints of allocations that were in the computation (R119). -/
  used : Nat
  unmet : Nat
  short : Nat
  slack : Nat
  clash : Nat
  loss : Nat
  limit : Nat
  role : Bool
  dark : Nat
  deriving DecidableEq, Repr

/-- One tree of an Orrery. -/
structure OrrT where
  allocs : Tbl OAlloc
  /-- The five pass pointers, as allocation numbers. -/
  ptrs : List Nat
  hints : List Hint
  /-- Sextant entries handed over and not yet taken into a map. -/
  sxtIn : List SxtEnt
  /-- A fail-over poll is due (R133). -/
  rolePoll : Bool
  /-- The core tick (plus 1) of the last computation. -/
  doneAt : Nat
  comp : Option CMap
  /-- Accepted reports not yet handed over (R30): allocation, OCC, upstream tick, in order. -/
  reps : List (Nat × Nat × Nat)
  deriving DecidableEq, Repr

/-! ## Tree upstream (R72 to R109) -/

/-- A published map as TRX keeps it (R95): downstream frame, upstream tick, PM of the granting device, entries, owners of
its allocations when it was computed, the preamble in bytes, the first blocks of the bursts judged, whether this device
computed it, and whether any light of the frame was rogue and unattributed. -/
structure UMap where
  frame : Nat
  utick : Nat
  pm : Nat
  ents : List GEnt
  owners : List (Nat × Nat)
  pre : Nat
  got : List Nat
  own : Bool
  deriving DecidableEq, Repr

/-- A terminal's profile (R91, R92): seed word without VALID; current AMP, THR and PHASE with 4 fraction bits. -/
structure Prof where
  valid : Bool
  seed : Nat
  amp : Int
  thr : Int
  phase : Int
  deriving DecidableEq, Repr

/-- A unit in progress in a reassembly record (R87, R103). -/
structure Reasm where
  tick : Nat
  kp : Nat
  pm : Nat
  payload : Bytes
  deriving DecidableEq, Repr

/-- A replay window (R102): AX and IV tick, HI, and the accepted values as a mask whose bit i is HI − i. -/
structure Replay where
  ax : Nat
  tick : Nat
  hi : Nat
  mask : Nat
  deriving DecidableEq, Repr

/-- One tree receiver. -/
structure TrxS where
  maps : List UMap
  prof : Tbl Prof
  reasm : Tbl Reasm
  replay : List Replay
  /-- The line parameters last loaded for a burst (R90): the profile word in the receiver. -/
  loaded : Nat
  /-- The TREE_BRST pulses of the present upstream frame (R89): first bit time from B(u), and width. -/
  brst : List (Int × Nat)
  /-- Terminals whose circuit unit of an upstream tick has come (R106), with the tick. -/
  cktSeen : List (Nat × Nat)
  deriving DecidableEq, Repr

/-! ## The pair (R454 to R474) -/

/-- A mirror record (R464, R467): its MTYPE and what it carries, as numbers and byte strings. The spec gives the item of
each MTYPE and not its byte layout. -/
structure MRec where
  mtype : Nat
  nums : List Nat
  data : List Bytes
  deriving DecidableEq, Repr

/-- The pair handshake (R465): the ephemeral P-384 scalar and ML-KEM seed, the own HELLO, the peer's, the CT, TH and PK once
they are formed. -/
structure PairHs where
  ec : Bytes
  kem : Bytes
  mine : Bytes
  peer : Option Bytes
  ct : Option Bytes
  th : Bytes
  pk : Option Bytes
  deriving DecidableEq, Repr

/-- PAIR beyond its registers. ROLE_IN: the level at the pin, the core cycle of its last change, the filtered level (R459);
whether the device has yielded and ROLE_IN has not fallen since (R462); whether the role latches disagree (R474). The mate
link: lanes aligned, the handshake, PK, the epoch, the core tick of the last LINK_KEY. The mirror as sender: last MSEQ,
records not acknowledged, last MSEQ sent in a frame, items of the resync still to go, associations whose counts changed, the
time last mirrored, records to go outside the count; as receiver: the highest MSEQ received. The peer: SYNCED of its last frame, HEALTH, M and E of its last
STATUS, the tick of its first ACTIVE frame. The core tick at which the mirror became SYNCED; the core tick since which both
are active, and neither, with whether it has been counted. Frames sent in the last tick, the number of frames sent in this
one, and HB_OUT pulses. -/
structure PairS where
  pin : Bool
  pinAt : Nat
  filt : Bool
  yielded : Bool
  roleErr : Bool
  up : Bool
  hs : Option PairHs
  pk : Option Bytes
  epoch : Nat
  rekeyAt : Nat
  mseq : Nat
  out : List (Nat × MRec)
  sentTo : Nat
  todo : List (Nat × Nat)
  dirty : List Nat
  sentTime : List Nat
  rx : Nat
  peerSynced : Bool
  peerHealth : Nat
  peerM : Nat
  peerE : Nat
  peerSince : Nat
  syncedAt : Nat
  both : Option Nat
  none : Option (Nat × Bool)
  ctl : List MRec
  tx : List Bytes
  hb : Nat
  /-- The core cycle at which the last HB_OUT pulse began (R457). -/
  hbAt : Option Nat
  deriving DecidableEq, Repr

/-! ## The key agent (R164 to R190) -/

/-- A terminal master secret with what its keys are derived from and the meridian count at which it was formed (R175). -/
structure Tms where
  key : Bytes
  heSni : Nat
  tSni : Nat
  born : Nat
  deriving DecidableEq, Repr

/-- An object being received (R169, R170): the TOTAL of its first segment, the segments held, the core tick of the last
segment or status, and whether it has been refused. -/
structure RxObj where
  total : Nat
  segs : Tbl Bytes
  since : Nat
  refused : Bool
  deriving DecidableEq, Repr

/-- An object being sent (R169, R170): its bytes, the sendings begun, the segments still to go, the core tick of the last
segment, and whether STATE 0 has come. -/
structure TxObj where
  data : Bytes
  sendings : Nat
  todo : List Nat
  since : Nat
  done : Bool
  deriving DecidableEq, Repr

/-- An open session (R173) with the parameters and tables it started with (R166, R190). -/
structure Sess where
  mode : Nat
  session : Nat
  opened : Nat
  objWait : Nat
  kxRetry : Nat
  segMax : Nat
  limit : Nat
  /-- TIME_CHECK and UTC_OFFSET as the session found them (R166). -/
  timeCheck : Bool
  utcOff : Int
  heSni : Nat
  anchors : List Bytes
  deny : List Bytes
  chain : Bytes
  nonce : Bytes
  ec : Bytes
  kem : Bytes
  tx : Tbl TxObj
  rx : Tbl RxObj
  /-- KX_START has gone, so that the objects may follow (R173). -/
  started : Bool
  /-- HE_PROOF and KX_DONE have been staged. -/
  verified : Bool
  /-- The first 4 bytes of the terminal leaf's fingerprint, 0 while unknown (R186). -/
  fp : Nat
  deriving DecidableEq, Repr

/-- A KEY_SWITCH announced (R180): KGEN, PHASE, NEW_MASTER, its T once a frame has carried it, whether the boundary of T has
come, whether it is acknowledged, and the outgoing management key, under which every copy of the KEY_SWITCH goes (R178). -/
structure KSw where
  kgen : Nat
  phase : Nat
  newMaster : Bool
  t : Option Nat
  past : Bool
  acked : Bool
  mkey : Bytes
  deriving DecidableEq, Repr

/-- What the key agent keeps for a terminal. -/
structure KaTerm where
  tms : Option Tms
  /-- The master secret of a re-agreement, until its switch is past (R181). -/
  nextTms : Option Tms
  kgen : Nat
  /-- The T of the last switch, or the frame in which it was keyed (R183). -/
  lastSw : Nat
  /-- The meridian count at which a key switch fell due. -/
  dueAt : Option Nat
  /-- A re-agreement is due. -/
  reDue : Bool
  /-- The core tick at which a failed re-agreement is tried again (R184). -/
  retryAt : Option Nat
  /-- A session waits to be opened, no earlier than this core tick. -/
  waitAt : Option Nat
  restarts : Nat
  lastSess : Nat
  sess : Option Sess
  sw : Option KSw
  /-- A DEACTIVATE of the agent's making goes in a later frame than its KX_ABORT (R185). -/
  deactLate : Option Nat
  /-- Key-agent messages without MSG_SEQ waiting for SEG_MAX (R169), as TYPE and body. -/
  sendQ : List (Nat × Bytes)
  /-- Key-agent messages staged in this tick. -/
  sentN : Nat
  deriving DecidableEq, Repr

/-- What the key agent keeps for a group association: the last switch, the due tick, the pending switch's T and phase, the
members that have not acknowledged, those that have refused once, and those counted late (R179). -/
structure KaGroup where
  lastSw : Nat
  dueAt : Option Nat
  sw : Option (Nat × Nat)
  past : Bool
  waiting : List Nat
  refused : List Nat
  late : List Nat
  deriving DecidableEq, Repr

/-- The key agent: the parameters in effect (R166), the tables of R226, the DRBG's health, its records. -/
structure KaS where
  par : Tbl Word
  anchors : List Bytes
  deny : List Bytes
  chain : Bytes
  /-- Tables loaded and not yet in effect: they take effect at the next tick boundary (R166). -/
  anchorsIn : Option (List Bytes)
  denyIn : Option (List Bytes)
  chainIn : Option Bytes
  drbgOk : Bool
  /-- The core tick at which reseeding is tried again. -/
  reseedAt : Nat
  terms : Tbl KaTerm
  /-- Groups by AX. -/
  groups : Tbl KaGroup
  /-- The core tick of the last KA_NO_CHAIN count. -/
  noChainAt : Nat
  /-- Key switches started in this tick. -/
  started : Nat
  /-- GROUP_KEY messages sent in this tick, by tree. -/
  gkSent : Tbl Nat
  /-- The tick after the last TIME_OF_DAY broadcast, by tree. -/
  todDone : Tbl Nat
  deriving DecidableEq, Repr

/-! ## Trunk ports and MACsec (R229 to R251) -/

/-- A transmit or receive SA entry (R249): SA index, IN_USE, the next PN, the lowest PN written, SSCI, salt, whether its PN
has reached PN_THRESH, and whether a parity error has ended it (R251). -/
structure SaE where
  idx : Nat
  inUse : Bool
  pn : Nat
  low : Nat
  ssci : Nat
  salt : Nat
  warned : Bool
  dead : Bool
  deriving DecidableEq, Repr

/-- A receive SC entry: VALID, IMPLICIT, SCI, and whether an error has disabled it (R245). -/
structure ScE where
  valid : Bool
  implicit : Bool
  sci : Nat
  dead : Bool
  deriving DecidableEq, Repr

/-- A SecY at its port's primary instance: transmit SAs by AN, receive SCs, receive SAs by SC × 4 + AN, the AN of a change
that applies to the next frame (R236) and of one that awaits its tick, and the EAPOL and bad frames of this tick. -/
structure MsecS where
  txSa : Tbl SaE
  sc : Tbl ScE
  rxSa : Tbl SaE
  next : Option Nat
  atTick : Option Nat
  eapol : Nat
  bad : Nat
  /-- PN_THRESH has been written: before that it has the suite's reset value (R249). -/
  thrSet : Bool
  deriving DecidableEq, Repr

/-- A message on its way to a navigator (R366): SOURCE endpoint, cluster, navigator (none: the cluster's EVT_NAV), KIND, 16
bytes. -/
structure Mail where
  src : Nat
  cluster : Nat
  nav : Option Nat
  kind : Nat
  body : Bytes
  deriving DecidableEq, Repr

/-- A completion of an injected frame to be sent (R369, R420): the injection, STATUS, and the egress time where it was
asked for. -/
structure InjDone where
  inj : Inj
  st : Nat
  time : Option Nat
  deriving DecidableEq, Repr

/-! ## Forwarding (R252 to R273) -/

/-- An address-table entry (R261). TYPE: 0 LEARNED, 1 COPIED, 2 STATIC. -/
structure FEnt where
  domain : Nat
  mac : Nat
  dest : Nat
  group : Bool
  type : Nat
  hit : Bool
  mark : Bool
  /-- A relocation has carried the entry, not yet judged, behind the running sweep: the next sweep judges it (R269). -/
  owed : Bool
  deriving DecidableEq, Repr

/-- A running ageing sweep (R269): the core cycle of START, the positions visited, the entries deleted. -/
structure Sweep where
  start : Nat
  pos : Nat
  aged : Nat
  deriving DecidableEq, Repr

/-- A slice's forwarder: the address table by position, the stash at 262,144 and on (R260); learn requests (domain, MAC,
source port); the words of the DOMAIN, VMAP, AMAP, PORT and GROUP tables by (table × 2^19 + index) × 4 + word; the ageing
parity; WALK_MOVED; events posted in this tick; the sweep; and the positions of the source matches of the cycle of the last, with it. -/
structure FwdS where
  tab : Tbl FEnt
  learnQ : List (Nat × Nat × Nat)
  recs : Tbl Word
  parity : Bool
  moved : Bool
  /-- A walk has begun and not ended (R268). -/
  walk : Bool
  evtN : Nat
  sweep : Option Sweep
  won : List (Nat × Nat)
  deriving DecidableEq, Repr

/-! ## Queues (R274 to R301) -/

/-- An egress queue: its frames, head first; the cells of its head on die, those in HBM behind them, and those on die behind
the HBM part (R277); shaper credit in sixteenths of a byte and the cycle to which it has accrued (R285); deficit. -/
structure QueueS where
  frames : List Pkt
  head : Nat
  spill : Nat
  tail : Nat
  credit : Nat
  since : Nat
  deficit : Nat
  deriving DecidableEq, Repr

/-- A policer's tokens in sixteenths of a byte and the cycle of its last frame (R284). -/
structure PolS where
  tc : Nat
  te : Nat
  last : Nat
  deriving DecidableEq, Repr

/-- What QSCH keeps for a tree (R286, R287): the frame its last list was for, that list's carry and bytes, the pass pointers
of the classes and the tree pointer at 8, and whether TREE_EN has been in effect. -/
structure QTree where
  frame : Nat
  carry : Nat
  bytes : Nat
  ptrs : Tbl Nat
  en : Bool
  deriving DecidableEq, Repr

/-- A slice's queues: table words by (table × 2^17 + index) × 8 + word (R299), queues by table × 2^17 + index, node credits
by local tree × 1,024 + node, policers, trees, the round-robin and deficit pointers of trunk ports by local lane × 9 + class
(8: the deficit pointer), the tick of the last credit, the next queues to sample and the tick of the last round. -/
structure QschS where
  recs : Tbl Word
  queues : Tbl QueueS
  nodes : Tbl Nat
  pol : Tbl PolS
  trees : Tbl QTree
  trunk : Tbl Nat
  credited : Nat
  sampleT : Nat
  sampleG : Nat
  sampled : Nat
  deriving DecidableEq, Repr

/-- The cell pool: banks paging out, cells withdrawn by bank (R277, R297). -/
structure BufS where
  spilling : Tbl Bool
  withdrawn : Tbl Nat
  full : Bool
  deriving DecidableEq, Repr

/-! ## Transit lists (R289 to R291) -/

/-- A Transit list: gate states and interval of each entry, the cycle in ns, and its base or start time in ns. -/
structure TList where
  ents : List (Nat × Nat)
  cycle : Nat
  start : Nat
  deriving DecidableEq, Repr

/-- A GATE: the admin list's entries (gates + 256 × interval, by entry), the pending and the active list, the entry in
force, whether the timer self-check holds every gate open, and whether NO_TIME stood at the last look. -/
structure GateS where
  admin : Tbl Nat
  pend : Option TList
  act : Option TList
  entry : Nat
  free : Bool
  noTime : Bool
  deriving DecidableEq, Repr

/-! ## Circuit links (R305 to R320) -/

/-- One second of performance as it was classified (R319): the starts of its bins, ES, SES and errored blocks of the near and
the far end. -/
structure PmSec where
  q : Nat
  day : Nat
  es : Bool
  ses : Bool
  bbe : Nat
  fes : Bool
  fses : Bool
  fbbe : Nat
  deriving DecidableEq, Repr

/-- A performance bin (R320). -/
structure PmBin where
  start : Nat
  es : Nat
  ses : Nat
  bbe : Nat
  fes : Nat
  fses : Nat
  fbbe : Nat
  uas : Nat
  suspect : Bool
  deriving DecidableEq, Repr

/-- The monitoring of a section or a path: the current second's errored blocks, far-end errored blocks, defect and RDI; the
runs of degraded and clean seconds (R315); unavailability, with the last seconds, newest first; and the bins: current,
ended and not yet final, completed (newest first), of 15 minutes and of a day. -/
structure Pm where
  errs : Nat
  far : Nat
  defect : Bool
  rdi : Bool
  degBad : Nat
  degOk : Nat
  una : Bool
  sesRun : Nat
  okRun : Nat
  hist : List PmSec
  /-- Monitoring was enabled or rewritten since the last second ended (R320). -/
  fresh : Bool
  q : Option PmBin
  qEnd : Option PmBin
  qDone : List PmBin
  day : Option PmBin
  dayEnd : Option PmBin
  dayDone : List PmBin
  deriving DecidableEq, Repr

/-- A path (R312 to R315): record, history of its payload's BIP by frame in both directions, runs of status bytes with and
without SIGNAL 7 and 0, defects present and reported (bits P_AIS, P_UNEQ, P_DEG), last status byte, the bits in error of the
latest P_BIP checked, and its counts. -/
structure CktPath where
  valid : Bool
  through : Bool
  txAis : Bool
  txUneq : Bool
  txRdi : Bool
  pmEn : Bool
  first : Nat
  count : Nat
  rxH : List (Nat × Nat)
  txH : List (Nat × Nat)
  runAis : Nat
  runNoAis : Nat
  runUneq : Nat
  runNoUneq : Nat
  present : Nat
  shown : Nat
  status : Nat
  febe : Nat
  bipErr : Nat
  febeErr : Nat
  txmon : Nat
  deriving DecidableEq, Repr

/-- A circuit link: what the line carries (0 idle, 1 gap fill, 2 frames), the last TICK sent, gap fill before the next frame,
the BIP of the frame last sent, that frame, and the latest S_BIP checks (core tick, cycle, bits in error); then the receiver:
confirmations, misses, the last good TICK, the BIP of the frame before, frames by receive tick (with TICK), runs for LOMF and
S-AIS, section defects present (bits LOS, LOF, LOMF, S_AIS, S_DEG), paths, monitoring by entity (2,048 the section), the core
tick of the last second end. -/
structure CktS where
  line : Nat
  last : Option Nat
  gap : Bool
  bip : Option Nat
  sent : Bytes
  /-- The gap-fill bits sent in the period that ended: all of it, or the gap of a tick step after the frame (R64). -/
  fill : List Bool
  /-- Bits of the gap-fill sequence sent since its seed. -/
  gapAt : Nat
  checks : List (Nat × Nat × Nat)
  conf : Nat
  miss : Nat
  rxLast : Option Nat
  rxBip : Option Nat
  frames : List (Nat × Nat × Bytes)
  /-- The receive ticks whose window has held a frame's start (R309). -/
  starts : List Nat
  /-- The receive tick whose bytes an overrun kept from the interchange (R30). -/
  late : Option Nat
  runTick : Nat
  runAis : Nat
  runNoAis : Nat
  present : Nat
  paths : Tbl CktPath
  pm : Tbl Pm
  second : Nat
  deriving DecidableEq, Repr

/-! ## Navigators and the Quadrant (R356 to R387) -/

/-- A message in a navigator's receive queue: SOURCE, KIND, 16 bytes. -/
structure RxMsg where
  src : Nat
  kind : Nat
  body : Bytes
  deriving DecidableEq, Repr

/-- A message that a navigator has sent to an endpoint outside the navigators (R366): its cluster and navigator, the endpoint,
16 bytes. -/
structure Post where
  cluster : Nat
  nav : Nat
  ep : Nat
  body : Bytes
  deriving DecidableEq, Repr

/-- A waiting WFT: its x[rd], whether a message ends it, the core cycle at which it began. -/
structure NavWait where
  rd : Nat
  msg : Bool
  since : Nat
  deriving DecidableEq, Repr

/-- A slot request not yet answered (R371): the block's address, the block as issued, whether U mode issued it. -/
structure AlmReq where
  addr : Nat
  block : Bytes
  user : Bool
  deriving DecidableEq, Repr

/-- A logical navigator: running; its wait; the cause with which it starts at the next boundary; U mode; pc; integer and wide
registers; the stored CSRs; its bank; the boundaries since its last return from WFT or its start (R362) and those since it
last executed WFT (R358); the cycle of its last waiting WFT of this tick (R357); receive queue; LR reservation (place,
bytes); slot requests; whether it has just taken a trap (R372); its engine's failure, true where the event has been raised
(R373); the core cycle to which its counters stand; and the instructions retired since a counter overflow (R364). -/
structure NavE where
  run : Bool
  wait : Option NavWait
  start : Option Nat
  um : Bool
  pc : BitVec 64
  x : Tbl (BitVec 64)
  w : Tbl (BitVec 128)
  csr : Tbl (BitVec 64)
  bank : Nat
  b : Nat
  idle : Nat
  done : Option Nat
  rx : List RxMsg
  resv : Option (Nat × Nat)
  alm : List AlmReq
  trapped : Bool
  failed : Option Bool
  clock : Nat
  skid : Nat
  deriving DecidableEq, Repr

/-- A LOAD in progress (R375): the copy in sealed memory, the target bank, whether the shared-data part is written. -/
structure NavLoad where
  image : Bytes
  bank : Nat
  sdata : Bool
  deriving DecidableEq, Repr

/-- A cluster: the navigator its spare carries and whether the spare has failed; the ENTRY of each bank; producer and
consumer index of the frame ring (R368) and the RX_RING word in effect; the load; the core tick of the last bank switch. -/
structure NavC where
  spare : Option Nat
  spareDead : Bool
  entry : Tbl Nat
  prod : Nat
  cons : Nat
  ring : Nat
  load : Option NavLoad
  switched : Nat
  /-- An uncorrectable error of local or shared data that the next data access meets (R384). -/
  dataErr : Bool
  deriving DecidableEq, Repr

/-- A Quadrant region (R378, R380): BASE and LIMIT as numbers of 64-byte blocks, the bits of REGION_CFG, and whether its SRAM
has lost it (R387). -/
structure QRegion where
  base : Nat
  limit : Nat
  cfg : Nat
  bad : Bool
  deriving DecidableEq, Repr

/-- Halves of a region held until its REGION_CFG write (R385): BASE, LIMIT and their extensions as written. -/
structure QHold where
  base : Option Nat
  limit : Option Nat
  baseExt : Option Nat
  limitExt : Option Nat
  deriving DecidableEq, Repr

/-! ## Sealed memory (R388 to R404) -/

/-- A node of a counter tree in the counter cache: range, level, index, its eight counters, whether it is dirty. -/
structure SealNode where
  range : Nat
  level : Nat
  index : Nat
  ctrs : List Nat
  dirty : Bool
  deriving DecidableEq, Repr

/-- SEAL[s] and its stack: the seal root; whether INIT has been accepted, whether the keys have been zeroised, whether the stack
failed its training (R535); epochs by region; usable lines as HBM holds them, 64 ciphertext bytes and 8 tag bytes, by line;
tree nodes as HBM holds them, 64 bytes, by (range × 8 + level) × 2^22 + index; root counters by range × 8 + child; the counter
cache, most recently used first; the poisoned nodes (range, level, index), oldest first, and the ranges lost whole; the reseal
under way (OP, range, node); and the answer to the last line access: data, error, core cycles added (R392). -/
structure SealS where
  sr : Option Bytes
  begun : Bool
  zeroised : Bool
  badStack : Bool
  epoch : Tbl Nat
  hbm : Tbl Bytes
  nodes : Tbl Bytes
  root : Tbl Nat
  cache : List SealNode
  poisoned : List (Nat × Nat × Nat)
  lost : Tbl Bool
  reseal : Option (Nat × Nat × Nat × Nat)
  answer : Bytes × Bool × Nat
  deriving DecidableEq, Repr

/-! ## Lanes (R504 to R532) -/

/-- A lane of a SER instance: its PLL has lost lock; valid and invalid training blocks in a row, block lock, the CAP[0] last
received, READY blocks in a row (R506, R507); codewords in a row with and without a valid header in sequence, the next
CW_COUNT, the LANE received, the RLOCK last received, the skew in ns (R509); start-up training complete and the core tick of its
end; seeds and current values of the eight quantities, as bytes (R515); the core tick at which the partner's, and the lane's own,
electrical idle began (R512); error-free bits in a row at the PRBS checker, and its shift register (R513); transmitted bits inverted
so far, and the half bit times since INJ_EXP inverted one (R514); the training blocks the transmitter sends, the last of them again
and again (R506, R507); the length of the training burst with which it last left electrical idle (R511). -/
structure SerS where
  pllLost : Bool
  blkOk : Nat
  blkBad : Nat
  lock : Bool
  cap : Bool
  ready : Nat
  cwOk : Nat
  cwBad : Nat
  cwNext : Nat
  lane : Nat
  rlock : Bool
  skew : Nat
  trained : Option Nat
  seeds : List Nat
  cur : List Nat
  idleAt : Option Nat
  ownIdle : Option Nat
  prbsRun : Nat
  prbsReg : Nat
  inj : Nat
  injAcc : Nat
  tb : List Bytes
  burst : Nat
  deriving DecidableEq, Repr

/-- A mate link (0) or circuit link l (1 + l) in bring-up: 0 electrical idle, 1 TRAIN, 2 READY, 3 STEP, 4 high rate (R507); the core
tick of the switch; UP. Mate: chunks received by CW_COUNT × 4 + LANE with FS, the group expected next, and the bytes of the frame
being received; eighths of a chunk sent since the switch, and the codewords (header and scrambled chunk) that carried the frames of the
tick that ended (R508). -/
structure SerLink where
  step : Nat
  swAt : Nat
  up : Bool
  chunks : Tbl (Bool × Bytes)
  group : Option Nat
  stream : Bytes
  txAt : Nat
  cws : List (Nat × Bytes)
  deriving DecidableEq, Repr

/-- The lanes and their links. -/
structure SersS where
  lanes : Tbl SerS
  links : Tbl SerLink
  deriving DecidableEq, Repr

/-! ## The whole state -/

/-- The state of the block. -/
structure State where
  part : Part
  /-- The commands waiting, first in, first out. -/
  pending : List Instr
  /-- The register file, by BAR0 address (R406); an unlisted register holds its reset value. -/
  regs : Tbl Word
  /-- The register file as the present core cycle found it: a W1C flag set since then is not cleared in this cycle (R9). -/
  seen : Tbl Word
  /-- RWO fields written since a cold reset (R7), by register address. -/
  rwo : Tbl Bool
  pr : PairRegs
  /-- How many free values have been used (the model's own field, not the spec's; log entry 1). -/
  fresh : Nat
  /-- The device is halted (R444). -/
  halted : Bool
  bin : BinS
  hif : HifS
  crc : Tbl CrcS
  pmc : PmcS
  lcs : LcsS
  tm : TimeS
  /-- Deadlines in effect (R32): the TICK_DEADLINE words as the last boundary found them. -/
  deadline : Tbl Word
  /-- Tick work of the present tick by page key: the latest cycle of completion, and whether it is complete (R31). -/
  tickWork : Tbl (Nat × Bool)
  ttx : Tbl TtxS
  /-- Terminal records by tree × 512 + terminal. -/
  terms : Tbl Term
  sxt : Tbl SxtS
  tsi : TsiS
  alm : AlmS
  ciph : Tbl CiphS
  /-- Orrery trees and receivers by tree number. -/
  orr : Tbl OrrT
  trx : Tbl TrxS
  /-- Frames on their way to a slice's forwarder (R101, R285), in order of arrival. -/
  fwdIn : List Pkt
  pair : PairS
  ka : KaS
  msec : Tbl MsecS
  /-- The last frame each trunk port has sent, with its FCS. -/
  sent : Tbl Bytes
  /-- Messages on their way to navigators, oldest first (R366). -/
  mail : List Mail
  /-- Frames on their way to a cluster, oldest first (R368). -/
  navIn : List (Nat × Pkt)
  /-- Completions of injected frames, oldest first. -/
  injDone : List InjDone
  fwd : Tbl FwdS
  /-- Frames on their way to another slice, and frames at their egress slice, oldest first (R16, R279). -/
  xin : List Pkt
  qin : List Pkt
  /-- Frames on their way to an exception-receive ring, oldest first (R419). -/
  hostIn : List (Nat × Pkt)
  qsch : Tbl QschS
  buf : BufS
  gate : Tbl GateS
  ckt : Tbl CktS
  /-- The oldest descriptor age seen in this tick by a streaming stage, by page key (R31). -/
  ages : Tbl Nat
  /-- The core tick (plus 1) of the last overrun of a page's tick stage, by page key (R33). -/
  ovrAt : Tbl Nat
  /-- Navigators by cluster × 16 + number; clusters. -/
  nav : Tbl NavE
  navc : Tbl NavC
  /-- The memory of the navigators: program banks, local data, shared data, by the places of `Nav.lean`. -/
  nmem : Memory
  /-- Words of program banks that an uncorrectable error has ended (R381), by place ÷ 4. -/
  nbad : Tbl Bool
  /-- Messages on their way from navigators to ORR, MSEC, INJECT and HOST, oldest first (R366). -/
  posts : List Post
  /-- Quadrant regions by (instance × 16 + navigator) × 16 + region, and the held halves by instance. -/
  qmap : Tbl QRegion
  qhold : Tbl QHold
  sealS : Tbl SealS
  ser : SersS
  deriving DecidableEq, Repr

/-! ## Reset (R7, R533, R534, R537) -/

/-- The backup cell that has never held anything, or has lost its contents (R483). -/
def vbatReset : Vbat := { secret := none, sec := 0, frac := 0, rtcValid := false, slots := [], h := 0, e := 0, lost := false }

/-- OTP with no bit set (R475). -/
def otpReset : Otp :=
  { lcState := 0, div := [], helper := .blank, rootHash := none, imageKey := [], revoked := 0, subsys := none, fuse := 0, log := [] }

/-- LCS, TAMP and DBG when POR_N is released, before the sequence of R533. -/
def lcsReset : LcsS :=
  { otp := otpReset, vbat := vbatReset, life := .blank, root := none, logQ := [], torn := false, vbatLost := false, retToken := false
    dark := false, off := false, started := false, cond := 0, run := [], latched := 0, raised := 0, test := none, ir := 1, unlock := none
    fails := 0, blocked := false, challenge := [], fifo := [] }

/-- Time when POR_N is released: free ticking, ticks of 156,250 cycles (R26). -/
def timeReset : TimeS :=
  { free := true, m := 0, e := 0, ePend := none, tickNo := 0, base := 0, cycle := 0, len := 156250, planJ := 0, named := [], doms := []
    active := 0, slewing := false, stepped := false, wasStep := false, stepGap := 0, lineErr := 0, resid := 0, swReq := none, cmpFired := 0, ppsOut := 0, ppsAt := none
    ppsIn := none, tc := [] }

/-- PAIR at reset: active, the pin low (R472). -/
def pairReset : PairS :=
  { pin := false, pinAt := 0, filt := false, yielded := false, roleErr := false, up := false, hs := none, pk := none, epoch := 0, rekeyAt := 0
    mseq := 0, out := [], sentTo := 0, todo := [], dirty := [], sentTime := [], rx := 0, peerSynced := false, peerHealth := 0, peerM := 0
    peerE := 0, peerSince := 0, syncedAt := 0, both := none, none := none, ctl := [], tx := [], hb := 0, hbAt := none }

/-- The machine right after reset: POR_N released, the core PLL locked, every register at its reset value, every table empty, the queue
empty; the sequence of R533 is the command POWER_ON_SEQUENCE. (DESIGN CHOICE, log entries 5 to 9: memory, the
registers with no reset value in the spec, the part, the fuses, and the moment.) -/
def State.reset : State :=
  { part := .bv3232, pending := [], regs := [], seen := [], rwo := [], pr := ⟨[], []⟩, fresh := 0, halted := false, bin := { wins := [], sevLogged := [], sevTick := false, ovrTick := false, lostTick := false, invTick := false, late := [] }
    hif := { wins := [], rings := [], routes := [], vecs := [], msixEn := true, linkUp := false, perst := false, mem := [], readBack := [] }
    crc := [], pmc := ⟨0, 0, 0, none, []⟩, lcs := lcsReset, tm := timeReset, deadline := [], tickWork := [], ttx := [], terms := [], sxt := []
    tsi := { conns := [], badPar := [], active := 0, since := 0, verify := none, armed := none, opens := [], tal := [], link := [], up := [] }
    alm := { recs := [], hot := [], stamp := 0, isk := [], refuse := 0, minTick := 0, seqs := [], members := [], navWin := [], remask := []
             remaskFrom := 0, remaskLate := false, bus := [], toKa := [] }
    ciph := [], orr := [], trx := [], fwdIn := [], pair := pairReset
    ka := { par := [], anchors := [], deny := [], chain := [], anchorsIn := none, denyIn := none, chainIn := none, drbgOk := false, reseedAt := 0, terms := [], groups := [], noChainAt := 0
            started := 0, gkSent := [], todDone := [] }
    msec := [], sent := [], mail := [], navIn := [], injDone := [], fwd := [], xin := [], qin := [], hostIn := [], qsch := []
    buf := ⟨[], [], false⟩, gate := [], ckt := [], ages := [], ovrAt := [], nav := [], navc := [], nmem := [], nbad := [], posts := [], qmap := []
    qhold := [], sealS := [], ser := ⟨[], []⟩ }

end Sys2Proof.Machine
end

