-- ==== Sys2Proof/Machine/Regs.lean ====
section
/-! DEFINITION. The register file: presence of pages (R2, R4), reset values, access codes (R7, R8), fields, and the
generic store of a written word. -/

namespace Sys2Proof.Machine

/-- The BAR0 address of a register (R406). -/
def regKey (ty inst off : Nat) : Nat := ty * 2 ^ 20 + inst * 2 ^ 12 + off

/-- The type code, instance and offset of a BAR0 address (R406). -/
def keyTy (k : Nat) : Nat := k / 2 ^ 20
def keyInst (k : Nat) : Nat := k / 2 ^ 12 % 256
def keyOff (k : Nat) : Nat := k % 2 ^ 12

/-- The page key type × 256 + instance used by ROUTE and the escalation windows. -/
def pageKey (ty inst : Nat) : Nat := ty * 256 + inst

/-- How many instances of a page type the BV3232 has (R408). -/
def fullInstances (ty : Nat) : Nat :=
  match ty with
  | 0x00 | 0x01 | 0x02 | 0x03 | 0x05 | 0x06 | 0x07 | 0x08 | 0x09 | 0x0A | 0x0B | 0x0D | 0x21 => 1
  | 0x04 | 0x13 | 0x1C | 0x1D | 0x20 => 4
  | 0x0C => 2
  | 0x10 | 0x11 | 0x12 | 0x18 | 0x19 | 0x1E | 0x24 => 32
  | 0x1A => 8
  | 0x25 => 33
  | 0x28 => 72
  | _ => 0

/-- Whether an instance is present in a variant (R4). -/
def presentIn (p : Part) (ty inst : Nat) : Bool :=
  decide (inst < fullInstances ty) &&
  match p with
  | .bv3232 => true
  | .bv3216 =>
    match ty with
    | 0x10 | 0x11 | 0x12 | 0x18 | 0x19 | 0x1E | 0x24 => decide (inst < 16)
    | 0x13 | 0x1C | 0x1D => decide (inst < 2)
    | 0x1A => decide (inst < 4)
    | 0x25 => decide (inst < 16) || inst == 32
    | 0x0C => inst == 0
    | 0x28 => decide (inst < 16) || (decide (32 ≤ inst) && decide (inst < 48)) || decide (64 ≤ inst)
    | _ => true
  | .bv3200 =>
    match ty with
    | 0x10 | 0x11 | 0x12 | 0x13 | 0x20 | 0x21 => false
    | 0x24 => inst % 8 < 2
    | 0x25 => inst % 8 < 2 || inst == 32
    | 0x28 => decide (inst < 32) || (decide (64 ≤ inst) && decide (inst < 68))
    | _ => true

/-- Whether a page is present. (DESIGN CHOICE, log entry 7) -/
def State.present (s : State) (ty inst : Nat) : Bool := presentIn s.part ty inst

/-- Whether tree t is present. -/
def State.hasTree (s : State) (t : Nat) : Bool := s.present Ty.TTX t

/-! ## Reset values -/

/-- Whether a register row covers an offset. -/
def RegSpec.covers (r : RegSpec) (off : Nat) : Bool :=
  decide (r.off ≤ off) && (off - r.off) % r.stride == 0 && decide ((off - r.off) / r.stride < r.n)

/-- The register map row of an offset of a page type; the common header comes first (R407). -/
def regSpec (ty off : Nat) : Option RegSpec :=
  if off < 0x40 then regsCOMMON.find? (·.covers off) else (blockRegs ty).find? (·.covers off)

/-- The reset word of a row's fields. -/
def fieldsReset (fl : List FieldSpec) : Nat := fl.foldl (fun a f => a + f.rst * 2 ^ f.lo) 0

/-- Reset EN and RESPONSE of monitor i (R486). -/
def monitorReset (i : Nat) : Nat :=
  match i with
  | 0 | 1 | 3 => 1 + 2 * 2
  | 2 => 1 + 1 * 2
  | 9 => 1
  | _ => 2 * 2

/-- The reset value of the stored word at a BAR0 address: the register map's, with the instance-dependent ones of
R30, R353, R402, R486 and R530. (DESIGN CHOICE, log entry 6) -/
def resetAt (k : Nat) : Word :=
  let ty := keyTy k
  let inst := keyInst k
  let off := keyOff k
  let base := match regSpec ty off with
    | some r => fieldsReset r.fields
    | none => 0
  BitVec.ofNat 32 <|
    if isTickStage ty && off == 0x040 then deadlineReset ty
    else if ty == Ty.AST && off == 0x14C then 1 + 4 + 8 + 1000 * 256
    else if ty == Ty.SER && off == 0x048 && decide (32 ≤ inst) && decide (inst < 64) then setBitsOf base 12 8 180
    else if ty == Ty.TAMP && decide (0x048 ≤ off) && decide (off ≤ 0x06C) then monitorReset ((off - 0x048) / 4)
    else if ty == Ty.SEAL && off == 0x048 then (if inst == 0 then 128 + 7040 * 2 ^ 16 else 7168 * 2 ^ 16)
    else if ty == Ty.SEAL && inst == 0 && off == 0x04C then 32 * 2 ^ 13 + 1 * 2 ^ 26
    else if ty == Ty.SEAL && inst == 0 && off == 0x050 then 32 + 32 * 2 ^ 13 + 2 * 2 ^ 26
    else if ty == Ty.SEAL && inst == 0 && off == 0x054 then 64 + 64 * 2 ^ 13 + 3 * 2 ^ 26
    else base

/-! ## Stored words and fields -/

/-- The stored word at a BAR0 address. -/
def State.rd (s : State) (k : Nat) : Word := s.regs.getD resetAt k

/-- Store a word at a BAR0 address. -/
def State.wr (s : State) (k : Nat) (v : Word) : State := { s with regs := s.regs.setD resetAt k v }

/-- The address of a register of an instance. -/
def RegId.at (r : RegId) (inst : Nat) : Nat := regKey r.ty inst r.off

/-- The stored word of a register, as a number. -/
def State.reg (s : State) (r : RegId) (inst : Nat) : Nat := (s.rd (r.at inst)).toNat

/-- Store a register. -/
def State.setReg (s : State) (r : RegId) (inst v : Nat) : State := s.wr (r.at inst) (BitVec.ofNat 32 v)

/-- Element i (4-byte stride) of a register array. -/
def State.regI (s : State) (r : RegId) (inst i : Nat) : Nat := (s.rd (r.at inst + 4 * i)).toNat

/-- Store element i of a register array. -/
def State.setRegI (s : State) (r : RegId) (inst i v : Nat) : State := s.wr (r.at inst + 4 * i) (BitVec.ofNat 32 v)

/-- The address of the register a field lies in, `d` bytes on (for arrays). -/
def FldId.at (f : FldId) (inst d : Nat) : Nat := regKey f.ty inst (f.off + d)

/-- A field's value. -/
def State.fld (s : State) (f : FldId) (inst : Nat) (d : Nat := 0) : Nat := bitsOf (s.rd (f.at inst d)).toNat f.lo f.w

/-- A one-bit field as a Bool. -/
def State.flag (s : State) (f : FldId) (inst : Nat) (d : Nat := 0) : Bool := s.fld f inst d == 1

/-- Set a field. -/
def State.setFld (s : State) (f : FldId) (inst v : Nat) (d : Nat := 0) : State :=
  s.wr (f.at inst d) (BitVec.ofNat 32 (setBitsOf (s.rd (f.at inst d)).toNat f.lo f.w v))

/-- Set a one-bit field. -/
def State.setFlag (s : State) (f : FldId) (inst : Nat) (b : Bool) (d : Nat := 0) : State :=
  s.setFld f inst (if b then 1 else 0) d

/-- The 64-bit quantity of a _LO register and the _HI register after it. -/
def State.reg64 (s : State) (lo : RegId) (inst : Nat) : Nat :=
  (s.rd (lo.at inst)).toNat + 2 ^ 32 * (s.rd (lo.at inst + 4)).toNat

/-- Store a 64-bit quantity. -/
def State.setReg64 (s : State) (lo : RegId) (inst v : Nat) : State :=
  (s.wr (lo.at inst) (BitVec.ofNat 32 v)).wr (lo.at inst + 4) (BitVec.ofNat 32 (v / 2 ^ 32))

/-! ## The effect of a written word by access code (R7, R8) -/

/-- A field's stored value for a written one. -/
def FieldSpec.store (f : FieldSpec) (x : Nat) : Nat :=
  if decide (f.mLo ≤ x) && decide (x ≤ f.mHi) then f.mTo else clampNat f.cLo f.cHi x

/-- One field's effect on the register word: RW stores, W1C clears, W1S sets, WO and RO leave the stored word. RWO is
stored where `rwoOpen`. -/
def FieldSpec.write (rwoOpen : Bool) (v : Nat) (old : Nat) (f : FieldSpec) : Nat :=
  let x := bitsOf v f.lo f.w
  let o := bitsOf old f.lo f.w
  match f.acc with
  | .rw => setBitsOf old f.lo f.w (f.store x)
  | .w1c => setBitsOf old f.lo f.w (o &&& (2 ^ f.w - 1 - x))
  | .w1s => setBitsOf old f.lo f.w (o ||| x)
  | .rwo => if rwoOpen then setBitsOf old f.lo f.w x else old
  | .ro | .wo => old

/-- The stored word after a write of v. A window's word that several tables share stores the bits that one of them calls RW. (DEDUCED, log
entry 104) -/
def writtenWord (fl : List FieldSpec) (rwoOpen : Bool) (old v : Nat) : Nat := fl.foldl (FieldSpec.write rwoOpen v) old

/-- Whether a row has an RWO field. -/
def RegSpec.hasRwo (r : RegSpec) : Bool := r.fields.any fun f => f.acc == .rwo

/-- The number of bits that a page's ERR_INV_CHECK has (R441, each block's chapter); the bits above are reserved. (DEDUCED, log entry 23) -/
def invBits (ty : Nat) : Nat :=
  match ty with
  | 0x00 => 0
  | 0x11 | 0x07 | 0x18 | 0x19 | 0x1C | 0x1D | 0x24 | 0x0C => 3
  | 0x1A => 4
  | 0x10 | 0x13 | 0x12 | 0x06 | 0x0D | 0x1E | 0x20 | 0x05 | 0x0B | 0x28 => 2
  | _ => 1

/-- The W1C bits of a row that were set in the present core cycle: the set wins over a clear in the same cycle (R9). -/
def State.justSet (s : State) (k : Nat) (fl : List FieldSpec) : Nat :=
  let new := (s.rd k).toNat &&& (0xFFFFFFFF ^^^ (s.seen.getD resetAt k).toNat)
  fl.foldl (fun a f => if f.acc == .w1c then a + bitsOf new f.lo f.w * 2 ^ f.lo else a) 0

/-- The plain store of a word written to an address of a present page, with no effect beyond the stored word (R7). INT_STS,
INT_EN, INT_SET and ERR_INV_CHECK take only the bits the page carries. (DEDUCED, log entry 81) -/
def State.plainWrite (s : State) (k : Nat) (v : Nat) : State :=
  if !s.present (keyTy k) (keyInst k) then s else
  match regSpec (keyTy k) (keyOff k) with
  | none => s
  | some r =>
    let mask := if keyOff k == 0x014 || keyOff k == 0x018 then v % 2 ^ intBits (keyTy k)
      else if keyOff k == 0x034 then v % 2 ^ invBits (keyTy k) else v
    if keyOff k == 0x01C then
      let sts := regKey (keyTy k) (keyInst k) 0x014
      s.wr sts (s.rd sts ||| BitVec.ofNat 32 (v % 2 ^ intBits (keyTy k)))
    else
      let v' := mask &&& (0xFFFFFFFF ^^^ s.justSet k r.fields)
      let s' := s.wr k (BitVec.ofNat 32 (writtenWord r.fields (s.rwo.get false k == false) (s.rd k).toNat v'))
      if r.hasRwo then { s' with rwo := s'.rwo.set false k true } else s'

/-- The fields of an address that are WO read 0 and are never stored, so a stored word is what a read returns, save
for the registers of `View.lean` that show other state. -/
def State.plainRead (s : State) (k : Nat) : Word :=
  if s.present (keyTy k) (keyInst k) then
    match regSpec (keyTy k) (keyOff k) with
    | some _ => if keyOff k == 0x01C || keyOff k == 0x030 then 0 else s.rd k
    | none => 0
  else 0

end Sys2Proof.Machine
end

