-- ==== Sys2Proof/Machine/Ops.lean ====
section
/-! DEFINITION. The shared operations of the block: counters and interrupt flags (R7, R9, R32), the outcome of a command,
free values, named ticks (R27), events, escalation, capture and halt (R435 to R446), Logbook entries (R491), window
transfers (R409), ring faults (R421), interrupts (R422, R423) and exception posts (R419). -/

namespace Sys2Proof.Machine

/-! ## Present, enabled -/

/-- The page is present and its CTL.EN is 1 (R407). (DESIGN CHOICE, log entry 131) -/
def State.active (s : State) (ty inst : Nat) : Bool :=
  s.present ty inst && bitOf (s.reg (Reg.CTL ty) inst) 0

/-- An enable of a block's own, which acts only while its page's CTL.EN is 1 (R407). -/
def State.on (s : State) (f : FldId) (inst : Nat) (d : Nat := 0) : Bool := s.active f.ty inst && s.flag f inst d

/-- The same of a field of several enables. -/
def State.onFld (s : State) (f : FldId) (inst : Nat) : Nat := if s.active f.ty inst then s.fld f inst else 0

/-- Free values (log entry 1): the next `w`-bit one, and the state that has used it. -/
def State.draw (s : State) (w : Nat) : Nat × State :=
  ((Config.freeBits w s.fresh).toNat, { s with fresh := s.fresh + 1 })

/-- The next `n` bytes of the DRBG (R228), which the spec does not give. (DESIGN CHOICE, log entry 1) -/
def State.drawBytes (s : State) (n : Nat) : Bytes × State :=
  (Config.drbg n s.fresh, { s with fresh := s.fresh + 1 })

/-- The battery secret zeroised and drawn again. -/
def State.newSecret (s : State) : State :=
  let (d, s) := s.drawBytes 32
  { s with lcs := { s.lcs with vbat := { s.lcs.vbat with secret := some d } } }

/-! ## Counters and interrupt flags -/

/-- Set an interrupt flag of a page (R407). (DEDUCED, log entry 77) -/
def State.intSet (s : State) (ty inst bit : Nat) : State :=
  s.setReg (Reg.INT_STS ty) inst (setBitOf (s.reg (Reg.INT_STS ty) inst) bit true)

/-- Set a flag where there is one. -/
def State.intOpt (s : State) (ty inst : Nat) (bit : Option Nat) : State :=
  match bit with
  | some b => s.intSet ty inst b
  | none => s

/-- Add n to a 32-bit counter that saturates; the flag tied to it sets when it counts. -/
def State.countN (s : State) (r : RegId) (inst n : Nat) : State :=
  if n == 0 then s else
  (s.setReg r inst (min (s.reg r inst + n) 0xFFFFFFFF)).intOpt r.ty inst (intOfCounter r.ty r.off)

/-- Count once. -/
def State.count (s : State) (r : RegId) (inst : Nat) : State := s.countN r inst 1

/-- A lane's owning block is enabled: its pattern generator stops (R529). -/
def State.genOff (s : State) (n : Nat) : State :=
  if s.flag Reg.SER_PRBS_CTL_GEN_EN n then s.setFlag Reg.SER_PRBS_CTL_GEN_EN n false else s

/-- Lane state codes of SER_STS.STATE (R530). -/
def State.laneState (s : State) (n st : Nat) : State :=
  let was := s.fld Reg.SER_STS_STATE n
  let s := s.setFld Reg.SER_STS_STATE n st
  if st == 4 && was != 4 then s.intSet Ty.SER n 3 else s

/-- Add n to a 64-bit counter pair. -/
def State.countN64 (s : State) (r : RegId) (inst n : Nat) : State :=
  if n == 0 then s else
  (s.setReg64 r inst ((s.reg64 r inst + n) % 2 ^ 64)).intOpt r.ty inst (intOfCounter r.ty r.off)

/-- Count once in a 64-bit counter pair. -/
def State.count64 (s : State) (r : RegId) (inst : Nat) : State := s.countN64 r inst 1

/-- Count in element i of a counter array of 4-byte stride. -/
def State.countI (s : State) (r : RegId) (inst i : Nat) : State :=
  (s.setRegI r inst i (min (s.regI r inst i + 1) 0xFFFFFFFF)).intOpt r.ty inst (intOfCounter r.ty r.off)

/-- The stored words of the counters in a page's CLR_ALL range cleared. -/
def State.clearCounters (s : State) (ty inst : Nat) : State :=
  { s with regs := s.regs.keep fun k _ => !(keyTy k == ty && keyInst k == inst && isCounter ty (keyOff k)) }

/-! ## The tick number -/

/-- The meridian count as reports show it: 0 while free ticking (R26). (DEDUCED, log entry 61) -/
def State.tick (s : State) : Nat := if s.tm.free then 0 else s.tm.m

/-- The tick that ERR_FIRST records: the free-tick count while free ticking (R451). -/
def State.errTick (s : State) : Nat := if s.tm.free then s.tm.tickNo else s.tm.m

/-- The absolute core cycle. -/
def State.now (s : State) : Nat := s.tm.base + s.tm.cycle

/-- An overrun of a page's tick stage has been counted in this core tick, free or counted (R33). -/
def State.overrunSeen (s : State) (ty inst : Nat) : Bool := s.ovrAt.get 0 (pageKey ty inst) == s.tm.tickNo + 1

/-! ## Logbook entries (R491) -/

/-- The bytes of a Logbook entry with the RTC as it stands. -/
def logEntry (s : State) (code cls ty inst src detail : Nat) (cont : Bool) : Bytes :=
  let body := toBE 5 s.lcs.vbat.sec ++ toBE 1 (s.lcs.vbat.frac / 128) ++ toBE 1 code ++
    toBE 1 ((if cont then 128 else 0) + (if s.lcs.vbat.rtcValid then 64 else 0) + cls % 4 * 16) ++
    toBE 1 ty ++ toBE 1 inst ++ toBE 1 src ++ toBE 3 detail
  body ++ toBE 2 (crc16 body)

/-- A continuation entry of up to 14 data bytes. -/
def logCont (d : Bytes) : Bytes :=
  let body := sliceB d 0 14
  body ++ toBE 2 (crc16 body)

/-- Queue an entry for programming: the queue holds 32; an entry that finds it full is lost and counted (R492). (DEDUCED, log entry 45) -/
def State.logPut (s : State) (e : Bytes) : State :=
  if s.lcs.logQ.length < 32 then { s with lcs := { s.lcs with logQ := s.lcs.logQ ++ [e] } }
  else s.count Reg.LCS_LOG_LOST 0

/-- Append an entry for a page's event. -/
def State.log (s : State) (code cls ty inst src detail : Nat) : State :=
  s.logPut (logEntry s code cls ty inst src detail false)

/-! ## Events (R435 to R446) -/

/-- The code of a class (R435). -/
def EClass.code : EClass → Nat
  | .notice => 0
  | .corrected => 1
  | .severe => 2
  | .fatal => 3

/-- The key of a source's escalation window. -/
def winKey (d : Det) : Nat := pageKey d.ty d.inst * 32 + d.src

/-- The open window of a source, if its closing boundary has not come (R437). (DEDUCED, log entry 24) -/
def State.openWin (s : State) (d : Det) : Option EscWin :=
  match s.bin.wins.find (winKey d) with
  | some w => if s.tm.tickNo < w.closes then some w else none
  | none => none

/-- Escalation (R437): the class after it, whether it escalated, and the windows. (DEDUCED, log entry 24) -/
def State.escalate (s : State) (d : Det) (c : EClass) : State × EClass × Bool :=
  let cfg := s.reg (Reg.ERR_CLASS_CFG d.ty) d.inst
  let escN := bitsOf cfg 0 8
  let affects := escN != 0 && ((c == .notice && bitOf cfg 24) || (c == .corrected && bitOf cfg 25))
  if d.into.isSome then (s, c, false) else
  let w : Option EscWin := match s.openWin d with
    | some w => some { w with count := w.count + 1 }
    | none => if affects then some ⟨1, s.tm.tickNo + max 1 (bitsOf cfg 8 16)⟩ else none
  match w with
  | none => (s, c, false)
  | some w =>
    let s := { s with bin := { s.bin with wins := s.bin.wins.insert (winKey d) w } }
    if affects && decide (escN ≤ w.count) then (s, .severe, true) else (s, c, false)

/-- No event of this cycle that found a capture held. -/
def lateReset : LateEv := { at_ := 0, word := 0, lo := 0, hi := 0, n := 0 }

/-- The events of the present core cycle that found the capture of page key k held. -/
def State.lateOf (s : State) (k : Nat) : LateEv :=
  let x := s.bin.late.get lateReset k
  if x.at_ == s.now then x else lateReset

/-- Keep an event that finds the capture of page key k held. -/
def State.lateAdd (s : State) (k word lo hi : Nat) : State :=
  let x := s.lateOf k
  let y : LateEv := if x.n == 0 then ⟨s.now, word, lo, hi, 1⟩ else { x with n := x.n + 1 }
  { s with bin := { s.bin with late := s.bin.late.set lateReset k y } }

/-- The page's capture of an event (R438, R440). -/
def State.capture (s : State) (d : Det) (c : EClass) (esc : Bool) : State :=
  let f := s.reg (Reg.ERR_FIRST d.ty) d.inst
  let b (x : Bool) (i : Nat) : Nat := if x then 2 ^ i else 0
  let word := d.src % 256 + c.code * 256 + b d.forced 11 + b esc 12 + 2 ^ 15 + s.errTick % 2 ^ 16 * 2 ^ 16
  let lo := if d.forced then 0 else d.capLo
  let hi := if d.forced then 0 else d.capHi
  if !bitOf f 15 then
    let s := s.setReg (Reg.ERR_FIRST d.ty) d.inst word
    let s := s.setReg (Reg.ERR_CAPTURE_LO d.ty) d.inst lo
    let s := s.setReg (Reg.ERR_CAPTURE_HI d.ty) d.inst hi
    s.setReg (Reg.ERR_OVF d.ty) d.inst (setBitOf (s.reg (Reg.ERR_OVF d.ty) d.inst) 31 true)
  else if d.into.isSome then
    if d.into == some (bitsOf f 0 8) then
      s.setReg (Reg.ERR_FIRST d.ty) d.inst (setBitsOf (setBitOf f 10 true) 8 2 (max (bitsOf f 8 2) c.code))
    else s
  else
    let o := setBitOf (s.reg (Reg.ERR_OVF d.ty) d.inst) 0 true
    (s.setReg (Reg.ERR_OVF d.ty) d.inst (if decide (bitsOf f 8 2 < c.code) then setBitOf o 1 true else o)).lateAdd
      (pageKey d.ty d.inst) word lo hi

/-- The source word of FIRST_SRC and FATAL_SRC (R450). -/
def srcWord (d : Det) (c : EClass) (esc : Bool) : Nat :=
  let b (x : Bool) (i : Nat) : Nat := if x then 2 ^ i else 0
  d.src % 256 + c.code * 256 + b esc 10 + b d.forced 11 + 2 ^ 15 + d.inst * 2 ^ 16 + d.ty * 2 ^ 24

/-- Set the bit of a page type in a _LO, _HI pair of independent words. -/
def State.typeBit (s : State) (lo : RegId) (ty : Nat) : State :=
  s.setRegI lo 0 (ty / 32) (setBitOf (s.regI lo 0 (ty / 32)) (ty % 32) true)

/-- What a halt does at once (R444): the tick's work in flight is discarded by every stage, the transmitters, PPS_OUT,
RCLK_OUT and HB_OUT go quiet (their drive reads the halt), HEALTH is 0, and no command but those R444 names has an effect. A quarantine
that violations of this tick have called for is superseded (R445). (DEDUCED, log entry 22) -/
def State.halt (s : State) (d : Det) (c : EClass) (esc : Bool) : State :=
  if s.halted then s else
  let s := s.setReg Reg.BIN_FATAL_SRC 0 (srcWord d c esc)
  let s := s.setReg64 Reg.BIN_FATAL_TICK_LO 0 s.tick
  let s := s.log 0x30 3 d.ty d.inst d.src (s.tick % 2 ^ 24)
  let s := s.countN Reg.BIN_SUPERSEDED 0 (s.terms.countP fun q => decide (0 < q.2.winCount) && (match q.2.pend with
    | some (st, _, _) => st == .quarantined
    | none => false))
  { s with halted := true }.setFld Reg.PAIR_STS_HEALTH 0 0

/-- A SEAL instance at a cold reset. -/
def sealReset : SealS :=
  { sr := none, begun := false, zeroised := false, badStack := false, epoch := [], hbm := [], nodes := [], root := [], cache := []
    poisoned := [], lost := [], reseal := none, answer := ([], false, 0) }

/-- The ZEROISE response (R401, R487): the root, the battery secret, hot slots and key schedules, the key agent's secrets, every SEAL
key, the pair key and the import sessions are gone. -/
def State.zeroise (s : State) : State :=
  let gone (t : Tbl SealS) (i : Nat) : Tbl SealS := t.set sealReset i { t.get sealReset i with sr := none, zeroised := true }
  let s := { s with
    lcs := { s.lcs with root := none, vbat := { s.lcs.vbat with secret := none } }
    alm := { s.alm with hot := [], isk := [] }
    ka := { s.ka with terms := [], groups := [] }
    pair := { s.pair with pk := none, hs := none }
    sealS := gone (gone s.sealS 0) 1 }
  (s.count Reg.TAMP_ZEROISES 0).countN Reg.BIN_SUPERSEDED 0 (if s.flag Reg.LCS_CMD_BUSY 0 then 1 else 0)

/-- The alarms whose response is ZEROISE (R445, R479, R487, R490). -/
def zeroises (d : Det) : Bool := (d.ty == Ty.LCS && d.src == 1) || (d.ty == Ty.TAMP && (d.src == 1 || d.src == 5))

/-- The Binnacle's record of one event and the response of its class (R435 to R446). -/
def State.record (s : State) (d : Det) (c : EClass) : State :=
  if !s.present d.ty d.inst then s else
  let (s, c, esc) := s.escalate d c
  let wasHalted := s.halted
  let s := s.capture d c esc
  let s := s.count (Reg.ERR_COUNT d.ty) d.inst
  let s := (s.typeBit Reg.BIN_BLOCK_ERR_LO d.ty).intSet Ty.BIN 0 1
  let s := if bitOf (s.reg Reg.BIN_FIRST_SRC 0) 15 then s.lateAdd 65536 (srcWord d c esc) s.tick 0
    else (s.setReg Reg.BIN_FIRST_SRC 0 (srcWord d c esc)).setReg64 Reg.BIN_FIRST_TICK_LO 0 s.tick
  let s := match c with
    | .notice => s.count Reg.BIN_NOTICE_EVENTS 0
    | .corrected => s.count Reg.BIN_CORRECTED_EVENTS 0
    | .severe | .fatal => { s with bin := { s.bin with sevTick := true } }.count Reg.BIN_SEVERE_EVENTS 0
  let s := if esc then s.count Reg.BIN_ESCALATIONS 0 else s
  let s := if d.into.isSome then s.count Reg.BIN_MERGED_EVENTS 0 else s
  let s := if d.forced then s.count Reg.BIN_FORCED_EVENTS 0 else s
  let s := match c with
    | .severe | .fatal => (s.typeBit Reg.BIN_SEVERE_LO d.ty).intSet Ty.BIN 0 0
    | _ => s
  let s := match c with
    | .severe =>
      if s.bin.sevLogged.contains d.ty then s else
      let s := { s with bin := { s.bin with sevLogged := d.ty :: s.bin.sevLogged } }
      if s.flag Reg.BIN_CTL_LOG_SEVERE 0 && !wasHalted then s.log 0x31 2 d.ty d.inst d.src (s.tick % 2 ^ 24) else s
    | _ => s
  match c with
  | .fatal => let s := s.halt d c esc; if zeroises d then s.zeroise else s
  | _ => s

/-- One event. ERR_INV_CHECK bit 0 of BIN inverts the check bits fed to the checker of the escalation windows: the page's windows are
found wrong and cleared first, and the Binnacle reports its own source 0x02 (R453). (DEDUCED, log entry 132) -/
def State.event (s : State) (d : Det) (c : EClass) : State :=
  if !s.present d.ty d.inst then s else
  if d.ty != Ty.BIN && bitOf (s.reg (Reg.ERR_INV_CHECK Ty.BIN) 0) 0 then
    let p := pageKey d.ty d.inst
    let s := s.record ⟨Ty.BIN, 0, 2, p, p * 2 ^ 16, false, none⟩ .notice
    { s with bin := { s.bin with wins := s.bin.wins.keep fun k _ => k / 32 != p } }.record d c
  else s.record d c

/-- Raise one real event of a source with its capture words. -/
def State.raise (s : State) (ty inst src capLo capHi : Nat) : State :=
  match defaultClass ty src with
  | some c => s.event ⟨ty, inst, src, capLo, capHi, false, none⟩ c
  | none => s

/-- Raise an event of a checker that met inverted check bits (R439, R441): the element in LO, the unit in HI[31:16], and in
HI[15:0] a syndrome that the spec does not state: a free value (log entry 1). -/
def State.raiseInv (s : State) (ty inst src elem unit : Nat) : State :=
  let (syn, s) := s.draw 16
  s.raise ty inst src elem (unit % 2 ^ 16 * 2 ^ 16 + syn)

/-- Whether a bit of a page's ERR_INV_CHECK is set (R441). -/
def State.inv (s : State) (ty inst bit : Nat) : Bool := bitOf (s.reg (Reg.ERR_INV_CHECK ty) inst) bit

/-- Clear a one-shot bit that has acted. -/
def State.invDone (s : State) (ty inst bit : Nat) : State :=
  s.setReg (Reg.ERR_INV_CHECK ty) inst (setBitOf (s.reg (Reg.ERR_INV_CHECK ty) inst) bit false)

/-- What an overrun does (R32): the count, the tick, the flag and a NOTICE on the source `src` of the page. A streaming stage has one for
every descriptor dropped for age (R31). (DEDUCED, log entry 87) -/
def State.overrunOnce (s : State) (ty inst src : Nat) : State :=
  let s := s.count (Reg.OVERRUN_COUNT ty) inst
  let s := s.setReg64 (Reg.OVERRUN_TICK_LO ty) inst s.tick
  (s.intSet ty inst 0).raise ty inst src 0 0

/-- An overrun of a tick stage (R32): counted once a tick and page (R33). (DEDUCED, log entry 87) -/
def State.overrun (s : State) (ty inst src : Nat) : State :=
  if s.overrunSeen ty inst then s else
  let s := if ty == Ty.TTX || ty == Ty.ORR || ty == Ty.QSCH then { s with bin := { s.bin with ovrTick := true } } else s
  { s with ovrAt := s.ovrAt.set 0 (pageKey ty inst) (s.tm.tickNo + 1) }.overrunOnce ty inst src

/-- The completion of a stage's work in the present tick, the latest of a page's (R31). (DESIGN CHOICE, log entry 84) -/
def State.stageDone (s : State) (ty inst cycle : Nat) : State :=
  let k := pageKey ty inst
  { s with tickWork := s.tickWork.set (0, false) k (max (s.tickWork.get (0, false) k).1 cycle, true) }

/-- TICK_DONE_LAST and TICK_DONE_MAX at the boundary that ends the tick (R31). (DEDUCED, log entry 12) (DEDUCED, log entry 13) -/
def State.stageShow (s : State) (ty inst cycle : Nat) (done : Bool) : State :=
  let c := min cycle (2 ^ 18 - 1)
  let s := s.setReg (Reg.TICK_DONE_LAST ty) inst (c + if done then 2 ^ 31 else 0)
  s.setReg (Reg.TICK_DONE_MAX ty) inst (max (s.reg (Reg.TICK_DONE_MAX ty) inst) c)

/-- The deadline or age limit in effect for a stage's page (R32). (DEDUCED, log entry 61) (DESIGN CHOICE, log entry 84) -/
def State.deadlineOf (s : State) (ty inst : Nat) : Nat := (s.deadline.getD resetAt ((Reg.TICK_DEADLINE ty).at inst)).toNat % 2 ^ 18

/-- Whether a stage's work completed by a cycle is in time (R30). -/
def State.inTime (s : State) (ty inst cycle : Nat) : Bool := decide (cycle ≤ s.deadlineOf ty inst)

/-- The overrun source code of a tick stage's page (the chapters' error tables). -/
def overrunSrc (ty : Nat) : Nat :=
  match ty with
  | 0x10 => 5 | 0x11 => 6 | 0x13 => 5 | 0x12 => 4 | 0x06 => 5 | 0x1A => 7
  | 0x1C => 5 | 0x0D => 5 | 0x1D => 5 | 0x20 => 5 | 0x21 => 2 | 0x24 => 7 | 0x03 => 3
  | _ => 0

/-- The completion of a stage's work at a cycle: the record of R31, and the overrun of R32 where it is late. -/
def State.complete (s : State) (ty inst cycle : Nat) : State :=
  let ok := s.inTime ty inst cycle
  let s := s.stageDone ty inst cycle
  if ok then s else s.overrun ty inst (overrunSrc ty)

/-! ## Named ticks (R27) -/

/-- The counter a late named action of a kind counts in. -/
def NKind.late : NKind → RegId
  | .phase => Reg.ALM_NAMED_TICK_LATE
  | .txSa => Reg.MSEC_NAMED_TICK_LATE
  | .tsiPage => Reg.TSI_NAMED_TICK_LATE
  | .navBank => Reg.NAV_NAMED_TICK_LATE
  | .preamble => Reg.TRX_NAMED_TICK_LATE

/-- The page instance whose NAMED_TICK_LATE an action counts in. -/
def Named.page (a : Named) : Nat :=
  match a.kind with
  | .phase | .tsiPage => 0
  | _ => a.inst

/-- Count an action late. -/
def State.countLate (s : State) (a : Named) : State :=
  s.count a.kind.late a.page

/-- Name an action for tick T: written late where T is not greater than the count plus 1, unless free ticking. -/
def State.name (s : State) (kind : NKind) (inst idx t : Nat) : State :=
  let late := !s.tm.free && decide (t ≤ s.tm.m + 1)
  let a : Named := ⟨kind, inst, idx, t, late⟩
  let s := if late then s.countLate a else s
  { s with tm := { s.tm with named := s.tm.named ++ [a] } }

/-- Withdraw the actions of a kind at a place. -/
def State.unname (s : State) (kind : NKind) (inst idx : Nat) : State :=
  { s with tm := { s.tm with named := s.tm.named.filter fun a => !(a.kind == kind && a.inst == inst && a.idx == idx) } }

/-- Whether an action of a kind is pending at a place. -/
def State.isNamed (s : State) (kind : NKind) (inst idx : Nat) : Bool :=
  s.tm.named.any fun a => a.kind == kind && a.inst == inst && a.idx == idx

/-! ## Windows (R409) -/

/-- A shared window as registered. -/
def State.win (s : State) (w : Nat) : Win := s.hif.wins.get ⟨0, 1, false, false, false⟩ w

/-- Whether a transfer of n bytes at an offset of a window is allowed. -/
def State.winOk (s : State) (w off n : Nat) (write : Bool) : Bool :=
  let x := s.win w
  x.en && (if write then x.wr else x.rd) && decide (off + n ≤ x.pages * 4096)

/-- A device read of host memory: allowed, or WIN_FAULT counts. The bytes come with the command. (DESIGN CHOICE, log entry 33) -/
def State.dmaRead (s : State) (w off n : Nat) : State × Bool :=
  if s.winOk w off n false then (s, true) else (s.count Reg.HIF_WIN_FAULT 0, false)

/-- A device write of host memory. (DESIGN CHOICE, log entry 33) -/
def State.dmaWrite (s : State) (w off : Nat) (d : Bytes) : State × Bool :=
  if s.winOk w off d.length true then
    ({ s with hif := { s.hif with mem := s.hif.mem.writeN ((s.win w).base + off) d } }, true)
  else (s.count Reg.HIF_WIN_FAULT 0, false)

/-! ## Rings (R411 to R421) -/

/-- The state of ring r before anything is set: RING_CFG.CQ is the ring number, VECTOR is c, 8 + r or 72 + r (R428). -/
def ringReset (r : Nat) : Ring :=
  { offset := 0, window := 0, log2 := 8, cq := if r < 8 then r else 0
    vector := if r < 8 then 0 else if r < 16 then r - 8 else if r < 80 then 8 + (r - 16) else 72 + (r - 80)
    coalCnt := 1, coalUs := 0, en := false, err := false, devIdx := 0, bellIdx := 0, handed := 0, lastSeq := 0
    unsig := 0, req := false, desc := [], stalled := false, waiting := 0, waitAt := 0, orphan := none, compl := none, inj := []
    unsigAt := 0, gen := 0 }

/-- Ring r. -/
def State.ring (s : State) (r : Nat) : Ring := s.hif.rings.getD ringReset r

/-- Store ring r. -/
def State.setRing (s : State) (r : Nat) (x : Ring) : State :=
  { s with hif := { s.hif with rings := s.hif.rings.setD ringReset r x } }

/-- Items of a ring in flight: the descriptors held as read by a host-written ring and a completion that waits. An injected
frame already handed to the parser is not (R421). -/
def Ring.inFlight (r : Nat) (x : Ring) : Nat :=
  (if r < 8 || 80 ≤ r then x.desc.length else 0) + (if x.compl.isSome then 1 else 0)

/-- The block operation that goes on where a fault ends the ring's command: its SEQ and its command register (R416). -/
def Ring.orphaned (x : Ring) : Option (Nat × Nat) :=
  match x.desc with
  | d :: _ => if x.waiting == 2 then some (leAt d 0 4, leAt d 8 2 % 256 * 2 ^ 12 + leAt d 8 2 / 256 * 2 ^ 20 + leAt d 12 2) else x.orphan
  | [] => x.orphan

/-- A ring fault (R421): the ring's items in flight are discarded, EN clears and ERR sets. -/
def State.ringFault (s : State) (r : Nat) : State :=
  let x := s.ring r
  let s := (s.count Reg.HIF_RING_ERR 0).countN Reg.HIF_DISCARDS 0 (x.inFlight r)
  s.setRing r { x with en := false, err := true, desc := [], compl := none, stalled := false, unsig := 0, req := false, inj := [], waiting := 0, orphan := x.orphaned }

/-- An item written to a device-written or injection ring: the coalescing count of R422. -/
def Ring.signal (x : Ring) (now : Nat) : Ring :=
  let u := x.unsig + 1
  if x.coalCnt ≤ u then { x with unsig := 0, req := true }
  else { x with unsig := u, unsigAt := if x.unsig == 0 then now else x.unsigAt }

/-- The next slot's index. -/
def Ring.nextIdx (x : Ring) : Nat := (x.devIdx + 1) % 2 ^ x.log2

/-- Write 63 bytes and then byte 63 with OWN 0 into the ring's next given descriptor (R413), or a ring fault where the
window does not allow it. -/
def State.ringPut (s : State) (r : Nat) (item : Bytes) : State × Bool :=
  let x := s.ring r
  let (s, ok) := s.dmaWrite x.window (x.offset + 64 * x.devIdx) (sliceB item 0 63 ++ [0])
  if ok then (s.setRing r (Ring.signal { x with devIdx := x.nextIdx, desc := x.desc.drop 1 } s.now), true)
  else (s.ringFault r, false)

/-- Post an event item of a page to exception ring r (R418, R419): true if it was posted. -/
def State.postEvent (s : State) (r ty inst : Nat) (item : Bytes) : State × Bool :=
  let ring := 16 + r
  let x := s.ring ring
  if s.halted || !x.en then (s, false) else
  match x.desc with
  | [] => (s, false)
  | d :: _ =>
    let bufLen := leAt d 10 2
    let tail := toLE 1 1 ++ [0] ++ toLE 2 item.length ++ toLE 1 inst ++ toLE 1 ty ++ toLE 2 0 ++ toLE 6 s.tick
    let body := sliceB item 0 48 ++ tail
    if item.length ≤ 48 then s.ringPut ring body
    else if bufLen < item.length then (s, false)
    else
      let (s, ok) := s.dmaWrite (leAt d 8 1 % 16) (leAt d 0 8) item
      if ok then s.ringPut ring body else (s, false)

/-! ## Interrupt vectors (R422, R423) -/

/-- Vector v. -/
def State.vec (s : State) (v : Nat) : Vec := s.hif.vecs.get ⟨false, false, true, false, 0⟩ v

/-- A page's ROUTE entry: vector in [7:0], EN in [8]; reset 255 with EN 1. -/
def HifS.route (h : HifS) (key : Nat) : Nat := h.routes.get (255 + 256) key

/-- Whether a page's level is 1: INT_STS AND INT_EN is not 0 (R422). -/
def State.level (s : State) (ty inst : Nat) : Bool :=
  s.reg (Reg.INT_STS ty) inst &&& s.reg (Reg.INT_EN ty) inst != 0

/-- The vectors whose request is 1 from page levels: only a page with INT_EN stored can have one. -/
def State.levelVecs (s : State) : List Nat :=
  s.regs.filterMap fun (k, _) =>
    if keyOff k == 0x018 && s.level (keyTy k) (keyInst k) then
      let r := s.hif.route (pageKey (keyTy k) (keyInst k))
      if bitOf r 8 then some (r % 256) else none
    else none

/-- The vectors requested by rings. -/
def HifS.ringVecs (h : HifS) : List Nat := h.rings.filterMap fun (_, x) => if x.req then some x.vector else none

/-- A vector's message is sent: outstanding until EOI, the ring requests of the vector cleared. (DESIGN CHOICE, log entry 83) -/
def HifS.sendVec (h : HifS) (v : Nat) (x : Vec) : HifS :=
  { h with
    vecs := h.vecs.set ⟨false, false, true, false, 0⟩ v { x with outstanding := true, pba := false, sent := x.sent + 1 }
    rings := h.rings.foldl (fun t (r, y) => if y.vector == v && y.req then t.setD ringReset r { y with req := false } else t)
      h.rings }

/-- Bring one vector's request up to date: a rising request sends, or sets the PBA bit of a masked vector. (DESIGN CHOICE, log entry 83) -/
def HifS.settleVec (h : HifS) (now : List Nat) (v : Nat) : HifS :=
  let x := h.vecs.get ⟨false, false, true, false, 0⟩ v
  let req := now.contains v
  let rise := req && !x.req
  let y := { x with req := req }
  if rise && h.msixEn && x.masked then
    { h with vecs := h.vecs.set ⟨false, false, true, false, 0⟩ v { y with pba := true } }
  else if rise && h.msixEn && !x.outstanding then h.sendVec v y
  else { h with vecs := h.vecs.set ⟨false, false, true, false, 0⟩ v y }

/-- Bring every vector's request up to date with the levels and ring requests. (DESIGN CHOICE, log entry 83) -/
def State.settle (s : State) : State :=
  let now := s.levelVecs ++ s.hif.ringVecs
  let all := now ++ s.hif.vecs.filterMap fun (v, x) => if x.req then some v else none
  { s with hif := all.eraseDups.foldl (fun h v => h.settleVec now v) s.hif }

/-! ## The pair: role and mirror (R454, R461, R467, R468) -/

/-- The device holds the active role; standing alone, it is active from the boundary on (R456, R461, R471). -/
def State.isActive (s : State) : Bool := s.flag Reg.PAIR_STS_ROLE 0

/-- MIRROR (R469, R472): 0 OFF, 1 LINKING, 2 HANDSHAKE, 3 RESYNC, 4 SYNCED, 5 STALE. -/
def State.mirrorSt (s : State) : Nat := s.fld Reg.PAIR_STS_MIRROR 0

/-- Enter a mirror state. -/
def State.setMirror (s : State) (m : Nat) : State :=
  if s.mirrorSt == m then s else
  let s := (s.setFld Reg.PAIR_STS_MIRROR 0 m).intSet Ty.PAIR 0 3
  if m == 3 then s.count Reg.PAIR_RESYNCS 0
  else if m == 4 then
    { s with pair := { s.pair with syncedAt := s.tm.m } }.setFlag Reg.PAIR_STS_ACTIVE_STALE 0 false
  else s

/-- The mirror becomes STALE, once the pair key is agreed (R469). (DEDUCED, log entry 41) -/
def State.mirrorStale (s : State) : State := if s.mirrorSt == 3 || s.mirrorSt == 4 then s.setMirror 5 else s

/-- Bytes a record takes in a mate frame and in the 8 MiB held: 8 of header, and this model's body. (DESIGN CHOICE, log entry 63) -/
def MRec.size (r : MRec) : Nat := 12 + 8 * r.nums.length + r.data.foldl (fun a d => a + 2 + d.length) 0

/-- Bytes of unacknowledged records (R469). -/
def PairS.held (p : PairS) : Nat := p.out.foldl (fun a r => a + r.2.size) 0

/-- Send a mirror record to the mate (R467, R469): in the active device, from RESYNC on; a record that does not fit the 8 MiB is
dropped, and the mirror-buffer checker may find inverted check bits (R474). -/
def State.mirror (s : State) (mtype : Nat) (nums : List Nat) (data : List Bytes) : State :=
  if s.isActive && (s.mirrorSt == 3 || s.mirrorSt == 4) then
    let rec1 : MRec := ⟨mtype, nums, data⟩
    if 8388608 < s.pair.held + rec1.size then (s.count Reg.PAIR_MIRROR_DROP 0).mirrorStale else
    let p := { s.pair with mseq := s.pair.mseq + 1, out := s.pair.out ++ [(s.pair.mseq + 1, rec1)] }
    let s := { s with pair := p }.count64 Reg.PAIR_MIRROR_SENT_LO 0
    if s.inv Ty.PAIR 0 0 then (s.raiseInv Ty.PAIR 0 2 s.pair.mseq 0).mirrorStale else s
  else s

/-- A host may write what is mirrored: everywhere but in a standby with PAIR_EN set (R468). -/
def State.mirrorOpen (s : State) : Bool := s.isActive || !s.flag Reg.PAIR_CTL_PAIR_EN 0

/-- A host write to a mirrored register, record or table: in a standby with PAIR_EN set it is ignored and counted (R468). -/
def State.mirrored (s : State) (f : State → State) : State :=
  if s.mirrorOpen then f s else s.count Reg.PAIR_MIRROR_WRITE_REJECT 0

/-! ## Injected frames (R369, R420) -/

/-- An injected frame has left or has been dropped (R369, R420): its completion, with the egress time where it was asked
for. Other frames have none. (DEDUCED, log entry 72) -/
def State.injFin (s : State) (p : Pkt) (st : Nat) (time : Option Nat) : State :=
  match p.inj with
  | some j =>
    let d : InjDone := ⟨j, st, if j.tsReq then time else none⟩
    { s with injDone := s.injDone ++ [d] }
  | none => s

/-! ## The outcome of a command -/

/-- The device is under reset or without its main supplies (R521, R533). -/
def State.off (s : State) : Bool := s.lcs.off

/-- What every command ends with: the interrupt vectors brought up to date, the queue as `step` left it, the part the same. -/
def State.done (s t : State) : State := { t.settle with pending := s.pending, part := s.part }

/-- A command that always acts. (DEDUCED, log entry 18) -/
def always (s : State) (f : State → State) : Host.Outcome State Fault Refusal := .next (s.done (f s))

/-- A command that acts while the device is halted, and has no effect while it is under reset or without its supplies. (DEDUCED, log entry 18) -/
def powered (s : State) (f : State → State) : Host.Outcome State Fault Refusal := .next (if s.off then s else s.done (f s))

/-- A command that a halted device, or one under reset, ignores (R444). (DEDUCED, log entry 18) -/
def live (s : State) (f : State → State) : Host.Outcome State Fault Refusal :=
  .next (if s.halted || s.off then s else s.done (f s))

end Sys2Proof.Machine
end

