-- ==== Sys2Proof/Machine/Time.lean ====
section
/-! DEFINITION. The Astrolabe (R335 to R355) and the tick generator (R18 to R27): domain counters, adjustments, holdover,
the switch of network time, compares, PPS, snapshots, the meridian count, E and H. -/

namespace Sys2Proof.Machine

/-! ## Units: times are in units of 2^−32 ns -/

/-- One nanosecond. -/
def nsU : Nat := 2 ^ 32
/-- One second. -/
def secU : Nat := 1000000000 * nsU
/-- The counter's modulus: 48 bits of seconds (R335). -/
def timeMod : Nat := 2 ^ 48 * secU
/-- 125 µs. -/
def tickU : Nat := 125000 * nsU
/-- The tick lead of 4 µs (R20). -/
def leadU : Nat := 4000 * nsU

/-- Seconds, nanoseconds and 16-bit sub-nanoseconds of a time. -/
def secOf (t : Nat) : Nat := t / secU % 2 ^ 48
def nanoOf (t : Nat) : Nat := t % secU / nsU
def subOf (t : Nat) : Nat := t % nsU / 2 ^ 16

/-- A domain at reset. -/
def domReset : Dom := { t := 0, el := 0, adj := none, since := 0, hold := false, held := 0, acc := 0xFFFF }

/-- Domain d. -/
def State.dom (s : State) (d : Nat) : Dom := s.tm.doms.get domReset d

/-- Store domain d. -/
def State.setDom (s : State) (d : Nat) (x : Dom) : State :=
  { s with tm := { s.tm with doms := s.tm.doms.set domReset d x } }

/-- INCR of a domain in units per core cycle (R335, R336). -/
def State.incr (s : State) (d : Nat) : Nat :=
  bitsOf (s.rd (Reg.AST_INCR_LO.at 0 + 0x40 * d)).toNat 0 32 +
    2 ^ 32 * bitsOf (s.rd (Reg.AST_INCR_HI.at 0 + 0x40 * d)).toNat 0 8

/-- Both domain counters and elapsed counts moved on to core cycle c of the tick (R335); never back. The flags that a new cycle finds
set can be cleared in it (R9). -/
def State.advanceTo (s : State) (c : Nat) : State :=
  let n := c - s.tm.cycle
  let step (d : Nat) : Dom :=
    let x := s.dom d
    { x with t := (x.t + s.incr d * n) % timeMod, el := (x.el + s.incr d * n) % 2 ^ 96 }
  let a := step 0
  let b := step 1
  let s := (s.setDom 0 a).setDom 1 b
  { s with tm := { s.tm with cycle := max s.tm.cycle c }, seen := if s.tm.cycle < c then s.regs else s.seen }

/-- Network time: the active domain's time less the residual (R339). -/
def State.netTime (s : State) : Nat := (((s.dom s.tm.active).t : Int) - s.tm.resid).toNat % timeMod

/-- The time a domain number of a selector names: 0 A, 1 B, 2 network time. -/
def State.timeOf (s : State) (d : Nat) : Nat := if d ≤ 1 then (s.dom d).t else s.netTime

/-- Whether a domain is declared valid (R341). -/
def State.domValid (s : State) (d : Nat) : Bool := s.flag Reg.AST_DOM_CTL_VALID 0 (0x40 * d)

/-- The active domain is declared valid. -/
def State.netValid (s : State) : Bool := s.domValid s.tm.active

/-- ACC_NOW of a domain (R338). -/
def State.accNow (s : State) (d : Nat) : Nat :=
  if (s.dom d).hold then (s.dom d).acc else s.fld Reg.AST_DOM_CTL_ACCURACY 0 (0x40 * d)

/-! ## Increment, adjustment, holdover -/

/-- An end of holdover, or a restart of its watchdog, by a discipline of the domain (R338). -/
def State.disciplined (s : State) (d : Nat) : State :=
  let x := s.dom d
  if x.hold && !s.flag Reg.AST_DOM_CTL_HOLD 0 (0x40 * d) then
    (s.setDom d { x with since := 0, hold := false, held := 0 }).intSet Ty.AST 0 5
  else s.setDom d { x with since := 0 }

/-- Entry into holdover (R338): counted once in the flag. -/
def State.enterHoldover (s : State) (d : Nat) : State :=
  let x := s.dom d
  if x.hold then s else
  (s.setDom d { x with hold := true, held := 0, acc := s.fld Reg.AST_DOM_CTL_ACCURACY 0 (0x40 * d) }).intSet Ty.AST 0 5

/-- INCR_WRITE (R336): INCR_HI and INCR_LO commit together; a value outside 0.8 ns ± 1,000 ppm is refused. -/
def State.incrWrite (s : State) (d v cycle : Nat) : State :=
  let v := v % 2 ^ 40
  if v < 3432537863 ∨ 3439409811 < v then s.count Reg.AST_INCR_REJECT 0
  else
    let s := s.advanceTo (min cycle s.tm.len)
    let s := s.wr (Reg.AST_INCR_LO.at 0 + 0x40 * d) (BitVec.ofNat 32 v)
    let s := s.wr (Reg.AST_INCR_HI.at 0 + 0x40 * d) (BitVec.ofNat 32 (v / 2 ^ 32))
    s.disciplined d

/-- ADJ_CTL.START (R337): the operation pends with the values the ADJ registers hold. -/
def State.adjStart (s : State) (d : Nat) (set : Bool) : State :=
  let o := 0x40 * d
  let sec := bitsOf (s.rd (Reg.AST_ADJ_S_LO.at 0 + o)).toNat 0 32 + 2 ^ 32 * bitsOf (s.rd (Reg.AST_ADJ_S_HI.at 0 + o)).toNat 0 16
  s.setDom d { s.dom d with
    adj := some { set := set, sec := sec, ns := s.fld Reg.AST_ADJ_NS_NS 0 o, sub := s.fld Reg.AST_ADJ_CTL_SUBNS 0 o } }

/-- A write of ADJ_CTL: SUBNS and OP are stored, and START with OP 1 or 2 pends the adjustment. -/
def State.adjCtlWrite (s : State) (d v : Nat) : State :=
  let s := s.plainWrite (Reg.AST_ADJ_CTL.at 0 + 0x40 * d) v
  if bitOf v 31 then
    match bitsOf v 16 2 with
    | 1 => s.adjStart d false
    | 2 => s.adjStart d true
    | _ => s
  else s

/-- A domain's counter after its pending adjustment (R337). -/
def Dom.adjusted (x : Dom) : Dom :=
  match x.adj with
  | none => x
  | some a =>
    let v := a.ns * nsU + a.sub * 2 ^ 16
    if a.set then { x with t := (a.sec * secU + v) % timeMod, adj := none }
    else { x with t := (((x.t : Int) + toSigned 48 a.sec * secU + v) % timeMod).toNat, adj := none }

/-- A write of DOM_CTL (R338, R341): VALID, leap flags, accuracy; HOLD set puts the domain in holdover. -/
def State.domCtlWrite (s : State) (d v : Nat) : State :=
  let s := s.plainWrite (Reg.AST_DOM_CTL.at 0 + 0x40 * d) v
  let s := { s with bin := { s.bin with invTick := s.bin.invTick || !s.netValid } }
  if s.flag Reg.AST_DOM_CTL_HOLD 0 (0x40 * d) then s.enterHoldover d else s

/-! ## Compares, PPS, captures, snapshots -/

/-- T64 of R342. -/
def t64 (t : Nat) : Nat := (secOf t * 1000000000 + nanoOf t) % 2 ^ 64

/-- The target of a compare channel in nanoseconds (R342). -/
def State.cmpTarget (s : State) (c : Nat) : Nat :=
  let o := 16 * c
  let sec := bitsOf (s.rd (Reg.AST_CMP_S_LO.at 0 + o)).toNat 0 32 + 2 ^ 32 * bitsOf (s.rd (Reg.AST_CMP_S_HI.at 0 + o)).toNat 0 16
  (sec * 1000000000 + s.fld Reg.AST_CMP_NS_NS 0 o) % 2 ^ 64

/-- Store a target given in nanoseconds. -/
def State.setCmpTarget (s : State) (c t : Nat) : State :=
  let o := 16 * c
  let sec := t / 1000000000
  let s := s.wr (Reg.AST_CMP_S_LO.at 0 + o) (BitVec.ofNat 32 sec)
  let s := s.wr (Reg.AST_CMP_S_HI.at 0 + o) (BitVec.ofNat 32 (sec / 2 ^ 32 % 2 ^ 16))
  s.wr (Reg.AST_CMP_NS.at 0 + o) (BitVec.ofNat 32 (t % 1000000000))

/-- The time a channel compares with. -/
def State.cmpNow (s : State) (c : Nat) : Nat :=
  t64 (s.timeOf (if s.flag Reg.AST_CMP_CTL_FOLLOW_ACTIVE 0 (16 * c) then 2 else s.fld Reg.AST_CMP_CTL_DOMAIN 0 (16 * c)))

/-- A channel's firing, if its target is reached (R342): INT_STS.CMP, and a periodic target moves on to the first
instance in the future, CMP_LATE counting where more than one period is passed or the target was written in the past.
True if the channel drives PPS_OUT. -/
def State.cmpFire1 (s : State) (c : Nat) (written : Bool) : State × Bool :=
  let o := 16 * c
  let target := s.cmpTarget c
  let d := toSigned 64 ((s.cmpNow c + 2 ^ 64 - target) % 2 ^ 64)
  if !s.on Reg.AST_CMP_CTL_EN 0 o || bitOf s.tm.cmpFired c || decide (d < 0) then (s, false) else
  let s := s.intSet Ty.AST 0 7
  let pps := s.flag Reg.AST_CMP_CTL_PPS 0 o
  let per := s.fld Reg.AST_CMP_CTL_PERIOD 0 o * 1000000
  if per == 0 then ({ s with tm := { s.tm with cmpFired := setBitOf s.tm.cmpFired c true } }, pps)
  else
    let k := d.toNat / per + 1
    let s := s.setCmpTarget c ((target + k * per) % 2 ^ 64)
    (if written || decide (1 < k) then s.count Reg.AST_CMP_LATE 0 else s, pps)

/-- One pulse of PPS_OUT (R343), if the ball is enabled. -/
def State.ppsPulse (s : State) (fired : Bool) : State :=
  if fired && s.on Reg.AST_PPS_CFG_PPS_OUT_EN 0 then { s with tm := { s.tm with ppsOut := s.tm.ppsOut + 1, ppsAt := some (s.tm.base + s.tm.cycle) } } else s

/-- Every channel that has reached its target fires; channels that fire together give one pulse. -/
def State.cmpFireAll (s : State) : State :=
  let (s, p0) := s.cmpFire1 0 false
  let (s, p1) := s.cmpFire1 1 false
  let (s, p2) := s.cmpFire1 2 false
  let (s, p3) := s.cmpFire1 3 false
  s.ppsPulse (p0 || p1 || p2 || p3)

/-- After a register of channel c has been written: the target is new, and fires at once if it lies in the past. (DEDUCED, log entry 76) -/
def State.cmpWritten (s : State) (c : Nat) : State :=
  let s := { s with tm := { s.tm with cmpFired := setBitOf s.tm.cmpFired c false } }
  let (s, p) := s.cmpFire1 c true
  s.ppsPulse p

/-- Store a time in an S_LO, S_HI, NS triple (R345, R353). -/
def State.putTime (s : State) (lo : Nat) (t : Nat) : State :=
  let s := s.wr lo (BitVec.ofNat 32 (secOf t))
  let s := s.wr (lo + 4) (BitVec.ofNat 32 (secOf t / 2 ^ 32 % 2 ^ 16 + subOf t * 2 ^ 16))
  s.wr (lo + 8) (BitVec.ofNat 32 (nanoOf t))

/-- A time moved back by a two's complement delay of 1/16 ns units. -/
def lessDelay (t delay : Nat) : Nat := (((t : Int) - toSigned 16 delay * 2 ^ 28) % timeMod).toNat

/-! ## The meridian count (R18 to R25) -/

/-- The E of the latest TIME_STEP_BACK entry of the Logbook (R25), 0 if there is none. (DEDUCED, log entry 76) -/
def logbookE : List Bytes → Nat → Nat
  | e :: c :: rest, acc =>
    if beAt e 6 1 == 0x20 && bitOf (beAt e 7 1) 7 && beAt e 14 2 == crc16 (sliceB e 0 14) then logbookE rest (beAt c 0 6)
    else logbookE (c :: rest) acc
  | _, acc => acc

/-- The intended E of R19. (DEDUCED, log entry 76) -/
def State.intendedE (s : State) : Nat := s.tm.ePend.getD s.tm.e

/-- The count of the next tick, as far as it is settled: m + 1, or the greater number to which a tick step or a pending E carries it
(R22, R23). What is prepared in a tick for the frame after it is prepared for this one. -/
def State.nextM (s : State) : Nat := max (s.tm.m + 1) (s.tm.planJ + s.intendedE)

/-- EPOCH_WRITE (R19): a greater E becomes pending; any other is ignored and counted. (DEDUCED, log entry 76) -/
def State.epochWrite (s : State) (e : Nat) : State :=
  let e := e % 2 ^ 48
  if s.intendedE < e then { s with tm := { s.tm with ePend := some e } } else s.count Reg.AST_EPOCH_REJECT 0

/-- TIME_STEP_BACK (R24): flag, NOTICE, Logbook entry with the new E and M, and E in the backup cell. (DEDUCED, log entry 76) -/
def State.timeStepBack (s : State) : State :=
  let s := s.count Reg.AST_TIME_STEP_BACK 0
  let s := s.event ⟨Ty.AST, 0, 0, 0, 0, false, none⟩ .notice
  let s := s.logPut (logEntry s 0x20 0 Ty.AST 0 0 0 true)
  let s := s.logPut (logCont (toBE 6 s.tm.e ++ toBE 6 s.tm.m))
  { s with lcs := { s.lcs with vbat := { s.lcs.vbat with e := s.tm.e } } }

/-- Store a new meridian count and E. -/
def State.setCount (s : State) (m e : Nat) : State := { s with tm := { s.tm with m := m % 2 ^ 48, e := e % 2 ^ 48 } }

/-- HIGH_WATER_UPDATE (R25): H is raised to G, and the cell's E is the current one. -/
def State.highWater (s : State) : State :=
  let g := s.tm.m / 65536 * 65536 + 131072
  { s with lcs := { s.lcs with vbat := { s.lcs.vbat with h := max s.lcs.vbat.h g, e := s.tm.e } } }

/-- MERIDIAN_COUNT_UPDATE (R23) at a boundary placed at network tick j, with a pending E taken first. -/
def State.countUpdate (s : State) (j : Nat) : State :=
  let m := s.tm.m
  let oldE := s.tm.e
  let e := s.intendedE
  let wrote := s.tm.ePend.isSome
  let s := { s with tm := { s.tm with ePend := none } }
  if m + 1 < j + e then
    let s := s.setCount (j + e) e
    if wrote && decide (j + oldE ≤ m + 1) then s.count Reg.AST_EPOCH_ADVANCE 0 else s.count Reg.AST_TIME_STEP_FWD 0
  else if j + e < m + 1 then (s.setCount (m + 1) (m + 1 - j)).timeStepBack
  else s.setCount (m + 1) e

/-- MERIDIAN_COUNT_START (R25) at a boundary at network tick j. (DEDUCED, log entry 76) -/
def State.countStart (s : State) (j : Nat) : State :=
  let v := s.lcs.vbat
  let e := max (max v.e (logbookE s.lcs.otp.log 0)) s.intendedE
  let s := { s with tm := { s.tm with free := false, ePend := none } }
  if j + e < v.h + 1 then (s.setCount (v.h + 1) (v.h + 1 - j)).timeStepBack else s.setCount (j + e) e

/-! ## The tick generator (R20, R22) -/

/-- The phase error at the boundary placed at network tick j, in units of 2^−32 ns. -/
def State.phase (s : State) (j : Nat) : Int := (s.netTime : Int) - ((j : Int) * tickU - leadU)

/-- The cycles from now to the first core cycle at or after B(j) − 4 µs (R20). -/
def State.cyclesTo (s : State) (j : Nat) : Nat :=
  let d : Int := ((j : Int) * tickU - leadU) - s.netTime
  ceilDiv d.toNat (s.incr s.tm.active)

/-- The first network tick from j whose boundary is at least 156,200 cycles away (R22), trying n of them. -/
def State.stepTick (s : State) (j : Nat) : Nat → Nat
  | 0 => j
  | n + 1 => if 156200 ≤ s.cyclesTo j then j else s.stepTick (j + 1) n

/-- The length of the tick that begins at the boundary of network tick j, and where its next boundary is placed (R22). -/
def State.planTick (s : State) (j : Nat) : State :=
  let φ := s.phase j
  let ns := φ.tdiv nsU
  let s := s.setReg Reg.AST_PHASE_ERR 0 (ofSigned 32 ns)
  if φ.natAbs ≤ 40 * nsU then
    let len := clampNat 156200 156300 (s.cyclesTo (j + 1))
    { s with tm := { s.tm with len := len, planJ := j + 1, slewing := false, stepped := false } }
  else if φ.natAbs ≤ leadU then
    let s := if s.tm.slewing then s else s.count Reg.AST_TICK_SLEW 0
    let len := if 0 < φ then 156200 else 156300
    { s with tm := { s.tm with len := len, planJ := j + 1, slewing := true, stepped := false } }
  else
    let j0 := (s.netTime + leadU) / tickU
    let j1 := s.stepTick j0 4
    { s with tm := { s.tm with len := s.cyclesTo j1, planJ := j1, slewing := false, stepped := true, lineErr := 0 } }

/-- An amount moved 8 ns towards 0. -/
def toward0 (r : Int) : Int := if r.natAbs ≤ 8 * nsU then 0 else if 0 < r then r - 8 * nsU else r + 8 * nsU

/-- SLEW_STEP (R340): R moves 8 ns towards 0, with SWITCH_DONE at 0. -/
def State.slewStep (s : State) : State :=
  let r := s.tm.resid
  if r == 0 then s else
  let r' : Int := toward0 r
  let s := { s with tm := { s.tm with resid := r' } }
  if r' == 0 then s.intSet Ty.AST 0 6 else s

/-- The signed difference of two times. -/
def timeDiff (a b : Nat) : Int :=
  let d := (a + timeMod - b % timeMod) % timeMod
  if d < timeMod / 2 then d else (d : Int) - timeMod

/-- A change of network time at a boundary, as the tree transmitters take it up (R63): one of up to 8 ns as a change of symbol rate, one of
up to 4 µs at 8 ns per tick, added to what they have still to take up; a greater one is a tick step. -/
def State.lineTake (s : State) (d : Int) : State :=
  if s.tm.free || d.natAbs ≤ 8 * nsU then s
  else { s with tm := { s.tm with lineErr := if d.natAbs ≤ leadU then s.tm.lineErr + d else 0 } }

/-- DOMAIN_SWITCH_EVAL (R340): a switch requested before the boundary is refused or made. -/
def State.switchEval (s : State) : State :=
  match s.tm.swReq with
  | none => s
  | some (target, step) =>
    let s := { s with tm := { s.tm with swReq := none } }
    let δ : Int := ((s.dom target).t : Int) - (s.dom s.tm.active).t
    if target == s.tm.active || !s.domValid target || decide (s.tm.resid ≠ (0:Int)) then s.count Reg.AST_SWITCH_REJECT 0
    else if step then { s with tm := { s.tm with active := target, resid := 0 } }
    else if δ.natAbs > 10000000 * nsU then s.count Reg.AST_SWITCH_REJECT 0
    else
      let s := { s with tm := { s.tm with active := target, resid := δ } }
      if δ = 0 then s.intSet Ty.AST 0 6 else s

/-- The Astrolabe's and tick generator's part of a tick boundary: counters to the end of the tick; the count; the
adjustments, the slew and the switch; the length of the new tick. The first counted boundary counts as the network tick whose boundary
the end of free ticking has reached or passed. (DESIGN CHOICE, log entry 88) -/
def State.timeBoundary (s : State) : State :=
  let s := s.advanceTo s.tm.len
  let bump (d : Nat) : Dom := let x := s.dom d; { x with since := x.since + 1, held := if x.hold then x.held + 1 else 0 }
  let a := bump 0
  let b := bump 1
  let s := (s.setDom 0 a).setDom 1 b
  let s := { s with tm := { s.tm with base := s.tm.base + s.tm.len, cycle := 0, tickNo := s.tm.tickNo + 1 } }
  let s := { s with tm := { s.tm with wasStep := s.tm.stepped && decide (156250 < s.tm.len)
                                      stepGap := if s.tm.stepped then s.tm.len * s.incr s.tm.active - tickU else 0
                                      lineErr := toward0 s.tm.lineErr } }
  let s := if s.tm.free then s else s.countUpdate s.tm.planJ
  let t0 := s.netTime
  let s := (s.setDom 0 (s.dom 0).adjusted).setDom 1 (s.dom 1).adjusted
  let s := s.lineTake (timeDiff s.netTime t0)
  let s := if s.inv Ty.AST 0 0 then
      ((s.raise Ty.AST 0 1 0 0).setFlag Reg.AST_DOM_CTL_VALID 0 false).setFlag Reg.AST_DOM_CTL_VALID 0 false 0x40 else s
  let s := s.slewStep
  let t0 := s.netTime
  let s := s.switchEval
  let s := s.lineTake (timeDiff s.netTime t0)
  if s.tm.free then
    if s.netValid then
      let j := (s.netTime + leadU) / tickU
      let s := s.countStart j
      (s.planTick j).highWater
    else
      let s := match s.tm.ePend with
        | some e =>
          { s with tm := { s.tm with e := e, ePend := none }, lcs := { s.lcs with vbat := { s.lcs.vbat with e := e } } }
        | none => s
      { s with tm := { s.tm with len := 156250 } }
  else (s.planTick s.tm.planJ).highWater

/-! ## The commands -/

/-- EPOCH_WRITE. -/
def execEpochWrite (e : Nat) (s : State) := live s fun s => s.mirrored fun s => s.epochWrite e

/-- INCR_WRITE. -/
def execIncrWrite (d incr cycle : Nat) (s : State) := live s fun s => s.incrWrite (d % 2) incr cycle

/-- ADJ_ADD. -/
def execAdjAdd (d subns : Nat) (s : State) := live s fun s => s.adjCtlWrite (d % 2) (subns % 2 ^ 16 + 2 ^ 16 + 2 ^ 31)

/-- ADJ_SET. -/
def execAdjSet (d subns : Nat) (s : State) := live s fun s => s.adjCtlWrite (d % 2) (subns % 2 ^ 16 + 2 * 2 ^ 16 + 2 ^ 31)

/-- KEEPALIVE. -/
def execKeepalive (d : Nat) (s : State) := live s fun s => s.disciplined (d % 2)

/-- HOLDOVER_ENTER: with HOLD_TICKS not 0 and reached. -/
def execHoldoverEnter (d : Nat) (s : State) := live s fun s =>
  let d := d % 2
  let lim := s.fld Reg.AST_DOM_HOLD_HOLD_TICKS 0 (0x40 * d)
  if lim != 0 && decide (lim ≤ (s.dom d).since) then s.enterHoldover d else s

/-- ACC_GROWTH: at the end of every 8,000 ticks of holdover. -/
def execAccGrowth (d : Nat) (s : State) := live s fun s =>
  let d := d % 2
  let x := s.dom d
  if x.hold && decide (8000 ≤ x.held) then
    s.setDom d { x with held := x.held - 8000, acc := min 0xFFFF (x.acc + s.fld Reg.AST_DOM_HOLD_ACC_GROWTH 0 (0x40 * d)) }
  else s

/-- DOMAIN_SWITCH_START: TARGET and MODE are stored, and the switch is judged at the next boundary. -/
def State.switchStart (s : State) (target mode : Nat) : State :=
  let s := (s.setFld Reg.AST_SWITCH_CTL_TARGET 0 target).setFld Reg.AST_SWITCH_CTL_MODE 0 mode
  { s with tm := { s.tm with swReq := some (target % 2, mode % 2 == 1) } }
def execDomainSwitchStart (target mode : Nat) (s : State) := live s fun s => s.switchStart target mode

/-- DOM_VALID_WRITE: the word written to DOM_CTL. -/
def execDomValidWrite (d : Nat) (v : Word) (s : State) := live s fun s => s.domCtlWrite (d % 2) v.toNat

/-- CMP_WRITE: the four words of channel c written at a core cycle. An ADJ_NS-like nanosecond above 999,999,999 is
ignored and counted. -/
def execCmpWrite (c : Nat) (secLo secHi ns ctl : Word) (cycle : Nat) (s : State) := live s fun s =>
  let o := 16 * (c % 4)
  let s := s.advanceTo (min cycle s.tm.len)
  let s := s.wr (Reg.AST_CMP_S_HI.at 0 + o) (BitVec.ofNat 32 (secHi.toNat % 2 ^ 16))
  let s := s.wr (Reg.AST_CMP_S_LO.at 0 + o) secLo
  let s := if 999999999 < ns.toNat % 2 ^ 30 then s.count Reg.AST_CFG_REJECT 0
    else s.plainWrite (Reg.AST_CMP_NS.at 0 + o) ns.toNat
  let s := s.plainWrite (Reg.AST_CMP_CTL.at 0 + o) ctl.toNat
  s.cmpWritten (c % 4)

/-- CMP_FIRE at a core cycle. -/
def execCmpFire (cycle : Nat) (s : State) := live s fun s => (s.advanceTo (min cycle s.tm.len)).cmpFireAll

/-- PPS_IN_EDGE at a core cycle (R344): `rising` is the edge at the ball. -/
def execPpsInEdge (rising : Bool) (cycle : Nat) (s : State) := live s fun s =>
  let s := s.advanceTo (min cycle s.tm.len)
  let near := match s.tm.ppsIn with
    | some e => decide ((s.dom 0).el < e + 1000 * nsU)
    | none => false
  if !s.on Reg.AST_PPS_CFG_PPS_IN_EN 0 || (rising == s.flag Reg.AST_PPS_CFG_PPS_IN_POL 0) || near then s else
  let delay := s.fld Reg.AST_PPS_ADJ_IN 0
  let s := s.putTime (Reg.AST_CAPT_S_LO.at 0) (lessDelay (s.dom 0).t delay)
  let s := s.putTime (Reg.AST_CAPT_S_LO.at 0 + 12) (lessDelay (s.dom 1).t delay)
  let s := (s.count Reg.AST_PPS_IN_EDGES 0).intSet Ty.AST 0 8
  { s with tm := { s.tm with ppsIn := some (s.dom 0).el } }

/-- SNAPSHOT at a core cycle (R345). -/
def State.snapshot (s : State) (cycle : Nat) : State :=
  let s := s.advanceTo (min cycle s.tm.len)
  let s := s.putTime (Reg.AST_SNAP_S_LO.at 0) (s.dom 0).t
  let s := s.putTime (Reg.AST_SNAP_S_LO.at 0 + 12) (s.dom 1).t
  let s := s.putTime (Reg.AST_SNAP_S_LO.at 0 + 24) s.netTime
  let s := s.setReg64 Reg.AST_SNAP_TICK_LO 0 s.tick
  s.setReg Reg.AST_SNAP_CYCLE 0 (s.tm.cycle % 2 ^ 18)
def execSnapshot (cycle : Nat) (s : State) := live s fun s => s.snapshot cycle

/-- TC_MATCH_EXPIRY (R349): entries of a slice unmatched for MATCH_AGE ticks are freed and counted. -/
def execTcMatchExpiry (slice : Nat) (s : State) := live s fun s =>
  let lim := s.fld Reg.AST_TC_CFG_MATCH_AGE 0
  let l := s.tm.tc.get [] slice
  let old := l.filter fun x => decide (x.age + lim ≤ s.tm.tickNo)
  let keep := l.filter fun x => !decide (x.age + lim ≤ s.tm.tickNo)
  let s := s.countN Reg.AST_TC_NO_MATCH 0 old.length
  { s with tm := { s.tm with tc := s.tm.tc.set [] slice keep } }

/-- A block soft reset of the AST page (R353): the running time is kept. -/
def State.astReset (s : State) : State :=
  let keep (off : Nat) : Bool := (decide (0x080 ≤ off) && decide (off < 0x094)) || (decide (0x0C0 ≤ off) && decide (off < 0x0D4))
  let s := { s with regs := s.regs.keep fun k _ => !(keyTy k == Ty.AST) || keep (keyOff k) }
  let s := (s.setDom 0 { s.dom 0 with adj := none }).setDom 1 { s.dom 1 with adj := none }
  { s with tm := { s.tm with swReq := none, cmpFired := 0, ppsIn := none, tc := [] } }

/-- The effects of AST error sources (R355): 0x01 clears the domain's VALID (capture word LO names the domain), 0x03
frees the entry (LO the position, HI the slice in [31:16]). A forced event affects none. (DEDUCED, log entry 23) -/
def State.astErr (s : State) (d : Det) : State :=
  if d.forced then s else
  match d.src with
  | 1 =>
    let s := s.setFlag Reg.AST_DOM_CTL_VALID 0 false (0x40 * (d.capLo % 2))
    { s with bin := { s.bin with invTick := s.bin.invTick || !s.netValid } }
  | 3 =>
    let sl := d.capHi / 2 ^ 16
    { s with tm := { s.tm with tc := s.tm.tc.set [] sl ((s.tm.tc.get [] sl).eraseIdx d.capLo) } }
  | _ => s

end Sys2Proof.Machine
end

