-- ==== Sys2Proof/Machine/Buf.lean ====
section
/-! DEFINITION. The cell pool and the spill region (R274, R277, R389): what a frame occupies, what is free, and how a frame
comes to its slice's forwarder. -/

namespace Sys2Proof.Machine

/-- The length L of a frame, FCS included (R282). -/
def frameLen (p : Pkt) : Nat := p.data.length + 4

/-- The cells of a frame (R274). -/
def frameCells (p : Pkt) : Nat := ceilDiv (frameLen p) 256

/-- Cells of the frames of a list. -/
def cellsOf (l : List Pkt) : Nat := l.foldl (fun a p => a + frameCells p) 0

/-- A slice's queues before anything is written. (DESIGN CHOICE, log entry 6) -/
def qschReset : QschS :=
  { recs := [], queues := [], nodes := [], pol := [], trees := [], trunk := [], credited := 0, sampleT := 0, sampleG := 0, sampled := 0 }

/-- The queues of slice sl. -/
def State.qs (s : State) (sl : Nat) : QschS := s.qsch.get qschReset sl

/-- Store them. -/
def State.setQs (s : State) (sl : Nat) (x : QschS) : State := { s with qsch := s.qsch.set qschReset sl x }

/-- An empty queue. (DESIGN CHOICE, log entry 6) -/
def queueReset : QueueS := { frames := [], head := 0, spill := 0, tail := 0, credit := 0, since := 0, deficit := 0 }

/-- Pages of a queue in HBM: 8 cells each (R277). -/
def QueueS.pages (q : QueueS) : Nat := ceilDiv q.spill 8

/-- On-die cells of a queue. -/
def QueueS.onDie (q : QueueS) : Nat := q.head + q.tail

/-- Occupancy (R275). -/
def QueueS.occ (q : QueueS) : Nat := q.onDie + 8 * q.pages

/-- Cells in use in the bank of slice sl (R274): frames before and in the crossbar, frames waiting for admission, queue parts
on die, and frames listed for the slice's trees and not yet sent. -/
def State.bankUsed (s : State) (sl : Nat) : Nat :=
  cellsOf (s.fwdIn.filter (·.hp / 2 == sl)) + cellsOf (s.xin.filter (·.hp / 2 == sl)) + cellsOf (s.qin.filter (·.hp / 2 == sl)) +
    (s.qs sl).queues.foldl (fun a q => a + q.2.onDie) 0 +
    s.ttx.foldl (fun a x => if x.1 / 8 == sl then a + cellsOf ((x.2.held ++ x.2.serve ++ x.2.next).map (·.pkt)) else a) 0

/-- Free cells of the bank (R295). -/
def State.bankFree (s : State) (sl : Nat) : Nat := 98304 - s.buf.withdrawn.get 0 sl - s.bankUsed sl

/-- Pages of the spill region: 2 KiB each, of the stacks that are initialised (R295, R389). -/
def State.spillPages (s : State) : Nat :=
  [0, 1].foldl (fun a i =>
    if s.present Ty.SEAL i && s.flag Reg.SEAL_STS_READY i then a + s.fld Reg.SEAL_SPILL_CFG_SIZE i * 1024 else a) 0

/-- Free pages. -/
def State.spillFree (s : State) : Nat :=
  s.spillPages - s.qsch.foldl (fun a x => x.2.queues.foldl (fun a q => a + q.2.pages) a) 0

/-- The spill region's fullness brought up to date: SPILL_FULL and its flag when it rises (R296). -/
def State.spillSettle (s : State) : State :=
  let full := s.spillFree == 0 && s.spillPages != 0
  let s' := { s with buf := { s.buf with full := full } }
  if full && !s.buf.full then s'.intSet Ty.BUF 0 3 else s'

/-- A frame goes to the forwarder of its half-pipe's slice, into cells of its bank, or finds none (R274). -/
def State.toFwd (s : State) (p : Pkt) : State :=
  if s.bankFree (p.hp / 2) < frameCells p then (s.count Reg.BUF_NO_BUFFER 0).injFin p 2 none
  else { s with fwdIn := s.fwdIn ++ [{ p with born := s.now }] }

/-- The age of a descriptor taken from a streaming stage's queue. (DEDUCED, log entry 70) -/
def State.ageSeen (s : State) (ty inst : Nat) (p : Pkt) : State :=
  let a := s.now - p.born
  let k := pageKey ty inst
  { s with ages := s.ages.set 0 k (max a (s.ages.get 0 k)) }

/-! ## Streaming stages (R17, R28, R31) -/

/-- The descriptors that wait at a streaming stage: before a forwarder, or in the crossbar. -/
def State.waitingAt (s : State) (ty inst : Nat) : List Pkt :=
  if ty == Ty.FWD then s.fwdIn.filter fun p => p.hp / 2 == inst else if ty == Ty.BUF then s.xin else []

/-- A descriptor dropped by its stage, its cells freed. (DESIGN CHOICE, log entry 69) -/
def State.stageDrop (s : State) (ty inst : Nat) (p : Pkt) (age : Bool) : State :=
  let s := if ty == Ty.FWD then { s with fwdIn := s.fwdIn.erase p } else { s with xin := s.xin.erase p }
  let s := if ty == Ty.BUF then s.count Reg.BUF_XBAR_DROP 0 else s
  let s := if age then s.overrunOnce ty inst 5 else if ty == Ty.FWD then s.count (Reg.OVERRUN_COUNT Ty.FWD) inst else s
  s.injFin p 2 none

/-- A descriptor is past its stage's age limit (R28). -/
def State.tooOld (s : State) (ty inst : Nat) (p : Pkt) : Bool := decide (s.deadlineOf ty inst < s.now - p.born)

end Sys2Proof.Machine
end

