-- ==== Sys2Proof/Machine/SealBase.lean ====
section
/-! DEFINITION. The map of a stack (R388, R389, R394): ranges, regions, counter trees; poisoned nodes and what they cover. -/

namespace Sys2Proof.Machine

/-- SEAL[i]. -/
def State.sealOf (s : State) (i : Nat) : SealS := s.sealS.get sealReset i

/-- Store it. -/
def State.setSeal (s : State) (i : Nat) (x : SealS) : State := { s with sealS := s.sealS.set sealReset i x }

/-- Lines of a 2 MiB unit. -/
def unitLines : Nat := 32768

/-- Units of the usable part: 14 GiB. -/
def usableUnits : Nat := 7168

/-- BASE, SIZE and USE of range r, in 2 MiB units. -/
def State.sealRange (s : State) (i r : Nat) : Nat × Nat × Nat :=
  let w := s.regI Reg.SEAL_RANGE_CFG i r
  (bitsOf w 0 13, bitsOf w 13 13, bitsOf w 26 2)

/-- Nodes of each level of the tree of a range of n lines, leaf level first (R394): the last has at most 8. -/
def treeLevels : Nat → Nat → List Nat
  | 0, _ => []
  | k + 1, n =>
    let m := ceilDiv n 8
    m :: if m ≤ 8 then [] else treeLevels k m

/-- Levels of range r's tree. -/
def State.sealLevels (s : State) (i r : Nat) : List Nat :=
  let (_, size, use) := s.sealRange i r
  if use == 0 || size == 0 then [] else treeLevels 9 (size * unitLines)

/-- TREE_NODES: the counter-region nodes that the map needs (R402). -/
def State.treeNodes (s : State) (i : Nat) : Nat := [0, 1, 2, 3].foldl (fun a r => a + (s.sealLevels i r).foldl (· + ·) 0) 0

/-- Where a usable line lies: a protected range, the spill region, scratch. -/
inductive SealPart where
  | range (r : Nat)
  | spill
  | scratch
  deriving DecidableEq, Repr

/-- The part of a line of stack i. -/
def State.sealPart (s : State) (i line : Nat) : SealPart :=
  let u := line / unitLines
  let hit := [0, 1, 2, 3].find? fun r =>
    let (b, n, use) := s.sealRange i r
    use != 0 && decide (b ≤ u) && decide (u < b + n)
  match hit with
  | some r => .range r
  | none =>
    let b := s.fld Reg.SEAL_SPILL_CFG_BASE i
    if b ≤ u ∧ u < b + s.fld Reg.SEAL_SPILL_CFG_SIZE i then .spill else .scratch

/-- A line of a range lies under a node of its tree. (DEDUCED, log entry 62) -/
def underNode (level index rline : Nat) : Bool := rline / 8 ^ (level + 1) == index

/-- A line of range r, numbered in the range, cannot be verified (R396, R397): its range is lost, or a node over it is
poisoned. -/
def SealS.poisonedAt (x : SealS) (r rline : Nat) : Bool :=
  x.lost.get false r || x.poisoned.any fun p => p.1 == r && underNode p.2.1 p.2.2 rline

/-- The instance and range of a USE. -/
def State.sealUse (s : State) (use : Nat) : Option (Nat × Nat) :=
  [(0, 0), (0, 1), (0, 2), (0, 3), (1, 0), (1, 1), (1, 2), (1, 3)].find? fun p =>
    s.present Ty.SEAL p.1 && (s.sealRange p.1 p.2).2.2 == use

/-- The association store is sealed and usable (R195, R390): the stack that holds ASSOC is initialised under a root. -/
def State.storeOk (s : State) : Bool :=
  match s.sealUse 1 with
  | some (i, _) => s.flag Reg.SEAL_STS_READY i && s.flag Reg.SEAL_STS_ROOT_OK i && !(s.sealOf i).zeroised
  | none => false

/-- The record of an AX lies under a poisoned node, or ASSOC is being resealed (R397, R398): its first line is 4 × AX. -/
def State.axUnsealed (s : State) (ax : Nat) : Bool :=
  match s.sealUse 1 with
  | some (i, r) =>
    let x := s.sealOf i
    x.poisonedAt r (4 * ax) || (match x.reseal with
      | some (op, q, l, n) => q == r && (op == 1 || underNode l n (4 * ax))
      | none => false)
  | none => false

/-- The staging slot of cluster c can be written and read back (R389, R396): 2 MiB at range base + c × 2 MiB. -/
def State.imgStoreOk (s : State) (c : Nat) : Bool :=
  match s.sealUse 2 with
  | some (i, r) =>
    let x := s.sealOf i
    s.flag Reg.SEAL_STS_READY i && s.flag Reg.SEAL_STS_ROOT_OK i && !x.zeroised && !x.lost.get false r &&
      !(x.poisoned.any fun p => p.1 == r && decide (p.2.2 * 8 ^ (p.2.1 + 1) < (c + 1) * unitLines) &&
        decide (c * unitLines < (p.2.2 + 1) * 8 ^ (p.2.1 + 1))) &&
      (match x.reseal with
        | some (op, q, _, _) => !(q == r && op == 1)
        | none => true)
  | none => false

end Sys2Proof.Machine
end

