-- ==== Sys2Proof/Machine/Assoc.lean ====
section
/-! DEFINITION. The association store (R191 to R206): ranges, records, installation and destruction, usage limits, hot
slots and paging, the tick IV and its sequence counters, switches at a named tick, re-masking. -/

namespace Sys2Proof.Machine

/-! ## Ranges (R191) -/

/-- The tree of a tree-owned AX, the multicast group, or the trunk SA number. -/
inductive AxRange where
  | terminal (tree term : Nat)
  | broadcast (tree : Nat)
  | group (g : Nat)
  | trunk (i : Nat)
  | pair (i : Nat)
  | soft
  deriving DecidableEq, Repr

/-- The range of an AX. -/
def axRange (ax : Nat) : AxRange :=
  if ax < 16384 then .terminal (ax / 512) (ax % 512)
  else if ax < 16416 then .broadcast (ax - 16384)
  else if ax < 20512 then .group (ax - 16416)
  else if ax < 28704 then .trunk (ax - 20512)
  else if ax < 28712 then .pair (ax - 28704)
  else .soft

/-- The associations whose IV is the tick IV. -/
def isTickIv (ax : Nat) : Bool := decide (ax < 20512) || ax == 28704

/-- Always pinned: broadcast, trunk SA and pair link. -/
def pinAlways (ax : Nat) : Bool :=
  match axRange ax with
  | .broadcast _ | .trunk _ | .pair _ => true
  | _ => false

/-- The slices whose hot slots hold an AX. -/
def State.axSlices (s : State) (ax : Nat) : List Nat :=
  match axRange ax with
  | .terminal t _ | .broadcast t => [t / 8]
  | .group g => (s.alm.members.filterMap fun (h, a) => if h == g then some (a / 512 / 8) else none).eraseDups
  | .trunk i => [i / 256 / 8]
  | .pair _ => [0]
  | .soft => []

/-- The unit an AX belongs to is absent on the part (R3). -/
def State.axAbsent (s : State) (ax : Nat) : Bool :=
  match axRange ax with
  | .terminal t _ | .broadcast t => !s.hasTree t
  | .trunk i => !s.present Ty.MSEC (i / 256)
  | _ => false

/-! ## Records -/

/-- A record nothing has written. (DESIGN CHOICE, log entry 6) -/
def assocReset : Assoc :=
  { st := .invalid, fault := false, pin := false, exp := false, usage := 0, limit := 36, cur := 0, p0 := none, p1 := none
    sw := none }

/-- The record of an AX. -/
def State.assoc (s : State) (ax : Nat) : Assoc := s.alm.recs.get assocReset ax

/-- A position's key under the mask of its hot slot (R197). -/
def maskKey (m : Bytes) (k : Option KPos) : Bytes :=
  match k with
  | some k => xorB k.key m
  | none => []

/-- A hot slot with the keys of its record under a mask, written in one cycle. -/
def Hot.remask (h : Hot) (a : Assoc) (m : Bytes) : Hot := { h with mask := m, k0 := maskKey m a.p0, k1 := maskKey m a.p1 }

/-- Store a record, and the keys in the slots in which it is hot. -/
def State.setAssoc (s : State) (ax : Nat) (a : Assoc) : State :=
  { s with alm := { s.alm with
      recs := s.alm.recs.set assocReset ax a
      hot := s.alm.hot.mapV (fun _ => []) fun _ l => l.map fun h => if h.ax == ax then h.remask a h.mask else h } }

/-- Position p. -/
def Assoc.pos (a : Assoc) (p : Nat) : Option KPos := if p % 2 == 0 then a.p0 else a.p1

/-- Store position p. -/
def Assoc.setPos (a : Assoc) (p : Nat) (k : Option KPos) : Assoc := if p % 2 == 0 then { a with p0 := k } else { a with p1 := k }

/-- INVALID clears both positions, the counts and any pending switch (R193). FAULT is set by a fault, and only the next installation
clears it. -/
def Assoc.clear (a : Assoc) (fault : Bool) : Assoc :=
  { a with st := .invalid, p0 := none, p1 := none, sw := none, fault := fault || a.fault }

/-- A key position as the pair mirror carries it (R467): has, KSIZE, count, KGEN, warned. -/
def posNums (k : Option KPos) : List Nat :=
  match k with
  | some k => [1, if k.k256 then 1 else 0, k.use, k.kgen, if k.warned then 1 else 0]
  | none => [0, 0, 0, 0, 0]

/-- The pair wrap key WK (R465). -/
def State.wk (s : State) : Bytes :=
  match (s.assoc 28705).p0 with
  | some k => k.key
  | none => []

/-- A key wrapped under a wrap key; none stays none. -/
def wrapKey (wk b : Bytes) : Bytes := if b.isEmpty then [] else Config.keyWrap wk b

/-- A position's keys, each wrapped under the pair wrap key. -/
def posKeys (wk : Bytes) (k : Option KPos) : List Bytes :=
  match k with
  | some k => [wrapKey wk k.key, wrapKey wk k.mic, wrapKey wk k.wrap]
  | none => [[], [], []]

/-- The code of STATE in the attribute word (R218). -/
def AState.code : AState → Nat
  | .invalid => 0
  | .active => 1
  | .stopped => 2

/-- Mirror an association of AX 0 to 20,511 to the mate (R467 MTYPE 0x04). -/
def State.mirrorAx (s : State) (ax : Nat) : State :=
  if 20511 < ax then s else
  let a := s.assoc ax
  let b (y : Bool) : Nat := if y then 1 else 0
  let wk := s.wk
  let sw : List Nat := match a.sw with
    | some w => [1, w.t, w.q, b w.taken]
    | none => [0, 0, 0, 0]
  s.mirror 4 ([ax, a.st.code, b a.fault, b a.pin, b a.exp, a.usage, a.limit, a.cur] ++ posNums a.p0 ++ posNums a.p1 ++ sw)
    (posKeys wk a.p0 ++ posKeys wk a.p1)

/-- PIN as it reads: forced in the ranges of R196. -/
def Assoc.pinned (ax : Nat) (a : Assoc) : Bool := pinAlways ax || a.pin

/-! ## Events (R221, R222) -/

/-- Post an ALM event record. -/
def State.almEvent (s : State) (code pos ax count : Nat) : State :=
  if !s.on Reg.ALM_EVT_CFG_EN 0 then s else
  let item := toBE 1 code ++ toBE 1 pos ++ toLE 3 ax ++ [0] ++ toLE 6 s.tick ++ toLE 4 (count / 256)
  let (s, ok) := s.postEvent (s.fld Reg.ALM_EVT_CFG_RING 0) Ty.ALM 0 item
  if ok then s else s.count Reg.ALM_EVT_DROP 0

/-- Tell the key agent. -/
def State.tellKa (s : State) (ax what : Nat) : State := { s with alm := { s.alm with toKa := s.alm.toKa ++ [(ax, what)] } }

/-! ## Hot slots (R196 to R200) -/

/-- The hot slots of a slice. -/
def State.hotOf (s : State) (sl : Nat) : List Hot := s.alm.hot.get [] sl

/-- Store a slice's hot slots. -/
def State.setHot (s : State) (sl : Nat) (l : List Hot) : State := { s with alm := { s.alm with hot := s.alm.hot.set [] sl l } }

/-- Whether an AX is hot in a slice. -/
def State.isHot (s : State) (sl ax : Nat) : Bool := (s.hotOf sl).any fun h => h.ax == ax

/-- Remove an AX from every slice's hot slots. -/
def State.cool (s : State) (ax : Nat) : State :=
  [0, 1, 2, 3].foldl (fun s sl => if s.isHot sl ax then s.setHot sl ((s.hotOf sl).filter fun h => h.ax != ax) else s) s

/-- Remove an AX from the hot slots of the slices that no longer hold it (R191): a group's slice without a member tree. -/
def State.coolOut (s : State) (ax : Nat) : State :=
  [0, 1, 2, 3].foldl (fun s sl =>
    if s.isHot sl ax && !(s.axSlices ax).contains sl then s.setHot sl ((s.hotOf sl).filter fun h => h.ax != ax) else s) s

/-- The lowest slot number that a slice's slots leave free. -/
def freeSlot (l : List Hot) : Nat := ((List.range 4096).find? fun n => !(l.any fun h => h.slot == n)).getD 0

/-- The pinned slots of a slice. -/
def State.pinnedIn (s : State) (sl : Nat) : Nat := (s.hotOf sl).countP fun h => (s.assoc h.ax).pinned h.ax

/-- The slot to evict (R200): the least recently used one neither pinned nor held; a demand load takes the least
recently used held one where there is no other. -/
def State.victim (s : State) (sl : Nat) (demand : Bool) : Option Hot :=
  let free := (s.hotOf sl).filter fun h => !(s.assoc h.ax).pinned h.ax
  let lru (l : List Hot) : Option Hot := l.foldl (fun b h => match b with
    | none => some h
    | some x => if h.stamp < x.stamp then some h else some x) none
  match lru (free.filter fun h => decide (h.hold < s.tick)) with
  | some h => some h
  | none => if demand then lru free else none

/-- Destroy an association: INVALID, out of every hot slot, no switch named. -/
def State.destroyAx (s : State) (ax : Nat) (fault : Bool) : State :=
  (((s.setAssoc ax ((s.assoc ax).clear fault)).cool ax).unname .phase ax 0).mirrorAx ax

/-- What an error completion on a record's load or write-back does (R201, R217): the association becomes INVALID; the count and the
event record. -/
def State.recordErr (s : State) (ax : Nat) : State := ((s.destroyAx ax true).count Reg.ALM_LOAD_ERR 0).almEvent 0x42 0 ax 0

/-- A record's load returned an error completion, which is error source 0x03 too (R220). -/
def State.loadErr (s : State) (ax : Nat) : State := (s.recordErr ax).raise Ty.ALM 0 3 ax 0

/-- Load an association into a hot slot of a slice (R199, R200): a slot already there keeps the later hold. True if it is
hot afterwards. ERR_INV_CHECK bit 1 makes the load return an error completion (R220). -/
def State.load (s : State) (sl ax hold : Nat) (demand : Bool) : State × Bool :=
  if s.isHot sl ax then
    (s.setHot sl ((s.hotOf sl).map fun h => if h.ax == ax then { h with hold := max h.hold hold } else h), true)
  else
    let room : Option State :=
      if (s.hotOf sl).length < 4096 then some s else
      match s.victim sl demand with
      | some v => some ((s.setHot sl ((s.hotOf sl).filter fun h => h.ax != v.ax)).count64 Reg.ALM_EVICTIONS_LO 0)
      | none => none
    match room with
    | none => (if demand then s else s.count Reg.ALM_PREFETCH_FULL 0, false)
    | some s =>
      if s.inv Ty.ALM 0 1 then ((s.invDone Ty.ALM 0 1).loadErr ax, false) else
      let (mask, s) := s.drawBytes 32
      let s := s.setHot sl (s.hotOf sl ++ [(⟨freeSlot (s.hotOf sl), ax, hold, s.alm.stamp, mask, [], []⟩ : Hot).remask (s.assoc ax) mask])
      ({ s with alm := { s.alm with stamp := s.alm.stamp + 1 } }.count64 Reg.ALM_LOADS_LO 0, true)

/-- A use of a hot slot makes it the most recently used. -/
def State.touch (s : State) (sl ax : Nat) : State :=
  let s := s.setHot sl ((s.hotOf sl).map fun h => if h.ax == ax then { h with stamp := s.alm.stamp } else h)
  { s with alm := { s.alm with stamp := s.alm.stamp + 1 } }

/-- Whether pinning an AX in slices would exceed PIN_MAX (R196): a slot that holds it pinned already is no new pin. -/
def State.pinFullIn (s : State) (ax : Nat) (sls : List Nat) : Bool :=
  sls.any fun sl => !(s.isHot sl ax && (s.assoc ax).pinned ax) && decide (s.fld Reg.ALM_PIN_MAX_MAX 0 < s.pinnedIn sl + 1)

/-- Whether pinning an AX in its slices would exceed PIN_MAX. -/
def State.pinFull (s : State) (ax : Nat) : Bool := s.pinFullIn ax (s.axSlices ax)

/-- Load a pinned association in its slices. -/
def State.loadPinned (s : State) (ax : Nat) : State :=
  if (s.assoc ax).pinned ax then (s.axSlices ax).foldl (fun s sl => (s.load sl ax 0 true).1) s else s

/-- REMASK_STEP (R197): the 4 slots of a slice whose turn it is get fresh masks, with the keys rewritten in one. -/
def State.remaskSlice (s : State) (sl : Nat) : State :=
  let at0 := s.alm.remask.get 0 sl
  let step (s : State) (i : Nat) : State :=
    let (m, s) := s.drawBytes 32
    s.setHot sl ((s.hotOf sl).map fun h => if h.slot == (at0 + i) % 4096 then h.remask (s.assoc h.ax) m else h)
  let s := [0, 1, 2, 3].foldl step s
  { s with alm := { s.alm with remask := s.alm.remask.set 0 sl ((at0 + 4) % 4096) } }

/-- The re-mask step of every slice. -/
def State.remaskStep (s : State) : State :=
  let s := [0, 1, 2, 3].foldl State.remaskSlice s
  if s.alm.remask.get 0 0 == 0 then
    { s with alm := { s.alm with remaskFrom := s.tm.tickNo, remaskLate := false } }.count Reg.ALM_REMASK_PASSES 0
  else s

/-! ## Installation and destruction (R193, R207) -/

/-- A key may be placed in a position: the association is INVALID, or the position is empty and not the current one of
an ACTIVE association. -/
def Assoc.mayPlace (a : Assoc) (p : Nat) : Bool :=
  a.st == .invalid || ((a.pos p).isNone && !(a.st == .active && a.cur == p % 2))

/-- The record with a key placed in a position: an INVALID association becomes ACTIVE with that position current and
FAULT 0. -/
def Assoc.place (a : Assoc) (p : Nat) (k : KPos) (limit : Nat) : Assoc :=
  let b := if a.st == .invalid then { a with st := .active, cur := p % 2, limit := limit } else a
  { b.setPos p (some k) with fault := false }

/-- Install a key with the limit given to a new association. STATUS: 0 done, 2 position, 5 pin limit, 6 store. -/
def State.install (s : State) (ax p : Nat) (k : KPos) (limit : Nat) : State × Nat :=
  let a := s.assoc ax
  if !s.storeOk || s.axUnsealed ax then (s, 6)
  else if !a.mayPlace p then (s, 2)
  else if a.pinned ax && a.st == .invalid && s.pinFull ax then (s, 5)
  else (((s.setAssoc ax (a.place p k limit)).loadPinned ax).mirrorAx ax, 0)

/-- The limit of a new association (USAGE_CFG). -/
def State.usageCfg (s : State) : Nat := s.fld Reg.ALM_USAGE_CFG_LIMIT_EXP 0

/-- A key of a position with nothing counted. -/
def freshKey (key mic wrap : Bytes) (k256 : Bool) (kgen : Nat) : KPos :=
  { key := key, mic := mic, wrap := wrap, k256 := k256, use := 0, kgen := kgen, warned := false }

/-- Destroy with its event record (R221, CODE 0x44). -/
def State.destroyLogged (s : State) (ax : Nat) : State := (s.destroyAx ax false).almEvent 0x44 0 ax 0

/-- Every association INVALID with FAULT 1 (R195): a life-cycle change, or a start without a root. -/
def State.destroyAll (s : State) (fault : Bool) : State :=
  let recs : Tbl Assoc := if fault then (List.range 262144).map fun k => (k, (s.assoc k).clear true)
    else s.alm.recs.mapV (fun _ => assocReset) fun _ a => a.clear false
  let named := s.tm.named.filter fun a => a.kind != .phase
  { s with alm := { s.alm with recs := recs, hot := [], seqs := [], isk := [] }, tm := { s.tm with named := named } }

/-! ## Switches (R206) -/

/-- Set a pending switch of an association to phase q at tick T. -/
def State.setSwitch (s : State) (ax q t : Nat) : State :=
  ((s.setAssoc ax { s.assoc ax with sw := some ⟨t, q, false⟩ }).name .phase ax 0 t).mirrorAx ax

/-- The other position is empty and no switch pends. -/
def Assoc.alone (a : Assoc) : Bool := (a.pos (1 - a.cur)).isNone && a.sw.isNone

/-- PHASE_SWITCH at the boundary of T: position q becomes current, or the switch fails if q is empty. -/
def State.phaseSwitch (s : State) (ax : Nat) : State :=
  let a := s.assoc ax
  match a.sw with
  | none => s
  | some w =>
    if (a.pos w.q).isNone then
      let s := s.setAssoc ax { a with sw := none }
      ((s.count Reg.ALM_SWITCH_FAIL 0).almEvent 0x43 w.q ax 0).tellKa ax 2
    else
      let st := if a.st == .stopped then AState.active else a.st
      (s.setAssoc ax { a with cur := w.q, st := st, sw := some { w with taken := true } }).mirrorAx ax

/-- The old position zeroised at the boundary of T + 5. -/
def State.retireOld (s : State) (ax : Nat) : State :=
  let a := s.assoc ax
  match a.sw with
  | some w =>
    if w.taken && decide (w.t + 5 ≤ s.tick) then (s.setAssoc ax { a.setPos (1 - w.q) none with sw := none }).mirrorAx ax else s
  | none => s

/-! ## Messages to navigators (R366, R367) -/

/-- Queue a message for a navigator. -/
def State.sendMail (s : State) (m : Mail) : State := { s with mail := s.mail ++ [m] }

/-- A stage message (R367) to a cluster. (DEDUCED, log entry 19) -/
def State.stageMsg (s : State) (cluster code ty inst : Nat) (content : Bytes) : State :=
  s.sendMail ⟨ty * 256 + inst, cluster, none, 1, toLE 1 code ++ [0] ++ toLE 2 inst ++ toLE 6 s.tick ++ sliceB content 0 6⟩

/-- A cluster's AX windows hold an AX. (DEDUCED, log entry 19) -/
def State.navOwns (s : State) (cl ax : Nat) : Bool :=
  let w (i : Nat) : Nat := (s.alm.navWin.get 0 (cl * 4 + i)).toNat
  let sb := bitsOf (w 0) 0 18
  let sc := bitsOf (w 1) 0 18
  let tb := bitsOf (w 2) 0 13
  let tc := bitsOf (w 2) 14 14
  (decide (28712 ≤ sb) && decide (sb ≤ ax) && decide (ax < sb + sc)) ||
    (decide (20512 + tb ≤ ax) && decide (ax < 20512 + tb + tc) && decide (ax < 28704))

/-- A usage warning of a trunk SA goes to the cluster whose window holds the AX (R194, R367). (DEDUCED, log entry 19) -/
def State.warnTrunk (s : State) (ax p : Nat) : State :=
  if !(decide (20512 ≤ ax) && decide (ax < 28704)) then s else
  (List.range 32).foldl (fun (s : State) c =>
    if s.present Ty.NAV c && s.navOwns c ax then s.stageMsg c 0x40 Ty.ALM 0 (toLE 3 ax ++ toLE 1 p) else s) s

/-! ## Which position work uses, and the usage limit (R194, R201, R206) -/

/-- What the pools answer for work of an AX. -/
inductive Verdict where
  | ok (p : Nat)
  | noKey
  | stopped
  | refused
  deriving DecidableEq, Repr

/-- The position current for work of tick t (R206), the count being m: from T on it is q, but a switch set with T passed already changes
nothing before the boundary at which it is taken. -/
def Assoc.curAt (a : Assoc) (m t : Nat) : Nat :=
  match a.sw with
  | some w => if (w.taken || decide (m < w.t)) && decide (w.t ≤ t) then w.q else 1 - w.q
  | none => a.cur

/-- Whether work of tick t is within 4 ticks of a switch. -/
def Assoc.either (a : Assoc) (t : Nat) : Bool :=
  match a.sw with
  | some w => decide (w.t ≤ t + 4) && decide (t ≤ w.t + 4)
  | none => false

/-- The verdict on work of AX and tick; `kp` is the phase the work carries (decryption), none for encryption. -/
def State.verdict (s : State) (ax tick : Nat) (kp : Option Nat) : Verdict :=
  let a := s.assoc ax
  if isTickIv ax && (s.tm.free || s.alm.refuse != 0 || decide (tick < s.alm.minTick)) then .refused
  else if a.st == .invalid then .noKey
  else
    let p := match kp with
      | some k => k % 2
      | none => if isTickIv ax then a.curAt s.tick tick else a.cur
    match a.pos p with
    | none => .noKey
    | some k =>
      if kp.isSome && isTickIv ax && p != a.curAt s.tick tick && !a.either tick then .noKey
      else if (a.st == .stopped && p == a.cur) || decide (2 ^ a.limit ≤ k.use) then .stopped
      else .ok p

/-- One invocation of a position (R194): it adds 1 to the count; the warning at 7/8 of the limit and the stop at it. -/
def State.invoke (s : State) (ax p : Nat) : State :=
  let a := s.assoc ax
  match a.pos p with
  | none => s
  | some k =>
    let n := k.use + 1
    let warn := !k.warned && p == a.cur && decide (7 * 2 ^ a.limit ≤ 8 * n)
    let stop := p == a.cur && a.st == .active && decide (2 ^ a.limit ≤ n)
    let a' := { a.setPos p (some { k with use := n, warned := k.warned || warn }) with
      st := if stop then AState.stopped else a.st }
    let s := s.setAssoc ax a'
    let s := if decide (ax < 20512) && s.mirrorSt != 0 && !s.pair.dirty.contains ax then
        { s with pair := { s.pair with dirty := ax :: s.pair.dirty } } else s
    let s := if warn then (((s.count Reg.ALM_USAGE_WARN 0).almEvent 0x40 p ax n).tellKa ax 0).warnTrunk ax p else s
    if stop then
      let s := (s.count Reg.ALM_USAGE_STOP 0).almEvent 0x41 p ax n
      if a'.alone then s.tellKa ax 1 else s
    else s

/-! ## The tick IV (R202, R203) -/

/-- The 12 bytes of the tick IV. -/
def tickIv (tick seq ax tree dir pm kp : Nat) : Bytes :=
  toBE 12 (tick % 2 ^ 48 * 2 ^ 48 + seq % 2 ^ 16 * 2 ^ 32 + ax % 2 ^ 18 * 2 ^ 14 + tree % 32 * 2 ^ 9 + dir % 2 * 2 ^ 8 +
    pm % 2 * 2 ^ 7 + kp % 2 * 2 ^ 6)

/-- The pair-member bit of this device. -/
def State.pm (s : State) : Nat := s.fld Reg.PAIR_CTL_MEMBER 0

/-- The next SEQ of an AX, tree and IV tick. -/
def State.seqNext (s : State) (ax tree tick : Nat) : Nat :=
  match s.alm.seqs.find? fun q => q.ax == ax && q.tree == tree && q.tick == tick with
  | some q => q.next
  | none => 1

/-- Take it. -/
def State.seqTake (s : State) (ax tree tick : Nat) : State :=
  let n := s.seqNext ax tree tick
  let rest := s.alm.seqs.filter fun q => !(q.ax == ax && q.tree == tree && q.tick == tick)
  { s with alm := { s.alm with seqs := rest ++ [⟨ax, tree, tick, n + 1⟩] } }

/-- Retire the counters of a tree below a tick. -/
def State.seqRetire (s : State) (tree tick : Nat) : State :=
  { s with alm := { s.alm with seqs := s.alm.seqs.filter fun q => !(q.tree == tree && decide (q.tick < tick)) } }

/-! ## Resets (R195, R203) -/

/-- What a block soft reset of the ALM page, or an assertion of PERST_N, does to the store. -/
def State.almExpire (s : State) : State :=
  let dead := s.alm.recs.filterMap fun (k, a) => if a.exp && a.st != .invalid then some k else none
  let s := dead.foldl (fun s ax => s.destroyAx ax false) s
  { s with alm := { s.alm with isk := [], hot := [], seqs := [], refuse := 2 } }

/-- PERST_N deasserted: the refusal runs from the end of the reset. -/
def State.perstEnd (s : State) : State :=
  { s with hif := { s.hif with perst := false }, alm := { s.alm with refuse := if s.hif.perst then 2 else s.alm.refuse } }

/-- TICK_IV_REFUSAL_END: at the second boundary after the reset ends tick-IV invocations resume, above that boundary's count. -/
def State.refusalStep (s : State) : State :=
  if s.alm.refuse == 0 || s.hif.perst then s
  else if s.alm.refuse == 1 then { s with alm := { s.alm with refuse := 0, minTick := s.tick } }
  else { s with alm := { s.alm with refuse := s.alm.refuse - 1 } }

/-- A list shown to the Almanac (R199): each valid association it names is loaded in its slice with the hold. -/
def State.prefetch (s : State) (sl : Nat) (axs : List Nat) (hold : Nat) : State :=
  if !s.on Reg.ALM_CTL_PREFETCH_EN 0 then s else
  axs.foldl (fun s ax => if (s.assoc ax).st == .invalid || !(s.axSlices ax).contains sl then s else (s.load sl ax hold false).1) s

/-- ALM_PREFETCH. -/
def execAlmPrefetch (slice : Nat) (axs : List Nat) (hold : Nat) (s : State) := live s fun s => s.prefetch (slice % 4) axs hold

/-- REMASK_PASS_OVERDUE (R197): a pass that has run 1,024 ticks raises source 0x06, once. -/
def execRemaskPassOverdue (s : State) := live s fun s =>
  if !s.alm.remaskLate && decide (s.alm.remaskFrom + 1024 ≤ s.tm.tickNo) && s.alm.remask.get 0 0 != 0 then
    { s with alm := { s.alm with remaskLate := true } }.raise Ty.ALM 0 6 0 0
  else s

/-- OLD_GENERATION_DESTROY (R181, R206) of an association. -/
def execOldGenerationDestroy (ax : Nat) (s : State) := live s fun s => s.retireOld ax

/-- The effects of ALM error sources (R220): 0x02 clears the hot slot (LO the AX, HI[31:16] the slice), 0x03 is a
record's load or write-back that returned an error completion (LO the AX). -/
def State.almErr (s : State) (d : Det) : State :=
  if d.forced then s else
  match d.src with
  | 2 => s.setHot (d.capHi / 2 ^ 16 % 4) ((s.hotOf (d.capHi / 2 ^ 16 % 4)).filter fun h => h.ax != d.capLo)
  | 3 => s.recordErr (d.capLo % 2 ^ 18)
  | _ => s

end Sys2Proof.Machine
end

