-- ==== Sys2Proof/Machine/Tc.lean ====
section
/-! DEFINITION. The transparent clock (R347 to R349): PTP messages in frames, residence times, the correction and the match
tables; trunk-port modes (R229, R230); messages to navigators (R366, R367). -/

namespace Sys2Proof.Machine

/-! ## Port modes (R229, R230) -/

/-- TRK_MODE in effect. -/
def State.trkMode (s : State) : Nat := s.fld Reg.TRK_MODE_MODE 0

/-- Lanes of a port. -/
def State.portLanes (s : State) : Nat :=
  match s.trkMode with
  | 1 => 4
  | 2 => 8
  | _ => 1

/-- The primary instance of port k. -/
def State.prim (s : State) (k : Nat) : Nat := k * s.portLanes

/-- The port that owns an instance. -/
def State.portOf (s : State) (l : Nat) : Nat := l / s.portLanes

/-- Whether an instance is the primary of a port. -/
def State.isPrim (s : State) (l : Nat) : Bool := l % s.portLanes == 0

/-- Port k exists: its primary instance is present. -/
def State.hasPort (s : State) (k : Nat) : Bool := s.present Ty.TRK (s.prim k)

/-- The slice of port k. -/
def State.portSlice (s : State) (k : Nat) : Nat := s.prim k / 8

/-- The half-pipe, slice × 2 + half, of port k (R229); the hash of R16 decides for an 800GbE port. -/
def State.portHp (s : State) (k domain mac : Nat) : Nat :=
  match s.trkMode with
  | 1 => k / 2 * 2 + k % 2
  | 2 => k * 2 + Config.halfPipeHash domain mac % 2
  | _ => k / 8 * 2 + k % 8 / 4

/-! ## PTP in a frame (R254, R347) -/

/-- Where the type field of a frame lies after up to two VLAN tags. -/
def typeAt (d : Bytes) : Nat :=
  let tag (i : Nat) : Bool := beAt d i 2 == 0x8100 || beAt d i 2 == 0x88A8
  if tag 12 then (if tag 16 then 20 else 16) else 12

/-- The offset of a PTP header in a frame, and of the UDP checksum over it. -/
def ptpAt (d : Bytes) : Option (Nat × Option Nat) :=
  let i := typeAt d
  let ty := beAt d i 2
  let ihl := beAt d (i + 2) 1 % 16 * 4
  if ty == 0x88F7 then some (i + 2, none)
  else if ty == 0x0800 && beAt d (i + 2) 1 / 16 == 4 && beAt d (i + 11) 1 == 17 && beAt d (i + 2 + ihl + 2) 2 == 319 then
    some (i + 2 + ihl + 8, some (i + 2 + ihl + 6))
  else if ty == 0x86DD && beAt d (i + 8) 1 == 17 && beAt d (i + 44) 2 == 319 then some (i + 50, some (i + 48))
  else none

/-- Bytes of a frame replaced. -/
def putAt (d : Bytes) (i : Nat) (b : Bytes) : Bytes := d.take i ++ b ++ d.drop (i + b.length)

/-- Ones' complement sum of two 16-bit numbers. -/
def onesAdd (a b : Nat) : Nat := if 65535 < a + b then a + b - 65535 else a + b

/-- A frame with bytes replaced and its non-zero UDP checksum brought up to date (RFC 1624). -/
def putUdp (d : Bytes) (ck : Option Nat) (i : Nat) (b : Bytes) : Bytes :=
  match ck with
  | none => putAt d i b
  | some c =>
    let hc := beAt d c 2
    if hc == 0 then putAt d i b else
    let step (acc : Nat) (j : Nat) : Nat := onesAdd (onesAdd acc (65535 - beAt d (i + 2 * j) 2)) (beAt b (2 * j) 2)
    let sum := (List.range (b.length / 2)).foldl step (65535 - hc)
    putAt (putAt d i b) c (toBE 2 (65535 - sum))

/-- correctionField with a residence in units of 2^−32 ns added (R348). -/
def addResidence (d : Bytes) (h : Nat) (ck : Option Nat) (res : Int) : Bytes :=
  let c := toSigned 64 (beAt d (h + 8) 8) + res / 2 ^ 16
  putUdp d ck (h + 8) (toBE 8 (ofSigned 64 (min c 0x7FFFFFFFFFFFFFFF)))

/-! ## Match tables (R349) -/

/-- Record a residence in a slice's match table. -/
def State.tcRecord (s : State) (slice : Nat) (e : MatchE) : State :=
  let l := s.tm.tc.get [] slice
  if 1024 ≤ l.length then s.count Reg.AST_TC_TABLE_FULL 0
  else { s with tm := { s.tm with tc := s.tm.tc.set [] slice (l ++ [e]) } }

/-- Take the entry that a follow-up message matches, from the slice that holds it. ERR_INV_CHECK bit 1 makes its check fail: the entry
is freed and the message passes unchanged (R355). -/
def State.tcTake (s : State) (f : MatchE → Bool) : State × Option MatchE :=
  [0, 1, 2, 3].foldl (fun (p : State × Option MatchE) sl =>
    match p.2 with
    | some _ => p
    | none =>
      let l := p.1.tm.tc.get [] sl
      match l.find? f with
      | some e =>
        let s : State := { p.1 with tm := { p.1.tm with tc := p.1.tm.tc.set [] sl (l.erase e) } }
        if s.inv Ty.AST 0 1 then (s.raiseInv Ty.AST 0 3 (l.findIdx f) sl, none) else (s, some e)
      | none => p) (s, none)

/-- TC_CORRECTION (R347, R348): a PTP frame from one trunk port leaving through port k, at an elapsed count of TC_DOMAIN. -/
def State.tcEgress (s : State) (k : Nat) (p : Pkt) (el : Int) : State × Bytes :=
  if !s.on Reg.AST_TC_CFG_TC_EN 0 || !p.ptp || decide (32 ≤ p.src) then (s, p.data) else
  match ptpAt p.data with
  | none => (s, p.data)
  | some (h, ck) =>
    let d := p.data
    let two := s.flag Reg.AST_TC_CFG_TWO_STEP 0
    if beAt d (h + 1) 1 % 16 != 2 || decide (d.length < h + 34) then (if two then s.count Reg.AST_TC_SKIP 0 else s, d) else
    let ty := beAt d h 1 % 16
    let dom := beAt d (h + 4) 1
    let seq := beAt d (h + 30) 2
    let spi := sliceB d (h + 20) 10
    let res : Int := el - p.el
    let fix (s : State) (r : Int) : State × Bytes := (s.count64 Reg.AST_TC_CORRECTED_LO 0, addResidence d h ck r)
    match ty with
    | 0 | 1 =>
      if two && bitOf (beAt d (h + 6) 1) 1 then
        (s.tcRecord (s.portSlice k) { domain := dom, port := spi, seq := seq, kind := ty, ingress := p.src, egress := k, residence := res, age := s.tm.tickNo }, d)
      else fix s res
    | 8 =>
      if !two then (s, d) else
      match s.tcTake fun e => e.kind == 0 && e.domain == dom && e.port == spi && e.seq == seq && e.egress == k with
      | (s, some e) => fix s e.residence
      | (s, none) => (s, d)
    | 9 =>
      if !two then (s, d) else
      match s.tcTake fun e => e.kind == 1 && e.domain == dom && e.port == sliceB d (h + 44) 10 && e.seq == seq && e.ingress == k with
      | (s, some e) => fix s e.residence
      | (s, none) => (s, d)
    | _ => (s, d)

/-! ## Timestamps (R346) -/

/-- A time moved on by a two's complement delay of 1/16 ns units. -/
def plusDelay (t delay : Nat) : Nat := (((t : Int) + toSigned 16 delay * 2 ^ 28) % timeMod).toNat

/-- The ingress times of a frame on port k at the present cycle: domains A and B, and TC_DOMAIN's elapsed count. (DEDUCED, log entry 68) -/
def State.ingressTimes (s : State) (k : Nat) : Nat × Nat × Nat :=
  let a := s.fld Reg.AST_TS_ADJ_RX 0 (4 * s.prim k)
  (lessDelay (s.dom 0).t a, lessDelay (s.dom 1).t a,
   (((s.dom (s.fld Reg.AST_TC_CFG_TC_DOMAIN 0)).el : Int) - toSigned 16 a * 2 ^ 28).toNat)

/-- The egress elapsed count of TC_DOMAIN at the present cycle. -/
def State.egressEl (s : State) (k : Nat) : Int :=
  ((s.dom (s.fld Reg.AST_TC_CFG_TC_DOMAIN 0)).el : Int) + toSigned 16 (s.fld Reg.AST_TS_ADJ_TX 0 (4 * s.prim k)) * 2 ^ 28

/-- The egress time in TS_DOMAIN at the present cycle. (DEDUCED, log entry 68) -/
def State.egressTime (s : State) (k : Nat) : Nat :=
  plusDelay (s.timeOf (s.fld Reg.AST_TC_CFG_TS_DOMAIN 0)) (s.fld Reg.AST_TS_ADJ_TX 0 (4 * s.prim k))

end Sys2Proof.Machine
end

