-- ==== Sys2Proof/Machine/Fwd.lean ====
section
/-! DEFINITION. Policing (R283, R284, R299) and forwarding (R252 to R273): classification, the address table with its stash,
learning, the decision and the PEER fence, floods and peer rings, ageing, and the table commands. -/

namespace Sys2Proof.Machine

/-! ## The records of QSCH (R299) -/

/-- The key of a QSCH table word. -/
def qKey (table idx w : Nat) : Nat := (table * 2 ^ 17 + idx) * 8 + w

/-- The reset value of a QSCH table word. -/
def qWordReset (key : Nat) : Word :=
  let table := key / 2 ^ 20
  let idx := key / 8 % 2 ^ 17
  BitVec.ofNat 32 <| match table, key % 8 with
  | 1, 0 => 16 * 2 ^ 10
  | 2, 1 => 4096
  | 4, 0 => (if 4 ≤ idx then 1 else 0) + 2048 * 2 ^ 8
  | 4, 1 => 255 + 191 * 2 ^ 8 + 127 * 2 ^ 16
  | 5, 0 => 16 * 2 ^ 16
  | _, _ => 0

/-- A QSCH table word. -/
def QschS.word (x : QschS) (table idx w : Nat) : Nat := (x.recs.getD qWordReset (qKey table idx w)).toNat

/-- Store one. -/
def QschS.setWord (x : QschS) (table idx w v : Nat) : QschS :=
  { x with recs := x.recs.setD qWordReset (qKey table idx w) (BitVec.ofNat 32 v) }

/-! ## Policing -/

/-- A policer no frame has met. -/
def polReset : PolS := { tc := 0, te := 0, last := 0 }

/-- The marker of R284 over tokens in sixteenths, the tokens of a frame cut to whole sixteenths (DEDUCED, log entry 124): the colour (0 green, 1 yellow, 2 red) and the buckets. -/
def polMark (mode2 : Bool) (cir pir cbs ebs elapsed len : Nat) (yellow : Bool) (p : PolS) : Nat × Nat × Nat :=
  let l := 16 * len
  let a (r : Nat) : Nat := r * elapsed / 156250
  if mode2 then
    let tp := min (16 * ebs) (p.te + a pir)
    let tc := min (16 * cbs) (p.tc + a cir)
    if tp < l then (2, tc, tp) else if yellow || decide (tc < l) then (1, tc, tp - l) else (0, tc - l, tp - l)
  else
    let tc := min (16 * cbs) (p.tc + a cir)
    let te := min (16 * ebs) (p.te + (a cir - (tc - p.tc)))
    if !yellow && decide (l ≤ tc) then (0, tc - l, te) else if l ≤ te then (1, tc, te - l) else (2, tc, te)

/-- The policer checker on record n while ERR_INV_CHECK bit 1 stands (R301): EN is cleared. -/
def State.polInv (s : State) (sl n : Nat) : State :=
  if s.inv Ty.QSCH sl 1 then
    (s.raiseInv Ty.QSCH sl 3 n 0).setQs sl ((s.qs sl).setWord 7 n 0 (setBitOf ((s.qs sl).word 7 n 0) 0 false))
  else s

/-- POLICING (R283, R284): the colour of a frame of a source of slice sl. -/
def State.police (s : State) (sl entry len : Nat) (yellow : Bool) : State × Nat :=
  let x := s.qs sl
  let pm := x.word 8 entry 0
  if !s.on Reg.QSCH_CTL_POLICE_EN sl || !bitOf pm 12 then (s, 0) else
  let n := pm % 4096
  let s := s.polInv sl n
  let x := s.qs sl
  let ctl := x.word 7 n 0
  if !bitOf ctl 0 then (s, 0) else
  let p := x.pol.get polReset n
  let (c, tc, te) := polMark (bitOf ctl 1) (x.word 7 n 1) (x.word 7 n 2) (x.word 7 n 3) (x.word 7 n 4) (s.now - p.last) len
    (bitOf ctl 2 && yellow) p
  let s := s.setQs sl { x with pol := x.pol.set polReset n { tc := tc, te := te, last := s.now } }
  (if c == 2 then s.count Reg.QSCH_POLICE_RED sl else if c == 1 then s.count Reg.QSCH_POLICE_YELLOW sl else s, c)

/-! ## The forwarder's state -/

/-- A forwarder nothing has written. (DESIGN CHOICE, log entry 6) -/
def fwdReset : FwdS :=
  { tab := [], learnQ := [], recs := [], parity := false, moved := false, walk := false, evtN := 0, sweep := none, won := [] }

/-- The forwarder of slice sl. -/
def State.fw (s : State) (sl : Nat) : FwdS := s.fwd.get fwdReset sl

/-- Store it. -/
def State.setFw (s : State) (sl : Nat) (x : FwdS) : State := { s with fwd := s.fwd.set fwdReset sl x }

/-- The key of a word of DOMAIN (0), VMAP (1), AMAP (2), PORT (3) or GROUP (4). -/
def fKey (table idx w : Nat) : Nat := (table * 2 ^ 19 + idx) * 4 + w

/-- The reset value of such a word: LEARN_EN and FLOOD_EN of a DOMAIN, LEARN_EN of a PORT (R271). -/
def fWordReset (key : Nat) : Word :=
  match key / 2 ^ 21, key % 4 with
  | 0, 0 => 12
  | 3, 0 => 65536
  | _, _ => 0

/-- A table word. -/
def FwdS.word (x : FwdS) (table idx w : Nat) : Nat := (x.recs.getD fWordReset (fKey table idx w)).toNat

/-- Store one. -/
def FwdS.setWord (x : FwdS) (table idx w v : Nat) : FwdS :=
  { x with recs := x.recs.setD fWordReset (fKey table idx w) (BitVec.ofNat 32 v) }

/-- A terminal port (R252). -/
def isTermPort (p : Nat) : Bool := decide (64 ≤ p) && decide (p < 16448)

/-- A logical port as a command may name it: 0 present, 4 an absent unit, 8 a reserved number (R252, R270). (DEDUCED, log entry 71) -/
def State.portStatus (s : State) (p : Nat) : Nat :=
  let absent (b : Bool) : Nat := if b then 0 else 4
  if p < 32 then absent (s.hasPort p)
  else if isTermPort p then absent (s.hasTree ((p - 64) / 512))
  else if 16448 ≤ p ∧ p < 16480 then absent (s.present Ty.NAV (p - 16448))
  else if 16480 ≤ p ∧ p < 16544 then 0
  else 8

/-! ## The address table (R260 to R263) -/

/-- The positions the table and stash have. -/
def stash0 : Nat := 262144
def fwdPositions : Nat := 262160

/-- The first ways of a key's two buckets (R260). -/
def bucketsOf (domain mac : Nat) : Nat × Nat :=
  let key := toBE 2 (domain % 2 ^ 14) ++ toBE 6 mac
  (crc32c key % 2 ^ 15 * 4, 131072 + crc32 key % 2 ^ 15 * 4)

/-- The four ways of a bucket. -/
def waysOf (first : Nat) : List Nat := [first, first + 1, first + 2, first + 3]

/-- The position that holds a key: a bucket's way or the stash (R262). -/
def FwdS.pos (x : FwdS) (domain mac : Nat) : Option Nat :=
  let (b0, b1) := bucketsOf domain mac
  (waysOf b0 ++ waysOf b1 ++ (List.range 16).map (stash0 + ·)).find? fun p =>
    match x.tab.find p with
    | some e => e.domain == domain && e.mac == mac
    | none => false

/-- The ways of the other bucket of the entry at a position. -/
def FwdS.alts (x : FwdS) (p : Nat) : List Nat :=
  match x.tab.find p with
  | some e =>
    let (b0, b1) := bucketsOf e.domain e.mac
    if p < 131072 then waysOf b1 else waysOf b0
  | none => []

/-- Breadth-first search for a chain of relocations that ends in a free way: each path lists positions, the one searched
from first; the answer begins with the free way. -/
def FwdS.chain (x : FwdS) : Nat → List (List Nat) → Option (List Nat)
  | 0, _ => none
  | n + 1, paths =>
    let ends (pa : List Nat) : Option (List Nat) :=
      match pa with
      | p :: _ => ((x.alts p).find? fun a => (x.tab.find a).isNone).map (· :: pa)
      | [] => none
    match paths.findSome? ends with
    | some c => some c
    | none => FwdS.chain x n (paths.flatMap fun pa => match pa with
      | p :: _ => ((x.alts p).filter fun a => !pa.contains a).map (· :: pa)
      | [] => [])

/-- Whether a move from b to a carries an entry, still to be judged, from before the running sweep to behind it. (DEDUCED, log entry 122) -/
def FwdS.passes (x : FwdS) (a b : Nat) (e : FEnt) : Bool :=
  match x.sweep with
  | some w => e.type == 0 && (e.mark != x.parity || e.owed) && decide (w.pos ≤ b) && decide (a < w.pos)
  | none => false

/-- Move the entry at b to the free position a (R262), which shows in a walk that is running (R268). -/
def State.relocate (s : State) (sl a b : Nat) : State :=
  let x := s.fw sl
  match x.tab.find b with
  | some e =>
    let e := { e with owed := e.owed || x.passes a b e }
    (s.setFw sl { x with tab := (x.tab.erase b).insert a e, moved := x.moved || x.walk }).count Reg.FWD_RELOCATIONS sl
  | none => s

/-- Store an entry, with STASH_HIGH where STASH_USED reaches 12 (R272). -/
def State.fwdPut (s : State) (sl p : Nat) (e : FEnt) : State :=
  let used (x : FwdS) : Nat := (x.tab.filter fun q => decide (stash0 ≤ q.1)).length
  let x := s.fw sl
  let y := { x with tab := x.tab.insert p e }
  let s := s.setFw sl y
  if used x < 12 ∧ used y = 12 then s.intSet Ty.FWD sl 8 else s

/-- Clear a position; a stash entry whose bucket the way belongs to moves in (R263). -/
def State.fwdClear (s : State) (sl p : Nat) : State :=
  let x := s.fw sl
  let s := s.setFw sl { x with tab := x.tab.erase p }
  if stash0 ≤ p then s else
  match x.tab.find? fun q => decide (stash0 ≤ q.1) && (let (b0, b1) := bucketsOf q.2.domain q.2.mac
      (waysOf b0 ++ waysOf b1).contains p) with
  | some (q, _) => s.relocate sl p q
  | none => s

/-- TABLE_INSERT of a key that is in no position (R263); false where it fails. -/
def State.fwdInsert (s : State) (sl : Nat) (e : FEnt) : State × Bool :=
  let x := s.fw sl
  let (b0, b1) := bucketsOf e.domain e.mac
  let free (l : List Nat) : Option Nat := l.find? fun p => (x.tab.find p).isNone
  match free (waysOf b0 ++ waysOf b1) with
  | some p => (s.fwdPut sl p e, true)
  | none =>
    match x.chain (s.fld Reg.FWD_CTL_MOVE_DEPTH sl) ((waysOf b0 ++ waysOf b1).map ([·])) with
    | some c =>
      let s := (c.zip c.tail).foldl (fun (s : State) q => s.relocate sl q.1 q.2) s
      (s.fwdPut sl (c.getLastD 0) e, true)
    | none =>
      match free ((List.range 16).map (stash0 + ·)) with
      | some p => (s.fwdPut sl p e, true)
      | none => (s, false)

/-- FWD_EVENT_POST (R266). -/
def State.fwdEvent (s : State) (sl code domain mac dest old : Nat) : State :=
  if !s.on Reg.FWD_EVT_CFG_EN sl || !bitOf (s.fld Reg.FWD_EVT_CFG_CODES sl) (code - 0x50) then s else
  let item := toBE 1 code ++ toBE 1 sl ++ toLE 2 domain ++ toBE 6 mac ++ toLE 2 dest ++ toLE 2 old ++ toLE 2 0
  if s.fld Reg.FWD_EVT_CFG_EVT_RATE sl ≤ (s.fw sl).evtN then s.count Reg.FWD_EVT_DROP sl else
  match s.postEvent (s.fld Reg.FWD_EVT_CFG_RING sl) Ty.FWD sl item with
  | (s, true) => s.setFw sl { s.fw sl with evtN := (s.fw sl).evtN + 1 }
  | (s, false) => s.count Reg.FWD_EVT_DROP sl

/-! ## Ageing (R269) -/

/-- The judgement of one entry that the sweep visits. -/
def State.ageOne (s : State) (sl start : Nat) (p : Nat) : State :=
  let x := s.fw sl
  match x.tab.find p with
  | none => s
  | some e =>
    if e.type != 0 || (e.mark == x.parity && !e.owed) then s
    else if x.won.contains (start + 4 * (p + 1), p) then s.fwdPut sl p { e with mark := x.parity, owed := false }
    else if e.hit then s.fwdPut sl p { e with hit := false, mark := x.parity, owed := false }
    else
      let s := (s.fwdClear sl p).count Reg.FWD_AGED sl
      let s := match (s.fw sl).sweep with
        | some w => s.setFw sl { s.fw sl with sweep := some { w with aged := w.aged + 1 } }
        | none => s
      s.fwdEvent sl 0x52 e.domain e.mac e.dest 0

/-- The running sweep brought up to the present cycle: positions visited before it are judged, one per 4 cycles. -/
def State.ageTo (s : State) (sl : Nat) : State :=
  match (s.fw sl).sweep with
  | none => s
  | some w =>
    let lim := min fwdPositions (max w.pos (ceilDiv (s.now - w.start) 4 - 1))
    let ps := ((s.fw sl).tab.map (·.1)).filter fun p => decide (w.pos ≤ p) && decide (p < lim)
    let s := ps.foldl (fun (s : State) p => s.ageOne sl w.start p) s
    match (s.fw sl).sweep with
    | some w => s.setFw sl { s.fw sl with sweep := some { w with pos := lim } }
    | none => s

/-- AGE_SWEEP_START: the parity flips and the sweep begins. -/
def State.ageStart (s : State) (sl : Nat) : State :=
  let x := s.fw sl
  if x.sweep.isSome then s else s.setFw sl { x with parity := !x.parity, sweep := some ⟨s.now, 0, 0⟩ }
def execAgeSweepStart (slice : Nat) (s : State) := live s fun s =>
  if s.present Ty.FWD (slice % 4) then s.ageStart (slice % 4) else s

/-- AGE_SWEEP_DONE: from the cycle after the last visit. -/
def State.ageDone (s : State) (sl cycle : Nat) : State :=
  let s := s.advanceTo cycle
  match (s.fw sl).sweep with
  | none => s
  | some w =>
    if s.now ≤ w.start + 4 * fwdPositions then s else
    let s := s.ageTo sl
    match (s.fw sl).sweep with
    | none => s
    | some w =>
      ((s.setFw sl { s.fw sl with sweep := none }).setReg Reg.FWD_AGE_RESULT sl w.aged).intSet Ty.FWD sl 7
def execAgeSweepDone (slice cycle : Nat) (s : State) := live s fun s =>
  if s.present Ty.FWD (slice % 4) then s.ageDone (slice % 4) cycle else s

/-! ## Learning (R264) -/

/-- The position of a key as a lookup finds it: ERR_INV_CHECK bit 0 makes the check of the entry read fail, and its position is cleared
(R270, R273). -/
def State.fwdFind (s : State) (sl domain mac : Nat) : State × Option Nat :=
  match (s.fw sl).pos domain mac with
  | none => (s, none)
  | some q => if s.inv Ty.FWD sl 0 then ((s.raiseInv Ty.FWD sl 2 q 0).fwdClear sl q, none) else (s, some q)

/-- A source match at a position. -/
def State.srcHit (s : State) (sl p port : Nat) (learn : Bool) : State :=
  let x := s.fw sl
  match x.tab.find p with
  | none => s
  | some e =>
    let won (s : State) (e : FEnt) : State :=
      let y := s.fw sl
      s.setFw sl { y with tab := y.tab.insert p e, won := (s.now, p) :: y.won.filter fun q => q.1 == s.now }
    if e.dest == port then won s { e with hit := true }
    else if e.type == 2 then (s.count Reg.FWD_STATIC_MOVE sl).fwdEvent sl 0x54 e.domain e.mac e.dest 0
    else if learn then
      ((won s { e with dest := port, group := false, type := 0, hit := true }).count Reg.FWD_MOVES sl).fwdEvent sl 0x51 e.domain e.mac port e.dest
    else s

/-- LEARNED entries of a port. -/
def FwdS.learnedOf (x : FwdS) (port : Nat) : Nat := (x.tab.filter fun q => q.2.type == 0 && q.2.dest == port && !q.2.group).length

/-- The source lookup of a frame. -/
def State.srcLookup (s : State) (sl domain mac port : Nat) (learn : Bool) : State :=
  let (s, hit) := s.fwdFind sl domain mac
  let x := s.fw sl
  match hit with
  | some p => s.srcHit sl p port learn
  | none =>
    if !learn then s else
    let lim := x.word 3 port 0 % 2 ^ 16
    if lim != 0 && decide (lim ≤ x.learnedOf port) then s.count Reg.FWD_LEARN_LIMIT sl
    else if 256 ≤ x.learnQ.length then s.count Reg.FWD_LEARN_DROP sl
    else s.setFw sl { x with learnQ := x.learnQ ++ [(domain, mac, port)] }

/-- LEARN_REQUEST: the oldest request of the slice's queue. -/
def State.learnOne (s : State) (sl : Nat) : State :=
  let s := s.ageTo sl
  let x := s.fw sl
  match x.learnQ with
  | [] => s
  | (domain, mac, port) :: rest =>
    let s := s.setFw sl { x with learnQ := rest }
    match s.fwdFind sl domain mac with
    | (s, some p) => s.srcHit sl p port true
    | (s, none) =>
      let e : FEnt := { domain := domain, mac := mac, dest := port, group := false, type := 0, hit := true, mark := x.parity, owed := false }
      match s.fwdInsert sl e with
      | (s, true) => (s.count Reg.FWD_LEARNED sl).fwdEvent sl 0x50 domain mac port 0
      | (s, false) => (s.count Reg.FWD_INSERT_FAIL sl).fwdEvent sl 0x53 domain mac port 0
def execLearnRequest (slice : Nat) (s : State) := live s fun s =>
  if s.present Ty.FWD (slice % 4) then s.learnOne (slice % 4) else s

/-! ## Egress of the forwarder -/

/-- The half-pipe from which a frame leaves (R15, R16): of a trunk port, or of the tree of a terminal or a tree copy. -/
def State.outHp (s : State) (p : Pkt) : Option Nat :=
  if p.dst < 32 then (if s.hasPort p.dst then some (s.portHp p.dst p.domain (beAt p.data 0 6)) else none)
  else
    let t := if 65536 ≤ p.dst then p.dst - 65536 else (p.dst - 64) / 512
    if (decide (65536 ≤ p.dst) || isTermPort p.dst) && s.hasTree t then some (t / 4) else none

/-- A frame with its destination decided: to its egress slice, through the crossbar where that is another one (R16), or to
an internal endpoint; DOMAIN_MISS where there is no such unit (R252). -/
def State.emit (s : State) (sl : Nat) (p : Pkt) : State :=
  match s.outHp p with
  | some hp =>
    let q := { p with born := s.now }
    if hp / 2 == sl then { s with qin := s.qin ++ [{ q with hp := hp }] } else { s with xin := s.xin ++ [q] }
  | none =>
    if 16448 ≤ p.dst ∧ p.dst < 16480 ∧ s.present Ty.NAV (p.dst - 16448) then
      { s with navIn := s.navIn ++ [(p.dst - 16448, p)] }
    else if 16480 ≤ p.dst ∧ p.dst < 16544 then { s with hostIn := s.hostIn ++ [(p.dst - 16480, p)] }
    else (s.count Reg.FWD_DOMAIN_MISS sl).injFin p 2 none

/-- The copies of a frame; the first one carries the completion of an injected frame. (DEDUCED, log entry 72) -/
def State.emitAll (s : State) (sl : Nat) (p : Pkt) (l : List Pkt) : State :=
  match l with
  | [] => s.injFin p 2 none
  | q :: rest => rest.foldl (fun (s : State) r => s.emit sl { r with inj := none }) (s.emit sl q)

/-! ## Classification (R254) -/

/-- Bit i of a word as a flag. -/
def FwdS.bit (x : FwdS) (table idx w i : Nat) : Bool := bitOf (x.word table idx w) i

/-- The VID of a domain on trunk port k (R255): none where it has no VMAP entry there. -/
def State.vidOf (s : State) (domain k : Nat) : Option Nat :=
  ((s.fw (s.portSlice k)).recs.find? fun q =>
    q.1 / 2 ^ 21 == 1 && q.1 % 4 == 0 && q.1 / 4 % 2 ^ 19 / 4096 == k && bitOf q.2.toNat 14 && q.2.toNat % 2 ^ 14 == domain).map
    fun q => q.1 / 4 % 4096

/-- A VLAN TPID. -/
def isTpid (n : Nat) : Bool := n == 0x8100 || n == 0x88A8

/-- PARSER_CLASSIFY: the frame with its domain, class and marks, and without the outer tag of a trunk frame; or the counter
in which it is dropped. With it the pre-colour and the record it was classified by. -/
def State.classify (s : State) (sl : Nat) (p : Pkt) : Except RegId (Pkt × Bool) :=
  let x := s.fw sl
  let d := p.data
  let tagged := isTpid (beAt d 12 2)
  let tci := beAt d 14 2
  let fin (domain cls : Nat) (data : Bytes) (yellow : Bool) : Except RegId (Pkt × Bool) :=
    if !x.bit 0 domain 0 0 then .error Reg.FWD_DOMAIN_MISS
    else if bitOf (beAt d 6 1) 0 then .error Reg.FWD_SA_BAD
    else .ok ({ p with data := data, domain := domain, cls := cls, ptp := (ptpAt data).isSome
                       eapol := p.eapol || beAt data (typeAt data) 2 == 0x888E }, yellow)
  if p.src < 32 then
    let vid := if tagged then tci % 4096 else 0
    let vm := x.word 1 (p.src * 4096 + vid) 0
    if vid == 4095 || !bitOf vm 14 then .error Reg.FWD_DOMAIN_MISS else
    let dom := vm % 2 ^ 14
    let w := x.word 0 dom 0
    let cls := if tagged && bitOf w 5 then tci / 8192 else bitsOf w 6 3
    fin dom cls (if tagged then d.take 12 ++ d.drop 16 else d) (tagged && bitOf tci 12)
  else if isTermPort p.src then
    let am := x.word 2 ((p.src - 64) / 512 * 1024 + p.flow) 0
    if !bitOf am 14 then .error Reg.FWD_DOMAIN_MISS
    else if tagged && x.bit 0 (am % 2 ^ 14) 0 0 && !x.bit 0 (am % 2 ^ 14) 0 4 then .error Reg.FWD_TERM_TAGGED
    else fin (am % 2 ^ 14) (bitsOf am 15 3) d false
  else fin p.domain p.cls d false

/-- The half-pipe a classified frame takes (R16): an 800GbE port's by the hash of its service domain and destination address, any other
the one on which it came. -/
def State.inHp (s : State) (p : Pkt) : Nat := if p.src < 32 then s.portHp p.src p.domain (beAt p.data 0 6) else p.hp

/-! ## The decision (R256 to R259) -/

/-- Copies to the trees of GROUP entry g (R258). -/
def State.treeCopies (s : State) (sl g : Nat) (p : Pkt) : List Pkt :=
  let m := (s.fw sl).word 4 g 0
  ((List.range 32).filter fun t => bitOf m t).map fun t => { p with dst := 65536 + t, flow := 0x2000 + g }

/-- The peer ring from a member on (R259): terminal ports for copies, and whether it ended badly or at the copy limit: after the 64th copy
nothing more of the ring is read, and the limit counts unless the ring ends there. (DESIGN CHOICE, log entry 123) -/
def FwdS.ring (x : FwdS) (domain src head : Nat) : Nat → Nat → List Nat → List Nat × Bool × Bool
  | 0, _, acc => (acc, false, false)
  | n + 1, p, acc =>
    let w := x.word 3 p 1
    if !bitOf w 15 || bitsOf w 16 14 != domain then (acc, true, false)
    else
      let acc := if p == src then acc else acc ++ [p]
      if w % 2 ^ 15 == head then (acc, false, false)
      else if 64 ≤ acc.length then (acc, false, true)
      else FwdS.ring x domain src head n (w % 2 ^ 15) acc

/-- FLOOD and PEER_REPLICATION: the copies of a flooded frame. -/
def State.flood (s : State) (sl : Nat) (p : Pkt) : State × List Pkt :=
  let x := s.fw sl
  let w0 := x.word 0 p.domain 0
  let trunks := ((List.range 32).filter fun k => k != p.src && s.hasPort k && (s.vidOf p.domain k).isSome).map fun k => { p with dst := k }
  let s := s.count64 Reg.FWD_FLOODS_LO sl
  if !isTermPort p.src then (s, trunks ++ (if bitOf w0 9 then s.treeCopies sl (bitsOf w0 10 12) p else []))
  else if bitOf w0 1 then
    let (l, bad, lim) := x.ring p.domain p.src (bitsOf (x.word 0 p.domain 1) 16 15) 16385 (bitsOf (x.word 0 p.domain 1) 16 15) []
    let s := if bad then s.count Reg.FWD_PEER_RING_BAD sl else s
    let s := if lim then s.count Reg.FWD_PEER_COPY_LIMIT sl else s
    (s, trunks ++ l.map fun q => { p with dst := q })
  else (s.count Reg.FWD_FENCE_DROP sl, trunks)

/-- Group delivery (R258), with tree copies withheld under R257. -/
def State.groupOut (s : State) (sl g : Nat) (p : Pkt) : State × List Pkt :=
  let x := s.fw sl
  let m := x.word 4 g 1
  let trunks := ((List.range 32).filter fun k => bitOf m k && k != p.src).map fun k => { p with dst := k }
  let trees := s.treeCopies sl g p
  if isTermPort p.src && !x.bit 0 p.domain 0 1 then (s.countN Reg.FWD_FENCE_DROP sl trees.length, trunks)
  else (s, trunks ++ trees)

/-- The destination lookup of a frame. -/
def State.dstLookup (s : State) (sl : Nat) (p : Pkt) : State × Option FEnt :=
  match s.fwdFind sl p.domain (beAt p.data 0 6) with
  | (s, some q) => (s, (s.fw sl).tab.find q)
  | (s, none) => (s, none)

/-- The decision of R256 for a classified frame. -/
def State.decideFrame (s : State) (sl : Nat) (p : Pkt) : State :=
  let x := s.fw sl
  let mac := beAt p.data 0 6
  let s := s.count64 Reg.FWD_LOOKUPS_LO sl
  let drop (s : State) (r : RegId) : State := (s.count r sl).injFin p 2 none
  let w0 := x.word 0 p.domain 0
  let w1 := x.word 0 p.domain 1
  if mac / 16 == 0x0180C200000 then
    if bitOf w1 15 then s.emit sl { p with dst := w1 % 2 ^ 15 } else drop s Reg.FWD_LINK_LOCAL_DROP
  else
    match s.dstLookup sl p with
    | (s, some e) =>
      if e.group then
        let (s, l) := s.groupOut sl (e.dest % 4096) p
        s.emitAll sl p l
      else if e.dest == p.src then drop s Reg.FWD_SAME_PORT
      else if isTermPort e.dest && isTermPort p.src && !bitOf w0 1 then drop s Reg.FWD_FENCE_DROP
      else s.emit sl { p with dst := e.dest }
    | (s, none) =>
      if !bitOf (mac / 2 ^ 40) 0 && !bitOf w0 3 then drop s Reg.FWD_UNKNOWN_DROP
      else
        let (s, l) := s.flood sl p
        s.emitAll sl p l

/-- A table record with an uncorrectable error (R270): VALID 0, for PORT LEARN_EN 0 and no ring, for GROUP no tree and no trunk port, until
it is rewritten. -/
def FwdS.spoil (x : FwdS) (table idx : Nat) : FwdS :=
  let off (w i : Nat) (x : FwdS) : FwdS := x.setWord table idx w (setBitOf (x.word table idx w) i false)
  match table with
  | 0 => off 0 0 x
  | 1 | 2 => off 0 14 x
  | 3 => off 1 15 (off 0 16 x)
  | _ => (x.setWord table idx 0 0).setWord table idx 1 0

/-- FWD_FRAME: the oldest frame before a slice's forwarder is classified, policed, learned from and forwarded; past the age limit it is
dropped (R28). (DESIGN CHOICE, log entry 69) -/
def State.fwdFrame (s : State) (sl cycle : Nat) : State :=
  let s := (s.advanceTo cycle).ageTo sl
  match s.fwdIn.find? fun p => p.hp / 2 == sl with
  | none => s
  | some p =>
    if s.tooOld Ty.FWD sl p then (s.ageSeen Ty.FWD sl p).stageDrop Ty.FWD sl p true else
    let s := { s.ageSeen Ty.FWD sl p with fwdIn := s.fwdIn.erase p }
    let drop (s : State) : State := s.injFin p 2 none
    if s.inv Ty.FWD sl 2 then drop (s.raise Ty.FWD sl 4 0 0) else
    let rec0 := if p.src < 32 then fKey 1 (p.src * 4096 + (if isTpid (beAt p.data 12 2) then beAt p.data 14 2 % 4096 else 0)) 0 / 4
      else if isTermPort p.src then fKey 2 ((p.src - 64) / 512 * 1024 + p.flow) 0 / 4 else fKey 0 p.domain 0 / 4
    let s := if s.inv Ty.FWD sl 1 then
        (s.raiseInv Ty.FWD sl 3 rec0 0).setFw sl ((s.fw sl).spoil (rec0 / 2 ^ 19) (rec0 % 2 ^ 19))
      else s
    match s.classify sl p with
    | .error r => drop (s.count r sl)
    | .ok (q, dei) =>
      let entry := if p.src < 32 then 8192 + s.prim p.src % 8 * 8 + q.cls else (p.src - 64) / 512 % 8 * 1024 + p.flow
      let (s, colour) := if p.inj.isSome then (s, 0) else s.police sl entry (frameLen p) dei
      if colour == 2 then drop s else
      let q := { q with yellow := colour == 1, hp := s.inHp q }
      let x := s.fw sl
      let learn := s.on Reg.FWD_CTL_LEARN_EN sl && x.bit 0 q.domain 0 2 && x.bit 3 q.src 0 16
      let s := s.srcLookup sl q.domain (beAt q.data 6 6) q.src learn
      if q.inj.isSome && q.dst != 0xFFFF then s.emit sl q else s.decideFrame sl q
def execFwdFrame (slice cycle : Nat) (s : State) := live s fun s =>
  if s.active Ty.FWD (slice % 4) then s.fwdFrame (slice % 4) cycle else s

/-! ## Commands (R267, R268, R270) -/

/-- A FWD_CMD of slice sl: the command word, in which TABLE and START stay as written where the operation does not use them; STATUS,
CMD_DONE, CFG_REJECT on a refusal. -/
def State.fwdCmd (s : State) (sl op table : Nat) (start : Bool) (f : State → State × Nat) : State :=
  if !s.present Ty.FWD sl then s else
  let (s, st) := f (s.ageTo sl)
  let table := if op == 7 || op == 8 then table else s.fld Reg.FWD_CMD_TABLE sl
  let start := if op == 2 then start else s.flag Reg.FWD_CMD_START sl
  let s := s.setReg Reg.FWD_CMD sl (op + table * 2 ^ 4 + (if start then 2 ^ 7 else 0) + st * 2 ^ 24)
  (if st == 2 || st == 4 || st == 5 || st == 8 then s.count Reg.FWD_CFG_REJECT sl else s).intSet Ty.FWD sl 6

/-- Word i of FWD_DATA. -/
def State.fwdData (s : State) (sl i : Nat) : Nat := s.regI Reg.FWD_DATA sl i

/-- The key in FWD_DATA: domain and MAC. -/
def State.fwdKey (s : State) (sl : Nat) : Nat × Nat :=
  (bitsOf (s.fwdData sl 1) 16 14, s.fwdData sl 0 + s.fwdData sl 1 % 2 ^ 16 * 2 ^ 32)

/-- The four words that show an entry at a position (R271). -/
def fwdWords (p : Nat) (e : FEnt) : List Nat :=
  let b (x : Bool) (i : Nat) : Nat := if x then 2 ^ i else 0
  [e.mac % 2 ^ 32, e.mac / 2 ^ 32 + e.domain * 2 ^ 16, e.dest + b e.group 15 + e.type * 2 ^ 16 + b e.hit 18 + b e.mark 19,
    if stash0 ≤ p then p - stash0 + 2 ^ 18 else p]

/-- An entry and its position to FWD_DATA. -/
def State.fwdShow (s : State) (sl p : Nat) (e : FEnt) : State :=
  let w := fwdWords p e
  (List.range 4).foldl (fun (s : State) i => s.setRegI Reg.FWD_DATA sl i (w.getD i 0)) s

/-- FWD_SEARCH. -/
def State.fwdSearch (s : State) (sl : Nat) : State := s.fwdCmd sl 1 0 false fun s =>
  let (d, m) := s.fwdKey sl
  match s.fwdFind sl d m with
  | (s, some p) =>
    match (s.fw sl).tab.find p with
    | some e => (s.fwdShow sl p e, 0)
    | none => (s, 1)
  | (s, none) => (s, 1)
def execFwdSearch (slice : Nat) (s : State) := live s fun s => s.fwdSearch (slice % 4)

/-- FWD_NEXT: `start` begins a walk, which ends when no entry remains. -/
def State.fwdNext (s : State) (sl : Nat) (start : Bool) : State := s.fwdCmd sl 2 0 start fun s =>
  let s := if start then s.setFw sl { s.fw sl with moved := false, walk := true } else s
  let i := if start then 0 else s.fld Reg.FWD_IDX_INDEX sl
  match (s.fw sl).tab.find? fun q => decide (i ≤ q.1) with
  | some (p, e) => ((s.fwdShow sl p e).setReg Reg.FWD_IDX sl (p + 1), 0)
  | none => (s.setFw sl { s.fw sl with walk := false }, 1)
def execFwdNext (slice : Nat) (start : Bool) (s : State) := live s fun s => s.fwdNext (slice % 4) start

/-- A write of a STATIC entry: mirrored from the active, and refused in a standby with PAIR_EN set (R265, R467, R468). -/
def State.staticMirror (s : State) (sl : Nat) (e : FEnt) (del : Bool) : State × Bool :=
  if s.mirrorOpen then
    (s.mirror 0x0A [sl, e.domain, e.mac, e.dest, if e.group then 1 else 0, if del then 1 else 0] [], true)
  else (s.count Reg.PAIR_MIRROR_WRITE_REJECT 0, false)

/-- FWD_INSERT. (DEDUCED, log entry 71) (DEDUCED, log entry 82) -/
def State.fwdInsertCmd (s : State) (sl : Nat) : State := s.fwdCmd sl 3 0 false fun s =>
  let (d, m) := s.fwdKey sl
  let w := s.fwdData sl 2
  let group := bitOf w 15
  let type := bitsOf w 16 2
  let dest := w % 2 ^ 15
  let st := if group then 0 else s.portStatus dest
  if type == 0 || type == 3 || (group && !bitOf m 40) then (s, 8)
  else if st != 0 then (s, st)
  else
    let x := s.fw sl
    let e : FEnt := { domain := d, mac := m, dest := dest, group := group, type := type, hit := false, mark := x.parity, owed := false }
    let old := (x.pos d m).bind fun p => (x.tab.find p).map fun e => (p, e)
    match old with
    | some (p, o) =>
      if o.type == 2 && type == 1 then (s, 2)
      else if type != 2 then (s.fwdPut sl p { e with hit := o.hit, mark := o.mark, owed := o.owed }, 0)
      else match s.staticMirror sl e false with
        | (s, true) => (s.fwdPut sl p { e with hit := o.hit, mark := o.mark, owed := o.owed }, 0)
        | (s, false) => (s, 0)
    | none =>
      let go (s : State) : State × Nat :=
        match s.fwdInsert sl e with
        | (s, true) => (s, 0)
        | (s, false) => ((s.count Reg.FWD_INSERT_FAIL sl).fwdEvent sl 0x53 d m dest 0, 3)
      if type != 2 then go s else match s.staticMirror sl e false with
        | (s, true) => go s
        | (s, false) => (s, 0)
def execFwdInsert (slice : Nat) (s : State) := live s fun s => s.fwdInsertCmd (slice % 4)

/-- Clear the entry of a key, with the mirror record of a STATIC one; false where a standby refuses it. -/
def State.fwdRemove (s : State) (sl p : Nat) (e : FEnt) : State × Bool :=
  if e.type != 2 then (s.fwdClear sl p, true)
  else match s.staticMirror sl e true with
    | (s, true) => (s.fwdClear sl p, true)
    | (s, false) => (s, false)

/-- FWD_DELETE. (DEDUCED, log entry 71) -/
def State.fwdDelete (s : State) (sl : Nat) : State := s.fwdCmd sl 4 0 false fun s =>
  let (d, m) := s.fwdKey sl
  match ((s.fw sl).pos d m).bind fun p => ((s.fw sl).tab.find p).map fun e => (p, e) with
  | some (p, e) => ((s.fwdRemove sl p e).1, 0)
  | none => (s, 1)
def execFwdDelete (slice : Nat) (s : State) := live s fun s => s.fwdDelete (slice % 4)

/-- FLUSH_BY_PORT: the entries present at its start. A group entry's DEST is a group, so only PORT 0x7FFF reaches it. (DEDUCED, log entry 71) -/
def State.flushByPort (s : State) (sl : Nat) : State := s.fwdCmd sl 5 0 false fun s =>
  let w := s.fwdData sl 2
  let port := w % 2 ^ 15
  let dom := bitsOf (s.fwdData sl 1) 16 14
  let st := if port == 0x7FFF then 0 else s.portStatus port
  if st != 0 then (s, st) else
  let hit (e : FEnt) : Bool := (e.type != 2 || bitOf w 18) && (!bitOf w 15 || e.domain == dom) &&
    (port == 0x7FFF || (!e.group && e.dest == port))
  let keys := ((s.fw sl).tab.filter fun q => hit q.2).map fun q => (q.2.domain, q.2.mac)
  let one (a : State × Nat) (k : Nat × Nat) : State × Nat :=
    match ((a.1.fw sl).pos k.1 k.2).bind fun p => ((a.1.fw sl).tab.find p).map fun e => (p, e) with
    | some (p, e) =>
      let (s, done) := a.1.fwdRemove sl p e
      (s, if done then a.2 + 1 else a.2)
    | none => a
  let (s, n) := keys.foldl one (s, 0)
  (s.setRegI Reg.FWD_DATA sl 3 n, 0)
def execFlushByPort (slice : Nat) (s : State) := live s fun s => s.flushByPort (slice % 4)

/-- What TBL_READ and TBL_WRITE check of TABLE and FWD_IDX: 0, 4, 5 or 8. -/
def State.tblStatus (s : State) (sl table idx : Nat) : Nat :=
  match table with
  | 0 => if idx < 16384 then 0 else 8
  | 1 => if 131072 ≤ idx then 8 else if !s.hasPort (idx / 4096) then 4 else if s.portSlice (idx / 4096) != sl then 5 else 0
  | 2 => if 32768 ≤ idx then 8 else if !s.hasTree (idx / 1024) then 4 else if idx / 1024 / 8 != sl then 5 else 0
  | 3 => if 32768 ≤ idx then 8 else s.portStatus idx
  | 4 => if idx < 4096 then 0 else 8
  | _ => 8

/-- A terminal port of an absent tree (R3). -/
def State.termAbsent (s : State) (p : Nat) : Bool := isTermPort p && s.portStatus p != 0

/-- Writable bits of the words of each table (R271). -/
def tblBits (table w : Nat) : Nat :=
  match table, w with
  | 0, 0 => 22
  | 0, 1 => 31
  | 1, 0 => 15
  | 2, 0 => 18
  | 3, 0 => 18
  | 3, 1 => 30
  | 4, 0 | 4, 1 => 32
  | _, _ => 0

/-- TBL_READ. -/
def State.tblRead (s : State) (sl table : Nat) : State := s.fwdCmd sl 7 table false fun s =>
  let i := s.fld Reg.FWD_IDX_INDEX sl
  let st := s.tblStatus sl table i
  if st != 0 then (s, st) else
  let x := s.fw sl
  let w (j : Nat) : Nat := if table == 3 && j == 2 then x.learnedOf i else if tblBits table j == 0 then 0 else x.word table i j
  ((List.range 4).foldl (fun (s : State) j => s.setRegI Reg.FWD_DATA sl j (w j)) s, 0)
def execTblRead (slice table : Nat) (s : State) := live s fun s => s.tblRead (slice % 4) (table % 8)

/-- TBL_WRITE. -/
def State.tblWrite (s : State) (sl table : Nat) : State := s.fwdCmd sl 8 table false fun s =>
  let i := s.fld Reg.FWD_IDX_INDEX sl
  let st := s.tblStatus sl table i
  let w (j : Nat) : Nat := s.fwdData sl j % 2 ^ tblBits table j
  if st != 0 then (s, st)
  else if table == 0 && bitOf (w 1) 15 && !(decide (16448 ≤ w 1 % 2 ^ 15) && decide (w 1 % 2 ^ 15 < 16544)) then (s, 8)
  else if table == 0 && bitOf (w 1) 15 && s.portStatus (w 1 % 2 ^ 15) != 0 then (s, 4)
  else if (table == 0 && s.termAbsent (bitsOf (w 1) 16 15)) || (table == 3 && s.termAbsent (w 1 % 2 ^ 15)) then (s, 4)
  else if table == 1 && bitOf (w 0) 14 && (match s.vidOf (w 0 % 2 ^ 14) (i / 4096) with
      | some v => v != i % 4096
      | none => false) then (s, 2)
  else
    let x := (s.fw sl).setWord table i 0 (w 0)
    (s.setFw sl (if tblBits table 1 == 0 then x else x.setWord table i 1 (w 1)), 0)
def execTblWrite (slice table : Nat) (s : State) := live s fun s => s.tblWrite (slice % 4) (table % 8)

/-- What FWD does at a tick boundary. -/
def State.fwdBoundary (s : State) : State :=
  let s := [0, 1, 2, 3].foldl (fun (s : State) sl => s.ageTo sl) s
  { s with fwd := s.fwd.mapV (fun _ => fwdReset) fun _ x => { x with evtN := 0 } }

/-- The effects of FWD error sources (R273): 0x02 clears the position in LO; 0x03 spoils the record in LO, table × 2^19 +
index. -/
def State.fwdErr (s : State) (d : Det) : State :=
  if d.forced then s else
  match d.src with
  | 2 => s.fwdClear d.inst d.capLo
  | 3 => s.setFw d.inst ((s.fw d.inst).spoil (d.capLo / 2 ^ 19) (d.capLo % 2 ^ 19))
  | _ => s

end Sys2Proof.Machine
end

