-- ==== Sys2Proof/Machine/Ciph.lean ====
section
/-! DEFINITION. The cipher pools (R212 to R217): items, cores and contexts, the miss buffer, the known-answer test. -/

namespace Sys2Proof.Machine

/-! ## Transmitters -/

/-- A transmitter at reset. (DESIGN CHOICE, log entry 6) -/
def ttxReset : TtxS :=
  { ctrlQ := [], standMap := [], mapIn := none, staged := none, cur := none, units := [], inProg := [], urgNext := false
    serve := [], next := [], held := [], last := none, gap := false, line := 0, lastU := (0, 0), symbols := [], gapAt := 0, burst := false
    wakeAt := none }

/-- Transmitter t. -/
def State.tx (s : State) (t : Nat) : TtxS := s.ttx.get ttxReset t

/-- Store transmitter t. -/
def State.setTx (s : State) (t : Nat) (x : TtxS) : State := { s with ttx := s.ttx.set ttxReset t x }

/-! ## Pools -/

/-- A pool and a core at reset. (DESIGN CHOICE, log entry 6) -/
def ciphReset : CiphS := { cores := [], parked := [], miss := [], out := [], kat := false, drop := false }
def coreReset : CoreS := { upTo := 0, run := none, susp := [], split := [], queue := [] }

/-- Pool `i` = 2 × slice + direction (R223). -/
def State.pool (s : State) (i : Nat) : CiphS := s.ciph.get ciphReset i

/-- Store a pool. -/
def State.setPool (s : State) (i : Nat) (c : CiphS) : State := { s with ciph := s.ciph.set ciphReset i c }

/-! ## A core's time (R212 to R214) -/

/-- The context store's size (R215), a core's contexts (R214). -/
def storeSize : Nat := 256
def coreCtx : Nat := 4

/-- A core that has just become free takes its next item: an urgent one, else the item it had suspended, whose resume costs a cycle
(R213), else the next it was handed. -/
def CoreS.next (c : CoreS) : CoreS :=
  match c.queue, c.susp.getLast? with
  | j :: l, some u =>
    if j.urg then { c with run := some j, queue := l } else { c with run := some { u with left := u.left + 1 }, susp := c.susp.dropLast }
  | j :: l, none => { c with run := some j, queue := l }
  | [], some u => { c with run := some { u with left := u.left + 1 }, susp := c.susp.dropLast }
  | [], none => c

/-- A core after d more cycles; `fuel` bounds the items it finishes. -/
def CoreS.drain : Nat → Nat → CoreS → CoreS
  | 0, _, c => c
  | fuel + 1, d, c =>
    match c.run with
    | none => c
    | some j => if d < j.left then { c with run := some { j with left := j.left - d } }
      else CoreS.drain fuel (d - j.left) ({ c with run := none } : CoreS).next

/-- The items a core has still to run. -/
def CoreS.items (c : CoreS) : Nat := (if c.run.isSome then 1 else 0) + c.susp.length + c.queue.length

/-- A core's contexts in use. -/
def CoreS.ctxs (c : CoreS) : Nat := c.susp.length + c.split.length

/-- The cycles of work a core holds (R212). -/
def CoreS.work (c : CoreS) : Nat :=
  (match c.run with
    | some j => j.left
    | none => 0) + c.susp.foldl (fun a j => a + j.left + 1) 0 + c.queue.foldl (fun a j => a + j.left) 0

/-- A core of a pool as it stands at this cycle. -/
def State.core (s : State) (i c : Nat) : CoreS :=
  let x := (s.pool i).cores.get coreReset c
  { x.drain (x.items + 1) (s.now - x.upTo) with upTo := s.now }

/-- Store a core. -/
def State.setCore (s : State) (i c : Nat) (x : CoreS) : State :=
  s.setPool i { s.pool i with cores := (s.pool i).cores.set coreReset c x }

/-- The enabled cores of a pool. -/
def State.enabledCores (s : State) (i : Nat) : List Nat :=
  (List.range 12).filter fun c => bitOf (s.onFld Reg.CIPH_CTL_CORE_EN i) c

/-- The core of a list with the least of a measure, the lowest number first. -/
def State.leastBy (s : State) (i : Nat) (f : CoreS → Nat) (cs : List Nat) : Option Nat :=
  cs.foldl (fun b c => match b with
    | none => some c
    | some x => if f (s.core i c) < f (s.core i x) then some c else some x) none

/-- The enabled core with the least queued work, the lowest number first (R212). -/
def State.leastCore (s : State) (i : Nat) (cs : List Nat) : Option Nat := s.leastBy i CoreS.work cs

/-- Cycles of an item (R213). (DEDUCED, log entry 78) (DESIGN CHOICE, log entry 84) -/
def itemCycles (kind : CKind) (a p : Nat) : Nat :=
  match kind with
  | .ctr => ceilDiv p 16
  | _ => ceilDiv a 16 + ceilDiv p 16 + 1

/-! ## Contexts (R214, R215) -/

/-- A unit whose context is lost is abandoned: what is left of it at its transmitter becomes one fragment that ends it, with a tag that
fails (the last 16 bytes complemented). (DESIGN CHOICE, log entry 115) -/
def State.abandon (s : State) (i : Nat) (j : CoreJob) : State :=
  let s := s.count Reg.CIPH_CTX_LOST i
  match j.unit with
  | none => s
  | some (t, flow) =>
    let x := s.tx t
    s.setTx t { x with inProg := x.inProg.map fun u =>
      if u.flow == flow then { u with rest := (u.rest.drop (u.rest.length - 16)).map fun b => ~~~b } else u }

/-- Move a context of a unit split at a frame end to the context store, or abandon the unit where the store is full
(R215); ERR_INV_CHECK bit 0 makes the store's checker fail, and the unit is abandoned (R225). -/
def State.parkCtx (s : State) (i : Nat) (j : CoreJob) : State :=
  let c := s.pool i
  if s.inv Ty.CIPH i 0 then (s.raiseInv Ty.CIPH i 3 c.parked.length 0).abandon i j
  else if c.parked.length < storeSize then (s.setPool i { c with parked := c.parked ++ [j] }).count Reg.CIPH_CTX_PARKED i
  else s.abandon i j

/-- Make a context free at a core, where its 4 are in use, by moving the oldest of a split unit to the store. -/
def State.roomAt (s : State) (i c : Nat) : State :=
  let x := s.core i c
  if x.ctxs < coreCtx then s else
  match x.split with
  | j :: l => (s.setCore i c { x with split := l }).parkCtx i j
  | [] => s

/-- An urgent item goes in front of the work that is not urgent. -/
def queueUrgent (j : CoreJob) (l : List CoreJob) : List CoreJob := l.takeWhile (·.urg) ++ j :: l.dropWhile (·.urg)

/-- An urgent item given to a core (R214): it suspends the item that runs, unless that is urgent too, if a context is free. -/
def State.giveUrgent (s : State) (i c : Nat) (j : CoreJob) : State :=
  let s := match (s.core i c).run with
    | some r => if r.urg then s else s.roomAt i c
    | none => s
  let x := s.core i c
  match x.run with
  | none => s.setCore i c { x with run := some j }
  | some r =>
    if r.urg || decide (coreCtx ≤ x.ctxs) then s.setCore i c { x with queue := queueUrgent j x.queue }
    else (s.setCore i c { x with run := some j, susp := x.susp ++ [r] }).count Reg.CIPH_SUSPENDS i

/-- Hand an item to a core of the pool (R212, R214): the enabled core with the least queued work; an urgent item to one with a free
context, or one that a split unit's context leaves free; with all in use, to the core whose item is the first to finish. -/
def State.runCore (s : State) (i : Nat) (j : CoreJob) : State :=
  let en := s.enabledCores i
  if !j.urg then
    match s.leastCore i en with
    | none => s
    | some c =>
      let x := s.core i c
      s.setCore i c (if x.run.isNone then { x with run := some j } else { x with queue := x.queue ++ [j] })
  else
    let free := en.filter fun c => decide ((s.core i c).ctxs < coreCtx)
    let movable := en.filter fun c => !(s.core i c).split.isEmpty
    let first (x : CoreS) : Nat := match x.run with
      | some r => r.left
      | none => 0
    let c := if !free.isEmpty then s.leastCore i free else if !movable.isEmpty then s.leastCore i movable else s.leastBy i first en
    match c with
    | none => s
    | some c => s.giveUrgent i c j

/-- Whether an item is the unit of a tree and FLOW. -/
def CoreJob.isUnit (j : CoreJob) (t flow : Nat) : Bool := j.unit == some (t, flow)

/-- A core without a unit in what it runs, has suspended or has been handed. -/
def CoreS.without (c : CoreS) (t flow : Nat) : CoreS :=
  let c := { c with susp := c.susp.filter fun j => !j.isUnit t flow, queue := c.queue.filter fun j => !j.isUnit t flow }
  match c.run with
  | some j => if j.isUnit t flow then ({ c with run := none } : CoreS).next else c
  | none => c

/-- The item of a unit in what a core runs, has suspended or has been handed. -/
def CoreS.unitOf (c : CoreS) (t flow : Nat) : Option CoreJob :=
  ((match c.run with
    | some j => [j]
    | none => []) ++ c.susp ++ c.queue).find? fun j => j.isUnit t flow

/-- A unit is split at a frame end (R215): the core that has it keeps its context across the boundary. -/
def State.splitCtx (s : State) (i t flow : Nat) (j0 : CoreJob) : State :=
  let c := match (List.range 12).find? fun c => ((s.core i c).unitOf t flow).isSome with
    | some c => c
    | none => (s.leastCore i (s.enabledCores i)).getD 0
  let j := ((s.core i c).unitOf t flow).getD j0
  let s := (s.setCore i c ((s.core i c).without t flow)).roomAt i c
  let x := s.core i c
  if x.ctxs < coreCtx then s.setCore i c { x with split := x.split ++ [j] } else s.parkCtx i j

/-- The unit goes on in the next frame (R213, R215): on the core that kept its context, or from the store on any core of the pool; the
resume costs a cycle. -/
def State.resumeCtx (s : State) (i t flow : Nat) : State :=
  match (List.range 12).find? fun c => (s.core i c).split.any fun j => j.isUnit t flow with
  | some c =>
    let x := s.core i c
    match x.split.find? fun j => j.isUnit t flow with
    | some j =>
      let j := { j with left := j.left + 1 }
      let x := { x with split := x.split.filter fun j => !j.isUnit t flow }
      s.setCore i c (if x.run.isNone then { x with run := some j } else { x with queue := x.queue ++ [j] })
    | none => s
  | none =>
    let p := s.pool i
    match p.parked.find? fun j => j.isUnit t flow with
    | some j => (s.setPool i { p with parked := p.parked.filter fun j => !j.isUnit t flow }).runCore i { j with left := j.left + 1 }
    | none => s

/-! ## Items (R212, R213) -/

/-- What the private key bus of a slice carries for an AX and position (R198): the slot's number, its masked key and its mask. -/
def State.busWord (s : State) (sl ax p : Nat) : Nat × Bytes × Bytes :=
  match (s.hotOf sl).find? fun h => h.ax == ax with
  | some h => (h.slot, if p % 2 == 0 then h.k0 else h.k1, h.mask)
  | none => (0, [], [])

/-- An item that runs (R194, R198): its invocation, its count and blocks, its key over the bus, the core's work. `iv`, `aad` and `data` are
its context's. -/
def State.runItem (s : State) (i ax p : Nat) (kind : CKind) (iv aad data : Bytes) (urgent : Bool) (unit : Option (Nat × Nat)) : State :=
  let s := s.invoke ax p
  let s := (s.count64 Reg.CIPH_ITEMS_LO i).countN64 Reg.CIPH_BLOCKS_LO i (ceilDiv aad.length 16 + ceilDiv data.length 16)
  let w := s.busWord (i / 2) ax p
  let s := { s with alm := { s.alm with bus := s.alm.bus.set (0, [], []) (i / 2) w } }
  (s.runCore i ⟨w.1, ax, p, xorB w.2.1 w.2.2, iv, aad, data, urgent, itemCycles kind aad.length data.length, unit⟩).touch (i / 2) ax

/-- Count a verdict that is not `ok` in the pool's page. (DEDUCED, log entry 78) -/
def State.countVerdict (s : State) (i : Nat) : Verdict → State
  | .noKey => s.count Reg.CIPH_NO_KEY i
  | .stopped => s.count Reg.CIPH_USAGE_STOP_DROP i
  | .refused => s.count Reg.CIPH_FREE_REFUSE i
  | .ok _ => s

/-- Bytes a held item occupies in the miss buffer (R201): 64 of descriptor and its data, in whole 64-byte lines. -/
def heldBytes (n : Nat) : Nat := ceilDiv (64 + n) 64 * 64

/-- Bytes in use in a direction's miss buffer. -/
def CiphS.missUsed (c : CiphS) : Nat := c.miss.foldl (fun a h => a + h.bytes) 0

/-- Send work to the miss buffer of a pool (R201): dropped at once where it does not fit; the first item of an AX starts
the demand load. -/
def State.hold (s : State) (i ax n : Nat) (w : Work) : State :=
  let c := s.pool i
  let b := heldBytes n
  if 262144 < c.missUsed + b then s.count Reg.CIPH_MISS_BUF_FULL i else
  let s := if c.miss.any fun h => h.ax == ax then s else s.count Reg.ALM_DEMAND_LOADS 0
  s.setPool i { s.pool i with miss := (s.pool i).miss ++ [⟨ax, b, s.now, w⟩] }

/-- Whether work of an AX must wait: it is not hot in the pool's slice, or earlier work of it waits already (R201). -/
def State.missing (s : State) (i ax : Nat) : Bool :=
  !s.isHot (i / 2) ax || (s.pool i).miss.any fun h => h.ax == ax

/-- The tick IV or the given IV of an item. -/
def itemIv (s : State) (it : CItem) (i : Nat) : Bytes :=
  match it.iv with
  | some v => v
  | none => tickIv it.tick it.seq it.ax it.tree (1 - i % 2) s.pm it.kp

/-- The result of an item under a key: none where a tag fails. -/
def itemResult (key iv : Bytes) (it : CItem) : Option Bytes :=
  match it.kind with
  | .enc => some ((Config.gcmEnc key iv it.aad it.data).1 ++ (Config.gcmEnc key iv it.aad it.data).2)
  | .dec => Config.gcmDec key iv it.aad it.data it.tag
  | .ctr => some (xorB it.data (Config.ctrStream key iv it.data.length))

/-- The phase an item carries to the verdict: decryption and keystream by KP, encryption by tick. -/
def itemPhase (it : CItem) : Option Nat :=
  match it.kind with
  | .dec => some it.kp
  | _ => none

/-- What keeps an item that is about to run in a pool from running, and what then happens: no core is enabled (R212), an overrun (R225 0x07;
DESIGN CHOICE, log entry 116); a parity error was reported of it; or inverted check bits make its hot slot's checker fail, which clears the
slot (ALM bit 0; R217, R220), its data word's (CIPH bit 2) or its core's key schedule's (bit 1; R225). None where it runs. -/
def State.cipherInv (s : State) (i ax : Nat) : Option State :=
  if (s.enabledCores i).isEmpty then some (s.overrunOnce Ty.CIPH i 7)
  else if (s.pool i).drop then some (s.setPool i { s.pool i with drop := false })
  else if s.inv Ty.ALM 0 0 then
    let s := s.raiseInv Ty.ALM 0 2 ax (i / 2)
    some ((s.setHot (i / 2) ((s.hotOf (i / 2)).filter fun h => h.ax != ax)).count Reg.CIPH_MISS_DROP i)
  else if s.inv Ty.CIPH i 2 then some (s.raise Ty.CIPH i 5 0 0)
  else if s.inv Ty.CIPH i 1 then some (s.raise Ty.CIPH i 4 0 0)
  else none

/-- Run an item that is hot. -/
def State.itemRun (s : State) (i : Nat) (it : CItem) : State :=
  match s.verdict it.ax it.tick (itemPhase it) with
  | .ok p =>
    match s.cipherInv i it.ax with
    | some s => s
    | none =>
    let key := match (s.assoc it.ax).pos p with
      | some k => k.key
      | none => []
    let r := itemResult key (itemIv s { it with kp := p } i) it
    let s := s.runItem i it.ax p it.kind (itemIv s { it with kp := p } i) it.aad it.data it.urgent none
    let s := if r.isNone then s.count Reg.CIPH_TAG_FAIL i else s
    s.setPool i { s.pool i with out := (s.pool i).out ++ [(it.half, r)] }
  | v => s.countVerdict i v

/-- CIPH_ITEM (R201, R213): an item of a pool is run, held for its key, or dropped; encryption that would need a SEQ above
65,535 waits for the next tick and is not run. -/
def State.itemArrive (s : State) (i : Nat) (it : CItem) : State :=
  if !s.active Ty.CIPH i || (isTickIv it.ax && decide (65535 < it.seq)) then s else
  match s.verdict it.ax it.tick (itemPhase it) with
  | .ok _ => if s.missing i it.ax then s.hold i it.ax (it.aad.length + it.data.length) (.item it) else s.itemRun i it
  | v => s.countVerdict i v

/-- CIPH_ITEM. -/
def execCiphItem (inst : Nat) (it : CItem) (s : State) := live s fun s => s.itemArrive (inst % 8) it

/-- How long a held item may wait for its load: TICK_DEADLINE as it measures this tick, at most 2,500 cycles (R32, R201). -/
def State.missHold (s : State) (i : Nat) : Nat := min 2500 (s.deadlineOf Ty.CIPH i)

/-- A held item whose hold has passed (R201). -/
def State.heldLate (s : State) (i : Nat) (h : Held) : Bool := decide (h.since + s.missHold i < s.now)

/-- The age that a pool's item has reached (R31). -/
def State.heldAge (s : State) (i : Nat) (h : Held) : State :=
  let k := pageKey Ty.CIPH i
  { s with ages := s.ages.set 0 k (max (s.now - h.since) (s.ages.get 0 k)) }

/-- The frame of held work is not sent (R252). -/
def State.workLost (s : State) (h : Held) : State :=
  match h.work with
  | .down _ _ _ p => s.injFin p 2 none
  | .tx _ _ _ p => s.injFin p 2 none
  | _ => s

/-- A held item dropped for age (R31, R201). -/
def State.heldDrop (s : State) (i : Nat) (h : Held) : State :=
  (((s.heldAge i h).count Reg.CIPH_MISS_DROP i).overrunOnce Ty.CIPH i 7).workLost h

/-- MISS_HOLD_EXPIRY (R201): items held longer than the hold are dropped. -/
def State.missExpire (s : State) (i : Nat) : State :=
  let c := s.pool i
  let late := c.miss.filter (s.heldLate i)
  late.foldl (fun s h => s.heldDrop i h) (s.setPool i { c with miss := c.miss.filter fun h => !s.heldLate i h })
def execMissHoldExpiry (inst : Nat) (s : State) := live s fun s => s.missExpire (inst % 8)

/-- KAT_START (R216): the known-answer test begins on every enabled core. -/
def State.katStart (s : State) (i : Nat) : State :=
  (s.setFlag Reg.CIPH_TEST_KAT_DONE i false).setPool i { s.pool i with kat := true }
def execKatStart (inst : Nat) (s : State) := live s fun s =>
  if s.active Ty.CIPH (inst % 8) then s.katStart (inst % 8) else s

/-- KAT_DONE (R216): the cores that failed (as the test found them, and core 0 where ERR_INV_CHECK bit 3 made it fail)
leave CORE_EN and raise source 0x06. -/
def execKatDone (inst fails : Nat) (s : State) := live s fun s =>
  let i := inst % 8
  if !(s.pool i).kat then s else
  let en := s.fld Reg.CIPH_CTL_CORE_EN i
  let f := (if s.inv Ty.CIPH i 3 then fails ||| 1 else fails) &&& en
  let s := s.invDone Ty.CIPH i 3
  let s := (s.setFld Reg.CIPH_TEST_KAT_FAIL i f).setFlag Reg.CIPH_TEST_KAT_DONE i true
  let s := (s.setFld Reg.CIPH_CTL_CORE_EN i (en - (en &&& f))).setPool i { s.pool i with kat := false }
  (List.range 12).foldl (fun s c => if bitOf f c then (s.intSet Ty.CIPH i 6).raise Ty.CIPH i 6 c (c * 2 ^ 16) else s) s

/-- The effects of CIPH error sources (R225): 0x02 drops a held item (LO its place in the buffer), 0x03 abandons a unit whose context was
stored (LO its place in the store), 0x04 and 0x05 drop an item, the next that the pool takes (DESIGN CHOICE, log entry 113). -/
def State.ciphErr (s : State) (d : Det) : State :=
  if d.forced then s else
  let c := s.pool d.inst
  match d.src with
  | 2 => match c.miss[d.capLo]? with
    | some h => (s.setPool d.inst { c with miss := c.miss.eraseIdx d.capLo }).workLost h
    | none => s
  | 3 => match c.parked[d.capLo]? with
    | some j => (s.setPool d.inst { c with parked := c.parked.eraseIdx d.capLo }).abandon d.inst j
    | none => s
  | 4 | 5 => s.setPool d.inst { c with drop := true }
  | _ => s

end Sys2Proof.Machine
end

