-- ==== Sys2Proof/Machine/Msg.lean ====
section
/-! DEFINITION. Terminal records as other blocks see them, control messages (R42, R177), map entries (R128), stage
deadlines (R30, R32) and the device's role. -/

namespace Sys2Proof.Machine

/-- A terminal record nothing has written. (DESIGN CHOICE, log entry 6) -/
def termReset : Term :=
  { valid := false, vendor := 0, serial := 0, sni := 0, st := .init, dark := false, keyed := false
    reason := 0, eqd := 0, mean := 0, stby := 0, winCount := 0, winCloses := none, darkRun := 0
    viol := [0, 0, 0, 0, 0, 0, 0], noticed := [], rogueIn := false, lastRogue := none, lastViol := 0, dying := false
    nonce := 0, told := false, assignAcked := false, tries := 0, nextSeq := 1, out := none, queue := [], pend := none, since := 0
    rangeFrom := none, rangeRes := none, reRange := false, ranging := none, lastPoll := 0, bcast := none, eqdAt := none, eqdWait := false, rangeAfter := false, allocAcked := false, keptMk := none
    opFrame := none, missRun := 0, noKem := false }

/-- The key of terminal `term` of tree `t`: its AX (R191). -/
def termAx (t term : Nat) : Nat := t * 512 + term

/-- A terminal's record, by AX. -/
def State.term (s : State) (ax : Nat) : Term := s.terms.get termReset ax

/-- Store a terminal's record. -/
def State.setTerm (s : State) (ax : Nat) (x : Term) : State := { s with terms := s.terms.set termReset ax x }

/-- The code of a state (R138). -/
def TState.code : TState → Nat
  | .init => 0
  | .discovered => 1
  | .ranged => 2
  | .authenticating => 3
  | .operational => 4
  | .quarantined => 5
  | .deactivated => 6

/-- A Sextant at reset. (DESIGN CHOICE, log entry 6) -/
def sxtReset : SxtS :=
  { windows := [], find := none, outbox := [], notices := [], good := [], rogue := none, rogueTick := none, darkTest := none, params := false
    sentParams := [], graceTo := 0, inbox := [] }

/-- A receiver at reset. (DESIGN CHOICE, log entry 6) -/
def trxReset : TrxS := { maps := [], prof := [], reasm := [], replay := [], loaded := 0, brst := [], cktSeen := [] }

/-- Queue a control message on a tree (R46). -/
def State.ctrlPut (s : State) (t : Nat) (m : CtlMsg) : State :=
  s.setTx t { s.tx t with ctrlQ := (s.tx t).ctrlQ ++ [m] }

/-- DEST of a broadcast message (R42). -/
def destAll : Nat := 0x8000

/-- Bytes 0 to 55 of a message (R42). -/
def msgHead (m : CtlMsg) : Bytes :=
  toBE 1 m.type ++ toBE 1 (if m.auth == 0 then 0 else 128) ++ toBE 2 m.dest ++ toBE 4 0 ++ sliceB m.body 0 48

/-- The leftmost 64 bits of AES-CMAC under MK over the 71 bytes of R177. -/
def micOf (mk : Bytes) (tick tree dir term sblk pos : Nat) (head : Bytes) : Bytes :=
  (Config.cmac mk (toBE 6 tick ++ toBE 1 tree ++ toBE 1 dir ++ toBE 2 term ++ toBE 2 sblk ++ toBE 3 pos ++ head)).take 8

/-- The MIC field of a message with AUTH 0: CRC-32C and four bytes of 0 (R42). -/
def crcMic (head : Bytes) : Bytes := toBE 4 (crc32c head) ++ [0, 0, 0, 0]

/-! ## The key agent's records (R165, R166) -/

/-- A record of the key agent that nothing has written. -/
def kaReset : KaTerm :=
  { tms := none, nextTms := none, kgen := 0, lastSw := 0, dueAt := none, reDue := false, retryAt := none, waitAt := none
    restarts := 0, lastSess := 0, sess := none, sw := none, deactLate := none, sendQ := [], sentN := 0 }

/-- The key agent's record of a terminal. -/
def State.kt (s : State) (ax : Nat) : KaTerm := s.ka.terms.get kaReset ax

/-- Store it. -/
def State.setKt (s : State) (ax : Nat) (x : KaTerm) : State := { s with ka := { s.ka with terms := s.ka.terms.set kaReset ax x } }

/-- Store a record and mirror what R467 mirrors of it. -/
def State.putTerm (s : State) (ax : Nat) (x : Term) : State :=
  let s := s.setTerm ax x
  let b (y : Bool) : Nat := if y then 1 else 0
  s.mirror 3 [0, ax, b x.valid, x.vendor, x.serial, x.sni, x.st.code, ofSigned 32 x.eqd, b x.dark, b x.keyed, x.reason] []

/-- Mirror the key agent's state of a terminal (R189, R467 MTYPE 0x05). -/
def State.kaMirror (s : State) (ax : Nat) : State :=
  let x := s.kt ax
  let b (y : Bool) : Nat := if y then 1 else 0
  let tm (y : Option Tms) : List Nat := match y with
    | some m => [1, m.heSni, m.tSni, m.born]
    | none => [0, 0, 0, 0]
  let sw : List Nat := match x.sw with
    | some w => [1, w.kgen, w.phase, b w.newMaster, w.t.getD 0, b w.acked]
    | none => [0, 0, 0, 0, 0, 0]
  s.mirror 5 ([0, ax, x.kgen, x.lastSw] ++ tm x.tms ++ tm x.nextTms ++ sw)
    [wrapKey s.wk ((x.tms.map (·.key)).getD []), wrapKey s.wk ((x.nextTms.map (·.key)).getD [])]

/-- The outgoing management key that a switch in progress keeps (R178). -/
def State.outMk (s : State) (ax : Nat) : Bytes := match (s.kt ax).sw with
  | some w => w.mkey
  | none => []

/-- The management key of a terminal for a message of tick t: of the generation in effect, or of the outgoing one. (DEDUCED, log entry 109) -/
def State.mkOf (s : State) (ax tick : Nat) (outgoing : Bool) : Option Bytes :=
  let a := s.assoc ax
  if outgoing && !(s.outMk ax).isEmpty then some (s.outMk ax) else
  match a.pos (a.curAt s.tick tick) with
  | some k => if a.st == .invalid || k.mic.isEmpty then (s.term ax).keptMk else some k.mic
  | none => (s.term ax).keptMk

/-- The 64 bytes of a message in position `pos` of the control section of frame n of tree t. -/
def State.msgBytes (s : State) (t n pos : Nat) (m : CtlMsg) : Bytes :=
  let h := msgHead m
  if m.auth == 0 then h ++ crcMic h else
  match s.mkOf (termAx t (m.dest % 512)) n (m.auth == 2) with
  | some key => h ++ micOf key n t 0 (m.dest % 512) 0 pos h
  | none => h ++ crcMic h

/-! ## The key agent's groups and parameters (R165, R166) -/

/-- A group nothing has written. -/
def kgReset : KaGroup := { lastSw := 0, dueAt := none, sw := none, past := false, waiting := [], refused := [], late := [] }

/-- The key agent's record of a group association. -/
def State.kg (s : State) (ax : Nat) : KaGroup := s.ka.groups.get kgReset ax

/-- Store it. -/
def State.setKg (s : State) (ax : Nat) (x : KaGroup) : State := { s with ka := { s.ka with groups := s.ka.groups.set kgReset ax x } }

/-- A key-agent parameter in effect (R166): the register's field as the last tick boundary found it. -/
def State.kaPar (s : State) (f : FldId) (d : Nat := 0) : Nat := bitsOf (s.ka.par.getD resetAt (f.at 0 d)).toNat f.lo f.w

/-- The SEG_MAX that governs a terminal: its session's, or the parameter in effect. -/
def State.segMax (s : State) (ax : Nat) : Nat :=
  match (s.kt ax).sess with
  | some e => e.segMax
  | none => s.kaPar Reg.PKA_SESSION_CFG_SEG_MAX

/-- The group association that a GROUP_KEY's GROUP field names on a tree (R167). -/
def groupAx (t g : Nat) : Nat := if g == 0xFFFF then 16384 + t else 16416 + g

/-- The 34 body bytes of TIME_OF_DAY for frame n of tree t (R187): X is network tick n − E in the active domain's time, with
the part of a step that the transmitters have still to take up (R63). (DEDUCED, log entry 66) -/
def State.todBody (s : State) (t n : Nat) : Bytes :=
  let d := s.tm.active
  let x := ((((n : Int) - s.tm.e) * tickU + s.tm.resid + s.tm.lineErr) % timeMod).toNat
  let b (f : FldId) (i : Nat) : Nat := if s.flag f 0 (0x40 * d) then 2 ^ i else 0
  toBE 6 n ++ toBE 6 (secOf x) ++ toBE 4 (nanoOf x) ++ toBE 2 (subOf x) ++ toBE 2 (s.kaPar Reg.PKA_TIME_CFG_UTC_OFFSET) ++
    toBE 1 (b Reg.AST_DOM_CTL_VALID 0 + (if (s.dom d).hold then 2 else 0) + b Reg.AST_DOM_CTL_LEAP61 2 + b Reg.AST_DOM_CTL_LEAP59 3) ++
    toBE 1 d ++ toBE 2 (min 0xFFFF (s.accNow d)) ++ toBE 2 (s.kaPar Reg.PKA_DOWN_FRAC_FRAC (4 * t))

/-- The 40 bytes of WRAPPED for a member in a message of frame n (R179): the group's key of a phase under the member's wrap
key of the generation in effect. -/
def State.wrapped (s : State) (ax gax phase n : Nat) : Bytes :=
  let a := s.assoc ax
  match a.pos (a.curAt s.tick n), (s.assoc gax).pos phase with
  | some k, some g => Config.keyWrap k.wrap g.key
  | _, _ => List.replicate 40 0

/-- A message's fields that name the frame that carries it (R144): APPLY_UTICK of EQD_SET and EQD_SHIFT, UTICK of DARK_TEST;
T of KEY_SWITCH, which every retry keeps (R180); T_DELTA and WRAPPED of GROUP_KEY (R179); TIME_OF_DAY (R187). -/
def State.stamp (s : State) (t n : Nat) (m : CtlMsg) : CtlMsg :=
  let ax := termAx t (m.dest % 512)
  let lead := s.fld Reg.SXT_RANGE_CFG_EQD_LEAD t
  let d := s.fld Reg.ORR_TREE_CFG_D (t / 8) (4 * (t % 8))
  let putB (i : Nat) (b : Bytes) : CtlMsg := { m with body := sliceB m.body 0 i ++ b ++ m.body.drop (i + b.length) }
  let put (i v : Nat) : CtlMsg := putB i (toBE 6 v)
  match m.type with
  | 0x13 => put 6 (n + lead)
  | 0x14 => put 4 (n + d + 2)
  | 0x1A => put 4 (n + lead)
  | 0x48 =>
    match (s.kt ax).sw with
    | some w => put 8 (w.t.getD (n + s.kaPar Reg.PKA_SWITCH_CFG_SWITCH_LEAD))
    | none => m
  | 0x49 =>
    let gax := groupAx t (beAt m.body 2 2)
    let f := beAt m.body 4 1
    let tdel : Nat := if 128 ≤ f then 0 else
      match (s.kg gax).sw with
      | some (at_, _) => ofSigned 16 ((at_ : Int) - n)
      | none => 0
    putB 5 (toBE 2 tdel ++ [0] ++ s.wrapped ax gax (f % 2) n)
  | 0x50 => putB 0 (s.todBody t n)
  | _ => m

/-- What the Sextant takes from a frame that carries a message: when STATE(OPERATIONAL) went (R139), when an EQD_SET applies
(R151), when a dark test begins (R156), to when no violation of offset or length is judged (R159), that a terminal is
keyed from the frame with KX_DONE (R176), and the T that a KEY_SWITCH names (R180). -/
def State.carried (s : State) (t n : Nat) (m : CtlMsg) : State :=
  let lead := s.fld Reg.SXT_RANGE_CFG_EQD_LEAD t
  let d := s.fld Reg.ORR_TREE_CFG_D (t / 8) (4 * (t % 8))
  let ax := termAx t (m.dest % 512)
  let x := s.sxt.getD (fun _ => sxtReset) t
  match m.type with
  | 0x15 =>
    if beAt m.body 2 1 == 4 && (s.term ax).opFrame.isNone then s.setTerm ax { s.term ax with opFrame := some n } else s
  | 0x13 =>
    let y := s.term ax
    if y.eqdWait || y.eqdAt.isSome then
      s.setTerm ax { y with eqdAt := some (n + lead), eqdWait := false, rangeAfter := false
                            rangeFrom := if y.rangeAfter then some (n + lead) else y.rangeFrom }
    else s
  | 0x14 => { s with sxt := s.sxt.setD (fun _ => sxtReset) t { x with graceTo := n + d + 3 } }
  | 0x43 =>
    if (s.term ax).keyed then s else
    ((s.putTerm ax { s.term ax with keyed := true }).setKt ax { s.kt ax with lastSw := n }).kaMirror ax
  | 0x48 =>
    match (s.kt ax).sw with
    | some w =>
      if w.t.isSome then s else
      let at_ := n + s.kaPar Reg.PKA_SWITCH_CFG_SWITCH_LEAD
      ((s.setKt ax { s.kt ax with sw := some { w with t := some at_ } }).kaMirror ax).setSwitch ax w.phase at_
    | none => s
  | 0x1A => match x.darkTest with
    | some (f, l, _) => { s with sxt := s.sxt.setD (fun _ => sxtReset) t { x with darkTest := some (f, l, n + lead) } }
    | none => s
  | _ => s

end Sys2Proof.Machine
end

