-- ==== Sys2Proof/Machine/Qmap.lean ====
section
/-! DEFINITION. The Quadrant (R378 to R381): regions, the address map of navigators (R365), the check of one access, commits
and the fence. -/

namespace Sys2Proof.Machine

/-! ## Regions (R378, R380) -/

/-- A region nothing has written. -/
def qregReset : QRegion := { base := 0, limit := 0, cfg := 0, bad := false }

/-- The key of region r of navigator n of an instance; instance 32 has one set of 16. -/
def qKeyOf (inst n r : Nat) : Nat := (inst * 16 + if inst == 32 then 0 else n % 16) * 16 + r % 16

/-- Region r of navigator n of a Quadrant. -/
def State.qreg (s : State) (inst n r : Nat) : QRegion := s.qmap.get qregReset (qKeyOf inst n r)

/-- Store it. -/
def State.setQreg (s : State) (inst n r : Nat) (x : QRegion) : State :=
  { s with qmap := s.qmap.set qregReset (qKeyOf inst n r) x }

/-- A region is enabled and can be read (R387). -/
def QRegion.en (x : QRegion) : Bool := bitOf x.cfg 6 && !x.bad

/-- A region contains a whole access. -/
def QRegion.covers (x : QRegion) (addr len : Nat) : Bool := decide (x.base * 64 ≤ addr) && decide (addr + len ≤ (x.limit + 1) * 64)

/-- The enabled regions of a navigator, or of the debug Quadrant, that contain an access. -/
def State.qHits (s : State) (inst n addr len : Nat) : List QRegion :=
  ((List.range 16).map fun r => s.qreg inst n r).filter fun x => x.en && x.covers addr len

/-- A refused access (R378, R380): FAULTS, OVERLAP, and what LAST_FAULT shows. `kind` is 1 read, 2 write, 4 execute. -/
def State.qRefuse (s : State) (inst n kind addr : Nat) (user overlap locked : Bool) : State :=
  let b (x : Bool) (i : Nat) : Nat := if x then 2 ^ i else 0
  let s := s.count Reg.QMAP_FAULTS inst
  let s := if overlap then s.count Reg.QMAP_OVERLAP inst else s
  let s := s.setReg Reg.QMAP_LAST_FAULT_ADDR inst (addr % 2 ^ 32)
  let s := if inst == 32 then s.setReg Reg.QMAP_LAST_FAULT_ADDR_EXT inst (addr / 2 ^ 32 % 256) else s
  s.setReg Reg.QMAP_LAST_FAULT_INFO inst
    ((if inst == 32 then 0 else n % 16) + kind % 8 * 16 + b user 7 + b overlap 8 + b locked 9)

/-! ## The address map (R365) -/

/-- Places in the memory of the navigators: shared data of cluster c, local data of navigator n, program bank b. -/
def placeShared (c off : Nat) : Nat := c * 2 ^ 20 + off
def placeLocal (c n off : Nat) : Nat := 2 ^ 32 + (c * 16 + n) * 2 ^ 16 + off
def placeBank (c b off : Nat) : Nat := 2 ^ 40 + (c * 2 + b) * 2 ^ 18 + off

/-- What an address of navigator n of cluster c, running in a bank, names: 0 program, 1 local, 2 own shared, 3 the shared data
of a cluster by its own window; none where it is unmapped. -/
inductive NavArea where
  | prog
  | locl
  | shared
  | other (c : Nat)
  deriving DecidableEq, Repr

/-- The area of a whole access. -/
def State.navArea (s : State) (addr len : Nat) : Option NavArea :=
  if addr + len ≤ 0x40000 then some .prog
  else if 0x100000 ≤ addr ∧ addr + len ≤ 0x110000 then some .locl
  else if 0x200000 ≤ addr ∧ addr + len ≤ 0x300000 then some .shared
  else
    let c := (addr - 0x10000000) / 2 ^ 20
    if 0x10000000 ≤ addr ∧ addr + len ≤ 0x12000000 ∧ (addr - 0x10000000) % 2 ^ 20 + len ≤ 2 ^ 20 ∧ s.present Ty.NAV c = true then
      some (.other c)
    else none

/-- The place of an access. -/
def NavArea.place (a : NavArea) (c n bank addr : Nat) : Nat :=
  match a with
  | .prog => placeBank c bank addr
  | .locl => placeLocal c n (addr - 0x100000)
  | .shared => placeShared c (addr - 0x200000)
  | .other c' => placeShared c' ((addr - 0x10000000) % 2 ^ 20)

/-- The default M-mode permission (R365) for the access bits 1 read, 2 write, 4 execute. -/
def NavArea.default (a : NavArea) (bits : Nat) : Bool :=
  match a with
  | .prog => !bitOf bits 1
  | .locl | .shared => !bitOf bits 2
  | .other _ => false

/-- An access type's bits: 1 read, 2 write, 4 execute, 3 an AMO, which needs both. -/
def qKind (bits : Nat) : Nat := if bits == 3 then 2 else bits

/-- Inverted check bits of the region SRAM (R387): the first enabled region read is lost. -/
def State.qInv (s : State) (inst n : Nat) : State :=
  if !s.inv Ty.QMAP inst 0 then s else
  match (List.range 16).find? fun r => (s.qreg inst n r).en with
  | some r => (s.setQreg inst n r { s.qreg inst n r with bad := true }).raiseInv Ty.QMAP inst 2 (if inst == 32 then r else n * 16 + r) 0
  | none => s

/-- The Quadrant's check of an access at issue (R378): its place, or the refusal. -/
def State.navCheck (s : State) (c n bank bits addr len : Nat) (user : Bool) : State × Option Nat :=
  let s := s.qInv c n
  match s.navArea addr len with
  | none => (s.qRefuse c n (qKind bits) addr user false false, none)
  | some a =>
    let ok (b : Bool) : State × Option Nat :=
      if b then (s, some (a.place c n bank addr)) else (s.qRefuse c n (qKind bits) addr user false false, none)
    match s.qHits c n addr len with
    | [] => ok (!user && a.default bits)
    | [x] => ok (bitsOf x.cfg (if user then 3 else 0) 3 &&& bits == bits)
    | _ => (s.qRefuse c n (qKind bits) addr user true false, none)

/-! ## Commits and the fence (R379, R385) -/

/-- The region with the halves held for it: address bits [31:6] of a word written, and [39:32] of an extension (R380, R385). -/
def QHold.overlay (h : QHold) (ext : Bool) (x : QRegion) (cfg : Nat) : QRegion :=
  let part (lo hi : Option Nat) (old : Nat) : Nat :=
    (match lo with
      | some v => bitsOf v 6 26
      | none => old % 2 ^ 26) + if ext then (hi.getD (old / 2 ^ 26)) % 256 * 2 ^ 26 else 0
  { base := part h.base h.baseExt x.base, limit := part h.limit h.limitExt x.limit, cfg := cfg, bad := false }

/-- What is held before anything is written. -/
def qholdReset : QHold := { base := none, limit := none, baseExt := none, limitExt := none }

/-- One region's commit: a locked region and a LIMIT below BASE are refused. (DEDUCED, log entry 55) -/
def State.qCommit (s : State) (inst n r v : Nat) : State :=
  let x := s.qreg inst n r
  let y := (s.qhold.get qholdReset inst).overlay (inst == 32) x (if inst == 32 then v % 256 &&& 0xC3 else v % 128)
  if bitOf x.cfg 7 || decide (y.limit < y.base) then s.count Reg.QMAP_CFG_REJECT inst
  else s.setQreg inst n r y

/-- REGION_COMMIT: the word written to REGION_CFG commits the region that REGION_SEL names, of every navigator with ALL. (DEDUCED, log entry 55) -/
def State.regionCommit (s : State) (inst v : Nat) : State :=
  if !s.present Ty.QMAP inst then s else
  let r := s.fld Reg.QMAP_REGION_SEL_REGION inst
  let s := if inst != 32 && s.flag Reg.QMAP_REGION_SEL_ALL inst then
      (List.range 16).foldl (fun (s : State) n => s.qCommit inst n r v) s
    else s.qCommit inst (s.fld Reg.QMAP_REGION_SEL_NAV inst) r v
  { s with qhold := s.qhold.erase inst }
def execRegionCommit (inst : Nat) (v : Word) (s : State) := live s fun s => s.regionCommit (inst % 64) v.toNat

/-- QMAP_FENCE: every access of this model is checked and performed in one command, so none is outstanding when the read
returns; WAITED shows those waited for. -/
def execQmapFence (inst waited : Nat) (s : State) := live s fun s =>
  if s.present Ty.QMAP (inst % 64) then s.setFld Reg.QMAP_FENCE_WAITED (inst % 64) (min waited 65535) else s

/-- The effect of QMAP error source 0x02 (R387): the region, by navigator × 16 + region in the capture word, is EN 0 until
rewritten. (DEDUCED, log entry 55) -/
def State.qmapErr (s : State) (d : Det) : State :=
  if d.forced || d.src != 2 then s else
  s.setQreg d.inst (d.capLo / 16) (d.capLo % 16) { s.qreg d.inst (d.capLo / 16) (d.capLo % 16) with bad := true }

end Sys2Proof.Machine
end

