-- ==== Sys2Proof/Machine/Rv.lean ====
section
/-! DEFINITION. The instructions of a navigator (R359, R360): RV64IMAC of the RISC-V unprivileged specification, the CSR and
system instructions of its machine and user modes, and the wide extension; their decoding and their arithmetic. What R359
does not list follows the RISC-V specifications (log entry 60). -/

namespace Sys2Proof.Machine

/-- Operations on two integers. -/
inductive Alu where
  | add | sub | sll | slt | sltu | xor | srl | sra | or | and
  | mul | mulh | mulhsu | mulhu | div | divu | rem | remu
  deriving DecidableEq, Repr

/-- The memory operation of an AMO. -/
inductive AmoOp where
  | swap | add | xor | and | or | min | max | minu | maxu
  deriving DecidableEq, Repr

/-- A decoded instruction. `imm` and `off` are sign-extended; `w32` marks the forms on 32 bits. -/
inductive NavOp where
  | lui (rd : Nat) (imm : BitVec 64)
  | auipc (rd : Nat) (imm : BitVec 64)
  | jal (rd : Nat) (off : BitVec 64)
  | jalr (rd rs1 : Nat) (off : BitVec 64)
  | branch (f3 rs1 rs2 : Nat) (off : BitVec 64)
  | load (f3 rd rs1 : Nat) (off : BitVec 64)
  | store (f3 rs1 rs2 : Nat) (off : BitVec 64)
  | aluImm (op : Alu) (w32 : Bool) (rd rs1 : Nat) (imm : BitVec 64)
  | alu (op : Alu) (w32 : Bool) (rd rs1 rs2 : Nat)
  | fence
  | ecall
  | ebreak
  | mret
  | wfi
  | csr (f3 rd num src : Nat)
  | lr (w32 : Bool) (rd rs1 : Nat)
  | sc (w32 : Bool) (rd rs1 rs2 : Nat)
  | amo (op : AmoOp) (w32 : Bool) (rd rs1 rs2 : Nat)
  | wld (wd rs1 : Nat) (imm : BitVec 64)
  | wst (ws2 rs1 : Nat) (imm : BitVec 64)
  | wadd (z wd ws1 ws2 : Nat)
  | wsub (z wd ws1 ws2 : Nat)
  | wand (wd ws1 ws2 : Nat)
  | wor (wd ws1 ws2 : Nat)
  | wxor (wd ws1 ws2 : Nat)
  | wcmpeq (z wd ws1 ws2 : Nat)
  | wshl (z wd ws1 rs2 : Nat)
  | wshr (z wd ws1 rs2 : Nat)
  | wins (z q wd rs1 : Nat)
  | wext (z q rd ws1 : Nat)
  | crcstep (pp n rd rs1 ws2 : Nat)
  | mbxSend (rd rs1 ws2 : Nat)
  | mbxRecv (rd wd : Nat)
  | wft (rd rs1 : Nat)
  | flk (wd ws1 : Nat)
  | almreq (rd rs1 : Nat)
  deriving DecidableEq, Repr

/-! ## Arithmetic -/

/-- A signed field of w bits as 64 bits. -/
def sext (w v : Nat) : BitVec 64 := (BitVec.ofNat w v).signExtend 64

/-- An operation on 64-bit operands; division as the M extension defines its corners. -/
def alu64 (op : Alu) (a b : BitVec 64) : BitVec 64 :=
  match op with
  | .add => a + b
  | .sub => a - b
  | .sll => a <<< (b.toNat % 64)
  | .slt => if a.slt b then 1 else 0
  | .sltu => if a.ult b then 1 else 0
  | .xor => a ^^^ b
  | .srl => a >>> (b.toNat % 64)
  | .sra => a.sshiftRight (b.toNat % 64)
  | .or => a ||| b
  | .and => a &&& b
  | .mul => a * b
  | .mulh => BitVec.ofInt 64 (a.toInt * b.toInt / 2 ^ 64)
  | .mulhsu => BitVec.ofInt 64 (a.toInt * (b.toNat : Int) / 2 ^ 64)
  | .mulhu => BitVec.ofNat 64 (a.toNat * b.toNat / 2 ^ 64)
  | .div => if b = 0 then BitVec.allOnes 64 else BitVec.ofInt 64 (a.toInt.tdiv b.toInt)
  | .divu => if b = 0 then BitVec.allOnes 64 else BitVec.ofNat 64 (a.toNat / b.toNat)
  | .rem => if b = 0 then a else BitVec.ofInt 64 (a.toInt.tmod b.toInt)
  | .remu => if b = 0 then a else BitVec.ofNat 64 (a.toNat % b.toNat)

/-- An operation on the low 32 bits, its result sign-extended. -/
def alu32 (op : Alu) (a b : BitVec 64) : BitVec 64 :=
  let x := a.setWidth 32
  let y := b.setWidth 32
  let r : BitVec 32 := match op with
    | .sub => x - y
    | .sll => x <<< (y.toNat % 32)
    | .srl => x >>> (y.toNat % 32)
    | .sra => x.sshiftRight (y.toNat % 32)
    | .mul => x * y
    | .div => if y = 0 then BitVec.allOnes 32 else BitVec.ofInt 32 (x.toInt.tdiv y.toInt)
    | .divu => if y = 0 then BitVec.allOnes 32 else BitVec.ofNat 32 (x.toNat / y.toNat)
    | .rem => if y = 0 then x else BitVec.ofInt 32 (x.toInt.tmod y.toInt)
    | .remu => if y = 0 then x else BitVec.ofNat 32 (x.toNat % y.toNat)
    | _ => x + y
  r.signExtend 64

/-- Either form. -/
def aluRun (op : Alu) (w32 : Bool) (a b : BitVec 64) : BitVec 64 := if w32 then alu32 op a b else alu64 op a b

/-- Whether a branch is taken. -/
def branchTaken (f3 : Nat) (a b : BitVec 64) : Bool :=
  match f3 with
  | 0 => a == b
  | 1 => a != b
  | 4 => a.slt b
  | 5 => !a.slt b
  | 6 => a.ult b
  | _ => !a.ult b

/-- The value an AMO stores, from the old value and the operand, both sign-extended from the access's width. -/
def amoRun (op : AmoOp) (w32 : Bool) (a b : BitVec 64) : BitVec 64 :=
  let u (x : BitVec 64) : Nat := if w32 then x.toNat % 2 ^ 32 else x.toNat
  match op with
  | .swap => b
  | .add => a + b
  | .xor => a ^^^ b
  | .and => a &&& b
  | .or => a ||| b
  | .min => if a.slt b then a else b
  | .max => if a.slt b then b else a
  | .minu => if u a < u b then a else b
  | .maxu => if u a < u b then b else a

/-! ## Wide arithmetic (R360) -/

/-- Bits of a lane. -/
def laneBits (z : Nat) : Nat := 8 * 2 ^ (z % 4)

/-- Lanes of a wide register. -/
def laneCount (z : Nat) : Nat := 128 / laneBits z

/-- Lane q. -/
def laneGet (z q : Nat) (w : BitVec 128) : Nat := bitsOf w.toNat (laneBits z * q) (laneBits z)

/-- A wide register with lane q replaced. -/
def laneSet (z q : Nat) (w : BitVec 128) (v : Nat) : BitVec 128 :=
  BitVec.ofNat 128 (setBitsOf w.toNat (laneBits z * q) (laneBits z) v)

/-- A lane-wise function of two wide registers, each lane modulo its size. -/
def laneMap (z : Nat) (f : Nat → Nat → Nat) (a b : BitVec 128) : BitVec 128 :=
  (List.range (laneCount z)).foldl (fun r q => laneSet z q r (f (laneGet z q a) (laneGet z q b))) 0

/-- The 16 bytes of a wide register: byte k is bits [8k + 7:8k] (R359). -/
def wideBytes (w : BitVec 128) : Bytes := toLE 16 w.toNat

/-- The wide register of 16 bytes. -/
def wideOf (b : Bytes) : BitVec 128 := BitVec.ofNat 128 (leNat (sliceB b 0 16))

/-- CRCSTEP (R361): algorithm pp, the state in x[rs1], the bytes. -/
def crcStep (pp : Nat) (st : BitVec 64) (d : Bytes) : BitVec 64 :=
  BitVec.ofNat 64 <| match pp % 4 with
    | 0 => crcRefl 0xEDB88320 (st.toNat % 2 ^ 32) d
    | 1 => crcRefl 0x82F63B78 (st.toNat % 2 ^ 32) d
    | 2 => crcMsb 16 0x1021 (st.toNat % 2 ^ 16) d
    | _ => crcMsb 64 0x42F0E1EBA9EA3693 st.toNat d

/-! ## Decoding -/

/-- The operation of an OP or OP-IMM encoding from funct3 and funct7[5] (`alt`), without the M extension. -/
def aluOf (f3 : Nat) (alt : Bool) : Alu :=
  match f3 with
  | 0 => if alt then .sub else .add
  | 1 => .sll
  | 2 => .slt
  | 3 => .sltu
  | 4 => .xor
  | 5 => if alt then .sra else .srl
  | 6 => .or
  | _ => .and

/-- The operation of the M extension. -/
def mulOf (f3 : Nat) : Alu :=
  match f3 with
  | 0 => .mul
  | 1 => .mulh
  | 2 => .mulhsu
  | 3 => .mulhu
  | 4 => .div
  | 5 => .divu
  | 6 => .rem
  | _ => .remu

/-- A load's or store's bytes. -/
def accBytes (f3 : Nat) : Nat := 2 ^ (f3 % 4)

/-- Loaded bytes as a register value: funct3 4 to 6 zero-extend. -/
def loadValue (f3 v : Nat) : BitVec 64 :=
  match f3 with
  | 0 => sext 8 v
  | 1 => sext 16 v
  | 2 => sext 32 v
  | _ => BitVec.ofNat 64 v

/-- OP and OP-32. -/
def decodeOp (w32 : Bool) (f3 f7 rd rs1 rs2 : Nat) : Option NavOp :=
  let ok32 (l : List Nat) : Bool := !w32 || l.contains f3
  if f7 == 0 && ok32 [0, 1, 5] then some (.alu (aluOf f3 false) w32 rd rs1 rs2)
  else if f7 == 32 && (f3 == 0 || f3 == 5) then some (.alu (aluOf f3 true) w32 rd rs1 rs2)
  else if f7 == 1 && ok32 [0, 4, 5, 6, 7] then some (.alu (mulOf f3) w32 rd rs1 rs2)
  else none

/-- OP-IMM and OP-IMM-32 with the 12-bit immediate. -/
def decodeImm (w32 : Bool) (f3 rd rs1 imm : Nat) : Option NavOp :=
  let sh := if w32 then 5 else 6
  if f3 == 1 then
    if imm / 2 ^ sh == 0 then some (.aluImm .sll w32 rd rs1 (BitVec.ofNat 64 (imm % 2 ^ sh))) else none
  else if f3 == 5 then
    if imm / 2 ^ sh == 0 then some (.aluImm .srl w32 rd rs1 (BitVec.ofNat 64 (imm % 2 ^ sh)))
    else if imm / 2 ^ sh == 1024 / 2 ^ sh then some (.aluImm .sra w32 rd rs1 (BitVec.ofNat 64 (imm % 2 ^ sh)))
    else none
  else if w32 && f3 != 0 then none
  else some (.aluImm (aluOf f3 false) w32 rd rs1 (sext 12 imm))

/-- AMO: funct5 in funct7[6:2]. -/
def decodeAmo (f3 f7 rd rs1 rs2 : Nat) : Option NavOp :=
  if f3 != 2 && f3 != 3 then none else
  let w := f3 == 2
  match f7 / 4 with
  | 0 => some (.amo .add w rd rs1 rs2)
  | 1 => some (.amo .swap w rd rs1 rs2)
  | 2 => if rs2 == 0 then some (.lr w rd rs1) else none
  | 3 => some (.sc w rd rs1 rs2)
  | 4 => some (.amo .xor w rd rs1 rs2)
  | 8 => some (.amo .or w rd rs1 rs2)
  | 12 => some (.amo .and w rd rs1 rs2)
  | 16 => some (.amo .min w rd rs1 rs2)
  | 20 => some (.amo .max w rd rs1 rs2)
  | 24 => some (.amo .minu w rd rs1 rs2)
  | 28 => some (.amo .maxu w rd rs1 rs2)
  | _ => none

/-- The wide extension's opcodes (R360). (DEDUCED, log entry 50) -/
def decodeWide (op f3 f7 rd rs1 rs2 : Nat) : Option NavOp :=
  let z := f7 % 4
  let lane := f7 / 4 == 0
  match op, f3 with
  | 0x0B, 0 => some (.wld rd rs1 (sext 12 (f7 * 32 + rs2)))
  | 0x0B, 1 => some (.wst rs2 rs1 (sext 12 (f7 * 32 + rd)))
  | 0x2B, 0 => if lane then some (.wadd z rd rs1 rs2) else none
  | 0x2B, 1 => if lane then some (.wsub z rd rs1 rs2) else none
  | 0x2B, 2 => if f7 == 0 then some (.wand rd rs1 rs2) else none
  | 0x2B, 3 => if f7 == 0 then some (.wor rd rs1 rs2) else none
  | 0x2B, 4 => if f7 == 0 then some (.wxor rd rs1 rs2) else none
  | 0x2B, 5 => if lane then some (.wcmpeq z rd rs1 rs2) else none
  | 0x2B, 6 => if lane then some (.wshl z rd rs1 rs2) else if f7 / 4 == 8 then some (.wshr z rd rs1 rs2) else none
  | 0x2B, 7 =>
    let q := f7 / 4 % 16
    if 64 ≤ f7 then some (.wins z q rd rs1) else some (.wext z q rd rs1)
  | 0x5B, 0 => if f7 < 64 then some (.crcstep (f7 / 16) (f7 % 16) rd rs1 rs2) else none
  | 0x5B, 1 => if f7 == 0 then some (.mbxSend rd rs1 rs2) else none
  | 0x5B, 2 => if f7 == 0 then some (.mbxRecv rd rs2) else none
  | 0x5B, 3 => if f7 == 0 then some (.wft rd rs1) else none
  | 0x7B, 0 => if f7 == 0 then some (.flk rd rs1) else none
  | 0x7B, 1 => if f7 == 0 then some (.almreq rd rs1) else none
  | _, _ => none

/-- A 32-bit instruction. -/
def decode32 (i : Nat) : Option NavOp :=
  let rd := bitsOf i 7 5
  let f3 := bitsOf i 12 3
  let rs1 := bitsOf i 15 5
  let rs2 := bitsOf i 20 5
  let f7 := bitsOf i 25 7
  let immI := bitsOf i 20 12
  match i % 128 with
  | 0x37 => some (.lui rd (sext 32 (i / 4096 * 4096)))
  | 0x17 => some (.auipc rd (sext 32 (i / 4096 * 4096)))
  | 0x6F => some (.jal rd (sext 21 (bitsOf i 31 1 * 2 ^ 20 + bitsOf i 12 8 * 2 ^ 12 + bitsOf i 20 1 * 2 ^ 11 + bitsOf i 21 10 * 2)))
  | 0x67 => if f3 == 0 then some (.jalr rd rs1 (sext 12 immI)) else none
  | 0x63 =>
    if f3 == 2 || f3 == 3 then none
    else some (.branch f3 rs1 rs2 (sext 13 (bitsOf i 31 1 * 2 ^ 12 + bitsOf i 7 1 * 2 ^ 11 + bitsOf i 25 6 * 32 + bitsOf i 8 4 * 2)))
  | 0x03 => if f3 == 7 then none else some (.load f3 rd rs1 (sext 12 immI))
  | 0x23 => if 4 ≤ f3 then none else some (.store f3 rs1 rs2 (sext 12 (f7 * 32 + rd)))
  | 0x13 => decodeImm false f3 rd rs1 immI
  | 0x1B => decodeImm true f3 rd rs1 immI
  | 0x33 => decodeOp false f3 f7 rd rs1 rs2
  | 0x3B => decodeOp true f3 f7 rd rs1 rs2
  | 0x0F => if f3 == 0 then some .fence else none
  | 0x2F => decodeAmo f3 f7 rd rs1 rs2
  | 0x73 =>
    if f3 == 4 then none
    else if f3 != 0 then some (.csr f3 rd immI rs1)
    else if rd != 0 || rs1 != 0 then none
    else match immI with
      | 0 => some .ecall
      | 1 => some .ebreak
      | 0x302 => some .mret
      | 0x105 => some .wfi
      | _ => none
  | op => decodeWide op f3 f7 rd rs1 rs2

/-- A 16-bit instruction of the C extension without F and D. -/
def decode16 (i : Nat) : Option NavOp :=
  let b (k : Nat) : Nat := bitsOf i k 1
  let rd := bitsOf i 7 5
  let rs2 := bitsOf i 2 5
  let rdC := 8 + bitsOf i 2 3
  let rs1C := 8 + bitsOf i 7 3
  let imm6 := b 12 * 32 + rs2
  let lw := bitsOf i 10 3 * 8 + b 6 * 4 + b 5 * 64
  let ld := bitsOf i 10 3 * 8 + bitsOf i 5 2 * 64
  let br := sext 9 (b 12 * 256 + bitsOf i 10 2 * 8 + bitsOf i 5 2 * 64 + bitsOf i 3 2 * 2 + b 2 * 32)
  match i % 4, i / 8192 % 8 with
  | 0, 0 =>
    let imm := bitsOf i 11 2 * 16 + bitsOf i 7 4 * 64 + b 6 * 4 + b 5 * 8
    if imm == 0 then none else some (.aluImm .add false rdC 2 (BitVec.ofNat 64 imm))
  | 0, 2 => some (.load 2 rdC rs1C (BitVec.ofNat 64 lw))
  | 0, 3 => some (.load 3 rdC rs1C (BitVec.ofNat 64 ld))
  | 0, 6 => some (.store 2 rs1C rdC (BitVec.ofNat 64 lw))
  | 0, 7 => some (.store 3 rs1C rdC (BitVec.ofNat 64 ld))
  | 1, 0 => some (.aluImm .add false rd rd (sext 6 imm6))
  | 1, 1 => if rd == 0 then none else some (.aluImm .add true rd rd (sext 6 imm6))
  | 1, 2 => some (.aluImm .add false rd 0 (sext 6 imm6))
  | 1, 3 =>
    if imm6 == 0 then none
    else if rd == 2 then some (.aluImm .add false 2 2 (sext 10 (b 12 * 512 + b 6 * 16 + b 5 * 64 + bitsOf i 3 2 * 128 + b 2 * 32)))
    else some (.lui rd (sext 18 (imm6 * 4096)))
  | 1, 4 =>
    match bitsOf i 10 2 with
    | 0 => some (.aluImm .srl false rs1C rs1C (BitVec.ofNat 64 imm6))
    | 1 => some (.aluImm .sra false rs1C rs1C (BitVec.ofNat 64 imm6))
    | 2 => some (.aluImm .and false rs1C rs1C (sext 6 imm6))
    | _ => match b 12 * 4 + bitsOf i 5 2 with
      | 0 => some (.alu .sub false rs1C rs1C rdC)
      | 1 => some (.alu .xor false rs1C rs1C rdC)
      | 2 => some (.alu .or false rs1C rs1C rdC)
      | 3 => some (.alu .and false rs1C rs1C rdC)
      | 4 => some (.alu .sub true rs1C rs1C rdC)
      | 5 => some (.alu .add true rs1C rs1C rdC)
      | _ => none
  | 1, 5 =>
    some (.jal 0 (sext 12 (b 12 * 2048 + b 11 * 16 + bitsOf i 9 2 * 256 + b 8 * 1024 + b 7 * 64 + b 6 * 128 + bitsOf i 3 3 * 2 + b 2 * 32)))
  | 1, 6 => some (.branch 0 rs1C 0 br)
  | 1, 7 => some (.branch 1 rs1C 0 br)
  | 2, 0 => some (.aluImm .sll false rd rd (BitVec.ofNat 64 imm6))
  | 2, 2 => if rd == 0 then none else some (.load 2 rd 2 (BitVec.ofNat 64 (b 12 * 32 + bitsOf i 4 3 * 4 + bitsOf i 2 2 * 64)))
  | 2, 3 => if rd == 0 then none else some (.load 3 rd 2 (BitVec.ofNat 64 (b 12 * 32 + bitsOf i 5 2 * 8 + bitsOf i 2 3 * 64)))
  | 2, 4 =>
    if b 12 == 0 then
      if rs2 != 0 then some (.alu .add false rd 0 rs2)
      else if rd == 0 then none else some (.jalr 0 rd 0)
    else if rs2 != 0 then some (.alu .add false rd rd rs2)
    else if rd == 0 then some .ebreak else some (.jalr 1 rd 0)
  | 2, 6 => some (.store 2 2 rs2 (BitVec.ofNat 64 (bitsOf i 9 4 * 4 + bitsOf i 7 2 * 64)))
  | 2, 7 => some (.store 3 2 rs2 (BitVec.ofNat 64 (bitsOf i 10 3 * 8 + bitsOf i 7 3 * 64)))
  | _, _ => none

/-- Bytes of the instruction that begins with a 16-bit parcel. -/
def parcelLen (p : Nat) : Nat := if p % 4 == 3 then 4 else 2

/-- The instruction of a parcel or word. (PRESUMED, log entry 60) -/
def decodeNav (i : Nat) : Option NavOp := if parcelLen i == 4 then decode32 i else decode16 (i % 2 ^ 16)

/-- The row of the command table that an instruction belongs to: 0 the base instruction set. (PRESUMED, log entry 60) -/
def NavOp.row : NavOp → Nat
  | .wld .. => 1
  | .wst .. => 2
  | .wadd .. => 3
  | .wsub .. => 4
  | .wand .. => 5
  | .wor .. => 6
  | .wxor .. => 7
  | .wcmpeq .. => 8
  | .wshl .. => 9
  | .wshr .. => 10
  | .wins .. => 11
  | .wext .. => 12
  | .crcstep .. => 13
  | .mbxSend .. => 14
  | .mbxRecv .. => 15
  | .wft .. => 16
  | .flk .. => 17
  | .almreq .. => 18
  | _ => 0

end Sys2Proof.Machine
end

