-- ==== Sys2Proof/Machine/Nav.lean ====
section
/-! DEFINITION. The navigators as processors (R356 to R372): registers and CSRs, counters, traps and interrupts, memory
accesses through the Quadrant, starting and waiting, and the instructions. -/

namespace Sys2Proof.Machine

/-! ## Records -/

/-- A navigator nothing has started. (DESIGN CHOICE, log entry 6) -/
def naveReset : NavE :=
  { run := false, wait := none, start := none, um := false, pc := 0, x := [], w := [], csr := [], bank := 0, b := 0, idle := 0
    done := none, rx := [], resv := none, alm := [], trapped := false, failed := none, clock := 0, skid := 0 }

/-- A cluster at reset. (DESIGN CHOICE, log entry 6) -/
def navcReset : NavC := { spare := none, spareDead := false, entry := [], prod := 0, cons := 0, ring := 0x04000000, load := none, switched := 0, dataErr := false }

/-- Navigator n of cluster c. -/
def State.nv (s : State) (c n : Nat) : NavE := s.nav.get naveReset (c * 16 + n)

/-- Store it. -/
def State.setNv (s : State) (c n : Nat) (e : NavE) : State := { s with nav := s.nav.set naveReset (c * 16 + n) e }

/-- Cluster c. -/
def State.cluster (s : State) (c : Nat) : NavC := s.navc.get navcReset c

/-- Store it. -/
def State.setCluster (s : State) (c : Nat) (x : NavC) : State := { s with navc := s.navc.set navcReset c x }

/-- Integer register r: x0 reads 0. -/
def NavE.getX (e : NavE) (r : Nat) : BitVec 64 := if r = 0 then 0 else e.x.get 0 r

/-- Write integer register r: a write of x0 is discarded. -/
def NavE.putX (e : NavE) (r : Nat) (v : BitVec 64) : NavE := if r = 0 then e else { e with x := e.x.set 0 r v }

/-- Wide register r. -/
def NavE.getW (e : NavE) (r : Nat) : BitVec 128 := e.w.get 0 r

/-- Write wide register r. -/
def NavE.putW (e : NavE) (r : Nat) (v : BitVec 128) : NavE := { e with w := e.w.set 0 r v }

/-- The number of navigators running in a cluster. -/
def State.navsRunning (s : State) (c : Nat) : Bool := (List.range 16).any fun n => (s.nv c n).run

/-- The active bank. -/
def State.actBank (s : State) (c : Nat) : Nat := s.fld Reg.NAV_STS_ACTIVE_BANK c

/-! ## CSRs (R359, R363, R364) -/

/-- Reset values of stored CSRs: UXL of mstatus is 2, everything else 0. -/
def csrReset (n : Nat) : BitVec 64 := if n = 0x300 then BitVec.ofNat 64 (2 * 2 ^ 32) else 0

/-- A stored CSR. -/
def NavE.getCsr (e : NavE) (n : Nat) : BitVec 64 := e.csr.getD csrReset n

/-- Store a CSR. -/
def NavE.putCsr (e : NavE) (n : Nat) (v : BitVec 64) : NavE := { e with csr := e.csr.setD csrReset n v }

/-- A bit of a stored CSR. -/
def NavE.csrBit (e : NavE) (n i : Nat) : Bool := bitOf (e.getCsr n).toNat i

/-- Whether a CSR exists. -/
def csrExists (n : Nat) : Bool :=
  [0x300, 0x301, 0x304, 0x305, 0x306, 0x30A, 0x320, 0x340, 0x341, 0x342, 0x343, 0x344, 0x7C0, 0x7C1, 0xCC0, 0xCC1, 0xCC2, 0xB00, 0xB02,
   0xC00, 0xC02, 0xF11, 0xF12, 0xF13, 0xF14, 0xF15].contains n ||
    (decide (0x323 ≤ n) && decide (n ≤ 0x33F)) || (decide (0xB03 ≤ n) && decide (n ≤ 0xB1F)) || (decide (0xC03 ≤ n) && decide (n ≤ 0xC1F))

/-- Event counter k, 3 to 6, counts `n` events of a number: its overflow sets the flag of its mhpmevent. -/
def NavE.bump1 (ev n : Nat) (e : NavE) (k : Nat) : NavE :=
  let sel := e.getCsr (0x320 + k)
  if sel.toNat % 256 != ev || n == 0 || e.csrBit 0x320 k then e else
  let v := (e.getCsr (0xB00 + k)).toNat + n
  let e := e.putCsr (0xB00 + k) (BitVec.ofNat 64 v)
  if v < 2 ^ 64 then e
  else { e.putCsr (0x320 + k) (BitVec.ofNat 64 (setBitOf sel.toNat 63 true)) with skid := 0 }

/-- All four counters (R364). -/
def NavE.bump (e : NavE) (ev n : Nat) : NavE := [3, 4, 5, 6].foldl (NavE.bump1 ev n) e

/-- mcycle and the cycle events brought up to the present core cycle. -/
def State.navClock (s : State) (e : NavE) : NavE :=
  let d := s.now - e.clock
  let e := { e with clock := max s.now e.clock }
  let e := if e.csrBit 0x320 0 then e else e.putCsr 0xB00 (e.getCsr 0xB00 + BitVec.ofNat 64 d)
  let e := e.bump 1 d
  if e.wait.isSome then e.bump 6 d else e

/-- mip: COUNTER_OVF while an overflow flag and its enable stand, MBX_ARRIVAL while the queue is not empty, TICK. (DEDUCED, log entry 50) -/
def NavE.mip (e : NavE) : Nat :=
  let ovf := [3, 4, 5, 6].any fun k => e.csrBit (0x320 + k) 63 && e.csrBit (0x320 + k) 62
  (if ovf then 2 ^ 16 else 0) + (if e.rx.isEmpty then 0 else 2 ^ 17) + (if e.csrBit 0x344 18 then 2 ^ 18 else 0)

/-- A CSR as an instruction reads it. (PRESUMED, log entry 60) -/
def State.csrValue (s : State) (c n : Nat) (e : NavE) (num : Nat) : BitVec 64 :=
  if num = 0x301 then 0x8000000000101105
  else if num = 0x306 then 0
  else if num = 0x344 then BitVec.ofNat 64 e.mip
  else if num = 0x7C1 then BitVec.ofNat 64 (s.cluster c).cons
  else if num = 0xCC0 then BitVec.ofNat 64 s.tick
  else if num = 0xCC1 then BitVec.ofNat 64 s.tm.cycle
  else if num = 0xCC2 then
    BitVec.ofNat 64 (n + c * 256 + (if (s.cluster c).spare == some n then 2 ^ 16 else 0) + e.bank * 2 ^ 17)
  else if 0xC00 ≤ num ∧ num ≤ 0xC1F then e.getCsr (num - 0x100)
  else if 0xF11 ≤ num ∧ num ≤ 0xF15 then Config.navIdCsr num
  else e.getCsr num

/-- The stored value of a CSR after a write of v: the fields that R359 and the privileged specification make writable. (PRESUMED, log entry 60) -/
def csrStore (num : Nat) (old v : BitVec 64) : BitVec 64 :=
  let mask (m : Nat) : BitVec 64 := (v &&& BitVec.ofNat 64 m) ||| (old &&& ~~~(BitVec.ofNat 64 m))
  match num with
  | 0x300 =>
    let x := mask (2 ^ 3 + 2 ^ 7 + 3 * 2 ^ 11 + 2 ^ 17 + 2 ^ 21)
    let mpp := bitsOf x.toNat 11 2
    if mpp == 0 || mpp == 3 then x else BitVec.ofNat 64 (setBitsOf x.toNat 11 2 0)
  | 0x304 => mask (7 * 2 ^ 16)
  | 0x305 => mask 0x3FFFD
  | 0x30A => mask 1
  | 0x320 => mask 0x7D
  | 0x323 | 0x324 | 0x325 | 0x326 => mask (2 ^ 8 - 1 + 2 ^ 62 + 2 ^ 63)
  | 0x341 => mask (2 ^ 64 - 2)
  | 0x344 => BitVec.ofNat 64 (if bitOf v.toNat 18 then old.toNat else 0)
  | 0x7C0 => mask 7
  | 0x340 | 0x342 | 0x343 | 0xB00 | 0xB02 | 0xB03 | 0xB04 | 0xB05 | 0xB06 => v
  | _ => old

/-! ## Traps (R372, R382) -/

/-- Set mstatus for a trap: MPIE ← MIE, MIE ← 0, MPP ← the mode. -/
def NavE.trapStatus (e : NavE) : NavE :=
  let m := (e.getCsr 0x300).toNat
  let m := setBitOf m 7 (bitOf m 3)
  let m := setBitOf m 3 false
  e.putCsr 0x300 (BitVec.ofNat 64 (setBitsOf m 11 2 (if e.um then 0 else 3)))

/-- Enter the trap handler: mepc, mcause, mtval, mode M, pc from mtvec, vectored for interrupts. (PRESUMED, log entry 60) -/
def NavE.enter (e : NavE) (irq : Bool) (cause : Nat) (tval : BitVec 64) : NavE :=
  let tv := (e.getCsr 0x305).toNat
  let base := tv / 4 * 4
  let e := ((e.putCsr 0x341 e.pc).putCsr 0x342 (BitVec.ofNat 64 (cause + if irq then 2 ^ 63 else 0))).putCsr 0x343 tval
  let e := e.trapStatus
  { e with um := false, trapped := true, pc := BitVec.ofNat 64 (if irq && tv % 4 == 1 then base + 4 * cause else base) }

/-- Whether an exception counts in TRAPS: access, misaligned and illegal-instruction exceptions (R382). -/
def trapCounted (cause : Nat) : Bool := [1, 2, 4, 5, 6, 7].contains cause

/-- Count a trap with TRAP_INFO and TRAP_PC. -/
def State.trapCount (s : State) (c n cause : Nat) (user : Bool) (pc : BitVec 64) : State :=
  let s := s.count Reg.NAV_TRAPS c
  let s := s.setReg Reg.NAV_TRAP_INFO c (n + cause % 256 * 16 + if user then 2 ^ 12 else 0)
  s.setReg Reg.NAV_TRAP_PC c (pc.toNat % 2 ^ 32)

/-- An exception of a navigator. -/
def State.navTrap (s : State) (c n cause : Nat) (tval : BitVec 64) : State :=
  let e := s.nv c n
  let s := if trapCounted cause then s.trapCount c n cause e.um e.pc else s
  s.setNv c n ((e.enter false cause (if Config.navMtvalKept cause then tval else 0)).bump 10 1)

/-- An exception while fetching from mtvec (R372): the navigator stops until the next boundary. -/
def State.navDouble (s : State) (c n : Nat) : State :=
  let e := s.nv c n
  let s := s.trapCount c n 0xFF e.um e.pc
  s.setNv c n { e with run := false, start := some 4, trapped := false }

/-! ## Accesses -/

/-- The mode of a data access: MPRV takes MPP's. -/
def NavE.dataUser (e : NavE) : Bool := e.um || (e.csrBit 0x300 17 && bitsOf (e.getCsr 0x300).toNat 11 2 == 0)

/-- Write bytes at a place: reservations of other navigators over them are lost. -/
def State.navStore (s : State) (who place : Nat) (d : Bytes) : State :=
  let lose (k : Nat) (e : NavE) : NavE :=
    match e.resv with
    | some (p, m) => if k != who && decide (p < place + d.length) && decide (place < p + m) then { e with resv := none } else e
    | none => e
  { s with nmem := s.nmem.writeN place d, nav := s.nav.mapV (fun _ => naveReset) lose }

/-- A checked data access of n bytes (R359, R378, R384): misaligned, refused, met by a data error, or its place. (DEDUCED, log entry 50) -/
def State.navData (s : State) (c n bits : Nat) (addr : BitVec 64) (len : Nat) : State × Option Nat :=
  let e := s.nv c n
  let store := bitOf bits 1
  if addr.toNat % len != 0 then (s.navTrap c n (if store then 6 else 4) addr, none) else
  let (s, p) := s.navCheck c n e.bank bits addr.toNat len e.dataUser
  match p with
  | none => (s.navTrap c n (if store then 7 else 5) addr, none)
  | some p =>
    if s.inv Ty.NAV c 0 && decide (p < 2 ^ 40) then
      ((s.raiseInv Ty.NAV c 2 (p % 2 ^ 32) 0).navTrap c n (if store then 7 else 5) addr, none)
    else if (s.cluster c).dataErr && decide (p < 2 ^ 40) then
      ((s.setCluster c { s.cluster c with dataErr := false }).navTrap c n (if store then 7 else 5) addr, none)
    else (s, some p)

/-- The instruction at the navigator's pc (R359): its bytes as a number, or a fetch fault. (DEDUCED, log entry 50) -/
def State.navFetch (s : State) (c n : Nat) : State × Option Nat :=
  let e := s.nv c n
  let a := e.pc.toNat
  let bad (p : Nat) : Bool := s.nbad.get false (p / 4)
  let one (s : State) (len : Nat) : State × Option Nat :=
    if 0x40000 < a + len then (s.qRefuse c n 4 a e.um false false, none)
    else
      let (s, p) := s.navCheck c n e.bank 4 a len e.um
      match p with
      | none => (s, none)
      | some p =>
        if s.inv Ty.NAV c 1 then (s.raiseInv Ty.NAV c 4 (p % 2 ^ 18) e.bank, none)
        else if bad p || bad (p + len - 1) then (s, none)
        else (s, some (leNat (s.nmem.readN p len)))
  match one s 2 with
  | (s, none) => (s, none)
  | (s, some w) => if parcelLen w == 4 then one s 4 else (s, some w)

/-! ## Starting and waiting (R357, R362, R372) -/

/-- The tick word of R362. -/
def State.tickWord (s : State) (missed : Nat) (late msg : Bool) : BitVec 64 :=
  BitVec.ofNat 64 (s.tick + min missed 255 * 2 ^ 48 + (if late then 2 ^ 62 else 0) + (if msg then 2 ^ 63 else 0))

/-- Local data of a navigator zeroed. -/
def State.zeroLocal (s : State) (c n : Nat) : State :=
  let lo := placeLocal c n 0
  { s with nmem := s.nmem.keep fun k _ => !(decide (lo ≤ k) && decide (k < lo + 2 ^ 16)) }

/-- A navigator starts at the ENTRY of the active bank with a cause (R372). -/
def State.navStart (s : State) (c n cause : Nat) (word : BitVec 64) : State :=
  let e := s.nv c n
  let bank := s.actBank c
  let e1 := { naveReset with
    run := true, pc := BitVec.ofNat 64 ((s.cluster c).entry.get 0 bank), bank := bank, done := e.done, rx := e.rx, alm := e.alm
    clock := s.now }
  let s := if cause == 0 || cause == 2 then s.zeroLocal c n else s
  let id := s.csrValue c n e1 0xCC2
  s.setNv c n (((e1.putX 10 word).putX 11 id).putX 12 (BitVec.ofNat 64 cause))

/-- OLD_BANK_BUSY falls once no navigator runs in the standby bank (R377). -/
def State.oldBankSettle (s : State) (c : Nat) : State :=
  if s.flag Reg.NAV_STS_OLD_BANK_BUSY c &&
      !((List.range 16).any fun n => (s.nv c n).run && (s.nv c n).bank != s.actBank c) then
    (s.setFlag Reg.NAV_STS_OLD_BANK_BUSY c false).intSet Ty.NAV c 4
  else s

/-- WFT returns (R362): into the same bank, or as a start in the active bank (R377). -/
def State.wftReturn (s : State) (c n rd : Nat) (word : BitVec 64) : State :=
  let e := s.nv c n
  if e.bank != s.actBank c then (s.navStart c n 1 word).oldBankSettle c
  else
    let e := s.navClock e
    let e := { e.putX rd word with wait := none, pc := e.pc + 4, b := 0, skid := e.skid + 1 }
    let e := if e.csrBit 0x320 2 then e else e.putCsr 0xB02 (e.getCsr 0xB02 + 1)
    s.setNv c n (e.bump 2 1)

/-- Whether every working navigator of a cluster has completed the tick (R357). -/
def State.clusterDone (s : State) (c : Nat) : Bool :=
  (List.range 16).all fun n => !(s.nv c n).run || (s.nv c n).done.isSome

/-- The latest completion of a cluster's navigators. -/
def State.clusterCycle (s : State) (c : Nat) : Nat := (List.range 16).foldl (fun a n => max a ((s.nv c n).done.getD 0)) 0

/-! ## Retiring -/

/-- Store a navigator that has retired an instruction of `len` bytes, its registers already in e. -/
def State.navRetire (s : State) (c n : Nat) (e : NavE) (next : BitVec 64) (wide : Bool) : State :=
  let e := { e with pc := next, skid := e.skid + 1 }
  let e := if e.csrBit 0x320 2 then e else e.putCsr 0xB02 (e.getCsr 0xB02 + 1)
  s.setNv c n ((e.bump 2 1).bump 3 (if wide then 1 else 0))

/-! ## Stopping and failing (R372, R373) -/

/-- A logical navigator is lost (R373). -/
def State.navLost (s : State) (c n : Nat) : Bool := bitOf (s.reg Reg.NAV_FAILED c) n

/-- A navigator stops at once: its requests in flight are discarded. -/
def State.navStop (s : State) (c n : Nat) : State :=
  let e := s.nv c n
  let s := s.setNv c n { e with run := false, wait := none, start := none, alm := [], resv := none }
  { s with posts := s.posts.filter fun p => !(p.cluster == c && p.nav == n && p.ep == 0xFF00) }

/-- The engine that carries a navigator stops; what it had outstanding and its receive queue are
discarded. `raised`: the event has already been raised. -/
def State.engineFail (s : State) (c n : Nat) (raised : Bool) : State :=
  if !s.present Ty.NAV c || s.navLost c n || (s.nv c n).failed.isSome then s else
  let s := s.navStop c n
  let s := s.setNv c n { s.nv c n with rx := [], trapped := false, failed := some raised }
  s.oldBankSettle c
/-- Inverted register-file parity fails navigator 0 at its next register read (R384). -/
def State.navParity (s : State) (c n : Nat) (f : State → State) : State :=
  if n == 0 && s.inv Ty.NAV c 2 then (s.engineFail c n false).invDone Ty.NAV c 2 else f s

/-! ## The base instructions -/

/-- A new RX_RING takes effect while no slot is in use (R381). (DEDUCED, log entry 53) -/
def State.frameRing (s : State) (c : Nat) : State :=
  let k := s.cluster c
  if s.reg Reg.NAV_RX_RING c != k.ring && k.prod == k.cons then
    s.setCluster c { k with ring := s.reg Reg.NAV_RX_RING c, prod := 0, cons := 0 }
  else s

/-- CSR instructions (R359, R363). -/
def State.navCsr (s : State) (c n : Nat) (next : BitVec 64) (f3 rd num src : Nat) (ill : State) : State :=
  let e := s.nv c n
  let writes := f3 % 4 == 1 || src != 0
  let counter := 0xC00 ≤ num && num ≤ 0xC1F
  if !csrExists num || (e.um && (num / 256 % 4 != 0 || counter)) || (writes && num / 1024 == 3) then ill else
  let old := s.csrValue c n e num
  let v := if f3 < 4 then e.getX src else BitVec.ofNat 64 src
  let new := match f3 % 4 with
    | 1 => v
    | 2 => old ||| v
    | _ => old &&& ~~~v
  let s := if writes && num == 0x7C1 then (s.setCluster c { s.cluster c with cons := new.toNat % 1024 }).frameRing c else s
  let e := if !writes || num == 0x7C1 then e
    else if num == 0xB02 && !e.csrBit 0x320 2 then e.putCsr 0xB02 (new - 1)
    else e.putCsr num (csrStore num (e.getCsr num) new)
  s.navRetire c n (e.putX rd old) next false

/-- MRET: the mode and MIE of before the trap. -/
def NavE.mret (e : NavE) : NavE :=
  let m := (e.getCsr 0x300).toNat
  let user := bitsOf m 11 2 == 0
  let m := setBitOf m 3 (bitOf m 7)
  let m := setBitsOf (setBitOf m 7 true) 11 2 0
  let m := if user then setBitOf m 17 false else m
  { e.putCsr 0x300 (BitVec.ofNat 64 m) with um := user }

/-- A base instruction (R359). `raw` is the instruction's bits, `len` its bytes. -/
def State.navBase (s : State) (c n raw len : Nat) (op : NavOp) : State :=
  let e := s.nv c n
  let pc := e.pc
  let next := pc + BitVec.ofNat 64 len
  let who := c * 16 + n
  let ill := s.navTrap c n 2 (BitVec.ofNat 64 raw)
  let fin (e : NavE) : State := s.navRetire c n e next false
  match op with
  | .lui rd imm => fin (e.putX rd imm)
  | .auipc rd imm => fin (e.putX rd (pc + imm))
  | .jal rd off => s.navRetire c n (e.putX rd next) (pc + off) false
  | .jalr rd rs1 off => s.navRetire c n (e.putX rd next) ((e.getX rs1 + off) &&& ~~~1#64) false
  | .branch f3 rs1 rs2 off => s.navRetire c n e (if branchTaken f3 (e.getX rs1) (e.getX rs2) then pc + off else next) false
  | .load f3 rd rs1 off =>
    let k := accBytes f3
    match s.navData c n 1 (e.getX rs1 + off) k with
    | (s, none) => s
    | (s, some p) => s.navRetire c n ((s.nv c n).putX rd (loadValue f3 (leNat (s.nmem.readN p k)))) next false
  | .store f3 rs1 rs2 off =>
    let k := accBytes f3
    match s.navData c n 2 (e.getX rs1 + off) k with
    | (s, none) => s
    | (s, some p) =>
      let s := s.navStore who p (toLE k (e.getX rs2).toNat)
      s.navRetire c n (s.nv c n) next false
  | .aluImm op w rd rs1 imm => fin (e.putX rd (aluRun op w (e.getX rs1) imm))
  | .alu op w rd rs1 rs2 => fin (e.putX rd (aluRun op w (e.getX rs1) (e.getX rs2)))
  | .fence => fin e
  | .ecall => s.navTrap c n (if e.um then 8 else 11) 0
  | .ebreak => s.navTrap c n 3 pc
  | .mret => if e.um then ill else s.navRetire c n e.mret (e.getCsr 0x341) false
  | .wfi => if e.um && e.csrBit 0x300 21 then ill else fin e
  | .csr f3 rd num src => s.navCsr c n next f3 rd num src ill
  | .lr w rd rs1 =>
    let k := if w then 4 else 8
    match s.navData c n 1 (e.getX rs1) k with
    | (s, none) => s
    | (s, some p) =>
      if 2 ^ 40 ≤ p then s.navTrap c n 5 (e.getX rs1) else
      let e := s.nv c n
      s.navRetire c n { e.putX rd (loadValue (if w then 2 else 3) (leNat (s.nmem.readN p k))) with resv := some (p, k) } next false
  | .sc w rd rs1 rs2 =>
    let k := if w then 4 else 8
    match s.navData c n 2 (e.getX rs1) k with
    | (s, none) => s
    | (s, some p) =>
      if 2 ^ 40 ≤ p then s.navTrap c n 7 (e.getX rs1) else
      let hit := (s.nv c n).resv == some (p, k)
      let s := if hit then s.navStore who p (toLE k (e.getX rs2).toNat) else s
      s.navRetire c n { (s.nv c n).putX rd (if hit then 0 else 1) with resv := none } next false
  | .amo op w rd rs1 rs2 =>
    let k := if w then 4 else 8
    let f := if w then 2 else 3
    match s.navData c n 3 (e.getX rs1) k with
    | (s, none) => s
    | (s, some p) =>
      if 2 ^ 40 ≤ p then s.navTrap c n 7 (e.getX rs1) else
      let old := loadValue f (leNat (s.nmem.readN p k))
      let b := loadValue f ((e.getX rs2).toNat % 2 ^ (8 * k))
      let s := s.navStore who p (toLE k (amoRun op w old b).toNat)
      s.navRetire c n ((s.nv c n).putX rd old) next false
  | _ => s

/-! ## One instruction -/

/-- What stands before an instruction of a navigator at a core cycle: the clock, with the cycles it has stalled on shared
data, on fetch, on FLK and ALMREQ, and its branch mispredictions (`stalls`, in this order). -/
def State.navTime (s : State) (c n cycle : Nat) (stalls : List Nat) : State :=
  let s := s.advanceTo (min cycle s.tm.len)
  let e := s.navClock (s.nv c n)
  s.setNv c n ((((e.bump 4 (stalls.getD 0 0)).bump 5 (stalls.getD 1 0)).bump 8 (stalls.getD 2 0)).bump 9 (stalls.getD 3 0))

/-- The interrupts that a navigator would take: pending and enabled, with MIE or in U mode. COUNTER_OVF may wait for up to 6
instructions (R364). (PRESUMED, log entry 60) -/
def NavE.irqs (e : NavE) (hold : Bool) : Nat :=
  let on := e.um || e.csrBit 0x300 3
  let m := e.mip &&& (e.getCsr 0x304).toNat
  if !on then 0 else if hold && decide (e.skid < 6) then setBitOf m 16 false else m

/-- The interrupt taken of those in a mask: the order is not given. (PRESUMED, log entry 60) -/
def irqPick (m : Nat) : Nat :=
  let k := Config.navIrqFirst m
  if bitOf m k then k else if bitOf m 16 then 16 else if bitOf m 17 then 17 else 18

/-- What comes next at a navigator: an interrupt, a fetch fault, an instruction with its bits and bytes, or an encoding with
no meaning. -/
inductive NavNext where
  | irq (k : Nat)
  | fault
  | op (o : NavOp) (raw len : Nat)
  | illegal (raw : Nat)
  deriving DecidableEq, Repr

/-- What comes next at a running navigator. -/
def State.navNext (s : State) (c n : Nat) (hold : Bool) : State × NavNext :=
  let m := (s.nv c n).irqs hold
  if m != 0 then (s, .irq (irqPick m)) else
  match s.navFetch c n with
  | (s, none) => (s, .fault)
  | (s, some raw) =>
    match decodeNav raw with
    | some o => (s, .op o raw (parcelLen raw))
    | none => (s, .illegal raw)

/-- A navigator that can execute: running, not waiting. -/
def State.navReady (s : State) (c n : Nat) : Bool :=
  !s.halted && s.active Ty.NAV c && decide (n < 16) && (s.nv c n).run && (s.nv c n).wait.isNone

/-- NAV_INSTRUCTION: an interrupt, an exception of the fetch or of the encoding, or a base instruction. Where an instruction of
the wide extension comes next, this is not its command and nothing happens. (PRESUMED, log entry 60) -/
def State.navInstruction (s : State) (c n cycle : Nat) (stalls : List Nat) (hold : Bool) : State :=
  if !s.navReady c n then s else
  s.navParity c n fun s =>
  let s0 := s
  let s := s.navTime c n cycle stalls
  match s.navNext c n hold with
  | (s, .irq k) => s.setNv c n ((s.nv c n).enter true k 0)
  | (s, .fault) => if (s.nv c n).trapped then s.navDouble c n else s.navTrap c n 1 (s.nv c n).pc
  | (s, .illegal raw) => (s.setNv c n { s.nv c n with trapped := false }).navTrap c n 2 (BitVec.ofNat 64 raw)
  | (s, .op o raw len) =>
    if o.row == 0 then (s.setNv c n { s.nv c n with trapped := false }).navBase c n raw len o else s0

/-- An instruction of the wide extension, where it comes next: its bits, the instruction, and the effect on the state that has
fetched it. -/
def State.navWide (s : State) (row c n cycle : Nat) (stalls : List Nat) (f : State → Nat → NavOp → State) : State :=
  if !s.navReady c n then s else
  s.navParity c n fun s =>
  match (s.navTime c n cycle stalls).navNext c n true with
  | (t, .op o raw _) => if o.row == row then f (t.setNv c n { t.nv c n with trapped := false }) raw o else s
  | _ => s

/-- A wide instruction that writes registers of its navigator and retires. (PRESUMED, log entry 60) -/
def State.navReg (s : State) (c n : Nat) (f : NavE → NavE) : State :=
  let e := s.nv c n
  s.navRetire c n (f e) (e.pc + 4) true

/-- An illegal instruction. -/
def State.navIll (s : State) (c n raw : Nat) : State := s.navTrap c n 2 (BitVec.ofNat 64 raw)

/-! ## The commands of the instructions -/

/-- The numbers of a cluster and a navigator in a command. -/
def navC (c : Nat) : Nat := c % 32
def navN (n : Nat) : Nat := n % 16

def execNavInstruction (c n cycle : Nat) (stalls : List Nat) (hold : Bool) (s : State) := live s fun s =>
  s.navInstruction (navC c) (navN n) cycle stalls hold

/-- WLD: 16 bytes at an address aligned to 16. -/
def State.wld (s : State) (c n wd rs1 : Nat) (imm : BitVec 64) : State :=
  match s.navData c n 1 ((s.nv c n).getX rs1 + imm) 16 with
  | (s, none) => s
  | (s, some p) => s.navReg c n fun e => e.putW wd (wideOf (s.nmem.readN p 16))
def execWld (c n cycle : Nat) (stalls : List Nat) (s : State) := live s fun s =>
  s.navWide 1 (navC c) (navN n) cycle stalls fun s _ o => match o with
    | .wld wd rs1 imm => s.wld (navC c) (navN n) wd rs1 imm
    | _ => s

/-- WST: an aligned wide store in one step. -/
def State.wst (s : State) (c n ws2 rs1 : Nat) (imm : BitVec 64) : State :=
  match s.navData c n 2 ((s.nv c n).getX rs1 + imm) 16 with
  | (s, none) => s
  | (s, some p) => (s.navStore (c * 16 + n) p (wideBytes ((s.nv c n).getW ws2))).navReg c n id
def execWst (c n cycle : Nat) (stalls : List Nat) (s : State) := live s fun s =>
  s.navWide 2 (navC c) (navN n) cycle stalls fun s _ o => match o with
    | .wst ws2 rs1 imm => s.wst (navC c) (navN n) ws2 rs1 imm
    | _ => s

/-- WADD. -/
def execWadd (c n cycle : Nat) (stalls : List Nat) (s : State) := live s fun s =>
  s.navWide 3 (navC c) (navN n) cycle stalls fun s _ o => match o with
    | .wadd z wd a b => s.navReg (navC c) (navN n) fun e => e.putW wd (laneMap z (fun x y => x + y) (e.getW a) (e.getW b))
    | _ => s

/-- WSUB. -/
def execWsub (c n cycle : Nat) (stalls : List Nat) (s : State) := live s fun s =>
  s.navWide 4 (navC c) (navN n) cycle stalls fun s _ o => match o with
    | .wsub z wd a b =>
      s.navReg (navC c) (navN n) fun e => e.putW wd (laneMap z (fun x y => x + 2 ^ laneBits z - y) (e.getW a) (e.getW b))
    | _ => s

/-- WAND. -/
def execWand (c n cycle : Nat) (stalls : List Nat) (s : State) := live s fun s =>
  s.navWide 5 (navC c) (navN n) cycle stalls fun s _ o => match o with
    | .wand wd a b => s.navReg (navC c) (navN n) fun e => e.putW wd (e.getW a &&& e.getW b)
    | _ => s

/-- WOR. -/
def execWor (c n cycle : Nat) (stalls : List Nat) (s : State) := live s fun s =>
  s.navWide 6 (navC c) (navN n) cycle stalls fun s _ o => match o with
    | .wor wd a b => s.navReg (navC c) (navN n) fun e => e.putW wd (e.getW a ||| e.getW b)
    | _ => s

/-- WXOR. -/
def execWxor (c n cycle : Nat) (stalls : List Nat) (s : State) := live s fun s =>
  s.navWide 7 (navC c) (navN n) cycle stalls fun s _ o => match o with
    | .wxor wd a b => s.navReg (navC c) (navN n) fun e => e.putW wd (e.getW a ^^^ e.getW b)
    | _ => s

/-- WCMPEQ: each lane all ones if equal, else 0. -/
def execWcmpeq (c n cycle : Nat) (stalls : List Nat) (s : State) := live s fun s =>
  s.navWide 8 (navC c) (navN n) cycle stalls fun s _ o => match o with
    | .wcmpeq z wd a b =>
      s.navReg (navC c) (navN n) fun e =>
        e.putW wd (laneMap z (fun x y => if x == y then 2 ^ laneBits z - 1 else 0) (e.getW a) (e.getW b))
    | _ => s

/-- WSHL: by x[rs2] modulo the lane width. -/
def execWshl (c n cycle : Nat) (stalls : List Nat) (s : State) := live s fun s =>
  s.navWide 9 (navC c) (navN n) cycle stalls fun s _ o => match o with
    | .wshl z wd a rs2 =>
      s.navReg (navC c) (navN n) fun e =>
        e.putW wd (laneMap z (fun x _ => x * 2 ^ ((e.getX rs2).toNat % laneBits z)) (e.getW a) (e.getW a))
    | _ => s

/-- WSHR. -/
def execWshr (c n cycle : Nat) (stalls : List Nat) (s : State) := live s fun s =>
  s.navWide 10 (navC c) (navN n) cycle stalls fun s _ o => match o with
    | .wshr z wd a rs2 =>
      s.navReg (navC c) (navN n) fun e =>
        e.putW wd (laneMap z (fun x _ => x / 2 ^ ((e.getX rs2).toNat % laneBits z)) (e.getW a) (e.getW a))
    | _ => s

/-- WINS: a lane number at or above the lanes of the size is an illegal instruction (R360). -/
def execWins (c n cycle : Nat) (stalls : List Nat) (s : State) := live s fun s =>
  s.navWide 11 (navC c) (navN n) cycle stalls fun s raw o => match o with
    | .wins z q wd rs1 =>
      if laneCount z ≤ q then s.navIll (navC c) (navN n) raw
      else s.navReg (navC c) (navN n) fun e => e.putW wd (laneSet z q (e.getW wd) (e.getX rs1).toNat)
    | _ => s

/-- WEXT. -/
def execWext (c n cycle : Nat) (stalls : List Nat) (s : State) := live s fun s =>
  s.navWide 12 (navC c) (navN n) cycle stalls fun s raw o => match o with
    | .wext z q rd ws1 =>
      if laneCount z ≤ q then s.navIll (navC c) (navN n) raw
      else s.navReg (navC c) (navN n) fun e => e.putX rd (BitVec.ofNat 64 (laneGet z q (e.getW ws1)))
    | _ => s

/-- CRCSTEP: the first nnnn + 1 bytes of ws2 (R361). -/
def execCrcstep (c n cycle : Nat) (stalls : List Nat) (s : State) := live s fun s =>
  s.navWide 13 (navC c) (navN n) cycle stalls fun s _ o => match o with
    | .crcstep pp k rd rs1 ws2 =>
      s.navReg (navC c) (navN n) fun e => e.putX rd (crcStep pp (e.getX rs1) ((wideBytes (e.getW ws2)).take (k + 1)))
    | _ => s

/-- Whether the mode may use an instruction that bit i of nvuperm opens to U mode (R363). -/
def NavE.may (e : NavE) (i : Nat) : Bool := !e.um || e.csrBit 0x7C0 i

/-- Whether cluster c may send to an endpoint (R366). -/
def State.epAllowed (s : State) (c ep : Nat) : Bool :=
  let ty := ep / 256
  let inst := ep % 256
  if ep == 0xFF00 || ep == 0xFF01 then true
  else if ty == Ty.ORR then inst == c / 8 && s.hasTree c
  else if ty == Ty.MSEC then
    s.present Ty.MSEC inst && s.isPrim inst && s.fld Reg.MSEC_MKA_CFG_CLUSTER inst == c
  else if ty == Ty.NAV then s.present Ty.NAV inst && s.navsRunning inst
  else false

/-- MBX.SEND (R366): refused 2, inbox full 1 (its depth is not given: `full` says so), accepted 0. (DEDUCED, log entry 51) -/
def State.mbxSend (s : State) (c n rd rs1 ws2 : Nat) (full : Bool) : State :=
  let e := s.nv c n
  let ep := (e.getX rs1).toNat % 2 ^ 16
  let body := wideBytes (e.getW ws2)
  let fin (s : State) (st : Nat) : State :=
    s.navReg c n fun e => (e.putX rd (BitVec.ofNat 64 st)).bump 7 (if st == 0 then 0 else 1)
  if !s.epAllowed c ep then fin (s.count Reg.NAV_MBX_REFUSED c) 2
  else if full then fin (s.count Reg.NAV_MBX_DROP c) 1
  else
    let s := s.count64 Reg.NAV_MBX_SENT_LO c
    let s := if ep / 256 == Ty.NAV then s.sendMail ⟨Ty.NAV * 256 + c, ep % 256, none, 6, body⟩
      else { s with posts := s.posts ++ [⟨c, n, ep, body⟩] }
    fin s 0
def execMbxSend (c n cycle : Nat) (stalls : List Nat) (full : Bool) (s : State) := live s fun s =>
  s.navWide 14 (navC c) (navN n) cycle stalls fun s raw o => match o with
    | .mbxSend rd rs1 ws2 =>
      if (s.nv (navC c) (navN n)).may 0 then s.mbxSend (navC c) (navN n) rd rs1 ws2 full else s.navIll (navC c) (navN n) raw
    | _ => s

/-- MBX.RECV (R366): with an empty queue KIND is 0, wd is unchanged, and SOURCE is not given: a free value. (DEDUCED, log entry 51) -/
def State.mbxRecv (s : State) (c n rd wd : Nat) : State :=
  match (s.nv c n).rx with
  | m :: rest => s.navReg c n fun e => { (e.putW wd (wideOf m.body)).putX rd (BitVec.ofNat 64 (m.src % 2 ^ 16 + m.kind * 2 ^ 16)) with rx := rest }
  | [] =>
    let (v, s) := s.draw 16
    s.navReg c n fun e => e.putX rd (BitVec.ofNat 64 v)
def execMbxRecv (c n cycle : Nat) (stalls : List Nat) (s : State) := live s fun s =>
  s.navWide 15 (navC c) (navN n) cycle stalls fun s raw o => match o with
    | .mbxRecv rd wd =>
      if (s.nv (navC c) (navN n)).may 0 then s.mbxRecv (navC c) (navN n) rd wd else s.navIll (navC c) (navN n) raw
    | _ => s

/-- WFT (R362): returns at once after a boundary or, where asked, with a message; else it waits, which completes the tick for
this navigator (R357). -/
def State.wft (s : State) (c n rd rs1 : Nat) : State :=
  let e := { s.nv c n with idle := 0 }
  let msg := bitOf (e.getX rs1).toNat 0
  let s := s.setNv c n e
  if 1 ≤ e.b then s.wftReturn c n rd (s.tickWord (e.b - 1) true false)
  else if msg && !e.rx.isEmpty then s.wftReturn c n rd (s.tickWord 0 false true)
  else
    let s := s.setNv c n { e with wait := some ⟨rd, msg, s.now⟩, done := some s.tm.cycle }
    if s.clusterDone c then s.complete Ty.NAV c (s.clusterCycle c) else s
def execWft (c n cycle : Nat) (stalls : List Nat) (s : State) := live s fun s =>
  s.navWide 16 (navC c) (navN n) cycle stalls fun s _ o => match o with
    | .wft rd rs1 => s.wft (navC c) (navN n) rd rs1
    | _ => s

/-- FLK's lookup (R370) of a key in the form of R260. -/
def State.flkFind (s : State) (sl : Nat) (key : Bytes) : State × Option Nat :=
  if beAt key 0 1 < 64 then s.fwdFind sl (beAt key 0 2) (beAt key 2 6) else (s, none)

/-- FLK's result (R370) for the position found. -/
def State.flkResult (s : State) (sl : Nat) (pos : Option Nat) : BitVec 128 :=
  match pos.bind fun p => ((s.fw sl).tab.find p).map (p, ·) with
  | some (p, e) =>
    let idx := if stash0 ≤ p then p - stash0 else p
    wideOf (toLE 1 (1 + (if e.group then 2 else 0) + e.type % 4 * 4 + if stash0 ≤ p then 16 else 0) ++ [0] ++ toLE 2 e.dest ++ toLE 3 idx)
  | none => 0
def execFlk (c n cycle : Nat) (stalls : List Nat) (s : State) := live s fun s =>
  s.navWide 17 (navC c) (navN n) cycle stalls fun s raw o => match o with
    | .flk wd ws1 =>
      if !(s.nv (navC c) (navN n)).may 2 then s.navIll (navC c) (navN n) raw
      else
        let (s, p) := s.flkFind (navC c / 8) (sliceB (wideBytes ((s.nv (navC c) (navN n)).getW ws1)) 0 8)
        let r := s.flkResult (navC c / 8) p
        s.navReg (navC c) (navN n) fun e => e.putW wd r
    | _ => s

/-- ALMREQ (R371): the block at x[rs1], checked as a 64-byte access of local or shared data that is read and written. (DEDUCED, log entry 52) -/
def State.almreq (s : State) (c n rd rs1 : Nat) : State :=
  let e := s.nv c n
  if 4 ≤ e.alm.length then s.navReg c n fun e => e.putX rd 1 else
  let a := e.getX rs1
  match s.navData c n 3 a 64 with
  | (s, none) => s
  | (s, some p) =>
    if 2 ^ 40 ≤ p then s.navTrap c n 7 a else
    let s := s.count Reg.NAV_ALM_REQ c
    let req : AlmReq := ⟨a.toNat, s.nmem.readN p 64, e.dataUser⟩
    s.navReg c n fun e => { e.putX rd 0 with alm := e.alm ++ [req] }
def execAlmreq (c n cycle : Nat) (stalls : List Nat) (s : State) := live s fun s =>
  s.navWide 18 (navC c) (navN n) cycle stalls fun s raw o => match o with
    | .almreq rd rs1 =>
      if (s.nv (navC c) (navN n)).may 1 then s.almreq (navC c) (navN n) rd rs1 else s.navIll (navC c) (navN n) raw
    | _ => s

end Sys2Proof.Machine
end

