-- ==== Sys2Proof/Machine/Ttx.lean ====
section
/-! DEFINITION. TAL downstream frames (R35 to R71): staging, the header, sections, units and fragments, scrambling, coding,
gap fill and line states. -/

namespace Sys2Proof.Machine

/-- Frame bytes of a downstream frame (R35). -/
def frameBytes : Nat := 1368000

/-! ## Line coding (R60 to R64) -/

/-- The first `n` scrambler bytes for a seed of 58 bits (R60): bits b(58) onward. -/
def scrBytes (seed n : Nat) : Bytes :=
  -- bit i of the register holds b(i): S bit 57 is b(0).
  let reg := (List.range 58).foldl (fun a i => if bitOf seed (57 - i) then a + 2 ^ i else a) 0
  packBits (scrBits (8 * n) reg)

/-- The seed of downstream frame n (R60). -/
def frameSeed (n : Nat) : Nat := 0x3A5 * 2 ^ 48 + n % 2 ^ 48

/-- Frame bytes as encoded: bytes 16 onward scrambled unless SCR_OFF (R60, R69). -/
def scrambled (n : Nat) (off : Bool) (f : Bytes) : Bytes :=
  if off then f else f.take 16 ++ xorB (f.drop 16) (scrBytes (frameSeed n) (f.length - 16))

/-- The 336 parity bytes of an information word of 1,824 bytes (R61). -/
def parityOf (info : Bytes) : Bytes := sliceB (Config.ldpcParity info) 0 336

/-- The codewords of a frame (R61): 1,824 information bytes and 336 parity bytes each. -/
def codewords : Nat → Bytes → Bytes
  | 0, _ => []
  | k + 1, f => f.take 1824 ++ parityOf (f.take 1824) ++ codewords k (f.drop 1824)

/-- The Gray map of R62: levels of a byte's four bit pairs. -/
def pam4Of (b : Byte) : List Nat :=
  let lvl (hi lo : Bool) : Nat := match hi, lo with
    | false, false => 0
    | false, true => 1
    | true, true => 2
    | true, false => 3
  [lvl (b.getLsbD 7) (b.getLsbD 6), lvl (b.getLsbD 5) (b.getLsbD 4), lvl (b.getLsbD 3) (b.getLsbD 2), lvl (b.getLsbD 1) (b.getLsbD 0)]

/-- The symbols of a whole frame on the line. -/
def lineSymbols (n : Nat) (scrOff : Bool) (f : Bytes) : List Nat := (codewords 750 (scrambled n scrOff f)).flatMap pam4Of

/-- `n` symbols of the gap-fill sequence (R64) from symbol `from_` on. -/
def gapSymbols (from_ n : Nat) : List Nat :=
  (((scrBytes 0x3FFFFFFFFFFFFFF (ceilDiv (from_ + n) 4)).flatMap pam4Of).drop from_).take n

/-- Symbols of a frame period of 125 µs (R62), and of the 1 µs before a frame in which a lane wakes (R461). -/
def frameSymbols : Nat := 6480000
def wakeSymbols : Nat := 51840

/-- The training burst of a tree lane (R511): 6,636 symbols, 3 and 0 in turn. -/
def trainSymbols : List Nat := (List.range 6636).map fun i => if i % 2 == 0 then 3 else 0

/-- The symbols of the gap that a tick step leaves after a frame (R22, R64), a whole number of them. (DEDUCED, log entry 89) -/
def State.stepSymbols (s : State) : Nat := s.tm.stepGap * 5184 / (100 * nsU)

/-! ## Header and sections -/

/-- FLAGS of the frame header (R37). -/
def frameFlags (pm : Nat) (gap skip fixedOnly : Bool) : Nat :=
  pm % 2 * 128 + (if gap then 64 else 0) + (if skip then 32 else 0) + (if fixedOnly then 16 else 0)

/-- The 16 header bytes (R37, R38). -/
def frameHeader (tick tree flags mapLen : Nat) : Bytes :=
  let h := toBE 6 tick ++ toBE 1 (tree % 32) ++ toBE 1 flags ++ toBE 2 mapLen ++ [0, 0]
  h ++ toBE 4 (crc32c h)

/-- First byte of the unit stream (R36). -/
def unitStart (x : Staged) : Nat := 16 + 8 * x.entries.length + 64 * (x.msgs.length + 1) + x.ckt.length

/-- The section map message (R44). -/
def sectionMap (mapLen ctrlCount cktLen page : Nat) : CtlMsg :=
  { type := 0x01, dest := destAll, auth := 0
    body := toBE 2 ctrlCount ++ toBE 2 cktLen ++ toBE 4 (16 + 8 * mapLen + 64 * ctrlCount + cktLen) ++ toBE 1 (page % 2) }

/-! ## Circuit section (R47, R48) -/

/-- The TSI page in effect at tick d (R323, R324). -/
def State.tsiPageAt (s : State) (d : Nat) : Nat :=
  match s.tsi.armed with
  | some t => if t ≤ d then 1 - s.tsi.active else s.tsi.active
  | none => if d < s.tsi.since then 1 - s.tsi.active else s.tsi.active

/-- The endpoint of a downstream slot (R321). -/
def talEnd (tree slot : Nat) : Nat := 2 * 2 ^ 22 + tree % 32 * 2 ^ 16 + slot % 2 ^ 14

/-- The valid connection of a page with a destination. -/
def State.connTo (s : State) (page dst : Nat) : Option Conn :=
  (s.tsi.conns.find? fun e => e.1 / 2 ^ 18 == page && e.2.valid && e.2.dst == dst && !s.tsi.badPar.contains e.1).map (·.2)

/-- The AX that owns a downstream slot, if it has a connection: the terminal's or the tree's (R48). (DEDUCED, log entry 78) -/
def State.slotOwner (s : State) (page tree slot : Nat) : Option Nat :=
  (s.connTo page (talEnd tree slot)).map fun c => if c.dstTree then 16384 + tree else termAx tree c.dstOwner

/-- A terminal that may receive its circuit slots (R323): OPERATIONAL or QUARANTINED; the tree always. (DEDUCED, log entry 78) -/
def State.ownerOk (s : State) (ax : Nat) : Bool :=
  if ax < 16384 then (s.term ax).st == .operational || (s.term ax).st == .quarantined else true

/-- One slot before encryption: the staged byte and its owner, or 0xFF; the flag says it counts in CKT_FILL_BYTES. -/
def State.slotByte (s : State) (tree page : Nat) (staged : List (Nat × Nat)) (k : Nat) : Byte × Option Nat × Bool :=
  match s.slotOwner page tree k with
  | none => (0xFF, none, false)
  | some ax =>
    if !s.ownerOk ax then (0xFF, none, true) else
    match staged.find? fun e => e.1 == k with
    | some (_, v) => (BitVec.ofNat 8 v, some ax, false)
    | none => (0xFF, some ax, true)

/-- An owner's keystream of a frame waits in the miss buffer for its key (R201), once. -/
def State.streamHold (s : State) (tree tick ax n : Nat) : State :=
  let i := 2 * (tree / 8) + 1
  if (s.pool i).miss.any fun h => h.work == .stream tree tick ax then s else s.hold i ax n (.stream tree tick ax)

/-- CIRCUIT_KEYSTREAM (R48): one owner's slots, in increasing order, XORed with its keystream under sequence 0. An owner
with no usable key has its slots sent as 0xFF, as has one whose key is not hot when the frame begins. -/
def State.keystream (s : State) (tree tick : Nat) (sec : List (Byte × Option Nat)) (ax : Nat) : State × List (Byte × Option Nat) :=
  let i := 2 * (tree / 8) + 1
  let n := sec.countP fun x => x.2 == some ax
  let fill := sec.map fun x => if x.2 == some ax then (0xFF, x.2) else x
  match s.verdict ax tick none with
  | .ok p =>
    if s.missing i ax then (s.streamHold tree tick ax n, fill) else
    match s.cipherInv i ax with
    | some s => (s, fill)
    | none =>
    let key := match (s.assoc ax).pos p with
      | some k => k.key
      | none => []
    let ks := Config.ctrStream key (tickIv tick 0 ax tree 0 s.pm p) n
    let go := sec.foldl (fun (acc : List (Byte × Option Nat) × Bytes) x =>
      if x.2 == some ax then (acc.1 ++ [(x.1 ^^^ acc.2.headD 0, x.2)], acc.2.drop 1) else (acc.1 ++ [x], acc.2)) ([], ks)
    (s.runItem i ax p .ctr (tickIv tick 0 ax tree 0 s.pm p) [] ((sec.filter fun x => x.2 == some ax).map (·.1)) true none, go.1)
  | v => (s.countVerdict i v, fill)

/-- The circuit slots of frame `tick` as staged (R47), before encryption; those not staged count. -/
def State.circuitSlots (s : State) (tree tick len page : Nat) (staged : Bool) : State × List (Byte × Option Nat × Bool) :=
  let st := match s.tsi.tal.get (0, []) tree with
    | (t, l) => if staged && t == tick then l else []
  let raw := (List.range len).map (s.slotByte tree page st)
  (s.countN Reg.TTX_CKT_FILL_BYTES tree (raw.countP fun x => x.2.2), raw)

/-- Circuit slots whose bytes are lost: 0xFF before encryption, each slot with a connection counted once (R47, R68). -/
def State.slotsLost (s : State) (tree : Nat) (l : List (Byte × Option Nat × Bool)) : State × List (Byte × Option Nat × Bool) :=
  (s.countN Reg.TTX_CKT_FILL_BYTES tree (l.countP fun x => x.2.1.isSome && !x.2.2), l.map fun x => (0xFF, x.2.1, x.2.2 || x.2.1.isSome))

/-- The keystreams that frame `tick` will need are asked for as it is staged: those whose keys are not hot wait for them (R201). -/
def State.streamsWant (s : State) (tree tick : Nat) (slots : List (Byte × Option Nat × Bool)) : State :=
  let i := 2 * (tree / 8) + 1
  (slots.filterMap fun x => x.2.1).eraseDups.foldl (fun (s : State) ax =>
    match s.verdict ax tick none with
    | .ok _ => if s.missing i ax then s.streamHold tree tick ax (slots.countP fun x => x.2.1 == some ax) else s
    | _ => s) s

/-- The circuit section of frame `tick` (R48): the slots under their owners' keystreams. -/
def State.circuitSection (s : State) (tree tick : Nat) (slots : List (Byte × Option Nat × Bool)) : State × Bytes :=
  let sec := slots.map fun x => (x.1, x.2.1)
  let owners := (sec.filterMap fun x => x.2).eraseDups
  let (s, sec) := owners.foldl (fun (acc : State × List (Byte × Option Nat)) ax => acc.1.keystream tree tick acc.2 ax) (s, sec)
  (s, sec.map (·.1))

/-! ## TTX_FRAME_STAGE (R36, R41, R46) -/

/-- The map of frame n: the one published for it, or the standing map as a fixed-only map (R41). -/
def TtxS.mapFor (x : TtxS) (n : Nat) : Bool × List Bytes :=
  match x.mapIn with
  | some (t, fixedOnly, es) => if t == n then (fixedOnly, es) else (true, x.standMap)
  | none => (true, x.standMap)

/-- CKT_PAGE_AT, which every frame carries from the arming of a page switch until frame T (R324, R325). -/
def State.cktPageAt (s : State) (n : Nat) : List CtlMsg :=
  match s.tsi.armed with
  | some t => if n ≤ t then [{ type := 0x71, dest := destAll, body := sliceB (toBE 1 (1 - s.tsi.active) ++ toBE 6 t) 0 48, auth := 0 }] else []
  | none => []

/-- A frame staged and not sent, or a control section lost: its messages, but for the CKT_PAGE_AT made for it, go back to the head of the
queue, each a deferral (R46). -/
def State.requeue (s : State) (t : Nat) (l : List CtlMsg) : State :=
  let l := l.filter fun m => m.type != 0x71
  (s.setTx t { s.tx t with ctrlQ := l ++ (s.tx t).ctrlQ }).countN Reg.TTX_CTRL_DEFERRED t l.length

/-- The staged frame is not sent: its messages wait for the next (R46). -/
def State.unstage (s : State) (t : Nat) : State :=
  match (s.tx t).staged with
  | none => s
  | some st => (s.setTx t { s.tx t with staged := none }).requeue t st.msgs

/-- The messages of a queue that a frame with room for so many takes: of a terminal at most SEG_MAX of the key agent's (R169), and at most 64
GROUP_KEY (R179); those held back keep their order. `gk` and `seen` are what it has taken: GROUP_KEYs, and the terminals of key-agent
messages. -/
def State.pickMsgs (s : State) (t room gk : Nat) (seen : List Nat) : List CtlMsg → List CtlMsg × List CtlMsg
  | [] => ([], [])
  | m :: l =>
    if room == 0 then ([], m :: l) else
    let ka := decide (0x40 ≤ m.type) && decide (m.type < 0x70) && decide (m.dest < 512)
    if (ka && decide (s.segMax (t * 512 + m.dest) ≤ seen.count m.dest)) || (m.type == 0x49 && decide (64 ≤ gk)) then
      let q := s.pickMsgs t room gk seen l
      (q.1, m :: q.2)
    else
      let q := s.pickMsgs t (room - 1) (if m.type == 0x49 then gk + 1 else gk) (if ka then m.dest :: seen else seen) l
      (m :: q.1, q.2)

/-- Stage frame n: with `ctrl` the control messages, with `ckt` the circuit bytes were ready by the deadline (R30). Messages beyond
CTRL_MAX wait, those queued first ahead (R46). A frame is staged once. -/
def State.stageFrame (s : State) (t n : Nat) (ctrl ckt : Bool) : State :=
  if (s.tx t).staged.any fun st => st.tick == n then s else
  let s := s.unstage t
  let x := s.tx t
  let bad := s.inv Ty.TTX t 0
  let (fixedOnly, es) := if bad then (true, x.standMap) else x.mapFor n
  let es := es.take 1024
  let room := if ctrl && !bad then s.fld Reg.TTX_CTRL_MAX_MAX t - 1 else 0
  let pageAt := s.cktPageAt n
  let room' := room - (pageAt.take room).length
  let (some_, left) := s.pickMsgs t room' 0 [] x.ctrlQ
  let send := pageAt.take room ++ some_
  let held := (s.pickMsgs t x.ctrlQ.length 0 [] x.ctrlQ).2.length
  let s := s.countN Reg.TTX_CTRL_DEFERRED t (left.length - held + (pageAt.drop room).length)
  let page := s.tsiPageAt n
  let len := min 16384 (s.fld Reg.TTX_CKT_LEN_PG0_LEN t (4 * page))
  let (s, sec) := s.circuitSlots t n len page (ckt && !bad)
  let s := s.streamsWant t n sec
  let st : Staged := { tick := n, entries := es, msgs := send, ckt := sec, page := page, fixedOnly := fixedOnly }
  let s := s.setTx t { s.tx t with ctrlQ := left, staged := some st, lastU := (n, unitStart st) }
  if bad then s.raise Ty.TTX t 2 0 0 else s

/-- Grant map, control section and circuit section of a frame (R36, R42, R44), the circuit slots as encrypted. -/
def State.frameBody (s : State) (t : Nat) (st : Staged) (ckt : Bytes) : Bytes :=
  let sm := sectionMap st.entries.length (st.msgs.length + 1) ckt.length st.page
  st.entries.flatten ++ s.msgBytes t st.tick 0 sm ++ (st.msgs.mapIdx fun i m => s.msgBytes t st.tick (i + 1) m).flatten ++ ckt

/-- Whether tree t stages frames: present and enabled, a valid count, the active role (R65). -/
def State.stages (s : State) (t : Nat) : Bool := s.active Ty.TTX t && !s.tm.free && s.isActive

/-- TTX_FRAME_STAGE, completed at a core cycle: work not done by the deadline is left out and the overrun counted. -/
def execTtxFrameStage (tree cycle : Nat) (s : State) := live s fun s =>
  let t := tree % 32
  if !s.stages t then s else
  let ok := s.inTime Ty.TTX t cycle
  (s.stageFrame t (s.nextM) ok ok).complete Ty.TTX t cycle

/-! ## The unit stream (R49 to R57) -/

/-- A unit header (R49, R50). -/
def unitHeader (len flow kp : Nat) (lf first urg : Bool) : Bytes :=
  let b (x : Bool) (i : Nat) : Nat := if x then 2 ^ i else 0
  let v := len % 2 ^ 14 * 2 ^ 34 + flow % 2 ^ 17 * 2 ^ 17 + kp % 2 * 2 ^ 16 + b lf 15 + b first 14 + b urg 13
  toBE 6 v ++ toBE 2 (crc16 (toBE 6 v))

/-- The AX of a FLOW on a tree (R51); none for the idle flow and reserved ones. -/
def flowAx (tree flow : Nat) : Option Nat :=
  if flow < 0x1000 then some (termAx tree (flow / 8))
  else if flow < 0x1008 then some (16384 + tree)
  else if 0x2000 ≤ flow ∧ flow < 0x3000 then some (16416 + (flow - 0x2000))
  else none

/-- An idle unit with a payload of n zero bytes (R52). -/
def idleUnit (n : Nat) : Bytes := unitHeader n 0x1FFFF 0 true true false ++ List.replicate n 0

/-- The filling of r bytes: idle units of the greatest length, then tail pad below 8 bytes (R52). (DEDUCED, log entry 78) -/
def idleFill : Nat → Nat → Bytes
  | 0, r => List.replicate r 0
  | k + 1, r =>
    if r < 8 then List.replicate r 0
    else let n := min 16383 (r - 8); idleUnit n ++ idleFill k (r - 8 - n)

/-- The AAD of a unit (R53): security field, and FLOW and KP in a word. -/
def unitAad (seq ulen flow kp : Nat) : Bytes := toBE 2 seq ++ toBE 2 ulen ++ toBE 4 (flow % 2 ^ 17 + kp % 2 * 2 ^ 17)

/-- The payload of a unit (R53): security field, ciphertext, tag. -/
def unitPayload (key iv : Bytes) (seq flow kp : Nat) (d : Bytes) : Bytes :=
  let (ct, tag) := Config.gcmEnc key iv (unitAad seq d.length flow kp) d
  toBE 2 seq ++ toBE 2 d.length ++ sliceB ct 0 d.length ++ sliceB tag 0 16

/-- Whether a class is urgent on a tree, or the frame as a PTP event message (R57). -/
def State.urgentFor (s : State) (t : Nat) (p : Pkt) : Bool :=
  bitOf (s.fld Reg.TTX_URGENT_CLASS_MASK t) p.cls || (p.ptp && s.flag Reg.TTX_URGENT_CLASS_PTP_URGENT t)

/-- Begin a unit of a serve list: its key, SEQ and encryption; none where it is dropped, held or oversize. Units held in one frame lead the
next frame's list in the order in which they were held. (DESIGN CHOICE, log entry 92) -/
def State.beginUnit (s : State) (t n : Nat) (e : ServeE) : State × Option TxUnit :=
  let i := 2 * (t / 8) + 1
  let lost (s : State) : State := s.injFin e.pkt 2 none
  if 16383 < 4 + e.pkt.data.length + 16 then (lost (s.count Reg.TTX_UNIT_OVERSIZE t), none) else
  if s.inv Ty.TTX t 1 then (lost (s.raise Ty.TTX t 3 0 0), none) else
  match flowAx t e.flow with
  | none => (lost s, none)
  | some ax =>
    match s.verdict ax n none with
    | .ok p =>
      if s.missing i ax then (s.hold i ax (8 + e.pkt.data.length) (.down t e.flow e.urg e.pkt), none) else
      let seq := s.seqNext ax t n
      if 65535 < seq then
        ((s.count Reg.TTX_UNIT_HELD t).setTx t { s.tx t with held := (s.tx t).held ++ [e] }, none)
      else
        match s.cipherInv i ax with
        | some s => (lost s, none)
        | none =>
        let key := match (s.assoc ax).pos p with
          | some k => k.key
          | none => []
        let iv := tickIv n seq ax t 0 s.pm p
        let pay := unitPayload key iv seq e.flow p e.pkt.data
        let s := (s.seqTake ax t n).runItem i ax p .enc iv (unitAad seq e.pkt.data.length e.flow p) e.pkt.data e.urg (some (t, e.flow))
        ((s.count64 Reg.TTX_UNITS_SENT_LO t).injFin e.pkt 0 none, some ⟨e.flow, p, e.urg, false, pay, 0⟩)
    | v => (lost (s.countVerdict i v), none)

/-- Place one fragment of a unit: `len` payload bytes. -/
def State.placeFrag (s : State) (t : Nat) (u : TxUnit) (len : Nat) : State × TxUnit :=
  let lf := u.rest.length == len
  let h := unitHeader len u.flow u.kp lf (!u.begun) u.urg
  let x := s.tx t
  (s.setTx t { x with units := x.units ++ h ++ u.rest.take len }, { u with begun := true, rest := u.rest.drop len, sent := u.sent + len })

/-- The payload bytes of the unit's next fragment when an urgent unit becomes ready after k ciphertext bytes: the cut lies
where the ciphertext offset is a multiple of 16 (R57), below the ciphertext's end; none where no such cut is left. (DESIGN CHOICE, log
entry 90) -/
def cutLen (u : TxUnit) (k : Nat) : Option Nat :=
  let target := 4 + ceilDiv k 16 * 16
  if u.sent < target ∧ target < u.sent + u.rest.length - 16 then some (target - u.sent) else none

/-- A list of units in progress with u's place taken by v, at the end if u has none; without it once v is finished. -/
def putUnit (u v : TxUnit) (l : List TxUnit) : List TxUnit :=
  if v.rest.isEmpty then l.filter fun w => w.flow != u.flow
  else if l.any fun w => w.flow == u.flow then l.map fun w => if w.flow == u.flow then v else w
  else l ++ [v]

/-- A unit split at the frame's end keeps its context in the egress pool (R215). -/
def State.splitUnit (s : State) (t flow : Nat) : State :=
  match flowAx t flow with
  | some ax => s.splitCtx (2 * (t / 8) + 1) t flow ⟨0, ax, 0, [], [], [], [], false, 0, some (t, flow)⟩
  | none => s

/-- Send the next fragment of a unit: whole, cut for an urgent unit (`ready` ciphertext bytes sent when it became ready),
or split at the frame's end. What is left of it stays in progress. -/
def State.sendUnit (s : State) (t : Nat) (u : TxUnit) (room : Nat) (ready : Option Nat) : State :=
  let x := s.tx t
  let others := x.inProg.filter fun v => v.flow != u.flow
  let cut := match ready with
    | none => none
    | some k =>
      if u.urg || decide (3 < others.length + 1) ||
          !(x.serve.any fun e => e.urg && e.flow != u.flow && !(others.any fun v => v.flow == e.flow)) then none
      else cutLen u k
  let want := match cut with
    | some c => min c u.rest.length
    | none => u.rest.length
  let len := min want room
  let (s, v) := s.placeFrag t u len
  let x := s.tx t
  let s := s.setTx t { x with inProg := putUnit u v x.inProg
                              urgNext := cut.isSome && decide (want ≤ room) }
  if decide (room < want) then (s.count Reg.TTX_SPLIT_UNITS t).splitUnit t u.flow
  else if cut.isSome then s.count Reg.TTX_PREEMPTIONS t else s

/-- The next entry of a serve list: the first urgent one after a cut, else the first; none of a flow in progress. -/
def TtxS.pick (x : TtxS) : Option ServeE :=
  let ok (e : ServeE) : Bool := !(x.inProg.any fun v => v.flow == e.flow)
  if x.urgNext then x.serve.find? fun e => e.urg && ok e else x.serve.find? ok

/-- Remove the first entry equal to e. -/
def dropOne (e : ServeE) : List ServeE → List ServeE
  | [] => []
  | y :: l => if y = e then l else y :: dropOne e l

/-- TTX_UNIT_PLACE (R56): the unit in progress, or the next unit of the serve list, gets its next fragment. `onDie` says
whether the frame's cells are on die when it is reached (R278). -/
def State.unitPlace (s : State) (t : Nat) (onDie : Bool) (ready : Option Nat) : State :=
  let x := s.tx t
  match x.cur with
  | none => s
  | some (st, _) =>
    let room0 := frameBytes - unitStart st - x.units.length
    if room0 < 9 then s else
    let room := room0 - 8
    match (if x.urgNext then none else x.inProg.head?) with
    | some u => (s.resumeCtx (2 * (t / 8) + 1) t u.flow).sendUnit t u room ready
    | none =>
      match x.pick with
      | none => s.setTx t { x with urgNext := false }
      | some e =>
        let s := s.setTx t { x with serve := dropOne e x.serve }
        if !onDie then (s.count Reg.BUF_PAGE_LATE 0).injFin e.pkt 2 none else
        match s.beginUnit t st.tick e with
        | (s, some u) => s.sendUnit t u room (if x.urgNext then none else ready)
        | (s, none) => s
def execTtxUnitPlace (tree : Nat) (onDie : Bool) (ready : Option Nat) (s : State) := live s fun s =>
  s.unitPlace (tree % 32) onDie ready

/-! ## TAL_FRAME_TRANSMIT (R35, R64, R65) -/

/-- A frame period ends: what is left of a frame's unit stream is filled (R52), and the period's symbols are complete: the frame and the
gap of a tick step after it, or gap fill, after the training burst where the lane has left electrical idle. -/
def State.endFrame (s : State) (t : Nat) : State :=
  let x := s.tx t
  let g := s.stepSymbols
  match x.cur with
  | none =>
    if x.line == 0 then s.setTx t { x with symbols := [] } else
    let b := if x.burst then trainSymbols else []
    let n := frameSymbols + g - b.length
    s.setTx t { x with symbols := b ++ gapSymbols x.gapAt n, gapAt := x.gapAt + n, burst := false }
  | some (st, h) =>
    let r := frameBytes - unitStart st - x.units.length
    let f := h ++ x.units ++ idleFill 84 r
    let s := s.countN64 Reg.TTX_IDLE_BYTES_LO t r
    let s := s.setTx t { x with cur := none, units := [], urgNext := false, gapAt := g
                                symbols := lineSymbols st.tick (s.flag Reg.TTX_CTL_SCR_OFF t) f ++ gapSymbols 0 g }
    s.seqRetire t st.tick

/-- What the lane puts out at a frame boundary (R65): 0 idle, 1 gap fill, 2 frames. A transmitter that SER_CTL or its PLL keeps in
electrical idle (R511, R532) sends none. -/
def State.lineWant (s : State) (t : Nat) : Nat :=
  let mode := s.fld Reg.TTX_CTL_MODE t
  let pll := match s.ser.lanes.find (32 + t) with
    | some x => x.pllLost
    | none => false
  if !s.active Ty.TTX t || !s.isActive || mode == 0 || !s.on Reg.SER_CTL_TX_EN (32 + t) || pll then 0
  else if mode == 1 || s.tm.free then 1 else 2

/-- What is sent as frame n: the frame staged for it. Where a count that jumped after the staging has passed that frame over, its control
messages with the standing map; its map and circuit bytes are of a tick that does not exist (R33, R68). (DEDUCED, log entry 89) -/
def State.fitFrame (s : State) (t n : Nat) (st : Staged) : State × Staged :=
  if st.tick == n then (s, st) else
  let (s, slots) := s.slotsLost t st.ckt
  (s, { st with tick := n, entries := ((s.tx t).standMap).take 1024, fixedOnly := true, ckt := slots })

/-- Frame n begins on the line with its header; its messages take the fields that name the frame, its circuit slots their keystreams.
The units held, the frames carried and the serve list published for it are to be sent, in this order (R56). -/
def State.beginFrame (s : State) (t n : Nat) (st : Staged) : State :=
  let (s, st) := s.fitFrame t n st
  let st := { st with msgs := st.msgs.map (s.stamp t n) }
  let s := st.msgs.foldl (fun s m => s.carried t n m) s
  let (s, ckt) := s.circuitSection t n st.ckt
  let x := s.tx t
  let wake := x.line == 0
  let gap := x.gap || wake || s.tm.wasStep
  let skip := match x.last with
    | some l => l + 1 != n
    | none => true
  let flags := frameFlags s.pm gap skip st.fixedOnly
  let h := frameHeader n t flags st.entries.length ++ s.frameBody t st ckt
  let s := s.setTx t { x with cur := some (st, h), staged := none, units := [], serve := x.held ++ x.serve ++ x.next, next := [], held := []
                              last := some n, gap := false, line := 2, gapAt := 0, wakeAt := none
                              symbols := if wake then trainSymbols ++ gapSymbols 0 (wakeSymbols - 6636) else x.symbols }
  let s := s.setReg64 Reg.TTX_LAST_TICK_LO t n
  let s := s.setReg Reg.TTX_LAST_SECTIONS t (st.entries.length % 2 ^ 11 + (st.msgs.length + 1) % 2 ^ 9 * 2 ^ 11 + flags / 16 * 2 ^ 20)
  let s := s.setReg Reg.TTX_LAST_UNIT_START t (unitStart st)
  let s := s.setFld Reg.TTX_STS_CKT_PAGE t st.page
  let s := s.count64 Reg.TTX_FRAMES_SENT_LO t
  let s := if gap then s.count Reg.TTX_GAP_FRAMES t else s
  let s := if skip then s.count Reg.TTX_SKIP_FRAMES t else s
  if st.fixedOnly then s.count Reg.TTX_FIXED_ONLY_FRAMES t else s

/-- What a transmitter was to send is dropped: units in progress, frames listed. -/
def State.dropLists (s : State) (t : Nat) : State :=
  let x := s.tx t
  let s := (x.held ++ x.serve ++ x.next).foldl (fun (s : State) e => s.injFin e.pkt 2 none) s
  s.setTx t { s.tx t with held := [], serve := [], next := [], inProg := [], urgNext := false }

/-- The lane goes to electrical idle: its lists and units in progress are dropped, its messages wait. (DESIGN CHOICE, log entry 91) -/
def State.goIdle (s : State) (t : Nat) : State :=
  let s := (s.unstage t).dropLists t
  s.setTx t { s.tx t with line := 0, last := none, gap := false, wakeAt := none, gapAt := 0, burst := false }

/-- The lane sends gap fill up to the next frame boundary, after a training burst on leaving electrical idle; the serve list is carried
(R56) and the messages wait. -/
def State.goGap (s : State) (t : Nat) : State :=
  let s := s.unstage t
  let x := s.tx t
  s.setTx t { x with line := 1, gap := true, serve := x.held ++ x.serve ++ x.next, held := [], next := [], burst := x.line == 0, wakeAt := none
                     gapAt := if x.line == 0 then 0 else x.gapAt }

/-- TAL_FRAME_TRANSMIT: the frame boundary B(n) of the present count: the period before ends, and the lane goes on with frame n if it
was staged, else with gap fill or electrical idle. A lane leaves electrical idle with a training burst and gap fill up to the next
boundary; where the device has become active in this tick it stays idle for the frame, and leaves 1 µs before the next (R461). -/
def State.frameBoundary (s : State) (t : Nat) : State :=
  let s := s.endFrame t
  let x := s.tx t
  let want := s.lineWant t
  if want == 0 then s.goIdle t
  else if x.line == 0 && x.wakeAt == some s.tm.tickNo then s.unstage t
  else if want == 1 || (x.line == 0 && x.wakeAt.isNone) then s.goGap t
  else
    match x.staged with
    | some st => if st.tick ≤ s.tm.m then s.beginFrame t s.tm.m st else s.goGap t
    | none => s.goGap t
def execTalFrameTransmit (tree : Nat) (s : State) := live s fun s => s.frameBoundary (tree % 32)

/-- TTX_MODE_WRITE (R65, R69): the word written to TTX_CTL; the line follows at the next frame boundary. -/
def State.ttxCtl (s : State) (t v : Nat) : State :=
  let s := s.plainWrite (Reg.TTX_CTL.at t) v
  if s.onFld Reg.TTX_CTL_MODE t != 0 then s.genOff (32 + t) else s
def execTtxModeWrite (tree : Nat) (v : Word) (s : State) := live s fun s => s.ttxCtl (tree % 32) v.toNat

/-- CKT_LEN_PG_WRITE (R69): refused for the page in effect. -/
def State.cktLenWrite (s : State) (t page v : Nat) : State :=
  if page == s.tsi.active then s.count Reg.TTX_CFG_REJECT t
  else
    let key := Reg.TTX_CKT_LEN_PG0.at t + 4 * page
    let s := s.plainWrite key v
    s.mirror 7 [5, key, (s.rd key).toNat] []
def execCktLenPgWrite (tree page : Nat) (v : Word) (s : State) := live s fun s =>
  if s.hasTree (tree % 32) then s.mirrored fun s => s.cktLenWrite (tree % 32) (page % 2) v.toNat else s

/-- The device becomes standby: every control queue is emptied, with what was staged of it (R46). -/
def State.ctrlFlush (s : State) : State := { s with ttx := s.ttx.mapV (fun _ => ttxReset) fun _ x => { x with ctrlQ := [], staged := none } }

/-- The effects of TTX error sources (R68, R71): 0x02 leaves the staged section out (LO 0 the map, 1 control, 2 circuit),
0x03 drops the unit on the line, 0x04 replaces the frame by gap fill (forced or real). (DEDUCED, log entry 78) -/
def State.ttxErr (s : State) (d : Det) : State :=
  let x := s.tx d.inst
  match d.src with
  | 2 =>
    if d.forced then s else
    match x.staged with
    | none => s
    | some st =>
      match d.capLo with
      | 0 => s.setTx d.inst { x with staged := some { st with entries := x.standMap, fixedOnly := true } }
      | 1 => (s.setTx d.inst { x with staged := some { st with msgs := [] } }).requeue d.inst st.msgs
      | _ =>
        let (s, slots) := s.slotsLost d.inst st.ckt
        s.setTx d.inst { s.tx d.inst with staged := some { st with ckt := slots } }
  | 3 => if d.forced then s else s.setTx d.inst { x with inProg := x.inProg.drop 1 }
  | 4 => s.unstage d.inst
  | _ => s

end Sys2Proof.Machine
end

