-- ==== Sys2Proof/Machine/Orr.lean ====
section
/-! DEFINITION. The Orrery (R110 to R137): allocations, reports, hints, the grant computation in five passes, placement,
publication. -/

namespace Sys2Proof.Machine

/-- Blocks of an upstream frame (R72). -/
def usBlocks : Nat := 50625

/-! ## Burst layout (R78) and capacity (R120) -/

/-- Codewords, bytes of the last one, and information bytes of a burst of g blocks with a preamble of p bytes (R78); 0
codewords means that the burst is not sent. -/
def layout (g p : Nat) : Nat × Nat × Nat :=
  let c := 16 * (g - 2) - p - 8
  if c < 352 then (0, 0, 0) else
  let k := (c + 2159) / 2160
  let last := c - 2160 * (k - 1)
  if last < 352 then (k - 1, 2160, 1824 * (k - 2) + 1824) else (k, last, 1824 * (k - 1) + (last - 336))

/-! ## The bits of a burst (R77 to R79, R96) -/

/-- The delimiter 0xE3A5_9C1D_4B72_06F8, most significant bit first (R77). -/
def delimBits : List Bool := (toBE 8 0xE3A59C1D4B7206F8).flatMap byteBits

/-- In how many places 64 bits received from place i differ from the delimiter; none where fewer bits are left. -/
def delimErr (line : List Bool) (i : Nat) : Option Nat :=
  let w := (line.drop i).take 64
  if w.length < 64 then none else some ((List.zipWith (fun a b => a != b) w delimBits).count true)

/-- The delimiter search (R96): the offset, in bits from the expected place, of the first match in the window. (DEDUCED, log entry 96) -/
def delimFind (b : Burst) (window errMax : Nat) : Option Int :=
  ((List.range (2 * window + 1)).find? fun j => match delimErr b.line (511 - window + j) with
    | some e => decide (e ≤ errMax)
    | none => false).map fun j => (j : Int) - window

/-- The bytes received behind a delimiter at an offset. -/
def codeOf (b : Burst) (o : Int) : Bytes := packBits (b.line.drop (575 + o).toNat)

/-- How many bits of two byte strings differ. -/
def bitsApart (a b : Bytes) : Nat := (xorB a b).foldl (fun n x => n + (byteBits x).count true) 0

/-- The decoder of R79 on an information word and its parity as received: the word and the bits corrected, none where it is
uncorrectable. What it makes of a word that is no codeword is `Config.ldpcFix`. (DEDUCED, log entry 97) -/
def ldpcDecode (word par : Bytes) : Option (Bytes × Nat) :=
  if parityOf word == par then some (word, 0) else
  (Config.ldpcFix (word ++ par)).map fun d =>
    let d := sliceB d 0 1824
    (d, bitsApart d word + bitsApart (parityOf d) par)

/-- Codeword i of k with n information bytes, from the bytes received (R78, R79): the bits that were not sent are 0. -/
def cwAt (code : Bytes) (i n : Nat) : Option (Bytes × Nat) :=
  let c := sliceB code (2160 * i) (n + 336)
  (ldpcDecode (sliceB (c.take n) 0 1824) (c.drop n)).map fun (d, e) => (d.take n, e)

/-- Payload bytes of a g-block burst with one report. -/
def capOf (g p : Nat) : Option Nat := if (layout g p).1 == 0 then none else some ((layout g p).2.2 - 24)

/-- cap(g), or 0 where g is 0 or holds no codeword. -/
def sentOf (g p : Nat) : Nat := (capOf g p).getD 0

/-- The smallest g for which cap(g) is not none. -/
def ohOf (p : Nat) : Nat := 2 + ceilDiv (360 + p) 16

/-- The least value in lo to hi that meets an upward-closed test, or hi. -/
def leastIn (P : Nat → Bool) : Nat → Nat → Nat → Nat
  | 0, lo, _ => lo
  | n + 1, lo, hi =>
    if hi ≤ lo then lo else
    let mid := (lo + hi) / 2
    if P mid then leastIn P n lo mid else leastIn P n (mid + 1) hi

/-- blocks_for(x). -/
def blocksFor (x p : Nat) : Nat := leastIn (fun g => decide (x ≤ sentOf g p)) 17 (ohOf p) usBlocks

/-! ## Trees -/

/-- An allocation record nothing has written. (DESIGN CHOICE, log entry 6) -/
def allocReset : OAlloc :=
  { valid := false, type := 0, slack := false, term := 0, weight := 1, poll := 0, fixStart := 0, fixLen := 0, ra := 0
    rm := 0, ba := 0, bm := 0, rptLim := 0xFFFFFF, occ := 0, rtick := 0, unused := false, credA := 0, credM := 0
    ledger := [], lastLen := 0, since := 0 }

/-- An Orrery tree at reset. (DESIGN CHOICE, log entry 6) -/
def orrReset : OrrT :=
  { allocs := [], ptrs := [0, 0, 0, 0, 0], hints := [], sxtIn := [], rolePoll := false, doneAt := 0, comp := none, reps := [] }

/-- Tree t of its Orrery. -/
def State.ort (s : State) (t : Nat) : OrrT := s.orr.get orrReset t

/-- Store it. -/
def State.setOrt (s : State) (t : Nat) (x : OrrT) : State := { s with orr := s.orr.set orrReset t x }

/-- Allocation n of tree t. -/
def State.alloc (s : State) (t n : Nat) : OAlloc := (s.ort t).allocs.get allocReset n

/-- Store it. -/
def State.setAlloc (s : State) (t n : Nat) (a : OAlloc) : State :=
  s.setOrt t { s.ort t with allocs := (s.ort t).allocs.set allocReset n a }

/-- D of a tree (R126, R135). -/
def State.dOf (s : State) (t : Nat) : Nat := s.fld Reg.ORR_TREE_CFG_D (t / 8) (4 * (t % 8))

/-- FIX_BASE of a tree. -/
def State.fixBase (s : State) (t : Nat) : Nat := s.fld Reg.ORR_TREE_CFG_FIX_BASE (t / 8) (4 * (t % 8))

/-- The tree computes maps: TREE_EN. -/
def State.treeEn (s : State) (t : Nat) : Bool := bitOf (s.onFld Reg.ORR_CTL_TREE_EN (t / 8)) (t % 8)

/-- The preamble in bytes that TRX[t] applies in upstream tick u (R107, R120): the length in effect, or the pending one from
its named tick on. -/
def State.preambleAt (s : State) (t u : Nat) : Nat :=
  let pend := s.tm.named.filter fun a => a.kind == .preamble && a.inst == t && decide (a.t ≤ u)
  16 * match pend.getLast? with
    | some a => a.idx
    | none => s.fld Reg.TRX_PREAMBLE_CFG_CUR t

/-- A dark test withholds every entry of a terminal in upstream tick u (R156). (DEDUCED, log entry 58) -/
def State.withheld (s : State) (t term u : Nat) : Bool :=
  match (s.sxt.getD (fun _ => sxtReset) t).darkTest with
  | some (f, l, ut) => decide (f ≤ term) && decide (term ≤ l) && decide (ut ≤ u) && decide (u < ut + 16)
  | none => false

/-- SXT[t] reports a terminal as OPERATIONAL for the map or serve list of frame m (R117, R139): the record is OPERATIONAL
and an earlier frame carried STATE(OPERATIONAL). -/
def State.reportsOp (s : State) (t term m : Nat) : Bool :=
  (s.term (termAx t term)).st == .operational &&
  match (s.term (termAx t term)).opFrame with
  | some f => decide (f < m)
  | none => false

/-- The fixed grants of a tree for the map of frame m (R117, R131). -/
def State.fixedFor (s : State) (t m : Nat) : List GEnt :=
  if !s.treeEn t then [] else
  let es := (s.ort t).allocs.filterMap fun (n, a) =>
    if a.valid && a.type == 0 && s.reportsOp t a.term m && !s.withheld t a.term (m + s.dOf t) then
      some (⟨0, n, a.fixStart, a.fixLen, true, false⟩ : GEnt) else none
  es.mergeSort fun x y => decide (x.start ≤ y.start)

/-! ## Reports and hints (R115 to R119) -/

/-- ORR_REPORT_STORE (R115): a report of upstream tick r; one older than the stored report is ignored. -/
def State.report (s : State) (t n occ r : Nat) : State :=
  let a := s.alloc t n
  if !a.valid || decide (r < a.rtick) then s
  else s.setAlloc t n { a with occ := occ, rtick := r, unused := true, ledger := a.ledger.filter fun e => decide (r < e.1) }

/-- TRX hands over the accepted reports of upstream ticks before n, in order (R30, R124). (DEDUCED, log entry 15) -/
def State.handReports (s : State) (t n : Nat) : State :=
  let o := s.ort t
  let s := s.setOrt t { o with reps := o.reps.filter fun r => !decide (r.2.2 < n) }
  (o.reps.filter fun r => decide (r.2.2 < n)).foldl (fun s r => s.report t r.1 r.2.1 r.2.2) s

/-- An accepted report waits for the hand-over of the tick after its burst. (DEDUCED, log entry 15) -/
def State.holdReport (s : State) (t n occ r : Nat) : State :=
  s.setOrt t { s.ort t with reps := (s.ort t).reps ++ [(n, occ, r)] }

/-- A report is stale for upstream tick u (R115). (DEDUCED, log entry 15) -/
def OAlloc.stale (a : OAlloc) (u d age : Nat) : Bool := age != 0 && decide (a.rtick + d + 2 + age < u)

/-- One hint's effect on the need so far and on whether dynamic grants are suppressed (R118, R134). A FLOOR leaves a suppression as it
is. (DESIGN CHOICE, log entry 101) -/
def Hint.apply (h : Hint) (x : Int × Bool) : Int × Bool :=
  match h.op with
  | 1 => (x.1 + ((64 * h.extra : Nat) : Int), false)
  | 2 => (max x.1 ((64 * h.extra : Nat) : Int), x.2)
  | _ => (x.1, true)

/-- The need of an allocation for upstream tick u (R116), and whether it is suppressed. -/
def OAlloc.need (a : OAlloc) (u d age : Nat) (hs : List Hint) : Nat × Bool :=
  let occ := if a.stale u d age then 0 else a.occ
  let led : Nat := a.ledger.foldl (fun x e => if a.rtick < e.1 ∧ e.1 < u then x + e.2 else x) 0
  let (n, sup) := hs.foldl (fun x h => h.apply x) (64 * (occ : Int) - (led : Int), false)
  (n.toNat, sup)

/-- The upstream tick of the map computed in the present core tick. -/
def State.grantTick (s : State) (t : Nat) : Nat := s.nextM + s.dOf t

/-- Whether the present tick's map of the tree has taken its inputs. -/
def State.taken (s : State) (t : Nat) : Bool := (s.ort t).doneAt == s.tm.tickNo + 1

/-- ORR_HINT_RECEIVE (R118, R119): its fields are little-endian (R366). -/
def State.hintReceive (s : State) (t : Nat) (msg : Bytes) : State :=
  let h : Hint := ⟨leAt msg 0 2 % 1024, leAt msg 2 1, leAt msg 4 3, leAt msg 8 6⟩
  let a := s.alloc t h.alloc
  let sl := t / 8
  let u := s.grantTick t
  if !s.active Ty.ORR sl then s else
  if !(h.op == 1 || h.op == 2 || h.op == 3) || !a.valid || a.type == 0 || !s.reportsOp t a.term (s.nextM) ||
      decide (u + 8 < h.utick) then s.count Reg.ORR_HINT_REJECT sl
  else if h.utick != 0 && (decide (h.utick < u) || (s.taken t && h.utick == u)) then s.count Reg.ORR_HINT_LATE sl
  else if 64 ≤ (s.ort t).hints.length then s.count Reg.ORR_HINT_DROP sl
  else s.setOrt t { s.ort t with hints := (s.ort t).hints ++ [h] }
/-- The oldest message from a cluster to an endpoint, taken from those on their way (R366). -/
def State.takePost (s : State) (cluster ep : Nat) : Option (Post × State) :=
  match s.posts.find? fun p => p.cluster == cluster && p.ep == ep with
  | some p => some (p, { s with posts := s.posts.erase p })
  | none => none

/-- The cluster of a tree is the cluster of the same number (R356). -/
def execOrrHintReceive (tree : Nat) (s : State) := live s fun s =>
  match s.takePost (tree % 32) (Ty.ORR * 256 + tree % 32 / 8) with
  | some (p, s) => if s.hasTree (tree % 32) then s.hintReceive (tree % 32) p.body else s
  | none => s

/-! ## The five passes (R121) -/

/-- An allocation in a computation: number, record, need, want_bytes, blocks granted, credits left, whether pass 1, 3 or 4
granted it, a poll, and an assured shortfall. -/
structure DynA where
  num : Nat
  al : OAlloc
  need : Nat
  want : Nat
  g : Nat
  credA : Int
  credM : Int
  granted : Bool
  polled : Bool
  short : Bool

/-- The units of payload of b bytes, in sixteenths (R121). -/
def payUnits (b : Nat) : Int := (ceilDiv b 4 : Nat)

/-- Bytes a credit allows: 4 for each sixteenth, none at or below 0. -/
def creditBytes (c : Int) : Nat := (4 * c).toNat

/-- A pass in progress: the allocations and the free blocks. -/
structure PassS where
  ds : List DynA
  free : Nat

/-- The allocation of a number. -/
def PassS.at (x : PassS) (n : Nat) : Option DynA := x.ds.find? fun d => d.num == n

/-- Change an allocation. -/
def PassS.upd (x : PassS) (n : Nat) (f : DynA → DynA) : PassS := { x with ds := x.ds.map fun d => if d.num == n then f d else d }

/-- The numbers of the allocations that meet a test, from a pointer on. -/
def PassS.order (x : PassS) (ptr : Nat) (p : DynA → Bool) : List Nat :=
  let l := (x.ds.filter p).map (·.num)
  l.filter (fun n => decide (ptr ≤ n)) ++ l.filter (fun n => decide (n < ptr))

/-- Give an allocation n more blocks. -/
def PassS.give (x : PassS) (n k : Nat) : PassS :=
  { x.upd n fun d => { d with g := d.g + k } with free := x.free - k }

/-- One allocation's turn in pass 1. -/
def PassS.assured (x : PassS) (p n : Nat) : PassS :=
  match x.at n with
  | none => x
  | some d =>
    let lim := creditBytes d.credA
    let w := min d.want lim
    let tk := if w == 0 then 0 else min (blocksFor w p) x.free
    let g := if tk < ohOf p then 0 else tk
    let pay := sentOf g p
    { x.upd n fun d => { d with g := g, credA := d.credA - payUnits pay, credM := d.credM - payUnits pay,
                                granted := g != 0, short := decide (pay < min d.need lim) } with free := x.free - g }

/-- One allocation's turn in pass 2: a poll where none was granted for POLL ticks. (DEDUCED, log entry 59) -/
def PassS.poll (x : PassS) (p : Nat) (role : Bool) (n : Nat) : PassS :=
  match x.at n with
  | none => x
  | some d =>
    let len := blocksFor 72 p
    let due := role || (d.al.poll != 0 && decide (d.al.poll ≤ d.al.since))
    if due && d.g == 0 && decide (len ≤ x.free) then
      { x.upd n fun d => { d with g := len, polled := true } with free := x.free - len }
    else x

/-- One weighted round over (allocation, want) pairs. -/
def shareRound (wt : Nat → Nat) (r0 w : Nat) : PassS → List (Nat × Nat) → PassS × List (Nat × Nat)
  | x, [] => (x, [])
  | x, (n, want) :: e =>
    let k := min want (r0 * wt n / w)
    let (y, e') := shareRound wt r0 w (x.give n k) e
    (y, if want == k then e' else (n, want - k) :: e')

/-- At most `fuel` rounds while allocations and blocks are left. -/
def shareRounds (wt : Nat → Nat) : Nat → PassS → List (Nat × Nat) → PassS × List (Nat × Nat)
  | 0, x, e => (x, e)
  | k + 1, x, e =>
    if e.isEmpty || x.free == 0 then (x, e) else
    let w := e.foldl (fun a q => a + wt q.1) 0
    let (y, e') := shareRound wt x.free w x e
    shareRounds wt k y e'

/-- One block at a time until blocks or allocations run out. -/
def shareOnes : Nat → PassS → List (Nat × Nat) → PassS
  | 0, x, _ => x
  | _, x, [] => x
  | k + 1, x, (n, want) :: e =>
    if x.free == 0 then x else shareOnes k (x.give n 1) (if want ≤ 1 then e else e ++ [(n, want - 1)])

/-- The weight of an allocation. -/
def PassS.weight (x : PassS) (n : Nat) : Nat := match x.at n with
  | some d => max 1 d.al.weight
  | none => 1

/-- The overhead step of a share pass: each allocation with no blocks gets oh, or leaves where free is not above oh. -/
def shareStart (p : Nat) : PassS → List Nat → PassS × List (Nat × Nat)
  | x, [] => (x, [])
  | x, n :: e =>
    match x.at n with
    | none => shareStart p x e
    | some d =>
      if d.g == 0 && decide (x.free ≤ ohOf p) then shareStart p x e else
      let x := if d.g == 0 then x.give n (ohOf p) else x
      let g := if d.g == 0 then ohOf p else d.g
      let (y, l) := shareStart p x e
      (y, (n, blocksFor d.want p - g) :: l)

/-- Debit credit_m by what each allocation's payload grew since `before` (R121). -/
def PassS.settle (x : PassS) (p : Nat) (before : List DynA) (mark : Bool) : PassS :=
  { x with ds := x.ds.map fun d =>
      match before.find? fun b => b.num == d.num with
      | some b => if b.g < d.g then
          { d with credM := d.credM - payUnits (sentOf d.g p - sentOf b.g p), granted := d.granted || mark } else d
      | none => d }

/-- Passes 3 and 4: the share of a type. -/
def PassS.share (x : PassS) (p type ptr : Nat) : PassS :=
  let e := x.order ptr fun d => d.al.type == type && decide (sentOf d.g p < d.want)
  let (y, l) := shareStart p x e
  let (y, l) := shareRounds x.weight 4 y l
  (shareOnes y.free y l).settle p x.ds true

/-- The largest s with cap(g + s) − cap(g) within a limit. -/
def slackRoom (g limit p : Nat) : Nat :=
  leastIn (fun k => decide (limit < sentOf (g + k + 1) p - sentOf g p)) 17 0 (usBlocks - g)

/-- Pass 5: slack, in its rounds alone. (DESIGN CHOICE, log entry 99) -/
def PassS.slackPass (x : PassS) (p ptr : Nat) : PassS :=
  let e := x.order ptr fun d => d.al.slack && d.granted && decide (0 < d.credM)
  let l := e.filterMap fun n => match x.at n with
    | some d => if slackRoom d.g (creditBytes d.credM) p == 0 then none else some (n, slackRoom d.g (creditBytes d.credM) p)
    | none => none
  (shareRounds x.weight 4 x l).1.settle p x.ds false

/-- All five passes. -/
def passes (ds : List DynA) (free p : Nat) (ptrs : List Nat) (slackEn role : Bool) : PassS × Nat :=
  let pt (i : Nat) : Nat := ptrs.getD i 0
  let x : PassS := ⟨ds, free⟩
  let x := (x.order (pt 0) fun d => d.al.type == 1 || d.al.type == 2).foldl (fun y n => y.assured p n) x
  let x := (x.order (pt 1) fun _ => true).foldl (fun y n => y.poll p role n) x
  let x := x.share p 2 (pt 2)
  let x := x.share p 3 (pt 3)
  if slackEn then
    let y := x.slackPass p (pt 4)
    (y, x.free - y.free)
  else (x, 0)

/-- Advance a pass pointer by one allocation: past the first dynamic allocation at or after it. -/
def nextPtr (nums : List Nat) (ptr : Nat) : Nat :=
  match nums.find? fun n => decide (ptr ≤ n) with
  | some n => (n + 1) % 1024
  | none => match nums with
    | n :: _ => (n + 1) % 1024
    | [] => ptr

/-! ## Placement (R122) -/

/-- Whether blocks s to s + n − 1 meet an entry. -/
def GEnt.hits (e : GEnt) (s n : Nat) : Bool := decide (e.start < s + n) && decide (s < e.start + e.len)

/-- The Sextant entries kept, in the order handed over, and those left out for an overlap. -/
def keepSxt (taken : List GEnt) : List SxtEnt → List SxtEnt × List SxtEnt
  | [] => ([], [])
  | e :: l =>
    if taken.any fun x => x.hits e.start e.len then
      let (k, o) := keepSxt taken l
      (k, e :: o)
    else
      let (k, o) := keepSxt (⟨e.kind, e.term, e.start, e.len, false, false⟩ :: taken) l
      (e :: k, o)

/-- A Sextant entry as a map entry. -/
def SxtEnt.entry (e : SxtEnt) : GEnt := ⟨e.kind, if e.kind == 1 then e.term else 0, e.start, e.len, false, false⟩

/-- Remove blocks s to t − 1 from free runs (first block, end). -/
def cutRuns (s t : Nat) : List (Nat × Nat) → List (Nat × Nat)
  | [] => []
  | (a, b) :: l =>
    if t ≤ a || b ≤ s then (a, b) :: cutRuns s t l
    else (if a < s then [(a, s)] else []) ++ (if t < b then [(t, b)] else []) ++ cutRuns s t l

/-- The longest run, the lowest on a tie. -/
def longestRun (runs : List (Nat × Nat)) : Option (Nat × Nat) :=
  runs.foldl (fun b r => match b with
    | none => some r
    | some x => if x.2 - x.1 < r.2 - r.1 then some r else some x) none

/-- Place grants in increasing allocation number, first fit; a grant that fits nowhere is cut to the longest run above oh or
left out, and counts. A poll that later passes extended keeps POLL 1. (DESIGN CHOICE, log entry 100) -/
def placeDyn (oh : Nat) (runs : List (Nat × Nat)) : List DynA → List GEnt × Nat
  | [] => ([], 0)
  | d :: l =>
    match runs.find? fun r => decide (d.g ≤ r.2 - r.1) with
    | some r =>
      let (es, n) := placeDyn oh (cutRuns r.1 (r.1 + d.g) runs) l
      (⟨0, d.num, r.1, d.g, false, d.polled⟩ :: es, n)
    | none =>
      match longestRun runs with
      | some r =>
        if oh < r.2 - r.1 then
          let (es, n) := placeDyn oh (cutRuns r.1 r.2 runs) l
          (⟨0, d.num, r.1, r.2 - r.1, false, d.polled⟩ :: es, n + 1)
        else
          let (es, n) := placeDyn oh runs l
          (es, n + 1)
      | none =>
        let (es, n) := placeDyn oh runs l
        (es, n + 1)

/-- Entries sorted by START. -/
def sortEnts (es : List GEnt) : List GEnt := es.mergeSort fun x y => decide (x.start ≤ y.start)

/-- The 8 bytes of an entry (R128). -/
def GEnt.bytes (e : GEnt) : Bytes :=
  let b (x : Bool) (i : Nat) : Nat := if x then 2 ^ i else 0
  let v := e.kind % 4 * 2 ^ 46 + e.id % 1024 * 2 ^ 36 + e.start % 2 ^ 16 * 2 ^ 20 + e.len % 2 ^ 16 * 2 ^ 4 + b e.fix 3 + b e.poll 2
  toBE 6 v ++ toBE 2 (crc16 (toBE 6 v))

/-- Blocks below FIX_BASE that an entry takes. -/
def GEnt.below (e : GEnt) (fb : Nat) : Nat := min (e.start + e.len) fb - e.start

/-- Whether sorted entries overlap or reach beyond block 50,624. -/
def badPlace : Nat → List GEnt → Bool
  | _, [] => false
  | at0, e :: l => decide (e.start < at0) || decide (usBlocks < e.start + e.len) || badPlace (e.start + e.len) l

/-! ## ORR_COMPUTE (R120 to R123) -/

/-- CREDIT_ADD (R112) for one record; in a fail-over map credits start at their ceilings with an empty ledger (R133). -/
def OAlloc.creditAdd (a : OAlloc) (role : Bool) : OAlloc :=
  if !a.valid || a.type == 0 then a
  else if role then { a with credA := if a.type == 3 then a.credA else 16 * a.ba, credM := 16 * a.bm, ledger := [] }
  else { a with credA := if a.type == 3 then a.credA else min (a.credA + a.ra) (16 * a.ba), credM := min (a.credM + a.rm) (16 * a.bm) }

/-- ERR_INV_CHECK bit 0 (R134, R137): every allocation record and every ledger read has an uncorrectable error; the record's VALID and
the ledger are cleared. (DEDUCED, log entry 82) -/
def State.allocCheck (s : State) (t : Nat) : State :=
  if !s.inv Ty.ORR (t / 8) 0 then s else
  (s.ort t).allocs.foldl (fun s (n, a) =>
    if a.valid then
      let s := (s.setAlloc t n { a with valid := false, ledger := [] }).raiseInv Ty.ORR (t / 8) 2 n (t % 8)
      if a.ledger.isEmpty then s else s.raiseInv Ty.ORR (t / 8) 3 n (t % 8)
    else s) s

/-- A suppressed allocation is granted nothing in pass 1: an assured shortfall where it had a need and credit (R113). -/
def DynA.suppress (d : DynA) : DynA :=
  { d with short := (d.al.type == 1 || d.al.type == 2) && decide (0 < min d.need (creditBytes d.credA)) }

/-- The Sextant entries that go into the map of upstream tick u: a discovery window of that tick alone, or all KIND 1 entries handed over
(R143). -/
def sxtTake (u : Nat) (l : List SxtEnt) : List SxtEnt :=
  match l.filter fun e => e.kind == 2 && e.utick == u with
  | [] => l.filter fun e => e.kind != 2
  | w => w

/-- The KIND 1 entries that wait for the next map, since this one holds a discovery window (R143). -/
def sxtLeave (u : Nat) (l : List SxtEnt) : List SxtEnt :=
  if l.any fun e => e.kind == 2 && e.utick == u then l.filter fun e => e.kind != 2 else []

/-- Blocks below FIX_BASE that a kept Sextant entry and its dark margins take (R143). -/
def SxtEnt.takes (fb : Nat) (e : SxtEnt) : Nat := min (e.start + e.len + e.margin) fb - (e.start - e.margin)

/-- The computation of one tree's map for frame m. (DEDUCED, log entry 106) -/
def State.computeTree (s : State) (t m : Nat) : State :=
  let s := s.allocCheck t
  let sl := t / 8
  let d := s.dOf t
  let u := m + d
  let p := s.preambleAt t u
  let fb := s.fixBase t
  let age := s.fld Reg.ORR_TREE_CFG_RPT_AGE sl (4 * (t % 8))
  let o := s.ort t
  let role := o.rolePoll && s.on Reg.ORR_CTL_ROLE_POLL_EN sl
  let s := s.setOrt t { o with allocs := o.allocs.mapV (fun _ => allocReset) fun _ a => a.creditAdd role }
  let o := s.ort t
  let fixed := s.fixedFor t m
  let s := s.countN Reg.ORR_FIX_SHORT sl (fixed.countP fun e => (capOf e.len p).isNone)
  let old := o.hints.filter fun h => h.utick != 0 && decide (h.utick < u)
  let mine := o.hints.filter fun h => h.utick == 0 || h.utick == u
  let s := s.countN Reg.ORR_HINT_LATE sl old.length
  let (keep, clash) := keepSxt fixed (sxtTake u o.sxtIn)
  let room := 1024 - fixed.length
  let kept := keep.take room
  let free := fb - kept.foldl (fun a e => a + e.takes fb) 0
  let all := o.allocs.filterMap fun (n, a) =>
    if a.valid && a.type != 0 && s.reportsOp t a.term m && !s.withheld t a.term u then
      let (nd, sup) := a.need u d age (mine.filter fun h => h.alloc == n)
      some ((⟨n, a, nd, min nd (creditBytes a.credM), 0, a.credA, a.credM, false, false, false⟩ : DynA), sup)
    else none
  let ds := (all.filter fun q => !q.2).map (·.1)
  let off := (all.filter (·.2)).map fun q => q.1.suppress
  let (x, slack) := passes ds free p o.ptrs (s.on Reg.ORR_TREE_CFG_SLACK_EN sl (4 * (t % 8))) role
  let runs := (fixed.map fun e => (e.start, e.start + e.len)).foldl (fun r q => cutRuns q.1 q.2 r) [(0, fb)]
  let runs := kept.foldl (fun r e => cutRuns (e.start - e.margin) (e.start + e.len + e.margin) r) runs
  let (dyn, loss) := placeDyn (ohOf p) runs (x.ds.filter fun d => d.g != 0)
  let dynRoom := room - kept.length
  let ents := sortEnts (fixed ++ kept.map SxtEnt.entry ++ dyn.take dynRoom)
  let sent (n : Nat) : Nat := match (dyn.take dynRoom).find? fun e => e.id == n with
    | some e => sentOf e.len p
    | none => 0
  let cm : CMap :=
    { utick := u, ents := ents, fixed := fixed, sxtLeft := clash ++ keep.drop room, sxtAll := sxtTake u o.sxtIn
      debits := (x.ds ++ off).map fun d => (d.num, d.al.credA - d.credA, d.al.credM - d.credM)
      owners := o.allocs.filterMap fun (n, a) => if a.valid then some (n, a.term) else none
      hints := mine.length, used := mine.countP fun h => all.any fun q => q.1.num == h.alloc
      unmet := (x.ds ++ off).countP fun (d : DynA) => Nat.blt (sent d.num) d.need
      short := (x.ds ++ off).countP fun d => d.short, slack := slack, clash := clash.length, loss := loss
      limit := (keep.length - kept.length) + (dyn.length - dynRoom), role := role
      dark := fb - ents.foldl (fun a e => a + e.below fb) 0 }
  s.setOrt t { s.ort t with
    comp := some cm, rolePoll := false, sxtIn := sxtLeave u o.sxtIn, doneAt := s.tm.tickNo + 1
    hints := o.hints.filter fun h => h.utick != 0 && decide (u < h.utick)
    ptrs := o.ptrs.map fun q => nextPtr (ds.map (·.num)) q }

/-- The trees of a slice. -/
def treesOf (sl : Nat) : List Nat := (List.range 8).map fun i => 8 * sl + i

/-- The Orrery of a slice works in this tick: present and enabled, a valid count, the active role (R26, R133). -/
def State.orrWorks (s : State) (sl : Nat) : Bool := s.active Ty.ORR sl && !s.tm.free && s.isActive

/-- ORR_COMPUTE: inputs taken and the maps of frame M + 1 computed, once a tick and tree. The reports of upstream frame M − 1 are
there, unless the tree's TRX has overrun in this tick: a late report waits for the next computation (R30). -/
def State.orrCompute (s : State) (sl : Nat) : State :=
  if !s.orrWorks sl then s else
  (treesOf sl).foldl (fun s t =>
    if s.treeEn t && !s.taken t then
      (s.handReports t (s.tm.m - if s.overrunSeen Ty.TRX t then 1 else 0)).computeTree t (s.nextM) else s) s
def execOrrCompute (slice : Nat) (s : State) := live s fun s => s.orrCompute (slice % 4)

/-! ## ORR_MAP_PUBLISH (R125, R130, R132) -/

/-- The distinct terminals' AXs of a map's KIND 0 and KIND 1 entries (R130). -/
def mapAxs (t : Nat) (owners : List (Nat × Nat)) (es : List GEnt) : List Nat :=
  (es.filterMap fun e =>
    if e.kind == 0 then (owners.find? fun o => o.1 == e.id).map fun o => termAx t o.2
    else if e.kind == 1 then some (termAx t (e.id % 512)) else none).eraseDups

/-- Store a map in TRX[t] (R95): with it, those of the last 7 frames up to the one on the line are kept. -/
def State.storeMap (s : State) (t : Nat) (x : UMap) : State :=
  let r := s.trx.getD (fun _ => trxReset) t
  let keep := r.maps.filter fun y => y.utick != x.utick && decide (x.frame ≤ y.frame + 7)
  { s with trx := s.trx.setD (fun _ => trxReset) t { r with maps := keep ++ [x] } }

/-- A discovery window that covers upstream tick u and has no entry in its map lapses (R122, R143). -/
def State.lapse (s : State) (t u : Nat) (es : List GEnt) : State :=
  let x := s.sxt.getD (fun _ => sxtReset) t
  if es.any fun e => e.kind == 2 then s
  else { s with sxt := s.sxt.setD (fun _ => sxtReset) t { x with
    windows := x.windows.filter fun w => !(decide (w.utick ≤ u) && decide (u < w.utick + w.span)) } }

/-- The mirror record of a map (R467): its entries' bytes, and the owners (allocation, terminal) of two bytes each.
(DESIGN CHOICE, log entry 63) -/
def State.mirrorMap (s : State) (t m u pm : Nat) (es : List GEnt) (own : List (Nat × Nat)) : State :=
  s.mirror 2 [t, m, u, pm] [es.flatMap GEnt.bytes, own.flatMap fun o => toBE 2 o.1 ++ toBE 2 o.2]

/-- Hand a map on (R130): to TTX, TRX, the Almanac, and the mate. -/
def State.handMap (s : State) (t m u : Nat) (fixedOnly : Bool) (es : List GEnt) (owners : List (Nat × Nat)) : State :=
  let s := s.lapse t u es
  let s := s.setTx t { s.tx t with mapIn := some (m, fixedOnly, es.map GEnt.bytes) }
  let s := s.storeMap t ⟨m, u, s.pm, es, owners, s.preambleAt t u, [], true⟩
  let s := s.prefetch (t / 8) (mapAxs t owners es) (u + 1)
  s.mirrorMap t m u s.pm es (es.flatMap fun e => owners.filter fun o => e.kind == 0 && o.1 == e.id)

/-- An allocation after a map in which its grant was as found: LAST_LEN, SINCE, ledger (R116, R122, R135). -/
def OAlloc.granted (a : OAlloc) (u p : Nat) (e : Option GEnt) : OAlloc :=
  match e with
  | some e => { a with since := 0, lastLen := e.len
                       ledger := (a.ledger.filter fun q => decide (u < q.1 + 8)) ++ [(u, sentOf e.len p)] }
  | none => { a with ledger := a.ledger.filter fun q => decide (u < q.1 + 8) }

/-- Enter the allocation grants of a published map in their records (R122, R135). -/
def State.enterGrants (s : State) (t u : Nat) (es : List GEnt) : State :=
  let p := s.preambleAt t u
  s.setOrt t { s.ort t with allocs := (s.ort t).allocs.mapV (fun _ => allocReset) fun n a =>
    if a.valid then a.granted u p (es.find? fun e => e.kind == 0 && e.id == n) else a }

/-- Account for a published map that is not fixed-only: debits, first uses of reports, counts (R121 to R125). (DEDUCED, log entry 59) -/
def State.account (s : State) (t m : Nat) (c : CMap) : State :=
  let sl := t / 8
  let late := (s.ort t).allocs.countP fun q => q.2.valid && q.2.unused && decide (q.2.rtick + 3 < m) &&
    c.debits.any fun d => d.1 == q.1
  let upd (n : Nat) (a : OAlloc) : OAlloc :=
    if !a.valid || a.type == 0 then a else
    match c.debits.find? fun d => d.1 == n with
    | some d => { a with credA := a.credA - d.2.1, credM := a.credM - d.2.2, unused := false }
    | none => a
  let s := s.setOrt t { s.ort t with allocs := (s.ort t).allocs.mapV (fun _ => allocReset) upd }
  let s := (s.countN Reg.ORR_RTG_LATE sl late).countN Reg.ORR_HINTS_USED sl c.used
  let s := (s.countN Reg.ORR_NEED_UNMET sl c.unmet).countN Reg.ORR_ASSURED_SHORT sl c.short
  let s := (s.countN64 Reg.ORR_SLACK_BLOCKS_LO sl c.slack).countN Reg.ORR_SXT_CLASH sl c.clash
  (s.countN Reg.ORR_PLACE_LOSS sl c.loss).countN Reg.ORR_ENTRY_LIMIT sl c.limit

/-- A map left the Sextant's entries out (R122, R132): a ranging grant or control poll is due again. -/
def State.notIssued (s : State) (t : Nat) (l : List SxtEnt) : State :=
  l.foldl (fun s e =>
    let x := s.term (termAx t e.term)
    if e.kind != 1 then s
    else if x.ranging == some e.utick then s.setTerm (termAx t e.term) { x with ranging := none, rangeFrom := some 0 }
    else s.setTerm (termAx t e.term) { x with lastPoll := 0 }) s

/-- A ranging grant handed over too late for its map is issued in this one, for upstream tick u (R143). -/
def State.issued (s : State) (t u : Nat) (l : List SxtEnt) : State :=
  l.foldl (fun s e =>
    let x := s.term (termAx t e.term)
    if e.kind == 1 && e.utick != u && x.ranging == some e.utick then
      s.setTerm (termAx t e.term) { x with ranging := some u } else s) s

/-- Whether the map of frame m has been handed to a tree's transmitter. -/
def State.handed (s : State) (t m : Nat) : Bool := match (s.tx t).mapIn with
  | some x => x.1 == m
  | none => false

/-- Publish one tree's map of frame m: the computed one, or the fixed grants only (R132, R134); a disabled tree's is empty.
(DEDUCED, log entries 58, 105) -/
def State.publishTree (s : State) (t m : Nat) (ok : Bool) : State :=
  let sl := t / 8
  let bit (r : Nat) (b : Bool) : Nat := setBitOf r (t % 8) b
  match (s.ort t).comp with
  | none =>
    if s.treeEn t || !s.hasTree t || s.handed t m then s
    else (s.setRegI Reg.ORR_LAST_MAP sl (t % 8) (s.fixBase t % 2 ^ 16 * 2 ^ 13)).handMap t m (m + s.dOf t) false [] []
  | some c =>
    let bad := ok && (s.inv Ty.ORR sl 1 || badPlace 0 c.ents)
    let s := if bad then s.raise Ty.ORR sl 4 0 (t % 8 * 2 ^ 16) else s
    let only := !ok || bad
    let es := if only then c.fixed else c.ents
    let s := s.setOrt t { s.ort t with comp := none }
    let s := if only then
        (((s.count Reg.ORR_FIXED_ONLY_MAPS sl).countN Reg.ORR_HINT_LATE sl c.hints).notIssued t c.sxtAll)
      else ((s.account t m c).notIssued t c.sxtLeft).issued t c.utick (c.sxtAll.filter fun e => !c.sxtLeft.contains e)
    let s := s.enterGrants t c.utick es
    let dark := if only then s.fixBase t else c.dark
    let s := s.setRegI Reg.ORR_LAST_MAP sl (t % 8)
      (es.length % 2048 + (if only then 2048 else 0) + (if c.role && !only then 4096 else 0) + dark % 2 ^ 16 * 2 ^ 13)
    let s := s.setFld Reg.ORR_STS_FIXED_ONLY_LAST sl (bit (s.fld Reg.ORR_STS_FIXED_ONLY_LAST sl) only)
    let s := s.count64 Reg.ORR_MAPS_PUBLISHED_LO sl
    let s := s.countN64 Reg.ORR_GRANTS_LO sl (es.countP fun e => e.kind == 0)
    let s := s.countN64 Reg.ORR_BLOCKS_GRANTED_LO sl (es.foldl (fun a e => a + e.len) 0)
    s.handMap t m c.utick only es c.owners

/-- The maps of a slice's trees that are not yet published, as the fixed grants only: the answer to a missed deadline. -/
def State.publishRest (s : State) (sl : Nat) : State := (treesOf sl).foldl (fun s t => s.publishTree t (s.nextM) false) s

/-- Every enabled tree of a slice has computed and published its map in this tick. -/
def State.orrDone (s : State) (sl : Nat) : Bool :=
  (treesOf sl).all fun t => !s.treeEn t || s.taken t && (s.ort t).comp.isNone

/-- ORR_MAP_PUBLISH of a tree at a core cycle: its map is complete and handed on (R130); after the deadline it holds the fixed grants
only (R30, R132). The slice's work ends with its last tree. -/
def execOrrMapPublish (tree cycle : Nat) (s : State) := live s fun s =>
  let t := tree % 32
  let sl := t / 8
  if !s.orrWorks sl then s else
  let ok := s.inTime Ty.ORR sl cycle
  let s := s.publishTree t s.nextM ok
  if s.orrDone sl then s.complete Ty.ORR sl cycle
  else if ok then s else s.overrun Ty.ORR sl (overrunSrc Ty.ORR)

/-- An allocation record at a tick boundary: SINCE counts, and the ledger slots of skipped upstream ticks, those between m0 and m, are
dropped (R134, R135). -/
def OAlloc.boundary (a : OAlloc) (m0 m : Nat) : OAlloc :=
  if a.valid then { a with since := min (a.since + 1) 65535, ledger := a.ledger.filter fun q => !(decide (m0 < q.1) && decide (q.1 < m)) }
  else a

/-- TREE_ACTIVE of a slice for the tick that has ended (R135). -/
def State.treesActive (s : State) (sl : Nat) : Nat :=
  (treesOf sl).foldl (fun v t => setBitOf v (t % 8) ((s.ort t).doneAt == s.tm.tickNo && (s.ort t).comp.isNone)) 0

/-- The tick boundary in an Orrery (R131, R134, R135): TREE_ACTIVE tells of the tick that ends, whose count was m0; the allocation records
take the tick; the standing maps follow the fixed grants. A tree whose map was never published has no computed map left. -/
def State.orrBoundary (s : State) (m0 : Nat) : State :=
  let s := (List.range 4).foldl (fun s sl =>
    if s.present Ty.ORR sl then s.setFld Reg.ORR_STS_TREE_ACTIVE sl (s.treesActive sl) else s) s
  let s := (List.range 32).foldl (fun s t =>
    if s.hasTree t && s.treeEn t || !(s.tx t).standMap.isEmpty then
      s.setTx t { s.tx t with standMap := (s.fixedFor t (s.nextM)).map GEnt.bytes } else s) s
  { s with orr := s.orr.mapV (fun _ => orrReset) fun _ o =>
      { o with comp := none, allocs := o.allocs.mapV (fun _ => allocReset) fun _ a => a.boundary m0 s.tm.m } }

/-! ## ALLOC_CMD (R114, R134, R135) -/

/-- The record as ALLOC_DATA[0..5] shows it. -/
def OAlloc.words (a : OAlloc) : List Nat :=
  [(if a.valid then 1 else 0) + a.type % 4 * 2 + (if a.slack then 8 else 0) + a.term % 512 * 16 + a.weight % 256 * 2 ^ 16 +
      a.poll % 256 * 2 ^ 24,
   a.fixStart % 2 ^ 16 + a.fixLen % 2 ^ 16 * 2 ^ 16, a.ra % 2 ^ 20, a.rm % 2 ^ 20, a.ba % 2 ^ 16 + a.bm % 2 ^ 16 * 2 ^ 16,
   a.rptLim % 2 ^ 24]

/-- The configuration fields of six words, over a record. -/
def OAlloc.ofWords (a : OAlloc) (w : List Nat) : OAlloc :=
  let x (i : Nat) : Nat := w.getD i 0
  { a with
    valid := bitOf (x 0) 0, type := bitsOf (x 0) 1 2, slack := bitOf (x 0) 3, term := bitsOf (x 0) 4 9
    weight := max 1 (bitsOf (x 0) 16 8), poll := bitsOf (x 0) 24 8, fixStart := bitsOf (x 1) 0 16, fixLen := bitsOf (x 1) 16 16
    ra := bitsOf (x 2) 0 20, rm := bitsOf (x 3) 0 20, ba := bitsOf (x 4) 0 16, bm := bitsOf (x 4) 16 16, rptLim := bitsOf (x 5) 0 24 }

/-- The words of READ_STATE. -/
def OAlloc.stateWords (a : OAlloc) : List Nat :=
  [a.occ % 2 ^ 24, a.rtick % 2 ^ 32, a.rtick / 2 ^ 32 % 2 ^ 16, ofSigned 21 a.credA, ofSigned 21 a.credM,
   a.lastLen % 2 ^ 16 + a.since % 2 ^ 16 * 2 ^ 16]

/-- The status of a WRITE_CFG (R114): 2 for a FIXED allocation of no blocks or outside the fixed region, 1 for an overlap. A record
with VALID 0 is not checked. (DESIGN CHOICE, log entry 102) -/
def State.allocStatus (s : State) (t n : Nat) (a : OAlloc) : Nat :=
  if !(a.valid && a.type == 0) then 0
  else if a.fixLen == 0 || decide (a.fixStart < s.fixBase t) || decide (usBlocks < a.fixStart + a.fixLen) then 2
  else if (s.ort t).allocs.any fun (k, b) => k != n && b.valid && b.type == 0 &&
      decide (b.fixStart < a.fixStart + a.fixLen) && decide (a.fixStart < b.fixStart + b.fixLen) then 1
  else 0

/-- Write an allocation's configuration: a record that changes TYPE or loses VALID has its credits and ledger cleared. -/
def State.allocWrite (s : State) (t n : Nat) (w : List Nat) : State :=
  let old := s.alloc t n
  let a := old.ofWords w
  let s := if old.valid && a.valid then s else s.setOrt t { s.ort t with reps := (s.ort t).reps.filter fun r => r.1 != n }
  s.setAlloc t n (if old.valid && a.valid && old.type == a.type then a
    else { a with credA := 0, credM := 0, ledger := [], occ := if old.valid && a.valid then a.occ else 0,
                  rtick := if old.valid && a.valid then a.rtick else 0, unused := old.valid && a.valid && a.unused,
                  lastLen := if old.valid && a.valid then a.lastLen else 0, since := if old.valid && a.valid then a.since else 0 })

/-- The written ALLOC_CMD with its STATUS; a rejection counts, whatever the OP. (DESIGN CHOICE, log entry 103) -/
def State.allocDone (s : State) (sl n lt op st : Nat) : State :=
  let s := s.setReg Reg.ORR_ALLOC_CMD sl (n % 1024 + lt % 8 * 2 ^ 10 + op * 2 ^ 16 + st * 2 ^ 24)
  if st == 0 then s else s.count Reg.ORR_CFG_REJECT sl

/-- A command on the allocation table of a present tree; STATUS 3 where the tree is absent. -/
def State.allocCmd (s : State) (sl n lt op : Nat) (f : State → State × Nat) : State :=
  if !s.present Ty.ORR sl then s
  else if !s.hasTree (8 * sl + lt) then s.allocDone sl n lt op 3
  else let (s, st) := f s; s.allocDone sl n lt op st

/-- Show words in ALLOC_DATA. -/
def State.allocShow (s : State) (sl : Nat) (w : List Nat) : State :=
  (List.range 6).foldl (fun s i => s.setRegI Reg.ORR_ALLOC_DATA sl i (w.getD i 0)) s

/-- ALLOC_READ_CFG. -/
def execAllocReadCfg (slice ltree alloc : Nat) (s : State) := live s fun s =>
  s.allocCmd (slice % 4) (alloc % 1024) (ltree % 8) 1 fun s =>
    (s.allocShow (slice % 4) (s.alloc (8 * (slice % 4) + ltree % 8) (alloc % 1024)).words, 0)

/-- A command that changes a record: mirrored, so that a standby ignores and counts it, unless the tree is absent (R2, R468). -/
def State.allocEdit (s : State) (sl n lt op : Nat) (f : State → State × Nat) : State :=
  if s.hasTree (8 * sl + lt) then s.mirrored fun s => s.allocCmd sl n lt op f else s.allocCmd sl n lt op f

/-- ALLOC_WRITE_CFG. -/
def execAllocWriteCfg (slice ltree alloc : Nat) (s : State) := live s fun s =>
  s.allocEdit (slice % 4) (alloc % 1024) (ltree % 8) 2 fun s =>
    let t := 8 * (slice % 4) + ltree % 8
    let n := alloc % 1024
    let w := (List.range 6).map fun i => s.regI Reg.ORR_ALLOC_DATA (slice % 4) i
    let st := s.allocStatus t n ((s.alloc t n).ofWords w)
    if st == 0 then
      let s := s.allocWrite t n w
      (s.mirror 6 ([0, t, n] ++ (s.alloc t n).words) [], 0)
    else (s, st)

/-- ALLOC_DELETE: the record cleared, with its credits and ledger. -/
def execAllocDelete (slice ltree alloc : Nat) (s : State) := live s fun s =>
  s.allocEdit (slice % 4) (alloc % 1024) (ltree % 8) 3 fun s =>
    let t := 8 * (slice % 4) + ltree % 8
    ((s.setAlloc t (alloc % 1024) allocReset).mirror 6 ([0, t, alloc % 1024] ++ allocReset.words) [], 0)

/-- ALLOC_READ_STATE. -/
def execAllocReadState (slice ltree alloc : Nat) (s : State) := live s fun s =>
  s.allocCmd (slice % 4) (alloc % 1024) (ltree % 8) 4 fun s =>
    (s.allocShow (slice % 4) (s.alloc (8 * (slice % 4) + ltree % 8) (alloc % 1024)).stateWords, 0)

/-! ## TREE_CFG (R127, R135) -/

/-- TREE_CFG_WRITE: a change of D while the tree is enabled, or a FIX_BASE that leaves a fixed allocation outside, is ignored
and counted. (DEDUCED, log entry 86) -/
def State.treeCfgWrite (s : State) (sl i v : Nat) : State :=
  let t := 8 * sl + i
  let key := Reg.ORR_TREE_CFG.at sl + 4 * i
  let old := s.fld Reg.ORR_TREE_CFG_D sl (4 * i)
  let s' := s.plainWrite key v
  if (s.treeEn t && s'.fld Reg.ORR_TREE_CFG_D sl (4 * i) != old) ||
      (s.ort t).allocs.any fun q => q.2.valid && q.2.type == 0 && decide (q.2.fixStart < s'.fixBase t)
  then s.count Reg.ORR_CFG_REJECT sl
  else s'.mirror 6 [1, key, (s'.rd key).toNat] []
def execTreeCfgWrite (slice i : Nat) (v : Word) (s : State) := live s fun s =>
  if s.present Ty.ORR (slice % 4) then s.mirrored fun s => s.treeCfgWrite (slice % 4) (i % 8) v.toNat else s

/-- The effects of ORR error sources (R137): LO the allocation, HI[31:16] the local tree; 0x02 clears the record's VALID, 0x03
the ledger, 0x04 replaces the maps awaiting publication by fixed-only maps. -/
def State.orrErr (s : State) (d : Det) : State :=
  let t := 8 * d.inst + d.capHi / 2 ^ 16 % 8
  let a := s.alloc t d.capLo
  match d.src with
  | 2 => if d.forced then s else s.setAlloc t d.capLo { a with valid := false }
  | 3 => if d.forced then s else s.setAlloc t d.capLo { a with ledger := [] }
  | 4 => if d.forced then s else if (s.ort t).comp.isSome then s.publishTree t (s.nextM) false else s
  | _ => s

end Sys2Proof.Machine
end

