-- ==== Sys2Proof/Machine/Prof.lean ====
section
/-! DEFINITION. Burst profiles (R91 to R94). -/

namespace Sys2Proof.Machine

/-- Receiver t. -/
def State.rx (s : State) (t : Nat) : TrxS := s.trx.getD (fun _ => trxReset) t

/-- Store receiver t. -/
def State.setRx (s : State) (t : Nat) (x : TrxS) : State := { s with trx := s.trx.setD (fun _ => trxReset) t x }

/-- A profile nothing has seeded. -/
def profReset : Prof := { valid := false, seed := 0, amp := 0, thr := 0, phase := 0 }

/-- A terminal's profile. -/
def State.prof (s : State) (t term : Nat) : Prof := (s.rx t).prof.get profReset term

/-- Store it. -/
def State.setProf (s : State) (t term : Nat) (p : Prof) : State :=
  s.setRx t { s.rx t with prof := (s.rx t).prof.set profReset term p }

/-- A value kept with 4 fraction bits, to the nearest code, half up. (DESIGN CHOICE, log entry 93) -/
def nearest (v : Int) : Int := (v + 8) / 16

/-- The three fields of a profile word. -/
def profAmp (w : Nat) : Nat := bitsOf w 0 10
def profThr (w : Nat) : Int := toSigned 10 (bitsOf w 10 10)
def profPhase (w : Nat) : Nat := bitsOf w 20 7

/-- A profile word of three fields and VALID (R91). -/
def profWord (amp : Int) (thr : Int) (phase : Int) (valid : Bool) : Nat :=
  ofSigned 10 amp + ofSigned 10 thr * 2 ^ 10 + ofSigned 7 phase * 2 ^ 20 + (if valid then 2 ^ 31 else 0)

/-- The seed word. -/
def Prof.seedWord (p : Prof) : Nat := profWord (profAmp p.seed) (profThr p.seed) (profPhase p.seed) p.valid

/-- The current word, rounded to the nearest code. -/
def Prof.curWord (p : Prof) : Nat := profWord (nearest p.amp) (nearest p.thr) (nearest p.phase) p.valid

/-- WRITE_SEED: seed and current value from a word; the profile has been seeded, so VALID is 1 (R92). -/
def Prof.ofSeed (w : Nat) : Prof :=
  { valid := true, seed := w % 2 ^ 27, amp := 16 * (profAmp w : Int), thr := 16 * profThr w, phase := 16 * (profPhase w : Int) }

/-- The word in the receiver for a terminal's burst (R90, R92). -/
def State.profFor (s : State) (t term : Nat) : Nat :=
  if (s.prof t term).valid then (s.prof t term).curWord else s.reg Reg.TRX_PROFILE_DEFAULT t

/-- A PHASE difference modulo 128, in −64 to +63, on values with 4 fraction bits. -/
def phaseDiff (d : Int) : Int := (d + 1024) % 2048 - 1024

/-- PROFILE_UPDATE (R92): each field moves by a sixteenth of the difference, cut towards 0 to the 4 fraction bits kept. (DESIGN CHOICE,
log entry 93) -/
def Prof.update (p : Prof) (amp : Nat) (thr : Int) (phase : Nat) : Prof :=
  { p with amp := p.amp + (16 * (amp : Int) - p.amp).tdiv 16, thr := p.thr + (16 * thr - p.thr).tdiv 16
           phase := (p.phase + (phaseDiff (16 * (phase : Int) - p.phase)).tdiv 16) % 2048 }

/-- Whether the current profile, as the codes that a read returns, lies beyond a limit from its seed (R93). (DESIGN CHOICE, log entry 94) -/
def State.profDrifts (s : State) (t : Nat) (p : Prof) : Bool :=
  decide (s.fld Reg.TRX_PROFILE_LIM_AMP_LIM t < (nearest p.amp - profAmp p.seed).natAbs) ||
  decide (s.fld Reg.TRX_PROFILE_LIM_THR_LIM t < (nearest p.thr - profThr p.seed).natAbs) ||
  decide (s.fld Reg.TRX_PROFILE_LIM_PHASE_LIM t < (phaseDiff (16 * (nearest p.phase - profPhase p.seed)) / 16).natAbs)

/-- The command register after a PROFILE_CMD. -/
def State.profCmd (s : State) (t term op : Nat) (f : State → State) : State :=
  if !s.present Ty.TRX t then s else f (s.setReg Reg.TRX_PROFILE_CMD t (term % 512 + op * 2 ^ 16))

/-- PROFILE_READ. -/
def execProfileRead (tree term : Nat) (s : State) := live s fun s => s.profCmd (tree % 32) term 1 fun s =>
  let p := s.prof (tree % 32) (term % 512)
  (s.setReg Reg.TRX_PROFILE_DATA_LO (tree % 32) p.seedWord).setReg Reg.TRX_PROFILE_DATA_HI (tree % 32) p.curWord

/-- PROFILE_WRITE_SEED. -/
def execProfileWriteSeed (tree term : Nat) (s : State) := live s fun s => s.profCmd (tree % 32) term 2 fun s =>
  s.setProf (tree % 32) (term % 512) (Prof.ofSeed (s.reg Reg.TRX_PROFILE_DATA_LO (tree % 32)))

/-- Clear a terminal's bit of DRIFT_MAP. -/
def State.driftClear (s : State) (t term : Nat) : State :=
  s.setRegI Reg.TRX_DRIFT_MAP t (term / 32) (setBitOf (s.regI Reg.TRX_DRIFT_MAP t (term / 32)) (term % 32) false)

/-- PROFILE_RESEED: the seed becomes the current value; the DRIFT_MAP bit clears. -/
def execProfileReseed (tree term : Nat) (s : State) := live s fun s => s.profCmd (tree % 32) term 3 fun s =>
  let p := s.prof (tree % 32) (term % 512)
  (s.setProf (tree % 32) (term % 512) { p with seed := p.curWord % 2 ^ 27 }).driftClear (tree % 32) (term % 512)

/-- PROFILE_INVALIDATE: VALID 0 in both words; the other fields stand. -/
def execProfileInvalidate (tree term : Nat) (s : State) := live s fun s => s.profCmd (tree % 32) term 4 fun s =>
  s.setProf (tree % 32) (term % 512) { s.prof (tree % 32) (term % 512) with valid := false }

end Sys2Proof.Machine
end

