-- ==== Sys2Proof/Machine/Sxt.lean ====
section
/-! DEFINITION. The Sextant (R138 to R163): terminal records and states, its control messages and their acknowledgement,
discovery, ranging and tracking, violations and their answers, event records. -/

namespace Sys2Proof.Machine

/-- Sextant t. -/
def State.sx (s : State) (t : Nat) : SxtS := s.sxt.getD (fun _ => sxtReset) t

/-- Store Sextant t. -/
def State.setSx (s : State) (t : Nat) (x : SxtS) : State := { s with sxt := s.sxt.setD (fun _ => sxtReset) t x }

/-- The terminals of a tree with a record listed. -/
def State.termsOf (s : State) (t : Nat) : List Nat :=
  s.terms.filterMap fun (ax, _) => if ax / 512 == t then some (ax % 512) else none

/-- States from DISCOVERED to QUARANTINED. -/
def TState.bound (x : TState) : Bool := decide (1 ≤ x.code) && decide (x.code ≤ 5)

/-- States from AUTHENTICATING to QUARANTINED. -/
def TState.tracked (x : TState) : Bool := decide (3 ≤ x.code) && decide (x.code ≤ 5)

/-! ## Geometry (R143, R147) -/

/-- The smallest grant with at least x information bytes at a preamble of p bytes (R78). -/
def grantFor (x p : Nat) : Nat := leastIn (fun g => decide (x ≤ (layout g p).2.2)) 17 0 usBlocks

/-- CTRL_GRANT for an upstream tick. -/
def State.ctrlGrant (s : State) (t u : Nat) : Nat :=
  grantFor (16 + 72 * s.fld Reg.SXT_ACT_CFG_CTRL_UNITS t) (s.preambleAt t u)

/-- Blocks of the spread of reach (R147): reach in 0.1 km. -/
def spreadOf (lo hi : Nat) : Nat := ceilDiv ((hi - lo) * 50762) 128

/-- A slot's blocks for a discovery preamble in bytes. -/
def dslotOf (pdisc : Nat) : Nat := ceilDiv (pdisc + 432) 16 + 5

/-- The window's length in blocks. -/
def windowLen (lo hi slots pdisc : Nat) : Nat := spreadOf lo hi + slots * dslotOf pdisc + dslotOf pdisc

/-- The window's span in ticks. -/
def spanOf (l fixBase : Nat) : Nat := if l ≤ fixBase then 1 else 1 + ceilDiv (l - fixBase) usBlocks

/-- EQD_DISC. -/
def eqdDiscOf (d lo : Nat) : Int := (d * 6480000 : Nat) - (lo * 50762 : Nat)

/-- The discovery preamble configured, in bytes. -/
def State.discPre (s : State) (t : Nat) : Nat := 16 * s.fld Reg.TRX_PREAMBLE_CFG_DISC t

/-- The window length of the present configuration. -/
def State.windowNow (s : State) (t : Nat) : Nat :=
  windowLen (s.fld Reg.SXT_REACH_CFG_MIN t) (s.fld Reg.SXT_REACH_CFG_MAX t) (s.fld Reg.SXT_DISC_CFG_SLOTS t) (s.discPre t)

/-- RESV_MAX (R143, R161). -/
def State.resvMax (s : State) (t : Nat) : Nat :=
  max (s.fld Reg.SXT_BUDGET_CFG_SXT_BUDGET t) (min (s.windowNow t) (s.fixBase t))

/-! ## Event records (R158) -/

/-- Post an event record; `extra` follows it. (DEDUCED, log entry 107) -/
def State.sxtEvent (s : State) (t code term utick detail answer : Nat) (extra : Bytes) : State :=
  if !s.on Reg.SXT_EVT_CFG_EN t then s else
  let s := if code == 0x18 then s.intSet Ty.SXT t 5 else s
  let wc := if term < 512 then (s.term (termAx t term)).winCount else 0
  let item := toBE 1 code ++ toBE 1 t ++ toLE 2 term ++ toLE 6 utick ++ toLE 2 detail ++ toBE 1 (min wc 255) ++
    toBE 1 answer ++ toBE 2 0 ++ extra
  let (s, ok) := s.postEvent (s.fld Reg.SXT_EVT_CFG_RING t) Ty.SXT t item
  if ok then s else s.count Reg.SXT_EVT_DROP t

/-! ## Messages (R144 to R146) -/

/-- A management key is held for a terminal: in its association, or as the copy the key agent keeps (R139). -/
def State.mkHeld (s : State) (ax : Nat) : Bool := (s.mkOf ax s.tm.m false).isSome

/-- The body of a message: 48 bytes, zero to the right. -/
def bodyOf (b : Bytes) : Bytes := sliceB b 0 48

/-- Queue a message of a terminal that carries MSG_SEQ (its first two body bytes, filled in when it is sent). -/
def State.termMsg (s : State) (t term type : Nat) (rest : Bytes) : State :=
  if !s.isActive then s else
  let ax := termAx t term
  let x := s.term ax
  let m : CtlMsg := { type := type, dest := if type == 0x12 then destAll else term, body := bodyOf ([0, 0] ++ rest), auth := 0 }
  s.setTerm ax { x with queue := x.queue ++ [m] }

/-- Queue a message without MSG_SEQ for the next frame. -/
def State.treeMsg (s : State) (t type dest : Nat) (body : Bytes) : State :=
  if !s.isActive then s else
  s.setSx t { s.sx t with outbox := (s.sx t).outbox ++ [{ type := type, dest := dest, body := bodyOf body, auth := 0 }] }

/-- AUTH of a message as it is sent (R145, R178): a keyed terminal's unicast messages carry a MIC; KEY_SWITCH under the
outgoing generation. -/
def State.authFor (s : State) (t : Nat) (m : CtlMsg) : Nat :=
  if m.dest / 2 ^ 15 == 1 || !(s.term (termAx t (m.dest % 512))).keyed then 0
  else if m.type == 0x48 then 2 else 1

/-- AUTH of a message with KX_DONE taken in: it carries a MIC although the terminal becomes keyed with its frame (R176). -/
def State.authOf (s : State) (t : Nat) (m : CtlMsg) : Nat := if m.type == 0x43 then 1 else s.authFor t m

/-- KX_DONE waits until HE_PROOF has gone (R173 step 6). -/
def State.doneHeld (s : State) (t term : Nat) : Bool :=
  ((s.sx t).outbox.any fun m => m.type == 0x41 && m.dest == term) ||
  match (s.kt (termAx t term)).sess with
  | some e => (match e.tx.find 3 with
    | some o => !o.todo.isEmpty && !o.done
    | none => false)
  | none => false

/-- A GROUP_KEY beyond the 64 of a tree in a tick waits (R179). -/
def State.groupFull (s : State) (t : Nat) (m : CtlMsg) : Bool := m.type == 0x49 && decide (64 ≤ s.ka.gkSent.get 0 t)

/-- Count a GROUP_KEY sent; after KX_START the session's objects may follow. -/
def State.noteSent (s : State) (t term : Nat) (m : CtlMsg) : State :=
  let ax := termAx t term
  if m.type == 0x49 then { s with ka := { s.ka with gkSent := s.ka.gkSent.set 0 t (s.ka.gkSent.get 0 t + 1) } }
  else if m.type == 0x40 then
    match (s.kt ax).sess with
    | some e => s.setKt ax { s.kt ax with sess := some { e with started := true } }
    | none => s
  else s

/-- Send a terminal's next message with MSG_SEQ, if none awaits an ACK; at most 64 GROUP_KEY go on a tree in a tick (R179). -/
def State.sendNext (s : State) (t term : Nat) : State :=
  let ax := termAx t term
  let x := s.term ax
  match x.out, x.queue with
  | none, m :: rest =>
    if s.groupFull t m || (m.type == 0x43 && s.doneHeld t term) then s else
    let s := s.noteSent t term m
    let m := { m with body := toBE 2 x.nextSeq ++ m.body.drop 2, auth := s.authOf t { m with dest := if m.type == 0x12 then destAll else m.dest } }
    let o : OutMsg := ⟨m.type, x.nextSeq, m, s.tm.tickNo, 0⟩
    (s.setTerm ax { x with out := some o, queue := rest, nextSeq := if x.nextSeq == 65535 then 1 else x.nextSeq + 1 }).ctrlPut t m
  | _, _ => s

/-- The first word of EQD_SET's body after MSG_SEQ: EQD, then APPLY_UTICK, which the frame that carries it fills in. -/
def State.sendEqd (s : State) (t term : Nat) (eqd : Int) : State :=
  let s := s.termMsg t term 0x13 (toBE 4 (ofSigned 32 eqd) ++ toBE 6 0)
  if s.isActive then s.setTerm (termAx t term) { s.term (termAx t term) with eqdWait := true } else s

/-! ## Changes of state (R139) -/

/-- The rank of a change among those judged in one tick (R154). -/
def pendRank : TState → Nat
  | .deactivated => 3
  | .quarantined => 2
  | _ => 1

/-- The VIOL_NOTICEs of a terminal that fell due in this tick are not sent: a higher-ranked answer is carried out (R154). -/
def State.dropNotices (s : State) (t term : Nat) : State :=
  let mine (q : Nat × Nat × Nat × Nat × Nat) : Bool := q.1 == s.tm.tickNo && q.2.1 == term
  let l := (s.sx t).notices.filter mine
  if l.isEmpty then s else
  let ax := termAx t term
  (s.setSx t { s.sx t with notices := (s.sx t).notices.filter fun q => !mine q }).setTerm ax
    { s.term ax with noticed := (s.term ax).noticed.filter fun k => !l.any fun q => q.2.2.1 == k }

/-- The change that a record has pending. -/
def Term.pends (x : Term) : Option TState := x.pend.map (·.1)

/-- Judge a change: it takes effect at the next boundary, the higher-ranked of two; both count (R154, R160). -/
def State.pend (s : State) (t term : Nat) (st : TState) (reason : Nat) (dark : Bool) : State :=
  if !s.isActive then s else
  let ax := termAx t term
  let x := s.term ax
  let keep := match x.pends with
    | some p => decide (pendRank st ≤ pendRank p)
    | none => false
  let fresh := x.st != st && x.pends != some st
  let s := match st with
    | .quarantined => (if fresh then s.count Reg.SXT_QUARANTINES t else s).dropNotices t term
    | .deactivated => (if fresh then s.count Reg.SXT_DEACTIVATIONS t else s).dropNotices t term
    | _ => s
  if keep then s else s.setTerm ax { s.term ax with pend := some (st, reason, dark), told := false }

/-- An uncorrectable error in a record, or state code 7 (R160): DEACTIVATED with reason TABLE_ERR, and the binding must be rewritten. -/
def State.recErr (s : State) (t term : Nat) : State :=
  let ax := termAx t term
  let x := s.term ax
  let s := s.setTerm ax { x with valid := false }
  if x.st == .deactivated then (if s.isActive then s.setTerm ax { s.term ax with reason := 8 } else s)
  else s.pend t term .deactivated 8 false

/-- A record read meets the checks of ERR_INV_CHECK (R163): bit 0 an uncorrectable error, bit 1 once a state code of 7. -/
def State.recCheck (s : State) (t term : Nat) : State :=
  if s.inv Ty.SXT t 0 then (s.raiseInv Ty.SXT t 2 term 0).recErr t term
  else if s.inv Ty.SXT t 1 then ((s.invDone Ty.SXT t 1).raise Ty.SXT t 3 term 0).recErr t term
  else s

/-- DEACTIVATE for a record (R144, R160): it drops the message that waits; a record whose management key is no longer held
gets the broadcast form (R139). Nothing is sent for reasons LOSS and DARK or to a record that is not bound. -/
def State.tellDeact (s : State) (t term reason : Nat) (dark bound : Bool) : State :=
  let ax := termAx t term
  let x := s.term ax
  if reason == 3 || reason == 4 || !bound then s.setTerm ax { x with out := none, queue := [] }
  else
    let y := { x with out := none, queue := [], keptMk := s.mkOf ax s.tm.m false }
    if x.keyed && !s.mkHeld ax then
      s.setTerm ax { y with bcast := some (s.fld Reg.SXT_ACT_CFG_RETRY_MAX t + 1, reason, dark || x.dark, s.tm.tickNo) }
    else (s.setTerm ax y).termMsg t term 0x18 (toBE 1 reason ++ [if dark || x.dark then 1 else 0])

/-- The message of a pending change goes to the queue with the other messages of the tick: ASSIGN, STATE or DEACTIVATE. A
DEACTIVATE drops the message that waits (R160); a record whose management key is no longer held gets the broadcast
form (R139, R144). -/
def State.tell (s : State) (t term : Nat) : State :=
  let ax := termAx t term
  let x := s.term ax
  match x.pend with
  | none => s
  | some (st, reason, dark) =>
    if x.told then s else
    let s := s.setTerm ax { x with told := true }
    match st with
    | .discovered =>
      s.termMsg t term 0x12 (toBE 4 x.vendor ++ toBE 4 x.serial ++ toBE 4 x.nonce ++ toBE 2 term ++ toBE 3 x.sni ++ [0] ++
        toBE 4 (ofSigned 32 x.eqd))
    | .authenticating => s.termMsg t term 0x15 [3, 0]
    | .operational => s.termMsg t term 0x15 [4, 0]
    | .quarantined => s.termMsg t term 0x15 [5, 0]
    | .deactivated => if (s.kt ax).deactLate.isSome then s else s.tellDeact t term reason dark x.st.bound
    | _ => s

/-- A frame of the broadcast form of DEACTIVATE (R144): RETRY_MAX + 1 of them, ACK_TIMEOUT ticks apart. -/
def State.bcastRepeat (s : State) (t term : Nat) : State :=
  let ax := termAx t term
  let x := s.term ax
  match x.bcast with
  | none => s
  | some (left, reason, dark, next) =>
    if s.tm.tickNo < next || !s.isActive then s else
    let s := s.setTerm ax { x with bcast := if left ≤ 1 then none
                                            else some (left - 1, reason, dark, s.tm.tickNo + s.fld Reg.SXT_ACT_CFG_ACK_TIMEOUT t) }
    s.treeMsg t 0x18 destAll (toBE 2 0 ++ toBE 1 reason ++ [if dark then 1 else 0] ++ toBE 4 x.vendor ++ toBE 4 x.serial)

/-- The key agent destroys the management key it kept, and KEYED clears (R139). -/
def State.unkey (s : State) (ax : Nat) : State := s.putTerm ax { s.term ax with keyed := false, keptMk := none }

/-- A record enters a state at a tick boundary (R139); a release clears the violation window. The queues of a terminal that is deactivated and its key agreement are
dealt with by the boundary. -/
def State.enter (s : State) (t term : Nat) (st : TState) (reason : Nat) (dark : Bool) : State :=
  let ax := termAx t term
  let was := (s.term ax).st
  let x := { s.term ax with st := st, since := s.tm.tickNo, pend := none, told := false }
  let x := if st == .operational then x else { x with opFrame := none }
  let s := match st with
    | .deactivated =>
      let x := { x with reason := reason, dark := x.dark || dark, rangeFrom := none, ranging := none, rangeRes := none
                        eqdWait := false, rangeAfter := false }
      let x := if x.keptMk.isNone then { x with keptMk := s.mkOf ax s.tm.m false } else x
      (s.putTerm ax x).destroyLogged ax
    | .init =>
      s.putTerm ax { x with keyed := false, keptMk := none, out := none, queue := [], mean := 0, darkRun := 0, missRun := 0
                            dying := false, tries := 0, assignAcked := false, allocAcked := false, rangeFrom := none
                            ranging := none, rangeRes := none, eqdAt := none, eqdWait := false, rangeAfter := false
                            lastRogue := none }
    | .operational => s.putTerm ax (if was == TState.quarantined then { x with winCount := 0, winCloses := none, noticed := [], rogueIn := false } else x)
    | _ => s.putTerm ax x
  s.sxtEvent t 0x17 term s.tick (st.code * 256 + reason) 0 []

/-- SXT_STATE_CHANGE at a boundary: every pending change of a tree takes effect, and one judged after the tick's messages had gone leaves
its message for the next; a record that becomes RANGED goes on to AUTHENTICATING at the next boundary. -/
def State.sxtBoundaryOf (s : State) (t : Nat) : State :=
  (s.termsOf t).foldl (fun s term =>
    match (s.term (termAx t term)).pend with
    | some (st, reason, dark) =>
      let s := (s.tell t term).enter t term st reason dark
      if st == .ranged then s.pend t term .authenticating 0 false else s
    | none => s) s

/-- The boundary in every Sextant; the standby changes no state (R159), and no tick is counted while free ticking. -/
def State.sxtBoundary (s : State) : State :=
  if s.tm.free || !s.isActive then s else
  (List.range 32).foldl (fun s t => if s.active Ty.SXT t then s.sxtBoundaryOf t else s) s

/-! ## Violations (R153, R154) -/

/-- Whether a window of violations is open. -/
def Term.winOpen (x : Term) (now : Nat) : Bool := match x.winCloses with
  | some c => decide (now < c)
  | none => false

/-- VIOLATION: counted in its kind and in WIN_COUNT, answered and posted. A notice stands behind a quarantine or deactivation of the same
tick (R154). -/
def State.violation (s : State) (t term code utick detail : Nat) : State :=
  let ax := termAx t term
  let x := s.term ax
  if x.st == .init || ((code == 1 || code == 2) && decide (utick < (s.sx t).graceTo)) then s else
  let open_ := x.winOpen s.tm.tickNo
  let kinds := if open_ then x.noticed else []
  let second := match x.lastRogue with
    | some u => code == 7 && decide (utick < u + 8)
    | none => false
  let x := { x with
    winCount := min 255 ((if open_ then x.winCount else 0) + 1)
    winCloses := if open_ then x.winCloses else some (s.tm.tickNo + s.fld Reg.SXT_QUAR_WIN_WINDOW t)
    noticed := kinds
    rogueIn := (open_ && x.rogueIn) || code == 7
    viol := x.viol.mapIdx fun i v => if i + 1 == code then min 255 (v + 1) else v
    lastViol := s.tm.tickNo
    lastRogue := if code == 7 then some utick else x.lastRogue }
  let s := (s.setTerm ax x).count Reg.SXT_VIOLATIONS t
  let ans :=
    if !s.isActive then 0
    else if x.st == .quarantined && decide (s.fld Reg.SXT_QUAR_CFG_DEACT_N t ≤ x.winCount) then 3
    else if x.st == .operational && (decide (s.fld Reg.SXT_QUAR_CFG_QUAR_N t ≤ x.winCount) || second) then 2
    else if !kinds.contains code && s.flag Reg.SXT_CTL_NOTICE_EN t &&
      !(x.pends == some .quarantined || x.pends == some .deactivated) then 1 else 0
  let s := s.sxtEvent t code term utick detail ans []
  match ans with
  | 3 => s.pend t term .deactivated 2 x.rogueIn
  | 2 => s.pend t term .quarantined 0 false
  | 1 =>
    (s.setTerm ax { s.term ax with noticed := kinds ++ [code] }).setSx t
      { s.sx t with notices := (s.sx t).notices ++ [(s.tm.tickNo, term, code, x.winCount, utick)] }
  | _ => s

/-- A violation of a burst, which a ranging burst has none of (R150, R153). -/
def State.judged (s : State) (rng : Bool) (t term kind u detail : Nat) : State :=
  if rng then s else s.violation t term kind u detail

/-- Unattributed rogue light in an upstream tick (R156): counted once a tick, and judged in the rogue window. -/
def State.rogueUnattr (s : State) (t utick first : Nat) : State :=
  let x := s.sx t
  if x.rogueTick == some utick then s else
  let s := (s.setSx t { x with rogueTick := some utick }).count Reg.SXT_ROGUE_UNATTR t
  let w := match x.rogue with
    | some (c, n, p) => if s.tm.tickNo < c then (c, n + 1, p) else (s.tm.tickNo + s.fld Reg.SXT_QUAR_WIN_WINDOW t, 1, false)
    | none => (s.tm.tickNo + s.fld Reg.SXT_QUAR_WIN_WINDOW t, 1, false)
  let post := !w.2.2 && decide (s.fld Reg.SXT_ROGUE_CFG_ROGUE_N t ≤ w.2.1)
  let s := s.setSx t { s.sx t with rogue := some (w.1, w.2.1, w.2.2 || post) }
  if post then s.sxtEvent t 0x18 0xFFFF utick first 0 [] else s

/-- Rogue light that begins at a block, attributed or not (R156). -/
def State.rogue (s : State) (t utick first : Nat) (who : Option Nat) : State :=
  match who with
  | some term => if (s.term (termAx t term)).st == .init then s.rogueUnattr t utick first
      else s.violation t term 7 utick first
  | none => s.rogueUnattr t utick first

/-! ## Offsets, ranging, tracking, loss (R150, R151, R157) -/

/-- The key copy, ranging and profile effects of a successful ranging try (R150): EQD − o is stored, the seed profile
written, EQD_SET sent unless o is 0; the record is RANGED from the next boundary. -/
def State.rangeOk (s : State) (t term : Nat) (o : Int) (prof : Nat) : State :=
  let ax := termAx t term
  let x := s.term ax
  let s := s.putTerm ax { x with eqd := x.eqd - o, ranging := none, rangeRes := none, tries := 0 }
  let s := (s.setProf t term (Prof.ofSeed prof)).count Reg.SXT_RANGE_OK t
  let s := if o == 0 then s else s.sendEqd t term (x.eqd - o)
  s.pend t term .ranged 0 false

/-- A failed try (R139, R150). With EQD corrected, the new grant waits for the frame that carries EQD_SET. -/
def State.rangeBad (s : State) (t term utick : Nat) (o : Option Int) : State :=
  let ax := termAx t term
  let x := s.term ax
  let n := x.tries + 1
  let x := { x with tries := n, ranging := none, rangeRes := none }
  if s.fld Reg.SXT_RANGE_CFG_RANGE_TRIES t ≤ n then
    ((s.setTerm ax x).count Reg.SXT_RANGE_FAIL t).sxtEvent t 0x12 term utick 0 0 [] |>.pend t term .init 0 false
  else
    match o with
    | some o =>
      (s.putTerm ax { x with eqd := x.eqd - o, rangeAfter := true }).sendEqd t term (x.eqd - o)
    | none => s.setTerm ax { x with rangeFrom := some 0 }

/-- An EQD_SET that takes an offset out (R151, R153); the mean restarts at its APPLY_UTICK. -/
def State.eqdBy (s : State) (t term : Nat) (o : Int) : State :=
  let ax := termAx t term
  let x := s.term ax
  (s.putTerm ax { x with eqd := x.eqd - o }).sendEqd t term (x.eqd - o)

/-- RANGING_BURST (R150, R151): the ranging burst heard from a terminal is evaluated; with a delimiter found, a re-ranging one too leaves
the profile measured as the seed (R94). -/
def State.rangeEval (s : State) (t term : Nat) : State :=
  let ax := termAx t term
  let x := s.term ax
  match x.rangeRes with
  | none => s
  | some (u, o, prof) =>
    if x.reRange then
      let s := s.setTerm ax { x with ranging := none, rangeRes := none, reRange := false }
      match o with
      | some o =>
        let s := s.setProf t term (Prof.ofSeed prof)
        if o == 0 then s else s.eqdBy t term o
      | none => s
    else if x.st != .discovered then s.setTerm ax { x with ranging := none, rangeRes := none }
    else
      match o with
      | some o =>
        if decide (o.natAbs ≤ s.fld Reg.SXT_RANGE_CFG_RANGE_TOL t) && x.assignAcked then s.rangeOk t term o prof
        else s.rangeBad t term u (some o)
      | none => s.rangeBad t term u none
def execRangingBurst (tree term : Nat) (s : State) := live s fun s =>
  if s.active Ty.SXT (tree % 32) && s.isActive then (s.recCheck (tree % 32) (term % 512)).rangeEval (tree % 32) (term % 512) else s

/-- EQD_TRACK_UPDATE (R151): the running mean, and EQD_SET where it reaches EQD_TRACK. -/
def State.track (s : State) (t term utick : Nat) (o : Int) : State :=
  let ax := termAx t term
  let x := s.term ax
  if !x.st.tracked || !s.on Reg.SXT_CTL_TRACK_EN t then s else
  let x := match x.eqdAt with
    | some a => if a ≤ utick then { x with mean := 0, eqdAt := none } else x
    | none => x
  let mean := x.mean + (16 * o - x.mean).tdiv 16
  let s := s.setTerm ax { x with mean := mean }
  if x.eqdAt.isNone && !x.eqdWait && decide (16 * s.fld Reg.SXT_ACT_CFG_EQD_TRACK t ≤ mean.natAbs) then
    let r := nearest mean
    let s := (s.eqdBy t term r).count Reg.SXT_EQD_UPDATES t
    s.sxtEvent t 0x19 term utick (ofSigned 16 r) 0 []
  else s

/-- The arrival offset of a granted burst (R96, R153, R159): OFFSET_LIM exceeded is a violation; a live burst is tracked; the
standby keeps its mean. -/
def State.offsetOf (s : State) (t term utick : Nat) (o : Int) (live : Bool) : State :=
  let ax := termAx t term
  let x := { s.term ax with darkRun := 0, missRun := 0 }
  let far := decide (s.fld Reg.TRX_DELIM_CFG_OFFSET_LIM t < o.natAbs)
  if !s.isActive then
    let s := s.setTerm ax { x with stby := x.stby + (16 * o - x.stby).tdiv 16 }
    if far then s.violation t term 1 utick (ofSigned 16 o) else s
  else
    let s := s.setTerm ax x
    if far then
      let s := s.violation t term 1 utick (ofSigned 16 o)
      let s := if x.st.tracked && decide ((s.sx t).graceTo ≤ utick) then s.eqdBy t term o else s
      if live then s.track t term utick o else s
    else if live then s.track t term utick o else s

/-- Ask for a ranging grant without a change of state (R151). -/
def State.askRange (s : State) (t term : Nat) : State :=
  let ax := termAx t term
  s.setTerm ax { s.term ax with rangeFrom := some 0, reRange := true }

/-- A delimiter missing with light present (R153): the second in a row draws a ranging grant. -/
def State.missLit (s : State) (t term utick : Nat) : State :=
  let ax := termAx t term
  let s := s.setTerm ax { s.term ax with darkRun := 0 }
  let s := s.violation t term 1 utick 0
  let x := s.term ax
  if !s.isActive || !x.st.tracked || decide (utick < (s.sx t).graceTo) then s
  else if 1 ≤ x.missRun then (s.setTerm ax { x with missRun := 0 }).askRange t term
  else s.setTerm ax { x with missRun := x.missRun + 1 }

/-- TERMINAL_LOSS (R157): a granted burst with no light; LOS_LIMIT in a row lose the terminal. -/
def State.darkBurst (s : State) (t term utick : Nat) : State :=
  let ax := termAx t term
  if utick < (s.sx t).graceTo then s else
  let x := s.term ax
  let s := s.setTerm ax { x with darkRun := min 255 (x.darkRun + 1) }
  if s.isActive && x.st.bound && decide (s.fld Reg.SXT_LOSS_CFG_LOS_LIMIT t ≤ x.darkRun + 1) &&
      !(match x.pend with | some (.deactivated, _, _) => true | _ => false) then
    (s.sxtEvent t 0x14 term utick 0 0 []).pend t term .deactivated (if x.dying then 4 else 3) false
  else s

/-! ## Control messages received (R145, R146, R153) -/

/-- Upstream types a terminal may send in a granted burst (R144, R167, R43). -/
def upType (ty : Nat) : Bool :=
  ty == 0x21 || ty == 0x22 || ty == 0x41 || ty == 0x42 || ty == 0x44 || ty == 0x51 || (decide (0xF0 ≤ ty) && decide (ty ≤ 0xFE))

/-- Bytes i to the end of a body are 0. -/
def zeroFrom (b : Bytes) (i : Nat) : Bool := (b.drop i).all fun x => x == 0

/-- Reserved body bytes are 0. -/
def bodyOk (ty : Nat) (b : Bytes) : Bool :=
  match ty with
  | 0x21 => beAt b 1 1 == 0 && zeroFrom b 5
  | 0x22 => zeroFrom b 28
  | 0x41 => beAt b 6 2 == 0
  | 0x42 => beAt b 3 1 == 0 && zeroFrom b 20
  | 0x44 => zeroFrom b 3
  | 0x51 => zeroFrom b 0
  | _ => true

/-- The fields of a received message. -/
def msgType (m : Bytes) : Nat := beAt m 0 1
def msgBody (m : Bytes) : Bytes := sliceB m 8 48

/-- The envelope's form (R42): reserved bits 0, DEST the sender's number without BCAST, and the CRC of an AUTH 0 message. -/
def envelopeOk (m : Bytes) (dest : Nat) : Bool :=
  beAt m 1 1 % 128 == 0 && beAt m 2 2 == dest && beAt m 4 4 == 0 &&
  (beAt m 1 1 / 128 == 1 || (beAt m 56 4 == crc32c (sliceB m 0 56) && beAt m 60 4 == 0))

/-- The management keys under which a message of tick u may be checked (R178): both generations within 4 ticks of a switch,
and for the ACK of a KEY_SWITCH. -/
def State.mkCands (s : State) (t term u : Nat) (both : Bool) : List Bytes :=
  let ax := termAx t term
  let a := s.assoc ax
  if a.st == .invalid then (s.term ax).keptMk.toList else
  let ks (p : Nat) : List Bytes := match a.pos p with
    | some k => if k.mic.isEmpty then [] else [k.mic]
    | none => []
  let old := s.outMk ax
  (if both || a.either u then ks 0 ++ ks 1 else ks (a.curAt s.tick u)) ++ (if both && !old.isEmpty then [old] else [])

/-- Whether the MIC of an upstream AUTH 1 message fits (R177). -/
def State.micFits (s : State) (t : Nat) (c : CtrlIn) : Bool :=
  let sw := msgType c.msg == 0x21 && beAt (msgBody c.msg) 0 1 == 0x48 && (match (s.term (termAx t c.term)).out with
    | some o => o.type == 0x48
    | none => false)
  (s.mkCands t c.term c.utick sw).any fun k => micOf k c.utick t 1 c.term c.sblk c.pos (sliceB c.msg 0 56) == sliceB c.msg 56 8

/-- SXT_CONTROL_RECEIVE (R153): the oldest control unit handed over is checked; a good COUNTER_RPT is posted, another good
message waits for its receiver. (DEDUCED, log entry 61) -/
def State.ctrlReceive (s : State) (t : Nat) : State :=
  match (s.sx t).inbox with
  | [] => s
  | c :: rest =>
    let s := (s.setSx t { s.sx t with inbox := rest }).recCheck t c.term
    let x := s.term (termAx t c.term)
    let ty := msgType c.msg
    let late := match c.nth with
      | some n => decide (s.fld Reg.SXT_ACT_CFG_CTRL_UNITS t ≤ n)
      | none => false
    let auth := beAt c.msg 1 1 / 128 == 1
    if x.st == .init then s
    else if late || !upType ty || !envelopeOk c.msg c.term || !bodyOk ty (msgBody c.msg) then
      (s.count Reg.SXT_CTRL_BAD t).judged c.rng t c.term 4 c.utick 0
    else if auth != x.keyed || (auth && !s.micFits t c) then
      (s.count Reg.SXT_CTRL_UNAUTH t).judged c.rng t c.term 5 c.utick 0
    else if !s.isActive then s
    else if ty == 0x22 then
      if s.flag Reg.SXT_EVT_CFG_CNT_FWD t then s.sxtEvent t 0x1A c.term c.utick 0 0 (msgBody c.msg) else s
    else s.setSx t { s.sx t with good := (s.sx t).good ++ [c] }
def execSxtControlReceive (tree : Nat) (s : State) := live s fun s =>
  if s.active Ty.SXT (tree % 32) then s.ctrlReceive (tree % 32) else s

/-- Take the oldest good message of a type. -/
def State.takeGood (s : State) (t ty : Nat) : State × Option CtrlIn :=
  match (s.sx t).good.find? fun c => msgType c.msg == ty with
  | none => (s, none)
  | some c => (s.setSx t { s.sx t with good := (s.sx t).good.erase c }, some c)

/-- What an ACK of a terminal's message does, and the next one sent (R139, R146). -/
def State.acked (s : State) (t term : Nat) (o : OutMsg) : State :=
  let ax := termAx t term
  let s := s.setTerm ax { s.term ax with out := none }
  let s := match o.type with
    | 0x12 => s.setTerm ax { s.term ax with assignAcked := true }
    | 0x16 => if beAt o.msg.body 3 1 % 2 == 1 then s.setTerm ax { s.term ax with allocAcked := true } else s
    | 0x18 => s.unkey ax
    | _ => s
  s.sendNext t term

/-- ACK_RECEIVE (R146): the oldest good ACK; one for an unknown MSG_SEQ is ignored and counted. What the key agent and the
interchange take from an ACK is in `ackSeen`. -/
def State.ackReceive (s : State) (t : Nat) : State × Option (Nat × OutMsg × Nat × Nat) :=
  match s.takeGood t 0x21 with
  | (s, none) => (s, none)
  | (s, some c) =>
    let b := msgBody c.msg
    match (s.term (termAx t c.term)).out with
    | some o =>
      if o.type == beAt b 0 1 && o.seq == beAt b 2 2 then (s.acked t c.term o, some (c.term, o, beAt b 4 1, c.utick))
      else (s.count Reg.SXT_CTRL_BAD t, none)
    | none => (s.count Reg.SXT_CTRL_BAD t, none)

/-- The change that an unacknowledged message brings after its last retry (R139, R146). -/
def State.ackLost (s : State) (t term : Nat) (o : OutMsg) : State :=
  let ax := termAx t term
  let x := s.term ax
  let s := s.setTerm ax { x with out := none }
  let s := (s.count Reg.SXT_ACK_LOST t).sxtEvent t 0x13 term s.tick o.type 0 []
  if x.st == .deactivated then (if o.type == 0x18 then s.unkey ax else s).sendNext t term
  else if x.st == .discovered && o.type == 0x12 then s.pend t term .init 0 false
  else if x.st.bound then s.pend t term .deactivated 6 false
  else s

/-- ACK_TIMEOUT of a terminal (R146): a message unanswered for ACK_TIMEOUT ticks goes again, up to RETRY_MAX times. The
message and whether it was the last retry. -/
def State.ackTimeout (s : State) (t term : Nat) : State × Option OutMsg :=
  let ax := termAx t term
  let x := s.term ax
  match x.out with
  | none => (s, none)
  | some o =>
    if s.tm.tickNo < o.sentAt + s.fld Reg.SXT_ACT_CFG_ACK_TIMEOUT t || !s.isActive then (s, none)
    else if o.tries < s.fld Reg.SXT_ACT_CFG_RETRY_MAX t then
      if s.groupFull t o.msg then (s, none) else
      let s := s.noteSent t term o.msg
      let m := { o.msg with auth := s.authOf t o.msg }
      ((s.setTerm ax { x with out := some { o with tries := o.tries + 1, sentAt := s.tm.tickNo, msg := m } }).ctrlPut t m, none)
    else (s.ackLost t term o, some o)

/-! ## Discovery (R142, R147 to R149) -/

/-- DISC_WINDOW_OPEN: the window of upstream tick M + 1 + D is announced, where R147 opens one. -/
def State.windowOpen (s : State) (t : Nat) : State :=
  let d := s.dOf t
  let u := s.nextM + d
  if s.tm.free || !s.isActive || !s.on Reg.SXT_CTL_DISC_EN t ||
      u % s.fld Reg.SXT_DISC_CFG_PERIOD t != 0 || (s.sx t).windows.any fun w => w.utick == u then s else
  let pd := s.discPre t
  let lo := s.fld Reg.SXT_REACH_CFG_MIN t
  let slots := s.fld Reg.SXT_DISC_CFG_SLOTS t
  let l := s.windowNow t
  let x := s.sx t
  let w : Window := { utick := u, span := spanOf l (s.fixBase t), len := l, slots := slots, dslot := dslotOf pd, pdisc := pd
                      eqdDisc := eqdDiscOf d lo, sni := x.find, seen := [] }
  let s := s.setSx t { x with windows := (x.windows.filter fun v => decide (s.tm.m ≤ v.utick + 8)) ++ [w], find := none }
  let s := s.count Reg.SXT_DISC_WINDOWS t
  s.treeMsg t 0x10 destAll (toBE 6 u ++ toBE 1 w.span ++ [if x.find.isSome then 2 else 1] ++ toBE 2 slots ++ toBE 1 w.dslot ++
    toBE 1 (pd / 16) ++ toBE 4 (ofSigned 32 w.eqdDisc) ++ toBE 3 (x.find.getD 0))
def execDiscWindowOpen (tree : Nat) (s : State) := live s fun s => s.windowOpen (tree % 32)

/-- A discovery response as its message gives it. -/
structure DiscResp where
  vendor : Nat
  serial : Nat
  nonce : Nat
  slot : Nat
  sni : Nat
  kem : Bool
  deriving DecidableEq, Repr

/-- The response in a discovery burst of 88 information bytes (R81, R84, R144): none where its header, its unit or its message
is not valid. The bytes from 16 on are descrambled with terminal 0x1FF. -/
def discRespOf (t : Nat) (w : Window) (pm : Nat) (b : Bytes) (scrOff : Bool) : Option DiscResp :=
  let b := if scrOff then b else b.take 16 ++ xorB (b.drop 16) (scrBytes (0x3FF * 2 ^ 48 + w.utick % 2 ^ 48) (b.length - 16))
  let hdrOk := beAt b 12 4 == crc32c (sliceB b 0 12) && beAt b 0 2 == 0x1FF * 128 + t * 4 && beAt b 2 6 == w.utick &&
    beAt b 8 1 / 64 == pm % 2 * 2 + 1 && beAt b 8 1 % 32 == 0 && beAt b 9 1 == 0 && beAt b 10 2 == 0
  let unitOk := sliceB b 16 8 == unitHeader 64 0x1FFFE 0 true true false
  let m := sliceB b 24 64
  let body := msgBody m
  let r : DiscResp := ⟨beAt body 0 4, beAt body 4 4, beAt body 8 4, beAt body 12 2, beAt body 14 3, beAt body 17 1 % 2 == 1⟩
  if b.length == 88 && hdrOk && unitOk && msgType m == 0x20 && beAt m 1 1 == 0 && envelopeOk m 0x1FF &&
      beAt body 17 1 / 2 == 0 && zeroFrom body 18 && decide (r.slot < w.slots) && (w.sni.isNone || (r.slot == 0 && w.sni == some r.sni))
  then some r else none

/-- Count, and post with its second record, an event about a serial (R158). (DEDUCED, log entry 58) -/
def State.serialEvent (s : State) (t code term utick detail : Nat) (r : DiscResp) (rtd : Int) : State :=
  let s := s.count (if code == 0x10 then Reg.SXT_UNKNOWN_SERIAL else Reg.SXT_DUP_SERIAL) t
  s.sxtEvent t code term utick detail 0 (toLE 4 r.vendor ++ toLE 4 r.serial ++ toLE 4 (ofSigned 32 rtd) ++ toLE 4 0)

/-- One response matched against the records (R149, R150): x is its delimiter's position in bit times from B(u). -/
def State.respond (s : State) (t : Nat) (w : Window) (x : Int) (r : DiscResp) : State :=
  let e := x - ((r.slot * w.dslot * 128 + w.pdisc * 8 : Nat) : Int)
  let rtd := (s.dOf t * 6480000 : Nat) - w.eqdDisc + e
  let s := (s.termsOf t).foldl (fun s n => s.recCheck t n) s
  let hit := (s.termsOf t).filter fun n =>
    (s.term (termAx t n)).valid && (s.term (termAx t n)).vendor == r.vendor && (s.term (termAx t n)).serial == r.serial
  match hit with
  | [] => s.serialEvent t 0x10 0xFFFF w.utick 0 r rtd
  | n :: _ =>
    let ax := termAx t n
    let q := s.term ax
    if q.dark then s
    else if q.st == .deactivated then s
    else if q.st != .init || q.pend.isSome then s.serialEvent t 0x11 n w.utick 0 r rtd
    else if r.sni != 0x3FFFF && r.sni != q.sni then s.serialEvent t 0x10 n w.utick 1 r rtd
    else
      let eqd := w.eqdDisc - e
      if eqd < 2125440 then (s.count Reg.SXT_RANGE_FAIL t).sxtEvent t 0x12 n w.utick 1 0 []
      else
        let s := s.setTerm ax { q with eqd := eqd, nonce := r.nonce, noKem := !r.kem, rangeFrom := some 0, tries := 0, assignAcked := false
                                       allocAcked := false, reRange := false, nextSeq := q.nextSeq }
        (s.count Reg.SXT_DISC_RESP_OK t).pend t n .discovered 0 false

/-- DISC_RESP_RECEIVE: the bursts whose delimiters lie in a window, each with its delimiter's position. Responses with the
same serial in one window are all ignored (R149). -/
def State.discResponses (s : State) (t utick : Nat) (bs : List (Int × Burst)) : State :=
  match (s.sx t).windows.find? fun w => w.utick == utick with
  | none => s
  | some w =>
    if !s.active Ty.SXT t || !s.isActive || !s.on Reg.TRX_CTL_RX_EN t || decide (s.tm.m < utick) then s else
    let pm := match (s.rx t).maps.find? fun m => m.utick == utick with
      | some m => m.pm
      | none => s.pm
    let err := s.fld Reg.TRX_DELIM_CFG_ERR_MAX t
    let info (b : Burst) : Option Bytes := if b.light && (delimFind b 0 err).isSome then (cwAt (codeOf b 0) 0 88).map (·.1) else none
    let inside (x : Int) : Bool := decide (0 ≤ x) && decide (x < w.len * 128)
    let rs := (bs.filter fun q => inside q.1).map fun (x, b) => (x, (info b).bind fun d => discRespOf t w pm d (s.flag Reg.TRX_CTL_SCR_OFF t))
    let s := s.countN Reg.SXT_DISC_COLLIDE t (rs.countP fun q => q.2.isNone)
    let good := rs.filterMap fun (x, r) => r.map fun r => (x, r)
    let ids := good.map fun q => (q.2.vendor, q.2.serial)
    let dup (v : Nat × Nat) : Bool := decide (1 < ids.countP fun y => y == v) || w.seen.contains v
    let s := s.setSx t { s.sx t with windows := (s.sx t).windows.map fun v => if v.utick == utick then { v with seen := v.seen ++ ids } else v }
    let s := (ids.eraseDups.filter dup).foldl (fun s v =>
      match good.find? fun q => (q.2.vendor, q.2.serial) == v with
      | some (x, r) =>
        s.serialEvent t 0x11 0xFFFF utick 0 r ((s.dOf t * 6480000 : Nat) - w.eqdDisc +
          (x - ((r.slot * w.dslot * 128 + w.pdisc * 8 : Nat) : Int)))
      | none => s) s
    good.foldl (fun s (x, r) => if dup (r.vendor, r.serial) then s else s.respond t w x r) s
def execDiscRespReceive (tree utick : Nat) (bursts : List (Int × Burst)) (s : State) := live s fun s =>
  s.discResponses (tree % 32) utick bursts

/-! ## Entries and messages of a tick (R30, R143) -/

/-- The discovery entry of upstream tick u, if a window covers it. -/
def State.windowEntry (s : State) (t u : Nat) : Option SxtEnt :=
  match (s.sx t).windows.find? fun w => decide (w.utick ≤ u) && decide (u < w.utick + w.span) with
  | none => none
  | some w =>
    let i := u - w.utick
    let len := if i + 1 < w.span then s.fixBase t else w.len - i * usBlocks
    some ⟨2, 0, 0, len, 0, u⟩

/-- A ranging grant is due in upstream tick u. -/
def Term.rangeDue (x : Term) (u : Nat) : Bool := match x.rangeFrom with
  | some r => decide (r ≤ u)
  | none => false

/-- Whether a terminal is due a KIND 1 entry of upstream tick u: ranging (true) or a control poll (false). -/
def State.kind1Due (s : State) (t term u : Nat) : Option Bool :=
  let x := s.term (termAx t term)
  if s.withheld t term u then none else
  if x.rangeDue u then some true else
    let every := match x.st with
      | .discovered | .ranged | .authenticating => s.fld Reg.SXT_ACT_CFG_CTRL_POLL t
      | .quarantined => s.fld Reg.SXT_QUAR_CFG_QUAR_POLL t
      | _ => 0
    if every != 0 && decide (x.lastPoll + every ≤ u) then some false else none

/-- Pack KIND 1 entries for upstream tick u from a block upward: at most 32, within SXT_BUDGET and below FIX_BASE. (DESIGN CHOICE, log entry 57) -/
def State.packKind1 (s : State) (t u base budget : Nat) : Nat → List (Nat × Bool) → List SxtEnt
  | _, [] => []
  | used, (term, range) :: l =>
    let g := s.ctrlGrant t u
    let m := if range then s.fld Reg.SXT_RANGE_CFG_RANGE_MARGIN t else 0
    if budget < used + g + 2 * m || s.fixBase t < base + used + g + 2 * m then s.packKind1 t u base budget used l
    else ⟨1, term, base + used + m, g, m, u⟩ :: s.packKind1 t u base budget (used + g + 2 * m) l

/-- The entries of upstream tick u: a discovery window alone, or KIND 1 entries, ranging grants first, beside those that came too late for
their own map. -/
def State.entriesFor (s : State) (t u base : Nat) : List SxtEnt :=
  match s.windowEntry t u with
  | some e => [e]
  | none =>
    let due := (s.termsOf t).filterMap fun n => (s.kind1Due t n u).map fun r => (n, r)
    let l := due.filter (fun q => q.2) ++ due.filter (fun q => !q.2)
    let old := (s.ort t).sxtIn.filter fun e => e.kind == 1
    (s.packKind1 t u base (s.fld Reg.SXT_BUDGET_CFG_SXT_BUDGET t) (old.foldl (fun n e => n + e.len + 2 * e.margin) 0) l).take
      (32 - old.length)

/-- Note the issue of KIND 1 entries in the records. -/
def State.noteIssued (s : State) (t u : Nat) (es : List SxtEnt) : State :=
  es.foldl (fun s e =>
    if e.kind != 1 then s else
    let ax := termAx t e.term
    let x := s.term ax
    s.setTerm ax (if x.rangeDue u then { x with rangeFrom := none, ranging := some u, lastPoll := u } else { x with lastPoll := u })) s

/-- The entries for frame M + 1 go to the Orrery, packed from block `base` where they fit there. -/
def State.handEntries (s : State) (t base : Nat) : State :=
  let u := s.nextM + s.dOf t
  let es := if s.treeEn t then s.entriesFor t u base else []
  let s := s.noteIssued t u es
  s.setOrt t { s.ort t with sxtIn := (s.ort t).sxtIn ++ es }

/-- The messages for frame M + 1 go to the transmitter. -/
def State.handMessages (s : State) (t : Nat) : State :=
  let s := (s.termsOf t).foldl (fun s n => (s.tell t n).bcastRepeat t n) s
  let x := s.sx t
  let note (q : Nat × Nat × Nat × Nat × Nat) : CtlMsg :=
    { type := 0x17, dest := q.2.1, body := bodyOf (toBE 1 q.2.2.1 ++ toBE 1 q.2.2.2.1 ++ toBE 6 q.2.2.2.2), auth := 0 }
  let s := s.setSx t { x with outbox := [], notices := [] }
  let s := { s with ka := { s.ka with terms := s.ka.terms.mapV (fun _ => kaReset) fun ax y => if ax / 512 == t then { y with sentN := 0 } else y } }
  let s := (x.outbox ++ x.notices.map note).foldl (fun s m => s.ctrlPut t { m with auth := s.authOf t m }) s
  (s.termsOf t).foldl (fun s n => s.sendNext t n) s

/-- The Sextant's stage work in time: entries and messages. -/
def State.handover (s : State) (t base : Nat) : State := (s.handEntries t base).handMessages t

/-- SXT_ENTRIES_HANDOVER: the Sextant's stage work of the tick. After the deadline the messages are deferred one frame, and the entries go
to the next map computed (R30). (DEDUCED, log entry 108) -/
def execSxtEntriesHandover (tree base cycle : Nat) (s : State) := live s fun s =>
  let t := tree % 32
  if !s.active Ty.SXT t || s.tm.free then s else
  let s := (s.termsOf t).foldl (fun s n => s.recCheck t n) s
  let s := if !s.isActive then s else if s.inTime Ty.SXT t cycle then s.handover t base else s.handEntries t base
  s.complete Ty.SXT t cycle

/-- TREE_PARAMS_SEND (R144): in every frame whose tick is a multiple of 16, and where a value has changed. -/
def State.treeParams (s : State) (t : Nat) : State :=
  if !s.active Ty.SXT t || s.tm.free || !s.isActive then s else
  let pend := (s.tm.named.filter fun a => a.kind == .preamble && a.inst == t).getLast?
  let vals := [s.dOf t, s.fld Reg.TRX_PREAMBLE_CFG_CUR t, s.fld Reg.TRX_PREAMBLE_CFG_DISC t, (pend.map (·.idx)).getD 0,
    (pend.map (·.t)).getD 0, s.fld Reg.SXT_CNT_CFG_CNT_PERIOD t, s.kaPar Reg.PKA_HE_SNI_SNI]
  if (s.nextM) % 16 != 0 && !(s.sx t).params && (s.sx t).sentParams == vals then s else
  let v (i : Nat) : Nat := vals.getD i 0
  let s := s.setSx t { s.sx t with params := false, sentParams := vals }
  s.treeMsg t 0x11 destAll (toBE 1 (v 0) ++ toBE 1 (v 1) ++ toBE 1 (v 2) ++ toBE 1 (v 3) ++ toBE 6 (v 4) ++ toBE 2 (v 5) ++ toBE 3 (v 6))
def execTreeParamsSend (tree : Nat) (s : State) := live s fun s => s.treeParams (tree % 32)

/-! ## Expiries -/

/-- BCAST_DEACTIVATE_REPEAT (R144). -/
def execBcastDeactivateRepeat (tree term : Nat) (s : State) := live s fun s => s.bcastRepeat (tree % 32) (term % 512)

/-- VIOL_WINDOW_CLOSE (R154): WIN_COUNT returns to 0. -/
def execViolWindowClose (tree term : Nat) (s : State) := live s fun s =>
  let ax := termAx (tree % 32) (term % 512)
  let x := s.term ax
  match x.winCloses with
  | some c => if c ≤ s.tm.tickNo then s.setTerm ax { x with winCount := 0, winCloses := none, noticed := [], rogueIn := false } else s
  | none => s

/-- ROGUE_WINDOW_CLOSE (R156). -/
def execRogueWindowClose (tree : Nat) (s : State) := live s fun s =>
  let x := s.sx (tree % 32)
  match x.rogue with
  | some (c, _, _) => if c ≤ s.tm.tickNo then s.setSx (tree % 32) { x with rogue := none } else s
  | none => s

/-- QUAR_HOLD_EXPIRY (R139): AUTO_RELEASE after QUAR_HOLD ticks without a violation. -/
def execQuarHoldExpiry (tree term : Nat) (s : State) := live s fun s =>
  let t := tree % 32
  let x := s.term (termAx t (term % 512))
  if x.st == .quarantined && s.flag Reg.SXT_CTL_AUTO_RELEASE t &&
      decide (max x.since x.lastViol + s.fld Reg.SXT_QUAR_WIN_QUAR_HOLD t ≤ s.tm.tickNo) then
    s.pend t (term % 512) .operational 0 false
  else s

/-- DEACT_HOLD_EXPIRY (R139). -/
def execDeactHoldExpiry (tree term : Nat) (s : State) := live s fun s =>
  let t := tree % 32
  let x := s.term (termAx t (term % 512))
  if x.st == .deactivated && decide (x.since + s.fld Reg.SXT_LOSS_CFG_DEACT_HOLD t ≤ s.tm.tickNo) then
    s.pend t (term % 512) .init 0 false
  else s

/-- DARK_TEST_END (R156): after 16 upstream ticks the test is over. -/
def execDarkTestEnd (tree : Nat) (s : State) := live s fun s =>
  let x := s.sx (tree % 32)
  match x.darkTest with
  | some (_, _, u) => if u + 16 ≤ s.tm.m then s.setSx (tree % 32) { x with darkTest := none } else s
  | none => s

/-- DARK_TEST_START (R156, R161): the written word; refused with LAST below FIRST, ignored while a test runs. (DEDUCED, log entry 58) -/
def State.darkStart (s : State) (t v : Nat) : State :=
  let s := s.plainWrite (Reg.SXT_DARK_TEST.at t) v
  let first := bitsOf v 0 9
  let last := bitsOf v 16 9
  if !bitOf v 31 || (s.sx t).darkTest.isSome then s
  else if last < first then s.count Reg.SXT_CFG_REJECT t
  else if !s.isActive then s
  else
    let u := s.nextM + s.fld Reg.SXT_RANGE_CFG_EQD_LEAD t
    (s.setSx t { s.sx t with darkTest := some (first, last, u) }).treeMsg t 0x1A destAll
      (toBE 2 first ++ toBE 2 last ++ toBE 6 u ++ toBE 2 16)
def execDarkTestStart (tree : Nat) (v : Word) (s : State) := live s fun s =>
  if s.present Ty.SXT (tree % 32) then s.darkStart (tree % 32) v.toNat else s

/-! ## Configuration (R161) -/

/-- REACH_CFG_WRITE. -/
def State.reachWrite (s : State) (t v : Nat) : State :=
  let lo := bitsOf v 0 10
  let hi := bitsOf v 16 10
  let l := windowLen lo hi (s.fld Reg.SXT_DISC_CFG_SLOTS t) (s.discPre t)
  if hi < lo || 600 < hi || 400 < hi - lo || 4 < spanOf l (s.fixBase t) then s.count Reg.SXT_CFG_REJECT t
  else
    let s := s.plainWrite (Reg.SXT_REACH_CFG.at t) v
    s.mirror 3 [1, Reg.SXT_REACH_CFG.at t, s.reg Reg.SXT_REACH_CFG t] []
def execReachCfgWrite (tree : Nat) (v : Word) (s : State) := live s fun s =>
  if s.present Ty.SXT (tree % 32) then s.mirrored fun s => s.reachWrite (tree % 32) v.toNat else s

/-- DISC_CFG_WRITE: a SLOTS value that needs a SPAN above 4 is ignored and counted; PERIOD is written. -/
def State.discWrite (s : State) (t v : Nat) : State :=
  let slots := clampNat 1 1024 (bitsOf v 16 11)
  let l := windowLen (s.fld Reg.SXT_REACH_CFG_MIN t) (s.fld Reg.SXT_REACH_CFG_MAX t) slots (s.discPre t)
  let big := decide (4 < spanOf l (s.fixBase t))
  let s := if big then s.count Reg.SXT_CFG_REJECT t else s
  let s := s.plainWrite (Reg.SXT_DISC_CFG.at t) (if big then bitsOf v 0 16 + s.fld Reg.SXT_DISC_CFG_SLOTS t * 2 ^ 16 else v)
  s.mirror 3 [1, Reg.SXT_DISC_CFG.at t, s.reg Reg.SXT_DISC_CFG t] []
def execDiscCfgWrite (tree : Nat) (v : Word) (s : State) := live s fun s =>
  if s.present Ty.SXT (tree % 32) then s.mirrored fun s => s.discWrite (tree % 32) v.toNat else s

/-! ## TERM_CMD (R161, R163) -/

/-- A command on a record: TERM_CMD shows its fields and STATUS, and a refusal counts. A WRITE that a standby with PAIR_EN set refuses is a
host write to a mirrored record (R468). -/
def State.termCmd (s : State) (t term op : Nat) (f : State → State × Nat) : State :=
  if !s.present Ty.SXT t then s else
  let s := s.recCheck t term
  let (s, st) := if op == 1 || s.isActive then f s
    else (if op == 2 && !s.mirrorOpen then s.count Reg.PAIR_MIRROR_WRITE_REJECT 0 else s, 2)
  let s := s.setReg Reg.SXT_TERM_CMD t (term % 512 + op * 2 ^ 16 + st * 2 ^ 24)
  if st == 0 then s else s.count Reg.SXT_CFG_REJECT t

/-- The words of a record (R161). -/
def Term.words (x : Term) : List Nat :=
  let b (y : Bool) (i : Nat) : Nat := if y then 2 ^ i else 0
  let v (i : Nat) : Nat := x.viol.getD i 0 % 256
  [x.st.code + b x.valid 3 + b x.dark 4 + b x.keyed 5 + x.reason % 16 * 2 ^ 8 + x.sni % 2 ^ 18 * 2 ^ 12, x.vendor, x.serial,
   ofSigned 26 x.eqd, ofSigned 10 (nearest x.mean) + min 255 x.winCount * 2 ^ 16 + min 255 x.darkRun * 2 ^ 24,
   v 0 + v 1 * 2 ^ 8 + v 2 * 2 ^ 16 + v 3 * 2 ^ 24, v 4 + v 5 * 2 ^ 8 + v 6 * 2 ^ 16, ofSigned 24 (nearest x.stby)]

/-- TERM_READ. -/
def execTermRead (tree term : Nat) (s : State) := live s fun s => s.termCmd (tree % 32) (term % 512) 1 fun s =>
  let w := (s.term (termAx (tree % 32) (term % 512))).words
  ((List.range 8).foldl (fun s i => s.setRegI Reg.SXT_TERM_DATA (tree % 32) i (w.getD i 0)) s, 0)

/-- TERM_WRITE: the binding from TERM_DATA[0..2]. -/
def State.bind (s : State) (t term : Nat) : State × Nat :=
  let ax := termAx t term
  let x := s.term ax
  let w0 := s.regI Reg.SXT_TERM_DATA t 0
  let v := s.regI Reg.SXT_TERM_DATA t 1
  let n := s.regI Reg.SXT_TERM_DATA t 2
  if !(x.st == .init || x.st == .deactivated) then (s, 1)
  else if bitOf w0 3 && (s.termsOf t).any fun k => k != term && (s.term (termAx t k)).valid &&
      (s.term (termAx t k)).vendor == v && (s.term (termAx t k)).serial == n then (s, 4)
  else (s.putTerm ax { x with valid := bitOf w0 3, sni := bitsOf w0 12 18, vendor := v, serial := n }, 0)
def execTermWrite (tree term : Nat) (s : State) := live s fun s => s.termCmd (tree % 32) (term % 512) 2 fun s =>
  s.bind (tree % 32) (term % 512)

/-- TERM_DEACTIVATE. -/
def execTermDeactivate (tree term : Nat) (s : State) := live s fun s => s.termCmd (tree % 32) (term % 512) 3 fun s =>
  if (s.term (termAx (tree % 32) (term % 512))).st.bound then (s.pend (tree % 32) (term % 512) .deactivated 1 false, 0) else (s, 1)

/-- TERM_DEACTIVATE_DARK: on a VALID record in INIT the broadcast form, and DARK in the record. -/
def State.deactDark (s : State) (t term : Nat) : State × Nat :=
  let ax := termAx t term
  let x := s.term ax
  if x.st.bound then (s.pend t term .deactivated 1 true, 0)
  else if x.st == .init && x.valid then
    (s.putTerm ax { x with dark := true, bcast := some (s.fld Reg.SXT_ACT_CFG_RETRY_MAX t + 1, 1, true, s.tm.tickNo) }, 0)
  else (s, 1)
def execTermDeactivateDark (tree term : Nat) (s : State) := live s fun s => s.termCmd (tree % 32) (term % 512) 4 fun s =>
  s.deactDark (tree % 32) (term % 512)

/-- TERM_QUARANTINE. -/
def execTermQuarantine (tree term : Nat) (s : State) := live s fun s => s.termCmd (tree % 32) (term % 512) 5 fun s =>
  if (s.term (termAx (tree % 32) (term % 512))).st == .operational then (s.pend (tree % 32) (term % 512) .quarantined 0 false, 0)
  else (s, 1)

/-- TERM_RELEASE. -/
def execTermRelease (tree term : Nat) (s : State) := live s fun s => s.termCmd (tree % 32) (term % 512) 6 fun s =>
  if (s.term (termAx (tree % 32) (term % 512))).st == .quarantined then (s.pend (tree % 32) (term % 512) .operational 0 false, 0)
  else (s, 1)

/-- TERM_RERANGE (R151). -/
def execTermRerange (tree term : Nat) (s : State) := live s fun s => s.termCmd (tree % 32) (term % 512) 7 fun s =>
  if (s.term (termAx (tree % 32) (term % 512))).st.tracked then (s.askRange (tree % 32) (term % 512), 0) else (s, 1)

/-- TERM_FIND: the next window is of MODE 2 for the record's SNI. -/
def execTermFind (tree term : Nat) (s : State) := live s fun s => s.termCmd (tree % 32) (term % 512) 8 fun s =>
  let x := s.term (termAx (tree % 32) (term % 512))
  if x.valid then (s.setSx (tree % 32) { s.sx (tree % 32) with find := some x.sni }, 0) else (s, 1)

/-- TERM_ENABLE: DARK clears and ENABLE is sent. -/
def execTermEnable (tree term : Nat) (s : State) := live s fun s => s.termCmd (tree % 32) (term % 512) 9 fun s =>
  let ax := termAx (tree % 32) (term % 512)
  let x := s.term ax
  ((s.putTerm ax { x with dark := false }).treeMsg (tree % 32) 0x19 destAll (toBE 4 x.vendor ++ toBE 4 x.serial), 0)

/-- TERM_CLEAR_VIOL: the violation counters and the window cleared. -/
def execTermClearViol (tree term : Nat) (s : State) := live s fun s => s.termCmd (tree % 32) (term % 512) 10 fun s =>
  let ax := termAx (tree % 32) (term % 512)
  (s.setTerm ax { s.term ax with viol := [0, 0, 0, 0, 0, 0, 0], winCount := 0, winCloses := none, noticed := [], rogueIn := false, lastRogue := none }, 0)

/-- The parts of ALLOC_ASSIGN for a terminal's allocations: ten entries each, the last marked (R144). -/
def allocParts (t term : Nat) : Nat → Nat → List (Nat × OAlloc) → State → State
  | 0, _, _, s => s
  | k + 1, part, l, s =>
    let ent (q : Nat × OAlloc) : Bytes := toBE 2 (2 ^ 15 + q.1 % 1024) ++ toBE 1 q.2.type ++ [0]
    let last := l.length ≤ 10
    let s := s.termMsg t term 0x16 (toBE 1 part ++ [if last then 1 else 0] ++ ((l.take 10).map ent).flatten)
    if last then s else allocParts t term k (part + 1) (l.drop 10) s

/-- Send ALLOC_ASSIGN for a terminal. -/
def State.allocPush (s : State) (t term : Nat) : State :=
  let l := (s.ort t).allocs.filter fun q => q.2.valid && q.2.term == term
  allocParts t term 104 0 l (s.setTerm (termAx t term) { s.term (termAx t term) with allocAcked := false })

/-- ALLOC_ASSIGN is held for a terminal in AUTHENTICATING until its broadcast GROUP_KEY has been acknowledged, which sends it (R173). (DEDUCED, log entry 65) -/
def State.allocHeld (s : State) (t term : Nat) : Bool :=
  let ax := termAx t term
  let x := s.term ax
  let wait (m : CtlMsg) : Bool := m.type == 0x49
  x.st == .authenticating && (!x.keyed || (s.kt ax).sess.isSome || x.queue.any wait || x.out.any fun o => wait o.msg)

/-- TERM_ALLOC_PUSH. -/
def execTermAllocPush (tree term : Nat) (s : State) := live s fun s => s.termCmd (tree % 32) (term % 512) 11 fun s =>
  if (s.term (termAx (tree % 32) (term % 512))).st.tracked then
    (if s.allocHeld (tree % 32) (term % 512) then s else s.allocPush (tree % 32) (term % 512), 0) else (s, 1)

/-- TERM_COUNTER_REQ. -/
def execTermCounterReq (tree term : Nat) (s : State) := live s fun s => s.termCmd (tree % 32) (term % 512) 12 fun s =>
  if (s.term (termAx (tree % 32) (term % 512))).st.bound then (s.treeMsg (tree % 32) 0x1B (term % 512) [], 0) else (s, 1)

/-! ## Role (R159) -/

/-- EQD_SHIFT_SEND: on becoming active, DELTA = −(PAIR_SKEW + the mean STBY_OFFSET of the OPERATIONAL terminals), added to
every record's EQD. -/
def State.eqdShift (s : State) (t : Nat) : State :=
  if !s.active Ty.SXT t then s else
  let ops := (s.termsOf t).filter fun n => (s.term (termAx t n)).st == .operational
  let sum := ops.foldl (fun (a : Int) n => a + (s.term (termAx t n)).stby) 0
  let mean := if ops.isEmpty then 0 else nearest (sum / (ops.length : Int))
  let delta := -(toSigned 24 (s.fld Reg.SXT_PAIR_SKEW_SKEW t) + mean)
  let s := if delta = 0 then s else
    (List.range 512).foldl (fun s n => s.setTerm (termAx t n) { s.term (termAx t n) with eqd := (s.term (termAx t n)).eqd + delta }) s
  let s := s.setSx t { s.sx t with graceTo := s.nextM + s.dOf t + 3 }
  s.treeMsg t 0x14 destAll (toBE 4 (ofSigned 32 delta) ++ toBE 6 0)

/-- The effects of SXT error sources (R163): LO the terminal. -/
def State.sxtErr (s : State) (d : Det) : State :=
  if d.forced then s else
  match d.src with
  | 2 | 3 => s.recErr d.inst (d.capLo % 512)
  | _ => s

end Sys2Proof.Machine
end

