-- ==== Sys2Proof/Machine/Trx.lean ====
section
/-! DEFINITION. TAL upstream bursts (R72 to R109): expected bursts, the burst header, reports, unit delineation and hunting,
reassembly, replay windows, profiles in use, rogue light. -/

namespace Sys2Proof.Machine

/-! ## Expected bursts (R74, R78, R95) -/

/-- A burst a map expects: terminal, first block, blocks, the allocations granted in it, and whether it is a KIND 1 burst. -/
structure ExpB where
  term : Nat
  start : Nat
  len : Nat
  allocs : List Nat
  kind1 : Bool
  deriving DecidableEq, Repr

/-- The terminal an entry grants. -/
def UMap.termOf (x : UMap) (e : GEnt) : Option Nat :=
  match e.kind with
  | 0 => (x.owners.find? fun o => o.1 == e.id).map (·.2)
  | 1 => some (e.id % 512)
  | _ => none

/-- The bursts of a map (R74): adjoining grants of one terminal form one; one too short for a codeword is not expected. -/
def UMap.bursts (x : UMap) : List ExpB :=
  let go := x.ents.foldl (fun (l : List ExpB) e =>
    match x.termOf e with
    | none => l
    | some t =>
      let al := if e.kind == 0 then [e.id] else []
      match l.find? fun b => b.term == t && b.start + b.len == e.start with
      | some b => (l.erase b) ++ [{ b with len := b.len + e.len, allocs := b.allocs ++ al, kind1 := b.kind1 && e.kind == 1 }]
      | none => l ++ [⟨t, e.start, e.len, al, e.kind == 1⟩]) []
  go.filter fun b => (layout b.len x.pre).1 != 0

/-- The blocks of discovery windows in a map. -/
def UMap.windows (x : UMap) : List GEnt := x.ents.filter fun e => e.kind == 2

/-- Whether the receiver judges frames (R107): RX_EN, a valid count. -/
def State.rxOn (s : State) (t : Nat) : Bool := s.on Reg.TRX_CTL_RX_EN t && !s.tm.free

/-- The map of upstream tick u, once the frame has begun. -/
def State.mapAt (s : State) (t u : Nat) : Option UMap := if s.tm.m < u then none else (s.rx t).maps.find? fun x => x.utick == u

/-! ## Information bytes (R78 to R82) -/

/-- All information bytes, bad codewords as zeros; the numbers of the bad codewords; the bits corrected. -/
def burstInfo (code : Bytes) (k info : Nat) (allBad : Bool) : Bytes × List Nat × Nat :=
  let n (i : Nat) : Nat := if i + 1 == k then info - 1824 * (k - 1) else 1824
  let cws := (List.range k).map fun i => if allBad then none else cwAt code i (n i)
  ((cws.mapIdx fun i c => (c.map (·.1)).getD (List.replicate (n i) 0)).flatten,
    (cws.mapIdx fun i c => (i, c.isNone)).filterMap fun (i, b) => if b then some i else none,
    cws.foldl (fun a c => a + (c.map (·.2)).getD 0) 0)

/-- Descramble information bytes from 16 on (R80). -/
def descramble (term u : Nat) (off : Bool) (d : Bytes) : Bytes :=
  if off then d else d.take 16 ++ xorB (d.drop 16) (scrBytes ((0x200 + term) * 2 ^ 48 + u % 2 ^ 48) (d.length - 16))

/-- BURST_HEADER_CHECK (R98). -/
def hdrValid (d : Bytes) (term t u pm : Nat) : Bool :=
  beAt d 12 4 == crc32c (sliceB d 0 12) && beAt d 0 2 == term * 128 + t * 4 && beAt d 2 6 == u &&
  beAt d 8 1 / 128 == pm % 2 && beAt d 8 1 / 64 % 2 == 0 && beAt d 8 1 % 32 == 0 && beAt d 10 2 == 0

/-! ## Reports (R99) -/

/-- REPORT_CHECK of the reports of a live burst: a report whose check fits names its ALLOC, accepted or not (log entry 98); accepted ones go to the Orrery; a report of an allocation deleted since the
map was made is discarded without count (R134). -/
def State.reportsOf (s : State) (t u : Nat) (x : UMap) (e : ExpB) (rng : Bool) (d : Bytes) : State :=
  let n := beAt d 9 1
  if 16 < n then (s.count Reg.TRX_RPT_REJECT t).judged rng t e.term 6 u 0 else
  (((List.range n).foldl (fun (acc : State × List Nat) i =>
    let (s, seen) := acc
    let r := sliceB d (16 + 8 * i) 8
    let al := beAt r 0 2 % 1024
    let occ := beAt r 2 3
    let a := s.alloc t al
    let mine := a.valid && a.term == e.term
    let gone := !mine && x.owners.contains (al, e.term)
    let fits := beAt r 6 2 == crc16 (r.take 6)
    if !fits || seen.contains al || (!mine && !gone) || (mine && a.type != 0 && decide (a.rptLim < occ)) then
      ((s.count Reg.TRX_RPT_REJECT t).judged rng t e.term 6 u 0, if fits then al :: seen else seen)
    else if gone then (s, al :: seen)
    else (if s.isActive then s.holdReport t al occ u else s, al :: seen)) (s, []))).1

/-! ## Units (R84 to R88, R100 to R103) -/

/-- A unit header's fields (R49): LENGTH, FLOW, KP, LF, FIRST. -/
structure UHdr where
  len : Nat
  flow : Nat
  kp : Nat
  lf : Bool
  first : Bool

/-- What a header is for a terminal's burst. -/
inductive UKind where
  | traffic | gone | circuit | control | idle
  deriving DecidableEq

/-- The kind of a FLOW of a terminal: none where it is reserved or belongs to another terminal. -/
def State.flowKind (s : State) (t term : Nat) (x : UMap) (flow : Nat) : Option UKind :=
  if flow < 1024 then
    let a := s.alloc t flow
    if a.valid && a.term == term then some .traffic
    else if x.owners.contains (flow, term) then some .gone else none
  else if flow == 0x1FFFC then some .circuit
  else if flow == 0x1FFFE then some .control
  else if flow == 0x1FFFF then some .idle
  else none

/-- The header at byte p, where it does not fail (R100). -/
def State.unitAt (s : State) (t term : Nat) (x : UMap) (d : Bytes) (p : Nat) : Option (UHdr × UKind) :=
  let h := sliceB d p 8
  let v := beAt h 0 6
  let u : UHdr := ⟨bitsOf v 34 14, bitsOf v 17 17, bitsOf v 16 1, bitOf v 15, bitOf v 14⟩
  if d.length < p + 8 + u.len || beAt h 6 2 != crc16 (h.take 6) || v % 2 ^ 13 != 0 then none
  else (s.flowKind t term x u.flow).map fun k => (u, k)

/-- Whether bytes p to p + n − 1 lie in decoded codewords. -/
def cleanAt (bad : List Nat) (p n : Nat) : Bool := !(bad.any fun i => decide (p < 1824 * (i + 1)) && decide (1824 * i < p + n))

/-- A hunting candidate at p (R100). -/
def State.candidate (s : State) (t term : Nat) (x : UMap) (d : Bytes) (bad : List Nat) (p : Nat) : Option UHdr :=
  if !cleanAt bad p 8 then none else
  match s.unitAt t term x d p with
  | some (h, k) =>
    if h.first || (k == .traffic && ((s.rx t).reasm.find h.flow).isSome) then some h else none
  | none => none

/-- UNIT_HUNT (R100): the first confirmed candidate from byte p on. -/
def State.hunt (s : State) (t term : Nat) (x : UMap) (d : Bytes) (bad : List Nat) : Nat → Nat → Option Nat
  | 0, _ => none
  | k + 1, p =>
    if d.length < p + 8 then none else
    match s.candidate t term x d bad p with
    | some h =>
      if (s.candidate t term x d bad (p + 8 + h.len)).isSome || decide (d.length ≤ p + 8 + h.len + 7) then some p
      else s.hunt t term x d bad k (p + 1)
    | none => s.hunt t term x d bad k (p + 1)

/-- Discard an allocation's unit in progress (R103). -/
def State.dropUnit (s : State) (t al : Nat) : State :=
  (s.setRx t { s.rx t with reasm := (s.rx t).reasm.erase al }).count Reg.TRX_US_FRAG_LOST t

/-- The replay window of an AX and IV tick. -/
def State.replayOf (s : State) (t ax tick : Nat) : Replay :=
  ((s.rx t).replay.find? fun w => w.ax == ax && w.tick == tick).getD ⟨ax, tick, 0, 0⟩

/-- REPLAY_CHECK (R102): the window after an accepted SEQ, or none. -/
def Replay.accept (w : Replay) (seq : Nat) : Option Replay :=
  if seq == 0 then none
  else if w.hi < seq then some { w with hi := seq, mask := (w.mask * 2 ^ (min 256 (seq - w.hi)) + 1) % 2 ^ 256 }
  else if w.hi - seq < 256 && !bitOf w.mask (w.hi - seq) then some { w with mask := setBitOf w.mask (w.hi - seq) true }
  else none

/-- Whether TRX accepts a unit's KP at the tick of its first fragment (R88). -/
def State.kpOk (s : State) (ax tick kp : Nat) : Bool :=
  let a := s.assoc ax
  a.st == .invalid || a.either tick || kp == a.curAt s.tick tick

/-- A frame from a terminal on its way to the forwarder (R101, R252). -/
def State.usPkt (s : State) (t ax al : Nat) (d : Bytes) : Pkt :=
  { data := d, src := 64 + ax, dst := 0, hp := t / 4, domain := 0, cls := 0, yellow := false, ptp := false, eapol := false
    tick := s.tm.m, born := s.now, tA := (s.dom 0).t, tB := (s.dom 1).t
    el := (s.dom (s.fld Reg.AST_TC_CFG_TC_DOMAIN 0)).el, flow := al, inj := none }

/-- Decrypt a complete unit that is hot: its frame goes on to the forwarder, or its tag fails. -/
def State.upRun (s : State) (t ax al tick kp pm : Nat) (pay : Bytes) : State :=
  let i := 2 * (t / 8)
  match s.verdict ax tick (some kp) with
  | .ok p =>
    match s.cipherInv i ax with
    | some s => s
    | none =>
    let key := match (s.assoc ax).pos p with
      | some k => k.key
      | none => []
    let seq := beAt pay 0 2
    let ulen := beAt pay 2 2
    let n := pay.length - 20
    let iv := tickIv tick seq ax t 1 pm kp
    let s := s.runItem i ax p .dec iv (unitAad seq ulen al kp) (sliceB pay 4 n) false none
    let r := if pay.length < 20 || ulen != n then none else
      Config.gcmDec key iv (unitAad seq ulen al kp) (sliceB pay 4 n) (sliceB pay (4 + n) 16)
    match r with
    | some d => s.toFwd (s.usPkt t ax al d)
    | none => s.count Reg.CIPH_TAG_FAIL i
  | v => s.countVerdict i v

/-- A complete traffic unit (R101, R102): KP and SEQ checked, then decrypted, or held for its key. -/
def State.unitDone (s : State) (t term al : Nat) (r : Reasm) : State :=
  let ax := termAx t term
  let i := 2 * (t / 8)
  if s.inv Ty.TRX t 1 then s.raise Ty.TRX t 4 al 0 else
  if !s.kpOk ax r.tick r.kp then s.count Reg.TRX_US_KP_REJECT t else
  match (s.replayOf t ax r.tick).accept (beAt r.payload 0 2) with
  | none => s.count Reg.TRX_US_SEQ_REJECT t
  | some w =>
    let rest := (s.rx t).replay.filter fun v => !(v.ax == ax && v.tick == r.tick)
    let s := s.setRx t { s.rx t with replay := rest ++ [w] }
    match s.verdict ax r.tick (some r.kp) with
    | .ok _ => if s.missing i ax then s.hold i ax r.payload.length (.up t ax al r.tick r.kp r.pm r.payload)
      else s.upRun t ax al r.tick r.kp r.pm r.payload
    | v => s.countVerdict i v

/-- A traffic fragment (R103). `u` is the burst's tick. -/
def State.fragment (s : State) (t term u pm : Nat) (h : UHdr) (pay : Bytes) : State :=
  let old := (s.rx t).reasm.find h.flow
  let s := if s.inv Ty.TRX t 0 && old.isSome then (s.raiseInv Ty.TRX t 3 h.flow 0).dropUnit t h.flow else s
  let old := (s.rx t).reasm.find h.flow
  let put (s : State) (r : Reasm) : State :=
    if h.lf then (s.setRx t { s.rx t with reasm := (s.rx t).reasm.erase h.flow }).unitDone t term h.flow r
    else s.setRx t { s.rx t with reasm := (s.rx t).reasm.insert h.flow r }
  if h.first then put (if old.isSome then s.dropUnit t h.flow else s) ⟨u, h.kp, pm, pay⟩
  else
    match old with
    | none => s.count Reg.TRX_US_FRAG_LOST t
    | some r =>
      if r.kp != h.kp || decide (r.tick + 8 < u) then s.dropUnit t h.flow
      else put s { r with payload := r.payload ++ pay }

/-- The upstream slots a terminal owns in the TSI page in effect at tick u (R86, R323), in increasing order. -/
def State.usSlots (s : State) (t term u : Nat) : List Nat :=
  let page := s.tsiPageAt u
  let l := s.tsi.conns.filterMap fun (k, c) =>
    if k / 2 ^ 18 == page && c.valid && c.src / 2 ^ 14 * 2 ^ 14 == talEnd t 0 && c.srcOwner == term &&
      !s.tsi.badPar.contains k then some (c.src % 2 ^ 14) else none
  l.eraseDups.mergeSort fun a b => decide (a ≤ b)

/-- A circuit unit whose key is hot (R86, R101): its bytes, after the keystream, wait for the interchange. -/
def State.circuitRun (s : State) (t ax u kp pm : Nat) (slots : List Nat) (pay : Bytes) : State :=
  let i := 2 * (t / 8)
  match s.verdict ax u (some kp) with
  | .ok p =>
    match s.cipherInv i ax with
    | some s => s
    | none =>
    let key := match (s.assoc ax).pos p with
      | some k => k.key
      | none => []
    let iv := tickIv u 0 ax t 1 pm kp
    let d := xorB pay (Config.ctrStream key iv pay.length)
    let s := s.runItem i ax p .ctr iv [] pay true none
    let up := (s.tsi.up.get [] t).filter fun e => decide (u ≤ e.1 + 4)
    { s with tsi := { s.tsi with up := s.tsi.up.set [] t (up ++ (slots.zip d).map fun (k, b) => (u, k, b.toNat)) } }
  | v => s.countVerdict i v

/-- A circuit unit received (R86, R101, R106): checked, then run, or held for its key (R201). -/
def State.circuitUnit (s : State) (t term u pm : Nat) (h : UHdr) (pay : Bytes) : State :=
  let ax := termAx t term
  let i := 2 * (t / 8)
  let slots := s.usSlots t term u
  let s := s.setRx t { s.rx t with cktSeen := (term, u) :: (s.rx t).cktSeen.filter fun q => decide (u ≤ q.2 + 4) }
  if pay.length != slots.length || slots.isEmpty then s.count Reg.TRX_CKT_UNIT_BAD t
  else if !s.kpOk ax u h.kp then s.count Reg.TRX_US_KP_REJECT t else
  match s.verdict ax u (some h.kp) with
  | .ok _ =>
    if s.missing i ax then s.hold i ax pay.length (.ckt t ax u h.kp pm slots pay) else s.circuitRun t ax u h.kp pm slots pay
  | v => s.countVerdict i v

/-- The terminals of a tree that own upstream slots at tick u, and from which no circuit unit of that tick has come: each is counted, and
its slots stay without a byte (R106). -/
def State.circuitsMissing (s : State) (t u : Nat) : State :=
  if !s.rxOn t || !s.isActive then s else
  let page := s.tsiPageAt u
  let owners := (s.tsi.conns.filterMap fun (k, c) =>
    if k / 2 ^ 18 == page && c.valid && c.src / 2 ^ 14 * 2 ^ 14 == talEnd t 0 && !s.tsi.badPar.contains k then some c.srcOwner else none).eraseDups
  s.countN Reg.TRX_CKT_UNIT_BAD t (owners.countP fun o => !(s.rx t).cktSeen.contains (o, u))

/-- Where the chain goes on after a codeword that could not be corrected: the first byte of the next decoded codeword after
byte p. -/
def nextClean (bad : List Nat) (k p : Nat) : Nat :=
  let i := p / 1824
  let from_ := (List.range (k + 1)).find? fun j => decide (i < j) && !bad.contains j && (bad.contains (j - 1))
  1824 * from_.getD k

/-- What a burst's delineation knows: tree, terminal, upstream tick, PM, first block, map, information bytes, codewords, bad
ones, whether header failures are violations, and whether units are handed on. -/
structure DelCtx where
  t : Nat
  term : Nat
  u : Nat
  pm : Nat
  sblk : Nat
  map : UMap
  d : Bytes
  k : Nat
  bad : List Nat
  kind1 : Bool
  judge : Bool
  give : Bool

/-- Hand on one delineated unit (R101); the parity of its data words is checked (R109: a traffic unit's once it is whole); n control units came before it in the burst. -/
def State.giveUnit (s : State) (c : DelCtx) (p n : Nat) (h : UHdr) (kind : UKind) : State :=
  let pay := sliceB c.d (p + 8) h.len
  if !c.give then s else
  if (kind == .circuit || kind == .control) && s.inv Ty.TRX c.t 1 then s.raise Ty.TRX c.t 4 h.flow 0 else
  match kind with
  | .traffic => s.fragment c.t c.term c.u c.pm h pay
  | .gone => s.count Reg.TRX_US_FRAG_LOST c.t
  | .circuit => s.circuitUnit c.t c.term c.u c.pm h pay
  | .control =>
    s.setSx c.t { s.sx c.t with inbox := (s.sx c.t).inbox ++ [⟨c.term, c.u, c.sblk, p, if c.kind1 then some n else none, !c.judge, pay⟩] }
  | .idle => s

/-- UNIT_DELINEATE (R100): follow the chain from byte p; `n` counts the burst's control units, `circ` whether its circuit unit
has come. -/
def State.delineate (c : DelCtx) : Nat → Nat → Nat → State → State
  | 0, _, _, s => s
  | fuel + 1, p, n, s =>
    if c.d.length < p + 8 then s else
    let resume (s : State) (from_ : Nat) : State :=
      match s.hunt c.t c.term c.map c.d c.bad (c.d.length) from_ with
      | some q => State.delineate c fuel q n ((s.count Reg.TRX_UNIT_RESYNC c.t).countN Reg.TRX_UNIT_HUNT_BYTES c.t (q - from_))
      | none => s.countN Reg.TRX_UNIT_HUNT_BYTES c.t (c.d.length - from_)
    if !cleanAt c.bad p 8 then resume s (nextClean c.bad c.k p)
    else
      match s.unitAt c.t c.term c.map c.d p with
      | none =>
        let s := s.count Reg.TRX_UNIT_HCHK c.t
        let s := if c.judge then s.violation c.t c.term 3 c.u 0 else s
        resume s (p + 1)
      | some (h, kind) =>
        if !cleanAt c.bad (p + 8) h.len then
          let s := if kind == .traffic && c.give then s.dropUnit c.t h.flow else s
          resume s (nextClean c.bad c.k (p + 7))
        else
          State.delineate c fuel (p + 8 + h.len) (if kind == .control then n + 1 else n) (s.giveUnit c p n h kind)

/-! ## TRX_BURST_RECEIVE -/

/-- PROFILE_UPDATE and PROFILE_DRIFT (R92, R93) after a live burst. -/
def State.profUpdate (s : State) (t term u : Nat) (b : Burst) : State :=
  let p := s.prof t term
  if !p.valid || !s.flag Reg.TRX_CTL_PROF_UPD t then s else
  let p := p.update b.amp b.thr b.phase
  let s := s.setProf t term p
  let w := s.regI Reg.TRX_DRIFT_MAP t (term / 32)
  if s.profDrifts t p && !bitOf w (term % 32) then
    let s := s.setRegI Reg.TRX_DRIFT_MAP t (term / 32) (setBitOf w (term % 32) true)
    (s.count Reg.TRX_PROFILE_DRIFT_EVENTS t).sxtEvent t 0x16 term u 0 0 []
  else s

/-- Whether an expected burst is the terminal's ranging burst (R150). -/
def State.isRanging (s : State) (t u : Nat) (e : ExpB) : Bool :=
  e.kind1 && (s.term (termAx t e.term)).ranging == some u && s.isActive

/-- A burst whose delimiter was found at offset o (R96 to R100). With codeword 0 clean and the header not valid the hunt starts behind the
header. (DESIGN CHOICE, log entry 95) -/
def State.burstFound (s : State) (t u : Nat) (x : UMap) (e : ExpB) (b : Burst) (o : Int) : State :=
  let rng := s.isRanging t u e
  let (k, _, info) := layout e.len x.pre
  let s := s.setReg Reg.TRX_LAST_OFFSET t (ofSigned 10 o + e.term % 512 * 2 ^ 16)
  let s := if s.fld Reg.TRX_DELIM_CFG_OFFSET_LIM t < o.natAbs then s.count Reg.TRX_OFFSET_HIGH t else s
  let chk := s.inv Ty.TRX t 2
  let s := if chk then (List.range k).foldl (fun s i => s.raise Ty.TRX t 5 i 0) s else s
  let (raw, bad, corr) := burstInfo (codeOf b o) k info chk
  let s := (s.countN64 Reg.TRX_CW_DECODED_LO t k).countN Reg.TRX_CW_UNCORR t bad.length
  let s := s.countN64 Reg.TRX_CW_CORR_BITS_LO t corr
  let d := descramble e.term u (s.flag Reg.TRX_CTL_SCR_OFF t) raw
  let clean := !bad.contains 0
  let ok := clean && hdrValid d e.term t u x.pm
  let s := if clean && !ok then s.count Reg.TRX_BHDR_BAD t else s
  let s := if clean && !ok && !rng then s.violation t e.term 3 u 0 else s
  let ax := termAx t e.term
  let s := if ok then s.count64 Reg.TRX_BURSTS_OK_LO t else s
  let dying := ok && beAt d 8 1 / 32 % 2 == 1
  let s := if ok then s.setTerm ax { s.term ax with dying := dying } else s
  let s := if dying then s.sxtEvent t 0x15 e.term u 0 0 [] else s
  let s := if ok then s.profUpdate t e.term u b else s
  let s := if rng then
      s.setTerm ax { s.term ax with rangeRes := some (u, some o, profWord b.amp b.thr b.phase true), darkRun := 0 }
    else s.offsetOf t e.term u o ok
  let s := if ok then s.reportsOf t u x e rng d else s
  let start := if ok then 16 + 8 * beAt d 9 1 else if clean then 16 else 1824
  let c : DelCtx := ⟨t, e.term, u, x.pm, e.start, x, d, k, bad, e.kind1, !rng, s.isActive⟩
  if ok then State.delineate c d.length start 0 s
  else
    let from_ := if clean then 16 else nextClean bad k 0
    match s.hunt t e.term x d bad d.length from_ with
    | some q => State.delineate c d.length q 0 ((s.count Reg.TRX_UNIT_RESYNC t).countN Reg.TRX_UNIT_HUNT_BYTES t (q - from_))
    | none => s.countN Reg.TRX_UNIT_HUNT_BYTES t (d.length - from_)

/-- The burst expected at a first block of upstream frame u is received, once. -/
def State.burst (s : State) (t u start : Nat) (b : Burst) : State :=
  if !s.rxOn t then s else
  match s.mapAt t u with
  | none => s
  | some x =>
    match x.bursts.find? fun e => e.start == start && !x.got.contains start with
    | none => s
    | some e =>
      let ax := termAx t e.term
      let s := if s.inv Ty.TRX t 0 then
          (s.raiseInv Ty.TRX t 2 e.term 0).setProf t e.term { s.prof t e.term with valid := false } else s
      let s := s.setRx t { s.rx t with
        maps := (s.rx t).maps.map fun y => if y.utick == u then { y with got := start :: y.got } else y
        loaded := s.profFor t e.term }
      let s := s.recCheck t e.term
      let rng := s.isRanging t u e
      let long := decide (s.fld Reg.TRX_LEN_CFG_GUARD_LIGHT_LIM t < b.guard) || decide (s.fld Reg.TRX_LEN_CFG_EARLY_END_LIM t < b.early)
      let s := if b.light && long then (s.count Reg.TRX_LEN_WRONG t).judged rng t e.term 2 u 0 else s
      let found := if b.light then delimFind b (s.fld Reg.TRX_DELIM_CFG_WINDOW t) (s.fld Reg.TRX_DELIM_CFG_ERR_MAX t) else none
      match found with
      | some o => s.burstFound t u x e b o
      | none =>
        let s := s.count (if b.light then Reg.TRX_DELIM_MISS else Reg.TRX_NO_LIGHT) t
        let s := if rng then s.setTerm ax { s.term ax with rangeRes := some (u, none, 0) } else s
        if !b.light then s.darkBurst t e.term u
        else if rng then s.setTerm ax { s.term ax with darkRun := 0 }
        else s.missLit t e.term u
def execTrxBurstReceive (tree utick start : Nat) (b : Burst) (s : State) := live s fun s => s.burst (tree % 32) utick start b

/-! ## ROGUE_LIGHT (R97, R156) -/

/-- The blocks of a lit run that no expected burst and no discovery window covers, as runs. -/
def rogueRuns (cover : List (Nat × Nat)) (first last : Nat) : List (Nat × Nat) :=
  cover.foldl (fun r q => cutRuns q.1 q.2 r) [(first, last + 1)]

/-- A run of lit blocks of upstream frame u. Its blocks outside every burst and window count; light that goes on without a
break from a burst into the blocks after its grant is that terminal's. (DEDUCED, log entry 58) -/
def State.rogueLight (s : State) (t u first last : Nat) : State :=
  if !s.rxOn t || !s.on Reg.TRX_CTL_ROGUE_EN t then s else
  match s.mapAt t u with
  | none => s
  | some x =>
    let last := min last (usBlocks - 1)
    let bs := x.bursts
    let cover := bs.map (fun b => (b.start, b.start + b.len)) ++ x.windows.map fun e => (e.start, e.start + e.len)
    let near := s.fld Reg.SXT_ROGUE_CFG_ROGUE_NEAR t
    (rogueRuns cover first last).foldl (fun s (a, z) =>
      let who := (bs.find? fun b => decide (first < b.start + b.len) && decide (b.start + b.len ≤ a) &&
        decide (a < b.start + b.len + near) && a == b.start + b.len).map (·.term)
      (s.countN Reg.TRX_ROGUE_BLOCKS t (z - a)).rogue t u a who) s

/-- The runs of lit blocks (R97: light for more than 32 of a block's 128 bits), as first and last block, from the bits with light in
each block from n on; `open_` is the first block of the run that block n may continue. -/
def litRuns : Nat → Option Nat → List Nat → List (Nat × Nat)
  | n, some a, [] => [(a, n - 1)]
  | _, none, [] => []
  | n, open_, b :: l =>
    if 32 < b then litRuns (n + 1) (some (open_.getD n)) l
    else match open_ with
      | some a => (a, n - 1) :: litRuns (n + 1) none l
      | none => litRuns (n + 1) none l

/-- ROGUE_LIGHT: how many bits of each block from `first` on had light. -/
def execRogueLight (tree utick first : Nat) (lit : List Nat) (s : State) := live s fun s =>
  (litRuns first none lit).foldl (fun s (a, z) => s.rogueLight (tree % 32) utick a z) s

/-! ## Expiries and settings -/

/-- REASSEMBLY_EXPIRY (R103): units whose first fragment's tick plus 8 has passed are discarded. -/
def execReassemblyExpiry (tree : Nat) (s : State) := live s fun s =>
  let t := tree % 32
  ((s.rx t).reasm.filterMap fun (k, r) => if r.tick + 8 < s.tm.m then some k else none).foldl (fun s k => s.dropUnit t k) s

/-- REPLAY_WINDOW_RETIRE (R102). -/
def execReplayWindowRetire (tree : Nat) (s : State) := live s fun s =>
  let t := tree % 32
  s.setRx t { s.rx t with replay := (s.rx t).replay.filter fun w => decide (s.tm.m ≤ w.tick + 8) }

/-- Name the preamble change of a tree: BITS at PREAMBLE_AT, in place of one that pends (R27, R107). -/
def State.preambleArm (s : State) (t : Nat) : State :=
  let bits := s.fld Reg.TRX_PREAMBLE_CFG_BITS t
  let pends := s.tm.named.any fun a => a.kind == .preamble && a.inst == t
  let s := s.setSx t { s.sx t with params := true }
  if !pends && bits == s.fld Reg.TRX_PREAMBLE_CFG_CUR t then s
  else
    let named := s.tm.named.filter fun a => !(a.kind == .preamble && a.inst == t)
    { s with tm := { s.tm with named := named } }.name .preamble t bits (s.reg64 Reg.TRX_PREAMBLE_AT_LO t % 2 ^ 48)

/-- PREAMBLE_CFG_WRITE: a write of PREAMBLE_CFG (`at` false) or of the 48 bits of PREAMBLE_AT. -/
def execPreambleCfgWrite (tree : Nat) (at_ : Bool) (v : Nat) (s : State) := live s fun s =>
  let t := tree % 32
  if !s.present Ty.TRX t then s else
  s.mirrored fun s =>
  let s := if at_ then s.setReg64 Reg.TRX_PREAMBLE_AT_LO t (v % 2 ^ 48) else s.plainWrite (Reg.TRX_PREAMBLE_CFG.at t) (v % 2 ^ 32)
  let s := s.mirror 3 [2, t, s.reg Reg.TRX_PREAMBLE_CFG t, s.reg64 Reg.TRX_PREAMBLE_AT_LO t] []
  s.preambleArm t

/-- The TREE_BRST pulses of an upstream frame (R89): one before each burst expected and one before each discovery window, as the first bit
time from B(u) and the width. -/
def State.pulsesOf (s : State) (t : Nat) (x : UMap) : List (Int × Nat) :=
  let at_ (b : Nat) : Int × Nat := (((b * 128 : Nat) : Int) - 256 + (s.fld Reg.TRX_BRST_CFG_START t : Nat), s.fld Reg.TRX_BRST_CFG_WIDTH t)
  let opens := x.windows.filter fun _ => (s.sx t).windows.all fun w => !(decide (w.utick < x.utick) && decide (x.utick < w.utick + w.span))
  (x.bursts.map fun e => at_ e.start) ++ opens.map fun e => at_ e.start

/-- The level of TREE_BRST[t] a number of bit times from B(u): asserted in a pulse while the receiver is enabled, held by FORCE, and high
where asserted unless POL is 1 (R89, R107). -/
def State.brstPin (s : State) (t : Nat) (x : Int) : Bool :=
  let on := !s.halted && (s.flag Reg.TRX_BRST_CFG_FORCE t ||
    s.rxOn t && (s.rx t).brst.any fun p => decide (p.1 ≤ x) && decide (x < p.1 + p.2))
  on != s.flag Reg.TRX_BRST_CFG_POL t

/-- The boundary in every receiver (R89, R105, R106, R107): the map of the frame that begins is judged with the preamble length in effect and
gives the TREE_BRST pulses; a frame with no map is counted; reports that no computation has taken go over. -/
def State.trxBoundary (s : State) : State :=
  (List.range 32).foldl (fun s t =>
    let s := if (s.ort t).reps.isEmpty then s else s.handReports t (s.tm.m - 1)
    if !s.rxOn t then s else
    match s.mapAt t s.tm.m with
    | none => (s.setRx t { s.rx t with brst := [] }).count Reg.TRX_MAP_MISSING t
    | some x =>
      let x := { x with pre := s.fld Reg.TRX_PREAMBLE_CFG_CUR t * 16 }
      s.setRx t { s.rx t with maps := (s.rx t).maps.map fun y => if y.utick == x.utick then x else y, brst := s.pulsesOf t x }) s

/-- The effects of TRX error sources (R106, R109): LO the terminal or the allocation. -/
def State.trxErr (s : State) (d : Det) : State :=
  if d.forced then s else
  match d.src with
  | 2 => s.setProf d.inst (d.capLo % 512) { s.prof d.inst (d.capLo % 512) with valid := false }
  | 3 => if ((s.rx d.inst).reasm.find d.capLo).isSome then s.dropUnit d.inst d.capLo else s
  | 4 => s.setRx d.inst { s.rx d.inst with reasm := (s.rx d.inst).reasm.erase d.capLo }
  | _ => s

end Sys2Proof.Machine
end

