-- ==== Sys2Proof/Machine/Ka.lean ====
section
/-! DEFINITION. The key agent of the PKA block (R164 to R190, R226 to R228): sessions and their objects, certificates,
transcripts and derivations, the keys of generation 0, key switches at a named tick, group keys, re-agreement, failures,
time of day, the table loads and the driver's commands, and what an ACK or its absence brings. -/

namespace Sys2Proof.Machine


/-! ## The device identity (R481) -/

/-- The code of a life-cycle state (R479). -/
def Life.code : Life → Nat
  | .blank => 0
  | .factory => 1
  | .field => 2
  | .ret => 3
  | .scrap => 4
  | .invalid => 15

/-- The DIV of the current life-cycle state. -/
def State.div (s : State) : Nat := (s.lcs.otp.div.get none s.lcs.life.code).getD 0

/-- The private scalar of a label under the root (R481), none without a root or outside the states with an identity. -/
def State.rootScalar (s : State) (label : String) : Option Bytes :=
  let l := s.lcs.life.code
  match s.lcs.root with
  | some r =>
    if 1 ≤ l && l ≤ 3 then
      let k := Config.hkdfExtract (ascii "BV3232 identity") r
      some (Config.p384Scalar (Config.hkdfExpand k (ascii label ++ toBE 1 l ++ toBE 4 s.div) 56))
    else none
  | none => none

/-- The identity private key. -/
def State.idKey (s : State) : Option Bytes := s.rootScalar "BV3232 identity"

/-- A signature by the identity key: zeros where the device has none. ECDSA draws a fresh number. -/
def State.idSign (s : State) (msg : Bytes) : Bytes × State :=
  match s.idKey with
  | some k => (Config.p384Sign k msg s.fresh, { s with fresh := s.fresh + 1 })
  | none => (List.replicate 96 0, s)

/-- The check of a signature or encapsulation just made (R228): ERR_INV_CHECK bit 1 makes one fail, which discards the operation. -/
def State.signCheck (s : State) : State × Bool :=
  if s.inv Ty.PKA 0 1 then ((s.invDone Ty.PKA 0 1).raise Ty.PKA 0 3 0 0, false) else (s, true)

/-! ## Records, messages and mirror -/

/-- Post a key-agent record (R186): numbers little-endian (R12), FP the first bytes of a fingerprint as they stand. -/
def State.kaEvent (s : State) (code ax fail session fp : Nat) : State :=
  if !s.on Reg.PKA_EVT_CFG_EN 0 then s else
  let item := toBE 1 code ++ toBE 1 (ax / 512) ++ toLE 2 (ax % 512) ++ toLE 6 s.tick ++ toBE 1 fail ++ toBE 1 session ++ toBE 4 fp
  let (s, ok) := s.postEvent (s.fld Reg.PKA_EVT_CFG_RING 0) Ty.PKA 0 item
  if ok then s else s.count Reg.PKA_KA_EVT_DROP 0

/-- Mirror a group's state. -/
def State.kgMirror (s : State) (gax : Nat) : State :=
  let g := s.kg gax
  let sw : List Nat := match g.sw with
    | some (t, q) => [1, t, q]
    | none => [0, 0, 0]
  s.mirror 5 ([1, gax, g.lastSw] ++ sw) []

/-- Store a terminal's record of the key agent and mirror it. -/
def State.putKt (s : State) (ax : Nat) (x : KaTerm) : State := (s.setKt ax x).kaMirror ax

/-- Stage the next waiting messages of a terminal while SEG_MAX allows (R169): statuses first, then segments in order of
object and segment, these once KX_START has gone (R173). `fuel` bounds the loop. -/
def State.kaFlush (s : State) (ax : Nat) : Nat → State
  | 0 => s
  | fuel + 1 =>
    let x := s.kt ax
    if s.segMax ax ≤ x.sentN then s else
    match x.sendQ with
    | (ty, body) :: rest =>
      ((s.treeMsg (ax / 512) ty (ax % 512) body).setKt ax { x with sendQ := rest, sentN := x.sentN + 1 }).kaFlush ax fuel
    | [] =>
      match x.sess with
      | none => s
      | some e =>
        match e.tx.find? fun p => e.started && !p.2.todo.isEmpty && !p.2.done with
        | none => s
        | some (obj, o) =>
          let seg := o.todo.headD 0
          let body := toBE 1 obj ++ toBE 1 e.session ++ toBE 2 seg ++ toBE 2 o.data.length ++ [0, 0] ++ sliceB o.data (40 * seg) 40
          let e := { e with tx := e.tx.insert obj { o with todo := o.todo.drop 1, since := s.tm.tickNo } }
          ((s.treeMsg (ax / 512) 0x41 (ax % 512) body).setKt ax { x with sess := some e, sentN := x.sentN + 1 }).kaFlush ax fuel

/-- Queue a key-agent message without MSG_SEQ. -/
def State.kaSend (s : State) (ax ty : Nat) (body : Bytes) : State :=
  (s.setKt ax { s.kt ax with sendQ := (s.kt ax).sendQ ++ [(ty, body)] }).kaFlush ax 33

/-- Queue a key-agent message with MSG_SEQ. What a frame takes of a terminal's key-agent messages is bounded as it is staged (R169). -/
def State.kaSeq (s : State) (ax ty : Nat) (rest : Bytes) : State :=
  s.termMsg (ax / 512) (ax % 512) ty rest

/-- Sessions open. -/
def State.sessions (s : State) : Nat := s.ka.terms.countP fun p => p.2.sess.isSome

/-! ## Blocking (R182) -/

/-- The members of a group association: keyed terminals that are OPERATIONAL or QUARANTINED and joined to it; of a tree's broadcast
association those in AUTHENTICATING too. -/
def State.groupMembers (s : State) (gax : Nat) : List Nat :=
  let ok (ax : Nat) : Bool := (s.term ax).keyed && ((s.term ax).st == .operational || (s.term ax).st == .quarantined)
  match axRange gax with
  | .broadcast t => s.terms.filterMap fun (ax, x) =>
    if ax / 512 == t && (ok ax || (x.keyed && x.st == .authenticating)) then some ax else none
  | .group g => s.alm.members.filterMap fun (h, ax) => if h == g && ok ax then some ax else none
  | _ => []

/-- A group rekey that includes the terminal is pending, not yet past T + 5. -/
def State.groupPends (s : State) (ax : Nat) : Bool :=
  s.ka.groups.any fun (gax, g) => g.sw.isSome && (s.groupMembers gax).contains ax

/-- No key switch, group rekey or re-agreement may start for a terminal (R182). -/
def State.kaBusy (s : State) (ax : Nat) : Bool :=
  let x := s.kt ax
  x.sw.isSome || (s.assoc ax).sw.isSome || x.sess.isSome || s.groupPends ax

/-! ## Derivations (R174, R175) -/

/-- CTX(g). -/
def ctxOf (m : Tms) (ax g : Nat) : Bytes :=
  toBE 1 (ax / 512) ++ toBE 2 (ax % 512) ++ toBE 3 m.tSni ++ toBE 3 m.heSni ++ toBE 4 g

/-- AK(g), MK(g) and WK(g), as a key position. -/
def genKey (m : Tms) (ax g : Nat) : KPos :=
  let d (l : String) : Bytes := Config.hkdfExpand m.key (ascii l ++ ctxOf m ax g) 32
  freshKey (d "TAL1 association") (d "TAL1 management") (d "TAL1 wrap") true g

/-- An object's bytes once complete. -/
def RxObj.bytes (o : RxObj) : Bytes :=
  (((List.range (ceilDiv o.total 40)).map fun i => o.segs.get [] i).flatten).take o.total

/-- An object is complete. -/
def RxObj.complete (o : RxObj) : Bool := decide (o.segs.length = ceilDiv o.total 40)

/-- An object entered in a transcript: TOTAL, then its bytes. -/
def tObj (b : Bytes) : Bytes := toBE 2 b.length ++ b

/-- The bytes of a sent object. -/
def Sess.txBytes (e : Sess) (obj : Nat) : Bytes := match e.tx.find obj with
  | some o => o.data
  | none => []

/-- The bytes of a received object. -/
def Sess.rxBytes (e : Sess) (obj : Nat) : Bytes := match e.rx.find obj with
  | some o => o.bytes
  | none => []

/-- A received object is complete. -/
def Sess.rxDone (e : Sess) (obj : Nat) : Bool := match e.rx.find obj with
  | some o => o.complete
  | none => false

/-- TH1 (R174). -/
def State.th1 (s : State) (ax : Nat) (e : Sess) : Bytes :=
  let x := s.term ax
  Config.sha384 (ascii "TAL1 kx" ++ toBE 1 e.mode ++ toBE 1 e.session ++ toBE 1 (ax / 512) ++ toBE 2 (ax % 512) ++
    toBE 4 x.vendor ++ toBE 4 x.serial ++ toBE 3 x.sni ++ toBE 3 e.heSni ++ e.nonce ++
    tObj (e.txBytes 1) ++ tObj (e.txBytes 2) ++ tObj (e.rxBytes 4) ++ tObj (e.rxBytes 5))

/-! ## Certificates (R171) -/

/-- The certificates of a chain object: 2-byte lengths and DER, each at most 1,536 bytes, ending exactly at TOTAL. -/
def chainSplit : Nat → Bytes → Option (List Bytes)
  | _, [] => some []
  | 0, _ => none
  | n + 1, b =>
    let l := beAt b 0 2
    if b.length < 2 + l || decide (1536 < l) || l == 0 then none else
    match chainSplit n (b.drop (2 + l)) with
    | some r => some (sliceB b 2 l :: r)
    | none => none

/-- The form and algorithm checks: 1 to 3 X.509 v3 certificates with ecdsa-with-SHA384 signatures and P-384 keys. -/
def chainParse (b : Bytes) : Option (List (Bytes × Config.Cert)) :=
  match chainSplit 3 b with
  | some [] => none
  | some l => l.mapM fun d => (Config.certOf d).map fun c => (d, c)
  | none => none

/-- The upper-case hexadecimal digits of a 32-bit number. -/
def hex8 (v : Nat) : Bytes := (List.range 8).map fun i =>
  let d := v / 16 ^ (7 - i) % 16
  BitVec.ofNat 8 (if d < 10 then 48 + d else 55 + d)

/-- Each certificate verifies under the key of the next. -/
def linksOk : List Config.Cert → Bool
  | c :: d :: r => Config.p384Verify d.pub c.tbs c.sig && linksOk (d :: r)
  | _ => true

/-- UTC of the active domain in seconds, with a session's UTC_OFFSET (R171). -/
def State.utc (s : State) (off : Int) : Int := ((s.dom s.tm.active).t / secU : Nat) - off

/-- The checks of R171 on a terminal chain, in the table's order: 0, or the failure code. The validity check is skipped,
and the skip counted, without a valid domain. -/
def State.chainCheck (s : State) (ax : Nat) (e : Sess) : State × Nat :=
  match chainParse (e.rxBytes 5) with
  | none => (s, 0x02)
  | some l =>
    let cs := l.map (·.2)
    let x := s.term ax
    let utc := s.utc e.utcOff
    let check := e.timeCheck
    let lastOk := match cs.getLast? with
      | some c => e.anchors.any fun a => Config.p384Verify a c.tbs c.sig
      | none => false
    let leafOk := match cs.head? with
      | some c => c.digSig && c.serials == [hex8 x.vendor ++ hex8 x.serial]
      | none => false
    if !linksOk cs then (s, 0x03)
    else if !lastOk then (s, 0x04)
    else
      let s := if check && !s.netValid then s.count Reg.PKA_KA_TIME_SKIP 0 else s
      if check && s.netValid && cs.any fun c => decide (utc < c.notBefore) || decide (c.notAfter < utc) then (s, 0x05)
      else if l.any fun p => e.deny.contains (Config.sha384 p.1) then (s, 0x06)
      else if !leafOk || (cs.drop 1).any (fun c => !c.ca) || cs.any (·.badCrit) then (s, 0x07)
      else (s, 0)

/-! ## Failures (R185) -/

/-- A record is deactivated by the key agent: at the next boundary; its DEACTIVATE goes in a later frame where a KX_ABORT
precedes it. (DEDUCED, log entry 64) -/
def State.kaDeact (s : State) (ax reason : Nat) (later : Bool) : State :=
  let s := if later && (s.term ax).st.bound then s.setKt ax { s.kt ax with deactLate := some reason } else s
  s.pend (ax / 512) (ax % 512) .deactivated reason false

/-- A key failure outside a session: KEY_FAIL, its record, DEACTIVATED with reason KEY. -/
def State.keyFail (s : State) (ax : Nat) : State :=
  if !(s.term ax).st.bound || (match (s.term ax).pend with
    | some (.deactivated, _, _) => true
    | _ => false) then s else
  ((s.count Reg.PKA_KEY_FAIL 0).kaEvent 0x34 ax 0 0 0).kaDeact ax 7 false

/-- A session that ends without its agreement takes the master secret it had formed with it (R176). (DEDUCED, log entry 64) -/
def KaTerm.noSess (x : KaTerm) : KaTerm :=
  let formed : Bool := match x.sess with
    | some e => e.mode == 2 && e.verified
    | none => false
  { x with sess := none, sendQ := [], nextTms := if formed then none else x.nextTms }

/-- A session ends with a failure code: KX_ABORT where the head-end ends it, then the answer of R185. (DEDUCED, log entry 64) -/
def State.kaFail (s : State) (ax code obj : Nat) (abort : Bool) : State :=
  let x := s.kt ax
  match x.sess with
  | none => s
  | some e =>
    let s := if abort then s.treeMsg (ax / 512) 0x44 (ax % 512) (toBE 1 e.session ++ toBE 1 code ++ toBE 1 obj) else s
    let x := x.noSess
    let s := if e.verified then s.putKt ax x else s
    let again (wait : Nat) (n : Nat) (s : State) : State :=
      ((s.setKt ax { x with restarts := n, waitAt := some (s.tm.tickNo + wait), reDue := x.reDue || e.mode == 2 }).count Reg.PKA_KX_RETRIED 0).kaEvent 0x31 ax code e.session e.fp
    let final (c : Nat) (s : State) : State :=
      (((s.setKt ax { x with restarts := 0, waitAt := none }).count Reg.PKA_KX_FAILED 0).kaEvent 0x30 ax c e.session e.fp).kaDeact ax 5 abort
    let giveUp (s : State) : State :=
      ((s.setKt ax { x with restarts := 0, waitAt := none
                            retryAt := some (s.tm.tickNo + s.kaPar Reg.PKA_REAGREE_RETRY_TICKS) }).count Reg.PKA_KX_FAILED 0).kaEvent 0x35 ax code e.session e.fp
    if e.mode == 1 then
      if code == 0x0C then again e.objWait x.restarts s
      else if code == 0x01 then
        if x.restarts < e.kxRetry then again 0 (x.restarts + 1) s else final 0x08 s
      else final code s
    else if code == 0x01 || code == 0x0C then
      if x.restarts < e.kxRetry then again (if code == 0x0C then e.objWait else 0) (x.restarts + 1) s else giveUp s
    else if 0x02 ≤ code && code ≤ 0x09 then final code s
    else giveUp s

/-! ## Sessions (R173) -/

/-- A record waits for a MODE 1 session. -/
def State.kaWaits (s : State) (ax : Nat) : Bool :=
  match (s.kt ax).waitAt with
  | some t => decide (t ≤ s.tm.tickNo) && (s.term ax).st == .authenticating && (s.kt ax).sess.isNone
  | none => false

/-- A re-agreement is due and may start. -/
def State.kaReady2 (s : State) (ax : Nat) : Bool :=
  let x := s.kt ax
  x.reDue && (s.term ax).keyed && !s.kaBusy ax && (s.term ax).st.bound && (match x.waitAt with
    | some t => decide (t ≤ s.tm.tickNo)
    | none => true)

/-- The conditions under which a session opens (R173), free ticking and the role apart (R189, R190). -/
def State.kaMay (s : State) : Bool :=
  s.active Ty.PKA 0 && s.kaPar Reg.PKA_KA_CTL_KA_EN == 1 && decide (s.sessions < s.kaPar Reg.PKA_SESSION_CFG_SESSION_MAX) && !s.ka.chain.isEmpty &&
    s.ka.drbgOk && !s.tm.free && s.isActive

/-- An object with every segment to send. -/
def txNew (data : Bytes) (now : Nat) : TxObj :=
  { data := data, sendings := 1, todo := List.range (ceilDiv data.length 40), since := now, done := false }

/-- Open a session in a mode: KX_START, then the objects (R173). (DEDUCED, log entry 64) -/
def State.kaOpen (s : State) (ax mode : Nat) : State :=
  let x := s.kt ax
  let (nonce, s) := s.drawBytes 32
  let (ec, s) := s.drawBytes 48
  let (kem, s) := s.drawBytes 64
  let n := x.lastSess % 255 + 1
  let share := Config.p384Pub ec ++ Config.kemPub kem
  let sni := s.kaPar Reg.PKA_HE_SNI_SNI
  let e : Sess :=
    { mode := mode, session := n, opened := s.tm.tickNo, objWait := s.kaPar Reg.PKA_WAIT_CFG_OBJ_WAIT
      kxRetry := s.kaPar Reg.PKA_WAIT_CFG_KX_RETRY, segMax := s.kaPar Reg.PKA_SESSION_CFG_SEG_MAX
      limit := s.kaPar Reg.PKA_SESSION_LIMIT_TICKS, timeCheck := s.kaPar Reg.PKA_KA_CTL_TIME_CHECK == 1
      utcOff := toSigned 16 (s.kaPar Reg.PKA_TIME_CFG_UTC_OFFSET), heSni := sni, anchors := s.ka.anchors, deny := s.ka.deny
      chain := s.ka.chain, nonce := nonce, ec := ec, kem := kem
      tx := [(1, txNew (sliceB share 0 1665) s.tm.tickNo), (2, txNew s.ka.chain s.tm.tickNo)], rx := []
      started := false, verified := false, fp := 0 }
  let s := s.setKt ax { x with sess := some e, lastSess := n, waitAt := none, sendQ := [], reDue := x.reDue && mode != 2 }
  let s := s.kaSeq ax 0x40 (toBE 1 n ++ toBE 1 mode ++ [1, 0] ++ toBE 2 s.ka.chain.length ++ toBE 2 1665 ++ sliceB nonce 0 32 ++ toBE 3 sni)
  (s.sendNext (ax / 512) (ax % 512)).kaFlush ax 33

/-- KX_SESSION_OPEN: of a terminal whose record waits (MODE 1) or whose re-agreement is due (MODE 2). A terminal without
ML-KEM fails with NO_KEM and opens none (R185). -/
def State.kaSession (s : State) (ax : Nat) : State :=
  if s.kaWaits ax && s.kaMay then
    if (s.term ax).noKem then
      (((s.setKt ax { s.kt ax with waitAt := none }).count Reg.PKA_KX_FAILED 0).kaEvent 0x30 ax 0x0A 0 0).kaDeact ax 5 false
    else s.kaOpen ax 1
  else if s.kaReady2 ax && s.kaMay then s.kaOpen ax 2
  else s
def execKxSessionOpen (tree term : Nat) (s : State) := live s fun s => s.kaSession (termAx (tree % 32) (term % 512))

/-- The session a key-agent message of a terminal belongs to: open, of that number, in a state that fits; else KX_STRAY
(R173). -/
def State.kaSess (s : State) (ax session : Nat) : Option Sess :=
  match (s.kt ax).sess with
  | some e =>
    if e.session == session && (if e.mode == 1 then (s.term ax).st == .authenticating else (s.term ax).keyed) then some e else none
  | none => none

/-- A KX_STATUS of the head-end's. -/
def State.kaStatus (s : State) (ax obj session st : Nat) (missing : Bytes) : State :=
  s.kaSend ax 0x42 (toBE 1 obj ++ toBE 1 session ++ toBE 1 st ++ [0] ++ sliceB missing 0 16)

/-- The bytes of MISSING: bit 7 of the first is segment 0. -/
def missingOf (o : RxObj) : Bytes :=
  packBits ((List.range 128).map fun i => decide (i < ceilDiv o.total 40) && (o.segs.find i).isNone)

/-- TOTAL within the lengths of R168 for an object the terminal sends. -/
def totalOk (obj total : Nat) : Bool :=
  match obj with
  | 4 => total == 1697
  | 5 => decide (1 ≤ total) && decide (total ≤ 3072)
  | 6 => total == 144
  | _ => false

/-- KX_SEG_RECEIVE (R169, R170): the oldest good KX_SEG. -/
def State.segReceive (s : State) (t : Nat) : State :=
  match s.takeGood t 0x41 with
  | (s, none) => s
  | (s, some c) =>
    let ax := termAx t c.term
    let b := msgBody c.msg
    let obj := beAt b 0 1
    let seg := beAt b 2 2
    let total := beAt b 4 2
    let stray (s : State) : State := s.count Reg.PKA_KX_STRAY 0
    match s.kaSess ax (beAt b 1 1) with
    | none => stray s
    | some e =>
      if obj < 4 || 6 < obj then stray s else
      match e.rx.find obj with
      | none =>
        if !totalOk obj total then (s.kaStatus ax obj e.session 2 []).kaFail ax 0x02 obj true
        else if ceilDiv total 40 ≤ seg then stray s
        else
          let o : RxObj := { total := total, segs := [(seg, sliceB b 8 40)], since := s.tm.tickNo, refused := false }
          let s := s.setKt ax { s.kt ax with sess := some { e with rx := e.rx.insert obj o } }
          if o.complete then s.kaStatus ax obj e.session 0 [] else s
      | some o =>
        if total != o.total || ceilDiv o.total 40 ≤ seg then stray s
        else if o.complete then s.kaStatus ax obj e.session 0 []
        else
          let o := { o with segs := if (o.segs.find seg).isSome then o.segs else o.segs.insert seg (sliceB b 8 40), since := s.tm.tickNo }
          let s := s.setKt ax { s.kt ax with sess := some { e with rx := e.rx.insert obj o } }
          if o.complete then s.kaStatus ax obj e.session 0 [] else s
def execKxSegReceive (tree : Nat) (s : State) := live s fun s => s.segReceive (tree % 32)

/-- Send segments of an object again; after four sendings the session fails with TRANSFER (R170). -/
def State.resend (s : State) (ax obj : Nat) (e : Sess) (o : TxObj) (todo : List Nat) : State :=
  if 4 ≤ o.sendings then s.kaFail ax 0x01 obj true else
  let o := { o with sendings := o.sendings + 1, todo := todo, since := s.tm.tickNo }
  (s.setKt ax { s.kt ax with sess := some { e with tx := e.tx.insert obj o } }).kaFlush ax 33

/-- KX_STATUS_RECEIVE (R170): the oldest good KX_STATUS. -/
def State.statusReceive (s : State) (t : Nat) : State :=
  match s.takeGood t 0x42 with
  | (s, none) => s
  | (s, some c) =>
    let ax := termAx t c.term
    let b := msgBody c.msg
    let obj := beAt b 0 1
    match s.kaSess ax (beAt b 1 1) with
    | none => s.count Reg.PKA_KX_STRAY 0
    | some e =>
      match e.tx.find obj with
      | none => s.count Reg.PKA_KX_STRAY 0
      | some o =>
        match beAt b 2 1 with
        | 0 => s.setKt ax { s.kt ax with sess := some { e with tx := e.tx.insert obj { o with done := true, todo := [] } } }
        | 1 =>
          if o.done then s else
          let miss := (sliceB b 4 16).map byteBits
          s.resend ax obj e o ((List.range (ceilDiv o.data.length 40)).filter fun i => miss.flatten.getD i false)
        | 2 => s.kaFail ax 0x02 obj true
        | _ => s.count Reg.PKA_KX_STRAY 0
def execKxStatusReceive (tree : Nat) (s : State) := live s fun s => s.statusReceive (tree % 32)

/-- KX_ABORT_RECEIVE (R185): a failure of the terminal's code. -/
def State.abortReceive (s : State) (t : Nat) : State :=
  match s.takeGood t 0x44 with
  | (s, none) => s
  | (s, some c) =>
    let ax := termAx t c.term
    let b := msgBody c.msg
    match s.kaSess ax (beAt b 0 1) with
    | none => s.count Reg.PKA_KX_STRAY 0
    | some _ => s.kaFail ax (beAt b 1 1) (beAt b 2 1) false
def execKxAbortReceive (tree : Nat) (s : State) := live s fun s => s.abortReceive (tree % 32)

/-- OBJ_WAIT_EXPIRY (R170): a status of an incomplete object every OBJ_WAIT ticks; a whole object again where no STATE 0 has
come 2 × OBJ_WAIT ticks after its last segment. -/
def State.objWait (s : State) (ax obj : Nat) : State :=
  if !s.isActive then s else
  match (s.kt ax).sess with
  | none => s
  | some e =>
    match e.rx.find obj, e.tx.find obj with
    | some o, _ =>
      if o.complete || decide (s.tm.tickNo < o.since + e.objWait) then s else
      let s := s.setKt ax { s.kt ax with sess := some { e with rx := e.rx.insert obj { o with since := s.tm.tickNo } } }
      s.kaStatus ax obj e.session 1 (missingOf o)
    | none, some o =>
      if o.done || !o.todo.isEmpty || decide (s.tm.tickNo < o.since + 2 * e.objWait) then s
      else s.resend ax obj e o (List.range (ceilDiv o.data.length 40))
    | none, none => s
def execObjWaitExpiry (tree term obj : Nat) (s : State) := live s fun s => s.objWait (termAx (tree % 32) (term % 512)) obj

/-- KX_DONE_STAGE (R173, R176, R211): the master secret is formed, generation 0 is placed (MODE 1: in phase 0 as current;
MODE 2: in the opposite phase as next), HE_PROOF and KX_DONE are staged, and a tree's first agreement generates its
broadcast key. -/
def State.kxDone (s : State) (ax : Nat) (e : Sess) (prk th1 : Bytes) : State :=
  let th2 := Config.sha384 (th1 ++ e.rxBytes 6)
  let tms : Tms := { key := Config.hkdfExpand prk (ascii "TAL1 master" ++ th2) 48, heSni := e.heSni, tSni := (s.term ax).sni, born := s.tm.m }
  let ckHe := Config.hkdfExpand prk (ascii "TAL1 confirm head-end" ++ th1) 48
  let (sig, s) := s.idSign (ascii "TAL1 head-end proof" ++ th2)
  let proof := sliceB sig 0 96 ++ sliceB (Config.hmac384 ckHe th2) 0 48
  let phase := if e.mode == 1 then 0 else 1 - (s.assoc ax).cur
  let (s, st) := s.install ax phase (genKey tms ax 0) s.usageCfg
  if st != 0 then s.keyFail ax else
  let gax := 16384 + ax / 512
  let s := if (s.assoc gax).st == .invalid then
      let (k, s) := s.drawBytes 32
      let (s, st) := s.install gax 0 (freshKey k [] [] true 0) s.usageCfg
      if st == 0 then (s.setKg gax { s.kg gax with lastSw := s.tm.m }).kgMirror gax else s
    else s
  let e := { e with verified := true, ec := [], kem := [], tx := e.tx.insert 3 (txNew proof s.tm.tickNo) }
  let x := s.kt ax
  let s := s.putKt ax (if e.mode == 1 then { x with sess := some e, tms := some tms, kgen := 0 } else { x with sess := some e, nextTms := some tms })
  (s.kaFlush ax 33).kaSeq ax 0x43 (toBE 1 e.session ++ toBE 1 phase)

/-- KX_VERIFY_DONE (R171, R173 to R175): with T_SHARE, T_CHAIN and T_PROOF complete. -/
def State.kxVerify (s : State) (ax : Nat) : State :=
  match (s.kt ax).sess with
  | none => s
  | some e =>
    if e.verified || !s.isActive || s.tm.free || !(e.rxDone 4 && e.rxDone 5 && e.rxDone 6) then s else
    let (s, code) := s.chainCheck ax e
    let leaf := (chainParse (e.rxBytes 5)).bind (·.head?)
    let fp := match leaf with
      | some (der, _) => beAt (Config.sha384 der) 0 4
      | none => 0
    let e := { e with fp := fp }
    let s := s.setKt ax { s.kt ax with sess := some e }
    if code != 0 then s.kaFail ax code 5 true else
    let share := e.rxBytes 4
    let qT := sliceB share 32 97
    if !Config.p384OnCurve qT then s.kaFail ax 0x02 4 true else
    let prk := Config.hkdfExtract (e.nonce ++ sliceB share 0 32) (Config.p384Dh e.ec qT ++ Config.kemDec e.kem (sliceB share 129 1568))
    let th1 := s.th1 ax e
    let proof := e.rxBytes 6
    let pub := match leaf with
      | some (_, c) => c.pub
      | none => []
    let ckT := Config.hkdfExpand prk (ascii "TAL1 confirm terminal" ++ th1) 48
    if !Config.p384Verify pub (ascii "TAL1 terminal proof" ++ th1) (sliceB proof 0 96) then s.kaFail ax 0x08 6 true
    else if Config.hmac384 ckT th1 != sliceB proof 96 48 then s.kaFail ax 0x09 6 true
    else if s.inv Ty.PKA 0 1 then ((s.invDone Ty.PKA 0 1).raise Ty.PKA 0 3 ax 0).kaFail ax 0x08 0 true
    else s.kxDone ax e prk th1
def execKxVerifyDone (tree term : Nat) (s : State) := live s fun s => s.kxVerify (termAx (tree % 32) (term % 512))

/-- SESSION_LIMIT_EXPIRY (R184): a re-agreement that exceeds SESSION_LIMIT. -/
def execSessionLimitExpiry (tree term : Nat) (s : State) := live s fun s =>
  let ax := termAx (tree % 32) (term % 512)
  match (s.kt ax).sess with
  | some e => if e.mode == 2 && decide (e.opened + e.limit < s.tm.tickNo) then s.kaFail ax 0x0B 0 true else s
  | none => s

/-- AUTH_TIMEOUT passes with no session open (R185, R190): KX_ABORT with the number of the last session, the failure, DEACTIVATED. -/
def State.kaExpire (s : State) (ax : Nat) : State :=
  let n := (s.kt ax).lastSess
  let s := s.treeMsg (ax / 512) 0x44 (ax % 512) (toBE 1 n ++ toBE 1 0x0B ++ toBE 1 0)
  ((((s.setKt ax { s.kt ax with waitAt := none }).count Reg.PKA_KX_FAILED 0).kaEvent 0x30 ax 0x0B n 0).kaDeact ax 5 true)

/-- AUTH_TIMEOUT_EXPIRY (R139, R185): KX_ABORT with code TIMEOUT, then DEACTIVATED, reason AUTH. (DEDUCED, log entry 64) -/
def execAuthTimeoutExpiry (tree term : Nat) (s : State) := live s fun s =>
  let ax := termAx (tree % 32) (term % 512)
  let x := s.term ax
  if x.st == .authenticating && s.isActive && x.pend.isNone &&
      decide (x.since + 8 * s.fld Reg.SXT_BUDGET_CFG_AUTH_TIMEOUT (tree % 32) ≤ s.tm.tickNo) then
    if (s.kt ax).sess.isSome then s.kaFail ax 0x0B 0 true else s.kaExpire ax
  else s

/-! ## Key switches and re-agreement (R180 to R184) -/

/-- A unicast switch falls due; where KGEN would pass its end, a re-agreement does instead. -/
def State.switchDue (s : State) (ax : Nat) : State :=
  let x := s.kt ax
  if x.kgen == 0xFFFFFFFF && x.nextTms.isNone then s.setKt ax { x with reDue := true }
  else if x.dueAt.isNone then s.setKt ax { x with dueAt := some s.tm.m } else s

/-- REKEY_DUE (R183). -/
def execRekeyDue (tree term : Nat) (s : State) := live s fun s =>
  let ax := termAx (tree % 32) (term % 512)
  let x := s.kt ax
  if s.tm.free || !s.isActive || x.tms.isNone || !(s.term ax).keyed || !(s.term ax).st.bound ||
      decide (s.tm.m < x.lastSw + s.kaPar Reg.PKA_REKEY_TICKS_TICKS) then s
  else s.switchDue ax

/-- The due switch to start next: the earliest due of those that R182 lets start. (DEDUCED, log entry 65) -/
def State.nextSwitch (s : State) : Option Nat :=
  let l := s.ka.terms.filterMap fun (ax, x) => match x.dueAt with
    | some d => if (s.term ax).keyed && (s.term ax).st.bound && !s.kaBusy ax then some (d, ax) else none
    | none => none
  (l.foldl (fun (b : Option (Nat × Nat)) p => match b with
    | some q => if p.1 < q.1 then some p else some q
    | none => some p) none).map (·.2)

/-- Start a key switch (R180): the new generation is placed in the next position and KEY_SWITCH queued; T is the TICK of the
frame that carries it plus SWITCH_LEAD. -/
def State.switchStart1 (s : State) (ax : Nat) : State :=
  let x := s.kt ax
  let a := s.assoc ax
  let q := 1 - a.cur
  let mk := (s.mkOf ax s.tm.m false).getD []
  let send (s : State) (kgen : Nat) (nm : Bool) : State :=
    let s := s.putKt ax { s.kt ax with dueAt := none, sw := some ⟨kgen, q, nm, none, false, false, mk⟩ }
    { s with ka := { s.ka with started := s.ka.started + 1 } }.termMsg (ax / 512) (ax % 512) 0x48
      (toBE 1 q ++ [if nm then 1 else 0] ++ toBE 4 kgen ++ toBE 6 0)
  match x.nextTms, x.tms with
  | some _, _ => send s 0 true
  | none, some m =>
    let (s, st) := s.install ax q (genKey m ax (x.kgen + 1)) s.usageCfg
    if st != 0 then (s.setKt ax { s.kt ax with dueAt := none }).keyFail ax else send s (x.kgen + 1) false
  | none, none => s.setKt ax { x with dueAt := none }

/-- KEY_SWITCH_START: at most REKEY_RATE per tick. -/
def execKeySwitchStart (s : State) := live s fun s =>
  if s.tm.free || !s.isActive || decide (s.kaPar Reg.PKA_SWITCH_CFG_REKEY_RATE ≤ s.ka.started) then s else
  match s.nextSwitch with
  | some ax => s.switchStart1 ax
  | none => s

/-- The age of a terminal's master secret in ticks. -/
def State.tmsAge (s : State) (ax : Nat) : Option Nat := (s.kt ax).tms.map fun m => s.tm.m - m.born

/-- REAGREE_DUE (R184). -/
def execReagreeDue (tree term : Nat) (s : State) := live s fun s =>
  let ax := termAx (tree % 32) (term % 512)
  let x := s.kt ax
  match s.tmsAge ax with
  | some a =>
    if s.tm.free || !s.isActive || x.reDue || x.retryAt.isSome || x.nextTms.isSome || x.sess.isSome ||
        decide (a < s.kaPar Reg.PKA_REAGREE_TICKS_TICKS) then s
    else s.setKt ax { x with reDue := true }
  | none => s

/-- REAGREE_RETRY_EXPIRY (R184). -/
def execReagreeRetryExpiry (tree term : Nat) (s : State) := live s fun s =>
  let ax := termAx (tree % 32) (term % 512)
  match (s.kt ax).retryAt with
  | some t => if t ≤ s.tm.tickNo && s.isActive then s.setKt ax { s.kt ax with retryAt := none, reDue := true } else s
  | none => s

/-- A re-agreement has succeeded and its switch has still to come. -/
def KaTerm.agreed (x : KaTerm) : Bool := x.nextTms.isSome && x.sess.isNone

/-- TMS_AGE_LIMIT (R184): DEACTIVATED with reason KEY at twice REAGREE_TICKS. -/
def execTmsAgeLimit (tree term : Nat) (s : State) := live s fun s =>
  let ax := termAx (tree % 32) (term % 512)
  match s.tmsAge ax with
  | some a =>
    if s.tm.free || !s.isActive || !(s.term ax).st.bound || (s.kt ax).agreed || decide (a < 2 * s.kaPar Reg.PKA_REAGREE_TICKS_TICKS) then s
    else s.kaDeact ax 7 false
  | none => s

/-! ## Group keys (R179) -/

/-- Queue a GROUP_KEY for a member: CURRENT 1 with the group's current phase, or CURRENT 0 with the opposite one. WRAPPED and
T_DELTA are filled in with its frame. -/
def State.groupKey (s : State) (ax gax : Nat) (current : Bool) : State :=
  let g := if gax < 16416 then 0xFFFF else gax - 16416
  let cur := (s.assoc gax).cur
  let f := if current then 128 + cur else match (s.kg gax).sw with
    | some (_, q) => q
    | none => 1 - cur
  s.termMsg (ax / 512) (ax % 512) 0x49 (toBE 2 g ++ toBE 1 f ++ toBE 2 0)

/-- Deliver a group's key to a member that joins or becomes OPERATIONAL; while a rekey pends, the next key too. (DEDUCED, log entry 65) -/
def State.groupJoin (s : State) (ax gax : Nat) : State :=
  if (s.assoc gax).st == .invalid then s else
  let s := s.groupKey ax gax true
  match (s.kg gax).sw with
  | some _ => (s.groupKey ax gax false).setKg gax { s.kg gax with waiting := (s.kg gax).waiting ++ [ax] }
  | none => s

/-- A member leaves (R179): GROUP_LEAVE where it is keyed, and with LEAVE_REKEY a rekey falls due. -/
def State.groupLeave (s : State) (ax g : Nat) : State :=
  let gax := 16416 + g
  let s := if (s.term ax).keyed then s.termMsg (ax / 512) (ax % 512) 0x4A (toBE 2 g) else s
  if s.kaPar Reg.PKA_KA_CTL_LEAVE_REKEY == 1 && (s.kg gax).dueAt.isNone then s.setKg gax { s.kg gax with dueAt := some s.tm.m } else s

/-- The most members on one tree. -/
def busiest (l : List Nat) : Nat := (List.range 32).foldl (fun b t => max b (l.countP fun ax => ax / 512 == t)) 0

/-- GROUP_REKEY_START (R179): one T for every member, T = decision tick + SWITCH_LEAD + 2 × ⌈members of the busiest tree ÷
64⌉; it waits while R182 holds it for any member. -/
def State.groupRekey (s : State) (gax : Nat) : State :=
  let g := s.kg gax
  let a := s.assoc gax
  let mem := s.groupMembers gax
  let due := g.dueAt.isSome || decide (g.lastSw + s.kaPar Reg.PKA_REKEY_TICKS_TICKS ≤ s.tm.m)
  if !due || s.tm.free || !s.isActive || !s.ka.drbgOk || a.st == .invalid || g.sw.isSome || a.sw.isSome || mem.any s.kaBusy then s else
  let q := 1 - a.cur
  let t := s.tm.m + s.kaPar Reg.PKA_SWITCH_CFG_SWITCH_LEAD + 2 * ceilDiv (busiest mem) 64
  let (k, s) := s.drawBytes 32
  let kgen := match a.pos a.cur with
    | some p => p.kgen + 1
    | none => 0
  let (s, st) := s.install gax q (freshKey k [] [] true kgen) s.usageCfg
  if st != 0 then s else
  let s := (s.setKg gax { g with dueAt := none, sw := some (t, q), past := false, waiting := mem, refused := [], late := [] }).setSwitch gax q t
  mem.foldl (fun s ax => s.groupKey ax gax false) (s.kgMirror gax)
def execGroupRekeyStart (gax : Nat) (s : State) := live s fun s => if 16384 ≤ gax && gax < 20512 then s.groupRekey gax else s

/-! ## The driver's commands (R226) -/

/-- KA_CMD shows its OP and STATUS. -/
def State.kaCmd (s : State) (op : Nat) (f : State → State × Nat) : State :=
  let (s, st) := if !s.isActive then (s, 2) else f s
  s.setReg Reg.PKA_KA_CMD 0 (op + st * 2 ^ 24)

/-- The terminal in KA_ARG, and whether its tree is present and it is keyed. -/
def State.kaTarget (s : State) : Nat × Nat :=
  let t := s.fld Reg.PKA_KA_ARG_TREE 0
  let ax := termAx t (s.fld Reg.PKA_KA_ARG_TERMINAL 0)
  (ax, if !s.hasTree t then 4 else if !(s.term ax).keyed then 1 else 0)

/-- KA_REKEY. -/
def execKaRekey (s : State) := live s fun s => s.kaCmd 1 fun s =>
  if s.kaTarget.2 != 0 then (s, s.kaTarget.2) else (s.switchDue s.kaTarget.1, 0)

/-- KA_REAGREE. -/
def execKaReagree (s : State) := live s fun s => s.kaCmd 2 fun s =>
  if s.kaTarget.2 != 0 then (s, s.kaTarget.2) else (s.setKt s.kaTarget.1 { s.kt s.kaTarget.1 with reDue := true, retryAt := none }, 0)

/-- KA_GROUP_REKEY. -/
def execKaGroupRekey (s : State) := live s fun s => s.kaCmd 3 fun s =>
  let b := s.flag Reg.PKA_KA_ARG_BCAST 0
  let t := s.fld Reg.PKA_KA_ARG_TREE 0
  let gax := if b then 16384 + t else 16416 + s.fld Reg.PKA_KA_ARG_GROUP 0
  if b && !s.hasTree t then (s, 4)
  else if (s.assoc gax).st == .invalid then (s, 1)
  else (s.setKg gax { s.kg gax with dueAt := some ((s.kg gax).dueAt.getD s.tm.m) }, 0)

/-! ## The tables (R226) -/

/-- A table load: the checks in the order 1, 4, 2, 3; TABLE_DONE at the end. -/
def State.tableCmd (s : State) (op window : Nat) (lenOk : Bool) (f : State → Nat) (g : State → State) : State :=
  let off := s.reg64 Reg.PKA_TABLE_ADDR_LO 0
  let n := s.fld Reg.PKA_TABLE_LEN_BYTES 0
  let (s, st) :=
    if !lenOk then (s, 1) else
    let (s, ok) := if op == 4 then (s, true) else s.dmaRead (window % 16) off n
    if !ok then (s, 4) else (s, f s)
  let s := if st == 0 then g s else s
  (s.setReg Reg.PKA_TABLE_CMD 0 (op + window % 16 * 16 + st * 2 ^ 24)).intSet Ty.PKA 0 4

/-- A byte string cut into entries of n bytes. -/
def entriesOf (n : Nat) (d : Bytes) : List Bytes := (List.range (d.length / n)).map fun i => sliceB d (n * i) n

/-- LOAD_ANCHORS: `data` is what the read of host memory returned. The table is in effect from the next tick boundary on (R166). -/
def execLoadAnchors (window : Nat) (data : List Byte) (s : State) := live s fun s =>
  let n := s.fld Reg.PKA_TABLE_LEN_BYTES 0
  let l := entriesOf 97 (sliceB data 0 n)
  s.tableCmd 1 window (n % 97 == 0 && decide (1 ≤ n / 97) && decide (n / 97 ≤ 16))
    (fun _ => if l.all Config.p384OnCurve then 0 else 2) fun s => { s with ka := { s.ka with anchorsIn := some l } }

/-- LOAD_DENY. -/
def execLoadDeny (window : Nat) (data : List Byte) (s : State) := live s fun s =>
  let n := s.fld Reg.PKA_TABLE_LEN_BYTES 0
  s.tableCmd 2 window (n % 48 == 0 && decide (n / 48 ≤ 4096)) (fun _ => 0)
    fun s => { s with ka := { s.ka with denyIn := some (entriesOf 48 (sliceB data 0 n)) } }

/-- LOAD_CHAIN. -/
def execLoadChain (window : Nat) (data : List Byte) (s : State) := live s fun s =>
  let n := s.fld Reg.PKA_TABLE_LEN_BYTES 0
  let c := sliceB data 0 n
  s.tableCmd 3 window (decide (1 ≤ n) && decide (n ≤ 3072)) (fun _ => if (chainParse c).isSome then 0 else 3)
    fun s => { s with ka := { s.ka with chainIn := some c } }

/-- CLEAR_CHAIN. -/
def execClearChain (s : State) := live s fun s =>
  s.tableCmd 4 (s.fld Reg.PKA_TABLE_CMD_WINDOW 0) true (fun _ => 0) fun s => { s with ka := { s.ka with chainIn := some [] } }

/-! ## Time of day (R187) -/

/-- TOD_BROADCAST: for the frame that the coming staging carries, where its TICK is a multiple of TOD_PERIOD. (DEDUCED, log entry 66) -/
def execTodBroadcast (tree : Nat) (s : State) := live s fun s =>
  let t := tree % 32
  let p := s.kaPar Reg.PKA_TIME_CFG_TOD_PERIOD
  let n := s.nextM
  if p == 0 || n % p != 0 || s.tm.free || !s.isActive || !s.active Ty.SXT t || s.ka.todDone.get 0 t == n + 1 then s else
  let s := { s with ka := { s.ka with todDone := s.ka.todDone.set 0 t (n + 1) } }
  (s.treeMsg t 0x50 destAll []).count Reg.PKA_TOD_SENT 0

/-- TIME_REQ_RECEIVE: a keyed terminal's TIME_REQ is answered in the next frame; another is KX_STRAY. -/
def execTimeReqReceive (tree : Nat) (s : State) := live s fun s =>
  let t := tree % 32
  match s.takeGood t 0x51 with
  | (s, none) => s
  | (s, some c) =>
    if !(s.term (termAx t c.term)).keyed then s.count Reg.PKA_KX_STRAY 0
    else if s.tm.free then s
    else (s.treeMsg t 0x50 c.term []).count Reg.PKA_TOD_SENT 0

/-! ## Counts and the DRBG (R166, R228) -/

/-- KA_NO_CHAIN_COUNT: each second with the chain store empty, once for each waiting record. (DEDUCED, log entry 64) -/
def execKaNoChainCount (s : State) := live s fun s =>
  if !s.ka.chain.isEmpty || decide (s.tm.tickNo < s.ka.noChainAt + 8000) then s else
  let n := s.ka.terms.countP fun (ax, _) => s.kaWaits ax
  { s with ka := { s.ka with noChainAt := s.tm.tickNo } }.countN Reg.PKA_KA_NO_CHAIN 0 n

/-- A DRBG health failure (R228 0x04). -/
def State.drbgFail (s : State) : State :=
  let s := if s.ka.drbgOk then s.intSet Ty.PKA 0 5 else s
  { s with ka := { s.ka with drbgOk := false, reseedAt := s.tm.tickNo + 8000 } }

/-- DRBG_RESEED_RETRY: `ok` is the outcome of the health tests; ERR_INV_CHECK bit 2 makes one fail. -/
def execDrbgReseedRetry (ok : Bool) (s : State) := live s fun s =>
  if s.ka.drbgOk || decide (s.tm.tickNo < s.ka.reseedAt) then s
  else if !ok || s.inv Ty.PKA 0 2 then ((s.invDone Ty.PKA 0 2).raise Ty.PKA 0 4 0 0).drbgFail
  else
    let s := { s with ka := { s.ka with drbgOk := true } }
    if s.lcs.vbat.secret.isNone then s.newSecret else s

/-! ## ACKs (R146, R173, R179, R181) -/

/-- The ACK of a GROUP_KEY: the broadcast key of a terminal in AUTHENTICATING lets its ALLOC_ASSIGN go; a refusal draws one
more copy, and a second is a key failure. -/
def State.groupAck (s : State) (ax : Nat) (o : OutMsg) (status : Nat) : State :=
  let gax := groupAx (ax / 512) (beAt o.msg.body 2 2)
  let g := s.kg gax
  if status == 0 then
    let s := if 128 ≤ beAt o.msg.body 4 1 then s else s.setKg gax { g with waiting := g.waiting.erase ax, refused := g.refused.erase ax }
    let s := s.setKg gax { s.kg gax with refused := (s.kg gax).refused.erase ax }
    if (s.term ax).st == .authenticating && gax < 16416 && 128 ≤ beAt o.msg.body 4 1 then s.allocPush (ax / 512) (ax % 512) else s
  else if g.refused.contains ax then (s.setKg gax { g with refused := g.refused.erase ax }).keyFail ax
  else (s.setKg gax { g with refused := g.refused ++ [ax] }).groupKey ax gax (decide (128 ≤ beAt o.msg.body 4 1))

/-- The ACK of a KEY_SWITCH: REKEYS counts; after T it is late. (DEDUCED, log entry 65) -/
def State.switchAck (s : State) (ax : Nat) : State :=
  let x := s.kt ax
  match x.sw with
  | some w =>
    if w.acked then s else
    let s := (s.putKt ax { x with sw := some { w with acked := true } }).count Reg.PKA_REKEYS 0
    match w.t with
    | some t => if t < s.tm.m then (s.count Reg.PKA_REKEY_ACK_LATE 0).kaEvent 0x32 ax 0 0 0 else s
    | none => s
  | none => s

/-- The ACK of KX_DONE closes the session (R173 step 8): MODE 1 sends the broadcast key, the next one
too while a rekey pends, or fails where the association is INVALID; MODE 2 makes the switch to the new master due. -/
def State.doneAck (s : State) (ax : Nat) : State :=
  let x := s.kt ax
  match x.sess with
  | some e =>
    if !e.verified then s else
    let s := (s.setKt ax { x with sess := none, restarts := 0, retryAt := none }).count Reg.PKA_KX_OK 0
    if e.mode == 1 then
      if (s.assoc (16384 + ax / 512)).st == .invalid then s.keyFail ax else s.groupJoin ax (16384 + ax / 512)
    else s.setKt ax { s.kt ax with dueAt := some ((s.kt ax).dueAt.getD s.tm.m) }
  | none => s

/-- Unacknowledged CKT_ASSIGN messages of the standby page (R332). -/
def State.assignOpen (s : State) : Nat := (s.tsi.opens.filter fun e => e % 2 != s.tsi.active).length

/-- A change of the outstanding CKT_ASSIGN messages; ASSIGN_DONE where none of the standby page is left (R333). -/
def State.setOpens (s : State) (l : List Nat) : State :=
  let s' := { s with tsi := { s.tsi with opens := l } }
  if s.assignOpen != 0 && s'.assignOpen == 0 then s'.intSet Ty.TSI 0 3 else s'

/-- A terminal's oldest CKT_ASSIGN is no longer outstanding (R324, R325). -/
def State.cktAcked (s : State) (ax : Nat) : State :=
  match s.tsi.opens.find? fun e => e / 2 == ax with
  | some e => s.setOpens (s.tsi.opens.erase e)
  | none => s

/-- What the key agent, the Sextant and the interchange do on the ACK of a message. (DEDUCED, log entry 65) -/
def State.ackSeen (s : State) (t term : Nat) (o : OutMsg) (status : Nat) : State :=
  let ax := termAx t term
  match o.type with
  | 0x15 => if beAt o.msg.body 2 1 == 3 then s.setKt ax { s.kt ax with waitAt := some s.tm.tickNo, restarts := 0 } else s
  | 0x16 =>
    if (s.term ax).allocAcked && (s.term ax).st == .authenticating then s.pend t term .operational 0 false else s
  | 0x43 => s.doneAck ax
  | 0x48 => s.switchAck ax
  | 0x49 => s.groupAck ax o status
  | 0x70 => s.cktAcked ax
  | _ => s

/-- ACK_RECEIVE: the next message is sent once the ACK's effects are done. -/
def execAckReceive (tree : Nat) (s : State) := live s fun s =>
  let t := tree % 32
  match s.ackReceive t with
  | (s, some (term, o, status, _)) => s.ackSeen t term o status
  | (s, none) => s

/-- ACK_TIMEOUT: a message lost brings its change (R139); a CKT_ASSIGN lost is no longer outstanding with the record gone. -/
def execAckTimeout (tree term : Nat) (s : State) := live s fun s =>
  let t := tree % 32
  match s.ackTimeout t (term % 512) with
  | (s, some o) => if o.type == 0x70 then s.cktAcked (termAx t (term % 512)) else s
  | (s, none) => s

/-! ## The tick boundary -/

/-- A session ends with its record (R190): KX_FAILED, and the keys of the agent are destroyed. A DEACTIVATE held back behind a
KX_ABORT goes out now (R185). -/
def State.kaDrop (s : State) (ax : Nat) : State :=
  let x := s.kt ax
  let s := match x.sess with
    | some e => (s.count Reg.PKA_KX_FAILED 0).kaEvent 0x30 ax 0 e.session e.fp
    | none => s
  let s := match x.deactLate with
    | some r => s.tellDeact (ax / 512) (ax % 512) r (s.term ax).dark true
    | none => s
  s.setKt ax { kaReset with lastSess := x.lastSess }

/-- The switch of a terminal as the boundary finds it (R181): at T the generation is the new one; at T + 5 the old master
goes, and with its ACK the switch is over. -/
def State.kaSwitch (s : State) (ax : Nat) : State :=
  let x := s.kt ax
  match x.sw with
  | none => s
  | some w =>
    match w.t with
    | none => s
    | some t =>
      let (s, w) := if !w.past && decide (t ≤ s.tm.m) then
          (s.setKt ax { x with kgen := w.kgen, lastSw := t, sw := some { w with past := true } }, { w with past := true })
        else (s, w)
      if w.past && decide (t + 5 ≤ s.tm.m) then
        let x := s.kt ax
        let x := if w.newMaster && x.nextTms.isSome then { x with tms := x.nextTms, nextTms := none } else x
        s.putKt ax { x with sw := if w.acked then none else x.sw }
      else s

/-- One terminal at a tick boundary. (DEDUCED, log entry 65) -/
def State.kaTick (s : State) (ax : Nat) : State :=
  let st := (s.term ax).st
  if st == .deactivated || !st.bound then s.kaDrop ax
  else if (s.term ax).keyed && (s.assoc ax).st == .invalid && s.isActive then s.keyFail ax
  else
    let s := s.kaSwitch ax
    let s := if s.kaWaits ax && s.isActive then s.count Reg.PKA_KA_WAIT 0 else s
    let s := match (s.kt ax).dueAt with
      | some d => if d < s.tm.m then s.count Reg.PKA_REKEY_DEFERRED 0 else s
      | none => s
    s.kaFlush ax 33

/-- One group at a tick boundary: GROUP_LATE for each member that has not acknowledged by T, REKEYS at T, over at T + 5. -/
def State.kgTick (s : State) (gax : Nat) : State :=
  let g := s.kg gax
  match g.sw with
  | none => s
  | some (t, _) =>
    if s.tm.m < t then s else
    let s := if g.past then s else
      let s := (s.setKg gax { g with past := true, lastSw := t, late := g.waiting }).count Reg.PKA_REKEYS 0
      g.waiting.foldl (fun s ax => (s.count Reg.PKA_GROUP_LATE 0).kaEvent 0x33 ax 0 0 0) s
    if t + 5 ≤ s.tm.m then (s.setKg gax { s.kg gax with sw := none, waiting := [] }).kgMirror gax else s

/-- What the Almanac has told the agent (R183, R185). -/
def State.kaTold (s : State) (p : Nat × Nat) : State :=
  if p.1 < 16384 then
    if p.2 == 0 then (if (s.kt p.1).tms.isSome then s.switchDue p.1 else s) else s.keyFail p.1
  else if p.1 < 20512 && p.2 == 0 then
    s.setKg p.1 { s.kg p.1 with dueAt := some ((s.kg p.1).dueAt.getD s.tm.m) }
  else s

/-- A record that has become OPERATIONAL gets the keys of its groups (R211). -/
def State.kaOperational (s : State) : State :=
  s.alm.members.foldl (fun s (g, ax) =>
    if (s.term ax).st == .operational && (s.term ax).since == s.tm.tickNo then s.groupJoin ax (16416 + g) else s) s

/-- Abandon an open session (R189, R228): a terminal in AUTHENTICATING waits for a new KX_START, a re-agreement is tried again after
REAGREE_RETRY ticks. -/
def State.kaForget (s : State) (ax : Nat) : State :=
  let x := s.kt ax
  match x.sess with
  | none => s
  | some e =>
    let x := x.noSess
    let s := if e.verified then s.putKt ax x else s
    if e.mode == 1 then s.setKt ax { x with waitAt := some s.tm.tickNo, restarts := 0 }
    else s.setKt ax { x with retryAt := some (s.tm.tickNo + s.kaPar Reg.PKA_REAGREE_RETRY_TICKS) }

/-- Every open session is abandoned (R228). -/
def State.kaAbandon (s : State) : State := (s.ka.terms.map (·.1)).foldl State.kaForget s

/-- Becoming standby: sessions end, and what is due is the other device's to start (R189). -/
def State.kaStandby (s : State) : State :=
  { s with ka := { s.ka with terms := s.ka.terms.mapV (fun _ => kaReset) fun _ x =>
      { x with sess := none, sendQ := [], waitAt := none, dueAt := none, reDue := false, retryAt := none } } }

/-- Becoming active (R189), for a terminal: in AUTHENTICATING it waits for a new KX_START; a re-agreement that its master's age makes due, or
whose switch no KEY_SWITCH has named yet, is taken as abandoned; a KEY_SWITCH without its ACK goes again. (DEDUCED, log entry 110) -/
def State.kaTakeOver (s : State) (ax : Nat) : State :=
  let x := s.kt ax
  let late := match s.tmsAge ax with
    | some a => if x.nextTms.isSome then x.sw.isNone else decide (s.kaPar Reg.PKA_REAGREE_TICKS_TICKS ≤ a)
    | none => false
  let s := if (s.term ax).st == .authenticating then s.setKt ax { x with sess := none, sendQ := [], waitAt := some s.tm.tickNo, restarts := 0 }
    else s.setKt ax { x with
      sess := none, sendQ := [], reDue := false, nextTms := if x.sw.isSome then x.nextTms else none
      retryAt := if late then some (s.tm.tickNo + s.kaPar Reg.PKA_REAGREE_RETRY_TICKS) else none }
  match x.sw with
  | some w => if w.acked || !(s.term ax).st.bound then s else
      s.termMsg (ax / 512) (ax % 512) 0x48 (toBE 1 w.phase ++ [if w.newMaster then 1 else 0] ++ toBE 4 w.kgen ++ toBE 6 0)
  | none => s

/-- Becoming active in the key agent. -/
def State.kaActive (s : State) : State := (s.terms.map (·.1)).foldl State.kaTakeOver s

/-- The tables loaded in the tick that ends take effect (R166). -/
def State.kaTables (s : State) : State :=
  let k := s.ka
  { s with ka := { k with
      anchors := k.anchorsIn.getD k.anchors, deny := k.denyIn.getD k.deny, chain := k.chainIn.getD k.chain
      anchorsIn := none, denyIn := none, chainIn := none } }

/-- The key agent's part of a tick boundary. The entropy source's health tests run in every tick, so that ERR_INV_CHECK bit 2 makes the one
of this tick fail. (DESIGN CHOICE, log entry 119) -/
def State.kaBoundary (s : State) : State :=
  let par := s.regs.keep fun k _ => keyTy k == Ty.PKA
  let s := { s.kaTables with ka := { s.kaTables.ka with par := par, started := 0, gkSent := [] } }
  let told := s.alm.toKa
  let s := { s with alm := { s.alm with toKa := [] } }
  let s := if s.isActive then told.foldl State.kaTold s else s
  if s.tm.free then s else
  let s := if s.inv Ty.PKA 0 2 && s.ka.drbgOk then ((s.invDone Ty.PKA 0 2).raise Ty.PKA 0 4 0 0).drbgFail else s
  let s := if s.inv Ty.PKA 0 0 && !s.ka.terms.isEmpty then (s.raiseInv Ty.PKA 0 2 0 0).kaAbandon else s
  let s := (s.ka.terms.map (·.1)).foldl State.kaTick s
  let s := (s.ka.groups.map (·.1)).foldl State.kgTick s
  if s.isActive then s.kaOperational else s

/-- The effects of PKA error sources (R228): LO names the terminal of 0x03. A forced 0x02 abandons every open session, as a real one does
(R442). -/
def State.pkaErr (s : State) (d : Det) : State :=
  match d.src with
  | 2 => s.kaAbandon
  | 3 => if d.forced then s else s.kaFail (d.capLo % 16384) 0x08 0 true
  | 4 => s.drbgFail
  | _ => s

end Sys2Proof.Machine
end

