-- ==== Sys2Proof/Machine/Trk.lean ====
section
/-! DEFINITION. Trunk ports and MACsec (R229 to R251): reception with its FCS and length checks, the SecY in both directions,
encoding-SA changes, the SA and SC tables, and the link. -/

namespace Sys2Proof.Machine

/-! ## The SecY's state -/

/-- A SecY nothing has written. (DESIGN CHOICE, log entry 6) -/
def msecReset : MsecS := { txSa := [], sc := [], rxSa := [], next := none, atTick := none, eapol := 0, bad := 0, thrSet := false }

/-- The SecY of a primary instance. -/
def State.sy (s : State) (i : Nat) : MsecS := s.msec.get msecReset i

/-- Store it. -/
def State.setSy (s : State) (i : Nat) (x : MsecS) : State := { s with msec := s.msec.set msecReset i x }

/-- An SA entry nothing has written. -/
def saReset : SaE := { idx := 0, inUse := false, pn := 0, low := 0, ssci := 0, salt := 0, warned := false, dead := false }

/-- An SC entry nothing has written. -/
def scReset : ScE := { valid := false, implicit := false, sci := 0, dead := false }

/-- The suite is an XPN one. -/
def State.xpn (s : State) (i : Nat) : Bool := decide (2 ≤ s.fld Reg.MSEC_CTL_SUITE i)

/-- The TX SCI. -/
def State.txSci (s : State) (i : Nat) : Nat := s.reg64 Reg.MSEC_TX_SCI_LO i

/-- The IV of a MACsec frame (R235). -/
def macsecIv (xpn : Bool) (sci pn ssci salt : Nat) : Bytes :=
  if xpn then toBE 12 ((ssci * 2 ^ 64 + pn % 2 ^ 64) ^^^ salt) else toBE 8 sci ++ toBE 4 pn

/-- Bytes sent in the clear and authenticated after the SecTAG. -/
def State.confOffset (s : State) (i : Nat) : Nat :=
  match s.fld Reg.MSEC_CTL_CONF_OFFSET i with
  | 1 => 30
  | 2 => 50
  | _ => 0

/-- The bad-frame burst of R240: more than BAD_THRESH in one tick sets RX_BAD and tells the MKA cluster, once a tick. -/
def State.rxBad (s : State) (i : Nat) : State :=
  let n := (s.sy i).bad + 1
  let s := s.setSy i { s.sy i with bad := n }
  if n == s.fld Reg.MSEC_MKA_CFG_BAD_THRESH i + 1 then
    (s.intSet Ty.MSEC i 4).stageMsg (s.fld Reg.MSEC_MKA_CFG_CLUSTER i) 0x61 Ty.MSEC i (toLE 4 n)
  else s

/-! ## Receive (R238 to R241) -/

/-- The SecTAG of a frame: TCI and AN byte, SL, PN field, SCI, and its length in bytes. -/
structure SecTag where
  tci : Nat
  sl : Nat
  pn : Nat
  sci : Option Nat
  len : Nat

/-- The SecTAG after the source address. -/
def secTagOf (d : Bytes) : SecTag :=
  let tci := beAt d 14 1
  let sc := bitOf tci 5
  { tci := tci, sl := beAt d 15 1, pn := beAt d 16 4, sci := if sc then some (beAt d 20 8) else none, len := if sc then 16 else 8 }

/-- Whether a SecTAG is malformed for its frame: V, ES with SC, E differing from C, SL not valid for the length (R240). -/
def badTag (d : Bytes) (t : SecTag) : Bool :=
  let avail : Int := (d.length : Int) - 12 - t.len - 16
  bitOf t.tci 7 || (bitOf t.tci 6 && bitOf t.tci 5) || bitOf t.tci 3 != bitOf t.tci 2 || decide (avail < 0) || decide (48 ≤ t.sl) ||
    (t.sl != 0 && decide (avail < t.sl)) || (t.sl == 0 && decide (avail < 48))

/-- The full PN recovered from the SecTAG's 32 bits and the SA's next PN (R238). (DEDUCED, log entry 68) -/
def fullPn (xpn : Bool) (next low32 : Nat) : Nat :=
  if !xpn then low32 else
  let hi := next / 2 ^ 32
  if bitOf next 31 && !bitOf low32 31 then (hi + 1) * 2 ^ 32 + low32 else hi * 2 ^ 32 + low32

/-- The lowest acceptable PN (R239). -/
def State.lowestPn (s : State) (i : Nat) (a : SaE) : Nat :=
  max (a.pn - s.fld Reg.MSEC_REPLAY_WINDOW_WINDOW i) a.low

/-- A frame delivered: without SecTAG and ICV, on to its parser. -/
def State.rxDeliver (s : State) (p : Pkt) (d : Bytes) : State := s.toFwd { p with data := d }

/-- The frame without its SecTAG and ICV. -/
def stripTag (d : Bytes) (t : SecTag) : Bytes :=
  let n := if t.sl == 0 then d.length - 12 - t.len - 16 else t.sl
  d.take 12 ++ sliceB d (12 + t.len) n

/-- The checks made of an SA entry that a frame reads: ERR_INV_CHECK bit 0 makes the table's fail and disables the entry, bit 1 that of
its PN, and the SA counts as exhausted (R251): what reaches it is dropped, on receive as late. (DEDUCED, log entry 31) (DESIGN CHOICE, log
entry 121) -/
def State.saCheck (s : State) (i table key : Nat) : State :=
  let y := s.sy i
  match if table == 0 then y.txSa.find key else y.rxSa.find key with
  | none => s
  | some a =>
    let put (s : State) (a : SaE) : State :=
      s.setSy i (if table == 0 then { y with txSa := y.txSa.set saReset key a } else { y with rxSa := y.rxSa.set saReset key a })
    if s.inv Ty.MSEC i 0 then put (s.raiseInv Ty.MSEC i 2 (table * 256 + key) 0) { a with inUse := false }
    else if s.inv Ty.MSEC i 1 then put (s.raiseInv Ty.MSEC i 3 (table * 256 + key) 0) { a with dead := true }
    else s

/-- The check made of an SC entry that a frame or a READ meets: ERR_INV_CHECK bit 0 makes the table's fail, which disables the entry. -/
def State.scCheck (s : State) (i n : Nat) : State :=
  let y := s.sy i
  match y.sc.find n with
  | none => s
  | some e =>
    if s.inv Ty.MSEC i 0 then (s.raiseInv Ty.MSEC i 2 (256 + n) 0).setSy i { y with sc := y.sc.set scReset n { e with dead := true } } else s

/-- MSEC_RX_VERIFY (R238 to R240) of a frame of port k with a SecTAG. `held` marks one released from the miss buffer. -/
def State.msecRx (s : State) (k : Nat) (p : Pkt) (held : Bool) : State :=
  let i := s.prim k
  let y := s.sy i
  let d := p.data
  let t := secTagOf d
  let c := bitOf t.tci 2
  let val := s.fld Reg.MSEC_CTL_VALIDATE i
  let prot := c || val == 2
  if s.inv Ty.MSEC i 2 then s.raise Ty.MSEC i 4 0 0 else
  if badTag d t then (s.count Reg.MSEC_IN_BAD_TAG i).rxBad i else
  let sc := y.sc.find? fun q => q.2.valid && (match t.sci with
    | some v => q.2.sci == v
    | none => q.2.implicit)
  match sc with
  | none => if prot then s.count Reg.MSEC_IN_NO_SCI i else (s.count Reg.MSEC_IN_UNKNOWN_SCI i).rxDeliver p (stripTag d t)
  | some (n, e) =>
    let key := n * 4 + t.tci % 4
    let s := (s.scCheck i n).saCheck i 2 key
    let y := s.sy i
    let a := y.rxSa.get saReset key
    if !a.inUse || (y.sc.get scReset n).dead then
      if prot then (s.count Reg.MSEC_IN_NO_SA_ERR i).rxBad i else (s.count Reg.MSEC_IN_NO_SA i).rxDeliver p (stripTag d t)
    else
      let x := s.xpn i
      let pn := fullPn x a.pn t.pn
      let late := decide (pn < s.lowestPn i a)
      let replay := s.on Reg.MSEC_CTL_REPLAY_EN i
      if a.dead || (late && replay) then s.count Reg.MSEC_IN_LATE i
      else if val == 0 then
        if c then (s.count Reg.MSEC_IN_NOT_VALID i).rxBad i else (s.count Reg.MSEC_IN_UNCHECKED i).rxDeliver p (stripTag d t)
      else
        let ax := 20512 + a.idx
        let pool := 2 * s.portSlice k
        match s.verdict ax 0 none with
        | .ok q =>
          if !held && s.missing pool ax then s.hold pool ax d.length (.rx k p) else
          match s.cipherInv pool ax with
          | some s => s
          | none =>
          let n := if t.sl == 0 then d.length - 12 - t.len - 16 else t.sl
          let off := if c then min (s.confOffset i) n else n
          let aad := d.take (12 + t.len) ++ sliceB d (12 + t.len) off
          let ct := sliceB d (12 + t.len + off) (n - off)
          let icv := sliceB d (12 + t.len + n) 16
          let ky := match (s.assoc ax).pos q with
            | some k => k.key
            | none => []
          let iv := macsecIv x e.sci pn a.ssci a.salt
          let s := s.runItem pool ax q .dec iv aad ct p.ptp none
          match Config.gcmDec ky iv aad ct icv with
          | some pt =>
            let y := s.sy i
            let s := s.setSy i { y with rxSa := y.rxSa.set saReset key { a with pn := max a.pn (pn + 1) } }
            let s := if late then s.count Reg.MSEC_IN_DELAYED i else s.count64 Reg.MSEC_IN_OK_LO i
            s.rxDeliver p (d.take 12 ++ sliceB d (12 + t.len) off ++ pt)
          | none =>
            let s := s.count Reg.CIPH_TAG_FAIL pool
            if prot then (s.count Reg.MSEC_IN_NOT_VALID i).rxBad i
            else (s.count Reg.MSEC_IN_INVALID i).rxDeliver p (stripTag d t)
        | v => s.countVerdict pool v

/-- EAPOL_HANDOFF (R241): up to RX_RATE frames per tick to the MKA cluster's frame ring. -/
def State.eapol (s : State) (i : Nat) (p : Pkt) : State :=
  let y := s.sy i
  if s.fld Reg.MSEC_MKA_CFG_RX_RATE i ≤ y.eapol then s.count Reg.MSEC_MKA_RX_DROP i else
  let s := s.setSy i { y with eapol := y.eapol + 1 }
  { s with navIn := s.navIn ++ [(s.fld Reg.MSEC_MKA_CFG_CLUSTER i, { p with eapol := true, dst := 16448 + s.fld Reg.MSEC_MKA_CFG_CLUSTER i })] }

/-- A good frame of port k, without its FCS, through MSEC. -/
def State.msecIn (s : State) (k : Nat) (p : Pkt) : State :=
  let i := s.prim k
  let ty := beAt p.data 12 2
  if ty == 0x888E && s.on Reg.MSEC_MKA_CFG_EN i then s.eapol i { p with eapol := true }
  else if ty == 0x888E || !s.on Reg.MSEC_CTL_EN i then s.rxDeliver { p with eapol := ty == 0x888E } p.data
  else if ty == 0x88E5 then s.msecRx k p false
  else if s.fld Reg.MSEC_CTL_VALIDATE i == 2 then s.count Reg.MSEC_IN_NO_TAG i
  else (s.count Reg.MSEC_IN_UNTAGGED i).rxDeliver p p.data

/-- The FCS of a frame, as its four bytes on the line. -/
def fcsOf (d : Bytes) : Bytes := toLE 4 (crc32 d)

/-- The port is up: enabled with its link. -/
def State.portUp (s : State) (k : Nat) : Bool :=
  s.hasPort k && s.on Reg.TRK_PORT_CTL_EN (s.prim k) && s.flag Reg.TRK_PORT_STS_LINK (s.prim k)

/-- TRK_RX_FRAME: a frame with its FCS on port k, its first bit after the SFD at a core cycle; `full` says that its half-pipe
is full, which loses a frame in 800GbE mode only (R34). Lengths are those of R232. -/
def State.trkRx (s : State) (k cycle : Nat) (f : Bytes) (full : Bool) : State :=
  let i := s.prim k
  if !s.portUp k then s else
  let s := s.advanceTo cycle
  let d := f.take (f.length - 4)
  if s.inv Ty.TRK i 0 then s.raiseInv Ty.TRK i 2 0 0
  else if s.inv Ty.TRK i 1 then s.raise Ty.TRK i 3 0 0
  else if f.length < 64 then s.count Reg.TRK_RX_RUNT i
  else if s.fld Reg.TRK_PORT_CTL_MAX_FRAME i < f.length then s.count Reg.TRK_RX_OVERSIZE i
  else if f.drop (f.length - 4) != fcsOf d then s.count Reg.TRK_RX_FCS_ERR i
  else if beAt d 12 2 == 0x8808 then s.count Reg.TRK_RX_PAUSE i
  else
    let s := (s.count64 Reg.TRK_RX_FRAMES_LO i).countN64 Reg.TRK_RX_OCTETS_LO i f.length
    if full && s.trkMode == 2 then s.count Reg.TRK_HALFPIPE_OVF i else
    let (ta, tb, el) := s.ingressTimes k
    s.msecIn k { data := d, src := k, dst := 0, hp := s.portHp k 0 (beAt d 0 6), domain := 0, cls := 0, yellow := false, ptp := false
                 eapol := false, tick := s.tick, born := s.now, tA := ta, tB := tb, el := el, flow := 0, inj := none }

/-- TRK_RX_FRAME; `corr` and `bad` are the FEC codewords corrected and uncorrectable met with it. In LOOPBACK the port hears
itself alone. -/
def execTrkRxFrame (port cycle : Nat) (frame : List Byte) (full : Bool) (corr bad : Nat) (s : State) := live s fun s =>
  let k := port % 32
  if !s.hasPort k || s.flag Reg.TRK_PORT_CTL_LOOPBACK (s.prim k) then s else
  ((s.countN64 Reg.TRK_FEC_CORR_CW_LO (s.prim k) corr).countN Reg.TRK_FEC_UNCORR_CW (s.prim k) bad).trkRx k cycle frame full

/-! ## Transmit (R235 to R237) -/

/-- The encoding AN. -/
def State.txAn (s : State) (i : Nat) : Nat := s.fld Reg.MSEC_STS_TX_AN i

/-- The highest PN. -/
def State.maxPn (s : State) (i : Nat) : Nat := if s.xpn i then 2 ^ 64 - 1 else 2 ^ 32 - 1

/-- A transmit SA is exhausted: it has sent the frame with the highest PN, or its PN is in error (R237, R251). -/
def State.exhausted (s : State) (i : Nat) (a : SaE) : Bool := a.dead || decide (s.maxPn i < a.pn)

/-- The change of the encoding SA falls due (R236): to an enabled SA with an ACTIVE association, or it fails. -/
def State.txSaChange (s : State) (i an : Nat) : State :=
  let a := (s.sy i).txSa.get saReset an
  let s := s.setSy i { s.sy i with next := none, atTick := none }
  let s := s.setFlag Reg.MSEC_STS_TX_PENDING i false
  if a.inUse && (s.assoc (20512 + a.idx)).st == .active then
    ((s.setFld Reg.MSEC_STS_TX_AN i an).setFlag Reg.MSEC_STS_TX_EXHAUSTED i (s.exhausted i a)).intSet Ty.MSEC i 2
  else s.count Reg.MSEC_TX_SA_FAIL i

/-- TX_SA_START (R236): the word written to TX_SA_CTL. With AT_EN the change is named for the tick in TX_SA_AT. -/
def State.txSaStart (s : State) (i v : Nat) : State :=
  let s := s.setReg Reg.MSEC_TX_SA_CTL i (v % 8)
  if !bitOf v 31 then s else
  let s := s.unname .txSa i 0
  if bitOf v 2 then
    let t := s.reg64 Reg.MSEC_TX_SA_AT_LO i % 2 ^ 48
    ((s.setSy i { s.sy i with next := none, atTick := some (v % 4) }).setFlag Reg.MSEC_STS_TX_PENDING i true).name .txSa i 0 t
  else (s.setSy i { s.sy i with next := some (v % 4), atTick := none }).setFlag Reg.MSEC_STS_TX_PENDING i false
def execTxSaStart (inst : Nat) (v : Word) (s : State) := live s fun s =>
  if s.present Ty.MSEC (inst % 32) && s.isPrim (inst % 32) then s.txSaStart (inst % 32) v.toNat else s

/-- TX_SA_CHANGE at a boundary. -/
def State.txSaAt (s : State) (i : Nat) : State :=
  match (s.sy i).atTick with
  | some an => s.txSaChange i an
  | none => s

/-- The SecTAG and SL of a frame of n bytes after the addresses. -/
def State.secTag (s : State) (i an pn n : Nat) : Bytes :=
  let e := if s.flag Reg.MSEC_CTL_INTEG_ONLY i then 0 else 12
  let sc := s.flag Reg.MSEC_CTL_SEND_SCI i
  [0x88, 0xE5] ++ toBE 1 (e + (if sc then 32 else 0) + an) ++ toBE 1 (if n < 48 then n else 0) ++ toBE 4 pn ++
    (if sc then toBE 8 (s.txSci i) else [])

/-- A frame on its way out of a trunk port, through the MAC's buffer, whose checks it passes as a received one does (R248), and the FCS
generator. -/
def State.trkSent (s : State) (k : Nat) (p : Pkt) (d : Bytes) : State :=
  let i := s.prim k
  if s.inv Ty.TRK i 0 then (s.raiseInv Ty.TRK i 2 0 0).injFin p 2 none
  else if s.inv Ty.TRK i 1 then (s.raise Ty.TRK i 3 0 0).injFin p 2 none else
  let bad := s.inv Ty.TRK i 2
  let s := if bad then s.raise Ty.TRK i 4 0 0 else s
  let fcs := if bad then (fcsOf d).map fun b => ~~~b else fcsOf d
  let s := (s.count64 Reg.TRK_TX_FRAMES_LO i).countN64 Reg.TRK_TX_OCTETS_LO i (d.length + 4)
  let s := { s with sent := s.sent.set [] k (d ++ fcs) }
  let s := s.injFin p 0 (some (s.egressTime k))
  if s.flag Reg.TRK_PORT_CTL_LOOPBACK i then s.trkRx k s.tm.cycle (d ++ fcs) false else s

/-- A frame with its PN through the egress pool (R235). (DEDUCED, log entry 68) -/
def State.msecOut (s : State) (k an pn : Nat) (p : Pkt) (held : Bool) : State :=
  let i := s.prim k
  let a := (s.sy i).txSa.get saReset an
  let ax := 20512 + a.idx
  let pool := 2 * s.portSlice k + 1
  let fail (s : State) : State := s.injFin p 2 none
  match s.verdict ax 0 none with
  | .ok q =>
    if !held && s.missing pool ax then s.hold pool ax p.data.length (.tx k an pn p) else
    if s.inv Ty.MSEC i 2 then fail (s.raise Ty.MSEC i 4 0 0) else
    match s.cipherInv pool ax with
    | some s => fail s
    | none =>
    let d := p.data
    let n := d.length - 12
    let tag := s.secTag i an pn n
    let off := if s.flag Reg.MSEC_CTL_INTEG_ONLY i then n else min (s.confOffset i) n
    let aad := d.take 12 ++ tag ++ sliceB d 12 off
    let pt := d.drop (12 + off)
    let ky := match (s.assoc ax).pos q with
      | some k => k.key
      | none => []
    let iv := macsecIv (s.xpn i) (s.txSci i) pn a.ssci a.salt
    let (ct, icv) := Config.gcmEnc ky iv aad pt
    let s := s.runItem pool ax q .enc iv aad pt p.ptp none
    let s := if s.flag Reg.MSEC_CTL_INTEG_ONLY i then s.count64 Reg.MSEC_OUT_PROTECTED_LO i else s.count64 Reg.MSEC_OUT_ENCRYPTED_LO i
    s.trkSent k p (aad ++ ct ++ icv)
  | v => fail (s.countVerdict pool v)

/-- PN_THRESH in effect: until it is written, the reset value of the suite (R249), 0xC000_0000 in the high half for an XPN one and in the
low half for the others. -/
def State.pnThresh (s : State) (i : Nat) : Nat :=
  if (s.sy i).thrSet then s.reg64 Reg.MSEC_PN_THRESH_LO i
  else if s.xpn i then 0xC0000000 * 2 ^ 32 else 0xC0000000

/-- A write of PN_THRESH: it no longer follows the suite; what is not written keeps the value in effect. -/
def State.thrWritten (s : State) (i : Nat) : State :=
  if (s.sy i).thrSet then s else
  (s.setReg64 Reg.MSEC_PN_THRESH_LO i (s.pnThresh i)).setSy i { s.sy i with thrSet := true }

/-- MSEC_TX_PROTECT (R235 to R237): the frame takes the next PN of the encoding SA; a change that applies to this frame comes
first (R245). -/
def State.msecTx (s : State) (k : Nat) (p : Pkt) : State :=
  let i := s.prim k
  let fail (s : State) : State := s.injFin p 2 none
  let clear := !s.on Reg.MSEC_CTL_EN i || beAt p.data 12 2 == 0x888E || (match p.inj with
    | some j => j.noMacsec
    | none => false)
  let grow := if clear then 0 else if s.flag Reg.MSEC_CTL_SEND_SCI i then 32 else 24
  if s.fld Reg.TRK_PORT_CTL_MAX_FRAME i < p.data.length + grow + 4 then fail (s.count Reg.MSEC_OUT_TOO_LONG i)
  else if clear then s.trkSent k p p.data
  else
    let s := match (s.sy i).next with
      | some an => s.txSaChange i an
      | none => s
    let an := s.txAn i
    let s := s.saCheck i 0 an
    let a := (s.sy i).txSa.get saReset an
    if !a.inUse then fail (s.count Reg.CIPH_NO_KEY (2 * s.portSlice k + 1))
    else if s.exhausted i a then fail ((s.setFlag Reg.MSEC_STS_TX_EXHAUSTED i true).count Reg.MSEC_TX_PN_EXHAUST i)
    else
      let pn := a.pn
      let reach := !a.warned && decide (s.pnThresh i ≤ pn + 1)
      let y := s.sy i
      let s := s.setSy i { y with txSa := y.txSa.set saReset an { a with pn := pn + 1, warned := a.warned || reach } }
      let s := if reach then
          (s.intSet Ty.MSEC i 0).stageMsg (s.fld Reg.MSEC_MKA_CFG_CLUSTER i) 0x60 Ty.MSEC i (toLE 1 an)
        else s
      let s := if s.maxPn i ≤ pn then s.setFlag Reg.MSEC_STS_TX_EXHAUSTED i true else s
      s.msecOut k an pn p false

/-! ## The tables (R234, R249) -/

/-- Every SA index that entries of a SecY name, but for one entry (0 transmit, 2 receive). -/
def State.named (s : State) (i table key idx : Nat) : Bool :=
  let y := s.sy i
  (y.txSa.any fun q => q.2.idx == idx && !(table == 0 && q.1 == key)) ||
    (y.rxSa.any fun q => q.2.idx == idx && !(table == 2 && q.1 == key))

/-- The eight words of an entry. -/
def SaE.words (a : SaE) : List Nat :=
  [a.idx + (if a.inUse then 2 ^ 16 else 0), a.pn % 2 ^ 32, a.pn / 2 ^ 32 % 2 ^ 32, a.ssci, a.salt / 2 ^ 64 % 2 ^ 32,
   a.salt / 2 ^ 32 % 2 ^ 32, a.salt % 2 ^ 32, 0]

/-- Store an entry of TABLE 0 or 2. -/
def MsecS.putSa (y : MsecS) (table key : Nat) (a : SaE) : MsecS :=
  if table == 0 then { y with txSa := y.txSa.insert key a } else { y with rxSa := y.rxSa.insert key a }

/-- The entry of TABLE 0 or 2 that has been written at a key. -/
def MsecS.saAt (y : MsecS) (table key : Nat) : Option SaE := (if table == 0 then y.txSa else y.rxSa).find key

/-- The encoding SA is named: TABLE 0, the encoding AN, in use. (DEDUCED, log entry 68) -/
def State.encoding (s : State) (i table an : Nat) : Bool :=
  table == 0 && an == s.txAn i && ((s.sy i).txSa.get saReset an).inUse

/-- An SA_CMD (R249) through an instance on the tables of its port: the command word's fields and STATUS, CFG_REJECT on a
refusal, CMD_DONE at the end. In a secondary instance only TABLE 0 and 2 entries whose SA lies there are reached. -/
def State.saCmd (s : State) (l sc an table op : Nat) (f : State → Nat → Nat → State × Nat) : State :=
  if table == 3 || !s.present Ty.MSEC l then s else
  let i := s.prim (s.portOf l)
  let key := if table == 0 then an else sc * 4 + an
  let sec := i != l
  let there := match (s.sy i).saAt table key with
    | some a => a.idx / 256 == l
    | none => false
  let wordThere := s.regI Reg.MSEC_SA_DATA l 0 % 2 ^ 13 / 256 == l
  let (s, st) :=
    if sec && (table == 1 || !(if op == 2 then wordThere else there)) then (s, 1) else f s i key
  let s := s.setReg Reg.MSEC_SA_CMD l (sc % 64 + an % 4 * 64 + table * 2 ^ 8 + op * 2 ^ 16 + st * 2 ^ 24)
  (if st == 0 then s else s.count Reg.MSEC_CFG_REJECT l).intSet Ty.MSEC l 7

/-- SA_READ. -/
def State.saRead (s : State) (l sc an table : Nat) : State := s.saCmd l sc an table 1 fun s i key =>
  let s := if table == 1 then s.scCheck i sc else s.saCheck i table key
  let w := if table == 1 then
      let e := (s.sy i).sc.get scReset sc
      [(if e.valid && !e.dead then 1 else 0) + (if e.implicit then 2 else 0), e.sci % 2 ^ 32, e.sci / 2 ^ 32 % 2 ^ 32, 0, 0, 0, 0, 0]
    else (((s.sy i).saAt table key).getD saReset).words
  ((List.range 8).foldl (fun (s : State) j => s.setRegI Reg.MSEC_SA_DATA l j (w.getD j 0)) s, 0)
def execSaRead (inst sc an table : Nat) (s : State) := live s fun s => s.saRead (inst % 32) (sc % 64) (an % 4) (table % 4)

/-- SA_WRITE: a mirrored register it is not; an SA on an absent MSEC 4, outside the port or already named 1, the encoding SA 2, a second IMPLICIT
SC 3. -/
def State.saWrite (s : State) (l sc an table : Nat) : State := s.saCmd l sc an table 2 fun s i key =>
  let w (j : Nat) : Nat := s.regI Reg.MSEC_SA_DATA l j
  let y := s.sy i
  if table == 1 then
    let e : ScE := ⟨bitOf (w 0) 0, bitOf (w 0) 1, w 1 + w 2 * 2 ^ 32, false⟩
    if e.implicit && e.valid && y.sc.any fun q => q.1 != sc && q.2.valid && q.2.implicit then (s, 3)
    else (s.setSy i { y with sc := y.sc.set scReset sc e }, 0)
  else
    let idx := w 0 % 2 ^ 13
    if !s.present Ty.MSEC (idx / 256) then (s, 4)
    else if s.portOf (idx / 256) != s.portOf l || s.named i table key idx then (s, 1)
    else if s.encoding i table an then (s, 2)
    else
      let x := s.xpn i
      let pn := w 1 + (if x then w 2 * 2 ^ 32 else 0)
      let old := (y.saAt table key).getD saReset
      let a : SaE := { idx := idx, inUse := old.inUse, pn := pn, low := if table == 0 then 0 else pn, ssci := w 3
                       salt := w 4 * 2 ^ 64 + w 5 * 2 ^ 32 + w 6, warned := false, dead := false }
      (s.setSy i (y.putSa table key a), 0)
def execSaWrite (inst sc an table : Nat) (s : State) := live s fun s => s.saWrite (inst % 32) (sc % 64) (an % 4) (table % 4)

/-- SA_ENABLE: an entry that has been written. (DEDUCED, log entry 68) -/
def State.saEnable (s : State) (l sc an table : Nat) : State := s.saCmd l sc an table 3 fun s i key =>
  match (s.sy i).saAt table key with
  | some a => if table == 1 then (s, 2) else (s.setSy i ((s.sy i).putSa table key { a with inUse := true }), 0)
  | none => (s, 2)
def execSaEnable (inst sc an table : Nat) (s : State) := live s fun s => s.saEnable (inst % 32) (sc % 64) (an % 4) (table % 4)

/-- SA_DISABLE: not the encoding SA. (DEDUCED, log entry 68) -/
def State.saDisable (s : State) (l sc an table : Nat) : State := s.saCmd l sc an table 4 fun s i key =>
  match (s.sy i).saAt table key with
  | some a =>
    if table == 1 || s.encoding i table an then (s, 2)
    else (s.setSy i ((s.sy i).putSa table key { a with inUse := false }), 0)
  | none => (s, 2)
def execSaDisable (inst sc an table : Nat) (s : State) := live s fun s => s.saDisable (inst % 32) (sc % 64) (an % 4) (table % 4)

/-! ## The port (R229, R230, R247) -/

/-- TRK_MODE_WRITE (R229): stored only while every port is disabled. The ports are new ones: of their state the locks of the lanes stay.
(DEDUCED, log entry 120) -/
def State.trkModeWrite (s : State) (v : Nat) : State :=
  if (List.range 32).any fun i => s.present Ty.TRK i && s.flag Reg.TRK_PORT_CTL_EN i then s.count Reg.TRK_CFG_REJECT 0
  else
    let s := s.setReg Reg.TRK_MODE 0 (if v % 4 == 3 then 0 else v % 4)
    (List.range 32).foldl (fun (s : State) i => s.setReg Reg.TRK_PORT_STS i (s.reg Reg.TRK_PORT_STS i &&& 32)) s
def execTrkModeWrite (v : Word) (s : State) := live s fun s => if s.present Ty.TRK 0 then s.trkModeWrite v.toNat else s

/-- The locks of a port's lanes, bit j lane j. -/
def State.laneLocks (s : State) (k : Nat) : Nat :=
  (List.range s.portLanes).foldl (fun a j => if bitOf (s.reg Reg.TRK_PORT_STS (s.prim k + j)) 5 then a + 2 ^ j else a) 0

/-- SER_STS of a trunk lane (R530): its lock, the port's alignment, and UP, TRAIN or DOWN; a lane that idles goes on idling. (DEDUCED, log entry 134) -/
def State.laneShow (s : State) (n : Nat) (lock al up en : Bool) : State :=
  let s := ((s.setFlag Reg.SER_STS_SIGNAL n lock).setFlag Reg.SER_STS_CDR_LOCK n lock).setFlag Reg.SER_STS_MARKER_LOCK n (lock && al)
  if s.fld Reg.SER_STS_STATE n == 5 then s else s.laneState n (if up then 4 else if en then 1 else 0)

/-- TRK_LINK_CHANGE: what port k's lanes and partner show. Each instance holds its own lane's lock (R230); a port is aligned only with
every lane locked. The link is up while the port is enabled, aligned and trained without a local or remote fault. -/
def State.linkChange (s : State) (k : Nat) (anDone aligned localF remoteF : Bool) (locks : Nat) : State :=
  let i := s.prim k
  if !s.hasPort k then s else
  let was := s.flag Reg.TRK_PORT_STS_LINK i
  let locks := (List.range s.portLanes).foldl (fun a j => if bitOf locks j && s.on Reg.SER_CTL_RX_EN (i + j) then a + 2 ^ j else a) 0
  let al := aligned && (List.range s.portLanes).all (bitOf locks)
  let up := s.on Reg.TRK_PORT_CTL_EN i && al && !localF && !remoteF && (anDone || !s.on Reg.TRK_PORT_CTL_AN_EN i)
  let b (x : Bool) (j : Nat) : Nat := if x then 2 ^ j else 0
  let en := s.on Reg.TRK_PORT_CTL_EN i
  let s := (List.range s.portLanes).foldl (fun (s : State) j =>
    (s.setReg Reg.TRK_PORT_STS (i + j) (b (bitOf locks j) 5)).laneShow (i + j) (bitOf locks j) al up en) s
  let s := s.setReg Reg.TRK_PORT_STS i (b up 0 + b anDone 1 + b al 2 + b localF 3 + b remoteF 4 + b (bitOf locks 0) 5)
  let s := if was && !up then s.count Reg.TRK_LINK_DOWN i else s
  if was != up then s.intSet Ty.TRK i 0 else s
def execTrkLinkChange (port : Nat) (anDone aligned localF remoteF : Bool) (locks : Nat) (s : State) := live s fun s =>
  s.linkChange (port % 32) anDone aligned localF remoteF (locks % 256)

/-- What MSEC does at a tick boundary: the counts of R240 and R241 start again. -/
def State.msecBoundary (s : State) : State :=
  { s with msec := s.msec.mapV (fun _ => msecReset) fun _ y => { y with eapol := 0, bad := 0 } }

/-! ## Errors (R248, R251) -/

/-- MSEC: 0x02 disables an entry, 0x03 exhausts an SA. LO is TABLE × 256 + the key; a forced event changes nothing. -/
def State.msecErr (s : State) (d : Det) : State :=
  if d.forced then s else
  let table := d.capLo / 256 % 4
  let key := d.capLo % 256
  let i := s.prim (s.portOf d.inst)
  match d.src with
  | 2 =>
    if table == 1 then s.setSy i { s.sy i with sc := (s.sy i).sc.set scReset key { (s.sy i).sc.get scReset key with dead := true } } else
    match (s.sy i).saAt table key with
    | some a => s.setSy i ((s.sy i).putSa table key { a with inUse := false })
    | none => s
  | 3 =>
    match (s.sy i).saAt table key with
    | some a => s.setSy i ((s.sy i).putSa table key { a with dead := true })
    | none => s
  | _ => s

end Sys2Proof.Machine
end

