-- ==== Sys2Proof/Machine/SlotCmd.lean ====
section
/-! DEFINITION. Slot commands of the Almanac (R207 to R211), from the host through ALM_CMD and ALM_ARG and from navigators
through request blocks, and the completion of a demand load (R201). -/

namespace Sys2Proof.Machine

/-- PART_CODE (R6). -/
def Part.code : Part → Nat
  | .bv3232 => 0x3232
  | .bv3216 => 0x3216
  | .bv3200 => 0x3200

/-- What a slot command answers: STATUS, the words of ALM_ARG it writes, and the bytes it writes to its data area. -/
structure SlotRes where
  st : Nat
  args : Option (List Nat)
  out : Bytes

/-- A bare status. -/
def SlotRes.of (st : Nat) : SlotRes := ⟨st, none, []⟩

/-! ## Who may name an AX (R207) -/

/-- Whether a caller (0 the host, k + 1 cluster k) may use an operation on an AX. (DEDUCED, log entry 67) -/
def State.slotMay (s : State) (caller op ax : Nat) : Bool :=
  if caller == 0 then
    match op with
    | 1 | 2 | 4 | 5 => true
    | 3 => axRange ax == .soft || (match axRange ax with
      | .trunk _ => true
      | _ => false)
    | 6 => match axRange ax with
      | .pair _ => false
      | _ => true
    | 10 | 11 | 12 | 13 => axRange ax == .soft
    | 14 => match axRange ax with
      | .group _ => true
      | _ => false
    | _ => true
  else (op == 1 || op == 3 || op == 4 || (decide (10 ≤ op) && decide (op ≤ 13))) && s.navOwns (caller - 1) ax

/-! ## Attributes (R218) -/

/-- The attribute word. -/
def State.attrWord (s : State) (ax : Nat) : Nat :=
  let a := s.assoc ax
  let b (y : Bool) (i : Nat) : Nat := if y then 2 ^ i else 0
  let k (p : Option KPos) : Bool := match p with
    | some x => x.k256
    | none => false
  a.st.code + b a.fault 2 + b (a.pinned ax) 3 + b a.exp 4 + a.usage % 4 * 2 ^ 5 + a.cur % 2 * 2 ^ 7 + b a.p0.isSome 8 +
    b a.p1.isSome 9 + b (k a.p0) 10 + b (k a.p1) 11 + b a.sw.isSome 12 + b ([0, 1, 2, 3].any fun sl => s.isHot sl ax) 13 +
    a.limit % 64 * 2 ^ 16

/-- READ_ATTR's eight words. -/
def State.attrArgs (s : State) (ax : Nat) : List Nat :=
  let a := s.assoc ax
  let t := match a.sw with
    | some w => w.t
    | none => 0
  let u (p : Option KPos) : Nat := match p with
    | some k => k.use
    | none => 0
  let g (p : Option KPos) : Nat := match p with
    | some k => k.kgen
    | none => 0
  [s.attrWord ax, t % 2 ^ 32, t / 2 ^ 32 % 2 ^ 16, u a.p0 % 2 ^ 32, u a.p1 % 2 ^ 32,
   u a.p0 / 2 ^ 32 % 256 + u a.p1 / 2 ^ 32 % 256 * 256, g a.p0, g a.p1]

/-- SET_ATTR. -/
def State.setAttr (s : State) (ax w : Nat) : State × SlotRes :=
  let a := s.assoc ax
  let use := bitsOf w 5 2
  let pin := bitOf w 3
  if use != a.usage && !(a.st == .invalid && axRange ax == .soft) then (s, .of 1)
  else if pin && !a.pinned ax && a.st != .invalid && s.pinFull ax then (s, .of 5)
  else
    let s := s.setAssoc ax { a with pin := pin, exp := bitOf w 4, usage := use, limit := clampNat 20 40 (bitsOf w 16 6) }
    let s := if pin && a.st != .invalid then s.loadPinned ax else s
    (s.mirrorAx ax, .of 0)

/-- DESTROY_POS: an empty position posts no record. -/
def State.destroyPos (s : State) (ax pos : Nat) : State × SlotRes :=
  let a := s.assoc ax
  if (a.pos pos).isNone then (s, .of 0)
  else if a.st != .invalid && a.cur == pos % 2 then ((s.destroyAx ax false).almEvent 0x44 pos ax 0, .of 0)
  else (((s.setAssoc ax (a.setPos pos none)).mirrorAx ax).almEvent 0x44 pos ax 0, .of 0)

/-! ## Imports (R208, R209) -/

/-- The seed of the import ML-KEM key (R481). -/
def State.impSeed (s : State) : Bytes :=
  let k := Config.hkdfExtract (ascii "BV3232 identity") (s.lcs.root.getD [])
  Config.hkdfExpand k (ascii "BV3232 import kem" ++ toBE 1 s.lcs.life.code ++ toBE 4 s.div) 64

/-- IMPORT_PUB's 1,761 bytes: none without an identity, or where the signature fails its own verification (R228;
DESIGN CHOICE, log entry 117). -/
def State.importPub (s : State) : State × Option Bytes :=
  match s.rootScalar "BV3232 import" with
  | none => (s, none)
  | some k =>
    let q := sliceB (Config.p384Pub k) 0 97
    let ek := sliceB (Config.kemPub s.impSeed) 0 1568
    let (sig, s) := s.idSign (ascii "BV3232 import key" ++ toBE 2 s.part.code ++ toBE 1 s.lcs.life.code ++ q ++ ek)
    let (s, ok) := s.signCheck
    (s, if ok then some (q ++ ek ++ sliceB sig 0 96) else none)

/-- IMPORT_OPEN with the key server's 1,665 bytes. -/
def State.importOpen (s : State) (session : Nat) (d : Bytes) : State × SlotRes :=
  match s.rootScalar "BV3232 import" with
  | none => (s, .of 6)
  | some k =>
    if !s.ka.drbgOk then (s, .of 6) else
    let qs := sliceB d 0 97
    if d.length != 1665 || !Config.p384OnCurve qs then (s, .of 3) else
    let prk := Config.hkdfExtract (List.replicate 48 0) (Config.p384Dh k qs ++ Config.kemDec s.impSeed (sliceB d 97 1568))
    let isk := sliceB (Config.hkdfExpand prk (ascii "BV3232 import session" ++ qs) 32) 0 32
    ({ s with alm := { s.alm with isk := s.alm.isk.set none (session % 4) (some ⟨isk, none, 0⟩) } }, .of 0)

/-- IMPORT: the checks of R209 before anything is written. (DEDUCED, log entry 67) -/
def State.importBlob (s : State) (ax : Nat) (d : Bytes) : State × SlotRes :=
  let bad (st : Nat) : State × SlotRes := (s.count Reg.ALM_IMPORT_REJECT 0, .of st)
  let bAx := beAt d 2 3
  let pos := beAt d 5 1 % 2
  let k256 := beAt d 5 1 / 2 % 2 == 1
  let attr := beAt d 6 1
  let limit := beAt d 7 1
  match s.alm.isk.get none (beAt d 1 1 % 4) with
  | none => bad 3
  | some i =>
    let nonce := beAt d 16 12
    match Config.gcmDec i.key (sliceB d 16 12) (sliceB d 0 16) (sliceB d 28 32) (sliceB d 60 16) with
    | none => bad 3
    | some key =>
      let hdr := d.length == 80 && beAt d 0 1 == 1 && decide (beAt d 1 1 < 4) && decide (bAx < 2 ^ 18) && bAx == ax &&
        decide (beAt d 5 1 < 4) && decide (attr < 16) && decide (20 ≤ limit) && decide (limit ≤ 40) && beAt d 8 8 == 0 &&
        beAt d 76 4 == 0 && (k256 || beNat (key.drop 16) == 0) && (attr % 4 == 0 || axRange ax == .soft || (match axRange ax with
          | .trunk _ => true
          | _ => false)) && s.slotMay 0 6 ax
      if !hdr || (i.nonce.any fun n => decide (nonce ≤ n)) then bad 3 else
      if s.axAbsent ax then (s, .of 4) else
      let a := s.assoc ax
      if !a.mayPlace pos then bad 2 else
      let a' := { a with usage := attr % 4, pin := bitOf attr 2, exp := bitOf attr 3 }
      let (s', st) := (s.setAssoc ax a').install ax pos (freshKey (sliceB key 0 (if k256 then 32 else 16)) [] [] k256 0) limit
      if st != 0 then bad st else
      let n : Option Isk := if 2 ^ 20 ≤ i.blobs + 1 then none else some { i with nonce := some nonce, blobs := i.blobs + 1 }
      let s' := s'.setAssoc ax { s'.assoc ax with limit := limit }
      (({ s' with alm := { s'.alm with isk := s'.alm.isk.set none (beAt d 1 1 % 4) n } }).mirrorAx ax, .of 0)

/-! ## MKA (R210) -/

/-- The current key of an ACTIVE association with a USE. -/
def State.useKey (s : State) (ax use : Nat) : Option KPos :=
  let a := s.assoc ax
  if a.st == .active && a.usage == use then a.pos a.cur else none

/-- The 16 bytes that four argument words hold, byte 0 in bits [7:0] of the first. (DEDUCED, log entry 67) -/
def argBytes (args : List Nat) : Bytes := ((args.take 4).map fun w => toLE 4 w).flatten

/-- A slot command's CMAC, WRAP or UNWRAP is an invocation of its key's position (R194): refused once the count has reached the
limit, counted at CIPH[0]. (DESIGN CHOICE, log entry 118) -/
def State.keyInvoke (s : State) (ax : Nat) : State × Bool :=
  let a := s.assoc ax
  match a.pos a.cur with
  | some k => if k.use < 2 ^ a.limit then (s.invoke ax a.cur, true) else (s.count Reg.CIPH_USAGE_STOP_DROP 0, false)
  | none => (s, false)

/-- MKA_KDF: ICK and KEK into position 0 of the targets. -/
def State.mkaKdf (s : State) (caller ax : Nat) (args : List Nat) : State × SlotRes :=
  let ick := args.getD 4 0 % 2 ^ 18
  let kek := args.getD 5 0 % 2 ^ 18
  match s.useKey ax 1 with
  | none => (s, .of 2)
  | some cak =>
    if !(axRange ick == .soft && axRange kek == .soft && s.slotMay caller 10 ick && s.slotMay caller 10 kek) then (s, .of 1)
    else if ick == kek || (s.assoc ick).st != .invalid || (s.assoc kek).st != .invalid then (s, .of 2)
    else
      let n := if cak.k256 then 32 else 16
      let ctx := argBytes args
      let put (s : State) (t use : Nat) (l : String) : State × Nat :=
        (s.setAssoc t { s.assoc t with usage := use }).install t 0 (freshKey (Config.mkaKdf cak.key (ascii l) ctx n) [] [] cak.k256 0) s.usageCfg
      let (s1, st) := put s ick 2 "IEEE8021 ICK"
      if st != 0 then (s, .of st) else
      let (s2, st) := put s1 kek 3 "IEEE8021 KEK"
      if st != 0 then (s, .of st) else (s2, .of 0)

/-- CMAC of 1 to 2,048 bytes. -/
def State.slotCmac (s : State) (ax : Nat) (args : List Nat) (d : Bytes) : State × SlotRes :=
  let n := args.getD 3 0
  match s.useKey ax 2 with
  | none => (s, .of 2)
  | some k =>
    if n < 1 || 2048 < n then (s, .of 8) else
    let (s, ok) := s.keyInvoke ax
    if !ok then (s, .of 2) else
    let m := sliceB (Config.cmac k.key (sliceB d 0 n)) 0 16
    (s, ⟨0, some ((List.range 4).map fun i => leAt m (4 * i) 4), []⟩)

/-- The AX and POS that WRAP and UNWRAP name in ALM_ARG[4]. -/
def trunkArg (args : List Nat) : Nat × Nat := (args.getD 4 0 % 2 ^ 18, args.getD 4 0 / 2 ^ 18 % 2)

/-- Whether an AX is a trunk SA. -/
def isTrunkAx (ax : Nat) : Bool := decide (20512 ≤ ax) && decide (ax < 28704)

/-- WRAP: the source is a trunk SA position. -/
def State.slotWrap (s : State) (caller : Nat) (args : List Nat) : State × SlotRes :=
  let kek := args.getD 0 0 % 2 ^ 18
  let (src, pos) := trunkArg args
  if !isTrunkAx src || !s.slotMay caller 12 kek || (caller != 0 && !s.navOwns (caller - 1) src) then (s, .of 1)
  else if s.axAbsent src then (s, .of 4) else
  match s.useKey kek 3, (s.assoc src).pos pos with
  | some k, some sak =>
    let (s, ok) := s.keyInvoke kek
    if ok then (s, ⟨0, none, Config.keyWrap k.key sak.key⟩) else (s, .of 2)
  | _, _ => (s, .of 2)

/-- UNWRAP of 24 or 40 bytes, as KSIZE says, into an empty trunk SA position. (DEDUCED, log entry 67) -/
def State.slotUnwrap (s : State) (caller : Nat) (k256 : Bool) (args : List Nat) (d : Bytes) : State × SlotRes :=
  let kek := args.getD 0 0 % 2 ^ 18
  let (dst, pos) := trunkArg args
  if !isTrunkAx dst || !s.slotMay caller 13 kek || (caller != 0 && !s.navOwns (caller - 1) dst) then (s, .of 1)
  else if s.axAbsent dst then (s, .of 4) else
  match s.useKey kek 3 with
  | none => (s, .of 2)
  | some k =>
    let (s, ok) := s.keyInvoke kek
    if !ok then (s, .of 2) else
    match Config.keyUnwrap k.key (sliceB d 0 (if k256 then 40 else 24)) with
    | none => (s, .of 3)
    | some sak =>
      let (s', st) := s.install dst pos (freshKey sak [] [] k256 0) s.usageCfg
      if st != 0 then (s, .of st) else (s', .of 0)

/-! ## Groups (R211) -/

/-- A member joins: the slice of its tree holds the group from now on, in a pinned slot where the group is pinned; the first join of an
INVALID group generates its key. STATUS of what refuses it: 5 pin limit, 6 store. -/
def State.groupAdd (s : State) (ax g m : Nat) : State × Nat :=
  let a := s.assoc ax
  let s1 := { s with alm := { s.alm with members := s.alm.members ++ [(g, m)] } }
  if a.st == .invalid then
    let (k, s2) := s1.drawBytes 32
    let (s2, st) := s2.install ax 0 (freshKey k [] [] true 0) s.usageCfg
    if st != 0 then (s, st) else ((s2.setKg ax { s2.kg ax with lastSw := s.tm.m }).kgMirror ax, 0)
  else if a.pinned ax && s.pinFullIn ax [m / 512 / 8] then (s, 5)
  else (s1.loadPinned ax, 0)

/-- GROUP: ALM_ARG[0] names the terminal, the tree and JOIN or LEAVE. -/
def State.slotGroup (s : State) (ax arg : Nat) : State × SlotRes :=
  let t := bitsOf arg 9 5
  let m := termAx t (bitsOf arg 0 9)
  let g := ax - 16416
  if !s.hasTree t then (s, .of 4)
  else if !s.ka.drbgOk then (s, .of 6)
  else if bitOf arg 31 then
    if s.alm.members.contains (g, m) then (s, .of 0)
    else if 65536 ≤ s.alm.members.length then (s, .of 7)
    else if !s.storeOk then (s, .of 6)
    else
      let (s', st) := s.groupAdd ax g m
      if st != 0 then (s, .of st) else (if (s'.term m).st == .operational then s'.groupJoin m ax else s', .of 0)
  else if !s.alm.members.contains (g, m) then (s, .of 0)
  else
    let s := { s with alm := { s.alm with members := s.alm.members.erase (g, m) } }.coolOut ax
    if s.alm.members.any fun p => p.1 == g then (s.groupLeave m g, .of 0)
    else (((if (s.term m).keyed then s.termMsg (m / 512) (m % 512) 0x4A (toBE 2 g) else s).destroyLogged ax).setKg ax kgReset, .of 0)

/-! ## One command -/

/-- A slot command of a caller (R207): permission, absent units, and the operation. A standby's host leaves mirrored
associations alone (R468). (DEDUCED, log entry 67) -/
def State.slot (s : State) (op : Nat) (r : SlotReq) : State × SlotRes :=
  let ax := r.ax % 2 ^ 18
  let needsAx := !(decide (6 ≤ op) && decide (op ≤ 9)) && op != 12 && op != 13
  if needsAx && !s.slotMay r.caller op ax then (s, .of 1)
  else if decide (7 ≤ op) && decide (op ≤ 9) && r.caller != 0 then (s, .of 1)
  else if needsAx && s.axAbsent ax then (s, .of 4)
  else if r.caller == 0 && op != 1 && !s.isActive && ((needsAx && decide (ax < 20512)) || (op == 6 && decide (beAt r.data 2 3 < 20512))) then
    (s.count Reg.PAIR_MIRROR_WRITE_REJECT 0, .of 1)
  else
    match op with
    | 1 => (s, ⟨0, some (s.attrArgs ax), []⟩)
    | 2 => s.setAttr ax (r.args.getD 0 0)
    | 3 =>
      if !s.ka.drbgOk then (s, .of 6) else
      let (k, s') := s.drawBytes (if r.k256 then 32 else 16)
      let (s', st) := s'.install ax r.pos (freshKey k [] [] r.k256 0) s.usageCfg
      if st != 0 then (s, .of st) else (s', .of 0)
    | 4 => s.destroyPos ax r.pos
    | 5 => (s.destroyLogged ax, .of 0)
    | 6 => if r.caller != 0 then (s, .of 1) else if !s.storeOk then (s, .of 6) else s.importBlob (beAt r.data 2 3) r.data
    | 7 => match s.importPub with
      | (s, some d) => (s, ⟨0, none, d⟩)
      | (s', none) => (s', .of (if s.idKey.isSome then 3 else 6))
    | 8 => s.importOpen (r.args.getD 3 0) r.data
    | 9 => ({ s with alm := { s.alm with isk := s.alm.isk.set none (r.args.getD 3 0 % 4) none } }, .of 0)
    | 10 => s.mkaKdf r.caller ax r.args
    | 11 => s.slotCmac ax r.args r.data
    | 12 => s.slotWrap r.caller r.args
    | 13 => s.slotUnwrap r.caller r.k256 r.args r.data
    | 14 => s.slotGroup ax (r.args.getD 0 0)
    | _ => (s, .of 0)

/-- Where a command's data area is named in its arguments: window and offset. -/
def slotArea (op : Nat) (args : List Nat) : Nat × Nat :=
  let i := if op == 12 || op == 13 then 1 else 0
  (args.getD i 0 % 16, args.getD (i + 1) 0 + args.getD (i + 2) 0 * 2 ^ 32)

/-- Bytes a command reads from its data area. -/
def slotReads (op : Nat) (k256 : Bool) (args : List Nat) : Nat :=
  match op with
  | 6 => 80
  | 8 => 1665
  | 11 => args.getD 3 0
  | 13 => if k256 then 40 else 24
  | _ => 0

/-- The host's ALM_ARG words. -/
def State.almArgs (s : State) : List Nat := (List.range 8).map fun i => s.regI Reg.ALM_ARG 0 i

/-- A slot command of the host: the data area lies in a shared window, a disallowed transfer answers STATUS 8. Results go to
ALM_ARG, STATUS to ALM_CMD, and CMD_DONE sets. (DEDUCED, log entry 67) -/
def State.hostSlot (s : State) (op ax pos : Nat) (k256 : Bool) (data : Bytes) : State :=
  let args := s.almArgs
  let n := slotReads op k256 args
  let (win, off) := slotArea op args
  let (s, okR) := if n == 0 || 2048 < n then (s, true) else s.dmaRead win off n
  let (s, r) := if okR then s.slot op ⟨0, ax, pos, k256, args, sliceB data 0 n⟩ else (s, SlotRes.of 8)
  let (s, st) := if r.st == 0 && !r.out.isEmpty then
      let (s, ok) := s.dmaWrite win off r.out
      (s, if ok then 0 else 8)
    else (s, r.st)
  let s := match r.args with
    | some l => (List.range l.length).foldl (fun (s : State) i => s.setRegI Reg.ALM_ARG 0 i (l.getD i 0)) s
    | none => s
  let s := if st == 0 || (op == 6 && okR && (st == 2 || st == 3)) then s else s.count Reg.ALM_CMD_REJECT 0
  (s.setReg Reg.ALM_CMD 0 (ax % 2 ^ 18 + pos % 2 * 2 ^ 18 + (if k256 then 2 ^ 19 else 0) + op * 2 ^ 20 + st * 2 ^ 24)).intSet Ty.ALM 0 7

/-- READ_ATTR. -/
def execReadAttr (ax pos : Nat) (k256 : Bool) (s : State) := live s fun s => s.hostSlot 1 ax pos k256 []
/-- SET_ATTR. -/
def execSetAttr (ax pos : Nat) (k256 : Bool) (s : State) := live s fun s => s.hostSlot 2 ax pos k256 []
/-- GEN_KEY. -/
def execGenKey (ax pos : Nat) (k256 : Bool) (s : State) := live s fun s => s.hostSlot 3 ax pos k256 []
/-- DESTROY_POS. -/
def execDestroyPos (ax pos : Nat) (k256 : Bool) (s : State) := live s fun s => s.hostSlot 4 ax pos k256 []
/-- DESTROY. -/
def execDestroy (ax pos : Nat) (k256 : Bool) (s : State) := live s fun s => s.hostSlot 5 ax pos k256 []
/-- IMPORT. -/
def execImportKey (ax pos : Nat) (k256 : Bool) (data : List Byte) (s : State) := live s fun s => s.hostSlot 6 ax pos k256 data
/-- IMPORT_PUB. -/
def execImportPub (ax pos : Nat) (k256 : Bool) (s : State) := live s fun s => s.hostSlot 7 ax pos k256 []
/-- IMPORT_OPEN. -/
def execImportOpen (ax pos : Nat) (k256 : Bool) (data : List Byte) (s : State) := live s fun s => s.hostSlot 8 ax pos k256 data
/-- IMPORT_CLOSE. -/
def execImportClose (ax pos : Nat) (k256 : Bool) (s : State) := live s fun s => s.hostSlot 9 ax pos k256 []
/-- MKA_KDF. -/
def execMkaKdf (ax pos : Nat) (k256 : Bool) (s : State) := live s fun s => s.hostSlot 10 ax pos k256 []
/-- CMAC. -/
def execCmac (ax pos : Nat) (k256 : Bool) (data : List Byte) (s : State) := live s fun s => s.hostSlot 11 ax pos k256 data
/-- WRAP. -/
def execWrap (ax pos : Nat) (k256 : Bool) (s : State) := live s fun s => s.hostSlot 12 ax pos k256 []
/-- UNWRAP. -/
def execUnwrap (ax pos : Nat) (k256 : Bool) (data : List Byte) (s : State) := live s fun s => s.hostSlot 13 ax pos k256 data
/-- GROUP_MEMBERSHIP. -/
def execGroupMembership (ax pos : Nat) (k256 : Bool) (s : State) := live s fun s => s.hostSlot 14 ax pos k256 []

/-! ## Demand loads (R201) -/

/-- Release one held item: a downstream unit to the front of its transmitter's serve list, so that it comes at the next unit
boundary; an upstream unit, a circuit unit and an item of its own run; the slots of a keystream take it when their frame
begins. ERR_INV_CHECK bit 0 makes the buffer's checker fail: the item is dropped (R225). -/
def State.release (s : State) (i : Nat) (h : Held) : State :=
  let s := s.count Reg.CIPH_MISS_HELD i
  if s.inv Ty.CIPH i 0 then
    ((s.raiseInv Ty.CIPH i 2 h.ax 0).count Reg.CIPH_MISS_DROP i).workLost h
  else
  match h.work with
  | .down t f u p => s.setTx t { s.tx t with serve := ⟨f, u, p⟩ :: (s.tx t).serve }
  | .up t ax al tick kp pm pay => s.upRun t ax al tick kp pm pay
  | .item it => s.itemRun i it
  | .rx k p => s.msecRx k p true
  | .tx k an pn p => s.msecOut k an pn p true
  | .stream _ _ _ => s
  | .ckt t ax u kp pm slots pay => s.circuitRun t ax u kp pm slots pay

/-- Every held item of an AX, in every pool, is dropped (R201). -/
def State.heldLost (s : State) (ax : Nat) : State :=
  (List.range 8).foldl (fun (s : State) i =>
    let c := s.pool i
    let mine := c.miss.filter fun h => h.ax == ax
    if mine.isEmpty then s else
    mine.foldl State.workLost ((s.setPool i { c with miss := c.miss.filter fun h => h.ax != ax }).countN Reg.CIPH_MISS_DROP i mine.length)) s

/-- DEMAND_LOAD_COMPLETE: the load of an AX for a pool ends. On an error completion (`ok` false) the association becomes INVALID and its
held items are dropped. Else those still within the hold are released in their order. -/
def State.demandDone (s : State) (i ax : Nat) (ok : Bool) : State :=
  if !((s.pool i).miss.any fun h => h.ax == ax) then s else
  let s := s.missExpire i
  let c := s.pool i
  let mine := c.miss.filter fun h => h.ax == ax
  let (s, good) := if ok then s.load (i / 2) ax 0 true else (s.loadErr ax, false)
  if !good then s.heldLost ax else
  let s := s.setPool i { s.pool i with miss := (s.pool i).miss.filter fun h => h.ax != ax }
  let s := mine.foldl (fun s h => s.heldAge i h) s
  let downs := mine.filter fun h => match h.work with
    | .down .. => true
    | _ => false
  let rest := mine.filter fun h => match h.work with
    | .down .. => false
    | _ => true
  (downs.reverse ++ rest).foldl (fun s h => s.release i h) s
def execDemandLoadComplete (inst ax : Nat) (ok : Bool) (s : State) := live s fun s => s.demandDone (inst % 8) ax ok

end Sys2Proof.Machine
end

