-- ==== Sys2Proof/Machine/NavDev.lean ====
section
/-! DEFINITION. The clusters around their navigators (R358, R366 to R377, R384): mailboxes, the frame ring, injection, slot
requests, starting and stopping, watchdog, engine failure and the spare, images and the bank switch, and what a tick boundary
does. -/

namespace Sys2Proof.Machine

/-! ## Mailboxes (R366) -/

/-- A message reaches a receive queue of 64, and ends a WFT that waits for one. (DEDUCED, log entry 51) -/
def State.mboxPut (s : State) (c n : Nat) (m : RxMsg) : State :=
  let e := s.nv c n
  if s.navLost c n || decide (64 ≤ e.rx.length) then s.count Reg.NAV_MBX_RX_DROP c else
  let s := s.setNv c n { e with rx := e.rx ++ [m] }
  match e.wait with
  | some w => if w.msg then s.wftReturn c n w.rd (s.tickWord 0 false true) else s
  | none => s

/-- MBX_DELIVER: the oldest message on its way to a cluster; one that names no navigator goes to EVT_NAV. (DEDUCED, log entry 51) -/
def State.mboxDeliver (s : State) (c : Nat) : State :=
  match s.mail.find? fun m => m.cluster == c with
  | some m =>
    let s := { s with mail := s.mail.erase m }
    if s.present Ty.NAV c then s.mboxPut c (m.nav.getD (s.fld Reg.NAV_CTL_EVT_NAV c)) ⟨m.src, m.kind, m.body⟩ else s
  | none => s
def execMbxDeliver (c : Nat) (s : State) := live s fun s => s.mboxDeliver (navC c)

/-- HOST_MAILBOX_POST: the oldest message of a cluster to HOST goes to exception ring HOST_RING, or is dropped. -/
def State.hostPost (s : State) (c : Nat) : State :=
  match s.takePost c 0xFF01 with
  | some (p, s) =>
    let (s, ok) := s.postEvent (s.fld Reg.NAV_CTL_HOST_RING c) Ty.NAV c p.body
    if ok then s else s.count Reg.NAV_MBX_DROP c
  | none => s
def execHostMailboxPost (c : Nat) (s : State) := live s fun s => s.hostPost (navC c)

/-! ## The frame ring (R368) -/

/-- The fields of an RX_RING word: BASE in bytes, SLOTS, bytes of a slot. -/
def ringBase (w : Nat) : Nat := bitsOf w 0 14 * 64
def ringSlots (w : Nat) : Nat := bitsOf w 14 11
def ringSlot (w : Nat) : Nat := bitsOf w 25 4 * 1024

/-- The ingress time of a frame in TS_DOMAIN (R346). -/
def State.ingressTime (s : State) (p : Pkt) : Nat :=
  match s.fld Reg.AST_TC_CFG_TS_DOMAIN 0 with
  | 0 => p.tA
  | 1 => p.tB
  | _ => (((if s.tm.active == 0 then p.tA else p.tB : Nat) : Int) - s.tm.resid).toNat % timeMod

/-- The header of a slot. -/
def State.slotHead (s : State) (p : Pkt) : Bytes :=
  let t := s.ingressTime p
  toLE 2 p.data.length ++ toLE 2 p.src ++ toLE 2 (p.domain % 2 ^ 14) ++ toLE 1 p.cls ++
    toLE 1 ((if p.ptp then 1 else 0) + if p.eapol then 2 else 0) ++ toLE 4 (secOf t) ++ toLE 4 (nanoOf t) ++ toLE 6 p.tick ++
    List.replicate 10 0

/-- NAV_FRAME_RX: the oldest frame on its way to a cluster is written to its ring with a notice to EVT_NAV, or dropped. (DEDUCED, log entry 51) -/
def State.navFrame (s : State) (c : Nat) : State :=
  match s.navIn.find? fun q => q.1 == c with
  | none => s
  | some (c', p) =>
    let s := { s with navIn := s.navIn.erase (c', p) }
    if !s.present Ty.NAV c then s.injFin p 2 none else
    let s := s.frameRing c
    let k := s.cluster c
    let n := ringSlots k.ring
    if k.ring != s.reg Reg.NAV_RX_RING c || n == 0 || (k.prod + 1) % n == k.cons || decide (ringSlot k.ring < 32 + p.data.length) then
      (s.count Reg.NAV_FRAME_DROP c).injFin p 2 none
    else
      let s := s.navStore (2 ^ 20) (placeShared c (ringBase k.ring + k.prod * ringSlot k.ring)) (s.slotHead p ++ p.data)
      let s := (s.count Reg.NAV_FRAME_RX c).setCluster c { k with prod := (k.prod + 1) % n }
      (s.sendMail ⟨Ty.NAV * 256 + c, c, none, 3, toLE 2 k.prod ++ List.replicate 14 0⟩).injFin p 0 none
def execNavFrameRx (c : Nat) (s : State) := live s fun s => s.navFrame (navC c)

/-! ## Injection (R369) -/

/-- Whether the fields of an injection descriptor are in range: offset, length, DEST, DOMAIN, FLAGS. -/
def State.injOk (s : State) (off len dest domain flags : Nat) : Bool :=
  off % 16 == 0 && decide (60 ≤ len) && decide (len ≤ 10236) && decide (off + len ≤ 2 ^ 20) && decide (domain < 2 ^ 14) &&
    decide (flags < 64) && (decide (2 ^ 15 ≤ dest) || s.portStatus dest == 0)

/-- An injected frame at the parser, as if it had arrived from a logical port (R369, R420). -/
def State.injPkt (s : State) (src slice half : Nat) (d : Bytes) (dest domain flags : Nat) (j : Inj) : Pkt :=
  { data := d, src := src, dst := if 2 ^ 15 ≤ dest then 0xFFFF else dest, hp := slice * 2 + half, domain := domain, cls := flags % 8
    yellow := false, ptp := (ptpAt d).isSome, eapol := beAt d 12 2 == 0x888E, tick := s.tick, born := s.now
    tA := (s.dom 0).t, tB := (s.dom 1).t, el := (s.dom (s.fld Reg.AST_TC_CFG_TC_DOMAIN 0)).el, flow := 0, inj := some j }

/-- NAV_INJECT: the oldest injection descriptor of a cluster. (DEDUCED, log entry 53) -/
def State.navInject (s : State) (c cycle : Nat) : State :=
  match s.takePost c 0xFF00 with
  | none => s
  | some (p, s) =>
    let s := s.advanceTo (min cycle s.tm.len)
    let f := leAt p.body 10 1
    let j : Inj := { host := false, who := c, slot := p.nav, tag := sliceB p.body 12 4, tsReq := bitOf f 3, oneStep := bitOf f 4
                     noMacsec := bitOf f 5 }
    let off := leAt p.body 0 4
    let len := leAt p.body 4 2
    if !s.injOk off len (leAt p.body 6 2) (leAt p.body 8 2) f || leAt p.body 11 1 != 0 then
      let d : InjDone := ⟨j, 1, none⟩
      { s with injDone := s.injDone ++ [d] }
    else
      s.toFwd (s.injPkt (16448 + c) (c / 8) (c % 8 / 4) (s.nmem.readN (placeShared c off) len) (leAt p.body 6 2) (leAt p.body 8 2) f j)
def execNavInject (c cycle : Nat) (s : State) := live s fun s => s.navInject (navC c) cycle

/-! ## Slot requests (R371) -/

/-- The data area of a request at an address of the navigator: its place, where the access is allowed. (DEDUCED, log entry 52) -/
def State.almArea (s : State) (c n bits addr len : Nat) (user : Bool) : State × Option Nat :=
  match s.navCheck c n (s.nv c n).bank bits addr len user with
  | (s, some p) => (s, if p < 2 ^ 40 then some p else none)
  | (s, none) => (s, none)

/-- ALMREQ_COMPLETE: the oldest request of a navigator. STATUS and results are written to the block before the completion
goes. (DEDUCED, log entry 52) -/
def State.almDone (s : State) (c n : Nat) : State :=
  match (s.nv c n).alm with
  | [] => s
  | q :: rest =>
    let s := s.setNv c n { s.nv c n with alm := rest }
    let b := q.block
    let op := leAt b 0 1
    let k256 := bitOf (leAt b 2 1) 1
    let ax := leAt b 4 3 % 2 ^ 18
    let args := (List.range 8).map fun i => leAt b (8 + 4 * i) 4
    let addr := leAt b 40 4
    let len := leAt b 44 4
    let need := slotReads op k256 args
    let may := if op == 12 || op == 13 then true else s.slotMay (c + 1) op ax
    let (s, st, res) : State × Nat × SlotRes :=
      if !may then (s, 1, SlotRes.of 1) else
      let (s, data) : State × Option Bytes :=
        if need == 0 || decide (2048 < need) then (s, some [])
        else if len < need then (s, none)
        else match s.almArea c n 1 addr need q.user with
          | (s, some p) => (s, some (s.nmem.readN p need))
          | (s, none) => (s, none)
      match data with
      | none => (s, 8, SlotRes.of 8)
      | some d =>
        let (s, r) := s.slot op ⟨c + 1, ax, leAt b 2 1 % 2, k256, args, d⟩
        if r.st == 0 && !r.out.isEmpty then
          if len < r.out.length then (s, 8, r) else
          match s.almArea c n 2 addr r.out.length q.user with
          | (s, some p) => (s.navStore (2 ^ 20) p r.out, 0, r)
          | (s, none) => (s, 8, r)
        else (s, r.st, r)
    match s.navArea q.addr 64 with
    | none => s
    | some a =>
      let at_ := a.place c n 0 q.addr
      let s := match res.args with
        | some l => s.navStore (2 ^ 20) (at_ + 8) ((l.take 8).map (toLE 4)).flatten
        | none => s
      let s := s.navStore (2 ^ 20) (at_ + 1) (toLE 1 st)
      s.sendMail ⟨Ty.ALM * 256, c, some n, 4, toLE 1 st ++ toLE 1 op ++ List.replicate 6 0 ++ sliceB b 48 8⟩
def execAlmreqComplete (c n : Nat) (s : State) := live s fun s => s.almDone (navC c) (navN n)

/-! ## Starting and stopping (R372, R381) -/

/-- NAV_ENABLE: the word written to NAV_CTL starts navigators COLD at the next boundary or stops them at once. (DEDUCED, log entry 54) -/
def State.navEnable (s : State) (c v : Nat) : State :=
  if !s.present Ty.NAV c then s else
  let on (s : State) (n : Nat) : Bool := s.flag Reg.NAV_CTL_EN c && bitOf (s.fld Reg.NAV_CTL_RUN_MASK c) n
  let old := s
  let s := s.plainWrite (Reg.NAV_CTL.at c) v
  ((List.range 16).foldl (fun (s : State) n =>
    if on old n == on s n then s
    else if on s n then
      if s.navLost c n || (s.nv c n).failed.isSome then s else s.setNv c n { s.nv c n with start := some 0 }
    else s.navStop c n) s).oldBankSettle c
def execNavEnable (c : Nat) (v : Word) (s : State) := live s fun s => s.navEnable (navC c) v.toNat

/-- NAV_WATCHDOG (R358): at the boundary after WDOG_TICKS without a wait-for-tick. -/
def State.navWatchdog (s : State) (c n : Nat) : State :=
  let e := s.nv c n
  let lim := s.fld Reg.NAV_WDOG_CFG_TICKS c
  if s.present Ty.NAV c && e.run && e.wait.isNone && lim != 0 && decide (lim < e.idle) then
    (s.count Reg.NAV_WDOG_RESTARTS c).navStart c n 3 (s.tickWord 0 false false)
  else s
def execNavWatchdog (c n : Nat) (s : State) := live s fun s => (s.navWatchdog (navC c) (navN n)).oldBankSettle (navC c)

/-- ENGINE_FAIL. -/
def execEngineFail (c n : Nat) (s : State) := live s fun s => s.engineFail (navC c) (navN n) false

/-- A failed engine at the next boundary: the spare takes the navigator over, or it is lost. (DEDUCED, log entry 35) -/
def State.spareStep (s : State) (c n : Nat) : State :=
  match (s.nv c n).failed with
  | none => s
  | some raised =>
    let s := s.setNv c n { s.nv c n with failed := none }
    let k := s.cluster c
    if s.on Reg.NAV_CTL_SPARE_EN c && k.spare.isNone && !k.spareDead then
      let s := s.setCluster c { k with spare := some n }
      let s := ((s.setFlag Reg.NAV_STS_SPARE_AVAIL c false).setFld Reg.NAV_STS_SPARE_FOR c n).setFlag Reg.NAV_STS_SPARE_IN_USE c true
      let s := s.count Reg.NAV_SPARE_SWAPS c
      let s := if raised then s else s.raise Ty.NAV c 5 n 0
      if s.flag Reg.NAV_CTL_EN c && bitOf (s.fld Reg.NAV_CTL_RUN_MASK c) n then s.navStart c n 2 (s.tickWord 0 false false) else s
    else
      let s := if k.spare == some n then
          (s.setCluster c { k with spare := none, spareDead := true }).setFlag Reg.NAV_STS_SPARE_IN_USE c false
        else s
      let s := (s.setReg Reg.NAV_FAILED c (setBitOf (s.reg Reg.NAV_FAILED c) n true)).intSet Ty.NAV c 2
      let s := { s with bin := { s.bin with lostTick := true } }
      if raised then s else s.raise Ty.NAV c 6 n 0

/-! ## Images (R374 to R376) -/

/-- Where the target bank of a LOAD stands: the active bank while EN is 0, else the standby bank. (DEDUCED, log entry 54) -/
def State.loadBank (s : State) (c : Nat) : Nat := if s.flag Reg.NAV_CTL_EN c then 1 - s.actBank c else s.actBank c

/-- Mark a bank valid with an SVN, or invalid. -/
def State.bankValid (s : State) (c b : Nat) (svn : Option Nat) : State :=
  let s := s.setFlag (if b == 0 then Reg.NAV_STS_VALID0 else Reg.NAV_STS_VALID1) c svn.isSome
  s.setFld (if b == 0 then Reg.NAV_BANK_SVN0_SVN else Reg.NAV_BANK_SVN1_SVN) c (svn.getD 0)

/-- The bank holds a verified image. -/
def State.bankOk (s : State) (c b : Nat) : Bool := s.flag (if b == 0 then Reg.NAV_STS_VALID0 else Reg.NAV_STS_VALID1) c

/-- A LOAD ends with a status. -/
def State.loadEnd (s : State) (c st : Nat) : State :=
  let s := s.setCluster c { s.cluster c with load := none }
  let s := ((s.setFld Reg.NAV_IMG_CMD_STATUS c st).setFlag Reg.NAV_IMG_CMD_BUSY c false).setFlag Reg.NAV_STS_LOADING c false
  let s := if st == 0 then s else s.count Reg.NAV_IMG_REJECT c
  s.intSet Ty.NAV c 6

/-- IMG_LOAD: the word written to IMG_CMD with the image's bytes from the window. STATUS 7 refuses it; a wrong length or a
window that does not allow it fails it, which leaves the target bank invalid. -/
def State.imgLoad (s : State) (c v : Nat) (image : Bytes) : State :=
  if !s.present Ty.NAV c || s.flag Reg.NAV_IMG_CMD_BUSY c then s else
  let s := s.plainWrite (Reg.NAV_IMG_CMD.at c) v
  if v % 4 != 1 then s else
  let b := s.loadBank c
  let en := s.flag Reg.NAV_CTL_EN c
  let n := s.fld Reg.NAV_IMG_LEN_BYTES c
  let s := s.setFlag Reg.NAV_STS_SDATA_SKIPPED c false
  if en && (s.flag Reg.NAV_STS_ARMED c || (List.range 16).any fun i => (s.nv c i).run && (s.nv c i).bank == b) then s.loadEnd c 7
  else if n < 400 || 1311104 < n then (s.bankValid c b none).loadEnd c 9
  else
    let off := s.reg Reg.NAV_IMG_ADDR_LO c + s.reg Reg.NAV_IMG_ADDR_HI c * 2 ^ 32
    match s.dmaRead (bitsOf v 4 4) off n with
    | (s, false) => (s.bankValid c b none).loadEnd c 8
    | (s, true) =>
      let s := s.setCluster c { s.cluster c with load := some ⟨sliceB image 0 n, b, !en⟩ }
      (s.setFlag Reg.NAV_IMG_CMD_BUSY c true).setFlag Reg.NAV_STS_LOADING c true
def execImgLoad (c : Nat) (v : Word) (image : List Byte) (s : State) := live s fun s => s.imgLoad (navC c) v.toNat image

/-- Form and lengths of an image (R374). -/
def imgForm (d : Bytes) : Bool :=
  let prog := leAt d 12 4
  let entry := leAt d 16 4
  let sdata := leAt d 20 4
  let zero (i n : Nat) : Bool := leAt d i n == 0
  sliceB d 0 4 == [0x56, 0x54, 0x48, 0x5A] && leAt d 4 1 == 1 && leAt d 5 1 == 1 && decide (16 ≤ prog) && decide (prog ≤ 262144) &&
    prog % 16 == 0 && entry % 2 == 0 && decide (entry < prog) && decide (sdata ≤ 1048576) && sdata % 16 == 0 &&
    decide (leAt d 24 4 + sdata ≤ 1048576) && decide (leAt d 28 1 < 4) && zero 29 3 && zero 241 15 && zero 352 32 &&
    d.length == 384 + prog + sdata

/-- The bit of PART_MASK of a variant. -/
def Part.imgBit : Part → Nat
  | .bv3232 => 0
  | .bv3216 => 1
  | .bv3200 => 2

/-- The checks of R375 in order: the STATUS of the first that fails, 0 where all pass. -/
def State.imgCheck (s : State) (c : Nat) (d : Bytes) : Nat :=
  let slot := leAt d 28 1 % 4
  let key := sliceB d 144 97
  if !imgForm d then 1
  else if !bitOf (leAt d 6 2) s.part.imgBit then 2
  else if s.lcs.otp.imageKey.get none slot != some (Config.sha384 key) || bitOf s.lcs.otp.revoked slot then 3
  else if !Config.p384Verify key (ascii "Vuthiuz image" ++ sliceB d 0 256) (sliceB d 256 96) then 4
  else if Config.sha384 (d.drop 384) != sliceB d 32 48 then 5
  else if leAt d 8 4 < s.reg Reg.NAV_MIN_SVN c then 6
  else 0

/-- IMG_LOAD_DONE: the checks, the program into its bank and the shared-data part where it is written. `err`: an error
completion of the loader path (R384); a store that is not open answers so by itself (R390, R396). (DEDUCED, log entry 54) -/
def State.imgDone (s : State) (c : Nat) (err : Bool) : State :=
  match (s.cluster c).load with
  | none => s
  | some l =>
    let d := l.image
    let err := err || !s.imgStoreOk c
    let st := if err then 8 else s.imgCheck c d
    let s := if err then s.raise Ty.NAV c 3 0 0 else s
    if st != 0 then (s.bankValid c l.bank none).loadEnd c st else
    let prog := leAt d 12 4
    let s := { s with nmem := s.nmem.writeN (placeBank c l.bank 0) (sliceB d 384 prog) }
    let lo := placeBank c l.bank 0 / 4
    let s := { s with nbad := s.nbad.keep fun k _ => !(decide (lo ≤ k) && decide (k < lo + 2 ^ 16)) }
    let s := if l.sdata then s.navStore (2 ^ 20) (placeShared c (leAt d 24 4)) (d.drop (384 + prog))
      else s.setFlag Reg.NAV_STS_SDATA_SKIPPED c true
    let s := s.setCluster c { s.cluster c with entry := (s.cluster c).entry.set 0 l.bank (leAt d 16 4) }
    (s.bankValid c l.bank (some (leAt d 8 4))).loadEnd c 0
def execImgLoadDone (c : Nat) (err : Bool) (s : State) := live s fun s => s.imgDone (navC c) err

/-- MIN_SVN_WRITE (R376). -/
def State.minSvnWrite (s : State) (c v : Nat) : State :=
  if !s.present Ty.NAV c then s
  else if s.reg Reg.NAV_MIN_SVN c < v then s.setReg Reg.NAV_MIN_SVN c v
  else s.count Reg.NAV_CFG_REJECT c
def execMinSvnWrite (c : Nat) (v : Word) (s : State) := live s fun s => s.minSvnWrite (navC c) v.toNat

/-! ## The bank switch (R377) -/

/-- BANK_ARM. (DEDUCED, log entry 54) -/
def State.bankArm (s : State) (c : Nat) : State :=
  if !s.present Ty.NAV c then s else
  let b := 1 - s.actBank c
  let st := if !s.bankOk c b then 1
    else if s.flag Reg.NAV_STS_OLD_BANK_BUSY c || (List.range 16).any (fun n => (s.nv c n).run && (s.nv c n).bank == b) then 2 else 0
  let s := s.setFld Reg.NAV_BANK_CTL_STATUS c st
  if st != 0 then s else
  ((s.unname .navBank c 0).setFlag Reg.NAV_STS_ARMED c true).name .navBank c 0 (s.reg64 Reg.NAV_BANK_AT_LO c % 2 ^ 48)
def execBankArm (c : Nat) (s : State) := live s fun s => s.bankArm (navC c)

/-- BANK_CANCEL: a switch still armed. -/
def execBankCancel (c : Nat) (s : State) := live s fun s => (s.unname .navBank (navC c) 0).setFlag Reg.NAV_STS_ARMED (navC c) false

/-- The named action: the standby bank becomes active. -/
def State.bankSwitch (s : State) (c : Nat) : State :=
  let s := (s.setFld Reg.NAV_STS_ACTIVE_BANK c (1 - s.actBank c)).setFlag Reg.NAV_STS_ARMED c false
  (s.setFlag Reg.NAV_STS_OLD_BANK_BUSY c true).setCluster c { s.cluster c with switched := s.tm.tickNo }

/-- BANK_FORCED: at or after the boundary of T + 1 a navigator still in the old bank is stopped and started in the new one, with
the tick word that a WFT would now return. (DEDUCED, log entry 129) -/
def State.bankForced (s : State) (c n : Nat) : State :=
  let e := s.nv c n
  if s.flag Reg.NAV_STS_OLD_BANK_BUSY c && e.run && e.bank != s.actBank c && decide ((s.cluster c).switched < s.tm.tickNo) then
    ((s.count Reg.NAV_BANK_FORCED c).navStart c n 1 (s.tickWord (e.b - 1) true false)).oldBankSettle c
  else s
def execBankForced (c n : Nat) (s : State) := live s fun s => s.bankForced (navC c) (navN n)

/-! ## The tick boundary -/

/-- A navigator at a boundary: spare or loss; a start that is due; the end of a waiting WFT; else one more boundary without. (DEDUCED, log entry 50) -/
def State.navTick (s : State) (c n : Nat) : State :=
  let s := s.spareStep c n
  let e := { s.nv c n with done := none }
  let s := s.setNv c n e
  match e.start with
  | some cause => s.navStart c n cause (s.tickWord 0 false false)
  | none =>
    if !e.run then s else
    let e := e.putCsr 0x344 (BitVec.ofNat 64 (2 ^ 18))
    match e.wait with
    | some w => (s.setNv c n e).wftReturn c n w.rd (s.tickWord 0 false false)
    | none => s.setNv c n { e with b := e.b + 1, idle := e.idle + 1 }

/-- Every navigator and cluster at a boundary. A navigator that the boundary has just started has passed none. -/
def State.navBoundary (s : State) : State :=
  let s := (s.nav.map (·.1)).foldl (fun (s : State) k => s.navTick (k / 16) (k % 16)) s
  (List.range 32).foldl (fun (s : State) c => if s.present Ty.NAV c then s.oldBankSettle c else s) s

/-- A block soft reset of a NAV page stops the navigators; banks, shared data and MIN_SVN stay (R382). -/
def State.navReset (s : State) (c : Nat) : State := ((List.range 16).foldl (fun (s : State) n => s.navStop c n) s).oldBankSettle c

/-- The effects of NAV error sources (R384): 0x02 faults the next data access (DESIGN CHOICE, log entry 136); 0x03 fails a LOAD; 0x04 ends a word of a bank (capture: its offset, the bank in
HI[31:16]); 0x05 and 0x06 stop the engine of the navigator in LO, forced the one that carries navigator 0. -/
def State.navErr (s : State) (d : Det) : State :=
  match d.src with
  | 2 => if d.forced then s else s.setCluster d.inst { s.cluster d.inst with dataErr := true }
  | 3 => match (s.cluster d.inst).load with
    | some l => (s.bankValid d.inst l.bank none).loadEnd d.inst 8
    | none => s
  | 4 => if d.forced then s else
    { s with nbad := s.nbad.set false (placeBank d.inst (d.capHi / 2 ^ 16 % 2) (d.capLo % 2 ^ 18) / 4) true }
  | 5 | 6 => s.engineFail d.inst (if d.forced then 0 else d.capLo % 16) true
  | _ => s

end Sys2Proof.Machine
end

