-- ==== Sys2Proof/Machine/Seal.lean ====
section
/-! DEFINITION. Sealed memory (R389 to R404): initialisation, keys, line encryption and tags, counter trees with their cache
and root, poison, reseal, and the check of masters. -/

namespace Sys2Proof.Machine

/-! ## Keys (R390) -/

/-- K1, K2 and K_TAG of region r of stack i: 0 to 3 the ranges, 4 spill, 5 scratch, 6 counter nodes. -/
def State.sealKeys (s : State) (i r : Nat) : Bytes × Bytes × Bytes :=
  let x := s.sealOf i
  let k := Config.hkdfExpand (x.sr.getD []) (ascii "BV3232 seal" ++ toBE 1 i ++ toBE 1 r ++ toBE 4 (x.epoch.get 0 r)) 96
  (sliceB k 0 32, sliceB k 32 32, sliceB k 64 32)

/-- The key region of a part of the stack. -/
def SealPart.region : SealPart → Nat
  | .range r => r
  | .spill => 4
  | .scratch => 5

/-! ## Lines (R391) -/

/-- Leftmost 64 bits of a CMAC. -/
def tag64 (k m : Bytes) : Bytes := sliceB (Config.cmac k m) 0 8

/-- The tag of ciphertext on line `line` at a version, and the tag that poisons the line. -/
def lineTag (k : Bytes) (line ver : Nat) (ct : Bytes) : Bytes := tag64 k (toBE 8 line ++ (0 :: toBE 7 ver) ++ sliceB ct 0 64)
def linePoison (k : Bytes) (line ver : Nat) : Bytes := tag64 k (toBE 8 line ++ (0xFF :: toBE 7 ver) ++ List.replicate 64 0)

/-- The tweak: version × 2^72 + i. -/
def lineTweak (line ver : Nat) : Nat := (ver * 2 ^ 72 + line) % 2 ^ 128

/-- A line as HBM holds it: 64 ciphertext bytes and the tag. -/
def State.lineSeal (s : State) (i line ver : Nat) (d : Bytes) : Bytes :=
  let (k1, k2, kt) := s.sealKeys i (s.sealPart i line).region
  let ct := sliceB (Config.xtsEnc k1 k2 (lineTweak line ver) (sliceB d 0 64)) 0 64
  ct ++ lineTag kt line ver ct

/-- What HBM holds of a line: in a protected range zeros at version 0 until it is written; elsewhere nothing is known of a line
never written (a free value). -/
def State.lineHeld (s : State) (i line : Nat) : Bytes × State :=
  match (s.sealOf i).hbm.find line with
  | some b => (b, s)
  | none => match s.sealPart i line with
    | .range _ => (s.lineSeal i line 0 (List.replicate 64 0), s)
    | _ =>
      let (v, s) := s.draw 576
      (toBE 72 v, s)

/-- Store what HBM holds of a line. -/
def State.setLine (s : State) (i line : Nat) (b : Bytes) : State :=
  let x := s.sealOf i
  s.setSeal i { x with hbm := x.hbm.insert line b }

/-- Poison a line (R391). -/
def State.poisonLine (s : State) (i line ver : Nat) (held : Bytes) : State :=
  s.setLine i line (sliceB held 0 64 ++ linePoison (s.sealKeys i (s.sealPart i line).region).2.2 line ver)

/-- LAST_ERR_ADDR. -/
def State.errLine (s : State) (i line : Nat) : State := s.setReg64 Reg.SEAL_LAST_ERR_ADDR_LO i (line * 64)

/-! ## Counter nodes (R394, R395) -/

/-- The key of a node. (DEDUCED, log entry 62) -/
def nodeKey (r l n : Nat) : Nat := (r * 8 + l) * 2 ^ 22 + n

/-- A node's line in the counter region: the trees in the order of their ranges, each from the leaf level up (log entry 62). -/
def State.nodeLine (s : State) (i r l n : Nat) : Nat :=
  ((List.range r).foldl (fun a q => a + (s.sealLevels i q).foldl (· + ·) 0) 0) + (((s.sealLevels i r).take l).foldl (· + ·) 0) + n

/-- A node's MAC from its parent's counter for it and its eight counters. -/
def State.nodeMac (s : State) (i r l n parent : Nat) (ctrs : List Nat) : Bytes :=
  tag64 (s.sealKeys i 6).2.2 (toBE 8 (s.nodeLine i r l n) ++ toBE 8 parent ++ (ctrs.map (toBE 7)).flatten)

/-- The eight counters of a node's 64 bytes. -/
def nodeCtrs (b : Bytes) : List Nat := (List.range 8).map fun j => beAt b (7 * j) 7

/-- Eight zero counters. -/
def noCtrs : List Nat := List.replicate 8 0

/-- A node as HBM holds it: one never written back stands as INIT built it. -/
def State.nodeHeld (s : State) (i r l n : Nat) : Bytes :=
  match (s.sealOf i).nodes.find (nodeKey r l n) with
  | some b => b
  | none => List.replicate 56 0 ++ s.nodeMac i r l n 0 noCtrs

/-- A node in the counter cache. -/
def SealS.cached (x : SealS) (r l n : Nat) : Option SealNode := x.cache.find? fun c => c.range == r && c.level == l && c.index == n

/-- The parent's counter for a node: in the root at the last level. -/
def State.parentCtr (s : State) (i r l n : Nat) : Nat :=
  let x := s.sealOf i
  if (s.sealLevels i r).length ≤ l + 1 then x.root.get 0 (r * 8 + n)
  else match x.cached r (l + 1) (n / 8) with
    | some c => c.ctrs.getD (n % 8) 0
    | none => (nodeCtrs (s.nodeHeld i r (l + 1) (n / 8))).getD (n % 8) 0

/-- Replace a cached node. -/
def State.setCached (s : State) (i : Nat) (c : SealNode) : State :=
  let x := s.sealOf i
  s.setSeal i { x with cache := x.cache.map fun d => if d.range == c.range && d.level == c.level && d.index == c.index then c else d }

/-- Write a node to HBM under its parent's incremented counter (R395). A parent that has left the cache is itself written back
through, its own parent's counter first. The first argument bounds the levels above. -/
def State.nodeWrite (s : State) (i r : Nat) : Nat → Nat → Nat → List Nat → State
  | 0, _, _, _ => s
  | k + 1, l, n, ctrs =>
    let v := s.parentCtr i r l n + 1
    let s :=
      if (s.sealLevels i r).length ≤ l + 1 then s.setSeal i { s.sealOf i with root := (s.sealOf i).root.set 0 (r * 8 + n) v }
      else match (s.sealOf i).cached r (l + 1) (n / 8) with
        | some c => s.setCached i { c with ctrs := c.ctrs.set (n % 8) v, dirty := true }
        | none => s.nodeWrite i r k (l + 1) (n / 8) ((nodeCtrs (s.nodeHeld i r (l + 1) (n / 8))).set (n % 8) v)
    let x := s.sealOf i
    s.setSeal i { x with nodes := x.nodes.insert (nodeKey r l n) ((ctrs.map (toBE 7)).flatten ++ s.nodeMac i r l n v ctrs) }

/-- Nodes that the counter cache holds (R395). -/
def State.cacheNodes (s : State) : Nat :=
  match s.part with
  | .bv3216 => 65536
  | _ => 32768

/-! ## Poisoned nodes (R397) -/

/-- SEAL_STS and POISON_NODE show the list. -/
def State.sealShow (s : State) (i : Nat) : State :=
  let x := s.sealOf i
  let bad (r : Nat) : Nat := if x.lost.get false r || x.poisoned.any (·.1 == r) then 2 ^ r else 0
  let s := s.setFld Reg.SEAL_STS_POISONED i (bad 0 + bad 1 + bad 2 + bad 3)
  let s := s.setFld Reg.SEAL_STS_LISTED i x.poisoned.length
  s.setReg Reg.SEAL_POISON_NODE i (match x.poisoned with
    | (r, l, n) :: _ => r % 4 + l % 8 * 4 + n % 2 ^ 22 * 32 + 2 ^ 31
    | [] => 0)

/-- The associations whose records lie under a node, or all, become INVALID with FAULT 1, with a LOAD_ERR event each. -/
def State.sealLose (s : State) (first count : Nat) : State :=
  (List.range count).foldl (fun (s : State) k =>
    if first + k < 2 ^ 18 then (s.destroyAx (first + k) true).almEvent 0x42 0 (first + k) 0 else s) s

/-- A lost node (R397): it is listed, or its range is lost where the list is full; NODE_POISON counts; ASSOC's span is lost. -/
def State.nodeLost (s : State) (i r l n : Nat) : State :=
  let x := s.sealOf i
  let known := x.poisoned.contains (r, l, n)
  let full := !known && decide (16 ≤ x.poisoned.length)
  let y : SealS := if known then x
    else if full then { x with lost := x.lost.set false r true } else { x with poisoned := x.poisoned ++ [(r, l, n)] }
  let s := (s.setSeal i { y with cache := y.cache.filter fun c => !(c.range == r && c.level == l && c.index == n) }).sealShow i
  let s := s.count Reg.SEAL_NODE_POISON i
  if (s.sealRange i r).2.2 == 1 then
    if full then s.sealLose 0 (2 ^ 18) else s.sealLose (n * 8 ^ (l + 1) / 4) (8 ^ (l + 1) / 4)
  else s

/-- NODE_POISON: a failing node is lost, with the event of its source. -/
def State.nodePoison (s : State) (i r l n src : Nat) : State :=
  (s.nodeLost i r l n).raise Ty.SEAL i src (s.nodeLine i r l n) (r * 2 ^ 16)

/-- A root counter's uncorrectable error poisons its range (R397). -/
def State.rootPoison (s : State) (i r : Nat) : State :=
  let x := s.sealOf i
  let s := ((s.setSeal i { x with lost := x.lost.set false r true }).sealShow i).count Reg.SEAL_NODE_POISON i
  if (s.sealRange i r).2.2 == 1 then s.sealLose 0 (2 ^ 18) else s

/-! ## Write-back (R395) -/

/-- COUNTER_NODE_EVICT: the least recently used node leaves a full cache, written back if it is dirty; a dirty node whose SRAM fails
(ERR_INV_CHECK bit 2) is lost (R397, R404). -/
def State.evictNode (s : State) (i : Nat) : State :=
  let x := s.sealOf i
  if x.cache.length ≤ s.cacheNodes then s else
  match x.cache.getLast? with
  | some c =>
    let s := s.setSeal i { x with cache := x.cache.dropLast }
    if !c.dirty then s else if s.inv Ty.SEAL i 2 then s.nodePoison i c.range c.level c.index 5 else s.nodeWrite i c.range 9 c.level c.index c.ctrs
  | none => s

/-- Write back every dirty node, leaves first, and empty the cache. -/
def State.flushNodes (s : State) (i : Nat) : State :=
  let step (s : State) (l : Nat) : State :=
    ((s.sealOf i).cache.filter fun c => c.level == l && c.dirty).foldl (fun (s : State) c =>
      let s := match (s.sealOf i).cached c.range c.level c.index with
        | some d => if s.inv Ty.SEAL i 2 then s.nodePoison i d.range d.level d.index 5 else s.nodeWrite i d.range 9 d.level d.index d.ctrs
        | none => s
      let x := s.sealOf i
      s.setSeal i { x with cache := x.cache.filter fun d => !(d.range == c.range && d.level == l && d.index == c.index) }) s
  let s := (List.range 9).foldl step s
  s.setSeal i { s.sealOf i with cache := [] }

/-! ## The path of a line -/

/-- Bring one node of a line's path into the cache: its ECC (levels in `bad` fail), its MAC under the parent's counter, which for a
node of the last level is read from the root SRAM. Answers whether it stands, and whether it was fetched. -/
def State.nodeFetch (s : State) (i r l n : Nat) (bad : List Nat) : State × Bool × Nat :=
  let touch (s : State) (c : SealNode) : State :=
    let x := s.sealOf i
    (s.setSeal i { x with cache := c :: x.cache.filter fun d => !(d.range == r && d.level == l && d.index == n) }).evictNode i
  let fetch (s : State) : State × Bool × Nat :=
    let s := s.count64 Reg.SEAL_CC_MISS_LO i
    let b := s.nodeHeld i r l n
    let inv := s.inv Ty.SEAL i 1
    let s := if inv then s.invDone Ty.SEAL i 1 else s
    if (s.sealLevels i r).length ≤ l + 1 && s.inv Ty.SEAL i 2 then (((s.rootPoison i r).raiseInv Ty.SEAL i 5 n r), false, 1)
    else if bad.contains l || inv || sliceB b 56 8 != s.nodeMac i r l n (s.parentCtr i r l n) (nodeCtrs b) then
      (s.nodePoison i r l n 4, false, 1)
    else (touch s ⟨r, l, n, nodeCtrs b, false⟩, true, 1)
  match (s.sealOf i).cached r l n with
  | some c =>
    if s.inv Ty.SEAL i 2 then
      if c.dirty then (s.nodePoison i r l n 5, false, 0)
      else
        let x := s.sealOf i
        fetch ((s.setSeal i { x with cache := x.cache.filter fun d => !(d.range == r && d.level == l && d.index == n) }).raiseInv Ty.SEAL i 9
          (s.nodeLine i r l n) 0)
    else (touch s c, true, 0)
  | none => fetch s

/-- The path of line `rl` of range r, from the highest level down: whether every node stands, and how many were fetched. -/
def State.pathFetch (s : State) (i r rl : Nat) (bad : List Nat) : Nat → State × Bool × Nat
  | 0 => (s, true, 0)
  | k + 1 =>
    match s.nodeFetch i r k (rl / 8 ^ (k + 1)) bad with
    | (s, false, m) => (s, false, m)
    | (s, true, m) =>
      match s.pathFetch i r rl bad k with
      | (s, ok, m') => (s, ok, m + m')

/-- The version of a line: its leaf counter, once its path stands in the cache. -/
def State.lineCtr (s : State) (i r rl : Nat) : Nat :=
  match (s.sealOf i).cached r 0 (rl / 8) with
  | some c => c.ctrs.getD (rl % 8) 0
  | none => (nodeCtrs (s.nodeHeld i r 0 (rl / 8))).getD (rl % 8) 0

/-! ## Accesses (R392, R393, R399) -/

/-- Whether a master may reach a part: 0 the Almanac and key agent, 1 the image loader, 2 the bin store and PAIR mirror, 3 the
BUF pager, 4 the host-interface DMA, 5 the Eyepiece. -/
def State.sealMay (s : State) (i master : Nat) : SealPart → Bool
  | .range r => match (s.sealRange i r).2.2 with
    | 1 => master == 0
    | 2 => master == 1
    | 3 => master == 0 || master == 2
    | _ => false
  | .spill => master == 3
  | .scratch => (master == 4 && s.flag Reg.SEAL_CTL_SCRATCH_DMA i) || (master == 5 && s.flag Reg.SEAL_CTL_SCRATCH_DBG i)

/-- The answer to an access. -/
def State.sealAnswer (s : State) (i : Nat) (d : Bytes) (err : Bool) (cycles : Nat) : State :=
  s.setSeal i { s.sealOf i with answer := (if err then List.replicate 64 0 else d, err, cycles) }

/-- MASTER_CHECK: a refused access (R399). -/
def State.sealBlock (s : State) (i master line : Nat) : State :=
  let s := (s.count Reg.SEAL_BLOCKED i).raise Ty.SEAL i 8 (line * 64 % 2 ^ 32) (line * 64 / 2 ^ 32)
  let s := if master == 5 then s.log 0x40 0 Ty.SEAL i 8 (line * 64 % 2 ^ 24) else s
  s.sealAnswer i [] true 0

/-- A line number of the range it lies in. -/
def State.rangeLine (s : State) (i r line : Nat) : Nat := line - (s.sealRange i r).1 * unitLines

/-- A reseal under way covers a line of a range (R398). -/
def SealS.resealing (x : SealS) (r rl : Nat) : Bool :=
  match x.reseal with
  | some (op, q, l, n) => q == r && (op == 1 || underNode l n rl)
  | none => false

/-- What stands before an access to a line: the stack is open, the master may (none may reach the tag and counter regions, R388),
the range is open, and its path stands. Answers the version and the nodes fetched; none where an error has been answered.
(DESIGN CHOICE, log entry 130: an access before READY is answered with an error; the access that finds a failing node counts no
POISON_HIT, and any later one does) -/
def State.sealOpen (s : State) (i master line : Nat) (bad : List Nat) : State × Option (Nat × Nat) :=
  let x := s.sealOf i
  if !s.flag Reg.SEAL_STS_READY i || x.zeroised then (s.sealAnswer i [] true 0, none)
  else if usableUnits * unitLines ≤ line then (s.sealBlock i master line, none)
  else if !s.sealMay i master (s.sealPart i line) then (s.sealBlock i master line, none)
  else match s.sealPart i line with
    | .range r =>
      let rl := s.rangeLine i r line
      if !s.flag Reg.SEAL_STS_ROOT_OK i || x.resealing r rl then (s.sealAnswer i [] true 0, none)
      else if x.poisonedAt r rl then ((s.count Reg.SEAL_POISON_HIT i).sealAnswer i [] true 0, none)
      else match s.pathFetch i r rl bad (s.sealLevels i r).length with
        | (s, true, k) => (s, some (s.lineCtr i r rl, k))
        | (s, false, _) => (s.sealAnswer i [] true 0, none)
    | _ => (s, some (0, 0))

/-- Core cycles that a read adds (R392). -/
def readCycles (k : Nat) : Nat := if k == 0 then 24 else 24 + 120 + 8 * k

/-- How a line as HBM returned it stands: 0 good, 1 poisoned, 2 its tag fails. -/
def State.lineState (s : State) (i line ver : Nat) (b : Bytes) : Nat :=
  let kt := (s.sealKeys i (s.sealPart i line).region).2.2
  if sliceB b 64 8 == lineTag kt line ver b then 0 else if sliceB b 64 8 == linePoison kt line ver then 1 else 2

/-- Whether a part is a protected range. -/
def SealPart.isRange : SealPart → Bool
  | .range _ => true
  | _ => false

/-- The tag comparison of a line read (R391), counted in READS: 0 good, 1 poisoned, 2 failing. ERR_INV_CHECK bit 0 makes the next one of a
protected line fail (R404). -/
def State.lineLook (s : State) (i line ver : Nat) (b : Bytes) : State × Nat :=
  let s := s.count64 Reg.SEAL_READS_LO i
  if (s.sealPart i line).isRange && s.inv Ty.SEAL i 0 then (s.invDone Ty.SEAL i 0, 2) else (s, s.lineState i line ver b)

/-- HBM_LINE_READ (R392): `got` is what HBM returned where it differs from what was last written (altered, or an older line put
back), `ecc` an uncorrectable error, `bad` the levels whose fetched node has one. (DEDUCED, log entry 62) -/
def State.lineRead (s : State) (i master line : Nat) (got : Bytes) (ecc : Bool) (bad : List Nat) : State :=
  match s.sealOpen i master line bad with
  | (s, none) => s
  | (s, some (ver, k)) =>
    let (held, s) := s.lineHeld i line
    let b := if got.isEmpty then held else sliceB got 0 72
    let prot := (s.sealPart i line).isRange
    let fail (s : State) (src : Nat) : State :=
      (((s.poisonLine i line ver b).errLine i line).raise Ty.SEAL i src (line * 64 % 2 ^ 32) (line * 64 / 2 ^ 32)).sealAnswer i [] true (readCycles k)
    if ecc then fail ((s.count64 Reg.SEAL_READS_LO i).count Reg.SEAL_ECC_UNCORR i) (if prot then 2 else 7) else
    match s.lineLook i line ver b with
    | (s, 0) =>
      let (k1, k2, _) := s.sealKeys i (s.sealPart i line).region
      s.sealAnswer i (sliceB (Config.xtsDec k1 k2 (lineTweak line ver) (sliceB b 0 64)) 0 64) false (readCycles k)
    | (s, 1) => ((s.count Reg.SEAL_POISON_HIT i).errLine i line).sealAnswer i [] true (readCycles k)
    | (s, _) => fail (s.count Reg.SEAL_TAG_FAIL i) (if prot then 3 else 7)
def execHbmLineRead (inst master line : Nat) (got : List Byte) (ecc : Bool) (bad : List Nat) (s : State) := live s fun s =>
  if s.present Ty.SEAL (inst % 2) then s.lineRead (inst % 2) master line got ecc bad else s

/-- A whole line written at an open path of version `ver` (R393, R394). -/
def State.lineStore (s : State) (i line ver : Nat) (d : Bytes) : State :=
  match s.sealPart i line with
  | .range r =>
    let rl := s.rangeLine i r line
    if 2 ^ 56 - 1 ≤ ver then
      let (held, s) := s.lineHeld i line
      (((s.poisonLine i line ver held).errLine i line).raise Ty.SEAL i 3 (line * 64 % 2 ^ 32) (line * 64 / 2 ^ 32)).sealAnswer i [] true 0
    else
      let s := match (s.sealOf i).cached r 0 (rl / 8) with
        | some c => s.setCached i { c with ctrs := c.ctrs.set (rl % 8) (ver + 1), dirty := true }
        | none => s
      ((s.setLine i line (s.lineSeal i line (ver + 1) d)).count64 Reg.SEAL_WRITES_LO i).sealAnswer i [] false 0
  | _ => ((s.setLine i line (s.lineSeal i line 0 d)).count64 Reg.SEAL_WRITES_LO i).sealAnswer i [] false 0

/-- PARTIAL_WRITE: bytes from offset `o` of a line, a read-modify-write that a failing line refuses (R393). The line read is one of
READS; its failure counts PARTIAL_REFUSED alone. (DEDUCED, log entry 137) -/
def State.linePartial (s : State) (i master line o : Nat) (d got : Bytes) (ecc : Bool) (bad : List Nat) : State :=
  match s.sealOpen i master line bad with
  | (s, none) => s
  | (s, some (ver, _)) =>
    let (held, s) := s.lineHeld i line
    let b := if got.isEmpty then held else sliceB got 0 72
    let (s, st) := if ecc then (s.count64 Reg.SEAL_READS_LO i, 2) else s.lineLook i line ver b
    if st != 0 then
      let s := if st == 1 then s else s.poisonLine i line ver b
      (((s.count Reg.SEAL_PARTIAL_REFUSED i).errLine i line).raise Ty.SEAL i 6 (line * 64 % 2 ^ 32) (line * 64 / 2 ^ 32)).sealAnswer i [] true 0
    else
      let (k1, k2, _) := s.sealKeys i (s.sealPart i line).region
      let old := sliceB (Config.xtsDec k1 k2 (lineTweak line ver) (sliceB b 0 64)) 0 64
      s.lineStore i line ver (old.take o ++ d ++ old.drop (o + d.length))

/-- The pieces of a write at an offset, line by line: line, offset in it, bytes. -/
def linePieces : Nat → Nat → Bytes → List (Nat × Nat × Bytes)
  | 0, _, _ => []
  | k + 1, off, d =>
    if d.isEmpty then [] else
    let n := 64 - off % 64
    (off / 64, off % 64, d.take n) :: linePieces k (off / 64 * 64 + 64) (d.drop n)

/-- HBM_LINE_WRITE (R393): whole lines are replaced; a write of fewer bytes or across lines goes line by line. `got` and `ecc`
say what HBM returned for each line that is read, in order (empty: what was last written). -/
def State.hbmWrite (s : State) (i master off : Nat) (d : Bytes) (got : List Bytes) (ecc : List Bool) (bad : List Nat) : State :=
  let l := linePieces (d.length + 1) off d
  (List.range l.length).foldl (fun (s : State) k =>
    match l[k]? with
    | some (line, o, b) =>
      if b.length == 64 then
        match s.sealOpen i master line bad with
        | (s, some (ver, _)) => s.lineStore i line ver b
        | (s, none) => s
      else s.linePartial i master line o b (got.getD k []) (ecc.getD k false) bad
    | none => s) s
def execHbmLineWrite (inst master off : Nat) (d : List Byte) (got : List (List Byte)) (ecc : List Bool) (bad : List Nat) (s : State) :=
  live s fun s => if s.present Ty.SEAL (inst % 2) then s.hbmWrite (inst % 2) master off d got ecc bad else s

/-! ## Initialisation (R389, R390) -/

/-- Two regions of units overlap. -/
def overlaps (a b : Nat × Nat) : Bool := decide (a.1 < b.1 + b.2) && decide (b.1 < a.1 + a.2) && a.2 != 0 && b.2 != 0

/-- Any two of a list. -/
def anyOverlap : List (Nat × Nat) → Bool
  | [] => false
  | a :: t => t.any (overlaps a) || anyOverlap t

/-- The highest present cluster + 1. -/
def State.clusters (s : State) : Nat := (List.range 32).foldl (fun a c => if s.present Ty.NAV c then c + 1 else a) 0

/-- The checks of INIT: INIT_ERR of the first that fails. -/
def State.sealInitErr (s : State) (i : Nat) : Nat :=
  let rs := ([0, 1, 2, 3].map fun r => s.sealRange i r).filter fun x => x.2.2 != 0
  let spill := (s.fld Reg.SEAL_SPILL_CFG_BASE i, s.fld Reg.SEAL_SPILL_CFG_SIZE i)
  let regs := (spill :: rs.map fun x => (x.1, x.2.1)).filter fun x => x.2 != 0
  let all := [0, 1].flatMap fun k => if s.present Ty.SEAL k then [0, 1, 2, 3].map fun r => s.sealRange k r else []
  let uses (u : Nat) : Nat := all.countP fun x => x.2.2 == u
  if anyOverlap regs || regs.any fun x => decide (usableUnits < x.1 + x.2) then 1
  else if 896 < rs.foldl (fun a x => a + x.2.1) 0 || decide (4194304 < s.treeNodes i) then 2
  else if uses 1 != 1 || uses 2 != 1 || uses 3 != 1 then 3
  else if rs.any fun x => (x.2.2 == 1 && decide (x.2.1 < 32)) || (x.2.2 == 2 && decide (x.2.1 < s.clusters)) then 4
  else if (s.sealOf i).badStack then 5
  else 0

/-- SEAL_INIT: accepted once; the map is checked, a nonce drawn and the seal root derived. -/
def State.sealInit (s : State) (i : Nat) : State :=
  if !s.present Ty.SEAL i then s else
  let x := s.sealOf i
  if x.begun then s.count Reg.SEAL_CFG_REJECT i else
  let e := s.sealInitErr i
  let s := s.setFld Reg.SEAL_STS_INIT_ERR i e
  if e != 0 then s else
  let (n, s) := s.drawBytes 48
  let sr := match s.lcs.root with
    | some r => Config.hkdfExtract n (r ++ s.lcs.vbat.secret.getD [])
    | none => Config.hkdfExtract n []
  let s := s.setSeal i { x with sr := some sr, begun := true }
  (s.setFlag Reg.SEAL_STS_INIT_BUSY i true).setFlag Reg.SEAL_STS_ROOT_OK i s.lcs.root.isSome
def execSealInit (inst : Nat) (s : State) := live s fun s => s.sealInit (inst % 2)

/-- SEAL_INIT_DONE. -/
def State.sealInitDone (s : State) (i : Nat) : State :=
  if !s.flag Reg.SEAL_STS_INIT_BUSY i then s else
  ((s.setFlag Reg.SEAL_STS_INIT_BUSY i false).setFlag Reg.SEAL_STS_READY i true).intSet Ty.SEAL i 0
def execSealInitDone (inst : Nat) (s : State) := live s fun s => s.sealInitDone (inst % 2)

/-! ## Reseal (R398) -/

/-- A write of RESEAL_CMD with a non-zero OP. -/
def State.resealStart (s : State) (i op r : Nat) : State :=
  if !s.present Ty.SEAL i || s.flag Reg.SEAL_RESEAL_CMD_BUSY i then s else
  let x := s.sealOf i
  let word (st busy : Nat) : Nat := r % 4 + op % 4 * 16 + st * 2 ^ 24 + busy * 2 ^ 31
  let node := x.poisoned.find? fun p => p.1 == r
  let done (s : State) (st : Nat) : State := (s.setReg Reg.SEAL_RESEAL_CMD i (word st 0)).intSet Ty.SEAL i 6
  if !s.flag Reg.SEAL_STS_READY i || !s.flag Reg.SEAL_STS_ROOT_OK i then done s 6
  else if (s.sealRange i r).2.2 == 0 || (op == 2 && node.isNone) then done s 1
  else
    let (_, l, n) := node.getD (r, 0, 0)
    let s := s.setSeal i { x with reseal := some (op, r, l, n) }
    let s := if op == 1 && (s.sealRange i r).2.2 == 1 then s.destroyAll true else s
    (s.setReg Reg.SEAL_RESEAL_CMD i (word 0 1)).setFlag Reg.SEAL_STS_RESEAL_BUSY i true

/-- RESEAL_RANGE. -/
def execResealRange (inst r : Nat) (s : State) := live s fun s => s.resealStart (inst % 2) 1 (r % 4)

/-- RESEAL_NODE. -/
def execResealNode (inst r : Nat) (s : State) := live s fun s => s.resealStart (inst % 2) 2 (r % 4)

/-- A whole range rewritten under a new epoch (R390, R398). -/
def State.resealWhole (s : State) (i r : Nat) : State :=
  let x := s.sealOf i
  let (b, n, _) := s.sealRange i r
  let lo := b * unitLines
  let hi := (b + n) * unitLines
  s.setSeal i { x with
    epoch := x.epoch.set 0 r (x.epoch.get 0 r + 1)
    hbm := x.hbm.keep fun k _ => !(decide (lo ≤ k) && decide (k < hi))
    nodes := x.nodes.keep fun k _ => k / 2 ^ 25 != r
    root := x.root.keep fun k _ => k / 8 != r
    cache := x.cache.filter fun c => c.range != r
    poisoned := x.poisoned.filter fun p => p.1 != r
    lost := x.lost.erase r }

/-- A listed node's subtree rewritten: its lines are zeros with valid tags, its nodes as at INIT, and its parent's counter one
more. -/
def State.resealSub (s : State) (i r l n : Nat) : State :=
  let x := s.sealOf i
  let b := (s.sealRange i r).1 * unitLines
  let under (k : Nat) : Bool :=
    let lv := k / 2 ^ 22 % 8
    k / 2 ^ 25 == r && decide (lv ≤ l) && k % 2 ^ 22 / 8 ^ (l - lv) == n
  let s := s.setSeal i { x with
    hbm := x.hbm.keep fun k _ => !(decide (b ≤ k) && underNode l n (k - b) && decide (k - b < (s.sealRange i r).2.1 * unitLines))
    nodes := x.nodes.keep fun k _ => !under k
    cache := x.cache.filter fun c => !under (nodeKey c.range c.level c.index)
    poisoned := x.poisoned.erase (r, l, n) }
  s.nodeWrite i r 9 l n noCtrs

/-- RESEAL_DONE. -/
def State.resealDone (s : State) (i : Nat) : State :=
  match (s.sealOf i).reseal with
  | none => s
  | some (op, r, l, n) =>
    let s := s.setSeal i { s.sealOf i with reseal := none }
    let s := if op == 1 then s.resealWhole i r else s.resealSub i r l n
    let s := (s.sealShow i).count Reg.SEAL_RESEALS i
    (((s.setFlag Reg.SEAL_RESEAL_CMD_BUSY i false).setFld Reg.SEAL_RESEAL_CMD_STATUS i 0).setFlag Reg.SEAL_STS_RESEAL_BUSY i false).intSet Ty.SEAL i 6
def execResealDone (inst : Nat) (s : State) := live s fun s => s.resealDone (inst % 2)

/-! ## Other effects -/

/-- A life-cycle change reseals every protected range under a new epoch (R401). -/
def State.sealLife (s : State) : State :=
  [0, 1].foldl (fun (s : State) i =>
    if !s.flag Reg.SEAL_STS_READY i then s else
    [0, 1, 2, 3].foldl (fun (s : State) r =>
      if (s.sealRange i r).2.2 == 0 then s else ((s.resealWhole i r).sealShow i).count Reg.SEAL_RESEALS i) s) s

/-- A block soft reset of a SEAL page, or PERST_N (R401). -/
def State.sealSoft (s : State) (i : Nat) : State := (s.flushNodes i).clearCounters Ty.SEAL i

/-- The effects of SEAL error sources (R404) that the commands here do not take themselves, with the element in the capture
words: 0x02, 0x03, 0x06 and 0x07 poison the line at the offset; 0x04 and 0x05 poison a node (LO as POISON_NODE shows it), or
with LO bit 31 clear a range by its root; 0x09 drops the clean node whose counter-region line LO names. An uncorrectable data line counts
ECC_UNCORR, and 0x03 counts TAG_FAIL. (DESIGN CHOICE, log entry 130: an event 0x07 stands for an ECC error) -/
def State.sealErr (s : State) (d : Det) : State :=
  if d.forced || !s.flag Reg.SEAL_STS_READY d.inst then s else
  let i := d.inst
  let line := (d.capLo + d.capHi * 2 ^ 32) / 64 % 2 ^ 28
  let lose (s : State) : State :=
    let ver := match s.sealPart i line with
      | .range r => s.lineCtr i r (s.rangeLine i r line)
      | _ => 0
    let (held, s) := s.lineHeld i line
    (s.poisonLine i line ver held).errLine i line
  match d.src with
  | 2 | 7 => (lose s).count Reg.SEAL_ECC_UNCORR i
  | 3 => (lose s).count Reg.SEAL_TAG_FAIL i
  | 6 => (lose s).count Reg.SEAL_PARTIAL_REFUSED i
  | 4 | 5 =>
    let w := d.capLo
    if bitOf w 31 then
      let p := (w % 4, w / 4 % 8, w / 32 % 2 ^ 22)
      if (s.sealOf i).poisoned.contains p then s else s.nodeLost i p.1 p.2.1 p.2.2
    else s.rootPoison i (w % 4)
  | 8 => s.count Reg.SEAL_BLOCKED i
  | 9 =>
    let x := s.sealOf i
    s.setSeal i { x with cache := x.cache.filter fun c => c.dirty || s.nodeLine i c.range c.level c.index != d.capLo }
  | _ => s

end Sys2Proof.Machine
end

