-- ==== Sys2Proof/Machine/Hif.lean ====
section
/-! DEFINITION. The host interface (R409 to R434) but for the ring commands: doorbells, exception posts, injection descriptors
and the completion of injected frames, faults, interrupt vectors, the CRC units and the counter snapshots. -/

namespace Sys2Proof.Machine

/-! ## Doorbells (R411 to R413) -/

/-- A ring is written by the host: command and injection rings. -/
def hostRing (r : Nat) : Bool := decide (r < 8) || decide (80 ≤ r)

/-- Descriptors read from the slots after those the device holds: each needs the window's permission and OWN. One with OWN 0
stops the reading there (OWN_STALL). (DESIGN CHOICE, log entry 80) -/
def State.takeDescs (s : State) (r : Nat) : List Bytes → State
  | [] => s.setRing r { s.ring r with stalled := false }
  | d :: rest =>
    let x := s.ring r
    let (s, ok) := s.dmaRead x.window (x.offset + 64 * ((x.devIdx + x.desc.length) % 2 ^ x.log2)) 64
    if !ok then s.ringFault r
    else if beAt d 63 1 < 128 then (s.count Reg.HIF_OWN_STALL 0).setRing r { x with stalled := true }
    else (s.setRing r { x with desc := x.desc ++ [sliceB d 0 64] }).takeDescs r rest

/-- DOORBELL_WRITE: an index beyond the ring, or more descriptors than the ring has slots, is a ring fault (R427). `descs` are
the slots' contents as the device reads them. (DESIGN CHOICE, log entry 80) -/
def State.doorbell (s : State) (r idx : Nat) (descs : List Bytes) : State :=
  let x := s.ring r
  if !x.en || !s.active Ty.HIF 0 || s.flag Reg.HIF_STS_QUIESCED 0 then s else
  let size := 2 ^ x.log2
  let from_ := (x.devIdx + x.desc.length) % size
  let n := (idx + size - from_) % size
  if size ≤ idx || size < x.desc.length + n then s.ringFault r
  else (s.setRing r { x with bellIdx := idx }).takeDescs r ((List.range n).map fun k => descs.getD k [])

/-- Write back a consumed descriptor: result bytes, then OWN 0 in byte 63 (R412). False where the window no longer allows it. -/
def State.giveBack (s : State) (r slot : Nat) (d : Bytes) : State × Bool :=
  let x := s.ring r
  let (s, ok) := s.dmaWrite x.window (x.offset + 64 * slot) (sliceB d 0 63 ++ [0])
  if ok then (s, true) else (s.ringFault r, false)

/-! ## Exception posts (R418, R419) -/

/-- The item of a frame: DATA of KIND 2 and the fields from byte 48 on; `n` bytes written to the buffer. (DEDUCED, log entry 56) -/
def State.frameItem (s : State) (p : Pkt) (n : Nat) : Bytes :=
  let t := s.ingressTime p
  let flags := (if p.ptp then 1 else 0) + (if p.eapol then 2 else 0) + if n < p.data.length then 4 else 0
  let body := toLE 2 p.src ++ toLE 2 p.domain ++ toLE 1 p.cls ++ toLE 1 flags ++ toLE 2 0 ++ toLE 4 (secOf t) ++ toLE 4 (nanoOf t) ++ toLE 6 p.tick
  sliceB body 0 48 ++ toLE 1 2 ++ [0] ++ toLE 2 n ++ toLE 1 (p.hp / 2) ++ toLE 1 Ty.FWD ++ toLE 2 0 ++ toLE 6 s.tick

/-- EXCEPTION_POST: the oldest frame on its way to exception ring r; cut to BUF_LEN, or dropped where none is given or BUF_LEN
is 0. Event records are posted as their blocks raise them. (DEDUCED, log entry 77) -/
def State.excFrame (s : State) (r : Nat) : State :=
  if !s.active Ty.HIF 0 then s else
  match s.hostIn.find? fun q => q.1 == r with
  | none => s
  | some (r', p) =>
    let s := { s with hostIn := s.hostIn.erase (r', p) }
    let ring := 16 + r
    let x := s.ring ring
    let drop (s : State) : State := (s.count Reg.HIF_EXC_FRAME_DROP 0).injFin p 2 none
    if !x.en then drop s else
    match x.desc with
    | [] => drop s
    | d :: _ =>
      let n := min p.data.length (leAt d 10 2)
      if leAt d 10 2 == 0 then drop s else
      match s.dmaWrite (leAt d 8 1 % 16) (leAt d 0 8) (sliceB p.data 0 n) with
      | (s, false) => drop s
      | (s, true) =>
        match s.ringPut ring (s.frameItem p n) with
        | (s, true) => s.injFin p 0 none
        | (s, false) => drop s
def execExceptionPost (ring : Nat) (s : State) := live s fun s => s.excFrame (ring % 64)

/-! ## Injection (R369, R420) -/

/-- Write back the injection descriptors at the front of a ring that have their result, in ring order. -/
def State.injReturn (s : State) (r : Nat) : Nat → State
  | 0 => s
  | k + 1 =>
    match (s.ring r).inj with
    | (slot, d, some (st, time)) :: rest =>
      let eg : Bytes := match time with
        | some t => toLE 4 (secOf t) ++ toLE 4 (nanoOf t)
        | none => sliceB d 32 8
      let out := sliceB d 0 24 ++ toLE 1 st ++ sliceB d 25 7 ++ eg ++ sliceB d 40 24
      match s.giveBack r slot out with
      | (s, true) => (s.setRing r (Ring.signal { s.ring r with inj := rest } s.now)).injReturn r k
      | (s, false) => s
    | _ => s

/-- Enter the result of an injected frame of ring r. -/
def State.injResult (s : State) (r slot st : Nat) (time : Option Nat) : State :=
  let x := s.ring r
  let put (e : Nat × Bytes × Option (Nat × Option Nat)) : Nat × Bytes × Option (Nat × Option Nat) :=
    if e.1 == slot && e.2.2.isNone then (e.1, e.2.1, some (st, time)) else e
  (s.setRing r { x with inj := x.inj.map put }).injReturn r x.inj.length

/-- INJECTION_DESCRIPTOR: the next descriptor of injection ring r, with its buffer's bytes. -/
def State.injDesc (s : State) (r cycle : Nat) (data : Bytes) : State :=
  let ring := 80 + r
  let x := s.ring ring
  if !x.en || !s.active Ty.HIF 0 then s else
  match x.desc with
  | [] => s
  | d :: rest =>
    let s := s.advanceTo (min cycle s.tm.len)
    let slot := x.devIdx
    let s := s.setRing ring { x with desc := rest, devIdx := x.nextIdx, inj := x.inj ++ [(slot, d, none)] }
    let len := leAt d 10 2
    let dest := leAt d 12 2
    let f := leAt d 16 1
    if len < 60 || 10236 < len || 2 ^ 14 ≤ leAt d 14 2 || 64 ≤ f || (dest < 2 ^ 15 && s.portStatus dest == 8) then
      s.injResult ring slot 1 none
    else if dest < 2 ^ 15 && s.portStatus dest == 4 then (s.count Reg.FWD_DOMAIN_MISS 0).injResult ring slot 4 none
    else
      match s.dmaRead (leAt d 8 1 % 16) (leAt d 0 8) len with
      | (s, false) => s.injResult ring slot 7 none
      | (s, true) =>
        let j : Inj := { host := true, who := ring, slot := x.gen * 2 ^ 16 + slot, tag := sliceB d 20 4, tsReq := bitOf f 3, oneStep := bitOf f 4
                         noMacsec := bitOf f 5 }
        let s := s.setRing ring { s.ring ring with handed := ((s.ring ring).handed + 1) % 2 ^ 15 }
        s.toFwd (s.injPkt (16480 + r) 0 0 (sliceB data 0 len) dest (leAt d 14 2) f j)

/-- INJECT_COMPLETE: the oldest completion of an injected frame goes to its navigator (KIND 5) or back to its descriptor. (DEDUCED, log entry 56) -/
def State.injComplete (s : State) : State :=
  match s.injDone with
  | [] => s
  | d :: rest =>
    let s := { s with injDone := rest }
    let j := d.inj
    if j.host then
      if (s.ring j.who).gen == j.slot / 2 ^ 16 then s.injResult j.who (j.slot % 2 ^ 16) d.st d.time else s
    else
      let eg : Bytes := match d.time with
        | some t => toLE 4 (secOf t) ++ toLE 4 (nanoOf t)
        | none => List.replicate 8 0
      let s := s.count (if d.st == 0 then Reg.NAV_INJECT_OK else Reg.NAV_INJECT_REJECT) j.who
      s.sendMail ⟨0xFF00, j.who, some j.slot, 5, toLE 1 d.st ++ List.replicate 3 0 ++ sliceB j.tag 0 4 ++ eg⟩
def execInjectComplete (s : State) := live s fun s => s.injComplete

/-! ## Faults (R421) -/

/-- A ring at a host-interface fault: its items go; an operation that a command has begun goes on as an orphan. -/
def Ring.fault (x : Ring) : Ring :=
  { x with en := false, desc := [], compl := none, stalled := false, unsig := 0, req := false, waiting := 0, inj := [], orphan := x.orphaned }

/-- A host-interface fault of a cause: 1 PERST_N, 2 link down, 3 hot reset, 4 FLR, 5 SRST, 6 ring-state error. PERST_N and SRST
also return the page and its settings to reset; PERST_N has the effects of R195 and R401. (DEDUCED, log entry 23) -/
def State.hifFault (s : State) (cause : Nat) : State :=
  let n := s.hif.rings.foldl (fun a (r, x) => a + x.inFlight r) 0 + s.hostIn.length
  let s := s.hostIn.foldl (fun (s : State) q => s.injFin q.2 2 none) s
  let keep (r : Nat) (x : Ring) : Ring :=
    { ringReset r with lastSeq := x.lastSeq, handed := x.handed, orphan := x.orphan, gen := x.gen, devIdx := x.devIdx, err := x.err }
  let rst := cause == 1 || cause == 5
  let rings := s.hif.rings.mapV ringReset fun r x => if rst then keep r x.fault else x.fault
  let h := { s.hif with wins := [], rings := rings, linkUp := s.hif.linkUp && !(cause == 1 || cause == 2 || cause == 3) }
  let h := if rst then { h with routes := [] } else h
  let s := { s with hostIn := [], hif := h }
  let sts := s.reg Reg.HIF_STS 0
  let s := if rst then { s with regs := s.regs.keep fun k _ => !(keyTy k == Ty.HIF && decide (keyOff k < 0x20 ∨ 0x40 ≤ keyOff k)) } else s
  let s := if cause == 1 then { s with regs := s.regs.keep fun k _ => keyTy k != 0xFF } else s
  let link := if cause == 1 || cause == 2 || cause == 3 then 0 else sts % 256
  let s := s.setReg Reg.HIF_STS 0 (link + 256 + cause % 8 * 512)
  let s := (s.countN Reg.HIF_DISCARDS 0 n).intSet Ty.HIF 0 0
  if cause == 1 then
    let s := [0, 1].foldl (fun (s : State) i => if s.present Ty.SEAL i then s.sealSoft i else s) s
    { s.almExpire with hif := { s.hif with vecs := [], perst := true } }
  else s
def execHifFault (cause : Nat) (s : State) := live s fun s =>
  if 1 ≤ cause ∧ cause ≤ 6 then s.hifFault cause else s

/-- RING_FAULT: a DMA read of a ring returned an error, or timed out. -/
def execRingFault (ring : Nat) (timeout : Bool) (s : State) := live s fun s =>
  if ring < 144 ∧ (s.ring ring).en = true then (s.ringFault ring).raise Ty.HIF 0 (if timeout then 4 else 3) ring 0 else s

/-- A use of ring state: ERR_INV_CHECK bit 0 makes its checker fail, which is a host-interface fault of cause 6 (R430). (DEDUCED, log entry 23) -/
def State.ringUse (s : State) (r : Nat) (f : State → State) : State :=
  if s.inv Ty.HIF 0 0 then (s.raiseInv Ty.HIF 0 2 r 0).hifFault 6 else f s

def execDoorbellWrite (ring index : Nat) (descs : List (List Byte)) (s : State) := live s fun s =>
  if ring < 144 then s.ringUse ring fun s => s.doorbell ring (index % 2 ^ 16) descs else s
def execInjectionDescriptor (ring cycle : Nat) (data : List Byte) (s : State) := live s fun s => s.ringUse (80 + ring % 64) fun s => s.injDesc (ring % 64) cycle data

/-- HIF_RESUME. -/
def execHifResume (s : State) := live s fun s => s.setFlag Reg.HIF_STS_QUIESCED 0 false

/-- RING_ENABLE: the word written to RING_CTL of the ring that RING_SEL names. (DEDUCED, log entry 38) -/
def State.ringEnable (s : State) (v : Nat) : State :=
  let r := min 143 (s.fld Reg.HIF_RING_SEL_RING 0)
  let x := s.ring r
  if !bitOf v 0 then s.setRing r { x with en := false }
  else if s.flag Reg.HIF_STS_QUIESCED 0 then s.count Reg.HIF_CFG_REJECT 0
  else if x.en then s
  else s.setRing r { x with en := true, err := false, devIdx := 0, bellIdx := 0, handed := 0, desc := [], compl := none, stalled := false
                            inj := [], unsig := 0, req := false, waiting := 0, gen := x.gen + 1 }
def execRingEnable (v : Word) (s : State) := live s fun s => s.ringEnable v.toNat

/-- WIN_FENCE_READ: every transfer of this model is checked and performed in one command; WAITED shows those waited for. -/
def execWinFenceRead (waited : Nat) (s : State) := live s fun s => s.setFld Reg.HIF_WIN_FENCE_WAITED 0 (min waited 65535)

/-- PCIE_LINK_UP (R405): lanes and speed code; the interface stays quiesced. -/
def execPcieLinkUp (width speed : Nat) (s : State) := live s fun s =>
  let s := { s with hif := { s.hif with linkUp := true } }
  (s.setFld Reg.HIF_STS_WIDTH 0 width).setFld Reg.HIF_STS_SPEED 0 speed

/-! ## Interrupt vectors (R422, R423) -/

/-- VEC_EOI: the vector may send again, and does if its request is 1; a masked one sets its PBA bit instead. -/
def State.vecEoi (s : State) (v : Nat) : State :=
  let x := s.vec v
  if !x.outstanding then s else
  let x := { x with outstanding := false }
  let h := { s.hif with vecs := s.hif.vecs.set ⟨false, false, true, false, 0⟩ v x }
  let req := (s.levelVecs ++ s.hif.ringVecs).contains v
  { s with hif := if !req || !h.msixEn then h
                  else if x.masked then { h with vecs := h.vecs.set ⟨false, false, true, false, 0⟩ v { x with pba := true } }
                  else h.sendVec v { x with req := true } }
def execVecEoi (v : Nat) (s : State) := live s fun s => s.vecEoi (v % 256)

/-- MSIX_UNMASK: a pending message is sent if the request is still 1. (PRESUMED, log entry 37) -/
def State.vecUnmask (s : State) (v : Nat) : State :=
  let x := { s.vec v with masked := false }
  let h := { s.hif with vecs := s.hif.vecs.set ⟨false, false, true, false, 0⟩ v { x with pba := false } }
  let req := (s.levelVecs ++ s.hif.ringVecs).contains v
  { s with hif := if x.pba && req && h.msixEn && !x.outstanding then h.sendVec v { x with req := true } else h }
def execMsixUnmask (v : Nat) (s : State) := live s fun s => s.vecUnmask (v % 256)

/-- RING_COAL_TIMEOUT: COAL_US have passed since the first item not yet signalled (R422). -/
def State.coalTimeout (s : State) (r cycle : Nat) : State :=
  let s := s.advanceTo (min cycle s.tm.len)
  let x := s.ring r
  if x.unsig != 0 && x.coalUs != 0 && decide (x.unsigAt + x.coalUs * 1250 ≤ s.now) then s.setRing r { x with unsig := 0, req := true } else s
def execRingCoalTimeout (ring cycle : Nat) (s : State) := live s fun s => if ring < 144 then s.coalTimeout ring cycle else s

/-! ## CRC units (R424, R432) -/

/-- A unit at reset. (DESIGN CHOICE, log entry 6) -/
def crcReset : CrcS := { st := 0, bad := false }

/-- Unit i. -/
def State.crcU (s : State) (i : Nat) : CrcS := s.crc.get crcReset i

/-- Store it. -/
def State.setCrc (s : State) (i : Nat) (x : CrcS) : State := { s with crc := s.crc.set crcReset i x }

/-- Bits of an algorithm's state. -/
def crcBits (alg : Nat) : Nat :=
  match alg with
  | 2 => 16
  | 3 => 64
  | _ => 32

/-- The state after bytes, by algorithm (R361). -/
def crcFeed (alg st : Nat) (d : Bytes) : Nat := (crcStep alg (BitVec.ofNat 64 st) d).toNat

/-- RESULT: the state XOR CRC_XOR in the algorithm's bits. (DEDUCED, log entry 38) -/
def State.crcResult (s : State) (i : Nat) : Nat :=
  let alg := s.fld Reg.CRC_CTL_ALG i
  ((s.crcU i).st ^^^ s.reg64 Reg.CRC_XOR_LO i) % 2 ^ crcBits alg

/-- Inverted state parity (R432): CHECKED clears and the next CHECK reports a mismatch. -/
def State.crcParity (s : State) (i : Nat) : State :=
  if !s.inv Ty.CRC i 0 then s else
  ((s.setCrc i { s.crcU i with bad := true }).setFlag Reg.CRC_STS_CHECKED i false).raiseInv Ty.CRC i 1 0 0

/-- CRC_START: the word written to CRC_CTL. -/
def State.crcStart (s : State) (i v : Nat) : State :=
  let r := s.plainWrite (Reg.CRC_CTL.at i) v
  if !s.active Ty.CRC i || !bitOf v 8 then r else
  let st := r.reg64 Reg.CRC_INIT_LO i % 2 ^ crcBits (v % 4)
  ((r.setCrc i { st := st, bad := false }).setReg64 Reg.CRC_BYTES_LO i 0).setFlag Reg.CRC_STS_CHECKED i false
def execCrcStart (inst : Nat) (v : Word) (s : State) := live s fun s => s.crcStart (inst % 4) v.toNat

/-- Feed bytes, lowest first. -/
def State.crcPut (s : State) (i : Nat) (d : Bytes) : State :=
  if !s.active Ty.CRC i then s else
  let s := s.crcParity i
  let x := s.crcU i
  (s.setCrc i { x with st := crcFeed (s.fld Reg.CRC_CTL_ALG i) x.st d }).countN64 Reg.CRC_BYTES_LO i d.length
def execCrcData8 (inst : Nat) (v : Word) (s : State) := live s fun s => s.crcPut (inst % 4) (toLE 1 v.toNat)

/-- CRC_DATA16. -/
def execCrcData16 (inst : Nat) (v : Word) (s : State) := live s fun s => s.crcPut (inst % 4) (toLE 2 v.toNat)

/-- CRC_DATA32. -/
def execCrcData32 (inst : Nat) (v : Word) (s : State) := live s fun s => s.crcPut (inst % 4) (toLE 4 v.toNat)

/-- CRC_DATA128: the write of DATA128[3] feeds the 16 bytes of DATA128[0..3]; the first three words stand where they were
written. -/
def State.crc128 (s : State) (i v : Nat) : State :=
  let w (k : Nat) : Nat := s.regI Reg.CRC_DATA128 i k
  s.crcPut i (toLE 4 (w 0) ++ toLE 4 (w 1) ++ toLE 4 (w 2) ++ toLE 4 v)
def execCrcData128 (inst : Nat) (v : Word) (s : State) := live s fun s => s.crc128 (inst % 4) v.toNat

/-- CRC_CHECK. -/
def State.crcCheck (s : State) (i : Nat) : State :=
  if !s.active Ty.CRC i then s else
  let s := s.crcParity i
  let x := s.crcU i
  let ok := !x.bad && s.crcResult i == s.reg64 Reg.CRC_EXPECT_LO i
  let s := ((s.setCrc i { x with bad := false }).setFlag Reg.CRC_STS_MATCH i ok).setFlag Reg.CRC_STS_CHECKED i true
  if ok then s.intSet Ty.CRC i 1 else (s.count Reg.CRC_MISMATCHES i).intSet Ty.CRC i 0
def execCrcCheck (inst : Nat) (s : State) := live s fun s => s.crcCheck (inst % 4)

/-- The effect of CRC error source 0x01 (R432). -/
def State.crcErr (s : State) (d : Det) : State :=
  if d.src == 1 && !d.forced then (s.setCrc d.inst { s.crcU d.inst with bad := true }).setFlag Reg.CRC_STS_CHECKED d.inst false else s

/-! ## Counter snapshots (R425, R434) -/

/-- Offsets of the words that a snapshot holds of a page type: ERR_COUNT, OVERRUN_COUNT in tick stages, then the counters. -/
def snapOffs (ty : Nat) : List Nat :=
  0x038 :: ((if isTickStage ty then [0x04C] else []) ++ ((List.range 1024).map (4 * ·)).filter fun o => isCounter ty o)

/-- Present pages in increasing BAR0 address. -/
def State.pages (s : State) : List (Nat × Nat) :=
  (List.range 41).flatMap fun ty => ((List.range (fullInstances ty)).filter fun i => s.present ty i).map fun i => (ty, i)

/-- SLOT_BYTES of the part. -/
def State.slotBytes (s : State) : Nat := 64 + s.pages.foldl (fun a p => a + 8 + 4 * (snapOffs p.1).length) 0

/-- The latch of every counter (R425). (DEDUCED, log entry 138) -/
def State.pmcLatch (s : State) : Snap :=
  { stamp := s.tick, seq := s.pmc.seq, tick := s.tm.tickNo
    words := s.pages.map fun p => (pageKey p.1 p.2, (snapOffs p.1).map fun f => (s.rd (regKey p.1 p.2 f)).toNat) }

/-- Cycle 0 of a tick: with EN set, a tick n with n mod K = 0, or while free ticking every K-th free tick after EN was set, latches the
counters (R425). -/
def State.pmcBoundary (s : State) : State :=
  let k := s.fld Reg.PMC_CTL_K 0
  let f := s.pmc.freeTicks + if s.tm.free then 1 else 0
  let due := s.on Reg.PMC_CTL_EN 0 && (if s.tm.free then f % k else s.tm.m % k) == 0
  if due then { s with pmc := { s.pmc with freeTicks := f, seq := s.pmc.seq + 1, latch := some s.pmcLatch, bad := [] } }
  else { s with pmc := { s.pmc with freeTicks := f } }

/-- A page's part of a snapshot; after a latch error its words are all ones (R434). -/
def snapPage (bad : Bool) (p : Nat × List Nat) : Bytes :=
  toLE 4 (p.1 / 256 * 2 ^ 16 + p.1 % 256) ++ toLE 4 p.2.length ++ (p.2.map fun w => toLE 4 (if bad then 0xFFFFFFFF else w)).flatten

/-- A whole slot: the header and the pages; `lost` are the pages with a latch error. (DESIGN CHOICE, log entry 57) -/
def Snap.slot (x : Snap) (late : Bool) (lost : List Nat) : Bytes :=
  let body := (x.words.map fun p => snapPage (lost.contains p.1) p).flatten
  toLE 6 x.stamp ++ toLE 2 0 ++ toLE 4 x.seq ++ toLE 4 (64 + body.length) ++ toLE 2 x.words.length ++ toLE 1 (if late then 1 else 0) ++
    List.replicate 45 0 ++ body

/-- PMC_SNAPSHOT: the latched snapshot is written by `cycle` into the next slot, which the host has given (`own`) or not. It is late
after the deadline of the tick of its latch. EN cleared meanwhile does not stop it (R427). (DESIGN CHOICE, log entry 57) -/
def State.snapshotPmc (s : State) (cycle : Nat) (own : Bool) : State :=
  match s.pmc.latch with
  | none => s
  | some x =>
    let inv := s.inv Ty.PMC 0 0
    let s := if inv then s.raiseInv Ty.PMC 0 2 0 0 else s
    let lost := if inv then x.words.map (·.1) else s.pmc.bad
    let here := x.tick == s.tm.tickNo
    let late := !here || !s.inTime Ty.PMC 0 cycle || !lost.isEmpty
    let idx := s.reg Reg.PMC_DUMP_IDX 0
    let win := s.fld Reg.PMC_DUMP_CFG_WINDOW 0
    let off := s.reg64 Reg.PMC_DUMP_OFF_LO 0 / 64 * 64 + idx * s.slotBytes
    let s := { s with pmc := { s.pmc with last := s.tm.tickNo + 1, latch := none, bad := [] } }
    let s := if here then s.complete Ty.PMC 0 cycle else s
    let (s, rd) := s.dmaRead win off 64
    if !own || !rd then s.count Reg.PMC_SNAP_SKIP 0 else
    let (s, ok) := s.dmaWrite win off (x.slot late lost)
    if !ok then s.count Reg.PMC_SNAP_SKIP 0 else
    let s := (s.count Reg.PMC_SNAPSHOTS 0).countN Reg.PMC_SNAP_LATE 0 (if late then 1 else 0)
    s.setReg Reg.PMC_DUMP_IDX 0 ((idx + 1) % max 1 (s.fld Reg.PMC_DUMP_CFG_SLOTS 0))
def execPmcSnapshot (cycle : Nat) (own : Bool) (s : State) := live s fun s => s.snapshotPmc cycle own

/-- A write of PMC_CTL: EN set restarts SEQ and the free-tick count (R425). -/
def State.pmcCtl (s : State) (v : Nat) : State :=
  let was := s.flag Reg.PMC_CTL_EN 0
  let s := s.plainWrite (Reg.PMC_CTL.at 0) v
  if !was && bitOf v 0 then { s with pmc := { s.pmc with seq := 0, freeTicks := 0 } } else s

/-- The effect of PMC error source 0x02 (R434): the words of the page that the capture's HI[31:16] names are lost to the snapshot under way.
(DESIGN CHOICE, log entry 57) -/
def State.pmcErr (s : State) (d : Det) : State :=
  if d.src == 2 && !d.forced && s.pmc.latch.isSome then { s with pmc := { s.pmc with bad := d.capHi / 2 ^ 16 % 2 ^ 16 :: s.pmc.bad } } else s

/-- The effects of HIF error sources (R430): 0x02 is a host-interface fault of cause 6; 0x03 and 0x04 fault the ring that the
capture names. -/
def State.hifErr (s : State) (d : Det) : State :=
  match d.src with
  | 2 => s.hifFault 6
  | 3 | 4 => if d.forced || 144 ≤ d.capLo || !(s.ring d.capLo).en then s else s.ringFault d.capLo
  | _ => s

end Sys2Proof.Machine
end

