-- ==== Sys2Proof/Machine/Qsch.lean ====
section
/-! DEFINITION. The crossbar and the streaming stages' queues (R16, R17, R28), admission (R275, R276), paging (R277, R278),
shapers and serve lists (R285 to R287), the QSCH tables (R298, R299) and delay samples (R292, R293). -/

namespace Sys2Proof.Machine

/-! ## Streaming stages (R17, R28, R31) -/

/-- STAGE_DESCRIPTOR_RECEIVE: the newest descriptor has reached the stage's input queue; `full` says that it was full. The
depth is not given by the spec. A forwarder counts the drop in OVERRUN_COUNT, the one count of its page for dropped descriptors. (DESIGN CHOICE, log entry 69) -/
def State.stageReceive (s : State) (ty inst : Nat) (full : Bool) : State :=
  if !full || !s.present ty inst then s else
  match (s.waitingAt ty inst).getLast? with
  | some p => s.stageDrop ty inst p false
  | none => s
def execStageDescriptorReceive (ty inst : Nat) (full : Bool) (s : State) := live s fun s => s.stageReceive ty inst full

/-- DESCRIPTOR_AGE_EXPIRY: at a core cycle the stage's oldest descriptor is older than the age limit. (DEDUCED, log entry 70) -/
def State.ageExpiry (s : State) (ty inst cycle : Nat) : State :=
  if !s.present ty inst then s else
  let s := s.advanceTo cycle
  match (s.waitingAt ty inst).find? fun p => s.tooOld ty inst p with
  | some p => (s.ageSeen ty inst p).stageDrop ty inst p true
  | none => s
def execDescriptorAgeExpiry (ty inst cycle : Nat) (s : State) := live s fun s => s.ageExpiry ty inst cycle

/-- XBAR_CROSS: the oldest frame from one half-pipe to another crosses, or is dropped: it finds its FIFO full, or has waited longer than
the age limit (R17). A frame that an older one of its half-pipe and egress queue stands before waits for that one (R17, R29). -/
def State.xbarCross (s : State) (src dst : Nat) (full : Bool) : State :=
  match s.xin.find? fun p => p.hp == src && s.outHp p == some dst with
  | none => s
  | some p =>
    let before := s.xin.takeWhile fun q => !(q.hp == src && s.outHp q == some dst)
    if before.any fun q => q.hp == src && q.dst == p.dst && q.domain == p.domain && q.cls == p.cls then s else
    if full then s.stageDrop Ty.BUF 0 p false
    else if s.tooOld Ty.BUF 0 p then (s.ageSeen Ty.BUF 0 p).stageDrop Ty.BUF 0 p true else
    let s := s.ageSeen Ty.BUF 0 p
    { s with xin := s.xin.erase p, qin := s.qin ++ [{ p with hp := dst, born := s.now }] }
def execXbarCross (src dst : Nat) (full : Bool) (s : State) := live s fun s => s.xbarCross (src % 8) (dst % 8) full

/-- What the streaming stages show at a tick boundary: the oldest age of the tick that ends (R31). (DEDUCED, log entry 70) -/
def State.agesBoundary (s : State) : State :=
  let pages := [(Ty.BUF, 0)] ++ (List.range 4).map (fun i => (Ty.FWD, i)) ++ (List.range 8).map fun i => (Ty.CIPH, i)
  let s := pages.foldl (fun (s : State) q =>
    if s.present q.1 q.2 then s.stageShow q.1 q.2 (s.ages.get 0 (pageKey q.1 q.2)) false else s) s
  { s with ages := [] }

/-! ## Queues -/

/-- The key of a queue of slice sl: table (0 QUEUE, 5 TRUNKQ) × 2^17 + index (R279, R298). -/
def State.queueKey (s : State) (sl : Nat) (p : Pkt) : Nat :=
  if p.dst < 32 then 5 * 2 ^ 17 + s.prim p.dst % 8 * 64 + (s.qs sl).word 6 p.domain 0 % 8 * 8 + p.cls
  else if 65536 ≤ p.dst then (p.dst - 65536) % 8 * 8192 + 4096 + p.cls
  else (p.dst - 64) / 512 % 8 * 8192 + (p.dst - 64) % 512 * 8 + p.cls

/-- The table and index of a queue key. -/
def keyTable (key : Nat) : Nat := key / 2 ^ 17
def keyIdx (key : Nat) : Nat := key % 2 ^ 17

/-- A queue. -/
def QschS.queue (x : QschS) (key : Nat) : QueueS := x.queues.get queueReset key

/-- Store a queue. -/
def QschS.setQueue (x : QschS) (key : Nat) (q : QueueS) : QschS := { x with queues := x.queues.set queueReset key q }

/-- Queue key's word 0: QPROF and SPROF. -/
def QschS.qword (x : QschS) (key : Nat) : Nat := x.word (keyTable key) (keyIdx key) 0

/-- RATE and BURST of a shaper profile. -/
def QschS.shaper (x : QschS) (prof : Nat) : Nat × Nat := (x.word 3 prof 0, x.word 3 prof 1)

/-- The cells of a frame leave their queue, from its head. -/
def QueueS.free (q : QueueS) (cells : Nat) : QueueS :=
  let a := min cells q.head
  let b := min (cells - a) q.spill
  let q := { q with head := q.head - a, spill := q.spill - b, tail := q.tail - (cells - a - b) }
  if q.spill == 0 then { q with head := q.head + q.tail, tail := 0 } else q

/-- The frames of a queue flushed (R280). -/
def State.qFlush (s : State) (sl key : Nat) : State :=
  let x := s.qs sl
  let q := x.queue key
  let s := s.setQs sl (x.setQueue key { q with frames := [], head := 0, spill := 0, tail := 0, deficit := 0 })
  let s := s.countN Reg.QSCH_FLUSH_DROP sl q.frames.length
  (q.frames.foldl (fun (s : State) p => s.injFin p 2 none) s).spillSettle

/-- An uncorrectable error in a queue or node record (R301): the queue's frames are flushed and the record reads QPROF 0 and SPROF 0;
a node's record, which has no frames of its own, reads SPROF 0. (DEDUCED, log entry 125) -/
def State.qRecFail (s : State) (sl key : Nat) : State :=
  let clear (s : State) (unit : Nat) : State :=
    s.setQs sl ((s.qs sl).setWord (keyTable key) (keyIdx key) 0 ((s.qs sl).qword key / unit * unit))
  if keyTable key == 1 then clear s (2 ^ 10) else clear (s.qFlush sl key) (2 ^ 16)

/-- The same found by the checker of an access while ERR_INV_CHECK bit 0 stands (R301). -/
def State.qRecInv (s : State) (sl key : Nat) : State :=
  if s.inv Ty.QSCH sl 0 then (s.raiseInv Ty.QSCH sl 2 key 0).qRecFail sl key else s

/-- The 8 queues of a terminal flushed on its entry to DEACTIVATED (R280). -/
def State.flushTerm (s : State) (ax : Nat) : State :=
  let sl := ax / 512 / 8
  (List.range 8).foldl (fun (s : State) c => s.qFlush sl (ax / 512 % 8 * 8192 + ax % 512 * 8 + c)) s

/-- Every downstream queue flushed (R461). -/
def State.flushDown (s : State) : State :=
  [0, 1, 2, 3].foldl (fun (s : State) sl =>
    (s.qs sl).queues.foldl (fun (s : State) q => if keyTable q.1 == 0 then s.qFlush sl q.1 else s) s) s

/-! ## Admission (R275 to R277) -/

/-- ECN_MARK (R276): a frame with ECT(0) or ECT(1) marked CE, with its IPv4 header checksum. -/
def ecnMark (d : Bytes) : Option Bytes :=
  let i := typeAt d
  let ty := beAt d i 2
  if ty == 0x0800 && beAt d (i + 2) 1 / 16 == 4 then
    let tos := beAt d (i + 3) 1
    if tos % 4 == 1 || tos % 4 == 2 then
      let old := beAt d (i + 2) 2
      let new := old - tos + (tos / 4 * 4 + 3)
      let ck := onesAdd (onesAdd (65535 - beAt d (i + 12) 2) (65535 - old)) new
      some (putAt (putAt d (i + 2) (toBE 2 new)) (i + 12) (toBE 2 (65535 - ck)))
    else none
  else if ty == 0x86DD then
    let w := beAt d (i + 3) 1
    if bitsOf w 4 2 == 1 || bitsOf w 4 2 == 2 then some (putAt d (i + 3) (toBE 1 (setBitsOf w 4 2 3))) else none
  else none

/-- Whether a downstream queue admits nothing (R275, first row). -/
def State.termDown (s : State) (p : Pkt) : Bool :=
  decide (32 ≤ p.dst) && (!s.isActive || (isTermPort p.dst && (match (s.term (p.dst - 64)).st with
    | .init | .deactivated => true
    | _ => false)))

/-- What admission decides of a frame of c cells for a queue: the counter of a drop, or none. -/
def State.admitDrop (s : State) (sl : Nat) (q : QueueS) (key cls c : Nat) (yellow : Bool) : Option (RegId × Nat) :=
  let x := s.qs sl
  let prof := x.qword key % 64
  let mx := x.word 2 prof 1
  let n := q.occ + c
  let free := s.bankFree sl
  let spill := s.on Reg.BUF_CTL_SPILL_EN 0 && decide (ceilDiv (q.spill + c) 8 - q.pages ≤ s.spillFree)
  let th := bitsOf (x.word 4 cls 1) (if yellow then 8 else 0) 8
  if mx < n then some (Reg.QSCH_QUOTA_DROP, sl)
  else if n ≤ x.word 2 prof 0 ∧ (c ≤ free ∨ spill) then none
  else if (th + 1) * mx < n * 256 then some (Reg.QSCH_THRESH_DROP, sl)
  else if free ≤ s.fld Reg.BUF_POOL_RESERVE_CELLS 0 ∧ !spill then some (Reg.QSCH_POOL_DROP, sl)
  else if free < c ∧ !spill then some (Reg.BUF_NO_BUFFER, 0)
  else none

/-- An admitted frame at its queue's tail: in HBM behind queued pages where a page is free or the bank cannot hold it. -/
def State.qAppend (s : State) (sl key : Nat) (p : Pkt) : State :=
  let x := s.qs sl
  let q := x.queue key
  let c := frameCells p
  let pages := ceilDiv (q.spill + c) 8 - q.pages
  let spill := s.on Reg.BUF_CTL_SPILL_EN 0 && decide (pages ≤ s.spillFree)
  let free := s.bankFree sl
  let under := decide (q.occ + c ≤ x.word 2 (x.qword key % 64) 0)
  let die := decide (c ≤ free) && (under || decide (s.fld Reg.BUF_POOL_RESERVE_CELLS 0 < free))
  let q := { q with frames := q.frames ++ [p] }
  if spill && (q.spill != 0 || !die) then
    ((s.setQs sl (x.setQueue key { q with spill := q.spill + c })).countN64 Reg.BUF_PAGES_OUT_LO 0 pages).spillSettle
  else if q.spill != 0 then s.setQs sl (x.setQueue key { q with tail := q.tail + c })
  else s.setQs sl (x.setQueue key { q with head := q.head + c })

/-- QSCH_ADMIT: the oldest frame that has reached slice sl on its way to a queue. -/
def State.qschAdmit (s : State) (sl cycle : Nat) : State :=
  let s := s.advanceTo cycle
  match s.qin.find? fun p => p.hp / 2 == sl with
  | none => s
  | some p =>
    let s := { s with qin := s.qin.erase p }
    let drop (s : State) : State := s.injFin p 2 none
    let key := s.queueKey sl p
    if s.inv Ty.QSCH sl 2 then drop (s.raise Ty.QSCH sl 4 0 0) else
    let s := s.qRecInv sl key
    if s.inv Ty.BUF 0 0 then drop (s.raiseInv Ty.BUF 0 2 0 sl) else
    let s := if s.inv Ty.BUF 0 1 then
        let s := s.raiseInv Ty.BUF 0 3 0 sl
        { s with buf := { s.buf with withdrawn := s.buf.withdrawn.set 0 sl (s.buf.withdrawn.get 0 sl + 1) } }
      else s
    if s.termDown p then drop (s.count Reg.QSCH_TERM_DOWN_DROP sl) else
    let q := (s.qs sl).queue key
    let c := frameCells p
    match s.admitDrop sl q key p.cls c p.yellow with
    | some (r, i) => drop (s.count r i)
    | none =>
      let x := s.qs sl
      let w := x.word 4 p.cls 0
      let mark := bitOf w 1 && decide ((bitsOf (x.word 4 p.cls 1) 16 8 + 1) * x.word 2 (x.qword key % 64) 1 < (q.occ + c) * 256)
      let (s, p) := match (if mark then ecnMark p.data else none) with
        | some d => (s.count Reg.QSCH_ECN_MARKED sl, { p with data := d })
        | none => (s, p)
      (s.qAppend sl key { p with born := s.now }).count64 Reg.QSCH_ENQUEUED_LO sl
def execQschAdmit (slice cycle : Nat) (s : State) := live s fun s =>
  if s.active Ty.QSCH (slice % 4) then s.qschAdmit (slice % 4) cycle else s

/-! ## Paging (R277, R278) -/

/-- The queue of slice sl with the most on-die cells beyond HEAD_KEEP. (DEDUCED, log entry 72) -/
def State.fattest (s : State) (sl : Nat) : Option (Nat × QueueS) :=
  let keep := s.fld Reg.BUF_HEAD_KEEP_CELLS 0
  (s.qs sl).queues.foldl (fun (b : Option (Nat × QueueS)) q =>
    if q.2.onDie ≤ keep then b else match b with
      | some o => if o.2.onDie < q.2.onDie then some q else b
      | none => some q) none

/-- One page out: up to 8 cells of the fattest queue's tail, where the spill region has room. -/
def State.pageOut (s : State) (sl : Nat) : State :=
  match s.fattest sl with
  | none => s
  | some (key, q) =>
    let n := min 8 (q.onDie - s.fld Reg.BUF_HEAD_KEEP_CELLS 0)
    let pages := ceilDiv (q.spill + n) 8 - q.pages
    if s.spillFree < pages then s else
    let t := min n q.tail
    let q := { q with head := q.head - (n - t), tail := q.tail - t, spill := q.spill + n }
    ((s.setQs sl ((s.qs sl).setQueue key q)).countN64 Reg.BUF_PAGES_OUT_LO 0 pages).spillSettle

/-- Page out until WM_STOP, at most n pages. -/
def State.pageOuts (s : State) (sl : Nat) : Nat → State
  | 0 => s
  | n + 1 => if s.fld Reg.BUF_WM_STOP_CELLS 0 ≤ s.bankFree sl then s else State.pageOuts (s.pageOut sl) sl n

/-- SPILL_PAGE_OUT: bank sl begins to page out below WM_SPILL, moves n pages and stops at WM_STOP. -/
def State.spillOut (s : State) (sl n : Nat) : State :=
  let set (s : State) (b : Bool) : State := { s with buf := { s.buf with spilling := s.buf.spilling.set false sl b } }
  if !s.on Reg.BUF_CTL_SPILL_EN 0 then set s false
  else if !s.buf.spilling.get false sl && !decide (s.bankFree sl < s.fld Reg.BUF_WM_SPILL_CELLS 0) then s
  else
    let s := (set s true).pageOuts sl n
    set s (decide (s.bankFree sl < s.fld Reg.BUF_WM_STOP_CELLS 0))
def execSpillPageOut (slice n : Nat) (s : State) := live s fun s =>
  if s.present Ty.BUF 0 then s.spillOut (slice % 4) (n % 98305) else s

/-- The frames of a queue with a byte in cells a to b − 1 of its order. -/
def framesIn (a b : Nat) : List Pkt → Nat → List Pkt
  | [], _ => []
  | p :: l, at0 =>
    let e := at0 + frameCells p
    (if at0 < b ∧ a < e then [p] else []) ++ framesIn a b l e

/-- A page read that failed: every frame with bytes in it is dropped (R278). -/
def State.pageBad (s : State) (sl key n : Nat) : State :=
  let s := (s.count Reg.BUF_PAGE_ERR 0).raise Ty.BUF 0 4 0 0
  let q := (s.qs sl).queue key
  (framesIn (q.head - n) q.head q.frames 0).foldl (fun (s : State) p =>
    let q := (s.qs sl).queue key
    (s.setQs sl ((s.qs sl).setQueue key { q.free (frameCells p) with frames := q.frames.erase p })).injFin p 2 none) s

/-- PAGE_IN: the oldest page of a queue (table 0 QUEUE or 5 TRUNKQ) whose on-die part is below HEAD_KEEP comes back; `ok` is
false where its read returns an error completion. (DEDUCED, log entry 72) -/
def State.pageIn (s : State) (sl key : Nat) (ok : Bool) : State :=
  let q := (s.qs sl).queue key
  let n := min 8 q.spill
  if q.spill == 0 || decide (s.fld Reg.BUF_HEAD_KEEP_CELLS 0 ≤ q.head) || decide (s.bankFree sl < n) then s else
  let q' := { q with head := q.head + n, spill := q.spill - n }
  let s := (s.setQs sl ((s.qs sl).setQueue key q')).countN64 Reg.BUF_PAGES_IN_LO 0 (q.pages - q'.pages)
  let s := if ok then s else s.pageBad sl key n
  let q := (s.qs sl).queue key
  let q := if q.spill == 0 then { q with head := q.head + q.tail, tail := 0 } else q
  (s.setQs sl ((s.qs sl).setQueue key q)).spillSettle
def execPageIn (slice table idx : Nat) (ok : Bool) (s : State) := live s fun s =>
  if s.present Ty.QSCH (slice % 4) then s.pageIn (slice % 4) ((if table == 5 then 5 else 0) * 2 ^ 17 + idx % 2 ^ 16) ok else s

/-! ## Shapers (R285) -/

/-- SHAPER_ACCRUAL of a tick: every shaped queue and node of the slice's trees. -/
def QschS.accrue (x : QschS) : QschS :=
  x.recs.foldl (fun (y : QschS) e =>
    let table := e.1 / 2 ^ 20
    let idx := e.1 / 8 % 2 ^ 17
    let prof := if table == 0 then bitsOf e.2.toNat 6 10 else e.2.toNat % 1024
    if e.1 % 8 != 0 || decide (1 < table) || prof == 0 then y else
    let (rate, burst) := x.shaper prof
    if table == 0 then
      let q := y.queue idx
      y.setQueue idx { q with credit := min (16 * burst) (q.credit + rate) }
    else { y with nodes := y.nodes.set 0 idx (min (16 * burst) (y.nodes.get 0 idx + rate)) }) x

/-- Credit of a trunk queue up to the present cycle: what RATE gives from cycle 0 up to now less what it gave up to then, so that no
fraction is lost. (DEDUCED, log entry 124) -/
def QueueS.accrueTo (q : QueueS) (now rate burst : Nat) : QueueS :=
  { q with credit := min (16 * burst) (q.credit + (rate * now / 156250 - rate * q.since / 156250)), since := now }

/-- Credit of a trunk queue up to now under its present profile; an unshaped queue only takes the time. -/
def QschS.accrueQueue (x : QschS) (now key : Nat) : QschS :=
  let prof := bitsOf (x.qword key) 6 10
  let q := x.queue key
  x.setQueue key (if prof == 0 then { q with since := now } else q.accrueTo now (x.shaper prof).1 (x.shaper prof).2)

/-! ## Serve lists (R286, R287) -/

/-- A frame listed: its queue's key, and the cell of the queue at which it starts. -/
structure Listed where
  key : Nat
  cell : Nat
  pkt : Pkt

/-- A list under construction: the queues, the frames listed so far (last first), the budget, the oversize frames dropped, and the
cells of each queue passed so far. -/
structure Build where
  x : QschS
  out : List Listed
  n : Nat
  budget : Int
  oversize : List Pkt
  off : Tbl Nat

/-- Profiles of a queue and its node. -/
def QschS.profs (x : QschS) (lt node c : Nat) : Nat × Nat :=
  (bitsOf (x.word 0 (lt * 8192 + node * 8 + c) 0) 6 10, x.word 1 (lt * 1024 + node) 0 % 1024)

/-- Oversize heads of a queue are dropped (R285). -/
def Build.clean (b : Build) (lt node c : Nat) : Nat → Build
  | 0 => b
  | n + 1 =>
    let key := lt * 8192 + node * 8 + c
    let q := b.x.queue key
    let (qp, np) := b.x.profs lt node c
    match q.frames with
    | [] => b
    | p :: rest =>
      let big (prof : Nat) : Bool := prof != 0 && decide ((b.x.shaper prof).2 < frameLen p)
      if big qp || big np then
        Build.clean { b with
          x := b.x.setQueue key { q.free (frameCells p) with frames := rest }, oversize := p :: b.oversize
          off := b.off.set 0 key (b.off.get 0 key + frameCells p) } lt node c n
      else b

/-- The head frame of a queue if it is eligible by its credits. -/
def Build.head (b : Build) (lt node c : Nat) : Option Pkt :=
  let q := b.x.queue (lt * 8192 + node * 8 + c)
  let (qp, np) := b.x.profs lt node c
  match q.frames with
  | [] => none
  | p :: _ =>
    if (qp == 0 || decide (16 * frameLen p ≤ q.credit)) && (np == 0 || decide (16 * frameLen p ≤ b.x.nodes.get 0 (lt * 1024 + node)))
    then some p else none

/-- List the head frame: credits debited, budget spent. -/
def Build.take (b : Build) (lt node c : Nat) (p : Pkt) (deficit : Bool) : Build :=
  let key := lt * 8192 + node * 8 + c
  let q := b.x.queue key
  let (qp, np) := b.x.profs lt node c
  let l := frameLen p
  let q := { q with frames := q.frames.drop 1, credit := if qp == 0 then q.credit else q.credit - 16 * l
                    deficit := if deficit then q.deficit - l else q.deficit }
  let x := b.x.setQueue key q
  let x := if np == 0 then x else { x with nodes := x.nodes.set 0 (lt * 1024 + node) (x.nodes.get 0 (lt * 1024 + node) - 16 * l) }
  { b with
    x := x, out := ⟨key, b.off.get 0 key, p⟩ :: b.out, n := b.n + 1, budget := b.budget - (l + 24)
    off := b.off.set 0 key (b.off.get 0 key + frameCells p) }

/-- Room for another frame. -/
def Build.room (b : Build) (limit : Nat) : Bool := decide (0 < b.budget) && decide (b.n < limit)

/-- Strict rounds of class c: one frame per node per round while any is listed. -/
def Build.strict (lt c limit : Nat) (nodes : List Nat) : Nat → Build → Build
  | 0, b => b
  | n + 1, b =>
    if !b.room limit then b else
    let r := nodes.foldl (fun (b : Build) x =>
      let b := b.clean lt x c (b.x.queue (lt * 8192 + x * 8 + c)).frames.length
      if b.n < limit then (match b.head lt x c with
        | some p => b.take lt x c p false
        | none => b) else b) b
    if r.n == b.n then r else Build.strict lt c limit nodes n r

/-- Frames of one deficit queue while its deficit lasts. -/
def Build.drain (lt x c limit : Nat) : Nat → Build → Build
  | 0, b => b
  | n + 1, b =>
    let b := b.clean lt x c (b.x.queue (lt * 8192 + x * 8 + c)).frames.length
    match b.head lt x c with
    | some p =>
      if b.room limit && decide (frameLen p ≤ (b.x.queue (lt * 8192 + x * 8 + c)).deficit) then
        Build.drain lt x c limit n (b.take lt x c p true)
      else b
    | none => b

/-- One deficit queue's turn. -/
def Build.turn (lt limit : Nat) (b : Build) (x c : Nat) : Build :=
  let key := lt * 8192 + x * 8 + c
  let q := b.x.queue key
  if q.frames.isEmpty then b else
  let add := bitsOf (b.x.word 4 c 0) 8 16 * bitsOf (b.x.word 1 (lt * 1024 + x) 0) 10 8 / 16
  let b := { b with x := b.x.setQueue key { q with deficit := q.deficit + add } }
  let b := Build.drain lt x c limit q.frames.length b
  let q := b.x.queue key
  if q.frames.isEmpty then { b with x := b.x.setQueue key { q with deficit := 0 } } else b

/-- Deficit rounds while a queue of a deficit class is eligible. -/
def Build.rounds (lt limit : Nat) (nodes classes : List Nat) : Nat → Build → Build
  | 0, b => b
  | n + 1, b =>
    let b := nodes.foldl (fun (b : Build) x => classes.foldl (fun (b : Build) c => b.clean lt x c (b.x.queue (lt * 8192 + x * 8 + c)).frames.length) b) b
    if !b.room limit || !(nodes.any fun x => classes.any fun c => (b.head lt x c).isSome) then b
    else Build.rounds lt limit nodes classes n (nodes.foldl (fun b x => classes.foldl (fun b c => Build.turn lt limit b x c) b) b)

/-- Nodes from a pointer on. -/
def rotate (l : List Nat) (p : Nat) : List Nat := (l.filter fun x => decide (p ≤ x)) ++ l.filter fun x => decide (x < p)

/-- A tree nothing has been built for. -/
def qtreeReset : QTree := { frame := 0, carry := 0, bytes := 0, ptrs := [], en := false }

/-- The whole list of local tree lt, up to `limit` frames, with the served nodes. -/
def buildList (x : QschS) (lt limit : Nat) (budget : Int) (served : List Nat) : Build :=
  let ptr (i : Nat) : Nat := ((x.trees.get qtreeReset lt).ptrs.get 0 i)
  let sp (c : Nat) : Bool := bitOf (x.word 4 c 0) 0
  let total := x.queues.foldl (fun a q => if q.1 / 8192 == lt then a + q.2.frames.length else a) 0
  let b : Build := ⟨x, [], 0, budget, [], []⟩
  let b := [7, 6, 5, 4, 3, 2, 1, 0].foldl (fun (b : Build) c =>
    if sp c then Build.strict lt c limit (rotate served (ptr c)) (total + 1) b else b) b
  let dc := [7, 6, 5, 4, 3, 2, 1, 0].filter fun c => !sp c
  Build.rounds lt limit (rotate served (ptr 8)) dc ((total + 1) * 4104) b

/-- The budget and the carry of the list for frame n + 1 (R286). -/
def State.listBudget (s : State) (t n : Nat) (q : QTree) : Int × Nat :=
  let x := s.tx t
  let u := x.lastU.2
  if q.frame != n || x.lastU.1 != n then (1368000 - 80, 0)
  else
    let avail := 1368000 - u
    let sent := (match x.cur with
      | some (st, _) => st.tick == n
      | none => false) || (match x.staged with
      | some st => st.tick == n
      | none => false) || x.last == some n
    let carry := if sent then q.carry + q.bytes - avail else q.carry + q.bytes
    ((avail : Int) - carry, carry)

/-- A node is served (R280): its terminal as SXT reports it (R139), or the group node while its tree is enabled. -/
def State.nodeServed (s : State) (sl lt node : Nat) : Bool :=
  if node == 512 then ((s.qs sl).trees.get qtreeReset lt).en else s.reportsOp (8 * sl + lt) node s.nextM

/-- Terminals of a tree with a queued frame that are served, and the group node. -/
def State.servedNodes (s : State) (sl lt : Nat) : List Nat :=
  let xs := ((s.qs sl).queues.filterMap fun q =>
    if q.1 / 8192 == lt && decide (q.1 < 2 ^ 17) && !q.2.frames.isEmpty then some (q.1 % 8192 / 8) else none).eraseDups
  xs.filter fun x => s.nodeServed sl lt x

/-- The page of the spill region that holds cell a of a queue, by its number from the head of the part in HBM, or none. -/
def QueueS.pageAt (q : QueueS) (a : Nat) : Option Nat :=
  if q.head ≤ a ∧ a < q.head + q.spill then some ((a - q.head) / 8) else none

/-- The pages with a byte of a frame that starts at a cell of its queue. -/
def QueueS.pagesOf (q : QueueS) (cell : Nat) (p : Pkt) : List Nat :=
  ((List.range (frameCells p)).filterMap fun j => q.pageAt (cell + j)).eraseDups

/-- The pages read back for a list of frames, in list order: queue key and page (R278). `x` holds the queues as the build found
them. -/
def listPages (x : QschS) (l : List Listed) : List (Nat × Nat) :=
  (l.flatMap fun e => ((x.queue e.key).pagesOf e.cell e.pkt).map fun g => (e.key, g)).eraseDups

/-- A queue after pages were read back up to page g for a list that took its first `off` cells: what else those pages hold is on die
(R278). `q0` is the queue as the build found it. -/
def QueueS.readBack (q q0 : QueueS) (off g : Nat) : QueueS :=
  let back := min (q0.head + 8 * g + 8) (q0.head + q0.spill)
  let q := { q with head := back - off, spill := q0.head + q0.spill - back }
  if q.spill == 0 then { q with head := q.head + q.tail, tail := 0 } else q

/-- The frames left in a queue whose bytes lie in a page that could not be read back: dropped (R278). -/
def State.dropInPages (s : State) (sl : Nat) (q0 : QueueS) (key off : Nat) (pages : List Nat) : State :=
  let hit := pages.flatMap fun g => framesIn (q0.head + 8 * g) (min (q0.head + 8 * g + 8) (q0.head + q0.spill)) ((s.qs sl).queue key).frames off
  hit.eraseDups.foldl (fun (s : State) p =>
    let q := (s.qs sl).queue key
    (s.setQs sl ((s.qs sl).setQueue key { q.free (frameCells p) with frames := q.frames.erase p })).injFin p 2 none) s

/-- The checkers of R301 on the records and descriptors a list is built from. -/
def State.listChecks (s : State) (sl lt : Nat) : State :=
  if !s.inv Ty.QSCH sl 0 then s else
  (s.servedNodes sl lt).foldl (fun (s : State) x =>
    ([0, 1, 2, 3, 4, 5, 6, 7].filter fun c => !((s.qs sl).queue (lt * 8192 + x * 8 + c)).frames.isEmpty).foldl
      (fun (s : State) c => s.qRecInv sl (lt * 8192 + x * 8 + c)) (s.qRecInv sl (2 ^ 17 + lt * 1024 + x))) s

/-- The serve list of one tree for the frame after frame n: `limit` frames could be listed in time; `bad` lists the pages, by their
place among those read back for the list, whose read returned an error completion. -/
def State.treeList (s : State) (sl lt n limit : Nat) (bad : List Nat) : State :=
  let t := 8 * sl + lt
  let s := s.listChecks sl lt
  let x := s.qs sl
  let qt := x.trees.get qtreeReset lt
  let (budget, carry) := s.listBudget t n qt
  let b := buildList x lt limit budget (s.servedNodes sl lt)
  let l := b.out.reverse
  let ptrs := (List.range 9).foldl (fun (p : Tbl Nat) i => p.set 0 i ((p.get 0 i + 1) % 513)) qt.ptrs
  let bytes := l.foldl (fun a e => a + frameLen e.pkt + 24) 0
  let pages := listPages x l
  let lost := (pages.zipIdx.filter fun g => bad.contains g.2).map (·.1)
  let y := l.foldl (fun (y : QschS) e => y.setQueue e.key ((y.queue e.key).free (frameCells e.pkt))) b.x
  let y := pages.foldl (fun (y : QschS) g => y.setQueue g.1 ((y.queue g.1).readBack (x.queue g.1) (b.off.get 0 g.1) g.2)) y
  let y := { y with trees := y.trees.set qtreeReset lt { qt with frame := s.nextM, carry := carry, bytes := bytes, ptrs := ptrs } }
  let s := (s.setQs sl y).countN64 Reg.BUF_PAGES_IN_LO 0 pages.length
  let s := s.countN Reg.QSCH_SHAPE_OVERSIZE sl b.oversize.length
  let s := b.oversize.foldl (fun (s : State) p => s.injFin p 2 none) s
  let s := (s.countN64 Reg.QSCH_SERVED_LO sl l.length).countN64 Reg.QSCH_SERVED_BYTES_LO sl (bytes - 24 * l.length)
  let s := lost.foldl (fun (s : State) _ => (s.count Reg.BUF_PAGE_ERR 0).raise Ty.BUF 0 4 0 0) s
  let s := (lost.map (·.1)).eraseDups.foldl (fun (s : State) key =>
    s.dropInPages sl (x.queue key) key (b.off.get 0 key) ((lost.filter fun g => g.1 == key).map (·.2))) s
  let broken := s.inv Ty.QSCH sl 2
  let gone (e : Listed) : Bool := broken || ((x.queue e.key).pagesOf e.cell e.pkt).any fun g => lost.contains (e.key, g)
  let s := (l.filter gone).foldl (fun (s : State) e => (if broken then s.raise Ty.QSCH sl 4 0 0 else s).injFin e.pkt 2 none) s
  let ents := (l.filter fun e => !gone e).map fun e =>
    let flow := if 65536 ≤ e.pkt.dst then e.pkt.flow else (e.pkt.dst - 64) % 512 * 8 + e.pkt.cls
    (⟨flow, s.urgentFor t e.pkt, e.pkt⟩ : ServeE)
  (s.setTx t { s.tx t with next := (s.tx t).next ++ ents }).spillSettle

/-- The associations of a slice's lists for the next frame (R199): unicast, broadcast and multicast. -/
def State.servedAxs (s : State) (sl : Nat) : List Nat :=
  ((List.range 8).flatMap fun lt => (s.tx (8 * sl + lt)).next.filterMap fun e => flowAx (8 * sl + lt) e.flow).eraseDups

/-- SERVE_LIST_BUILD: in core tick n the lists of frame n + 1 of a slice. `cut` gives, for each local tree whose list the
deadline cut short, the frames listed by then; `bad` (local tree, place) the pages read back for its list whose read failed. -/
def State.serveBuild (s : State) (sl cycle : Nat) (cut bad : List (Nat × Nat)) : State :=
  let x := s.qs sl
  if x.credited == s.tm.tickNo + 1 then s else
  let s := s.setQs sl { x.accrue with credited := s.tm.tickNo + 1 }
  if s.tm.free || !s.isActive then s else
  let tr := (List.range 8).filter fun lt => s.hasTree (8 * sl + lt) && ((s.qs sl).trees.get qtreeReset lt).en
  let late := !s.inTime Ty.QSCH sl cycle
  let cuts := if late then cut.filter fun c => tr.contains c.1 else []
  let limit (lt : Nat) : Nat := match cuts.find? fun c => c.1 == lt with
    | some c => min 20480 c.2
    | none => 20480
  let s := tr.foldl (fun (s : State) lt =>
    s.treeList sl lt s.tm.m (limit lt) ((bad.filter fun c => c.1 == lt).map (·.2))) s
  let s := s.prefetch sl (s.servedAxs sl) s.nextM
  let s := s.setReg Reg.QSCH_STS sl ((cuts.map (·.1)).eraseDups.foldl (fun a lt => a + 2 ^ lt) 0)
  s.complete Ty.QSCH sl cycle
def execServeListBuild (slice cycle : Nat) (cut bad : List (Nat × Nat)) (s : State) := live s fun s =>
  if s.active Ty.QSCH (slice % 4) then s.serveBuild (slice % 4) cycle cut bad else s

/-- What QSCH does at a tick boundary: TREE_EN takes effect (R298). -/
def State.qschBoundary (s : State) : State :=
  [0, 1, 2, 3].foldl (fun (s : State) sl =>
    if !s.present Ty.QSCH sl then s else
    let x := s.qs sl
    let en := s.onFld Reg.QSCH_CTL_TREE_EN sl
    let one (x : QschS) (lt : Nat) : QschS :=
      { x with trees := x.trees.set qtreeReset lt { x.trees.get qtreeReset lt with en := bitOf en lt } }
    s.setQs sl ((List.range 8).foldl one x)) s

/-! ## Q_CMD (R298, R299) -/

/-- Entries of a QSCH table, and whether an index is one of them. -/
def qIdxOk (table idx : Nat) : Bool :=
  match table with
  | 0 => decide (idx < 65536) && decide (idx % 8192 < 4104)
  | 1 => decide (idx < 8192) && decide (idx % 1024 ≤ 512)
  | 2 => decide (idx < 64)
  | 3 => decide (idx < 1024)
  | 4 => decide (idx < 8)
  | 5 => decide (idx < 512)
  | 6 => decide (idx < 16384)
  | 7 => decide (idx < 4096)
  | 8 => decide (idx < 8256)
  | _ => false

/-- Whether the unit an index names is present (R3). -/
def State.qUnit (s : State) (sl table idx : Nat) : Bool :=
  match table with
  | 0 => s.hasTree (8 * sl + idx / 8192)
  | 1 => s.hasTree (8 * sl + idx / 1024)
  | 5 => s.present Ty.TRK (8 * sl + idx / 64)
  | 8 => if idx < 8192 then s.hasTree (8 * sl + idx / 1024) else s.present Ty.TRK (8 * sl + (idx - 8192) / 8)
  | _ => true

/-- Writable bits of the words of each table. -/
def qBits (table w : Nat) : Nat :=
  match table, w with
  | 0, 0 => 0xFFFF
  | 5, 0 => 0xFFFFFF
  | 1, 0 => 0x3FFFF
  | 2, 0 => 0xFFFFF
  | 2, 1 => 0xFFFFFF
  | 3, 0 => 0xFFFFFFF
  | 3, 1 => 0xFFFFFF
  | 4, 0 => 0xFFFF03
  | 4, 1 => 0xFFFFFF
  | 6, 0 => 7
  | 7, 0 => 7
  | 7, 1 | 7, 2 => 0xFFFFFFF
  | 7, 3 | 7, 4 => 0xFFFFFF
  | 8, 0 => 0x1FFF
  | _, _ => 0

/-- A Q_CMD of slice sl: index checks, STATUS, CMD_DONE, CFG_REJECT on a refusal. -/
def State.qCmd (s : State) (sl table op : Nat) (f : State → Nat → State × Nat) : State :=
  if !s.present Ty.QSCH sl then s else
  let i := s.fld Reg.QSCH_Q_IDX_INDEX sl
  let (s, st) := if !qIdxOk table i then (s, 8) else if !s.qUnit sl table i then (s, 4) else f s i
  let s := s.setReg Reg.QSCH_Q_CMD sl (op + table * 2 ^ 4 + st * 2 ^ 24)
  (if st == 0 then s else s.count Reg.QSCH_CFG_REJECT sl).intSet Ty.QSCH sl 7

/-- Words to Q_DATA. -/
def State.qShow (s : State) (sl : Nat) (w : Nat → Nat) : State :=
  (List.range 6).foldl (fun (s : State) j => s.setRegI Reg.QSCH_Q_DATA sl j (w j)) s

/-- The checkers of R301 on a record that a command reads. -/
def State.qReadCheck (s : State) (sl table i : Nat) : State :=
  if table == 0 || table == 1 || table == 5 then s.qRecInv sl (table * 2 ^ 17 + i)
  else if table == 7 then s.polInv sl i else s

/-- Q_READ. -/
def State.qRead (s : State) (sl table : Nat) : State := s.qCmd sl table 1 fun s i =>
  let s := s.qReadCheck sl table i
  (s.qShow sl fun j => if qBits table j == 0 then 0 else (s.qs sl).word table i j, 0)
def execQRead (slice table : Nat) (s : State) := live s fun s => s.qRead (slice % 4) (table % 16)

/-- The stored form of a written word: WEIGHT 0 as 1, QUANTUM below 64 as 64. -/
def qStore (table w v : Nat) : Nat :=
  let v := v &&& qBits table w
  match table, w with
  | 1, 0 => if bitsOf v 10 8 == 0 then setBitsOf v 10 8 1 else v
  | 5, 0 => if bitsOf v 16 8 == 0 then setBitsOf v 16 8 1 else v
  | 4, 0 => if bitsOf v 8 16 < 64 then setBitsOf v 8 16 64 else v
  | _, _ => v

/-- The trunk queues whose profile a write of a table entry changes take their credit up to now first (R285). -/
def State.qSettle (s : State) (sl table i : Nat) : State :=
  let x := s.qs sl
  if table == 5 then s.setQs sl (x.accrueQueue s.now (5 * 2 ^ 17 + i))
  else if table == 3 then
    s.setQs sl (x.queues.foldl (fun x q => if keyTable q.1 == 5 && bitsOf (x.qword q.1) 6 10 == i then x.accrueQueue s.now q.1 else x) x)
  else s

/-- Q_WRITE: profile 0 of SPROF cannot be written. (DEDUCED, log entry 82) -/
def State.qWrite (s : State) (sl table : Nat) : State := s.qCmd sl table 2 fun s i =>
  if table == 3 && i == 0 then (s, 2) else
  let s := s.qSettle sl table i
  let one (x : QschS) (j : Nat) : QschS := if qBits table j == 0 then x else x.setWord table i j (qStore table j (s.regI Reg.QSCH_Q_DATA sl j))
  (s.setQs sl ((List.range 6).foldl one (s.qs sl)), 0)
def execQWrite (slice table : Nat) (s : State) := live s fun s => s.qWrite (slice % 4) (table % 16)

/-- Bytes queued. -/
def QueueS.depth (q : QueueS) : Nat := q.frames.foldl (fun a p => a + frameLen p) 0

/-- µs since the head frame was enqueued, saturating (R293). -/
def State.sojourn (s : State) (q : QueueS) : Nat :=
  match q.frames with
  | p :: _ => min 65535 ((s.now - p.born) / 1250)
  | [] => 0

/-- Q_READ_STATE. -/
def State.qReadState (s : State) (sl table : Nat) : State := s.qCmd sl table 3 fun s i =>
  let s := s.qReadCheck sl table i
  let x := s.qs sl
  match table with
  | 0 | 5 =>
    let q := x.queue (table * 2 ^ 17 + i)
    let w := [q.depth % 2 ^ 32, q.occ % 2 ^ 24, q.pages % 2 ^ 24, q.credit % 2 ^ 28, q.deficit % 2 ^ 24, s.sojourn q]
    (s.qShow sl fun j => w.getD j 0, 0)
  | 1 =>
    let group := i % 1024 == 512
    let st := (s.term ((8 * sl + i / 1024) * 512 + i % 1024)).st
    let served := s.nodeServed sl (i / 1024) (i % 1024)
    let admits := s.isActive && (group || !(st == .init || st == .deactivated))
    let w := [(if served then 1 else 0) + (if admits then 2 else 0), 0, 0, x.nodes.get 0 i % 2 ^ 28]
    (s.qShow sl fun j => w.getD j 0, 0)
  | 7 =>
    let p := x.pol.get polReset i
    (s.qShow sl fun j => if j == 3 then p.tc % 2 ^ 28 else if j == 4 then p.te % 2 ^ 28 else 0, 0)
  | _ => (s, 8)
def execQReadState (slice table : Nat) (s : State) := live s fun s => s.qReadState (slice % 4) (table % 16)

/-- Q_FLUSH: QUEUE and TRUNKQ. -/
def State.qFlushCmd (s : State) (sl table : Nat) : State := s.qCmd sl table 4 fun s i =>
  if table == 0 || table == 5 then (s.qFlush sl (table * 2 ^ 17 + i), 0) else (s, 8)
def execQFlush (slice table : Nat) (s : State) := live s fun s => s.qFlushCmd (slice % 4) (table % 16)

/-! ## Samples (R292, R293, R426) -/

/-- A 16-byte record to the latency-sample area, or none where it is full. -/
def State.sampPut (s : State) (r : Bytes) : State × Bool :=
  let prod := s.fld Reg.PMC_SAMP_PROD_INDEX 0
  let n := (prod + 2 ^ 21 - s.fld Reg.PMC_SAMP_CONS_INDEX 0) % 2 ^ 21
  let size := 2 ^ s.fld Reg.PMC_SAMP_CFG_LOG2_SIZE 0
  if !s.on Reg.PMC_SAMP_CFG_EN 0 || decide (size ≤ n) then (s, false) else
  match s.dmaWrite (s.fld Reg.PMC_SAMP_CFG_WINDOW 0) (s.reg64 Reg.PMC_SAMP_OFF_LO 0 + prod % size * 16) r with
  | (s, true) =>
    let s := s.setFld Reg.PMC_SAMP_PROD_INDEX 0 ((prod + 1) % 2 ^ 21)
    (if n + 1 == size / 2 then s.intSet Ty.PMC 0 3 else s, true)
  | (s, false) => (s, false)

/-- The sample of one queue: kind 0 terminal, 1 group, 2 trunk. -/
def State.sampleOne (s : State) (sl kind table idx : Nat) : State :=
  let q := (s.qs sl).queue (table * 2 ^ 17 + idx)
  let held := kind != 2 && !s.nodeServed sl (idx / 8192) (idx % 8192 / 8)
  let flags := (if q.frames.isEmpty then 1 else 0) + (if q.spill == 0 then 0 else 2) + (if held then 4 else 0)
  let r := toLE 6 s.tick ++ toLE 3 (kind * 2 ^ 19 + sl * 2 ^ 16 + idx) ++ toLE 1 flags ++ toLE 4 q.depth ++ toLE 2 (s.sojourn q)
  match s.sampPut r with
  | (s, true) => s
  | (s, false) => s.count Reg.QSCH_SAMPLE_DROP sl

/-- QUEUE_SAMPLE: one round of a slice: the next 1,024 terminal queues and the next 64 of the 64 group and 512 trunk queues. -/
def State.queueSample (s : State) (sl : Nat) : State :=
  let x := s.qs sl
  if !s.on Reg.QSCH_CTL_SAMPLE_EN sl || decide (s.tm.tickNo + 1 < x.sampled + s.fld Reg.QSCH_SAMPLE_CFG_STRIDE sl) ||
      x.sampled == s.tm.tickNo + 1 then s else
  let s := s.setQs sl { x with sampled := s.tm.tickNo + 1, sampleT := (x.sampleT + 1024) % 32768, sampleG := (x.sampleG + 64) % 576 }
  let s := (List.range 1024).foldl (fun (s : State) i =>
    let k := x.sampleT + i
    s.sampleOne sl 0 0 (k / 4096 * 8192 + k % 4096)) s
  (List.range 64).foldl (fun (s : State) i =>
    let k := (x.sampleG + i) % 576
    if k < 64 then s.sampleOne sl 1 0 (k / 8 * 8192 + 4096 + k % 8) else s.sampleOne sl 2 5 (k - 64)) s
def execQueueSample (slice : Nat) (s : State) := live s fun s =>
  if s.present Ty.QSCH (slice % 4) then s.queueSample (slice % 4) else s

/-! ## Errors (R297, R301) -/

/-- QSCH: 0x02 strikes the record in LO (a queue key); 0x03 disables the policer in LO; 0x04 drops the oldest frame on its way to a
queue of the slice. (DESIGN CHOICE, log entry 135) -/
def State.qschErr (s : State) (d : Det) : State :=
  if d.forced then s else
  let x := s.qs d.inst
  match d.src with
  | 2 => s.qRecFail d.inst d.capLo
  | 3 => s.setQs d.inst (x.setWord 7 d.capLo 0 (setBitOf (x.word 7 d.capLo 0) 0 false))
  | 4 =>
    match s.qin.find? fun p => p.hp / 2 == d.inst with
    | some p => { s with qin := s.qin.erase p }.injFin p 2 none
    | none => s
  | _ => s

/-- BUF: 0x02 drops the frame that holds the cell: the head frame of the queue in LO of slice HI[31:16]; 0x03 withdraws a cell
of that bank. -/
def State.bufErr (s : State) (d : Det) : State :=
  if d.forced then s else
  let sl := d.capHi / 2 ^ 16 % 4
  match d.src with
  | 2 =>
    let q := (s.qs sl).queue d.capLo
    match q.frames with
    | p :: rest => (s.setQs sl ((s.qs sl).setQueue d.capLo { q.free (frameCells p) with frames := rest })).injFin p 2 none
    | [] => s
  | 3 => { s with buf := { s.buf with withdrawn := s.buf.withdrawn.set 0 sl (s.buf.withdrawn.get 0 sl + 1) } }
  | _ => s

end Sys2Proof.Machine
end

