-- ==== Sys2Proof/Machine/Gate.lean ====
section
/-! DEFINITION. Transit lists (R289 to R291, R302 to R304) and trunk transmission: selection (R288), the header rewrite of R255
and the frame's way out. -/

namespace Sys2Proof.Machine

/-- A GATE nothing has written. (DESIGN CHOICE, log entry 6) -/
def gateReset : GateS := { admin := [], pend := none, act := none, entry := 0, free := false, noTime := true }

/-- The gates of lane i. -/
def State.gt (s : State) (i : Nat) : GateS := s.gate.get gateReset i

/-- Store them. -/
def State.setGt (s : State) (i : Nat) (x : GateS) : State := { s with gate := s.gate.set gateReset i x }

/-- An admin entry, gates + 256 × interval (R302): entry 0 opens every gate for 1 ms at reset. -/
def GateS.adminAt (x : GateS) (e : Nat) : Nat := x.admin.getD (fun k => if k == 0 then 255 + 256 * 1000000 else 0) e

/-- The gates go by this time: the active domain's, in units of 2^−32 ns. (DEDUCED, log entry 73) -/
def State.gateTime (s : State) : Nat := (s.dom s.tm.active).t

/-! ## Position and windows (R290, R291) -/

/-- The position of a list at a time, in units of 2^−32 ns. -/
def TList.posAt (l : TList) (t : Nat) : Nat :=
  (((t : Int) - l.start * 2 ^ 32) % (l.cycle * 2 ^ 32)).toNat

/-- The entry at a position (ns), and the ns left in it. -/
def entryAt : List (Nat × Nat) → Nat → Nat → Nat × Nat
  | [], _, e => (e, 0)
  | (_, n) :: l, pos, e => if pos < n then (e, n - pos) else entryAt l (pos - n) (e + 1)

/-- The entry in force at a time. -/
def TList.entry (l : TList) (t : Nat) : Nat := (entryAt l.ents (l.posAt t / 2 ^ 32) 0).1

/-- Gate states of an entry. -/
def TList.gates (l : TList) (e : Nat) : Nat := (l.ents.getD e (0, 0)).1

/-- A class is open in every entry. -/
def TList.always (l : TList) (c : Nat) : Bool := l.ents.all fun e => bitOf e.1 c

/-- ns of the consecutive open entries from the head of a list of entries. -/
def openRun (c : Nat) : List (Nat × Nat) → Nat
  | [] => 0
  | (g, n) :: l => if bitOf g c then n + openRun c l else 0

/-- The longest window of a class, none for an unbounded one. -/
def TList.longest (l : TList) (c : Nat) : Option Nat :=
  if l.always c then none
  else some ((List.range l.ents.length).foldl (fun a i => max a (openRun c (l.ents.drop i ++ l.ents.take i))) 0)

/-- Units of 2^−32 ns from a time to the close of the class's present window (0 where its gate is closed), none where it does
not close. -/
def TList.toClose (l : TList) (c t : Nat) : Option Nat :=
  if l.always c then none else
  let pos := l.posAt t
  let (e, left) := entryAt l.ents (pos / 2 ^ 32) 0
  if bitOf (l.gates e) c then
    some ((left + openRun c (l.ents.drop (e + 1) ++ l.ents.take e)) * 2 ^ 32 - pos % 2 ^ 32)
  else some 0

/-- The active time domain is not declared valid: every gate is open (R290, R341). -/
def State.noTime (s : State) : Bool := s.tm.free || !s.netValid

/-- The list that a port's gates follow now: none where every gate is open (R289, R290, R304). -/
def State.gateList (s : State) (i : Nat) : Option TList :=
  let x := s.gt i
  if !s.on Reg.GATE_CTL_EN i || x.free || s.noTime then none else x.act

/-- Hundredths of a ns per byte at the port's rate. -/
def State.byteTime (s : State) : Nat :=
  match s.trkMode with
  | 1 => 2
  | 2 => 1
  | _ => 8

/-- A frame's bytes with the guard fit a span of 2^−32 ns units. -/
def State.fits (s : State) (i len span : Nat) : Bool :=
  decide ((len + s.fld Reg.GATE_GUARD_BYTES_BYTES i) * s.byteTime * 2 ^ 32 ≤ span * 100)

/-! ## Lists (R289, R290) -/

/-- Mirror a commit (R467): its admin list and base time, and the start time that the mate must reach too. -/
def State.gateMirror (s : State) (i base : Nat) (l : TList) : State :=
  s.mirror 9 ([i, base, l.start, l.cycle] ++ l.ents.map fun e => e.1 + 256 * e.2) []

/-- GATE_COMMIT: the admin list becomes the pending list with its start time, or is refused. -/
def State.gateCommit (s : State) (i cycle : Nat) : State :=
  if !s.present Ty.GATE i || !s.isPrim i then s else
  let s := s.advanceTo cycle
  let x := s.gt i
  let n := s.fld Reg.GATE_ADMIN_LEN_ENTRIES i
  let ents := (List.range n).map fun e => (x.adminAt e % 256, x.adminAt e / 256)
  let cyc := s.fld Reg.GATE_ADMIN_CYCLE_NS i
  if (ents.any fun e => decide (e.2 < 8)) || ents.foldl (fun a e => a + e.2) 0 != cyc then s.count Reg.GATE_CFG_REJECT i else
  let base := (s.reg64 Reg.GATE_ADMIN_BASE_S_LO i % 2 ^ 48) * 10 ^ 9 + s.fld Reg.GATE_ADMIN_BASE_NS_NS i
  let first := ceilDiv s.gateTime (2 ^ 32) + 125000
  if first ≤ base then (s.setGt i { x with pend := some ⟨ents, cyc, base⟩ }).gateMirror i base ⟨ents, cyc, base⟩
  else
    let l : TList := ⟨ents, cyc, base + ceilDiv (first - base) cyc * cyc⟩
    ((s.setGt i { x with pend := some l }).count Reg.GATE_PAST_BASE i).gateMirror i base l
def execGateCommit (inst cycle : Nat) (s : State) := live s fun s =>
  if s.present Ty.GATE (inst % 32) && s.isPrim (inst % 32) then s.mirrored fun s => s.gateCommit (inst % 32) cycle else s

/-- The pending list becomes active once its start time has come. -/
def State.gateStart (s : State) (i : Nat) : State :=
  let x := s.gt i
  match x.pend with
  | some l =>
    if s.tm.free || decide (s.gateTime < l.start * 2 ^ 32) then s else
    let s := s.setGt i { x with pend := none, act := some l, entry := l.entry s.gateTime, free := false }
    let s := s.setReg Reg.GATE_OPER_CYCLE i l.cycle
    let s := s.setReg Reg.GATE_OPER_START_NS i (l.start % 10 ^ 9)
    let s := s.setReg64 Reg.GATE_OPER_START_S_LO i (l.start / 10 ^ 9 % 2 ^ 48)
    s.count Reg.GATE_LIST_SWITCHES i
  | none => s

/-- The entry in force brought up to the present time. -/
def State.gateStep (s : State) (i : Nat) : State :=
  let x := s.gt i
  match x.act with
  | some l => if s.tm.free then s else s.setGt i { x with entry := l.entry s.gateTime }
  | none => s

/-- A look at the gates: the injected checks of R304, a list whose start has come, the entry, and NO_TIME. (DEDUCED, log entry 128) -/
def State.gateLook (s : State) (i : Nat) : State :=
  let s := if s.inv Ty.GATE i 0 && (s.gt i).act.isSome then
      (s.raiseInv Ty.GATE i 2 0 0).setGt i { s.gt i with act := none, entry := 0 }
    else s
  let s := if s.inv Ty.GATE i 0 && (s.gt i).pend.isSome then (s.raiseInv Ty.GATE i 2 1 0).setGt i { s.gt i with pend := none } else s
  let s := if s.inv Ty.GATE i 1 then (s.raise Ty.GATE i 3 0 0).setGt i { s.gt i with free := true } else s
  let s := (s.gateStart i).gateStep i
  let x := s.gt i
  let s := if s.noTime && !x.noTime then s.intSet Ty.GATE i 4 else s
  s.setGt i { x with noTime := s.noTime }

/-- GATE_LIST_START: at a core cycle at or after its start time. (DEDUCED, log entry 73) -/
def State.listStart (s : State) (i cycle : Nat) : State :=
  if !s.present Ty.GATE i || !s.isPrim i then s else (s.advanceTo cycle).gateStart i
def execGateListStart (inst cycle : Nat) (s : State) := live s fun s => s.listStart (inst % 32) cycle

/-- GATE_ENTRY_ADVANCE: at a core cycle the entry of the active list is the one at that time. -/
def State.entryAdvance (s : State) (i cycle : Nat) : State :=
  if !s.present Ty.GATE i || !s.isPrim i then s else (s.advanceTo cycle).gateStep i
def execGateEntryAdvance (inst cycle : Nat) (s : State) := live s fun s => s.entryAdvance (inst % 32) cycle

/-- What the gates do at a tick boundary: a step of time moves them (R290). -/
def State.gateBoundary (s : State) : State :=
  (List.range 32).foldl (fun (s : State) i => if s.present Ty.GATE i && s.isPrim i then s.gateLook i else s) s

/-- GATE: 0x02 discards the active (LO 0) or pending list; 0x03 opens every gate until the next commit starts. -/
def State.gateErr (s : State) (d : Det) : State :=
  if d.forced then s else
  let x := s.gt d.inst
  match d.src with
  | 2 => s.setGt d.inst (if d.capLo == 0 then { x with act := none, entry := 0 } else { x with pend := none })
  | 3 => s.setGt d.inst { x with free := true }
  | _ => s

/-! ## Selection (R288) -/

/-- The key of queue j of the port whose primary lane is i. -/
def trunkKey (i j : Nat) : Nat := 5 * 2 ^ 17 + i % 8 * 64 + j

/-- The credits of a port's shaped queues up to now. -/
def State.trunkAccrue (s : State) (i : Nat) : State :=
  let sl := i / 8
  s.setQs sl ((List.range 64).foldl (fun x j => x.accrueQueue s.now (trunkKey i j)) (s.qs sl))

/-- The head of a trunk queue leaves it without being sent. -/
def State.trunkDrop (s : State) (i j : Nat) (r : RegId) (inst : Nat) : State :=
  let x := s.qs (i / 8)
  let key := trunkKey i j
  let q := x.queue key
  match q.frames with
  | p :: rest => ((s.setQs (i / 8) (x.setQueue key { q.free (frameCells p) with frames := rest })).count r inst).injFin p 2 none
  | [] => s

/-- Heads that can never be sent are dropped (R285, R291). -/
def State.trunkClean (s : State) (i j : Nat) : Nat → State
  | 0 => s
  | n + 1 =>
    let x := s.qs (i / 8)
    let key := trunkKey i j
    let prof := bitsOf (x.qword key) 6 10
    match (x.queue key).frames with
    | [] => s
    | p :: _ =>
      if prof != 0 && decide ((x.shaper prof).2 < frameLen p) then
        State.trunkClean (s.trunkDrop i j Reg.QSCH_SHAPE_OVERSIZE (i / 8)) i j n
      else match s.gateList i with
        | none => s
        | some l =>
          match l.longest p.cls with
          | none => s
          | some w =>
            if s.fits i (frameLen p) (w * 2 ^ 32) then s
            else State.trunkClean (s.trunkDrop i j Reg.GATE_OVERSIZE_FOR_WINDOW i) i j n

/-- The head of queue j if it is a candidate: gate open, window long enough, credit. -/
def State.trunkHead (s : State) (i j : Nat) : Option Pkt :=
  let x := s.qs (i / 8)
  let key := trunkKey i j
  let q := x.queue key
  match q.frames with
  | [] => none
  | p :: _ =>
    let gate := match s.gateList i with
      | none => true
      | some l =>
        match l.toClose (j % 8) s.gateTime with
        | none => true
        | some r => s.fits i (frameLen p) r
    if gate && (bitsOf (x.qword key) 6 10 == 0 || decide (16 * frameLen p ≤ q.credit)) then some p else none

/-- The candidates of a strict class: the queue groups from its pointer on. -/
def State.pickStrict (s : State) (i c : Nat) : Option Nat :=
  let g0 := (s.qs (i / 8)).trunk.get 0 (i % 8 * 9 + c)
  ((List.range 8).map fun k => 8 * ((g0 + k) % 8) + c).find? fun j => (s.trunkHead i j).isSome

/-- The deficit pointer of port i moves to its next queue, which gets its quantum if its head is a candidate. (DEDUCED, log entry 73) -/
def State.nextDeficit (s : State) (i : Nat) (dc : List Nat) : State :=
  let x := s.qs (i / 8)
  let k := (x.trunk.get 0 (i % 8 * 9 + 8) + 1) % 64
  let key := trunkKey i k
  let add := bitsOf (x.word 4 (k % 8) 0) 8 16 * bitsOf (x.qword key) 16 8 / 16
  let q := x.queue key
  let y := { x with trunk := x.trunk.set 0 (i % 8 * 9 + 8) k }
  s.setQs (i / 8) <|
    if q.frames.isEmpty then y.setQueue key { q with deficit := 0 }
    else if dc.contains (k % 8) && (s.trunkHead i k).isSome then y.setQueue key { q with deficit := q.deficit + add } else y

/-- The deficit queues from the pointer on: a candidate whose deficit covers its head is taken, or the pointer moves on. (DEDUCED, log entry 73) -/
def State.pickDeficit (s : State) (i : Nat) (dc : List Nat) : Nat → State × Option Nat
  | 0 => (s, none)
  | n + 1 =>
    let x := s.qs (i / 8)
    let j := x.trunk.get 0 (i % 8 * 9 + 8)
    match (if dc.contains (j % 8) then s.trunkHead i j else none) with
    | some p =>
      if frameLen p ≤ (x.queue (trunkKey i j)).deficit then (s, some j) else State.pickDeficit (s.nextDeficit i dc) i dc n
    | none => State.pickDeficit (s.nextDeficit i dc) i dc n

/-- The queue that is served next, and whether it is of a deficit class. -/
def State.pickQueue (s : State) (i : Nat) : State × Option (Nat × Bool) :=
  let x := s.qs (i / 8)
  let sp (c : Nat) : Bool := bitOf (x.word 4 c 0) 0
  match [7, 6, 5, 4, 3, 2, 1, 0].findSome? fun c => if sp c then s.pickStrict i c else none with
  | some j => (s, some (j, false))
  | none =>
    let dc := [7, 6, 5, 4, 3, 2, 1, 0].filter fun c => !sp c
    if (List.range 64).any fun j => dc.contains (j % 8) && (s.trunkHead i j).isSome then
      match s.pickDeficit i dc (64 * 4104) with
      | (s, some j) => (s, some (j, true))
      | (s, none) => (s, none)
    else (s, none)

/-- Header rewrite on egress to trunk port k (R255, R284). (DEDUCED, log entry 73) -/
def State.retag (s : State) (k : Nat) (p : Pkt) : Bytes :=
  match s.vidOf p.domain k with
  | some v =>
    if v == 0 then p.data else
    let tpid := if (s.fw (s.portSlice k)).bit 3 k 0 17 then 0x88A8 else 0x8100
    p.data.take 12 ++ toBE 2 tpid ++ toBE 2 (p.cls * 2 ^ 13 + (if p.yellow then 2 ^ 12 else 0) + v) ++ p.data.drop 12
  | none => p.data

/-- originTimestamp of a frame injected with ONE_STEP (R346, R369). -/
def State.oneStep (s : State) (k : Nat) (p : Pkt) (d : Bytes) : Bytes :=
  match p.inj, ptpAt d with
  | some j, some (h, ck) =>
    if !j.oneStep then d else
    let t := s.egressTime k
    putUdp d ck (h + 34) (toBE 6 (t / 2 ^ 32 / 10 ^ 9) ++ toBE 4 (t / 2 ^ 32 % 10 ^ 9))
  | _, _ => d

/-- A frame taken from its queue and not sent: its descriptor's parity is bad (R301), or the port's link is down (R294). -/
def State.trunkLose (s : State) (k i key : Nat) (p : Pkt) (rest : List Pkt) : State :=
  let q := (s.qs (i / 8)).queue key
  let s := s.setQs (i / 8) ((s.qs (i / 8)).setQueue key { q.free (frameCells p) with frames := rest })
  (if s.inv Ty.QSCH (i / 8) 2 then s.raise Ty.QSCH (i / 8) 4 0 0
   else if s.portUp k then s else s.count Reg.TRK_TX_DISCARD i).injFin p 2 none

/-- TRK_TX_SELECT: at a core cycle port k can take a frame. -/
def State.txSelect (s : State) (k cycle : Nat) : State :=
  if !s.hasPort k then s else
  let i := s.prim k
  let s := ((s.advanceTo cycle).gateLook i).trunkAccrue i
  let s := (List.range 64).foldl (fun (s : State) j =>
    if ((s.qs (i / 8)).queue (trunkKey i j)).frames.isEmpty then s else s.qRecInv (i / 8) (trunkKey i j)) s
  let s := (List.range 64).foldl (fun (s : State) j => s.trunkClean i j ((s.qs (i / 8)).queue (trunkKey i j)).frames.length) s
  match s.pickQueue i with
  | (s, none) => s
  | (s, some (j, deficit)) =>
    let x := s.qs (i / 8)
    let key := trunkKey i j
    let q := x.queue key
    match q.frames with
    | [] => s
    | p :: rest =>
      if s.inv Ty.QSCH (i / 8) 2 || !s.portUp k then s.trunkLose k i key p rest else
      let l := frameLen p
      let left := if rest.isEmpty then 0 else q.deficit - l
      let q := { q.free (frameCells p) with
        frames := rest, credit := if bitsOf (x.qword key) 6 10 == 0 then q.credit else q.credit - 16 * l
        deficit := if deficit then left else q.deficit }
      let x := x.setQueue key q
      let x := if deficit then x else { x with trunk := x.trunk.set 0 (i % 8 * 9 + j % 8) ((j / 8 + 1) % 8) }
      let s := ((s.setQs (i / 8) x).count64 Reg.QSCH_SERVED_LO (i / 8)).countN64 Reg.QSCH_SERVED_BYTES_LO (i / 8) l
      let (s, d) := s.tcEgress k { p with data := s.retag k p } (s.egressEl k)
      s.msecTx k { p with data := s.oneStep k p d }
def execTrkTxSelect (port cycle : Nat) (s : State) := live s fun s => s.txSelect (port % 32) cycle

end Sys2Proof.Machine
end

