-- ==== Sys2Proof/Machine/Ckt.lean ====
section
/-! DEFINITION. Circuit links (R305 to R320, R329 to R331): frames in both directions, paths and their overhead, defects and
their ranking, seconds and bins. -/

namespace Sys2Proof.Machine

/-! ## State -/

/-- A path nothing has written. (DESIGN CHOICE, log entry 6) -/
def pathReset : CktPath :=
  { valid := false, through := false, txAis := false, txUneq := false, txRdi := false, pmEn := true, first := 288, count := 1
    rxH := [], txH := [], runAis := 0, runNoAis := 0, runUneq := 0, runNoUneq := 0, present := 0, shown := 0, status := 0, febe := 0
    bipErr := 0, febeErr := 0, txmon := 0 }

/-- Monitoring that has seen nothing. -/
def pmReset : Pm :=
  { errs := 0, far := 0, defect := false, rdi := false, degBad := 0, degOk := 0, una := false, sesRun := 0, okRun := 0, hist := [], fresh := false
    q := none, qEnd := none, qDone := [], day := none, dayEnd := none, dayDone := [] }

/-- A link after reset. (DESIGN CHOICE, log entry 6) -/
def cktReset : CktS :=
  { line := 0, last := none, gap := false, bip := none, sent := [], fill := [], gapAt := 0, checks := [], conf := 0, miss := 0, rxLast := none, rxBip := none
    frames := [], starts := [], late := none, runTick := 0, runAis := 0, runNoAis := 0, present := 0, paths := [], pm := [], second := 0 }

/-- Link l. -/
def State.cl (s : State) (l : Nat) : CktS := s.ckt.get cktReset l

/-- Store it. -/
def State.setCl (s : State) (l : Nat) (x : CktS) : State := { s with ckt := s.ckt.set cktReset l x }

/-- Path p. -/
def CktS.path (x : CktS) (p : Nat) : CktPath := x.paths.get pathReset p

/-- Store it. -/
def CktS.setPath (x : CktS) (p : Nat) (y : CktPath) : CktS := { x with paths := x.paths.set pathReset p y }

/-- Monitoring of an entity (2,048 the section). -/
def CktS.pmOf (x : CktS) (e : Nat) : Pm := x.pm.get pmReset e

/-- Store it. -/
def CktS.setPm (x : CktS) (e : Nat) (y : Pm) : CktS := { x with pm := x.pm.set pmReset e y }

/-- BIP-8 of bytes (R307). -/
def bip8 (d : Bytes) : Nat := d.foldl (fun a b => a ^^^ b.toNat) 0

/-- Bits set in a byte. -/
def popBits (v : Nat) : Nat := (List.range 8).foldl (fun a i => if bitOf v i then a + 1 else a) 0

/-- Bytes 16 onward of a frame scrambled or descrambled by its header (R308). -/
def cktScramble (off : Bool) (f : Bytes) : Bytes :=
  if off then f else
  f.take 16 ++ xorB (f.drop 16) (scrBytes ((0x100 + beAt f 6 1 % 4) * 2 ^ 48 + beAt f 0 6) (f.length - 16))

/-- A valid circuit header (R306). -/
def cktHdrOk (f : Bytes) : Bool :=
  beAt f 12 4 == crc32c (sliceB f 0 12) && decide (beAt f 6 1 < 4) && beAt f 7 1 % 16 == 0 && beAt f 8 4 == 0

/-! ## Reports (R316) -/

/-- The highest-ranked bit of a set, alone. -/
def topBit (v n : Nat) : Nat :=
  match (List.range n).find? fun i => bitOf v i with
  | some i => 2 ^ i
  | none => 0

/-- The reported defects of a link and its paths brought up to date: CKT_STS, the DEFECT flag, DEF_CHANGE (R316, R330). -/
def State.cktShow (s : State) (l : Nat) : State :=
  let x := s.cl l
  let was := s.reg Reg.CKT_STS l
  let now := topBit x.present 5
  let one (a : State × Bool) (q : Nat × CktPath) : State × Bool :=
    let (p, y) := q
    let r := if !y.valid || x.present != 0 then 0 else topBit y.present 3
    let s := if r == y.shown then a.1 else
      let s := a.1.setCl l ((a.1.cl l).setPath p { y with shown := r })
      (s.setRegI Reg.CKT_DEF_CHANGE l (p / 32) (setBitOf (s.regI Reg.CKT_DEF_CHANGE l (p / 32)) (p % 32) true)).intSet Ty.CKT l 2
    (s, a.2 || r != 0)
  let (s, any) := x.paths.foldl one (s, false)
  let s := if bitsOf was 2 5 == now then s else s.intSet Ty.CKT l 1
  s.setReg Reg.CKT_STS l (setBitOf (setBitsOf was 2 5 now) 8 any)

/-- A section defect (0 LOS, 1 LOF, 2 LOMF, 3 S-AIS, 4 S-DEG) present or not. -/
def CktS.defect (x : CktS) (i : Nat) (b : Bool) : CktS := { x with present := setBitOf x.present i b }

/-- LOS, LOF, LOMF or S-AIS is present. -/
def CktS.down (x : CktS) : Bool := x.present % 16 != 0

/-- RX_STATE: 0 HUNT, 1 PRESYNC, 2 SYNC. (DEDUCED, log entry 74) -/
def State.rxState (s : State) (l : Nat) : Nat := s.fld Reg.CKT_STS_RX_STATE l

/-! ## Reception (R309, R311 to R315) -/

/-- A count in an entity's current second. -/
def CktS.tally (x : CktS) (e : Nat) (near far : Bool) (rdi : Bool) : CktS :=
  let y := x.pmOf e
  x.setPm e { y with errs := y.errs + (if near then 1 else 0), far := y.far + (if far then 1 else 0), rdi := y.rdi || rdi }

/-- The BIP over the 16 frames before frame n, none where one of them is missing. (DEDUCED, log entry 74) -/
def bipBefore (h : List (Nat × Nat)) (n : Nat) : Option Nat :=
  (List.range 16).foldl (fun a i => match a, h.find? fun e => e.1 + 1 + i == n with
    | some v, some e => some (v ^^^ e.2)
    | _, _ => none) (some 0)

/-- A path's overhead byte and payload of a received frame with TICK k (R313, R315). -/
def State.pathRx (s : State) (l k : Nat) (f : Bytes) (p : Nat) : State :=
  let x := s.cl l
  let y := x.path p
  if !y.valid then s else
  let mine := k % 8 == p % 8
  let b := beAt f (32 + p / 8) 1
  let s :=
    if !mine then s
    else if k / 8 % 2 == 0 then
      match bipBefore y.rxH k with
      | some v =>
        let e := popBits (v ^^^ b)
        let y := { y with febe := e }
        let counted := e != 0 && !bitOf x.present 3 && !bitOf y.present 0
        let y := if counted then { y with bipErr := min (y.bipErr + 1) 0xFFFFFFFF } else y
        s.setCl l ((x.setPath p y).tally p counted false false)
      | none => s
    else
      let sig := b % 8
      let ais := sig == 7
      let uneq := sig == 0
      let run (c : Bool) (n : Nat) : Nat := if c then min (n + 1) 3 else 0
      let set (v i : Nat) (on off : Nat) : Nat := if on == 3 then setBitOf v i true else if off == 3 then setBitOf v i false else v
      let y := if x.down then { y with status := b } else
        let y := { y with runAis := run ais y.runAis, runNoAis := run (!ais) y.runNoAis, runUneq := run uneq y.runUneq
                          runNoUneq := run (!uneq) y.runNoUneq, status := b }
        { y with present := set (set y.present 0 y.runAis y.runNoAis) 1 y.runUneq y.runNoUneq }
      let far := b / 16 != 0
      let y := if far then { y with febeErr := min (y.febeErr + 1) 0xFFFFFFFF } else y
      s.setCl l ((x.setPath p y).tally p false far (bitOf b 3))
  let x := s.cl l
  let y := x.path p
  s.setCl l (x.setPath p { y with rxH := ((k, bip8 (sliceB f y.first y.count)) :: y.rxH).take 16 })

/-- The receive tick of a frame that begins at a core cycle, and its arrival less B(r) in ns (R309): the window of tick n ends at cycle
15,000 of core tick n, where that of the next one begins. -/
def State.rxWindow (s : State) (cycle : Nat) : Nat × Int :=
  if cycle ≤ 15000 then (s.tm.m, ((cycle : Int) - 5000) * 4 / 5) else (s.nextM, ((cycle : Int) - 5000 - s.tm.len) * 4 / 5)

/-- A frame starts at a core cycle: its receive tick, a slip where the window holds one already, RX_PHASE. -/
def State.cktStart (s : State) (l cycle : Nat) : State :=
  let (r, ns) := s.rxWindow cycle
  let x := s.cl l
  let s := if x.starts.contains r then s.count Reg.CKT_RX_SLIP l else s
  (s.setCl l { x with starts := (r :: x.starts.filter (· != r)).take 3 }).setReg Reg.CKT_RX_PHASE l (ofSigned 18 ns + 2 ^ 31)

/-- A good frame of link l: checked, assigned to its receive tick, its paths read. A frame after misses follows on where its TICK counts
them too. (DEDUCED, log entry 126) -/
def State.cktGood (s : State) (l cycle : Nat) (f : Bytes) : State :=
  let s := s.cktStart l cycle
  let x := s.cl l
  let k := beAt f 0 6
  let flags := beAt f 7 1
  let d := cktScramble (s.flag Reg.CKT_CTL_SCR_OFF l) f
  let consec := match x.rxLast with
    | some j => k == j + 1 || k == j + 1 + x.miss
    | none => false
  let lomf := !consec && !bitOf flags 6 && x.rxLast.isSome
  let ais := bitOf flags 5
  let runTick := if consec && x.miss == 0 then min (x.runTick + 1) 8 else 1
  let runAis := if ais then min (x.runAis + 1) 3 else 0
  let runNoAis := if ais then 0 else min (x.runNoAis + 1) 3
  let y := { x with rxLast := some k, miss := 0, runTick := runTick, runAis := runAis, runNoAis := runNoAis }
  let y := if lomf then y.defect 2 true else if runTick == 8 then y.defect 2 false else y
  let y := if runAis == 3 then y.defect 3 true else if runNoAis == 3 then y.defect 3 false else y
  let e := x.rxBip.map fun v => popBits (v ^^^ beAt d 16 1)
  let bad := match e with
    | some n => n != 0 && !bitOf y.present 3
    | none => false
  let far := beAt d 17 1 != 0
  let y := { y with rxBip := some (bip8 f) }
  let y := match e with
    | some n => { y with checks := ((s.tm.tickNo, cycle, n) :: y.checks).take 4 }
    | none => y
  let y := y.tally 2048 bad far (bitOf flags 4)
  let s := s.count64 Reg.CKT_FRAMES_RX_LO l
  let s := if bad then s.count Reg.CKT_S_BIP_ERR l else s
  let s := if far then s.count Reg.CKT_S_FEBE_ERR l else s
  let s := if beAt f 6 1 % 4 != s.reg Reg.CKT_RX_LINK_EXP l % 4 then s.count Reg.CKT_LINK_MISMATCH l else s
  let s := s.setFlag Reg.CKT_STS_RX_RDI l (bitOf flags 4)
  let r := (s.rxWindow cycle).1
  let par := s.inv Ty.CKT l 1
  let s := if par then s.raise Ty.CKT l 3 0 0 else s
  let d := if par then d.take 288 ++ (d.drop 288).map fun _ => 0xFF else d
  let s := s.setCl l { y with frames := (r, k, d) :: (x.frames.filter fun q => q.1 != r).take 3 }
  let ps := ((s.cl l).paths.filter fun q => q.2.valid).map (·.1)
  let s := match (if s.inv Ty.CKT l 0 then ps.head? else none) with
    | some p =>
      let z := (s.cl l).path p
      (s.raiseInv Ty.CKT l 2 p 0).setCl l ((s.cl l).setPath p { z with valid := false })
    | none => s
  (ps.foldl (fun (s : State) p => s.pathRx l k d p) s).cktShow l

/-- CKT_FRAME_RECEIVE: a frame whose first bit arrives at a core cycle; `at0` says that it begins one frame after the last
anchor. The bit-by-bit search of HUNT and of the re-anchoring is the environment's (R311). (DEDUCED, log entry 74) -/
def State.cktRx (s : State) (l cycle : Nat) (at0 : Bool) (f : Bytes) : State :=
  if !s.on Reg.CKT_CTL_RX_EN l then s else
  let s := s.advanceTo cycle
  let x := s.cl l
  let ok := cktHdrOk f
  let k := beAt f 0 6
  let flags := beAt f 7 1
  let state (s : State) (v : Nat) : State := s.setFld Reg.CKT_STS_RX_STATE l v
  match s.rxState l with
  | 0 => if ok then state (s.setCl l { x with conf := 0, rxLast := some k, rxBip := none }) 1 else s
  | 1 =>
    if at0 && ok && x.rxLast.map (· + 1) == some k then
      if x.conf == 1 then
        (state (s.setCl l ({ x with conf := 2, miss := 0, rxLast := some k, rxBip := some (bip8 f) }.defect 1 false)) 2).cktShow l
      else s.setCl l { x with conf := x.conf + 1, rxLast := some k }
    else state s 0
  | _ =>
    if at0 then
      if ok then s.cktGood l cycle f
      else
        let s := (s.count Reg.CKT_HDR_MISS l).cktStart l cycle
        let x := s.cl l
        if 2 ≤ x.miss then
          (state (s.setCl l ({ x with miss := 0, conf := 0, rxBip := none }.defect 1 true)) 0).cktShow l
        else s.setCl l { x with miss := x.miss + 1, rxBip := none, runTick := 0 }
    else if ok && (bitOf flags 7 || bitOf flags 6) && (match x.rxLast with
        | some j => decide (j < k)
        | none => false) && x.miss != 0 then
      ((s.setCl l { x with rxBip := none }).count Reg.CKT_RESYNC l).cktGood l cycle f
    else s
def execCktFrameReceive (link cycle : Nat) (at0 : Bool) (frame : List Byte) (s : State) := live s fun s => s.cktRx (link % 4) cycle at0 frame

/-- CKT_SIGNAL_CHANGE: the detector has reported no signal for 1 µs, or signal for 125 µs without a break (R315). -/
def State.cktSignal (s : State) (l : Nat) (lost : Bool) : State :=
  if !s.present Ty.CKT l then s else (s.setCl l ((s.cl l).defect 0 lost)).cktShow l
def execCktSignalChange (link : Nat) (lost : Bool) (s : State) := live s fun s => s.cktSignal (link % 4) lost

/-- What the circuit links do at a tick boundary: a receive tick with no frame is a slip while the receiver is in SYNC (R309),
LOF where it has not reached SYNC (R315), a second with a defect (R319), and bins that a step makes SUSPECT (R320). m0 is the count of
the tick that ends. -/
def State.cktBoundary (s : State) (m0 : Nat) (stepped : Bool) : State :=
  [0, 1, 2, 3].foldl (fun (s : State) l =>
    if !s.present Ty.CKT l then s else
    let en := s.on Reg.CKT_CTL_RX_EN l
    let x := s.cl l
    let none0 := !x.starts.contains m0
    let s := if none0 then s.setFlag Reg.CKT_RX_PHASE_VALID l false else s
    let s := if en && s.rxState l == 2 && none0 && !s.tm.free then s.count Reg.CKT_RX_SLIP l else s
    let x := { x with frames := x.frames.filter fun q => decide (s.tm.m ≤ q.1 + 3), starts := x.starts.filter fun r => decide (s.tm.m ≤ r) }
    let mark (b : Option PmBin) : Option PmBin := b.map fun b => { b with suspect := b.suspect || stepped || s.tm.free }
    let x := { x with pm := x.pm.mapV (fun _ => pmReset) fun _ y => { y with q := mark y.q, day := mark y.day } }
    let bad (x : CktS) (e : Nat) (d : Bool) : CktS := if d then x.setPm e { x.pmOf e with defect := true } else x
    let y := x.paths.foldl (fun (y : CktS) q => bad y q.1 (q.2.valid && (x.down || q.2.present % 4 != 0))) (bad x 2048 x.down)
    (s.setCl l y).cktShow l) s

/-- A write of CKT_CTL (R315, R320): with RX_EN 1 the receiver has LOF until SYNC, with RX_EN 0 it hunts for nothing; section
monitoring that is enabled is marked. -/
def State.cktCtl (s : State) (l : Nat) (was : Bool) : State :=
  let en := s.on Reg.CKT_CTL_RX_EN l
  let s := if en then s else s.setFld Reg.CKT_STS_RX_STATE l 0
  let x := (s.cl l).defect 1 (en && s.rxState l != 2)
  let z := x.pmOf 2048
  let x := if !was && s.on Reg.CKT_CTL_PM_EN l then x.setPm 2048 { z with fresh := true } else x
  (s.setCl l x).cktShow l

/-! ## Transmission (R305 to R309, R313, R318) -/

/-- A connection's endpoints (R321): kind, link or tree, and place. -/
def epKind (e : Nat) : Nat := e / 2 ^ 22 % 4
def epLink (e : Nat) : Nat := e / 2 ^ 20 % 4
def epByte (e : Nat) : Nat := e % 2 ^ 18
def epPath (e : Nat) : Nat := e % 2 ^ 11
def epTree (e : Nat) : Nat := e / 2 ^ 16 % 32
def epSlot (e : Nat) : Nat := e % 2 ^ 14

/-- The byte of frame n of link l that a connection's destination is, where it has one. -/
def linkByte (l n dst : Nat) : Option Nat :=
  if epKind dst == 0 && epLink dst == l then some (epByte dst)
  else if epKind dst == 1 && epLink dst == l && epPath dst % 8 == n % 8 then some (32 + epPath dst / 8)
  else none

/-- A byte of frame n in a path's overhead position (R313, R314, R318). -/
def CktPath.overhead (y : CktPath) (n : Nat) (staged : Nat) : Nat :=
  if !y.valid || y.txAis then 255
  else if y.through then staged
  else if n / 8 % 2 == 0 then
    (List.range 16).foldl (fun a i => match y.txH.find? fun e => e.1 + 1 + i == n with
      | some e => a ^^^ e.2
      | none => a) 0
  else y.febe * 16 + (if y.txRdi then 8 else 0) + (if y.txUneq then 0 else 1)

/-- `n` bits of the gap-fill sequence (R64) from bit `from_` on. -/
def gapBits (from_ n : Nat) : List Bool := (scrBits (from_ + n) 0x3FFFFFFFFFFFFFF).drop from_

/-- A link's period ends: the gap of g bits that a tick step leaves, after a frame or more of the gap fill (R64, R309). -/
def CktS.endPeriod (x : CktS) (g : Nat) : CktS :=
  match x.line with
  | 0 => { x with fill := [] }
  | 1 => { x with fill := gapBits x.gapAt (1296000 + g), gapAt := x.gapAt + 1296000 + g }
  | _ => { x with fill := gapBits 0 g, gapAt := g }

/-- CKT_FRAME_TRANSMIT: at B(n) link l goes on with frame n, gap fill or electrical idle. -/
def State.cktTx (s : State) (l : Nat) : State :=
  if !s.present Ty.CKT l then s else
  let x := (s.cl l).endPeriod (s.tm.stepGap * 10368 / (1000 * nsU))
  let mode := s.fld Reg.CKT_CTL_TX_MODE l
  let n := s.tm.m
  if !s.active Ty.CKT l || mode == 0 || !s.flag Reg.SER_STS_HIGH_RATE (68 + l) then
    s.setCl l { x with line := 0, last := none, gap := false, bip := none, gapAt := 0 }
  else if mode != 2 || s.tm.free then s.setCl l { x with line := 1, gap := true, gapAt := if x.line == 0 then 0 else x.gapAt }
  else
    let gap := x.gap || s.tm.wasStep
    let skip := x.last.map (· + 1) != some n
    let allAis := s.flag Reg.CKT_CTL_TX_AIS l
    let b (v : Bool) (i : Nat) : Nat := if v then 2 ^ i else 0
    let h := toBE 6 n ++ toBE 1 l ++ toBE 1 (b gap 7 + b skip 6 + b allAis 5 + b (s.flag Reg.CKT_CTL_TX_RDI l) 4) ++ toBE 4 0
    let febe := match x.checks.find? fun c => decide (c.1 + 1 < s.tm.tickNo) || (c.1 + 1 == s.tm.tickNo && decide (c.2.1 ≤ 20000)) with
      | some c => c.2.2
      | none => 0
    let sec := toBE 1 (x.bip.getD 0) ++ toBE 1 febe ++ toBE 14 0
    let page := s.tsiPageAt n
    let st := match s.tsi.link.get (0, []) l with
      | (t, q) => if t == n then q else []
    let want := s.tsi.conns.filterMap fun e =>
      if e.1 / 2 ^ 18 == page && e.2.valid && !s.tsi.badPar.contains e.1 then linkByte l n e.2.dst else none
    let s := s.countN Reg.CKT_FILL_BYTES l (want.countP fun i => !(st.any fun q => q.1 == i))
    let body : Bytes := List.replicate (162000 - 288) 0xFF
    let body := st.foldl (fun (d : Bytes) q => if 288 ≤ q.1 then putAt d (q.1 - 288) [BitVec.ofNat 8 q.2] else d) body
    let body := x.paths.foldl (fun (d : Bytes) q =>
      let y := q.2
      if !y.valid then d
      else if y.txAis then putAt d (y.first - 288) (List.replicate y.count 0xFF)
      else if y.txUneq && !y.through then putAt d (y.first - 288) (List.replicate y.count 0)
      else d) body
    let body := if allAis then body.map fun _ => 0xFF else body
    let stAt (i : Nat) : Nat := match st.find? fun q => q.1 == i with
      | some q => q.2
      | none => 255
    let ohead : Bytes := (List.range 256).map fun i =>
      BitVec.ofNat 8 (if allAis then 255 else (x.path (8 * i + n % 8)).overhead n (stAt (32 + i)))
    let x := { x with paths := x.paths.mapV (fun _ => pathReset) fun p y =>
      if !y.valid then y else
      let mon := y.through && n % 8 == p % 8 && n / 8 % 2 == 0 && (match bipBefore y.txH n with
        | some v => v != beAt ohead (p / 8) 1
        | none => false)
      { y with txH := ((n, bip8 (sliceB body (y.first - 288) y.count)) :: y.txH).take 16
               txmon := if mon then min (y.txmon + 1) 0xFFFFFFFF else y.txmon } }
    let f := cktScramble (s.flag Reg.CKT_CTL_SCR_OFF l) (h ++ toBE 4 (crc32c h) ++ sec ++ ohead ++ body)
    let s := if s.tm.wasStep then s.count Reg.CKT_TX_SLIP l else s
    s.setCl l { x with line := 2, last := some n, gap := false, bip := some (bip8 f), sent := f, gapAt := 0 }
def execCktFrameTransmit (link : Nat) (s : State) := live s fun s => s.cktTx (link % 4)

/-! ## Seconds and bins (R319, R320) -/

/-- Whole seconds of the active domain at the present tick, or of free ticks. -/
def State.pmNow (s : State) : Nat := if s.tm.free then (s.tm.tickNo + 1) / 8000 else (s.tm.m - s.tm.e) / 8000

/-- A second added to a bin (`add`) or taken back, as unavailable or by its class. -/
def PmBin.sec (b : PmBin) (r : PmSec) (una add : Bool) : PmBin :=
  let n (v k : Nat) : Nat := if add then v + k else v - k
  let c (x : Bool) : Nat := if x then 1 else 0
  if una then { b with uas := n b.uas 1 }
  else { b with es := n b.es (c r.es), ses := n b.ses (c r.ses), bbe := n b.bbe r.bbe, fes := n b.fes (c r.fes)
                fses := n b.fses (c r.fses), fbbe := n b.fbbe r.fbbe }

/-- The same in every bin the second lies in. -/
def Pm.sec (y : Pm) (r : PmSec) (una add : Bool) : Pm :=
  let f (start : Nat) (b : Option PmBin) : Option PmBin := b.map fun b => if b.start == start then b.sec r una add else b
  { y with q := f r.q y.q, qEnd := f r.q y.qEnd, day := f r.day y.day, dayEnd := f r.day y.dayEnd }

/-- A bin that second t opens. -/
def newBin (len t : Nat) (suspect : Bool) : PmBin :=
  { start := t / len * len, es := 0, ses := 0, bbe := 0, fes := 0, fses := 0, fbbe := 0, uas := 0, suspect := suspect }

/-- The bin of second t: the current one, or a new one, SUSPECT where it does not begin there or monitoring is fresh (R320). -/
def openBin (len t : Nat) (fresh : Bool) (b : Option PmBin) : PmBin :=
  match b with
  | some b => { b with suspect := b.suspect || fresh }
  | none => newBin len t (fresh || t % len != 0)

/-- A current bin in which second t does not lie: the time that monitoring follows has changed, or it was off (R320). -/
def strayBin (len t : Nat) (b : Option PmBin) : Bool :=
  match b with
  | some b => decide (t < b.start) || decide (b.start + len ≤ t)
  | none => false

/-- A bin at the head of a list of at most n, where there is one. -/
def pushBin (n : Nat) (e : Option PmBin) (l : List PmBin) : List PmBin :=
  match e with
  | some b => (b :: l).take n
  | none => l

/-- The current 15-minute bin ends, with `q` in its place. -/
def Pm.endQ (y : Pm) (q : Option PmBin) : Pm := { y with qDone := pushBin 32 y.qEnd y.qDone, qEnd := y.q, q := q }

/-- The current day bin ends, with `d` in its place. -/
def Pm.endDay (y : Pm) (d : Option PmBin) : Pm := { y with dayDone := pushBin 2 y.dayEnd y.dayDone, dayEnd := y.day, day := d }

/-- Bins that second t does not lie in end. (DEDUCED, log entry 127) -/
def Pm.closeStray (y : Pm) (t : Nat) : Pm :=
  let y := if strayBin 900 t y.q then y.endQ none else y
  if strayBin 86400 t y.day then y.endDay none else y

/-- The bins that end with second t; those that follow are opened where monitoring goes on. -/
def Pm.roll (y : Pm) (t : Nat) (on : Bool) : Pm :=
  let next (len : Nat) : Option PmBin := if on then some (newBin len (t + 1) false) else none
  let y := if (t + 1) % 900 == 0 then y.endQ (next 900) else y
  if (t + 1) % 86400 == 0 then y.endDay (next 86400) else y

/-- A second of an entity that is not monitored: its counts are dropped, its bins end in their time. -/
def Pm.skip (y : Pm) (t : Nat) : Pm := { (y.closeStray t).roll t false with errs := 0, far := 0, defect := false, rdi := false }

/-- The second t of an entity ends: classified, entered in its bins, unavailability settled (R319), and bins that end moved
to await their end of grace. (DEDUCED, log entry 74) -/
def Pm.second (y : Pm) (t thr : Nat) : Pm :=
  let y := y.closeStray t
  let q := openBin 900 t y.fresh y.q
  let day := openBin 86400 t y.fresh y.day
  let ses := decide (thr ≤ y.errs) || y.defect
  let fses := decide (thr ≤ y.far) || y.rdi
  let r : PmSec := { q := q.start, day := day.start, es := ses || decide (0 < y.errs), ses := ses, bbe := if ses then 0 else y.errs
                     fes := fses || decide (0 < y.far), fses := fses, fbbe := if fses then 0 else y.far }
  let sesRun := if ses then y.sesRun + 1 else 0
  let okRun := if ses then 0 else y.okRun + 1
  let hist := (r :: y.hist).take 10
  let y := { y with q := some q, day := some day, errs := 0, far := 0, defect := false, rdi := false, sesRun := sesRun, okRun := okRun
                    hist := hist, fresh := false }
  let y := if y.una then
      let y := y.sec r true true
      if okRun == 10 then hist.foldl (fun (y : Pm) r => (y.sec r true false).sec r false true) { y with una := false } else y
    else
      let y := y.sec r false true
      if sesRun == 10 then hist.foldl (fun (y : Pm) r => (y.sec r false false).sec r true true) { y with una := true } else y
  y.roll t true

/-- Degradation (R315): DEG_M consecutive seconds above or not above a threshold. (DEDUCED, log entry 74) -/
def Pm.degrade (y : Pm) (thr : Nat) : Pm :=
  if thr < y.errs then { y with degBad := y.degBad + 1, degOk := 0 } else { y with degBad := 0, degOk := y.degOk + 1 }

/-- PM_SECOND_END: the second that ends with the present tick's boundary, on link l. -/
def State.pmSecond (s : State) (l : Nat) : State :=
  if !s.present Ty.CKT l then s else
  let x := s.cl l
  let due := if s.tm.free then decide (x.second + 8000 ≤ s.tm.tickNo + 1) else (s.tm.m - s.tm.e) % 8000 == 0
  if !due || x.second == s.tm.tickNo + 1 then s else
  let t := s.pmNow - 1
  let m := s.fld Reg.CKT_DEG_CFG_DEG_M l
  let deg (b : Bool) (y : Pm) : Bool := if m ≤ y.degBad then true else if m ≤ y.degOk then false else b
  let sec := (x.pmOf 2048).degrade (s.fld Reg.CKT_DEG_CFG_S_THR l)
  let x := x.defect 4 (deg (bitOf x.present 4) sec)
  let sec := if s.on Reg.CKT_CTL_PM_EN l then sec.second t (s.fld Reg.CKT_SES_CFG_S_SES l)
    else sec.skip t
  let x := x.setPm 2048 sec
  let one (x : CktS) (q : Nat × CktPath) : CktS :=
    let (p, y) := q
    if !y.valid then x else
    let pm := (x.pmOf p).degrade (s.fld Reg.CKT_DEG_CFG_P_THR l)
    let y := { y with present := setBitOf y.present 2 (if x.down then bitOf y.present 2 else deg (bitOf y.present 2) pm) }
    let pm := if y.pmEn then pm.second t (s.fld Reg.CKT_SES_CFG_P_SES l)
      else pm.skip t
    (x.setPath p y).setPm p pm
  let x := x.paths.foldl one x
  (s.setCl l { x with second := s.tm.tickNo + 1 }).cktShow l
def execPmSecondEnd (link : Nat) (s : State) := live s fun s => s.pmSecond (link % 4)

/-- A bin that ended 10 s before second t. -/
def binDue (t len : Nat) (b : Option PmBin) : Option PmBin := b.filter fun b => decide (b.start + len + 10 ≤ t)

/-- An entity's bins that are due become final. -/
def Pm.final (y : Pm) (t : Nat) : Pm :=
  let y := match binDue t 900 y.qEnd with
    | some b => { y with qEnd := none, qDone := (b :: y.qDone).take 32 }
    | none => y
  match binDue t 86400 y.dayEnd with
  | some b => { y with dayEnd := none, dayDone := (b :: y.dayDone).take 2 }
  | none => y

/-- PM_BIN_FINAL: bins of link l that ended 10 s ago become final. -/
def State.pmFinal (s : State) (l : Nat) : State :=
  if !s.present Ty.CKT l then s else
  let t := s.pmNow
  let x := s.cl l
  let any := x.pm.any fun e => (binDue t 900 e.2.qEnd).isSome
  let s := s.setCl l { x with pm := x.pm.mapV (fun _ => pmReset) fun _ y => y.final t }
  if any then s.intSet Ty.CKT l 4 else s
def execPmBinFinal (link : Nat) (s : State) := live s fun s => s.pmFinal (link % 4)

/-! ## Commands (R329) -/

/-- A PATH_CMD of link l: STATUS, CMD_DONE, CFG_REJECT on a refusal. -/
def State.pathCmd (s : State) (l p op : Nat) (f : State → State × Nat) : State :=
  if !s.present Ty.CKT l then s else
  let (s, st) := f s
  let s := s.setReg Reg.CKT_PATH_CMD l (p + op * 2 ^ 16 + st * 2 ^ 24)
  (if st == 0 then s else s.count Reg.CKT_CFG_REJECT l).intSet Ty.CKT l 6

/-- The path checker on a record that a command reads while ERR_INV_CHECK bit 0 stands (R331): VALID is cleared. -/
def State.pathInv (s : State) (l p : Nat) : State :=
  if s.inv Ty.CKT l 0 then
    ((s.raiseInv Ty.CKT l 2 p 0).setCl l ((s.cl l).setPath p { (s.cl l).path p with valid := false })).cktShow l
  else s

/-- Words to PATH_DATA. -/
def State.pathShow (s : State) (l : Nat) (w : List Nat) : State :=
  (List.range 4).foldl (fun (s : State) j => s.setRegI Reg.CKT_PATH_DATA l j (w.getD j 0)) s

/-- PATH_READ. -/
def State.pathRead (s : State) (l p : Nat) : State := s.pathCmd l p 1 fun s =>
  let s := s.pathInv l p
  let y := (s.cl l).path p
  let b (v : Bool) (i : Nat) : Nat := if v then 2 ^ i else 0
  (s.pathShow l [b y.valid 0 + b y.through 1 + b y.txAis 2 + b y.txUneq 3 + b y.txRdi 4 + b y.pmEn 5, y.first + y.count * 2 ^ 18], 0)
def execPathRead (link path : Nat) (s : State) := live s fun s => s.pathRead (link % 4) (path % 2048)

/-- The words of PATH_WRITE, as a standby applies them too. (DEDUCED, log entry 82) -/
def State.pathPut (s : State) (l p w0 w1 : Nat) : State :=
  let x := s.cl l
  let y := x.path p
  let y := { y with valid := bitOf w0 0, through := bitOf w0 1, txAis := bitOf w0 2, txUneq := bitOf w0 3, txRdi := bitOf w0 4
                    pmEn := bitOf w0 5, first := w1 % 2 ^ 18, count := bitsOf w1 18 11, rxH := [], txH := [], runAis := 0, runNoAis := 0
                    runUneq := 0, runNoUneq := 0, present := 0 }
  let pm := x.pmOf p
  let mark (b : Option PmBin) : Option PmBin := b.map fun b => { b with suspect := true }
  (s.setCl l ((x.setPath p y).setPm p { pm with q := mark pm.q, day := mark pm.day, fresh := true })).cktShow l

/-- PATH_WRITE: refused where the path would overlap another (R312); mirrored (R467). -/
def State.pathWrite (s : State) (l p : Nat) : State :=
  if !s.present Ty.CKT l then s else s.mirrored fun s => s.pathCmd l p 2 fun s =>
  let w0 := s.regI Reg.CKT_PATH_DATA l 0 % 64
  let w1 := s.regI Reg.CKT_PATH_DATA l 1 % 2 ^ 29
  let first := w1 % 2 ^ 18
  let count := bitsOf w1 18 11
  if first < 288 || count == 0 || decide (1024 < count) || decide (162000 < first + count) then (s, 8)
  else if bitOf w0 0 && ((s.cl l).paths.any fun q =>
      q.1 != p && q.2.valid && decide (first < q.2.first + q.2.count) && decide (q.2.first < first + count)) then (s, 1)
  else ((s.pathPut l p w0 w1).mirror 7 [2, l, p, w0, w1] [], 0)
def execPathWrite (link path : Nat) (s : State) := live s fun s => s.pathWrite (link % 4) (path % 2048)

/-- PATH_READ_STATE. -/
def State.pathReadState (s : State) (l p : Nat) : State := s.pathCmd l p 3 fun s =>
  let s := s.pathInv l p
  let y := (s.cl l).path p
  (s.pathShow l [y.shown + bitsOf y.status 3 1 * 8 + y.status / 16 * 16, y.bipErr, y.febeErr, y.txmon], 0)
def execPathReadState (link path : Nat) (s : State) := live s fun s => s.pathReadState (link % 4) (path % 2048)

/-- PATH_CLEAR_COUNTS. -/
def State.pathClear (s : State) (l p : Nat) : State := s.pathCmd l p 4 fun s =>
  let y := (s.cl l).path p
  (s.setCl l ((s.cl l).setPath p { y with bipErr := 0, febeErr := 0, txmon := 0 }), 0)
def execPathClearCounts (link path : Nat) (s : State) := live s fun s => s.pathClear (link % 4) (path % 2048)

/-- A bin by its number. -/
def Pm.bin (y : Pm) (i : Nat) : Option (PmBin × Bool) :=
  if i == 0 then y.q.map fun b => (b, false)
  else if i ≤ 32 then (y.qDone[i - 1]?).map fun b => (b, true)
  else if i == 33 then y.day.map fun b => (b, false)
  else (y.dayDone[i - 34]?).map fun b => (b, true)

/-- The words of BIN_DATA. -/
def PmBin.words (b : PmBin) (final : Bool) : List Nat :=
  let c (v : Nat) : Nat := min v 0xFFFF
  [c b.es + c b.ses * 2 ^ 16, b.bbe % 2 ^ 32, c b.fes + c b.fses * 2 ^ 16, b.fbbe % 2 ^ 32,
   b.uas % 2 ^ 17 + 2 ^ 17 + (if b.suspect then 2 ^ 18 else 0) + (if final then 2 ^ 19 else 0), b.start % 2 ^ 32]

/-- BIN_READ: `ok` is false where the bin store answers with an error completion, which makes the bin SUSPECT (R331). -/
def State.binRead (s : State) (l ent bin : Nat) (ok : Bool) : State :=
  if !s.present Ty.CKT l then s else
  let y := (s.cl l).pmOf ent
  let (s, st) :=
    if 2048 < ent || 35 < bin then (s, 8) else
    match y.bin bin with
    | none => (s, 1)
    | some (b, final) =>
      if ok then ((List.range 6).foldl (fun (s : State) j => s.setRegI Reg.CKT_BIN_DATA l j ((b.words final).getD j 0)) s, 0)
      else
        let mark (b : PmBin) : PmBin := { b with suspect := true }
        let y := if bin == 0 then { y with q := y.q.map mark } else if bin ≤ 32 then { y with qDone := y.qDone.modify (bin - 1) mark }
          else if bin == 33 then { y with day := y.day.map mark } else { y with dayDone := y.dayDone.modify (bin - 34) mark }
        ((s.raise Ty.CKT l 4 0 0).setCl l ((s.cl l).setPm ent y), 3)
  let s := s.setReg Reg.CKT_BIN_CMD l (ent + bin * 2 ^ 12 + st * 2 ^ 24)
  (if st == 0 || st == 3 then s else s.count Reg.CKT_CFG_REJECT l).intSet Ty.CKT l 6
def execBinRead (link ent bin : Nat) (ok : Bool) (s : State) := live s fun s => s.binRead (link % 4) (ent % 4096) (bin % 64) ok

/-- CKT: 0x02 clears the VALID of the path in LO; 0x03 makes the bytes of the latest frame read 0xFF; 0x04 marks the bin of the
entity in LO. -/
def State.cktErr (s : State) (d : Det) : State :=
  if d.forced then s else
  let x := s.cl d.inst
  match d.src with
  | 2 =>
    let y := x.path d.capLo
    (s.setCl d.inst (x.setPath d.capLo { y with valid := false })).cktShow d.inst
  | 3 => match x.frames with
    | (r, k, f) :: rest => s.setCl d.inst { x with frames := (r, k, f.take 288 ++ (f.drop 288).map fun _ => 0xFF) :: rest }
    | [] => s
  | 4 =>
    let y := x.pmOf d.capLo
    s.setCl d.inst (x.setPm d.capLo { y with q := y.q.map fun b => { b with suspect := true } })
  | _ => s

end Sys2Proof.Machine
end

