-- ==== Sys2Proof/Machine/Tsi.lean ====
section
/-! DEFINITION. The time-slot interchange (R321 to R328, R332 to R334): connections, staging, the page switch, and slot
assignment. -/

namespace Sys2Proof.Machine

/-- An empty entry. -/
def connReset : Conn := { valid := false, src := 0, dst := 0, srcOwner := 0, dstOwner := 0, dstTree := false, chan := 0 }

/-- The key of an entry of a page. -/
def connKey (page idx : Nat) : Nat := page * 2 ^ 18 + idx

/-- An entry of a page. -/
def State.conn (s : State) (page idx : Nat) : Conn := s.tsi.conns.get connReset (connKey page idx)

/-- Store an entry, which ends its parity error (R328). -/
def State.setConn (s : State) (page idx : Nat) (c : Conn) : State :=
  { s with tsi := { s.tsi with conns := s.tsi.conns.set connReset (connKey page idx) c, badPar := s.tsi.badPar.filter (· != connKey page idx) } }

/-- The entries of a page that count, in index order: valid and without a parity error. -/
def State.pageConns (s : State) (page : Nat) : List (Nat × Conn) :=
  s.tsi.conns.filterMap fun e =>
    if e.1 / 2 ^ 18 == page && e.2.valid && !s.tsi.badPar.contains e.1 then some (e.1 % 2 ^ 18, e.2) else none

/-! ## Staging (R323) -/

/-- A link's byte i of receive tick r: 0xFF with no frame, and while LOS or LOF is present (R309, R317). -/
def State.linkRx (s : State) (l r i : Nat) : Nat :=
  let x := s.cl l
  if bitOf x.present 0 || bitOf x.present 1 then 255 else
  match x.frames.find? fun q => q.1 == r with
  | some (_, _, f) => beAt f i 1
  | none => 255

/-- The TICK of the frame a link received in a receive tick. -/
def State.linkTick (s : State) (l r : Nat) : Option Nat := ((s.cl l).frames.find? fun q => q.1 == r).map (·.2.1)

/-- What a connection's source gives: a byte moved, nothing to move (no path position in this tick, a page that names another owner), or
bytes that an overrun of their link has kept back (R30). -/
inductive SrcGot
  | byte (b : Nat)
  | fill
  | owner
  | held
  deriving DecidableEq, Repr

/-- The source byte of a connection from source frame r (R323). -/
def State.srcByte (s : State) (r : Nat) (c : Conn) : SrcGot :=
  match epKind c.src with
  | 0 => if (s.cl (epLink c.src)).late == some r then .held else .byte (s.linkRx (epLink c.src) r (epByte c.src))
  | 1 =>
    let p := epPath c.src
    if (s.cl (epLink c.src)).late == some r then .held else
    match s.linkTick (epLink c.src) r with
    | some k => if k % 8 == p % 8 then .byte (s.linkRx (epLink c.src) r (32 + p / 8)) else .fill
    | none => .fill
  | 2 =>
    if !s.isActive then .byte 255 else
    match (s.pageConns (s.tsiPageAt r)).find? fun e => e.2.src == c.src with
    | some (_, o) =>
      if o.srcOwner != c.srcOwner then .owner else
      match (s.tsi.up.get [] (epTree c.src)).find? fun e => e.1 == r && e.2.1 == epSlot c.src with
      | some (_, _, b) => .byte b
      | none => .byte 255
    | none => .owner
  | _ => .byte (c.src % 256)

/-- One connection's byte staged for destination frame d from source frame r. -/
def State.stageConn (s : State) (d r : Nat) (c : Conn) : State :=
  let got := s.srcByte r c
  let on := s.on Reg.TSI_CTL_EN 0
  let b := match got with
    | .byte b => if on then b else 255
    | _ => 255
  let s := if on && got == .owner then s.count Reg.TSI_OWNER_FILL 0 else s
  let moved (s : State) : State := match got with
    | .byte _ => if on then s.count64 Reg.TSI_BYTES_MOVED_LO 0 else s
    | _ => s
  if got == .held then s else
  let put (t : Tbl (Nat × List (Nat × Nat))) (k : Nat) (e : Nat × Nat) : Tbl (Nat × List (Nat × Nat)) :=
    match t.get (0, []) k with
    | (f, l) => t.set (0, []) k (d, if f == d then l ++ [e] else [e])
  match epKind c.dst with
  | 2 => { s with tsi := { s.tsi with tal := put s.tsi.tal (epTree c.dst) (epSlot c.dst, b) } } |> moved
  | _ =>
    match linkByte (epLink c.dst) d c.dst with
    | some i => { s with tsi := { s.tsi with link := put s.tsi.link (epLink c.dst) (i, b) } } |> moved
    | none => s

/-- The owners of the circuit slots of a slice's trees in a page (R199): upstream the terminal, downstream the terminal or the tree. -/
def State.circuitOwners (s : State) (page sl : Nat) : List Nat :=
  ((s.pageConns page).map (·.2)).flatMap fun c =>
    (if epKind c.src == 2 && epTree c.src / 8 == sl then [termAx (epTree c.src) c.srcOwner] else []) ++
    (if epKind c.dst == 2 && epTree c.dst / 8 == sl then [if c.dstTree then 16384 + epTree c.dst else termAx (epTree c.dst) c.dstOwner] else [])

/-- The page in effect is shown to the Almanac in every tick (R199), with a hold to the end of the next. -/
def State.circuitShow (s : State) : State :=
  if s.tm.free || !s.present Ty.TSI 0 then s else
  [0, 1, 2, 3].foldl (fun (s : State) sl => s.prefetch sl (s.circuitOwners (s.tsiPageAt s.tm.m) sl).eraseDups s.nextM) s

/-- The parity checker on an entry that is read while ERR_INV_CHECK bit 0 stands (R334). -/
def State.connInv (s : State) (page i : Nat) : State :=
  if s.inv Ty.TSI 0 0 then
    let s := s.raiseInv Ty.TSI 0 1 i page
    { s with tsi := { s.tsi with badPar := connKey page i :: s.tsi.badPar.filter (· != connKey page i) } }
  else s

/-- TSI_STAGE: in core tick n frame n + 1 is staged from frame n − 1 under the page in effect at n + 1. Past the deadline only
the first `moved` connections have been staged (R30). A terminal's circuit unit that has not come is counted (R106). (DEDUCED, log entry 61) -/
def State.tsiStage (s : State) (cycle moved : Nat) : State :=
  if !s.present Ty.TSI 0 || s.tm.free then s else
  let d := s.nextM
  let s := (s.pageConns (s.tsiPageAt d)).foldl (fun (s : State) e => s.connInv (s.tsiPageAt d) e.1) s
  let l := (s.pageConns (s.tsiPageAt d)).map (·.2)
  let l := if s.inTime Ty.TSI 0 cycle then l else l.take moved
  let s := l.foldl (fun (s : State) c => s.stageConn d (s.tm.m - 1) c) s
  ((List.range 32).foldl (fun (s : State) t => s.circuitsMissing t (s.tm.m - 1)) s).complete Ty.TSI 0 cycle
def execTsiStage (cycle moved : Nat) (s : State) := live s fun s => s.tsiStage cycle moved

/-! ## Connection commands (R324, R332) -/

/-- Whether an endpoint is in its range, and whether its unit is present: 0, 4 or 8. -/
def State.epStatus (s : State) (e : Nat) (src : Bool) : Nat :=
  let absent (b : Bool) (rest : Nat) : Nat := if b then rest else 4
  match epKind e with
  | 0 => absent (s.present Ty.CKT (epLink e)) (if e / 2 ^ 18 % 4 == 0 && decide (288 ≤ epByte e) && decide (epByte e < 162000) then 0 else 8)
  | 1 => absent (s.present Ty.CKT (epLink e)) (if e / 2 ^ 11 % 2 ^ 9 == 0 then 0 else 8)
  | 2 => absent (s.hasTree (epTree e)) (if e / 2 ^ 21 % 2 == 0 && e / 2 ^ 14 % 4 == 0 then 0 else 8)
  | _ => if src && decide (e % 2 ^ 22 < 256) then 0 else 8

/-- A CONN_CMD: STATUS, CMD_DONE, CFG_REJECT on a refusal; PAGE stays as written where the operation does not use it. -/
def State.connCmd (s : State) (op : Nat) (page : Option Nat) (f : State → State × Nat) : State :=
  if !s.present Ty.TSI 0 then s else
  let (s, st) := f s
  let s := s.setReg Reg.TSI_CONN_CMD 0 (op + page.getD (s.fld Reg.TSI_CONN_CMD_PAGE 0) * 8 + st * 2 ^ 24)
  (if st == 0 then s else s.count Reg.TSI_CFG_REJECT 0).intSet Ty.TSI 0 5

/-- The words of an entry (R332). -/
def Conn.words (c : Conn) : List Nat :=
  [c.src + (if c.valid then 2 ^ 31 else 0), c.dst, c.srcOwner + c.dstOwner * 2 ^ 16 + (if c.dstTree then 2 ^ 25 else 0), c.chan]

/-- An entry of its words. -/
def connOf (w : List Nat) : Conn :=
  let g (i : Nat) : Nat := w.getD i 0
  { valid := bitOf (g 0) 31, src := g 0 % 2 ^ 24, dst := g 1 % 2 ^ 24, srcOwner := g 2 % 512, dstOwner := bitsOf (g 2) 16 9
    dstTree := bitOf (g 2) 25, chan := g 3 % 2 ^ 16 }

/-- CONN_READ. -/
def State.connRead (s : State) (page : Nat) : State := s.connCmd 1 (some page) fun s =>
  let i := s.reg Reg.TSI_CONN_IDX 0 % 2 ^ 18
  let s := s.connInv page i
  let c := s.conn page i
  let c := { c with valid := c.valid && !s.tsi.badPar.contains (connKey page i) }
  ((List.range 4).foldl (fun (s : State) j => s.setRegI Reg.TSI_CONN_DATA 0 j (c.words.getD j 0)) s, 0)
def execConnRead (page : Nat) (s : State) := live s fun s => s.connRead (page % 2)

/-- The standby page. -/
def State.tsiStandby (s : State) : Nat := 1 - s.tsi.active

/-- A write of the standby page: refused with STATUS 2 while a switch is armed (R324), ignored in a standby device (R468). -/
def State.connEdit (s : State) (op : Nat) (f : State → State × Nat) : State :=
  if !s.present Ty.TSI 0 then s else
  s.mirrored fun s => s.connCmd op none fun s => if s.tsi.armed.isSome then (s, 2) else f s

/-- CONN_WRITE. (DEDUCED, log entry 82) -/
def State.connWrite (s : State) : State := s.connEdit 2 fun s =>
  let i := s.reg Reg.TSI_CONN_IDX 0 % 2 ^ 18
  let w := (List.range 4).map fun j => s.regI Reg.TSI_CONN_DATA 0 j
  let c := connOf w
  let st := if epKind c.dst == 3 then 8 else if !c.valid then 0 else max (s.epStatus c.src true) (s.epStatus c.dst false)
  if st != 0 then (s, st) else ((s.setConn s.tsiStandby i c).mirror 7 ([0, s.tsiStandby, i] ++ c.words) [], 0)
def execConnWrite (s : State) := live s fun s => s.connWrite

/-- CONN_CLEAR. -/
def State.connClear (s : State) : State := s.connEdit 3 fun s =>
  let i := s.reg Reg.TSI_CONN_IDX 0 % 2 ^ 18
  ((s.setConn s.tsiStandby i connReset).mirror 7 ([0, s.tsiStandby, i] ++ connReset.words) [], 0)
def execConnClear (s : State) := live s fun s => s.connClear

/-- The standby page's contents replaced. -/
def State.replacePage (s : State) (page : Nat) (l : List (Nat × Conn)) : State :=
  let keep := s.tsi.conns.filter fun e => e.1 / 2 ^ 18 != page
  let t := l.foldl (fun (t : Tbl Conn) e => t.set connReset (connKey page e.1) e.2) keep
  { s with tsi := { s.tsi with conns := t, badPar := s.tsi.badPar.filter fun k => k / 2 ^ 18 != page } }

/-- COPY_ACTIVE. -/
def State.copyActive (s : State) : State := s.connEdit 4 fun s =>
  let l := s.tsi.conns.filterMap fun e => if e.1 / 2 ^ 18 == s.tsi.active then some (e.1 % 2 ^ 18, e.2) else none
  ((s.replacePage s.tsiStandby l).mirror 7 [1, s.tsi.active] [], 0)
def execCopyActive (s : State) := live s fun s => s.copyActive

/-- CLEAR_PAGE. -/
def State.clearPage (s : State) : State := s.connEdit 5 fun s =>
  ((s.replacePage s.tsiStandby []).mirror 7 [4, s.tsiStandby] [], 0)
def execClearPage (s : State) := live s fun s => s.clearPage

/-! ## The page switch (R324) -/

/-- The first failing entry of a page and its reason (R322): 1 duplicate destination, 2 owners in conflict, 3 POH residue. (DEDUCED, log entry 75) -/
def verifyPage (l : List (Nat × Conn)) : Option (Nat × Nat) :=
  l.findSome? fun (i, c) =>
    if l.any fun e => decide (e.1 < i) && e.2.dst == c.dst then some (i, 1)
    else if epKind c.src == 2 && l.any fun e => decide (e.1 < i) && e.2.src == c.src && e.2.srcOwner != c.srcOwner then some (i, 2)
    else if epKind c.src == 1 && epKind c.dst == 1 && epPath c.dst % 8 != (epPath c.src + 2) % 8 then some (i, 3)
    else none

/-- TSI_ARM: verification for a switch at SWITCH_AT begins; ignored while one runs or a switch is armed. (DEDUCED, log entry 75) -/
def State.tsiArm (s : State) : State :=
  if !s.present Ty.TSI 0 || s.tsi.verify.isSome || s.tsi.armed.isSome then s else
  s.mirrored fun s =>
    { s with tsi := { s.tsi with verify := some (s.tm.m, s.reg64 Reg.TSI_SWITCH_AT_LO 0 % 2 ^ 48, s.flag Reg.TSI_SWITCH_CTL_FORCE 0) } }
def execTsiArm (s : State) := live s fun s => s.tsiArm

/-- The switch armed for tick T, in the active device and in a standby that mirrors it. -/
def State.tsiSetArmed (s : State) (t : Nat) : State := { s with tsi := { s.tsi with armed := some t } }.name .tsiPage 0 0 t

/-- TSI_VERIFY_DONE. (DEDUCED, log entry 75) -/
def State.tsiVerify (s : State) : State :=
  match s.tsi.verify with
  | none => s
  | some (m0, t, force) =>
    let s := { s with tsi := { s.tsi with verify := none } }
    let bad := match verifyPage (s.pageConns s.tsiStandby) with
      | some e => some e
      | none => if !force && s.assignOpen != 0 then some (0, 4) else if t < m0 + 16 then some (0, 5) else none
    match bad with
    | some (i, r) => (s.setReg Reg.TSI_VERIFY_RESULT 0 (i + r * 2 ^ 18 + 2 ^ 31)).intSet Ty.TSI 0 2
    | none => ((s.setReg Reg.TSI_VERIFY_RESULT 0 0).tsiSetArmed t).mirror 7 [3, t, 1] []
def execTsiVerifyDone (s : State) := live s fun s => s.tsiVerify

/-- TSI_CANCEL: before T. -/
def State.tsiCancel (s : State) : State :=
  if !s.present Ty.TSI 0 || s.tsi.armed.isNone && s.tsi.verify.isNone then s else
  s.mirrored fun s => ({ s with tsi := { s.tsi with armed := none, verify := none } }.unname .tsiPage 0 0).mirror 7 [3, 0, 0] []
def execTsiCancel (s : State) := live s fun s => s.tsiCancel

/-- TSI_PAGE_SWITCH at the boundary of T (R324). -/
def State.tsiSwitch (s : State) : State :=
  { s with tsi := { s.tsi with armed := none, active := 1 - s.tsi.active, since := s.tm.m } }.count Reg.TSI_PAGE_SWITCHES 0

/-! ## Slot assignment (R325) -/

/-- The slots of a terminal in a page: direction, slot, tree-owned, path of a POH slot, CHAN. -/
def State.slotList (s : State) (page t term : Nat) : List (Bool × Nat × Bool × Option Nat × Nat) :=
  let l := (s.pageConns page).map (·.2)
  let poh (e : Nat) : Option Nat := if epKind e == 1 then some (epPath e) else none
  let down := l.filterMap fun c =>
    if epKind c.dst == 2 && epTree c.dst == t && (c.dstTree || c.dstOwner == term) then some (false, epSlot c.dst, c.dstTree, poh c.src, c.chan) else none
  let up := l.filterMap fun c =>
    if epKind c.src == 2 && epTree c.src == t && c.srcOwner == term then some (true, epSlot c.src, false, poh c.dst, c.chan) else none
  let ord (l : List (Bool × Nat × Bool × Option Nat × Nat)) := l.mergeSort fun a b => decide (a.2.1 ≤ b.2.1)
  let once := (ord up).foldl (fun (acc : List (Bool × Nat × Bool × Option Nat × Nat)) e =>
    if acc.any fun f => f.2.1 == e.2.1 then acc else acc ++ [e]) []
  ord down ++ once

/-- The five bytes of an entry. -/
def slotEntry (e : Bool × Nat × Bool × Option Nat × Nat) : Bytes :=
  let (up, slot, tree, poh, chan) := e
  let b (x : Bool) (i : Nat) : Nat := if x then 2 ^ i else 0
  let f := match poh with
    | none => 0
    | some p => 32 + (if up then b (decide (p % 8 ≤ 1)) 4 + (p + 6) % 8 else b (decide (6 ≤ p % 8)) 4 + (p + 2) % 8)
  toBE 1 (b up 7 + b tree 6 + f) ++ toBE 2 slot ++ toBE 2 chan

/-- The list of one page queued for a terminal, in parts of 8 entries. -/
def State.assignPush (s : State) (page t term : Nat) : State :=
  let l := s.slotList page t term
  let n := max 1 (ceilDiv l.length 8)
  let s := (List.range n).foldl (fun (s : State) i =>
    let part := (l.drop (8 * i)).take 8
    s.termMsg t term 0x70 (toBE 1 page ++ toBE 1 i ++ toBE 1 (if i + 1 == n then 1 else 0) ++ toBE 1 part.length ++ toBE 2 0 ++
      part.flatMap slotEntry)) s
  s.setOpens (s.tsi.opens ++ List.replicate n ((t * 512 + term) * 2 + page))

/-- An ASSIGN_CMD. (DEDUCED, log entry 75) -/
def State.assignCmd (s : State) (op t term : Nat) (page : State → Nat) : State :=
  if !s.present Ty.TSI 0 then s else
  let st := if !s.hasTree t then 4 else if s.tsi.armed.isSome then 2 else if (s.term (t * 512 + term)).st != .operational then 1 else 0
  let s := if st == 0 then s.assignPush (page s) t term else s
  let s := s.setReg Reg.TSI_ASSIGN_CMD 0 (term + t * 2 ^ 9 + op * 2 ^ 16 + st * 2 ^ 24)
  (if st == 0 then s else s.count Reg.TSI_CFG_REJECT 0).intSet Ty.TSI 0 5
def execAssignPushStandby (tree term : Nat) (s : State) := live s fun s => s.assignCmd 1 (tree % 32) (term % 512) fun s => s.tsiStandby
def execAssignPushActive (tree term : Nat) (s : State) := live s fun s => s.assignCmd 2 (tree % 32) (term % 512) fun s => s.tsi.active

/-- A terminal has become OPERATIONAL: the active page's list, and the standby page's where a switch is armed (R325). -/
def State.assignNew (s : State) (ax : Nat) : State :=
  let s := s.assignPush s.tsi.active (ax / 512) (ax % 512)
  if s.tsi.armed.isSome then s.assignPush s.tsiStandby (ax / 512) (ax % 512) else s

/-- A terminal's messages have been dropped with its record: none of its assignments is outstanding. -/
def State.assignDrop (s : State) (ax : Nat) : State := s.setOpens (s.tsi.opens.filter fun e => e / 2 != ax)

/-- TSI 0x01: the entry in LO of the page in HI[31:16] is treated as VALID 0. -/
def State.tsiErr (s : State) (d : Det) : State :=
  if d.forced || d.src != 1 then s else
  { s with tsi := { s.tsi with badPar := connKey (d.capHi / 2 ^ 16 % 2) (d.capLo % 2 ^ 18) :: s.tsi.badPar } }

end Sys2Proof.Machine
end

