-- ==== Sys2Proof/Machine/Pair.lean ====
section
/-! DEFINITION. Pair operation (R454 to R474): ROLE_IN and the change of role, the mate link's frames and handshake, link
rekeys, the mirror records and what a standby does with them, resynchronisation. The byte layout of a record's body is not
given by the spec (log entry 63). -/

namespace Sys2Proof.Machine

/-! ## The records on the wire -/

/-- A record with its header (R464): MTYPE, a reserved byte, LENGTH, MSEQ, and this model's body. -/
def recBytes (mseq : Nat) (r : MRec) : Bytes :=
  let body := toBE 2 r.nums.length ++ r.nums.flatMap (toBE 8) ++ toBE 2 r.data.length ++
    r.data.flatMap fun d => toBE 2 d.length ++ d
  toBE 1 r.mtype ++ [0] ++ toBE 2 body.length ++ toBE 4 mseq ++ body

/-- n byte strings of a body's data part. (DESIGN CHOICE, log entry 63) -/
def recData : Nat → Bytes → List Bytes
  | 0, _ => []
  | n + 1, b => let l := beAt b 0 2; sliceB b 2 l :: recData n (b.drop (2 + l))

/-- A record of its body. (DESIGN CHOICE, log entry 63) -/
def recOf (mtype : Nat) (body : Bytes) : MRec :=
  let n := beAt body 0 2
  let rest := body.drop (2 + 8 * n)
  ⟨mtype, (List.range n).map fun i => beAt body (2 + 8 * i) 8, recData (beAt rest 0 2) (rest.drop 2)⟩

/-- The records of a payload with their MSEQ; `fuel` bounds their number. (DESIGN CHOICE, log entry 63) -/
def recsOf : Nat → Bytes → List (Nat × MRec)
  | 0, _ => []
  | fuel + 1, b =>
    if b.length < 8 then [] else
    let l := beAt b 2 2
    (beAt b 4 4, recOf (beAt b 0 1) (sliceB b 8 l)) :: recsOf fuel (b.drop (8 + l))

/-! ## Mate frames (R464) -/

/-- The mate link carries protected frames: lanes aligned and the pair key agreed. -/
def State.mateUp (s : State) : Bool := s.pair.up && s.pair.pk.isSome

/-- A KIND 1 frame with one record, the SEQ-th of its tick: one invocation of AX 28,704. None where the association refuses, or
where the tick has no SEQ left, and the record waits for the next tick (R203). -/
def State.mateFrame (s : State) (seq mseq : Nat) (r : MRec) : State × Option Bytes :=
  if 65535 < seq then (s, none) else
  match s.verdict 28704 s.tm.m none with
  | .ok p =>
    match (s.assoc 28704).pos p with
    | none => (s, none)
    | some k =>
      let b (x : Bool) (i : Nat) : Nat := if x then 2 ^ i else 0
      let pt := recBytes mseq r
      let h := toBE 6 s.tm.m ++ toBE 2 seq ++ toBE 1 (s.pm + b s.isActive 1 + b (s.mirrorSt == 4) 2 + p * 8) ++ [1] ++
        toBE 2 (pt.length + 16)
      let h := h ++ toBE 4 (crc32c h)
      let c := Config.gcmEnc k.key (tickIv s.tm.m seq 28704 0 s.pm s.pm p) h pt
      (s.invoke 28704 p, some (h ++ c.1 ++ c.2))
  | _ => (s, none)

/-- This device's STATUS record (R464): role, HEALTH, M, E, highest MSEQ received. -/
def State.statusRec (s : State) : MRec :=
  ⟨1, [if s.isActive then 1 else 0, s.fld Reg.PAIR_STS_HEALTH 0, s.tick, s.tm.e, s.pair.rx], []⟩

/-- The time record's contents (R351): E, leap flags and accuracy of the active domain. -/
def State.timeRec (s : State) : List Nat :=
  let d := 0x40 * s.tm.active
  [s.tm.e, s.fld Reg.AST_DOM_CTL_LEAP61 0 d + 2 * s.fld Reg.AST_DOM_CTL_LEAP59 0 d, s.accNow s.tm.active]

/-- What the tick's last mate frames carry: the associations whose counts changed and the time, where it changed, then STATUS,
this device's own records and every mirror record not yet sent. -/
def State.mateSend (s : State) : State :=
  let d := s.pair.dirty
  let s := { s with pair := { s.pair with dirty := [], tx := [] } }
  let s := d.foldl (fun (s : State) ax => s.mirrorAx ax) s
  let s := if s.isActive && (s.mirrorSt == 3 || s.mirrorSt == 4) && s.pair.sentTime != s.timeRec then
      ({ s with pair := { s.pair with sentTime := s.timeRec } }).mirror 8 s.timeRec [] else s
  if !s.mateUp || s.halted then s else
  let recs := (0, s.statusRec) :: s.pair.ctl.map (fun r => (0, r)) ++ s.pair.out.filter fun r => decide (s.pair.sentTo < r.1)
  let s := recs.zipIdx.foldl (fun (s : State) q =>
    match s.mateFrame (q.2 + 1) q.1.1 q.1.2 with
    | (s, some f) => { s with pair := { s.pair with tx := s.pair.tx ++ [f], sentTo := max s.pair.sentTo q.1.1 } }
    | (s, none) => s) s
  { s with pair := { s.pair with ctl := s.pair.ctl.drop 65534 } }

/-! ## Resynchronisation (R469) -/

/-- The SXT registers that are mirrored: its configuration except PAIR_SKEW (R467). -/
def sxtMirrored : List Nat := [0x060, 0x068, 0x06C, 0x078, 0x07C, 0x080, 0x084, 0x088, 0x08C, 0x090, 0x098, 0x10C]

/-- The ORR registers that are mirrored: TREE_EN, COMPUTE_AT, TREE_CFG. -/
def orrMirrored : List Nat := [0x060, 0x068] ++ (List.range 8).map fun i => 0x0A0 + 4 * i

/-- The registers of R467 that a standby's host does not write (R468). -/
def mirroredReg (ty off : Nat) : Bool :=
  (ty == Ty.SXT && sxtMirrored.contains off) || (ty == Ty.ORR && orrMirrored.contains off) ||
    (ty == Ty.TRX && (off == Reg.TRX_PREAMBLE_CFG.off || off == Reg.TRX_PREAMBLE_AT_LO.off || off == Reg.TRX_PREAMBLE_AT_LO.off + 4)) ||
    (ty == Ty.TTX && (off == Reg.TTX_CKT_LEN_PG0.off || off == Reg.TTX_CKT_LEN_PG0.off + 4)) ||
    (ty == Ty.AST && (off == Reg.AST_EPOCH_LO.off || off == Reg.AST_EPOCH_LO.off + 4)) ||
    (ty == Ty.TSI && (off == Reg.TSI_SWITCH_AT_LO.off || off == Reg.TSI_SWITCH_AT_LO.off + 4))

/-- A mirrored configuration register as a record: MTYPE 3 for SXT, 6 for ORR, 7 for TTX. -/
def State.mirrorReg (s : State) (k : Nat) : State :=
  let v := (s.rd k).toNat
  if keyTy k == Ty.SXT then s.mirror 3 [1, k, v] []
  else if keyTy k == Ty.ORR then s.mirror 6 [1, k, v] []
  else s.mirror 7 [5, k, v] []

/-- The mirrored registers that a resync copies word by word: those of SXT, ORR, TTX and TSI. -/
def copiedReg (k : Nat) : Bool :=
  (keyTy k == Ty.SXT || keyTy k == Ty.ORR || keyTy k == Ty.TTX || keyTy k == Ty.TSI) && mirroredReg (keyTy k) (keyOff k)

/-- The VALID paths of circuit link l, 64 to a number. -/
def State.pathMap (s : State) (l : Nat) : List Nat :=
  (List.range 32).map fun i => (List.range 64).foldl (fun a j => if ((s.cl l).path (64 * i + j)).valid then a + 2 ^ j else a) 0

/-- Every mirrored item the device holds, as (kind, key): the cleared pages and the time, then what differs from reset. -/
def State.resyncItems (s : State) : List (Nat × Nat) :=
  let keys {α : Type} (n : Nat) (t : Tbl α) : List (Nat × Nat) := t.map fun q => (n, q.1)
  [(0, 0)] ++ keys 1 s.terms ++ (keys 2 s.alm.recs).filter (fun q => decide (q.2 < 20512)) ++ keys 3 s.ka.terms ++ keys 4 s.ka.groups ++
    s.orr.flatMap (fun q => q.2.allocs.map fun a => (5, q.1 * 1024 + a.1)) ++
    (s.regs.filterMap fun q => if copiedReg q.1 then some (6, q.1) else none) ++
    (List.range 32).map (fun t => (7, t)) ++ keys 8 s.tsi.conns ++ [(9, 0)] ++
    ((List.range 4).filter fun l => s.present Ty.CKT l).map (fun l => (14, l)) ++
    s.ckt.flatMap (fun q => q.2.paths.map fun p => (10, q.1 * 2048 + p.1)) ++ keys 11 s.gate ++
    s.fwd.flatMap (fun q => q.2.tab.filterMap fun e => if e.2.type == 2 then some (12, q.1 * 2 ^ 20 + e.1) else none) ++
    (List.range 32).flatMap fun t => (s.rx t).maps.zipIdx.map fun m => (13, t * 16 + m.2)

/-- Send one item whole. -/
def State.resyncItem (s : State) (i : Nat × Nat) : State :=
  let k := i.2
  match i.1 with
  | 0 => ((s.mirror 7 [4, 0] []).mirror 7 [4, 1] []).mirror 7 [6, s.tsi.active] []
  | 1 => s.putTerm k (s.term k)
  | 2 => s.mirrorAx k
  | 3 => s.kaMirror k
  | 4 => s.kgMirror k
  | 5 => s.mirror 6 ([0, k / 1024, k % 1024] ++ (s.alloc (k / 1024) (k % 1024)).words) []
  | 6 => s.mirrorReg k
  | 7 => if s.hasTree k then s.mirror 3 [2, k, s.reg Reg.TRX_PREAMBLE_CFG k, s.reg64 Reg.TRX_PREAMBLE_AT_LO k] [] else s
  | 8 => s.mirror 7 ([0, k / 2 ^ 18, k % 2 ^ 18] ++ (s.conn (k / 2 ^ 18) (k % 2 ^ 18)).words) []
  | 9 => match s.tsi.armed with
    | some t => s.mirror 7 [3, t, 1] []
    | none => s.mirror 7 [3, 0, 0] []
  | 10 =>
    let y := (s.cl (k / 2048)).path (k % 2048)
    let b (v : Bool) (j : Nat) : Nat := if v then 2 ^ j else 0
    s.mirror 7 [2, k / 2048, k % 2048, b y.valid 0 + b y.through 1 + b y.txAis 2 + b y.txUneq 3 + b y.txRdi 4 + b y.pmEn 5,
      y.first + y.count * 2 ^ 18] []
  | 11 =>
    let g (s : State) (l : Option TList) : State := match l with
      | some l => s.gateMirror k l.start l
      | none => s
    g (g s (s.gt k).act) (s.gt k).pend
  | 14 => s.mirror 7 ([7, k] ++ s.pathMap k) []
  | 12 => match (s.fw (k / 2 ^ 20)).tab.find (k % 2 ^ 20) with
    | some e => s.mirror 0x0A [k / 2 ^ 20, e.domain, e.mac, e.dest, if e.group then 1 else 0, 0] []
    | none => s
  | _ => match (s.rx (k / 16)).maps[k % 16]? with
    | some m => s.mirrorMap (k / 16) m.frame m.utick m.pm m.ents m.owners
    | none => s

/-- A resync begins: records start again at MSEQ 1, which is how the standby tells its start. (DEDUCED, log entry 39) -/
def State.resyncStart (s : State) : State :=
  let s := { s with pair := { s.pair with mseq := 0, out := [], sentTo := 0, todo := s.resyncItems, sentTime := [] } }
  s.setMirror 3

/-- Items sent at a boundary, while half of the 8 MiB is free. (DEDUCED, log entry 39) -/
def State.resyncStep (s : State) : State :=
  if !s.isActive || s.mirrorSt != 3 || decide (4194304 < s.pair.held) then s else
  let l := s.pair.todo.take 512
  l.foldl State.resyncItem { s with pair := { s.pair with todo := s.pair.todo.drop 512 } }

/-- Every item has gone and every record is acknowledged: SYNCED. -/
def State.resyncEnd (s : State) : State :=
  if s.isActive && s.mirrorSt == 3 && s.pair.todo.isEmpty && s.pair.out.isEmpty then s.setMirror 4 else s

/-- PAIR_CMD with its STATUS: 1 while the mirror is not past HANDSHAKE, 2 in a device that is not active (R472). -/
def State.pairCmd (s : State) (op : Nat) (f : State → State) : State :=
  if !s.present Ty.PAIR 0 then s else
  let st := if s.mirrorSt < 3 || !s.mateUp then 1 else if !s.isActive then 2 else 0
  let s := if st == 0 then f s else s
  s.setReg Reg.PAIR_CMD 0 (op + st * 2 ^ 24)

/-- PAIR_RESYNC. A resync that is under way begins again, and counts. -/
def State.forceResync (s : State) : State :=
  if s.mirrorSt == 3 then s.resyncStart.count Reg.PAIR_RESYNCS 0 else s.resyncStart
def execPairResync (s : State) := live s fun s => s.pairCmd 1 State.forceResync

/-! ## Link rekey (R466) -/

/-- LK(e) into position e mod 2 of AX 28,704, and the switch to it at T. (DEDUCED, log entry 40) -/
def State.linkSwitch (s : State) (e t : Nat) : State :=
  match s.pair.pk with
  | none => s
  | some pk =>
    let lk := Config.hkdfExpand pk (ascii "BV3232 pair link" ++ toBE 4 e) 32
    let s := s.setAssoc 28704 ((s.assoc 28704).setPos (e % 2) (some (freshKey lk [] [] true 0)))
    { s with pair := { s.pair with epoch := e, rekeyAt := s.tm.tickNo } }.setSwitch 28704 (e % 2) t

/-- A switch to the next epoch is named: 32 ticks on. (DEDUCED, log entry 40) -/
def State.linkRekey (s : State) : State :=
  let e := s.pair.epoch + 1
  let t := s.tm.m + 32
  let s := s.linkSwitch e t
  if s.isActive && s.mirrorSt != 5 then s.mirror 0x0B [t, e] []
  else { s with pair := { s.pair with ctl := s.pair.ctl ++ [⟨0x0B, [t, e], []⟩] } }

/-- LINK_REKEY_DUE: at member 0, every LINK_REKEY ticks. -/
def execLinkRekeyDue (s : State) := live s fun s =>
  if s.pm == 0 && s.mateUp && !s.tm.free && decide (s.pair.rekeyAt + s.reg Reg.PAIR_LINK_REKEY 0 ≤ s.tm.tickNo) then s.linkRekey else s

/-- PAIR_REKEY_NOW. -/
def execPairRekeyNow (s : State) := live s fun s => s.pairCmd 2 fun s => if s.tm.free then s else s.linkRekey

/-! ## The handshake (R465) -/

/-- HELLO of this device. -/
def State.hello (s : State) (ec kem : Bytes) : Bytes :=
  let id := match s.idKey with
    | some k => Config.p384Pub k
    | none => List.replicate 97 0
  toBE 1 s.pm ++ toBE 2 s.part.code ++ id ++ Config.p384Pub ec ++ (if s.pm == 0 then Config.kemPub kem else [])

/-- A KIND 0 frame with a handshake message. -/
def State.hsFrame (s : State) (d : Bytes) : State :=
  let h := toBE 6 s.tick ++ [0, 0] ++ toBE 1 (s.pm + if s.isActive then 2 else 0) ++ [0] ++ toBE 2 d.length
  { s with pair := { s.pair with tx := s.pair.tx ++ [h ++ toBE 4 (crc32c h) ++ d] } }

/-- The mate lanes are aligned: the handshake begins with HELLO. -/
def State.mateAligned (s : State) : State :=
  if s.mirrorSt == 0 then s else
  let (r, s) := s.drawBytes 56
  let (kem, s) := s.drawBytes 64
  let ec := Config.p384Scalar r
  let h := s.hello ec kem
  let s := { s with pair := { s.pair with up := true, pk := none, hs := some ⟨ec, kem, h, none, none, [], none⟩ } }
  (s.setMirror 2).hsFrame h

/-- The mate lanes are no longer aligned: MATE_DOWN; PK is destroyed. (DEDUCED, log entry 41) -/
def State.mateDown (s : State) : State :=
  if !s.pair.up then s else
  let s := { s with pair := { s.pair with up := false, pk := none, hs := none } }.count Reg.PAIR_MATE_DOWN 0
  if s.mirrorSt == 2 then s.setMirror 1 else s.mirrorStale

/-- The handshake fails with a cause: back to LINKING, and the lanes are brought up afresh. (DEDUCED, log entry 41) -/
def State.hsFail (s : State) (cause : Nat) : State :=
  let s := { s with pair := { s.pair with up := false, pk := none, hs := none } }
  ((s.setFld Reg.PAIR_STS_HS_CAUSE 0 cause).count Reg.PAIR_HS_FAIL 0).setMirror 1

/-- The bytes a PROOF signs. -/
def proofMsg (member : Nat) (th : Bytes) : Bytes := ascii "BV3232 pair proof" ++ toBE 1 member ++ th

/-- HELLOs and CT are at hand: TH, PRK and PK are formed, and this device's PROOF is sent; a signature that fails its own verification ends
the handshake (R228; DESIGN CHOICE, log entry 117). -/
def State.hsKeys (s : State) (h : PairHs) (peer ct zKem : Bytes) : State :=
  let hello0 := if s.pm == 0 then h.mine else peer
  let hello1 := if s.pm == 0 then peer else h.mine
  let th := Config.sha384 (ascii "BV3232 pair" ++ hello0 ++ hello1 ++ ct)
  let prk := Config.hkdfExtract th (Config.p384Dh h.ec (sliceB peer 100 97) ++ zKem)
  let pk := Config.hkdfExpand prk (ascii "BV3232 pair key" ++ th) 48
  let s := { s with pair := { s.pair with hs := some { h with ec := [], kem := [], peer := some peer, ct := some ct, th := th, pk := some pk } } }
  let (sig, s) := s.idSign (proofMsg s.pm th)
  let (s, ok) := s.signCheck
  if ok then s.hsFrame sig else s.hsFail 5

/-- The cause with which a HELLO fails. -/
def State.helloCause (s : State) (d : Bytes) : Nat :=
  let id := sliceB d 3 97
  let want := (List.range 12).flatMap fun i => toBE 4 (s.regI Reg.PAIR_PEER_KEY_HASH 0 i)
  if beAt d 0 1 == s.pm then 1
  else if Config.sha384 id != want then 2
  else if beAt d 1 2 != s.part.code then 3
  else if d.length != 197 + (if s.pm == 1 then 1568 else 0) || !Config.p384OnCurve (sliceB d 100 97) ||
      (s.pm == 1 && !Config.kemEkOk (sliceB d 197 1568)) then 4
  else 0

/-- The pair key is agreed: LK(0) and WK are installed, and the mirror is to be resynchronised. -/
def State.hsDone (s : State) (pk : Bytes) : State :=
  let s := (s.destroyAx 28704 false).destroyAx 28705 false
  let lk := Config.hkdfExpand pk (ascii "BV3232 pair link" ++ toBE 4 0) 32
  let wk := Config.hkdfExpand pk (ascii "BV3232 pair wrap") 32
  let s := (s.install 28704 0 (freshKey lk [] [] true 0) s.usageCfg).1
  let s := s.setAssoc 28705 { s.assoc 28705 with usage := 3 }
  let s := (s.install 28705 0 (freshKey wk [] [] true 0) s.usageCfg).1
  let p := { s.pair with hs := none, pk := some pk, epoch := 0, rekeyAt := s.tm.tickNo, mseq := 0, out := [], sentTo := 0, todo := []
                         rx := 0, peerSynced := false, ctl := [] }
  let s := { s with pair := p }.setFld Reg.PAIR_STS_HS_CAUSE 0 0
  if s.isActive then s.resyncStart else s.setMirror 3

/-- A handshake message is received: kind 0 HELLO, 1 CT, 2 PROOF. One that comes out of turn is ignored. (DEDUCED, log entry 41) -/
def State.hsMessage (s : State) (kind : Nat) (d : Bytes) : State :=
  match s.pair.hs with
  | none => s
  | some h =>
    match kind, h.peer, h.pk with
    | 0, none, _ =>
      let c := s.helloCause d
      if c != 0 then s.hsFail c
      else if s.pm == 0 then { s with pair := { s.pair with hs := some { h with peer := some d } } }
      else
        let (r, s) := s.drawBytes 32
        let (ct, z) := Config.kemEnc (sliceB d 197 1568) r
        (s.hsFrame ct).hsKeys h d ct z
    | 1, some peer, none => if s.pm == 0 then s.hsKeys h peer d (Config.kemDec h.kem d) else s
    | 2, some peer, some pk =>
      if Config.p384Verify (sliceB peer 3 97) (proofMsg (1 - s.pm) h.th) d then s.hsDone pk else s.hsFail 5
    | _, _, _ => s

/-- MATE_HANDSHAKE_MESSAGE. -/
def execMateHandshakeMessage (kind : Nat) (d : Bytes) (s : State) := live s fun s => s.hsMessage kind d

/-! ## What a standby does with a record (R467) -/

/-- A state of its code. -/
def tstateOf (n : Nat) : TState :=
  match n with
  | 0 => .init
  | 1 => .discovered
  | 2 => .ranged
  | 3 => .authenticating
  | 4 => .operational
  | 5 => .quarantined
  | _ => .deactivated

/-- A grant-map entry of its 8 bytes (R128). -/
def gentOf (d : Bytes) : GEnt :=
  let v := beAt d 0 6
  { kind := bitsOf v 46 2, id := bitsOf v 36 10, start := bitsOf v 20 16, len := bitsOf v 4 16, fix := bitOf v 3, poll := bitOf v 2 }

/-- The pieces of n bytes each of a byte string. -/
def piecesOf (n : Nat) (d : Bytes) : List Bytes := (List.range (d.length / n)).map fun i => sliceB d (n * i) n

/-- The standby's copy of a map of its record (R105), as State.mirrorMap laid it out. (DESIGN CHOICE, log entry 63) -/
def State.mapOf (s : State) (r : MRec) : UMap :=
  let u := r.nums.getD 2 0
  ⟨r.nums.getD 1 0, u, r.nums.getD 3 0, (piecesOf 8 (r.data.getD 0 [])).map gentOf,
    (piecesOf 4 (r.data.getD 1 [])).map fun d => (beAt d 0 2, beAt d 2 2), s.preambleAt (r.nums.getD 0 0) u, [], false⟩

/-- Number i of a record, and number i as a Bool. -/
def MRec.n (r : MRec) (i : Nat) : Nat := r.nums.getD i 0
def MRec.b (r : MRec) (i : Nat) : Bool := r.nums.getD i 0 != 0

/-- A wrapped key of a record under WK. -/
def State.unwrapRec (s : State) (r : MRec) (i : Nat) : Bytes :=
  let d := r.data.getD i []
  if d.isEmpty then [] else (Config.keyUnwrap s.wk d).getD []

/-- MTYPE 0x03. -/
def State.applySxt (s : State) (r : MRec) : State :=
  match r.n 0 with
  | 0 =>
    let x := s.term (r.n 1)
    let st := tstateOf (r.n 6)
    s.setTerm (r.n 1) { x with
      valid := r.b 2, vendor := r.n 3, serial := r.n 4, sni := r.n 5, st := st, eqd := toSigned 32 (r.n 7), dark := r.b 8
      keyed := r.b 9, reason := r.n 10, since := if st == x.st then x.since else s.tm.tickNo
      opFrame := if st == .operational then some (x.opFrame.getD s.tm.m) else none }
  | 1 => s.wr (r.n 1) (BitVec.ofNat 32 (r.n 2))
  | _ => ((s.plainWrite (Reg.TRX_PREAMBLE_CFG.at (r.n 1)) (r.n 2)).setReg64 Reg.TRX_PREAMBLE_AT_LO (r.n 1) (r.n 3)).preambleArm (r.n 1)

/-- A key position of a record: its numbers from i, its keys from j. -/
def State.recPos (s : State) (r : MRec) (i j : Nat) : Option KPos :=
  if r.b i then
    some { key := s.unwrapRec r j, mic := s.unwrapRec r (j + 1), wrap := s.unwrapRec r (j + 2), k256 := r.b (i + 1), use := r.n (i + 2)
           kgen := r.n (i + 3), warned := r.b (i + 4) }
  else none

/-- MTYPE 0x04. -/
def State.applyAx (s : State) (r : MRec) : State :=
  let ax := r.n 0
  let st : AState := match r.n 1 with
    | 0 => .invalid
    | 1 => .active
    | _ => .stopped
  let sw : Option Sw := if r.b 18 then some ⟨r.n 19, r.n 20, r.b 21⟩ else none
  let a : Assoc := { st := st, fault := r.b 2, pin := r.b 3, exp := r.b 4, usage := r.n 5, limit := r.n 6, cur := r.n 7
                     p0 := s.recPos r 8 0, p1 := s.recPos r 13 3, sw := sw }
  let s := s.setAssoc ax a
  let s := if st == .invalid then s.cool ax else s.loadPinned ax
  match sw with
  | some w => if w.taken || s.isNamed .phase ax 0 then s else s.name .phase ax 0 w.t
  | none => s.unname .phase ax 0

/-- MTYPE 0x05. -/
def State.applyKa (s : State) (r : MRec) : State :=
  let ax := r.n 1
  if r.n 0 == 0 then
    let old : Bytes := if (s.outMk ax).isEmpty then (s.mkOf ax s.tm.m false).getD [] else s.outMk ax
    let tm (i j : Nat) : Option Tms := if r.b i then some ⟨s.unwrapRec r j, r.n (i + 1), r.n (i + 2), r.n (i + 3)⟩ else none
    let sw : Option KSw := if r.b 12 then some ⟨r.n 13, r.n 14, r.b 15, if r.n 16 == 0 then none else some (r.n 16), decide (r.n 16 ≠ 0 ∧ r.n 16 ≤ s.tm.m), r.b 17, old⟩ else none
    s.setKt ax { s.kt ax with kgen := r.n 2, lastSw := r.n 3, tms := tm 4 0, nextTms := tm 8 1, sw := sw }
  else s.setKg ax { s.kg ax with lastSw := r.n 2, sw := if r.b 3 then some (r.n 4, r.n 5) else none }

/-- MTYPE 0x06. -/
def State.applyOrr (s : State) (r : MRec) : State :=
  if r.n 0 == 0 then s.allocWrite (r.n 1) (r.n 2) (r.nums.drop 3) else s.wr (r.n 1) (BitVec.ofNat 32 (r.n 2))

/-- MTYPE 0x07. -/
def State.applyTsi (s : State) (r : MRec) : State :=
  match r.n 0 with
  | 0 => s.setConn (r.n 1) (r.n 2) (connOf (r.nums.drop 3))
  | 1 => s.replacePage (1 - r.n 1) (s.tsi.conns.filterMap fun e => if e.1 / 2 ^ 18 == r.n 1 then some (e.1 % 2 ^ 18, e.2) else none)
  | 2 => s.pathPut (r.n 1) (r.n 2) (r.n 3) (r.n 4)
  | 3 =>
    let s := { s with tsi := { s.tsi with armed := none } }.unname .tsiPage 0 0
    if r.b 2 then s.tsiSetArmed (r.n 1) else s
  | 4 => s.replacePage (r.n 1) []
  | 5 => s.wr (r.n 1) (BitVec.ofNat 32 (r.n 2))
  | 7 => (s.cl (r.n 1)).paths.foldl (fun (s : State) q =>
      if bitOf (r.n (2 + q.1 / 64)) (q.1 % 64) || !q.2.valid then s else s.pathPut (r.n 1) q.1 0 0) s
  | _ => { s with tsi := { s.tsi with active := r.n 1 % 2 } }

/-- MTYPE 0x08: E as a write of EPOCH would set it, and the flags and accuracy of the active domain. -/
def State.applyTime (s : State) (r : MRec) : State :=
  let d := 0x40 * s.tm.active
  let s := if s.intendedE < r.n 0 then { s with tm := { s.tm with ePend := some (r.n 0) } } else s
  let s := (s.setFlag Reg.AST_DOM_CTL_LEAP61 0 (bitOf (r.n 1) 0) d).setFlag Reg.AST_DOM_CTL_LEAP59 0 (bitOf (r.n 1) 1) d
  s.setFld Reg.AST_DOM_CTL_ACCURACY 0 (r.n 2) d

/-- MTYPE 0x09: the list becomes pending with the start time that the active reached. -/
def State.applyGate (s : State) (r : MRec) : State :=
  let l : TList := ⟨(r.nums.drop 4).map fun e => (e % 256, e / 256), r.n 3, r.n 2⟩
  s.setGt (r.n 0) { s.gt (r.n 0) with pend := some l }

/-- MTYPE 0x0A: a static entry inserted, in place of any other of its key, or deleted. -/
def State.applyFwd (s : State) (r : MRec) : State :=
  let sl := r.n 0
  let old := (s.fw sl).pos (r.n 1) (r.n 2)
  let e : FEnt := { domain := r.n 1, mac := r.n 2, dest := r.n 3, group := r.b 4, type := 2, hit := false, mark := (s.fw sl).parity, owed := false }
  match old, r.b 5 with
  | some p, true => s.fwdClear sl p
  | none, true => s
  | some p, false => s.fwdPut sl p e
  | none, false => (s.fwdInsert sl e).1

/-- A STATUS record (R462, R464, R467, R469): the peer's role, HEALTH, M, E and the MSEQ it has received. (DEDUCED, log entry 39) -/
def State.applyStatus (s : State) (r : MRec) : State :=
  let act := r.b 0
  let p := s.pair
  let since := if act && !s.flag Reg.PAIR_STS_PEER_ACTIVE 0 then s.tm.m else p.peerSince
  let p := { p with peerHealth := r.n 1, peerM := r.n 2, peerE := r.n 3, peerSince := since }
  let s := { s with pair := p }.setFlag Reg.PAIR_STS_PEER_ACTIVE 0 act
  if s.isActive then
    { s with pair := { s.pair with out := s.pair.out.filter fun q => decide (r.n 4 < q.1) } }.resyncEnd
  else if !s.tm.free && r.n 2 != s.tm.m then (s.count Reg.PAIR_TICK_MISMATCH 0).mirrorStale
  else s

/-- The first record of a resync: what is mirrored returns to reset, save what the standby measures itself (R159). (DEDUCED, log entry 39) -/
def State.mirrorClear (s : State) : State :=
  let s := { s with terms := s.terms.mapV (fun _ => termReset) fun _ x => { termReset with stby := x.stby } }
  let s := (s.alm.recs.filter fun q => decide (q.1 < 20512)).foldl (fun (s : State) q => s.destroyAx q.1 false) s
  let s := { s with ka := { s.ka with terms := [], groups := [] } }
  let s := { s with orr := s.orr.mapV (fun _ => orrReset) fun _ o => { o with allocs := [] }, regs := s.regs.keep fun k _ => !copiedReg k }
  [0, 1, 2, 3].foldl (fun (s : State) sl =>
    let live := (s.fw sl).tab.filter fun e => e.2.type == 2
    live.foldl (fun (s : State) e => s.fwdClear sl e.1) s) s

/-- Apply a record that came with an MSEQ of its own: a standby applies it; a gap makes the mirror STALE, and MSEQ 1 begins a
resync. STATUS and LINK_KEY act in either role. (DESIGN CHOICE, log entry 63) -/
def State.applyRec (s : State) (q : Nat × MRec) : State :=
  let r := q.2
  let s := if q.1 == 0 || s.isActive then s
    else if q.1 == 1 then
      let s := { s with pair := { s.pair with rx := 1 } }
      (if s.mirrorSt == 3 then s else s.setMirror 3).mirrorClear
    else
      let gap := q.1 != s.pair.rx + 1
      let s := { s with pair := { s.pair with rx := q.1 } }
      if gap then s.mirrorStale else s
  if r.mtype == 1 then s.applyStatus r
  else if r.mtype == 0x0B then s.linkSwitch (r.n 1) (r.n 0)
  else if s.isActive then s
  else
    match r.mtype with
    | 2 => if r.n 2 ≤ s.tm.m then s else s.storeMap (r.n 0) (s.mapOf r)
    | 3 => s.applySxt r
    | 4 => s.applyAx r
    | 5 => s.applyKa r
    | 6 => s.applyOrr r
    | 7 => s.applyTsi r
    | 8 => s.applyTime r
    | 9 => s.applyGate r
    | 0x0A => s.applyFwd r
    | _ => s

/-! ## MATE_FRAME_RECEIVE (R464) -/

/-- What the header of a good frame tells: SYNCED of the peer. A standby follows an active that is SYNCED; an active whose
standby has not become SYNCED within 2 ticks, or is no longer, holds it STALE (R469). (DEDUCED, log entry 40) -/
def State.peerFlags (s : State) (tick flags : Nat) : State :=
  let sy := bitOf flags 2
  let s := { s with pair := { s.pair with peerSynced := sy } }
  if !s.isActive && bitOf flags 1 && sy && s.mirrorSt == 3 then s.setMirror 4
  else if s.isActive && s.mirrorSt == 4 && !sy && decide (s.pair.syncedAt + 2 ≤ tick) then s.mirrorStale
  else s

/-- A mate frame received: MHDR_CHECK, tag, records. (DEDUCED, log entry 39) -/
def State.mateReceive (s : State) (f : Bytes) : State :=
  if !s.mateUp || beAt f 12 4 != crc32c (sliceB f 0 12) || beAt f 9 1 != 1 then s else
  let tick := beAt f 0 6
  let flags := beAt f 8 1
  let len := beAt f 10 2
  let kp := flags / 8 % 2
  let member := flags % 2
  match s.verdict 28704 tick (some kp) with
  | .ok p =>
    match (s.assoc 28704).pos p with
    | none => s
    | some k =>
      let s := s.invoke 28704 p
      let iv := tickIv tick (beAt f 6 2) 28704 0 member member kp
      match Config.gcmDec k.key iv (sliceB f 0 16) (sliceB f 16 (len - 16)) (sliceB f len 16) with
      | none => ((s.count Reg.PAIR_MATE_TAG_FAIL 0).raise Ty.PAIR 0 4 0 0).mirrorStale
      | some pt => (((recsOf pt.length pt).foldl State.applyRec s)).peerFlags tick flags
  | _ => s
def execMateFrameReceive (frame : Bytes) (s : State) := live s fun s => s.mateReceive frame

/-! ## The role (R456, R459, R461, R462) -/

/-- Core cycles of FILT. -/
def State.filtCycles (s : State) : Nat := ceilDiv (s.fld Reg.PAIR_ROLE_CFG_FILT 0 * 5) 4

/-- The level at the pin is taken once it has been stable for FILT. (DEDUCED, log entry 42) -/
def State.roleFilter (s : State) : State :=
  if s.pair.pinAt + s.filtCycles ≤ s.now then { s with pair := { s.pair with filt := s.pair.pin } } else s

/-- ROLE_IN_CHANGE: the level at the pin from a core cycle on. (DEDUCED, log entry 42) -/
def State.roleIn (s : State) (level : Bool) (cycle : Nat) : State :=
  let s := s.advanceTo (min cycle s.tm.len)
  if s.pair.pin == level then s else
  let s := s.roleFilter
  { s with pair := { s.pair with pin := level, pinAt := s.now } }
def execRoleInChange (level : Bool) (cycle : Nat) (s : State) := live s fun s => s.roleIn level cycle

/-- ROLE_YIELD: both devices active since at least the last boundary, with the mate link up, and this one the earlier; of two
that became active in the same tick, member 1 yields. (DEDUCED, log entry 40) -/
def State.roleYield (s : State) : State :=
  let mine := s.reg64 Reg.PAIR_LAST_ROLE_LO 0
  let earlier := decide (mine < s.pair.peerSince) || (mine == s.pair.peerSince && s.pm == 1)
  match s.pair.both with
  | some k =>
    if s.mateUp && s.isActive && s.flag Reg.PAIR_STS_PEER_ACTIVE 0 && s.on Reg.PAIR_CTL_PAIR_EN 0 && s.on Reg.PAIR_CTL_YIELD_EN 0 &&
        earlier && !s.pair.yielded && decide (k + 1 ≤ s.tm.tickNo) then
      { s with pair := { s.pair with yielded := true } }.count Reg.PAIR_YIELDS 0
    else s
  | none => s
def execRoleYield (s : State) := live s fun s => s.roleYield

/-- A Sextant that becomes standby: its messages and their acknowledgement state are dropped, and no change pends (R46, R159). -/
def State.sxtStandby (s : State) : State :=
  let s := { s with terms := s.terms.mapV (fun _ => termReset) fun _ x =>
    { x with out := none, queue := [], pend := none, told := false, rangeFrom := none, rangeRes := none, ranging := none, bcast := none
             eqdAt := none, eqdWait := false, rangeAfter := false, assignAcked := false } }
  { s with sxt := s.sxt.mapV (fun _ => sxtReset) fun _ x => { x with windows := [], find := none, outbox := [], notices := [], darkTest := none } }

/-- Becoming standby at this boundary (R461). -/
def State.toStandby (s : State) : State :=
  let s := (s.ctrlFlush.sxtStandby).flushDown
  let s := s.ttx.foldl (fun (s : State) q => (s.dropLists q.1).setTx q.1 { (s.dropLists q.1).tx q.1 with mapIn := none, wakeAt := none }) s
  let s := { s with orr := s.orr.mapV (fun _ => orrReset) fun _ o =>
    { o with comp := none, hints := [], reps := [], allocs := o.allocs.mapV (fun _ => allocReset) fun _ a => { a with credA := 0, credM := 0, ledger := [] } } }
  let s := s.trx.foldl (fun (s : State) q => q.2.reasm.foldl (fun (s : State) u => s.dropUnit q.1 u.1) s) s
  s.kaStandby

/-- Becoming active at this boundary (R159, R189, R461). -/
def State.toActive (s : State) : State :=
  let s := if s.on Reg.PAIR_CTL_PAIR_EN 0 && s.mirrorSt != 4 then s.setFlag Reg.PAIR_STS_ACTIVE_STALE 0 true else s
  let s := (List.range 32).foldl (fun (s : State) t => if s.hasTree t then
    let s := s.eqdShift t
    let s := s.setTx t { s.tx t with wakeAt := some s.tm.tickNo }
    s.setOrt t { s.ort t with rolePoll := true } else s) s
  s.kaActive

/-- The role at a boundary: ROLE_IN as filtered in a pair, active alone. A device that has yielded takes its ROLE_IN as low until
it has been; one whose role latches disagree is standby until a block soft reset (R474). (DEDUCED, log entry 42) -/
def State.roleStep (s : State) : State :=
  let s := s.roleFilter
  let s := s.setFlag Reg.PAIR_STS_ROLE_IN 0 s.pair.filt
  let s := if s.inv Ty.PAIR 0 1 && !s.pair.roleErr then (s.raise Ty.PAIR 0 3 0 0) else s
  let s := if s.inv Ty.PAIR 0 1 then { s with pair := { s.pair with roleErr := true } } else s
  let s := if s.pair.filt then s else { s with pair := { s.pair with yielded := false } }
  let paired := s.on Reg.PAIR_CTL_PAIR_EN 0
  let want := (!paired || (s.pair.filt && !s.pair.yielded)) && !s.pair.roleErr
  if s.halted || want == s.isActive then s else
  let s := (s.count Reg.PAIR_ROLE_CHANGES 0).setReg64 Reg.PAIR_LAST_ROLE_LO 0 s.tick
  let s := s.setFlag Reg.PAIR_STS_ROLE 0 want
  (if want then s.toActive else s.toStandby).mirrorStale

/-- Both active and neither active, with the mate link up (R462, R471): each counted once a spell. (DEDUCED, log entry 40) -/
def State.pairWatch (s : State) : State :=
  let me := s.isActive
  let peer := s.flag Reg.PAIR_STS_PEER_ACTIVE 0
  let k := s.tm.tickNo
  let on := s.mateUp && s.on Reg.PAIR_CTL_PAIR_EN 0
  let s := if on && me && peer then
      (if s.pair.both.isSome then s else { s with pair := { s.pair with both := some k } }.count Reg.PAIR_BOTH_ACTIVE 0)
    else { s with pair := { s.pair with both := none } }
  if on && !me && !peer then
    match s.pair.none with
    | none => { s with pair := { s.pair with none := some (k, false) } }
    | some (k0, seen) =>
      if !seen && decide (k0 + 2 < k) then { s with pair := { s.pair with none := some (k0, true) } }.count Reg.PAIR_NONE_ACTIVE 0 else s
  else { s with pair := { s.pair with none := none } }

/-- The pair's part of a boundary after the count: role, watch, and the active's resync, which a STALE mirror starts. -/
def State.pairBoundary (s : State) : State :=
  let s := s.roleStep.pairWatch
  let s := if s.isActive && s.mateUp && s.mirrorSt == 5 then s.resyncStart else s
  s.resyncStep

/-! ## Registers (R456, R469, R471, R472) -/

/-- A write of PAIR_CTL: MEMBER stays while PAIR_EN is 1, which counts where it would change; MATE_EN moves the mirror between
OFF and LINKING. -/
def State.pairCtlWrite (s : State) (v : Nat) : State :=
  let old := s.reg Reg.PAIR_CTL 0
  let bad := bitOf old 0 && bitOf old 1 != bitOf v 1
  let s := s.plainWrite (Reg.PAIR_CTL.at 0) (if bad then setBitOf v 1 (bitOf old 1) else v)
  let s := if bad then s.count Reg.PAIR_CFG_REJECT 0 else s
  let en := s.on Reg.PAIR_CTL_MATE_EN 0
  if en && s.mirrorSt == 0 then s.setMirror 1
  else if !en && s.mirrorSt != 0 then s.mateDown.setMirror 0
  else s

/-- A write of a word of PEER_KEY_HASH. -/
def State.peerKeyWrite (s : State) (i v : Nat) : State :=
  if s.mirrorSt != 0 then s.count Reg.PAIR_CFG_REJECT 0 else s.setRegI Reg.PAIR_PEER_KEY_HASH 0 i v

/-- The effects of PAIR error sources (R474). -/
def State.pairErr (s : State) (d : Det) : State :=
  match d.src with
  | 2 => s.mirrorStale
  | 3 => { s with pair := { s.pair with roleErr := true } }
  | 4 => (if d.forced then s else s.count Reg.PAIR_MATE_TAG_FAIL 0).mirrorStale
  | _ => s

end Sys2Proof.Machine
end

