-- ==== Sys2Proof/Machine/Lcs.lean ====
section
/-! DEFINITION. Lodestone, life cycle, Logbook, backup cell, tamper monitors and debug unlock (R475 to R503): OTP, identity,
LCS_CMD, the Logbook's programming, monitors and their responses, tokens. -/

namespace Sys2Proof.Machine

/-! ## The Logbook (R491, R492) and the battery slots (R485) -/

/-- CODEs accepted from entry 2,032 on. (DEDUCED, log entry 45) -/
def logReserve (code : Nat) : Bool := (decide (0x10 ≤ code) && decide (code ≤ 0x16)) || code == 0x20 || code == 0x30

/-- An entry with bits of LFLAGS set, and its LCHK. -/
def logFlag (e : Bytes) (bits : Nat) : Bytes :=
  let b := sliceB e 0 7 ++ toBE 1 (beAt e 7 1 ||| bits) ++ sliceB e 8 6
  b ++ toBE 2 (crc16 b)

/-- An event written to a battery slot: the next free one, or slot 7, which counts its overwrites in DETAIL[23:16]. -/
def Vbat.slot (v : Vbat) (e : Bytes) : Vbat :=
  if v.slots.length < 8 then { v with slots := v.slots ++ [e] }
  else
    let n := min 255 (beAt (v.slots.getD 7 []) 11 1 + 1)
    let b := sliceB e 0 11 ++ toBE 1 n ++ sliceB e 12 2
    { v with slots := v.slots.take 7 ++ [b ++ toBE 2 (crc16 b)] }
def State.batterySlot (s : State) (e : Bytes) : State := { s with lcs := { s.lcs with vbat := s.lcs.vbat.slot e } }

/-- The slots of an event with its continuation: two, while two are free; else the event alone, with CONT 0. (DESIGN CHOICE, log entry 133) -/
def State.batterySlots (s : State) (l : List Bytes) : State :=
  if s.lcs.vbat.slots.length + l.length ≤ 8 then l.foldl State.batterySlot s
  else
    let e := l.headD []
    let b := sliceB e 0 7 ++ toBE 1 (beAt e 7 1 % 128) ++ sliceB e 8 6
    s.batterySlot (b ++ toBE 2 (crc16 b))

/-- Slots copied to the Logbook: BATTERY set in each entry, a continuation as it stands. -/
def slotEntries : List Bytes → List Bytes
  | [] => []
  | [e] => [logFlag e 8]
  | e :: c :: l => if bitOf (beAt e 7 1) 7 then logFlag e 8 :: c :: slotEntries l else logFlag e 8 :: slotEntries (c :: l)

/-- Entries programmed; LOG_NEAR and LOG_FULL set as their entry is reached. -/
def State.logWrite (s : State) (l : List Bytes) : State :=
  let n := s.lcs.otp.log.length
  let s := { s with lcs := { s.lcs with otp := { s.lcs.otp with log := s.lcs.otp.log ++ l } } }
  let s := if n < 2032 && 2032 ≤ n + l.length then s.intSet Ty.LCS 0 0 else s
  if n < 2048 && 2048 ≤ n + l.length then s.intSet Ty.LCS 0 1 else s

/-- Program an entry with its continuation, or refuse it (R492): counted, and to a battery slot where the Logbook is full and the
reserve accepts its CODE. -/
def State.logProgram (s : State) (l : List Bytes) : State :=
  let n := s.lcs.otp.log.length
  let e := l.headD []
  let ok := logReserve (beAt e 6 1)
  if 2048 < n + l.length || (2032 ≤ n && !ok) then
    let s := s.count Reg.LCS_LOG_FULL_DROP 0
    if ok && 2048 < n + l.length then s.batterySlots l else s
  else s.logWrite l

/-- The next queued entry with its continuation, and the queue after it. -/
def logNext (q : List Bytes) : List Bytes × List Bytes :=
  match q with
  | [] => ([], [])
  | e :: q => if bitOf (beAt e 7 1) 7 then (e :: q.take 1, q.drop 1) else ([e], q)

/-- LOGBOOK_APPEND: the oldest queued entry is programmed. `torn`: the programming does not verify, and leaves these bytes. (DEDUCED, log entry 45) -/
def State.logAppend (s : State) (torn : Option Bytes) : State :=
  let (l, q) := logNext s.lcs.logQ
  if l.isEmpty then s else
  let s := { s with lcs := { s.lcs with logQ := q } }
  match torn with
  | some b => (s.logProgram (sliceB b 0 16 :: l.drop 1)).raise Ty.LCS 0 4 0 0
  | none => s.logProgram l
def execLogbookAppend (torn : Option Bytes) (s : State) := powered s fun s => s.logAppend torn

/-- BATTERY_SLOT_COPY (R485): in slot order, before anything else runs; those that find the Logbook full are kept, and
counted (R535). -/
def State.slotCopy (s : State) : State :=
  let room := 2048 - s.lcs.otp.log.length
  let l := slotEntries s.lcs.vbat.slots
  let kept := s.lcs.vbat.slots.drop room
  let s := s.logWrite (l.take room)
  { s with lcs := { s.lcs with vbat := { s.lcs.vbat with slots := kept } } }.countN Reg.LCS_LOG_FULL_DROP 0 kept.length

/-! ## Life cycle (R479) -/

/-- The codes of R479, and their numbers. -/
def Life.pattern : Life → Nat
  | .blank => 0x17
  | .factory => 0x2B
  | .field => 0x4D
  | .ret => 0x8E
  | .scrap => 0x71
  | .invalid => 0
def lifeOf (n : Nat) : Life :=
  match n with
  | 0 => .blank
  | 1 => .factory
  | 2 => .field
  | 3 => .ret
  | 4 => .scrap
  | _ => .invalid

/-- The pattern of LC_STATE of state n. -/
def lcPattern (n : Nat) : Nat := 2 ^ (8 * min n 4) - 1

/-- The highest state whose pattern is fully set. -/
def lcHighest (v : Nat) : Nat := ([4, 3, 2, 1].find? fun n => v &&& lcPattern n == lcPattern n).getD 0

/-- A Logbook entry LC_CHANGE. -/
def State.logChange (s : State) (old target : Nat) (completed : Bool) : State :=
  let e := logEntry s 0x12 0 Ty.LCS 0 0 (old + target * 256) false
  s.logPut (if completed then logFlag e 4 else e)

/-- DIV[n] drawn and written. -/
def State.newDiv (s : State) (n : Nat) : State :=
  let (d, s) := s.drawBytes 4
  { s with lcs := { s.lcs with otp := { s.lcs.otp with div := s.lcs.otp.div.insert n (some (beNat d)) } } }

/-- Store the OTP. -/
def State.setOtp (s : State) (o : Otp) : State := { s with lcs := { s.lcs with otp := o } }

/-- LC_STATE_EVALUATE at a start (R479): an interrupted change is completed; an invalid pattern is LCS source 0x01. The old state that
the entry of a completed change into SCRAP names is the highest whose pattern is still whole. (DESIGN CHOICE, log entry 133) -/
def State.lcEvaluate (s : State) : State :=
  let o := s.lcs.otp
  let v := o.lcState
  let l := lcHighest v
  let rest := v - (v &&& lcPattern l)
  let put (s : State) (n : Nat) : State := { s with lcs := { s.lcs with life := lifeOf n } }
  if 2 ^ 24 ≤ v then
    if v == 0xFFFFFFFF && o.helper == .full then put s 4
    else
      let s := s.setOtp { o with lcState := 0xFFFFFFFF, helper := .full }
      let s := { s with lcs := { s.lcs with vbat := { s.lcs.vbat with secret := none } } }
      put (s.logChange l 4 true) 4
  else if rest == 0 then
    let s := put s l
    if 1 ≤ l && l ≤ 3 && ((o.div.find l).bind id).isNone then ((s.newDiv l).newSecret).logChange (l - 1) l true else s
  else if rest < 2 ^ (8 * (l + 1)) then
    let s := s.setOtp { o with lcState := lcPattern (l + 1) }
    let s := if l + 1 ≤ 3 && ((o.div.find (l + 1)).bind id).isNone then s.newDiv (l + 1) else s
    put (s.newSecret.logChange l (l + 1) true) (l + 1)
  else (put s 15).raise Ty.LCS 0 1 v 0

/-! ## The Lodestone (R476 to R478) -/

/-- The bits of a 32-bit word, bit 0 first. -/
def wordBits (w : Word) : List Bool := (List.range 32).map fun i => w.getLsbD i

/-- The response: the first 7,650 bits of the marked words. -/
def response (mask : Bytes) (array : List Word) : Bytes :=
  let bits := (array.zipIdx.filter fun q => (mask.getD (q.2 / 8) 0).getLsbD (q.2 % 8)).flatMap fun q => wordBits q.1
  packBits ((bits.take 7650) ++ List.replicate 6 false)

/-- The root of message M. -/
def rootOf (m : Bytes) : Bytes := sliceB (Config.sha384 (ascii "BV3232 lodestone root" ++ m)) 0 32

/-- No identity (R477): no root, every association INVALID with FAULT. -/
def State.noIdentity (s : State) : State := ({ s with lcs := { s.lcs with root := none } }).destroyAll true

/-- LODESTONE_REGENERATE (R477) from the array as read: the root, or no identity with its cause. -/
def State.lodestone (s : State) (array : List Word) : State :=
  let fail (s : State) (d : Nat) (c : EClass) : State :=
    let s := s.event ⟨Ty.LCS, 0, 3, 0, d, false, none⟩ c
    (s.log 0x13 c.code Ty.LCS 0 3 d).noIdentity
  match s.lcs.otp.helper with
  | .blank | .full => fail s 3 .notice
  | .data mask offset check =>
    match Config.lodestoneDecode (response mask array) offset with
    | none => fail s 1 .severe
    | some m =>
      if Config.sha384 (ascii "BV3232 lodestone check" ++ m) == check then { s with lcs := { s.lcs with root := some (rootOf m) } }
      else fail s 2 .severe

/-- LODESTONE_ENROL (R478) from 32 readings of the array: false with fewer than 240 stable words. (DEDUCED, log entry 49) -/
def State.enrol (s : State) (readings : List (List Word)) : State × Bool :=
  let first := readings.headD []
  let stable := first.zipIdx.map fun q => readings.all fun r => r.getD q.2 0 == q.1
  if (stable.countP id) < 240 then (s, false) else
  let mask := (List.range 2048).map fun i =>
    BitVec.ofNat 8 ((List.range 8).foldl (fun a j => a + if stable.getD (8 * i + j) false then 2 ^ j else 0) 0)
  let (m, s) := s.drawBytes 99
  let offset := xorB (response mask first) (Config.lodestoneCode m)
  let s := s.setOtp { s.lcs.otp with helper := .data mask offset (Config.sha384 (ascii "BV3232 lodestone check" ++ m)) }
  ({ s with lcs := { s.lcs with root := some (rootOf m) } }, true)

/-- Words of a byte string, least significant byte first, and its array readings of 16,384 words each. -/
def wordsOf (d : Bytes) : List Word := (List.range (d.length / 4)).map fun i => BitVec.ofNat 32 (leAt d (4 * i) 4)
def readingsOf (d : Bytes) : List (List Word) :=
  let w := wordsOf d
  (List.range (w.length / 16384)).map fun i => (w.drop (16384 * i)).take 16384

/-! ## LCS_CMD (R475, R480, R482, R498) -/

/-- A command's end: STATUS, CMD_DONE, CFG_REJECT on a refusal. (DEDUCED, log entry 49) -/
def State.lcsDone (s : State) (op st : Nat) : State :=
  let s := s.setReg Reg.LCS_CMD 0 (setBitsOf (setBitsOf (s.reg Reg.LCS_CMD 0) 0 4 op) 24 4 st)
  (if st == 0 then s else s.count Reg.LCS_CFG_REJECT 0).intSet Ty.LCS 0 3

/-- LCS_CMD with OP, unless one is BUSY. `f` takes whether the OTP word it reads meets inverted check bits (ERR_INV_CHECK bit 0, R499):
the field then reads as unwritten. -/
def State.lcsCmd (s : State) (op : Nat) (f : Bool → State → State × Nat) : State :=
  if s.flag Reg.LCS_CMD_BUSY 0 then s else
  let hit := s.inv Ty.LCS 0 0
  let s := if hit then (s.invDone Ty.LCS 0 0).raiseInv Ty.LCS 0 2 0 0 else s
  let (s, st) := f hit s
  s.lcsDone op st

/-- Whether the life-cycle state is one of those numbered lo to hi. -/
def State.lifeIn (s : State) (lo hi : Nat) : Bool := decide (lo ≤ s.lcs.life.code) && decide (s.lcs.life.code ≤ hi)

/-- The end of an unlock (R496). -/
def State.unlockEnd (s : State) : State :=
  if s.lcs.unlock.isNone then s else ({ s with lcs := { s.lcs with unlock := none } }).intSet Ty.DBG 0 3

/-- The bytes of LC_STATE programmed for a target, in order (R480 step 6). -/
def lcBytes (v target : Nat) : List Nat :=
  if target == 4 then 3 :: ([2, 1, 0].filter fun k => bitsOf v (8 * k) 8 != 0xFF) else [target - 1]

/-- Steps 2 to 5 of a life-cycle change (R480). -/
def State.lcDestroy (s : State) (target : Nat) : State :=
  let s := s.logChange s.lcs.life.code target false
  let s := (s.destroyAll true).newSecret
  let s := { s with ka := { s.ka with chain := [] }, pair := { s.pair with pk := none, hs := none } }
  s.mirrorStale.unlockEnd

/-- Step 6: the bytes programmed; with `cut` (n, bits) only the first n whole and these bits of the next. (DESIGN CHOICE, log entry 48) -/
def lcProgram (v : Nat) : List Nat → Option (Nat × Nat) → Nat
  | [], _ => v
  | k :: _, some (0, bits) => setBitsOf v (8 * k) 8 (bitsOf v (8 * k) 8 ||| bits % 256)
  | k :: l, some (n + 1, bits) => lcProgram (setBitsOf v (8 * k) 8 0xFF) l (some (n, bits))
  | k :: l, none => lcProgram (setBitsOf v (8 * k) 8 0xFF) l none

/-- Steps 7 and 8. (DESIGN CHOICE, log entry 48) -/
def State.lcFinish (s : State) (target : Nat) : State :=
  let s := if target == 4 then s.setOtp { s.lcs.otp with helper := .full } else s.newDiv target
  ({ s with lcs := { s.lcs with life := lifeOf target } }).sealLife

/-- The STATUS that refuses a target: 1 not next and not SCRAP, 2 no ROOT_CA_HASH, 3 no RETURN token. -/
def State.lcRefuse (s : State) (target : Nat) : Nat :=
  let l := s.lcs.life.code
  if l == target || 4 < target || (target != l + 1 && target != 4) || 3 < l then 1
  else if target == 2 && s.lcs.otp.rootHash.isNone then 2
  else if l == 2 && target == 3 && !s.lcs.retToken then 3
  else 0

/-- LC_ADVANCE: `data` is the 32 readings of the array for an enrolment; `cut` stops the change, by a loss of power that must follow,
after n bytes of step 6 and some bits of the next (or, past them, before step 7): LCS_CMD stays BUSY. (DESIGN CHOICE, log entry 48) -/
def State.lcAdvance (s : State) (target : Nat) (data : Bytes) (cut : Option (Nat × Nat)) : State :=
  if s.flag Reg.LCS_CMD_BUSY 0 then s else
  let s := s.setFld Reg.LCS_CMD_TARGET 0 target
  let st := s.lcRefuse target
  if st != 0 then s.lcsDone 1 st else
  let (s, ok) := if target == 1 then s.enrol (readingsOf data) else (s, true)
  if !ok then s.lcsDone 1 5 else
  let s := s.lcDestroy target
  let v := s.lcs.otp.lcState
  let s := s.setOtp { s.lcs.otp with lcState := lcProgram v (lcBytes v target) cut }
  match cut with
  | none => (s.lcFinish target).lcsDone 1 0
  | some _ => s.setFlag Reg.LCS_CMD_BUSY 0 true
def execLcAdvance (target : Nat) (data : Bytes) (cut : Option (Nat × Nat)) (s : State) := live s fun s => s.lcAdvance (target % 8) data cut

/-- SLOT and WINDOW as a command's write leaves them; a write while BUSY is ignored. -/
def State.lcsArgs (s : State) (slot : Option Nat) (w : Nat) : State :=
  if s.flag Reg.LCS_CMD_BUSY 0 then s else
  let s := s.setFld Reg.LCS_CMD_WINDOW 0 w
  match slot with
  | some n => s.setFld Reg.LCS_CMD_SLOT 0 n
  | none => s

/-- What an OTP field holds once bytes are programmed into it: a bit once set cannot be cleared (R475). -/
def otpPut (old : Option Bytes) (d : Bytes) : Bytes :=
  match old with
  | some o => List.zipWith (fun x y => x ||| y) o d
  | none => d

/-- READ_ID; a signature that fails its own verification is discarded (R228; DESIGN CHOICE, log entry 117). -/
def State.readId (s : State) (w : Nat) : State := s.lcsCmd 2 fun _ s =>
  match s.idKey with
  | none => (s, 6)
  | some k =>
    let pub := Config.p384Pub k
    let (sig, s) := s.idSign (ascii "BV3232 identity" ++ toBE 2 s.part.code ++ toBE 1 s.lcs.life.code ++ toBE 4 s.div ++ pub)
    let (s, good) := s.signCheck
    if !good then (s, 6) else
    let (s, ok) := s.dmaWrite w (s.reg64 Reg.LCS_ADDR_LO 0) (pub ++ sig)
    (s, if ok then 0 else 8)
def execReadId (window : Nat) (s : State) := live s fun s => (s.lcsArgs none (window % 16)).readId (window % 16)

/-- Read n bytes of command data from a window: STATUS 8 where it is not allowed. -/
def State.lcsRead (s : State) (w n : Nat) (f : State → State × Nat) : State × Nat :=
  let (s, ok) := s.dmaRead w (s.reg64 Reg.LCS_ADDR_LO 0) n
  if ok then f s else (s, 8)

/-- WRITE_ROOT_HASH, in BLANK or FACTORY, once. -/
def State.writeRootHash (s : State) (w : Nat) (d : Bytes) : State := s.lcsCmd 3 fun hit s =>
  if !s.lifeIn 0 1 then (s, 1)
  else if s.lcs.otp.rootHash.isSome && !hit then (s, 4)
  else s.lcsRead w 48 fun s => (s.setOtp { s.lcs.otp with rootHash := some (otpPut s.lcs.otp.rootHash (sliceB d 0 48)) }, 0)
def execWriteRootHash (window : Nat) (d : Bytes) (s : State) := live s fun s => (s.lcsArgs none (window % 16)).writeRootHash (window % 16) d

/-- WRITE_IMAGE_KEY, before SCRAP, once a slot. -/
def State.writeImageKey (s : State) (slot w : Nat) (d : Bytes) : State := s.lcsCmd 4 fun hit s =>
  if !s.lifeIn 0 3 then (s, 1)
  else if (s.lcs.otp.imageKey.get none slot).isSome && !hit then (s, 4)
  else s.lcsRead w 48 fun s =>
    let key := otpPut (s.lcs.otp.imageKey.get none slot) (sliceB d 0 48)
    ((s.setOtp { s.lcs.otp with imageKey := s.lcs.otp.imageKey.set none slot (some key) }).log 0x16 0 Ty.LCS 0 0 slot, 0)
def execWriteImageKey (slot window : Nat) (d : Bytes) (s : State) := live s fun s =>
  (s.lcsArgs (some (slot % 4)) (window % 16)).writeImageKey (slot % 4) (window % 16) d

/-- REVOKE_IMAGE_KEY, in FIELD or RETURN. (DEDUCED, log entry 44) -/
def State.revokeImageKey (s : State) (slot : Nat) : State := s.lcsCmd 5 fun _ s =>
  if !s.lifeIn 2 3 then (s, 1)
  else ((s.setOtp { s.lcs.otp with revoked := setBitOf s.lcs.otp.revoked slot true }).log 0x16 0 Ty.LCS 0 0 (slot + 256), 0)
def execRevokeImageKey (slot : Nat) (s : State) := live s fun s =>
  (s.lcsArgs (some (slot % 4)) (s.fld Reg.LCS_CMD_WINDOW 0)).revokeImageKey (slot % 4)

/-- WRITE_SUBSYS, in BLANK or FACTORY, once. -/
def State.writeSubsys (s : State) (w : Nat) (d : Bytes) : State := s.lcsCmd 6 fun hit s =>
  if !s.lifeIn 0 1 then (s, 1)
  else if s.lcs.otp.subsys.isSome && !hit then (s, 4)
  else s.lcsRead w 4 fun s => (s.setOtp { s.lcs.otp with subsys := some (leAt d 0 4 ||| s.lcs.otp.subsys.getD 0) }, 0)
def execWriteSubsys (window : Nat) (d : Bytes) (s : State) := live s fun s => (s.lcsArgs none (window % 16)).writeSubsys (window % 16) d

/-- LOG_APPEND of LOG_SW's CODE and DETAIL. -/
def State.logSw (s : State) : State := s.lcsCmd 7 fun _ s =>
  (s.log (s.fld Reg.LCS_LOG_SW_CODE 0) 0 Ty.LCS 0 0 (s.fld Reg.LCS_LOG_SW_DETAIL 0), 0)
def execLogAppend (s : State) := live s fun s => s.logSw

/-! ## Tamper monitors (R486 to R489) -/

/-- SRC_CFG fields of a monitor. -/
def State.monEn (s : State) (i : Nat) : Bool := s.on Reg.TAMP_SRC_CFG_EN 0 (4 * i) && !bitOf s.lcs.otp.fuse i
def State.monResp (s : State) (i : Nat) : Nat := s.fld Reg.TAMP_SRC_CFG_RESPONSE 0 (4 * i)
def State.monFilt (s : State) (i : Nat) : Nat := s.fld Reg.TAMP_SRC_CFG_FILT 0 (4 * i)

/-- VOLT is judged from 1 ms after POR_N's release (R521). -/
def State.voltArmed (s : State) : Bool := decide (1250000 ≤ s.now)

/-- A monitor that can have an event now: enabled, not fused, and on battery one of those that run there; VOLT once armed. -/
def State.monLive (s : State) (i : Nat) : Bool :=
  s.monEn i && (if s.off then decide (2 ≤ i) else i != 0 || s.voltArmed)

/-- TAMPER_EVENT (R485, R487): the response, and the record. -/
def State.tamperEvent (s : State) (i : Nat) : State :=
  let zero := s.monResp i == 2
  let e (src : Nat) : Bytes := logEntry s 0x10 (if zero then 3 else 0) Ty.TAMP 0 src i false
  if s.off then
    let s := if zero then { s with lcs := { s.lcs with vbat := { s.lcs.vbat with secret := none } } } else s
    s.batterySlot (e (if zero then 5 else 4))
  else
    let src := if zero then 5 else 4
    let s := s.count Reg.TAMP_EVENTS 0
    let s := if s.monResp i == 1 then s.intSet Ty.TAMP 0 0 else s
    (s.logPut (e src)).raise Ty.TAMP 0 src i 0

/-- Alarms that fall in one cycle (R445): where one of them is a ZEROISE, each other response of lower rank is superseded. -/
def State.supersede (s : State) (l : List Nat) : State :=
  let z := l.countP fun i => s.monResp i == 2
  let low := l.countP fun i => s.monResp i == 1
  if z != 0 && !s.off then s.countN Reg.BIN_SUPERSEDED 0 low else s

/-- TAMPER_SAMPLE (R486): the conditions that hold, the levels of TAMP_IN[3:0] in place of those of monitors 5 to 8; one count of the
RTC. Monitors with FILT 0 raise at the first sample, with FILT n at the n-th in a row; a condition whose event a fast detector
raised before raises none again while it holds. BAT_LOW sets as the BAT condition rises (R501). (DEDUCED, log entry 43) -/
def State.tamperSample (s : State) (conds tin : Nat) : State :=
  let v := s.lcs.vbat
  let v := if v.frac == 32767 then { v with frac := 0, sec := (v.sec + 1) % 2 ^ 40 } else { v with frac := v.frac + 1 }
  let now (i : Nat) : Bool :=
    if 5 ≤ i && i ≤ 8 then bitOf tin (i - 5) != (s.fld Reg.TAMP_SRC_CFG_LEVEL 0 (4 * i) == 1)
    else bitOf conds i || (i < 2 && s.monFilt i != 0 && bitOf s.lcs.latched i)
  let mask := (List.range 10).foldl (fun a i => a + if now i && !bitOf s.lcs.otp.fuse i && !(s.off && i < 2) then 2 ^ i else 0) 0
  let run := (List.range 10).foldl (fun (t : Tbl Nat) i =>
    t.set 0 i (if bitOf mask i && s.monLive i then min 255 (s.lcs.run.get 0 i + 1) else 0)) s.lcs.run
  let was (i : Nat) : Bool := bitOf s.lcs.raised i || (i < 2 && s.monFilt i == 0 && bitOf s.lcs.latched i)
  let fire := (List.range 10).filter fun i =>
    bitOf mask i && s.monLive i && s.lcs.test != some i && !was i && decide (max 1 (s.monFilt i) ≤ run.get 0 i)
  let held := (List.range 10).foldl (fun a i => a + if bitOf mask i && (was i || fire.contains i) then 2 ^ i else 0) 0
  let s := if bitOf mask 9 && !bitOf s.lcs.cond 9 && !s.off then s.intSet Ty.TAMP 0 2 else s
  let s := { s with lcs := { s.lcs with vbat := v, cond := mask, run := run, latched := 0, raised := held } }
  fire.foldl State.tamperEvent (s.supersede fire)
def execTamperSample (conds tin : Nat) (s : State) := always s fun s => s.tamperSample (conds % 1024) (tin % 16)

/-- TAMPER_FAST_DETECT of VOLT (0) or CLOCK (1): with FILT 0 the event at once, else latched for the next sample. -/
def State.fastDetect (s : State) (i : Nat) : State :=
  if s.off || !s.monLive i then s
  else
    let t := { s with lcs := { s.lcs with latched := setBitOf s.lcs.latched i true } }
    if s.monFilt i != 0 then t
    else if s.lcs.test == some i || bitOf s.lcs.raised i then s
    else t.tamperEvent i
def execTamperFastDetect (i : Nat) (s : State) := always s fun s => s.fastDetect (i % 2)

/-- TAMP_CMD with its STATUS. (DEDUCED, log entry 44) -/
def State.tampCmd (s : State) (src op : Nat) (f : State → State × Nat) : State :=
  let (s, st) := f s
  let s := s.setReg Reg.TAMP_CMD 0 (src + op * 16 + st * 2 ^ 24)
  (if st == 0 then s else s.count Reg.TAMP_CFG_REJECT 0).intSet Ty.TAMP 0 3

/-- TAMP_FUSE. -/
def State.tampFuse (s : State) (src : Nat) : State := s.tampCmd src 1 fun s =>
  if !s.lifeIn 0 1 then (s, 1)
  else if 9 < src then (s, 3)
  else if bitOf s.lcs.otp.fuse src then (s, 0)
  else
    let s := s.setOtp { s.lcs.otp with fuse := setBitOf s.lcs.otp.fuse src true }
    let s := s.setFlag Reg.TAMP_SRC_CFG_EN 0 false (4 * src)
    (s.log 0x15 0 Ty.TAMP 0 0 src, 0)
def execTampFuse (src : Nat) (s : State) := live s fun s => s.tampFuse (src % 16)

/-- TAMP_TEST. (DEDUCED, log entry 44) -/
def State.tampTest (s : State) (src : Nat) : State := s.tampCmd src 2 fun s =>
  if s.lcs.test.isSome then (s, 2)
  else if 9 < src || !s.monEn src then (s, 3)
  else ({ s with lcs := { s.lcs with test := some src } }.count Reg.TAMP_TESTS 0, 0)
def execTampTest (src : Nat) (s : State) := live s fun s => s.tampTest (src % 16)

/-- TAMP_TEST_END: whether the detector has detected; a real condition that still holds raises its event. -/
def State.testEnd (s : State) (detected : Bool) : State :=
  match s.lcs.test with
  | none => s
  | some i =>
    let s := { s with lcs := { s.lcs with test := none } }
    let r := s.reg Reg.TAMP_TEST_STS 0
    let s := s.setReg Reg.TAMP_TEST_STS 0 (setBitOf (setBitOf r i detected) (16 + i) !detected)
    let s := if detected then s else (s.intSet Ty.TAMP 0 1).raise Ty.TAMP 0 3 i 0
    if bitOf s.lcs.cond i && !bitOf s.lcs.raised i then
      { s with lcs := { s.lcs with raised := setBitOf s.lcs.raised i true } }.tamperEvent i
    else s
def execTampTestEnd (detected : Bool) (s : State) := live s fun s => s.testEnd detected

/-- A write of SRC_CFG[i]: ignored and counted while LOCK is 1; a fused monitor's EN stays 0. -/
def State.srcCfgWrite (s : State) (i v : Nat) : State :=
  if s.flag Reg.TAMP_CTL_LOCK 0 then s.count Reg.TAMP_CFG_REJECT 0 else
  let v := if 5 ≤ i && i ≤ 8 then v else setBitOf v 12 false
  s.plainWrite (Reg.TAMP_SRC_CFG.at 0 + 4 * i) (if bitOf s.lcs.otp.fuse i then setBitOf v 0 false else v)

/-- RTC_TRIM is stored within ±5,000 (R500). -/
def rtcTrimOf (v : Nat) : Nat :=
  let x := v % 2 ^ 16
  if x < 2 ^ 15 then min x 5000 else max x (2 ^ 16 - 5000)

/-- RTC_SET (R484). (DEDUCED, log entry 43) -/
def State.rtcSet (s : State) (sec : Nat) : State :=
  { s with lcs := { s.lcs with vbat := { s.lcs.vbat with sec := sec % 2 ^ 40, frac := 0, rtcValid := true } } }
def execRtcSet (sec : Nat) (s : State) := live s fun s => s.rtcSet sec

/-! ## The debug port (R493, R496, R502) -/

/-- The port is open: every state but FIELD (R495). -/
def State.portOpen (s : State) : Bool := s.lcs.life != .field

/-- The SCOPE of the unlock in force. -/
def State.scope (s : State) : Nat := match s.lcs.unlock with
  | some (sc, _) => sc
  | none => 0

/-- TAP_INSTRUCTION: a test instruction needs the port open or SCOPE bit 3; a code of the table or any other selects itself or
BYPASS. (PRESUMED, log entry 46) -/
def State.tapInstr (s : State) (ir : Nat) : State :=
  let put (s : State) (i : Nat) : State := { s with lcs := { s.lcs with ir := i } }
  if ir == 0xFF || ir == 1 || ir == 2 || ir == 0x20 then put s ir
  else if ir == 0 || (6 ≤ ir && ir ≤ 9) then
    if s.portOpen || bitOf s.scope 3 then put s ir else (put s 0xFF).count Reg.DBG_REFUSED 0
  else put s 0xFF
def execTapInstruction (ir : Nat) (s : State) := live s fun s => s.tapInstr (ir % 256)

/-- A fresh challenge. -/
def State.newChallenge (s : State) : State :=
  let (d, s) := s.drawBytes 32
  { s with lcs := { s.lcs with challenge := d } }
def execChalNew (s : State) := live s fun s => s.newChallenge

/-- DBG_RELOCK. -/
def execDbgRelock (s : State) := live s fun s => s.unlockEnd

/-- UNLOCK_EXPIRY. -/
def execUnlockExpiry (s : State) := live s fun s =>
  match s.lcs.unlock with
  | some (_, t) => if t ≤ s.tm.tickNo then s.unlockEnd else s
  | none => s

/-- TOKEN_FIFO_WRITE. -/
def State.tokenWord (s : State) (v : Word) : State := { s with lcs := { s.lcs with fifo := s.lcs.fifo ++ [v] } }
def execTokenFifoWrite (v : Word) (s : State) := live s fun s => s.tokenWord v

/-- The STATUS of a token; one whose SCOPE or DURATION lies outside R496 is answered as one whose SIG_DEBUG fails. (DEDUCED, log entry 44) -/
def State.tokenStatus (s : State) (l : List Word) : Nat :=
  let d := l.flatMap fun w => toBE 4 w.toNat
  let id := match s.idKey with
    | some k => Config.p384Pub k
    | none => []
  let debugPub := sliceB d 97 97
  if s.lcs.blocked then 6
  else if s.lcs.life != .field then 5
  else if l.length != 99 || beAt d 394 2 != 0 then 1
  else if some (Config.sha384 (sliceB d 0 97)) != s.lcs.otp.rootHash then 2
  else if !Config.p384Verify (sliceB d 0 97) (ascii "BV3232 debug key" ++ debugPub) (sliceB d 194 96) then 3
  else if !Config.p384Verify debugPub (ascii "BV3232 debug unlock" ++ toBE 2 s.part.code ++ toBE 1 s.lcs.life.code ++ Config.sha384 id ++
      s.lcs.challenge ++ sliceB d 290 8) (sliceB d 298 96) then 4
  else if beAt d 294 4 == 0 || 86400 < beAt d 294 4 || beAt d 290 4 &&& 0x7FFFFFF0 != 0 then 4
  else 0

/-- TOKEN_SUBMIT (R496). A refusal for the block after 4 failures is no further failure. (DEDUCED, log entry 44) -/
def State.tokenSubmit (s : State) : State :=
  let l := s.lcs.fifo
  let st := s.tokenStatus l
  let d := l.flatMap fun w => toBE 4 w.toNat
  let s := { s with lcs := { s.lcs with fifo := [] } }.setFld Reg.DBG_TOKEN_CMD_STATUS 0 st
  let s := s.newChallenge
  if st == 0 then
    let scope := beAt d 290 4
    let s := { s with lcs := { s.lcs with unlock := some (scope, s.tm.tickNo + 8000 * beAt d 294 4), fails := 0
                                          retToken := s.lcs.retToken || bitOf scope 31 } }
    (s.count Reg.DBG_UNLOCKS 0).log 0x41 0 Ty.DBG 0 0 (scope % 2 ^ 24)
  else
    let s := (s.count Reg.DBG_UNLOCK_FAIL 0).log 0x42 0 Ty.DBG 0 1 st
    let s := s.raise Ty.DBG 0 1 0 st
    if st == 6 then s else
    let n := s.lcs.fails + 1
    { s with lcs := { s.lcs with fails := n, blocked := decide (4 ≤ n) } }
def execTokenSubmit (s : State) := live s fun s => s.tokenSubmit

/-- The unlock-timer self-check at a boundary (R503). -/
def State.dbgBoundary (s : State) : State :=
  if s.inv Ty.DBG 0 0 && s.lcs.unlock.isSome then (s.raise Ty.DBG 0 3 0 0).unlockEnd else s

/-- The effects of LCS, TAMP and DBG error sources (R499, R501, R503): LCS 0x02 names its field in LO: 0 HELPER, 1 ROOT_CA_HASH, 2 SUBSYS,
4 to 7 the image keys, 8 to 10 DIV[1..3], 11 TAMP_FUSE; LCS 0x03 leaves no identity, forced too (R442); TAMP 0x02 clears secret and
slots. (DESIGN CHOICE, log entry 133) -/
def State.lcsErr (s : State) (d : Det) : State :=
  if d.src == 3 then (s.log 0x13 2 Ty.LCS 0 3 (d.capHi % 4)).noIdentity else
  if d.forced then s else
  match d.src with
  | 2 =>
    let o := s.lcs.otp
    match d.capLo with
    | 0 => (s.setOtp { o with helper := .blank }).noIdentity
    | 11 => s.setOtp { o with fuse := 0 }
    | 1 => s.setOtp { o with rootHash := none }
    | 2 => s.setOtp { o with subsys := none }
    | k =>
      if 4 ≤ k ∧ k < 8 then s.setOtp { o with imageKey := o.imageKey.set none (k - 4) none }
      else if 8 ≤ k ∧ k < 11 then s.setOtp { o with div := o.div.insert (k - 7) none }
      else s
  | _ => s
def State.tampErr (s : State) (d : Det) : State :=
  match d.src with
  | 2 => ({ s with lcs := { s.lcs with vbat := { s.lcs.vbat with slots := [] } } }).newSecret
  | _ => s
def State.dbgErr (s : State) (d : Det) : State :=
  match d.src with
  | 3 => s.unlockEnd
  | _ => s

end Sys2Proof.Machine
end

