-- ==== Sys2Proof/Machine/Ser.lean ====
section
/-! DEFINITION. The lanes (R504 to R516, R529 to R532): step-up bring-up of mate and circuit links, mate codewords and their byte
stream, electrical idle, PRBS and injection, adaptation. Symbols, analogue values and the RS(544,514) decoder are the lane's own;
the commands bring what it hands on. -/

namespace Sys2Proof.Machine

/-- A lane at reset. (DESIGN CHOICE, log entry 6) -/
def serReset : SerS :=
  { pllLost := false, blkOk := 0, blkBad := 0, lock := false, cap := false, ready := 0, cwOk := 0, cwBad := 0, cwNext := 0, lane := 0
    rlock := false, skew := 0, trained := none, seeds := List.replicate 8 0, cur := List.replicate 8 0, idleAt := none, ownIdle := none
    prbsRun := 0, prbsReg := 0, inj := 0, injAcc := 0, tb := [], burst := 0 }

/-- A link at reset. -/
def serLinkReset : SerLink := { step := 0, swAt := 0, up := false, chunks := [], group := none, stream := [], txAt := 0, cws := [] }

/-- Lane n, and link k. -/
def State.lane (s : State) (n : Nat) : SerS := s.ser.lanes.get serReset n
def State.setLane (s : State) (n : Nat) (x : SerS) : State := { s with ser := { s.ser with lanes := s.ser.lanes.set serReset n x } }
def State.serLink (s : State) (k : Nat) : SerLink := s.ser.links.get serLinkReset k
def State.setLink (s : State) (k : Nat) (x : SerLink) : State := { s with ser := { s.ser with links := s.ser.links.set serLinkReset k x } }

/-- The lanes of a link, and the link of a lane of the mate or circuit types. -/
def linkLanes (k : Nat) : List Nat := if k == 0 then [64, 65, 66, 67] else [67 + k]
def laneLink (n : Nat) : Option Nat := if n < 64 then none else if n < 68 then some 0 else some (n - 67)

/-- The owning block asks for light on a mate or circuit link (R507, R511). -/
def State.linkWanted (s : State) (k : Nat) : Bool :=
  if k == 0 then s.on Reg.PAIR_CTL_MATE_EN 0 else s.onFld Reg.CKT_CTL_TX_MODE (k - 1) != 0

/-- A lane that may transmit (R511), and one that may receive. -/
def State.laneTx (s : State) (n : Nat) : Bool :=
  s.on Reg.SER_CTL_TX_EN n && !(decide (n < 68) && s.flag Reg.SER_CTL_IDLE n) && !(s.lane n).pllLost
def State.laneRx (s : State) (n : Nat) : Bool := s.on Reg.SER_CTL_RX_EN n && !(s.lane n).pllLost

/-! ## What the transmitters send in step-up (R506, R507, R511) -/

/-- A training block. -/
def trainBlockOf (lane st : Nat) (cap : Bool) (count : Nat) : Bytes :=
  let b := toBE 8 0x5A0FC3A596E13C78 ++ toBE 1 lane ++ toBE 1 st ++ toBE 1 (if cap then 1 else 0) ++ toBE 1 count ++ toBE 16 0
  b ++ toBE 4 (crc32c b)

/-- The blocks lane n sends in a step of its link: TRAIN or READY again and again, or the 64 STEP blocks. -/
def State.blocksOf (s : State) (n step : Nat) : List Bytes :=
  let lane := if n < 68 then n - 64 else 0
  let cap := s.flag Reg.SER_CTL_STEP_EN n
  match step with
  | 1 => [trainBlockOf lane 0 cap 0]
  | 2 => [trainBlockOf lane 1 cap 0]
  | 3 => (List.range 64).map fun i => trainBlockOf lane 2 cap (63 - i)
  | _ => []

/-- The lanes of a link send what its step asks for. -/
def State.sendBlocks (s : State) (k : Nat) : State :=
  (linkLanes k).foldl (fun (s : State) n => s.setLane n { s.lane n with tb := s.blocksOf n (s.serLink k).step }) s

/-- The length of a training burst: 128 ns of symbols at the rate that lane n resumes. -/
def burstLen (n : Nat) (high : Bool) : Nat :=
  if n < 68 then (if high then 6800 else 1320) else if high then 1328 else 332

/-- Lane n leaves electrical idle. -/
def State.wakeLane (s : State) (n : Nat) (high : Bool) : State := s.setLane n { s.lane n with burst := burstLen n high }

/-! ## Bring-up (R506, R507) -/

/-- The mate link's bytes are no longer to be had. -/
def State.linkDown (s : State) (k : Nat) : State :=
  let s := s.setLink k { s.serLink k with up := false, chunks := [], group := none, stream := [] }
  if k == 0 then s.mateDown else s

/-- Step 1: every lane sends TRAIN blocks at the low rate. -/
def State.linkTrain (s : State) (k : Nat) : State :=
  let s := s.linkDown k
  let wake := (s.serLink k).step == 0
  let s := s.setLink k { s.serLink k with step := 1 }
  (linkLanes k).foldl (fun (s : State) n =>
    let x := s.lane n
    let s := s.setLane n { serReset with
      seeds := x.seeds, cur := x.cur, pllLost := x.pllLost, inj := x.inj, injAcc := x.injAcc, prbsRun := x.prbsRun, prbsReg := x.prbsReg
      tb := s.blocksOf n 1, burst := if wake then burstLen n false else x.burst }
    let s := (s.setFlag Reg.SER_STS_HIGH_RATE n false).setFlag Reg.SER_STS_MARKER_LOCK n false
    s.laneState n 1) s

/-- The link goes to electrical idle: bring-up ends (R511, R529). -/
def State.linkIdle (s : State) (k : Nat) : State :=
  let s := s.linkDown k
  let s := s.setLink k { s.serLink k with step := 0 }
  (linkLanes k).foldl (fun (s : State) n =>
    let s := s.setLane n { s.lane n with tb := [], idleAt := none, ownIdle := none }
    ((s.setFlag Reg.SER_STS_HIGH_RATE n false).setFlag Reg.SER_STS_MARKER_LOCK n false).laneState n 5) s

/-- LINK_BRINGUP_START: a link that is wanted and stands in electrical idle. -/
def State.linkStart (s : State) (k : Nat) : State :=
  if s.linkWanted k && (s.serLink k).step == 0 && (linkLanes k).all fun n => s.laneTx n then s.linkTrain k else s
def execLinkBringupStart (link : Nat) (s : State) := live s fun s => s.linkStart (link % 5)

/-- A lane that is not UP has lost lock or has not made it in time: the link returns to step 1, and STEP_FAIL counts. (DEDUCED, log entry 47) -/
def State.stepFail (s : State) (k : Nat) : State :=
  let s := (linkLanes k).foldl (fun (s : State) n => s.count Reg.SER_STEP_FAIL n) s
  s.linkTrain k

/-- Lock lost while UP: LOCK_LOSS, source 0x04, and full bring-up (R509, R532). -/
def State.upLost (s : State) (k n : Nat) : State :=
  ((s.count Reg.SER_LOCK_LOSS n).raise Ty.SER n 4 0 0).linkTrain k

/-- The link's step after a block: READY once every lane has block lock and CAP[0], STEP after 64 READY blocks on every lane; a
partner without the high rate leaves the link LOW_ONLY. -/
def State.linkAdvance (s : State) (k : Nat) : State :=
  let x := s.serLink k
  let ls := linkLanes k
  let locked := ls.all fun n => (s.lane n).lock
  let cap := ls.all fun n => (s.lane n).cap
  if x.step == 1 && locked && cap then ls.foldl (fun (s : State) n => s.laneState n 1) ((s.setLink k { x with step := 2 }).sendBlocks k)
  else if x.step == 1 && locked then ls.foldl (fun (s : State) n => s.laneState n 6) s
  else if x.step == 2 && ls.all fun n => decide (64 ≤ (s.lane n).ready) then
    ls.foldl (fun (s : State) n => s.laneState n 2) ((s.setLink k { x with step := 3 }).sendBlocks k)
  else s

/-- TRAINING_BLOCK_RECEIVE on lane n: 32 bytes. (DEDUCED, log entry 47) -/
def State.trainBlock (s : State) (n : Nat) (b : Bytes) : State :=
  match laneLink n with
  | none => s
  | some k =>
    let st := (s.serLink k).step
    if st == 0 || 4 ≤ st || !s.laneRx n then s else
    let x := s.lane n
    let ok := b.length == 32 && beAt b 0 8 == 0x5A0FC3A596E13C78 && beAt b 28 4 == crc32c (sliceB b 0 28)
    if ok then
      let run := x.blkOk + 1
      let ready := match beAt b 9 1 with
        | 1 => x.ready + 1
        | 2 => x.ready
        | _ => 0
      let x := { x with blkOk := min 16 run, blkBad := 0, lock := x.lock || decide (16 ≤ run), cap := bitOf (beAt b 10 1) 0
                        lane := beAt b 8 1 % 4, ready := min 64 (if st == 1 then 0 else ready) }
      (((s.setLane n x).setFlag Reg.SER_STS_SIGNAL n true).setFlag Reg.SER_STS_CDR_LOCK n true).linkAdvance k
    else
      let bad := x.blkBad + 1
      let lost := x.lock && decide (4 ≤ bad)
      let s := s.setLane n { x with blkOk := 0, blkBad := min 4 bad, ready := 0, lock := x.lock && !lost }
      if lost then s.stepFail k else s
def execTrainingBlockReceive (n : Nat) (b : Bytes) (s : State) := live s fun s => s.trainBlock (n % 72) b

/-- STEP_SWITCH at the end of the COUNT 0 block: to the high rate. -/
def State.stepSwitch (s : State) (k : Nat) : State :=
  let x := s.serLink k
  if x.step != 3 then s else
  let s := s.setLink k { x with step := 4, swAt := s.tm.tickNo, txAt := 0, cws := [] }
  (linkLanes k).foldl (fun (s : State) n =>
    let s := s.setLane n { s.lane n with lock := false, blkOk := 0, blkBad := 0, cwOk := 0, cwBad := 0, rlock := false, trained := none, tb := [] }
    (s.setFlag Reg.SER_STS_HIGH_RATE n true).laneState n 3) s
def execStepSwitch (link : Nat) (s : State) := live s fun s => s.stepSwitch (link % 5)

/-- HIGH_RATE_TRAINING_DONE of a lane with the values it ends on, which are its seeds (R515). -/
def State.trainingDone (s : State) (n : Nat) (v : List Nat) : State :=
  let v := (List.range 8).map fun i => v.getD i 0 % 256
  let put (s : State) : State := s.setLane n { s.lane n with trained := some s.tm.tickNo, seeds := v, cur := v }
  match laneLink n with
  | none => if n < 32 && s.present Ty.SER n then put s else s
  | some k => if (s.serLink k).step == 4 && (s.lane n).trained.isNone then put s else s
def execHighRateTrainingDone (n : Nat) (v : List Nat) (s : State) := live s fun s => s.trainingDone (n % 72) v

/-- STEP_TIMEOUT: the link is at the high rate and not UP STEP_TIMEOUT ms after the switch (8 ticks are 1 ms). -/
def State.stepTimeout (s : State) (k : Nat) : State :=
  let x := s.serLink k
  if x.step == 4 && !x.up && (linkLanes k).any fun n => decide (x.swAt + 8 * s.fld Reg.SER_LINK_CFG_STEP_TIMEOUT n ≤ s.tm.tickNo) then s.stepFail k
  else s
def execStepTimeout (link : Nat) (s : State) := live s fun s => s.stepTimeout (link % 5)

/-- The link is UP. -/
def State.linkUp (s : State) (k : Nat) : State :=
  if (s.serLink k).up then s else
  let s := s.setLink k { s.serLink k with up := true }
  let s := (linkLanes k).foldl (fun (s : State) n => s.laneState n 4) s
  if k == 0 then s.mateAligned else s

/-- Circuit lanes that have held lock for 1 ms after start-up training are UP (R510). -/
def State.cktUp (s : State) : State :=
  [1, 2, 3, 4].foldl (fun (s : State) k =>
    let x := s.lane (67 + k)
    match x.trained with
    | some t => if (s.serLink k).step == 4 && x.idleAt.isNone && decide (t + 8 ≤ s.tm.tickNo) then s.linkUp k else s
    | none => s) s

/-! ## Mate codewords (R508, R509) -/

/-- Marker lock of the mate receiver: 4 good codewords in a row on every lane, and no two lanes more than 16 codewords apart. -/
def State.markerLock (s : State) : Bool := (linkLanes 0).all fun n => s.flag Reg.SER_STS_MARKER_LOCK n

/-- A frame that the byte stream has completed: protected, or a handshake message told by its length (R465). -/
def State.mateBytes (s : State) (f : Bytes) : State :=
  if beAt f 12 4 != crc32c (sliceB f 0 12) then s
  else if beAt f 9 1 == 1 then s.mateReceive f
  else
    let d := f.drop 16
    s.hsMessage (if d.length == 96 then 2 else if d.length == 1568 then 1 else 0) d

/-- Add a chunk to the stream: FS begins a frame; a frame that is complete is handed on, and the rest is fill. -/
def State.mateChunk (s : State) (fs : Bool) (d : Bytes) : State :=
  let x := s.serLink 0
  let st := if fs then d else if x.stream.isEmpty then [] else x.stream ++ d
  let need := 16 + beAt st 10 2
  if st.length < 16 || st.length < need then s.setLink 0 { x with stream := st }
  else (s.setLink 0 { x with stream := [] }).mateBytes (st.take need)

/-- Take the chunks of whole groups in order; a group that a lost chunk leaves incomplete is passed over once a group 17 later has
begun. `fuel` bounds the groups. -/
def State.mateAssemble (s : State) : Nat → State
  | 0 => s
  | fuel + 1 =>
    let x := s.serLink 0
    match x.group with
    | none => s
    | some g =>
      let here := [0, 1, 2, 3].filterMap fun l => (x.chunks.find (g * 4 + l)).map fun c => c
      let ahead := x.chunks.any fun c => decide (17 ≤ (c.1 / 4 + 65536 - g) % 65536) && decide ((c.1 / 4 + 65536 - g) % 65536 < 32768)
      if here.length < 4 && !ahead then s else
      let s := s.setLink 0 { x with group := some ((g + 1) % 65536), chunks := x.chunks.keep fun k _ => k / 4 != g
                                    stream := if here.length < 4 then [] else x.stream }
      let s := if here.length < 4 then s else here.foldl (fun (s : State) c => s.mateChunk c.1 c.2) s
      s.mateAssemble fuel

/-- MATE_CODEWORD_RECEIVE on lane n: the 20 header bits and the 640-byte chunk after the decoder, the decoder's verdict (0 clean,
1 corrected, 2 uncorrectable), and the lane's skew in ns behind the earliest lane. -/
def State.mateCodeword (s : State) (n hdr : Nat) (chunk : Bytes) (fec skew : Nat) : State :=
  let lk := s.serLink 0
  if lk.step != 4 || (s.lane n).trained.isNone || !s.laneRx n || (s.lane n).idleAt.isSome then s else
  let s := if fec == 1 then s.count64 Reg.SER_FEC_CORR_CW_LO n else if fec == 2 then s.count Reg.SER_FEC_UNCORR_CW n else s
  let x := s.lane n
  let cw := hdr % 65536
  let lane := hdr / 2 ^ 18 % 4
  let good := fec != 2 && (x.cwOk == 0 || cw == x.cwNext) && decide (skew ≤ 819)
  let s := s.setReg Reg.SER_DESKEW n (min skew 2047)
  let x := if good then { x with cwOk := min 4 (x.cwOk + 1), cwBad := 0, cwNext := (cw + 1) % 65536, lane := lane, rlock := bitOf hdr 17, skew := skew }
    else { x with cwOk := if fec == 2 then x.cwOk else 1, cwBad := min 8 (x.cwBad + 1), cwNext := if fec == 2 then (x.cwNext + 1) % 65536 else (cw + 1) % 65536, skew := skew }
  let s := s.setLane n x
  let was := s.flag Reg.SER_STS_MARKER_LOCK n
  let s := if decide (4 ≤ x.cwOk) && x.cwBad == 0 then s.setFlag Reg.SER_STS_MARKER_LOCK n true else s
  if was && decide (8 ≤ x.cwBad) then (if lk.up then s.upLost 0 n else s.stepFail 0) else
  let s := if s.markerLock && !lk.up && (linkLanes 0).all (fun m => (s.lane m).rlock) then s.linkUp 0 else s
  if !(s.serLink 0).up || !good then s else
  let d := xorB chunk (scrBytes ((0x3C0 + lane) * 2 ^ 48 + cw) 640)
  let y := s.serLink 0
  let s := s.setLink 0 { y with chunks := y.chunks.insert (cw * 4 + lane) (bitOf hdr 16, d), group := some (y.group.getD cw) }
  s.mateAssemble 32
def execMateCodewordReceive (n hdr : Nat) (chunk : Bytes) (fec skew : Nat) (s : State) := live s fun s =>
  s.mateCodeword (64 + n % 4) hdr chunk fec skew

/-- The chunks of a frame: FS on the first, fill after its end. -/
def chunksOf (f : Bytes) : List (Bool × Bytes) :=
  (List.range (ceilDiv f.length 640)).map fun i =>
    let d := sliceB f (640 * i) (min 640 (f.length - 640 * i))
    (i == 0, d ++ List.replicate (640 - d.length) 0)

/-- The codeword of chunk k of the stream: its header, and the chunk scrambled (R508). -/
def State.codeword (s : State) (k : Nat) (c : Bool × Bytes) : Nat × Bytes :=
  let lane := k % 4
  let cw := k / 4 % 65536
  (lane * 2 ^ 18 + (if s.markerLock then 2 ^ 17 else 0) + (if c.1 then 2 ^ 16 else 0) + cw,
    xorB c.2 (scrBytes ((0x3C0 + lane) * 2 ^ 48 + cw) 640))

/-- The mate link's codewords of the tick that ends: the frames sent in it follow each other from the tick's first whole chunk, and
9,765.625 chunks go by in a tick; all others are fill. (DEDUCED, log entry 134) -/
def State.mateLine (s : State) : State :=
  let x := s.serLink 0
  if x.step != 4 then s else
  let k0 := ceilDiv x.txAt 8
  let l := s.pair.tx.flatMap chunksOf
  s.setLink 0 { x with txAt := max (x.txAt + 78125) (8 * (k0 + l.length)), cws := l.zipIdx.map fun q => s.codeword (k0 + q.2) q.1 }

/-! ## Electrical idle and fast exit (R511, R512) -/

/-- ELECTRICAL_IDLE_DETECT on a mate or circuit lane that is UP: CDR and adaptation are kept. -/
def State.idleDetect (s : State) (n : Nat) : State :=
  match laneLink n with
  | none => s
  | some k =>
    let x := s.serLink k
    if !x.up || (s.lane n).idleAt.isSome then s else
    let s := ((s.setLane n { s.lane n with idleAt := some s.tm.tickNo }).setFlag Reg.SER_STS_SIGNAL n false).laneState n 5
    if k == 0 && s.pair.up then s.mateDown else s
def execElectricalIdleDetect (n : Nat) (s : State) := live s fun s => s.idleDetect (n % 72)

/-- The link carries its traffic again once neither end of any lane idles. -/
def State.linkBack (s : State) (k : Nat) : State :=
  if k == 0 && (linkLanes 0).all (fun m => (s.lane m).idleAt.isNone && (s.lane m).ownIdle.isNone) then s.mateAligned else s

/-- FAST_EXIT: the partner leaves an idle of at most IDLE_KEEP ms. (DEDUCED, log entry 41) -/
def State.fastExit (s : State) (n : Nat) : State :=
  match laneLink n, (s.lane n).idleAt with
  | some k, some t =>
    if s.tm.tickNo ≤ t + 8 * s.fld Reg.SER_LINK_CFG_IDLE_KEEP n && (s.serLink k).up then
      let s := ((s.setLane n { s.lane n with idleAt := none }).laneState n (if (s.lane n).ownIdle.isSome then 5 else 4)).count Reg.SER_IDLE_EXITS n
      s.linkBack k
    else s
  | _, _ => s
def execFastExit (n : Nat) (s : State) := live s fun s => s.fastExit (n % 72)

/-- IDLE_KEEP_EXPIRY: an idle of the partner or of the own transmitter has outlasted IDLE_KEEP. -/
def State.idleExpiry (s : State) (n : Nat) : State :=
  match laneLink n with
  | none => s
  | some k =>
    let x := s.lane n
    let late (t : Option Nat) : Bool := match t with
      | some t => decide (t + 8 * s.fld Reg.SER_LINK_CFG_IDLE_KEEP n < s.tm.tickNo)
      | none => false
    if (late x.idleAt || late x.ownIdle) && (s.serLink k).step != 0 then
      if (linkLanes k).any fun m => (s.lane m).ownIdle.isSome then s.linkIdle k else s.linkTrain k
    else s
def execIdleKeepExpiry (n : Nat) (s : State) := live s fun s => s.idleExpiry (n % 72)

/-- A lane of an UP link enters or leaves an idle of its own. -/
def State.ownIdleSet (s : State) (n : Nat) : State :=
  let x := s.lane n
  if !s.laneTx n then
    if x.ownIdle.isSome then s else (s.setLane n { x with ownIdle := some s.tm.tickNo }).laneState n 5
  else if x.ownIdle.isNone then s
  else ((s.setLane n { x with ownIdle := none }).wakeLane n true).laneState n (if x.idleAt.isSome then 5 else 4)

/-- A change of what keeps a link's lanes on: wanted and able, its bring-up starts; an own idle of a link that is UP keeps it for a
fast exit, and ends any other bring-up; a receiver that is powered down loses lock. (DEDUCED, log entry 134) -/
def State.linkSettle (s : State) (k : Nat) : State :=
  let ls := linkLanes k
  let x := s.serLink k
  let able := ls.all fun n => s.laneTx n
  if s.linkWanted k && able && x.step == 0 then s.linkTrain k
  else if x.step == 0 then s
  else if !s.linkWanted k || (!able && !x.up) || ls.any (fun n => (s.lane n).pllLost) then s.linkIdle k
  else match ls.find? fun n => !s.laneRx n with
    | some n =>
      if x.up then s.upLost k n
      else if x.step == 4 || (s.lane n).lock then s.stepFail k
      else s.sendBlocks k
    | none =>
      if !x.up then s.sendBlocks k else
      let was := ls.any fun n => (s.lane n).ownIdle.isSome
      let s := ls.foldl State.ownIdleSet s
      if !able && k == 0 && s.pair.up then s.mateDown
      else if able && was then s.linkBack k else s

/-! ## PLL and references (R529, R532) -/

/-- A trunk lane that is not locked takes its port down; the other lanes keep their locks. -/
def State.laneOut (s : State) (n : Nat) : State :=
  let k := s.portOf n
  s.linkChange k false false true false (setBitOf (s.laneLocks k) (n - s.prim k) false)

/-- A lane, or the reference of its slice, has lost lock: it idles; what it carries is down. -/
def State.laneLoss (s : State) (n : Nat) : State :=
  if !s.present Ty.SER n || (s.lane n).pllLost then s else
  let s := s.setLane n { s.lane n with pllLost := true }
  let s := (((s.setFlag Reg.SER_STS_CDR_LOCK n false).count Reg.SER_LOCK_LOSS n).raise Ty.SER n 3 0 0)
  match laneLink n with
  | some k => (s.linkIdle k).setLane n { s.lane n with pllLost := true }
  | none => (if n < 32 then s.laneOut n else s).laneState n 5
def execLaneLockLoss (n : Nat) (s : State) := live s fun s => s.laneLoss (n % 72)

/-- LANE_PLL_RELOCK: full bring-up. -/
def State.laneRelock (s : State) (n : Nat) : State :=
  if !(s.lane n).pllLost then s else
  let s := s.setLane n { s.lane n with pllLost := false }
  match laneLink n with
  | some k => s.linkSettle k
  | none => s.laneState n (if n < 32 then 1 else 0)
def execLanePllRelock (n : Nat) (s : State) := live s fun s => s.laneRelock (n % 72)

/-- Full bring-up of a lane (R516 RETRAIN, R530). -/
def State.laneRetrain (s : State) (n : Nat) : State :=
  match laneLink n with
  | some k => if (s.serLink k).step == 0 then s else s.linkTrain k
  | none => if n < 32 then (s.laneState n 1).laneOut n else s

/-! ## PRBS and injection (R513, R514) -/

/-- The owning block carries traffic on a lane. -/
def State.laneBusy (s : State) (n : Nat) : Bool :=
  if n < 32 then s.on Reg.TRK_PORT_CTL_EN (s.prim (s.portOf n))
  else if n < 64 then s.onFld Reg.TTX_CTL_MODE (n - 32) != 0 || s.on Reg.TRX_CTL_RX_EN (n - 32)
  else if n < 68 then s.on Reg.PAIR_CTL_MATE_EN 0
  else s.onFld Reg.CKT_CTL_TX_MODE (n - 68) != 0 || s.on Reg.CKT_CTL_RX_EN (n - 68)

/-- INJ_ONE: one transmitted bit is inverted. -/
def State.injOne (s : State) (n : Nat) : State :=
  if s.present Ty.SER n then s.setLane n { s.lane n with inj := (s.lane n).inj + 1 } else s
def execInjOne (n : Nat) (s : State) := live s fun s => s.injOne (n % 72)

/-- PRBS_CTL_WRITE: ignored and counted where it would set GEN_EN or CHK_EN over traffic. -/
def State.prbsWrite (s : State) (n v : Nat) : State :=
  if !s.present Ty.SER n then s
  else if (bitOf v 3 || bitOf v 4) && s.laneBusy n then s.count Reg.SER_CFG_REJECT n
  else
    let chk := s.on Reg.SER_PRBS_CTL_CHK_EN n
    let s := s.plainWrite (Reg.SER_PRBS_CTL.at n) v
    let s := if s.on Reg.SER_PRBS_CTL_CHK_EN n && chk then s
      else (s.setLane n { s.lane n with prbsRun := 0 }).setFlag Reg.SER_STS_PRBS_LOCK n false
    if bitOf v 5 then s.injOne n else s
def execPrbsCtlWrite (n : Nat) (v : Word) (s : State) := live s fun s => s.prbsWrite (n % 72) v.toNat

/-- The owning block is enabled while the generator runs: the generator stops. -/
def State.genStop (s : State) (n : Nat) : State :=
  if s.on Reg.SER_PRBS_CTL_GEN_EN n && s.laneBusy n then s.setFlag Reg.SER_PRBS_CTL_GEN_EN n false else s

/-- The exponents of the pattern polynomials but the last (R513): bit t of a pattern is the sum of the bits that many before it. -/
def prbsTaps (poly : Nat) : List Nat :=
  match poly with
  | 0 => [7, 6]
  | 1 => [9, 5]
  | 2 => [13, 12, 2, 1]
  | 3 => [15, 14]
  | 4 => [23, 18]
  | _ => [31, 28]

/-- The next bit of a pattern after the bits of a shift register, the latest in bit 0. -/
def prbsNext (poly reg : Nat) : Bool := (prbsTaps poly).foldl (fun a t => a != bitOf reg (t - 1)) false

/-- One received bit at the checker, compared with the pattern's next: until it has locked the checker follows the bits received, then
its own pattern. (DEDUCED, log entry 47) -/
def State.prbsBit (s : State) (n : Nat) (b : Bool) : State :=
  let x := s.lane n
  let want := prbsNext (s.fld Reg.SER_PRBS_CTL_POLY n) x.prbsReg
  let put (x : SerS) (b : Bool) : SerS := { x with prbsReg := (2 * x.prbsReg + if b then 1 else 0) % 2 ^ 31 }
  if s.flag Reg.SER_STS_PRBS_LOCK n then
    let s := (s.setLane n (put x want)).count64 Reg.SER_PRBS_BITS_LO n
    if b != want then s.count64 Reg.SER_PRBS_ERR_LO n else s
  else
    let run := if b != want then 0 else x.prbsRun + 1
    let s := s.setLane n (put { x with prbsRun := min 64 run } b)
    if 64 ≤ run then s.setFlag Reg.SER_STS_PRBS_LOCK n true else s

/-- PRBS_CHECK: received bits, and whether the checker then loses lock. -/
def execPrbsCheck (n : Nat) (bits : List Bool) (lose : Bool) (s : State) := live s fun s =>
  let n := n % 72
  if !s.on Reg.SER_PRBS_CTL_CHK_EN n || !s.on Reg.SER_CTL_RX_EN n then s else
  let s := bits.foldl (fun (s : State) e => s.prbsBit n e) s
  if lose then (s.setLane n { s.lane n with prbsRun := 0 }).setFlag Reg.SER_STS_PRBS_LOCK n false else s

/-! ## Adaptation (R515, R516) -/

/-- A lane with adaptation: not a tree instance. -/
def adaptive (n : Nat) : Bool := decide (n < 32) || decide (64 ≤ n)

/-- The difference of a quantity exceeds its limit. -/
def drifted (i seed cur ctle vga tap : Nat) : Bool :=
  let v (x : Nat) : Int := if i ≤ 1 then x else toSigned 8 x
  let lim := if i == 0 then ctle else if i == 1 then vga else tap
  decide (lim < (v cur - v seed).natAbs)

/-- The adaptation-state checker meets inverted check bits: the lane retrains (R532). -/
def State.adaptErr (s : State) (n : Nat) : State :=
  if s.inv Ty.SER n 0 then (s.raiseInv Ty.SER n 2 n 0).laneRetrain n else s

/-- ADAPT_UPDATE: the current values after an update. (DEDUCED, log entry 47) -/
def State.adaptUpdate (s : State) (n : Nat) (v : List Nat) : State :=
  if !adaptive n || !s.on Reg.SER_CTL_ADAPT_EN n || (s.lane n).trained.isNone then s else
  let s := s.adaptErr n
  let v := (List.range 8).map fun i => v.getD i 0 % 256
  let s := s.setLane n { s.lane n with cur := v }
  let x := s.lane n
  (List.range 8).foldl (fun (s : State) i =>
    if drifted i (x.seeds.getD i 0) (v.getD i 0) (s.fld Reg.SER_ADAPT_LIM_CTLE_LIM n) (s.fld Reg.SER_ADAPT_LIM_VGA_LIM n)
        (s.fld Reg.SER_ADAPT_LIM_TAP_LIM n) && !bitOf (s.reg Reg.SER_DRIFT n) i then
      (s.setReg Reg.SER_DRIFT n (setBitOf (s.reg Reg.SER_DRIFT n) i true)).count Reg.SER_DRIFT_EVENTS n
    else s) s
def execAdaptUpdate (n : Nat) (v : List Nat) (s : State) := live s fun s => s.adaptUpdate (n % 72) v

/-- ADAPT_CMD: STATUS 1 on a tree instance, 2 where the lane is not UP. -/
def State.adaptCmd (s : State) (n op index : Nat) (f : State → State) : State :=
  if !s.present Ty.SER n then s else
  let up := if n < 32 then s.portUp (s.portOf n) else s.fld Reg.SER_STS_STATE n == 4
  let st := if !adaptive n then 1 else if !up then 2 else 0
  let s := if st == 0 then f s else s
  s.setReg Reg.SER_ADAPT_CMD n (index + op * 16 + st * 2 ^ 24)

/-- ADAPT_READ. -/
def State.adaptRead (s : State) (n i : Nat) : State := s.adaptCmd n 1 i fun s =>
  let s := s.adaptErr n
  s.setReg Reg.SER_ADAPT_DATA n ((s.lane n).seeds.getD i 0 + (s.lane n).cur.getD i 0 * 256)
def execAdaptRead (n index : Nat) (s : State) := live s fun s => s.adaptRead (n % 72) (index % 8)

/-- ADAPT_RESEED. -/
def State.adaptReseed (s : State) (n i : Nat) : State := s.adaptCmd n 2 i fun s =>
  (s.setLane n { s.lane n with seeds := (s.lane n).cur }).setReg Reg.SER_DRIFT n 0
def execAdaptReseed (n : Nat) (s : State) := live s fun s => s.adaptReseed (n % 72) (s.fld Reg.SER_ADAPT_CMD_INDEX (n % 72))

/-- ADAPT_RETRAIN. -/
def State.adaptRetrain (s : State) (n i : Nat) : State := s.adaptCmd n 3 i fun s => s.laneRetrain n
def execAdaptRetrain (n : Nat) (s : State) := live s fun s => s.adaptRetrain (n % 72) (s.fld Reg.SER_ADAPT_CMD_INDEX (n % 72))

/-- Half bit times of a tick at lane n's present rate (R504), none in electrical idle. -/
def State.halfBits (s : State) (n : Nat) : Nat :=
  if !s.laneTx n || (s.lane n).ownIdle.isSome then 0
  else if n < 32 then 26562500
  else if n < 64 then (if (s.tx (n - 32)).line == 0 then 0 else 25920000)
  else match laneLink n with
    | none => 0
    | some k => match (s.serLink k).step with
      | 0 => 0
      | 4 => if k == 0 then 26562500 else 2592000
      | _ => if k == 0 then 2578125 else 648000

/-- INJ_EXP = N inverts one bit in every 2^N that the lane sends (R514). -/
def State.injRun (s : State) (n : Nat) : State :=
  let e := s.onFld Reg.SER_PRBS_CTL_INJ_EXP n
  if e == 0 then s else
  let x := s.lane n
  let t := x.injAcc + s.halfBits n
  s.setLane n { x with injAcc := t % 2 ^ (e + 1), inj := x.inj + t / 2 ^ (e + 1) }

/-- The lanes' part of a boundary: circuit lanes that become UP, links whose handshake has failed and that train afresh, and the PLL
lock detectors that ERR_INV_CHECK bit 1 makes report a loss. -/
def State.serBoundary (s : State) : State :=
  let s := s.cktUp
  let s := if (s.serLink 0).up && !s.pair.up && s.mirrorSt == 1 && (linkLanes 0).all (fun n => (s.lane n).idleAt.isNone) then s.linkTrain 0 else s
  let s := (List.range 72).foldl State.injRun s
  s.regs.foldl (fun (s : State) q =>
    if keyTy q.1 == Ty.SER && keyOff q.1 == 0x034 && bitOf q.2.toNat 1 then s.laneLoss (keyInst q.1) else s) s

/-- The effects of SER error sources (R532). -/
def State.serErr (s : State) (d : Det) : State :=
  match d.src with
  | 2 => s.laneRetrain d.inst
  | 3 => if (s.lane d.inst).pllLost then s else
    let s := s.setLane d.inst { s.lane d.inst with pllLost := true }
    match laneLink d.inst with
    | some k => (s.linkIdle k).setLane d.inst { s.lane d.inst with pllLost := true }
    | none => (if d.inst < 32 then s.laneOut d.inst else s).laneState d.inst 5
  | 4 => s.laneRetrain d.inst
  | _ => s

end Sys2Proof.Machine
end

