-- ==== Sys2Proof/Machine/Start.lean ====
section
/-! DEFINITION. Start-up and the cold resets (R477, R483, R485, R521, R533 to R537): the hardware sequence, POR_N, power cycles,
supply loss, and the loss of the backup cell. -/

namespace Sys2Proof.Machine

/-! ## Cold resets (R537) -/

/-- A TAMP register that the backup cell keeps (R488): TAMP_CTL, the SRC_CFG registers and RTC_TRIM. (DEDUCED, log entry 32) -/
def tampKept (k : Nat) : Bool :=
  keyTy k == Ty.TAMP && (keyOff k == 0x040 || (decide (0x048 ≤ keyOff k) && decide (keyOff k ≤ 0x06C)) || keyOff k == 0x084)

/-- A cold reset: every register, table, queue and pin at its reset value, but for OTP, the backup cell with the TAMP settings it
keeps, what the host's memory holds, and the level at ROLE_IN. (DEDUCED, log entry 32) (DEDUCED, log entry 45) -/
def State.cold (s : State) : State :=
  let r := State.reset
  { r with
    part := s.part, pending := s.pending, fresh := s.fresh
    regs := s.regs.keep fun k _ => tampKept k
    rwo := s.rwo.keep fun k _ => tampKept k
    lcs := { r.lcs with otp := s.lcs.otp, vbat := s.lcs.vbat, dark := s.lcs.dark }
    hif := { r.hif with mem := s.hif.mem }
    pair := { r.pair with pin := s.pair.pin } }

/-- The Logbook entry whose programming a loss of power has cut: the bits it had set. (DESIGN CHOICE, log entry 34) -/
def State.tornEntry (s : State) (torn : Option Bytes) : State :=
  match torn, s.lcs.logQ with
  | some b, _ :: _ =>
    if s.lcs.otp.log.length < 2048 then s.setOtp { s.lcs.otp with log := s.lcs.otp.log ++ [sliceB b 0 16] } else s
  | _, _ => s

/-- Reset held: POR_N asserted, or no main supplies. -/
def State.hold_ (s : State) (dark : Bool) : State := { s with lcs := { s.lcs with off := true, dark := dark } }

/-- POR_N asserted. A halted device stays halted (R444); its root is zeroised and an unlock ends all the same (R477, R496). (DESIGN CHOICE, log entry 9) (DEDUCED, log entry 32) -/
def State.porAssert (s : State) : State :=
  if s.halted then ({ s with lcs := { s.lcs with root := none } }).unlockEnd else s.cold.hold_ s.lcs.dark

/-- POR_ASSERT: a cold reset. -/
def execPorAssert (s : State) := always s State.porAssert

/-- VDD_CORE has fallen and returned; with it the main supplies are back. (DESIGN CHOICE, log entry 9) -/
def State.powerCycle (s : State) (torn : Option Bytes) : State :=
  let s := (s.tornEntry torn).cold
  { s with lcs := { s.lcs with dark := false } }

/-- POWER_CYCLE: the only way out of a halt. -/
def execPowerCycle (torn : Option (List Byte)) (s : State) := always s fun s => s.powerCycle torn

/-- The main supplies have gone. (DESIGN CHOICE, log entry 9) (DESIGN CHOICE, log entry 34) -/
def State.supplyLoss (s : State) (core : Bool) (torn : Option Bytes) : State :=
  if s.lcs.dark then s
  else
    let t := ((s.tornEntry torn).cold).hold_ true
    { t with halted := s.halted && !core }

/-- SUPPLY_LOSS: the device resets as by POR_N with no VOLT event, and the VBAT domain takes over. `core`: VDD_CORE falls below its
power-on threshold too, so that a halt ends. -/
def execSupplyLoss (core : Bool) (torn : Option (List Byte)) (s : State) := always s fun s => s.supplyLoss core torn

/-- VBAT has gone below 2.0 V with the main supplies off. -/
def State.vbatLoss (s : State) : State :=
  if !s.lcs.dark then s
  else { s with
    lcs := { s.lcs with vbat := { vbatReset with lost := true }, run := [], raised := 0, cond := 0 }
    regs := s.regs.keep fun k _ => !tampKept k
    rwo := s.rwo.keep fun k _ => !tampKept k }

/-- VBAT_LOSS: with the main supplies off, the backup cell's contents go, the TAMP settings with them. -/
def execVbatLoss (s : State) := always s State.vbatLoss

/-! ## The hardware sequence (R533, R535) -/

/-- Step 2: the append point past any torn entry (R492), the battery slots copied, and a lost backup cell noted (R483). (DESIGN CHOICE, log entry 34) -/
def State.startLog (s : State) : State :=
  let l := (s.lcs.otp.log.reverse.dropWhile fun e => e.all fun b => b == 0).reverse
  let torn := match l.reverse with
    | e :: _ => sliceB e 14 2 != toBE 2 (crc16 (sliceB e 0 14))
    | [] => false
  let s := ({ s with lcs := { s.lcs with otp := { s.lcs.otp with log := l }, torn := torn } }).slotCopy
  if s.lcs.vbat.lost then
    { s with lcs := { s.lcs with vbatLost := true, vbat := { s.lcs.vbat with lost := false } } }.log 0x14 0 Ty.LCS 0 0 0
  else s

/-- A navigator engine that fails its repair test: its spare carries the navigator, or it is lost. (DEDUCED, log entry 35) -/
def State.startNav (s : State) (c n : Nat) : State :=
  if !s.present Ty.NAV c then s else (s.setNv c n { s.nv c n with failed := some false }).spareStep c n

/-- A cipher core that fails its known-answer test leaves CORE_EN. -/
def State.startKat (s : State) (i c : Nat) : State :=
  if !s.present Ty.CIPH i || 12 ≤ c then s else
  let s := s.setFld Reg.CIPH_CTL_CORE_EN i (setBitOf (s.fld Reg.CIPH_CTL_CORE_EN i) c false)
  let s := s.setFld Reg.CIPH_TEST_KAT_FAIL i (setBitOf (s.fld Reg.CIPH_TEST_KAT_FAIL i) c true)
  (s.intSet Ty.CIPH i 6).raise Ty.CIPH i 6 c (c * 2 ^ 16)

/-- A lane whose PLL does not lock stays down (R535). -/
def State.startLane (s : State) (n : Nat) : State :=
  if !s.present Ty.SER n || (s.lane n).pllLost then s else (s.setLane n { s.lane n with pllLost := true }).raise Ty.SER n 3 0 0

/-- The battery secret is drawn whenever the domain holds none (R483), once the DRBG runs. -/
def State.startDrbg (s : State) (ok : Bool) : State :=
  if !ok then (s.raise Ty.PKA 0 4 0 0).drbgFail
  else
    let s := { s with ka := { s.ka with drbgOk := true } }
    if s.lcs.vbat.secret.isNone then s.newSecret else s

/-- POWER_ON_SEQUENCE after the release of POR_N: the Lodestone array as read; the engines (cluster, navigator) and cipher cores (pool,
core) that fail; whether the DRBG's health tests pass; the stacks that fail to train and the lanes whose PLL does not lock. An
invalid LC_STATE halts the device there. (DESIGN CHOICE, log entry 9) -/
def State.powerOn (s : State) (array : List Word) (navBad katBad : List (Nat × Nat)) (drbg : Bool) (hbmBad pllBad : List Nat) : State :=
  if s.lcs.started then s else
  let s := { s with lcs := { s.lcs with started := true, off := false, dark := false } }
  if s.halted then s else
  let s := s.startLog.lcEvaluate
  if s.halted then s else
  let s := s.lodestone array
  let s := navBad.foldl (fun (s : State) q => s.startNav (q.1 % 32) (q.2 % 16)) s
  let s := (List.range 8).foldl (fun (s : State) i => if s.present Ty.CIPH i then s.setFlag Reg.CIPH_TEST_KAT_DONE i true else s) s
  let s := katBad.foldl (fun (s : State) q => s.startKat (q.1 % 8) q.2) s
  let s := (s.startDrbg drbg).newChallenge
  let s := hbmBad.foldl (fun (s : State) i =>
    if s.present Ty.SEAL i then s.setSeal i { s.sealOf i with badStack := true } else s) s
  pllBad.foldl (fun (s : State) n => s.startLane (n % 72)) s
def execPowerOnSequence (array : List Word) (navBad katBad : List (Nat × Nat)) (drbg : Bool) (hbmBad pllBad : List Nat) (s : State) :=
  always s fun s => s.powerOn array navBad katBad drbg hbmBad pllBad

/-- PERST_DEASSERT: after the sequence the PCIe core leaves reset and the link trains; PCIE_LINK_UP tells its width and speed. (DEDUCED, log entry 56) -/
def execPerstDeassert (s : State) := live s fun s =>
  let s := s.perstEnd
  if s.lcs.started then { s with hif := { s.hif with linkUp := true } } else s

end Sys2Proof.Machine
end

