-- ==== Sys2Proof/Machine/View.lean ====
section
/-! DEFINITION. What a register read returns (R2, R6, R7, R11, R31, R406, R407 and the register tables of every chapter): the stored
word, or what the register shows of other state; and the shadows of the 64-bit pairs. -/

namespace Sys2Proof.Machine

/-- Bits from a list of flags, bit 0 first. -/
def flagBits : List Bool → Nat
  | [] => 0
  | b :: l => (if b then 1 else 0) + 2 * flagBits l

/-- A flag at a place. -/
def at_ (b : Bool) (i : Nat) : Nat := if b then 2 ^ i else 0

/-- Word i of a 64-bit quantity: 0 the _LO half. -/
def half (v i : Nat) : Nat := v / 2 ^ (32 * i) % 2 ^ 32

/-- TOP (R6). -/
def State.viewTop (s : State) (off : Nat) : Option Nat :=
  match off with
  | 0x040 => some (s.part.code * 2 ^ 16 + 0x100)
  | 0x044 =>
    let n (ty : Nat) : Nat := (List.range (fullInstances ty)).countP fun i => s.present ty i
    some (n Ty.TTX + n Ty.TRK * 2 ^ 8 + n Ty.NAV * 16 * 2 ^ 16 % 2 ^ 26 + n Ty.SEAL * 2 ^ 26 + at_ (s.present Ty.TSI 0) 28 + 2 ^ 29)
  | _ => none

/-- ERR_N asserted (R443). -/
def State.errN (s : State) : Bool :=
  s.on Reg.BIN_CTL_ERR_N_EN 0 && (s.regI Reg.BIN_SEVERE_LO 0 0 != 0 || s.regI Reg.BIN_SEVERE_LO 0 1 != 0)
def State.viewBin (s : State) (off : Nat) : Option Nat :=
  if off == 0x044 then some (flagBits [s.halted, s.errN, bitOf (s.reg Reg.BIN_FIRST_SRC 0) 15]) else none

/-- Page types whose level is 1 (R422). -/
def State.intTypes (s : State) (lo : Nat) : Nat :=
  let l := s.regs.filterMap fun (k, _) => if keyOff k == 0x018 && s.level (keyTy k) (keyInst k) then some (keyTy k) else none
  flagBits ((List.range 32).map fun i => l.contains (lo + i))

/-- HIF (R428): the window, ring or page that a SEL register names. -/
def State.viewHif (s : State) (off : Nat) : Option Nat :=
  let w := s.win (s.fld Reg.HIF_WIN_SEL_WINDOW 0)
  let r := min 143 (s.fld Reg.HIF_RING_SEL_RING 0)
  let x := s.ring r
  match off with
  | 0x04C => some (half w.base 0)
  | 0x050 => some (half w.base 1)
  | 0x054 => some w.pages
  | 0x058 => some (flagBits [w.en, w.rd, w.wr])
  | 0x064 => some (half x.offset 0)
  | 0x068 => some (half x.offset 1)
  | 0x06C => some (x.window + x.log2 * 2 ^ 4 + (if r < 8 then x.cq * 2 ^ 9 else 0) + x.vector * 2 ^ 12)
  | 0x070 => some (x.coalCnt + x.coalUs * 2 ^ 8)
  | 0x074 => some (at_ x.en 0)
  | 0x078 => some (x.devIdx + (if 80 ≤ r then x.handed % 2 ^ 15 * 2 ^ 16 else 0) + at_ x.err 31)
  | 0x07C => some (if r < 8 then x.lastSeq else 0)
  | 0x084 => some (s.hif.route (s.reg Reg.HIF_ROUTE_SEL 0))
  | 0x088 => some (s.intTypes 0)
  | 0x08C => some (s.intTypes 32)
  | _ => none

/-- CRC (R431). A CHECK of this model waits for nothing, so BUSY reads 0. (DEDUCED, log entry 38) -/
def State.viewCrc (s : State) (i off : Nat) : Option Nat :=
  if 0x060 ≤ off ∧ off < 0x06C then some 0 else
  match off with
  | 0x070 => some (half (s.crcResult i) 0)
  | 0x074 => some (half (s.crcResult i) 1)
  | _ => none

/-- RCLK_OUT[i] is squelched (R350). -/
def State.squelched (s : State) (v : Nat) : Bool :=
  let src := v % 64
  let lane := if src < 32 then some src else if src < 36 then some (36 + src) else none
  bitOf v 7 && src != 63 &&
    match lane with
    | some n => !s.present Ty.SER n || !s.flag Reg.SER_STS_CDR_LOCK n
    | none => true

/-- The ball RCLK_OUT[i] is held low: not enabled, or squelched. Else it carries the clock of SRC divided by DIV (R350). -/
def State.rclkLow (s : State) (i : Nat) : Bool :=
  let v := if i == 0 then s.reg Reg.AST_RCLK_CFG0 0 else s.reg Reg.AST_RCLK_CFG1 0
  s.halted || !s.active Ty.AST 0 || !bitOf v 6 || s.squelched v

/-- PPS_OUT at the ball is asserted (R343): for WIDTH µs from the firing, less the board delay, both in sixteenths of a ns. -/
def State.ppsAsserted (s : State) : Bool :=
  match s.tm.ppsAt with
  | some c =>
    let t : Int := ((s.now : Int) - c) * 64 / 5 + toSigned 16 (s.fld Reg.AST_PPS_ADJ_OUT 0)
    !s.halted && s.on Reg.AST_PPS_CFG_PPS_OUT_EN 0 && decide (0 ≤ t) && decide (t < s.fld Reg.AST_PPS_CFG_WIDTH 0 * 16000)
  | none => false

/-- The level of the ball PPS_OUT (R343). -/
def State.ppsPin (s : State) : Bool := s.ppsAsserted != s.flag Reg.AST_PPS_CFG_PPS_OUT_POL 0

/-- The Astrolabe (R353). -/
def State.viewAst (s : State) (off : Nat) : Option Nat :=
  let dsts (d : Nat) : Nat := at_ (s.dom d).hold 0 + s.accNow d * 2 ^ 16
  let rclk (r : RegId) : Nat := setBitOf (s.reg r 0) 8 (s.squelched (s.reg r 0))
  match off with
  | 0x040 => some (at_ s.tm.free 0 + s.tm.active * 2 + at_ (s.tm.resid != 0) 2 + at_ s.tm.slewing 3 +
      s.reg Reg.AST_STS 0 / 16 * 16)
  | 0x048 => some (half s.tick 0)
  | 0x04C => some (half s.tick 1)
  | 0x050 => some (half s.tm.e 0)
  | 0x054 => some (half s.tm.e 1)
  | 0x058 => some (half s.lcs.vbat.h 0)
  | 0x05C => some (half s.lcs.vbat.h 1)
  | 0x068 => some (ofSigned 32 (s.tm.resid.tdiv nsU))
  | 0x078 => some (rclk Reg.AST_RCLK_CFG0)
  | 0x07C => some (rclk Reg.AST_RCLK_CFG1)
  | 0x088 => some (dsts 0)
  | 0x0C8 => some (dsts 1)
  | 0x0A0 => some (setBitOf (s.reg Reg.AST_ADJ_CTL 0) 30 (s.dom 0).adj.isSome)
  | 0x0E0 => some (setBitOf (s.rd (Reg.AST_ADJ_CTL.at 0 + 0x40)).toNat 30 (s.dom 1).adj.isSome)
  | _ => none

/-- The Almanac (R218). -/
def State.viewAlm (s : State) (off : Nat) : Option Nat :=
  let win (i : Nat) : Nat := (s.alm.navWin.get 0 (s.fld Reg.ALM_NAV_WIN_SEL_CLUSTER 0 * 4 + i)).toNat
  let slice (sl : Nat) : Nat := (s.hotOf sl).length + s.pinnedIn sl * 2 ^ 13
  match off with
  | 0x064 => some (at_ s.storeOk 0 + flagBits ((List.range 4).map fun i => (s.alm.isk.get none i).isSome) * 2 +
      at_ (s.tm.free || s.alm.refuse != 0) 5)
  | 0x09C => some (win 0)
  | 0x0A0 => some (win 1)
  | 0x0A4 => some (win 2)
  | 0x0B0 => some (slice 0)
  | 0x0B4 => some (slice 1)
  | 0x0B8 => some (slice 2)
  | 0x0BC => some (slice 3)
  | _ => none

/-- PKA (R223). -/
def State.viewPka (s : State) (off : Nat) : Option Nat :=
  match off with
  | 0x074 => some ((s.ka.anchorsIn.getD s.ka.anchors).length + (s.ka.denyIn.getD s.ka.deny).length * 2 ^ 5 +
      (s.ka.chainIn.getD s.ka.chain).length * 2 ^ 18)
  | 0x078 => some (s.sessions + at_ s.ka.drbgOk 11)
  | _ => none

/-- LCS (R498). -/
def State.viewLcs (s : State) (off : Nat) : Option Nat :=
  let o := s.lcs.otp
  match off with
  | 0x040 => some (s.lcs.life.code % 8 + s.lcs.life.pattern * 2 ^ 8 + at_ s.lcs.root.isSome 16 + at_ o.rootHash.isSome 17 + at_ s.lcs.vbatLost 18 +
      at_ (decide (2048 ≤ o.log.length)) 19 + at_ (decide (2032 ≤ o.log.length)) 20 + at_ s.lcs.torn 21)
  | 0x050 => some o.log.length
  | 0x054 => some (flagBits ((List.range 4).map fun i => (o.imageKey.get none i).isSome) + o.revoked % 16 * 16)
  | _ => none

/-- TAMP (R500). -/
def State.viewTamp (s : State) (off : Nat) : Option Nat :=
  let v := s.lcs.vbat
  if off == 0x044 then
    some (s.lcs.cond + at_ v.rtcValid 16 + at_ v.secret.isSome 17 + v.slots.length * 2 ^ 18 + at_ s.lcs.test.isSome 22)
  else if 0x048 ≤ off ∧ off ≤ 0x06C then
    let w := (s.rd (regKey Ty.TAMP 0 off)).toNat
    let fused := bitOf s.lcs.otp.fuse ((off - 0x048) / 4)
    some (setBitOf (if fused then setBitOf w 0 false else w) 3 fused)
  else if off == 0x078 then some (half v.sec 0)
  else if off == 0x07C then some (half v.sec 1)
  else if off == 0x080 then some v.frac
  else if 0x100 ≤ off ∧ off < 0x180 then some (beAt (v.slots.getD ((off - 0x100) / 16) []) (off % 16) 4)
  else none

/-- DBG (R502). -/
def State.viewDbg (s : State) (off : Nat) : Option Nat :=
  if off == 0x040 then
    let port := if s.portOpen then 1 else if s.lcs.unlock.isSome then 2 else 0
    some (port + s.scope % 16 * 4 + at_ (bitOf s.scope 31) 6 + s.lcs.fails % 8 * 2 ^ 7 + at_ s.lcs.blocked 10)
  else if 0x048 ≤ off ∧ off < 0x068 then some (beAt s.lcs.challenge (off - 0x048) 4)
  else if off == 0x068 then
    match s.lcs.unlock with
    | some (_, e) => some (ceilDiv (e - s.tm.tickNo) 8000)
    | none => some 0
  else none

/-- PAIR (R472). -/
def State.viewPair (s : State) (off : Nat) : Option Nat :=
  match off with
  | 0x044 => some (setBitsOf (s.reg Reg.PAIR_STS 0) 9 1 ((s.assoc 28704).cur % 2))
  | 0x094 => some (ceilDiv s.pair.held 1024)
  | _ => none

/-- BUF (R298). -/
def State.viewBuf (s : State) (off : Nat) : Option Nat :=
  match off with
  | 0x064 => some (flagBits ((List.range 4).map fun b => s.buf.spilling.get false b) + at_ s.buf.full 4)
  | 0x078 => some s.spillPages
  | 0x07C => some s.spillFree
  | 0x080 => some (s.bankFree 0)
  | 0x084 => some (s.bankFree 1)
  | 0x088 => some (s.bankFree 2)
  | 0x08C => some (s.bankFree 3)
  | _ => none

/-- TTX (R69). -/
def State.viewTtx (s : State) (t off : Nat) : Option Nat :=
  if off == 0x064 then
    some ((if s.halted then 0 else (s.tx t).line) + flagBits [s.tm.free, !s.isActive, s.tm.lineErr != 0 || s.tm.resid != 0] * 4 +
      s.reg Reg.TTX_STS t / 32 % 2 * 32)
  else none

/-- TRX (R107). -/
def State.viewTrx (s : State) (t off : Nat) : Option Nat :=
  if off == 0x064 then
    let m := s.mapAt t s.tm.m
    let disc := match m with
      | some x => !x.windows.isEmpty
      | none => false
    some (flagBits [s.rxOn t, !s.isActive, m.isSome, disc, s.isNamed .preamble t 0])
  else none

/-- SXT (R161). -/
def State.viewSxt (s : State) (t off : Nat) : Option Nat :=
  match off with
  | 0x064 =>
    let op := s.terms.countP fun (k, x) => k / 512 == t && x.valid && x.st == .operational
    some (spanOf (s.windowNow t) (s.fixBase t) + at_ (!s.isActive) 3 + at_ (s.sx t).darkTest.isSome 4 + dslotOf (s.discPre t) * 2 ^ 8 +
      op * 2 ^ 16)
  | 0x070 => some (ofSigned 26 (eqdDiscOf (s.fld Reg.ORR_TREE_CFG_D (t / 8) (4 * (t % 8))) (s.fld Reg.SXT_REACH_CFG_MIN t)))
  | 0x074 => some (s.resvMax t)
  | _ => none

/-- CIPH (R223). -/
def State.viewCiph (s : State) (i off : Nat) : Option Nat :=
  if off == 0x064 then
    let busy := flagBits ((List.range 12).map fun c => (s.core i c).run.isSome)
    some (busy + (s.pool i).parked.length * 2 ^ 12 + ceilDiv (s.pool i).missUsed 1024 * 2 ^ 21)
  else none

/-- FWD (R271). -/
def State.viewFwd (s : State) (sl off : Nat) : Option Nat :=
  if off == 0x064 then
    let x := s.fw sl
    let stash := x.tab.countP fun e => decide (stash0 ≤ e.1)
    some (x.tab.length + stash * 2 ^ 19 + at_ x.sweep.isSome 24 + at_ x.moved 25 + at_ x.parity 26)
  else none

/-- GATE (R302). -/
def State.viewGate (s : State) (i off : Nat) : Option Nat :=
  let x := s.gt i
  let e := s.fld Reg.GATE_LIST_IDX_ENTRY i
  let ent : Nat × Nat := if s.flag Reg.GATE_LIST_IDX_LIST i then
      match x.act with
      | some l => l.ents.getD e (0, 0)
      | none => (0, 0)
    else (x.adminAt e % 256, x.adminAt e / 256)
  match off with
  | 0x048 =>
    let gates := match s.gateList i with
      | some l => l.gates x.entry
      | none => 255
    some (gates + x.entry % 256 * 2 ^ 8 + at_ x.pend.isSome 16 + at_ s.noTime 17 + at_ x.act.isSome 18)
  | 0x068 => some ent.1
  | 0x06C => some ent.2
  | _ => none

/-- TSI (R332). -/
def State.viewTsi (s : State) (off : Nat) : Option Nat :=
  if off == 0x064 then
    some (s.tsi.active + at_ s.tsi.armed.isSome 1 + at_ s.tsi.verify.isSome 2 + s.assignOpen * 16 % 2 ^ 19)
  else none

/-- NAV (R382). -/
def State.viewNav (s : State) (c off : Nat) : Option Nat :=
  if off == 0x068 then
    let f (p : NavE → Bool) : Nat := flagBits ((List.range 16).map fun n => p (s.nv c n))
    some (f (·.run) + f (fun e => e.run && e.wait.isSome) * 2 ^ 16)
  else none

/-- QMAP (R385): the committed values of the region that REGION_SEL names. -/
def State.viewQmap (s : State) (i off : Nat) : Option Nat :=
  let x := s.qreg i (if i == 32 then 0 else s.fld Reg.QMAP_REGION_SEL_NAV i) (s.fld Reg.QMAP_REGION_SEL_REGION i)
  let ext (v : Nat) : Nat := if i == 32 then v / 2 ^ 26 % 256 else 0
  match off with
  | 0x044 => some (x.base % 2 ^ 26 * 64)
  | 0x048 => some (x.limit % 2 ^ 26 * 64)
  | 0x04C => some x.cfg
  | 0x070 => some (ext x.base)
  | 0x074 => some (ext x.limit)
  | _ => none

/-- SER (R530): bits and registers that a lane's type does not have read 0; a halted device's transmitters stand in electrical idle
(R444). (DEDUCED, log entry 134) -/
def State.viewSer (s : State) (n off : Nat) : Option Nat :=
  match off with
  | 0x040 => if n < 64 then some (setBitOf (s.reg Reg.SER_CTL n) 5 false) else none
  | 0x044 => if s.halted then some (setBitsOf (s.reg Reg.SER_STS n) 3 3 5) else none
  | 0x050 | 0x058 | 0x05C => if adaptive n then none else some 0
  | _ => none

/-- The registers of an instance that show state held elsewhere. -/
def State.viewBlock (s : State) (ty i off : Nat) : Option Nat :=
  match ty with
  | 0x00 => s.viewTop off
  | 0x01 => s.viewBin off
  | 0x02 => s.viewHif off
  | 0x03 => if off == 0x070 then some s.slotBytes else none
  | 0x04 => s.viewCrc i off
  | 0x05 => s.viewAst off
  | 0x06 => s.viewAlm off
  | 0x07 => s.viewPka off
  | 0x08 => s.viewLcs off
  | 0x09 => s.viewTamp off
  | 0x0A => s.viewDbg off
  | 0x0B => s.viewPair off
  | 0x0C => if off == 0x05C then some (s.treeNodes i) else none
  | 0x0D => s.viewBuf off
  | 0x10 => s.viewTtx i off
  | 0x11 => s.viewTrx i off
  | 0x12 => s.viewSxt i off
  | 0x13 => if off == 0x064 then some (setBitOf (s.reg Reg.ORR_STS i) 16 (!s.isActive)) else none
  | 0x18 =>
    if off == 0x040 then some s.trkMode
    else if off == 0x048 then some (if s.isPrim i then s.reg Reg.TRK_PORT_STS i % 64 + 64 else s.reg Reg.TRK_PORT_STS i &&& 32) else none
  | 0x19 => if off == 0x060 then some (half (s.pnThresh i) 0) else if off == 0x064 then some (half (s.pnThresh i) 1) else none
  | 0x1A => s.viewCiph i off
  | 0x1C => s.viewFwd i off
  | 0x1E => s.viewGate i off
  | 0x21 => s.viewTsi off
  | 0x24 => s.viewNav i off
  | 0x25 => s.viewQmap i off
  | 0x28 => s.viewSer i off
  | _ => none

/-- A block register that a secondary instance of a trunk port does not have (R230, R249): it reads 0 and ignores writes. (DEDUCED, log entry 36) -/
def State.secondary (s : State) (ty i off : Nat) : Bool :=
  decide (0x040 ≤ off) && !s.isPrim i &&
  match ty with
  | 0x18 => off != 0x048
  | 0x19 => !(off == 0x06C || (decide (0x070 ≤ off) && decide (off < 0x090)) || off == 0x0F0 || off == Reg.MSEC_CFG_REJECT.off)
  | 0x1E => true
  | _ => false

/-- The common header's registers of a present page (R407): BLOCK_ID, BLOCK_VER and CAP. (DEDUCED, log entry 36) -/
def viewHeader (ty i off : Nat) : Option Nat :=
  match off with
  | 0x000 => some (ty * 2 ^ 16 + i)
  | 0x004 => some 0x0100
  | 0x008 => some 1
  | _ => none

/-- The MSI-X table (R405, R408): vector v's address, data and mask words, and the PBA after it; PRESUMED as PCIe lays them out. (PRESUMED, log entry 37) -/
def State.viewMsix (s : State) (a : Nat) : Nat :=
  if a < 0x1000 then
    if a % 16 == 12 then at_ (s.vec (a / 16)).masked 0 else (s.rd (0x0FF00000 + a)).toNat
  else if a < 0x1020 then flagBits ((List.range 32).map fun i => (s.vec ((a - 0x1000) * 8 + i)).pba)
  else 0

/-- What a read of the register at an address shows (R406): 0 for an absent page or an undefined offset. -/
def State.view (s : State) (k : Nat) : Nat :=
  if 0x0FF00000 ≤ k ∧ k < 0x0FF02000 then s.viewMsix (k - 0x0FF00000) else
  let ty := keyTy k
  let i := keyInst k
  let off := keyOff k
  if !s.present ty i || s.secondary ty i off then 0 else
  match viewHeader ty i off with
  | some v => v
  | none =>
    if (regSpec ty off).isNone then 0 else
    match s.viewBlock ty i off with
    | some v => v % 2 ^ 32
    | none => (s.plainRead k).toNat

/-! ## Reads by a master (R11) -/

/-- A register is the _LO half of a 64-bit quantity. -/
def isLo (k : Nat) : Bool := (pairLo (keyTy k)).contains (keyOff k)

/-- A register is the _HI half of one. -/
def isHi (k : Nat) : Bool := decide (4 ≤ keyOff k) && (pairLo (keyTy k)).contains (keyOff k - 4)

/-- The key of a master's pair. -/
def pairKey (master k : Nat) : Nat := master * 2 ^ 28 + k % 2 ^ 28

/-- A read of a _LO half: _HI goes into the master's shadow. -/
def State.readLo (s : State) (master k : Nat) : State × Nat :=
  ({ s with pr := { s.pr with shadow := s.pr.shadow.set 0 (pairKey master (k + 4)) (BitVec.ofNat 32 (s.view (k + 4))) } }, s.view k)

/-- A register read by a master: 0 the host, 1 + r command ring r, 9 the Eyepiece, 16 + c cluster c. -/
def State.readReg (s : State) (master k : Nat) : State × Nat :=
  if 0x0FF00000 ≤ k then (s, s.view k)
  else if !s.present (keyTy k) (keyInst k) then (s, 0)
  else if isLo k then s.readLo master k
  else if isHi k then (s, (s.pr.shadow.get 0 (pairKey master k)).toNat)
  else (s, s.view k)

/-- What a host read returned (R406). (DEDUCED, log entry 30) -/
def State.answer (s : State) (l : List Nat) : State := { s with hif := { s.hif with readBack := l.map (BitVec.ofNat 32 ·) } }

/-- LO_REGISTER_READ: a read of the _LO half of a pair copies _HI into the master's shadow; one of an absent page answers 0 (R2). (DEDUCED, log entry 30) -/
def State.loRead (s : State) (master addr cycle : Nat) : State :=
  if !isLo addr then s else
  let s := s.advanceTo (min cycle s.tm.len)
  let (s, v) := s.readReg master addr
  s.answer [v]
def execLoRegisterRead (master addr cycle : Nat) (s : State) := powered s fun s => s.loRead (master % 64) addr cycle

end Sys2Proof.Machine
end

