-- ==== Sys2Proof/Machine/Bin.lean ====
section
/-! DEFINITION. The Binnacle (R435 to R453): events and the effects listed for them, injection, the capture, the records; and the
block soft reset of a page (R407, R449). -/

namespace Sys2Proof.Machine

/-! ## Events -/

/-- The effect that an event's block lists for its source; a record's error takes the items held for it too (R201). The Binnacle's own source 0x02 clears the windows of the page whose type
and instance its capture word HI names; a forced one clears none (R453). -/
def State.errEffect (s : State) (d : Det) : State :=
  match d.ty with
  | 0x01 =>
    if d.src == 2 && !d.forced then
      { s with bin := { s.bin with wins := s.bin.wins.keep fun k _ => k / 32 != d.capHi / 2 ^ 16 % 2 ^ 16 } }
    else s
  | 0x02 => s.hifErr d
  | 0x03 => s.pmcErr d
  | 0x04 => s.crcErr d
  | 0x05 => s.astErr d
  | 0x06 => if d.src == 3 && !d.forced then (s.almErr d).heldLost (d.capLo % 2 ^ 18) else s.almErr d
  | 0x07 => s.pkaErr d
  | 0x08 => s.lcsErr d
  | 0x09 => s.tampErr d
  | 0x0A => s.dbgErr d
  | 0x0B => s.pairErr d
  | 0x0C => s.sealErr d
  | 0x0D => s.bufErr d
  | 0x10 => s.ttxErr d
  | 0x11 => s.trxErr d
  | 0x12 => s.sxtErr d
  | 0x13 => s.orrErr d
  | 0x19 => s.msecErr d
  | 0x1A => s.ciphErr d
  | 0x1C => s.fwdErr d
  | 0x1D => s.qschErr d
  | 0x1E => s.gateErr d
  | 0x20 => s.cktErr d
  | 0x21 => s.tsiErr d
  | 0x24 => s.navErr d
  | 0x25 => s.qmapErr d
  | 0x28 => s.serErr d
  | _ => s

/-- One event with its listed effect. While the device is halted it is recorded, and only a ZEROISE acts (R449). -/
def State.oneEvent (s : State) (d : Det) : State :=
  match defaultClass d.ty d.src with
  | none => s
  | some c =>
    if !s.present d.ty d.inst then s else
    let was := s.halted
    let s := s.event d c
    if was then s else s.errEffect d

/-- The class an event would take (R436, R437). -/
def State.classOf (s : State) (d : Det) : Nat :=
  match defaultClass d.ty d.src with
  | none => 0
  | some c => (s.escalate d c).2.1.code

/-- Two detections of one source in one cycle form one event (R435); a forced event and a real one form a real one (R442). -/
def oneEach : List Det → List Det
  | [] => []
  | d :: l =>
    let same := l.filter fun e => e.ty == d.ty && e.inst == d.inst && e.src == d.src
    let d := if d.forced then (same.find? fun e => !e.forced).getD d else d
    d :: (oneEach l).filter fun e => !(e.ty == d.ty && e.inst == d.inst && e.src == d.src)

/-- The order in which events of one cycle meet a page's capture: higher class first, on equal class the lower source (R438). Events
of different pages keep their order. (DEDUCED, log entry 22) -/
def State.eventOrder (s : State) (l : List Det) : List Det :=
  (oneEach l).mergeSort fun a b =>
    if a.ty == b.ty && a.inst == b.inst then
      decide (s.classOf b < s.classOf a) || (s.classOf a == s.classOf b && decide (a.src ≤ b.src))
    else true

/-- The rank of an event's response (R445): 1 ZEROISE, 2 HALT, 4 INTERRUPT, 5 LOG. (DEDUCED, log entry 22) -/
def State.rankOf (s : State) (d : Det) : Nat :=
  if s.classOf d == 3 then (if zeroises d then 1 else 2)
  else if s.classOf d == 2 then 4 else 5

/-- Responses superseded where alarms of one cycle collide (R445): each above LOG that a response of the device outranks. (DEDUCED, log entry 22) -/
def State.superseded (s : State) (l : List Det) : Nat :=
  let top := l.foldl (fun a d => min a (s.rankOf d)) 5
  if top ≤ 2 then l.countP fun d => decide (top < s.rankOf d) && s.rankOf d != 5 else 0

/-- The events of one cycle. (DEDUCED, log entry 22) -/
def State.events (s : State) (l : List Det) : State :=
  let l := s.eventOrder (l.filter fun d => s.present d.ty d.inst && (defaultClass d.ty d.src).isSome)
  let n := if s.halted then 0 else s.superseded l
  (l.foldl State.oneEvent s).countN Reg.BIN_SUPERSEDED 0 n

/-- On battery only the TAMP state machine reports (R490): the battery secret is zeroised and a slot filled, with the FATAL entry, which
has no M there. (DESIGN CHOICE, log entry 133) -/
def State.cellEvents (s : State) (evs : List Det) : State :=
  if evs.any fun d => d.ty == Ty.TAMP && d.src == 1 then
    let e := logEntry s 0x30 3 Ty.TAMP 0 1 0 false
    { s with lcs := { s.lcs with vbat := { s.lcs.vbat with secret := none } } }.batterySlot e
  else s

/-- ERR_EVENT (R435): the error sources detected in one cycle. -/
def execErrEvent (evs : List Det) (s : State) :=
  always s fun s => if s.off then s.cellEvents evs else s.events (evs.map fun d => { d with forced := false })

/-- The forced events of a word written to ERR_FORCE (R442): bit i raises source i; a bit that names no source is ignored. -/
def State.errForce (s : State) (ty inst v : Nat) : State :=
  let l := (List.range 32).filterMap fun i =>
    if i != 0 && bitOf v i && (defaultClass ty i).isSome then some (⟨ty, inst, i, 0, 0, true, none⟩ : Det) else none
  s.events l
def execErrForce (ty inst : Nat) (v : Word) (s : State) := live s fun s =>
  if s.secondary ty inst 0x030 then s else s.errForce ty inst v.toNat

/-- ESC_WINDOW_CLOSE (R437): the window of a source, at its closing boundary or after it. -/
def State.winClose (s : State) (ty inst src : Nat) : State :=
  let k := pageKey ty inst * 32 + src
  match s.bin.wins.find k with
  | some w => if w.closes ≤ s.tm.tickNo then { s with bin := { s.bin with wins := s.bin.wins.erase k } } else s
  | none => s
def execEscWindowClose (ty inst src : Nat) (s : State) := powered s fun s => s.winClose ty inst src

/-- Release of a page's capture (R438). -/
def State.captRelease (s : State) (ty inst : Nat) : State :=
  let s := ((s.setReg (Reg.ERR_FIRST ty) inst 0).setReg (Reg.ERR_CAPTURE_LO ty) inst 0).setReg (Reg.ERR_CAPTURE_HI ty) inst 0
  s.setReg (Reg.ERR_OVF ty) inst (setBitOf (s.reg (Reg.ERR_OVF ty) inst) 31 false)

/-- A write of ERR_OVF: OVF and MORE_SEVERE clear by their bits, CAPT releases the capture (R438, R451), where the bit was not set in
this cycle (R9). An event of the same cycle that found the capture held is captured afresh, and of itself sets no OVF. -/
def State.ovfWrite (s : State) (ty inst v : Nat) : State :=
  if !s.present ty inst then s else
  let old := s.reg (Reg.ERR_OVF ty) inst
  let seen := (s.seen.getD resetAt ((Reg.ERR_OVF ty).at inst)).toNat
  let new := old &&& (0xFFFFFFFF ^^^ seen)
  let left := old &&& (0xFFFFFFFF - v % 4) ||| new &&& 3
  let s := s.setReg (Reg.ERR_OVF ty) inst left
  if !bitOf v 31 || bitOf new 31 then s else
  let x := s.lateOf (pageKey ty inst)
  let s := s.captRelease ty inst
  if x.n == 0 then s else
  let s := ((s.setReg (Reg.ERR_FIRST ty) inst x.word).setReg (Reg.ERR_CAPTURE_LO ty) inst x.lo).setReg (Reg.ERR_CAPTURE_HI ty) inst x.hi
  s.setReg (Reg.ERR_OVF ty) inst (2 ^ 31 + if x.n == 1 then left &&& seen &&& (3 - v % 4) else left % 4)
def execErrCaptureRelease (ty inst : Nat) (s : State) := powered s fun s => s.ovfWrite ty inst (2 ^ 31)

/-- A write of SEVERE_LO or SEVERE_HI (R443). ERR_N follows the bits. -/
def execSevereClear (hi : Bool) (v : Word) (s : State) := powered s fun s =>
  s.plainWrite ((if hi then Reg.BIN_SEVERE_HI else Reg.BIN_SEVERE_LO).at 0) v.toNat

/-- Release of the device-wide first record (R450). -/
def State.firstRelease (s : State) : State := (s.setReg Reg.BIN_FIRST_SRC 0 0).setReg64 Reg.BIN_FIRST_TICK_LO 0 0

/-- A write of FIRST_CTL: an event of the same cycle becomes the new first record (R449). -/
def State.firstCtl (s : State) : State :=
  let x := s.lateOf 65536
  if x.n == 0 then s.firstRelease else (s.setReg Reg.BIN_FIRST_SRC 0 x.word).setReg64 Reg.BIN_FIRST_TICK_LO 0 x.lo
def execFirstRelease (s : State) := live s State.firstCtl

/-! ## Counter clears (R31, R69) -/

/-- COUNT_CTL.CLR_ALL of a page. -/
def State.clrAll (s : State) (ty inst : Nat) : State := if s.present ty inst then s.clearCounters ty inst else s
def execCountClrAll (ty inst : Nat) (s : State) := live s fun s => s.clrAll ty inst

/-- TICK_STAGE_CTL.MAX_CLR of a page. -/
def State.maxClr (s : State) (ty inst : Nat) : State :=
  if s.present ty inst && isTickStage ty then s.setReg (Reg.TICK_DONE_MAX ty) inst 0 else s
def execMaxClr (ty inst : Nat) (s : State) := live s fun s => s.maxClr ty inst

/-! ## Block soft reset (R407, R449) -/

/-- The measures of a tick stage that start again at a reset (R31). -/
def isMeasure (ty off : Nat) : Bool := isTickStage ty && decide (0x044 ≤ off) && decide (off < 0x058)

/-- The registers that a block soft reset keeps whole because their chapters say so: TAMP all but its counters (R500), NAV MIN_SVN
(R380), PAIR_CTL (R472; YIELD_EN apart), the map of a SEAL page (R402), SER_CTL and TX_EQ (R531), and the W1C words of BIN (R449). (DEDUCED, log entry 20) -/
def softKept (ty off : Nat) : Bool :=
  (decide (0x40 ≤ off) || ty == Ty.TAMP) &&
  match ty with
  | 0x01 => decide (0x048 ≤ off) && decide (off < 0x058)
  | 0x09 => true
  | 0x0B => off == Reg.PAIR_CTL.off
  | 0x0C => decide (0x048 ≤ off) && decide (off < 0x05C)
  | 0x24 => off == Reg.NAV_MIN_SVN.off
  | 0x28 => off == Reg.SER_CTL.off || off == Reg.SER_TX_EQ.off
  | _ => false

/-- A register word after a soft reset of its page: configuration and flags at their reset values, counters and the error registers
at theirs, status and RWO fields as they were. (DEDUCED, log entry 20) -/
def softWord (k : Nat) (w : Word) : Word :=
  let ty := keyTy k
  let off := keyOff k
  if isCounter ty off || isMeasure ty off || (decide (0x020 ≤ off) && decide (off < 0x040)) then resetAt k
  else if softKept ty off then w
  else match regSpec ty off with
    | none => w
    | some r => BitVec.ofNat 32 (r.fields.foldl (fun a f =>
        if f.acc == .ro || f.acc == .rwo then a else setBitsOf a f.lo f.w (bitsOf (resetAt k).toNat f.lo f.w)) w.toNat)

/-- Everything of a page that a soft reset returns in the same way on every block: its registers, its halves of R11, its windows. -/
def State.softCommon (s : State) (ty inst : Nat) : State :=
  let mine (k : Nat) : Bool := keyTy k == ty && keyInst k == inst
  { s with
    regs := s.regs.mapV resetAt fun k w => if mine k then softWord k w else w
    pr := { shadow := s.pr.shadow.keep fun k _ => !mine (k % 2 ^ 28), held := s.pr.held.keep fun k _ => !mine (k % 2 ^ 28) }
    tickWork := s.tickWork.keep fun k _ => k != pageKey ty inst
    bin := { s.bin with wins := s.bin.wins.keep fun k _ => k / 32 != pageKey ty inst } }

/-- Disarm a page's named-tick actions (R541). -/
def State.disarm (s : State) (ty inst : Nat) : State :=
  match ty with
  | 0x11 => s.unname .preamble inst 0
  | 0x19 =>
    let s := s.unname .txSa inst 0
    if s.isPrim inst then (s.setSy inst { s.sy inst with next := none, atTick := none, thrSet := false }).setFlag Reg.MSEC_STS_TX_PENDING inst false else s
  | 0x21 => s.tsiCancel
  | 0x24 => (s.unname .navBank inst 0).setFlag Reg.NAV_STS_ARMED inst false
  | _ => s

/-- What each block's chapter adds, before its registers return. (DEDUCED, log entry 20) (DEDUCED, log entry 21) (DEDUCED, log entry 56) -/
def State.softBlock (s : State) (ty inst : Nat) : State :=
  match ty with
  | 0x01 => s.firstRelease
  | 0x02 => s.hifFault 5
  | 0x03 => { s with pmc := ⟨0, 0, 0, none, []⟩ }
  | 0x04 => s.setCrc inst crcReset
  | 0x05 => s.astReset
  | 0x06 => let s := s.almExpire; { s with alm := { s.alm with navWin := [] } }
  | 0x0A => s.unlockEnd
  | 0x0B => ({ s with pair := { s.pair with roleErr := false } }).setFld Reg.PAIR_CTL_YIELD_EN 0
      (bitsOf (resetAt (Reg.PAIR_CTL.at 0)).toNat Reg.PAIR_CTL_YIELD_EN.lo 1)
  | 0x0C => s.sealSoft inst
  | 0x0D => { s with buf := { s.buf with withdrawn := [] } }
  | 0x11 => s.setFld Reg.TRX_PREAMBLE_CFG_CUR inst
      (bitsOf (resetAt (Reg.TRX_PREAMBLE_CFG.at inst)).toNat Reg.TRX_PREAMBLE_CFG_CUR.lo Reg.TRX_PREAMBLE_CFG_CUR.w)
  | 0x1E => s.setGt inst { s.gt inst with admin := [] }
  | 0x24 =>
    let s := s.navEnable inst 0
    let x := s.cluster inst
    s.setCluster inst { x with prod := 0, cons := 0, ring := 0x04000000 }
  | 0x25 => { s with qhold := s.qhold.erase inst }
  | _ => s

/-- The link of a trunk port by its enable and what its lanes and partner show. (DEDUCED, log entry 29) -/
def State.portSettle (s : State) (k : Nat) : State :=
  let v := s.reg Reg.TRK_PORT_STS (s.prim k)
  s.linkChange k (bitOf v 1) (bitOf v 2) (bitOf v 3) (bitOf v 4) (s.laneLocks k)

/-- What follows once the registers have returned: links and ports that their enables drive. (DEDUCED, log entry 20) (DEDUCED, log entry 21) -/
def State.softAfter (s : State) (ty inst : Nat) : State :=
  match ty with
  | 0x18 => s.portSettle (s.portOf inst)
  | 0x20 => s.linkSettle (1 + inst)
  | 0x28 => (s.genStop inst).laneRetrain inst
  | _ => s

/-- BLOCK_SOFT_RESET: CTL.SRST of a page. TOP ignores it. (DEDUCED, log entry 20) -/
def State.softReset (s : State) (ty inst : Nat) : State :=
  if ty == Ty.TOP || !s.present ty inst then s else
  ((((s.disarm ty inst).softBlock ty inst).softCommon ty inst).softAfter ty inst)
def execBlockSoftReset (ty inst : Nat) (s : State) := live s fun s => s.softReset ty inst

end Sys2Proof.Machine
end

