-- ==== Sys2Proof/Machine/HostWrite.lean ====
section
/-! DEFINITION. Writes of registers by a master (R7, R11, R406): what each register's write does beyond its stored word. The rows that
have a register write as their cause share their operations with it. -/

namespace Sys2Proof.Machine

/-! ## Shared forms -/

/-- A field of a written word. -/
def FldId.of (f : FldId) (v : Nat) : Nat := bitsOf v f.lo f.w

/-- The next state of an operation, or the state where it answers none. -/
def after (o : Host.Outcome State Fault Refusal) (s : State) : State :=
  match o with
  | .next t => t
  | _ => s

/-- A write of a command register: ignored while BUSY, else stored; then the operation that its OP names (none for an OP with no
operation). (DEDUCED, log entry 30) -/
def State.cmdWrite (s : State) (k v : Nat) (op : Option (State → State)) : State :=
  if bitOf (s.rd k).toNat 31 then s else
  match op with
  | none => s.plainWrite k v
  | some f => f (s.plainWrite k v)

/-- The entry of a list of operations that OP names, from 1. -/
def opOf (n : Nat) (l : List (State → State)) : Option (State → State) := if n == 0 then none else l[n - 1]?

/-- A row's operation as a change of state. -/
def asOp (f : State → Host.Outcome State Fault Refusal) (s : State) : State := after (f s) s

/-- Split descriptors of 64 bytes. -/
def descsOf (d : Bytes) : List Bytes := (List.range (d.length / 64)).map fun i => sliceB d (64 * i) 64

/-- The offset of a page's COUNT_CTL. -/
def countCtl (ty : Nat) : Option Nat :=
  match ty with
  | 0x01 => some 0x090
  | 0x02 => some 0x0C8
  | 0x03 => some 0x09C
  | 0x04 => some 0x094
  | 0x05 => some 0x1DC
  | 0x06 => some 0x0FC
  | 0x07 => some 0x0B8
  | 0x08 => some 0x06C
  | 0x09 => some 0x098
  | 0x0A => some 0x084
  | 0x0B => some 0x0D0
  | 0x0C => some 0x0A8
  | 0x0D => some 0x0B0
  | 0x10 => some 0x0C8
  | 0x11 => some 0x0FC
  | 0x12 => some 0x108
  | 0x13 => some 0x134
  | 0x18 => some 0x09C
  | 0x19 => some 0x0F0
  | 0x1A => some 0x0A8
  | 0x1C => some 0x0EC
  | 0x1D => some 0x0D4
  | 0x1E => some 0x090
  | 0x20 => some 0x0D4
  | 0x21 => some 0x0B0
  | 0x24 => some 0x0F4
  | 0x25 => some 0x06C
  | 0x28 => some 0x098
  | _ => none

/-! ## HIF (R409 to R423, R428) -/

/-- Writes of the HIF page: windows, rings and routes act on what their SEL register names. -/
def State.hifWrite (s : State) (off v : Nat) (data : Bytes) : State :=
  let k := regKey Ty.HIF 0 off
  let wi := s.fld Reg.HIF_WIN_SEL_WINDOW 0
  let w := s.win wi
  let setWin (x : Win) : State := { s with hif := { s.hif with wins := s.hif.wins.set ⟨0, 1, false, false, false⟩ wi x } }
  let r := min 143 (s.fld Reg.HIF_RING_SEL_RING 0)
  let x := s.ring r
  if 0x800 ≤ off then s.ringUse ((off - 0x800) / 4) (fun s => s.doorbell ((off - 0x800) / 4) (v % 2 ^ 16) (descsOf data)) else
  match off with
  | 0x040 => if bitOf v 0 then s.setFlag Reg.HIF_STS_QUIESCED 0 false else s
  | 0x054 => setWin { w with pages := clampNat 1 1048576 (v % 2 ^ 21) }
  | 0x058 => setWin { w with en := bitOf v 0, rd := bitOf v 1, wr := bitOf v 2 }
  | 0x06C =>
    if x.en then s.count Reg.HIF_CFG_REJECT 0
    else s.setRing r { x with window := v % 16, log2 := clampNat 4 16 (bitsOf v 4 5), cq := if r < 8 then bitsOf v 9 3 else x.cq, vector := bitsOf v 12 8 }
  | 0x070 => s.setRing r { x with coalCnt := max 1 (v % 256), coalUs := bitsOf v 8 10 }
  | 0x074 => s.ringEnable v
  | 0x084 => { s with hif := { s.hif with routes := s.hif.routes.set (255 + 256) (s.reg Reg.HIF_ROUTE_SEL 0) (v % 512) } }
  | 0x090 => s.vecEoi (v % 256)
  | _ => s.plainWrite k v

/-- Writes of the MSI-X table (R405): a vector's mask bit, and its address and data words. The PBA takes no write. (PRESUMED, log entry 37) -/
def State.msixWrite (s : State) (a v : Nat) : State :=
  if 0x1000 ≤ a then s
  else if a % 16 == 12 then
    if bitOf v 0 then
      { s with hif := { s.hif with vecs := s.hif.vecs.set ⟨false, false, true, false, 0⟩ (a / 16) { s.vec (a / 16) with masked := true } } }
    else s.vecUnmask (a / 16)
  else s.wr (0x0FF00000 + a) (BitVec.ofNat 32 v)

/-! ## Time, keys, identity -/

/-- A word of a nanosecond register of AST or GATE: ignored and counted above 999,999,999. -/
def State.nsWrite (s : State) (k v : Nat) (rej : RegId) : State :=
  if 999999999 < v % 2 ^ 30 then s.count rej (keyInst k) else s.plainWrite k v

/-- Writes of the AST page (R336 to R344, R353). -/
def State.astWrite (s : State) (off v : Nat) : State :=
  let k := regKey Ty.AST 0 off
  let d := if 0x0C0 ≤ off then 1 else 0
  let dOff := off - 0x040 * d
  if off == Reg.AST_SNAP_CTL.off then (if bitOf v 0 then s.snapshot s.tm.cycle else s)
  else if off == Reg.AST_SWITCH_CTL.off then
    let s := s.plainWrite k v
    if Reg.AST_SWITCH_CTL_START.of v == 1 then s.switchStart (Reg.AST_SWITCH_CTL_TARGET.of v) (Reg.AST_SWITCH_CTL_MODE.of v) else s
  else if 0x080 ≤ off ∧ off < 0x100 ∧ dOff == Reg.AST_DOM_CTL.off then s.domCtlWrite d v
  else if 0x080 ≤ off ∧ off < 0x100 ∧ dOff == Reg.AST_ADJ_NS.off then s.nsWrite k v Reg.AST_CFG_REJECT
  else if 0x080 ≤ off ∧ off < 0x100 ∧ dOff == Reg.AST_ADJ_CTL.off then s.adjCtlWrite d v
  else if 0x080 ≤ off ∧ off < 0x100 ∧ dOff == Reg.AST_KEEPALIVE.off then (if bitOf v 0 then s.disciplined d else s)
  else if 0x140 ≤ off ∧ off < 0x180 then
    let c := (off - 0x140) / 16
    if off % 16 == 8 then
      if 999999999 < v % 2 ^ 30 then s.count Reg.AST_CFG_REJECT 0 else (s.plainWrite k v).cmpWritten c
    else (s.plainWrite k v).cmpWritten c
  else s.plainWrite k v

/-- Writes of the ALM page (R207, R218). -/
def State.almWrite (s : State) (off v : Nat) (data : Bytes) : State :=
  let k := regKey Ty.ALM 0 off
  if off == Reg.ALM_CMD.off then
    let op := Reg.ALM_CMD_OP.of v
    s.cmdWrite k v (if 1 ≤ op ∧ op ≤ 14 then
      some fun s => s.hostSlot op (Reg.ALM_CMD_AX.of v) (Reg.ALM_CMD_POS.of v) (Reg.ALM_CMD_KSIZE.of v == 1) data else none)
  else if 0x09C ≤ off ∧ off < 0x0A8 then
    let i := s.fld Reg.ALM_NAV_WIN_SEL_CLUSTER 0 * 4 + (off - 0x09C) / 4
    match regSpec Ty.ALM off with
    | some r =>
      let old := (s.alm.navWin.get 0 i).toNat
      { s with alm := { s.alm with navWin := s.alm.navWin.set 0 i (BitVec.ofNat 32 (writtenWord r.fields false old v)) } }
    | none => s
  else s.plainWrite k v

/-- Writes of the PKA page (R223, R226). -/
def State.pkaWrite (s : State) (off v : Nat) (data : Bytes) : State :=
  let k := regKey Ty.PKA 0 off
  if off == Reg.PKA_TABLE_CMD.off then
    let w := Reg.PKA_TABLE_CMD_WINDOW.of v
    s.cmdWrite k v (opOf (Reg.PKA_TABLE_CMD_OP.of v)
      [asOp (execLoadAnchors w data), asOp (execLoadDeny w data), asOp (execLoadChain w data), asOp execClearChain])
  else if off == Reg.PKA_KA_CMD.off then
    s.cmdWrite k v (opOf (Reg.PKA_KA_CMD_OP.of v) [asOp execKaRekey, asOp execKaReagree, asOp execKaGroupRekey])
  else s.plainWrite k v

/-- Writes of the LCS page (R498). -/
def State.lcsWrite (s : State) (off v : Nat) (data : Bytes) : State :=
  let k := regKey Ty.LCS 0 off
  if off == Reg.LCS_CMD.off then
    let w := Reg.LCS_CMD_WINDOW.of v
    let n := Reg.LCS_CMD_SLOT.of v
    s.cmdWrite k v (opOf (Reg.LCS_CMD_OP.of v)
      [fun s => s.lcAdvance (Reg.LCS_CMD_TARGET.of v) data none, fun s => s.readId w, fun s => s.writeRootHash w data,
       fun s => s.writeImageKey n w data, fun s => s.revokeImageKey n, fun s => s.writeSubsys w data, State.logSw])
  else s.plainWrite k v

/-- Writes of the TAMP page (R488, R489, R500). -/
def State.tampWrite (s : State) (off v : Nat) : State :=
  let k := regKey Ty.TAMP 0 off
  if off == Reg.TAMP_CMD.off then
    let n := Reg.TAMP_CMD_SRC.of v
    s.cmdWrite k v (opOf (Reg.TAMP_CMD_OP.of v) [fun s => s.tampFuse n, fun s => s.tampTest n])
  else if 0x048 ≤ off ∧ off < 0x070 then s.srcCfgWrite ((off - 0x048) / 4) v
  else if off == Reg.TAMP_RTC_TRIM.off then s.plainWrite k (rtcTrimOf v)
  else s.plainWrite k v

/-- Writes of the DBG page (R496, R502). -/
def State.dbgWrite (s : State) (off v : Nat) : State :=
  let k := regKey Ty.DBG 0 off
  if off == Reg.DBG_CTL.off then
    let s := if Reg.DBG_CTL_RELOCK.of v == 1 then s.unlockEnd else s
    if Reg.DBG_CTL_CHAL_NEW.of v == 1 then s.newChallenge else s
  else if off == Reg.DBG_TOKEN_FIFO.off then s.tokenWord (BitVec.ofNat 32 v)
  else if off == Reg.DBG_TOKEN_CMD.off then
    s.cmdWrite k v (if Reg.DBG_TOKEN_CMD_SUBMIT.of v == 1 then some State.tokenSubmit else none)
  else s.plainWrite k v

/-- Writes of the PAIR page (R456, R472). -/
def State.pairWrite (s : State) (off v : Nat) : State :=
  let k := regKey Ty.PAIR 0 off
  if off == Reg.PAIR_CTL.off then [64, 65, 66, 67].foldl State.genStop ((s.pairCtlWrite v).linkSettle 0)
  else if 0x054 ≤ off ∧ off < 0x084 then s.peerKeyWrite ((off - 0x054) / 4) v
  else if off == Reg.PAIR_CMD.off then
    s.cmdWrite k v (opOf (Reg.PAIR_CMD_OP.of v) [asOp execPairResync, asOp execPairRekeyNow])
  else s.plainWrite k v

/-- Writes of a SEAL page (R389, R402). -/
def State.sealWrite (s : State) (i off v : Nat) : State :=
  let k := regKey Ty.SEAL i off
  if off == Reg.SEAL_CTL.off then
    let s := s.plainWrite k v
    if bitOf v 0 then s.sealInit i else s
  else if 0x048 ≤ off ∧ off < 0x05C then (if (s.sealOf i).begun then s.count Reg.SEAL_CFG_REJECT i else s.plainWrite k v)
  else if off == Reg.SEAL_RESEAL_CMD.off then
    let op := Reg.SEAL_RESEAL_CMD_OP.of v
    s.cmdWrite k v (if op == 1 || op == 2 then some fun s => s.resealStart i op (Reg.SEAL_RESEAL_CMD_RANGE.of v) else none)
  else s.plainWrite k v

/-! ## Trees -/

/-- Writes of a TTX page (R69): the circuit length of a page. -/
def State.ttxWrite (s : State) (t off v : Nat) : State :=
  if off == Reg.TTX_CKT_LEN_PG0.off ∨ off == Reg.TTX_CKT_LEN_PG1.off then
    s.mirrored fun s => s.cktLenWrite t ((off - Reg.TTX_CKT_LEN_PG0.off) / 4) v
  else if off == Reg.TTX_CTL.off then s.ttxCtl t v
  else s.plainWrite (regKey Ty.TTX t off) v

/-- Writes of a TRX page (R94, R105, R107): START of BRST_CFG within 0 to 208, WIDTH within 16 to 224 − START. -/
def State.trxWrite (s : State) (t off v : Nat) : State :=
  let k := regKey Ty.TRX t off
  if off == Reg.TRX_PREAMBLE_CFG.off then asOp (execPreambleCfgWrite t false v) s
  else if off == Reg.TRX_CTL.off then (s.plainWrite k v).genStop (32 + t)
  else if off == Reg.TRX_BRST_CFG.off then
    let s := s.plainWrite k v
    s.setFld Reg.TRX_BRST_CFG_WIDTH t (clampNat 16 (224 - s.fld Reg.TRX_BRST_CFG_START t) (s.fld Reg.TRX_BRST_CFG_WIDTH t))
  else if off == Reg.TRX_PROFILE_CMD.off then
    let n := Reg.TRX_PROFILE_CMD_TERMINAL.of v
    s.cmdWrite k v (opOf (Reg.TRX_PROFILE_CMD_OP.of v)
      [asOp (execProfileRead t n), asOp (execProfileWriteSeed t n), asOp (execProfileReseed t n), asOp (execProfileInvalidate t n)])
  else s.plainWrite k v

/-- The stored words of an SXT page that depend on each other: ACK_TIMEOUT at least 2D + 2, DEACT_N at least QUAR_N, SXT_BUDGET at least
three control grants (R161). -/
def State.sxtClamp (s : State) (t off : Nat) : State :=
  let least (f : FldId) (n : Nat) : State := s.setFld f t (max (s.fld f t) n)
  if off == Reg.SXT_ACT_CFG.off then least Reg.SXT_ACT_CFG_ACK_TIMEOUT (2 * s.dOf t + 2)
  else if off == Reg.SXT_QUAR_CFG.off then least Reg.SXT_QUAR_CFG_DEACT_N (s.fld Reg.SXT_QUAR_CFG_QUAR_N t)
  else if off == Reg.SXT_BUDGET_CFG.off then least Reg.SXT_BUDGET_CFG_SXT_BUDGET (3 * s.ctrlGrant t (s.nextM + s.dOf t))
  else s

/-- Writes of an SXT page (R161). -/
def State.sxtWrite (s : State) (t off v : Nat) : State :=
  let k := regKey Ty.SXT t off
  if off == Reg.SXT_REACH_CFG.off then asOp (execReachCfgWrite t (BitVec.ofNat 32 v)) s
  else if off == Reg.SXT_DISC_CFG.off then asOp (execDiscCfgWrite t (BitVec.ofNat 32 v)) s
  else if off == Reg.SXT_DARK_TEST.off then
    if bitOf v 31 then asOp (execDarkTestStart t (BitVec.ofNat 32 v)) s else s.plainWrite k v
  else if off == Reg.SXT_TERM_CMD.off then
    let n := Reg.SXT_TERM_CMD_TERMINAL.of v
    s.cmdWrite k v (opOf (Reg.SXT_TERM_CMD_OP.of v)
      [asOp (execTermRead t n), asOp (execTermWrite t n), asOp (execTermDeactivate t n), asOp (execTermDeactivateDark t n),
       asOp (execTermQuarantine t n), asOp (execTermRelease t n), asOp (execTermRerange t n), asOp (execTermFind t n), asOp (execTermEnable t n),
       asOp (execTermClearViol t n), asOp (execTermAllocPush t n), asOp (execTermCounterReq t n)])
  else if mirroredReg Ty.SXT off then s.mirrored fun s => ((s.plainWrite k v).sxtClamp t off).mirrorReg k
  else s.plainWrite k v

/-- Writes of an ORR page (R114, R134). -/
def State.orrWrite (s : State) (sl off v : Nat) : State :=
  let k := regKey Ty.ORR sl off
  if 0x0A0 ≤ off ∧ off < 0x0C0 then asOp (execTreeCfgWrite sl ((off - 0x0A0) / 4) (BitVec.ofNat 32 v)) s
  else if off == Reg.ORR_ALLOC_CMD.off then
    let n := Reg.ORR_ALLOC_CMD_ALLOC.of v
    let l := Reg.ORR_ALLOC_CMD_LTREE.of v
    s.cmdWrite k v (opOf (Reg.ORR_ALLOC_CMD_OP.of v)
      [asOp (execAllocReadCfg sl l n), asOp (execAllocWriteCfg sl l n), asOp (execAllocDelete sl l n), asOp (execAllocReadState sl l n)])
  else if mirroredReg Ty.ORR off then s.mirrored fun s => (s.plainWrite k v).mirrorReg k
  else s.plainWrite k v

/-! ## Trunk ports, forwarding, queues -/

/-- Writes of a TRK page (R229, R247). A port that is enabled takes the pattern generators off its lanes. -/
def State.trkWrite (s : State) (i off v : Nat) : State :=
  let k := regKey Ty.TRK i off
  if off == Reg.TRK_MODE.off then (if i == 0 then s.trkModeWrite v else s)
  else if off == Reg.TRK_PORT_CTL.off then
    let s := s.plainWrite k v
    let s := if bitOf v 0 then (List.range s.portLanes).foldl (fun (s : State) j => s.genStop (i + j)) s else s
    s.portSettle (s.portOf i)
  else s.plainWrite k v

/-- Writes of an MSEC page (R236, R249). -/
def State.msecWrite (s : State) (i off v : Nat) : State :=
  let k := regKey Ty.MSEC i off
  if off == Reg.MSEC_TX_SA_CTL.off then
    let s := s.plainWrite k v
    if bitOf v 31 then asOp (execTxSaStart i (BitVec.ofNat 32 v)) s else s
  else if off == Reg.MSEC_SA_CMD.off then
    let sc := Reg.MSEC_SA_CMD_SC.of v
    let an := Reg.MSEC_SA_CMD_AN.of v
    let table := Reg.MSEC_SA_CMD_TABLE.of v
    s.cmdWrite k v (if table == 3 then none else opOf (Reg.MSEC_SA_CMD_OP.of v)
      [fun s => s.saRead i sc an table, fun s => s.saWrite i sc an table, fun s => s.saEnable i sc an table, fun s => s.saDisable i sc an table])
  else s.plainWrite k v

/-- Writes of a FWD page (R267, R269). -/
def State.fwdWrite (s : State) (i off v : Nat) : State :=
  let k := regKey Ty.FWD i off
  if off == Reg.FWD_CMD.off then
    let t := Reg.FWD_CMD_TABLE.of v
    let none_ : State → State := id
    let op := Reg.FWD_CMD_OP.of v
    s.cmdWrite k v (if op == 6 then none else opOf op
      [fun s => s.fwdSearch i, fun s => s.fwdNext i (Reg.FWD_CMD_START.of v == 1), fun s => s.fwdInsertCmd i, fun s => s.fwdDelete i,
       fun s => s.flushByPort i, none_, fun s => s.tblRead i t, fun s => s.tblWrite i t])
  else if off == Reg.FWD_AGE_CTL.off then
    if bitOf v 0 && (s.fw i).sweep.isNone then asOp (execAgeSweepStart i) s else s
  else s.plainWrite k v

/-- Writes of a QSCH page (R294, R299). -/
def State.qschWrite (s : State) (i off v : Nat) : State :=
  let k := regKey Ty.QSCH i off
  if off == Reg.QSCH_Q_CMD.off then
    let t := Reg.QSCH_Q_CMD_TABLE.of v
    s.cmdWrite k v (opOf (Reg.QSCH_Q_CMD_OP.of v)
      [fun s => s.qRead i t, fun s => s.qWrite i t, fun s => s.qReadState i t, fun s => s.qFlushCmd i t])
  else s.plainWrite k v

/-- Writes of the BUF page: WM_STOP at least WM_SPILL (R298). -/
def State.bufWrite (s : State) (off v : Nat) : State :=
  let s := s.plainWrite (regKey Ty.BUF 0 off) v
  if off == Reg.BUF_WM_STOP.off ∨ off == Reg.BUF_WM_SPILL.off then
    s.setFld Reg.BUF_WM_STOP_CELLS 0 (max (s.fld Reg.BUF_WM_STOP_CELLS 0) (s.fld Reg.BUF_WM_SPILL_CELLS 0))
  else s

/-- Writes of a GATE page (R289, R302). -/
def State.gateWrite (s : State) (i off v : Nat) : State :=
  let k := regKey Ty.GATE i off
  if off == Reg.GATE_COMMIT.off then (if bitOf v 0 then s.mirrored fun s => s.gateCommit i s.tm.cycle else s)
  else if off == Reg.GATE_ADMIN_BASE_NS.off then s.nsWrite k v Reg.GATE_CFG_REJECT
  else if off == Reg.GATE_LIST_DATA0.off ∨ off == Reg.GATE_LIST_DATA1.off then
    if s.flag Reg.GATE_LIST_IDX_LIST i then s.count Reg.GATE_CFG_REJECT i else
    match regSpec Ty.GATE off with
    | none => s
    | some r =>
      let x := s.gt i
      let e := s.fld Reg.GATE_LIST_IDX_ENTRY i
      let a := x.adminAt e
      let (g, n) := (a % 256, a / 256)
      let a := if off == Reg.GATE_LIST_DATA0.off then writtenWord r.fields false g v % 256 + n * 256 else g + writtenWord r.fields false n v * 256
      s.setGt i { x with admin := x.admin.setD (fun k => if k == 0 then 255 + 256 * 1000000 else 0) e a }
  else s.plainWrite k v

/-! ## Circuits, navigators, regions, lanes -/

/-- Writes of a CKT page (R318). -/
def State.cktWrite (s : State) (l off v : Nat) : State :=
  let k := regKey Ty.CKT l off
  if off == Reg.CKT_CTL.off then
    let was := s.flag Reg.CKT_CTL_PM_EN l
    (((s.plainWrite k v).linkSettle (1 + l)).cktCtl l was).genStop (68 + l)
  else if off == Reg.CKT_PATH_CMD.off then
    let p := Reg.CKT_PATH_CMD_PATH.of v
    s.cmdWrite k v (opOf (Reg.CKT_PATH_CMD_OP.of v)
      [fun s => s.pathRead l p, fun s => s.pathWrite l p, fun s => s.pathReadState l p, fun s => s.pathClear l p])
  else if off == Reg.CKT_BIN_CMD.off then
    s.cmdWrite k v (if Reg.CKT_BIN_CMD_READ.of v == 1 then
      some fun s => s.binRead l (Reg.CKT_BIN_CMD_ENTITY.of v) (Reg.CKT_BIN_CMD_BIN.of v) true else none)
  else s.plainWrite k v

/-- Writes of the TSI page (R324, R326, R332). -/
def State.tsiWrite (s : State) (off v : Nat) : State :=
  let k := regKey Ty.TSI 0 off
  if off == Reg.TSI_CONN_CMD.off then
    s.cmdWrite k v (opOf (Reg.TSI_CONN_CMD_OP.of v)
      [fun s => s.connRead (Reg.TSI_CONN_CMD_PAGE.of v), State.connWrite, State.connClear, State.copyActive, State.clearPage])
  else if off == Reg.TSI_SWITCH_CTL.off then
    let s := s.plainWrite k v
    let s := if Reg.TSI_SWITCH_CTL_CANCEL.of v == 1 then s.tsiCancel else s
    if Reg.TSI_SWITCH_CTL_ARM.of v == 1 then s.tsiArm else s
  else if off == Reg.TSI_ASSIGN_CMD.off then
    let t := Reg.TSI_ASSIGN_CMD_TREE.of v
    let n := Reg.TSI_ASSIGN_CMD_TERMINAL.of v
    s.cmdWrite k v (opOf (Reg.TSI_ASSIGN_CMD_OP.of v) [asOp (execAssignPushStandby t n), asOp (execAssignPushActive t n)])
  else s.plainWrite k v

/-- Writes of a NAV page (R357, R375, R376, R382). (DEDUCED, log entry 53) -/
def State.navWrite (s : State) (c off v : Nat) (data : Bytes) : State :=
  let k := regKey Ty.NAV c off
  if off == Reg.NAV_CTL.off then s.navEnable c v
  else if off == Reg.NAV_BANK_CTL.off then
    let s := if Reg.NAV_BANK_CTL_CANCEL.of v == 1 then (s.unname .navBank c 0).setFlag Reg.NAV_STS_ARMED c false else s
    if Reg.NAV_BANK_CTL_ARM.of v == 1 then s.bankArm c else s
  else if off == Reg.NAV_IMG_CMD.off then
    s.cmdWrite k v (if Reg.NAV_IMG_CMD_OP.of v == 1 then some fun s => s.imgLoad c v data else none)
  else if off == Reg.NAV_MIN_SVN.off then s.minSvnWrite c v
  else if off == Reg.NAV_RX_RING.off then
    let slots := min 1024 (Reg.NAV_RX_RING_SLOTS.of v)
    if 2 ^ 20 < Reg.NAV_RX_RING_BASE.of v * 64 + slots * (clampNat 1 10 (Reg.NAV_RX_RING_SLOT_KIB.of v) * 1024) then s.count Reg.NAV_CFG_REJECT c
    else (s.plainWrite k v).frameRing c
  else s.plainWrite k v

/-- Writes of a QMAP page (R384, R385): the halves of a region are held until its REGION_CFG write. -/
def State.qmapWrite (s : State) (i off v : Nat) : State :=
  let h := s.qhold.get qholdReset i
  let put (h : QHold) : State := { s with qhold := s.qhold.set qholdReset i h }
  if off == Reg.QMAP_REGION_BASE.off then put { h with base := some v }
  else if off == Reg.QMAP_REGION_LIMIT.off then put { h with limit := some v }
  else if off == Reg.QMAP_REGION_BASE_EXT.off then (if i == 32 then put { h with baseExt := some v } else s)
  else if off == Reg.QMAP_REGION_LIMIT_EXT.off then (if i == 32 then put { h with limitExt := some v } else s)
  else if off == Reg.QMAP_REGION_CFG.off then s.regionCommit i v
  else s.plainWrite (regKey Ty.QMAP i off) v

/-- SER_CTL without the bits that a lane's type reserves (R530): IDLE but on mate lanes, STEP_EN on lanes without step-up, LOOP on
tree instances. -/
def serCtlOf (n v : Nat) : Nat :=
  let v := if 64 ≤ n && n < 68 then v else setBitOf v 2 false
  let v := if 64 ≤ n then v else setBitOf v 5 false
  if 32 ≤ n && n < 64 then setBitOf v 6 false else v

/-- What a lane's own enables drive: its link, or its port. -/
def State.laneSettle (s : State) (n : Nat) : State :=
  match laneLink n with
  | some l => s.linkSettle l
  | none => if n < 32 then s.portSettle (s.portOf n) else s

/-- Writes of a SER page (R505 to R516, R531). -/
def State.serWrite (s : State) (n off v : Nat) : State :=
  let k := regKey Ty.SER n off
  if off == Reg.SER_CTL.off then (s.plainWrite k (serCtlOf n v)).laneSettle n
  else if off == Reg.SER_TX_EQ.off then
    if n < 32 && s.flag Reg.TRK_PORT_CTL_AN_EN (s.prim (s.portOf n)) then s.count Reg.SER_CFG_REJECT n else s.plainWrite k v
  else if off == Reg.SER_ADAPT_CMD.off then
    let x := Reg.SER_ADAPT_CMD_INDEX.of v
    s.cmdWrite k v (opOf (Reg.SER_ADAPT_CMD_OP.of v) [fun s => s.adaptRead n x, fun s => s.adaptReseed n x, fun s => s.adaptRetrain n x])
  else if off == Reg.SER_PRBS_CTL.off then s.prbsWrite n v
  else s.plainWrite k v

/-! ## The common header and the dispatch -/

/-- The links and navigators that follow their page's CTL.EN (R407). -/
def State.enSettle (s : State) (ty i : Nat) : State :=
  match ty with
  | 0x0B => s.linkSettle 0
  | 0x18 => s.portSettle (s.portOf i)
  | 0x20 => s.linkSettle (1 + i)
  | 0x28 => s.laneSettle i
  | _ => s

/-- Writes of CTL and of the ERR_ and counter controls that every page has (R407). -/
def State.blockWrite (s : State) (k v : Nat) (data : Bytes) : State :=
  let ty := keyTy k
  let i := keyInst k
  let off := keyOff k
  match off with
  | 0x00C =>
    let s := (s.plainWrite k (v % 2)).enSettle ty i
    if bitOf v 1 then s.softReset ty i else s
  | 0x02C => s.ovfWrite ty i v
  | 0x030 => s.errForce ty i v
  | _ =>
  if off < 0x040 then s.plainWrite k v
  else if isTickStage ty && off == (Reg.TICK_STAGE_CTL ty).off then (if bitOf v 0 then s.maxClr ty i else s)
  else if countCtl ty == some off then (if bitOf v 0 then s.clrAll ty i else s)
  else match ty with
  | 0x01 => if off == Reg.BIN_FIRST_CTL.off then (if bitOf v 0 then s.firstCtl else s) else s.plainWrite k v
  | 0x02 => s.hifWrite off v data
  | 0x03 =>
    if off == Reg.PMC_CTL.off then s.pmcCtl v
    else if off == Reg.PMC_DUMP_CFG.off && s.flag Reg.PMC_CTL_EN 0 then s.count Reg.PMC_CFG_REJECT 0
    else s.plainWrite k v
  | 0x04 =>
    if off == Reg.CRC_CTL.off then s.crcStart i v
    else if off == Reg.CRC_DATA8.off then s.crcPut i (toLE 1 v)
    else if off == Reg.CRC_DATA16.off then s.crcPut i (toLE 2 v)
    else if off == Reg.CRC_DATA32.off then s.crcPut i (toLE 4 v)
    else if off == Reg.CRC_DATA128.off + 12 then s.crc128 i v
    else if off == Reg.CRC_CHECK.off then (if bitOf v 0 then s.crcCheck i else s)
    else if Reg.CRC_DATA128.off ≤ off ∧ off < Reg.CRC_DATA128.off + 12 then s.wr k (BitVec.ofNat 32 v)
    else s.plainWrite k v
  | 0x05 => s.astWrite off v
  | 0x06 => s.almWrite off v data
  | 0x07 => s.pkaWrite off v data
  | 0x08 => s.lcsWrite off v data
  | 0x09 => s.tampWrite off v
  | 0x0A => s.dbgWrite off v
  | 0x0B => s.pairWrite off v
  | 0x0C => s.sealWrite i off v
  | 0x0D => s.bufWrite off v
  | 0x10 => s.ttxWrite i off v
  | 0x11 => s.trxWrite i off v
  | 0x12 => s.sxtWrite i off v
  | 0x13 => s.orrWrite i off v
  | 0x18 => s.trkWrite i off v
  | 0x19 => s.msecWrite i off v
  | 0x1A => if off == Reg.CIPH_TEST.off then (if bitOf v 0 then s.katStart i else s) else s.plainWrite k v
  | 0x1C => s.fwdWrite i off v
  | 0x1D => s.qschWrite i off v
  | 0x1E => s.gateWrite i off v
  | 0x20 => s.cktWrite i off v
  | 0x21 => s.tsiWrite off v
  | 0x24 => s.navWrite i off v data
  | 0x25 => s.qmapWrite i off v
  | 0x28 => s.serWrite i off v
  | _ => s.plainWrite k v

/-- The commit of a 64-bit quantity, both halves in one cycle (R11). -/
def State.pairStore (s : State) (k lo hi : Nat) : State :=
  let ty := keyTy k
  let off := keyOff k
  let v := lo + 2 ^ 32 * hi
  let plain (s : State) : State := (s.plainWrite (k + 4) hi).plainWrite k lo
  if ty == Ty.HIF && off == Reg.HIF_WIN_BASE_LO.off then
    let wi := s.fld Reg.HIF_WIN_SEL_WINDOW 0
    { s with hif := { s.hif with wins := s.hif.wins.set ⟨0, 1, false, false, false⟩ wi { s.win wi with base := v / 4096 * 4096 } } }
  else if ty == Ty.HIF && off == Reg.HIF_RING_OFF_LO.off then
    let r := min 143 (s.fld Reg.HIF_RING_SEL_RING 0)
    s.setRing r { s.ring r with offset := v / 64 * 64 }
  else if ty == Ty.AST && off == Reg.AST_EPOCH_LO.off then s.mirrored fun s => s.epochWrite (v % 2 ^ 48)
  else if ty == Ty.AST && off == Reg.AST_INCR_LO.off then s.incrWrite 0 v s.tm.cycle
  else if ty == Ty.AST && off == Reg.AST_INCR_LO.off + 0x40 then s.incrWrite 1 v s.tm.cycle
  else if ty == Ty.AST && decide (0x140 ≤ off) && decide (off < 0x180) then (plain s).cmpWritten ((off - 0x140) / 16)
  else if ty == Ty.MSEC && off == Reg.MSEC_PN_THRESH_LO.off then plain (s.thrWritten (keyInst k))
  else if ty == Ty.TAMP && off == Reg.TAMP_RTC_SEC_LO.off then s.rtcSet v
  else if ty == Ty.TRX && off == Reg.TRX_PREAMBLE_AT_LO.off then asOp (execPreambleCfgWrite (keyInst k) true v) s
  else if mirroredReg ty off then s.mirrored fun s => ((plain s).mirrorReg k).mirrorReg (k + 4)
  else plain s

/-- A write that finds the device halted: only the W1C words of BIN and ERR_OVF take it (R444). -/
def State.haltWrite (s : State) (k v : Nat) : State :=
  if keyOff k == 0x02C then s.ovfWrite (keyTy k) (keyInst k) v
  else if keyTy k == Ty.BIN && ((decide (0x048 ≤ keyOff k) && decide (keyOff k < 0x058)) || keyOff k == 0x014) then s.plainWrite k v
  else s

/-- A 32-bit write by a master (R11, R406): ignored on an absent page, an undefined offset or a secondary instance; held for a _HI half;
both halves committed for a _LO half. `data` is what the host memory answers to a read that the write starts. (DEDUCED, log entry 81) -/
def State.writeReg (s : State) (master k v : Nat) (data : Bytes) : State :=
  if 0x0FF00000 ≤ k then (if k < 0x0FF02000 && !s.halted then s.msixWrite (k - 0x0FF00000) v else s) else
  if !s.present (keyTy k) (keyInst k) || s.secondary (keyTy k) (keyInst k) (keyOff k) || (regSpec (keyTy k) (keyOff k)).isNone then s
  else if s.halted then s.haltWrite k v
  else if isHi k then { s with pr := { s.pr with held := s.pr.held.set none (pairKey master k) (some (BitVec.ofNat 32 v)) } }
  else if isLo k then
    let p := pairKey master (k + 4)
    let hi := match s.pr.held.get none p with
      | some w => w.toNat
      | none => s.view (k + 4)
    ({ s with pr := { s.pr with held := s.pr.held.erase p } }).pairStore k v hi
  else s.blockWrite k v data

/-! ## The rows -/

/-- REGISTER_WRITE: a host write with byte enables at a core cycle. -/
def execRegisterWrite (addr : Nat) (v : Word) (be cycle : Nat) (data : List Byte) (s : State) := powered s fun s =>
  let s := s.advanceTo (min cycle s.tm.len)
  if be != 15 then (if s.halted then s else s.count Reg.HIF_BAD_ACCESS 0) else s.writeReg 0 (addr / 4 * 4) v.toNat data

/-- HI_REGISTER_WRITE. -/
def execHiRegisterWrite (master addr : Nat) (v : Word) (s : State) := live s fun s =>
  if isHi addr then s.writeReg (master % 64) addr v.toNat [] else s

/-- LO_REGISTER_WRITE. -/
def execLoRegisterWrite (master addr : Nat) (v : Word) (cycle : Nat) (data : List Byte) (s : State) := live s fun s =>
  if isLo addr then (s.advanceTo (min cycle s.tm.len)).writeReg (master % 64) addr v.toNat data else s

/-- The order in which a request of n registers is written (R406): increasing, but _HI before the _LO of a 64-bit quantity. (DEDUCED, log entry 81) -/
def writeOrder (addr : Nat) : Nat → List Nat
  | 0 => []
  | 1 => [addr]
  | n + 2 => if isLo addr then (addr + 4) :: addr :: writeOrder (addr + 8) n else addr :: writeOrder (addr + 4) (n + 1)

/-- MULTI_REGISTER_REQUEST. -/
def execMultiRegisterRequest (write : Bool) (addr n : Nat) (words : List Word) (cycle : Nat) (data : List Byte) (s : State) := powered s fun s =>
  let a := addr / 4 * 4
  let s := s.advanceTo (min cycle s.tm.len)
  if write then (writeOrder a (min n 1024)).foldl (fun (s : State) k => s.writeReg 0 k (words.getD ((k - a) / 4) 0).toNat data) s
  else
    let (s, l) := (List.range (min n 1024)).foldl (fun (p : State × List Nat) i =>
      let (s, v) := p.1.readReg 0 (a + 4 * i)
      (s, p.2 ++ [v])) (s, [])
    s.answer l

end Sys2Proof.Machine
end

