-- ==== Sys2Proof/Machine/HifCmd.lean ====
section
/-! DEFINITION. The ring commands of the host (R414 to R417), the register messages of the navigators to MSEC (R367) and the accesses of
the debug port (R494, R495): each acts through the same register writes and reads as the host's own. -/

namespace Sys2Proof.Machine

/-! ## Descriptors (R414) -/

/-- A command descriptor. -/
structure CmdD where
  seq : Nat
  op : Nat
  n : Nat
  page : Nat
  dataOff : Nat
  cmdOff : Nat
  wait : Nat
  word : Nat
  data : List Nat
  deriving DecidableEq, Repr

/-- Read a descriptor's fields; WAIT_MS 0 is 100. -/
def cmdOf (d : Bytes) : CmdD :=
  { seq := leAt d 0 4, op := leAt d 4 1, n := leAt d 5 1, page := leAt d 8 2, dataOff := leAt d 10 2, cmdOff := leAt d 12 2
    wait := if leAt d 14 2 == 0 then 100 else leAt d 14 2, word := leAt d 16 4, data := (List.range 8).map fun i => leAt d (20 + 4 * i) 4 }

def CmdD.ty (c : CmdD) : Nat := c.page / 256
def CmdD.inst (c : CmdD) : Nat := c.page % 256
def CmdD.key (c : CmdD) (off : Nat) : Nat := regKey c.ty c.inst off

/-- The pages that have a BULK. -/
def CmdD.bulkPage (c : CmdD) : Bool := c.ty == Ty.LCS || c.ty == Ty.FWD || c.ty == Ty.TSI || c.ty == Ty.SXT || c.ty == Ty.ALM

/-- BAD_DESC (R417): a field out of range, a BULK of another page, or a PAGE that names HIF or the MSI-X region. (DEDUCED, log entry 25) -/
def CmdD.bad (c : CmdD) : Bool :=
  let off (o : Nat) : Bool := o % 4 != 0 || decide (o < 0x040) || decide (0xFFC < o)
  c.op == 0 || decide (4 < c.op) || decide (8 < c.n) || c.ty == Ty.HIF || c.ty == 0xFF ||
    (c.op != 4 && (off c.dataOff || decide (0x1000 < c.dataOff + 4 * c.n))) ||
    (c.op == 3 && off c.cmdOff) ||
    (c.op == 4 && (!c.bulkPage || (c.ty == Ty.ALM && decide (65536 < c.data.getD 1 0))))

/-! ## Completion (R416, R417) -/

/-- The 63 bytes of a completion. -/
def State.complBytes (s : State) (r : Nat) (c : CmdD) (st word : Nat) (data : List Nat) : Bytes :=
  toLE 4 c.seq ++ toLE 1 c.op ++ toLE 1 r ++ toLE 1 st ++ [0] ++ toLE 2 c.page ++ [0, 0] ++ toLE 4 word ++
    ((List.range 8).map fun i => toLE 4 (data.getD i 0)).flatten ++ toLE 6 s.tick ++ List.replicate 9 0

/-- A command has ended: LAST_DONE_SEQ, but for a duplicate; then its descriptor goes back and its completion waits for a given
descriptor. (DEDUCED, log entry 25) -/
def State.cmdEnd (s : State) (r : Nat) (c : CmdD) (st word : Nat) (data : List Nat) : State :=
  let x := s.ring r
  let s := if st == 4 then s.count Reg.HIF_ABSENT_CMD 0 else s
  let s := s.setRing r { x with waiting := 0, lastSeq := if st == 1 then x.lastSeq else c.seq }
  let (s, ok) := s.giveBack r x.devIdx (x.desc.headD [])
  if !ok then s else
  let x := s.ring r
  s.setRing r { x with devIdx := x.nextIdx, desc := x.desc.drop 1, compl := some (s.complBytes r c st word data) }

/-- Block operations that a fault left running (R416): when BUSY falls, LAST_DONE_SEQ records them. -/
def State.orphanStep (s : State) : State :=
  (List.range 8).foldl (fun (s : State) r =>
    match (s.ring r).orphan with
    | some (seq, k) => if bitOf (s.view k) 31 then s else s.setRing r { s.ring r with lastSeq := seq, orphan := none }
    | none => s) s

/-! ## The operations (R415) -/

/-- WRITE: the highest offset first. -/
def State.cmdWriteData (s : State) (r : Nat) (c : CmdD) : State :=
  ((List.range (min c.n 8)).reverse).foldl (fun (s : State) i => s.writeReg (1 + r) (c.key (c.dataOff + 4 * i)) (c.data.getD i 0) []) s

/-- READ: the lowest offset first. -/
def State.cmdReadData (s : State) (r : Nat) (c : CmdD) : State × List Nat :=
  (List.range (min c.n 8)).foldl (fun (p : State × List Nat) i =>
    let (s, v) := p.1.readReg (1 + r) (c.key (c.dataOff + 4 * i))
    (s, p.2 ++ [v])) (s, [])

/-- Little-endian words. -/
def wordBytes (l : List Nat) : Bytes := (l.map fun w => toLE 4 w).flatten

/-- The records of a BULK from START, at most COUNT: those that the page has. (DEDUCED, log entry 26) -/
def State.bulkRecords (s : State) (c : CmdD) : List Bytes :=
  let start := c.data.getD 0 0
  let n := c.data.getD 1 0
  let upTo (total : Nat) (f : Nat → Bytes) : List Bytes := (List.range (min n (total - start))).map fun i => f (start + i)
  if c.ty == Ty.LCS then (s.lcs.otp.log.drop start).take n
  else if c.ty == Ty.FWD then (((s.fw c.inst).tab.filter fun q => decide (start ≤ q.1)).take n).map fun q => wordBytes (fwdWords q.1 q.2)
  else if c.ty == Ty.TSI then upTo (2 ^ 18) fun e => wordBytes (s.conn (c.data.getD 5 0 % 2) e).words
  else if c.ty == Ty.SXT then upTo 512 fun t => wordBytes ((s.term (termAx c.inst t)).words)
  else upTo (2 ^ 18) fun ax => wordBytes (s.attrArgs ax)

/-- BULK: STATUS and DATA. A window that does not take every record is a window fault, and nothing is copied. (DEDUCED, log entry 26) -/
def State.bulk (s : State) (c : CmdD) : State × Nat × List Nat :=
  let l := s.bulkRecords c
  let (s, ok) := s.dmaWrite (c.data.getD 2 0 % 16) (c.data.getD 3 0 + 2 ^ 32 * c.data.getD 4 0) l.flatten
  if ok then (s, 0, if c.ty == Ty.FWD then [l.length, 0] else []) else (s, 7, [])

/-- Another ring's command is under way on the page (R415). -/
def State.pageTaken (s : State) (r page : Nat) : Bool :=
  (List.range 8).any fun q =>
    let x := s.ring q
    (q != r && x.waiting != 0 && leAt (x.desc.headD []) 8 2 == page) ||
      (match x.orphan with
       | some (_, k) => keyTy k * 256 + keyInst k == page
       | none => false)

/-- The final read of an EXEC whose BUSY has fallen. (DESIGN CHOICE, log entry 79) -/
def State.execDone (s : State) (r : Nat) (c : CmdD) : State :=
  let (s, w) := s.readReg (1 + r) (c.key c.cmdOff)
  let (s, l) := s.cmdReadData r c
  s.cmdEnd r c 0 w l

/-- EXEC: wait for BUSY, write the data and the command word, wait for BUSY to fall, read. `data` is what host memory answers to what
the command reads. (DESIGN CHOICE, log entry 79) -/
def State.execStep (s : State) (r : Nat) (c : CmdD) (data : Bytes) : State :=
  let busy (s : State) : Bool := bitOf (s.view (c.key c.cmdOff)) 31
  let x := s.ring r
  let wait (s : State) (n : Nat) : State := s.setRing r { s.ring r with waiting := n, waitAt := if x.waiting == 0 then s.now else x.waitAt }
  if x.waiting == 2 then (if busy s then s else s.execDone r c)
  else if busy s then wait s 1
  else
    let s := (s.cmdWriteData r c).writeReg (1 + r) (c.key c.cmdOff) c.word data
    if busy s then wait s 2 else s.execDone r c

/-- The head command of a ring, where the ring may go on: `op` is the operation that the command calls for. A command whose OP has no
operation is refused whatever the row. (DEDUCED, log entry 25) -/
def State.ringCmd (s : State) (r op cycle : Nat) (data : Bytes) : State :=
  let s := (s.advanceTo (min cycle s.tm.len)).orphanStep
  let x := s.ring r
  if 8 ≤ r || !x.en || !s.active Ty.HIF 0 || x.compl.isSome || x.orphan.isSome || s.flag Reg.HIF_STS_QUIESCED 0 then s else
  match x.desc with
  | [] => s
  | d :: _ =>
    let c := cmdOf d
    if c.op != op && 1 ≤ c.op && c.op ≤ 4 then s else
    s.ringUse r fun s =>
    if x.waiting == 0 && toSigned 32 ((c.seq + 2 ^ 32 - x.lastSeq) % 2 ^ 32) ≤ 0 then s.cmdEnd r c 1 0 []
    else if c.bad then s.cmdEnd r c 3 0 []
    else if !s.present c.ty c.inst then s.cmdEnd r c 4 0 []
    else if s.pageTaken r c.page then s
    else if op == 1 then (s.cmdWriteData r c).cmdEnd r c 0 0 []
    else if op == 2 then (let (s, l) := s.cmdReadData r c; s.cmdEnd r c 0 0 l)
    else if op == 3 then s.execStep r c data
    else (let (s, st, l) := s.bulk c; s.cmdEnd r c st 0 l)

/-- RING_CMD_WRITE. -/
def execRingCmdWrite (ring cycle : Nat) (data : List Byte) (s : State) := live s fun s => s.ringCmd ring 1 cycle data

/-- RING_CMD_READ. -/
def execRingCmdRead (ring cycle : Nat) (s : State) := live s fun s => s.ringCmd ring 2 cycle []

/-- RING_CMD_EXEC. -/
def execRingCmdExec (ring cycle : Nat) (data : List Byte) (s : State) := live s fun s => s.ringCmd ring 3 cycle data

/-- RING_CMD_BULK. -/
def execRingCmdBulk (ring cycle : Nat) (s : State) := live s fun s => s.ringCmd ring 4 cycle []

/-- EXEC_TIMEOUT (R417): BUSY still 1 after WAIT_MS. The register as it stands is CMD_WORD, and no data is read. (DEDUCED, log entry 25) (DESIGN CHOICE, log entry 79) -/
def State.execTimeout (s : State) (r cycle : Nat) : State :=
  let s := s.advanceTo (min cycle s.tm.len)
  let x := s.ring r
  match x.desc with
  | [] => s
  | d :: _ =>
    let c := cmdOf d
    if x.waiting == 0 || decide (s.now < x.waitAt + c.wait * 1250000) || !bitOf (s.view (c.key c.cmdOff)) 31 then s
    else s.cmdEnd r c 5 (s.view (c.key c.cmdOff)) []
def execExecTimeout (ring cycle : Nat) (s : State) := live s fun s => if ring < 8 then s.execTimeout ring cycle else s

/-- COMPLETION_POST (R417): the completion of a command ring goes to the ring's completion ring where that has a given descriptor. -/
def State.complPost (s : State) (r : Nat) : State :=
  let x := s.ring r
  let c := 8 + x.cq % 8
  match x.compl with
  | none => s
  | some b =>
    if !(s.ring c).en || (s.ring c).desc.isEmpty then s else
    let (s, ok) := s.ringPut c b
    if ok then (s.setRing r { s.ring r with compl := none }).count64 Reg.HIF_CMD_DONE_LO 0 else s
def execCompletionPost (ring : Nat) (s : State) := live s fun s => if ring < 8 then s.complPost ring else s

/-! ## Register messages (R367) -/

/-- Whether a register message may name an offset of MSEC: to write, or to read. -/
def msgOffset (off : Nat) (read : Bool) : Bool :=
  off == Reg.MSEC_SA_CMD.off || (off % 4 == 0 && decide (Reg.MSEC_SA_DATA.off ≤ off) && decide (off < Reg.MSEC_SA_DATA.off + 32)) ||
    off == Reg.MSEC_TX_SA_CTL.off || off == Reg.MSEC_TX_SA_AT_LO.off || off == Reg.MSEC_TX_SA_AT_HI.off || (read && off == Reg.MSEC_STS.off)

/-- MSEC_REG_MESSAGE: the oldest message of a cluster to MSEC[inst], and its reply to the navigator that sent it. A cluster is a
master of its own (R11). (DEDUCED, log entry 27) -/
def State.msecMessage (s : State) (c inst : Nat) : State :=
  match s.takePost c (Ty.MSEC * 256 + inst) with
  | none => s
  | some (p, s) =>
    let op := leAt p.body 0 1
    let off := leAt p.body 2 2
    let k := regKey Ty.MSEC inst off
    let (s, st, v) : State × Nat × Nat :=
      if op == 1 && msgOffset off false then (s.writeReg (16 + c) k (leAt p.body 4 4) [], 0, leAt p.body 4 4)
      else if op == 2 && msgOffset off true then (let (s, v) := s.readReg (16 + c) k; (s, 0, v))
      else (s, 1, leAt p.body 4 4)
    s.sendMail ⟨Ty.MSEC * 256 + inst, c, some p.nav, 2, toLE 1 op ++ toLE 1 st ++ toLE 2 off ++ toLE 4 v ++ sliceB p.body 8 8⟩
def execMsecRegMessage (cluster inst : Nat) (s : State) := live s fun s => s.msecMessage (cluster % 32) (inst % 32)

/-! ## The debug port (R494, R495) -/

/-- What an address of the debug space names, with its SCOPE bit: a register (0), a place in navigator memory (1), a stack and an offset
(2). -/
inductive DbgAt where
  | page (k : Nat)
  | nav (place : Nat)
  | hbm (i off : Nat)
  deriving DecidableEq, Repr

/-- The debug address space (R494). (DEDUCED, log entry 28) -/
def State.dbgAt (s : State) (a : Nat) : Option DbgAt :=
  if a < 0x10000000 then some (.page a)
  else if 0x100000000 ≤ a ∧ a < 0x100000000 + 32 * 0x1000000 then
    let c := (a - 0x100000000) / 0x1000000
    let o := a % 0x1000000
    if !s.present Ty.NAV c then none
    else if o < 0x40000 then some (.nav (placeBank c 0 o))
    else if 0x400000 ≤ o ∧ o < 0x440000 then some (.nav (placeBank c 1 (o - 0x400000)))
    else if 0x800000 ≤ o ∧ o < 0x900000 then some (.nav (placeShared c (o - 0x800000)))
    else if 0xC00000 ≤ o ∧ o < 0xD00000 then some (.nav (placeLocal c ((o - 0xC00000) / 0x10000) (o % 0x10000)))
    else none
  else if 0x1000000000 ≤ a ∧ a < 0x1800000000 then
    let i := (a - 0x1000000000) / 0x400000000
    let o := (a - 0x1000000000) % 0x400000000
    if s.present Ty.SEAL i && decide (o < 0x380000000) then some (.hbm i o) else none
  else none

/-- The SCOPE bit of a part of the debug space. -/
def DbgAt.scopeBit : DbgAt → Nat
  | .page _ => 0
  | .nav _ => 1
  | .hbm _ _ => 2

/-- A region of the debug Quadrant bars an access: LOCKED and containing it, or LOCKED and its SRAM word lost (R387). -/
def State.dbgLocked (s : State) (a : Nat) : Bool :=
  (List.range 16).any fun r =>
    let x := s.qreg 32 0 r
    bitOf x.cfg 7 && (x.bad || x.covers a 4)

/-- The checks of R495 in their order: 0 permitted, 1 refused by a locked region or two regions, 2 refused otherwise. (DEDUCED, log entry 28) -/
def State.dbgCheck (s : State) (a : Nat) (write : Bool) (at_ : Option DbgAt) : Nat :=
  let isDbg := match at_ with
    | some (.page k) => keyTy k == Ty.DBG
    | _ => false
  let hits := s.qHits 32 0 a 4
  if isDbg then 0
  else if s.dbgLocked a || decide (2 ≤ hits.length) then 1
  else match hits with
    | x :: _ => if bitOf x.cfg (if write then 1 else 0) then 0 else 2
    | [] => match at_ with
      | some t => if s.portOpen || bitOf s.scope t.scopeBit then 0 else 2
      | none => 2

/-- A refused debug access: zero data; the Quadrant's record; a Logbook entry (R380, R495). (DEDUCED, log entry 28) -/
def State.dbgRefuse (s : State) (a : Nat) (write : Bool) (why : Nat) : State :=
  let overlap := decide (2 ≤ (s.qHits 32 0 a 4).length)
  let s := s.answer [0]
  let s := s.qRefuse 32 0 (if write then 2 else 1) a false overlap (why == 1 && s.dbgLocked a)
  if why == 1 then
    ((s.count Reg.QMAP_DBG_LOCK_HIT 32).log 0x40 0 Ty.QMAP 32 3 (a % 2 ^ 24)).raise Ty.QMAP 32 3 (a % 2 ^ 32) (a / 2 ^ 32)
  else
    ((s.count Reg.DBG_REFUSED 0).log 0x40 0 Ty.DBG 0 2 (a % 2 ^ 24)).raise Ty.DBG 0 2 (a % 2 ^ 32) (a / 2 ^ 32)

/-- A permitted debug access. HBM goes through SEAL as the debug master (R399); `got`, `ecc` and `bad` are what HBM returned. -/
def State.dbgDo (s : State) (v : Option Word) (got : Bytes) (ecc : Bool) (bad : List Nat) : DbgAt → State
  | .page k =>
    match v with
    | some w => s.writeReg 9 k w.toNat []
    | none => let (s, x) := s.readReg 9 k; s.answer [x]
  | .nav p =>
    match v with
    | some w => s.navStore 1024 p (toLE 4 w.toNat)
    | none => s.answer [leAt (s.nmem.readN p 4) 0 4]
  | .hbm i off =>
    match v with
    | some w => s.hbmWrite i 5 off (toLE 4 w.toNat) [got] [ecc] bad
    | none =>
      let s := s.lineRead i 5 (off / 64) got ecc bad
      let (d, err, _) := (s.sealOf i).answer
      s.answer [if err then 0 else leAt d (off % 64) 4]

/-- DAPACC_ACCESS: a 32-bit read or write while the instruction register holds DAPACC. (DEDUCED, log entry 28) -/
def State.dapacc (s : State) (addr : Nat) (v : Option Word) (got : Bytes) (ecc : Bool) (bad : List Nat) : State :=
  if s.lcs.ir != 0x20 then s else
  let a := addr % 2 ^ 40 / 4 * 4
  let s := s.qInv 32 0
  let t := s.dbgAt a
  match s.dbgCheck a v.isSome t with
  | 0 =>
    match t with
    | some t => s.dbgDo v got ecc bad t
    | none => if v.isSome then s else s.answer [0]
  | n => s.dbgRefuse a v.isSome n
def execDapaccAccess (addr : Nat) (v : Option Word) (cycle : Nat) (got : List Byte) (ecc : Bool) (bad : List Nat) (s : State) :=
  live s fun s => (s.advanceTo (min cycle s.tm.len)).dapacc addr v got ecc bad

end Sys2Proof.Machine
end

