-- ==== Sys2Proof/Machine/Tick.lean ====
section
/-! DEFINITION. The tick boundary (R20 to R27): what every block does when a core tick ends, in the order time, named actions,
role, keys, stages, lines; the heartbeat and HEALTH (R457, R458); and a tick stage's overrun (R30 to R33). -/
namespace Sys2Proof.Machine

/-! ## Deadlines and stage times (R31, R32) -/

/-- A tick stage whose completion no command reports: TRX, ALM and CKT do their work in every tick in which they are on. -/
def State.silentStage (s : State) (ty inst : Nat) : Bool :=
  if s.tm.free then false
  else if ty == Ty.TRX then s.rxOn inst
  else if ty == Ty.CKT then s.on Reg.CKT_CTL_RX_EN inst
  else ty == Ty.ALM && s.active Ty.ALM inst

/-- The pages of the silent stages. (DEDUCED, log entry 13) -/
def silentPages : List (Nat × Nat) :=
  (List.range 32).map (fun i => (Ty.TRX, i)) ++ [(Ty.ALM, 0)] ++ (List.range 4).map fun i => (Ty.CKT, i)

/-- TICK_DONE_LAST and TICK_DONE_MAX of a page for the tick that ends: the cycle of completion; a free one where the work did not
complete or where no command tells the cycle, within the deadline unless the stage overran. (DEDUCED, log entry 12) -/
def State.stageEnd (s : State) (ty inst : Nat) : State :=
  match s.tickWork.find (pageKey ty inst) with
  | some (c, true) => s.stageShow ty inst c true
  | some (_, false) =>
    let (c, s) := s.draw 18
    if s.silentStage ty inst then
      let (d, s) := s.draw 1
      s.stageShow ty inst c (d == 1)
    else s.stageShow ty inst c false
  | none =>
    if s.silentStage ty inst then
      let (c, s) := s.draw 18
      s.stageShow ty inst (c % (s.deadlineOf ty inst + 1)) true
    else s

/-- Every tick stage's record at the boundary that ends the tick. -/
def State.stagesBoundary (s : State) : State :=
  let pages := silentPages.filter (fun q => s.silentStage q.1 q.2) ++ s.tickWork.map fun q => (q.1 / 256, q.1 % 256)
  let s := pages.eraseDups.foldl (fun (s : State) q => s.stageEnd q.1 q.2) s
  { s with tickWork := [] }

/-- The deadlines written by now measure the tick that begins (R32). -/
def State.deadlineStep (s : State) : State :=
  { s with deadline := s.regs.keep fun k _ => isTickStage (keyTy k) && keyOff k == 0x040 }

/-! ## Named actions (R27) -/

/-- One named action takes effect. -/
def State.namedAct (s : State) (a : Named) : State :=
  match a.kind with
  | .phase => s.phaseSwitch a.inst
  | .txSa => s.txSaAt a.inst
  | .tsiPage => s.tsiSwitch
  | .navBank => s.bankSwitch a.inst
  | .preamble => s.setFld Reg.TRX_PREAMBLE_CFG_CUR a.inst a.idx

/-- NAMED_TICK_ACTION at a counted boundary: every action named for the count or below, in the order of writing; one that comes after
its tick is late, once. -/
def State.namedStep (s : State) : State :=
  if s.tm.free then s else
  let due := s.tm.named.filter fun a => decide (a.t ≤ s.tm.m)
  let s := { s with tm := { s.tm with named := s.tm.named.filter fun a => !decide (a.t ≤ s.tm.m) } }
  due.foldl (fun (s : State) a =>
    let s := if !a.late && decide (a.t < s.tm.m) then s.countLate a else s
    s.namedAct a) s

/-! ## Terminals that have just changed state -/

/-- What other blocks do for the terminals that entered a state at this boundary: queues flushed on DEACTIVATED (R280), slot messages
dropped on INIT and pushed on OPERATIONAL (R325). -/
def State.enteredStep (s : State) : State :=
  s.terms.foldl (fun (s : State) q =>
    if (s.term q.1).since != s.tm.tickNo then s else
    match (s.term q.1).st with
    | .deactivated => s.flushTerm q.1
    | .init => s.assignDrop q.1
    | .operational => if s.isActive then s.assignNew q.1 else s
    | _ => s) s

/-! ## Heartbeat and HEALTH (R457, R458) -/

/-- A navigator of a present cluster is lost. -/
def State.anyLost (s : State) : Bool := (List.range 32).any fun c => s.present Ty.NAV c && s.reg Reg.NAV_FAILED c != 0

/-- HEARTBEAT_PULSE: one pulse of HB_OUT for a healthy tick; then the conditions of the tick that begins. (DEDUCED, log entry 17) -/
def State.heartbeat (s : State) : State :=
  let mask := s.fld Reg.PAIR_HB_CFG_HB_MASK 0
  let ok := s.on Reg.PAIR_HB_CFG_HB_EN 0 && !(bitOf mask 0 && s.bin.sevTick) && !(bitOf mask 1 && s.bin.ovrTick) &&
    !(bitOf mask 2 && (s.bin.lostTick || s.anyLost)) && !(bitOf mask 3 && (s.bin.invTick || !s.netValid))
  let s := if ok then { s with pair := { s.pair with hb := s.pair.hb + 1, hbAt := some (s.tm.base + s.tm.len) } } else s
  { s with bin := { s.bin with sevTick := false, ovrTick := false, lostTick := s.anyLost, invTick := !s.netValid } }

/-- The level of the ball HB_OUT (R444, R457): high for WIDTH × 100 ns from the boundary that ends a healthy tick. -/
def State.hbPin (s : State) : Bool :=
  match s.pair.hbAt with
  | some c => !s.halted && !s.off && decide (c ≤ s.now) && decide (s.now < c + max 1 (s.fld Reg.PAIR_HB_CFG_WIDTH 0) * 125)
  | none => false

/-- The conditions of HEALTH_CFG.DEGRADE_MASK, one bit each. (DEDUCED, log entry 17) -/
def State.degraded (s : State) : Nat :=
  let b (x : Bool) (i : Nat) : Nat := if x then 2 ^ i else 0
  let tree := (List.range 32).any fun t => s.on Reg.SER_CTL_TX_EN (32 + t) && (s.lane (32 + t)).pllLost
  let port := (List.range 32).any fun k => s.hasPort k && s.on Reg.TRK_PORT_CTL_EN (s.prim k) && !s.flag Reg.TRK_PORT_STS_LINK (s.prim k)
  let ckt := (List.range 4).any fun l => s.present Ty.CKT l && (s.flag Reg.CKT_STS_LOS l || s.flag Reg.CKT_STS_LOF l)
  b tree 0 + b port 1 + b s.anyLost 2 + b (s.regI Reg.BIN_SEVERE_LO 0 0 != 0 || s.regI Reg.BIN_SEVERE_LO 0 1 != 0) 3 + b ckt 4

/-- The computed HEALTH: the lowest row of R458 that holds; 0 while the role latches disagree (R474). (DEDUCED, log entry 17) -/
def State.healthNow (s : State) : Nat :=
  let notReady := s.tm.free || (List.range 2).any (fun i => s.present Ty.SEAL i && !s.flag Reg.SEAL_STS_READY i) || !s.storeOk ||
    (!s.isActive && s.mirrorSt != 4)
  if s.halted || s.pair.roleErr then 0
  else if notReady then 1
  else if s.degraded &&& s.fld Reg.PAIR_HEALTH_CFG_DEGRADE_MASK 0 != 0 then 2
  else 3

/-- HEALTH_UPDATE: the lower of the computed value and CAP. -/
def State.healthStep (s : State) : State := s.setFld Reg.PAIR_STS_HEALTH 0 (min s.healthNow (s.fld Reg.PAIR_HEALTH_CFG_CAP 0))

/-- The level of the HEALTH balls: 0 while POR_N is asserted. (DEDUCED, log entry 17) (DESIGN CHOICE, log entry 83) -/
def State.healthPins (s : State) : Nat := if s.off then 0 else s.fld Reg.PAIR_STS_HEALTH 0

/-! ## TICK_BOUNDARY -/

/-- ERR_INV_CHECK bit 0 of TAMP: the cell that the high-water update reads fails its check (R501). (DEDUCED, log entry 23) -/
def State.tampBoundary (s : State) : State :=
  if s.inv Ty.TAMP 0 0 && !s.tm.free then (s.raiseInv Ty.TAMP 0 2 0 0).tampErr ⟨Ty.TAMP, 0, 2, 0, 0, false, none⟩ else s

/-- A navigator cluster whose working navigators have not all completed the tick that ends overruns (R357). -/
def State.navOverruns (s : State) : State :=
  (List.range 32).foldl (fun (s : State) c =>
    if s.present Ty.NAV c && s.navsRunning c && !s.clusterDone c then s.overrun Ty.NAV c 7 else s) s

/-- The time of the boundary: mate frames of the tick that ends, its stage times and heartbeat, then the count, the compares that a
step of the time has reached (R342), and its deadlines. (DEDUCED, log entry 16) -/
def State.boundaryTime (s : State) : State :=
  s.mateLine.mateSend.navOverruns.stagesBoundary.heartbeat.timeBoundary.cmpFireAll.deadlineStep

/-- The named actions, the role and the associations' part. (DEDUCED, log entry 16) -/
def State.boundaryKeys (s : State) : State :=
  s.namedStep.pairBoundary.refusalStep.remaskStep

/-- The terminals and the key agent. (DEDUCED, log entry 16) -/
def State.boundaryTerms (s : State) : State :=
  s.sxtBoundary.enteredStep.kaBoundary

/-- The other stages, the navigators and the lines. The count was m0 in the tick that ends; `stepped`: the boundary came with a step of time. (DEDUCED, log entry 16) -/
def State.boundaryStages (s : State) (m0 : Nat) (stepped : Bool) : State :=
  let s := (s.orrBoundary m0).trxBoundary.msecBoundary.fwdBoundary.qschBoundary.agesBoundary.gateBoundary
  (((s.cktBoundary m0 stepped).circuitShow).navBoundary.pmcBoundary.dbgBoundary.serBoundary.tampBoundary).orphanStep

/-- A tick boundary. (DESIGN CHOICE, log entry 4) (DEDUCED, log entry 16) -/
def State.tickBoundary (s : State) : State :=
  let was := s.tm.active
  let m0 := s.tm.m
  let step := match s.tm.swReq with
    | some (_, b) => b
    | none => false
  let s := s.boundaryTime
  let s := s.boundaryKeys.boundaryTerms
  (s.boundaryStages m0 (s.tm.stepped || (step && s.tm.active != was))).healthStep

/-- TICK_BOUNDARY. A halted device goes on counting time and does nothing else. (DEDUCED, log entry 18) -/
def execTickBoundary (s : State) : Host.Outcome State Fault Refusal :=
  powered s fun s => if s.halted then s.timeBoundary else s.tickBoundary

/-! ## TICK_OVERRUN (R30, R32) -/

/-- A page's stage has tick work in this tick. (DESIGN CHOICE, log entry 11) -/
def State.hasWork (s : State) (ty inst : Nat) : Bool :=
  if !s.present ty inst then false
  else if ty == Ty.NAV then s.navsRunning inst
  else if ty == Ty.PMC then (match s.pmc.latch with
    | some x => x.tick == s.tm.tickNo
    | none => false)
  else if s.tm.free then false
  else if ty == Ty.TTX then s.stages inst
  else if ty == Ty.ORR then s.orrWorks inst
  else if ty == Ty.QSCH then s.isActive && s.active Ty.QSCH inst
  else if ty == Ty.SXT then s.active Ty.SXT inst
  else if ty == Ty.TSI then s.active Ty.TSI 0
  else s.silentStage ty inst

/-- A page's stage is known to have completed its work. (DESIGN CHOICE, log entry 11) -/
def State.workDone (s : State) (ty inst : Nat) : Bool := (s.tickWork.get (0, false) (pageKey ty inst)).2

/-- The answer of a stage whose work is not done by its deadline (R30): maps of fixed grants; a serve list with what was listed, here
nothing; a frame staged without control messages and circuit bytes; circuit bytes left unstaged. The others go on. (DEDUCED, log entry 14) -/
def State.overrunAnswer (s : State) (ty inst : Nat) : State :=
  let late := s.deadlineOf ty inst + 1
  if ty == Ty.ORR then (s.orrCompute inst).publishRest inst
  else if ty == Ty.QSCH then s.serveBuild inst late ((List.range 8).map fun lt => (lt, 0)) []
  else if ty == Ty.TTX then s.stageFrame inst (s.nextM) false false
  else if ty == Ty.TSI then s.tsiStage late 0
  else if ty == Ty.CKT then
    let x := s.cl inst
    s.setCl inst { x with late := some (s.tm.m - 1) }
  else s

/-- A tick stage's deadline has passed without its work done: the answer, the record and the NOTICE. (DESIGN CHOICE, log entry 11) (DEDUCED, log entry 14) -/
def State.tickOverrun (s : State) (ty inst : Nat) : State :=
  if !s.hasWork ty inst || s.workDone ty inst then s else
  let s := (s.overrunAnswer ty inst).overrun ty inst (overrunSrc ty)
  { s with tickWork := s.tickWork.set (1, false) (pageKey ty inst) (0, false) }

/-- TICK_OVERRUN of the page of a type and instance. -/
def execTickOverrun (ty inst : Nat) (s : State) := live s fun s => s.tickOverrun (ty % 256) (inst % 256)

end Sys2Proof.Machine
end

