-- ==== Sys2Proof/Machine/Dispatch.lean ====
section
/-! DEFINITION. The dispatch of every command to its meaning: one arm per constructor, in the order of the table. -/

namespace Sys2Proof.Machine

/-- The effect of a command on everything but the queue. -/
def exec (i : Instr) (s : State) : Host.Outcome State Fault Refusal :=
  match i with
  | .registerWrite addr v be cycle data => Sys2Proof.Machine.execRegisterWrite addr v be cycle data s
  | .multiRegisterRequest write addr n words cycle data => Sys2Proof.Machine.execMultiRegisterRequest write addr n words cycle data s
  | .loRegisterRead master addr cycle => Sys2Proof.Machine.execLoRegisterRead master addr cycle s
  | .hiRegisterWrite master addr v => Sys2Proof.Machine.execHiRegisterWrite master addr v s
  | .loRegisterWrite master addr v cycle data => Sys2Proof.Machine.execLoRegisterWrite master addr v cycle data s
  | .blockSoftReset ty inst => Sys2Proof.Machine.execBlockSoftReset ty inst s
  | .countClrAll ty inst => Sys2Proof.Machine.execCountClrAll ty inst s
  | .maxClr ty inst => Sys2Proof.Machine.execMaxClr ty inst s
  | .tickBoundary => Sys2Proof.Machine.execTickBoundary s
  | .epochWrite e => Sys2Proof.Machine.execEpochWrite e s
  | .tickOverrun ty inst => Sys2Proof.Machine.execTickOverrun ty inst s
  | .descriptorAgeExpiry ty inst cycle => Sys2Proof.Machine.execDescriptorAgeExpiry ty inst cycle s
  | .stageDescriptorReceive ty inst full => Sys2Proof.Machine.execStageDescriptorReceive ty inst full s
  | .xbarCross src dst full => Sys2Proof.Machine.execXbarCross src dst full s
  | .ttxFrameStage tree cycle => Sys2Proof.Machine.execTtxFrameStage tree cycle s
  | .talFrameTransmit tree => Sys2Proof.Machine.execTalFrameTransmit tree s
  | .ttxUnitPlace tree onDie ready => Sys2Proof.Machine.execTtxUnitPlace tree onDie ready s
  | .ttxModeWrite tree v => Sys2Proof.Machine.execTtxModeWrite tree v s
  | .cktLenPgWrite tree page v => Sys2Proof.Machine.execCktLenPgWrite tree page v s
  | .trxBurstReceive tree utick start b => Sys2Proof.Machine.execTrxBurstReceive tree utick start b s
  | .rogueLight tree utick first lit => Sys2Proof.Machine.execRogueLight tree utick first lit s
  | .reassemblyExpiry tree => Sys2Proof.Machine.execReassemblyExpiry tree s
  | .replayWindowRetire tree => Sys2Proof.Machine.execReplayWindowRetire tree s
  | .profileRead tree term => Sys2Proof.Machine.execProfileRead tree term s
  | .profileWriteSeed tree term => Sys2Proof.Machine.execProfileWriteSeed tree term s
  | .profileReseed tree term => Sys2Proof.Machine.execProfileReseed tree term s
  | .profileInvalidate tree term => Sys2Proof.Machine.execProfileInvalidate tree term s
  | .preambleCfgWrite tree at_ v => Sys2Proof.Machine.execPreambleCfgWrite tree at_ v s
  | .orrCompute slice => Sys2Proof.Machine.execOrrCompute slice s
  | .orrMapPublish tree cycle => Sys2Proof.Machine.execOrrMapPublish tree cycle s
  | .orrHintReceive tree => Sys2Proof.Machine.execOrrHintReceive tree s
  | .allocReadCfg slice ltree alloc => Sys2Proof.Machine.execAllocReadCfg slice ltree alloc s
  | .allocWriteCfg slice ltree alloc => Sys2Proof.Machine.execAllocWriteCfg slice ltree alloc s
  | .allocDelete slice ltree alloc => Sys2Proof.Machine.execAllocDelete slice ltree alloc s
  | .allocReadState slice ltree alloc => Sys2Proof.Machine.execAllocReadState slice ltree alloc s
  | .treeCfgWrite slice k v => Sys2Proof.Machine.execTreeCfgWrite slice k v s
  | .sxtEntriesHandover tree base cycle => Sys2Proof.Machine.execSxtEntriesHandover tree base cycle s
  | .discWindowOpen tree => Sys2Proof.Machine.execDiscWindowOpen tree s
  | .discRespReceive tree utick bursts => Sys2Proof.Machine.execDiscRespReceive tree utick bursts s
  | .rangingBurst tree term => Sys2Proof.Machine.execRangingBurst tree term s
  | .sxtControlReceive tree => Sys2Proof.Machine.execSxtControlReceive tree s
  | .ackReceive tree => Sys2Proof.Machine.execAckReceive tree s
  | .ackTimeout tree term => Sys2Proof.Machine.execAckTimeout tree term s
  | .bcastDeactivateRepeat tree term => Sys2Proof.Machine.execBcastDeactivateRepeat tree term s
  | .violWindowClose tree term => Sys2Proof.Machine.execViolWindowClose tree term s
  | .rogueWindowClose tree => Sys2Proof.Machine.execRogueWindowClose tree s
  | .quarHoldExpiry tree term => Sys2Proof.Machine.execQuarHoldExpiry tree term s
  | .deactHoldExpiry tree term => Sys2Proof.Machine.execDeactHoldExpiry tree term s
  | .authTimeoutExpiry tree term => Sys2Proof.Machine.execAuthTimeoutExpiry tree term s
  | .treeParamsSend tree => Sys2Proof.Machine.execTreeParamsSend tree s
  | .termRead tree term => Sys2Proof.Machine.execTermRead tree term s
  | .termWrite tree term => Sys2Proof.Machine.execTermWrite tree term s
  | .termDeactivate tree term => Sys2Proof.Machine.execTermDeactivate tree term s
  | .termDeactivateDark tree term => Sys2Proof.Machine.execTermDeactivateDark tree term s
  | .termQuarantine tree term => Sys2Proof.Machine.execTermQuarantine tree term s
  | .termRelease tree term => Sys2Proof.Machine.execTermRelease tree term s
  | .termRerange tree term => Sys2Proof.Machine.execTermRerange tree term s
  | .termFind tree term => Sys2Proof.Machine.execTermFind tree term s
  | .termEnable tree term => Sys2Proof.Machine.execTermEnable tree term s
  | .termClearViol tree term => Sys2Proof.Machine.execTermClearViol tree term s
  | .termAllocPush tree term => Sys2Proof.Machine.execTermAllocPush tree term s
  | .termCounterReq tree term => Sys2Proof.Machine.execTermCounterReq tree term s
  | .darkTestStart tree v => Sys2Proof.Machine.execDarkTestStart tree v s
  | .darkTestEnd tree => Sys2Proof.Machine.execDarkTestEnd tree s
  | .reachCfgWrite tree v => Sys2Proof.Machine.execReachCfgWrite tree v s
  | .discCfgWrite tree v => Sys2Proof.Machine.execDiscCfgWrite tree v s
  | .kxSessionOpen tree term => Sys2Proof.Machine.execKxSessionOpen tree term s
  | .kxSegReceive tree => Sys2Proof.Machine.execKxSegReceive tree s
  | .kxStatusReceive tree => Sys2Proof.Machine.execKxStatusReceive tree s
  | .kxAbortReceive tree => Sys2Proof.Machine.execKxAbortReceive tree s
  | .objWaitExpiry tree term obj => Sys2Proof.Machine.execObjWaitExpiry tree term obj s
  | .kxVerifyDone tree term => Sys2Proof.Machine.execKxVerifyDone tree term s
  | .sessionLimitExpiry tree term => Sys2Proof.Machine.execSessionLimitExpiry tree term s
  | .rekeyDue tree term => Sys2Proof.Machine.execRekeyDue tree term s
  | .keySwitchStart => Sys2Proof.Machine.execKeySwitchStart s
  | .oldGenerationDestroy ax => Sys2Proof.Machine.execOldGenerationDestroy ax s
  | .reagreeDue tree term => Sys2Proof.Machine.execReagreeDue tree term s
  | .reagreeRetryExpiry tree term => Sys2Proof.Machine.execReagreeRetryExpiry tree term s
  | .tmsAgeLimit tree term => Sys2Proof.Machine.execTmsAgeLimit tree term s
  | .groupRekeyStart gax => Sys2Proof.Machine.execGroupRekeyStart gax s
  | .kaRekey => Sys2Proof.Machine.execKaRekey s
  | .kaReagree => Sys2Proof.Machine.execKaReagree s
  | .kaGroupRekey => Sys2Proof.Machine.execKaGroupRekey s
  | .loadAnchors window data => Sys2Proof.Machine.execLoadAnchors window data s
  | .loadDeny window data => Sys2Proof.Machine.execLoadDeny window data s
  | .loadChain window data => Sys2Proof.Machine.execLoadChain window data s
  | .clearChain => Sys2Proof.Machine.execClearChain s
  | .todBroadcast tree => Sys2Proof.Machine.execTodBroadcast tree s
  | .timeReqReceive tree => Sys2Proof.Machine.execTimeReqReceive tree s
  | .kaNoChainCount => Sys2Proof.Machine.execKaNoChainCount s
  | .drbgReseedRetry ok => Sys2Proof.Machine.execDrbgReseedRetry ok s
  | .readAttr ax pos k256 => Sys2Proof.Machine.execReadAttr ax pos k256 s
  | .setAttr ax pos k256 => Sys2Proof.Machine.execSetAttr ax pos k256 s
  | .genKey ax pos k256 => Sys2Proof.Machine.execGenKey ax pos k256 s
  | .destroyPos ax pos k256 => Sys2Proof.Machine.execDestroyPos ax pos k256 s
  | .destroy ax pos k256 => Sys2Proof.Machine.execDestroy ax pos k256 s
  | .importKey ax pos k256 data => Sys2Proof.Machine.execImportKey ax pos k256 data s
  | .importPub ax pos k256 => Sys2Proof.Machine.execImportPub ax pos k256 s
  | .importOpen ax pos k256 data => Sys2Proof.Machine.execImportOpen ax pos k256 data s
  | .importClose ax pos k256 => Sys2Proof.Machine.execImportClose ax pos k256 s
  | .mkaKdf ax pos k256 => Sys2Proof.Machine.execMkaKdf ax pos k256 s
  | .cmac ax pos k256 data => Sys2Proof.Machine.execCmac ax pos k256 data s
  | .wrap ax pos k256 => Sys2Proof.Machine.execWrap ax pos k256 s
  | .unwrap ax pos k256 data => Sys2Proof.Machine.execUnwrap ax pos k256 data s
  | .groupMembership ax pos k256 => Sys2Proof.Machine.execGroupMembership ax pos k256 s
  | .almPrefetch slice axs hold => Sys2Proof.Machine.execAlmPrefetch slice axs hold s
  | .remaskPassOverdue => Sys2Proof.Machine.execRemaskPassOverdue s
  | .ciphItem inst it => Sys2Proof.Machine.execCiphItem inst it s
  | .demandLoadComplete inst ax ok => Sys2Proof.Machine.execDemandLoadComplete inst ax ok s
  | .missHoldExpiry inst => Sys2Proof.Machine.execMissHoldExpiry inst s
  | .katStart inst => Sys2Proof.Machine.execKatStart inst s
  | .katDone inst fails => Sys2Proof.Machine.execKatDone inst fails s
  | .trkModeWrite v => Sys2Proof.Machine.execTrkModeWrite v s
  | .trkRxFrame port cycle frame full corr bad => Sys2Proof.Machine.execTrkRxFrame port cycle frame full corr bad s
  | .trkTxSelect port cycle => Sys2Proof.Machine.execTrkTxSelect port cycle s
  | .txSaStart inst v => Sys2Proof.Machine.execTxSaStart inst v s
  | .saRead inst sc an table => Sys2Proof.Machine.execSaRead inst sc an table s
  | .saWrite inst sc an table => Sys2Proof.Machine.execSaWrite inst sc an table s
  | .saEnable inst sc an table => Sys2Proof.Machine.execSaEnable inst sc an table s
  | .saDisable inst sc an table => Sys2Proof.Machine.execSaDisable inst sc an table s
  | .trkLinkChange port anDone aligned localF remoteF locks => Sys2Proof.Machine.execTrkLinkChange port anDone aligned localF remoteF locks s
  | .tcMatchExpiry slice => Sys2Proof.Machine.execTcMatchExpiry slice s
  | .fwdFrame slice cycle => Sys2Proof.Machine.execFwdFrame slice cycle s
  | .learnRequest slice => Sys2Proof.Machine.execLearnRequest slice s
  | .fwdSearch slice => Sys2Proof.Machine.execFwdSearch slice s
  | .fwdNext slice start => Sys2Proof.Machine.execFwdNext slice start s
  | .fwdInsert slice => Sys2Proof.Machine.execFwdInsert slice s
  | .fwdDelete slice => Sys2Proof.Machine.execFwdDelete slice s
  | .flushByPort slice => Sys2Proof.Machine.execFlushByPort slice s
  | .tblRead slice table => Sys2Proof.Machine.execTblRead slice table s
  | .tblWrite slice table => Sys2Proof.Machine.execTblWrite slice table s
  | .ageSweepStart slice => Sys2Proof.Machine.execAgeSweepStart slice s
  | .ageSweepDone slice cycle => Sys2Proof.Machine.execAgeSweepDone slice cycle s
  | .qschAdmit slice cycle => Sys2Proof.Machine.execQschAdmit slice cycle s
  | .spillPageOut slice n => Sys2Proof.Machine.execSpillPageOut slice n s
  | .pageIn slice table idx ok => Sys2Proof.Machine.execPageIn slice table idx ok s
  | .serveListBuild slice cycle cut bad => Sys2Proof.Machine.execServeListBuild slice cycle cut bad s
  | .qRead slice table => Sys2Proof.Machine.execQRead slice table s
  | .qWrite slice table => Sys2Proof.Machine.execQWrite slice table s
  | .qReadState slice table => Sys2Proof.Machine.execQReadState slice table s
  | .qFlush slice table => Sys2Proof.Machine.execQFlush slice table s
  | .queueSample slice => Sys2Proof.Machine.execQueueSample slice s
  | .gateCommit inst cycle => Sys2Proof.Machine.execGateCommit inst cycle s
  | .gateListStart inst cycle => Sys2Proof.Machine.execGateListStart inst cycle s
  | .gateEntryAdvance inst cycle => Sys2Proof.Machine.execGateEntryAdvance inst cycle s
  | .cktFrameTransmit link => Sys2Proof.Machine.execCktFrameTransmit link s
  | .cktFrameReceive link cycle at0 frame => Sys2Proof.Machine.execCktFrameReceive link cycle at0 frame s
  | .cktSignalChange link lost => Sys2Proof.Machine.execCktSignalChange link lost s
  | .pmSecondEnd link => Sys2Proof.Machine.execPmSecondEnd link s
  | .pmBinFinal link => Sys2Proof.Machine.execPmBinFinal link s
  | .pathRead link path => Sys2Proof.Machine.execPathRead link path s
  | .pathWrite link path => Sys2Proof.Machine.execPathWrite link path s
  | .pathReadState link path => Sys2Proof.Machine.execPathReadState link path s
  | .pathClearCounts link path => Sys2Proof.Machine.execPathClearCounts link path s
  | .binRead link ent bin ok => Sys2Proof.Machine.execBinRead link ent bin ok s
  | .tsiStage cycle moved => Sys2Proof.Machine.execTsiStage cycle moved s
  | .connRead page => Sys2Proof.Machine.execConnRead page s
  | .connWrite => Sys2Proof.Machine.execConnWrite s
  | .connClear => Sys2Proof.Machine.execConnClear s
  | .copyActive => Sys2Proof.Machine.execCopyActive s
  | .clearPage => Sys2Proof.Machine.execClearPage s
  | .tsiArm => Sys2Proof.Machine.execTsiArm s
  | .tsiVerifyDone => Sys2Proof.Machine.execTsiVerifyDone s
  | .tsiCancel => Sys2Proof.Machine.execTsiCancel s
  | .assignPushStandby tree term => Sys2Proof.Machine.execAssignPushStandby tree term s
  | .assignPushActive tree term => Sys2Proof.Machine.execAssignPushActive tree term s
  | .incrWrite d incr cycle => Sys2Proof.Machine.execIncrWrite d incr cycle s
  | .adjAdd d subns => Sys2Proof.Machine.execAdjAdd d subns s
  | .adjSet d subns => Sys2Proof.Machine.execAdjSet d subns s
  | .keepalive d => Sys2Proof.Machine.execKeepalive d s
  | .holdoverEnter d => Sys2Proof.Machine.execHoldoverEnter d s
  | .accGrowth d => Sys2Proof.Machine.execAccGrowth d s
  | .domainSwitchStart target mode => Sys2Proof.Machine.execDomainSwitchStart target mode s
  | .domValidWrite d v => Sys2Proof.Machine.execDomValidWrite d v s
  | .cmpWrite c secLo secHi ns ctl cycle => Sys2Proof.Machine.execCmpWrite c secLo secHi ns ctl cycle s
  | .cmpFire cycle => Sys2Proof.Machine.execCmpFire cycle s
  | .ppsInEdge rising cycle => Sys2Proof.Machine.execPpsInEdge rising cycle s
  | .snapshot cycle => Sys2Proof.Machine.execSnapshot cycle s
  | .navInstruction cluster nav cycle stalls hold => Sys2Proof.Machine.execNavInstruction cluster nav cycle stalls hold s
  | .wld cluster nav cycle stalls => Sys2Proof.Machine.execWld cluster nav cycle stalls s
  | .wst cluster nav cycle stalls => Sys2Proof.Machine.execWst cluster nav cycle stalls s
  | .wadd cluster nav cycle stalls => Sys2Proof.Machine.execWadd cluster nav cycle stalls s
  | .wsub cluster nav cycle stalls => Sys2Proof.Machine.execWsub cluster nav cycle stalls s
  | .wand cluster nav cycle stalls => Sys2Proof.Machine.execWand cluster nav cycle stalls s
  | .wor cluster nav cycle stalls => Sys2Proof.Machine.execWor cluster nav cycle stalls s
  | .wxor cluster nav cycle stalls => Sys2Proof.Machine.execWxor cluster nav cycle stalls s
  | .wcmpeq cluster nav cycle stalls => Sys2Proof.Machine.execWcmpeq cluster nav cycle stalls s
  | .wshl cluster nav cycle stalls => Sys2Proof.Machine.execWshl cluster nav cycle stalls s
  | .wshr cluster nav cycle stalls => Sys2Proof.Machine.execWshr cluster nav cycle stalls s
  | .wins cluster nav cycle stalls => Sys2Proof.Machine.execWins cluster nav cycle stalls s
  | .wext cluster nav cycle stalls => Sys2Proof.Machine.execWext cluster nav cycle stalls s
  | .crcstep cluster nav cycle stalls => Sys2Proof.Machine.execCrcstep cluster nav cycle stalls s
  | .mbxSend cluster nav cycle stalls full => Sys2Proof.Machine.execMbxSend cluster nav cycle stalls full s
  | .mbxRecv cluster nav cycle stalls => Sys2Proof.Machine.execMbxRecv cluster nav cycle stalls s
  | .wft cluster nav cycle stalls => Sys2Proof.Machine.execWft cluster nav cycle stalls s
  | .flk cluster nav cycle stalls => Sys2Proof.Machine.execFlk cluster nav cycle stalls s
  | .almreq cluster nav cycle stalls => Sys2Proof.Machine.execAlmreq cluster nav cycle stalls s
  | .mbxDeliver cluster => Sys2Proof.Machine.execMbxDeliver cluster s
  | .msecRegMessage cluster inst => Sys2Proof.Machine.execMsecRegMessage cluster inst s
  | .navInject cluster cycle => Sys2Proof.Machine.execNavInject cluster cycle s
  | .injectComplete => Sys2Proof.Machine.execInjectComplete s
  | .almreqComplete cluster nav => Sys2Proof.Machine.execAlmreqComplete cluster nav s
  | .hostMailboxPost cluster => Sys2Proof.Machine.execHostMailboxPost cluster s
  | .navFrameRx cluster => Sys2Proof.Machine.execNavFrameRx cluster s
  | .navWatchdog cluster nav => Sys2Proof.Machine.execNavWatchdog cluster nav s
  | .engineFail cluster nav => Sys2Proof.Machine.execEngineFail cluster nav s
  | .navEnable cluster v => Sys2Proof.Machine.execNavEnable cluster v s
  | .imgLoad cluster v image => Sys2Proof.Machine.execImgLoad cluster v image s
  | .imgLoadDone cluster err => Sys2Proof.Machine.execImgLoadDone cluster err s
  | .minSvnWrite cluster v => Sys2Proof.Machine.execMinSvnWrite cluster v s
  | .bankArm cluster => Sys2Proof.Machine.execBankArm cluster s
  | .bankCancel cluster => Sys2Proof.Machine.execBankCancel cluster s
  | .bankForced cluster nav => Sys2Proof.Machine.execBankForced cluster nav s
  | .regionCommit inst v => Sys2Proof.Machine.execRegionCommit inst v s
  | .qmapFence inst waited => Sys2Proof.Machine.execQmapFence inst waited s
  | .sealInit inst => Sys2Proof.Machine.execSealInit inst s
  | .sealInitDone inst => Sys2Proof.Machine.execSealInitDone inst s
  | .hbmLineRead inst master line got ecc bad => Sys2Proof.Machine.execHbmLineRead inst master line got ecc bad s
  | .hbmLineWrite inst master off data got ecc bad => Sys2Proof.Machine.execHbmLineWrite inst master off data got ecc bad s
  | .resealRange inst r => Sys2Proof.Machine.execResealRange inst r s
  | .resealNode inst r => Sys2Proof.Machine.execResealNode inst r s
  | .resealDone inst => Sys2Proof.Machine.execResealDone inst s
  | .doorbellWrite ring index descs => Sys2Proof.Machine.execDoorbellWrite ring index descs s
  | .ringCmdWrite ring cycle data => Sys2Proof.Machine.execRingCmdWrite ring cycle data s
  | .ringCmdRead ring cycle => Sys2Proof.Machine.execRingCmdRead ring cycle s
  | .ringCmdExec ring cycle data => Sys2Proof.Machine.execRingCmdExec ring cycle data s
  | .ringCmdBulk ring cycle => Sys2Proof.Machine.execRingCmdBulk ring cycle s
  | .execTimeout ring cycle => Sys2Proof.Machine.execExecTimeout ring cycle s
  | .completionPost ring => Sys2Proof.Machine.execCompletionPost ring s
  | .exceptionPost ring => Sys2Proof.Machine.execExceptionPost ring s
  | .injectionDescriptor ring cycle data => Sys2Proof.Machine.execInjectionDescriptor ring cycle data s
  | .hifFault cause => Sys2Proof.Machine.execHifFault cause s
  | .ringFault ring timeout => Sys2Proof.Machine.execRingFault ring timeout s
  | .hifResume => Sys2Proof.Machine.execHifResume s
  | .ringEnable v => Sys2Proof.Machine.execRingEnable v s
  | .winFenceRead waited => Sys2Proof.Machine.execWinFenceRead waited s
  | .vecEoi v => Sys2Proof.Machine.execVecEoi v s
  | .ringCoalTimeout ring cycle => Sys2Proof.Machine.execRingCoalTimeout ring cycle s
  | .msixUnmask v => Sys2Proof.Machine.execMsixUnmask v s
  | .crcStart inst v => Sys2Proof.Machine.execCrcStart inst v s
  | .crcData8 inst v => Sys2Proof.Machine.execCrcData8 inst v s
  | .crcData16 inst v => Sys2Proof.Machine.execCrcData16 inst v s
  | .crcData32 inst v => Sys2Proof.Machine.execCrcData32 inst v s
  | .crcData128 inst v => Sys2Proof.Machine.execCrcData128 inst v s
  | .crcCheck inst => Sys2Proof.Machine.execCrcCheck inst s
  | .pmcSnapshot cycle own => Sys2Proof.Machine.execPmcSnapshot cycle own s
  | .errEvent evs => Sys2Proof.Machine.execErrEvent evs s
  | .escWindowClose ty inst src => Sys2Proof.Machine.execEscWindowClose ty inst src s
  | .errCaptureRelease ty inst => Sys2Proof.Machine.execErrCaptureRelease ty inst s
  | .errForce ty inst v => Sys2Proof.Machine.execErrForce ty inst v s
  | .severeClear hi v => Sys2Proof.Machine.execSevereClear hi v s
  | .firstRelease => Sys2Proof.Machine.execFirstRelease s
  | .roleInChange level cycle => Sys2Proof.Machine.execRoleInChange level cycle s
  | .roleYield => Sys2Proof.Machine.execRoleYield s
  | .mateHandshakeMessage kind d => Sys2Proof.Machine.execMateHandshakeMessage kind d s
  | .mateFrameReceive frame => Sys2Proof.Machine.execMateFrameReceive frame s
  | .linkRekeyDue => Sys2Proof.Machine.execLinkRekeyDue s
  | .pairResync => Sys2Proof.Machine.execPairResync s
  | .pairRekeyNow => Sys2Proof.Machine.execPairRekeyNow s
  | .powerOnSequence array navBad katBad drbg hbmBad pllBad => Sys2Proof.Machine.execPowerOnSequence array navBad katBad drbg hbmBad pllBad s
  | .perstDeassert => Sys2Proof.Machine.execPerstDeassert s
  | .porAssert => Sys2Proof.Machine.execPorAssert s
  | .powerCycle torn => Sys2Proof.Machine.execPowerCycle torn s
  | .supplyLoss core torn => Sys2Proof.Machine.execSupplyLoss core torn s
  | .vbatLoss => Sys2Proof.Machine.execVbatLoss s
  | .lcAdvance target data cut => Sys2Proof.Machine.execLcAdvance target data cut s
  | .readId window => Sys2Proof.Machine.execReadId window s
  | .writeRootHash window d => Sys2Proof.Machine.execWriteRootHash window d s
  | .writeImageKey slot window d => Sys2Proof.Machine.execWriteImageKey slot window d s
  | .revokeImageKey slot => Sys2Proof.Machine.execRevokeImageKey slot s
  | .writeSubsys window d => Sys2Proof.Machine.execWriteSubsys window d s
  | .logAppend => Sys2Proof.Machine.execLogAppend s
  | .logbookAppend torn => Sys2Proof.Machine.execLogbookAppend torn s
  | .tamperSample conds tin => Sys2Proof.Machine.execTamperSample conds tin s
  | .tamperFastDetect k => Sys2Proof.Machine.execTamperFastDetect k s
  | .tampFuse src => Sys2Proof.Machine.execTampFuse src s
  | .tampTest src => Sys2Proof.Machine.execTampTest src s
  | .tampTestEnd detected => Sys2Proof.Machine.execTampTestEnd detected s
  | .rtcSet sec => Sys2Proof.Machine.execRtcSet sec s
  | .tapInstruction ir => Sys2Proof.Machine.execTapInstruction ir s
  | .dapaccAccess addr v cycle got ecc bad => Sys2Proof.Machine.execDapaccAccess addr v cycle got ecc bad s
  | .tokenFifoWrite v => Sys2Proof.Machine.execTokenFifoWrite v s
  | .tokenSubmit => Sys2Proof.Machine.execTokenSubmit s
  | .dbgRelock => Sys2Proof.Machine.execDbgRelock s
  | .chalNew => Sys2Proof.Machine.execChalNew s
  | .unlockExpiry => Sys2Proof.Machine.execUnlockExpiry s
  | .linkBringupStart link => Sys2Proof.Machine.execLinkBringupStart link s
  | .trainingBlockReceive n b => Sys2Proof.Machine.execTrainingBlockReceive n b s
  | .stepSwitch link => Sys2Proof.Machine.execStepSwitch link s
  | .highRateTrainingDone n v => Sys2Proof.Machine.execHighRateTrainingDone n v s
  | .stepTimeout link => Sys2Proof.Machine.execStepTimeout link s
  | .mateCodewordReceive n hdr chunk fec skew => Sys2Proof.Machine.execMateCodewordReceive n hdr chunk fec skew s
  | .fastExit n => Sys2Proof.Machine.execFastExit n s
  | .laneLockLoss n => Sys2Proof.Machine.execLaneLockLoss n s
  | .prbsCtlWrite n v => Sys2Proof.Machine.execPrbsCtlWrite n v s
  | .injOne n => Sys2Proof.Machine.execInjOne n s
  | .adaptUpdate n v => Sys2Proof.Machine.execAdaptUpdate n v s
  | .adaptRead n index => Sys2Proof.Machine.execAdaptRead n index s
  | .adaptReseed n => Sys2Proof.Machine.execAdaptReseed n s
  | .adaptRetrain n => Sys2Proof.Machine.execAdaptRetrain n s
  | .pcieLinkUp width speed => Sys2Proof.Machine.execPcieLinkUp width speed s
  | .electricalIdleDetect n => Sys2Proof.Machine.execElectricalIdleDetect n s
  | .idleKeepExpiry n => Sys2Proof.Machine.execIdleKeepExpiry n s
  | .lanePllRelock n => Sys2Proof.Machine.execLanePllRelock n s
  | .prbsCheck n errs lose => Sys2Proof.Machine.execPrbsCheck n errs lose s

end Sys2Proof.Machine
end

