-- ==== Sys2Proof/Safety.lean ====
section
/-! DEFINITION. What statements mean by a safe command, a safe run, and an interrupt that no vector has missed. -/

namespace Sys2Proof

open Sys2Proof.Machine

/-- A command completes in a state: it ends in neither a fault nor a refusal. -/
def Completes (c : Instr) (s : State) : Prop := ∃ t, exec c s = .next t

/-- The device acts on commands that a halted device, or one under reset, ignores (R444, R521). -/
def Running (s : State) : Prop := s.halted = false ∧ s.off = false

/-- What a command gives: its whole effect is that the state becomes t, with the interrupt vectors brought up to date (R422) and
the waiting commands and the part as they were. -/
def Gives (c : Instr) (s t : State) : Prop := exec c s = .next (s.done t)

/-- The commands that act while the device is halted (R444): register accesses, of which a halted device takes only those of the
Binnacle's error words, the tick, error capture, the clear of SEVERE, the Logbook, power and tamper. (DEDUCED, log entry 18) -/
def ActsHalted : Instr → Prop
  | .registerWrite .. | .multiRegisterRequest .. | .loRegisterRead .. | .tickBoundary | .errEvent .. | .escWindowClose ..
  | .errCaptureRelease .. | .severeClear .. | .logbookAppend .. | .powerOnSequence .. | .porAssert | .powerCycle .. | .supplyLoss ..
  | .vbatLoss | .tamperSample .. | .tamperFastDetect .. => True
  | _ => False

/-- The commands that act while POR_N is asserted or the main supplies are absent (R483, R486, R490, R521): power and tamper, and an
error of the TAMP state machine. -/
def ActsOff : Instr → Prop
  | .powerOnSequence .. | .porAssert | .powerCycle .. | .supplyLoss .. | .vbatLoss | .tamperSample .. | .tamperFastDetect ..
  | .errEvent .. => True
  | _ => False

/-- Every page whose interrupt level is 1 and is routed has its vector's request standing (R422, R423). -/
def LevelsSeen (s : State) : Prop := ∀ v ∈ s.levelVecs, (s.vec v).req = true

/-- A run of n steps that meets no fault and no refusal. -/
def SafeRun : Nat → State → Prop
  | 0, _ => True
  | n + 1, s => ∃ t, step s = .next t ∧ SafeRun n t

end Sys2Proof
end

