-- ==== Sys2Proof/Certificates/Slice0/Obligations.lean ====
section
/-! DEFINITION. The statements for the provers: what each family of commands does, what it leaves alone, what every step keeps, and
what the shared operations compute. A right side `s.done t` or `Gives c s t` gives the whole next state, so it is the result and the frame
at once: every field and every register that t does not change is as before. -/

open Sys2Proof Sys2Proof.Machine

/-- For every command c, list rest and state s: a step of s with c :: rest waiting is exec of c on s with rest waiting, and
a step of s with nothing waiting answers s (idling is the model's choice, log entry 4). The per-command statements reach
a run only through this one. -/
def Obligations.StepRunsFrontCommand : Prop :=
  (∀ (c : Instr) (rest : List Instr) (s : State), step { s with pending := c :: rest } = exec c { s with pending := rest }) ∧
  ∀ s : State, s.pending = [] → step s = .next s

/-- For every command and every state exec answers a next state: no command of the table ends in a fault or a refusal of the
model. What the answer is, the statements of the families say. -/
def Obligations.EveryCommandCompletes : Prop :=
  ∀ (c : Instr) (s : State), Completes c s

/-- While the device is halted every command outside ActsHalted leaves the whole state as it is, and while POR_N is asserted
or the supplies are absent every command outside ActsOff does. Which commands act is the model's reading of R444 (log
entry 18, DEDUCED). -/
def Obligations.HaltedDeviceIgnoresCommands : Prop :=
  (∀ (c : Instr) (s : State), s.halted = true → ¬ ActsHalted c → exec c s = .next s) ∧
  ∀ (c : Instr) (s : State), s.off = true → ¬ ActsOff c → exec c s = .next s

/-- For every command, state and next state: the queue of waiting commands and the part of R4 (which units are present) are
what they were, so presence never changes. -/
def Obligations.QueueAndPartKept : Prop :=
  ∀ (c : Instr) (s t : State), exec c s = .next t →
    t.pending = s.pending ∧ t.part = s.part ∧ ∀ ty inst, t.present ty inst = s.present ty inst

/-- LevelsSeen says that for each page whose interrupt level is 1 (a flag of INT_STS that INT_EN enables) and whose route is
enabled, the request of the routed vector stands, so no interrupt is lost. From every state that meets it, every step
that answers a next state gives one that meets it again. Not only runs from reset are meant: any state. -/
def Obligations.RoutedLevelsKeepTheirRequest : Prop :=
  ∀ s t : State, LevelsSeen s → step s = .next t → LevelsSeen t

/-- State.reset meets LevelsSeen: no page has its interrupt level at 1. -/
def Obligations.RoutedLevelsAtReset : Prop :=
  LevelsSeen State.reset

/-- For every page that is absent and every offset: a read by any master shows 0, so BLOCK_ID reads type 0 and instance 0
and CAP.PRESENT reads 0, and it changes nothing; a write by any master leaves the whole state as it is, so it raises no
event and no interrupt. TOP is present on every part; its BLOCK_ID reads 0 and its CAP reads 1, and CAP of any page is 1
exactly where the page is present. -/
def Obligations.AbsentPageReadsZeroIgnoresWrites : Prop :=
  (∀ (s : State) (master k v : Nat) (data : Bytes), k < 0x0FF00000 → s.present (keyTy k) (keyInst k) = false →
      s.readReg master k = (s, 0) ∧ s.writeReg master k v data = s) ∧
  (∀ s : State, s.present Ty.TOP 0 = true ∧ s.view (regKey Ty.TOP 0 0) = 0 ∧ s.view (regKey Ty.TOP 0 8) = 1) ∧
  ∀ (s : State) (ty inst : Nat), ty < 255 → inst < 256 → (s.view (regKey ty inst 8) = 1 ↔ s.present ty inst = true)

/-- For a field of w bits at bit lo of a 32-bit register, an old word and a written word: RW stores the written field
(through the field's storing rule), W1C clears the bits written 1, W1S sets the bits written 1, RWO stores the field
while its lock is open and keeps it after, RO and WO keep it. A bit outside the field keeps its value whatever is
written. -/
def Obligations.AccessCodesStoreSetClear : Prop :=
  ∀ (f : FieldSpec) (rwoOpen : Bool) (old v : Nat), old < 2 ^ 32 → f.lo + f.w ≤ 32 →
    let new := FieldSpec.write rwoOpen v old f
    let x := bitsOf v f.lo f.w
    let o := bitsOf old f.lo f.w
    (f.acc = .rw → bitsOf new f.lo f.w = f.store x % 2 ^ f.w) ∧
    (f.acc = .w1c → ∀ i < f.w, bitOf new (f.lo + i) = (bitOf old (f.lo + i) && !bitOf v (f.lo + i))) ∧
    (f.acc = .w1s → ∀ i < f.w, bitOf new (f.lo + i) = (bitOf old (f.lo + i) || bitOf v (f.lo + i))) ∧
    (f.acc = .rwo → bitsOf new f.lo f.w = if rwoOpen then x else o) ∧
    (f.acc = .ro ∨ f.acc = .wo → new = old) ∧
    ∀ i, i < f.lo ∨ f.lo + f.w ≤ i → bitOf new i = bitOf old i

/-- On a running device. REGISTER_WRITE with byte enables other than 0xF only counts BAD_ACCESS; with 0xF to a present
page's INT_EN (any page but a secondary trunk instance) it stores by the access codes; to an absent page it changes
nothing. LO_REGISTER_READ of a present _LO half puts the _HI half into the master's own shadow and answers the _LO half.
HI_REGISTER_WRITE of a present, defined _HI half only holds it for that master. LO_REGISTER_WRITE of a plain pair (not
of HIF, AST, TAMP, TRX or MSEC, and not mirrored) commits the held _HI and the _LO together and empties the hold.
MULTI_REGISTER_REQUEST reading one register that is no half of a pair answers what it shows; writing both halves of a
pair writes _HI first and then _LO. Each happens after the domain counters have moved to the command's cycle. -/
def Obligations.RegisterCommandsReadAndWrite : Prop :=
  ∀ s : State, Running s →
    (∀ (addr : Nat) (v : Word) (be cycle : Nat) (data : List Byte), be ≠ 15 →
      Gives (.registerWrite addr v be cycle data) s ((s.advanceTo (min cycle s.tm.len)).count Reg.HIF_BAD_ACCESS 0)) ∧
    (∀ (ty inst : Nat) (v : Word) (cycle : Nat) (data : List Byte), ty < 255 → inst < 256 → s.present ty inst = true →
      Gives (.registerWrite (regKey ty inst 0x018) v 15 cycle data) s
        ((s.advanceTo (min cycle s.tm.len)).plainWrite (regKey ty inst 0x018) v.toNat)) ∧
    (∀ (addr : Nat) (v : Word) (cycle : Nat) (data : List Byte), addr < 0x0FF00000 →
      s.present (keyTy (addr / 4 * 4)) (keyInst (addr / 4 * 4)) = false →
      Gives (.registerWrite addr v 15 cycle data) s (s.advanceTo (min cycle s.tm.len))) ∧
    (∀ (master addr cycle : Nat), s.present (keyTy addr) (keyInst addr) = true → isLo addr = true →
      let s1 := s.advanceTo (min cycle s.tm.len)
      Gives (.loRegisterRead master addr cycle) s
        ({ s1 with pr := { s1.pr with
            shadow := s1.pr.shadow.set 0 (pairKey (master % 64) (addr + 4)) (BitVec.ofNat 32 (s1.view (addr + 4))) } }.answer [s1.view addr])) ∧
    (∀ (master addr : Nat) (v : Word), addr < 0x0FF00000 → s.present (keyTy addr) (keyInst addr) = true →
      s.secondary (keyTy addr) (keyInst addr) (keyOff addr) = false → (regSpec (keyTy addr) (keyOff addr)).isSome = true → isHi addr = true →
      Gives (.hiRegisterWrite master addr v) s
        { s with pr := { s.pr with held := s.pr.held.set none (pairKey (master % 64) addr) (some v) } }) ∧
    (∀ (master addr : Nat) (v hi : Word) (cycle : Nat) (data : List Byte), addr < 0x0FF00000 →
      s.present (keyTy addr) (keyInst addr) = true → s.secondary (keyTy addr) (keyInst addr) (keyOff addr) = false →
      (regSpec (keyTy addr) (keyOff addr)).isSome = true → isLo addr = true → isHi addr = false →
      keyTy addr ∉ [Ty.HIF, Ty.AST, Ty.TAMP, Ty.TRX, Ty.MSEC] → mirroredReg (keyTy addr) (keyOff addr) = false →
      s.pr.held.get none (pairKey (master % 64) (addr + 4)) = some hi →
      let s1 := s.advanceTo (min cycle s.tm.len)
      Gives (.loRegisterWrite master addr v cycle data) s
        (({ s1 with pr := { s1.pr with held := s1.pr.held.erase (pairKey (master % 64) (addr + 4)) } }.plainWrite (addr + 4) hi.toNat).plainWrite
          addr v.toNat)) ∧
    (∀ (addr cycle : Nat) (words : List Word) (data : List Byte), addr % 4 = 0 → addr < 0x0FF00000 → isLo addr = false → isHi addr = false →
      s.present (keyTy addr) (keyInst addr) = true →
      let s1 := s.advanceTo (min cycle s.tm.len)
      Gives (.multiRegisterRequest false addr 1 words cycle data) s (s1.answer [s1.view addr])) ∧
    ∀ (addr cycle : Nat) (lo hi : Word) (data : List Byte), addr % 4 = 0 → isLo addr = true →
      Gives (.multiRegisterRequest true addr 2 [lo, hi] cycle data) s
        (((s.advanceTo (min cycle s.tm.len)).writeReg 0 (addr + 4) hi.toNat data).writeReg 0 addr lo.toNat data)

/-- On a running device, for a page that is present: COUNT_CLR_ALL returns exactly the counters of the page to reset (a
register word of the page that is a counter reads its reset value, any other word of any page reads as before); MAX_CLR
on a tick stage clears TICK_DONE_MAX; BLOCK_SOFT_RESET of a page with nothing of its own beyond registers (QSCH, FWD,
TSI apart, here QSCH and FWD) is the common reset of the page. The common reset changes no register word of another
page, returns the page's counters to reset, and releases no RWO lock (R10). A soft reset of TOP changes nothing. -/
def Obligations.ClearsAndSoftResetOfOnePage : Prop :=
  ∀ s : State, Running s →
    (∀ ty inst, s.present ty inst = true → Gives (.countClrAll ty inst) s (s.clearCounters ty inst)) ∧
    (∀ ty inst k, (s.clearCounters ty inst).rd k =
      if keyTy k = ty ∧ keyInst k = inst ∧ isCounter ty (keyOff k) = true then resetAt k else s.rd k) ∧
    (∀ ty inst, s.present ty inst = true → isTickStage ty = true →
      Gives (.maxClr ty inst) s (s.setReg (Reg.TICK_DONE_MAX ty) inst 0)) ∧
    (∀ ty inst, ty = Ty.QSCH ∨ ty = Ty.FWD → s.present ty inst = true → Gives (.blockSoftReset ty inst) s (s.softCommon ty inst)) ∧
    (∀ ty inst, (s.softCommon ty inst).rwo = s.rwo) ∧
    (∀ ty inst k, ¬ (keyTy k = ty ∧ keyInst k = inst) → s.regs.wf resetAt = true → (s.softCommon ty inst).rd k = s.rd k) ∧
    (∀ ty inst k, keyTy k = ty → keyInst k = inst → isCounter ty (keyOff k) = true → (s.softCommon ty inst).rd k = resetAt k) ∧
    ∀ inst, Gives (.blockSoftReset Ty.TOP inst) s s

/-- In every state. A cold reset keeps OTP, the backup cell, the part, host memory and the waiting commands, ends a halt and
returns every register to reset but the TAMP settings the cell keeps. POR_ASSERT of a device that is not halted is a
cold reset with reset held; a halted one stays halted, its root gone and its unlock ended. POWER_CYCLE is a cold reset
that ends a halt and restores the supplies. SUPPLY_LOSS with the supplies already gone changes nothing; else it is a
cold reset, held and dark, which ends a halt only where VDD_CORE falls too. VBAT_LOSS with supplies present changes
nothing; without, the cell and the TAMP settings go. POWER_ON_SEQUENCE runs once: the Logbook, the life cycle, the
Lodestone, the engines and cores that fail, the DRBG, a challenge, stacks and lanes, in that order, and an already
halted or just halted device stops there. A running device's PERST_DEASSERT ends the assertion of PERST_N, from which
the refusal of tick IVs counts, and after the sequence raises the link. -/
def Obligations.StartPowerAndColdResets : Prop :=
  (∀ s : State,
    (s.cold.lcs.otp = s.lcs.otp ∧ s.cold.lcs.vbat = s.lcs.vbat ∧ s.cold.part = s.part ∧ s.cold.hif.mem = s.hif.mem ∧ s.cold.pending = s.pending ∧
      s.cold.halted = false ∧ s.cold.lcs.started = false ∧ s.cold.lcs.root = none ∧ s.cold.lcs.unlock = none ∧ s.cold.alm = State.reset.alm ∧
      s.cold.ka = State.reset.ka ∧ s.cold.terms = [] ∧ s.cold.tm = State.reset.tm ∧
      ∀ k : Nat, (tampKept k = false → s.cold.regs.find k = none) ∧ (tampKept k = true → s.cold.regs.find k = s.regs.find k)) ∧
    (s.halted = false → Gives .porAssert s { s.cold with lcs := { s.cold.lcs with off := true } }) ∧
    (s.halted = true → s.lcs.unlock = none → Gives .porAssert s { s with lcs := { s.lcs with root := none } }) ∧
    Gives (.powerCycle none) s { s.cold with lcs := { s.cold.lcs with dark := false } } ∧
    (∀ (b e : Bytes) (q : List Bytes), s.lcs.logQ = e :: q → s.lcs.otp.log.length < 2048 →
      let c := s.cold
      Gives (.powerCycle (some b)) s { c with lcs := { c.lcs with dark := false, otp := { c.lcs.otp with log := c.lcs.otp.log ++ [sliceB b 0 16] } } }) ∧
    (∀ (core : Bool) (t : Option (List Byte)), s.lcs.dark = true → Gives (.supplyLoss core t) s s) ∧
    (∀ core : Bool, s.lcs.dark = false →
      Gives (.supplyLoss core none) s { s.cold with lcs := { s.cold.lcs with off := true, dark := true }, halted := s.halted && !core }) ∧
    (s.lcs.dark = false → Gives .vbatLoss s s) ∧
    (s.lcs.dark = true → Gives .vbatLoss s { s with
      lcs := { s.lcs with vbat := { vbatReset with lost := true }, run := [], raised := 0, cond := 0 }
      regs := s.regs.keep fun k _ => !tampKept k
      rwo := s.rwo.keep fun k _ => !tampKept k }) ∧
    (∀ (a : List Word) (nav kat : List (Nat × Nat)) (drbg : Bool) (hbm pll : List Nat),
      (s.lcs.started = true → Gives (.powerOnSequence a nav kat drbg hbm pll) s s) ∧
      (s.lcs.started = false →
        let r : State := { s with lcs := { s.lcs with started := true, off := false, dark := false } }
        (s.halted = true → Gives (.powerOnSequence a nav kat drbg hbm pll) s r) ∧
        (s.halted = false →
          let e := r.startLog.lcEvaluate
          (e.halted = true → Gives (.powerOnSequence a nav kat drbg hbm pll) s e) ∧
          (e.halted = false →
            let r := nav.foldl (fun (s : State) q => s.startNav (q.1 % 32) (q.2 % 16)) (e.lodestone a)
            let r := kat.foldl (fun (s : State) q => s.startKat (q.1 % 8) q.2) r
            let r := (r.startDrbg drbg).newChallenge
            let r := hbm.foldl (fun (s : State) i => if s.present Ty.SEAL i then s.setSeal i { s.sealOf i with badStack := true } else s) r
            Gives (.powerOnSequence a nav kat drbg hbm pll) s (pll.foldl (fun (s : State) n => s.startLane (n % 72)) r))))) ∧
    (Running s →
      let p : State := { s with
        hif := { s.hif with perst := false }
        alm := { s.alm with refuse := if s.hif.perst then 2 else s.alm.refuse } }
      (s.lcs.started = false → Gives .perstDeassert s p) ∧
      (s.lcs.started = true → Gives .perstDeassert s { p with hif := { p.hif with linkUp := true } }))) ∧
  (∀ (s : State) (n : Nat), n ≤ 3 → s.lcs.otp.lcState = lcPattern n → (n = 0 ∨ ((s.lcs.otp.div.find n).bind id).isSome = true) →
    s.lcEvaluate = { s with lcs := { s.lcs with life := lifeOf n } })

/-- On a running device, for lane n and link k. LINK_BRINGUP_START of a wanted idle link whose lanes are on trains it, else
nothing. A training block on a lane of no mate or circuit link changes nothing, as out of training; STEP_SWITCH from
step 3 goes to the high rate, HIGH_RATE_TRAINING_DONE stores tick and seeds once, STEP_TIMEOUT fails a link not UP in
time. A mate codeword out of the high rate changes nothing. Electrical idle of an UP lane records its tick; FAST_EXIT
within IDLE_KEEP ends it, and IDLE_KEEP_EXPIRY after it trains the link afresh, or idles it where an own transmitter
still idles. LANE_LOCK_LOSS counts and raises source 0x03 once; relock of a lane that has lock changes nothing. INJ_ONE
counts a bit to invert. PRBS_CTL over traffic is only counted, PRBS_CHECK takes the received bits one by one. ADAPT_CMD
ends with STATUS 1 on a tree lane, 2 where the lane is not UP, else reads seed and current value, reseeds or retrains;
ADAPT_UPDATE without ADAPT_EN or training changes nothing. -/
def Obligations.LanesAndTheirLinks : Prop :=
  ∀ (s : State) (n k : Nat), Running s → n < 72 → k < 5 →
    let x := s.lane n
    let l := s.serLink k
    ((s.linkWanted k = false ∨ l.step ≠ 0 ∨ (∃ m ∈ linkLanes k, s.laneTx m = false)) → Gives (.linkBringupStart k) s s) ∧
    (s.linkWanted k = true → l.step = 0 → (∀ m ∈ linkLanes k, s.laneTx m = true) → Gives (.linkBringupStart k) s (s.linkTrain k)) ∧
    (∀ b : List Byte, laneLink n = none → Gives (.trainingBlockReceive n b) s s) ∧
    (∀ (b : List Byte) (j : Nat), laneLink n = some j →
      ((s.serLink j).step = 0 ∨ 4 ≤ (s.serLink j).step ∨ s.laneRx n = false → Gives (.trainingBlockReceive n b) s s) ∧
      ((s.serLink j).step ≠ 0 → (s.serLink j).step < 4 → s.laneRx n = true →
        (b.length ≠ 32 → x.lock = false →
          Gives (.trainingBlockReceive n b) s (s.setLane n { x with blkOk := 0, blkBad := min 4 (x.blkBad + 1), ready := 0, lock := false })) ∧
        (b.length = 32 → beAt b 0 8 = 0x5A0FC3A596E13C78 → beAt b 28 4 = crc32c (sliceB b 0 28) → (s.serLink j).step = 1 →
          let y := { x with blkOk := min 16 (x.blkOk + 1), blkBad := 0, lock := x.lock || decide (16 ≤ x.blkOk + 1), cap := bitOf (beAt b 10 1) 0
                            lane := beAt b 8 1 % 4, ready := 0 }
          Gives (.trainingBlockReceive n b) s ((((s.setLane n y).setFlag Reg.SER_STS_SIGNAL n true).setFlag Reg.SER_STS_CDR_LOCK n true).linkAdvance j)))) ∧
    (l.step ≠ 3 → Gives (.stepSwitch k) s s) ∧
    (l.step = 3 → Gives (.stepSwitch k) s ((linkLanes k).foldl (fun (s : State) m =>
      let s := s.setLane m { s.lane m with lock := false, blkOk := 0, blkBad := 0, cwOk := 0, cwBad := 0, rlock := false, trained := none, tb := [] }
      (s.setFlag Reg.SER_STS_HIGH_RATE m true).laneState m 3) (s.setLink k { l with step := 4, swAt := s.tm.tickNo, txAt := 0, cws := [] }))) ∧
    (∀ v : List Nat,
      let w := (List.range 8).map fun i => v.getD i 0 % 256
      let r := s.setLane n { x with trained := some s.tm.tickNo, seeds := w, cur := w }
      (laneLink n = none → Gives (.highRateTrainingDone n v) s (if n < 32 ∧ s.present Ty.SER n = true then r else s)) ∧
      (∀ j, laneLink n = some j → Gives (.highRateTrainingDone n v) s (if (s.serLink j).step = 4 ∧ x.trained = none then r else s))) ∧
    (let late := ∃ m ∈ linkLanes k, l.swAt + 8 * s.fld Reg.SER_LINK_CFG_STEP_TIMEOUT m ≤ s.tm.tickNo
     (l.step = 4 → l.up = false → late → Gives (.stepTimeout k) s (s.stepFail k)) ∧
     ((l.step ≠ 4 ∨ l.up = true ∨ ¬ late) → Gives (.stepTimeout k) s s)) ∧
    (∀ (hdr : Nat) (ch : List Byte) (fec skew : Nat), 64 ≤ n → n < 68 →
      let k0 := s.serLink 0
      let on := k0.step = 4 ∧ x.trained.isSome = true ∧ s.laneRx n = true ∧ x.idleAt = none
      (¬ on → Gives (.mateCodewordReceive (n - 64) hdr ch fec skew) s s) ∧
      (on → s.flag Reg.SER_STS_MARKER_LOCK n = false → k0.up = false → x.cwOk = 0 → skew ≤ 819 →
        let y := { x with cwOk := 1, cwBad := 0, cwNext := (hdr % 65536 + 1) % 65536, lane := hdr / 2 ^ 18 % 4, rlock := bitOf hdr 17, skew := skew }
        Gives (.mateCodewordReceive (n - 64) hdr ch 0 skew) s ((s.setReg Reg.SER_DESKEW n (min skew 2047)).setLane n y))) ∧
    ((laneLink n = none ∨ x.idleAt.isSome = true) → Gives (.electricalIdleDetect n) s s) ∧
    (∀ j, laneLink n = some j → (s.serLink j).up = true → x.idleAt = none → j ≠ 0 →
      Gives (.electricalIdleDetect n) s (((s.setLane n { x with idleAt := some s.tm.tickNo }).setFlag Reg.SER_STS_SIGNAL n false).laneState n 5)) ∧
    (x.idleAt = none → Gives (.fastExit n) s s) ∧
    (∀ j t, laneLink n = some j → j ≠ 0 → x.idleAt = some t → (s.serLink j).up = true →
      (t + 8 * s.fld Reg.SER_LINK_CFG_IDLE_KEEP n < s.tm.tickNo → Gives (.fastExit n) s s) ∧
      (s.tm.tickNo ≤ t + 8 * s.fld Reg.SER_LINK_CFG_IDLE_KEEP n →
        Gives (.fastExit n) s (((s.setLane n { x with idleAt := none }).laneState n (if x.ownIdle.isSome then 5 else 4)).count Reg.SER_IDLE_EXITS n))) ∧
    (x.idleAt = none → x.ownIdle = none → Gives (.idleKeepExpiry n) s s) ∧
    (∀ j t, laneLink n = some j → x.idleAt = some t → t + 8 * s.fld Reg.SER_LINK_CFG_IDLE_KEEP n < s.tm.tickNo → (s.serLink j).step ≠ 0 →
      ((∀ m ∈ linkLanes j, (s.lane m).ownIdle = none) → Gives (.idleKeepExpiry n) s (s.linkTrain j)) ∧
      ((∃ m ∈ linkLanes j, (s.lane m).ownIdle.isSome = true) → Gives (.idleKeepExpiry n) s (s.linkIdle j))) ∧
    ((s.present Ty.SER n = false ∨ x.pllLost = true) → Gives (.laneLockLoss n) s s) ∧
    (s.present Ty.SER n = true → x.pllLost = false → 32 ≤ n → n < 64 →
      Gives (.laneLockLoss n) s (((((s.setLane n { x with pllLost := true }).setFlag Reg.SER_STS_CDR_LOCK n false).count Reg.SER_LOCK_LOSS n).raise
        Ty.SER n 3 0 0).laneState n 5)) ∧
    (x.pllLost = false → Gives (.lanePllRelock n) s s) ∧
    (x.pllLost = true → laneLink n = none → Gives (.lanePllRelock n) s ((s.setLane n { x with pllLost := false }).laneState n (if n < 32 then 1 else 0))) ∧
    (Gives (.injOne n) s (if s.present Ty.SER n then s.setLane n { x with inj := x.inj + 1 } else s)) ∧
    (∀ v : Word, s.present Ty.SER n = true →
      (s.laneBusy n = true → (bitOf v.toNat 3 = true ∨ bitOf v.toNat 4 = true) → Gives (.prbsCtlWrite n v) s (s.count Reg.SER_CFG_REJECT n)) ∧
      (s.laneBusy n = false → bitOf v.toNat 4 = false → bitOf v.toNat 5 = false →
        let r := s.plainWrite (Reg.SER_PRBS_CTL.at n) v.toNat
        r.flag Reg.SER_PRBS_CTL_CHK_EN n = false →
        Gives (.prbsCtlWrite n v) s ((r.setLane n { r.lane n with prbsRun := 0 }).setFlag Reg.SER_STS_PRBS_LOCK n false))) ∧
    (∀ (errs : List Bool) (lose : Bool),
      ((s.active Ty.SER n = false ∨ s.flag Reg.SER_PRBS_CTL_CHK_EN n = false ∨ s.flag Reg.SER_CTL_RX_EN n = false) →
        Gives (.prbsCheck n errs lose) s s) ∧
      (s.active Ty.SER n = true → s.flag Reg.SER_PRBS_CTL_CHK_EN n = true → s.flag Reg.SER_CTL_RX_EN n = true →
        let r := errs.foldl (fun (s : State) e => s.prbsBit n e) s
        Gives (.prbsCheck n errs lose) s
          (if lose then (r.setLane n { r.lane n with prbsRun := 0 }).setFlag Reg.SER_STS_PRBS_LOCK n false else r))) ∧
    (∀ v : List Nat, (s.active Ty.SER n = false ∨ adaptive n = false ∨ s.flag Reg.SER_CTL_ADAPT_EN n = false ∨ x.trained = none) →
      Gives (.adaptUpdate n v) s s) ∧
    (∀ v : List Nat, s.active Ty.SER n = true → adaptive n = true → s.flag Reg.SER_CTL_ADAPT_EN n = true → x.trained.isSome = true →
      s.inv Ty.SER n 0 = false →
      let w := (List.range 8).map fun i => v.getD i 0 % 256
      (∀ i, i < 8 → x.seeds.getD i 0 = w.getD i 0) →
      Gives (.adaptUpdate n v) s (s.setLane n { x with cur := w })) ∧
    (∀ i : Nat, i < 8 → s.present Ty.SER n = true →
      let j := s.fld Reg.SER_ADAPT_CMD_INDEX n
      let up := if n < 32 then s.portUp (s.portOf n) else s.fld Reg.SER_STS_STATE n == 4
      let fin (r : State) (i op st : Nat) : State := r.setReg Reg.SER_ADAPT_CMD n (i + op * 16 + st * 2 ^ 24)
      (adaptive n = false → Gives (.adaptRead n i) s (fin s i 1 1) ∧ Gives (.adaptReseed n) s (fin s j 2 1) ∧ Gives (.adaptRetrain n) s (fin s j 3 1)) ∧
      (adaptive n = true → up = false →
        Gives (.adaptRead n i) s (fin s i 1 2) ∧ Gives (.adaptReseed n) s (fin s j 2 2) ∧ Gives (.adaptRetrain n) s (fin s j 3 2)) ∧
      (adaptive n = true → up = true →
        (s.inv Ty.SER n 0 = false → Gives (.adaptRead n i) s (fin (s.setReg Reg.SER_ADAPT_DATA n (x.seeds.getD i 0 + x.cur.getD i 0 * 256)) i 1 0)) ∧
        Gives (.adaptReseed n) s (fin ((s.setLane n { x with seeds := x.cur }).setReg Reg.SER_DRIFT n 0) j 2 0) ∧
        Gives (.adaptRetrain n) s (fin (s.laneRetrain n) j 3 0)))

/-- On a running device, for a present slice (an absent one changes nothing). FWD_FRAME of a slice that is not enabled
changes nothing; with no frame waiting it only ages the table; a frame past the age limit is dropped; one whose
classification names a counter is dropped in it; one classified, not dropped by its policer, is looked up by its source
and decided, or sent where its injector said. The decision: a link-local address goes to LL_DEST or is dropped and
counted; a known unicast to its own port is dropped in SAME_PORT, between two terminals of a fenced domain in
FENCE_DROP, and else goes to its port; an unknown unicast of a domain that does not flood is dropped in UNKNOWN_DROP.
LEARN_REQUEST takes the oldest request: with none it changes nothing further, a free place learns it with an event, no
place counts INSERT_FAIL. AGE_SWEEP_START flips the parity and begins, or changes nothing under way. AGE_SWEEP_DONE
before the last visit changes nothing further, and after it shows how many aged. -/
def Obligations.ForwardingDecisionsAndLearning : Prop :=
  ∀ (s : State) (l cycle : Nat), Running s → l < 4 →
    (s.active Ty.FWD l = false → Gives (.fwdFrame l cycle) s s) ∧
    (s.present Ty.FWD l = false → Gives (.learnRequest l) s s ∧ Gives (.ageSweepStart l) s s ∧ Gives (.ageSweepDone l cycle) s s) ∧
    (s.active Ty.FWD l = true →
      (let a := (s.advanceTo cycle).ageTo l
       (a.fwdIn.find? (fun p => p.hp / 2 == l) = none → Gives (.fwdFrame l cycle) s a) ∧
       (∀ p : Pkt, a.fwdIn.find? (fun p => p.hp / 2 == l) = some p →
        (a.tooOld Ty.FWD l p = true → Gives (.fwdFrame l cycle) s ((a.ageSeen Ty.FWD l p).stageDrop Ty.FWD l p true)) ∧
        (a.tooOld Ty.FWD l p = false →
        let r := { a.ageSeen Ty.FWD l p with fwdIn := a.fwdIn.erase p }
        r.inv Ty.FWD l 1 = false → r.inv Ty.FWD l 2 = false →
        (∀ c, r.classify l p = .error c → Gives (.fwdFrame l cycle) s ((r.count c l).injFin p 2 none)) ∧
        (∀ q dei, r.classify l p = .ok (q, dei) →
          let entry := if p.src < 32 then 8192 + r.prim p.src % 8 * 8 + q.cls else (p.src - 64) / 512 % 8 * 1024 + p.flow
          let (t, colour) := if p.inj.isSome then (r, 0) else r.police l entry (frameLen p) dei
          let q := { q with yellow := colour == 1, hp := t.inHp q }
          let learn := t.on Reg.FWD_CTL_LEARN_EN l && (t.fw l).bit 0 q.domain 0 2 && (t.fw l).bit 3 q.src 0 16
          let u := t.srcLookup l q.domain (beAt q.data 6 6) q.src learn
          Gives (.fwdFrame l cycle) s (if colour = 2 then t.injFin p 2 none else if q.inj.isSome && q.dst != 0xFFFF then u.emit l q else u.decideFrame l q)))))) ∧
    (s.present Ty.FWD l = true →
      (let a := s.ageTo l
       ((a.fw l).learnQ = [] → Gives (.learnRequest l) s a) ∧
       (∀ (d m port : Nat) (rest : List (Nat × Nat × Nat)), (a.fw l).learnQ = (d, m, port) :: rest →
        let r := a.setFw l { a.fw l with learnQ := rest }
        (∀ p, a.inv Ty.FWD l 0 = false → (a.fw l).pos d m = some p → Gives (.learnRequest l) s (r.srcHit l p port true)) ∧
        ((a.fw l).pos d m = none →
          let (t, ok) := r.fwdInsert l { domain := d, mac := m, dest := port, group := false, type := 0, hit := true, mark := (a.fw l).parity, owed := false }
          Gives (.learnRequest l) s (if ok then (t.count Reg.FWD_LEARNED l).fwdEvent l 0x50 d m port 0
            else (t.count Reg.FWD_INSERT_FAIL l).fwdEvent l 0x53 d m port 0)))) ∧
      (let x := s.fw l
       (x.sweep.isSome = true → Gives (.ageSweepStart l) s s) ∧
       (x.sweep = none → Gives (.ageSweepStart l) s (s.setFw l { x with parity := !x.parity, sweep := some ⟨s.now, 0, 0⟩ }))) ∧
      (let a := s.advanceTo cycle
       ((a.fw l).sweep = none → Gives (.ageSweepDone l cycle) s a) ∧
       (∀ w, (a.fw l).sweep = some w →
        (a.now ≤ w.start + 4 * fwdPositions → Gives (.ageSweepDone l cycle) s a) ∧
        (∀ v, w.start + 4 * fwdPositions < a.now → ((a.ageTo l).fw l).sweep = some v →
          Gives (.ageSweepDone l cycle) s
            ((((a.ageTo l).setFw l { (a.ageTo l).fw l with sweep := none }).setReg Reg.FWD_AGE_RESULT l v.aged).intSet Ty.FWD l 7))))) ∧
    (∀ p : Pkt,
      let r := s.count64 Reg.FWD_LOOKUPS_LO l
      let mac := beAt p.data 0 6
      let w0 := (s.fw l).word 0 p.domain 0
      let w1 := (s.fw l).word 0 p.domain 1
      let drop (c : RegId) : State := (r.count c l).injFin p 2 none
      (mac / 16 = 0x0180C200000 →
        s.decideFrame l p = if bitOf w1 15 then r.emit l { p with dst := w1 % 2 ^ 15 } else drop Reg.FWD_LINK_LOCAL_DROP) ∧
      (∀ e : FEnt, mac / 16 ≠ 0x0180C200000 → r.dstLookup l p = (r, some e) →
        (e.group = false → e.dest = p.src → s.decideFrame l p = drop Reg.FWD_SAME_PORT) ∧
        (e.group = false → e.dest ≠ p.src →
          s.decideFrame l p = if isTermPort e.dest && isTermPort p.src && !bitOf w0 1 then drop Reg.FWD_FENCE_DROP else r.emit l { p with dst := e.dest })) ∧
      (mac / 16 ≠ 0x0180C200000 → r.dstLookup l p = (r, none) → bitOf (mac / 2 ^ 40) 0 = false → bitOf w0 3 = false →
        s.decideFrame l p = drop Reg.FWD_UNKNOWN_DROP))

/-- On a running device, for a present slice, with the table aged up to now; an absent slice changes nothing. Every command
shows its OP and STATUS in FWD_CMD, keeps a TABLE or START that it does not use, counts CFG_REJECT for STATUS 2, 4, 5
and 8, and sets CMD_DONE. SEARCH shows the entry of the key and its position, or ends with 1. NEXT shows the first entry
from the index, or from 0 with START, and moves the index past it, or ends with 1. INSERT of TYPE 0 or 3, or a group
with an individual address, ends with 8, of an absent port with its STATUS, over a STATIC entry by a lower type with 2;
of a known key it replaces the entry, of a new one it places it or ends with 3. DELETE clears the entry of the key, a
STATIC one with its mirror record, or ends with 1. FLUSH of an absent port ends with its STATUS; of a port with no entry
it clears none. TBL_READ and TBL_WRITE of an index past its table, an absent port or another slice's end with 8, 4 or 5;
a good write stores the writable bits. -/
def Obligations.ForwardingTableCommands : Prop :=
  ∀ (s : State) (l : Nat), Running s → l < 4 →
    (s.present Ty.FWD l = false → Gives (.fwdSearch l) s s ∧ (∀ b, Gives (.fwdNext l b) s s) ∧ Gives (.fwdInsert l) s s ∧ Gives (.fwdDelete l) s s ∧
      Gives (.flushByPort l) s s ∧ ∀ t, Gives (.tblRead l t) s s ∧ Gives (.tblWrite l t) s s) ∧
    (s.present Ty.FWD l = true →
      let a := s.ageTo l
      let fin (r : State) (op table : Nat) (start : Bool) (st : Nat) : State :=
        let table := if op = 7 ∨ op = 8 then table else r.fld Reg.FWD_CMD_TABLE l
        let start := if op = 2 then start else r.flag Reg.FWD_CMD_START l
        let r := r.setReg Reg.FWD_CMD l (op + table * 2 ^ 4 + (if start then 2 ^ 7 else 0) + st * 2 ^ 24)
        (if st = 2 ∨ st = 4 ∨ st = 5 ∨ st = 8 then r.count Reg.FWD_CFG_REJECT l else r).intSet Ty.FWD l 6
      let d := (a.fwdKey l).1
      let m := (a.fwdKey l).2
      let x := a.fw l
      ((x.pos d m = none → Gives (.fwdSearch l) s (fin a 1 0 false 1)) ∧
       (∀ p e, a.inv Ty.FWD l 0 = false → x.pos d m = some p → x.tab.find p = some e → Gives (.fwdSearch l) s (fin (a.fwdShow l p e) 1 0 false 0))) ∧
      (let i := a.fld Reg.FWD_IDX_INDEX l
       (x.tab.find? (fun q => decide (i ≤ q.1)) = none → Gives (.fwdNext l false) s (fin (a.setFw l { x with walk := false }) 2 0 false 1)) ∧
       (∀ p e, x.tab.find? (fun q => decide (i ≤ q.1)) = some (p, e) →
         Gives (.fwdNext l false) s (fin ((a.fwdShow l p e).setReg Reg.FWD_IDX l (p + 1)) 2 0 false 0)) ∧
       (x.tab = [] →
         let r := a.setFw l { x with moved := false, walk := true }
         Gives (.fwdNext l true) s (fin (r.setFw l { r.fw l with walk := false }) 2 0 true 1))) ∧
      (let w := a.fwdData l 2
       let group := bitOf w 15
       let ty := bitsOf w 16 2
       let dest := w % 2 ^ 15
       let st := if group then 0 else a.portStatus dest
       let e : FEnt := { domain := d, mac := m, dest := dest, group := group, type := ty, hit := false, mark := x.parity, owed := false }
       ((ty = 0 ∨ ty = 3 ∨ (group = true ∧ bitOf m 40 = false)) → Gives (.fwdInsert l) s (fin a 3 0 false 8)) ∧
       ((ty = 1 ∨ ty = 2) → (group = false ∨ bitOf m 40 = true) →
        (st ≠ 0 → Gives (.fwdInsert l) s (fin a 3 0 false st)) ∧
        (∀ p o, st = 0 → x.pos d m = some p → x.tab.find p = some o →
          (o.type = 2 → ty = 1 → Gives (.fwdInsert l) s (fin a 3 0 false 2)) ∧
          (o.type ≠ 2 → ty = 1 → Gives (.fwdInsert l) s (fin (a.fwdPut l p { e with hit := o.hit, mark := o.mark, owed := o.owed }) 3 0 false 0)) ∧
          (ty = 2 → a.mirrorOpen = true → Gives (.fwdInsert l) s
            (fin ((a.mirror 0x0A [l, d, m, dest, if group then 1 else 0, 0] []).fwdPut l p { e with hit := o.hit, mark := o.mark, owed := o.owed }) 3 0 false 0)) ∧
          (ty = 2 → a.mirrorOpen = false → Gives (.fwdInsert l) s (fin (a.count Reg.PAIR_MIRROR_WRITE_REJECT 0) 3 0 false 0))) ∧
        (st = 0 → x.pos d m = none → ty = 1 →
          let (r, ok) := a.fwdInsert l e
          Gives (.fwdInsert l) s (if ok then fin r 3 0 false 0
            else fin ((r.count Reg.FWD_INSERT_FAIL l).fwdEvent l 0x53 d m dest 0) 3 0 false 3)))) ∧
      (x.pos d m = none → Gives (.fwdDelete l) s (fin a 4 0 false 1)) ∧
      (∀ p e, x.pos d m = some p → x.tab.find p = some e →
        (e.type ≠ 2 → Gives (.fwdDelete l) s (fin (a.fwdClear l p) 4 0 false 0)) ∧
        (e.type = 2 → a.mirrorOpen = true → Gives (.fwdDelete l) s
          (fin ((a.mirror 0x0A [l, e.domain, e.mac, e.dest, if e.group then 1 else 0, 1] []).fwdClear l p) 4 0 false 0)) ∧
        (e.type = 2 → a.mirrorOpen = false → Gives (.fwdDelete l) s (fin (a.count Reg.PAIR_MIRROR_WRITE_REJECT 0) 4 0 false 0))) ∧
      (let w := a.fwdData l 2
       let port := w % 2 ^ 15
       (port ≠ 0x7FFF → a.portStatus port ≠ 0 → Gives (.flushByPort l) s (fin a 5 0 false (a.portStatus port))) ∧
       ((port = 0x7FFF ∨ a.portStatus port = 0) → x.tab = [] → Gives (.flushByPort l) s (fin (a.setRegI Reg.FWD_DATA l 3 0) 5 0 false 0))) ∧
      (∀ t : Nat, t < 8 →
        let i := a.fld Reg.FWD_IDX_INDEX l
        let w (j : Nat) : Nat := a.fwdData l j % 2 ^ tblBits t j
        let st := a.tblStatus l t i
        (st ≠ 0 → Gives (.tblRead l t) s (fin a 7 t false st) ∧ Gives (.tblWrite l t) s (fin a 8 t false st)) ∧
        (st = 0 → t ≠ 3 → Gives (.tblRead l t) s
          (fin ((List.range 4).foldl (fun (s : State) j => s.setRegI Reg.FWD_DATA l j (if tblBits t j = 0 then 0 else x.word t i j)) a) 7 t false 0)) ∧
        (st = 0 → t = 4 → Gives (.tblWrite l t) s (fin (a.setFw l ((x.setWord 4 i 0 (w 0)).setWord 4 i 1 (w 1))) 8 4 false 0)) ∧
        (st = 0 → t = 2 → Gives (.tblWrite l t) s (fin (a.setFw l (x.setWord 2 i 0 (w 0))) 8 2 false 0)) ∧
        (st = 0 → t = 1 → bitOf (w 0) 14 = true → (∃ v, a.vidOf (w 0 % 2 ^ 14) (i / 4096) = some v ∧ v ≠ i % 4096) →
          Gives (.tblWrite l t) s (fin a 8 1 false 2))))

/-- On a running device, for a present slice with no inverted check bits; an absent one changes nothing, and a disabled one
admits and lists nothing. QSCH_ADMIT with no frame waiting only advances the cycle; a frame to a terminal that is down,
over MAX, over its threshold or with no cells is dropped in its counter, and any other joins its queue, marked where ECN
says, and counts ENQUEUED. SPILL_PAGE_OUT without spilling, or above WM_SPILL, moves nothing; PAGE_IN of a queue with
nothing spilled changes nothing, and of a good page moves up to 8 cells. SERVE_LIST_BUILD a second time in a tick
changes nothing, while free ticking or standby only credits, and else lists every enabled tree. Q_CMD of an index
outside its table ends with STATUS 8, of an absent unit 4, and else READ shows the words, WRITE stores them in their
writable bits (SPROF 0 refused with 2), FLUSH drops the queue's frames, READ_STATE shows the queue, and both refuse
other tables with 8. QUEUE_SAMPLE disabled or before its stride changes nothing, else it takes the next round. -/
def Obligations.QueuesPagingAndServeLists : Prop :=
  ∀ (s : State) (l : Nat), Running s → l < 4 →
    (s.present Ty.QSCH l = false → (∀ cy, Gives (.qschAdmit l cy) s s) ∧ (∀ t i ok, Gives (.pageIn l t i ok) s s) ∧
      (∀ cy c b, Gives (.serveListBuild l cy c b) s s) ∧ (∀ t, Gives (.qRead l t) s s ∧ Gives (.qWrite l t) s s) ∧ Gives (.queueSample l) s s) ∧
    (s.present Ty.QSCH l = true →
      (s.active Ty.QSCH l = false → ∀ cy, Gives (.qschAdmit l cy) s s ∧ ∀ c b, Gives (.serveListBuild l cy c b) s s) ∧
      (s.active Ty.QSCH l = true → ∀ cycle : Nat,
        let a := s.advanceTo cycle
        (a.qin.find? (fun p => p.hp / 2 == l) = none → Gives (.qschAdmit l cycle) s a) ∧
        (∀ p : Pkt, a.qin.find? (fun p => p.hp / 2 == l) = some p →
          let r := { a with qin := a.qin.erase p }
          let key := r.queueKey l p
          let q := (r.qs l).queue key
          let c := frameCells p
          r.inv Ty.QSCH l 2 = false → r.inv Ty.QSCH l 0 = false → r.inv Ty.BUF 0 0 = false → r.inv Ty.BUF 0 1 = false →
          (r.termDown p = true → Gives (.qschAdmit l cycle) s ((r.count Reg.QSCH_TERM_DOWN_DROP l).injFin p 2 none)) ∧
          (∀ k i, r.termDown p = false → r.admitDrop l q key p.cls c p.yellow = some (k, i) →
            Gives (.qschAdmit l cycle) s ((r.count k i).injFin p 2 none)) ∧
          (r.termDown p = false → r.admitDrop l q key p.cls c p.yellow = none → bitOf ((r.qs l).word 4 p.cls 0) 1 = false →
            Gives (.qschAdmit l cycle) s ((r.qAppend l key { p with born := r.now }).count64 Reg.QSCH_ENQUEUED_LO l)))) ∧
      (∀ (t i : Nat) (ok : Bool),
        let key := (if t = 5 then 5 else 0) * 2 ^ 17 + i % 2 ^ 16
        let q := (s.qs l).queue key
        let n := min 8 q.spill
        ((q.spill = 0 ∨ s.fld Reg.BUF_HEAD_KEEP_CELLS 0 ≤ q.head ∨ s.bankFree l < n) → Gives (.pageIn l t i ok) s s) ∧
        (q.spill ≠ 0 → q.head < s.fld Reg.BUF_HEAD_KEEP_CELLS 0 → n ≤ s.bankFree l →
          let q' := { q with head := q.head + n, spill := q.spill - n }
          let r := (s.setQs l ((s.qs l).setQueue key q')).countN64 Reg.BUF_PAGES_IN_LO 0 (q.pages - q'.pages)
          8 < q.spill → Gives (.pageIn l t i true) s ((r.setQs l ((r.qs l).setQueue key ((r.qs l).queue key))).spillSettle))) ∧
      (s.active Ty.QSCH l = true → ∀ (cycle : Nat) (cut bad : List (Nat × Nat)),
        let x := s.qs l
        let r := s.setQs l { x.accrue with credited := s.tm.tickNo + 1 }
        let tr := (List.range 8).filter fun lt => r.hasTree (8 * l + lt) && ((r.qs l).trees.get qtreeReset lt).en
        (x.credited = s.tm.tickNo + 1 → Gives (.serveListBuild l cycle cut bad) s s) ∧
        (x.credited ≠ s.tm.tickNo + 1 → (s.tm.free = true ∨ s.isActive = false) → Gives (.serveListBuild l cycle cut bad) s r) ∧
        (x.credited ≠ s.tm.tickNo + 1 → s.tm.free = false → s.isActive = true → r.inTime Ty.QSCH l cycle = true →
          let q := tr.foldl (fun (s : State) lt => s.treeList l lt s.tm.m 20480 ((bad.filter fun c => c.1 == lt).map (·.2))) r
          Gives (.serveListBuild l cycle cut bad) s
            (((q.prefetch l (q.servedAxs l) q.nextM).setReg Reg.QSCH_STS l 0).complete Ty.QSCH l cycle))) ∧
      (∀ t : Nat, t < 16 →
        let i := s.fld Reg.QSCH_Q_IDX_INDEX l
        let fin (r : State) (op st : Nat) : State :=
          let r := r.setReg Reg.QSCH_Q_CMD l (op + t * 2 ^ 4 + st * 2 ^ 24)
          (if st = 0 then r else r.count Reg.QSCH_CFG_REJECT l).intSet Ty.QSCH l 7
        let sh (w : Nat → Nat) : State := (List.range 6).foldl (fun (s : State) j => s.setRegI Reg.QSCH_Q_DATA l j (w j)) s
        (∀ st, (qIdxOk t i = false ∧ st = 8) ∨ (qIdxOk t i = true ∧ s.qUnit l t i = false ∧ st = 4) →
          Gives (.qRead l t) s (fin s 1 st) ∧ Gives (.qWrite l t) s (fin s 2 st) ∧ Gives (.qReadState l t) s (fin s 3 st) ∧ Gives (.qFlush l t) s (fin s 4 st)) ∧
        (qIdxOk t i = true → s.qUnit l t i = true → s.inv Ty.QSCH l 0 = false → s.inv Ty.QSCH l 1 = false →
          Gives (.qRead l t) s (fin (sh fun j => if qBits t j = 0 then 0 else (s.qs l).word t i j) 1 0) ∧
          (t = 3 → i = 0 → Gives (.qWrite l t) s (fin s 2 2)) ∧
          ((t ≠ 3 ∨ i ≠ 0) →
            let r := s.qSettle l t i
            Gives (.qWrite l t) s (fin (r.setQs l ((List.range 6).foldl (fun (x : QschS) j =>
              if qBits t j = 0 then x else x.setWord t i j (qStore t j (r.regI Reg.QSCH_Q_DATA l j))) (r.qs l))) 2 0)) ∧
          (t = 0 → Gives (.qWrite l t) s (fin (s.setQs l ((s.qs l).setWord 0 i 0 (s.regI Reg.QSCH_Q_DATA l 0 &&& 0xFFFF))) 2 0)) ∧
          ((t = 0 ∨ t = 5) → Gives (.qFlush l t) s (fin (s.qFlush l (t * 2 ^ 17 + i)) 4 0) ∧
            let q := (s.qs l).queue (t * 2 ^ 17 + i)
            Gives (.qReadState l t) s (fin (sh fun j =>
              [q.depth % 2 ^ 32, q.occ % 2 ^ 24, q.pages % 2 ^ 24, q.credit % 2 ^ 28, q.deficit % 2 ^ 24, s.sojourn q].getD j 0) 3 0)) ∧
          ((t ≠ 0 ∧ t ≠ 5) → Gives (.qFlush l t) s (fin s 4 8)) ∧
          ((t ≠ 0 ∧ t ≠ 1 ∧ t ≠ 5 ∧ t ≠ 7) → Gives (.qReadState l t) s (fin s 3 8)))) ∧
      (let x := s.qs l
       ((s.on Reg.QSCH_CTL_SAMPLE_EN l = false ∨ s.tm.tickNo + 1 < x.sampled + s.fld Reg.QSCH_SAMPLE_CFG_STRIDE l ∨ x.sampled = s.tm.tickNo + 1) →
         Gives (.queueSample l) s s) ∧
       (s.on Reg.QSCH_CTL_SAMPLE_EN l = true → x.sampled + s.fld Reg.QSCH_SAMPLE_CFG_STRIDE l ≤ s.tm.tickNo + 1 → x.sampled ≠ s.tm.tickNo + 1 →
         let r := s.setQs l { x with sampled := s.tm.tickNo + 1, sampleT := (x.sampleT + 1024) % 32768, sampleG := (x.sampleG + 64) % 576 }
         let r := (List.range 1024).foldl (fun (s : State) i =>
           s.sampleOne l 0 0 ((x.sampleT + i) / 4096 * 8192 + (x.sampleT + i) % 4096)) r
         Gives (.queueSample l) s ((List.range 64).foldl (fun (s : State) i =>
           let k := (x.sampleG + i) % 576
           if k < 64 then s.sampleOne l 1 0 (k / 8 * 8192 + 4096 + k % 8) else s.sampleOne l 2 5 (k - 64)) r)))) ∧
    (∀ n : Nat, n ≤ 98304 → s.present Ty.BUF 0 = true →
      let set (s : State) (b : Bool) : State := { s with buf := { s.buf with spilling := s.buf.spilling.set false l b } }
      (s.on Reg.BUF_CTL_SPILL_EN 0 = false → Gives (.spillPageOut l n) s (set s false)) ∧
      (s.on Reg.BUF_CTL_SPILL_EN 0 = true → s.buf.spilling.get false l = false → s.fld Reg.BUF_WM_SPILL_CELLS 0 ≤ s.bankFree l →
        Gives (.spillPageOut l n) s s) ∧
      (s.on Reg.BUF_CTL_SPILL_EN 0 = true → s.bankFree l < s.fld Reg.BUF_WM_SPILL_CELLS 0 →
        let r := (set s true).pageOuts l n
        Gives (.spillPageOut l n) s (set r (decide (r.bankFree l < r.fld Reg.BUF_WM_STOP_CELLS 0))))) ∧
    (∀ (q : QueueS) (key cls c : Nat) (yellow : Bool),
      let x := s.qs l
      let mx := x.word 2 (x.qword key % 64) 1
      (mx < q.occ + c → s.admitDrop l q key cls c yellow = some (Reg.QSCH_QUOTA_DROP, l)) ∧
      (q.occ + c ≤ mx → q.occ + c ≤ x.word 2 (x.qword key % 64) 0 → c ≤ s.bankFree l → s.admitDrop l q key cls c yellow = none))

/-- On a running device, for a present primary gate instance i. GATE_COMMIT at a cycle of a list with an entry below 8 ns,
or whose entries do not add up to the cycle, is only counted in CFG_REJECT; one whose base lies at least 125 us ahead
becomes the pending list with that start, and one whose base is earlier starts at the first whole cycle from there and
counts PAST_BASE; either is mirrored. In a standby with PAIR_EN set a commit is only counted. GATE_LIST_START makes a
pending list active once its start has come, shows its cycle and start and counts LIST_SWITCHES, and before that or
while free ticking only advances the cycle; GATE_ENTRY_ADVANCE brings the entry up to date. TRK_TX_SELECT on an absent
port changes nothing; with no candidate it only brings gates and credits up to date; a taken head leaves its queue, and
on a port that is down is discarded in TX_DISCARD and on one that is up counts SERVED with its bytes and goes out. A
head that may be taken fits, with the guard, before its gate closes, and its queue has the credit. -/
def Obligations.GatesAndTrunkSelection : Prop :=
  (∀ (s : State) (i cycle : Nat), Running s → i < 32 → s.present Ty.GATE i = true → s.isPrim i = true →
    let a := s.advanceTo cycle
    let x := a.gt i
    (s.mirrorOpen = false → Gives (.gateCommit i cycle) s (s.count Reg.PAIR_MIRROR_WRITE_REJECT 0)) ∧
    (s.mirrorOpen = true →
      let ents := (List.range (a.fld Reg.GATE_ADMIN_LEN_ENTRIES i)).map fun e => (x.adminAt e % 256, x.adminAt e / 256)
      let cyc := a.fld Reg.GATE_ADMIN_CYCLE_NS i
      let base := (a.reg64 Reg.GATE_ADMIN_BASE_S_LO i % 2 ^ 48) * 10 ^ 9 + a.fld Reg.GATE_ADMIN_BASE_NS_NS i
      let first := ceilDiv a.gateTime (2 ^ 32) + 125000
      let bad := (∃ e ∈ ents, e.2 < 8) ∨ ents.foldl (fun a e => a + e.2) 0 ≠ cyc
      (bad → Gives (.gateCommit i cycle) s (a.count Reg.GATE_CFG_REJECT i)) ∧
      (¬ bad → first ≤ base →
        Gives (.gateCommit i cycle) s ((a.setGt i { x with pend := some ⟨ents, cyc, base⟩ }).gateMirror i base ⟨ents, cyc, base⟩)) ∧
      (¬ bad → base < first →
        let l : TList := ⟨ents, cyc, base + ceilDiv (first - base) cyc * cyc⟩
        Gives (.gateCommit i cycle) s (((a.setGt i { x with pend := some l }).count Reg.GATE_PAST_BASE i).gateMirror i base l))) ∧
    (x.pend = none → Gives (.gateListStart i cycle) s a) ∧
    (∀ l : TList, x.pend = some l →
      ((a.tm.free = true ∨ a.gateTime < l.start * 2 ^ 32) → Gives (.gateListStart i cycle) s a) ∧
      (a.tm.free = false → l.start * 2 ^ 32 ≤ a.gateTime →
        let r := a.setGt i { x with pend := none, act := some l, entry := l.entry a.gateTime, free := false }
        let r := (r.setReg Reg.GATE_OPER_CYCLE i l.cycle).setReg Reg.GATE_OPER_START_NS i (l.start % 10 ^ 9)
        Gives (.gateListStart i cycle) s ((r.setReg64 Reg.GATE_OPER_START_S_LO i (l.start / 10 ^ 9 % 2 ^ 48)).count Reg.GATE_LIST_SWITCHES i))) ∧
    ((x.act = none ∨ a.tm.free = true) → Gives (.gateEntryAdvance i cycle) s a) ∧
    (∀ l : TList, x.act = some l → a.tm.free = false → Gives (.gateEntryAdvance i cycle) s (a.setGt i { x with entry := l.entry a.gateTime }))) ∧
  (∀ (s : State) (k cycle : Nat), Running s → k < 32 →
    (s.hasPort k = false → Gives (.trkTxSelect k cycle) s s) ∧
    (s.hasPort k = true →
      let i := s.prim k
      let a := ((s.advanceTo cycle).gateLook i).trunkAccrue i
      a.inv Ty.QSCH (i / 8) 0 = false → a.inv Ty.QSCH (i / 8) 2 = false →
      let a := (List.range 64).foldl (fun (s : State) j => s.trunkClean i j ((s.qs (i / 8)).queue (trunkKey i j)).frames.length) a
      ((a.pickQueue i).2 = none → Gives (.trkTxSelect k cycle) s (a.pickQueue i).1) ∧
      (∀ (r : State) (j : Nat) (p : Pkt) (rest : List Pkt), a.pickQueue i = (r, some (j, false)) →
        let x := r.qs (i / 8)
        let key := trunkKey i j
        let q := x.queue key
        q.frames = p :: rest →
        let q' := { q.free (frameCells p) with frames := rest, deficit := q.deficit
                                               credit := if bitsOf (x.qword key) 6 10 = 0 then q.credit else q.credit - 16 * frameLen p }
        let y := x.setQueue key q'
        let y := { y with trunk := y.trunk.set 0 (i % 8 * 9 + j % 8) ((j / 8 + 1) % 8) }
        let t := ((r.setQs (i / 8) y).count64 Reg.QSCH_SERVED_LO (i / 8)).countN64 Reg.QSCH_SERVED_BYTES_LO (i / 8) (frameLen p)
        let lost := r.setQs (i / 8) (x.setQueue key { q.free (frameCells p) with frames := rest })
        (r.inv Ty.QSCH (i / 8) 2 = false → r.portUp k = false → lost.inv Ty.QSCH (i / 8) 2 = false → lost.portUp k = false →
          Gives (.trkTxSelect k cycle) s ((lost.count Reg.TRK_TX_DISCARD i).injFin p 2 none)) ∧
        (r.inv Ty.QSCH (i / 8) 2 = false → r.portUp k = true →
          let (u, d) := t.tcEgress k { p with data := t.retag k p } (t.egressEl k)
          Gives (.trkTxSelect k cycle) s (u.msecTx k { p with data := u.oneStep k p d }))))) ∧
  (∀ (s : State) (i j : Nat) (p : Pkt), s.trunkHead i j = some p →
    ∃ rest, ((s.qs (i / 8)).queue (trunkKey i j)).frames = p :: rest ∧
      (∀ (l : TList) (r : Nat), s.gateList i = some l → l.toClose (j % 8) s.gateTime = some r → s.fits i (frameLen p) r = true) ∧
      (bitsOf ((s.qs (i / 8)).qword (trunkKey i j)) 6 10 ≠ 0 → 16 * frameLen p ≤ ((s.qs (i / 8)).queue (trunkKey i j)).credit))

/-- On a running device, for link l < 4. A frame on an absent link, or with the receiver off, changes nothing. In HUNT a
valid header goes to PRESYNC; in PRESYNC two headers more, each in its place with the next TICK, reach SYNC and end LOF,
any other frame there falls back to HUNT; in SYNC a valid header in its place is a good frame, an invalid one counts
HDR_MISS, and the third in a row loses synchronisation, with LOF. A signal report sets or clears LOS. At a frame
boundary an idle mode puts the line at idle, gap mode or free ticking at gap fill, and framing sends the frame whose
header has the TICK, the link, the flags and their CRC-32C. A second that has not ended changes nothing; one that has is
entered once in the section's monitoring. Ten severely errored seconds in a row make an entity unavailable, and ten
others end that. Bins whose grace has run out become final, which raises the interrupt for a quarter hour. TSI_STAGE on
an absent unit or while free ticking changes nothing; else it stages the connections in effect for the next frame in
index order, all in time, the first `moved` past the deadline. -/
def Obligations.CircuitFramesSecondsAndBins : Prop :=
  (∀ (s : State) (l cycle : Nat) (at0 : Bool) (f : List Byte), Running s → l < 4 →
    let c := Instr.cktFrameReceive l cycle at0 f
    let a := s.advanceTo cycle
    let x := a.cl l
    let k := beAt f 0 6
    let late := (a.count Reg.CKT_HDR_MISS l).cktStart l cycle
    let z := late.cl l
    (s.on Reg.CKT_CTL_RX_EN l = false → Gives c s s) ∧
    (s.on Reg.CKT_CTL_RX_EN l = true →
      (a.rxState l = 0 →
        (cktHdrOk f = true → Gives c s ((a.setCl l { x with conf := 0, rxLast := some k, rxBip := none }).setFld Reg.CKT_STS_RX_STATE l 1)) ∧
        (cktHdrOk f = false → Gives c s a)) ∧
      (a.rxState l = 1 →
        (at0 = true → cktHdrOk f = true → x.rxLast.map (· + 1) = some k →
          (x.conf ≠ 1 → Gives c s (a.setCl l { x with conf := x.conf + 1, rxLast := some k })) ∧
          (x.conf = 1 →
            let y := { x with conf := 2, miss := 0, rxLast := some k, rxBip := some (bip8 f) }.defect 1 false
            Gives c s (((a.setCl l y).setFld Reg.CKT_STS_RX_STATE l 2).cktShow l))) ∧
        (at0 = false ∨ cktHdrOk f = false ∨ x.rxLast.map (· + 1) ≠ some k → Gives c s (a.setFld Reg.CKT_STS_RX_STATE l 0))) ∧
      (1 < a.rxState l → at0 = true →
        (cktHdrOk f = true → Gives c s (a.cktGood l cycle f)) ∧
        (cktHdrOk f = false → z.miss < 2 → Gives c s (late.setCl l { z with miss := z.miss + 1, rxBip := none, runTick := 0 })) ∧
        (cktHdrOk f = false → 2 ≤ z.miss →
          let y := { z with miss := 0, conf := 0, rxBip := none }.defect 1 true
          Gives c s (((late.setCl l y).setFld Reg.CKT_STS_RX_STATE l 0).cktShow l))) ∧
      (1 < a.rxState l → at0 = false → cktHdrOk f = true → bitOf (beAt f 7 1) 6 = true ∨ bitOf (beAt f 7 1) 7 = true → x.miss ≠ 0 → (∃ j, x.rxLast = some j ∧ j < k) →
        Gives c s (((a.setCl l { x with rxBip := none }).count Reg.CKT_RESYNC l).cktGood l cycle f)) ∧
      (1 < a.rxState l → at0 = false →
        (cktHdrOk f = false ∨ (bitOf (beAt f 7 1) 6 = false ∧ bitOf (beAt f 7 1) 7 = false) ∨ x.miss = 0) → Gives c s a))) ∧
  (∀ (s : State) (l : Nat) (lost : Bool), Running s → l < 4 →
    (s.present Ty.CKT l = false → Gives (.cktSignalChange l lost) s s) ∧
    (s.present Ty.CKT l = true → Gives (.cktSignalChange l lost) s ((s.setCl l ((s.cl l).defect 0 lost)).cktShow l))) ∧
  (∀ (s : State) (l : Nat), Running s → l < 4 →
    let c := Instr.cktFrameTransmit l
    let x := (s.cl l).endPeriod (s.tm.stepGap * 10368 / (1000 * nsU))
    let mode := s.fld Reg.CKT_CTL_TX_MODE l
    let idle := s.active Ty.CKT l = false ∨ mode = 0 ∨ s.flag Reg.SER_STS_HIGH_RATE (68 + l) = false
    (s.present Ty.CKT l = false → Gives c s s) ∧
    (s.present Ty.CKT l = true →
      (idle → Gives c s (s.setCl l { x with line := 0, last := none, gap := false, bip := none, gapAt := 0 })) ∧
      (¬ idle → (mode ≠ 2 ∨ s.tm.free = true) → Gives c s (s.setCl l { x with line := 1, gap := true, gapAt := if x.line = 0 then 0 else x.gapAt })) ∧
      (¬ idle → mode = 2 → s.tm.free = false →
        let b (v : Bool) (i : Nat) : Nat := if v then 2 ^ i else 0
        let fl := b (x.gap || s.tm.wasStep) 7 + b (x.last.map (· + 1) != some s.tm.m) 6 + b (s.flag Reg.CKT_CTL_TX_AIS l) 5 +
          b (s.flag Reg.CKT_CTL_TX_RDI l) 4
        let h := toBE 6 s.tm.m ++ toBE 1 l ++ toBE 1 fl ++ toBE 4 0
        ∃ (t : State) (rest : Bytes), Gives c s t ∧ (t.cl l).line = 2 ∧ (t.cl l).last = some s.tm.m ∧ (t.cl l).gap = false ∧ (t.cl l).gapAt = 0 ∧
          (t.cl l).sent = cktScramble (s.flag Reg.CKT_CTL_SCR_OFF l) (h ++ toBE 4 (crc32c h) ++ toBE 1 (x.bip.getD 0) ++ rest) ∧
          (t.cl l).bip = some (bip8 (t.cl l).sent) ∧ ∀ k, k ≠ l → t.cl k = s.cl k))) ∧
  (∀ (s : State) (l : Nat), Running s → l < 4 →
    let x := s.cl l
    let due := if s.tm.free then x.second + 8000 ≤ s.tm.tickNo + 1 else (s.tm.m - s.tm.e) % 8000 = 0
    (s.present Ty.CKT l = false ∨ ¬ due ∨ x.second = s.tm.tickNo + 1 → Gives (.pmSecondEnd l) s s) ∧
    (s.present Ty.CKT l = true → due → x.second ≠ s.tm.tickNo + 1 →
      let sec := (x.pmOf 2048).degrade (s.fld Reg.CKT_DEG_CFG_S_THR l)
      ∃ y : CktS, Gives (.pmSecondEnd l) s ((s.setCl l { y with second := s.tm.tickNo + 1 }).cktShow l) ∧
        ((∀ q ∈ x.paths, q.1 < 2048) → y.pmOf 2048 =
          if s.on Reg.CKT_CTL_PM_EN l then sec.second (s.pmNow - 1) (s.fld Reg.CKT_SES_CFG_S_SES l) else sec.skip (s.pmNow - 1))) ∧
    (s.present Ty.CKT l = false → Gives (.pmBinFinal l) s s) ∧
    (s.present Ty.CKT l = true →
      let t := s.setCl l { x with pm := x.pm.mapV (fun _ => pmReset) fun _ y => y.final s.pmNow }
      Gives (.pmBinFinal l) s (if ∃ e ∈ x.pm, ∃ b, e.2.qEnd = some b ∧ b.start + 910 ≤ s.pmNow then t.intSet Ty.CKT l 4 else t))) ∧
  (∀ (y : Pm) (t thr : Nat),
    let z := y.second t thr
    let bad := thr ≤ y.errs ∨ y.defect = true
    z.errs = 0 ∧ z.far = 0 ∧ z.defect = false ∧ z.rdi = false ∧
    (y.una = false → (z.una = true ↔ bad ∧ y.sesRun = 9)) ∧
    (y.una = true → (z.una = false ↔ ¬ bad ∧ y.okRun = 9))) ∧
  (∀ (s : State) (cycle moved : Nat), Running s →
    let c := Instr.tsiStage cycle moved
    let d := s.nextM
    let r := s.tm.m - 1
    let run (a : State) : State :=
      let l := (a.pageConns (a.tsiPageAt d)).map (·.2)
      let b := (if a.inTime Ty.TSI 0 cycle then l else l.take moved).foldl (fun (u : State) x => u.stageConn d r x) a
      ((List.range 32).foldl (fun (u : State) t => u.circuitsMissing t r) b).complete Ty.TSI 0 cycle
    (s.present Ty.TSI 0 = false ∨ s.tm.free = true → Gives c s s) ∧
    (s.present Ty.TSI 0 = true → s.tm.free = false →
      (s.inv Ty.TSI 0 0 = false → Gives c s (run s)) ∧
      (s.inv Ty.TSI 0 0 = true → ∃ a : State, Gives c s (run a) ∧ a.tsi.conns = s.tsi.conns ∧
        ∀ k, k ∈ a.tsi.badPar ↔ k ∈ s.tsi.badPar ∨ ∃ e ∈ s.pageConns (s.tsiPageAt d), k = connKey (s.tsiPageAt d) e.1)))

/-- On a running device. A path command on a present link shows its words in PATH_DATA or takes its effect, answers in
PATH_CMD, and interrupts; PATH_WRITE, mirrored in the active device and only counted in a standby, is refused with 8 for
bytes outside the frame, with 1 for a valid path that overlaps another, and counts CFG_REJECT. BIN_READ answers 8
outside its ranges, 1 for a bin that does not exist, 3 with an error raised where the store fails, else 0 with the
words. CONN_READ shows an entry; the edits (CONN_WRITE, CONN_CLEAR, COPY_ACTIVE, CLEAR_PAGE) change the standby page
alone, answer 2 while a switch is armed, and a standby device only counts them. TSI_ARM begins one verification;
TSI_VERIFY_DONE shows the first failing entry with its reason, or arms the switch; TSI_CANCEL drops either. An
assignment push answers 4 for an absent tree, 2 with a switch armed, 1 for a terminal that is not OPERATIONAL, else
queues the page's list. On an absent link or unit these change nothing. -/
def Obligations.PathsConnectionsSwitchAndAssignment : Prop :=
  (∀ (s : State) (l p : Nat), Running s → l < 4 → p < 2048 →
    let x := s.cl l
    let y := x.path p
    let ans (a : State) (op st : Nat) : State :=
      let r := a.setReg Reg.CKT_PATH_CMD l (p + op * 2 ^ 16 + st * 2 ^ 24)
      (if st = 0 then r else r.count Reg.CKT_CFG_REJECT l).intSet Ty.CKT l 6
    let b (v : Bool) (i : Nat) : Nat := if v then 2 ^ i else 0
    (s.present Ty.CKT l = false → Gives (.pathRead l p) s s ∧ Gives (.pathWrite l p) s s ∧ Gives (.pathReadState l p) s s ∧
      Gives (.pathClearCounts l p) s s ∧ ∀ (e n : Nat) (ok : Bool), Gives (.binRead l e n ok) s s) ∧
    (s.present Ty.CKT l = true →
      (s.inv Ty.CKT l 0 = false → Gives (.pathRead l p) s (ans (s.pathShow l [b y.valid 0 + b y.through 1 + b y.txAis 2 + b y.txUneq 3 + b y.txRdi 4 + b y.pmEn 5,
        y.first + y.count * 2 ^ 18]) 1 0) ∧
        Gives (.pathReadState l p) s (ans (s.pathShow l [y.shown + bitsOf y.status 3 1 * 8 + y.status / 16 * 16, y.bipErr, y.febeErr, y.txmon]) 3 0)) ∧
      Gives (.pathClearCounts l p) s (ans (s.setCl l (x.setPath p { y with bipErr := 0, febeErr := 0, txmon := 0 })) 4 0) ∧
      (s.mirrorOpen = false → Gives (.pathWrite l p) s (s.count Reg.PAIR_MIRROR_WRITE_REJECT 0)) ∧
      (s.mirrorOpen = true →
        let w0 := s.regI Reg.CKT_PATH_DATA l 0 % 64
        let w1 := s.regI Reg.CKT_PATH_DATA l 1 % 2 ^ 29
        let first := w1 % 2 ^ 18
        let count := bitsOf w1 18 11
        let out := first < 288 ∨ count = 0 ∨ 1024 < count ∨ 162000 < first + count
        let meets := bitOf w0 0 = true ∧ ∃ q ∈ x.paths, q.1 ≠ p ∧ q.2.valid = true ∧ first < q.2.first + q.2.count ∧ q.2.first < first + count
        (out → Gives (.pathWrite l p) s (ans s 2 8)) ∧
        (¬ out → meets → Gives (.pathWrite l p) s (ans s 2 1)) ∧
        (¬ out → ¬ meets → Gives (.pathWrite l p) s (ans ((s.pathPut l p w0 w1).mirror 7 [2, l, p, w0, w1] []) 2 0))) ∧
      ∀ (e n : Nat) (ok : Bool), e < 4096 → n < 64 →
        let fin (a : State) (st : Nat) : State :=
          let r := a.setReg Reg.CKT_BIN_CMD l (e + n * 2 ^ 12 + st * 2 ^ 24)
          (if st = 0 ∨ st = 3 then r else r.count Reg.CKT_CFG_REJECT l).intSet Ty.CKT l 6
        let m := x.pmOf e
        (2048 < e ∨ 35 < n → Gives (.binRead l e n ok) s (fin s 8)) ∧
        (e ≤ 2048 → n ≤ 35 → m.bin n = none → Gives (.binRead l e n ok) s (fin s 1)) ∧
        (∀ (k : PmBin) (d : Bool), e ≤ 2048 → n ≤ 35 → m.bin n = some (k, d) →
          (ok = true → Gives (.binRead l e n ok) s
            (fin ((List.range 6).foldl (fun (a : State) j => a.setRegI Reg.CKT_BIN_DATA l j ((k.words d).getD j 0)) s) 0)) ∧
          (ok = false → ∃ z : Pm, z.bin n = some ({ k with suspect := true }, d) ∧
            Gives (.binRead l e n ok) s (fin ((s.raise Ty.CKT l 4 0 0).setCl l (x.setPm e z)) 3))))) ∧
  (∀ (s : State) (page : Nat), Running s → page < 2 →
    let pg := s.fld Reg.TSI_CONN_CMD_PAGE 0
    let ans (a : State) (op pg st : Nat) : State :=
      let r := a.setReg Reg.TSI_CONN_CMD 0 (op + pg * 8 + st * 2 ^ 24)
      (if st = 0 then r else r.count Reg.TSI_CFG_REJECT 0).intSet Ty.TSI 0 5
    let i := s.reg Reg.TSI_CONN_IDX 0 % 2 ^ 18
    let y := s.tsiStandby
    let c := connOf ((List.range 4).map fun j => s.regI Reg.TSI_CONN_DATA 0 j)
    let st := if epKind c.dst = 3 then 8 else if c.valid then max (s.epStatus c.src true) (s.epStatus c.dst false) else 0
    let act := s.tsi.conns.filterMap fun e => if e.1 / 2 ^ 18 == s.tsi.active then some (e.1 % 2 ^ 18, e.2) else none
    (s.present Ty.TSI 0 = false → Gives (.connRead page) s s ∧ Gives .connWrite s s ∧ Gives .connClear s s ∧ Gives .copyActive s s ∧
      Gives .clearPage s s ∧ Gives .tsiArm s s ∧ Gives .tsiCancel s s) ∧
    (s.present Ty.TSI 0 = true →
      (s.inv Ty.TSI 0 0 = false → connKey page i ∉ s.tsi.badPar → Gives (.connRead page) s (ans ((List.range 4).foldl (fun (a : State) j =>
        a.setRegI Reg.TSI_CONN_DATA 0 j ((s.conn page i).words.getD j 0)) s) 1 page 0)) ∧
      (s.mirrorOpen = false →
        let r := s.count Reg.PAIR_MIRROR_WRITE_REJECT 0
        Gives .connWrite s r ∧ Gives .connClear s r ∧ Gives .copyActive s r ∧ Gives .clearPage s r) ∧
      (s.mirrorOpen = true → s.tsi.armed.isSome = true →
        Gives .connWrite s (ans s 2 pg 2) ∧ Gives .connClear s (ans s 3 pg 2) ∧ Gives .copyActive s (ans s 4 pg 2) ∧ Gives .clearPage s (ans s 5 pg 2)) ∧
      (s.mirrorOpen = true → s.tsi.armed = none →
        (st ≠ 0 → Gives .connWrite s (ans s 2 pg st)) ∧
        (st = 0 → Gives .connWrite s (ans ((s.setConn y i c).mirror 7 ([0, y, i] ++ c.words) []) 2 pg 0)) ∧
        Gives .connClear s (ans ((s.setConn y i connReset).mirror 7 ([0, y, i] ++ connReset.words) []) 3 pg 0) ∧
        Gives .copyActive s (ans ((s.replacePage y act).mirror 7 [1, s.tsi.active] []) 4 pg 0) ∧
        Gives .clearPage s (ans ((s.replacePage y []).mirror 7 [4, y] []) 5 pg 0)) ∧
      (s.tsi.verify.isSome = true ∨ s.tsi.armed.isSome = true → Gives .tsiArm s s) ∧
      (s.tsi.verify = none → s.tsi.armed = none →
        (s.mirrorOpen = false → Gives .tsiArm s (s.count Reg.PAIR_MIRROR_WRITE_REJECT 0)) ∧
        (s.mirrorOpen = true → Gives .tsiArm s { s with tsi := { s.tsi with
          verify := some (s.tm.m, s.reg64 Reg.TSI_SWITCH_AT_LO 0 % 2 ^ 48, s.flag Reg.TSI_SWITCH_CTL_FORCE 0) } }))) ∧
    (s.tsi.verify = none → Gives .tsiVerifyDone s s) ∧
    (∀ (m t : Nat) (force : Bool), s.tsi.verify = some (m, t, force) →
      let a := { s with tsi := { s.tsi with verify := none } }
      let shut (i r : Nat) := Gives .tsiVerifyDone s ((a.setReg Reg.TSI_VERIFY_RESULT 0 (i + r * 2 ^ 18 + 2 ^ 31)).intSet Ty.TSI 0 2)
      (∀ i r, verifyPage (s.pageConns y) = some (i, r) → shut i r) ∧
      (verifyPage (s.pageConns y) = none →
        (force = false → s.assignOpen ≠ 0 → shut 0 4) ∧
        (force = true ∨ s.assignOpen = 0 → t < m + 16 → shut 0 5) ∧
        (force = true ∨ s.assignOpen = 0 → m + 16 ≤ t →
          Gives .tsiVerifyDone s (((a.setReg Reg.TSI_VERIFY_RESULT 0 0).tsiSetArmed t).mirror 7 [3, t, 1] [])))) ∧
    (s.tsi.armed = none → s.tsi.verify = none → Gives .tsiCancel s s) ∧
    (s.present Ty.TSI 0 = true → s.tsi.armed.isSome = true ∨ s.tsi.verify.isSome = true →
      (s.mirrorOpen = false → Gives .tsiCancel s (s.count Reg.PAIR_MIRROR_WRITE_REJECT 0)) ∧
      (s.mirrorOpen = true → Gives .tsiCancel s
        (({ s with tsi := { s.tsi with armed := none, verify := none } }.unname .tsiPage 0 0).mirror 7 [3, 0, 0] [])))) ∧
  (∀ (s : State) (t n : Nat), Running s → t < 32 → n < 512 →
    let fin (a : State) (op st : Nat) : State :=
      let r := a.setReg Reg.TSI_ASSIGN_CMD 0 (n + t * 2 ^ 9 + op * 2 ^ 16 + st * 2 ^ 24)
      (if st = 0 then r else r.count Reg.TSI_CFG_REJECT 0).intSet Ty.TSI 0 5
    let both (st : Nat) := Gives (.assignPushStandby t n) s (fin s 1 st) ∧ Gives (.assignPushActive t n) s (fin s 2 st)
    (s.present Ty.TSI 0 = false → Gives (.assignPushStandby t n) s s ∧ Gives (.assignPushActive t n) s s) ∧
    (s.present Ty.TSI 0 = true →
      (s.hasTree t = false → both 4) ∧
      (s.hasTree t = true → s.tsi.armed.isSome = true → both 2) ∧
      (s.hasTree t = true → s.tsi.armed = none → (s.term (t * 512 + n)).st ≠ .operational → both 1) ∧
      (s.hasTree t = true → s.tsi.armed = none → (s.term (t * 512 + n)).st = .operational →
        Gives (.assignPushStandby t n) s (fin (s.assignPush s.tsiStandby t n) 1 0) ∧
        Gives (.assignPushActive t n) s (fin (s.assignPush s.tsi.active t n) 2 0))))

/-- On a running device, for cluster c < 32 and navigator n < 16. A delivered message joins its navigator's queue and ends a
waiting WFT that asked for it, or is dropped and counted at a lost navigator or a queue of 64. A post to the host goes
to the event ring or counts MBX_DROP. A frame on its way is written to the ring and announced, or counted dropped. An
injection descriptor out of range answers 1, else the frame enters the parser. A slot request out of the cluster's
windows answers 1 in its block and by a message; a request with no data answers what the slot operation gives. A write
of NAV_CTL arms a COLD start for each healthy navigator it enables, stops each it disables, and leaves the others. The
watchdog restarts a navigator past its limit with cause 3. A failing engine stops, once. IMG_LOAD with a wrong length
answers 9, with a bank in use 7, with a closed window 8; IMG_LOAD_DONE ends with the first failing check's number and an
invalid bank, or with the program in its bank. MIN_SVN only rises, any other write counts CFG_REJECT. BANK_ARM answers 1
for a bank not valid, 2 for one in use, else names the tick; BANK_CANCEL drops it; BANK_FORCED restarts a navigator left
in the old bank. -/
def Obligations.ClustersMailboxesAndImages : Prop :=
  (∀ (s : State) (c cycle : Nat), Running s → c < 32 →
    ((∀ m ∈ s.mail, m.cluster ≠ c) → Gives (.mbxDeliver c) s s) ∧
    (∀ m : Mail, (s.mail.find? fun m => m.cluster == c) = some m →
      let a := { s with mail := s.mail.erase m }
      let n := m.nav.getD (s.fld Reg.NAV_CTL_EVT_NAV c)
      let e := s.nv c n
      (s.present Ty.NAV c = false → Gives (.mbxDeliver c) s a) ∧
      (s.present Ty.NAV c = true →
        (s.navLost c n = true ∨ 64 ≤ e.rx.length → Gives (.mbxDeliver c) s (a.count Reg.NAV_MBX_RX_DROP c)) ∧
        (s.navLost c n = false → e.rx.length < 64 →
          let b := a.setNv c n { e with rx := e.rx ++ [⟨m.src, m.kind, m.body⟩] }
          ((∀ w, e.wait = some w → w.msg = false) → Gives (.mbxDeliver c) s b) ∧
          (∀ w, e.wait = some w → w.msg = true → Gives (.mbxDeliver c) s (b.wftReturn c n w.rd (b.tickWord 0 false true)))))) ∧
    (s.takePost c 0xFF01 = none → Gives (.hostMailboxPost c) s s) ∧
    (∀ (p : Post) (a : State), s.takePost c 0xFF01 = some (p, a) →
      let r := a.postEvent (a.fld Reg.NAV_CTL_HOST_RING c) Ty.NAV c p.body
      Gives (.hostMailboxPost c) s (if r.2 then r.1 else r.1.count Reg.NAV_MBX_DROP c)) ∧
    ((s.navIn.find? fun q => q.1 == c) = none → Gives (.navFrameRx c) s s) ∧
    (∀ p : Pkt, (s.navIn.find? fun q => q.1 == c) = some (c, p) →
      let a := { s with navIn := s.navIn.erase (c, p) }
      (s.present Ty.NAV c = false → Gives (.navFrameRx c) s (a.injFin p 2 none)) ∧
      (s.present Ty.NAV c = true →
        let a := a.frameRing c
        let k := a.cluster c
        let m := ringSlots k.ring
        let shut := k.ring ≠ a.reg Reg.NAV_RX_RING c ∨ m = 0 ∨ (k.prod + 1) % m = k.cons ∨ ringSlot k.ring < 32 + p.data.length
        (shut → Gives (.navFrameRx c) s ((a.count Reg.NAV_FRAME_DROP c).injFin p 2 none)) ∧
        (¬ shut →
          let b := a.navStore (2 ^ 20) (placeShared c (ringBase k.ring + k.prod * ringSlot k.ring)) (a.slotHead p ++ p.data)
          let b := (b.count Reg.NAV_FRAME_RX c).setCluster c { k with prod := (k.prod + 1) % m }
          Gives (.navFrameRx c) s ((b.sendMail ⟨Ty.NAV * 256 + c, c, none, 3, toLE 2 k.prod ++ List.replicate 14 0⟩).injFin p 0 none)))) ∧
    (s.takePost c 0xFF00 = none → Gives (.navInject c cycle) s s) ∧
    (∀ (p : Post) (a : State), s.takePost c 0xFF00 = some (p, a) →
      let a := a.advanceTo (min cycle a.tm.len)
      let f := leAt p.body 10 1
      let j : Inj := ⟨false, c, p.nav, sliceB p.body 12 4, bitOf f 3, bitOf f 4, bitOf f 5⟩
      let off := leAt p.body 0 4
      let len := leAt p.body 4 2
      let good := a.injOk off len (leAt p.body 6 2) (leAt p.body 8 2) f = true ∧ leAt p.body 11 1 = 0
      (¬ good → Gives (.navInject c cycle) s { a with injDone := a.injDone ++ [⟨j, 1, none⟩] }) ∧
      (good → Gives (.navInject c cycle) s (a.toFwd
        (a.injPkt (16448 + c) (c / 8) (c % 8 / 4) (a.nmem.readN (placeShared c off) len) (leAt p.body 6 2) (leAt p.body 8 2) f j))))) ∧
  (∀ (s : State) (c n : Nat), Running s → c < 32 → n < 16 →
    ((s.nv c n).alm = [] → Gives (.almreqComplete c n) s s) ∧
    (∀ (q : AlmReq) (rest : List AlmReq), (s.nv c n).alm = q :: rest →
      let a := s.setNv c n { s.nv c n with alm := rest }
      let op := leAt q.block 0 1
      let k256 := bitOf (leAt q.block 2 1) 1
      let ax := leAt q.block 4 3 % 2 ^ 18
      let args := (List.range 8).map fun i => leAt q.block (8 + 4 * i) 4
      let need := slotReads op k256 args
      let may := op = 12 ∨ op = 13 ∨ a.slotMay (c + 1) op ax = true
      let ans (b : State) (st : Nat) (r : SlotRes) : State := match b.navArea q.addr 64 with
        | none => b
        | some z =>
          let at_ := z.place c n 0 q.addr
          let b := match r.args with
            | some l => b.navStore (2 ^ 20) (at_ + 8) ((l.take 8).map (toLE 4)).flatten
            | none => b
          (b.navStore (2 ^ 20) (at_ + 1) (toLE 1 st)).sendMail
            ⟨Ty.ALM * 256, c, some n, 4, toLE 1 st ++ toLE 1 op ++ List.replicate 6 0 ++ sliceB q.block 48 8⟩
      (¬ may → Gives (.almreqComplete c n) s (ans a 1 (SlotRes.of 1))) ∧
      (may → 0 < need → need ≤ 2048 → leAt q.block 44 4 < need → Gives (.almreqComplete c n) s (ans a 8 (SlotRes.of 8))) ∧
      (may → need = 0 ∨ 2048 < need →
        let r := a.slot op ⟨c + 1, ax, leAt q.block 2 1 % 2, k256, args, []⟩
        (r.2.st ≠ 0 ∨ r.2.out = [] → Gives (.almreqComplete c n) s (ans r.1 r.2.st r.2)) ∧
        (r.2.st = 0 → r.2.out ≠ [] → leAt q.block 44 4 < r.2.out.length → Gives (.almreqComplete c n) s (ans r.1 8 r.2)))) ∧
    (∀ v : Word, s.present Ty.NAV c = false → Gives (.navEnable c v) s s) ∧
    (∀ v : Word, s.present Ty.NAV c = true →
      let a := s.plainWrite (Reg.NAV_CTL.at c) v.toNat
      let on (x : State) (m : Nat) : Bool := x.flag Reg.NAV_CTL_EN c && bitOf (x.fld Reg.NAV_CTL_RUN_MASK c) m
      ∃ t, Gives (.navEnable c v) s t ∧ ∀ m, m < 16 →
        (on s m = on a m → t.nv c m = s.nv c m) ∧
        (on s m = true → on a m = false →
          t.nv c m = { s.nv c m with run := false, wait := none, start := none, alm := [], resv := none }) ∧
        (on s m = false → on a m = true → a.navLost c m = false → (s.nv c m).failed = none →
          t.nv c m = { s.nv c m with start := some 0 })) ∧
    (let lim := s.fld Reg.NAV_WDOG_CFG_TICKS c
     let late := s.present Ty.NAV c = true ∧ (s.nv c n).run = true ∧ (s.nv c n).wait = none ∧ lim ≠ 0 ∧ lim < (s.nv c n).idle
     (¬ late → Gives (.navWatchdog c n) s (s.oldBankSettle c)) ∧
     (late → Gives (.navWatchdog c n) s
       (((s.count Reg.NAV_WDOG_RESTARTS c).navStart c n 3 ((s.count Reg.NAV_WDOG_RESTARTS c).tickWord 0 false false)).oldBankSettle c))) ∧
    (s.present Ty.NAV c = false ∨ s.navLost c n = true ∨ (s.nv c n).failed.isSome = true → Gives (.engineFail c n) s s) ∧
    (s.present Ty.NAV c = true → s.navLost c n = false → (s.nv c n).failed = none →
      let a := s.navStop c n
      Gives (.engineFail c n) s ((a.setNv c n { a.nv c n with rx := [], trapped := false, failed := some false }).oldBankSettle c)) ∧
    (let old := s.flag Reg.NAV_STS_OLD_BANK_BUSY c = true ∧ (s.nv c n).run = true ∧ (s.nv c n).bank ≠ s.actBank c ∧
       (s.cluster c).switched < s.tm.tickNo
     let a := s.count Reg.NAV_BANK_FORCED c
     (¬ old → Gives (.bankForced c n) s s) ∧
     (old → Gives (.bankForced c n) s ((a.navStart c n 1 (a.tickWord ((s.nv c n).b - 1) true false)).oldBankSettle c)))) ∧
  (∀ (s : State) (c : Nat) (v : Word) (image : List Byte) (err : Bool), Running s → c < 32 →
    (s.present Ty.NAV c = false ∨ s.flag Reg.NAV_IMG_CMD_BUSY c = true → Gives (.imgLoad c v image) s s) ∧
    (s.present Ty.NAV c = true → s.flag Reg.NAV_IMG_CMD_BUSY c = false →
      let a := s.plainWrite (Reg.NAV_IMG_CMD.at c) v.toNat
      let r := a.setFlag Reg.NAV_STS_SDATA_SKIPPED c false
      let b := a.loadBank c
      let en := a.flag Reg.NAV_CTL_EN c
      let n := a.fld Reg.NAV_IMG_LEN_BYTES c
      let used := en = true ∧ (r.flag Reg.NAV_STS_ARMED c = true ∨ ∃ i, i < 16 ∧ (r.nv c i).run = true ∧ (r.nv c i).bank = b)
      let d := r.dmaRead (bitsOf v.toNat 4 4) (r.reg Reg.NAV_IMG_ADDR_LO c + r.reg Reg.NAV_IMG_ADDR_HI c * 2 ^ 32) n
      (v.toNat % 4 ≠ 1 → Gives (.imgLoad c v image) s a) ∧
      (v.toNat % 4 = 1 →
        (used → Gives (.imgLoad c v image) s (r.loadEnd c 7)) ∧
        (¬ used → (n < 400 ∨ 1311104 < n) → Gives (.imgLoad c v image) s ((r.bankValid c b none).loadEnd c 9)) ∧
        (¬ used → 400 ≤ n → n ≤ 1311104 →
          (d.2 = false → Gives (.imgLoad c v image) s ((d.1.bankValid c b none).loadEnd c 8)) ∧
          (d.2 = true → Gives (.imgLoad c v image) s
            (((d.1.setCluster c { d.1.cluster c with load := some ⟨sliceB image 0 n, b, !en⟩ }).setFlag Reg.NAV_IMG_CMD_BUSY c true).setFlag
              Reg.NAV_STS_LOADING c true))))) ∧
    ((s.cluster c).load = none → Gives (.imgLoadDone c err) s s) ∧
    (∀ l : NavLoad, (s.cluster c).load = some l →
      let d := l.image
      let cut := err = true ∨ s.imgStoreOk c = false
      let prog := leAt d 12 4
      let lo := placeBank c l.bank 0 / 4
      (cut → Gives (.imgLoadDone c err) s (((s.raise Ty.NAV c 3 0 0).bankValid c l.bank none).loadEnd c 8)) ∧
      (¬ cut → Gives (.imgLoadDone c err) s (
        if s.imgCheck c d ≠ 0 then (s.bankValid c l.bank none).loadEnd c (s.imgCheck c d)
        else
          let a := { s with nmem := s.nmem.writeN (placeBank c l.bank 0) (sliceB d 384 prog) }
          let a := { a with nbad := a.nbad.keep fun k _ => !(decide (lo ≤ k) && decide (k < lo + 2 ^ 16)) }
          let a := if l.sdata then a.navStore (2 ^ 20) (placeShared c (leAt d 24 4)) (d.drop (384 + prog))
            else a.setFlag Reg.NAV_STS_SDATA_SKIPPED c true
          let a := a.setCluster c { a.cluster c with entry := (a.cluster c).entry.set 0 l.bank (leAt d 16 4) }
          (a.bankValid c l.bank (some (leAt d 8 4))).loadEnd c 0))) ∧
    (s.present Ty.NAV c = false → Gives (.minSvnWrite c v) s s ∧ Gives (.bankArm c) s s) ∧
    (s.present Ty.NAV c = true →
      (s.reg Reg.NAV_MIN_SVN c < v.toNat → Gives (.minSvnWrite c v) s (s.setReg Reg.NAV_MIN_SVN c v.toNat)) ∧
      (v.toNat ≤ s.reg Reg.NAV_MIN_SVN c → Gives (.minSvnWrite c v) s (s.count Reg.NAV_CFG_REJECT c)) ∧
      (let b := 1 - s.actBank c
       let used := s.flag Reg.NAV_STS_OLD_BANK_BUSY c = true ∨ ∃ i, i < 16 ∧ (s.nv c i).run = true ∧ (s.nv c i).bank = b
       let st (k : Nat) : State := s.setFld Reg.NAV_BANK_CTL_STATUS c k
       (s.bankOk c b = false → Gives (.bankArm c) s (st 1)) ∧
       (s.bankOk c b = true → used → Gives (.bankArm c) s (st 2)) ∧
       (s.bankOk c b = true → ¬ used → Gives (.bankArm c) s
         ((((st 0).unname .navBank c 0).setFlag Reg.NAV_STS_ARMED c true).name .navBank c 0 ((st 0).reg64 Reg.NAV_BANK_AT_LO c % 2 ^ 48))))) ∧
    Gives (.bankCancel c) s ((s.unname .navBank c 0).setFlag Reg.NAV_STS_ARMED c false))

/-- On a running device, for cluster c < 32 and navigator n < 16. A navigator that is stopped or waits does nothing. Else
the command takes what comes next: NAV_INSTRUCTION an interrupt, a fetch fault (trap 1, or the double trap inside a
handler), an encoding with no meaning (trap 2) or a base instruction; a wide command its own instruction and no other.
WLD and WST move 16 bytes, unless the access traps; WADD and WSUB act lane by lane modulo the lane, WAND, WOR and WXOR
bit by bit; WCMPEQ gives all ones or 0 in each lane; WSHL and WSHR shift lanes by x[rs2] modulo the lane width; WINS and
WEXT write and read one lane, and trap on a lane that the size does not have; CRCSTEP runs over the first bytes of ws2.
MBX.SEND answers 2 for an endpoint not permitted, 1 where the inbox is full, else 0 with the message sent; MBX.RECV
takes the oldest message, or answers KIND 0 with a SOURCE that the spec leaves open. WFT returns at once after a
boundary or for a message that it asked for, else waits and completes the tick. FLK writes the lookup's result and
ALMREQ queues a request or answers 1 with four queued; both and the mailbox trap in U mode without permission. A retired
instruction advances the pc by 4 and leaves other navigators alone; x0 stays 0. -/
def Obligations.NavigatorInstructions : Prop :=
  (∀ (s : State) (c n cycle : Nat) (stalls : List Nat) (hold full : Bool), Running s → c < 32 → n < 16 →
    let a := s.navTime c n cycle stalls
    let clear (x : State) : State := x.setNv c n { x.nv c n with trapped := false }
    let rows : List (Instr × Nat) := [(.wld c n cycle stalls, 1), (.wst c n cycle stalls, 2), (.wadd c n cycle stalls, 3), (.wsub c n cycle stalls, 4),
      (.wand c n cycle stalls, 5), (.wor c n cycle stalls, 6), (.wxor c n cycle stalls, 7), (.wcmpeq c n cycle stalls, 8), (.wshl c n cycle stalls, 9),
      (.wshr c n cycle stalls, 10), (.wins c n cycle stalls, 11), (.wext c n cycle stalls, 12), (.crcstep c n cycle stalls, 13),
      (.mbxSend c n cycle stalls full, 14), (.mbxRecv c n cycle stalls, 15), (.wft c n cycle stalls, 16), (.flk c n cycle stalls, 17),
      (.almreq c n cycle stalls, 18)]
    let base := Instr.navInstruction c n cycle stalls hold
    (s.navReady c n = false → Gives base s s ∧ ∀ i ∈ rows, Gives i.1 s s) ∧
    (s.navReady c n = true → n = 0 → s.inv Ty.NAV c 2 = true →
      let r := (s.engineFail c n false).invDone Ty.NAV c 2
      Gives base s r ∧ ∀ i ∈ rows, Gives i.1 s r) ∧
    (s.navReady c n = true → n ≠ 0 ∨ s.inv Ty.NAV c 2 = false →
      (∀ (t : State) (k : Nat), a.navNext c n hold = (t, .irq k) → Gives base s (t.setNv c n ((t.nv c n).enter true k 0))) ∧
      (∀ t : State, a.navNext c n hold = (t, .fault) →
        ((t.nv c n).trapped = true → Gives base s (t.navDouble c n)) ∧
        ((t.nv c n).trapped = false → Gives base s (t.navTrap c n 1 (t.nv c n).pc))) ∧
      (∀ (t : State) (raw : Nat), a.navNext c n hold = (t, .illegal raw) → Gives base s ((clear t).navTrap c n 2 (BitVec.ofNat 64 raw))) ∧
      (∀ (t : State) (o : NavOp) (raw len : Nat), a.navNext c n hold = (t, .op o raw len) →
        (o.row = 0 → Gives base s ((clear t).navBase c n raw len o)) ∧ (o.row ≠ 0 → Gives base s s)) ∧
      (∀ (t : State) (x : NavNext), a.navNext c n true = (t, x) → ∀ i ∈ rows,
        (∀ (o : NavOp) (raw len : Nat), x = .op o raw len → o.row ≠ i.2) → Gives i.1 s s) ∧
      (∀ (t : State) (o : NavOp) (raw len : Nat), a.navNext c n true = (t, .op o raw len) →
        let u := clear t
        let e := u.nv c n
        let ill := u.navTrap c n 2 (BitVec.ofNat 64 raw)
        let wr (d : Nat) (v : BitVec 128) : State := u.navReg c n fun e => e.putW d v
        let xr (d : Nat) (v : BitVec 64) : State := u.navReg c n fun e => e.putX d v
        (∀ (wd r : Nat) (imm : BitVec 64), o = .wld wd r imm → Gives (.wld c n cycle stalls) s (match u.navData c n 1 (e.getX r + imm) 16 with
          | (b, none) => b
          | (b, some p) => b.navReg c n fun e => e.putW wd (wideOf (b.nmem.readN p 16)))) ∧
        (∀ (w r : Nat) (imm : BitVec 64), o = .wst w r imm → Gives (.wst c n cycle stalls) s (match u.navData c n 2 (e.getX r + imm) 16 with
          | (b, none) => b
          | (b, some p) => (b.navStore (c * 16 + n) p (wideBytes ((b.nv c n).getW w))).navReg c n id)) ∧
        (∀ z d i j : Nat, o = .wadd z d i j → Gives (.wadd c n cycle stalls) s (wr d (laneMap z (fun x y => x + y) (e.getW i) (e.getW j)))) ∧
        (∀ z d i j : Nat, o = .wsub z d i j →
          Gives (.wsub c n cycle stalls) s (wr d (laneMap z (fun x y => x + 2 ^ laneBits z - y) (e.getW i) (e.getW j)))) ∧
        (∀ d i j : Nat, o = .wand d i j → Gives (.wand c n cycle stalls) s (wr d (e.getW i &&& e.getW j))) ∧
        (∀ d i j : Nat, o = .wor d i j → Gives (.wor c n cycle stalls) s (wr d (e.getW i ||| e.getW j))) ∧
        (∀ d i j : Nat, o = .wxor d i j → Gives (.wxor c n cycle stalls) s (wr d (e.getW i ^^^ e.getW j))) ∧
        (∀ z d i j : Nat, o = .wcmpeq z d i j → Gives (.wcmpeq c n cycle stalls) s
          (wr d (laneMap z (fun x y => if x = y then 2 ^ laneBits z - 1 else 0) (e.getW i) (e.getW j)))) ∧
        (∀ z d i r : Nat, o = .wshl z d i r → Gives (.wshl c n cycle stalls) s
          (wr d (laneMap z (fun x _ => x * 2 ^ ((e.getX r).toNat % laneBits z)) (e.getW i) (e.getW i)))) ∧
        (∀ z d i r : Nat, o = .wshr z d i r → Gives (.wshr c n cycle stalls) s
          (wr d (laneMap z (fun x _ => x / 2 ^ ((e.getX r).toNat % laneBits z)) (e.getW i) (e.getW i)))) ∧
        (∀ z q d r : Nat, o = .wins z q d r →
          (laneCount z ≤ q → Gives (.wins c n cycle stalls) s ill) ∧
          (q < laneCount z → Gives (.wins c n cycle stalls) s (wr d (laneSet z q (e.getW d) (e.getX r).toNat)))) ∧
        (∀ z q d i : Nat, o = .wext z q d i →
          (laneCount z ≤ q → Gives (.wext c n cycle stalls) s ill) ∧
          (q < laneCount z → Gives (.wext c n cycle stalls) s (xr d (BitVec.ofNat 64 (laneGet z q (e.getW i)))))) ∧
        (∀ pp k d r w : Nat, o = .crcstep pp k d r w →
          Gives (.crcstep c n cycle stalls) s (xr d (crcStep pp (e.getX r) ((wideBytes (e.getW w)).take (k + 1))))) ∧
        (∀ d r w : Nat, o = .mbxSend d r w →
          let ep := (e.getX r).toNat % 2 ^ 16
          let body := wideBytes (e.getW w)
          let fin (b : State) (st : Nat) : State :=
            b.navReg c n fun e => (e.putX d (BitVec.ofNat 64 st)).bump 7 (if st = 0 then 0 else 1)
          let b := u.count64 Reg.NAV_MBX_SENT_LO c
          (e.may 0 = false → Gives (.mbxSend c n cycle stalls full) s ill) ∧
          (e.may 0 = true →
            (u.epAllowed c ep = false → Gives (.mbxSend c n cycle stalls full) s (fin (u.count Reg.NAV_MBX_REFUSED c) 2)) ∧
            (u.epAllowed c ep = true → full = true → Gives (.mbxSend c n cycle stalls full) s (fin (u.count Reg.NAV_MBX_DROP c) 1)) ∧
            (u.epAllowed c ep = true → full = false → Gives (.mbxSend c n cycle stalls full) s
              (fin (if ep / 256 = Ty.NAV then b.sendMail ⟨Ty.NAV * 256 + c, ep % 256, none, 6, body⟩
                else { b with posts := b.posts ++ [⟨c, n, ep, body⟩] }) 0)))) ∧
        (∀ d w : Nat, o = .mbxRecv d w →
          (e.may 0 = false → Gives (.mbxRecv c n cycle stalls) s ill) ∧
          (e.may 0 = true →
            (e.rx = [] → Gives (.mbxRecv c n cycle stalls) s
              ((u.draw 16).2.navReg c n fun e => e.putX d (BitVec.ofNat 64 (u.draw 16).1))) ∧
            (∀ (m : RxMsg) (rest : List RxMsg), e.rx = m :: rest → Gives (.mbxRecv c n cycle stalls) s (u.navReg c n fun e =>
              { (e.putW w (wideOf m.body)).putX d (BitVec.ofNat 64 (m.src % 2 ^ 16 + m.kind * 2 ^ 16)) with rx := rest })))) ∧
        (∀ d r : Nat, o = .wft d r →
          let v := u.setNv c n { e with idle := 0 }
          let msg := bitOf (e.getX r).toNat 0
          (1 ≤ e.b → Gives (.wft c n cycle stalls) s (v.wftReturn c n d (v.tickWord (e.b - 1) true false))) ∧
          (e.b = 0 → msg = true → e.rx ≠ [] → Gives (.wft c n cycle stalls) s (v.wftReturn c n d (v.tickWord 0 false true))) ∧
          (e.b = 0 → (msg = false ∨ e.rx = []) →
            let y := v.setNv c n { e with idle := 0, wait := some ⟨d, msg, v.now⟩, done := some v.tm.cycle }
            Gives (.wft c n cycle stalls) s (if y.clusterDone c then y.complete Ty.NAV c (y.clusterCycle c) else y))) ∧
        (∀ d w : Nat, o = .flk d w →
          (e.may 2 = false → Gives (.flk c n cycle stalls) s ill) ∧
          (e.may 2 = true → Gives (.flk c n cycle stalls) s (let q := u.flkFind (c / 8) (sliceB (wideBytes (e.getW w)) 0 8)
            q.1.navReg c n fun e => e.putW d (q.1.flkResult (c / 8) q.2)))) ∧
        (∀ d r : Nat, o = .almreq d r →
          (e.may 1 = false → Gives (.almreq c n cycle stalls) s ill) ∧
          (e.may 1 = true →
            (4 ≤ e.alm.length → Gives (.almreq c n cycle stalls) s (xr d 1)) ∧
            (e.alm.length < 4 → Gives (.almreq c n cycle stalls) s (match u.navData c n 3 (e.getX r) 64 with
              | (b, none) => b
              | (b, some p) =>
                if 2 ^ 40 ≤ p then b.navTrap c n 7 (e.getX r)
                else (b.count Reg.NAV_ALM_REQ c).navReg c n fun x =>
                  { x.putX d 0 with alm := x.alm ++ [⟨(e.getX r).toNat, b.nmem.readN p 64, e.dataUser⟩] }))))))) ∧
  (∀ (s : State) (c n : Nat) (f : NavE → NavE),
    let t := s.navReg c n f
    let g := f (s.nv c n)
    (t.nv c n).pc = (s.nv c n).pc + 4 ∧ (t.nv c n).x = g.x ∧ (t.nv c n).w = g.w ∧ (t.nv c n).rx = g.rx ∧ t.nmem = s.nmem ∧
    ∀ d m : Nat, d * 16 + m ≠ c * 16 + n → t.nv d m = s.nv d m) ∧
  (∀ (e : NavE) (v : BitVec 64) (i j : Nat), e.putX 0 v = e ∧ e.getX 0 = 0 ∧ (i ≠ 0 → (e.putX i v).getX i = v) ∧
    (i ≠ j → (e.putX i v).getX j = e.getX j))

/-- On a running device. REGION_COMMIT on an absent Quadrant changes nothing; else it commits the region that REGION_SEL
names, of the selected navigator or of all 16 with ALL, and releases what was held; a locked region, or one whose LIMIT
lies below its BASE, is left alone and counted. QMAP_FENCE shows in WAITED the accesses waited for. SEAL_INIT is
accepted once: it shows the first check that fails, or draws a nonce, derives the seal root and begins; its end sets
READY and interrupts. A line access answers an error on a stack not ready or zeroised; one past the usable part, or by a
master that may not, is blocked, counted and raised; a good line outside the ranges is deciphered and an error there
poisons the line; a whole line written outside the ranges is sealed at version 0, and one of a range from its counter,
once the nodes of its path stand. A reseal command while one runs changes nothing; before READY it answers 6, for an
unused range, or a node where none is listed, 1; else it begins, and its end rewrites what it names, counts and
interrupts. What is stored for a line is what the memory holds of it. -/
def Obligations.RegionsAndSealedMemory : Prop :=
  (∀ (s : State) (i w : Nat) (v : Word), Running s → i < 64 →
    (s.present Ty.QMAP i = false → Gives (.regionCommit i v) s s ∧ Gives (.qmapFence i w) s s) ∧
    (s.present Ty.QMAP i = true →
      let r := s.fld Reg.QMAP_REGION_SEL_REGION i
      let drop (a : State) : State := { a with qhold := a.qhold.erase i }
      (i = 32 ∨ s.flag Reg.QMAP_REGION_SEL_ALL i = false →
        Gives (.regionCommit i v) s (drop (s.qCommit i (s.fld Reg.QMAP_REGION_SEL_NAV i) r v.toNat))) ∧
      (i ≠ 32 → s.flag Reg.QMAP_REGION_SEL_ALL i = true →
        Gives (.regionCommit i v) s (drop ((List.range 16).foldl (fun (a : State) n => a.qCommit i n r v.toNat) s))) ∧
      Gives (.qmapFence i w) s (s.setFld Reg.QMAP_FENCE_WAITED i (min w 65535)))) ∧
  (∀ (s : State) (i n r v : Nat),
    let x := s.qreg i n r
    let y := (s.qhold.get qholdReset i).overlay (i == 32) x (if i == 32 then v % 256 &&& 0xC3 else v % 128)
    (bitOf x.cfg 7 = true ∨ y.limit < y.base → s.qCommit i n r v = s.count Reg.QMAP_CFG_REJECT i) ∧
    (bitOf x.cfg 7 = false → y.base ≤ y.limit → (s.qCommit i n r v).qreg i n r = y)) ∧
  (∀ (s : State) (i r : Nat), Running s → i < 2 → r < 4 →
    let x := s.sealOf i
    (s.present Ty.SEAL i = false → Gives (.sealInit i) s s ∧ Gives (.resealRange i r) s s ∧ Gives (.resealNode i r) s s) ∧
    (s.present Ty.SEAL i = true →
      (x.begun = true → Gives (.sealInit i) s (s.count Reg.SEAL_CFG_REJECT i)) ∧
      (x.begun = false →
        let e := s.sealInitErr i
        let a := s.setFld Reg.SEAL_STS_INIT_ERR i e
        (e ≠ 0 → Gives (.sealInit i) s a) ∧
        (e = 0 →
          let b := (a.drawBytes 48).2
          let key : Bytes := match b.lcs.root with
            | some k => k ++ b.lcs.vbat.secret.getD []
            | none => []
          let b := b.setSeal i { x with sr := some (Config.hkdfExtract (a.drawBytes 48).1 key), begun := true }
          Gives (.sealInit i) s ((b.setFlag Reg.SEAL_STS_INIT_BUSY i true).setFlag Reg.SEAL_STS_ROOT_OK i b.lcs.root.isSome))) ∧
      (∀ (op : Nat) (c : Instr), (op = 1 ∧ c = .resealRange i r) ∨ (op = 2 ∧ c = .resealNode i r) →
        let node := x.poisoned.find? fun p => p.1 == r
        let word (st busy : Nat) : Nat := r + op * 16 + st * 2 ^ 24 + busy * 2 ^ 31
        let fin (st : Nat) : State := (s.setReg Reg.SEAL_RESEAL_CMD i (word st 0)).intSet Ty.SEAL i 6
        let open_ := s.flag Reg.SEAL_STS_READY i = true ∧ s.flag Reg.SEAL_STS_ROOT_OK i = true
        let none_ := (s.sealRange i r).2.2 = 0 ∨ (op = 2 ∧ node = none)
        (s.flag Reg.SEAL_RESEAL_CMD_BUSY i = true → Gives c s s) ∧
        (s.flag Reg.SEAL_RESEAL_CMD_BUSY i = false →
          (¬ open_ → Gives c s (fin 6)) ∧
          (open_ → none_ → Gives c s (fin 1)) ∧
          (open_ → ¬ none_ →
            let a := s.setSeal i { x with reseal := some (op, r, (node.getD (r, 0, 0)).2.1, (node.getD (r, 0, 0)).2.2) }
            let a := if op = 1 ∧ (s.sealRange i r).2.2 = 1 then a.destroyAll true else a
            Gives c s ((a.setReg Reg.SEAL_RESEAL_CMD i (word 0 1)).setFlag Reg.SEAL_STS_RESEAL_BUSY i true))))) ∧
    (s.flag Reg.SEAL_STS_INIT_BUSY i = false → Gives (.sealInitDone i) s s) ∧
    (s.flag Reg.SEAL_STS_INIT_BUSY i = true → Gives (.sealInitDone i) s
      (((s.setFlag Reg.SEAL_STS_INIT_BUSY i false).setFlag Reg.SEAL_STS_READY i true).intSet Ty.SEAL i 0)) ∧
    (x.reseal = none → Gives (.resealDone i) s s) ∧
    (∀ op q l n : Nat, x.reseal = some (op, q, l, n) →
      let a := s.setSeal i { x with reseal := none }
      let a := ((if op = 1 then a.resealWhole i q else a.resealSub i q l n).sealShow i).count Reg.SEAL_RESEALS i
      Gives (.resealDone i) s (((((a.setFlag Reg.SEAL_RESEAL_CMD_BUSY i false).setFld Reg.SEAL_RESEAL_CMD_STATUS i 0)).setFlag
        Reg.SEAL_STS_RESEAL_BUSY i false).intSet Ty.SEAL i 6))) ∧
  (∀ (s : State) (i m line : Nat) (got : List Byte) (ecc : Bool) (bad : List Nat) (d : List Byte), Running s → i < 2 → d.length = 64 →
    let rd := Instr.hbmLineRead i m line got ecc bad
    let wr := Instr.hbmLineWrite i m (line * 64) d [got] [ecc] bad
    let shut := s.flag Reg.SEAL_STS_READY i = false ∨ (s.sealOf i).zeroised = true
    let p := s.sealPart i line
    let may := line < usableUnits * unitLines ∧ s.sealMay i m p = true
    (s.present Ty.SEAL i = false → Gives rd s s ∧ Gives wr s s) ∧
    (s.present Ty.SEAL i = true →
      (shut → Gives rd s (s.sealAnswer i [] true 0) ∧ Gives wr s (s.sealAnswer i [] true 0)) ∧
      (¬ shut → ¬ may → Gives rd s (s.sealBlock i m line) ∧ Gives wr s (s.sealBlock i m line)) ∧
      (¬ shut → may → p.isRange = false →
        let h := s.lineHeld i line
        let b := if got = [] then h.1 else sliceB got 0 72
        let a := h.2.count64 Reg.SEAL_READS_LO i
        let fail (z : State) : State := ((((z.poisonLine i line 0 b).errLine i line).raise Ty.SEAL i 7 (line * 64 % 2 ^ 32)
          (line * 64 / 2 ^ 32)).sealAnswer i [] true 24)
        let k := a.sealKeys i p.region
        (ecc = true → Gives rd s (fail (a.count Reg.SEAL_ECC_UNCORR i))) ∧
        (ecc = false → Gives rd s (match a.lineState i line 0 b with
          | 0 => a.sealAnswer i (sliceB (Config.xtsDec k.1 k.2.1 (lineTweak line 0) (sliceB b 0 64)) 0 64) false 24
          | 1 => ((a.count Reg.SEAL_POISON_HIT i).errLine i line).sealAnswer i [] true 24
          | _ => fail (a.count Reg.SEAL_TAG_FAIL i))) ∧
        Gives wr s (((s.setLine i line (s.lineSeal i line 0 d)).count64 Reg.SEAL_WRITES_LO i).sealAnswer i [] false 0)) ∧
      (¬ shut → may → ∀ r : Nat, p = .range r → s.flag Reg.SEAL_STS_ROOT_OK i = true →
        (s.sealOf i).resealing r (s.rangeLine i r line) = false → (s.sealOf i).poisonedAt r (s.rangeLine i r line) = false →
        let f := s.pathFetch i r (s.rangeLine i r line) bad (s.sealLevels i r).length
        (f.2.1 = false → Gives rd s (f.1.sealAnswer i [] true 0) ∧ Gives wr s (f.1.sealAnswer i [] true 0)) ∧
        (f.2.1 = true → Gives wr s (f.1.lineStore i line (f.1.lineCtr i r (s.rangeLine i r line)) d))))) ∧
  (∀ (s : State) (i line : Nat) (b : Bytes), (s.setLine i line b).lineHeld i line = (b, s.setLine i line b))

/-- For every command and every state: where the command gives a next state and the device was halted, the device is still
halted, unless the command is a power cycle, or a loss of the main supplies with VDD_CORE below its power-on threshold
too. No reset that the host can ask for, no assertion of POR_N, and no other event ends a halt. -/
def Obligations.OnlyAPowerCycleEndsAHalt : Prop :=
  ∀ (c : Instr) (s t : State), exec c s = .next t → s.halted = true → t.halted = true ∨ (∃ torn, c = .powerCycle torn) ∨ ∃ torn, c = .supplyLoss true torn

/-- With the supplies present and no halt: an ERR_EVENT of one detection of a present page whose source has a default class
c is the event of class c followed by the effect the block lists for it (the forced mark of the operand is ignored, log
entry 22); a detection of an absent page changes nothing. ERR_FORCE with bit i alone, where source i exists, is the
event of that source marked forced. ESC_WINDOW_CLOSE removes a window whose closing tick has come and keeps one that is
still open. ERR_CAPTURE_RELEASE of a present page empties ERR_FIRST and the capture words and clears CAPT, but keeps a
capture of this very cycle. SEVERE_CLEAR is a plain write-one-to-clear of SEVERE_LO or SEVERE_HI, where no bit was set
in this cycle. FIRST_RELEASE empties the device-wide first record, or fills it with an event of the same cycle that had
found it held. -/
def Obligations.ErrorEventsAndTheirClears : Prop :=
  ∀ s : State, Running s →
    (∀ (d : Det) (c : EClass), s.present d.ty d.inst = true → defaultClass d.ty d.src = some c →
      Gives (.errEvent [d]) s ((s.event { d with forced := false } c).errEffect { d with forced := false })) ∧
    (∀ d : Det, s.present d.ty d.inst = false → Gives (.errEvent [d]) s s) ∧
    (∀ (ty inst i : Nat) (c : EClass), s.present ty inst = true → s.secondary ty inst 0x030 = false → 0 < i → i < 32 →
      defaultClass ty i = some c →
      Gives (.errForce ty inst (BitVec.ofNat 32 (2 ^ i))) s
        ((s.event ⟨ty, inst, i, 0, 0, true, none⟩ c).errEffect ⟨ty, inst, i, 0, 0, true, none⟩)) ∧
    (∀ (ty inst src : Nat) (w : EscWin), s.bin.wins.find (pageKey ty inst * 32 + src) = some w →
      Gives (.escWindowClose ty inst src) s
        (if w.closes ≤ s.tm.tickNo then { s with bin := { s.bin with wins := s.bin.wins.erase (pageKey ty inst * 32 + src) } } else s)) ∧
    (∀ ty inst : Nat, s.present ty inst = true →
      let old := s.reg (Reg.ERR_OVF ty) inst
      let new := old &&& (0xFFFFFFFF ^^^ (s.seen.getD resetAt ((Reg.ERR_OVF ty).at inst)).toNat)
      let s1 := s.setReg (Reg.ERR_OVF ty) inst ((old &&& 0xFFFFFFFF) ||| (new &&& 3))
      (bitOf new 31 = true → Gives (.errCaptureRelease ty inst) s s1) ∧
      (bitOf new 31 = false → (s.lateOf (pageKey ty inst)).n = 0 → Gives (.errCaptureRelease ty inst) s
        (let s2 := ((s1.setReg (Reg.ERR_FIRST ty) inst 0).setReg (Reg.ERR_CAPTURE_LO ty) inst 0).setReg (Reg.ERR_CAPTURE_HI ty) inst 0
         s2.setReg (Reg.ERR_OVF ty) inst (setBitOf (s2.reg (Reg.ERR_OVF ty) inst) 31 false)))) ∧
    (∀ v : Word, s.seen.getD resetAt (Reg.BIN_SEVERE_LO.at 0) = s.rd (Reg.BIN_SEVERE_LO.at 0) → Gives (.severeClear false v) s (s.wr (Reg.BIN_SEVERE_LO.at 0) (s.rd (Reg.BIN_SEVERE_LO.at 0) &&& ~~~ v))) ∧
    (∀ v : Word, s.seen.getD resetAt (Reg.BIN_SEVERE_HI.at 0) = s.rd (Reg.BIN_SEVERE_HI.at 0) → Gives (.severeClear true v) s (s.wr (Reg.BIN_SEVERE_HI.at 0) (s.rd (Reg.BIN_SEVERE_HI.at 0) &&& ~~~ v))) ∧
    (let x := s.lateOf 65536
     Gives .firstRelease s (if x.n = 0 then (s.setReg Reg.BIN_FIRST_SRC 0 0).setReg64 Reg.BIN_FIRST_TICK_LO 0 0
       else (s.setReg Reg.BIN_FIRST_SRC 0 x.word).setReg64 Reg.BIN_FIRST_TICK_LO 0 x.lo))

/-- An event that is not merged (into nothing) on a tree transmitter's page (type 0x10) that is present, where no escalation
window is open and escalation is off (ESC_N 0): if the page's capture is free, ERR_FIRST takes the source, the class,
the forced mark, CAPT and the low 16 bits of the tick, and the capture words take the operand's (0 if forced); if the
capture is taken, ERR_FIRST is kept and ERR_OVF gains OVF, and MORE_SEVERE too where the class is higher than the one
held. A FATAL event of any present page leaves the device halted with HEALTH 0. -/
def Obligations.EventRecordsTheFirstAndHaltsOnFatal : Prop :=
  ∀ (s : State) (t src capLo capHi : Nat) (forced : Bool) (c : EClass), s.present Ty.TTX t = true → capLo < 2 ^ 32 → capHi < 2 ^ 32 →
    let d : Det := ⟨Ty.TTX, t, src, capLo, capHi, forced, none⟩
    bitsOf (s.reg (Reg.ERR_CLASS_CFG Ty.TTX) t) 0 8 = 0 → s.openWin d = none →
    (bitOf (s.reg (Reg.ERR_FIRST Ty.TTX) t) 15 = false → s.halted = false →
      let r := s.record d c
      r.reg (Reg.ERR_FIRST Ty.TTX) t = src % 256 + c.code * 256 + (if forced then 2048 else 0) + 2 ^ 15 + s.errTick % 2 ^ 16 * 2 ^ 16 ∧
      r.reg (Reg.ERR_CAPTURE_LO Ty.TTX) t = (if forced then 0 else capLo) ∧
      r.reg (Reg.ERR_CAPTURE_HI Ty.TTX) t = (if forced then 0 else capHi) ∧
      r.halted = decide (c = .fatal)) ∧
    (bitOf (s.reg (Reg.ERR_FIRST Ty.TTX) t) 15 = true →
      let r := s.record d c
      let f := s.reg (Reg.ERR_FIRST Ty.TTX) t
      r.reg (Reg.ERR_FIRST Ty.TTX) t = f ∧ bitOf (r.reg (Reg.ERR_OVF Ty.TTX) t) 0 = true ∧
      (bitsOf f 8 2 < c.code → bitOf (r.reg (Reg.ERR_OVF Ty.TTX) t) 1 = true)) ∧
    (c = .fatal → s.halted = false → (s.record d c).halted = true ∧ (s.record d c).fld Reg.PAIR_STS_HEALTH 0 = 0)

/-- At a boundary placed at network tick j, with e the E then in force (a pending one if there is one): if j + e is greater
than M + 1 the count becomes j + e and E is e; if it is M + 1 the count is M + 1 and E is e; if it is smaller the count
is still M + 1 and E becomes M + 1 - j (TIME_STEP_BACK). So the count never repeats or falls while it stays below 2^48.
The high-water update leaves H at least the multiple of 65,536 at or below M plus 131,072, never lowers it, and copies
E. EPOCH_WRITE in a device open to mirrored writes (the active one, or with PAIR_EN 0) of a value greater than the
intended E makes it pending, and any other value is only counted in EPOCH_REJECT; in a paired standby it is counted in
MIRROR_WRITE_REJECT. -/
def Obligations.MeridianCountAdvances : Prop :=
  (∀ (s : State) (j : Nat), s.tm.m + 1 < 2 ^ 48 → j + s.intendedE < 2 ^ 48 →
    let t := s.countUpdate j
    t.tm.m = max (s.tm.m + 1) (j + s.intendedE) ∧ s.tm.m < t.tm.m ∧
    t.tm.e = (if j + s.intendedE < s.tm.m + 1 then s.tm.m + 1 - j else s.intendedE) ∧ t.tm.ePend = none) ∧
  (∀ s : State, let t := s.highWater
    t.lcs.vbat.h = max s.lcs.vbat.h (s.tm.m / 65536 * 65536 + 131072) ∧ t.lcs.vbat.e = s.tm.e ∧ s.tm.m < t.lcs.vbat.h ∧ t.regs = s.regs ∧ t.tm = s.tm) ∧
  ∀ (s : State) (e : Nat), Running s → e < 2 ^ 48 →
    (s.mirrorOpen = true → s.intendedE < e → Gives (.epochWrite e) s { s with tm := { s.tm with ePend := some e } }) ∧
    (s.mirrorOpen = true → e ≤ s.intendedE → Gives (.epochWrite e) s (s.count Reg.AST_EPOCH_REJECT 0)) ∧
    (s.mirrorOpen = false → Gives (.epochWrite e) s (s.count Reg.PAIR_MIRROR_WRITE_REJECT 0))

/-- timeStepBack is, in this order: TIME_STEP_BACK counted in the AST page (which sets its flag), the NOTICE event of source
0 of AST (log entry 76), a Logbook entry of code 0x20 continued by one that holds the new E and the count, six bytes
each, and the new E in the backup cell. The E stored is the one in force. -/
def Obligations.TimeStepBackDoesFourThings : Prop :=
  ∀ s : State,
    let s1 := (s.count Reg.AST_TIME_STEP_BACK 0).event ⟨Ty.AST, 0, 0, 0, 0, false, none⟩ .notice
    let s2 := s1.logPut (logEntry s1 0x20 0 Ty.AST 0 0 0 true)
    let s3 := s2.logPut (logCont (toBE 6 s2.tm.e ++ toBE 6 s2.tm.m))
    s.timeStepBack = { s3 with lcs := { s3.lcs with vbat := { s3.lcs.vbat with e := s3.tm.e } } } ∧
    s.timeStepBack.lcs.vbat.e = s.tm.e

/-- On a running device TICK_BOUNDARY is the boundary of time followed by that of keys, of terminals, of the stages (told
whether time stepped) and HEALTH, and the tick number goes up by one in the boundary of time, which starts the new tick
at cycle 0 and adds the old tick's length to the cycles gone by. On a halted device with its supplies present it is the
boundary of time alone. The order among these parts is the model's (log entry 16). -/
def Obligations.TickBoundaryOrderAndHalt : Prop :=
  (∀ s : State, Running s →
    let t := s.boundaryTime.boundaryKeys.boundaryTerms
    Gives .tickBoundary s
      (t.boundaryStages s.tm.m (t.tm.stepped || (s.tm.swReq.any (fun r => r.2) && t.tm.active != s.tm.active))).healthStep) ∧
  (∀ s : State, s.off = false → s.halted = true → Gives .tickBoundary s s.timeBoundary) ∧
  ∀ s : State, s.timeBoundary.tm.tickNo = s.tm.tickNo + 1 ∧ s.timeBoundary.tm.cycle = 0 ∧ s.timeBoundary.tm.base = s.tm.base + s.tm.len

/-- On a running device, for domain d (0 or 1). INCR_WRITE of a 40-bit value within 3,432,537,863 to 3,439,409,811 moves the
counters to the cycle, stores the value and counts as a discipline; outside it is only counted in INCR_REJECT. ADJ_ADD
and ADJ_SET pend their operation with the seconds, nanoseconds and the SUBNS just stored. KEEPALIVE restarts the
holdover watchdog, and on a domain that is not held by software ends its holdover with the flag. HOLDOVER_ENTER with
HOLD_TICKS not 0 and reached enters holdover, with ACC_NOW taken from ACCURACY and the flag. ACC_GROWTH after 8,000
ticks of holdover adds ACC_GROWTH, limited to 0xFFFF. DOMAIN_SWITCH_START stores TARGET and MODE and asks for the switch
at the next boundary. DOM_VALID_WRITE stores the word and with HOLD set enters holdover. -/
def Obligations.DomainCommandsOfTheAstrolabe : Prop :=
  ∀ s : State, Running s →
    (∀ d v cycle : Nat, d < 2 → 3432537863 ≤ v → v ≤ 3439409811 →
      let s1 := s.advanceTo (min cycle s.tm.len)
      Gives (.incrWrite d v cycle) s
        (((s1.wr (Reg.AST_INCR_LO.at 0 + 0x40 * d) (BitVec.ofNat 32 v)).wr (Reg.AST_INCR_HI.at 0 + 0x40 * d)
          (BitVec.ofNat 32 (v / 2 ^ 32))).disciplined d)) ∧
    (∀ d v cycle : Nat, v < 2 ^ 40 → v < 3432537863 ∨ 3439409811 < v → Gives (.incrWrite d v cycle) s (s.count Reg.AST_INCR_REJECT 0)) ∧
    (∀ d sub : Nat, d < 2 → sub < 2 ^ 16 →
      Gives (.adjAdd d sub) s ((s.plainWrite (Reg.AST_ADJ_CTL.at 0 + 0x40 * d) (sub + 2 ^ 16 + 2 ^ 31)).adjStart d false)) ∧
    (∀ d sub : Nat, d < 2 → sub < 2 ^ 16 →
      Gives (.adjSet d sub) s ((s.plainWrite (Reg.AST_ADJ_CTL.at 0 + 0x40 * d) (sub + 2 * 2 ^ 16 + 2 ^ 31)).adjStart d true)) ∧
    (∀ d : Nat, d < 2 → ((s.dom d).hold = false ∨ s.flag Reg.AST_DOM_CTL_HOLD 0 (0x40 * d) = true) →
      Gives (.keepalive d) s (s.setDom d { s.dom d with since := 0 })) ∧
    (∀ d : Nat, d < 2 → (s.dom d).hold = true → s.flag Reg.AST_DOM_CTL_HOLD 0 (0x40 * d) = false →
      Gives (.keepalive d) s ((s.setDom d { s.dom d with since := 0, hold := false, held := 0 }).intSet Ty.AST 0 5)) ∧
    (∀ d : Nat, d < 2 → (s.dom d).hold = false → 0 < s.fld Reg.AST_DOM_HOLD_HOLD_TICKS 0 (0x40 * d) →
      s.fld Reg.AST_DOM_HOLD_HOLD_TICKS 0 (0x40 * d) ≤ (s.dom d).since →
      Gives (.holdoverEnter d) s
        ((s.setDom d { s.dom d with hold := true, held := 0, acc := s.fld Reg.AST_DOM_CTL_ACCURACY 0 (0x40 * d) }).intSet Ty.AST 0 5)) ∧
    (∀ d : Nat, d < 2 → (s.dom d).hold = true → 8000 ≤ (s.dom d).held →
      Gives (.accGrowth d) s (s.setDom d { s.dom d with
        held := (s.dom d).held - 8000, acc := min 0xFFFF ((s.dom d).acc + s.fld Reg.AST_DOM_HOLD_ACC_GROWTH 0 (0x40 * d)) })) ∧
    (∀ target mode : Nat, target < 2 → mode < 2 →
      let s1 := (s.setFld Reg.AST_SWITCH_CTL_TARGET 0 target).setFld Reg.AST_SWITCH_CTL_MODE 0 mode
      Gives (.domainSwitchStart target mode) s { s1 with tm := { s1.tm with swReq := some (target, decide (mode = 1)) } }) ∧
    (∀ (d : Nat) (v : Word), d < 2 →
      let s1 := s.plainWrite (Reg.AST_DOM_CTL.at 0 + 0x40 * d) v.toNat
      let s2 := { s1 with bin := { s1.bin with invTick := s1.bin.invTick || !s1.netValid } }
      Gives (.domValidWrite d v) s (if s2.flag Reg.AST_DOM_CTL_HOLD 0 (0x40 * d) then s2.enterHoldover d else s2))

/-- A pending SET replaces the time by the seconds, nanoseconds and sub-nanoseconds given and a pending ADD adds them with
the seconds taken as a signed 48-bit number, both modulo 2^48 seconds, and nothing stays pending. A switch is refused
and counted when the target is the active domain, is not valid, or a residual is left; in step mode it makes the target
active with residual 0; in slew mode a difference above 10 ms is refused, and otherwise the residual becomes the
difference, so that network time does not jump. -/
def Obligations.AdjustmentAndSwitchAtTheBoundary : Prop :=
  (∀ (x : Dom) (a : Adj), x.adj = some a →
    (x.adjusted).adj = none ∧ (x.adjusted).el = x.el ∧
    (a.set = true → (x.adjusted).t = (a.sec * secU + a.ns * nsU + a.sub * 2 ^ 16) % timeMod) ∧
    (a.set = false → ((x.adjusted).t : Int) = ((x.t : Int) + toSigned 48 a.sec * secU + (a.ns * nsU + a.sub * 2 ^ 16)) % timeMod)) ∧
  ∀ (s : State) (target : Nat) (step : Bool), s.tm.swReq = some (target, step) →
    let s1 := { s with tm := { s.tm with swReq := none } }
    let diff : Int := ((s.dom target).t : Int) - (s.dom s.tm.active).t
    ((target = s.tm.active ∨ s.domValid target = false ∨ s.tm.resid ≠ 0) → s.switchEval = s1.count Reg.AST_SWITCH_REJECT 0) ∧
    (target ≠ s.tm.active → s.domValid target = true → s.tm.resid = 0 →
      (step = true → s.switchEval = { s with tm := { s.tm with swReq := none, active := target, resid := 0 } }) ∧
      (step = false → diff.natAbs > 10000000 * nsU → s.switchEval = s1.count Reg.AST_SWITCH_REJECT 0) ∧
      (step = false → diff.natAbs ≤ 10000000 * nsU → diff ≠ 0 →
        s.switchEval = { s with tm := { s.tm with swReq := none, active := target, resid := diff } } ∧
        s.switchEval.netTime = (s.dom s.tm.active).t % timeMod))

/-- On a running device, at the command's cycle. CMP_WRITE with nanoseconds below 10^9 stores the four words of the channel
and judges the new target; with more it stores the others and counts CFG_REJECT. CMP_FIRE judges every channel; a
channel that is off, has fired for its target, or whose target is in the future changes nothing. PPS_IN_EDGE with the
input off or of the other polarity only moves the counters; SNAPSHOT stores both domains, network time, the tick and the
cycle. TC_MATCH_EXPIRY frees exactly the slice's entries unmatched for MATCH_AGE ticks and counts them. -/
def Obligations.ComparesCapturesAndSnapshots : Prop :=
  ∀ s : State, Running s →
    (∀ (c : Nat) (lo hi ns ctl : Word) (cycle : Nat), c < 4 → ns.toNat % 2 ^ 30 ≤ 999999999 →
      let s1 := s.advanceTo (min cycle s.tm.len)
      let s2 := (s1.wr (Reg.AST_CMP_S_HI.at 0 + 16 * c) (BitVec.ofNat 32 (hi.toNat % 2 ^ 16))).wr (Reg.AST_CMP_S_LO.at 0 + 16 * c) lo
      Gives (.cmpWrite c lo hi ns ctl cycle) s
        (((s2.plainWrite (Reg.AST_CMP_NS.at 0 + 16 * c) ns.toNat).plainWrite (Reg.AST_CMP_CTL.at 0 + 16 * c) ctl.toNat).cmpWritten c)) ∧
    (∀ (c : Nat) (lo hi ns ctl : Word) (cycle : Nat), c < 4 → 999999999 < ns.toNat % 2 ^ 30 →
      let s1 := s.advanceTo (min cycle s.tm.len)
      let s2 := (s1.wr (Reg.AST_CMP_S_HI.at 0 + 16 * c) (BitVec.ofNat 32 (hi.toNat % 2 ^ 16))).wr (Reg.AST_CMP_S_LO.at 0 + 16 * c) lo
      Gives (.cmpWrite c lo hi ns ctl cycle) s
        (((s2.count Reg.AST_CFG_REJECT 0).plainWrite (Reg.AST_CMP_CTL.at 0 + 16 * c) ctl.toNat).cmpWritten c)) ∧
    (∀ cycle : Nat,
      let s1 := s.advanceTo (min cycle s.tm.len)
      let r0 := s1.cmpFire1 0 false
      let r1 := r0.1.cmpFire1 1 false
      let r2 := r1.1.cmpFire1 2 false
      let r3 := r2.1.cmpFire1 3 false
      Gives (.cmpFire cycle) s (r3.1.ppsPulse (r0.2 || r1.2 || r2.2 || r3.2))) ∧
    (∀ (c : Nat) (w : Bool), (s.flag Reg.AST_CMP_CTL_EN 0 (16 * c) = false ∨ bitOf s.tm.cmpFired c = true) → s.cmpFire1 c w = (s, false)) ∧
    (∀ (rising : Bool) (cycle : Nat), (s.flag Reg.AST_PPS_CFG_PPS_IN_EN 0 = false ∨ rising = s.flag Reg.AST_PPS_CFG_PPS_IN_POL 0) →
      Gives (.ppsInEdge rising cycle) s (s.advanceTo (min cycle s.tm.len))) ∧
    (∀ (rising : Bool) (cycle : Nat), s.on Reg.AST_PPS_CFG_PPS_IN_EN 0 = true → rising ≠ s.flag Reg.AST_PPS_CFG_PPS_IN_POL 0 → s.tm.ppsIn = none →
      let s1 := s.advanceTo (min cycle s.tm.len)
      let delay := s1.fld Reg.AST_PPS_ADJ_IN 0
      let s2 := (s1.putTime (Reg.AST_CAPT_S_LO.at 0) (lessDelay (s1.dom 0).t delay)).putTime (Reg.AST_CAPT_S_LO.at 0 + 12) (lessDelay (s1.dom 1).t delay)
      let s3 := (s2.count Reg.AST_PPS_IN_EDGES 0).intSet Ty.AST 0 8
      Gives (.ppsInEdge rising cycle) s { s3 with tm := { s3.tm with ppsIn := some (s1.dom 0).el } }) ∧
    (∀ cycle : Nat,
      let s1 := s.advanceTo (min cycle s.tm.len)
      let s2 := ((s1.putTime (Reg.AST_SNAP_S_LO.at 0) (s1.dom 0).t).putTime (Reg.AST_SNAP_S_LO.at 0 + 12) (s1.dom 1).t).putTime
        (Reg.AST_SNAP_S_LO.at 0 + 24) s1.netTime
      Gives (.snapshot cycle) s ((s2.setReg64 Reg.AST_SNAP_TICK_LO 0 s.tick).setReg Reg.AST_SNAP_CYCLE 0 (s1.tm.cycle % 2 ^ 18))) ∧
    (∀ slice : Nat,
      let lim := s.fld Reg.AST_TC_CFG_MATCH_AGE 0
      let l := s.tm.tc.get [] slice
      let s1 := s.countN Reg.AST_TC_NO_MATCH 0 (l.filter fun x => decide (x.age + lim ≤ s.tm.tickNo)).length
      Gives (.tcMatchExpiry slice) s
        { s1 with tm := { s1.tm with tc := s1.tm.tc.set [] slice (l.filter fun x => !decide (x.age + lim ≤ s.tm.tickNo)) } })

/-- On a running device. TICK_OVERRUN of a page whose stage has work not done is the stage's answer, then the overrun, and
the work counts as done for the tick; it changes nothing where the stage has no work or is done (log entry 11). The
overrun itself, the first of its tick and page, counts once in OVERRUN_COUNT, stores the tick, sets INT_STS bit 0 and
raises the page's source; a second one of the same tick changes nothing. STAGE_DESCRIPTOR_RECEIVE with the queue not
full changes nothing, and with it full drops the newest descriptor. DESCRIPTOR_AGE_EXPIRY drops the oldest descriptor
above the age limit as an overrun. XBAR_CROSS moves the oldest frame between two half-pipes to the far queue, drops it
where the FIFO is full or it is too old, and leaves it where an older frame of its half-pipe and queue stands before it. -/
def Obligations.OverrunsAndDescriptorDrops : Prop :=
  ∀ s : State, Running s →
    (∀ ty inst : Nat, ty < 256 → inst < 256 → s.hasWork ty inst = true → s.workDone ty inst = false →
      let s1 := (s.overrunAnswer ty inst).overrun ty inst (overrunSrc ty)
      Gives (.tickOverrun ty inst) s { s1 with tickWork := s1.tickWork.set (1, false) (pageKey ty inst) (0, false) }) ∧
    (∀ ty inst : Nat, ty < 256 → inst < 256 → s.hasWork ty inst = false ∨ s.workDone ty inst = true → Gives (.tickOverrun ty inst) s s) ∧
    (∀ t src : Nat, s.overrunSeen Ty.SXT t = false →
      s.overrun Ty.SXT t src =
        (((({ s with ovrAt := s.ovrAt.set 0 (pageKey Ty.SXT t) (s.tm.tickNo + 1) } : State).count (Reg.OVERRUN_COUNT Ty.SXT) t).setReg64 (Reg.OVERRUN_TICK_LO Ty.SXT) t s.tick).intSet Ty.SXT t 0).raise Ty.SXT t src 0 0) ∧
    (∀ ty inst src : Nat, s.overrunSeen ty inst = true → s.overrun ty inst src = s) ∧
    (∀ ty inst : Nat, Gives (.stageDescriptorReceive ty inst false) s s) ∧
    (∀ (ty inst : Nat) (p : Pkt), s.present ty inst = true → (s.waitingAt ty inst).getLast? = some p →
      Gives (.stageDescriptorReceive ty inst true) s (s.stageDrop ty inst p false)) ∧
    (∀ (ty inst cycle : Nat) (p : Pkt), s.present ty inst = true →
      let s1 := s.advanceTo cycle
      (s1.waitingAt ty inst).find? (fun q => decide (s1.deadlineOf ty inst < s1.now - q.born)) = some p →
      Gives (.descriptorAgeExpiry ty inst cycle) s ((s1.ageSeen ty inst p).stageDrop ty inst p true)) ∧
    (∀ (src dst : Nat) (p : Pkt), src < 8 → dst < 8 → s.xin.find? (fun q => q.hp == src && s.outHp q == some dst) = some p →
      let before := s.xin.takeWhile fun q => !(q.hp == src && s.outHp q == some dst)
      let waits := before.any fun q => q.hp == src && q.dst == p.dst && q.domain == p.domain && q.cls == p.cls
      (waits = true → ∀ full : Bool, Gives (.xbarCross src dst full) s s) ∧
      (waits = false → Gives (.xbarCross src dst true) s (s.stageDrop Ty.BUF 0 p false)) ∧
      (waits = false → s.tooOld Ty.BUF 0 p = true → Gives (.xbarCross src dst false) s ((s.ageSeen Ty.BUF 0 p).stageDrop Ty.BUF 0 p true)) ∧
      (waits = false → s.tooOld Ty.BUF 0 p = false →
       let s1 := s.ageSeen Ty.BUF 0 p
       Gives (.xbarCross src dst false) s { s1 with xin := s1.xin.erase p, qin := s1.qin ++ [{ p with hp := dst, born := s1.now }] }))

/-- On a running device, for tree t. TTX_FRAME_STAGE of a tree that stages frames builds the frame of the next tick, with
control and circuit sections only if the cycle is within the deadline, and then records the completion; a tree that does
not stage changes nothing. TAL_FRAME_TRANSMIT first ends the frame on the line; then, with the lane wanted idle, the
lists are dropped, the messages wait and the line is idle; in the mode for gap fill, or on leaving idle, the line
carries gap fill and the lists are carried; where the device has become active in this tick it stays idle once more;
with a frame staged for this tick or an earlier one the frame begins; else it is gap fill. TTX_MODE_WRITE stores CTL by
its access codes and stops the lane's pattern generator where it leaves idle. CKT_LEN_PG_WRITE of a present tree is
refused and counted for the page in effect and stored and mirrored for the other; in a paired standby it counts
MIRROR_WRITE_REJECT. What idle does to the lists is the model's choice (log entry 91). -/
def Obligations.FrameStagingAndTransmission : Prop :=
  ∀ (s : State) (t : Nat), Running s → t < 32 →
    (∀ cycle : Nat, s.stages t = true →
      Gives (.ttxFrameStage t cycle) s
        ((s.stageFrame t s.nextM (decide (cycle ≤ s.deadlineOf Ty.TTX t)) (decide (cycle ≤ s.deadlineOf Ty.TTX t))).complete Ty.TTX t cycle)) ∧
    (∀ cycle : Nat, s.stages t = false → Gives (.ttxFrameStage t cycle) s s) ∧
    (let s1 := s.endFrame t
     let x := s1.tx t
     let u := s1.unstage t
     let idle := u.dropLists t
     let y := u.tx t
     let gapFill := u.setTx t { y with
       line := 1, gap := true, serve := y.held ++ y.serve ++ y.next, held := [], next := [], burst := y.line == 0, wakeAt := none
       gapAt := if y.line = 0 then 0 else y.gapAt }
     let woken := x.line = 0 ∧ x.wakeAt = some s1.tm.tickNo
     (s1.lineWant t = 0 → Gives (.talFrameTransmit t) s
        (idle.setTx t { idle.tx t with line := 0, last := none, gap := false, wakeAt := none, gapAt := 0, burst := false })) ∧
     (s1.lineWant t ≠ 0 → woken → Gives (.talFrameTransmit t) s u) ∧
     (s1.lineWant t = 1 ∨ (s1.lineWant t = 2 ∧ x.line = 0 ∧ x.wakeAt = none) → ¬ woken → Gives (.talFrameTransmit t) s gapFill) ∧
     (s1.lineWant t = 2 → ¬ woken → (x.line ≠ 0 ∨ x.wakeAt.isSome = true) →
       (∀ st : Staged, x.staged = some st →
         (st.tick ≤ s1.tm.m → Gives (.talFrameTransmit t) s (s1.beginFrame t s1.tm.m st)) ∧
         (s1.tm.m < st.tick → Gives (.talFrameTransmit t) s gapFill)) ∧
       (x.staged = none → Gives (.talFrameTransmit t) s gapFill))) ∧
    (∀ v : Word,
      let r := s.plainWrite (Reg.TTX_CTL.at t) v.toNat
      Gives (.ttxModeWrite t v) s (if r.onFld Reg.TTX_CTL_MODE t = 0 then r else r.genOff (32 + t))) ∧
    (∀ (page : Nat) (v : Word), s.hasTree t = false → Gives (.cktLenPgWrite t page v) s s) ∧
    (∀ (page : Nat) (v : Word), page < 2 → s.hasTree t = true →
      (s.mirrorOpen = true → page = s.tsi.active → Gives (.cktLenPgWrite t page v) s (s.count Reg.TTX_CFG_REJECT t)) ∧
      (s.mirrorOpen = true → page ≠ s.tsi.active →
        let key := Reg.TTX_CKT_LEN_PG0.at t + 4 * page
        let s1 := s.plainWrite key v.toNat
        Gives (.cktLenPgWrite t page v) s (s1.mirror 7 [5, key, (s1.rd key).toNat] [])) ∧
      (s.mirrorOpen = false → Gives (.cktLenPgWrite t page v) s (s.count Reg.PAIR_MIRROR_WRITE_REJECT 0)))

/-- Beginning frame n of a staged frame makes it the frame on the line, its entries and circuit bytes as staged where it was
staged for n, with no unit yet, the frames held, carried and newly listed to be sent in this order, and LAST_TICK the
frame's number; FRAMES_SENT has counted it. Ending a frame leaves no frame and no unit on the line; on an idle lane no
symbol has gone out, and on one with no frame gap fill has, after a training burst where it had just left idle. An idle
filling of r bytes is exactly r bytes long. -/
def Obligations.FrameHeaderAndUnitStart : Prop :=
  (∀ (s : State) (t n : Nat) (st : Staged), t < 32 → n < 2 ^ 48 →
    let r := s.beginFrame t n st
    (∃ sent h, (r.tx t).cur = some (sent, h) ∧ sent.page = st.page ∧ sent.msgs.length = st.msgs.length ∧
      (st.tick = n → sent.entries = st.entries ∧ sent.ckt = st.ckt ∧ sent.fixedOnly = st.fixedOnly)) ∧
    (r.tx t).units = [] ∧ (r.tx t).serve = (s.tx t).held ++ (s.tx t).serve ++ (s.tx t).next ∧ (r.tx t).held = [] ∧ (r.tx t).last = some n ∧
    r.reg64 Reg.TTX_LAST_TICK_LO t = n ∧ r.reg64 Reg.TTX_FRAMES_SENT_LO t = (s.reg64 Reg.TTX_FRAMES_SENT_LO t + 1) % 2 ^ 64 ∧
    ∀ t' : Nat, t' ≠ t → (r.tx t').cur = (s.tx t').cur ∧ (r.tx t').serve = (s.tx t').serve ∧ (r.tx t').line = (s.tx t').line) ∧
  (∀ (s : State) (t : Nat), (s.tx t).cur = none → (s.tx t).line = 0 → s.endFrame t = s.setTx t { s.tx t with symbols := [] }) ∧
  (∀ (s : State) (t : Nat), (s.tx t).cur = none → (s.tx t).line ≠ 0 →
    let b := if (s.tx t).burst then trainSymbols else []
    let n := frameSymbols + s.stepSymbols - b.length
    s.endFrame t = s.setTx t { s.tx t with symbols := b ++ gapSymbols (s.tx t).gapAt n, gapAt := (s.tx t).gapAt + n, burst := false }) ∧
  (∀ (s : State) (t : Nat) (c : Staged × Bytes), (s.tx t).cur = some c → ((s.endFrame t).tx t).cur = none ∧ ((s.endFrame t).tx t).units = []) ∧
  ∀ k r : Nat, r ≤ 16391 * k → (idleFill k r).length = r

/-- On a running device, for tree t with a frame on the line. With fewer than 9 bytes left TTX_UNIT_PLACE changes nothing.
With a unit in progress and no urgent one owed, that unit gets its next fragment. With none in progress and nothing on
the list that may go, only the urgent mark clears. An entry of the list whose cells are not on die is taken off the
list, counted in PAGE_LATE and completes as dropped. With no frame on the line it changes nothing. A unit whose frame
with its 4 bytes of security field and 16 of tag exceeds 16,383 bytes is counted in UNIT_OVERSIZE and not begun. A unit
header is 8 bytes long, and a fragment takes 8 bytes more than its payload bytes. -/
def Obligations.UnitsOfAServeList : Prop :=
  (∀ (s : State) (t : Nat) (onDie : Bool) (ready : Option Nat), Running s → t < 32 →
    ((s.tx t).cur = none → Gives (.ttxUnitPlace t onDie ready) s s) ∧
    ∀ (st : Staged) (h : Bytes), (s.tx t).cur = some (st, h) →
      let room := frameBytes - unitStart st - (s.tx t).units.length
      (room < 9 → Gives (.ttxUnitPlace t onDie ready) s s) ∧
      (∀ (u : TxUnit) (l : List TxUnit), 9 ≤ room → (s.tx t).urgNext = false → (s.tx t).inProg = u :: l →
        Gives (.ttxUnitPlace t onDie ready) s ((s.resumeCtx (2 * (t / 8) + 1) t u.flow).sendUnit t u (room - 8) ready)) ∧
      (9 ≤ room → (s.tx t).inProg = [] → (s.tx t).pick = none →
        Gives (.ttxUnitPlace t onDie ready) s (s.setTx t { s.tx t with urgNext := false })) ∧
      (∀ e : ServeE, 9 ≤ room → (s.tx t).inProg = [] → (s.tx t).pick = some e → onDie = false →
        Gives (.ttxUnitPlace t onDie ready) s
          (((s.setTx t { s.tx t with serve := dropOne e (s.tx t).serve }).count Reg.BUF_PAGE_LATE 0).injFin e.pkt 2 none))) ∧
  (∀ (s : State) (t n : Nat) (e : ServeE), 16383 < 4 + e.pkt.data.length + 16 →
    s.beginUnit t n e = ((s.count Reg.TTX_UNIT_OVERSIZE t).injFin e.pkt 2 none, none)) ∧
  (∀ (len flow kp : Nat) (lf first urg : Bool), (unitHeader len flow kp lf first urg).length = 8) ∧
  ∀ (s : State) (t : Nat) (u : TxUnit) (len : Nat), len ≤ u.rest.length →
    let r := s.placeFrag t u len
    (r.1.tx t).units.length = (s.tx t).units.length + 8 + len ∧ r.2.rest = u.rest.drop len ∧ r.2.sent = u.sent + len ∧ r.1.regs = s.regs

/-- On a running device, for tree t. TRX_BURST_RECEIVE with the receiver on and a map of that frame that expects no burst at
that block (or has had it) changes nothing, and so with no map of the frame. An expected burst with no light, from a
terminal that is not being ranged and with no inverted check bits, marks the burst as had, loads the terminal's profile,
counts NO_LIGHT and tells the Sextant of a dark burst; one with light of the right length whose delimiter is found in
the window is delineated from there. ROGUE_LIGHT with no block of more than 32 lit bits, or with ROGUE_EN 0, changes
nothing; with every block lit and none of them expected it counts them all. REASSEMBLY_EXPIRY drops each unit whose
first fragment is more than 8 ticks old; REPLAY_WINDOW_RETIRE keeps exactly the windows of the last 8 ticks. -/
def Obligations.BurstsAndReceiverState : Prop :=
  ∀ (s : State) (t : Nat), Running s → t < 32 →
    (∀ (u start : Nat) (b : Burst), s.mapAt t u = none → Gives (.trxBurstReceive t u start b) s s) ∧
    (∀ (u start : Nat) (b : Burst) (x : UMap), s.rxOn t = true → s.mapAt t u = some x →
      x.bursts.find? (fun e => e.start == start && !x.got.contains start) = none → Gives (.trxBurstReceive t u start b) s s) ∧
    (∀ (u start : Nat) (b : Burst) (x : UMap) (e : ExpB), s.rxOn t = true → s.mapAt t u = some x →
      x.bursts.find? (fun e => e.start == start && !x.got.contains start) = some e → b.light = false → s.inv Ty.TRX t 0 = false →
      s.isRanging t u e = false → s.inv Ty.SXT t 0 = false → s.inv Ty.SXT t 1 = false →
      let s1 := s.setRx t { s.rx t with
        maps := (s.rx t).maps.map fun y => if y.utick == u then { y with got := start :: y.got } else y
        loaded := s.profFor t e.term }
      Gives (.trxBurstReceive t u start b) s ((s1.count Reg.TRX_NO_LIGHT t).darkBurst t e.term u)) ∧
    (∀ (u start : Nat) (b : Burst) (x : UMap) (e : ExpB) (o : Int), s.rxOn t = true → s.mapAt t u = some x →
      x.bursts.find? (fun e => e.start == start && !x.got.contains start) = some e → b.light = true → s.inv Ty.TRX t 0 = false →
      s.inv Ty.SXT t 0 = false → s.inv Ty.SXT t 1 = false → b.guard ≤ s.fld Reg.TRX_LEN_CFG_GUARD_LIGHT_LIM t →
      b.early ≤ s.fld Reg.TRX_LEN_CFG_EARLY_END_LIM t →
      delimFind b (s.fld Reg.TRX_DELIM_CFG_WINDOW t) (s.fld Reg.TRX_DELIM_CFG_ERR_MAX t) = some o →
      let s1 := s.setRx t { s.rx t with
        maps := (s.rx t).maps.map fun y => if y.utick == u then { y with got := start :: y.got } else y
        loaded := s.profFor t e.term }
      Gives (.trxBurstReceive t u start b) s (s1.burstFound t u x e b o)) ∧
    (∀ (u first : Nat) (lit : List Nat), (∀ b ∈ lit, b ≤ 32) ∨ s.rxOn t = false ∨ s.flag Reg.TRX_CTL_ROGUE_EN t = false →
      Gives (.rogueLight t u first lit) s s) ∧
    (∀ (u first : Nat) (lit : List Nat) (x : UMap), lit ≠ [] → (∀ b ∈ lit, 32 < b) → first + lit.length ≤ usBlocks → s.rxOn t = true →
      s.on Reg.TRX_CTL_ROGUE_EN t = true → s.mapAt t u = some x → x.bursts = [] → x.windows = [] →
      Gives (.rogueLight t u first lit) s ((s.countN Reg.TRX_ROGUE_BLOCKS t lit.length).rogue t u first none)) ∧
    Gives (.reassemblyExpiry t) s
      (((s.rx t).reasm.filterMap fun (k, r) => if r.tick + 8 < s.tm.m then some k else none).foldl (fun s k => s.dropUnit t k) s) ∧
    Gives (.replayWindowRetire t) s (s.setRx t { s.rx t with replay := (s.rx t).replay.filter fun w => decide (s.tm.m ≤ w.tick + 8) })

/-- On a running device, for a present tree t and terminal n, each command first shows its operands in PROFILE_CMD. READ
shows seed and current words; WRITE_SEED takes seed and current value from PROFILE_DATA_LO and sets VALID; RESEED makes
the rounded current value the seed and clears the terminal's DRIFT_MAP bit; INVALIDATE only clears VALID. A profile
update keeps the seed and VALID and moves amplitude and threshold by a sixteenth of the difference to the measured value
cut towards 0 (log entry 93), so a value already equal to the measured one stays. A word just seeded reads back with
VALID 1, and a command to an absent tree changes nothing. -/
def Obligations.ProfilesSeedCurrentAndCommands : Prop :=
  (∀ (s : State) (t n : Nat), Running s → t < 32 → n < 512 → s.present Ty.TRX t = true →
    let shown (op : Nat) : State := s.setReg Reg.TRX_PROFILE_CMD t (n + op * 2 ^ 16)
    Gives (.profileRead t n) s (((shown 1).setReg Reg.TRX_PROFILE_DATA_LO t (s.prof t n).seedWord).setReg Reg.TRX_PROFILE_DATA_HI t (s.prof t n).curWord) ∧
    Gives (.profileWriteSeed t n) s ((shown 2).setProf t n (Prof.ofSeed ((shown 2).reg Reg.TRX_PROFILE_DATA_LO t))) ∧
    Gives (.profileReseed t n) s (((shown 3).setProf t n { s.prof t n with seed := (s.prof t n).curWord % 2 ^ 27 }).driftClear t n) ∧
    Gives (.profileInvalidate t n) s ((shown 4).setProf t n { s.prof t n with valid := false })) ∧
  (∀ (s : State) (t n : Nat), Running s → t < 32 → s.present Ty.TRX t = false →
    Gives (.profileRead t n) s s ∧ Gives (.profileWriteSeed t n) s s ∧ Gives (.profileReseed t n) s s ∧ Gives (.profileInvalidate t n) s s) ∧
  (∀ (p : Prof) (amp : Nat) (thr : Int) (phase : Nat),
    let q := p.update amp thr phase
    q.seed = p.seed ∧ q.valid = p.valid ∧ q.amp = p.amp + (16 * (amp : Int) - p.amp).tdiv 16 ∧ q.thr = p.thr + (16 * thr - p.thr).tdiv 16 ∧
    (p.amp = 16 * (amp : Int) → q.amp = p.amp) ∧ (p.thr = 16 * thr → q.thr = p.thr)) ∧
  ∀ w : Nat, w < 2 ^ 27 → (Prof.ofSeed w).seedWord = w + 2 ^ 31 ∧ (Prof.ofSeed w).curWord = w + 2 ^ 31

/-- On a running device open to mirrored writes whose tree is present: a write of PREAMBLE_CFG stores it, mirrors it and
names the change for PREAMBLE_AT in place of one that pends, and one of PREAMBLE_AT stores its 48 bits and does the
same; where nothing pends and the length is the one in effect, no change is named. In a paired standby it counts
MIRROR_WRITE_REJECT. Naming an action for tick T puts it last in the list, and counts it late exactly where the device
has a valid count and T is not above the count plus 1. -/
def Obligations.PreambleChangeIsNamed : Prop :=
  (∀ (s : State) (t : Nat) (v : Nat), Running s → t < 32 →
    (s.mirrorOpen = true → s.present Ty.TRX t = true →
      (let s1 := s.plainWrite (Reg.TRX_PREAMBLE_CFG.at t) (v % 2 ^ 32)
       Gives (.preambleCfgWrite t false v) s ((s1.mirror 3 [2, t, s1.reg Reg.TRX_PREAMBLE_CFG t, s1.reg64 Reg.TRX_PREAMBLE_AT_LO t] []).preambleArm t)) ∧
      (let s1 := s.setReg64 Reg.TRX_PREAMBLE_AT_LO t (v % 2 ^ 48)
       Gives (.preambleCfgWrite t true v) s ((s1.mirror 3 [2, t, s1.reg Reg.TRX_PREAMBLE_CFG t, s1.reg64 Reg.TRX_PREAMBLE_AT_LO t] []).preambleArm t))) ∧
    (∀ b : Bool, s.mirrorOpen = false → s.present Ty.TRX t = true → Gives (.preambleCfgWrite t b v) s (s.count Reg.PAIR_MIRROR_WRITE_REJECT 0)) ∧
    (∀ b : Bool, s.present Ty.TRX t = false → Gives (.preambleCfgWrite t b v) s s)) ∧
  (∀ (s : State) (t : Nat), s.fld Reg.TRX_PREAMBLE_CFG_BITS t = s.fld Reg.TRX_PREAMBLE_CFG_CUR t →
    (s.tm.named.any fun a => a.kind == .preamble && a.inst == t) = false →
    s.preambleArm t = s.setSx t { s.sx t with params := true }) ∧
  ∀ (s : State) (k : NKind) (i j T : Nat),
    let late := !s.tm.free && decide (T ≤ s.tm.m + 1)
    (s.name k i j T).tm.named = s.tm.named ++ [⟨k, i, j, T, late⟩] ∧
    (late = false → (s.name k i j T).regs = s.regs) ∧
    (late = true → (s.name k i j T).regs = (s.countLate ⟨k, i, j, T, true⟩).regs)

/-- On a running device, for slice l, local tree i and allocation n. In an absent slice nothing happens (a present slice has
all eight trees, so STATUS 3 does not come up). READ_CFG and READ_STATE put the record's configuration or state words
into ALLOC_DATA with STATUS 0. Open to mirrored writes, WRITE_CFG of words whose check answers 0 writes and mirrors the
record, and any other answer is the STATUS and writes nothing; DELETE returns the record to its reset value. In a paired
standby both writes only count MIRROR_WRITE_REJECT. TREE_CFG_WRITE that changes D while the tree is enabled, or leaves a
fixed allocation below FIX_BASE, is only counted, and any other is stored and mirrored. -/
def Obligations.AllocationTableCommands : Prop :=
  ∀ (s : State) (l i n : Nat), Running s → l < 4 → i < 8 → n < 1024 →
    let t := 8 * l + i
    (s.present Ty.ORR l = false →
      Gives (.allocReadCfg l i n) s s ∧ Gives (.allocReadState l i n) s s ∧
      Gives (.allocWriteCfg l i n) s s ∧ Gives (.allocDelete l i n) s s ∧ ∀ v : Word, Gives (.treeCfgWrite l i v) s s) ∧
    (s.present Ty.ORR l = true →
      Gives (.allocReadCfg l i n) s ((s.allocShow l (s.alloc t n).words).allocDone l n i 1 0) ∧
      Gives (.allocReadState l i n) s ((s.allocShow l (s.alloc t n).stateWords).allocDone l n i 4 0) ∧
      let w := (List.range 6).map fun j => s.regI Reg.ORR_ALLOC_DATA l j
      (s.mirrorOpen = true → s.allocStatus t n ((s.alloc t n).ofWords w) = 0 →
        let s1 := s.allocWrite t n w
        Gives (.allocWriteCfg l i n) s ((s1.mirror 6 ([0, t, n] ++ (s1.alloc t n).words) []).allocDone l n i 2 0)) ∧
      (∀ st : Nat, s.mirrorOpen = true → st ≠ 0 → s.allocStatus t n ((s.alloc t n).ofWords w) = st →
        Gives (.allocWriteCfg l i n) s (s.allocDone l n i 2 st)) ∧
      (s.mirrorOpen = true → Gives (.allocDelete l i n) s
        (((s.setAlloc t n allocReset).mirror 6 ([0, t, n] ++ allocReset.words) []).allocDone l n i 3 0))) ∧
    (s.mirrorOpen = false → s.present Ty.ORR l = true →
      Gives (.allocWriteCfg l i n) s (s.count Reg.PAIR_MIRROR_WRITE_REJECT 0) ∧ Gives (.allocDelete l i n) s (s.count Reg.PAIR_MIRROR_WRITE_REJECT 0)) ∧
    (∀ v : Word, s.present Ty.ORR l = true → s.mirrorOpen = true →
      let key := Reg.ORR_TREE_CFG.at l + 4 * i
      let s1 := s.plainWrite key v.toNat
      let low := (s.ort t).allocs.any fun q => q.2.valid && q.2.type == 0 && decide (q.2.fixStart < s1.fixBase t)
      (s.treeEn t = true → s1.fld Reg.ORR_TREE_CFG_D l (4 * i) ≠ s.fld Reg.ORR_TREE_CFG_D l (4 * i) →
        Gives (.treeCfgWrite l i v) s (s.count Reg.ORR_CFG_REJECT l)) ∧
      (low = true → Gives (.treeCfgWrite l i v) s (s.count Reg.ORR_CFG_REJECT l)) ∧
      (low = false → (s.treeEn t = false ∨ s1.fld Reg.ORR_TREE_CFG_D l (4 * i) = s.fld Reg.ORR_TREE_CFG_D l (4 * i)) →
        Gives (.treeCfgWrite l i v) s (s1.mirror 6 [1, key, (s1.rd key).toNat] [])))

/-- Writing an allocation that was VALID and stays VALID of its type keeps its credits, report and ledger and changes the
configuration fields; any other write starts it with credits 0 and an empty ledger. Either way no other allocation and
no register changes. A report of a tick before the stored one, or of an allocation that is not VALID, changes nothing;
another stores OCC and its tick and keeps of the ledger only the later ticks. The need of an allocation is never
negative: it is 64 bytes for each unit of OCC less the ledger of the ticks after the report and before u, or 0 where
that is less than nothing. A granted map adds its capacity to the ledger and clears SINCE. -/
def Obligations.WriteAndDeleteOfAnAllocation : Prop :=
  (∀ (s : State) (t n : Nat) (w : List Nat),
    let old := s.alloc t n
    let r := s.allocWrite t n w
    let a := r.alloc t n
    a.valid = (old.ofWords w).valid ∧ a.type = (old.ofWords w).type ∧ a.ra = (old.ofWords w).ra ∧ a.fixLen = (old.ofWords w).fixLen ∧
    (old.valid = true → (old.ofWords w).valid = true → old.type = (old.ofWords w).type →
      a.credA = old.credA ∧ a.credM = old.credM ∧ a.ledger = old.ledger ∧ a.occ = old.occ ∧ a.rtick = old.rtick) ∧
    ((old.valid = false ∨ (old.ofWords w).valid = false ∨ old.type ≠ (old.ofWords w).type) → a.credA = 0 ∧ a.credM = 0 ∧ a.ledger = []) ∧
    r.regs = s.regs ∧ ∀ t' n' : Nat, (t' ≠ t ∨ n' ≠ n) → r.alloc t' n' = s.alloc t' n') ∧
  (∀ (s : State) (t n occ r : Nat),
    ((s.alloc t n).valid = false ∨ r < (s.alloc t n).rtick → s.report t n occ r = s) ∧
    ((s.alloc t n).valid = true → (s.alloc t n).rtick ≤ r →
      ((s.report t n occ r).alloc t n).occ = occ ∧ ((s.report t n occ r).alloc t n).rtick = r ∧
      ((s.report t n occ r).alloc t n).ledger = (s.alloc t n).ledger.filter fun e => decide (r < e.1))) ∧
  (∀ (a : OAlloc) (u d age : Nat), a.stale u d age = false →
    (a.need u d age []).1 =
      64 * a.occ - (a.ledger.filter fun e => decide (a.rtick < e.1) && decide (e.1 < u)).foldl (fun x e => x + e.2) 0) ∧
  ∀ (a : OAlloc) (u p : Nat) (e : GEnt),
    (a.granted u p (some e)).since = 0 ∧ (a.granted u p (some e)).lastLen = e.len ∧ (u, sentOf e.len p) ∈ (a.granted u p (some e)).ledger

/-- On a running device, for slice l. An Orrery that works takes, for each enabled tree whose inputs it has not taken this
tick, the reports of frames before M (before M - 1 where the tree's receiver has overrun) and computes the map of the
next frame; a slice that does not work changes nothing. ORR_MAP_PUBLISH publishes the map of a tree of the slice, the
computed one if the cycle is within the deadline and fixed grants otherwise; with the last of them the slice's work is
complete, and a late one before it is an overrun. ORR_HINT_RECEIVE with no message on its way changes nothing; a message
leaves the list, a hint of an unknown OP counts HINT_REJECT, and a good hint for any tick joins the tree's hints. A tree
with no computed map that is not enabled gets an empty map. -/
def Obligations.GrantComputationAndPublication : Prop :=
  ∀ (s : State) (l : Nat), Running s → l < 4 →
    (s.orrWorks l = false → Gives (.orrCompute l) s s ∧ ∀ t cycle : Nat, t < 32 → t / 8 = l → Gives (.orrMapPublish t cycle) s s) ∧
    (s.orrWorks l = true → Gives (.orrCompute l) s ((treesOf l).foldl (fun s t =>
        if s.treeEn t = true ∧ s.taken t = false then
          (s.handReports t (s.tm.m - if s.overrunSeen Ty.TRX t then 1 else 0)).computeTree t s.nextM
        else s) s)) ∧
    (∀ t cycle : Nat, s.orrWorks l = true → t < 32 → t / 8 = l →
      let ok := decide (cycle ≤ s.deadlineOf Ty.ORR l)
      let r := s.publishTree t s.nextM ok
      Gives (.orrMapPublish t cycle) s
        (if r.orrDone l = true then r.complete Ty.ORR l cycle else if ok then r else r.overrun Ty.ORR l (overrunSrc Ty.ORR))) ∧
    (∀ t : Nat, t < 32 → (∀ p ∈ s.posts, ¬ (p.cluster = t ∧ p.ep = Ty.ORR * 256 + t / 8)) → Gives (.orrHintReceive t) s s) ∧
    (∀ (t : Nat) (p : Post), t < 32 → s.posts.find? (fun p => p.cluster == t && p.ep == Ty.ORR * 256 + t / 8) = some p → s.hasTree t = true →
      s.active Ty.ORR (t / 8) = true → leAt p.body 2 1 = 0 →
      Gives (.orrHintReceive t) s ({ s with posts := s.posts.erase p }.count Reg.ORR_HINT_REJECT (t / 8))) ∧
    (∀ (t : Nat) (p : Post), t < 32 → s.posts.find? (fun p => p.cluster == t && p.ep == Ty.ORR * 256 + t / 8) = some p → s.hasTree t = true →
      s.active Ty.ORR (t / 8) = true →
      let h : Hint := ⟨leAt p.body 0 2 % 1024, leAt p.body 2 1, leAt p.body 4 3, leAt p.body 8 6⟩
      let a := s.alloc t h.alloc
      1 ≤ h.op → h.op ≤ 3 → a.valid = true → a.type ≠ 0 → s.reportsOp t a.term s.nextM = true → h.utick = 0 → (s.ort t).hints.length < 64 →
      Gives (.orrHintReceive t) s ({ s with posts := s.posts.erase p }.setOrt t { s.ort t with hints := (s.ort t).hints ++ [h] })) ∧
    (∀ (t m : Nat) (ok : Bool), (s.ort t).comp = none → s.treeEn t = false → s.hasTree t = true → s.handed t m = false →
      s.publishTree t m ok = (s.setRegI Reg.ORR_LAST_MAP (t / 8) (t % 8) (s.fixBase t % 2 ^ 16 * 2 ^ 13)).handMap t m (m + s.dOf t) false [] [])

/-- With a preamble of 1,024 bits (128 bytes, the unit of these functions): the smallest grant that holds a codeword is 33
blocks, a poll is 38 blocks, 97 blocks hold exactly 1,024 bytes and 141 hold 1,728, 39 hold 96. A grant below the
overhead holds nothing. For every preamble, a longer grant never carries less payload, and blocks_for(x) is enough for x
bytes whenever any grant is (up to the whole frame). -/
def Obligations.CodewordArithmeticOfGrants : Prop :=
  ohOf 128 = 33 ∧ blocksFor 72 128 = 38 ∧ blocksFor 1024 128 = 97 ∧ capOf 97 128 = some 1024 ∧ capOf 141 128 = some 1728 ∧ capOf 39 128 = some 96 ∧
  (∀ g p : Nat, g < ohOf p → sentOf g p = 0) ∧
  (∀ g g' p : Nat, g ≤ g' → sentOf g p ≤ sentOf g' p) ∧
  ∀ x p : Nat, 0 < x → ohOf p ≤ usBlocks → x ≤ sentOf usBlocks p → x ≤ sentOf (blocksFor x p) p

/-- On a running active device, for tree t and terminal n of a present page whose record meets no inverted check bits. READ
shows the record's eight words with STATUS 0. DEACTIVATE, QUARANTINE, RELEASE pend the change of state from the states
the rule allows and end with STATUS 1 elsewhere; RERANGE and ALLOC_PUSH act on tracked terminals (ALLOC_PUSH sends
nothing while R173 holds ALLOC_ASSIGN), FIND on a VALID record, COUNTER_REQ on a bound one, with STATUS 1 elsewhere. ENABLE clears DARK and sends ENABLE to all, CLEAR_VIOL
clears the violation counts. WRITE and DEACTIVATE_DARK end as their operation says. In a standby every command but READ
ends with STATUS 2 and is counted, and with PAIR_EN set a WRITE in MIRROR_WRITE_REJECT too. -/
def Obligations.TerminalRecordCommands : Prop :=
  ∀ (s : State) (t n : Nat), Running s → t < 32 → n < 512 → s.present Ty.SXT t = true → s.inv Ty.SXT t 0 = false → s.inv Ty.SXT t 1 = false →
    let ax := termAx t n
    let x := s.term ax
    let fin (r : State) (op st : Nat) : State :=
      let r := r.setReg Reg.SXT_TERM_CMD t (n + op * 2 ^ 16 + st * 2 ^ 24)
      if st = 0 then r else r.count Reg.SXT_CFG_REJECT t
    Gives (.termRead t n) s (fin ((List.range 8).foldl (fun r i => r.setRegI Reg.SXT_TERM_DATA t i (x.words.getD i 0)) s) 1 0) ∧
    (s.isActive = true →
      Gives (.termWrite t n) s (fin (s.bind t n).1 2 (s.bind t n).2) ∧
      Gives (.termDeactivate t n) s (if x.st.bound then fin (s.pend t n .deactivated 1 false) 3 0 else fin s 3 1) ∧
      Gives (.termDeactivateDark t n) s (fin (s.deactDark t n).1 4 (s.deactDark t n).2) ∧
      Gives (.termQuarantine t n) s (if x.st = .operational then fin (s.pend t n .quarantined 0 false) 5 0 else fin s 5 1) ∧
      Gives (.termRelease t n) s (if x.st = .quarantined then fin (s.pend t n .operational 0 false) 6 0 else fin s 6 1) ∧
      Gives (.termRerange t n) s (if x.st.tracked then fin (s.askRange t n) 7 0 else fin s 7 1) ∧
      Gives (.termFind t n) s (if x.valid then fin (s.setSx t { s.sx t with find := some x.sni }) 8 0 else fin s 8 1) ∧
      Gives (.termEnable t n) s (fin ((s.putTerm ax { x with dark := false }).treeMsg t 0x19 destAll (toBE 4 x.vendor ++ toBE 4 x.serial)) 9 0) ∧
      Gives (.termClearViol t n) s (fin (s.setTerm ax { x with
        viol := [0, 0, 0, 0, 0, 0, 0], winCount := 0, winCloses := none, noticed := [], rogueIn := false, lastRogue := none }) 10 0) ∧
      Gives (.termAllocPush t n) s (if x.st.tracked then fin (if s.allocHeld t n then s else s.allocPush t n) 11 0 else fin s 11 1) ∧
      Gives (.termCounterReq t n) s (if x.st.bound then fin (s.treeMsg t 0x1B n []) 12 0 else fin s 12 1)) ∧
    (s.isActive = false →
      Gives (.termWrite t n) s (fin (if s.mirrorOpen then s else s.count Reg.PAIR_MIRROR_WRITE_REJECT 0) 2 2) ∧ Gives (.termDeactivate t n) s (fin s 3 2) ∧ Gives (.termClearViol t n) s (fin s 10 2))

/-- On a running device, for tree t and terminal n. VIOL_WINDOW_CLOSE and ROGUE_WINDOW_CLOSE act once the window's tick has
come and not before. QUAR_HOLD_EXPIRY of a quarantined terminal with AUTO_RELEASE and the hold since its last violation
passed pends OPERATIONAL; DEACT_HOLD_EXPIRY of a deactivated one pends INIT; AUTH_TIMEOUT of an authenticating one,
after 8 ticks for each unit, fails its open session with code 0x0B, or ends its wait for one; each changes nothing in
another state. BCAST_DEACTIVATE_REPEAT sends the next copy when its tick has come. DARK_TEST_END clears a test that is
16 ticks old. DARK_TEST_START of a present tree stores the word and starts a test where bit 31 is set and the range is
in order, telling every terminal of it. RANGING_BURST, with no inverted check bits, evaluates the terminal's ranging
result. -/
def Obligations.TerminalTimersAndExpiries : Prop :=
  ∀ (s : State) (t n : Nat), Running s → t < 32 → n < 512 →
    let ax := termAx t n
    let x := s.term ax
    (∀ c : Nat, x.winCloses = some c → c ≤ s.tm.tickNo →
      Gives (.violWindowClose t n) s (s.setTerm ax { x with winCount := 0, winCloses := none, noticed := [], rogueIn := false })) ∧
    ((x.winCloses = none ∨ ∃ c, x.winCloses = some c ∧ s.tm.tickNo < c) → Gives (.violWindowClose t n) s s) ∧
    (∀ c a b, (s.sx t).rogue = some (c, a, b) →
      Gives (.rogueWindowClose t) s (if c ≤ s.tm.tickNo then s.setSx t { s.sx t with rogue := none } else s)) ∧
    (x.st = .quarantined → s.flag Reg.SXT_CTL_AUTO_RELEASE t = true →
      max x.since x.lastViol + s.fld Reg.SXT_QUAR_WIN_QUAR_HOLD t ≤ s.tm.tickNo → Gives (.quarHoldExpiry t n) s (s.pend t n .operational 0 false)) ∧
    (x.st ≠ .quarantined → Gives (.quarHoldExpiry t n) s s) ∧
    (x.st = .deactivated → x.since + s.fld Reg.SXT_LOSS_CFG_DEACT_HOLD t ≤ s.tm.tickNo → Gives (.deactHoldExpiry t n) s (s.pend t n .init 0 false)) ∧
    (x.st ≠ .deactivated → Gives (.deactHoldExpiry t n) s s) ∧
    (x.st ≠ .authenticating → Gives (.authTimeoutExpiry t n) s s) ∧
    (x.st = .authenticating → s.isActive = true → x.pend = none → x.since + 8 * s.fld Reg.SXT_BUDGET_CFG_AUTH_TIMEOUT t ≤ s.tm.tickNo →
      Gives (.authTimeoutExpiry t n) s (if (s.kt ax).sess.isSome = true then s.kaFail ax 0x0B 0 true else s.kaExpire ax)) ∧
    (∀ (left reason : Nat) (dark : Bool) (next : Nat), x.bcast = some (left, reason, dark, next) → next ≤ s.tm.tickNo → s.isActive = true →
      let s1 := s.setTerm ax { x with bcast :=
        if left ≤ 1 then none else some (left - 1, reason, dark, s.tm.tickNo + s.fld Reg.SXT_ACT_CFG_ACK_TIMEOUT t) }
      Gives (.bcastDeactivateRepeat t n) s
        (s1.treeMsg t 0x18 destAll (toBE 2 0 ++ toBE 1 reason ++ [if dark then 1 else 0] ++ toBE 4 x.vendor ++ toBE 4 x.serial))) ∧
    (∀ a b u, (s.sx t).darkTest = some (a, b, u) →
      Gives (.darkTestEnd t) s (if u + 16 ≤ s.tm.m then s.setSx t { s.sx t with darkTest := none } else s)) ∧
    (∀ v : Word, s.present Ty.SXT t = true → v.toNat < 2 ^ 31 → Gives (.darkTestStart t v) s (s.plainWrite (Reg.SXT_DARK_TEST.at t) v.toNat)) ∧
    (∀ v : Word, s.present Ty.SXT t = true → s.isActive = true → 2 ^ 31 ≤ v.toNat → (s.sx t).darkTest = none → bitsOf v.toNat 0 9 ≤ bitsOf v.toNat 16 9 →
      let s1 := s.plainWrite (Reg.SXT_DARK_TEST.at t) v.toNat
      let u := s1.nextM + s1.fld Reg.SXT_RANGE_CFG_EQD_LEAD t
      Gives (.darkTestStart t v) s
        ((s1.setSx t { s.sx t with darkTest := some (bitsOf v.toNat 0 9, bitsOf v.toNat 16 9, u) }).treeMsg t 0x1A destAll
          (toBE 2 (bitsOf v.toNat 0 9) ++ toBE 2 (bitsOf v.toNat 16 9) ++ toBE 6 u ++ toBE 2 16))) ∧
    (s.active Ty.SXT t = true → s.isActive = true → s.inv Ty.SXT t 0 = false → s.inv Ty.SXT t 1 = false → x.rangeRes = none → Gives (.rangingBurst t n) s s) ∧
    (∀ (o : Int) (u prof : Nat), s.active Ty.SXT t = true → s.isActive = true → s.inv Ty.SXT t 0 = false → s.inv Ty.SXT t 1 = false → x.rangeRes = some (u, some o, prof) → x.reRange = false →
      x.st = .discovered → x.assignAcked = true → o.natAbs ≤ s.fld Reg.SXT_RANGE_CFG_RANGE_TOL t →
      Gives (.rangingBurst t n) s (s.rangeOk t n o prof))

/-- On a running device, for tree t and terminal n, with no inverted check bits where a record is read. SXT_CONTROL_RECEIVE
with nothing in the inbox changes nothing; a message from a record in INIT is only taken off, and a well-formed one
under CRC from a bound terminal with no key waits for its receiver. ACK_RECEIVE with no good ACK waiting changes
nothing; one that fits the message that waits is taken, acts as that message's ACK and is handed to the key agent and
the interchange; one that fits nothing is taken and counted in CTRL_BAD. ACK_TIMEOUT with no message waiting, or before
its ticks have passed, changes nothing; with retries left the message goes again, with one retry more and its new tick,
but a GROUP_KEY beyond the tree's 64 waits. SXT_ENTRIES_HANDOVER of a tree that is not active, or while free ticking,
changes nothing; otherwise it hands over within the deadline and records the completion. -/
def Obligations.ControlMessagesAndAcknowledgements : Prop :=
  ∀ (s : State) (t n : Nat), Running s → t < 32 → n < 512 →
    let ax := termAx t n
    let x := s.term ax
    ((s.sx t).inbox = [] → Gives (.sxtControlReceive t) s s) ∧
    (∀ (c : CtrlIn) (l : List CtrlIn), s.active Ty.SXT t = true → s.inv Ty.SXT t 0 = false → s.inv Ty.SXT t 1 = false → (s.sx t).inbox = c :: l →
      (s.term (termAx t c.term)).st = .init →
      Gives (.sxtControlReceive t) s (s.setSx t { s.sx t with inbox := l })) ∧
    (∀ (c : CtrlIn) (l : List CtrlIn), s.active Ty.SXT t = true → s.inv Ty.SXT t 0 = false → s.inv Ty.SXT t 1 = false → s.isActive = true → (s.sx t).inbox = c :: l → (s.term (termAx t c.term)).st ≠ .init →
      c.nth = none → upType (msgType c.msg) = true → msgType c.msg ≠ 0x22 → envelopeOk c.msg c.term = true →
      bodyOk (msgType c.msg) (msgBody c.msg) = true → beAt c.msg 1 1 / 128 ≠ 1 → (s.term (termAx t c.term)).keyed = false →
      Gives (.sxtControlReceive t) s (s.setSx t { s.sx t with inbox := l, good := (s.sx t).good ++ [c] })) ∧
    ((s.sx t).good.find? (fun c => msgType c.msg == 0x21) = none → Gives (.ackReceive t) s s) ∧
    (∀ c : CtrlIn, (s.sx t).good.find? (fun c => msgType c.msg == 0x21) = some c →
      let s1 := s.setSx t { s.sx t with good := (s.sx t).good.erase c }
      let b := msgBody c.msg
      ((s.term (termAx t c.term)).out = none → Gives (.ackReceive t) s (s1.count Reg.SXT_CTRL_BAD t)) ∧
      (∀ o : OutMsg, (s.term (termAx t c.term)).out = some o → o.type = beAt b 0 1 → o.seq = beAt b 2 2 →
        Gives (.ackReceive t) s ((s1.acked t c.term o).ackSeen t c.term o (beAt b 4 1)))) ∧
    (x.out = none → Gives (.ackTimeout t n) s s) ∧
    (∀ o : OutMsg, x.out = some o → s.tm.tickNo < o.sentAt + s.fld Reg.SXT_ACT_CFG_ACK_TIMEOUT t → Gives (.ackTimeout t n) s s) ∧
    (∀ o : OutMsg, x.out = some o → o.sentAt + s.fld Reg.SXT_ACT_CFG_ACK_TIMEOUT t ≤ s.tm.tickNo → s.isActive = true →
      o.tries < s.fld Reg.SXT_ACT_CFG_RETRY_MAX t →
      (s.groupFull t o.msg = true → Gives (.ackTimeout t n) s s) ∧
      (s.groupFull t o.msg = false →
      let r := s.noteSent t n o.msg
      let m := { o.msg with auth := r.authOf t o.msg }
      Gives (.ackTimeout t n) s
        ((r.setTerm ax { x with out := some { o with tries := o.tries + 1, sentAt := s.tm.tickNo, msg := m } }).ctrlPut t m))) ∧
    (∀ base cycle : Nat, (s.active Ty.SXT t = false ∨ s.tm.free = true) → Gives (.sxtEntriesHandover t base cycle) s s) ∧
    (∀ base cycle : Nat, s.active Ty.SXT t = true → s.tm.free = false → s.isActive = true → cycle ≤ s.deadlineOf Ty.SXT t →
      s.inv Ty.SXT t 0 = false → s.inv Ty.SXT t 1 = false →
      Gives (.sxtEntriesHandover t base cycle) s ((s.handover t base).complete Ty.SXT t cycle))

/-- On a running device, for tree t. DISC_WINDOW_OPEN at its period opens the window of the frame D after the next and
announces it, and outside its period or with discovery off changes nothing. DISC_RESP_RECEIVE with no window of that
tick changes nothing; a burst in the window that decodes to nothing counts a collision, and one that decodes to a
response not yet seen in the window is matched; a response of a known terminal in INIT is refused as TOO_FAR below 41 us
of EQD and otherwise starts its discovery. TREE_PARAMS_SEND in a sixteenth frame sends the parameters, and in standby or
while free ticking nothing. REACH_CFG_WRITE where mirrored writes are open of a maximum below the minimum, above 60 km,
a spread above 40 km or a window above 4 ticks is only counted in CFG_REJECT, and any other is stored and mirrored;
DISC_CFG_WRITE by its window stores PERIOD alone and is counted, or stores both. In the worked example, reach 4 to 29
(0.1 km steps), 256 slots and a preamble of 256 bytes give a spread of 9,915 blocks, a slot of 48, a window of 22,251
blocks, and with D 6 the EQD_DISC 38,676,952. -/
def Obligations.DiscoveryWindowsAndTreeSettings : Prop :=
  (∀ (s : State) (t : Nat), Running s → t < 32 →
    ((s.flag Reg.SXT_CTL_DISC_EN t = false ∨ s.tm.free = true ∨ (s.nextM + s.dOf t) % s.fld Reg.SXT_DISC_CFG_PERIOD t ≠ 0) →
      Gives (.discWindowOpen t) s s) ∧
    (let u := s.nextM + s.dOf t
     let x := s.sx t
     let w : Window := { utick := u, span := spanOf (s.windowNow t) (s.fixBase t), len := s.windowNow t, slots := s.fld Reg.SXT_DISC_CFG_SLOTS t
                         dslot := dslotOf (s.discPre t), pdisc := s.discPre t, eqdDisc := eqdDiscOf (s.dOf t) (s.fld Reg.SXT_REACH_CFG_MIN t)
                         sni := x.find, seen := [] }
     s.active Ty.SXT t = true → s.tm.free = false → s.isActive = true → s.flag Reg.SXT_CTL_DISC_EN t = true →
     u % s.fld Reg.SXT_DISC_CFG_PERIOD t = 0 → (∀ v ∈ x.windows, v.utick ≠ u) →
     Gives (.discWindowOpen t) s
       (((s.setSx t { x with windows := (x.windows.filter fun v => decide (s.tm.m ≤ v.utick + 8)) ++ [w], find := none }).count
         Reg.SXT_DISC_WINDOWS t).treeMsg t 0x10 destAll (toBE 6 u ++ toBE 1 w.span ++ [if x.find.isSome then 2 else 1] ++ toBE 2 w.slots ++
           toBE 1 w.dslot ++ toBE 1 (w.pdisc / 16) ++ toBE 4 (ofSigned 32 w.eqdDisc) ++ toBE 3 (x.find.getD 0)))) ∧
    (∀ (u : Nat) (w : Window) (x : Int) (b : Burst), s.active Ty.SXT t = true → s.isActive = true → s.on Reg.TRX_CTL_RX_EN t = true → u ≤ s.tm.m →
      (s.sx t).windows.find? (fun w => w.utick == u) = some w → 0 ≤ x → x < w.len * 128 →
      let pm := match (s.rx t).maps.find? fun m => m.utick == u with
        | some m => m.pm
        | none => s.pm
      let see (r : State) (l : List (Nat × Nat)) : State :=
        r.setSx t { (r.sx t) with windows := (r.sx t).windows.map fun v => if v.utick == u then { v with seen := v.seen ++ l } else v }
      (b.light = false → Gives (.discRespReceive t u [(x, b)]) s (see (s.count Reg.SXT_DISC_COLLIDE t) [])) ∧
      (∀ (d : Bytes) (e : Nat) (r : DiscResp), b.light = true → (delimFind b 0 (s.fld Reg.TRX_DELIM_CFG_ERR_MAX t)).isSome = true →
        cwAt (codeOf b 0) 0 88 = some (d, e) → discRespOf t w pm d (s.flag Reg.TRX_CTL_SCR_OFF t) = some r → (r.vendor, r.serial) ∉ w.seen →
        Gives (.discRespReceive t u [(x, b)]) s ((see s [(r.vendor, r.serial)]).respond t w x r))) ∧
    (∀ (w : Window) (x : Int) (r : DiscResp) (n : Nat), s.inv Ty.SXT t 0 = false → s.inv Ty.SXT t 1 = false →
      (s.termsOf t).filter (fun n => (s.term (termAx t n)).valid && (s.term (termAx t n)).vendor == r.vendor &&
        (s.term (termAx t n)).serial == r.serial) = [n] →
      let q := s.term (termAx t n)
      let eqd := w.eqdDisc - (x - ((r.slot * w.dslot * 128 + w.pdisc * 8 : Nat) : Int))
      q.dark = false → q.st = .init → q.pend = none → (r.sni = 0x3FFFF ∨ r.sni = q.sni) →
      (eqd < 2125440 → s.respond t w x r = (s.count Reg.SXT_RANGE_FAIL t).sxtEvent t 0x12 n w.utick 1 0 []) ∧
      (2125440 ≤ eqd → s.respond t w x r =
        ((s.setTerm (termAx t n) { q with eqd := eqd, nonce := r.nonce, noKem := !r.kem, rangeFrom := some 0, tries := 0, assignAcked := false
                                          allocAcked := false, reRange := false, nextSeq := q.nextSeq }).count Reg.SXT_DISC_RESP_OK t).pend t n .discovered 0 false)) ∧
    (∀ (u : Nat) (bs : List (Int × Burst)), (∀ w ∈ (s.sx t).windows, w.utick ≠ u) → Gives (.discRespReceive t u bs) s s) ∧
    ((s.active Ty.SXT t = false ∨ s.tm.free = true ∨ s.isActive = false) → Gives (.treeParamsSend t) s s) ∧
    (s.active Ty.SXT t = true → s.tm.free = false → s.isActive = true → s.nextM % 16 = 0 →
      (∀ a ∈ s.tm.named, ¬ (a.kind = .preamble ∧ a.inst = t)) →
      let vals := [s.dOf t, s.fld Reg.TRX_PREAMBLE_CFG_CUR t, s.fld Reg.TRX_PREAMBLE_CFG_DISC t, 0, 0, s.fld Reg.SXT_CNT_CFG_CNT_PERIOD t,
        s.kaPar Reg.PKA_HE_SNI_SNI]
      Gives (.treeParamsSend t) s ((s.setSx t { s.sx t with params := false, sentParams := vals }).treeMsg t 0x11 destAll
        (toBE 1 (s.dOf t) ++ toBE 1 (s.fld Reg.TRX_PREAMBLE_CFG_CUR t) ++ toBE 1 (s.fld Reg.TRX_PREAMBLE_CFG_DISC t) ++ toBE 1 0 ++ toBE 6 0 ++
          toBE 2 (s.fld Reg.SXT_CNT_CFG_CNT_PERIOD t) ++ toBE 3 (s.kaPar Reg.PKA_HE_SNI_SNI)))) ∧
    (∀ v : Word, s.mirrorOpen = true → s.present Ty.SXT t = true →
      let lo := bitsOf v.toNat 0 10
      let hi := bitsOf v.toNat 16 10
      let l := windowLen lo hi (s.fld Reg.SXT_DISC_CFG_SLOTS t) (s.discPre t)
      ((hi < lo ∨ 600 < hi ∨ 400 < hi - lo ∨ 4 < spanOf l (s.fixBase t)) → Gives (.reachCfgWrite t v) s (s.count Reg.SXT_CFG_REJECT t)) ∧
      (lo ≤ hi → hi ≤ 600 → hi - lo ≤ 400 → spanOf l (s.fixBase t) ≤ 4 →
        let s1 := s.plainWrite (Reg.SXT_REACH_CFG.at t) v.toNat
        Gives (.reachCfgWrite t v) s (s1.mirror 3 [1, Reg.SXT_REACH_CFG.at t, s1.reg Reg.SXT_REACH_CFG t] []))) ∧
    (∀ v : Word, s.mirrorOpen = true → s.present Ty.SXT t = true →
      let l := windowLen (s.fld Reg.SXT_REACH_CFG_MIN t) (s.fld Reg.SXT_REACH_CFG_MAX t) (clampNat 1 1024 (bitsOf v.toNat 16 11)) (s.discPre t)
      (4 < spanOf l (s.fixBase t) →
        let r := s.count Reg.SXT_CFG_REJECT t
        let s1 := r.plainWrite (Reg.SXT_DISC_CFG.at t) (bitsOf v.toNat 0 16 + r.fld Reg.SXT_DISC_CFG_SLOTS t * 2 ^ 16)
        Gives (.discCfgWrite t v) s (s1.mirror 3 [1, Reg.SXT_DISC_CFG.at t, s1.reg Reg.SXT_DISC_CFG t] [])) ∧
      (spanOf l (s.fixBase t) ≤ 4 →
        let s1 := s.plainWrite (Reg.SXT_DISC_CFG.at t) v.toNat
        Gives (.discCfgWrite t v) s (s1.mirror 3 [1, Reg.SXT_DISC_CFG.at t, s1.reg Reg.SXT_DISC_CFG t] [])))) ∧
  spreadOf 4 29 = 9915 ∧ dslotOf 256 = 48 ∧ windowLen 4 29 256 256 = 22251 ∧ eqdDiscOf 6 4 = 38676952

/-- On a running device, for tree t and terminal n of association AX. KX_SESSION_OPEN of a record that waits, with the
conditions of R173 met, opens a MODE 1 session, one with no ML-KEM fails with NO_KEM, a due re-agreement opens MODE 2,
and otherwise nothing changes. A receive command with no good message of its type changes nothing; a message of a
session that is not open is taken and counted in KX_STRAY; a first segment of an object of several segments is stored
with its tick; STATE 0 of an object marks it done; an abort fails the session with the terminal's code. OBJ_WAIT_EXPIRY
answers an incomplete object with STATE 1 and its missing segments after OBJ_WAIT ticks, sends a whole unacknowledged
object again after twice that, a fifth sending being a TRANSFER failure. SESSION_LIMIT_EXPIRY fails a re-agreement older
than its limit with TIMEOUT. -/
def Obligations.KeyAgreementSessions : Prop :=
  ∀ (s : State) (t n : Nat), Running s → t < 32 → n < 512 →
    let ax := termAx t n
    let x := s.kt ax
    (s.kaWaits ax = true → s.kaMay = true →
      Gives (.kxSessionOpen t n) s (if (s.term ax).noKem then
        (((s.setKt ax { x with waitAt := none }).count Reg.PKA_KX_FAILED 0).kaEvent 0x30 ax 0x0A 0 0).kaDeact ax 5 false else s.kaOpen ax 1)) ∧
    (s.kaWaits ax = false → s.kaReady2 ax = true → s.kaMay = true → Gives (.kxSessionOpen t n) s (s.kaOpen ax 2)) ∧
    ((s.kaMay = false ∨ (s.kaWaits ax = false ∧ s.kaReady2 ax = false)) → Gives (.kxSessionOpen t n) s s) ∧
    ((∀ c ∈ (s.sx t).good, msgType c.msg ≠ 0x41 ∧ msgType c.msg ≠ 0x42 ∧ msgType c.msg ≠ 0x44) →
      Gives (.kxSegReceive t) s s ∧ Gives (.kxStatusReceive t) s s ∧ Gives (.kxAbortReceive t) s s) ∧
    (∀ (c : CtrlIn) (l : List CtrlIn), (s.sx t).good = c :: l →
      let s1 := s.setSx t { s.sx t with good := l }
      let cx := termAx t c.term
      let b := msgBody c.msg
      (msgType c.msg = 0x41 → s1.kaSess cx (beAt b 1 1) = none → Gives (.kxSegReceive t) s (s1.count Reg.PKA_KX_STRAY 0)) ∧
      (msgType c.msg = 0x42 → s1.kaSess cx (beAt b 1 1) = none → Gives (.kxStatusReceive t) s (s1.count Reg.PKA_KX_STRAY 0)) ∧
      (msgType c.msg = 0x44 → s1.kaSess cx (beAt b 0 1) = none → Gives (.kxAbortReceive t) s (s1.count Reg.PKA_KX_STRAY 0)) ∧
      (∀ e : Sess, msgType c.msg = 0x41 → s1.kaSess cx (beAt b 1 1) = some e → beAt b 0 1 = 4 → e.rx.find 4 = none → beAt b 4 2 = 1697 →
        beAt b 2 2 < 43 →
        let o : RxObj := { total := 1697, segs := [(beAt b 2 2, sliceB b 8 40)], since := s.tm.tickNo, refused := false }
        Gives (.kxSegReceive t) s (s1.setKt cx { s.kt cx with sess := some { e with rx := e.rx.insert 4 o } })) ∧
      (∀ (e : Sess) (o : TxObj), msgType c.msg = 0x42 → s1.kaSess cx (beAt b 1 1) = some e → e.tx.find (beAt b 0 1) = some o → beAt b 2 1 = 0 →
        Gives (.kxStatusReceive t) s
          (s1.setKt cx { s.kt cx with sess := some { e with tx := e.tx.insert (beAt b 0 1) { o with done := true, todo := [] } } })) ∧
      (∀ e : Sess, msgType c.msg = 0x44 → s1.kaSess cx (beAt b 0 1) = some e →
        Gives (.kxAbortReceive t) s (s1.kaFail cx (beAt b 1 1) (beAt b 2 1) false))) ∧
    (∀ obj : Nat, (s.isActive = false ∨ x.sess = none) → Gives (.objWaitExpiry t n obj) s s) ∧
    (∀ (e : Sess) (obj : Nat) (o : RxObj), s.isActive = true → x.sess = some e → e.rx.find obj = some o → o.complete = false →
      (s.tm.tickNo < o.since + e.objWait → Gives (.objWaitExpiry t n obj) s s) ∧
      (o.since + e.objWait ≤ s.tm.tickNo → Gives (.objWaitExpiry t n obj) s
        ((s.setKt ax { x with sess := some { e with rx := e.rx.insert obj { o with since := s.tm.tickNo } } }).kaStatus ax obj e.session 1 (missingOf o)))) ∧
    (∀ (e : Sess) (obj : Nat) (o : TxObj), s.isActive = true → x.sess = some e → e.rx.find obj = none → e.tx.find obj = some o → o.done = false →
      o.todo = [] → o.since + 2 * e.objWait ≤ s.tm.tickNo →
      (4 ≤ o.sendings → Gives (.objWaitExpiry t n obj) s (s.kaFail ax 0x01 obj true)) ∧
      (o.sendings < 4 →
        let all := List.range (ceilDiv o.data.length 40)
        let o := { o with sendings := o.sendings + 1, todo := all, since := s.tm.tickNo }
        Gives (.objWaitExpiry t n obj) s ((s.setKt ax { x with sess := some { e with tx := e.tx.insert obj o } }).kaFlush ax 33))) ∧
    (x.sess = none → Gives (.sessionLimitExpiry t n) s s) ∧
    (∀ e : Sess, x.sess = some e →
      Gives (.sessionLimitExpiry t n) s (if e.mode = 2 ∧ e.opened + e.limit < s.tm.tickNo then s.kaFail ax 0x0B 0 true else s))

/-- On a running active device that is not free ticking, for tree t and terminal n. KX_VERIFY_DONE with the three objects
complete ends with the code of the chain check, with FORMAT for a point off the curve, with PROOF for a bad signature or
CONFIRM for a bad confirmation, and otherwise installs generation 0 and stages KX_DONE. REKEY_DUE makes a switch due
REKEY_TICKS after the last one, or a re-agreement where KGEN would pass its end. KEY_SWITCH_START starts the earliest
due switch, at most REKEY_RATE per tick. REAGREE_DUE falls due at REAGREE_TICKS, again when the retry's tick has come,
and at twice REAGREE_TICKS without a re-agreement that succeeded TMS_AGE_LIMIT deactivates the terminal with reason KEY. GROUP_REKEY_START of a group that is
not due, is INVALID or has a switch pending changes nothing, and of a name that is no group's changes nothing; a due
group gets a fresh key in the opposite phase, its T is named and every member is sent the next key. -/
def Obligations.KeyProofAndSwitches : Prop :=
  ∀ (s : State) (t n : Nat), Running s → t < 32 → n < 512 → s.isActive = true → s.tm.free = false →
    let ax := termAx t n
    let x := s.kt ax
    (x.sess = none → Gives (.kxVerifyDone t n) s s) ∧
    (∀ e : Sess, x.sess = some e → (e.verified = true ∨ e.rxDone 4 = false ∨ e.rxDone 5 = false ∨ e.rxDone 6 = false) → Gives (.kxVerifyDone t n) s s) ∧
    (∀ e : Sess, x.sess = some e → e.verified = false → e.rxDone 4 = true → e.rxDone 5 = true → e.rxDone 6 = true →
      let (r, code) := s.chainCheck ax e
      let leaf := (chainParse (e.rxBytes 5)).bind (·.head?)
      let fp := match leaf with
        | some (der, _) => beAt (Config.sha384 der) 0 4
        | none => 0
      let pub := match leaf with
        | some (_, c) => c.pub
        | none => []
      let e := { e with fp := fp }
      let r := r.setKt ax { r.kt ax with sess := some e }
      let share := e.rxBytes 4
      let qT := sliceB share 32 97
      let prk := Config.hkdfExtract (e.nonce ++ sliceB share 0 32) (Config.p384Dh e.ec qT ++ Config.kemDec e.kem (sliceB share 129 1568))
      let th1 := r.th1 ax e
      let proof := e.rxBytes 6
      let ckT := Config.hkdfExpand prk (ascii "TAL1 confirm terminal" ++ th1) 48
      Gives (.kxVerifyDone t n) s
        (if code ≠ 0 then r.kaFail ax code 5 true
        else if Config.p384OnCurve qT = false then r.kaFail ax 0x02 4 true
        else if Config.p384Verify pub (ascii "TAL1 terminal proof" ++ th1) (sliceB proof 0 96) = false then r.kaFail ax 0x08 6 true
        else if Config.hmac384 ckT th1 ≠ sliceB proof 96 48 then r.kaFail ax 0x09 6 true
        else if r.inv Ty.PKA 0 1 then ((r.invDone Ty.PKA 0 1).raise Ty.PKA 0 3 ax 0).kaFail ax 0x08 0 true
        else r.kxDone ax e prk th1)) ∧
    ((x.tms = none ∨ s.tm.m < x.lastSw + s.kaPar Reg.PKA_REKEY_TICKS_TICKS) → Gives (.rekeyDue t n) s s) ∧
    (x.tms.isSome = true → (s.term ax).keyed = true → (s.term ax).st.bound = true → x.lastSw + s.kaPar Reg.PKA_REKEY_TICKS_TICKS ≤ s.tm.m →
      (x.kgen = 0xFFFFFFFF → x.nextTms = none → Gives (.rekeyDue t n) s (s.setKt ax { x with reDue := true })) ∧
      (x.kgen < 0xFFFFFFFF → x.dueAt = none → Gives (.rekeyDue t n) s (s.setKt ax { x with dueAt := some s.tm.m })) ∧
      (∀ d, x.kgen < 0xFFFFFFFF → x.dueAt = some d → Gives (.rekeyDue t n) s s)) ∧
    ((s.kaPar Reg.PKA_SWITCH_CFG_REKEY_RATE ≤ s.ka.started ∨ s.nextSwitch = none) → Gives .keySwitchStart s s) ∧
    (∀ bx : Nat, s.ka.started < s.kaPar Reg.PKA_SWITCH_CFG_REKEY_RATE → s.nextSwitch = some bx → Gives .keySwitchStart s (s.switchStart1 bx)) ∧
    (∀ m : Tms, x.tms = some m →
      let age := s.tm.m - m.born
      (age < s.kaPar Reg.PKA_REAGREE_TICKS_TICKS → Gives (.reagreeDue t n) s s) ∧
      (s.kaPar Reg.PKA_REAGREE_TICKS_TICKS ≤ age → x.reDue = false → x.retryAt = none → x.nextTms = none → x.sess = none →
        Gives (.reagreeDue t n) s (s.setKt ax { x with reDue := true })) ∧
      (age < 2 * s.kaPar Reg.PKA_REAGREE_TICKS_TICKS → Gives (.tmsAgeLimit t n) s s) ∧
      (x.nextTms.isSome = true → x.sess = none → Gives (.tmsAgeLimit t n) s s) ∧
      (2 * s.kaPar Reg.PKA_REAGREE_TICKS_TICKS ≤ age → (s.term ax).st.bound = true → (x.nextTms = none ∨ x.sess.isSome = true) →
        Gives (.tmsAgeLimit t n) s (s.kaDeact ax 7 false))) ∧
    (∀ u : Nat, x.retryAt = some u →
      Gives (.reagreeRetryExpiry t n) s (if u ≤ s.tm.tickNo then s.setKt ax { x with retryAt := none, reDue := true } else s)) ∧
    (∀ g : Nat, (g < 16384 ∨ 20512 ≤ g) → Gives (.groupRekeyStart g) s s) ∧
    (∀ g : Nat, 16384 ≤ g → g < 20512 →
      let k := s.kg g
      let a := s.assoc g
      let q := 1 - a.cur
      let mem := s.groupMembers g
      let due := k.dueAt.isSome || decide (k.lastSw + s.kaPar Reg.PKA_REKEY_TICKS_TICKS ≤ s.tm.m)
      ((due = false ∨ a.st = .invalid ∨ k.sw.isSome = true ∨ a.sw.isSome = true) → Gives (.groupRekeyStart g) s s) ∧
      (due = true → a.st ≠ .invalid → k.sw = none → a.sw = none → s.ka.drbgOk = true → mem.any s.kaBusy = false →
        let u := s.tm.m + s.kaPar Reg.PKA_SWITCH_CFG_SWITCH_LEAD + 2 * ceilDiv (busiest mem) 64
        let (key, s1) := s.drawBytes 32
        let (r, st) := s1.install g q (freshKey key [] [] true (match a.pos a.cur with
          | some p => p.kgen + 1
          | none => 0)) s1.usageCfg
        Gives (.groupRekeyStart g) s (if st = 0 then
          mem.foldl (fun s ax => s.groupKey ax g false) (((r.setKg g
            { k with dueAt := none, sw := some (u, q), past := false, waiting := mem, refused := [], late := [] }).setSwitch g q u).kgMirror g) else r)))

/-- On a running device. KA_REKEY, KA_REAGREE and KA_GROUP_REKEY end with STATUS 2 in a standby, 4 for an absent tree, 1 for
a terminal that is not keyed or a group that is INVALID, and otherwise make their switch or re-agreement due with STATUS
0. LOAD_ANCHORS, LOAD_DENY and LOAD_CHAIN of a length their rule refuses show STATUS 1, of a window that fails STATUS 4,
and otherwise what was read is the table from the next tick boundary on; CLEAR_CHAIN empties the chain so; each sets
TABLE_DONE. TOD_BROADCAST sends TIME_OF_DAY to all for a frame whose TICK is a multiple of TOD_PERIOD, once, and a keyed
terminal's TIME_REQ is answered to it alone. KA_NO_CHAIN_COUNT counts each second once for each waiting record while
there is no chain. DRBG_RESEED_RETRY a second after a health failure restores the DRBG or raises the error again. -/
def Obligations.KeyAgentCommandsTablesAndTime : Prop :=
  ∀ s : State, Running s →
    let cmd (r : State) (op st : Nat) : State := r.setReg Reg.PKA_KA_CMD 0 (op + st * 2 ^ 24)
    let t := s.fld Reg.PKA_KA_ARG_TREE 0
    let ax := termAx t (s.fld Reg.PKA_KA_ARG_TERMINAL 0)
    (s.isActive = false → Gives .kaRekey s (cmd s 1 2) ∧ Gives .kaReagree s (cmd s 2 2) ∧ Gives .kaGroupRekey s (cmd s 3 2)) ∧
    (s.isActive = true →
      (s.hasTree t = false → Gives .kaRekey s (cmd s 1 4) ∧ Gives .kaReagree s (cmd s 2 4)) ∧
      (s.hasTree t = true → (s.term ax).keyed = false → Gives .kaRekey s (cmd s 1 1) ∧ Gives .kaReagree s (cmd s 2 1)) ∧
      (s.hasTree t = true → (s.term ax).keyed = true →
        Gives .kaRekey s (cmd (s.switchDue ax) 1 0) ∧ Gives .kaReagree s (cmd (s.setKt ax { s.kt ax with reDue := true, retryAt := none }) 2 0)) ∧
      let b := s.flag Reg.PKA_KA_ARG_BCAST 0
      let g := if b then 16384 + t else 16416 + s.fld Reg.PKA_KA_ARG_GROUP 0
      (b = true → s.hasTree t = false → Gives .kaGroupRekey s (cmd s 3 4)) ∧
      ((b = false ∨ s.hasTree t = true) → (s.assoc g).st = .invalid → Gives .kaGroupRekey s (cmd s 3 1)) ∧
      ((b = false ∨ s.hasTree t = true) → (s.assoc g).st ≠ .invalid →
        Gives .kaGroupRekey s (cmd (s.setKg g { s.kg g with dueAt := some ((s.kg g).dueAt.getD s.tm.m) }) 3 0))) ∧
    (let n := s.fld Reg.PKA_TABLE_LEN_BYTES 0
     let off := s.reg64 Reg.PKA_TABLE_ADDR_LO 0
     let done (r : State) (op w st : Nat) : State := (r.setReg Reg.PKA_TABLE_CMD 0 (op + w * 16 + st * 2 ^ 24)).intSet Ty.PKA 0 4
     ∀ (w : Nat) (d : List Byte), w < 16 →
      let l := entriesOf 97 (sliceB d 0 n)
      ((n % 97 ≠ 0 ∨ n = 0 ∨ 16 < n / 97) → Gives (.loadAnchors w d) s (done s 1 w 1)) ∧
      ((n % 48 ≠ 0 ∨ 4096 < n / 48) → Gives (.loadDeny w d) s (done s 2 w 1)) ∧
      ((n = 0 ∨ 3072 < n) → Gives (.loadChain w d) s (done s 3 w 1)) ∧
      (s.winOk w off n false = false →
        (n % 48 = 0 → n / 48 ≤ 4096 → Gives (.loadDeny w d) s (done (s.count Reg.HIF_WIN_FAULT 0) 2 w 4)) ∧
        (0 < n → n ≤ 3072 → Gives (.loadChain w d) s (done (s.count Reg.HIF_WIN_FAULT 0) 3 w 4))) ∧
      (s.winOk w off n false = true →
        (n % 97 = 0 → 1 ≤ n / 97 → n / 97 ≤ 16 →
          Gives (.loadAnchors w d) s (if l.all Config.p384OnCurve then done { s with ka := { s.ka with anchorsIn := some l } } 1 w 0 else done s 1 w 2)) ∧
        (n % 48 = 0 → n / 48 ≤ 4096 → Gives (.loadDeny w d) s (done { s with ka := { s.ka with denyIn := some (entriesOf 48 (sliceB d 0 n)) } } 2 w 0)) ∧
        (0 < n → n ≤ 3072 → Gives (.loadChain w d) s
          (if (chainParse (sliceB d 0 n)).isSome then done { s with ka := { s.ka with chainIn := some (sliceB d 0 n) } } 3 w 0 else done s 3 w 3)))) ∧
    Gives .clearChain s (({ s with ka := { s.ka with chainIn := some [] } }.setReg Reg.PKA_TABLE_CMD 0
      (4 + s.fld Reg.PKA_TABLE_CMD_WINDOW 0 % 16 * 16 + 0 * 2 ^ 24)).intSet Ty.PKA 0 4) ∧
    (∀ t : Nat, t < 32 →
      let p := s.kaPar Reg.PKA_TIME_CFG_TOD_PERIOD
      let n := s.nextM
      ((p = 0 ∨ n % p ≠ 0 ∨ s.tm.free = true ∨ s.isActive = false ∨ s.ka.todDone.get 0 t = n + 1) → Gives (.todBroadcast t) s s) ∧
      (p ≠ 0 → n % p = 0 → s.tm.free = false → s.isActive = true → s.active Ty.SXT t = true → s.ka.todDone.get 0 t ≠ n + 1 →
        Gives (.todBroadcast t) s (({ s with ka := { s.ka with todDone := s.ka.todDone.set 0 t (n + 1) } }.treeMsg t 0x50 destAll []).count Reg.PKA_TOD_SENT 0)) ∧
      (∀ (c : CtrlIn) (l : List CtrlIn), (s.sx t).good = c :: l → msgType c.msg = 0x51 → s.tm.free = false →
        let s1 := s.setSx t { s.sx t with good := l }
        Gives (.timeReqReceive t) s (if (s.term (termAx t c.term)).keyed then (s1.treeMsg t 0x50 c.term []).count Reg.PKA_TOD_SENT 0
          else s1.count Reg.PKA_KX_STRAY 0))) ∧
    ((s.ka.chain ≠ [] ∨ s.tm.tickNo < s.ka.noChainAt + 8000) → Gives .kaNoChainCount s s) ∧
    (s.ka.chain = [] → s.ka.noChainAt + 8000 ≤ s.tm.tickNo →
      Gives .kaNoChainCount s ({ s with ka := { s.ka with noChainAt := s.tm.tickNo } }.countN Reg.PKA_KA_NO_CHAIN 0
        (s.ka.terms.countP fun (q : Nat × KaTerm) => s.kaWaits q.1))) ∧
    (∀ ok : Bool, (s.ka.drbgOk = true ∨ s.tm.tickNo < s.ka.reseedAt) → Gives (.drbgReseedRetry ok) s s) ∧
    (s.ka.drbgOk = false → s.ka.reseedAt ≤ s.tm.tickNo → s.inv Ty.PKA 0 2 = true → ∀ ok : Bool,
      Gives (.drbgReseedRetry ok) s (((s.invDone Ty.PKA 0 2).raise Ty.PKA 0 4 0 0).drbgFail)) ∧
    (s.ka.drbgOk = false → s.ka.reseedAt ≤ s.tm.tickNo → s.inv Ty.PKA 0 2 = false →
      Gives (.drbgReseedRetry true) s
        (let r : State := { s with ka := { s.ka with drbgOk := true } }
         if r.lcs.vbat.secret = none then r.newSecret else r) ∧
      Gives (.drbgReseedRetry false) s (((s.invDone Ty.PKA 0 2).raise Ty.PKA 0 4 0 0).drbgFail))

/-- On a running device, for an association AX, a position and a key size that ALM_CMD names. Every one of these commands
shows itself with its STATUS in ALM_CMD, counts CMD_REJECT where STATUS is not 0, and sets CMD_DONE. An AX of an absent
unit answers STATUS 4, an AX outside the command's range STATUS 1, and a mirrored AX of a standby is counted and left
alone. Otherwise: READ_ATTR writes the eight attribute words; SET_ATTR stores PIN, EXP_RESET, LIMIT_EXP and USE,
refusing a new USE of an association that is not INVALID and software-defined; GEN_KEY places a fresh key where R207
lets one be placed; DESTROY makes the association INVALID; DESTROY_POS of an empty position changes nothing, of the
current one destroys, of the other empties it; IMPORT_CLOSE ends its session; GROUP joins and leaves, and answers 6
while DRBG_OK is 0. -/
def Obligations.SlotCommandsOfOneAssociation : Prop :=
  ∀ (s : State) (ax pos : Nat) (k256 : Bool), Running s → ax < 2 ^ 18 → pos < 2 →
    let ans (r : State) (op st ax pos : Nat) (k256 : Bool) : State :=
      ((if st = 0 then r else r.count Reg.ALM_CMD_REJECT 0).setReg Reg.ALM_CMD 0
        (ax + pos * 2 ^ 18 + (if k256 then 2 ^ 19 else 0) + op * 2 ^ 20 + st * 2 ^ 24)).intSet Ty.ALM 0 7
    let a := s.assoc ax
    let w := s.regI Reg.ALM_ARG 0 0
    (s.axAbsent ax = true →
      Gives (.readAttr ax pos k256) s (ans s 1 4 ax pos k256) ∧ Gives (.setAttr ax pos k256) s (ans s 2 4 ax pos k256) ∧
      Gives (.destroyPos ax pos k256) s (ans s 4 4 ax pos k256) ∧ Gives (.destroy ax pos k256) s (ans s 5 4 ax pos k256)) ∧
    ((ax < 20512 ∨ (28704 ≤ ax ∧ ax < 28712)) → Gives (.genKey ax pos k256) s (ans s 3 1 ax pos k256)) ∧
    ((ax < 16416 ∨ 20512 ≤ ax) → Gives (.groupMembership ax pos k256) s (ans s 14 1 ax pos k256)) ∧
    (s.axAbsent ax = false →
      Gives (.readAttr ax pos k256) s (ans ((List.range 8).foldl (fun (r : State) i => r.setRegI Reg.ALM_ARG 0 i ((s.attrArgs ax).getD i 0)) s) 1 0 ax pos k256)) ∧
    (s.axAbsent ax = false → s.isActive = false → ax < 20512 →
      let r := s.count Reg.PAIR_MIRROR_WRITE_REJECT 0
      Gives (.setAttr ax pos k256) s (ans r 2 1 ax pos k256) ∧ Gives (.destroyPos ax pos k256) s (ans r 4 1 ax pos k256) ∧
      Gives (.destroy ax pos k256) s (ans r 5 1 ax pos k256)) ∧
    (s.axAbsent ax = false → (s.isActive = true ∨ 20512 ≤ ax) →
      (bitsOf w 5 2 ≠ a.usage → (a.st ≠ .invalid ∨ ax < 28712) → Gives (.setAttr ax pos k256) s (ans s 2 1 ax pos k256)) ∧
      (bitsOf w 5 2 = a.usage → bitOf w 3 = false →
        Gives (.setAttr ax pos k256) s
          (ans ((s.setAssoc ax { a with pin := false, exp := bitOf w 4, usage := a.usage, limit := clampNat 20 40 (bitsOf w 16 6) }).mirrorAx ax) 2 0 ax pos k256)) ∧
      Gives (.destroy ax pos k256) s (ans (s.destroyLogged ax) 5 0 ax pos k256) ∧
      (a.pos pos = none → Gives (.destroyPos ax pos k256) s (ans s 4 0 ax pos k256)) ∧
      ((a.pos pos).isSome = true → a.st ≠ .invalid → a.cur = pos →
        Gives (.destroyPos ax pos k256) s (ans ((s.destroyAx ax false).almEvent 0x44 pos ax 0) 4 0 ax pos k256)) ∧
      ((a.pos pos).isSome = true → a.cur ≠ pos →
        Gives (.destroyPos ax pos k256) s (ans (((s.setAssoc ax (a.setPos pos none)).mirrorAx ax).almEvent 0x44 pos ax 0) 4 0 ax pos k256))) ∧
    (s.axAbsent ax = false → 20512 ≤ ax → (ax < 28704 ∨ 28712 ≤ ax) →
      (s.ka.drbgOk = false → Gives (.genKey ax pos k256) s (ans s 3 6 ax pos k256)) ∧
      (s.ka.drbgOk = true →
        let (k, r) := s.drawBytes (if k256 then 32 else 16)
        let (r, st) := r.install ax pos (freshKey k [] [] k256 0) s.usageCfg
        Gives (.genKey ax pos k256) s (ans (if st = 0 then r else s) 3 st ax pos k256))) ∧
    Gives (.importClose ax pos k256) s
      (ans { s with alm := { s.alm with isk := s.alm.isk.set none (s.regI Reg.ALM_ARG 0 3 % 4) none } } 9 0 ax pos k256) ∧
    (s.axAbsent ax = false → s.isActive = true → 16416 ≤ ax → ax < 20512 →
      let t := bitsOf w 9 5
      let m := termAx t (bitsOf w 0 9)
      let g := ax - 16416
      (s.hasTree t = false → Gives (.groupMembership ax pos k256) s (ans s 14 4 ax pos k256)) ∧
      (s.hasTree t = true → s.ka.drbgOk = false → Gives (.groupMembership ax pos k256) s (ans s 14 6 ax pos k256)) ∧
      (s.hasTree t = true → s.ka.drbgOk = true →
        (bitOf w 31 = s.alm.members.contains (g, m) → Gives (.groupMembership ax pos k256) s (ans s 14 0 ax pos k256)) ∧
        (bitOf w 31 = true → s.alm.members.contains (g, m) = false →
          (65536 ≤ s.alm.members.length → Gives (.groupMembership ax pos k256) s (ans s 14 7 ax pos k256)) ∧
          (s.alm.members.length < 65536 → s.storeOk = false → Gives (.groupMembership ax pos k256) s (ans s 14 6 ax pos k256)) ∧
          (s.alm.members.length < 65536 → s.storeOk = true →
            let (r, st) := s.groupAdd ax g m
            Gives (.groupMembership ax pos k256) s (ans (if st ≠ 0 then s else if (r.term m).st = .operational then r.groupJoin m ax else r) 14 st ax pos k256)) ∧
          (s.alm.members.length < 65536 → s.storeOk = true → a.st ≠ .invalid → a.pinned ax = false → (s.term m).st ≠ .operational →
            Gives (.groupMembership ax pos k256) s (ans { s with alm := { s.alm with members := s.alm.members ++ [(g, m)] } } 14 0 ax pos k256))) ∧
        (bitOf w 31 = false → s.alm.members.contains (g, m) = true → (s.term m).keyed = false →
          let r := ({ s with alm := { s.alm with members := s.alm.members.erase (g, m) } } : State).coolOut ax
          Gives (.groupMembership ax pos k256) s
            (ans (if r.alm.members.any (fun p => p.1 == g) then
                (if r.kaPar Reg.PKA_KA_CTL_LEAVE_REKEY = 1 ∧ (r.kg ax).dueAt = none then
                  r.setKg ax { r.kg ax with dueAt := some r.tm.m } else r)
              else (r.destroyLogged ax).setKg ax kgReset) 14 0 ax pos k256))))

/-- On a running device, for the words ALM_ARG holds and the bytes d that the data area returns. A data area outside its
window answers STATUS 8. IMPORT answers 6 without a store, and of a session that is not open 3 with IMPORT_REJECT; any
other blob ends as R209's checks say. IMPORT_PUB and IMPORT_OPEN without an identity answer 6; IMPORT_PUB writes its
record, or answers 3 where its signature fails its own check (log entry 117, the model's choice); IMPORT_OPEN of a point
off the curve answers 3, and of a good one opens the session with the derived key and no blobs taken. MKA_KDF and CMAC
of a software-defined AX need the USE KDF and CMAC, else 2; MKA_KDF derives ICK and KEK into position 0 of two different
empty targets, CMAC of 1 to 2,048 bytes puts the 16 bytes in ALM_ARG[0..3] and of another length answers 8. WRAP and
UNWRAP of a trunk SA need a key of USE WRAP; WRAP of another AX answers 1; CMAC, WRAP and UNWRAP count an invocation of
their key and are refused with STATUS 2 at its limit (log entry 118, the model's choice); UNWRAP of a failed check
answers 3 and writes nothing. -/
def Obligations.SlotCommandsWithData : Prop :=
  ∀ (s : State) (ax pos : Nat) (k256 : Bool) (data : List Byte), Running s → ax < 2 ^ 18 → pos < 2 → s.isActive = true →
    let ans (r : State) (op st ax pos : Nat) (k256 : Bool) : State :=
      ((if st = 0 then r else r.count Reg.ALM_CMD_REJECT 0).setReg Reg.ALM_CMD 0
        (ax + pos * 2 ^ 18 + (if k256 then 2 ^ 19 else 0) + op * 2 ^ 20 + st * 2 ^ 24)).intSet Ty.ALM 0 7
    let imp (r : State) (st : Nat) : State := (r.setReg Reg.ALM_CMD 0
      (ax + pos * 2 ^ 18 + (if k256 then 2 ^ 19 else 0) + 6 * 2 ^ 20 + st * 2 ^ 24)).intSet Ty.ALM 0 7
    let w := s.almArgs
    let win0 := w.getD 0 0 % 16
    let off0 := w.getD 1 0 + w.getD 2 0 * 2 ^ 32
    let win1 := w.getD 1 0 % 16
    let off1 := w.getD 2 0 + w.getD 3 0 * 2 ^ 32
    (s.winOk win0 off0 80 false = false → Gives (.importKey ax pos k256 data) s (ans (s.count Reg.HIF_WIN_FAULT 0) 6 8 ax pos k256)) ∧
    (let d := sliceB data 0 80
     s.winOk win0 off0 80 false = true →
      (s.storeOk = false → Gives (.importKey ax pos k256 data) s (ans s 6 6 ax pos k256)) ∧
      (s.storeOk = true → s.alm.isk.get none (beAt d 1 1 % 4) = none → Gives (.importKey ax pos k256 data) s (imp (s.count Reg.ALM_IMPORT_REJECT 0) 3)) ∧
      (∀ (r : State) (st : Nat), s.storeOk = true → s.importBlob (beAt d 2 3) d = (r, .of st) →
        Gives (.importKey ax pos k256 data) s (if st = 0 ∨ st = 2 ∨ st = 3 then imp r st else ans r 6 st ax pos k256))) ∧
    (s.rootScalar "BV3232 import" = none → s.winOk win0 off0 1665 false = true →
      Gives (.importPub ax pos k256) s (ans s 7 6 ax pos k256) ∧ Gives (.importOpen ax pos k256 data) s (ans s 8 6 ax pos k256)) ∧
    (∀ k, s.rootScalar "BV3232 import" = some k →
      let q := sliceB (Config.p384Pub k) 0 97
      let ek := sliceB (Config.kemPub s.impSeed) 0 1568
      let (sig, r) := s.idSign (ascii "BV3232 import key" ++ toBE 2 s.part.code ++ toBE 1 s.lcs.life.code ++ q ++ ek)
      (r.inv Ty.PKA 0 1 = true → Gives (.importPub ax pos k256) s (ans ((r.invDone Ty.PKA 0 1).raise Ty.PKA 0 3 0 0) 7 3 ax pos k256)) ∧
      (r.inv Ty.PKA 0 1 = false →
        let (r, ok) := r.dmaWrite win0 off0 (q ++ ek ++ sliceB sig 0 96)
        Gives (.importPub ax pos k256) s (ans r 7 (if ok then 0 else 8) ax pos k256))) ∧
    (∀ k, s.rootScalar "BV3232 import" = some k → s.ka.drbgOk = true → s.winOk win0 off0 1665 false = true →
      let d := sliceB data 0 1665
      let qs := sliceB d 0 97
      let prk := Config.hkdfExtract (List.replicate 48 0) (Config.p384Dh k qs ++ Config.kemDec s.impSeed (sliceB d 97 1568))
      let isk := sliceB (Config.hkdfExpand prk (ascii "BV3232 import session" ++ qs) 32) 0 32
      Gives (.importOpen ax pos k256 data) s
        (if Config.p384OnCurve qs then ans { s with alm := { s.alm with isk := s.alm.isk.set none (w.getD 3 0 % 4) (some ⟨isk, none, 0⟩) } } 8 0 ax pos k256
         else ans s 8 3 ax pos k256)) ∧
    (ax < 28712 → Gives (.mkaKdf ax pos k256) s (ans s 10 1 ax pos k256)) ∧
    (28712 ≤ ax → s.useKey ax 1 = none → Gives (.mkaKdf ax pos k256) s (ans s 10 2 ax pos k256)) ∧
    (∀ cak : KPos, 28712 ≤ ax → s.useKey ax 1 = some cak →
      let ick := w.getD 4 0 % 2 ^ 18
      let kek := w.getD 5 0 % 2 ^ 18
      let put (r : State) (t use : Nat) (l : String) : State × Nat := (r.setAssoc t { r.assoc t with usage := use }).install t 0
        (freshKey (Config.mkaKdf cak.key (ascii l) (argBytes w) (if cak.k256 then 32 else 16)) [] [] cak.k256 0) r.usageCfg
      ((ick < 28712 ∨ kek < 28712) → Gives (.mkaKdf ax pos k256) s (ans s 10 1 ax pos k256)) ∧
      (28712 ≤ ick → 28712 ≤ kek → (ick = kek ∨ (s.assoc ick).st ≠ .invalid ∨ (s.assoc kek).st ≠ .invalid) →
        Gives (.mkaKdf ax pos k256) s (ans s 10 2 ax pos k256)) ∧
      (∀ r1 r2 : State, 28712 ≤ ick → 28712 ≤ kek → ick ≠ kek → (s.assoc ick).st = .invalid → (s.assoc kek).st = .invalid →
        put s ick 2 "IEEE8021 ICK" = (r1, 0) → put r1 kek 3 "IEEE8021 KEK" = (r2, 0) →
        Gives (.mkaKdf ax pos k256) s (ans r2 10 0 ax pos k256))) ∧
    (28712 ≤ ax → (w.getD 3 0 = 0 ∨ 2048 < w.getD 3 0) → (s.useKey ax 2).isSome = true → Gives (.cmac ax pos k256 data) s (ans s 11 8 ax pos k256)) ∧
    (∀ k : KPos, 28712 ≤ ax → s.useKey ax 2 = some k → 1 ≤ w.getD 3 0 → w.getD 3 0 ≤ 2048 → s.winOk win0 off0 (w.getD 3 0) false = true →
      let m := sliceB (Config.cmac k.key (sliceB (sliceB data 0 (w.getD 3 0)) 0 (w.getD 3 0))) 0 16
      let (r, ok) := s.keyInvoke ax
      (ok = false → Gives (.cmac ax pos k256 data) s (ans r 11 2 ax pos k256)) ∧
      (ok = true → Gives (.cmac ax pos k256 data) s
        (ans ((List.range 4).foldl (fun (r : State) i => r.setRegI Reg.ALM_ARG 0 i (((List.range 4).map fun i => leAt m (4 * i) 4).getD i 0)) r)
          11 0 ax pos k256))) ∧
    (∀ (bx : Nat) (k : KPos), (s.assoc bx).pos (s.assoc bx).cur = some k →
      s.keyInvoke bx = if k.use < 2 ^ (s.assoc bx).limit then (s.invoke bx (s.assoc bx).cur, true) else (s.count Reg.CIPH_USAGE_STOP_DROP 0, false)) ∧
    (let kek := w.getD 0 0 % 2 ^ 18
     let sa := w.getD 4 0 % 2 ^ 18
     let p := w.getD 4 0 / 2 ^ 18 % 2
     let n := if k256 then 40 else 24
     ((sa < 20512 ∨ 28704 ≤ sa) → s.winOk win1 off1 n false = true →
       Gives (.wrap ax pos k256) s (ans s 12 1 ax pos k256) ∧ Gives (.unwrap ax pos k256 data) s (ans s 13 1 ax pos k256)) ∧
     (20512 ≤ sa → sa < 28704 → 28712 ≤ kek → s.axAbsent sa = false →
      (s.useKey kek 3 = none → s.winOk win1 off1 n false = true →
        Gives (.wrap ax pos k256) s (ans s 12 2 ax pos k256) ∧ Gives (.unwrap ax pos k256 data) s (ans s 13 2 ax pos k256)) ∧
      (∀ k x : KPos, s.useKey kek 3 = some k → (s.assoc sa).pos p = some x →
        let out := Config.keyWrap k.key x.key
        let (v, may) := s.keyInvoke kek
        let (r, ok) := v.dmaWrite win1 off1 out
        (may = false → Gives (.wrap ax pos k256) s (ans v 12 2 ax pos k256)) ∧
        (may = true → Gives (.wrap ax pos k256) s (if out = [] then ans v 12 0 ax pos k256 else ans r 12 (if ok then 0 else 8) ax pos k256))) ∧
      (∀ k : KPos, s.useKey kek 3 = some k → s.winOk win1 off1 n false = true →
        let (v, may) := s.keyInvoke kek
        let put (key : Bytes) : State × Nat := v.install sa p (freshKey key [] [] k256 0) v.usageCfg
        (may = false → Gives (.unwrap ax pos k256 data) s (ans v 13 2 ax pos k256)) ∧
        (may = true → Gives (.unwrap ax pos k256 data) s (match Config.keyUnwrap k.key (sliceB (sliceB data 0 n) 0 n) with
          | none => ans v 13 3 ax pos k256
          | some key => ans (if (put key).2 = 0 then (put key).1 else v) 13 (put key).2 ax pos k256)))))

/-- On a running device. ALM_PREFETCH with PREFETCH_EN 0 changes nothing, and otherwise loads each valid association of the
list that belongs to the slice, with the hold. REMASK_PASS_OVERDUE raises source 0x06 once a pass has run 1,024 ticks.
OLD_GENERATION_DESTROY empties the old position from T + 5 on, and before does nothing. CIPH_ITEM of an association with
no key, stopped or refused is counted and dropped; of one that is not hot it is held, or dropped at once where it does
not fit; a hot one runs on the pool: its invocation, its items and blocks, its result. MISS_HOLD_EXPIRY drops the items
held longer than the latched TICK_DEADLINE, at most 2,500 cycles, each counted, and no other. DEMAND_LOAD_COMPLETE for
an AX that no item waits for changes nothing; an error completion makes the association INVALID and drops its items in
every pool. KAT_START begins the test; KAT_DONE takes the failed cores out of CORE_EN. -/
def Obligations.HotSlotsPoolsAndKnownAnswerTests : Prop :=
  ∀ s : State, Running s →
    (∀ (l : Nat) (axs : List Nat) (hold : Nat), l < 4 →
      ((s.active Ty.ALM 0 = false ∨ s.flag Reg.ALM_CTL_PREFETCH_EN 0 = false) → Gives (.almPrefetch l axs hold) s s) ∧
      (s.active Ty.ALM 0 = true → s.flag Reg.ALM_CTL_PREFETCH_EN 0 = true →
        Gives (.almPrefetch l axs hold) s (axs.foldl (fun s ax =>
          if (s.assoc ax).st = .invalid ∨ (s.axSlices ax).contains l = false then s else (s.load l ax hold false).1) s))) ∧
    ((s.alm.remaskLate = true ∨ s.tm.tickNo < s.alm.remaskFrom + 1024) → Gives .remaskPassOverdue s s) ∧
    (s.alm.remaskLate = false → s.alm.remaskFrom + 1024 ≤ s.tm.tickNo → s.alm.remask.get 0 0 ≠ 0 →
      Gives .remaskPassOverdue s ({ s with alm := { s.alm with remaskLate := true } }.raise Ty.ALM 0 6 0 0)) ∧
    (∀ ax : Nat, (s.assoc ax).sw = none → Gives (.oldGenerationDestroy ax) s s) ∧
    (∀ (ax : Nat) (w : Sw), (s.assoc ax).sw = some w →
      Gives (.oldGenerationDestroy ax) s (if w.taken = true ∧ w.t + 5 ≤ s.tick then
        (s.setAssoc ax { (s.assoc ax).setPos (1 - w.q) none with sw := none }).mirrorAx ax else s)) ∧
    (∀ (i : Nat) (it : CItem), i < 8 → s.active Ty.CIPH i = true → (isTickIv it.ax = false ∨ it.seq ≤ 65535) →
      (s.verdict it.ax it.tick (itemPhase it) = .noKey → Gives (.ciphItem i it) s (s.count Reg.CIPH_NO_KEY i)) ∧
      (s.verdict it.ax it.tick (itemPhase it) = .stopped → Gives (.ciphItem i it) s (s.count Reg.CIPH_USAGE_STOP_DROP i)) ∧
      (s.verdict it.ax it.tick (itemPhase it) = .refused → Gives (.ciphItem i it) s (s.count Reg.CIPH_FREE_REFUSE i)) ∧
      (∀ p : Nat, s.verdict it.ax it.tick (itemPhase it) = .ok p → s.missing i it.ax = true →
        (262144 < (s.pool i).missUsed + heldBytes (it.aad.length + it.data.length) → Gives (.ciphItem i it) s (s.count Reg.CIPH_MISS_BUF_FULL i)) ∧
        ((s.pool i).missUsed + heldBytes (it.aad.length + it.data.length) ≤ 262144 → (∃ h ∈ (s.pool i).miss, h.ax = it.ax) →
          Gives (.ciphItem i it) s (s.setPool i { s.pool i with
            miss := (s.pool i).miss ++ [⟨it.ax, heldBytes (it.aad.length + it.data.length), s.now, .item it⟩] }))) ∧
      (∀ (p : Nat) (k : KPos), s.verdict it.ax it.tick (itemPhase it) = .ok p → s.missing i it.ax = false →
        s.cipherInv i it.ax = none → (s.assoc it.ax).pos p = some k →
        let res := itemResult k.key (itemIv s { it with kp := p } i) it
        let r := s.runItem i it.ax p it.kind (itemIv s { it with kp := p } i) it.aad it.data it.urgent none
        let r := if res = none then r.count Reg.CIPH_TAG_FAIL i else r
        Gives (.ciphItem i it) s (r.setPool i { r.pool i with out := (r.pool i).out ++ [(it.half, res)] }))) ∧
    (∀ i : Nat, i < 8 →
      let late (h : Held) : Bool := decide (h.since + min 2500 (s.deadlineOf Ty.CIPH i) < s.now)
      let r := s.setPool i { s.pool i with miss := (s.pool i).miss.filter fun h => !late h }
      Gives (.missHoldExpiry i) s (((s.pool i).miss.filter late).foldl (fun r h => r.heldDrop i h) r)) ∧
    (∀ (i ax : Nat) (ok : Bool), i < 8 →
      let mine := (s.pool i).miss.filter fun h => h.ax == ax
      let e := s.missExpire i
      let (l, loaded) := e.load (i / 2) ax 0 true
      (mine = [] → Gives (.demandLoadComplete i ax ok) s s) ∧
      (mine ≠ [] → Gives (.demandLoadComplete i ax false) s ((e.loadErr ax).heldLost ax)) ∧
      (mine ≠ [] → loaded = false → Gives (.demandLoadComplete i ax true) s (l.heldLost ax)) ∧
      (∀ h : Held, mine ≠ [] → (e.pool i).miss.filter (fun h => h.ax == ax) = [h] → loaded = true →
        Gives (.demandLoadComplete i ax true) s
          (((l.setPool i { l.pool i with miss := (l.pool i).miss.filter fun h => h.ax != ax }).heldAge i h).release i h))) ∧
    (∀ i : Nat, i < 8 → s.active Ty.CIPH i = true →
      Gives (.katStart i) s ((s.setFlag Reg.CIPH_TEST_KAT_DONE i false).setPool i { (s.setFlag Reg.CIPH_TEST_KAT_DONE i false).pool i with kat := true })) ∧
    (∀ i f : Nat, i < 8 → (s.pool i).kat = false → Gives (.katDone i f) s s) ∧
    (∀ i f : Nat, i < 8 → (s.pool i).kat = true →
      let en := s.fld Reg.CIPH_CTL_CORE_EN i
      let g := (if s.inv Ty.CIPH i 3 then f ||| 1 else f) &&& en
      let r := ((s.invDone Ty.CIPH i 3).setFld Reg.CIPH_TEST_KAT_FAIL i g).setFlag Reg.CIPH_TEST_KAT_DONE i true
      let r := r.setFld Reg.CIPH_CTL_CORE_EN i (en - (en &&& g))
      let r := r.setPool i { r.pool i with kat := false }
      Gives (.katDone i f) s ((List.range 12).foldl (fun (s : State) c =>
        if bitOf g c then (s.intSet Ty.CIPH i 6).raise Ty.CIPH i 6 c (c * 2 ^ 16) else s) r))

/-- On a running device. TRK_RX_FRAME on a port that is absent, in loopback or down changes at most the FEC counts; on one
that is up a frame under 64 bytes, over MAX_FRAME, of a wrong FCS, or of type 0x8808 is counted under its name and
dropped, and a good untagged one of a port without MACsec counts with its octets and goes on without its FCS.
TRK_LINK_CHANGE shows each lane's lock and the port's state word, counts a fall and flags a change. TRK_MODE is stored
while every port is disabled and else counted. TX_SA_CTL with START names the next encoding SA, at TX_SA_AT with AT_EN.
SA_CMD of TABLE 3 or an absent instance changes nothing; on a secondary instance what does not lie there answers 1; on a
primary one with no check bits inverted READ shows an entry's words, WRITE stores one and is refused with 4 for an SA on
an absent instance, 1 for one outside the port or already named, 2 for the encoding SA, 3 for a second implicit SC,
ENABLE and DISABLE set and clear a written entry's use. The IV is SCI and PN, or SSCI and PN XORed with the salt. -/
def Obligations.TrunkPortsAndSecureAssociations : Prop :=
  (∀ (s : State) (k : Nat), Running s → k < 32 →
    let i := s.prim k
    (∀ cycle f full corr bad, (s.hasPort k = false ∨ s.flag Reg.TRK_PORT_CTL_LOOPBACK i = true) → Gives (.trkRxFrame k cycle f full corr bad) s s) ∧
    (∀ (cycle : Nat) (f : List Byte) (corr bad : Nat), s.hasPort k = true → s.flag Reg.TRK_PORT_CTL_LOOPBACK i = false →
      let r := (s.countN64 Reg.TRK_FEC_CORR_CW_LO i corr).countN Reg.TRK_FEC_UNCORR_CW i bad
      let d := f.take (f.length - 4)
      (r.portUp k = false → ∀ full, Gives (.trkRxFrame k cycle f full corr bad) s r) ∧
      (let r := r.advanceTo cycle
       (((s.countN64 Reg.TRK_FEC_CORR_CW_LO i corr).countN Reg.TRK_FEC_UNCORR_CW i bad).portUp k = true → r.inv Ty.TRK i 0 = false → r.inv Ty.TRK i 1 = false →
        (f.length < 64 → ∀ full, Gives (.trkRxFrame k cycle f full corr bad) s (r.count Reg.TRK_RX_RUNT i)) ∧
        (64 ≤ f.length → r.fld Reg.TRK_PORT_CTL_MAX_FRAME i < f.length → ∀ full,
          Gives (.trkRxFrame k cycle f full corr bad) s (r.count Reg.TRK_RX_OVERSIZE i)) ∧
        (64 ≤ f.length → f.length ≤ r.fld Reg.TRK_PORT_CTL_MAX_FRAME i → f.drop (f.length - 4) ≠ fcsOf d → ∀ full,
          Gives (.trkRxFrame k cycle f full corr bad) s (r.count Reg.TRK_RX_FCS_ERR i)) ∧
        (64 ≤ f.length → f.length ≤ r.fld Reg.TRK_PORT_CTL_MAX_FRAME i → f.drop (f.length - 4) = fcsOf d →
          (beAt d 12 2 = 0x8808 → ∀ full, Gives (.trkRxFrame k cycle f full corr bad) s (r.count Reg.TRK_RX_PAUSE i)) ∧
          (let g := (r.count64 Reg.TRK_RX_FRAMES_LO i).countN64 Reg.TRK_RX_OCTETS_LO i f.length
           let (ta, tb, el) := g.ingressTimes k
           beAt d 12 2 ≠ 0x8808 → ∀ full : Bool,
            ((full = true ∧ g.trkMode = 2) → Gives (.trkRxFrame k cycle f full corr bad) s (g.count Reg.TRK_HALFPIPE_OVF i)) ∧
            ((full = false ∨ g.trkMode ≠ 2) → Gives (.trkRxFrame k cycle f full corr bad) s
            (g.msecIn k { data := d, src := k, dst := 0, hp := g.portHp k 0 (beAt d 0 6), domain := 0, cls := 0, yellow := false, ptp := false
                          eapol := false, tick := g.tick, born := g.now, tA := ta, tB := tb, el := el, flow := 0, inj := none }))))))) ∧
    (∀ (p : Pkt), s.flag Reg.MSEC_CTL_EN i = false → beAt p.data 12 2 ≠ 0x888E → s.msecIn k p = s.toFwd { p with eapol := false }) ∧
    (∀ (an al lf rf : Bool) (locks : Nat), s.hasPort k = false → Gives (.trkLinkChange k an al lf rf locks) s s) ∧
    (∀ (an al lf rf : Bool) (locks : Nat), s.hasPort k = true → locks < 256 →
      let was := s.flag Reg.TRK_PORT_STS_LINK i
      let lock (j : Nat) : Bool := bitOf locks j && s.on Reg.SER_CTL_RX_EN (i + j)
      let ok := al && (List.range s.portLanes).all lock
      let en := s.on Reg.TRK_PORT_CTL_EN i
      let up := en && ok && !lf && !rf && (an || !s.on Reg.TRK_PORT_CTL_AN_EN i)
      let b (x : Bool) (j : Nat) : Nat := if x then 2 ^ j else 0
      let r := (List.range s.portLanes).foldl (fun (r : State) j =>
        (r.setReg Reg.TRK_PORT_STS (i + j) (b (lock j) 5)).laneShow (i + j) (lock j) ok up en) s
      let r := r.setReg Reg.TRK_PORT_STS i (b up 0 + b an 1 + b ok 2 + b lf 3 + b rf 4 + b (lock 0) 5)
      let r := if was = true ∧ up = false then r.count Reg.TRK_LINK_DOWN i else r
      Gives (.trkLinkChange k an al lf rf locks) s (if was = up then r else r.intSet Ty.TRK i 0)) ∧
    (∀ v : Word, s.present Ty.TRK 0 = true →
      let on := (List.range 32).any fun i => s.present Ty.TRK i && s.flag Reg.TRK_PORT_CTL_EN i
      Gives (.trkModeWrite v) s (if on then s.count Reg.TRK_CFG_REJECT 0
        else (List.range 32).foldl (fun (r : State) i => r.setReg Reg.TRK_PORT_STS i (r.reg Reg.TRK_PORT_STS i &&& 32))
          (s.setReg Reg.TRK_MODE 0 (if v.toNat % 4 = 3 then 0 else v.toNat % 4))))) ∧
  (∀ (s : State) (l sc an : Nat), Running s → l < 32 → sc < 64 → an < 4 →
    (Gives (.saRead l sc an 3) s s ∧ Gives (.saWrite l sc an 3) s s ∧ Gives (.saEnable l sc an 3) s s ∧ Gives (.saDisable l sc an 3) s s) ∧
    let fin (r : State) (table op st : Nat) : State :=
      let r := r.setReg Reg.MSEC_SA_CMD l (sc + an * 64 + table * 2 ^ 8 + op * 2 ^ 16 + st * 2 ^ 24)
      (if st = 0 then r else r.count Reg.MSEC_CFG_REJECT l).intSet Ty.MSEC l 7
    (s.present Ty.MSEC l = true → s.prim (s.portOf l) ≠ l →
      (Gives (.saRead l sc an 1) s (fin s 1 1 1) ∧ Gives (.saWrite l sc an 1) s (fin s 1 2 1) ∧ Gives (.saEnable l sc an 1) s (fin s 1 3 1) ∧
        Gives (.saDisable l sc an 1) s (fin s 1 4 1)) ∧
      (∀ t : Nat, (t = 0 ∨ t = 2) →
        (s.regI Reg.MSEC_SA_DATA l 0 % 2 ^ 13 / 256 ≠ l → Gives (.saWrite l sc an t) s (fin s t 2 1)) ∧
        ((s.sy (s.prim (s.portOf l))).saAt t (if t = 0 then an else sc * 4 + an) = none →
          Gives (.saRead l sc an t) s (fin s t 1 1) ∧ Gives (.saEnable l sc an t) s (fin s t 3 1) ∧ Gives (.saDisable l sc an t) s (fin s t 4 1)))) ∧
    (s.present Ty.MSEC l = true → s.prim (s.portOf l) = l → s.inv Ty.MSEC l 0 = false → s.inv Ty.MSEC l 1 = false →
      let y := s.sy l
      let w (j : Nat) : Nat := s.regI Reg.MSEC_SA_DATA l j
      let sh (w : List Nat) : State := (List.range 8).foldl (fun (s : State) j => s.setRegI Reg.MSEC_SA_DATA l j (w.getD j 0)) s
      Gives (.saRead l sc an 0) s (fin (sh ((y.saAt 0 an).getD saReset).words) 0 1 0) ∧
      Gives (.saRead l sc an 2) s (fin (sh ((y.saAt 2 (sc * 4 + an)).getD saReset).words) 2 1 0) ∧
      (let e := y.sc.get scReset sc
       Gives (.saRead l sc an 1) s
        (fin (sh [(if e.valid && !e.dead then 1 else 0) + (if e.implicit then 2 else 0), e.sci % 2 ^ 32, e.sci / 2 ^ 32 % 2 ^ 32, 0, 0, 0, 0, 0]) 1 1 0)) ∧
      (let e : ScE := ⟨bitOf (w 0) 0, bitOf (w 0) 1, w 1 + w 2 * 2 ^ 32, false⟩
       let second := e.implicit && e.valid && y.sc.any fun q => q.1 != sc && q.2.valid && q.2.implicit
       Gives (.saWrite l sc an 1) s (if second then fin s 1 2 3 else fin (s.setSy l { y with sc := y.sc.set scReset sc e }) 1 2 0)) ∧
      (∀ t : Nat, (t = 0 ∨ t = 2) →
        let key := if t = 0 then an else sc * 4 + an
        let idx := w 0 % 2 ^ 13
        let here := s.present Ty.MSEC (idx / 256) = true
        let out := s.portOf (idx / 256) ≠ s.portOf l ∨ s.named l t key idx = true
        (¬ here → Gives (.saWrite l sc an t) s (fin s t 2 4)) ∧
        (here → out → Gives (.saWrite l sc an t) s (fin s t 2 1)) ∧
        (here → ¬ out → s.encoding l t an = true → Gives (.saWrite l sc an t) s (fin s t 2 2)) ∧
        (here → ¬ out → s.encoding l t an = false →
          let pn := w 1 + (if s.xpn l then w 2 * 2 ^ 32 else 0)
          let a : SaE := { idx := idx, inUse := ((y.saAt t key).getD saReset).inUse, pn := pn, low := if t = 0 then 0 else pn, ssci := w 3
                           salt := w 4 * 2 ^ 64 + w 5 * 2 ^ 32 + w 6, warned := false, dead := false }
          Gives (.saWrite l sc an t) s (fin (s.setSy l (y.putSa t key a)) t 2 0)) ∧
        (y.saAt t key = none → Gives (.saEnable l sc an t) s (fin s t 3 2) ∧ Gives (.saDisable l sc an t) s (fin s t 4 2)) ∧
        (∀ a : SaE, y.saAt t key = some a →
          Gives (.saEnable l sc an t) s (fin (s.setSy l (y.putSa t key { a with inUse := true })) t 3 0) ∧
          Gives (.saDisable l sc an t) s (if s.encoding l t an then fin s t 4 2 else fin (s.setSy l (y.putSa t key { a with inUse := false })) t 4 0)))) ∧
    (∀ v : Word, s.present Ty.MSEC l = true → s.isPrim l = true →
      let r := s.setReg Reg.MSEC_TX_SA_CTL l (v.toNat % 8)
      (bitOf v.toNat 31 = false → Gives (.txSaStart l v) s r) ∧
      (bitOf v.toNat 31 = true → bitOf v.toNat 2 = false →
        let r := r.unname .txSa l 0
        Gives (.txSaStart l v) s ((r.setSy l { r.sy l with next := some (v.toNat % 4), atTick := none }).setFlag Reg.MSEC_STS_TX_PENDING l false)) ∧
      (bitOf v.toNat 31 = true → bitOf v.toNat 2 = true →
        let r := r.unname .txSa l 0
        let r := (r.setSy l { r.sy l with next := none, atTick := some (v.toNat % 4) }).setFlag Reg.MSEC_STS_TX_PENDING l true
        Gives (.txSaStart l v) s (r.name .txSa l 0 (s.reg64 Reg.MSEC_TX_SA_AT_LO l % 2 ^ 48))))) ∧
  (∀ sci pn ssci salt : Nat, macsecIv false sci pn ssci salt = toBE 8 sci ++ toBE 4 pn ∧
    (ssci < 2 ^ 32 → salt < 2 ^ 96 → macsecIv true sci pn ssci salt = toBE 12 ((ssci * 2 ^ 64 + pn % 2 ^ 64) ^^^ salt))) ∧
  (∀ n l : Nat, l < 2 ^ 32 → fullPn false n l = l ∧ fullPn true n l % 2 ^ 32 = l) ∧
  fullPn true 0xFFFFFFFE 0x00000001 = 0x100000001 ∧ fullPn true 0x100000001 0xFFFFFFFE = 0x1FFFFFFFE

/-- On a running device. PAIR_CMD ends with STATUS 1 while the mirror is below RESYNC or the link is down, 2 in a standby,
and otherwise resynchronises, or names a new link key unless free ticking. LINK_REKEY_DUE does so at member 0 when
LINK_REKEY ticks have passed. A handshake message with no handshake under way changes nothing; a HELLO of the same
MEMBER fails with cause 1 and the device is back in LINKING; a PROOF that verifies ends the handshake and another fails
with cause 5. MATE_FRAME_RECEIVE of a frame while the link is down, of a bad header check or of another KIND changes
nothing; of a good header it is one invocation of the link key, its records are applied in order, and a tag that fails
counts, raises source 0x04 and makes the mirror STALE. ROLE_IN_CHANGE to the level at hand only advances the cycle, and
to another takes the pin's level from that cycle. ROLE_YIELD of the earlier of two active devices counts YIELDS once. -/
def Obligations.PairLinkRolesAndHandshake : Prop :=
  ∀ s : State, Running s →
    (((s.mirrorSt < 3 ∨ s.mateUp = false) →
        Gives .pairResync s (s.setReg Reg.PAIR_CMD 0 (1 + 1 * 2 ^ 24)) ∧ Gives .pairRekeyNow s (s.setReg Reg.PAIR_CMD 0 (2 + 1 * 2 ^ 24))) ∧
      (3 ≤ s.mirrorSt → s.mateUp = true → s.isActive = false →
        Gives .pairResync s (s.setReg Reg.PAIR_CMD 0 (1 + 2 * 2 ^ 24)) ∧ Gives .pairRekeyNow s (s.setReg Reg.PAIR_CMD 0 (2 + 2 * 2 ^ 24))) ∧
      (3 ≤ s.mirrorSt → s.mateUp = true → s.isActive = true →
        Gives .pairResync s ((if s.mirrorSt = 3 then s.resyncStart.count Reg.PAIR_RESYNCS 0 else s.resyncStart).setReg Reg.PAIR_CMD 0 (1 + 0 * 2 ^ 24)) ∧
        Gives .pairRekeyNow s ((if s.tm.free then s else s.linkRekey).setReg Reg.PAIR_CMD 0 (2 + 0 * 2 ^ 24)))) ∧
    ((s.pm ≠ 0 ∨ s.mateUp = false ∨ s.tm.free = true ∨ s.tm.tickNo < s.pair.rekeyAt + s.reg Reg.PAIR_LINK_REKEY 0) → Gives .linkRekeyDue s s) ∧
    (s.pm = 0 → s.mateUp = true → s.tm.free = false → s.pair.rekeyAt + s.reg Reg.PAIR_LINK_REKEY 0 ≤ s.tm.tickNo →
      Gives .linkRekeyDue s s.linkRekey) ∧
    (∀ pk : Bytes, s.pair.pk = some pk →
      (s.linkRekey).pair.epoch = s.pair.epoch + 1 ∧ ((s.linkRekey).assoc 28704).sw = some ⟨s.tm.m + 32, (s.pair.epoch + 1) % 2, false⟩) ∧
    (∀ (kind : Nat) (d : Bytes), s.pair.hs = none → Gives (.mateHandshakeMessage kind d) s s) ∧
    (∀ (h : PairHs) (d : Bytes), s.pair.hs = some h → h.peer = none →
      (beAt d 0 1 = s.pm → Gives (.mateHandshakeMessage 0 d) s
        ((({ s with pair := { s.pair with up := false, pk := none, hs := none } }.setFld Reg.PAIR_STS_HS_CAUSE 0 1).count Reg.PAIR_HS_FAIL 0).setMirror 1)) ∧
      (s.pm = 0 → Gives (.mateHandshakeMessage 0 d) s
        (if s.helloCause d = 0 then { s with pair := { s.pair with hs := some { h with peer := some d } } } else s.hsFail (s.helloCause d)))) ∧
    (∀ (h : PairHs) (peer pk d : Bytes), s.pair.hs = some h → h.peer = some peer → h.pk = some pk →
      Gives (.mateHandshakeMessage 2 d) s
        (if Config.p384Verify (sliceB peer 3 97) (proofMsg (1 - s.pm) h.th) d then s.hsDone pk else s.hsFail 5)) ∧
    (∀ f : List Byte, (s.mateUp = false ∨ beAt f 12 4 ≠ crc32c (sliceB f 0 12) ∨ beAt f 9 1 ≠ 1) → Gives (.mateFrameReceive f) s s) ∧
    (∀ (f : List Byte) (p : Nat) (k : KPos), s.mateUp = true → beAt f 12 4 = crc32c (sliceB f 0 12) → beAt f 9 1 = 1 →
      let tick := beAt f 0 6
      let flags := beAt f 8 1
      let len := beAt f 10 2
      let kp := flags / 8 % 2
      let m := flags % 2
      let r := s.invoke 28704 p
      s.verdict 28704 tick (some kp) = .ok p → (s.assoc 28704).pos p = some k →
      Gives (.mateFrameReceive f) s
        (match Config.gcmDec k.key (tickIv tick (beAt f 6 2) 28704 0 m m kp) (sliceB f 0 16) (sliceB f 16 (len - 16)) (sliceB f len 16) with
        | none => ((r.count Reg.PAIR_MATE_TAG_FAIL 0).raise Ty.PAIR 0 4 0 0).mirrorStale
        | some pt => ((recsOf pt.length pt).foldl State.applyRec r).peerFlags tick flags)) ∧
    (∀ (b : Bool) (cycle : Nat),
      let r := s.advanceTo (min cycle s.tm.len)
      (r.pair.pin = b → Gives (.roleInChange b cycle) s r) ∧
      (r.pair.pin ≠ b → Gives (.roleInChange b cycle) s { r.roleFilter with pair := { r.roleFilter.pair with pin := b, pinAt := r.roleFilter.now } })) ∧
    ((s.pair.both = none ∨ s.pair.yielded = true ∨ s.isActive = false ∨ s.on Reg.PAIR_CTL_YIELD_EN 0 = false) → Gives .roleYield s s) ∧
    (∀ k : Nat, s.pair.both = some k → k + 1 ≤ s.tm.tickNo → s.mateUp = true → s.isActive = true → s.flag Reg.PAIR_STS_PEER_ACTIVE 0 = true →
      s.on Reg.PAIR_CTL_PAIR_EN 0 = true → s.on Reg.PAIR_CTL_YIELD_EN 0 = true → s.pair.yielded = false →
      let mine := s.reg64 Reg.PAIR_LAST_ROLE_LO 0
      ((mine < s.pair.peerSince ∨ (mine = s.pair.peerSince ∧ s.pm = 1)) →
        Gives .roleYield s ({ s with pair := { s.pair with yielded := true } }.count Reg.PAIR_YIELDS 0)) ∧
      ((s.pair.peerSince < mine ∨ (mine = s.pair.peerSince ∧ s.pm = 0)) → Gives .roleYield s s))

/-- On a running device with LCS_CMD not BUSY and no inverted check bits; while BUSY every one of them changes nothing.
LC_ADVANCE of a target that is neither next nor SCRAP ends with STATUS 1, into FIELD with no ROOT_CA_HASH with 2, from
FIELD into RETURN with no token with 3, each with TARGET stored and nothing else done; an allowed one (into FACTORY
after the enrolment) destroys, programs the target's bytes and finishes, and one that power cuts stays BUSY. READ_ID
without an identity or with a signature that fails its check (log entry 117, the model's choice) ends with 6.
WRITE_ROOT_HASH and WRITE_SUBSYS past FACTORY, WRITE_IMAGE_KEY in SCRAP and REVOKE_IMAGE_KEY outside FIELD and RETURN
end with 1; a field already written with 4; otherwise the field holds the bytes read. LOG_APPEND logs its CODE and
DETAIL. LOGBOOK_APPEND programs the oldest queued entry with its continuation. The pattern programmed for each target is
that of R479. -/
def Obligations.LifeCycleAndOneTimeMemory : Prop :=
  (∀ s : State, Running s →
    (s.flag Reg.LCS_CMD_BUSY 0 = true → (∀ tg d c, Gives (.lcAdvance tg d c) s s) ∧ (∀ w, Gives (.readId w) s s) ∧
      (∀ w d, Gives (.writeRootHash w d) s s ∧ Gives (.writeSubsys w d) s s) ∧ (∀ k w d, Gives (.writeImageKey k w d) s s) ∧
      (∀ k, Gives (.revokeImageKey k) s s) ∧ Gives .logAppend s s) ∧
    (s.flag Reg.LCS_CMD_BUSY 0 = false →
      (∀ (tg : Nat) (d : List Byte) (c : Option (Nat × Nat)), tg < 8 →
        let r := s.setFld Reg.LCS_CMD_TARGET 0 tg
        (∀ st, r.lcRefuse tg = st → st ≠ 0 → Gives (.lcAdvance tg d c) s (r.lcsDone 1 st)) ∧
        (r.lcRefuse tg = 0 → tg ≠ 1 →
          let r := r.lcDestroy tg
          let r := r.setOtp { r.lcs.otp with lcState := lcProgram r.lcs.otp.lcState (lcBytes r.lcs.otp.lcState tg) c }
          (c = none → Gives (.lcAdvance tg d c) s ((r.lcFinish tg).lcsDone 1 0)) ∧
          (c ≠ none → Gives (.lcAdvance tg d c) s (r.setFlag Reg.LCS_CMD_BUSY 0 true))) ∧
        (r.lcRefuse tg = 0 → tg = 1 → (r.enrol (readingsOf d)).2 = true →
          let r := (r.enrol (readingsOf d)).1.lcDestroy tg
          let r := r.setOtp { r.lcs.otp with lcState := lcProgram r.lcs.otp.lcState (lcBytes r.lcs.otp.lcState tg) c }
          Gives (.lcAdvance tg d c) s (if c = none then (r.lcFinish tg).lcsDone 1 0 else r.setFlag Reg.LCS_CMD_BUSY 0 true)) ∧
        (r.lcRefuse tg = 0 → tg = 1 → (r.enrol (readingsOf d)).2 = false → Gives (.lcAdvance tg d c) s ((r.enrol (readingsOf d)).1.lcsDone 1 5))) ∧
      (s.inv Ty.LCS 0 0 = false →
        let life := s.lcs.life.code
        let o := s.lcs.otp
        (∀ w : Nat, w < 16 →
          let a := s.setFld Reg.LCS_CMD_WINDOW 0 w
          (s.idKey = none → Gives (.readId w) s (a.lcsDone 2 6)) ∧
          (∀ k, s.idKey = some k →
            let pub := Config.p384Pub k
            let (sig, r) := a.idSign (ascii "BV3232 identity" ++ toBE 2 s.part.code ++ toBE 1 life ++ toBE 4 s.div ++ pub)
            (r.inv Ty.PKA 0 1 = true → Gives (.readId w) s (((r.invDone Ty.PKA 0 1).raise Ty.PKA 0 3 0 0).lcsDone 2 6)) ∧
            (r.inv Ty.PKA 0 1 = false →
              let (r, ok) := r.dmaWrite w (r.reg64 Reg.LCS_ADDR_LO 0) (pub ++ sig)
              Gives (.readId w) s (r.lcsDone 2 (if ok then 0 else 8))))) ∧
        (∀ (w : Nat) (d : List Byte), w < 16 →
          let a := s.setFld Reg.LCS_CMD_WINDOW 0 w
          let off := a.reg64 Reg.LCS_ADDR_LO 0
          (1 < life → Gives (.writeRootHash w d) s (a.lcsDone 3 1) ∧ Gives (.writeSubsys w d) s (a.lcsDone 6 1)) ∧
          (life ≤ 1 →
            (o.rootHash.isSome = true → Gives (.writeRootHash w d) s (a.lcsDone 3 4)) ∧
            (o.subsys.isSome = true → Gives (.writeSubsys w d) s (a.lcsDone 6 4)) ∧
            (o.rootHash = none → a.winOk w off 48 false = true →
              Gives (.writeRootHash w d) s ((a.setOtp { o with rootHash := some (sliceB d 0 48) }).lcsDone 3 0)) ∧
            (o.rootHash = none → a.winOk w off 48 false = false → Gives (.writeRootHash w d) s ((a.count Reg.HIF_WIN_FAULT 0).lcsDone 3 8)) ∧
            (o.subsys = none → a.winOk w off 4 false = true →
              Gives (.writeSubsys w d) s ((a.setOtp { o with subsys := some (leAt d 0 4) }).lcsDone 6 0))) ∧
          (∀ k : Nat, k < 4 →
            let a := a.setFld Reg.LCS_CMD_SLOT 0 k
            (3 < life → Gives (.writeImageKey k w d) s (a.lcsDone 4 1)) ∧
            (life ≤ 3 → (o.imageKey.get none k).isSome = true → Gives (.writeImageKey k w d) s (a.lcsDone 4 4)) ∧
            (life ≤ 3 → o.imageKey.get none k = none → a.winOk w (a.reg64 Reg.LCS_ADDR_LO 0) 48 false = true →
              Gives (.writeImageKey k w d) s (((a.setOtp { o with imageKey := o.imageKey.set none k (some (sliceB d 0 48)) }).log 0x16 0 Ty.LCS 0 0 k).lcsDone 4 0)))) ∧
        (∀ k : Nat, k < 4 →
          let a := (s.setFld Reg.LCS_CMD_WINDOW 0 (s.fld Reg.LCS_CMD_WINDOW 0)).setFld Reg.LCS_CMD_SLOT 0 k
          ((life < 2 ∨ 3 < life) → Gives (.revokeImageKey k) s (a.lcsDone 5 1)) ∧
          (2 ≤ life → life ≤ 3 →
            Gives (.revokeImageKey k) s (((a.setOtp { o with revoked := setBitOf o.revoked k true }).log 0x16 0 Ty.LCS 0 0 (k + 256)).lcsDone 5 0))) ∧
        Gives .logAppend s ((s.log (s.fld Reg.LCS_LOG_SW_CODE 0) 0 Ty.LCS 0 0 (s.fld Reg.LCS_LOG_SW_DETAIL 0)).lcsDone 7 0)))) ∧
  (∀ s : State, s.off = false →
    (s.lcs.logQ = [] → ∀ t, Gives (.logbookAppend t) s s) ∧
    (∀ (e : Bytes) (q : List Bytes), s.lcs.logQ = e :: q → bitOf (beAt e 7 1) 7 = false →
      let r : State := { s with lcs := { s.lcs with logQ := q } }
      (s.lcs.otp.log.length < 2031 → Gives (.logbookAppend none) s
        { r with lcs := { r.lcs with otp := { r.lcs.otp with log := r.lcs.otp.log ++ [e] } } }) ∧
      (2032 ≤ s.lcs.otp.log.length → s.lcs.otp.log.length < 2048 → logReserve (beAt e 6 1) = false →
        Gives (.logbookAppend none) s (r.count Reg.LCS_LOG_FULL_DROP 0)) ∧
      (2048 ≤ s.lcs.otp.log.length → logReserve (beAt e 6 1) = true →
        Gives (.logbookAppend none) s ((r.count Reg.LCS_LOG_FULL_DROP 0).batterySlots [e]) ∧
        (s.lcs.vbat.slots.length < 8 → Gives (.logbookAppend none) s ((r.count Reg.LCS_LOG_FULL_DROP 0).batterySlot e))) ∧
      (∀ b : Bytes, Gives (.logbookAppend (some b)) s ((r.logProgram [sliceB b 0 16]).raise Ty.LCS 0 4 0 0))) ∧
    (∀ (e c : Bytes) (q : List Bytes), s.lcs.logQ = e :: c :: q → bitOf (beAt e 7 1) 7 = true →
      Gives (.logbookAppend none) s (({ s with lcs := { s.lcs with logQ := q } } : State).logProgram [e, c]))) ∧
  (∀ (s : State) (tg : Nat), let l := s.lcs.life.code
    ((tg = l ∨ 4 < tg ∨ (tg ≠ l + 1 ∧ tg ≠ 4) ∨ 3 < l) → s.lcRefuse tg = 1) ∧
    (l = 1 → tg = 2 → s.lcRefuse tg = if s.lcs.otp.rootHash = none then 2 else 0) ∧
    (l = 2 → tg = 3 → s.lcRefuse tg = if s.lcs.retToken = false then 3 else 0) ∧
    (l ≤ 3 → tg = 4 → s.lcRefuse tg = 0) ∧ (l = 0 → tg = 1 → s.lcRefuse tg = 0)) ∧
  (lcProgram 0 (lcBytes 0 1) none = 0xFF ∧ lcProgram 0xFF (lcBytes 0xFF 2) none = 0xFFFF ∧ lcProgram 0xFFFF (lcBytes 0xFFFF 3) none = 0xFFFFFF ∧
    ∀ n : Nat, n ≤ 4 → let v := lcPattern n
      lcProgram v (lcBytes v 4) none = 0xFFFFFFFF ∧ ∀ bits : Nat, 0 < bits → bits < 256 → 2 ^ 24 ≤ lcProgram v (lcBytes v 4) (some (0, bits)))

/-- On a running device. TAMP_FUSE past FACTORY ends with STATUS 1, of no monitor with 3, of a fused one with 0 and no
effect, and otherwise fuses it, clears its EN and logs. TAMP_TEST while one runs ends with 2, of no enabled monitor with
3, and otherwise runs and counts. TAMP_TEST_END with no test changes nothing; one that ends shows detected or failed, a
failure raising source 0x03. RTC_SET sets the seconds, clears the fraction and sets RTC_VALID. In every state, running
or not, TAMPER_SAMPLE advances the RTC by one count (a second at the 32,768th), a condition of a fused monitor is never
shown, and an event is taken by exactly the live monitors whose condition has held for FILT samples and is not yet
raised; with no condition held there is none. TAMPER_FAST_DETECT of a monitor that is not live changes nothing, with
FILT not 0 is latched for the next sample, and with FILT 0 is the event at once. -/
def Obligations.TamperMonitorsAndTheClock : Prop :=
  (∀ s : State, Running s →
    (∀ src : Nat, src < 16 →
      let fin (r : State) (op st : Nat) : State :=
        let r := r.setReg Reg.TAMP_CMD 0 (src + op * 16 + st * 2 ^ 24)
        (if st = 0 then r else r.count Reg.TAMP_CFG_REJECT 0).intSet Ty.TAMP 0 3
      (1 < s.lcs.life.code → Gives (.tampFuse src) s (fin s 1 1)) ∧
      (s.lcs.life.code ≤ 1 → 9 < src → Gives (.tampFuse src) s (fin s 1 3)) ∧
      (s.lcs.life.code ≤ 1 → src ≤ 9 → bitOf s.lcs.otp.fuse src = true → Gives (.tampFuse src) s (fin s 1 0)) ∧
      (s.lcs.life.code ≤ 1 → src ≤ 9 → bitOf s.lcs.otp.fuse src = false →
        Gives (.tampFuse src) s (fin (((s.setOtp { s.lcs.otp with fuse := setBitOf s.lcs.otp.fuse src true }).setFlag
          Reg.TAMP_SRC_CFG_EN 0 false (4 * src)).log 0x15 0 Ty.TAMP 0 0 src) 1 0)) ∧
      (s.lcs.test.isSome = true → Gives (.tampTest src) s (fin s 2 2)) ∧
      (s.lcs.test = none → (9 < src ∨ s.monEn src = false) → Gives (.tampTest src) s (fin s 2 3)) ∧
      (s.lcs.test = none → src ≤ 9 → s.monEn src = true →
        Gives (.tampTest src) s (fin ({ s with lcs := { s.lcs with test := some src } }.count Reg.TAMP_TESTS 0) 2 0))) ∧
    (∀ d : Bool, s.lcs.test = none → Gives (.tampTestEnd d) s s) ∧
    (∀ (d : Bool) (i : Nat), s.lcs.test = some i →
      let r : State := { s with lcs := { s.lcs with test := none } }
      let r := r.setReg Reg.TAMP_TEST_STS 0 (setBitOf (setBitOf (r.reg Reg.TAMP_TEST_STS 0) i d) (16 + i) !d)
      (bitOf s.lcs.cond i = false → d = true → Gives (.tampTestEnd d) s r) ∧
      (d = false →
        let q := (r.intSet Ty.TAMP 0 1).raise Ty.TAMP 0 3 i 0
        Gives (.tampTestEnd d) s (if bitOf q.lcs.cond i && !bitOf q.lcs.raised i then
          { q with lcs := { q.lcs with raised := setBitOf q.lcs.raised i true } }.tamperEvent i else q)) ∧
      (bitOf s.lcs.cond i = true → bitOf s.lcs.raised i = false → d = true →
        Gives (.tampTestEnd d) s ({ r with lcs := { r.lcs with raised := setBitOf r.lcs.raised i true } }.tamperEvent i))) ∧
    (∀ sec : Nat, Gives (.rtcSet sec) s
      { s with lcs := { s.lcs with vbat := { s.lcs.vbat with sec := sec % 2 ^ 40, frac := 0, rtcValid := true } } })) ∧
  (∀ (s : State) (conds tin : Nat), conds < 1024 → tin < 16 → Gives (.tamperSample conds tin) s (s.tamperSample conds tin) ∧
    let t := s.tamperSample conds tin
    ((s.lcs.vbat.frac = 32767 → t.lcs.vbat.frac = 0 ∧ t.lcs.vbat.sec = (s.lcs.vbat.sec + 1) % 2 ^ 40) ∧
      (s.lcs.vbat.frac < 32767 → t.lcs.vbat.frac = s.lcs.vbat.frac + 1 ∧ t.lcs.vbat.sec = s.lcs.vbat.sec)) ∧
    (∀ i : Nat, i < 10 → bitOf s.lcs.otp.fuse i = true → bitOf t.lcs.cond i = false)) ∧
  (∀ s : State,
    let v := s.lcs.vbat
    let v := if v.frac = 32767 then { v with frac := 0, sec := (v.sec + 1) % 2 ^ 40 } else { v with frac := v.frac + 1 }
    (∀ i : Nat, 5 ≤ i → i ≤ 8 → s.fld Reg.TAMP_SRC_CFG_LEVEL 0 (4 * i) = 1) → s.lcs.latched = 0 →
    Gives (.tamperSample 0 15) s { s with lcs := { s.lcs with
      vbat := v, cond := 0, run := (List.range 10).foldl (fun (t : Tbl Nat) i => t.set 0 i 0) s.lcs.run, latched := 0, raised := 0 } }) ∧
  ∀ (s : State) (i : Nat), i < 2 →
    ((s.off = true ∨ s.monLive i = false) → Gives (.tamperFastDetect i) s s) ∧
    (s.off = false → s.monLive i = true → s.monFilt i ≠ 0 →
      Gives (.tamperFastDetect i) s { s with lcs := { s.lcs with latched := setBitOf s.lcs.latched i true } }) ∧
    (s.off = false → s.monLive i = true → s.monFilt i = 0 → s.lcs.test ≠ some i → bitOf s.lcs.raised i = false →
      Gives (.tamperFastDetect i) s (({ s with lcs := { s.lcs with latched := setBitOf s.lcs.latched i true } } : State).tamperEvent i)) ∧
    (s.off = false → s.monLive i = true → s.monFilt i = 0 → (s.lcs.test = some i ∨ bitOf s.lcs.raised i = true) → Gives (.tamperFastDetect i) s s)

/-- On a running device. TAP_INSTRUCTION selects BYPASS, IDCODE, SAMPLE or DAPACC at once, a test instruction where the port
is open or SCOPE bit 3 is unlocked and else counts REFUSED and selects BYPASS, and BYPASS for any other code. CHAL_NEW
draws 32 fresh bytes. TOKEN_FIFO_WRITE appends its word. TOKEN_SUBMIT shows the token's STATUS, empties the FIFO and
draws a new challenge; STATUS 0 unlocks with the token's SCOPE for 8,000 ticks per second, another counts and, but for
6, is one more failure, the fourth blocking. A blocked port answers 6, a life cycle other than FIELD 5, a wrong length
1. RELOCK, and the expiry at its tick, end an unlock with its interrupt, and change nothing with none in force.
DAPACC_ACCESS with another instruction selected only advances the cycle; a permitted one reads or writes its place,
DBG's own page always, and a refused one ends as R495 states; in FIELD with nothing unlocked an access in no region is
refused. -/
def Obligations.DebugPortTokensAndAccesses : Prop :=
  ∀ s : State, Running s →
    (∀ ir : Nat, (ir = 0xFF ∨ ir = 1 ∨ ir = 2 ∨ ir = 0x20) → Gives (.tapInstruction ir) s { s with lcs := { s.lcs with ir := ir } }) ∧
    (∀ ir : Nat, (ir = 0 ∨ (6 ≤ ir ∧ ir ≤ 9)) →
      ((s.lcs.life ≠ .field ∨ bitOf s.scope 3 = true) → Gives (.tapInstruction ir) s { s with lcs := { s.lcs with ir := ir } }) ∧
      (s.lcs.life = .field → bitOf s.scope 3 = false →
        Gives (.tapInstruction ir) s ({ s with lcs := { s.lcs with ir := 0xFF } }.count Reg.DBG_REFUSED 0))) ∧
    (∀ ir : Nat, ir < 256 → ir ≠ 0 → ir ≠ 1 → ir ≠ 2 → ir ≠ 0x20 → ¬ (6 ≤ ir ∧ ir ≤ 9) →
      Gives (.tapInstruction ir) s { s with lcs := { s.lcs with ir := 0xFF } }) ∧
    (let (d, r) := s.drawBytes 32
     Gives .chalNew s { r with lcs := { r.lcs with challenge := d } }) ∧
    (s.lcs.unlock = none → Gives .dbgRelock s s ∧ Gives .unlockExpiry s s) ∧
    (∀ sc t : Nat, s.lcs.unlock = some (sc, t) →
      let r := { s with lcs := { s.lcs with unlock := none } }.intSet Ty.DBG 0 3
      Gives .dbgRelock s r ∧ Gives .unlockExpiry s (if t ≤ s.tm.tickNo then r else s)) ∧
    (∀ v : Word, Gives (.tokenFifoWrite v) s { s with lcs := { s.lcs with fifo := s.lcs.fifo ++ [v] } }) ∧
    (let st := s.tokenStatus s.lcs.fifo
     let d := s.lcs.fifo.flatMap fun w => toBE 4 w.toNat
     let r := ({ s with lcs := { s.lcs with fifo := [] } }.setFld Reg.DBG_TOKEN_CMD_STATUS 0 st).newChallenge
     let bad := ((r.count Reg.DBG_UNLOCK_FAIL 0).log 0x42 0 Ty.DBG 0 1 st).raise Ty.DBG 0 1 0 st
     Gives .tokenSubmit s
      (if st = 0 then ({ r with lcs := { r.lcs with unlock := some (beAt d 290 4, r.tm.tickNo + 8000 * beAt d 294 4), fails := 0
                                                    retToken := r.lcs.retToken || bitOf (beAt d 290 4) 31 } }.count Reg.DBG_UNLOCKS 0).log
          0x41 0 Ty.DBG 0 0 (beAt d 290 4 % 2 ^ 24)
       else if st = 6 then bad
       else { bad with lcs := { bad.lcs with fails := bad.lcs.fails + 1, blocked := decide (4 ≤ bad.lcs.fails + 1) } })) ∧
    (∀ l : List Word, (s.lcs.blocked = true → s.tokenStatus l = 6) ∧ (s.lcs.blocked = false → s.lcs.life ≠ .field → s.tokenStatus l = 5) ∧
      (s.lcs.blocked = false → s.lcs.life = .field → l.length ≠ 99 → s.tokenStatus l = 1)) ∧
    (∀ (a : Nat) (v : Option Word) (cycle : Nat) (got : List Byte) (ecc : Bool) (bad : List Nat),
      let r := s.advanceTo (min cycle s.tm.len)
      let p := a % 2 ^ 40 / 4 * 4
      let q := r.qInv 32 0
      (r.lcs.ir ≠ 0x20 → Gives (.dapaccAccess a v cycle got ecc bad) s r) ∧
      (r.lcs.ir = 0x20 → q.dbgCheck p v.isSome (q.dbgAt p) ≠ 0 →
        Gives (.dapaccAccess a v cycle got ecc bad) s (q.dbgRefuse p v.isSome (q.dbgCheck p v.isSome (q.dbgAt p)))) ∧
      (r.lcs.ir = 0x20 → p < 0x10000000 → q.dbgCheck p v.isSome (q.dbgAt p) = 0 →
        (∀ w : Word, v = some w → Gives (.dapaccAccess a v cycle got ecc bad) s (q.writeReg 9 p w.toNat [])) ∧
        (v = none → Gives (.dapaccAccess a v cycle got ecc bad) s ((q.readReg 9 p).1.answer [(q.readReg 9 p).2])))) ∧
    (∀ (a : Nat) (w : Bool) (t : DbgAt), s.dbgLocked a = false → s.qHits 32 0 a 4 = [] →
      (∀ k, t = .page k → keyTy k ≠ Ty.DBG) →
      s.dbgCheck a w (some t) = if s.lcs.life ≠ .field ∨ bitOf s.scope t.scopeBit = true then 0 else 2) ∧
    (∀ (a k : Nat) (w : Bool), keyTy k = Ty.DBG → s.dbgCheck a w (some (.page k)) = 0)

/-- On a running device with HIF enabled whose ring state meets no inverted check bits. RING_ENABLE with EN 0 stops the
named ring, with EN 1 while quiesced is counted, of a running ring changes nothing and else starts it with both indices
0. A doorbell of a ring that is not enabled, or while quiesced, changes nothing; an index beyond the ring is a ring
fault; the index at hand takes no descriptor. RING_FAULT of an enabled ring stops it with ERR and raises its source.
HIF_FAULT of no cause 1 to 6 changes nothing. HIF_RESUME clears QUIESCED; WIN_FENCE_READ shows what it waited for;
PCIE_LINK_UP shows width and speed. With nothing waiting EXCEPTION_POST, INJECT_COMPLETE and INJECTION_DESCRIPTOR change
nothing; a frame for a ring that is not enabled is dropped and counted; a completion goes to its navigator or back to
its ring; a bad injection descriptor is answered STATUS 1. RING_COAL_TIMEOUT requests the vector COAL_US after the first
item. VEC_EOI and MSIX_UNMASK let a vector send again; a masked one pends. -/
def Obligations.HostRingsAndInterrupts : Prop :=
  ∀ s : State, Running s → s.active Ty.HIF 0 = true → s.inv Ty.HIF 0 0 = false →
    (∀ v : Word,
      let r := min 143 (s.fld Reg.HIF_RING_SEL_RING 0)
      let x := s.ring r
      (bitOf v.toNat 0 = false → Gives (.ringEnable v) s (s.setRing r { x with en := false })) ∧
      (bitOf v.toNat 0 = true → s.flag Reg.HIF_STS_QUIESCED 0 = true → Gives (.ringEnable v) s (s.count Reg.HIF_CFG_REJECT 0)) ∧
      (bitOf v.toNat 0 = true → s.flag Reg.HIF_STS_QUIESCED 0 = false → x.en = true → Gives (.ringEnable v) s s) ∧
      (bitOf v.toNat 0 = true → s.flag Reg.HIF_STS_QUIESCED 0 = false → x.en = false → Gives (.ringEnable v) s
        (s.setRing r { x with en := true, err := false, devIdx := 0, bellIdx := 0, handed := 0, desc := [], compl := none, stalled := false
                              inj := [], unsig := 0, req := false, waiting := 0, gen := x.gen + 1 }))) ∧
    (∀ (r i : Nat) (l : List (List Byte)), r < 144 → i < 2 ^ 16 →
      let x := s.ring r
      let n := 2 ^ x.log2
      let old := (x.devIdx + x.desc.length) % n
      ((x.en = false ∨ s.flag Reg.HIF_STS_QUIESCED 0 = true) → Gives (.doorbellWrite r i l) s s) ∧
      (x.en = true → s.flag Reg.HIF_STS_QUIESCED 0 = false →
        (n ≤ i → Gives (.doorbellWrite r i l) s (s.ringFault r)) ∧
        (i < n → i = old → x.desc.length < n → Gives (.doorbellWrite r i l) s (s.setRing r { x with bellIdx := i, stalled := false })) ∧
        (∀ d : List Byte, i < n → (i + n - old) % n = 1 → x.desc.length + 1 < n → l = [d] →
          s.winOk x.window (x.offset + 64 * old) 64 false = true →
          Gives (.doorbellWrite r i l) s (if beAt d 63 1 < 128 then
              (s.setRing r { x with bellIdx := i }).count Reg.HIF_OWN_STALL 0 |>.setRing r { x with bellIdx := i, stalled := true }
            else s.setRing r { x with bellIdx := i, desc := x.desc ++ [sliceB d 0 64], stalled := false })))) ∧
    (∀ (r : Nat) (late : Bool), ((144 ≤ r ∨ (s.ring r).en = false) → Gives (.ringFault r late) s s) ∧
      (r < 144 → (s.ring r).en = true → Gives (.ringFault r late) s ((s.ringFault r).raise Ty.HIF 0 (if late then 4 else 3) r 0))) ∧
    (∀ r : Nat, ((s.ringFault r).ring r).en = false ∧ ((s.ringFault r).ring r).err = true ∧ ((s.ringFault r).ring r).desc = []) ∧
    (∀ c : Nat, (c = 0 ∨ 6 < c) → Gives (.hifFault c) s s) ∧
    (∀ c : Nat, 2 ≤ c → c ≤ 4 → s.hostIn = [] →
      let n := s.hif.rings.foldl (fun a (r, x) => a + x.inFlight r) 0
      Gives (.hifFault c) s ((({ s with hif := { s.hif with wins := [], rings := s.hif.rings.mapV ringReset fun _ x => x.fault
                                                            linkUp := s.hif.linkUp && decide (c = 4) } }.setReg Reg.HIF_STS 0
        ((if c = 4 then s.reg Reg.HIF_STS 0 % 256 else 0) + 256 + c * 512)).countN Reg.HIF_DISCARDS 0 n).intSet Ty.HIF 0 0)) ∧
    Gives .hifResume s (s.setFlag Reg.HIF_STS_QUIESCED 0 false) ∧
    (∀ n : Nat, Gives (.winFenceRead n) s (s.setFld Reg.HIF_WIN_FENCE_WAITED 0 (min n 65535))) ∧
    (∀ w k : Nat, Gives (.pcieLinkUp w k) s
      (({ s with hif := { s.hif with linkUp := true } }.setFld Reg.HIF_STS_WIDTH 0 w).setFld Reg.HIF_STS_SPEED 0 k)) ∧
    (∀ r : Nat, r < 64 → (∀ q ∈ s.hostIn, q.1 ≠ r) → Gives (.exceptionPost r) s s) ∧
    (∀ (r : Nat) (p : Pkt), r < 64 → s.hostIn = [(r, p)] → (s.ring (16 + r)).en = false →
      Gives (.exceptionPost r) s (({ s with hostIn := [] }.count Reg.HIF_EXC_FRAME_DROP 0).injFin p 2 none)) ∧
    (∀ (r : Nat) (p : Pkt) (d : Bytes) (rest : List Bytes), r < 64 → s.hostIn = [(r, p)] → (s.ring (16 + r)).en = true → (s.ring (16 + r)).desc = d :: rest →
      leAt d 10 2 ≠ 0 →
      let n := min p.data.length (leAt d 10 2)
      let (r1, ok1) := State.dmaWrite { s with hostIn := [] } (leAt d 8 1 % 16) (leAt d 0 8) (sliceB p.data 0 n)
      let (r2, ok2) := r1.ringPut (16 + r) (r1.frameItem p n)
      ok1 = true → ok2 = true → Gives (.exceptionPost r) s (r2.injFin p 0 none)) ∧
    (s.injDone = [] → Gives .injectComplete s s) ∧
    (∀ (d : InjDone) (rest : List InjDone), s.injDone = d :: rest →
      let r : State := { s with injDone := rest }
      (d.inj.host = true → (s.ring d.inj.who).gen = d.inj.slot / 2 ^ 16 →
        Gives .injectComplete s (r.injResult d.inj.who (d.inj.slot % 2 ^ 16) d.st d.time)) ∧
      (d.inj.host = false → d.time = none →
        Gives .injectComplete s ((r.count (if d.st = 0 then Reg.NAV_INJECT_OK else Reg.NAV_INJECT_REJECT) d.inj.who).sendMail
          ⟨0xFF00, d.inj.who, some d.inj.slot, 5, toLE 1 d.st ++ List.replicate 3 0 ++ sliceB d.inj.tag 0 4 ++ List.replicate 8 0⟩))) ∧
    (∀ (r cycle : Nat) (data : List Byte), r < 64 → ((s.ring (80 + r)).en = false ∨ (s.ring (80 + r)).desc = []) →
      Gives (.injectionDescriptor r cycle data) s s) ∧
    (∀ (r cycle : Nat) (data : List Byte) (d : Bytes) (rest : List Bytes), r < 64 → (s.ring (80 + r)).en = true → (s.ring (80 + r)).desc = d :: rest →
      (leAt d 10 2 < 60 ∨ 10236 < leAt d 10 2) →
      let x := s.ring (80 + r)
      Gives (.injectionDescriptor r cycle data) s (((s.advanceTo (min cycle s.tm.len)).setRing (80 + r)
        { x with desc := rest, devIdx := x.nextIdx, inj := x.inj ++ [(x.devIdx, d, none)] }).injResult (80 + r) x.devIdx 1 none)) ∧
    (∀ r cycle : Nat, r < 144 →
      let t := s.advanceTo (min cycle s.tm.len)
      let x := t.ring r
      Gives (.ringCoalTimeout r cycle) s (if x.unsig ≠ 0 ∧ x.coalUs ≠ 0 ∧ x.unsigAt + x.coalUs * 1250 ≤ t.now then
        t.setRing r { x with unsig := 0, req := true } else t)) ∧
    (∀ v : Nat, v < 256 →
      let x := s.vec v
      let put (y : Vec) : HifS := { s.hif with vecs := s.hif.vecs.set ⟨false, false, true, false, 0⟩ v y }
      let req := (s.levelVecs ++ s.hif.ringVecs).contains v
      (x.outstanding = false → Gives (.vecEoi v) s s) ∧
      (x.outstanding = true → 
        let y : Vec := { x with outstanding := false }
        let h := if !(req && s.hif.msixEn) then put y
          else if x.masked then { put y with vecs := (put y).vecs.set ⟨false, false, true, false, 0⟩ v { y with pba := true } }
          else (put y).sendVec v { y with req := true }
        Gives (.vecEoi v) s { s with hif := h }) ∧
      let y : Vec := { x with masked := false }
      let h := if x.pba && req && s.hif.msixEn && !x.outstanding then (put { y with pba := false }).sendVec v { y with req := true }
        else put { y with pba := false }
      Gives (.msixUnmask v) s { s with hif := h })

/-- On a running device whose ring state meets no inverted check bits, for command ring r at the given cycle. A ring that is
not enabled, has a completion waiting, is quiesced or has no descriptor runs nothing. The head command whose SEQ is not
later than the last ends with STATUS 1, one out of range with 3, one of an absent page with 4 and ABSENT_CMD, while
another ring's command on the page is under way it waits; otherwise WRITE writes its words the highest offset first,
READ reads them the lowest first, BULK copies its records, and EXEC waits for BUSY, writes data and command word, and
ends when BUSY is 0. EXEC_TIMEOUT ends with STATUS 5 a command whose BUSY has stood WAIT_MS. COMPLETION_POST puts the
completion into its ring and counts CMD_DONE, or leaves it waiting. A register message to MSEC writes or reads an offset
of R367 and is answered with STATUS 0, any other with 1. -/
def Obligations.RingCommandsAndRegisterMessages : Prop :=
  ∀ (s : State) (r cycle : Nat) (data : List Byte), Running s → r < 8 →
    let a := (s.advanceTo (min cycle s.tm.len)).orphanStep
    let x := a.ring r
    ((x.en = false ∨ x.compl.isSome = true ∨ x.orphan.isSome = true ∨ a.flag Reg.HIF_STS_QUIESCED 0 = true ∨ x.desc = []) →
      Gives (.ringCmdWrite r cycle data) s a ∧ Gives (.ringCmdRead r cycle) s a ∧ Gives (.ringCmdExec r cycle data) s a ∧ Gives (.ringCmdBulk r cycle) s a) ∧
    (∀ (d : Bytes) (rest : List Bytes), a.active Ty.HIF 0 = true → x.en = true → x.compl = none → x.orphan = none → a.flag Reg.HIF_STS_QUIESCED 0 = false → x.desc = d :: rest → a.inv Ty.HIF 0 0 = false →
      let c := cmdOf d
      let old := toSigned 32 ((c.seq + 2 ^ 32 - x.lastSeq) % 2 ^ 32) ≤ 0
      let go := c.bad = false ∧ a.present c.ty c.inst = true ∧ a.pageTaken r c.page = false
      (c.op = 1 → x.waiting = 0 →
        (old → Gives (.ringCmdWrite r cycle data) s (a.cmdEnd r c 1 0 [])) ∧
        (¬ old → c.bad = true → Gives (.ringCmdWrite r cycle data) s (a.cmdEnd r c 3 0 [])) ∧
        (¬ old → c.bad = false → a.present c.ty c.inst = false → Gives (.ringCmdWrite r cycle data) s (a.cmdEnd r c 4 0 [])) ∧
        (¬ old → c.bad = false → a.present c.ty c.inst = true → a.pageTaken r c.page = true → Gives (.ringCmdWrite r cycle data) s a) ∧
        (¬ old → go → Gives (.ringCmdWrite r cycle data) s
          ((((List.range (min c.n 8)).reverse).foldl (fun (s : State) i =>
            s.writeReg (1 + r) (c.key (c.dataOff + 4 * i)) (c.data.getD i 0) []) a).cmdEnd r c 0 0 []))) ∧
      (c.op = 2 → x.waiting = 0 → ¬ old → go → Gives (.ringCmdRead r cycle) s ((a.cmdReadData r c).1.cmdEnd r c 0 0 (a.cmdReadData r c).2)) ∧
      (c.op = 4 → x.waiting = 0 → ¬ old → go → Gives (.ringCmdBulk r cycle) s ((a.bulk c).1.cmdEnd r c (a.bulk c).2.1 0 (a.bulk c).2.2)) ∧
      (c.op = 3 → x.waiting = 0 → ¬ old → go →
        let busy (s : State) : Bool := bitOf (s.view (c.key c.cmdOff)) 31
        let w := (a.cmdWriteData r c).writeReg (1 + r) (c.key c.cmdOff) c.word data
        let (p, word) := w.readReg (1 + r) (c.key c.cmdOff)
        let (q, l) := p.cmdReadData r c
        (busy a = true → Gives (.ringCmdExec r cycle data) s (a.setRing r { x with waiting := 1, waitAt := a.now })) ∧
        (busy a = false → busy w = true → Gives (.ringCmdExec r cycle data) s (w.setRing r { w.ring r with waiting := 2, waitAt := w.now })) ∧
        (busy a = false → busy w = false → Gives (.ringCmdExec r cycle data) s (q.cmdEnd r c 0 word l))) ∧
      (c.op = 2 → Gives (.ringCmdWrite r cycle data) s a)) ∧
    (let b := s.advanceTo (min cycle s.tm.len)
     ((b.ring r).desc = [] ∨ (b.ring r).waiting = 0 → Gives (.execTimeout r cycle) s b) ∧
     (∀ (d : Bytes) (rest : List Bytes), (b.ring r).desc = d :: rest → (b.ring r).waiting ≠ 0 →
      let c := cmdOf d
      let v := b.view (c.key c.cmdOff)
      Gives (.execTimeout r cycle) s
        (if (b.ring r).waitAt + c.wait * 1250000 ≤ b.now ∧ bitOf v 31 = true then b.cmdEnd r c 5 v [] else b))) ∧
    (let q := 8 + (s.ring r).cq % 8
     ((s.ring r).compl = none ∨ (s.ring q).en = false ∨ (s.ring q).desc = [] → Gives (.completionPost r) s s) ∧
     (∀ b : Bytes, (s.ring r).compl = some b → (s.ring q).en = true → (s.ring q).desc ≠ [] →
      let (t, ok) := s.ringPut q b
      Gives (.completionPost r) s (if ok then (t.setRing r { t.ring r with compl := none }).count64 Reg.HIF_CMD_DONE_LO 0 else t))) ∧
    (∀ cl i : Nat, cl < 32 → i < 32 →
      let ep := Ty.MSEC * 256 + i
      ((∀ p ∈ s.posts, ¬ (p.cluster = cl ∧ p.ep = ep)) → Gives (.msecRegMessage cl i) s s) ∧
      (∀ (p : Post) (l : List Post), s.posts = p :: l → p.cluster = cl → p.ep = ep →
        let t : State := { s with posts := l }
        let op := leAt p.body 0 1
        let off := leAt p.body 2 2
        let k := regKey Ty.MSEC i off
        let back (t : State) (st v : Nat) : State := t.sendMail
          ⟨ep, cl, some p.nav, 2, toLE 1 op ++ toLE 1 st ++ toLE 2 off ++ toLE 4 v ++ sliceB p.body 8 8⟩
        (op = 1 → msgOffset off false = true → Gives (.msecRegMessage cl i) s (back (t.writeReg (16 + cl) k (leAt p.body 4 4) []) 0 (leAt p.body 4 4))) ∧
        (op = 2 → msgOffset off true = true → Gives (.msecRegMessage cl i) s (back (t.readReg (16 + cl) k).1 0 (t.readReg (16 + cl) k).2)) ∧
        ((op ≠ 1 ∧ op ≠ 2) → Gives (.msecRegMessage cl i) s (back t 1 (leAt p.body 4 4)))))

/-- On a running device, for unit i of an active page whose state parity is good. CRC_START stores the control word and,
with START, loads CRC_INIT in the algorithm's width, clears the byte count and CHECKED. DATA8, DATA16 and DATA32 feed 1,
2 and 4 bytes from bits 7:0 upward, and DATA128[3] the 16 bytes of the four words; each adds its bytes to the count.
CRC_CHECK compares RESULT with EXPECT: MATCH and its interrupt where they are equal, else MISMATCHES counts. Over
"123456789" the four algorithms give the values of R424, and feeding a then b is feeding a followed by b. A due boundary
latches the counters and takes the next SEQ. PMC_SNAPSHOT with nothing latched changes nothing; one whose slot the host
has not given counts SNAP_SKIP; one whose slot is given is written (its layout is the model's choice, log entry 57),
counts SNAPSHOTS and moves to the next slot. -/
def Obligations.CheckUnitsAndSnapshots : Prop :=
  (∀ (s : State) (i : Nat), Running s → i < 4 → s.active Ty.CRC i = true →
    (∀ v : Word,
      let r := s.plainWrite (Reg.CRC_CTL.at i) v.toNat
      (bitOf v.toNat 8 = false → Gives (.crcStart i v) s r) ∧
      (bitOf v.toNat 8 = true → Gives (.crcStart i v) s
        (((r.setCrc i { st := r.reg64 Reg.CRC_INIT_LO i % 2 ^ crcBits (v.toNat % 4), bad := false }).setReg64 Reg.CRC_BYTES_LO i 0).setFlag
          Reg.CRC_STS_CHECKED i false))) ∧
    (s.inv Ty.CRC i 0 = false →
      let alg := s.fld Reg.CRC_CTL_ALG i
      let feed (d : Bytes) : State :=
        (s.setCrc i { s.crcU i with st := crcFeed alg (s.crcU i).st d }).countN64 Reg.CRC_BYTES_LO i d.length
      let w (k : Nat) : Nat := s.regI Reg.CRC_DATA128 i k
      (∀ v : Word, Gives (.crcData8 i v) s (feed (toLE 1 v.toNat)) ∧ Gives (.crcData16 i v) s (feed (toLE 2 v.toNat)) ∧
        Gives (.crcData32 i v) s (feed (toLE 4 v.toNat)) ∧
        Gives (.crcData128 i v) s (feed (toLE 4 (w 0) ++ toLE 4 (w 1) ++ toLE 4 (w 2) ++ toLE 4 v.toNat))) ∧
      let res := ((s.crcU i).st ^^^ s.reg64 Reg.CRC_XOR_LO i) % 2 ^ crcBits alg
      let ok := !(s.crcU i).bad && res == s.reg64 Reg.CRC_EXPECT_LO i
      let r := ((s.setCrc i { s.crcU i with bad := false }).setFlag Reg.CRC_STS_MATCH i ok).setFlag Reg.CRC_STS_CHECKED i true
      Gives (.crcCheck i) s (if ok then r.intSet Ty.CRC i 1 else (r.count Reg.CRC_MISMATCHES i).intSet Ty.CRC i 0))) ∧
  (let d : Bytes := [0x31, 0x32, 0x33, 0x34, 0x35, 0x36, 0x37, 0x38, 0x39]
   crcFeed 0 0xFFFFFFFF d ^^^ 0xFFFFFFFF = 0xCBF43926 ∧ crcFeed 1 0xFFFFFFFF d ^^^ 0xFFFFFFFF = 0xE3069283 ∧ crcFeed 2 0xFFFF d = 0x29B1 ∧
   crcFeed 3 0 d = 0x6C40DF5F0B497347) ∧
  (∀ (alg st : Nat) (a b : Bytes), st < 2 ^ crcBits alg → alg < 4 → crcFeed alg (crcFeed alg st a) b = crcFeed alg st (a ++ b)) ∧
  ∀ (s : State) (cycle : Nat) (own : Bool), Running s →
    (let f := s.pmc.freeTicks + if s.tm.free then 1 else 0
     let due := s.on Reg.PMC_CTL_EN 0 && (if s.tm.free then f % s.fld Reg.PMC_CTL_K 0 else s.tm.m % s.fld Reg.PMC_CTL_K 0) == 0
     s.pmcBoundary = { s with pmc := if due then { s.pmc with freeTicks := f, seq := s.pmc.seq + 1, latch := some s.pmcLatch, bad := [] }
                                     else { s.pmc with freeTicks := f } }) ∧
    (s.pmc.latch = none → Gives (.pmcSnapshot cycle own) s s) ∧
    (∀ x : Snap, s.pmc.latch = some x → s.inv Ty.PMC 0 0 = false →
      let here := x.tick == s.tm.tickNo
      let idx := s.reg Reg.PMC_DUMP_IDX 0
      let win := s.fld Reg.PMC_DUMP_CFG_WINDOW 0
      let off := s.reg64 Reg.PMC_DUMP_OFF_LO 0 / 64 * 64 + idx * s.slotBytes
      let late := !here || !s.inTime Ty.PMC 0 cycle || !s.pmc.bad.isEmpty
      let r : State := { s with pmc := { s.pmc with last := s.tm.tickNo + 1, latch := none, bad := [] } }
      let r := if here then r.complete Ty.PMC 0 cycle else r
      let (a, rd) := r.dmaRead win off 64
      let (b, ok) := a.dmaWrite win off (x.slot late s.pmc.bad)
      ((own = false ∨ rd = false) → Gives (.pmcSnapshot cycle own) s (a.count Reg.PMC_SNAP_SKIP 0)) ∧
      (own = true → rd = true → ok = false → Gives (.pmcSnapshot cycle own) s (b.count Reg.PMC_SNAP_SKIP 0)) ∧
      (own = true → rd = true → ok = true →
        let c := (b.count Reg.PMC_SNAPSHOTS 0).countN Reg.PMC_SNAP_LATE 0 (if late then 1 else 0)
        Gives (.pmcSnapshot cycle own) s (c.setReg Reg.PMC_DUMP_IDX 0 ((idx + 1) % max 1 (c.fld Reg.PMC_DUMP_CFG_SLOTS 0)))))

/-- HCHK is the register of a most-significant-bit-first shift with generator 0x1021 over header bytes 0 to 5, from 0xFFFF,
with no reflection and no final XOR, and is sent most significant byte first; over "123456789" the algorithm gives
0x29B1; the example's six bytes give the six registers of the table and the header 17 B0 02 86 C0 00 80 2D. -/
def Obligations.UnitHeaderCheck : Prop :=
  (∀ (bs : Bytes) (b : Byte), crc16 [] = 0xFFFF ∧
    crc16 (bs ++ [b]) = (List.range 8).foldl (fun x i => (x * 2 % 2 ^ 16) ^^^ (if x.testBit 15 != b.toNat.testBit (7 - i) then 0x1021 else 0)) (crc16 bs)) ∧
  (∀ (len flow kp : Nat) (lf first urg : Bool),
    (unitHeader len flow kp lf first urg).drop 6 = toBE 2 (crc16 ((unitHeader len flow kp lf first urg).take 6))) ∧
  crc16 (ascii "123456789") = 0x29B1 ∧
  (let d : Bytes := [0x17, 0xB0, 0x02, 0x86, 0xC0, 0x00]
   (List.range 6).map (fun i => crc16 (d.take (i + 1))) = [0x8326, 0x2030, 0x3420, 0xA799, 0x8541, 0x802D] ∧
   unitHeader 1516 0x143 0 true true false = d ++ [0x80, 0x2D])
end

