-- ==== Sys2Proof/Laws/Table.lean ====
section
/-! SUPPORT. The laws of tables and memories: a read after a write, other keys untouched, and the canonical form kept. -/

namespace Sys2Proof.Machine

/-! ## Reading what was written -/

theorem Tbl.find_insert_self {α : Type} (k : Nat) (v : α) (t : Tbl α) : (t.insert k v).find k = some v := by
  induction t with
  | nil => simp [Tbl.insert, Tbl.find]
  | cons p t ih =>
    obtain ⟨k', v'⟩ := p
    unfold Tbl.insert
    split
    · simp [Tbl.find]
    · split
      · simp [Tbl.find]
      · rename_i h1 h2
        simp [Tbl.find, h2, ih]

theorem Tbl.find_insert_ne {α : Type} {j k : Nat} (h : j ≠ k) (v : α) (t : Tbl α) : (t.insert k v).find j = t.find j := by
  induction t with
  | nil => simp [Tbl.insert, Tbl.find, h]
  | cons p t ih =>
    obtain ⟨k', v'⟩ := p
    unfold Tbl.insert
    split
    · simp [Tbl.find, h]
    · split
      · rename_i h1 h2
        subst h2
        simp [Tbl.find, h]
      · simp [Tbl.find, ih]

theorem Tbl.find_erase_self {α : Type} (k : Nat) (t : Tbl α) : (t.erase k).find k = none := by
  induction t with
  | nil => rfl
  | cons p t ih =>
    obtain ⟨k', v'⟩ := p
    unfold Tbl.erase
    split
    · exact ih
    · rename_i h
      simp [Tbl.find, h, ih]

theorem Tbl.find_erase_ne {α : Type} {j k : Nat} (h : j ≠ k) (t : Tbl α) : (t.erase k).find j = t.find j := by
  induction t with
  | nil => rfl
  | cons p t ih =>
    obtain ⟨k', v'⟩ := p
    unfold Tbl.erase
    split
    · rename_i h1
      subst h1
      simp [Tbl.find, h, ih]
    · simp [Tbl.find, ih]

/-- The value just written is the value read. -/
@[simp] theorem Tbl.getD_setD_self {α : Type} [DecidableEq α] (d : Nat → α) (t : Tbl α) (k : Nat) (v : α) :
    (t.setD d k v).getD d k = v := by
  unfold Tbl.setD
  split
  · rename_i h
    simp [Tbl.getD, Tbl.find_erase_self, h]
  · simp [Tbl.getD, Tbl.find_insert_self]

/-- Every other key reads as before. -/
theorem Tbl.getD_setD_ne {α : Type} [DecidableEq α] (d e : Nat → α) (t : Tbl α) {j k : Nat} (h : j ≠ k) (v : α) :
    (t.setD d k v).getD e j = t.getD e j := by
  unfold Tbl.setD
  split
  · simp [Tbl.getD, Tbl.find_erase_ne h]
  · simp [Tbl.getD, Tbl.find_insert_ne h]

@[simp] theorem Tbl.get_set_self {α : Type} [DecidableEq α] (d : α) (t : Tbl α) (k : Nat) (v : α) : (t.set d k v).get d k = v :=
  Tbl.getD_setD_self _ t k v

theorem Tbl.get_set_ne {α : Type} [DecidableEq α] (d e : α) (t : Tbl α) {j k : Nat} (h : j ≠ k) (v : α) :
    (t.set d k v).get e j = t.get e j :=
  Tbl.getD_setD_ne _ _ t h v

@[simp] theorem Tbl.getD_nil {α : Type} (d : Nat → α) (k : Nat) : Tbl.getD d [] k = d k := rfl

@[simp] theorem Tbl.get_nil {α : Type} (d : α) (k : Nat) : Tbl.get d [] k = d := rfl

/-! ## The canonical form -/

theorem Tbl.above_mono {α : Type} {a b : Nat} (h : a ≤ b) (t : Tbl α) (hb : t.above b = true) : t.above a = true := by
  cases t with
  | nil => rfl
  | cons p t =>
    obtain ⟨k, v⟩ := p
    simp only [Tbl.above, Bool.and_eq_true, decide_eq_true_eq] at hb ⊢
    exact ⟨by omega, hb.2⟩

theorem Tbl.above_erase {α : Type} (b k : Nat) (t : Tbl α) (h : t.above b = true) : (t.erase k).above b = true := by
  induction t generalizing b with
  | nil => rfl
  | cons p t ih =>
    obtain ⟨k', v⟩ := p
    simp only [Tbl.above, Bool.and_eq_true, decide_eq_true_eq] at h
    unfold Tbl.erase
    split
    · exact Tbl.above_mono (by omega) _ (ih k' h.2)
    · simp only [Tbl.above, Bool.and_eq_true, decide_eq_true_eq]
      exact ⟨h.1, ih k' h.2⟩

theorem Tbl.above_insert {α : Type} (b k : Nat) (v : α) (t : Tbl α) (hb : b < k) (h : t.above b = true) :
    (t.insert k v).above b = true := by
  induction t generalizing b with
  | nil => simp [Tbl.insert, Tbl.above, hb]
  | cons p t ih =>
    obtain ⟨k', v'⟩ := p
    simp only [Tbl.above, Bool.and_eq_true, decide_eq_true_eq] at h
    unfold Tbl.insert
    split
    · rename_i h1
      simp [Tbl.above, hb, h1, h.2]
    · split
      · rename_i h2
        subst h2
        simp [Tbl.above, hb, h.2]
      · rename_i h1 h2
        simp only [Tbl.above, Bool.and_eq_true, decide_eq_true_eq]
        exact ⟨h.1, ih k' (by omega) h.2⟩

theorem Tbl.sorted_erase {α : Type} (k : Nat) (t : Tbl α) (h : t.sorted = true) : (t.erase k).sorted = true := by
  induction t with
  | nil => rfl
  | cons p t ih =>
    obtain ⟨k', v⟩ := p
    have ht : Tbl.sorted t = true := by
      cases t with
      | nil => rfl
      | cons q t =>
        obtain ⟨k2, v2⟩ := q
        simp only [Tbl.sorted, Tbl.above, Bool.and_eq_true] at h ⊢
        exact h.2
    unfold Tbl.erase
    split
    · exact ih ht
    · exact Tbl.above_erase k' k t h

theorem Tbl.sorted_insert {α : Type} (k : Nat) (v : α) (t : Tbl α) (h : t.sorted = true) : (t.insert k v).sorted = true := by
  cases t with
  | nil => rfl
  | cons p t =>
    obtain ⟨k', v'⟩ := p
    unfold Tbl.insert
    split
    · rename_i h1
      simpa [Tbl.sorted, Tbl.above, h1] using h
    · split
      · rename_i h2
        subst h2
        exact h
      · rename_i h1 h2
        exact Tbl.above_insert k' k v t (by omega) h

theorem Tbl.mem_erase {α : Type} {k : Nat} {t : Tbl α} {p : Nat × α} (h : p ∈ t.erase k) : p ∈ t := by
  induction t with
  | nil => exact h
  | cons q t ih =>
    obtain ⟨k', v'⟩ := q
    unfold Tbl.erase at h
    split at h
    · exact List.mem_cons_of_mem _ (ih h)
    · rcases List.mem_cons.1 h with h | h
      · exact h ▸ List.mem_cons_self
      · exact List.mem_cons_of_mem _ (ih h)

theorem Tbl.mem_insert {α : Type} {k : Nat} {v : α} {t : Tbl α} {p : Nat × α} (h : p ∈ t.insert k v) : p = (k, v) ∨ p ∈ t := by
  induction t with
  | nil => exact .inl (by simpa [Tbl.insert] using h)
  | cons q t ih =>
    obtain ⟨k', v'⟩ := q
    unfold Tbl.insert at h
    split at h
    · rcases List.mem_cons.1 h with h | h
      · exact .inl h
      · exact .inr h
    · split at h
      · rcases List.mem_cons.1 h with h | h
        · exact .inl h
        · exact .inr (List.mem_cons_of_mem _ h)
      · rcases List.mem_cons.1 h with h | h
        · exact .inr (h ▸ List.mem_cons_self)
        · rcases ih h with h | h
          · exact .inl h
          · exact .inr (List.mem_cons_of_mem _ h)

/-- A write keeps the canonical form. -/
theorem Tbl.wf_setD {α : Type} [DecidableEq α] (d : Nat → α) (t : Tbl α) (k : Nat) (v : α) (h : t.wf d = true) :
    (t.setD d k v).wf d = true := by
  simp only [Tbl.wf, Bool.and_eq_true, List.all_eq_true, decide_eq_true_eq] at h ⊢
  unfold Tbl.setD
  split
  · exact ⟨Tbl.sorted_erase k t h.1, fun p hp => h.2 p (Tbl.mem_erase hp)⟩
  · rename_i hv
    refine ⟨Tbl.sorted_insert k v t h.1, fun p hp => ?_⟩
    rcases Tbl.mem_insert hp with rfl | hp
    · exact hv
    · exact h.2 p hp

theorem Tbl.above_keep {α : Type} (b : Nat) (q : Nat → α → Bool) (t : Tbl α) (h : t.above b = true) : (t.keep q).above b = true := by
  induction t generalizing b with
  | nil => rfl
  | cons p t ih =>
    obtain ⟨k, v⟩ := p
    simp only [Tbl.above, Bool.and_eq_true, decide_eq_true_eq] at h
    have g := ih k h.2
    unfold Tbl.keep at g ih ⊢
    rw [List.filter_cons]
    split
    · simp [Tbl.above, h.1, g]
    · exact Tbl.above_mono (Nat.le_of_lt h.1) _ g

/-- Keeping some entries of a canonical table leaves it canonical. -/
theorem Tbl.wf_keep {α : Type} [DecidableEq α] (d : Nat → α) (q : Nat → α → Bool) (t : Tbl α) (h : t.wf d = true) :
    (t.keep q).wf d = true := by
  unfold Tbl.wf at h ⊢
  simp only [Bool.and_eq_true] at h ⊢
  refine ⟨?_, ?_⟩
  · cases t with
    | nil => rfl
    | cons p t =>
      obtain ⟨k, v⟩ := p
      have g := Tbl.above_keep k q t h.1
      unfold Tbl.keep at g ⊢
      rw [List.filter_cons]
      split
      · exact g
      · generalize List.filter (fun e => q e.1 e.2) t = r at g
        cases r with
        | nil => rfl
        | cons p r => simpa [Tbl.above, Tbl.sorted] using (Bool.and_eq_true _ _ ▸ g).2
  · rw [List.all_eq_true] at h ⊢
    exact fun p hp => h.2 p (List.mem_filter.1 hp).1

theorem Tbl.wf_nil {α : Type} [DecidableEq α] (d : Nat → α) : Tbl.wf d ([] : Tbl α) = true := rfl

/-! ## Memory -/

/-- Storing a byte keeps a memory canonical. -/
theorem Memory.wf_write (m : Memory) (a : Nat) (b : Byte) (h : m.wf = true) : (m.write a b).wf = true := Tbl.wf_setD _ m a b h

/-- Storing bytes keeps a memory canonical. -/
theorem Memory.wf_writeN (m : Memory) (a : Nat) (bs : Bytes) (h : m.wf = true) : (m.writeN a bs).wf = true := by
  induction bs generalizing m a with
  | nil => exact h
  | cons b bs ih => exact ih _ _ (Memory.wf_write m a b h)

/-- Keeping some bytes of a memory leaves it canonical. -/
theorem Memory.wf_keep (m : Memory) (q : Nat → Byte → Bool) (h : m.wf = true) : Memory.wf (Tbl.keep q m) = true := Tbl.wf_keep _ q m h

/-- The memories after reset are canonical. -/
theorem Memory.wf_reset : State.reset.nmem.wf = true ∧ State.reset.hif.mem.wf = true := ⟨rfl, rfl⟩

@[simp] theorem Memory.read_write_self (m : Memory) (a : Nat) (b : Byte) : (m.write a b).read a = b := Tbl.get_set_self _ m a b

theorem Memory.read_write_ne (m : Memory) {a c : Nat} (h : c ≠ a) (b : Byte) : (m.write a b).read c = m.read c := Tbl.get_set_ne _ _ m h b

/-- A byte outside the stored range reads as before. -/
theorem Memory.read_writeN_out (m : Memory) (a : Nat) (bs : Bytes) (c : Nat) (h : c < a ∨ a + bs.length ≤ c) :
    (m.writeN a bs).read c = m.read c := by
  induction bs generalizing m a with
  | nil => rfl
  | cons b bs ih =>
    simp only [List.length_cons] at h
    unfold Memory.writeN
    rw [ih _ _ (by omega), Memory.read_write_ne m (by omega)]

/-- A byte inside the stored range reads as stored. -/
theorem Memory.read_writeN_in (m : Memory) (a : Nat) (bs : Bytes) (i : Nat) (h : i < bs.length) :
    (m.writeN a bs).read (a + i) = bs[i] := by
  induction bs generalizing m a i with
  | nil => simp at h
  | cons b bs ih =>
    unfold Memory.writeN
    cases i with
    | zero => rw [Memory.read_writeN_out _ _ _ _ (by omega)]; simp
    | succ i =>
      have := ih (m.write a b) (a + 1) i (by simpa using h)
      rw [show a + (i + 1) = a + 1 + i by omega, this]
      rfl

end Sys2Proof.Machine
end

