-- ==== Sys2Proof/Laws/Outcome.lean ====
section
/-! SUPPORT. What every command's outcome has in common: nothing, or an effect after which the vectors stand settled and the queue and the
part are as they were. -/

namespace Sys2Proof.Laws

open Sys2Proof.Machine

/-! ## What `State.done` keeps -/

@[simp] theorem done_pending (s t : State) : (s.done t).pending = s.pending := rfl
@[simp] theorem done_part (s t : State) : (s.done t).part = s.part := rfl

/-! ## The two outcomes -/

/-- An outcome that leaves the state alone, or ends a command's effect. -/
def Own (s : State) (o : Host.Outcome State Fault Refusal) : Prop := o = .next s ∨ ∃ t : State, o = .next (s.done t)

theorem Own.of_live (s : State) (f : State → State) : Own s (live s f) := by
  unfold live
  split
  · exact .inl rfl
  · exact .inr ⟨_, rfl⟩

theorem Own.of_powered (s : State) (f : State → State) : Own s (powered s f) := by
  unfold powered
  split
  · exact .inl rfl
  · exact .inr ⟨_, rfl⟩

theorem Own.of_always (s : State) (f : State → State) : Own s (always s f) := .inr ⟨_, rfl⟩

theorem live_running {s : State} (h : Running s) (f : State → State) : live s f = .next (s.done (f s)) := by simp [live, h.1, h.2]

theorem live_halted {s : State} (h : s.halted = true) (f : State → State) : live s f = .next s := by simp [live, h]

theorem live_off {s : State} (h : s.off = true) (f : State → State) : live s f = .next s := by simp [live, h]

theorem powered_on {s : State} (h : s.off = false) (f : State → State) : powered s f = .next (s.done (f s)) := by simp [powered, h]

theorem powered_off {s : State} (h : s.off = true) (f : State → State) : powered s f = .next s := by simp [powered, h]

/-- A live command gives what its meaning makes of the state, on a running device. -/
theorem Gives.of_live {c : Instr} {s t : State} (f : State → State) (h : Running s) (e : exec c s = live s f) (q : f s = t) : Gives c s t := by
  unfold Gives; rw [e, live_running h, q]

/-- A powered command gives what its meaning makes of the state, with the supplies present. -/
theorem Gives.of_powered {c : Instr} {s t : State} (f : State → State) (h : s.off = false) (e : exec c s = powered s f) (q : f s = t) :
    Gives c s t := by
  unfold Gives; rw [e, powered_on h, q]

/-- A command that always acts gives what its meaning makes of the state. -/
theorem Gives.of_always {c : Instr} {s t : State} (f : State → State) (e : exec c s = always s f) (q : f s = t) : Gives c s t := by
  unfold Gives; rw [e, ← q]; rfl

/-- An outcome of one of the three forms, as the command acts always, with the supplies present, or on a running device. -/
def Shape (c : Instr) (s : State) (o : Host.Outcome State Fault Refusal) : Prop :=
  ∃ f : State → State, (ActsOff c ∧ o = always s f) ∨ (¬ ActsOff c ∧ ActsHalted c ∧ o = powered s f) ∨ (¬ ActsHalted c ∧ o = live s f)

theorem Shape.of_live {c : Instr} (h : ¬ ActsHalted c) (s : State) (f : State → State) : Shape c s (live s f) := ⟨f, .inr (.inr ⟨h, rfl⟩)⟩

theorem Shape.of_powered {c : Instr} (h : ¬ ActsOff c) (h' : ActsHalted c) (s : State) (f : State → State) : Shape c s (powered s f) :=
  ⟨f, .inr (.inl ⟨h, h', rfl⟩)⟩

theorem Shape.of_always {c : Instr} (h : ActsOff c) (s : State) (f : State → State) : Shape c s (always s f) := ⟨f, .inl ⟨h, rfl⟩⟩

/-- Every command's outcome has the form of its kind. -/
theorem exec_shape (c : Instr) (s : State) : Shape c s (exec c s) := by
  cases c with
  | registerWrite => unfold exec execRegisterWrite; refine Shape.of_powered ?_ ?_ _ _; exact id; trivial
  | multiRegisterRequest => unfold exec execMultiRegisterRequest; refine Shape.of_powered ?_ ?_ _ _; exact id; trivial
  | loRegisterRead => unfold exec execLoRegisterRead; refine Shape.of_powered ?_ ?_ _ _; exact id; trivial
  | hiRegisterWrite => unfold exec execHiRegisterWrite; exact Shape.of_live id _ _
  | loRegisterWrite => unfold exec execLoRegisterWrite; exact Shape.of_live id _ _
  | blockSoftReset => unfold exec execBlockSoftReset; exact Shape.of_live id _ _
  | countClrAll => unfold exec execCountClrAll; exact Shape.of_live id _ _
  | maxClr => unfold exec execMaxClr; exact Shape.of_live id _ _
  | tickBoundary => unfold exec execTickBoundary; refine Shape.of_powered ?_ ?_ _ _; exact id; trivial
  | epochWrite => unfold exec execEpochWrite; exact Shape.of_live id _ _
  | tickOverrun => unfold exec execTickOverrun; exact Shape.of_live id _ _
  | descriptorAgeExpiry => unfold exec execDescriptorAgeExpiry; exact Shape.of_live id _ _
  | stageDescriptorReceive => unfold exec execStageDescriptorReceive; exact Shape.of_live id _ _
  | xbarCross => unfold exec execXbarCross; exact Shape.of_live id _ _
  | ttxFrameStage => unfold exec execTtxFrameStage; exact Shape.of_live id _ _
  | talFrameTransmit => unfold exec execTalFrameTransmit; exact Shape.of_live id _ _
  | ttxUnitPlace => unfold exec execTtxUnitPlace; exact Shape.of_live id _ _
  | ttxModeWrite => unfold exec execTtxModeWrite; exact Shape.of_live id _ _
  | cktLenPgWrite => unfold exec execCktLenPgWrite; exact Shape.of_live id _ _
  | trxBurstReceive => unfold exec execTrxBurstReceive; exact Shape.of_live id _ _
  | rogueLight => unfold exec execRogueLight; exact Shape.of_live id _ _
  | reassemblyExpiry => unfold exec execReassemblyExpiry; exact Shape.of_live id _ _
  | replayWindowRetire => unfold exec execReplayWindowRetire; exact Shape.of_live id _ _
  | profileRead => unfold exec execProfileRead; exact Shape.of_live id _ _
  | profileWriteSeed => unfold exec execProfileWriteSeed; exact Shape.of_live id _ _
  | profileReseed => unfold exec execProfileReseed; exact Shape.of_live id _ _
  | profileInvalidate => unfold exec execProfileInvalidate; exact Shape.of_live id _ _
  | preambleCfgWrite => unfold exec execPreambleCfgWrite; exact Shape.of_live id _ _
  | orrCompute => unfold exec execOrrCompute; exact Shape.of_live id _ _
  | orrMapPublish => unfold exec execOrrMapPublish; exact Shape.of_live id _ _
  | orrHintReceive => unfold exec execOrrHintReceive; exact Shape.of_live id _ _
  | allocReadCfg => unfold exec execAllocReadCfg; exact Shape.of_live id _ _
  | allocWriteCfg => unfold exec execAllocWriteCfg; exact Shape.of_live id _ _
  | allocDelete => unfold exec execAllocDelete; exact Shape.of_live id _ _
  | allocReadState => unfold exec execAllocReadState; exact Shape.of_live id _ _
  | treeCfgWrite => unfold exec execTreeCfgWrite; exact Shape.of_live id _ _
  | sxtEntriesHandover => unfold exec execSxtEntriesHandover; exact Shape.of_live id _ _
  | discWindowOpen => unfold exec execDiscWindowOpen; exact Shape.of_live id _ _
  | discRespReceive => unfold exec execDiscRespReceive; exact Shape.of_live id _ _
  | rangingBurst => unfold exec execRangingBurst; exact Shape.of_live id _ _
  | sxtControlReceive => unfold exec execSxtControlReceive; exact Shape.of_live id _ _
  | ackReceive => unfold exec execAckReceive; exact Shape.of_live id _ _
  | ackTimeout => unfold exec execAckTimeout; exact Shape.of_live id _ _
  | bcastDeactivateRepeat => unfold exec execBcastDeactivateRepeat; exact Shape.of_live id _ _
  | violWindowClose => unfold exec execViolWindowClose; exact Shape.of_live id _ _
  | rogueWindowClose => unfold exec execRogueWindowClose; exact Shape.of_live id _ _
  | quarHoldExpiry => unfold exec execQuarHoldExpiry; exact Shape.of_live id _ _
  | deactHoldExpiry => unfold exec execDeactHoldExpiry; exact Shape.of_live id _ _
  | authTimeoutExpiry => unfold exec execAuthTimeoutExpiry; exact Shape.of_live id _ _
  | treeParamsSend => unfold exec execTreeParamsSend; exact Shape.of_live id _ _
  | termRead => unfold exec execTermRead; exact Shape.of_live id _ _
  | termWrite => unfold exec execTermWrite; exact Shape.of_live id _ _
  | termDeactivate => unfold exec execTermDeactivate; exact Shape.of_live id _ _
  | termDeactivateDark => unfold exec execTermDeactivateDark; exact Shape.of_live id _ _
  | termQuarantine => unfold exec execTermQuarantine; exact Shape.of_live id _ _
  | termRelease => unfold exec execTermRelease; exact Shape.of_live id _ _
  | termRerange => unfold exec execTermRerange; exact Shape.of_live id _ _
  | termFind => unfold exec execTermFind; exact Shape.of_live id _ _
  | termEnable => unfold exec execTermEnable; exact Shape.of_live id _ _
  | termClearViol => unfold exec execTermClearViol; exact Shape.of_live id _ _
  | termAllocPush => unfold exec execTermAllocPush; exact Shape.of_live id _ _
  | termCounterReq => unfold exec execTermCounterReq; exact Shape.of_live id _ _
  | darkTestStart => unfold exec execDarkTestStart; exact Shape.of_live id _ _
  | darkTestEnd => unfold exec execDarkTestEnd; exact Shape.of_live id _ _
  | reachCfgWrite => unfold exec execReachCfgWrite; exact Shape.of_live id _ _
  | discCfgWrite => unfold exec execDiscCfgWrite; exact Shape.of_live id _ _
  | kxSessionOpen => unfold exec execKxSessionOpen; exact Shape.of_live id _ _
  | kxSegReceive => unfold exec execKxSegReceive; exact Shape.of_live id _ _
  | kxStatusReceive => unfold exec execKxStatusReceive; exact Shape.of_live id _ _
  | kxAbortReceive => unfold exec execKxAbortReceive; exact Shape.of_live id _ _
  | objWaitExpiry => unfold exec execObjWaitExpiry; exact Shape.of_live id _ _
  | kxVerifyDone => unfold exec execKxVerifyDone; exact Shape.of_live id _ _
  | sessionLimitExpiry => unfold exec execSessionLimitExpiry; exact Shape.of_live id _ _
  | rekeyDue => unfold exec execRekeyDue; exact Shape.of_live id _ _
  | keySwitchStart => unfold exec execKeySwitchStart; exact Shape.of_live id _ _
  | oldGenerationDestroy => unfold exec execOldGenerationDestroy; exact Shape.of_live id _ _
  | reagreeDue => unfold exec execReagreeDue; exact Shape.of_live id _ _
  | reagreeRetryExpiry => unfold exec execReagreeRetryExpiry; exact Shape.of_live id _ _
  | tmsAgeLimit => unfold exec execTmsAgeLimit; exact Shape.of_live id _ _
  | groupRekeyStart => unfold exec execGroupRekeyStart; exact Shape.of_live id _ _
  | kaRekey => unfold exec execKaRekey; exact Shape.of_live id _ _
  | kaReagree => unfold exec execKaReagree; exact Shape.of_live id _ _
  | kaGroupRekey => unfold exec execKaGroupRekey; exact Shape.of_live id _ _
  | loadAnchors => unfold exec execLoadAnchors; exact Shape.of_live id _ _
  | loadDeny => unfold exec execLoadDeny; exact Shape.of_live id _ _
  | loadChain => unfold exec execLoadChain; exact Shape.of_live id _ _
  | clearChain => unfold exec execClearChain; exact Shape.of_live id _ _
  | todBroadcast => unfold exec execTodBroadcast; exact Shape.of_live id _ _
  | timeReqReceive => unfold exec execTimeReqReceive; exact Shape.of_live id _ _
  | kaNoChainCount => unfold exec execKaNoChainCount; exact Shape.of_live id _ _
  | drbgReseedRetry => unfold exec execDrbgReseedRetry; exact Shape.of_live id _ _
  | readAttr => unfold exec execReadAttr; exact Shape.of_live id _ _
  | setAttr => unfold exec execSetAttr; exact Shape.of_live id _ _
  | genKey => unfold exec execGenKey; exact Shape.of_live id _ _
  | destroyPos => unfold exec execDestroyPos; exact Shape.of_live id _ _
  | destroy => unfold exec execDestroy; exact Shape.of_live id _ _
  | importKey => unfold exec execImportKey; exact Shape.of_live id _ _
  | importPub => unfold exec execImportPub; exact Shape.of_live id _ _
  | importOpen => unfold exec execImportOpen; exact Shape.of_live id _ _
  | importClose => unfold exec execImportClose; exact Shape.of_live id _ _
  | mkaKdf => unfold exec execMkaKdf; exact Shape.of_live id _ _
  | cmac => unfold exec execCmac; exact Shape.of_live id _ _
  | wrap => unfold exec execWrap; exact Shape.of_live id _ _
  | unwrap => unfold exec execUnwrap; exact Shape.of_live id _ _
  | groupMembership => unfold exec execGroupMembership; exact Shape.of_live id _ _
  | almPrefetch => unfold exec execAlmPrefetch; exact Shape.of_live id _ _
  | remaskPassOverdue => unfold exec execRemaskPassOverdue; exact Shape.of_live id _ _
  | ciphItem => unfold exec execCiphItem; exact Shape.of_live id _ _
  | demandLoadComplete => unfold exec execDemandLoadComplete; exact Shape.of_live id _ _
  | missHoldExpiry => unfold exec execMissHoldExpiry; exact Shape.of_live id _ _
  | katStart => unfold exec execKatStart; exact Shape.of_live id _ _
  | katDone => unfold exec execKatDone; exact Shape.of_live id _ _
  | trkModeWrite => unfold exec execTrkModeWrite; exact Shape.of_live id _ _
  | trkRxFrame => unfold exec execTrkRxFrame; exact Shape.of_live id _ _
  | trkTxSelect => unfold exec execTrkTxSelect; exact Shape.of_live id _ _
  | txSaStart => unfold exec execTxSaStart; exact Shape.of_live id _ _
  | saRead => unfold exec execSaRead; exact Shape.of_live id _ _
  | saWrite => unfold exec execSaWrite; exact Shape.of_live id _ _
  | saEnable => unfold exec execSaEnable; exact Shape.of_live id _ _
  | saDisable => unfold exec execSaDisable; exact Shape.of_live id _ _
  | trkLinkChange => unfold exec execTrkLinkChange; exact Shape.of_live id _ _
  | tcMatchExpiry => unfold exec execTcMatchExpiry; exact Shape.of_live id _ _
  | fwdFrame => unfold exec execFwdFrame; exact Shape.of_live id _ _
  | learnRequest => unfold exec execLearnRequest; exact Shape.of_live id _ _
  | fwdSearch => unfold exec execFwdSearch; exact Shape.of_live id _ _
  | fwdNext => unfold exec execFwdNext; exact Shape.of_live id _ _
  | fwdInsert => unfold exec execFwdInsert; exact Shape.of_live id _ _
  | fwdDelete => unfold exec execFwdDelete; exact Shape.of_live id _ _
  | flushByPort => unfold exec execFlushByPort; exact Shape.of_live id _ _
  | tblRead => unfold exec execTblRead; exact Shape.of_live id _ _
  | tblWrite => unfold exec execTblWrite; exact Shape.of_live id _ _
  | ageSweepStart => unfold exec execAgeSweepStart; exact Shape.of_live id _ _
  | ageSweepDone => unfold exec execAgeSweepDone; exact Shape.of_live id _ _
  | qschAdmit => unfold exec execQschAdmit; exact Shape.of_live id _ _
  | spillPageOut => unfold exec execSpillPageOut; exact Shape.of_live id _ _
  | pageIn => unfold exec execPageIn; exact Shape.of_live id _ _
  | serveListBuild => unfold exec execServeListBuild; exact Shape.of_live id _ _
  | qRead => unfold exec execQRead; exact Shape.of_live id _ _
  | qWrite => unfold exec execQWrite; exact Shape.of_live id _ _
  | qReadState => unfold exec execQReadState; exact Shape.of_live id _ _
  | qFlush => unfold exec execQFlush; exact Shape.of_live id _ _
  | queueSample => unfold exec execQueueSample; exact Shape.of_live id _ _
  | gateCommit => unfold exec execGateCommit; exact Shape.of_live id _ _
  | gateListStart => unfold exec execGateListStart; exact Shape.of_live id _ _
  | gateEntryAdvance => unfold exec execGateEntryAdvance; exact Shape.of_live id _ _
  | cktFrameTransmit => unfold exec execCktFrameTransmit; exact Shape.of_live id _ _
  | cktFrameReceive => unfold exec execCktFrameReceive; exact Shape.of_live id _ _
  | cktSignalChange => unfold exec execCktSignalChange; exact Shape.of_live id _ _
  | pmSecondEnd => unfold exec execPmSecondEnd; exact Shape.of_live id _ _
  | pmBinFinal => unfold exec execPmBinFinal; exact Shape.of_live id _ _
  | pathRead => unfold exec execPathRead; exact Shape.of_live id _ _
  | pathWrite => unfold exec execPathWrite; exact Shape.of_live id _ _
  | pathReadState => unfold exec execPathReadState; exact Shape.of_live id _ _
  | pathClearCounts => unfold exec execPathClearCounts; exact Shape.of_live id _ _
  | binRead => unfold exec execBinRead; exact Shape.of_live id _ _
  | tsiStage => unfold exec execTsiStage; exact Shape.of_live id _ _
  | connRead => unfold exec execConnRead; exact Shape.of_live id _ _
  | connWrite => unfold exec execConnWrite; exact Shape.of_live id _ _
  | connClear => unfold exec execConnClear; exact Shape.of_live id _ _
  | copyActive => unfold exec execCopyActive; exact Shape.of_live id _ _
  | clearPage => unfold exec execClearPage; exact Shape.of_live id _ _
  | tsiArm => unfold exec execTsiArm; exact Shape.of_live id _ _
  | tsiVerifyDone => unfold exec execTsiVerifyDone; exact Shape.of_live id _ _
  | tsiCancel => unfold exec execTsiCancel; exact Shape.of_live id _ _
  | assignPushStandby => unfold exec execAssignPushStandby; exact Shape.of_live id _ _
  | assignPushActive => unfold exec execAssignPushActive; exact Shape.of_live id _ _
  | incrWrite => unfold exec execIncrWrite; exact Shape.of_live id _ _
  | adjAdd => unfold exec execAdjAdd; exact Shape.of_live id _ _
  | adjSet => unfold exec execAdjSet; exact Shape.of_live id _ _
  | keepalive => unfold exec execKeepalive; exact Shape.of_live id _ _
  | holdoverEnter => unfold exec execHoldoverEnter; exact Shape.of_live id _ _
  | accGrowth => unfold exec execAccGrowth; exact Shape.of_live id _ _
  | domainSwitchStart => unfold exec execDomainSwitchStart; exact Shape.of_live id _ _
  | domValidWrite => unfold exec execDomValidWrite; exact Shape.of_live id _ _
  | cmpWrite => unfold exec execCmpWrite; exact Shape.of_live id _ _
  | cmpFire => unfold exec execCmpFire; exact Shape.of_live id _ _
  | ppsInEdge => unfold exec execPpsInEdge; exact Shape.of_live id _ _
  | snapshot => unfold exec execSnapshot; exact Shape.of_live id _ _
  | navInstruction => unfold exec execNavInstruction; exact Shape.of_live id _ _
  | wld => unfold exec execWld; exact Shape.of_live id _ _
  | wst => unfold exec execWst; exact Shape.of_live id _ _
  | wadd => unfold exec execWadd; exact Shape.of_live id _ _
  | wsub => unfold exec execWsub; exact Shape.of_live id _ _
  | wand => unfold exec execWand; exact Shape.of_live id _ _
  | wor => unfold exec execWor; exact Shape.of_live id _ _
  | wxor => unfold exec execWxor; exact Shape.of_live id _ _
  | wcmpeq => unfold exec execWcmpeq; exact Shape.of_live id _ _
  | wshl => unfold exec execWshl; exact Shape.of_live id _ _
  | wshr => unfold exec execWshr; exact Shape.of_live id _ _
  | wins => unfold exec execWins; exact Shape.of_live id _ _
  | wext => unfold exec execWext; exact Shape.of_live id _ _
  | crcstep => unfold exec execCrcstep; exact Shape.of_live id _ _
  | mbxSend => unfold exec execMbxSend; exact Shape.of_live id _ _
  | mbxRecv => unfold exec execMbxRecv; exact Shape.of_live id _ _
  | wft => unfold exec execWft; exact Shape.of_live id _ _
  | flk => unfold exec execFlk; exact Shape.of_live id _ _
  | almreq => unfold exec execAlmreq; exact Shape.of_live id _ _
  | mbxDeliver => unfold exec execMbxDeliver; exact Shape.of_live id _ _
  | msecRegMessage => unfold exec execMsecRegMessage; exact Shape.of_live id _ _
  | navInject => unfold exec execNavInject; exact Shape.of_live id _ _
  | injectComplete => unfold exec execInjectComplete; exact Shape.of_live id _ _
  | almreqComplete => unfold exec execAlmreqComplete; exact Shape.of_live id _ _
  | hostMailboxPost => unfold exec execHostMailboxPost; exact Shape.of_live id _ _
  | navFrameRx => unfold exec execNavFrameRx; exact Shape.of_live id _ _
  | navWatchdog => unfold exec execNavWatchdog; exact Shape.of_live id _ _
  | engineFail => unfold exec execEngineFail; exact Shape.of_live id _ _
  | navEnable => unfold exec execNavEnable; exact Shape.of_live id _ _
  | imgLoad => unfold exec execImgLoad; exact Shape.of_live id _ _
  | imgLoadDone => unfold exec execImgLoadDone; exact Shape.of_live id _ _
  | minSvnWrite => unfold exec execMinSvnWrite; exact Shape.of_live id _ _
  | bankArm => unfold exec execBankArm; exact Shape.of_live id _ _
  | bankCancel => unfold exec execBankCancel; exact Shape.of_live id _ _
  | bankForced => unfold exec execBankForced; exact Shape.of_live id _ _
  | regionCommit => unfold exec execRegionCommit; exact Shape.of_live id _ _
  | qmapFence => unfold exec execQmapFence; exact Shape.of_live id _ _
  | sealInit => unfold exec execSealInit; exact Shape.of_live id _ _
  | sealInitDone => unfold exec execSealInitDone; exact Shape.of_live id _ _
  | hbmLineRead => unfold exec execHbmLineRead; exact Shape.of_live id _ _
  | hbmLineWrite => unfold exec execHbmLineWrite; exact Shape.of_live id _ _
  | resealRange => unfold exec execResealRange; exact Shape.of_live id _ _
  | resealNode => unfold exec execResealNode; exact Shape.of_live id _ _
  | resealDone => unfold exec execResealDone; exact Shape.of_live id _ _
  | doorbellWrite => unfold exec execDoorbellWrite; exact Shape.of_live id _ _
  | ringCmdWrite => unfold exec execRingCmdWrite; exact Shape.of_live id _ _
  | ringCmdRead => unfold exec execRingCmdRead; exact Shape.of_live id _ _
  | ringCmdExec => unfold exec execRingCmdExec; exact Shape.of_live id _ _
  | ringCmdBulk => unfold exec execRingCmdBulk; exact Shape.of_live id _ _
  | execTimeout => unfold exec execExecTimeout; exact Shape.of_live id _ _
  | completionPost => unfold exec execCompletionPost; exact Shape.of_live id _ _
  | exceptionPost => unfold exec execExceptionPost; exact Shape.of_live id _ _
  | injectionDescriptor => unfold exec execInjectionDescriptor; exact Shape.of_live id _ _
  | hifFault => unfold exec execHifFault; exact Shape.of_live id _ _
  | ringFault => unfold exec execRingFault; exact Shape.of_live id _ _
  | hifResume => unfold exec execHifResume; exact Shape.of_live id _ _
  | ringEnable => unfold exec execRingEnable; exact Shape.of_live id _ _
  | winFenceRead => unfold exec execWinFenceRead; exact Shape.of_live id _ _
  | vecEoi => unfold exec execVecEoi; exact Shape.of_live id _ _
  | ringCoalTimeout => unfold exec execRingCoalTimeout; exact Shape.of_live id _ _
  | msixUnmask => unfold exec execMsixUnmask; exact Shape.of_live id _ _
  | crcStart => unfold exec execCrcStart; exact Shape.of_live id _ _
  | crcData8 => unfold exec execCrcData8; exact Shape.of_live id _ _
  | crcData16 => unfold exec execCrcData16; exact Shape.of_live id _ _
  | crcData32 => unfold exec execCrcData32; exact Shape.of_live id _ _
  | crcData128 => unfold exec execCrcData128; exact Shape.of_live id _ _
  | crcCheck => unfold exec execCrcCheck; exact Shape.of_live id _ _
  | pmcSnapshot => unfold exec execPmcSnapshot; exact Shape.of_live id _ _
  | errEvent => unfold exec execErrEvent; refine Shape.of_always ?_ _ _; trivial
  | escWindowClose => unfold exec execEscWindowClose; refine Shape.of_powered ?_ ?_ _ _; exact id; trivial
  | errCaptureRelease => unfold exec execErrCaptureRelease; refine Shape.of_powered ?_ ?_ _ _; exact id; trivial
  | errForce => unfold exec execErrForce; exact Shape.of_live id _ _
  | severeClear => unfold exec execSevereClear; refine Shape.of_powered ?_ ?_ _ _; exact id; trivial
  | firstRelease => unfold exec execFirstRelease; exact Shape.of_live id _ _
  | roleInChange => unfold exec execRoleInChange; exact Shape.of_live id _ _
  | roleYield => unfold exec execRoleYield; exact Shape.of_live id _ _
  | mateHandshakeMessage => unfold exec execMateHandshakeMessage; exact Shape.of_live id _ _
  | mateFrameReceive => unfold exec execMateFrameReceive; exact Shape.of_live id _ _
  | linkRekeyDue => unfold exec execLinkRekeyDue; exact Shape.of_live id _ _
  | pairResync => unfold exec execPairResync; exact Shape.of_live id _ _
  | pairRekeyNow => unfold exec execPairRekeyNow; exact Shape.of_live id _ _
  | powerOnSequence => unfold exec execPowerOnSequence; refine Shape.of_always ?_ _ _; trivial
  | perstDeassert => unfold exec execPerstDeassert; exact Shape.of_live id _ _
  | porAssert => unfold exec execPorAssert; refine Shape.of_always ?_ _ _; trivial
  | powerCycle => unfold exec execPowerCycle; refine Shape.of_always ?_ _ _; trivial
  | supplyLoss => unfold exec execSupplyLoss; refine Shape.of_always ?_ _ _; trivial
  | vbatLoss => unfold exec execVbatLoss; refine Shape.of_always ?_ _ _; trivial
  | lcAdvance => unfold exec execLcAdvance; exact Shape.of_live id _ _
  | readId => unfold exec execReadId; exact Shape.of_live id _ _
  | writeRootHash => unfold exec execWriteRootHash; exact Shape.of_live id _ _
  | writeImageKey => unfold exec execWriteImageKey; exact Shape.of_live id _ _
  | revokeImageKey => unfold exec execRevokeImageKey; exact Shape.of_live id _ _
  | writeSubsys => unfold exec execWriteSubsys; exact Shape.of_live id _ _
  | logAppend => unfold exec execLogAppend; exact Shape.of_live id _ _
  | logbookAppend => unfold exec execLogbookAppend; refine Shape.of_powered ?_ ?_ _ _; exact id; trivial
  | tamperSample => unfold exec execTamperSample; refine Shape.of_always ?_ _ _; trivial
  | tamperFastDetect => unfold exec execTamperFastDetect; refine Shape.of_always ?_ _ _; trivial
  | tampFuse => unfold exec execTampFuse; exact Shape.of_live id _ _
  | tampTest => unfold exec execTampTest; exact Shape.of_live id _ _
  | tampTestEnd => unfold exec execTampTestEnd; exact Shape.of_live id _ _
  | rtcSet => unfold exec execRtcSet; exact Shape.of_live id _ _
  | tapInstruction => unfold exec execTapInstruction; exact Shape.of_live id _ _
  | dapaccAccess => unfold exec execDapaccAccess; exact Shape.of_live id _ _
  | tokenFifoWrite => unfold exec execTokenFifoWrite; exact Shape.of_live id _ _
  | tokenSubmit => unfold exec execTokenSubmit; exact Shape.of_live id _ _
  | dbgRelock => unfold exec execDbgRelock; exact Shape.of_live id _ _
  | chalNew => unfold exec execChalNew; exact Shape.of_live id _ _
  | unlockExpiry => unfold exec execUnlockExpiry; exact Shape.of_live id _ _
  | linkBringupStart => unfold exec execLinkBringupStart; exact Shape.of_live id _ _
  | trainingBlockReceive => unfold exec execTrainingBlockReceive; exact Shape.of_live id _ _
  | stepSwitch => unfold exec execStepSwitch; exact Shape.of_live id _ _
  | highRateTrainingDone => unfold exec execHighRateTrainingDone; exact Shape.of_live id _ _
  | stepTimeout => unfold exec execStepTimeout; exact Shape.of_live id _ _
  | mateCodewordReceive => unfold exec execMateCodewordReceive; exact Shape.of_live id _ _
  | fastExit => unfold exec execFastExit; exact Shape.of_live id _ _
  | laneLockLoss => unfold exec execLaneLockLoss; exact Shape.of_live id _ _
  | prbsCtlWrite => unfold exec execPrbsCtlWrite; exact Shape.of_live id _ _
  | injOne => unfold exec execInjOne; exact Shape.of_live id _ _
  | adaptUpdate => unfold exec execAdaptUpdate; exact Shape.of_live id _ _
  | adaptRead => unfold exec execAdaptRead; exact Shape.of_live id _ _
  | adaptReseed => unfold exec execAdaptReseed; exact Shape.of_live id _ _
  | adaptRetrain => unfold exec execAdaptRetrain; exact Shape.of_live id _ _
  | pcieLinkUp => unfold exec execPcieLinkUp; exact Shape.of_live id _ _
  | electricalIdleDetect => unfold exec execElectricalIdleDetect; exact Shape.of_live id _ _
  | idleKeepExpiry => unfold exec execIdleKeepExpiry; exact Shape.of_live id _ _
  | lanePllRelock => unfold exec execLanePllRelock; exact Shape.of_live id _ _
  | prbsCheck => unfold exec execPrbsCheck; exact Shape.of_live id _ _

/-- Every command's outcome is one of the two. -/
theorem exec_own (c : Instr) (s : State) : Own s (exec c s) := by
  obtain ⟨f, ⟨_, h⟩ | ⟨_, _, h⟩ | ⟨_, h⟩⟩ := exec_shape c s <;> rw [h]
  · exact Own.of_always _ _
  · exact Own.of_powered _ _
  · exact Own.of_live _ _

/-! ## Settled vectors -/

theorem settleVec_routes (h : HifS) (now : List Nat) (v : Nat) : (h.settleVec now v).routes = h.routes := by
  unfold HifS.settleVec HifS.sendVec
  dsimp only
  split
  · rfl
  · split <;> rfl

theorem settleVec_self (h : HifS) (now : List Nat) (v : Nat) :
    ((h.settleVec now v).vecs.get ⟨false, false, true, false, 0⟩ v).req = now.contains v := by
  unfold HifS.settleVec HifS.sendVec
  dsimp only
  split
  · simp
  · split <;> simp

theorem settleVec_ne (h : HifS) (now : List Nat) {v w : Nat} (hne : w ≠ v) :
    (h.settleVec now v).vecs.get ⟨false, false, true, false, 0⟩ w = h.vecs.get ⟨false, false, true, false, 0⟩ w := by
  unfold HifS.settleVec HifS.sendVec
  dsimp only
  split
  · exact Tbl.get_set_ne _ _ _ hne _
  · split <;> exact Tbl.get_set_ne _ _ _ hne _

theorem settleAll_routes (l : List Nat) (h : HifS) (now : List Nat) :
    (l.foldl (fun h v => h.settleVec now v) h).routes = h.routes := by
  induction l generalizing h with
  | nil => rfl
  | cons v l ih => rw [List.foldl_cons, ih, settleVec_routes]

theorem settleAll_req (l : List Nat) (h : HifS) (now : List Nat) (v : Nat)
    (hv : v ∈ l ∨ (h.vecs.get ⟨false, false, true, false, 0⟩ v).req = true) (hn : v ∈ now) :
    ((l.foldl (fun h v => h.settleVec now v) h).vecs.get ⟨false, false, true, false, 0⟩ v).req = true := by
  induction l generalizing h with
  | nil => simpa using hv
  | cons w l ih =>
    rw [List.foldl_cons]
    apply ih
    by_cases hw : v = w
    · subst hw
      exact .inr (by rw [settleVec_self]; simpa using hn)
    · rcases hv with hv | hv
      · exact .inl (by simpa [hw] using hv)
      · exact .inr (by rw [settleVec_ne _ _ hw]; exact hv)

theorem settle_levelVecs (t : State) : t.settle.levelVecs = t.levelVecs := by
  unfold State.levelVecs State.settle
  simp only [HifS.route, settleAll_routes, State.level, State.reg, State.rd]
  rfl

theorem settle_levelsSeen (t : State) : LevelsSeen t.settle := by
  intro v hv
  rw [settle_levelVecs] at hv
  have hm : v ∈ t.levelVecs ++ t.hif.ringVecs := List.mem_append_left _ hv
  exact settleAll_req _ _ _ v (.inl (List.mem_eraseDups.2 (List.mem_append_left _ hm))) hm

/-- After a command's effect no routed level is missed. -/
theorem done_levelsSeen (s t : State) : LevelsSeen (s.done t) := fun v hv => settle_levelsSeen t v hv

end Sys2Proof.Laws
end

