-- ==== Sys2Proof/Laws/State.lean ====
section
/-! SUPPORT. What each update of the state leaves alone: one lemma a field and update, true by unfolding; the registers through the
updates of other fields; and what an update's own reading gives. -/

namespace Sys2Proof.Laws

open Sys2Proof.Machine

/-! ## `State.wr` -/

@[simp] theorem wr_part (s : State) (k : Nat) (v : Word) : (s.wr k v).part = s.part := rfl
@[simp] theorem wr_pending (s : State) (k : Nat) (v : Word) : (s.wr k v).pending = s.pending := rfl
@[simp] theorem wr_seen (s : State) (k : Nat) (v : Word) : (s.wr k v).seen = s.seen := rfl
@[simp] theorem wr_rwo (s : State) (k : Nat) (v : Word) : (s.wr k v).rwo = s.rwo := rfl
@[simp] theorem wr_pr (s : State) (k : Nat) (v : Word) : (s.wr k v).pr = s.pr := rfl
@[simp] theorem wr_fresh (s : State) (k : Nat) (v : Word) : (s.wr k v).fresh = s.fresh := rfl
@[simp] theorem wr_halted (s : State) (k : Nat) (v : Word) : (s.wr k v).halted = s.halted := rfl
@[simp] theorem wr_bin (s : State) (k : Nat) (v : Word) : (s.wr k v).bin = s.bin := rfl
@[simp] theorem wr_hif (s : State) (k : Nat) (v : Word) : (s.wr k v).hif = s.hif := rfl
@[simp] theorem wr_crc (s : State) (k : Nat) (v : Word) : (s.wr k v).crc = s.crc := rfl
@[simp] theorem wr_pmc (s : State) (k : Nat) (v : Word) : (s.wr k v).pmc = s.pmc := rfl
@[simp] theorem wr_lcs (s : State) (k : Nat) (v : Word) : (s.wr k v).lcs = s.lcs := rfl
@[simp] theorem wr_tm (s : State) (k : Nat) (v : Word) : (s.wr k v).tm = s.tm := rfl
@[simp] theorem wr_deadline (s : State) (k : Nat) (v : Word) : (s.wr k v).deadline = s.deadline := rfl
@[simp] theorem wr_tickWork (s : State) (k : Nat) (v : Word) : (s.wr k v).tickWork = s.tickWork := rfl
@[simp] theorem wr_ttx (s : State) (k : Nat) (v : Word) : (s.wr k v).ttx = s.ttx := rfl
@[simp] theorem wr_terms (s : State) (k : Nat) (v : Word) : (s.wr k v).terms = s.terms := rfl
@[simp] theorem wr_sxt (s : State) (k : Nat) (v : Word) : (s.wr k v).sxt = s.sxt := rfl
@[simp] theorem wr_tsi (s : State) (k : Nat) (v : Word) : (s.wr k v).tsi = s.tsi := rfl
@[simp] theorem wr_alm (s : State) (k : Nat) (v : Word) : (s.wr k v).alm = s.alm := rfl
@[simp] theorem wr_ciph (s : State) (k : Nat) (v : Word) : (s.wr k v).ciph = s.ciph := rfl
@[simp] theorem wr_orr (s : State) (k : Nat) (v : Word) : (s.wr k v).orr = s.orr := rfl
@[simp] theorem wr_trx (s : State) (k : Nat) (v : Word) : (s.wr k v).trx = s.trx := rfl
@[simp] theorem wr_fwdIn (s : State) (k : Nat) (v : Word) : (s.wr k v).fwdIn = s.fwdIn := rfl
@[simp] theorem wr_pair (s : State) (k : Nat) (v : Word) : (s.wr k v).pair = s.pair := rfl
@[simp] theorem wr_ka (s : State) (k : Nat) (v : Word) : (s.wr k v).ka = s.ka := rfl
@[simp] theorem wr_msec (s : State) (k : Nat) (v : Word) : (s.wr k v).msec = s.msec := rfl
@[simp] theorem wr_sent (s : State) (k : Nat) (v : Word) : (s.wr k v).sent = s.sent := rfl
@[simp] theorem wr_mail (s : State) (k : Nat) (v : Word) : (s.wr k v).mail = s.mail := rfl
@[simp] theorem wr_navIn (s : State) (k : Nat) (v : Word) : (s.wr k v).navIn = s.navIn := rfl
@[simp] theorem wr_injDone (s : State) (k : Nat) (v : Word) : (s.wr k v).injDone = s.injDone := rfl
@[simp] theorem wr_fwd (s : State) (k : Nat) (v : Word) : (s.wr k v).fwd = s.fwd := rfl
@[simp] theorem wr_xin (s : State) (k : Nat) (v : Word) : (s.wr k v).xin = s.xin := rfl
@[simp] theorem wr_qin (s : State) (k : Nat) (v : Word) : (s.wr k v).qin = s.qin := rfl
@[simp] theorem wr_hostIn (s : State) (k : Nat) (v : Word) : (s.wr k v).hostIn = s.hostIn := rfl
@[simp] theorem wr_qsch (s : State) (k : Nat) (v : Word) : (s.wr k v).qsch = s.qsch := rfl
@[simp] theorem wr_buf (s : State) (k : Nat) (v : Word) : (s.wr k v).buf = s.buf := rfl
@[simp] theorem wr_gate (s : State) (k : Nat) (v : Word) : (s.wr k v).gate = s.gate := rfl
@[simp] theorem wr_ckt (s : State) (k : Nat) (v : Word) : (s.wr k v).ckt = s.ckt := rfl
@[simp] theorem wr_ages (s : State) (k : Nat) (v : Word) : (s.wr k v).ages = s.ages := rfl
@[simp] theorem wr_ovrAt (s : State) (k : Nat) (v : Word) : (s.wr k v).ovrAt = s.ovrAt := rfl
@[simp] theorem wr_nav (s : State) (k : Nat) (v : Word) : (s.wr k v).nav = s.nav := rfl
@[simp] theorem wr_navc (s : State) (k : Nat) (v : Word) : (s.wr k v).navc = s.navc := rfl
@[simp] theorem wr_nmem (s : State) (k : Nat) (v : Word) : (s.wr k v).nmem = s.nmem := rfl
@[simp] theorem wr_nbad (s : State) (k : Nat) (v : Word) : (s.wr k v).nbad = s.nbad := rfl
@[simp] theorem wr_posts (s : State) (k : Nat) (v : Word) : (s.wr k v).posts = s.posts := rfl
@[simp] theorem wr_qmap (s : State) (k : Nat) (v : Word) : (s.wr k v).qmap = s.qmap := rfl
@[simp] theorem wr_qhold (s : State) (k : Nat) (v : Word) : (s.wr k v).qhold = s.qhold := rfl
@[simp] theorem wr_sealS (s : State) (k : Nat) (v : Word) : (s.wr k v).sealS = s.sealS := rfl
@[simp] theorem wr_ser (s : State) (k : Nat) (v : Word) : (s.wr k v).ser = s.ser := rfl
@[simp] theorem wr_present (s : State) (k : Nat) (v : Word) (q z : Nat) : (s.wr k v).present q z = s.present q z := rfl
@[simp] theorem wr_off (s : State) (k : Nat) (v : Word) : (s.wr k v).off = s.off := rfl
@[simp] theorem wr_tick (s : State) (k : Nat) (v : Word) : (s.wr k v).tick = s.tick := rfl

/-! ## `State.setReg` -/

@[simp] theorem setReg_part (s : State) (r : RegId) (i v : Nat) : (s.setReg r i v).part = s.part := rfl
@[simp] theorem setReg_pending (s : State) (r : RegId) (i v : Nat) : (s.setReg r i v).pending = s.pending := rfl
@[simp] theorem setReg_seen (s : State) (r : RegId) (i v : Nat) : (s.setReg r i v).seen = s.seen := rfl
@[simp] theorem setReg_rwo (s : State) (r : RegId) (i v : Nat) : (s.setReg r i v).rwo = s.rwo := rfl
@[simp] theorem setReg_pr (s : State) (r : RegId) (i v : Nat) : (s.setReg r i v).pr = s.pr := rfl
@[simp] theorem setReg_fresh (s : State) (r : RegId) (i v : Nat) : (s.setReg r i v).fresh = s.fresh := rfl
@[simp] theorem setReg_halted (s : State) (r : RegId) (i v : Nat) : (s.setReg r i v).halted = s.halted := rfl
@[simp] theorem setReg_bin (s : State) (r : RegId) (i v : Nat) : (s.setReg r i v).bin = s.bin := rfl
@[simp] theorem setReg_hif (s : State) (r : RegId) (i v : Nat) : (s.setReg r i v).hif = s.hif := rfl
@[simp] theorem setReg_crc (s : State) (r : RegId) (i v : Nat) : (s.setReg r i v).crc = s.crc := rfl
@[simp] theorem setReg_pmc (s : State) (r : RegId) (i v : Nat) : (s.setReg r i v).pmc = s.pmc := rfl
@[simp] theorem setReg_lcs (s : State) (r : RegId) (i v : Nat) : (s.setReg r i v).lcs = s.lcs := rfl
@[simp] theorem setReg_tm (s : State) (r : RegId) (i v : Nat) : (s.setReg r i v).tm = s.tm := rfl
@[simp] theorem setReg_deadline (s : State) (r : RegId) (i v : Nat) : (s.setReg r i v).deadline = s.deadline := rfl
@[simp] theorem setReg_tickWork (s : State) (r : RegId) (i v : Nat) : (s.setReg r i v).tickWork = s.tickWork := rfl
@[simp] theorem setReg_ttx (s : State) (r : RegId) (i v : Nat) : (s.setReg r i v).ttx = s.ttx := rfl
@[simp] theorem setReg_terms (s : State) (r : RegId) (i v : Nat) : (s.setReg r i v).terms = s.terms := rfl
@[simp] theorem setReg_sxt (s : State) (r : RegId) (i v : Nat) : (s.setReg r i v).sxt = s.sxt := rfl
@[simp] theorem setReg_tsi (s : State) (r : RegId) (i v : Nat) : (s.setReg r i v).tsi = s.tsi := rfl
@[simp] theorem setReg_alm (s : State) (r : RegId) (i v : Nat) : (s.setReg r i v).alm = s.alm := rfl
@[simp] theorem setReg_ciph (s : State) (r : RegId) (i v : Nat) : (s.setReg r i v).ciph = s.ciph := rfl
@[simp] theorem setReg_orr (s : State) (r : RegId) (i v : Nat) : (s.setReg r i v).orr = s.orr := rfl
@[simp] theorem setReg_trx (s : State) (r : RegId) (i v : Nat) : (s.setReg r i v).trx = s.trx := rfl
@[simp] theorem setReg_fwdIn (s : State) (r : RegId) (i v : Nat) : (s.setReg r i v).fwdIn = s.fwdIn := rfl
@[simp] theorem setReg_pair (s : State) (r : RegId) (i v : Nat) : (s.setReg r i v).pair = s.pair := rfl
@[simp] theorem setReg_ka (s : State) (r : RegId) (i v : Nat) : (s.setReg r i v).ka = s.ka := rfl
@[simp] theorem setReg_msec (s : State) (r : RegId) (i v : Nat) : (s.setReg r i v).msec = s.msec := rfl
@[simp] theorem setReg_sent (s : State) (r : RegId) (i v : Nat) : (s.setReg r i v).sent = s.sent := rfl
@[simp] theorem setReg_mail (s : State) (r : RegId) (i v : Nat) : (s.setReg r i v).mail = s.mail := rfl
@[simp] theorem setReg_navIn (s : State) (r : RegId) (i v : Nat) : (s.setReg r i v).navIn = s.navIn := rfl
@[simp] theorem setReg_injDone (s : State) (r : RegId) (i v : Nat) : (s.setReg r i v).injDone = s.injDone := rfl
@[simp] theorem setReg_fwd (s : State) (r : RegId) (i v : Nat) : (s.setReg r i v).fwd = s.fwd := rfl
@[simp] theorem setReg_xin (s : State) (r : RegId) (i v : Nat) : (s.setReg r i v).xin = s.xin := rfl
@[simp] theorem setReg_qin (s : State) (r : RegId) (i v : Nat) : (s.setReg r i v).qin = s.qin := rfl
@[simp] theorem setReg_hostIn (s : State) (r : RegId) (i v : Nat) : (s.setReg r i v).hostIn = s.hostIn := rfl
@[simp] theorem setReg_qsch (s : State) (r : RegId) (i v : Nat) : (s.setReg r i v).qsch = s.qsch := rfl
@[simp] theorem setReg_buf (s : State) (r : RegId) (i v : Nat) : (s.setReg r i v).buf = s.buf := rfl
@[simp] theorem setReg_gate (s : State) (r : RegId) (i v : Nat) : (s.setReg r i v).gate = s.gate := rfl
@[simp] theorem setReg_ckt (s : State) (r : RegId) (i v : Nat) : (s.setReg r i v).ckt = s.ckt := rfl
@[simp] theorem setReg_ages (s : State) (r : RegId) (i v : Nat) : (s.setReg r i v).ages = s.ages := rfl
@[simp] theorem setReg_ovrAt (s : State) (r : RegId) (i v : Nat) : (s.setReg r i v).ovrAt = s.ovrAt := rfl
@[simp] theorem setReg_nav (s : State) (r : RegId) (i v : Nat) : (s.setReg r i v).nav = s.nav := rfl
@[simp] theorem setReg_navc (s : State) (r : RegId) (i v : Nat) : (s.setReg r i v).navc = s.navc := rfl
@[simp] theorem setReg_nmem (s : State) (r : RegId) (i v : Nat) : (s.setReg r i v).nmem = s.nmem := rfl
@[simp] theorem setReg_nbad (s : State) (r : RegId) (i v : Nat) : (s.setReg r i v).nbad = s.nbad := rfl
@[simp] theorem setReg_posts (s : State) (r : RegId) (i v : Nat) : (s.setReg r i v).posts = s.posts := rfl
@[simp] theorem setReg_qmap (s : State) (r : RegId) (i v : Nat) : (s.setReg r i v).qmap = s.qmap := rfl
@[simp] theorem setReg_qhold (s : State) (r : RegId) (i v : Nat) : (s.setReg r i v).qhold = s.qhold := rfl
@[simp] theorem setReg_sealS (s : State) (r : RegId) (i v : Nat) : (s.setReg r i v).sealS = s.sealS := rfl
@[simp] theorem setReg_ser (s : State) (r : RegId) (i v : Nat) : (s.setReg r i v).ser = s.ser := rfl
@[simp] theorem setReg_present (s : State) (r : RegId) (i v : Nat) (q z : Nat) : (s.setReg r i v).present q z = s.present q z := rfl
@[simp] theorem setReg_off (s : State) (r : RegId) (i v : Nat) : (s.setReg r i v).off = s.off := rfl
@[simp] theorem setReg_tick (s : State) (r : RegId) (i v : Nat) : (s.setReg r i v).tick = s.tick := rfl

/-! ## `State.setRegI` -/

@[simp] theorem setRegI_part (s : State) (r : RegId) (i j v : Nat) : (s.setRegI r i j v).part = s.part := rfl
@[simp] theorem setRegI_pending (s : State) (r : RegId) (i j v : Nat) : (s.setRegI r i j v).pending = s.pending := rfl
@[simp] theorem setRegI_seen (s : State) (r : RegId) (i j v : Nat) : (s.setRegI r i j v).seen = s.seen := rfl
@[simp] theorem setRegI_rwo (s : State) (r : RegId) (i j v : Nat) : (s.setRegI r i j v).rwo = s.rwo := rfl
@[simp] theorem setRegI_pr (s : State) (r : RegId) (i j v : Nat) : (s.setRegI r i j v).pr = s.pr := rfl
@[simp] theorem setRegI_fresh (s : State) (r : RegId) (i j v : Nat) : (s.setRegI r i j v).fresh = s.fresh := rfl
@[simp] theorem setRegI_halted (s : State) (r : RegId) (i j v : Nat) : (s.setRegI r i j v).halted = s.halted := rfl
@[simp] theorem setRegI_bin (s : State) (r : RegId) (i j v : Nat) : (s.setRegI r i j v).bin = s.bin := rfl
@[simp] theorem setRegI_hif (s : State) (r : RegId) (i j v : Nat) : (s.setRegI r i j v).hif = s.hif := rfl
@[simp] theorem setRegI_crc (s : State) (r : RegId) (i j v : Nat) : (s.setRegI r i j v).crc = s.crc := rfl
@[simp] theorem setRegI_pmc (s : State) (r : RegId) (i j v : Nat) : (s.setRegI r i j v).pmc = s.pmc := rfl
@[simp] theorem setRegI_lcs (s : State) (r : RegId) (i j v : Nat) : (s.setRegI r i j v).lcs = s.lcs := rfl
@[simp] theorem setRegI_tm (s : State) (r : RegId) (i j v : Nat) : (s.setRegI r i j v).tm = s.tm := rfl
@[simp] theorem setRegI_deadline (s : State) (r : RegId) (i j v : Nat) : (s.setRegI r i j v).deadline = s.deadline := rfl
@[simp] theorem setRegI_tickWork (s : State) (r : RegId) (i j v : Nat) : (s.setRegI r i j v).tickWork = s.tickWork := rfl
@[simp] theorem setRegI_ttx (s : State) (r : RegId) (i j v : Nat) : (s.setRegI r i j v).ttx = s.ttx := rfl
@[simp] theorem setRegI_terms (s : State) (r : RegId) (i j v : Nat) : (s.setRegI r i j v).terms = s.terms := rfl
@[simp] theorem setRegI_sxt (s : State) (r : RegId) (i j v : Nat) : (s.setRegI r i j v).sxt = s.sxt := rfl
@[simp] theorem setRegI_tsi (s : State) (r : RegId) (i j v : Nat) : (s.setRegI r i j v).tsi = s.tsi := rfl
@[simp] theorem setRegI_alm (s : State) (r : RegId) (i j v : Nat) : (s.setRegI r i j v).alm = s.alm := rfl
@[simp] theorem setRegI_ciph (s : State) (r : RegId) (i j v : Nat) : (s.setRegI r i j v).ciph = s.ciph := rfl
@[simp] theorem setRegI_orr (s : State) (r : RegId) (i j v : Nat) : (s.setRegI r i j v).orr = s.orr := rfl
@[simp] theorem setRegI_trx (s : State) (r : RegId) (i j v : Nat) : (s.setRegI r i j v).trx = s.trx := rfl
@[simp] theorem setRegI_fwdIn (s : State) (r : RegId) (i j v : Nat) : (s.setRegI r i j v).fwdIn = s.fwdIn := rfl
@[simp] theorem setRegI_pair (s : State) (r : RegId) (i j v : Nat) : (s.setRegI r i j v).pair = s.pair := rfl
@[simp] theorem setRegI_ka (s : State) (r : RegId) (i j v : Nat) : (s.setRegI r i j v).ka = s.ka := rfl
@[simp] theorem setRegI_msec (s : State) (r : RegId) (i j v : Nat) : (s.setRegI r i j v).msec = s.msec := rfl
@[simp] theorem setRegI_sent (s : State) (r : RegId) (i j v : Nat) : (s.setRegI r i j v).sent = s.sent := rfl
@[simp] theorem setRegI_mail (s : State) (r : RegId) (i j v : Nat) : (s.setRegI r i j v).mail = s.mail := rfl
@[simp] theorem setRegI_navIn (s : State) (r : RegId) (i j v : Nat) : (s.setRegI r i j v).navIn = s.navIn := rfl
@[simp] theorem setRegI_injDone (s : State) (r : RegId) (i j v : Nat) : (s.setRegI r i j v).injDone = s.injDone := rfl
@[simp] theorem setRegI_fwd (s : State) (r : RegId) (i j v : Nat) : (s.setRegI r i j v).fwd = s.fwd := rfl
@[simp] theorem setRegI_xin (s : State) (r : RegId) (i j v : Nat) : (s.setRegI r i j v).xin = s.xin := rfl
@[simp] theorem setRegI_qin (s : State) (r : RegId) (i j v : Nat) : (s.setRegI r i j v).qin = s.qin := rfl
@[simp] theorem setRegI_hostIn (s : State) (r : RegId) (i j v : Nat) : (s.setRegI r i j v).hostIn = s.hostIn := rfl
@[simp] theorem setRegI_qsch (s : State) (r : RegId) (i j v : Nat) : (s.setRegI r i j v).qsch = s.qsch := rfl
@[simp] theorem setRegI_buf (s : State) (r : RegId) (i j v : Nat) : (s.setRegI r i j v).buf = s.buf := rfl
@[simp] theorem setRegI_gate (s : State) (r : RegId) (i j v : Nat) : (s.setRegI r i j v).gate = s.gate := rfl
@[simp] theorem setRegI_ckt (s : State) (r : RegId) (i j v : Nat) : (s.setRegI r i j v).ckt = s.ckt := rfl
@[simp] theorem setRegI_ages (s : State) (r : RegId) (i j v : Nat) : (s.setRegI r i j v).ages = s.ages := rfl
@[simp] theorem setRegI_ovrAt (s : State) (r : RegId) (i j v : Nat) : (s.setRegI r i j v).ovrAt = s.ovrAt := rfl
@[simp] theorem setRegI_nav (s : State) (r : RegId) (i j v : Nat) : (s.setRegI r i j v).nav = s.nav := rfl
@[simp] theorem setRegI_navc (s : State) (r : RegId) (i j v : Nat) : (s.setRegI r i j v).navc = s.navc := rfl
@[simp] theorem setRegI_nmem (s : State) (r : RegId) (i j v : Nat) : (s.setRegI r i j v).nmem = s.nmem := rfl
@[simp] theorem setRegI_nbad (s : State) (r : RegId) (i j v : Nat) : (s.setRegI r i j v).nbad = s.nbad := rfl
@[simp] theorem setRegI_posts (s : State) (r : RegId) (i j v : Nat) : (s.setRegI r i j v).posts = s.posts := rfl
@[simp] theorem setRegI_qmap (s : State) (r : RegId) (i j v : Nat) : (s.setRegI r i j v).qmap = s.qmap := rfl
@[simp] theorem setRegI_qhold (s : State) (r : RegId) (i j v : Nat) : (s.setRegI r i j v).qhold = s.qhold := rfl
@[simp] theorem setRegI_sealS (s : State) (r : RegId) (i j v : Nat) : (s.setRegI r i j v).sealS = s.sealS := rfl
@[simp] theorem setRegI_ser (s : State) (r : RegId) (i j v : Nat) : (s.setRegI r i j v).ser = s.ser := rfl
@[simp] theorem setRegI_present (s : State) (r : RegId) (i j v : Nat) (q z : Nat) : (s.setRegI r i j v).present q z = s.present q z := rfl
@[simp] theorem setRegI_off (s : State) (r : RegId) (i j v : Nat) : (s.setRegI r i j v).off = s.off := rfl
@[simp] theorem setRegI_tick (s : State) (r : RegId) (i j v : Nat) : (s.setRegI r i j v).tick = s.tick := rfl

/-! ## `State.setFld` -/

@[simp] theorem setFld_part (s : State) (f : FldId) (i v d : Nat) : (s.setFld f i v d).part = s.part := rfl
@[simp] theorem setFld_pending (s : State) (f : FldId) (i v d : Nat) : (s.setFld f i v d).pending = s.pending := rfl
@[simp] theorem setFld_seen (s : State) (f : FldId) (i v d : Nat) : (s.setFld f i v d).seen = s.seen := rfl
@[simp] theorem setFld_rwo (s : State) (f : FldId) (i v d : Nat) : (s.setFld f i v d).rwo = s.rwo := rfl
@[simp] theorem setFld_pr (s : State) (f : FldId) (i v d : Nat) : (s.setFld f i v d).pr = s.pr := rfl
@[simp] theorem setFld_fresh (s : State) (f : FldId) (i v d : Nat) : (s.setFld f i v d).fresh = s.fresh := rfl
@[simp] theorem setFld_halted (s : State) (f : FldId) (i v d : Nat) : (s.setFld f i v d).halted = s.halted := rfl
@[simp] theorem setFld_bin (s : State) (f : FldId) (i v d : Nat) : (s.setFld f i v d).bin = s.bin := rfl
@[simp] theorem setFld_hif (s : State) (f : FldId) (i v d : Nat) : (s.setFld f i v d).hif = s.hif := rfl
@[simp] theorem setFld_crc (s : State) (f : FldId) (i v d : Nat) : (s.setFld f i v d).crc = s.crc := rfl
@[simp] theorem setFld_pmc (s : State) (f : FldId) (i v d : Nat) : (s.setFld f i v d).pmc = s.pmc := rfl
@[simp] theorem setFld_lcs (s : State) (f : FldId) (i v d : Nat) : (s.setFld f i v d).lcs = s.lcs := rfl
@[simp] theorem setFld_tm (s : State) (f : FldId) (i v d : Nat) : (s.setFld f i v d).tm = s.tm := rfl
@[simp] theorem setFld_deadline (s : State) (f : FldId) (i v d : Nat) : (s.setFld f i v d).deadline = s.deadline := rfl
@[simp] theorem setFld_tickWork (s : State) (f : FldId) (i v d : Nat) : (s.setFld f i v d).tickWork = s.tickWork := rfl
@[simp] theorem setFld_ttx (s : State) (f : FldId) (i v d : Nat) : (s.setFld f i v d).ttx = s.ttx := rfl
@[simp] theorem setFld_terms (s : State) (f : FldId) (i v d : Nat) : (s.setFld f i v d).terms = s.terms := rfl
@[simp] theorem setFld_sxt (s : State) (f : FldId) (i v d : Nat) : (s.setFld f i v d).sxt = s.sxt := rfl
@[simp] theorem setFld_tsi (s : State) (f : FldId) (i v d : Nat) : (s.setFld f i v d).tsi = s.tsi := rfl
@[simp] theorem setFld_alm (s : State) (f : FldId) (i v d : Nat) : (s.setFld f i v d).alm = s.alm := rfl
@[simp] theorem setFld_ciph (s : State) (f : FldId) (i v d : Nat) : (s.setFld f i v d).ciph = s.ciph := rfl
@[simp] theorem setFld_orr (s : State) (f : FldId) (i v d : Nat) : (s.setFld f i v d).orr = s.orr := rfl
@[simp] theorem setFld_trx (s : State) (f : FldId) (i v d : Nat) : (s.setFld f i v d).trx = s.trx := rfl
@[simp] theorem setFld_fwdIn (s : State) (f : FldId) (i v d : Nat) : (s.setFld f i v d).fwdIn = s.fwdIn := rfl
@[simp] theorem setFld_pair (s : State) (f : FldId) (i v d : Nat) : (s.setFld f i v d).pair = s.pair := rfl
@[simp] theorem setFld_ka (s : State) (f : FldId) (i v d : Nat) : (s.setFld f i v d).ka = s.ka := rfl
@[simp] theorem setFld_msec (s : State) (f : FldId) (i v d : Nat) : (s.setFld f i v d).msec = s.msec := rfl
@[simp] theorem setFld_sent (s : State) (f : FldId) (i v d : Nat) : (s.setFld f i v d).sent = s.sent := rfl
@[simp] theorem setFld_mail (s : State) (f : FldId) (i v d : Nat) : (s.setFld f i v d).mail = s.mail := rfl
@[simp] theorem setFld_navIn (s : State) (f : FldId) (i v d : Nat) : (s.setFld f i v d).navIn = s.navIn := rfl
@[simp] theorem setFld_injDone (s : State) (f : FldId) (i v d : Nat) : (s.setFld f i v d).injDone = s.injDone := rfl
@[simp] theorem setFld_fwd (s : State) (f : FldId) (i v d : Nat) : (s.setFld f i v d).fwd = s.fwd := rfl
@[simp] theorem setFld_xin (s : State) (f : FldId) (i v d : Nat) : (s.setFld f i v d).xin = s.xin := rfl
@[simp] theorem setFld_qin (s : State) (f : FldId) (i v d : Nat) : (s.setFld f i v d).qin = s.qin := rfl
@[simp] theorem setFld_hostIn (s : State) (f : FldId) (i v d : Nat) : (s.setFld f i v d).hostIn = s.hostIn := rfl
@[simp] theorem setFld_qsch (s : State) (f : FldId) (i v d : Nat) : (s.setFld f i v d).qsch = s.qsch := rfl
@[simp] theorem setFld_buf (s : State) (f : FldId) (i v d : Nat) : (s.setFld f i v d).buf = s.buf := rfl
@[simp] theorem setFld_gate (s : State) (f : FldId) (i v d : Nat) : (s.setFld f i v d).gate = s.gate := rfl
@[simp] theorem setFld_ckt (s : State) (f : FldId) (i v d : Nat) : (s.setFld f i v d).ckt = s.ckt := rfl
@[simp] theorem setFld_ages (s : State) (f : FldId) (i v d : Nat) : (s.setFld f i v d).ages = s.ages := rfl
@[simp] theorem setFld_ovrAt (s : State) (f : FldId) (i v d : Nat) : (s.setFld f i v d).ovrAt = s.ovrAt := rfl
@[simp] theorem setFld_nav (s : State) (f : FldId) (i v d : Nat) : (s.setFld f i v d).nav = s.nav := rfl
@[simp] theorem setFld_navc (s : State) (f : FldId) (i v d : Nat) : (s.setFld f i v d).navc = s.navc := rfl
@[simp] theorem setFld_nmem (s : State) (f : FldId) (i v d : Nat) : (s.setFld f i v d).nmem = s.nmem := rfl
@[simp] theorem setFld_nbad (s : State) (f : FldId) (i v d : Nat) : (s.setFld f i v d).nbad = s.nbad := rfl
@[simp] theorem setFld_posts (s : State) (f : FldId) (i v d : Nat) : (s.setFld f i v d).posts = s.posts := rfl
@[simp] theorem setFld_qmap (s : State) (f : FldId) (i v d : Nat) : (s.setFld f i v d).qmap = s.qmap := rfl
@[simp] theorem setFld_qhold (s : State) (f : FldId) (i v d : Nat) : (s.setFld f i v d).qhold = s.qhold := rfl
@[simp] theorem setFld_sealS (s : State) (f : FldId) (i v d : Nat) : (s.setFld f i v d).sealS = s.sealS := rfl
@[simp] theorem setFld_ser (s : State) (f : FldId) (i v d : Nat) : (s.setFld f i v d).ser = s.ser := rfl
@[simp] theorem setFld_present (s : State) (f : FldId) (i v d : Nat) (q z : Nat) : (s.setFld f i v d).present q z = s.present q z := rfl
@[simp] theorem setFld_off (s : State) (f : FldId) (i v d : Nat) : (s.setFld f i v d).off = s.off := rfl
@[simp] theorem setFld_tick (s : State) (f : FldId) (i v d : Nat) : (s.setFld f i v d).tick = s.tick := rfl

/-! ## `State.setFlag` -/

@[simp] theorem setFlag_part (s : State) (f : FldId) (i : Nat) (b : Bool) (d : Nat) : (s.setFlag f i b d).part = s.part := rfl
@[simp] theorem setFlag_pending (s : State) (f : FldId) (i : Nat) (b : Bool) (d : Nat) : (s.setFlag f i b d).pending = s.pending := rfl
@[simp] theorem setFlag_seen (s : State) (f : FldId) (i : Nat) (b : Bool) (d : Nat) : (s.setFlag f i b d).seen = s.seen := rfl
@[simp] theorem setFlag_rwo (s : State) (f : FldId) (i : Nat) (b : Bool) (d : Nat) : (s.setFlag f i b d).rwo = s.rwo := rfl
@[simp] theorem setFlag_pr (s : State) (f : FldId) (i : Nat) (b : Bool) (d : Nat) : (s.setFlag f i b d).pr = s.pr := rfl
@[simp] theorem setFlag_fresh (s : State) (f : FldId) (i : Nat) (b : Bool) (d : Nat) : (s.setFlag f i b d).fresh = s.fresh := rfl
@[simp] theorem setFlag_halted (s : State) (f : FldId) (i : Nat) (b : Bool) (d : Nat) : (s.setFlag f i b d).halted = s.halted := rfl
@[simp] theorem setFlag_bin (s : State) (f : FldId) (i : Nat) (b : Bool) (d : Nat) : (s.setFlag f i b d).bin = s.bin := rfl
@[simp] theorem setFlag_hif (s : State) (f : FldId) (i : Nat) (b : Bool) (d : Nat) : (s.setFlag f i b d).hif = s.hif := rfl
@[simp] theorem setFlag_crc (s : State) (f : FldId) (i : Nat) (b : Bool) (d : Nat) : (s.setFlag f i b d).crc = s.crc := rfl
@[simp] theorem setFlag_pmc (s : State) (f : FldId) (i : Nat) (b : Bool) (d : Nat) : (s.setFlag f i b d).pmc = s.pmc := rfl
@[simp] theorem setFlag_lcs (s : State) (f : FldId) (i : Nat) (b : Bool) (d : Nat) : (s.setFlag f i b d).lcs = s.lcs := rfl
@[simp] theorem setFlag_tm (s : State) (f : FldId) (i : Nat) (b : Bool) (d : Nat) : (s.setFlag f i b d).tm = s.tm := rfl
@[simp] theorem setFlag_deadline (s : State) (f : FldId) (i : Nat) (b : Bool) (d : Nat) : (s.setFlag f i b d).deadline = s.deadline := rfl
@[simp] theorem setFlag_tickWork (s : State) (f : FldId) (i : Nat) (b : Bool) (d : Nat) : (s.setFlag f i b d).tickWork = s.tickWork := rfl
@[simp] theorem setFlag_ttx (s : State) (f : FldId) (i : Nat) (b : Bool) (d : Nat) : (s.setFlag f i b d).ttx = s.ttx := rfl
@[simp] theorem setFlag_terms (s : State) (f : FldId) (i : Nat) (b : Bool) (d : Nat) : (s.setFlag f i b d).terms = s.terms := rfl
@[simp] theorem setFlag_sxt (s : State) (f : FldId) (i : Nat) (b : Bool) (d : Nat) : (s.setFlag f i b d).sxt = s.sxt := rfl
@[simp] theorem setFlag_tsi (s : State) (f : FldId) (i : Nat) (b : Bool) (d : Nat) : (s.setFlag f i b d).tsi = s.tsi := rfl
@[simp] theorem setFlag_alm (s : State) (f : FldId) (i : Nat) (b : Bool) (d : Nat) : (s.setFlag f i b d).alm = s.alm := rfl
@[simp] theorem setFlag_ciph (s : State) (f : FldId) (i : Nat) (b : Bool) (d : Nat) : (s.setFlag f i b d).ciph = s.ciph := rfl
@[simp] theorem setFlag_orr (s : State) (f : FldId) (i : Nat) (b : Bool) (d : Nat) : (s.setFlag f i b d).orr = s.orr := rfl
@[simp] theorem setFlag_trx (s : State) (f : FldId) (i : Nat) (b : Bool) (d : Nat) : (s.setFlag f i b d).trx = s.trx := rfl
@[simp] theorem setFlag_fwdIn (s : State) (f : FldId) (i : Nat) (b : Bool) (d : Nat) : (s.setFlag f i b d).fwdIn = s.fwdIn := rfl
@[simp] theorem setFlag_pair (s : State) (f : FldId) (i : Nat) (b : Bool) (d : Nat) : (s.setFlag f i b d).pair = s.pair := rfl
@[simp] theorem setFlag_ka (s : State) (f : FldId) (i : Nat) (b : Bool) (d : Nat) : (s.setFlag f i b d).ka = s.ka := rfl
@[simp] theorem setFlag_msec (s : State) (f : FldId) (i : Nat) (b : Bool) (d : Nat) : (s.setFlag f i b d).msec = s.msec := rfl
@[simp] theorem setFlag_sent (s : State) (f : FldId) (i : Nat) (b : Bool) (d : Nat) : (s.setFlag f i b d).sent = s.sent := rfl
@[simp] theorem setFlag_mail (s : State) (f : FldId) (i : Nat) (b : Bool) (d : Nat) : (s.setFlag f i b d).mail = s.mail := rfl
@[simp] theorem setFlag_navIn (s : State) (f : FldId) (i : Nat) (b : Bool) (d : Nat) : (s.setFlag f i b d).navIn = s.navIn := rfl
@[simp] theorem setFlag_injDone (s : State) (f : FldId) (i : Nat) (b : Bool) (d : Nat) : (s.setFlag f i b d).injDone = s.injDone := rfl
@[simp] theorem setFlag_fwd (s : State) (f : FldId) (i : Nat) (b : Bool) (d : Nat) : (s.setFlag f i b d).fwd = s.fwd := rfl
@[simp] theorem setFlag_xin (s : State) (f : FldId) (i : Nat) (b : Bool) (d : Nat) : (s.setFlag f i b d).xin = s.xin := rfl
@[simp] theorem setFlag_qin (s : State) (f : FldId) (i : Nat) (b : Bool) (d : Nat) : (s.setFlag f i b d).qin = s.qin := rfl
@[simp] theorem setFlag_hostIn (s : State) (f : FldId) (i : Nat) (b : Bool) (d : Nat) : (s.setFlag f i b d).hostIn = s.hostIn := rfl
@[simp] theorem setFlag_qsch (s : State) (f : FldId) (i : Nat) (b : Bool) (d : Nat) : (s.setFlag f i b d).qsch = s.qsch := rfl
@[simp] theorem setFlag_buf (s : State) (f : FldId) (i : Nat) (b : Bool) (d : Nat) : (s.setFlag f i b d).buf = s.buf := rfl
@[simp] theorem setFlag_gate (s : State) (f : FldId) (i : Nat) (b : Bool) (d : Nat) : (s.setFlag f i b d).gate = s.gate := rfl
@[simp] theorem setFlag_ckt (s : State) (f : FldId) (i : Nat) (b : Bool) (d : Nat) : (s.setFlag f i b d).ckt = s.ckt := rfl
@[simp] theorem setFlag_ages (s : State) (f : FldId) (i : Nat) (b : Bool) (d : Nat) : (s.setFlag f i b d).ages = s.ages := rfl
@[simp] theorem setFlag_ovrAt (s : State) (f : FldId) (i : Nat) (b : Bool) (d : Nat) : (s.setFlag f i b d).ovrAt = s.ovrAt := rfl
@[simp] theorem setFlag_nav (s : State) (f : FldId) (i : Nat) (b : Bool) (d : Nat) : (s.setFlag f i b d).nav = s.nav := rfl
@[simp] theorem setFlag_navc (s : State) (f : FldId) (i : Nat) (b : Bool) (d : Nat) : (s.setFlag f i b d).navc = s.navc := rfl
@[simp] theorem setFlag_nmem (s : State) (f : FldId) (i : Nat) (b : Bool) (d : Nat) : (s.setFlag f i b d).nmem = s.nmem := rfl
@[simp] theorem setFlag_nbad (s : State) (f : FldId) (i : Nat) (b : Bool) (d : Nat) : (s.setFlag f i b d).nbad = s.nbad := rfl
@[simp] theorem setFlag_posts (s : State) (f : FldId) (i : Nat) (b : Bool) (d : Nat) : (s.setFlag f i b d).posts = s.posts := rfl
@[simp] theorem setFlag_qmap (s : State) (f : FldId) (i : Nat) (b : Bool) (d : Nat) : (s.setFlag f i b d).qmap = s.qmap := rfl
@[simp] theorem setFlag_qhold (s : State) (f : FldId) (i : Nat) (b : Bool) (d : Nat) : (s.setFlag f i b d).qhold = s.qhold := rfl
@[simp] theorem setFlag_sealS (s : State) (f : FldId) (i : Nat) (b : Bool) (d : Nat) : (s.setFlag f i b d).sealS = s.sealS := rfl
@[simp] theorem setFlag_ser (s : State) (f : FldId) (i : Nat) (b : Bool) (d : Nat) : (s.setFlag f i b d).ser = s.ser := rfl
@[simp] theorem setFlag_present (s : State) (f : FldId) (i : Nat) (b : Bool) (d : Nat) (q z : Nat) : (s.setFlag f i b d).present q z = s.present q z := rfl
@[simp] theorem setFlag_off (s : State) (f : FldId) (i : Nat) (b : Bool) (d : Nat) : (s.setFlag f i b d).off = s.off := rfl
@[simp] theorem setFlag_tick (s : State) (f : FldId) (i : Nat) (b : Bool) (d : Nat) : (s.setFlag f i b d).tick = s.tick := rfl

/-! ## `State.setReg64` -/

@[simp] theorem setReg64_part (s : State) (r : RegId) (i v : Nat) : (s.setReg64 r i v).part = s.part := rfl
@[simp] theorem setReg64_pending (s : State) (r : RegId) (i v : Nat) : (s.setReg64 r i v).pending = s.pending := rfl
@[simp] theorem setReg64_seen (s : State) (r : RegId) (i v : Nat) : (s.setReg64 r i v).seen = s.seen := rfl
@[simp] theorem setReg64_rwo (s : State) (r : RegId) (i v : Nat) : (s.setReg64 r i v).rwo = s.rwo := rfl
@[simp] theorem setReg64_pr (s : State) (r : RegId) (i v : Nat) : (s.setReg64 r i v).pr = s.pr := rfl
@[simp] theorem setReg64_fresh (s : State) (r : RegId) (i v : Nat) : (s.setReg64 r i v).fresh = s.fresh := rfl
@[simp] theorem setReg64_halted (s : State) (r : RegId) (i v : Nat) : (s.setReg64 r i v).halted = s.halted := rfl
@[simp] theorem setReg64_bin (s : State) (r : RegId) (i v : Nat) : (s.setReg64 r i v).bin = s.bin := rfl
@[simp] theorem setReg64_hif (s : State) (r : RegId) (i v : Nat) : (s.setReg64 r i v).hif = s.hif := rfl
@[simp] theorem setReg64_crc (s : State) (r : RegId) (i v : Nat) : (s.setReg64 r i v).crc = s.crc := rfl
@[simp] theorem setReg64_pmc (s : State) (r : RegId) (i v : Nat) : (s.setReg64 r i v).pmc = s.pmc := rfl
@[simp] theorem setReg64_lcs (s : State) (r : RegId) (i v : Nat) : (s.setReg64 r i v).lcs = s.lcs := rfl
@[simp] theorem setReg64_tm (s : State) (r : RegId) (i v : Nat) : (s.setReg64 r i v).tm = s.tm := rfl
@[simp] theorem setReg64_deadline (s : State) (r : RegId) (i v : Nat) : (s.setReg64 r i v).deadline = s.deadline := rfl
@[simp] theorem setReg64_tickWork (s : State) (r : RegId) (i v : Nat) : (s.setReg64 r i v).tickWork = s.tickWork := rfl
@[simp] theorem setReg64_ttx (s : State) (r : RegId) (i v : Nat) : (s.setReg64 r i v).ttx = s.ttx := rfl
@[simp] theorem setReg64_terms (s : State) (r : RegId) (i v : Nat) : (s.setReg64 r i v).terms = s.terms := rfl
@[simp] theorem setReg64_sxt (s : State) (r : RegId) (i v : Nat) : (s.setReg64 r i v).sxt = s.sxt := rfl
@[simp] theorem setReg64_tsi (s : State) (r : RegId) (i v : Nat) : (s.setReg64 r i v).tsi = s.tsi := rfl
@[simp] theorem setReg64_alm (s : State) (r : RegId) (i v : Nat) : (s.setReg64 r i v).alm = s.alm := rfl
@[simp] theorem setReg64_ciph (s : State) (r : RegId) (i v : Nat) : (s.setReg64 r i v).ciph = s.ciph := rfl
@[simp] theorem setReg64_orr (s : State) (r : RegId) (i v : Nat) : (s.setReg64 r i v).orr = s.orr := rfl
@[simp] theorem setReg64_trx (s : State) (r : RegId) (i v : Nat) : (s.setReg64 r i v).trx = s.trx := rfl
@[simp] theorem setReg64_fwdIn (s : State) (r : RegId) (i v : Nat) : (s.setReg64 r i v).fwdIn = s.fwdIn := rfl
@[simp] theorem setReg64_pair (s : State) (r : RegId) (i v : Nat) : (s.setReg64 r i v).pair = s.pair := rfl
@[simp] theorem setReg64_ka (s : State) (r : RegId) (i v : Nat) : (s.setReg64 r i v).ka = s.ka := rfl
@[simp] theorem setReg64_msec (s : State) (r : RegId) (i v : Nat) : (s.setReg64 r i v).msec = s.msec := rfl
@[simp] theorem setReg64_sent (s : State) (r : RegId) (i v : Nat) : (s.setReg64 r i v).sent = s.sent := rfl
@[simp] theorem setReg64_mail (s : State) (r : RegId) (i v : Nat) : (s.setReg64 r i v).mail = s.mail := rfl
@[simp] theorem setReg64_navIn (s : State) (r : RegId) (i v : Nat) : (s.setReg64 r i v).navIn = s.navIn := rfl
@[simp] theorem setReg64_injDone (s : State) (r : RegId) (i v : Nat) : (s.setReg64 r i v).injDone = s.injDone := rfl
@[simp] theorem setReg64_fwd (s : State) (r : RegId) (i v : Nat) : (s.setReg64 r i v).fwd = s.fwd := rfl
@[simp] theorem setReg64_xin (s : State) (r : RegId) (i v : Nat) : (s.setReg64 r i v).xin = s.xin := rfl
@[simp] theorem setReg64_qin (s : State) (r : RegId) (i v : Nat) : (s.setReg64 r i v).qin = s.qin := rfl
@[simp] theorem setReg64_hostIn (s : State) (r : RegId) (i v : Nat) : (s.setReg64 r i v).hostIn = s.hostIn := rfl
@[simp] theorem setReg64_qsch (s : State) (r : RegId) (i v : Nat) : (s.setReg64 r i v).qsch = s.qsch := rfl
@[simp] theorem setReg64_buf (s : State) (r : RegId) (i v : Nat) : (s.setReg64 r i v).buf = s.buf := rfl
@[simp] theorem setReg64_gate (s : State) (r : RegId) (i v : Nat) : (s.setReg64 r i v).gate = s.gate := rfl
@[simp] theorem setReg64_ckt (s : State) (r : RegId) (i v : Nat) : (s.setReg64 r i v).ckt = s.ckt := rfl
@[simp] theorem setReg64_ages (s : State) (r : RegId) (i v : Nat) : (s.setReg64 r i v).ages = s.ages := rfl
@[simp] theorem setReg64_ovrAt (s : State) (r : RegId) (i v : Nat) : (s.setReg64 r i v).ovrAt = s.ovrAt := rfl
@[simp] theorem setReg64_nav (s : State) (r : RegId) (i v : Nat) : (s.setReg64 r i v).nav = s.nav := rfl
@[simp] theorem setReg64_navc (s : State) (r : RegId) (i v : Nat) : (s.setReg64 r i v).navc = s.navc := rfl
@[simp] theorem setReg64_nmem (s : State) (r : RegId) (i v : Nat) : (s.setReg64 r i v).nmem = s.nmem := rfl
@[simp] theorem setReg64_nbad (s : State) (r : RegId) (i v : Nat) : (s.setReg64 r i v).nbad = s.nbad := rfl
@[simp] theorem setReg64_posts (s : State) (r : RegId) (i v : Nat) : (s.setReg64 r i v).posts = s.posts := rfl
@[simp] theorem setReg64_qmap (s : State) (r : RegId) (i v : Nat) : (s.setReg64 r i v).qmap = s.qmap := rfl
@[simp] theorem setReg64_qhold (s : State) (r : RegId) (i v : Nat) : (s.setReg64 r i v).qhold = s.qhold := rfl
@[simp] theorem setReg64_sealS (s : State) (r : RegId) (i v : Nat) : (s.setReg64 r i v).sealS = s.sealS := rfl
@[simp] theorem setReg64_ser (s : State) (r : RegId) (i v : Nat) : (s.setReg64 r i v).ser = s.ser := rfl
@[simp] theorem setReg64_present (s : State) (r : RegId) (i v : Nat) (q z : Nat) : (s.setReg64 r i v).present q z = s.present q z := rfl
@[simp] theorem setReg64_off (s : State) (r : RegId) (i v : Nat) : (s.setReg64 r i v).off = s.off := rfl
@[simp] theorem setReg64_tick (s : State) (r : RegId) (i v : Nat) : (s.setReg64 r i v).tick = s.tick := rfl

/-! ## `State.invDone` -/

@[simp] theorem invDone_part (s : State) (a b c : Nat) : (s.invDone a b c).part = s.part := rfl
@[simp] theorem invDone_pending (s : State) (a b c : Nat) : (s.invDone a b c).pending = s.pending := rfl
@[simp] theorem invDone_seen (s : State) (a b c : Nat) : (s.invDone a b c).seen = s.seen := rfl
@[simp] theorem invDone_rwo (s : State) (a b c : Nat) : (s.invDone a b c).rwo = s.rwo := rfl
@[simp] theorem invDone_pr (s : State) (a b c : Nat) : (s.invDone a b c).pr = s.pr := rfl
@[simp] theorem invDone_fresh (s : State) (a b c : Nat) : (s.invDone a b c).fresh = s.fresh := rfl
@[simp] theorem invDone_halted (s : State) (a b c : Nat) : (s.invDone a b c).halted = s.halted := rfl
@[simp] theorem invDone_bin (s : State) (a b c : Nat) : (s.invDone a b c).bin = s.bin := rfl
@[simp] theorem invDone_hif (s : State) (a b c : Nat) : (s.invDone a b c).hif = s.hif := rfl
@[simp] theorem invDone_crc (s : State) (a b c : Nat) : (s.invDone a b c).crc = s.crc := rfl
@[simp] theorem invDone_pmc (s : State) (a b c : Nat) : (s.invDone a b c).pmc = s.pmc := rfl
@[simp] theorem invDone_lcs (s : State) (a b c : Nat) : (s.invDone a b c).lcs = s.lcs := rfl
@[simp] theorem invDone_tm (s : State) (a b c : Nat) : (s.invDone a b c).tm = s.tm := rfl
@[simp] theorem invDone_deadline (s : State) (a b c : Nat) : (s.invDone a b c).deadline = s.deadline := rfl
@[simp] theorem invDone_tickWork (s : State) (a b c : Nat) : (s.invDone a b c).tickWork = s.tickWork := rfl
@[simp] theorem invDone_ttx (s : State) (a b c : Nat) : (s.invDone a b c).ttx = s.ttx := rfl
@[simp] theorem invDone_terms (s : State) (a b c : Nat) : (s.invDone a b c).terms = s.terms := rfl
@[simp] theorem invDone_sxt (s : State) (a b c : Nat) : (s.invDone a b c).sxt = s.sxt := rfl
@[simp] theorem invDone_tsi (s : State) (a b c : Nat) : (s.invDone a b c).tsi = s.tsi := rfl
@[simp] theorem invDone_alm (s : State) (a b c : Nat) : (s.invDone a b c).alm = s.alm := rfl
@[simp] theorem invDone_ciph (s : State) (a b c : Nat) : (s.invDone a b c).ciph = s.ciph := rfl
@[simp] theorem invDone_orr (s : State) (a b c : Nat) : (s.invDone a b c).orr = s.orr := rfl
@[simp] theorem invDone_trx (s : State) (a b c : Nat) : (s.invDone a b c).trx = s.trx := rfl
@[simp] theorem invDone_fwdIn (s : State) (a b c : Nat) : (s.invDone a b c).fwdIn = s.fwdIn := rfl
@[simp] theorem invDone_pair (s : State) (a b c : Nat) : (s.invDone a b c).pair = s.pair := rfl
@[simp] theorem invDone_ka (s : State) (a b c : Nat) : (s.invDone a b c).ka = s.ka := rfl
@[simp] theorem invDone_msec (s : State) (a b c : Nat) : (s.invDone a b c).msec = s.msec := rfl
@[simp] theorem invDone_sent (s : State) (a b c : Nat) : (s.invDone a b c).sent = s.sent := rfl
@[simp] theorem invDone_mail (s : State) (a b c : Nat) : (s.invDone a b c).mail = s.mail := rfl
@[simp] theorem invDone_navIn (s : State) (a b c : Nat) : (s.invDone a b c).navIn = s.navIn := rfl
@[simp] theorem invDone_injDone (s : State) (a b c : Nat) : (s.invDone a b c).injDone = s.injDone := rfl
@[simp] theorem invDone_fwd (s : State) (a b c : Nat) : (s.invDone a b c).fwd = s.fwd := rfl
@[simp] theorem invDone_xin (s : State) (a b c : Nat) : (s.invDone a b c).xin = s.xin := rfl
@[simp] theorem invDone_qin (s : State) (a b c : Nat) : (s.invDone a b c).qin = s.qin := rfl
@[simp] theorem invDone_hostIn (s : State) (a b c : Nat) : (s.invDone a b c).hostIn = s.hostIn := rfl
@[simp] theorem invDone_qsch (s : State) (a b c : Nat) : (s.invDone a b c).qsch = s.qsch := rfl
@[simp] theorem invDone_buf (s : State) (a b c : Nat) : (s.invDone a b c).buf = s.buf := rfl
@[simp] theorem invDone_gate (s : State) (a b c : Nat) : (s.invDone a b c).gate = s.gate := rfl
@[simp] theorem invDone_ckt (s : State) (a b c : Nat) : (s.invDone a b c).ckt = s.ckt := rfl
@[simp] theorem invDone_ages (s : State) (a b c : Nat) : (s.invDone a b c).ages = s.ages := rfl
@[simp] theorem invDone_ovrAt (s : State) (a b c : Nat) : (s.invDone a b c).ovrAt = s.ovrAt := rfl
@[simp] theorem invDone_nav (s : State) (a b c : Nat) : (s.invDone a b c).nav = s.nav := rfl
@[simp] theorem invDone_navc (s : State) (a b c : Nat) : (s.invDone a b c).navc = s.navc := rfl
@[simp] theorem invDone_nmem (s : State) (a b c : Nat) : (s.invDone a b c).nmem = s.nmem := rfl
@[simp] theorem invDone_nbad (s : State) (a b c : Nat) : (s.invDone a b c).nbad = s.nbad := rfl
@[simp] theorem invDone_posts (s : State) (a b c : Nat) : (s.invDone a b c).posts = s.posts := rfl
@[simp] theorem invDone_qmap (s : State) (a b c : Nat) : (s.invDone a b c).qmap = s.qmap := rfl
@[simp] theorem invDone_qhold (s : State) (a b c : Nat) : (s.invDone a b c).qhold = s.qhold := rfl
@[simp] theorem invDone_sealS (s : State) (a b c : Nat) : (s.invDone a b c).sealS = s.sealS := rfl
@[simp] theorem invDone_ser (s : State) (a b c : Nat) : (s.invDone a b c).ser = s.ser := rfl
@[simp] theorem invDone_present (s : State) (a b c : Nat) (q z : Nat) : (s.invDone a b c).present q z = s.present q z := rfl
@[simp] theorem invDone_off (s : State) (a b c : Nat) : (s.invDone a b c).off = s.off := rfl
@[simp] theorem invDone_tick (s : State) (a b c : Nat) : (s.invDone a b c).tick = s.tick := rfl

/-! ## `State.intSet` -/

@[simp] theorem intSet_part (s : State) (a b c : Nat) : (s.intSet a b c).part = s.part := rfl
@[simp] theorem intSet_pending (s : State) (a b c : Nat) : (s.intSet a b c).pending = s.pending := rfl
@[simp] theorem intSet_seen (s : State) (a b c : Nat) : (s.intSet a b c).seen = s.seen := rfl
@[simp] theorem intSet_rwo (s : State) (a b c : Nat) : (s.intSet a b c).rwo = s.rwo := rfl
@[simp] theorem intSet_pr (s : State) (a b c : Nat) : (s.intSet a b c).pr = s.pr := rfl
@[simp] theorem intSet_fresh (s : State) (a b c : Nat) : (s.intSet a b c).fresh = s.fresh := rfl
@[simp] theorem intSet_halted (s : State) (a b c : Nat) : (s.intSet a b c).halted = s.halted := rfl
@[simp] theorem intSet_bin (s : State) (a b c : Nat) : (s.intSet a b c).bin = s.bin := rfl
@[simp] theorem intSet_hif (s : State) (a b c : Nat) : (s.intSet a b c).hif = s.hif := rfl
@[simp] theorem intSet_crc (s : State) (a b c : Nat) : (s.intSet a b c).crc = s.crc := rfl
@[simp] theorem intSet_pmc (s : State) (a b c : Nat) : (s.intSet a b c).pmc = s.pmc := rfl
@[simp] theorem intSet_lcs (s : State) (a b c : Nat) : (s.intSet a b c).lcs = s.lcs := rfl
@[simp] theorem intSet_tm (s : State) (a b c : Nat) : (s.intSet a b c).tm = s.tm := rfl
@[simp] theorem intSet_deadline (s : State) (a b c : Nat) : (s.intSet a b c).deadline = s.deadline := rfl
@[simp] theorem intSet_tickWork (s : State) (a b c : Nat) : (s.intSet a b c).tickWork = s.tickWork := rfl
@[simp] theorem intSet_ttx (s : State) (a b c : Nat) : (s.intSet a b c).ttx = s.ttx := rfl
@[simp] theorem intSet_terms (s : State) (a b c : Nat) : (s.intSet a b c).terms = s.terms := rfl
@[simp] theorem intSet_sxt (s : State) (a b c : Nat) : (s.intSet a b c).sxt = s.sxt := rfl
@[simp] theorem intSet_tsi (s : State) (a b c : Nat) : (s.intSet a b c).tsi = s.tsi := rfl
@[simp] theorem intSet_alm (s : State) (a b c : Nat) : (s.intSet a b c).alm = s.alm := rfl
@[simp] theorem intSet_ciph (s : State) (a b c : Nat) : (s.intSet a b c).ciph = s.ciph := rfl
@[simp] theorem intSet_orr (s : State) (a b c : Nat) : (s.intSet a b c).orr = s.orr := rfl
@[simp] theorem intSet_trx (s : State) (a b c : Nat) : (s.intSet a b c).trx = s.trx := rfl
@[simp] theorem intSet_fwdIn (s : State) (a b c : Nat) : (s.intSet a b c).fwdIn = s.fwdIn := rfl
@[simp] theorem intSet_pair (s : State) (a b c : Nat) : (s.intSet a b c).pair = s.pair := rfl
@[simp] theorem intSet_ka (s : State) (a b c : Nat) : (s.intSet a b c).ka = s.ka := rfl
@[simp] theorem intSet_msec (s : State) (a b c : Nat) : (s.intSet a b c).msec = s.msec := rfl
@[simp] theorem intSet_sent (s : State) (a b c : Nat) : (s.intSet a b c).sent = s.sent := rfl
@[simp] theorem intSet_mail (s : State) (a b c : Nat) : (s.intSet a b c).mail = s.mail := rfl
@[simp] theorem intSet_navIn (s : State) (a b c : Nat) : (s.intSet a b c).navIn = s.navIn := rfl
@[simp] theorem intSet_injDone (s : State) (a b c : Nat) : (s.intSet a b c).injDone = s.injDone := rfl
@[simp] theorem intSet_fwd (s : State) (a b c : Nat) : (s.intSet a b c).fwd = s.fwd := rfl
@[simp] theorem intSet_xin (s : State) (a b c : Nat) : (s.intSet a b c).xin = s.xin := rfl
@[simp] theorem intSet_qin (s : State) (a b c : Nat) : (s.intSet a b c).qin = s.qin := rfl
@[simp] theorem intSet_hostIn (s : State) (a b c : Nat) : (s.intSet a b c).hostIn = s.hostIn := rfl
@[simp] theorem intSet_qsch (s : State) (a b c : Nat) : (s.intSet a b c).qsch = s.qsch := rfl
@[simp] theorem intSet_buf (s : State) (a b c : Nat) : (s.intSet a b c).buf = s.buf := rfl
@[simp] theorem intSet_gate (s : State) (a b c : Nat) : (s.intSet a b c).gate = s.gate := rfl
@[simp] theorem intSet_ckt (s : State) (a b c : Nat) : (s.intSet a b c).ckt = s.ckt := rfl
@[simp] theorem intSet_ages (s : State) (a b c : Nat) : (s.intSet a b c).ages = s.ages := rfl
@[simp] theorem intSet_ovrAt (s : State) (a b c : Nat) : (s.intSet a b c).ovrAt = s.ovrAt := rfl
@[simp] theorem intSet_nav (s : State) (a b c : Nat) : (s.intSet a b c).nav = s.nav := rfl
@[simp] theorem intSet_navc (s : State) (a b c : Nat) : (s.intSet a b c).navc = s.navc := rfl
@[simp] theorem intSet_nmem (s : State) (a b c : Nat) : (s.intSet a b c).nmem = s.nmem := rfl
@[simp] theorem intSet_nbad (s : State) (a b c : Nat) : (s.intSet a b c).nbad = s.nbad := rfl
@[simp] theorem intSet_posts (s : State) (a b c : Nat) : (s.intSet a b c).posts = s.posts := rfl
@[simp] theorem intSet_qmap (s : State) (a b c : Nat) : (s.intSet a b c).qmap = s.qmap := rfl
@[simp] theorem intSet_qhold (s : State) (a b c : Nat) : (s.intSet a b c).qhold = s.qhold := rfl
@[simp] theorem intSet_sealS (s : State) (a b c : Nat) : (s.intSet a b c).sealS = s.sealS := rfl
@[simp] theorem intSet_ser (s : State) (a b c : Nat) : (s.intSet a b c).ser = s.ser := rfl
@[simp] theorem intSet_present (s : State) (a b c : Nat) (q z : Nat) : (s.intSet a b c).present q z = s.present q z := rfl
@[simp] theorem intSet_off (s : State) (a b c : Nat) : (s.intSet a b c).off = s.off := rfl
@[simp] theorem intSet_tick (s : State) (a b c : Nat) : (s.intSet a b c).tick = s.tick := rfl

/-! ## `State.clearCounters` -/

@[simp] theorem clearCounters_part (s : State) (a b : Nat) : (s.clearCounters a b).part = s.part := rfl
@[simp] theorem clearCounters_pending (s : State) (a b : Nat) : (s.clearCounters a b).pending = s.pending := rfl
@[simp] theorem clearCounters_seen (s : State) (a b : Nat) : (s.clearCounters a b).seen = s.seen := rfl
@[simp] theorem clearCounters_rwo (s : State) (a b : Nat) : (s.clearCounters a b).rwo = s.rwo := rfl
@[simp] theorem clearCounters_pr (s : State) (a b : Nat) : (s.clearCounters a b).pr = s.pr := rfl
@[simp] theorem clearCounters_fresh (s : State) (a b : Nat) : (s.clearCounters a b).fresh = s.fresh := rfl
@[simp] theorem clearCounters_halted (s : State) (a b : Nat) : (s.clearCounters a b).halted = s.halted := rfl
@[simp] theorem clearCounters_bin (s : State) (a b : Nat) : (s.clearCounters a b).bin = s.bin := rfl
@[simp] theorem clearCounters_hif (s : State) (a b : Nat) : (s.clearCounters a b).hif = s.hif := rfl
@[simp] theorem clearCounters_crc (s : State) (a b : Nat) : (s.clearCounters a b).crc = s.crc := rfl
@[simp] theorem clearCounters_pmc (s : State) (a b : Nat) : (s.clearCounters a b).pmc = s.pmc := rfl
@[simp] theorem clearCounters_lcs (s : State) (a b : Nat) : (s.clearCounters a b).lcs = s.lcs := rfl
@[simp] theorem clearCounters_tm (s : State) (a b : Nat) : (s.clearCounters a b).tm = s.tm := rfl
@[simp] theorem clearCounters_deadline (s : State) (a b : Nat) : (s.clearCounters a b).deadline = s.deadline := rfl
@[simp] theorem clearCounters_tickWork (s : State) (a b : Nat) : (s.clearCounters a b).tickWork = s.tickWork := rfl
@[simp] theorem clearCounters_ttx (s : State) (a b : Nat) : (s.clearCounters a b).ttx = s.ttx := rfl
@[simp] theorem clearCounters_terms (s : State) (a b : Nat) : (s.clearCounters a b).terms = s.terms := rfl
@[simp] theorem clearCounters_sxt (s : State) (a b : Nat) : (s.clearCounters a b).sxt = s.sxt := rfl
@[simp] theorem clearCounters_tsi (s : State) (a b : Nat) : (s.clearCounters a b).tsi = s.tsi := rfl
@[simp] theorem clearCounters_alm (s : State) (a b : Nat) : (s.clearCounters a b).alm = s.alm := rfl
@[simp] theorem clearCounters_ciph (s : State) (a b : Nat) : (s.clearCounters a b).ciph = s.ciph := rfl
@[simp] theorem clearCounters_orr (s : State) (a b : Nat) : (s.clearCounters a b).orr = s.orr := rfl
@[simp] theorem clearCounters_trx (s : State) (a b : Nat) : (s.clearCounters a b).trx = s.trx := rfl
@[simp] theorem clearCounters_fwdIn (s : State) (a b : Nat) : (s.clearCounters a b).fwdIn = s.fwdIn := rfl
@[simp] theorem clearCounters_pair (s : State) (a b : Nat) : (s.clearCounters a b).pair = s.pair := rfl
@[simp] theorem clearCounters_ka (s : State) (a b : Nat) : (s.clearCounters a b).ka = s.ka := rfl
@[simp] theorem clearCounters_msec (s : State) (a b : Nat) : (s.clearCounters a b).msec = s.msec := rfl
@[simp] theorem clearCounters_sent (s : State) (a b : Nat) : (s.clearCounters a b).sent = s.sent := rfl
@[simp] theorem clearCounters_mail (s : State) (a b : Nat) : (s.clearCounters a b).mail = s.mail := rfl
@[simp] theorem clearCounters_navIn (s : State) (a b : Nat) : (s.clearCounters a b).navIn = s.navIn := rfl
@[simp] theorem clearCounters_injDone (s : State) (a b : Nat) : (s.clearCounters a b).injDone = s.injDone := rfl
@[simp] theorem clearCounters_fwd (s : State) (a b : Nat) : (s.clearCounters a b).fwd = s.fwd := rfl
@[simp] theorem clearCounters_xin (s : State) (a b : Nat) : (s.clearCounters a b).xin = s.xin := rfl
@[simp] theorem clearCounters_qin (s : State) (a b : Nat) : (s.clearCounters a b).qin = s.qin := rfl
@[simp] theorem clearCounters_hostIn (s : State) (a b : Nat) : (s.clearCounters a b).hostIn = s.hostIn := rfl
@[simp] theorem clearCounters_qsch (s : State) (a b : Nat) : (s.clearCounters a b).qsch = s.qsch := rfl
@[simp] theorem clearCounters_buf (s : State) (a b : Nat) : (s.clearCounters a b).buf = s.buf := rfl
@[simp] theorem clearCounters_gate (s : State) (a b : Nat) : (s.clearCounters a b).gate = s.gate := rfl
@[simp] theorem clearCounters_ckt (s : State) (a b : Nat) : (s.clearCounters a b).ckt = s.ckt := rfl
@[simp] theorem clearCounters_ages (s : State) (a b : Nat) : (s.clearCounters a b).ages = s.ages := rfl
@[simp] theorem clearCounters_ovrAt (s : State) (a b : Nat) : (s.clearCounters a b).ovrAt = s.ovrAt := rfl
@[simp] theorem clearCounters_nav (s : State) (a b : Nat) : (s.clearCounters a b).nav = s.nav := rfl
@[simp] theorem clearCounters_navc (s : State) (a b : Nat) : (s.clearCounters a b).navc = s.navc := rfl
@[simp] theorem clearCounters_nmem (s : State) (a b : Nat) : (s.clearCounters a b).nmem = s.nmem := rfl
@[simp] theorem clearCounters_nbad (s : State) (a b : Nat) : (s.clearCounters a b).nbad = s.nbad := rfl
@[simp] theorem clearCounters_posts (s : State) (a b : Nat) : (s.clearCounters a b).posts = s.posts := rfl
@[simp] theorem clearCounters_qmap (s : State) (a b : Nat) : (s.clearCounters a b).qmap = s.qmap := rfl
@[simp] theorem clearCounters_qhold (s : State) (a b : Nat) : (s.clearCounters a b).qhold = s.qhold := rfl
@[simp] theorem clearCounters_sealS (s : State) (a b : Nat) : (s.clearCounters a b).sealS = s.sealS := rfl
@[simp] theorem clearCounters_ser (s : State) (a b : Nat) : (s.clearCounters a b).ser = s.ser := rfl
@[simp] theorem clearCounters_present (s : State) (a b : Nat) (q z : Nat) : (s.clearCounters a b).present q z = s.present q z := rfl
@[simp] theorem clearCounters_off (s : State) (a b : Nat) : (s.clearCounters a b).off = s.off := rfl
@[simp] theorem clearCounters_tick (s : State) (a b : Nat) : (s.clearCounters a b).tick = s.tick := rfl

/-! ## `State.stageShow` -/

@[simp] theorem stageShow_part (s : State) (a b c : Nat) (d : Bool) : (s.stageShow a b c d).part = s.part := rfl
@[simp] theorem stageShow_pending (s : State) (a b c : Nat) (d : Bool) : (s.stageShow a b c d).pending = s.pending := rfl
@[simp] theorem stageShow_seen (s : State) (a b c : Nat) (d : Bool) : (s.stageShow a b c d).seen = s.seen := rfl
@[simp] theorem stageShow_rwo (s : State) (a b c : Nat) (d : Bool) : (s.stageShow a b c d).rwo = s.rwo := rfl
@[simp] theorem stageShow_pr (s : State) (a b c : Nat) (d : Bool) : (s.stageShow a b c d).pr = s.pr := rfl
@[simp] theorem stageShow_fresh (s : State) (a b c : Nat) (d : Bool) : (s.stageShow a b c d).fresh = s.fresh := rfl
@[simp] theorem stageShow_halted (s : State) (a b c : Nat) (d : Bool) : (s.stageShow a b c d).halted = s.halted := rfl
@[simp] theorem stageShow_bin (s : State) (a b c : Nat) (d : Bool) : (s.stageShow a b c d).bin = s.bin := rfl
@[simp] theorem stageShow_hif (s : State) (a b c : Nat) (d : Bool) : (s.stageShow a b c d).hif = s.hif := rfl
@[simp] theorem stageShow_crc (s : State) (a b c : Nat) (d : Bool) : (s.stageShow a b c d).crc = s.crc := rfl
@[simp] theorem stageShow_pmc (s : State) (a b c : Nat) (d : Bool) : (s.stageShow a b c d).pmc = s.pmc := rfl
@[simp] theorem stageShow_lcs (s : State) (a b c : Nat) (d : Bool) : (s.stageShow a b c d).lcs = s.lcs := rfl
@[simp] theorem stageShow_tm (s : State) (a b c : Nat) (d : Bool) : (s.stageShow a b c d).tm = s.tm := rfl
@[simp] theorem stageShow_deadline (s : State) (a b c : Nat) (d : Bool) : (s.stageShow a b c d).deadline = s.deadline := rfl
@[simp] theorem stageShow_tickWork (s : State) (a b c : Nat) (d : Bool) : (s.stageShow a b c d).tickWork = s.tickWork := rfl
@[simp] theorem stageShow_ttx (s : State) (a b c : Nat) (d : Bool) : (s.stageShow a b c d).ttx = s.ttx := rfl
@[simp] theorem stageShow_terms (s : State) (a b c : Nat) (d : Bool) : (s.stageShow a b c d).terms = s.terms := rfl
@[simp] theorem stageShow_sxt (s : State) (a b c : Nat) (d : Bool) : (s.stageShow a b c d).sxt = s.sxt := rfl
@[simp] theorem stageShow_tsi (s : State) (a b c : Nat) (d : Bool) : (s.stageShow a b c d).tsi = s.tsi := rfl
@[simp] theorem stageShow_alm (s : State) (a b c : Nat) (d : Bool) : (s.stageShow a b c d).alm = s.alm := rfl
@[simp] theorem stageShow_ciph (s : State) (a b c : Nat) (d : Bool) : (s.stageShow a b c d).ciph = s.ciph := rfl
@[simp] theorem stageShow_orr (s : State) (a b c : Nat) (d : Bool) : (s.stageShow a b c d).orr = s.orr := rfl
@[simp] theorem stageShow_trx (s : State) (a b c : Nat) (d : Bool) : (s.stageShow a b c d).trx = s.trx := rfl
@[simp] theorem stageShow_fwdIn (s : State) (a b c : Nat) (d : Bool) : (s.stageShow a b c d).fwdIn = s.fwdIn := rfl
@[simp] theorem stageShow_pair (s : State) (a b c : Nat) (d : Bool) : (s.stageShow a b c d).pair = s.pair := rfl
@[simp] theorem stageShow_ka (s : State) (a b c : Nat) (d : Bool) : (s.stageShow a b c d).ka = s.ka := rfl
@[simp] theorem stageShow_msec (s : State) (a b c : Nat) (d : Bool) : (s.stageShow a b c d).msec = s.msec := rfl
@[simp] theorem stageShow_sent (s : State) (a b c : Nat) (d : Bool) : (s.stageShow a b c d).sent = s.sent := rfl
@[simp] theorem stageShow_mail (s : State) (a b c : Nat) (d : Bool) : (s.stageShow a b c d).mail = s.mail := rfl
@[simp] theorem stageShow_navIn (s : State) (a b c : Nat) (d : Bool) : (s.stageShow a b c d).navIn = s.navIn := rfl
@[simp] theorem stageShow_injDone (s : State) (a b c : Nat) (d : Bool) : (s.stageShow a b c d).injDone = s.injDone := rfl
@[simp] theorem stageShow_fwd (s : State) (a b c : Nat) (d : Bool) : (s.stageShow a b c d).fwd = s.fwd := rfl
@[simp] theorem stageShow_xin (s : State) (a b c : Nat) (d : Bool) : (s.stageShow a b c d).xin = s.xin := rfl
@[simp] theorem stageShow_qin (s : State) (a b c : Nat) (d : Bool) : (s.stageShow a b c d).qin = s.qin := rfl
@[simp] theorem stageShow_hostIn (s : State) (a b c : Nat) (d : Bool) : (s.stageShow a b c d).hostIn = s.hostIn := rfl
@[simp] theorem stageShow_qsch (s : State) (a b c : Nat) (d : Bool) : (s.stageShow a b c d).qsch = s.qsch := rfl
@[simp] theorem stageShow_buf (s : State) (a b c : Nat) (d : Bool) : (s.stageShow a b c d).buf = s.buf := rfl
@[simp] theorem stageShow_gate (s : State) (a b c : Nat) (d : Bool) : (s.stageShow a b c d).gate = s.gate := rfl
@[simp] theorem stageShow_ckt (s : State) (a b c : Nat) (d : Bool) : (s.stageShow a b c d).ckt = s.ckt := rfl
@[simp] theorem stageShow_ages (s : State) (a b c : Nat) (d : Bool) : (s.stageShow a b c d).ages = s.ages := rfl
@[simp] theorem stageShow_ovrAt (s : State) (a b c : Nat) (d : Bool) : (s.stageShow a b c d).ovrAt = s.ovrAt := rfl
@[simp] theorem stageShow_nav (s : State) (a b c : Nat) (d : Bool) : (s.stageShow a b c d).nav = s.nav := rfl
@[simp] theorem stageShow_navc (s : State) (a b c : Nat) (d : Bool) : (s.stageShow a b c d).navc = s.navc := rfl
@[simp] theorem stageShow_nmem (s : State) (a b c : Nat) (d : Bool) : (s.stageShow a b c d).nmem = s.nmem := rfl
@[simp] theorem stageShow_nbad (s : State) (a b c : Nat) (d : Bool) : (s.stageShow a b c d).nbad = s.nbad := rfl
@[simp] theorem stageShow_posts (s : State) (a b c : Nat) (d : Bool) : (s.stageShow a b c d).posts = s.posts := rfl
@[simp] theorem stageShow_qmap (s : State) (a b c : Nat) (d : Bool) : (s.stageShow a b c d).qmap = s.qmap := rfl
@[simp] theorem stageShow_qhold (s : State) (a b c : Nat) (d : Bool) : (s.stageShow a b c d).qhold = s.qhold := rfl
@[simp] theorem stageShow_sealS (s : State) (a b c : Nat) (d : Bool) : (s.stageShow a b c d).sealS = s.sealS := rfl
@[simp] theorem stageShow_ser (s : State) (a b c : Nat) (d : Bool) : (s.stageShow a b c d).ser = s.ser := rfl
@[simp] theorem stageShow_present (s : State) (a b c : Nat) (d : Bool) (q z : Nat) : (s.stageShow a b c d).present q z = s.present q z := rfl
@[simp] theorem stageShow_off (s : State) (a b c : Nat) (d : Bool) : (s.stageShow a b c d).off = s.off := rfl
@[simp] theorem stageShow_tick (s : State) (a b c : Nat) (d : Bool) : (s.stageShow a b c d).tick = s.tick := rfl

/-! ## `State.typeBit` -/

@[simp] theorem typeBit_part (s : State) (r : RegId) (a : Nat) : (s.typeBit r a).part = s.part := rfl
@[simp] theorem typeBit_pending (s : State) (r : RegId) (a : Nat) : (s.typeBit r a).pending = s.pending := rfl
@[simp] theorem typeBit_seen (s : State) (r : RegId) (a : Nat) : (s.typeBit r a).seen = s.seen := rfl
@[simp] theorem typeBit_rwo (s : State) (r : RegId) (a : Nat) : (s.typeBit r a).rwo = s.rwo := rfl
@[simp] theorem typeBit_pr (s : State) (r : RegId) (a : Nat) : (s.typeBit r a).pr = s.pr := rfl
@[simp] theorem typeBit_fresh (s : State) (r : RegId) (a : Nat) : (s.typeBit r a).fresh = s.fresh := rfl
@[simp] theorem typeBit_halted (s : State) (r : RegId) (a : Nat) : (s.typeBit r a).halted = s.halted := rfl
@[simp] theorem typeBit_bin (s : State) (r : RegId) (a : Nat) : (s.typeBit r a).bin = s.bin := rfl
@[simp] theorem typeBit_hif (s : State) (r : RegId) (a : Nat) : (s.typeBit r a).hif = s.hif := rfl
@[simp] theorem typeBit_crc (s : State) (r : RegId) (a : Nat) : (s.typeBit r a).crc = s.crc := rfl
@[simp] theorem typeBit_pmc (s : State) (r : RegId) (a : Nat) : (s.typeBit r a).pmc = s.pmc := rfl
@[simp] theorem typeBit_lcs (s : State) (r : RegId) (a : Nat) : (s.typeBit r a).lcs = s.lcs := rfl
@[simp] theorem typeBit_tm (s : State) (r : RegId) (a : Nat) : (s.typeBit r a).tm = s.tm := rfl
@[simp] theorem typeBit_deadline (s : State) (r : RegId) (a : Nat) : (s.typeBit r a).deadline = s.deadline := rfl
@[simp] theorem typeBit_tickWork (s : State) (r : RegId) (a : Nat) : (s.typeBit r a).tickWork = s.tickWork := rfl
@[simp] theorem typeBit_ttx (s : State) (r : RegId) (a : Nat) : (s.typeBit r a).ttx = s.ttx := rfl
@[simp] theorem typeBit_terms (s : State) (r : RegId) (a : Nat) : (s.typeBit r a).terms = s.terms := rfl
@[simp] theorem typeBit_sxt (s : State) (r : RegId) (a : Nat) : (s.typeBit r a).sxt = s.sxt := rfl
@[simp] theorem typeBit_tsi (s : State) (r : RegId) (a : Nat) : (s.typeBit r a).tsi = s.tsi := rfl
@[simp] theorem typeBit_alm (s : State) (r : RegId) (a : Nat) : (s.typeBit r a).alm = s.alm := rfl
@[simp] theorem typeBit_ciph (s : State) (r : RegId) (a : Nat) : (s.typeBit r a).ciph = s.ciph := rfl
@[simp] theorem typeBit_orr (s : State) (r : RegId) (a : Nat) : (s.typeBit r a).orr = s.orr := rfl
@[simp] theorem typeBit_trx (s : State) (r : RegId) (a : Nat) : (s.typeBit r a).trx = s.trx := rfl
@[simp] theorem typeBit_fwdIn (s : State) (r : RegId) (a : Nat) : (s.typeBit r a).fwdIn = s.fwdIn := rfl
@[simp] theorem typeBit_pair (s : State) (r : RegId) (a : Nat) : (s.typeBit r a).pair = s.pair := rfl
@[simp] theorem typeBit_ka (s : State) (r : RegId) (a : Nat) : (s.typeBit r a).ka = s.ka := rfl
@[simp] theorem typeBit_msec (s : State) (r : RegId) (a : Nat) : (s.typeBit r a).msec = s.msec := rfl
@[simp] theorem typeBit_sent (s : State) (r : RegId) (a : Nat) : (s.typeBit r a).sent = s.sent := rfl
@[simp] theorem typeBit_mail (s : State) (r : RegId) (a : Nat) : (s.typeBit r a).mail = s.mail := rfl
@[simp] theorem typeBit_navIn (s : State) (r : RegId) (a : Nat) : (s.typeBit r a).navIn = s.navIn := rfl
@[simp] theorem typeBit_injDone (s : State) (r : RegId) (a : Nat) : (s.typeBit r a).injDone = s.injDone := rfl
@[simp] theorem typeBit_fwd (s : State) (r : RegId) (a : Nat) : (s.typeBit r a).fwd = s.fwd := rfl
@[simp] theorem typeBit_xin (s : State) (r : RegId) (a : Nat) : (s.typeBit r a).xin = s.xin := rfl
@[simp] theorem typeBit_qin (s : State) (r : RegId) (a : Nat) : (s.typeBit r a).qin = s.qin := rfl
@[simp] theorem typeBit_hostIn (s : State) (r : RegId) (a : Nat) : (s.typeBit r a).hostIn = s.hostIn := rfl
@[simp] theorem typeBit_qsch (s : State) (r : RegId) (a : Nat) : (s.typeBit r a).qsch = s.qsch := rfl
@[simp] theorem typeBit_buf (s : State) (r : RegId) (a : Nat) : (s.typeBit r a).buf = s.buf := rfl
@[simp] theorem typeBit_gate (s : State) (r : RegId) (a : Nat) : (s.typeBit r a).gate = s.gate := rfl
@[simp] theorem typeBit_ckt (s : State) (r : RegId) (a : Nat) : (s.typeBit r a).ckt = s.ckt := rfl
@[simp] theorem typeBit_ages (s : State) (r : RegId) (a : Nat) : (s.typeBit r a).ages = s.ages := rfl
@[simp] theorem typeBit_ovrAt (s : State) (r : RegId) (a : Nat) : (s.typeBit r a).ovrAt = s.ovrAt := rfl
@[simp] theorem typeBit_nav (s : State) (r : RegId) (a : Nat) : (s.typeBit r a).nav = s.nav := rfl
@[simp] theorem typeBit_navc (s : State) (r : RegId) (a : Nat) : (s.typeBit r a).navc = s.navc := rfl
@[simp] theorem typeBit_nmem (s : State) (r : RegId) (a : Nat) : (s.typeBit r a).nmem = s.nmem := rfl
@[simp] theorem typeBit_nbad (s : State) (r : RegId) (a : Nat) : (s.typeBit r a).nbad = s.nbad := rfl
@[simp] theorem typeBit_posts (s : State) (r : RegId) (a : Nat) : (s.typeBit r a).posts = s.posts := rfl
@[simp] theorem typeBit_qmap (s : State) (r : RegId) (a : Nat) : (s.typeBit r a).qmap = s.qmap := rfl
@[simp] theorem typeBit_qhold (s : State) (r : RegId) (a : Nat) : (s.typeBit r a).qhold = s.qhold := rfl
@[simp] theorem typeBit_sealS (s : State) (r : RegId) (a : Nat) : (s.typeBit r a).sealS = s.sealS := rfl
@[simp] theorem typeBit_ser (s : State) (r : RegId) (a : Nat) : (s.typeBit r a).ser = s.ser := rfl
@[simp] theorem typeBit_present (s : State) (r : RegId) (a : Nat) (q z : Nat) : (s.typeBit r a).present q z = s.present q z := rfl
@[simp] theorem typeBit_off (s : State) (r : RegId) (a : Nat) : (s.typeBit r a).off = s.off := rfl
@[simp] theorem typeBit_tick (s : State) (r : RegId) (a : Nat) : (s.typeBit r a).tick = s.tick := rfl

/-! ## `State.stageDone` -/

@[simp] theorem stageDone_part (s : State) (a b c : Nat) : (s.stageDone a b c).part = s.part := rfl
@[simp] theorem stageDone_pending (s : State) (a b c : Nat) : (s.stageDone a b c).pending = s.pending := rfl
@[simp] theorem stageDone_regs (s : State) (a b c : Nat) : (s.stageDone a b c).regs = s.regs := rfl
@[simp] theorem stageDone_seen (s : State) (a b c : Nat) : (s.stageDone a b c).seen = s.seen := rfl
@[simp] theorem stageDone_rwo (s : State) (a b c : Nat) : (s.stageDone a b c).rwo = s.rwo := rfl
@[simp] theorem stageDone_pr (s : State) (a b c : Nat) : (s.stageDone a b c).pr = s.pr := rfl
@[simp] theorem stageDone_fresh (s : State) (a b c : Nat) : (s.stageDone a b c).fresh = s.fresh := rfl
@[simp] theorem stageDone_halted (s : State) (a b c : Nat) : (s.stageDone a b c).halted = s.halted := rfl
@[simp] theorem stageDone_bin (s : State) (a b c : Nat) : (s.stageDone a b c).bin = s.bin := rfl
@[simp] theorem stageDone_hif (s : State) (a b c : Nat) : (s.stageDone a b c).hif = s.hif := rfl
@[simp] theorem stageDone_crc (s : State) (a b c : Nat) : (s.stageDone a b c).crc = s.crc := rfl
@[simp] theorem stageDone_pmc (s : State) (a b c : Nat) : (s.stageDone a b c).pmc = s.pmc := rfl
@[simp] theorem stageDone_lcs (s : State) (a b c : Nat) : (s.stageDone a b c).lcs = s.lcs := rfl
@[simp] theorem stageDone_tm (s : State) (a b c : Nat) : (s.stageDone a b c).tm = s.tm := rfl
@[simp] theorem stageDone_deadline (s : State) (a b c : Nat) : (s.stageDone a b c).deadline = s.deadline := rfl
@[simp] theorem stageDone_ttx (s : State) (a b c : Nat) : (s.stageDone a b c).ttx = s.ttx := rfl
@[simp] theorem stageDone_terms (s : State) (a b c : Nat) : (s.stageDone a b c).terms = s.terms := rfl
@[simp] theorem stageDone_sxt (s : State) (a b c : Nat) : (s.stageDone a b c).sxt = s.sxt := rfl
@[simp] theorem stageDone_tsi (s : State) (a b c : Nat) : (s.stageDone a b c).tsi = s.tsi := rfl
@[simp] theorem stageDone_alm (s : State) (a b c : Nat) : (s.stageDone a b c).alm = s.alm := rfl
@[simp] theorem stageDone_ciph (s : State) (a b c : Nat) : (s.stageDone a b c).ciph = s.ciph := rfl
@[simp] theorem stageDone_orr (s : State) (a b c : Nat) : (s.stageDone a b c).orr = s.orr := rfl
@[simp] theorem stageDone_trx (s : State) (a b c : Nat) : (s.stageDone a b c).trx = s.trx := rfl
@[simp] theorem stageDone_fwdIn (s : State) (a b c : Nat) : (s.stageDone a b c).fwdIn = s.fwdIn := rfl
@[simp] theorem stageDone_pair (s : State) (a b c : Nat) : (s.stageDone a b c).pair = s.pair := rfl
@[simp] theorem stageDone_ka (s : State) (a b c : Nat) : (s.stageDone a b c).ka = s.ka := rfl
@[simp] theorem stageDone_msec (s : State) (a b c : Nat) : (s.stageDone a b c).msec = s.msec := rfl
@[simp] theorem stageDone_sent (s : State) (a b c : Nat) : (s.stageDone a b c).sent = s.sent := rfl
@[simp] theorem stageDone_mail (s : State) (a b c : Nat) : (s.stageDone a b c).mail = s.mail := rfl
@[simp] theorem stageDone_navIn (s : State) (a b c : Nat) : (s.stageDone a b c).navIn = s.navIn := rfl
@[simp] theorem stageDone_injDone (s : State) (a b c : Nat) : (s.stageDone a b c).injDone = s.injDone := rfl
@[simp] theorem stageDone_fwd (s : State) (a b c : Nat) : (s.stageDone a b c).fwd = s.fwd := rfl
@[simp] theorem stageDone_xin (s : State) (a b c : Nat) : (s.stageDone a b c).xin = s.xin := rfl
@[simp] theorem stageDone_qin (s : State) (a b c : Nat) : (s.stageDone a b c).qin = s.qin := rfl
@[simp] theorem stageDone_hostIn (s : State) (a b c : Nat) : (s.stageDone a b c).hostIn = s.hostIn := rfl
@[simp] theorem stageDone_qsch (s : State) (a b c : Nat) : (s.stageDone a b c).qsch = s.qsch := rfl
@[simp] theorem stageDone_buf (s : State) (a b c : Nat) : (s.stageDone a b c).buf = s.buf := rfl
@[simp] theorem stageDone_gate (s : State) (a b c : Nat) : (s.stageDone a b c).gate = s.gate := rfl
@[simp] theorem stageDone_ckt (s : State) (a b c : Nat) : (s.stageDone a b c).ckt = s.ckt := rfl
@[simp] theorem stageDone_ages (s : State) (a b c : Nat) : (s.stageDone a b c).ages = s.ages := rfl
@[simp] theorem stageDone_ovrAt (s : State) (a b c : Nat) : (s.stageDone a b c).ovrAt = s.ovrAt := rfl
@[simp] theorem stageDone_nav (s : State) (a b c : Nat) : (s.stageDone a b c).nav = s.nav := rfl
@[simp] theorem stageDone_navc (s : State) (a b c : Nat) : (s.stageDone a b c).navc = s.navc := rfl
@[simp] theorem stageDone_nmem (s : State) (a b c : Nat) : (s.stageDone a b c).nmem = s.nmem := rfl
@[simp] theorem stageDone_nbad (s : State) (a b c : Nat) : (s.stageDone a b c).nbad = s.nbad := rfl
@[simp] theorem stageDone_posts (s : State) (a b c : Nat) : (s.stageDone a b c).posts = s.posts := rfl
@[simp] theorem stageDone_qmap (s : State) (a b c : Nat) : (s.stageDone a b c).qmap = s.qmap := rfl
@[simp] theorem stageDone_qhold (s : State) (a b c : Nat) : (s.stageDone a b c).qhold = s.qhold := rfl
@[simp] theorem stageDone_sealS (s : State) (a b c : Nat) : (s.stageDone a b c).sealS = s.sealS := rfl
@[simp] theorem stageDone_ser (s : State) (a b c : Nat) : (s.stageDone a b c).ser = s.ser := rfl
@[simp] theorem stageDone_rd (s : State) (a b c : Nat) (q : Nat) : (s.stageDone a b c).rd q = s.rd q := rfl
@[simp] theorem stageDone_reg (s : State) (a b c : Nat) (q : RegId) (z : Nat) : (s.stageDone a b c).reg q z = s.reg q z := rfl
@[simp] theorem stageDone_regI (s : State) (a b c : Nat) (q : RegId) (z y : Nat) : (s.stageDone a b c).regI q z y = s.regI q z y := rfl
@[simp] theorem stageDone_fld (s : State) (a b c : Nat) (q : FldId) (z y : Nat) : (s.stageDone a b c).fld q z y = s.fld q z y := rfl
@[simp] theorem stageDone_flag (s : State) (a b c : Nat) (q : FldId) (z y : Nat) : (s.stageDone a b c).flag q z y = s.flag q z y := rfl
@[simp] theorem stageDone_reg64 (s : State) (a b c : Nat) (q : RegId) (z : Nat) : (s.stageDone a b c).reg64 q z = s.reg64 q z := rfl
@[simp] theorem stageDone_active (s : State) (a b c : Nat) (q z : Nat) : (s.stageDone a b c).active q z = s.active q z := rfl
@[simp] theorem stageDone_inv (s : State) (a b c : Nat) (q z y : Nat) : (s.stageDone a b c).inv q z y = s.inv q z y := rfl
@[simp] theorem stageDone_isActive (s : State) (a b c : Nat) : (s.stageDone a b c).isActive = s.isActive := rfl
@[simp] theorem stageDone_mirrorSt (s : State) (a b c : Nat) : (s.stageDone a b c).mirrorSt = s.mirrorSt := rfl
@[simp] theorem stageDone_present (s : State) (a b c : Nat) (q z : Nat) : (s.stageDone a b c).present q z = s.present q z := rfl
@[simp] theorem stageDone_off (s : State) (a b c : Nat) : (s.stageDone a b c).off = s.off := rfl
@[simp] theorem stageDone_tick (s : State) (a b c : Nat) : (s.stageDone a b c).tick = s.tick := rfl

/-! ## `State.unname` -/

@[simp] theorem unname_part (s : State) (k : NKind) (a b : Nat) : (s.unname k a b).part = s.part := rfl
@[simp] theorem unname_pending (s : State) (k : NKind) (a b : Nat) : (s.unname k a b).pending = s.pending := rfl
@[simp] theorem unname_regs (s : State) (k : NKind) (a b : Nat) : (s.unname k a b).regs = s.regs := rfl
@[simp] theorem unname_seen (s : State) (k : NKind) (a b : Nat) : (s.unname k a b).seen = s.seen := rfl
@[simp] theorem unname_rwo (s : State) (k : NKind) (a b : Nat) : (s.unname k a b).rwo = s.rwo := rfl
@[simp] theorem unname_pr (s : State) (k : NKind) (a b : Nat) : (s.unname k a b).pr = s.pr := rfl
@[simp] theorem unname_fresh (s : State) (k : NKind) (a b : Nat) : (s.unname k a b).fresh = s.fresh := rfl
@[simp] theorem unname_halted (s : State) (k : NKind) (a b : Nat) : (s.unname k a b).halted = s.halted := rfl
@[simp] theorem unname_bin (s : State) (k : NKind) (a b : Nat) : (s.unname k a b).bin = s.bin := rfl
@[simp] theorem unname_hif (s : State) (k : NKind) (a b : Nat) : (s.unname k a b).hif = s.hif := rfl
@[simp] theorem unname_crc (s : State) (k : NKind) (a b : Nat) : (s.unname k a b).crc = s.crc := rfl
@[simp] theorem unname_pmc (s : State) (k : NKind) (a b : Nat) : (s.unname k a b).pmc = s.pmc := rfl
@[simp] theorem unname_lcs (s : State) (k : NKind) (a b : Nat) : (s.unname k a b).lcs = s.lcs := rfl
@[simp] theorem unname_deadline (s : State) (k : NKind) (a b : Nat) : (s.unname k a b).deadline = s.deadline := rfl
@[simp] theorem unname_tickWork (s : State) (k : NKind) (a b : Nat) : (s.unname k a b).tickWork = s.tickWork := rfl
@[simp] theorem unname_ttx (s : State) (k : NKind) (a b : Nat) : (s.unname k a b).ttx = s.ttx := rfl
@[simp] theorem unname_terms (s : State) (k : NKind) (a b : Nat) : (s.unname k a b).terms = s.terms := rfl
@[simp] theorem unname_sxt (s : State) (k : NKind) (a b : Nat) : (s.unname k a b).sxt = s.sxt := rfl
@[simp] theorem unname_tsi (s : State) (k : NKind) (a b : Nat) : (s.unname k a b).tsi = s.tsi := rfl
@[simp] theorem unname_alm (s : State) (k : NKind) (a b : Nat) : (s.unname k a b).alm = s.alm := rfl
@[simp] theorem unname_ciph (s : State) (k : NKind) (a b : Nat) : (s.unname k a b).ciph = s.ciph := rfl
@[simp] theorem unname_orr (s : State) (k : NKind) (a b : Nat) : (s.unname k a b).orr = s.orr := rfl
@[simp] theorem unname_trx (s : State) (k : NKind) (a b : Nat) : (s.unname k a b).trx = s.trx := rfl
@[simp] theorem unname_fwdIn (s : State) (k : NKind) (a b : Nat) : (s.unname k a b).fwdIn = s.fwdIn := rfl
@[simp] theorem unname_pair (s : State) (k : NKind) (a b : Nat) : (s.unname k a b).pair = s.pair := rfl
@[simp] theorem unname_ka (s : State) (k : NKind) (a b : Nat) : (s.unname k a b).ka = s.ka := rfl
@[simp] theorem unname_msec (s : State) (k : NKind) (a b : Nat) : (s.unname k a b).msec = s.msec := rfl
@[simp] theorem unname_sent (s : State) (k : NKind) (a b : Nat) : (s.unname k a b).sent = s.sent := rfl
@[simp] theorem unname_mail (s : State) (k : NKind) (a b : Nat) : (s.unname k a b).mail = s.mail := rfl
@[simp] theorem unname_navIn (s : State) (k : NKind) (a b : Nat) : (s.unname k a b).navIn = s.navIn := rfl
@[simp] theorem unname_injDone (s : State) (k : NKind) (a b : Nat) : (s.unname k a b).injDone = s.injDone := rfl
@[simp] theorem unname_fwd (s : State) (k : NKind) (a b : Nat) : (s.unname k a b).fwd = s.fwd := rfl
@[simp] theorem unname_xin (s : State) (k : NKind) (a b : Nat) : (s.unname k a b).xin = s.xin := rfl
@[simp] theorem unname_qin (s : State) (k : NKind) (a b : Nat) : (s.unname k a b).qin = s.qin := rfl
@[simp] theorem unname_hostIn (s : State) (k : NKind) (a b : Nat) : (s.unname k a b).hostIn = s.hostIn := rfl
@[simp] theorem unname_qsch (s : State) (k : NKind) (a b : Nat) : (s.unname k a b).qsch = s.qsch := rfl
@[simp] theorem unname_buf (s : State) (k : NKind) (a b : Nat) : (s.unname k a b).buf = s.buf := rfl
@[simp] theorem unname_gate (s : State) (k : NKind) (a b : Nat) : (s.unname k a b).gate = s.gate := rfl
@[simp] theorem unname_ckt (s : State) (k : NKind) (a b : Nat) : (s.unname k a b).ckt = s.ckt := rfl
@[simp] theorem unname_ages (s : State) (k : NKind) (a b : Nat) : (s.unname k a b).ages = s.ages := rfl
@[simp] theorem unname_ovrAt (s : State) (k : NKind) (a b : Nat) : (s.unname k a b).ovrAt = s.ovrAt := rfl
@[simp] theorem unname_nav (s : State) (k : NKind) (a b : Nat) : (s.unname k a b).nav = s.nav := rfl
@[simp] theorem unname_navc (s : State) (k : NKind) (a b : Nat) : (s.unname k a b).navc = s.navc := rfl
@[simp] theorem unname_nmem (s : State) (k : NKind) (a b : Nat) : (s.unname k a b).nmem = s.nmem := rfl
@[simp] theorem unname_nbad (s : State) (k : NKind) (a b : Nat) : (s.unname k a b).nbad = s.nbad := rfl
@[simp] theorem unname_posts (s : State) (k : NKind) (a b : Nat) : (s.unname k a b).posts = s.posts := rfl
@[simp] theorem unname_qmap (s : State) (k : NKind) (a b : Nat) : (s.unname k a b).qmap = s.qmap := rfl
@[simp] theorem unname_qhold (s : State) (k : NKind) (a b : Nat) : (s.unname k a b).qhold = s.qhold := rfl
@[simp] theorem unname_sealS (s : State) (k : NKind) (a b : Nat) : (s.unname k a b).sealS = s.sealS := rfl
@[simp] theorem unname_ser (s : State) (k : NKind) (a b : Nat) : (s.unname k a b).ser = s.ser := rfl
@[simp] theorem unname_rd (s : State) (k : NKind) (a b : Nat) (q : Nat) : (s.unname k a b).rd q = s.rd q := rfl
@[simp] theorem unname_reg (s : State) (k : NKind) (a b : Nat) (q : RegId) (z : Nat) : (s.unname k a b).reg q z = s.reg q z := rfl
@[simp] theorem unname_regI (s : State) (k : NKind) (a b : Nat) (q : RegId) (z y : Nat) : (s.unname k a b).regI q z y = s.regI q z y := rfl
@[simp] theorem unname_fld (s : State) (k : NKind) (a b : Nat) (q : FldId) (z y : Nat) : (s.unname k a b).fld q z y = s.fld q z y := rfl
@[simp] theorem unname_flag (s : State) (k : NKind) (a b : Nat) (q : FldId) (z y : Nat) : (s.unname k a b).flag q z y = s.flag q z y := rfl
@[simp] theorem unname_reg64 (s : State) (k : NKind) (a b : Nat) (q : RegId) (z : Nat) : (s.unname k a b).reg64 q z = s.reg64 q z := rfl
@[simp] theorem unname_active (s : State) (k : NKind) (a b : Nat) (q z : Nat) : (s.unname k a b).active q z = s.active q z := rfl
@[simp] theorem unname_inv (s : State) (k : NKind) (a b : Nat) (q z y : Nat) : (s.unname k a b).inv q z y = s.inv q z y := rfl
@[simp] theorem unname_isActive (s : State) (k : NKind) (a b : Nat) : (s.unname k a b).isActive = s.isActive := rfl
@[simp] theorem unname_mirrorSt (s : State) (k : NKind) (a b : Nat) : (s.unname k a b).mirrorSt = s.mirrorSt := rfl
@[simp] theorem unname_present (s : State) (k : NKind) (a b : Nat) (q z : Nat) : (s.unname k a b).present q z = s.present q z := rfl
@[simp] theorem unname_off (s : State) (k : NKind) (a b : Nat) : (s.unname k a b).off = s.off := rfl

/-! ## `State.setRing` -/

@[simp] theorem setRing_part (s : State) (r : Nat) (x : Ring) : (s.setRing r x).part = s.part := rfl
@[simp] theorem setRing_pending (s : State) (r : Nat) (x : Ring) : (s.setRing r x).pending = s.pending := rfl
@[simp] theorem setRing_regs (s : State) (r : Nat) (x : Ring) : (s.setRing r x).regs = s.regs := rfl
@[simp] theorem setRing_seen (s : State) (r : Nat) (x : Ring) : (s.setRing r x).seen = s.seen := rfl
@[simp] theorem setRing_rwo (s : State) (r : Nat) (x : Ring) : (s.setRing r x).rwo = s.rwo := rfl
@[simp] theorem setRing_pr (s : State) (r : Nat) (x : Ring) : (s.setRing r x).pr = s.pr := rfl
@[simp] theorem setRing_fresh (s : State) (r : Nat) (x : Ring) : (s.setRing r x).fresh = s.fresh := rfl
@[simp] theorem setRing_halted (s : State) (r : Nat) (x : Ring) : (s.setRing r x).halted = s.halted := rfl
@[simp] theorem setRing_bin (s : State) (r : Nat) (x : Ring) : (s.setRing r x).bin = s.bin := rfl
@[simp] theorem setRing_crc (s : State) (r : Nat) (x : Ring) : (s.setRing r x).crc = s.crc := rfl
@[simp] theorem setRing_pmc (s : State) (r : Nat) (x : Ring) : (s.setRing r x).pmc = s.pmc := rfl
@[simp] theorem setRing_lcs (s : State) (r : Nat) (x : Ring) : (s.setRing r x).lcs = s.lcs := rfl
@[simp] theorem setRing_tm (s : State) (r : Nat) (x : Ring) : (s.setRing r x).tm = s.tm := rfl
@[simp] theorem setRing_deadline (s : State) (r : Nat) (x : Ring) : (s.setRing r x).deadline = s.deadline := rfl
@[simp] theorem setRing_tickWork (s : State) (r : Nat) (x : Ring) : (s.setRing r x).tickWork = s.tickWork := rfl
@[simp] theorem setRing_ttx (s : State) (r : Nat) (x : Ring) : (s.setRing r x).ttx = s.ttx := rfl
@[simp] theorem setRing_terms (s : State) (r : Nat) (x : Ring) : (s.setRing r x).terms = s.terms := rfl
@[simp] theorem setRing_sxt (s : State) (r : Nat) (x : Ring) : (s.setRing r x).sxt = s.sxt := rfl
@[simp] theorem setRing_tsi (s : State) (r : Nat) (x : Ring) : (s.setRing r x).tsi = s.tsi := rfl
@[simp] theorem setRing_alm (s : State) (r : Nat) (x : Ring) : (s.setRing r x).alm = s.alm := rfl
@[simp] theorem setRing_ciph (s : State) (r : Nat) (x : Ring) : (s.setRing r x).ciph = s.ciph := rfl
@[simp] theorem setRing_orr (s : State) (r : Nat) (x : Ring) : (s.setRing r x).orr = s.orr := rfl
@[simp] theorem setRing_trx (s : State) (r : Nat) (x : Ring) : (s.setRing r x).trx = s.trx := rfl
@[simp] theorem setRing_fwdIn (s : State) (r : Nat) (x : Ring) : (s.setRing r x).fwdIn = s.fwdIn := rfl
@[simp] theorem setRing_pair (s : State) (r : Nat) (x : Ring) : (s.setRing r x).pair = s.pair := rfl
@[simp] theorem setRing_ka (s : State) (r : Nat) (x : Ring) : (s.setRing r x).ka = s.ka := rfl
@[simp] theorem setRing_msec (s : State) (r : Nat) (x : Ring) : (s.setRing r x).msec = s.msec := rfl
@[simp] theorem setRing_sent (s : State) (r : Nat) (x : Ring) : (s.setRing r x).sent = s.sent := rfl
@[simp] theorem setRing_mail (s : State) (r : Nat) (x : Ring) : (s.setRing r x).mail = s.mail := rfl
@[simp] theorem setRing_navIn (s : State) (r : Nat) (x : Ring) : (s.setRing r x).navIn = s.navIn := rfl
@[simp] theorem setRing_injDone (s : State) (r : Nat) (x : Ring) : (s.setRing r x).injDone = s.injDone := rfl
@[simp] theorem setRing_fwd (s : State) (r : Nat) (x : Ring) : (s.setRing r x).fwd = s.fwd := rfl
@[simp] theorem setRing_xin (s : State) (r : Nat) (x : Ring) : (s.setRing r x).xin = s.xin := rfl
@[simp] theorem setRing_qin (s : State) (r : Nat) (x : Ring) : (s.setRing r x).qin = s.qin := rfl
@[simp] theorem setRing_hostIn (s : State) (r : Nat) (x : Ring) : (s.setRing r x).hostIn = s.hostIn := rfl
@[simp] theorem setRing_qsch (s : State) (r : Nat) (x : Ring) : (s.setRing r x).qsch = s.qsch := rfl
@[simp] theorem setRing_buf (s : State) (r : Nat) (x : Ring) : (s.setRing r x).buf = s.buf := rfl
@[simp] theorem setRing_gate (s : State) (r : Nat) (x : Ring) : (s.setRing r x).gate = s.gate := rfl
@[simp] theorem setRing_ckt (s : State) (r : Nat) (x : Ring) : (s.setRing r x).ckt = s.ckt := rfl
@[simp] theorem setRing_ages (s : State) (r : Nat) (x : Ring) : (s.setRing r x).ages = s.ages := rfl
@[simp] theorem setRing_ovrAt (s : State) (r : Nat) (x : Ring) : (s.setRing r x).ovrAt = s.ovrAt := rfl
@[simp] theorem setRing_nav (s : State) (r : Nat) (x : Ring) : (s.setRing r x).nav = s.nav := rfl
@[simp] theorem setRing_navc (s : State) (r : Nat) (x : Ring) : (s.setRing r x).navc = s.navc := rfl
@[simp] theorem setRing_nmem (s : State) (r : Nat) (x : Ring) : (s.setRing r x).nmem = s.nmem := rfl
@[simp] theorem setRing_nbad (s : State) (r : Nat) (x : Ring) : (s.setRing r x).nbad = s.nbad := rfl
@[simp] theorem setRing_posts (s : State) (r : Nat) (x : Ring) : (s.setRing r x).posts = s.posts := rfl
@[simp] theorem setRing_qmap (s : State) (r : Nat) (x : Ring) : (s.setRing r x).qmap = s.qmap := rfl
@[simp] theorem setRing_qhold (s : State) (r : Nat) (x : Ring) : (s.setRing r x).qhold = s.qhold := rfl
@[simp] theorem setRing_sealS (s : State) (r : Nat) (x : Ring) : (s.setRing r x).sealS = s.sealS := rfl
@[simp] theorem setRing_ser (s : State) (r : Nat) (x : Ring) : (s.setRing r x).ser = s.ser := rfl
@[simp] theorem setRing_rd (s : State) (r : Nat) (x : Ring) (q : Nat) : (s.setRing r x).rd q = s.rd q := rfl
@[simp] theorem setRing_reg (s : State) (r : Nat) (x : Ring) (q : RegId) (z : Nat) : (s.setRing r x).reg q z = s.reg q z := rfl
@[simp] theorem setRing_regI (s : State) (r : Nat) (x : Ring) (q : RegId) (z y : Nat) : (s.setRing r x).regI q z y = s.regI q z y := rfl
@[simp] theorem setRing_fld (s : State) (r : Nat) (x : Ring) (q : FldId) (z y : Nat) : (s.setRing r x).fld q z y = s.fld q z y := rfl
@[simp] theorem setRing_flag (s : State) (r : Nat) (x : Ring) (q : FldId) (z y : Nat) : (s.setRing r x).flag q z y = s.flag q z y := rfl
@[simp] theorem setRing_reg64 (s : State) (r : Nat) (x : Ring) (q : RegId) (z : Nat) : (s.setRing r x).reg64 q z = s.reg64 q z := rfl
@[simp] theorem setRing_active (s : State) (r : Nat) (x : Ring) (q z : Nat) : (s.setRing r x).active q z = s.active q z := rfl
@[simp] theorem setRing_inv (s : State) (r : Nat) (x : Ring) (q z y : Nat) : (s.setRing r x).inv q z y = s.inv q z y := rfl
@[simp] theorem setRing_isActive (s : State) (r : Nat) (x : Ring) : (s.setRing r x).isActive = s.isActive := rfl
@[simp] theorem setRing_mirrorSt (s : State) (r : Nat) (x : Ring) : (s.setRing r x).mirrorSt = s.mirrorSt := rfl
@[simp] theorem setRing_present (s : State) (r : Nat) (x : Ring) (q z : Nat) : (s.setRing r x).present q z = s.present q z := rfl
@[simp] theorem setRing_off (s : State) (r : Nat) (x : Ring) : (s.setRing r x).off = s.off := rfl
@[simp] theorem setRing_tick (s : State) (r : Nat) (x : Ring) : (s.setRing r x).tick = s.tick := rfl

/-! ## `State.settle` -/

@[simp] theorem settle_part (s : State) : (s.settle).part = s.part := rfl
@[simp] theorem settle_pending (s : State) : (s.settle).pending = s.pending := rfl
@[simp] theorem settle_regs (s : State) : (s.settle).regs = s.regs := rfl
@[simp] theorem settle_seen (s : State) : (s.settle).seen = s.seen := rfl
@[simp] theorem settle_rwo (s : State) : (s.settle).rwo = s.rwo := rfl
@[simp] theorem settle_pr (s : State) : (s.settle).pr = s.pr := rfl
@[simp] theorem settle_fresh (s : State) : (s.settle).fresh = s.fresh := rfl
@[simp] theorem settle_halted (s : State) : (s.settle).halted = s.halted := rfl
@[simp] theorem settle_bin (s : State) : (s.settle).bin = s.bin := rfl
@[simp] theorem settle_crc (s : State) : (s.settle).crc = s.crc := rfl
@[simp] theorem settle_pmc (s : State) : (s.settle).pmc = s.pmc := rfl
@[simp] theorem settle_lcs (s : State) : (s.settle).lcs = s.lcs := rfl
@[simp] theorem settle_tm (s : State) : (s.settle).tm = s.tm := rfl
@[simp] theorem settle_deadline (s : State) : (s.settle).deadline = s.deadline := rfl
@[simp] theorem settle_tickWork (s : State) : (s.settle).tickWork = s.tickWork := rfl
@[simp] theorem settle_ttx (s : State) : (s.settle).ttx = s.ttx := rfl
@[simp] theorem settle_terms (s : State) : (s.settle).terms = s.terms := rfl
@[simp] theorem settle_sxt (s : State) : (s.settle).sxt = s.sxt := rfl
@[simp] theorem settle_tsi (s : State) : (s.settle).tsi = s.tsi := rfl
@[simp] theorem settle_alm (s : State) : (s.settle).alm = s.alm := rfl
@[simp] theorem settle_ciph (s : State) : (s.settle).ciph = s.ciph := rfl
@[simp] theorem settle_orr (s : State) : (s.settle).orr = s.orr := rfl
@[simp] theorem settle_trx (s : State) : (s.settle).trx = s.trx := rfl
@[simp] theorem settle_fwdIn (s : State) : (s.settle).fwdIn = s.fwdIn := rfl
@[simp] theorem settle_pair (s : State) : (s.settle).pair = s.pair := rfl
@[simp] theorem settle_ka (s : State) : (s.settle).ka = s.ka := rfl
@[simp] theorem settle_msec (s : State) : (s.settle).msec = s.msec := rfl
@[simp] theorem settle_sent (s : State) : (s.settle).sent = s.sent := rfl
@[simp] theorem settle_mail (s : State) : (s.settle).mail = s.mail := rfl
@[simp] theorem settle_navIn (s : State) : (s.settle).navIn = s.navIn := rfl
@[simp] theorem settle_injDone (s : State) : (s.settle).injDone = s.injDone := rfl
@[simp] theorem settle_fwd (s : State) : (s.settle).fwd = s.fwd := rfl
@[simp] theorem settle_xin (s : State) : (s.settle).xin = s.xin := rfl
@[simp] theorem settle_qin (s : State) : (s.settle).qin = s.qin := rfl
@[simp] theorem settle_hostIn (s : State) : (s.settle).hostIn = s.hostIn := rfl
@[simp] theorem settle_qsch (s : State) : (s.settle).qsch = s.qsch := rfl
@[simp] theorem settle_buf (s : State) : (s.settle).buf = s.buf := rfl
@[simp] theorem settle_gate (s : State) : (s.settle).gate = s.gate := rfl
@[simp] theorem settle_ckt (s : State) : (s.settle).ckt = s.ckt := rfl
@[simp] theorem settle_ages (s : State) : (s.settle).ages = s.ages := rfl
@[simp] theorem settle_ovrAt (s : State) : (s.settle).ovrAt = s.ovrAt := rfl
@[simp] theorem settle_nav (s : State) : (s.settle).nav = s.nav := rfl
@[simp] theorem settle_navc (s : State) : (s.settle).navc = s.navc := rfl
@[simp] theorem settle_nmem (s : State) : (s.settle).nmem = s.nmem := rfl
@[simp] theorem settle_nbad (s : State) : (s.settle).nbad = s.nbad := rfl
@[simp] theorem settle_posts (s : State) : (s.settle).posts = s.posts := rfl
@[simp] theorem settle_qmap (s : State) : (s.settle).qmap = s.qmap := rfl
@[simp] theorem settle_qhold (s : State) : (s.settle).qhold = s.qhold := rfl
@[simp] theorem settle_sealS (s : State) : (s.settle).sealS = s.sealS := rfl
@[simp] theorem settle_ser (s : State) : (s.settle).ser = s.ser := rfl
@[simp] theorem settle_rd (s : State) (q : Nat) : (s.settle).rd q = s.rd q := rfl
@[simp] theorem settle_reg (s : State) (q : RegId) (z : Nat) : (s.settle).reg q z = s.reg q z := rfl
@[simp] theorem settle_regI (s : State) (q : RegId) (z y : Nat) : (s.settle).regI q z y = s.regI q z y := rfl
@[simp] theorem settle_fld (s : State) (q : FldId) (z y : Nat) : (s.settle).fld q z y = s.fld q z y := rfl
@[simp] theorem settle_flag (s : State) (q : FldId) (z y : Nat) : (s.settle).flag q z y = s.flag q z y := rfl
@[simp] theorem settle_reg64 (s : State) (q : RegId) (z : Nat) : (s.settle).reg64 q z = s.reg64 q z := rfl
@[simp] theorem settle_active (s : State) (q z : Nat) : (s.settle).active q z = s.active q z := rfl
@[simp] theorem settle_inv (s : State) (q z y : Nat) : (s.settle).inv q z y = s.inv q z y := rfl
@[simp] theorem settle_isActive (s : State) : (s.settle).isActive = s.isActive := rfl
@[simp] theorem settle_mirrorSt (s : State) : (s.settle).mirrorSt = s.mirrorSt := rfl
@[simp] theorem settle_present (s : State) (q z : Nat) : (s.settle).present q z = s.present q z := rfl
@[simp] theorem settle_off (s : State) : (s.settle).off = s.off := rfl
@[simp] theorem settle_tick (s : State) : (s.settle).tick = s.tick := rfl

/-! ## `State.setCrc` -/

@[simp] theorem setCrc_part (s : State) (i : Nat) (x : CrcS) : (s.setCrc i x).part = s.part := rfl
@[simp] theorem setCrc_pending (s : State) (i : Nat) (x : CrcS) : (s.setCrc i x).pending = s.pending := rfl
@[simp] theorem setCrc_regs (s : State) (i : Nat) (x : CrcS) : (s.setCrc i x).regs = s.regs := rfl
@[simp] theorem setCrc_seen (s : State) (i : Nat) (x : CrcS) : (s.setCrc i x).seen = s.seen := rfl
@[simp] theorem setCrc_rwo (s : State) (i : Nat) (x : CrcS) : (s.setCrc i x).rwo = s.rwo := rfl
@[simp] theorem setCrc_pr (s : State) (i : Nat) (x : CrcS) : (s.setCrc i x).pr = s.pr := rfl
@[simp] theorem setCrc_fresh (s : State) (i : Nat) (x : CrcS) : (s.setCrc i x).fresh = s.fresh := rfl
@[simp] theorem setCrc_halted (s : State) (i : Nat) (x : CrcS) : (s.setCrc i x).halted = s.halted := rfl
@[simp] theorem setCrc_bin (s : State) (i : Nat) (x : CrcS) : (s.setCrc i x).bin = s.bin := rfl
@[simp] theorem setCrc_hif (s : State) (i : Nat) (x : CrcS) : (s.setCrc i x).hif = s.hif := rfl
@[simp] theorem setCrc_pmc (s : State) (i : Nat) (x : CrcS) : (s.setCrc i x).pmc = s.pmc := rfl
@[simp] theorem setCrc_lcs (s : State) (i : Nat) (x : CrcS) : (s.setCrc i x).lcs = s.lcs := rfl
@[simp] theorem setCrc_tm (s : State) (i : Nat) (x : CrcS) : (s.setCrc i x).tm = s.tm := rfl
@[simp] theorem setCrc_deadline (s : State) (i : Nat) (x : CrcS) : (s.setCrc i x).deadline = s.deadline := rfl
@[simp] theorem setCrc_tickWork (s : State) (i : Nat) (x : CrcS) : (s.setCrc i x).tickWork = s.tickWork := rfl
@[simp] theorem setCrc_ttx (s : State) (i : Nat) (x : CrcS) : (s.setCrc i x).ttx = s.ttx := rfl
@[simp] theorem setCrc_terms (s : State) (i : Nat) (x : CrcS) : (s.setCrc i x).terms = s.terms := rfl
@[simp] theorem setCrc_sxt (s : State) (i : Nat) (x : CrcS) : (s.setCrc i x).sxt = s.sxt := rfl
@[simp] theorem setCrc_tsi (s : State) (i : Nat) (x : CrcS) : (s.setCrc i x).tsi = s.tsi := rfl
@[simp] theorem setCrc_alm (s : State) (i : Nat) (x : CrcS) : (s.setCrc i x).alm = s.alm := rfl
@[simp] theorem setCrc_ciph (s : State) (i : Nat) (x : CrcS) : (s.setCrc i x).ciph = s.ciph := rfl
@[simp] theorem setCrc_orr (s : State) (i : Nat) (x : CrcS) : (s.setCrc i x).orr = s.orr := rfl
@[simp] theorem setCrc_trx (s : State) (i : Nat) (x : CrcS) : (s.setCrc i x).trx = s.trx := rfl
@[simp] theorem setCrc_fwdIn (s : State) (i : Nat) (x : CrcS) : (s.setCrc i x).fwdIn = s.fwdIn := rfl
@[simp] theorem setCrc_pair (s : State) (i : Nat) (x : CrcS) : (s.setCrc i x).pair = s.pair := rfl
@[simp] theorem setCrc_ka (s : State) (i : Nat) (x : CrcS) : (s.setCrc i x).ka = s.ka := rfl
@[simp] theorem setCrc_msec (s : State) (i : Nat) (x : CrcS) : (s.setCrc i x).msec = s.msec := rfl
@[simp] theorem setCrc_sent (s : State) (i : Nat) (x : CrcS) : (s.setCrc i x).sent = s.sent := rfl
@[simp] theorem setCrc_mail (s : State) (i : Nat) (x : CrcS) : (s.setCrc i x).mail = s.mail := rfl
@[simp] theorem setCrc_navIn (s : State) (i : Nat) (x : CrcS) : (s.setCrc i x).navIn = s.navIn := rfl
@[simp] theorem setCrc_injDone (s : State) (i : Nat) (x : CrcS) : (s.setCrc i x).injDone = s.injDone := rfl
@[simp] theorem setCrc_fwd (s : State) (i : Nat) (x : CrcS) : (s.setCrc i x).fwd = s.fwd := rfl
@[simp] theorem setCrc_xin (s : State) (i : Nat) (x : CrcS) : (s.setCrc i x).xin = s.xin := rfl
@[simp] theorem setCrc_qin (s : State) (i : Nat) (x : CrcS) : (s.setCrc i x).qin = s.qin := rfl
@[simp] theorem setCrc_hostIn (s : State) (i : Nat) (x : CrcS) : (s.setCrc i x).hostIn = s.hostIn := rfl
@[simp] theorem setCrc_qsch (s : State) (i : Nat) (x : CrcS) : (s.setCrc i x).qsch = s.qsch := rfl
@[simp] theorem setCrc_buf (s : State) (i : Nat) (x : CrcS) : (s.setCrc i x).buf = s.buf := rfl
@[simp] theorem setCrc_gate (s : State) (i : Nat) (x : CrcS) : (s.setCrc i x).gate = s.gate := rfl
@[simp] theorem setCrc_ckt (s : State) (i : Nat) (x : CrcS) : (s.setCrc i x).ckt = s.ckt := rfl
@[simp] theorem setCrc_ages (s : State) (i : Nat) (x : CrcS) : (s.setCrc i x).ages = s.ages := rfl
@[simp] theorem setCrc_ovrAt (s : State) (i : Nat) (x : CrcS) : (s.setCrc i x).ovrAt = s.ovrAt := rfl
@[simp] theorem setCrc_nav (s : State) (i : Nat) (x : CrcS) : (s.setCrc i x).nav = s.nav := rfl
@[simp] theorem setCrc_navc (s : State) (i : Nat) (x : CrcS) : (s.setCrc i x).navc = s.navc := rfl
@[simp] theorem setCrc_nmem (s : State) (i : Nat) (x : CrcS) : (s.setCrc i x).nmem = s.nmem := rfl
@[simp] theorem setCrc_nbad (s : State) (i : Nat) (x : CrcS) : (s.setCrc i x).nbad = s.nbad := rfl
@[simp] theorem setCrc_posts (s : State) (i : Nat) (x : CrcS) : (s.setCrc i x).posts = s.posts := rfl
@[simp] theorem setCrc_qmap (s : State) (i : Nat) (x : CrcS) : (s.setCrc i x).qmap = s.qmap := rfl
@[simp] theorem setCrc_qhold (s : State) (i : Nat) (x : CrcS) : (s.setCrc i x).qhold = s.qhold := rfl
@[simp] theorem setCrc_sealS (s : State) (i : Nat) (x : CrcS) : (s.setCrc i x).sealS = s.sealS := rfl
@[simp] theorem setCrc_ser (s : State) (i : Nat) (x : CrcS) : (s.setCrc i x).ser = s.ser := rfl
@[simp] theorem setCrc_rd (s : State) (i : Nat) (x : CrcS) (q : Nat) : (s.setCrc i x).rd q = s.rd q := rfl
@[simp] theorem setCrc_reg (s : State) (i : Nat) (x : CrcS) (q : RegId) (z : Nat) : (s.setCrc i x).reg q z = s.reg q z := rfl
@[simp] theorem setCrc_regI (s : State) (i : Nat) (x : CrcS) (q : RegId) (z y : Nat) : (s.setCrc i x).regI q z y = s.regI q z y := rfl
@[simp] theorem setCrc_fld (s : State) (i : Nat) (x : CrcS) (q : FldId) (z y : Nat) : (s.setCrc i x).fld q z y = s.fld q z y := rfl
@[simp] theorem setCrc_flag (s : State) (i : Nat) (x : CrcS) (q : FldId) (z y : Nat) : (s.setCrc i x).flag q z y = s.flag q z y := rfl
@[simp] theorem setCrc_reg64 (s : State) (i : Nat) (x : CrcS) (q : RegId) (z : Nat) : (s.setCrc i x).reg64 q z = s.reg64 q z := rfl
@[simp] theorem setCrc_active (s : State) (i : Nat) (x : CrcS) (q z : Nat) : (s.setCrc i x).active q z = s.active q z := rfl
@[simp] theorem setCrc_inv (s : State) (i : Nat) (x : CrcS) (q z y : Nat) : (s.setCrc i x).inv q z y = s.inv q z y := rfl
@[simp] theorem setCrc_isActive (s : State) (i : Nat) (x : CrcS) : (s.setCrc i x).isActive = s.isActive := rfl
@[simp] theorem setCrc_mirrorSt (s : State) (i : Nat) (x : CrcS) : (s.setCrc i x).mirrorSt = s.mirrorSt := rfl
@[simp] theorem setCrc_present (s : State) (i : Nat) (x : CrcS) (q z : Nat) : (s.setCrc i x).present q z = s.present q z := rfl
@[simp] theorem setCrc_off (s : State) (i : Nat) (x : CrcS) : (s.setCrc i x).off = s.off := rfl
@[simp] theorem setCrc_tick (s : State) (i : Nat) (x : CrcS) : (s.setCrc i x).tick = s.tick := rfl

/-! ## `State.setOtp` -/

@[simp] theorem setOtp_part (s : State) (o : Otp) : (s.setOtp o).part = s.part := rfl
@[simp] theorem setOtp_pending (s : State) (o : Otp) : (s.setOtp o).pending = s.pending := rfl
@[simp] theorem setOtp_regs (s : State) (o : Otp) : (s.setOtp o).regs = s.regs := rfl
@[simp] theorem setOtp_seen (s : State) (o : Otp) : (s.setOtp o).seen = s.seen := rfl
@[simp] theorem setOtp_rwo (s : State) (o : Otp) : (s.setOtp o).rwo = s.rwo := rfl
@[simp] theorem setOtp_pr (s : State) (o : Otp) : (s.setOtp o).pr = s.pr := rfl
@[simp] theorem setOtp_fresh (s : State) (o : Otp) : (s.setOtp o).fresh = s.fresh := rfl
@[simp] theorem setOtp_halted (s : State) (o : Otp) : (s.setOtp o).halted = s.halted := rfl
@[simp] theorem setOtp_bin (s : State) (o : Otp) : (s.setOtp o).bin = s.bin := rfl
@[simp] theorem setOtp_hif (s : State) (o : Otp) : (s.setOtp o).hif = s.hif := rfl
@[simp] theorem setOtp_crc (s : State) (o : Otp) : (s.setOtp o).crc = s.crc := rfl
@[simp] theorem setOtp_pmc (s : State) (o : Otp) : (s.setOtp o).pmc = s.pmc := rfl
@[simp] theorem setOtp_tm (s : State) (o : Otp) : (s.setOtp o).tm = s.tm := rfl
@[simp] theorem setOtp_deadline (s : State) (o : Otp) : (s.setOtp o).deadline = s.deadline := rfl
@[simp] theorem setOtp_tickWork (s : State) (o : Otp) : (s.setOtp o).tickWork = s.tickWork := rfl
@[simp] theorem setOtp_ttx (s : State) (o : Otp) : (s.setOtp o).ttx = s.ttx := rfl
@[simp] theorem setOtp_terms (s : State) (o : Otp) : (s.setOtp o).terms = s.terms := rfl
@[simp] theorem setOtp_sxt (s : State) (o : Otp) : (s.setOtp o).sxt = s.sxt := rfl
@[simp] theorem setOtp_tsi (s : State) (o : Otp) : (s.setOtp o).tsi = s.tsi := rfl
@[simp] theorem setOtp_alm (s : State) (o : Otp) : (s.setOtp o).alm = s.alm := rfl
@[simp] theorem setOtp_ciph (s : State) (o : Otp) : (s.setOtp o).ciph = s.ciph := rfl
@[simp] theorem setOtp_orr (s : State) (o : Otp) : (s.setOtp o).orr = s.orr := rfl
@[simp] theorem setOtp_trx (s : State) (o : Otp) : (s.setOtp o).trx = s.trx := rfl
@[simp] theorem setOtp_fwdIn (s : State) (o : Otp) : (s.setOtp o).fwdIn = s.fwdIn := rfl
@[simp] theorem setOtp_pair (s : State) (o : Otp) : (s.setOtp o).pair = s.pair := rfl
@[simp] theorem setOtp_ka (s : State) (o : Otp) : (s.setOtp o).ka = s.ka := rfl
@[simp] theorem setOtp_msec (s : State) (o : Otp) : (s.setOtp o).msec = s.msec := rfl
@[simp] theorem setOtp_sent (s : State) (o : Otp) : (s.setOtp o).sent = s.sent := rfl
@[simp] theorem setOtp_mail (s : State) (o : Otp) : (s.setOtp o).mail = s.mail := rfl
@[simp] theorem setOtp_navIn (s : State) (o : Otp) : (s.setOtp o).navIn = s.navIn := rfl
@[simp] theorem setOtp_injDone (s : State) (o : Otp) : (s.setOtp o).injDone = s.injDone := rfl
@[simp] theorem setOtp_fwd (s : State) (o : Otp) : (s.setOtp o).fwd = s.fwd := rfl
@[simp] theorem setOtp_xin (s : State) (o : Otp) : (s.setOtp o).xin = s.xin := rfl
@[simp] theorem setOtp_qin (s : State) (o : Otp) : (s.setOtp o).qin = s.qin := rfl
@[simp] theorem setOtp_hostIn (s : State) (o : Otp) : (s.setOtp o).hostIn = s.hostIn := rfl
@[simp] theorem setOtp_qsch (s : State) (o : Otp) : (s.setOtp o).qsch = s.qsch := rfl
@[simp] theorem setOtp_buf (s : State) (o : Otp) : (s.setOtp o).buf = s.buf := rfl
@[simp] theorem setOtp_gate (s : State) (o : Otp) : (s.setOtp o).gate = s.gate := rfl
@[simp] theorem setOtp_ckt (s : State) (o : Otp) : (s.setOtp o).ckt = s.ckt := rfl
@[simp] theorem setOtp_ages (s : State) (o : Otp) : (s.setOtp o).ages = s.ages := rfl
@[simp] theorem setOtp_ovrAt (s : State) (o : Otp) : (s.setOtp o).ovrAt = s.ovrAt := rfl
@[simp] theorem setOtp_nav (s : State) (o : Otp) : (s.setOtp o).nav = s.nav := rfl
@[simp] theorem setOtp_navc (s : State) (o : Otp) : (s.setOtp o).navc = s.navc := rfl
@[simp] theorem setOtp_nmem (s : State) (o : Otp) : (s.setOtp o).nmem = s.nmem := rfl
@[simp] theorem setOtp_nbad (s : State) (o : Otp) : (s.setOtp o).nbad = s.nbad := rfl
@[simp] theorem setOtp_posts (s : State) (o : Otp) : (s.setOtp o).posts = s.posts := rfl
@[simp] theorem setOtp_qmap (s : State) (o : Otp) : (s.setOtp o).qmap = s.qmap := rfl
@[simp] theorem setOtp_qhold (s : State) (o : Otp) : (s.setOtp o).qhold = s.qhold := rfl
@[simp] theorem setOtp_sealS (s : State) (o : Otp) : (s.setOtp o).sealS = s.sealS := rfl
@[simp] theorem setOtp_ser (s : State) (o : Otp) : (s.setOtp o).ser = s.ser := rfl
@[simp] theorem setOtp_rd (s : State) (o : Otp) (q : Nat) : (s.setOtp o).rd q = s.rd q := rfl
@[simp] theorem setOtp_reg (s : State) (o : Otp) (q : RegId) (z : Nat) : (s.setOtp o).reg q z = s.reg q z := rfl
@[simp] theorem setOtp_regI (s : State) (o : Otp) (q : RegId) (z y : Nat) : (s.setOtp o).regI q z y = s.regI q z y := rfl
@[simp] theorem setOtp_fld (s : State) (o : Otp) (q : FldId) (z y : Nat) : (s.setOtp o).fld q z y = s.fld q z y := rfl
@[simp] theorem setOtp_flag (s : State) (o : Otp) (q : FldId) (z y : Nat) : (s.setOtp o).flag q z y = s.flag q z y := rfl
@[simp] theorem setOtp_reg64 (s : State) (o : Otp) (q : RegId) (z : Nat) : (s.setOtp o).reg64 q z = s.reg64 q z := rfl
@[simp] theorem setOtp_active (s : State) (o : Otp) (q z : Nat) : (s.setOtp o).active q z = s.active q z := rfl
@[simp] theorem setOtp_inv (s : State) (o : Otp) (q z y : Nat) : (s.setOtp o).inv q z y = s.inv q z y := rfl
@[simp] theorem setOtp_isActive (s : State) (o : Otp) : (s.setOtp o).isActive = s.isActive := rfl
@[simp] theorem setOtp_mirrorSt (s : State) (o : Otp) : (s.setOtp o).mirrorSt = s.mirrorSt := rfl
@[simp] theorem setOtp_present (s : State) (o : Otp) (q z : Nat) : (s.setOtp o).present q z = s.present q z := rfl
@[simp] theorem setOtp_tick (s : State) (o : Otp) : (s.setOtp o).tick = s.tick := rfl

/-! ## `State.setDom` -/

@[simp] theorem setDom_part (s : State) (d : Nat) (x : Dom) : (s.setDom d x).part = s.part := rfl
@[simp] theorem setDom_pending (s : State) (d : Nat) (x : Dom) : (s.setDom d x).pending = s.pending := rfl
@[simp] theorem setDom_regs (s : State) (d : Nat) (x : Dom) : (s.setDom d x).regs = s.regs := rfl
@[simp] theorem setDom_seen (s : State) (d : Nat) (x : Dom) : (s.setDom d x).seen = s.seen := rfl
@[simp] theorem setDom_rwo (s : State) (d : Nat) (x : Dom) : (s.setDom d x).rwo = s.rwo := rfl
@[simp] theorem setDom_pr (s : State) (d : Nat) (x : Dom) : (s.setDom d x).pr = s.pr := rfl
@[simp] theorem setDom_fresh (s : State) (d : Nat) (x : Dom) : (s.setDom d x).fresh = s.fresh := rfl
@[simp] theorem setDom_halted (s : State) (d : Nat) (x : Dom) : (s.setDom d x).halted = s.halted := rfl
@[simp] theorem setDom_bin (s : State) (d : Nat) (x : Dom) : (s.setDom d x).bin = s.bin := rfl
@[simp] theorem setDom_hif (s : State) (d : Nat) (x : Dom) : (s.setDom d x).hif = s.hif := rfl
@[simp] theorem setDom_crc (s : State) (d : Nat) (x : Dom) : (s.setDom d x).crc = s.crc := rfl
@[simp] theorem setDom_pmc (s : State) (d : Nat) (x : Dom) : (s.setDom d x).pmc = s.pmc := rfl
@[simp] theorem setDom_lcs (s : State) (d : Nat) (x : Dom) : (s.setDom d x).lcs = s.lcs := rfl
@[simp] theorem setDom_deadline (s : State) (d : Nat) (x : Dom) : (s.setDom d x).deadline = s.deadline := rfl
@[simp] theorem setDom_tickWork (s : State) (d : Nat) (x : Dom) : (s.setDom d x).tickWork = s.tickWork := rfl
@[simp] theorem setDom_ttx (s : State) (d : Nat) (x : Dom) : (s.setDom d x).ttx = s.ttx := rfl
@[simp] theorem setDom_terms (s : State) (d : Nat) (x : Dom) : (s.setDom d x).terms = s.terms := rfl
@[simp] theorem setDom_sxt (s : State) (d : Nat) (x : Dom) : (s.setDom d x).sxt = s.sxt := rfl
@[simp] theorem setDom_tsi (s : State) (d : Nat) (x : Dom) : (s.setDom d x).tsi = s.tsi := rfl
@[simp] theorem setDom_alm (s : State) (d : Nat) (x : Dom) : (s.setDom d x).alm = s.alm := rfl
@[simp] theorem setDom_ciph (s : State) (d : Nat) (x : Dom) : (s.setDom d x).ciph = s.ciph := rfl
@[simp] theorem setDom_orr (s : State) (d : Nat) (x : Dom) : (s.setDom d x).orr = s.orr := rfl
@[simp] theorem setDom_trx (s : State) (d : Nat) (x : Dom) : (s.setDom d x).trx = s.trx := rfl
@[simp] theorem setDom_fwdIn (s : State) (d : Nat) (x : Dom) : (s.setDom d x).fwdIn = s.fwdIn := rfl
@[simp] theorem setDom_pair (s : State) (d : Nat) (x : Dom) : (s.setDom d x).pair = s.pair := rfl
@[simp] theorem setDom_ka (s : State) (d : Nat) (x : Dom) : (s.setDom d x).ka = s.ka := rfl
@[simp] theorem setDom_msec (s : State) (d : Nat) (x : Dom) : (s.setDom d x).msec = s.msec := rfl
@[simp] theorem setDom_sent (s : State) (d : Nat) (x : Dom) : (s.setDom d x).sent = s.sent := rfl
@[simp] theorem setDom_mail (s : State) (d : Nat) (x : Dom) : (s.setDom d x).mail = s.mail := rfl
@[simp] theorem setDom_navIn (s : State) (d : Nat) (x : Dom) : (s.setDom d x).navIn = s.navIn := rfl
@[simp] theorem setDom_injDone (s : State) (d : Nat) (x : Dom) : (s.setDom d x).injDone = s.injDone := rfl
@[simp] theorem setDom_fwd (s : State) (d : Nat) (x : Dom) : (s.setDom d x).fwd = s.fwd := rfl
@[simp] theorem setDom_xin (s : State) (d : Nat) (x : Dom) : (s.setDom d x).xin = s.xin := rfl
@[simp] theorem setDom_qin (s : State) (d : Nat) (x : Dom) : (s.setDom d x).qin = s.qin := rfl
@[simp] theorem setDom_hostIn (s : State) (d : Nat) (x : Dom) : (s.setDom d x).hostIn = s.hostIn := rfl
@[simp] theorem setDom_qsch (s : State) (d : Nat) (x : Dom) : (s.setDom d x).qsch = s.qsch := rfl
@[simp] theorem setDom_buf (s : State) (d : Nat) (x : Dom) : (s.setDom d x).buf = s.buf := rfl
@[simp] theorem setDom_gate (s : State) (d : Nat) (x : Dom) : (s.setDom d x).gate = s.gate := rfl
@[simp] theorem setDom_ckt (s : State) (d : Nat) (x : Dom) : (s.setDom d x).ckt = s.ckt := rfl
@[simp] theorem setDom_ages (s : State) (d : Nat) (x : Dom) : (s.setDom d x).ages = s.ages := rfl
@[simp] theorem setDom_ovrAt (s : State) (d : Nat) (x : Dom) : (s.setDom d x).ovrAt = s.ovrAt := rfl
@[simp] theorem setDom_nav (s : State) (d : Nat) (x : Dom) : (s.setDom d x).nav = s.nav := rfl
@[simp] theorem setDom_navc (s : State) (d : Nat) (x : Dom) : (s.setDom d x).navc = s.navc := rfl
@[simp] theorem setDom_nmem (s : State) (d : Nat) (x : Dom) : (s.setDom d x).nmem = s.nmem := rfl
@[simp] theorem setDom_nbad (s : State) (d : Nat) (x : Dom) : (s.setDom d x).nbad = s.nbad := rfl
@[simp] theorem setDom_posts (s : State) (d : Nat) (x : Dom) : (s.setDom d x).posts = s.posts := rfl
@[simp] theorem setDom_qmap (s : State) (d : Nat) (x : Dom) : (s.setDom d x).qmap = s.qmap := rfl
@[simp] theorem setDom_qhold (s : State) (d : Nat) (x : Dom) : (s.setDom d x).qhold = s.qhold := rfl
@[simp] theorem setDom_sealS (s : State) (d : Nat) (x : Dom) : (s.setDom d x).sealS = s.sealS := rfl
@[simp] theorem setDom_ser (s : State) (d : Nat) (x : Dom) : (s.setDom d x).ser = s.ser := rfl
@[simp] theorem setDom_rd (s : State) (d : Nat) (x : Dom) (q : Nat) : (s.setDom d x).rd q = s.rd q := rfl
@[simp] theorem setDom_reg (s : State) (d : Nat) (x : Dom) (q : RegId) (z : Nat) : (s.setDom d x).reg q z = s.reg q z := rfl
@[simp] theorem setDom_regI (s : State) (d : Nat) (x : Dom) (q : RegId) (z y : Nat) : (s.setDom d x).regI q z y = s.regI q z y := rfl
@[simp] theorem setDom_fld (s : State) (d : Nat) (x : Dom) (q : FldId) (z y : Nat) : (s.setDom d x).fld q z y = s.fld q z y := rfl
@[simp] theorem setDom_flag (s : State) (d : Nat) (x : Dom) (q : FldId) (z y : Nat) : (s.setDom d x).flag q z y = s.flag q z y := rfl
@[simp] theorem setDom_reg64 (s : State) (d : Nat) (x : Dom) (q : RegId) (z : Nat) : (s.setDom d x).reg64 q z = s.reg64 q z := rfl
@[simp] theorem setDom_active (s : State) (d : Nat) (x : Dom) (q z : Nat) : (s.setDom d x).active q z = s.active q z := rfl
@[simp] theorem setDom_inv (s : State) (d : Nat) (x : Dom) (q z y : Nat) : (s.setDom d x).inv q z y = s.inv q z y := rfl
@[simp] theorem setDom_isActive (s : State) (d : Nat) (x : Dom) : (s.setDom d x).isActive = s.isActive := rfl
@[simp] theorem setDom_mirrorSt (s : State) (d : Nat) (x : Dom) : (s.setDom d x).mirrorSt = s.mirrorSt := rfl
@[simp] theorem setDom_present (s : State) (d : Nat) (x : Dom) (q z : Nat) : (s.setDom d x).present q z = s.present q z := rfl
@[simp] theorem setDom_off (s : State) (d : Nat) (x : Dom) : (s.setDom d x).off = s.off := rfl

/-! ## `State.setCount` -/

@[simp] theorem setCount_part (s : State) (m e : Nat) : (s.setCount m e).part = s.part := rfl
@[simp] theorem setCount_pending (s : State) (m e : Nat) : (s.setCount m e).pending = s.pending := rfl
@[simp] theorem setCount_regs (s : State) (m e : Nat) : (s.setCount m e).regs = s.regs := rfl
@[simp] theorem setCount_seen (s : State) (m e : Nat) : (s.setCount m e).seen = s.seen := rfl
@[simp] theorem setCount_rwo (s : State) (m e : Nat) : (s.setCount m e).rwo = s.rwo := rfl
@[simp] theorem setCount_pr (s : State) (m e : Nat) : (s.setCount m e).pr = s.pr := rfl
@[simp] theorem setCount_fresh (s : State) (m e : Nat) : (s.setCount m e).fresh = s.fresh := rfl
@[simp] theorem setCount_halted (s : State) (m e : Nat) : (s.setCount m e).halted = s.halted := rfl
@[simp] theorem setCount_bin (s : State) (m e : Nat) : (s.setCount m e).bin = s.bin := rfl
@[simp] theorem setCount_hif (s : State) (m e : Nat) : (s.setCount m e).hif = s.hif := rfl
@[simp] theorem setCount_crc (s : State) (m e : Nat) : (s.setCount m e).crc = s.crc := rfl
@[simp] theorem setCount_pmc (s : State) (m e : Nat) : (s.setCount m e).pmc = s.pmc := rfl
@[simp] theorem setCount_lcs (s : State) (m e : Nat) : (s.setCount m e).lcs = s.lcs := rfl
@[simp] theorem setCount_deadline (s : State) (m e : Nat) : (s.setCount m e).deadline = s.deadline := rfl
@[simp] theorem setCount_tickWork (s : State) (m e : Nat) : (s.setCount m e).tickWork = s.tickWork := rfl
@[simp] theorem setCount_ttx (s : State) (m e : Nat) : (s.setCount m e).ttx = s.ttx := rfl
@[simp] theorem setCount_terms (s : State) (m e : Nat) : (s.setCount m e).terms = s.terms := rfl
@[simp] theorem setCount_sxt (s : State) (m e : Nat) : (s.setCount m e).sxt = s.sxt := rfl
@[simp] theorem setCount_tsi (s : State) (m e : Nat) : (s.setCount m e).tsi = s.tsi := rfl
@[simp] theorem setCount_alm (s : State) (m e : Nat) : (s.setCount m e).alm = s.alm := rfl
@[simp] theorem setCount_ciph (s : State) (m e : Nat) : (s.setCount m e).ciph = s.ciph := rfl
@[simp] theorem setCount_orr (s : State) (m e : Nat) : (s.setCount m e).orr = s.orr := rfl
@[simp] theorem setCount_trx (s : State) (m e : Nat) : (s.setCount m e).trx = s.trx := rfl
@[simp] theorem setCount_fwdIn (s : State) (m e : Nat) : (s.setCount m e).fwdIn = s.fwdIn := rfl
@[simp] theorem setCount_pair (s : State) (m e : Nat) : (s.setCount m e).pair = s.pair := rfl
@[simp] theorem setCount_ka (s : State) (m e : Nat) : (s.setCount m e).ka = s.ka := rfl
@[simp] theorem setCount_msec (s : State) (m e : Nat) : (s.setCount m e).msec = s.msec := rfl
@[simp] theorem setCount_sent (s : State) (m e : Nat) : (s.setCount m e).sent = s.sent := rfl
@[simp] theorem setCount_mail (s : State) (m e : Nat) : (s.setCount m e).mail = s.mail := rfl
@[simp] theorem setCount_navIn (s : State) (m e : Nat) : (s.setCount m e).navIn = s.navIn := rfl
@[simp] theorem setCount_injDone (s : State) (m e : Nat) : (s.setCount m e).injDone = s.injDone := rfl
@[simp] theorem setCount_fwd (s : State) (m e : Nat) : (s.setCount m e).fwd = s.fwd := rfl
@[simp] theorem setCount_xin (s : State) (m e : Nat) : (s.setCount m e).xin = s.xin := rfl
@[simp] theorem setCount_qin (s : State) (m e : Nat) : (s.setCount m e).qin = s.qin := rfl
@[simp] theorem setCount_hostIn (s : State) (m e : Nat) : (s.setCount m e).hostIn = s.hostIn := rfl
@[simp] theorem setCount_qsch (s : State) (m e : Nat) : (s.setCount m e).qsch = s.qsch := rfl
@[simp] theorem setCount_buf (s : State) (m e : Nat) : (s.setCount m e).buf = s.buf := rfl
@[simp] theorem setCount_gate (s : State) (m e : Nat) : (s.setCount m e).gate = s.gate := rfl
@[simp] theorem setCount_ckt (s : State) (m e : Nat) : (s.setCount m e).ckt = s.ckt := rfl
@[simp] theorem setCount_ages (s : State) (m e : Nat) : (s.setCount m e).ages = s.ages := rfl
@[simp] theorem setCount_ovrAt (s : State) (m e : Nat) : (s.setCount m e).ovrAt = s.ovrAt := rfl
@[simp] theorem setCount_nav (s : State) (m e : Nat) : (s.setCount m e).nav = s.nav := rfl
@[simp] theorem setCount_navc (s : State) (m e : Nat) : (s.setCount m e).navc = s.navc := rfl
@[simp] theorem setCount_nmem (s : State) (m e : Nat) : (s.setCount m e).nmem = s.nmem := rfl
@[simp] theorem setCount_nbad (s : State) (m e : Nat) : (s.setCount m e).nbad = s.nbad := rfl
@[simp] theorem setCount_posts (s : State) (m e : Nat) : (s.setCount m e).posts = s.posts := rfl
@[simp] theorem setCount_qmap (s : State) (m e : Nat) : (s.setCount m e).qmap = s.qmap := rfl
@[simp] theorem setCount_qhold (s : State) (m e : Nat) : (s.setCount m e).qhold = s.qhold := rfl
@[simp] theorem setCount_sealS (s : State) (m e : Nat) : (s.setCount m e).sealS = s.sealS := rfl
@[simp] theorem setCount_ser (s : State) (m e : Nat) : (s.setCount m e).ser = s.ser := rfl
@[simp] theorem setCount_rd (s : State) (m e : Nat) (q : Nat) : (s.setCount m e).rd q = s.rd q := rfl
@[simp] theorem setCount_reg (s : State) (m e : Nat) (q : RegId) (z : Nat) : (s.setCount m e).reg q z = s.reg q z := rfl
@[simp] theorem setCount_regI (s : State) (m e : Nat) (q : RegId) (z y : Nat) : (s.setCount m e).regI q z y = s.regI q z y := rfl
@[simp] theorem setCount_fld (s : State) (m e : Nat) (q : FldId) (z y : Nat) : (s.setCount m e).fld q z y = s.fld q z y := rfl
@[simp] theorem setCount_flag (s : State) (m e : Nat) (q : FldId) (z y : Nat) : (s.setCount m e).flag q z y = s.flag q z y := rfl
@[simp] theorem setCount_reg64 (s : State) (m e : Nat) (q : RegId) (z : Nat) : (s.setCount m e).reg64 q z = s.reg64 q z := rfl
@[simp] theorem setCount_active (s : State) (m e : Nat) (q z : Nat) : (s.setCount m e).active q z = s.active q z := rfl
@[simp] theorem setCount_inv (s : State) (m e : Nat) (q z y : Nat) : (s.setCount m e).inv q z y = s.inv q z y := rfl
@[simp] theorem setCount_isActive (s : State) (m e : Nat) : (s.setCount m e).isActive = s.isActive := rfl
@[simp] theorem setCount_mirrorSt (s : State) (m e : Nat) : (s.setCount m e).mirrorSt = s.mirrorSt := rfl
@[simp] theorem setCount_present (s : State) (m e : Nat) (q z : Nat) : (s.setCount m e).present q z = s.present q z := rfl
@[simp] theorem setCount_off (s : State) (m e : Nat) : (s.setCount m e).off = s.off := rfl

/-! ## `State.setTx` -/

@[simp] theorem setTx_part (s : State) (t : Nat) (x : TtxS) : (s.setTx t x).part = s.part := rfl
@[simp] theorem setTx_pending (s : State) (t : Nat) (x : TtxS) : (s.setTx t x).pending = s.pending := rfl
@[simp] theorem setTx_regs (s : State) (t : Nat) (x : TtxS) : (s.setTx t x).regs = s.regs := rfl
@[simp] theorem setTx_seen (s : State) (t : Nat) (x : TtxS) : (s.setTx t x).seen = s.seen := rfl
@[simp] theorem setTx_rwo (s : State) (t : Nat) (x : TtxS) : (s.setTx t x).rwo = s.rwo := rfl
@[simp] theorem setTx_pr (s : State) (t : Nat) (x : TtxS) : (s.setTx t x).pr = s.pr := rfl
@[simp] theorem setTx_fresh (s : State) (t : Nat) (x : TtxS) : (s.setTx t x).fresh = s.fresh := rfl
@[simp] theorem setTx_halted (s : State) (t : Nat) (x : TtxS) : (s.setTx t x).halted = s.halted := rfl
@[simp] theorem setTx_bin (s : State) (t : Nat) (x : TtxS) : (s.setTx t x).bin = s.bin := rfl
@[simp] theorem setTx_hif (s : State) (t : Nat) (x : TtxS) : (s.setTx t x).hif = s.hif := rfl
@[simp] theorem setTx_crc (s : State) (t : Nat) (x : TtxS) : (s.setTx t x).crc = s.crc := rfl
@[simp] theorem setTx_pmc (s : State) (t : Nat) (x : TtxS) : (s.setTx t x).pmc = s.pmc := rfl
@[simp] theorem setTx_lcs (s : State) (t : Nat) (x : TtxS) : (s.setTx t x).lcs = s.lcs := rfl
@[simp] theorem setTx_tm (s : State) (t : Nat) (x : TtxS) : (s.setTx t x).tm = s.tm := rfl
@[simp] theorem setTx_deadline (s : State) (t : Nat) (x : TtxS) : (s.setTx t x).deadline = s.deadline := rfl
@[simp] theorem setTx_tickWork (s : State) (t : Nat) (x : TtxS) : (s.setTx t x).tickWork = s.tickWork := rfl
@[simp] theorem setTx_terms (s : State) (t : Nat) (x : TtxS) : (s.setTx t x).terms = s.terms := rfl
@[simp] theorem setTx_sxt (s : State) (t : Nat) (x : TtxS) : (s.setTx t x).sxt = s.sxt := rfl
@[simp] theorem setTx_tsi (s : State) (t : Nat) (x : TtxS) : (s.setTx t x).tsi = s.tsi := rfl
@[simp] theorem setTx_alm (s : State) (t : Nat) (x : TtxS) : (s.setTx t x).alm = s.alm := rfl
@[simp] theorem setTx_ciph (s : State) (t : Nat) (x : TtxS) : (s.setTx t x).ciph = s.ciph := rfl
@[simp] theorem setTx_orr (s : State) (t : Nat) (x : TtxS) : (s.setTx t x).orr = s.orr := rfl
@[simp] theorem setTx_trx (s : State) (t : Nat) (x : TtxS) : (s.setTx t x).trx = s.trx := rfl
@[simp] theorem setTx_fwdIn (s : State) (t : Nat) (x : TtxS) : (s.setTx t x).fwdIn = s.fwdIn := rfl
@[simp] theorem setTx_pair (s : State) (t : Nat) (x : TtxS) : (s.setTx t x).pair = s.pair := rfl
@[simp] theorem setTx_ka (s : State) (t : Nat) (x : TtxS) : (s.setTx t x).ka = s.ka := rfl
@[simp] theorem setTx_msec (s : State) (t : Nat) (x : TtxS) : (s.setTx t x).msec = s.msec := rfl
@[simp] theorem setTx_sent (s : State) (t : Nat) (x : TtxS) : (s.setTx t x).sent = s.sent := rfl
@[simp] theorem setTx_mail (s : State) (t : Nat) (x : TtxS) : (s.setTx t x).mail = s.mail := rfl
@[simp] theorem setTx_navIn (s : State) (t : Nat) (x : TtxS) : (s.setTx t x).navIn = s.navIn := rfl
@[simp] theorem setTx_injDone (s : State) (t : Nat) (x : TtxS) : (s.setTx t x).injDone = s.injDone := rfl
@[simp] theorem setTx_fwd (s : State) (t : Nat) (x : TtxS) : (s.setTx t x).fwd = s.fwd := rfl
@[simp] theorem setTx_xin (s : State) (t : Nat) (x : TtxS) : (s.setTx t x).xin = s.xin := rfl
@[simp] theorem setTx_qin (s : State) (t : Nat) (x : TtxS) : (s.setTx t x).qin = s.qin := rfl
@[simp] theorem setTx_hostIn (s : State) (t : Nat) (x : TtxS) : (s.setTx t x).hostIn = s.hostIn := rfl
@[simp] theorem setTx_qsch (s : State) (t : Nat) (x : TtxS) : (s.setTx t x).qsch = s.qsch := rfl
@[simp] theorem setTx_buf (s : State) (t : Nat) (x : TtxS) : (s.setTx t x).buf = s.buf := rfl
@[simp] theorem setTx_gate (s : State) (t : Nat) (x : TtxS) : (s.setTx t x).gate = s.gate := rfl
@[simp] theorem setTx_ckt (s : State) (t : Nat) (x : TtxS) : (s.setTx t x).ckt = s.ckt := rfl
@[simp] theorem setTx_ages (s : State) (t : Nat) (x : TtxS) : (s.setTx t x).ages = s.ages := rfl
@[simp] theorem setTx_ovrAt (s : State) (t : Nat) (x : TtxS) : (s.setTx t x).ovrAt = s.ovrAt := rfl
@[simp] theorem setTx_nav (s : State) (t : Nat) (x : TtxS) : (s.setTx t x).nav = s.nav := rfl
@[simp] theorem setTx_navc (s : State) (t : Nat) (x : TtxS) : (s.setTx t x).navc = s.navc := rfl
@[simp] theorem setTx_nmem (s : State) (t : Nat) (x : TtxS) : (s.setTx t x).nmem = s.nmem := rfl
@[simp] theorem setTx_nbad (s : State) (t : Nat) (x : TtxS) : (s.setTx t x).nbad = s.nbad := rfl
@[simp] theorem setTx_posts (s : State) (t : Nat) (x : TtxS) : (s.setTx t x).posts = s.posts := rfl
@[simp] theorem setTx_qmap (s : State) (t : Nat) (x : TtxS) : (s.setTx t x).qmap = s.qmap := rfl
@[simp] theorem setTx_qhold (s : State) (t : Nat) (x : TtxS) : (s.setTx t x).qhold = s.qhold := rfl
@[simp] theorem setTx_sealS (s : State) (t : Nat) (x : TtxS) : (s.setTx t x).sealS = s.sealS := rfl
@[simp] theorem setTx_ser (s : State) (t : Nat) (x : TtxS) : (s.setTx t x).ser = s.ser := rfl
@[simp] theorem setTx_rd (s : State) (t : Nat) (x : TtxS) (q : Nat) : (s.setTx t x).rd q = s.rd q := rfl
@[simp] theorem setTx_reg (s : State) (t : Nat) (x : TtxS) (q : RegId) (z : Nat) : (s.setTx t x).reg q z = s.reg q z := rfl
@[simp] theorem setTx_regI (s : State) (t : Nat) (x : TtxS) (q : RegId) (z y : Nat) : (s.setTx t x).regI q z y = s.regI q z y := rfl
@[simp] theorem setTx_fld (s : State) (t : Nat) (x : TtxS) (q : FldId) (z y : Nat) : (s.setTx t x).fld q z y = s.fld q z y := rfl
@[simp] theorem setTx_flag (s : State) (t : Nat) (x : TtxS) (q : FldId) (z y : Nat) : (s.setTx t x).flag q z y = s.flag q z y := rfl
@[simp] theorem setTx_reg64 (s : State) (t : Nat) (x : TtxS) (q : RegId) (z : Nat) : (s.setTx t x).reg64 q z = s.reg64 q z := rfl
@[simp] theorem setTx_active (s : State) (t : Nat) (x : TtxS) (q z : Nat) : (s.setTx t x).active q z = s.active q z := rfl
@[simp] theorem setTx_inv (s : State) (t : Nat) (x : TtxS) (q z y : Nat) : (s.setTx t x).inv q z y = s.inv q z y := rfl
@[simp] theorem setTx_isActive (s : State) (t : Nat) (x : TtxS) : (s.setTx t x).isActive = s.isActive := rfl
@[simp] theorem setTx_mirrorSt (s : State) (t : Nat) (x : TtxS) : (s.setTx t x).mirrorSt = s.mirrorSt := rfl
@[simp] theorem setTx_present (s : State) (t : Nat) (x : TtxS) (q z : Nat) : (s.setTx t x).present q z = s.present q z := rfl
@[simp] theorem setTx_off (s : State) (t : Nat) (x : TtxS) : (s.setTx t x).off = s.off := rfl
@[simp] theorem setTx_tick (s : State) (t : Nat) (x : TtxS) : (s.setTx t x).tick = s.tick := rfl

/-! ## `State.setTerm` -/

@[simp] theorem setTerm_part (s : State) (k : Nat) (x : Term) : (s.setTerm k x).part = s.part := rfl
@[simp] theorem setTerm_pending (s : State) (k : Nat) (x : Term) : (s.setTerm k x).pending = s.pending := rfl
@[simp] theorem setTerm_regs (s : State) (k : Nat) (x : Term) : (s.setTerm k x).regs = s.regs := rfl
@[simp] theorem setTerm_seen (s : State) (k : Nat) (x : Term) : (s.setTerm k x).seen = s.seen := rfl
@[simp] theorem setTerm_rwo (s : State) (k : Nat) (x : Term) : (s.setTerm k x).rwo = s.rwo := rfl
@[simp] theorem setTerm_pr (s : State) (k : Nat) (x : Term) : (s.setTerm k x).pr = s.pr := rfl
@[simp] theorem setTerm_fresh (s : State) (k : Nat) (x : Term) : (s.setTerm k x).fresh = s.fresh := rfl
@[simp] theorem setTerm_halted (s : State) (k : Nat) (x : Term) : (s.setTerm k x).halted = s.halted := rfl
@[simp] theorem setTerm_bin (s : State) (k : Nat) (x : Term) : (s.setTerm k x).bin = s.bin := rfl
@[simp] theorem setTerm_hif (s : State) (k : Nat) (x : Term) : (s.setTerm k x).hif = s.hif := rfl
@[simp] theorem setTerm_crc (s : State) (k : Nat) (x : Term) : (s.setTerm k x).crc = s.crc := rfl
@[simp] theorem setTerm_pmc (s : State) (k : Nat) (x : Term) : (s.setTerm k x).pmc = s.pmc := rfl
@[simp] theorem setTerm_lcs (s : State) (k : Nat) (x : Term) : (s.setTerm k x).lcs = s.lcs := rfl
@[simp] theorem setTerm_tm (s : State) (k : Nat) (x : Term) : (s.setTerm k x).tm = s.tm := rfl
@[simp] theorem setTerm_deadline (s : State) (k : Nat) (x : Term) : (s.setTerm k x).deadline = s.deadline := rfl
@[simp] theorem setTerm_tickWork (s : State) (k : Nat) (x : Term) : (s.setTerm k x).tickWork = s.tickWork := rfl
@[simp] theorem setTerm_ttx (s : State) (k : Nat) (x : Term) : (s.setTerm k x).ttx = s.ttx := rfl
@[simp] theorem setTerm_sxt (s : State) (k : Nat) (x : Term) : (s.setTerm k x).sxt = s.sxt := rfl
@[simp] theorem setTerm_tsi (s : State) (k : Nat) (x : Term) : (s.setTerm k x).tsi = s.tsi := rfl
@[simp] theorem setTerm_alm (s : State) (k : Nat) (x : Term) : (s.setTerm k x).alm = s.alm := rfl
@[simp] theorem setTerm_ciph (s : State) (k : Nat) (x : Term) : (s.setTerm k x).ciph = s.ciph := rfl
@[simp] theorem setTerm_orr (s : State) (k : Nat) (x : Term) : (s.setTerm k x).orr = s.orr := rfl
@[simp] theorem setTerm_trx (s : State) (k : Nat) (x : Term) : (s.setTerm k x).trx = s.trx := rfl
@[simp] theorem setTerm_fwdIn (s : State) (k : Nat) (x : Term) : (s.setTerm k x).fwdIn = s.fwdIn := rfl
@[simp] theorem setTerm_pair (s : State) (k : Nat) (x : Term) : (s.setTerm k x).pair = s.pair := rfl
@[simp] theorem setTerm_ka (s : State) (k : Nat) (x : Term) : (s.setTerm k x).ka = s.ka := rfl
@[simp] theorem setTerm_msec (s : State) (k : Nat) (x : Term) : (s.setTerm k x).msec = s.msec := rfl
@[simp] theorem setTerm_sent (s : State) (k : Nat) (x : Term) : (s.setTerm k x).sent = s.sent := rfl
@[simp] theorem setTerm_mail (s : State) (k : Nat) (x : Term) : (s.setTerm k x).mail = s.mail := rfl
@[simp] theorem setTerm_navIn (s : State) (k : Nat) (x : Term) : (s.setTerm k x).navIn = s.navIn := rfl
@[simp] theorem setTerm_injDone (s : State) (k : Nat) (x : Term) : (s.setTerm k x).injDone = s.injDone := rfl
@[simp] theorem setTerm_fwd (s : State) (k : Nat) (x : Term) : (s.setTerm k x).fwd = s.fwd := rfl
@[simp] theorem setTerm_xin (s : State) (k : Nat) (x : Term) : (s.setTerm k x).xin = s.xin := rfl
@[simp] theorem setTerm_qin (s : State) (k : Nat) (x : Term) : (s.setTerm k x).qin = s.qin := rfl
@[simp] theorem setTerm_hostIn (s : State) (k : Nat) (x : Term) : (s.setTerm k x).hostIn = s.hostIn := rfl
@[simp] theorem setTerm_qsch (s : State) (k : Nat) (x : Term) : (s.setTerm k x).qsch = s.qsch := rfl
@[simp] theorem setTerm_buf (s : State) (k : Nat) (x : Term) : (s.setTerm k x).buf = s.buf := rfl
@[simp] theorem setTerm_gate (s : State) (k : Nat) (x : Term) : (s.setTerm k x).gate = s.gate := rfl
@[simp] theorem setTerm_ckt (s : State) (k : Nat) (x : Term) : (s.setTerm k x).ckt = s.ckt := rfl
@[simp] theorem setTerm_ages (s : State) (k : Nat) (x : Term) : (s.setTerm k x).ages = s.ages := rfl
@[simp] theorem setTerm_ovrAt (s : State) (k : Nat) (x : Term) : (s.setTerm k x).ovrAt = s.ovrAt := rfl
@[simp] theorem setTerm_nav (s : State) (k : Nat) (x : Term) : (s.setTerm k x).nav = s.nav := rfl
@[simp] theorem setTerm_navc (s : State) (k : Nat) (x : Term) : (s.setTerm k x).navc = s.navc := rfl
@[simp] theorem setTerm_nmem (s : State) (k : Nat) (x : Term) : (s.setTerm k x).nmem = s.nmem := rfl
@[simp] theorem setTerm_nbad (s : State) (k : Nat) (x : Term) : (s.setTerm k x).nbad = s.nbad := rfl
@[simp] theorem setTerm_posts (s : State) (k : Nat) (x : Term) : (s.setTerm k x).posts = s.posts := rfl
@[simp] theorem setTerm_qmap (s : State) (k : Nat) (x : Term) : (s.setTerm k x).qmap = s.qmap := rfl
@[simp] theorem setTerm_qhold (s : State) (k : Nat) (x : Term) : (s.setTerm k x).qhold = s.qhold := rfl
@[simp] theorem setTerm_sealS (s : State) (k : Nat) (x : Term) : (s.setTerm k x).sealS = s.sealS := rfl
@[simp] theorem setTerm_ser (s : State) (k : Nat) (x : Term) : (s.setTerm k x).ser = s.ser := rfl
@[simp] theorem setTerm_rd (s : State) (k : Nat) (x : Term) (q : Nat) : (s.setTerm k x).rd q = s.rd q := rfl
@[simp] theorem setTerm_reg (s : State) (k : Nat) (x : Term) (q : RegId) (z : Nat) : (s.setTerm k x).reg q z = s.reg q z := rfl
@[simp] theorem setTerm_regI (s : State) (k : Nat) (x : Term) (q : RegId) (z y : Nat) : (s.setTerm k x).regI q z y = s.regI q z y := rfl
@[simp] theorem setTerm_fld (s : State) (k : Nat) (x : Term) (q : FldId) (z y : Nat) : (s.setTerm k x).fld q z y = s.fld q z y := rfl
@[simp] theorem setTerm_flag (s : State) (k : Nat) (x : Term) (q : FldId) (z y : Nat) : (s.setTerm k x).flag q z y = s.flag q z y := rfl
@[simp] theorem setTerm_reg64 (s : State) (k : Nat) (x : Term) (q : RegId) (z : Nat) : (s.setTerm k x).reg64 q z = s.reg64 q z := rfl
@[simp] theorem setTerm_active (s : State) (k : Nat) (x : Term) (q z : Nat) : (s.setTerm k x).active q z = s.active q z := rfl
@[simp] theorem setTerm_inv (s : State) (k : Nat) (x : Term) (q z y : Nat) : (s.setTerm k x).inv q z y = s.inv q z y := rfl
@[simp] theorem setTerm_isActive (s : State) (k : Nat) (x : Term) : (s.setTerm k x).isActive = s.isActive := rfl
@[simp] theorem setTerm_mirrorSt (s : State) (k : Nat) (x : Term) : (s.setTerm k x).mirrorSt = s.mirrorSt := rfl
@[simp] theorem setTerm_present (s : State) (k : Nat) (x : Term) (q z : Nat) : (s.setTerm k x).present q z = s.present q z := rfl
@[simp] theorem setTerm_off (s : State) (k : Nat) (x : Term) : (s.setTerm k x).off = s.off := rfl
@[simp] theorem setTerm_tick (s : State) (k : Nat) (x : Term) : (s.setTerm k x).tick = s.tick := rfl

/-! ## `State.setSx` -/

@[simp] theorem setSx_part (s : State) (t : Nat) (x : SxtS) : (s.setSx t x).part = s.part := rfl
@[simp] theorem setSx_pending (s : State) (t : Nat) (x : SxtS) : (s.setSx t x).pending = s.pending := rfl
@[simp] theorem setSx_regs (s : State) (t : Nat) (x : SxtS) : (s.setSx t x).regs = s.regs := rfl
@[simp] theorem setSx_seen (s : State) (t : Nat) (x : SxtS) : (s.setSx t x).seen = s.seen := rfl
@[simp] theorem setSx_rwo (s : State) (t : Nat) (x : SxtS) : (s.setSx t x).rwo = s.rwo := rfl
@[simp] theorem setSx_pr (s : State) (t : Nat) (x : SxtS) : (s.setSx t x).pr = s.pr := rfl
@[simp] theorem setSx_fresh (s : State) (t : Nat) (x : SxtS) : (s.setSx t x).fresh = s.fresh := rfl
@[simp] theorem setSx_halted (s : State) (t : Nat) (x : SxtS) : (s.setSx t x).halted = s.halted := rfl
@[simp] theorem setSx_bin (s : State) (t : Nat) (x : SxtS) : (s.setSx t x).bin = s.bin := rfl
@[simp] theorem setSx_hif (s : State) (t : Nat) (x : SxtS) : (s.setSx t x).hif = s.hif := rfl
@[simp] theorem setSx_crc (s : State) (t : Nat) (x : SxtS) : (s.setSx t x).crc = s.crc := rfl
@[simp] theorem setSx_pmc (s : State) (t : Nat) (x : SxtS) : (s.setSx t x).pmc = s.pmc := rfl
@[simp] theorem setSx_lcs (s : State) (t : Nat) (x : SxtS) : (s.setSx t x).lcs = s.lcs := rfl
@[simp] theorem setSx_tm (s : State) (t : Nat) (x : SxtS) : (s.setSx t x).tm = s.tm := rfl
@[simp] theorem setSx_deadline (s : State) (t : Nat) (x : SxtS) : (s.setSx t x).deadline = s.deadline := rfl
@[simp] theorem setSx_tickWork (s : State) (t : Nat) (x : SxtS) : (s.setSx t x).tickWork = s.tickWork := rfl
@[simp] theorem setSx_ttx (s : State) (t : Nat) (x : SxtS) : (s.setSx t x).ttx = s.ttx := rfl
@[simp] theorem setSx_terms (s : State) (t : Nat) (x : SxtS) : (s.setSx t x).terms = s.terms := rfl
@[simp] theorem setSx_tsi (s : State) (t : Nat) (x : SxtS) : (s.setSx t x).tsi = s.tsi := rfl
@[simp] theorem setSx_alm (s : State) (t : Nat) (x : SxtS) : (s.setSx t x).alm = s.alm := rfl
@[simp] theorem setSx_ciph (s : State) (t : Nat) (x : SxtS) : (s.setSx t x).ciph = s.ciph := rfl
@[simp] theorem setSx_orr (s : State) (t : Nat) (x : SxtS) : (s.setSx t x).orr = s.orr := rfl
@[simp] theorem setSx_trx (s : State) (t : Nat) (x : SxtS) : (s.setSx t x).trx = s.trx := rfl
@[simp] theorem setSx_fwdIn (s : State) (t : Nat) (x : SxtS) : (s.setSx t x).fwdIn = s.fwdIn := rfl
@[simp] theorem setSx_pair (s : State) (t : Nat) (x : SxtS) : (s.setSx t x).pair = s.pair := rfl
@[simp] theorem setSx_ka (s : State) (t : Nat) (x : SxtS) : (s.setSx t x).ka = s.ka := rfl
@[simp] theorem setSx_msec (s : State) (t : Nat) (x : SxtS) : (s.setSx t x).msec = s.msec := rfl
@[simp] theorem setSx_sent (s : State) (t : Nat) (x : SxtS) : (s.setSx t x).sent = s.sent := rfl
@[simp] theorem setSx_mail (s : State) (t : Nat) (x : SxtS) : (s.setSx t x).mail = s.mail := rfl
@[simp] theorem setSx_navIn (s : State) (t : Nat) (x : SxtS) : (s.setSx t x).navIn = s.navIn := rfl
@[simp] theorem setSx_injDone (s : State) (t : Nat) (x : SxtS) : (s.setSx t x).injDone = s.injDone := rfl
@[simp] theorem setSx_fwd (s : State) (t : Nat) (x : SxtS) : (s.setSx t x).fwd = s.fwd := rfl
@[simp] theorem setSx_xin (s : State) (t : Nat) (x : SxtS) : (s.setSx t x).xin = s.xin := rfl
@[simp] theorem setSx_qin (s : State) (t : Nat) (x : SxtS) : (s.setSx t x).qin = s.qin := rfl
@[simp] theorem setSx_hostIn (s : State) (t : Nat) (x : SxtS) : (s.setSx t x).hostIn = s.hostIn := rfl
@[simp] theorem setSx_qsch (s : State) (t : Nat) (x : SxtS) : (s.setSx t x).qsch = s.qsch := rfl
@[simp] theorem setSx_buf (s : State) (t : Nat) (x : SxtS) : (s.setSx t x).buf = s.buf := rfl
@[simp] theorem setSx_gate (s : State) (t : Nat) (x : SxtS) : (s.setSx t x).gate = s.gate := rfl
@[simp] theorem setSx_ckt (s : State) (t : Nat) (x : SxtS) : (s.setSx t x).ckt = s.ckt := rfl
@[simp] theorem setSx_ages (s : State) (t : Nat) (x : SxtS) : (s.setSx t x).ages = s.ages := rfl
@[simp] theorem setSx_ovrAt (s : State) (t : Nat) (x : SxtS) : (s.setSx t x).ovrAt = s.ovrAt := rfl
@[simp] theorem setSx_nav (s : State) (t : Nat) (x : SxtS) : (s.setSx t x).nav = s.nav := rfl
@[simp] theorem setSx_navc (s : State) (t : Nat) (x : SxtS) : (s.setSx t x).navc = s.navc := rfl
@[simp] theorem setSx_nmem (s : State) (t : Nat) (x : SxtS) : (s.setSx t x).nmem = s.nmem := rfl
@[simp] theorem setSx_nbad (s : State) (t : Nat) (x : SxtS) : (s.setSx t x).nbad = s.nbad := rfl
@[simp] theorem setSx_posts (s : State) (t : Nat) (x : SxtS) : (s.setSx t x).posts = s.posts := rfl
@[simp] theorem setSx_qmap (s : State) (t : Nat) (x : SxtS) : (s.setSx t x).qmap = s.qmap := rfl
@[simp] theorem setSx_qhold (s : State) (t : Nat) (x : SxtS) : (s.setSx t x).qhold = s.qhold := rfl
@[simp] theorem setSx_sealS (s : State) (t : Nat) (x : SxtS) : (s.setSx t x).sealS = s.sealS := rfl
@[simp] theorem setSx_ser (s : State) (t : Nat) (x : SxtS) : (s.setSx t x).ser = s.ser := rfl
@[simp] theorem setSx_rd (s : State) (t : Nat) (x : SxtS) (q : Nat) : (s.setSx t x).rd q = s.rd q := rfl
@[simp] theorem setSx_reg (s : State) (t : Nat) (x : SxtS) (q : RegId) (z : Nat) : (s.setSx t x).reg q z = s.reg q z := rfl
@[simp] theorem setSx_regI (s : State) (t : Nat) (x : SxtS) (q : RegId) (z y : Nat) : (s.setSx t x).regI q z y = s.regI q z y := rfl
@[simp] theorem setSx_fld (s : State) (t : Nat) (x : SxtS) (q : FldId) (z y : Nat) : (s.setSx t x).fld q z y = s.fld q z y := rfl
@[simp] theorem setSx_flag (s : State) (t : Nat) (x : SxtS) (q : FldId) (z y : Nat) : (s.setSx t x).flag q z y = s.flag q z y := rfl
@[simp] theorem setSx_reg64 (s : State) (t : Nat) (x : SxtS) (q : RegId) (z : Nat) : (s.setSx t x).reg64 q z = s.reg64 q z := rfl
@[simp] theorem setSx_active (s : State) (t : Nat) (x : SxtS) (q z : Nat) : (s.setSx t x).active q z = s.active q z := rfl
@[simp] theorem setSx_inv (s : State) (t : Nat) (x : SxtS) (q z y : Nat) : (s.setSx t x).inv q z y = s.inv q z y := rfl
@[simp] theorem setSx_isActive (s : State) (t : Nat) (x : SxtS) : (s.setSx t x).isActive = s.isActive := rfl
@[simp] theorem setSx_mirrorSt (s : State) (t : Nat) (x : SxtS) : (s.setSx t x).mirrorSt = s.mirrorSt := rfl
@[simp] theorem setSx_present (s : State) (t : Nat) (x : SxtS) (q z : Nat) : (s.setSx t x).present q z = s.present q z := rfl
@[simp] theorem setSx_off (s : State) (t : Nat) (x : SxtS) : (s.setSx t x).off = s.off := rfl
@[simp] theorem setSx_tick (s : State) (t : Nat) (x : SxtS) : (s.setSx t x).tick = s.tick := rfl

/-! ## `State.setConn` -/

@[simp] theorem setConn_part (s : State) (p i : Nat) (c : Conn) : (s.setConn p i c).part = s.part := rfl
@[simp] theorem setConn_pending (s : State) (p i : Nat) (c : Conn) : (s.setConn p i c).pending = s.pending := rfl
@[simp] theorem setConn_regs (s : State) (p i : Nat) (c : Conn) : (s.setConn p i c).regs = s.regs := rfl
@[simp] theorem setConn_seen (s : State) (p i : Nat) (c : Conn) : (s.setConn p i c).seen = s.seen := rfl
@[simp] theorem setConn_rwo (s : State) (p i : Nat) (c : Conn) : (s.setConn p i c).rwo = s.rwo := rfl
@[simp] theorem setConn_pr (s : State) (p i : Nat) (c : Conn) : (s.setConn p i c).pr = s.pr := rfl
@[simp] theorem setConn_fresh (s : State) (p i : Nat) (c : Conn) : (s.setConn p i c).fresh = s.fresh := rfl
@[simp] theorem setConn_halted (s : State) (p i : Nat) (c : Conn) : (s.setConn p i c).halted = s.halted := rfl
@[simp] theorem setConn_bin (s : State) (p i : Nat) (c : Conn) : (s.setConn p i c).bin = s.bin := rfl
@[simp] theorem setConn_hif (s : State) (p i : Nat) (c : Conn) : (s.setConn p i c).hif = s.hif := rfl
@[simp] theorem setConn_crc (s : State) (p i : Nat) (c : Conn) : (s.setConn p i c).crc = s.crc := rfl
@[simp] theorem setConn_pmc (s : State) (p i : Nat) (c : Conn) : (s.setConn p i c).pmc = s.pmc := rfl
@[simp] theorem setConn_lcs (s : State) (p i : Nat) (c : Conn) : (s.setConn p i c).lcs = s.lcs := rfl
@[simp] theorem setConn_tm (s : State) (p i : Nat) (c : Conn) : (s.setConn p i c).tm = s.tm := rfl
@[simp] theorem setConn_deadline (s : State) (p i : Nat) (c : Conn) : (s.setConn p i c).deadline = s.deadline := rfl
@[simp] theorem setConn_tickWork (s : State) (p i : Nat) (c : Conn) : (s.setConn p i c).tickWork = s.tickWork := rfl
@[simp] theorem setConn_ttx (s : State) (p i : Nat) (c : Conn) : (s.setConn p i c).ttx = s.ttx := rfl
@[simp] theorem setConn_terms (s : State) (p i : Nat) (c : Conn) : (s.setConn p i c).terms = s.terms := rfl
@[simp] theorem setConn_sxt (s : State) (p i : Nat) (c : Conn) : (s.setConn p i c).sxt = s.sxt := rfl
@[simp] theorem setConn_alm (s : State) (p i : Nat) (c : Conn) : (s.setConn p i c).alm = s.alm := rfl
@[simp] theorem setConn_ciph (s : State) (p i : Nat) (c : Conn) : (s.setConn p i c).ciph = s.ciph := rfl
@[simp] theorem setConn_orr (s : State) (p i : Nat) (c : Conn) : (s.setConn p i c).orr = s.orr := rfl
@[simp] theorem setConn_trx (s : State) (p i : Nat) (c : Conn) : (s.setConn p i c).trx = s.trx := rfl
@[simp] theorem setConn_fwdIn (s : State) (p i : Nat) (c : Conn) : (s.setConn p i c).fwdIn = s.fwdIn := rfl
@[simp] theorem setConn_pair (s : State) (p i : Nat) (c : Conn) : (s.setConn p i c).pair = s.pair := rfl
@[simp] theorem setConn_ka (s : State) (p i : Nat) (c : Conn) : (s.setConn p i c).ka = s.ka := rfl
@[simp] theorem setConn_msec (s : State) (p i : Nat) (c : Conn) : (s.setConn p i c).msec = s.msec := rfl
@[simp] theorem setConn_sent (s : State) (p i : Nat) (c : Conn) : (s.setConn p i c).sent = s.sent := rfl
@[simp] theorem setConn_mail (s : State) (p i : Nat) (c : Conn) : (s.setConn p i c).mail = s.mail := rfl
@[simp] theorem setConn_navIn (s : State) (p i : Nat) (c : Conn) : (s.setConn p i c).navIn = s.navIn := rfl
@[simp] theorem setConn_injDone (s : State) (p i : Nat) (c : Conn) : (s.setConn p i c).injDone = s.injDone := rfl
@[simp] theorem setConn_fwd (s : State) (p i : Nat) (c : Conn) : (s.setConn p i c).fwd = s.fwd := rfl
@[simp] theorem setConn_xin (s : State) (p i : Nat) (c : Conn) : (s.setConn p i c).xin = s.xin := rfl
@[simp] theorem setConn_qin (s : State) (p i : Nat) (c : Conn) : (s.setConn p i c).qin = s.qin := rfl
@[simp] theorem setConn_hostIn (s : State) (p i : Nat) (c : Conn) : (s.setConn p i c).hostIn = s.hostIn := rfl
@[simp] theorem setConn_qsch (s : State) (p i : Nat) (c : Conn) : (s.setConn p i c).qsch = s.qsch := rfl
@[simp] theorem setConn_buf (s : State) (p i : Nat) (c : Conn) : (s.setConn p i c).buf = s.buf := rfl
@[simp] theorem setConn_gate (s : State) (p i : Nat) (c : Conn) : (s.setConn p i c).gate = s.gate := rfl
@[simp] theorem setConn_ckt (s : State) (p i : Nat) (c : Conn) : (s.setConn p i c).ckt = s.ckt := rfl
@[simp] theorem setConn_ages (s : State) (p i : Nat) (c : Conn) : (s.setConn p i c).ages = s.ages := rfl
@[simp] theorem setConn_ovrAt (s : State) (p i : Nat) (c : Conn) : (s.setConn p i c).ovrAt = s.ovrAt := rfl
@[simp] theorem setConn_nav (s : State) (p i : Nat) (c : Conn) : (s.setConn p i c).nav = s.nav := rfl
@[simp] theorem setConn_navc (s : State) (p i : Nat) (c : Conn) : (s.setConn p i c).navc = s.navc := rfl
@[simp] theorem setConn_nmem (s : State) (p i : Nat) (c : Conn) : (s.setConn p i c).nmem = s.nmem := rfl
@[simp] theorem setConn_nbad (s : State) (p i : Nat) (c : Conn) : (s.setConn p i c).nbad = s.nbad := rfl
@[simp] theorem setConn_posts (s : State) (p i : Nat) (c : Conn) : (s.setConn p i c).posts = s.posts := rfl
@[simp] theorem setConn_qmap (s : State) (p i : Nat) (c : Conn) : (s.setConn p i c).qmap = s.qmap := rfl
@[simp] theorem setConn_qhold (s : State) (p i : Nat) (c : Conn) : (s.setConn p i c).qhold = s.qhold := rfl
@[simp] theorem setConn_sealS (s : State) (p i : Nat) (c : Conn) : (s.setConn p i c).sealS = s.sealS := rfl
@[simp] theorem setConn_ser (s : State) (p i : Nat) (c : Conn) : (s.setConn p i c).ser = s.ser := rfl
@[simp] theorem setConn_rd (s : State) (p i : Nat) (c : Conn) (q : Nat) : (s.setConn p i c).rd q = s.rd q := rfl
@[simp] theorem setConn_reg (s : State) (p i : Nat) (c : Conn) (q : RegId) (z : Nat) : (s.setConn p i c).reg q z = s.reg q z := rfl
@[simp] theorem setConn_regI (s : State) (p i : Nat) (c : Conn) (q : RegId) (z y : Nat) : (s.setConn p i c).regI q z y = s.regI q z y := rfl
@[simp] theorem setConn_fld (s : State) (p i : Nat) (c : Conn) (q : FldId) (z y : Nat) : (s.setConn p i c).fld q z y = s.fld q z y := rfl
@[simp] theorem setConn_flag (s : State) (p i : Nat) (c : Conn) (q : FldId) (z y : Nat) : (s.setConn p i c).flag q z y = s.flag q z y := rfl
@[simp] theorem setConn_reg64 (s : State) (p i : Nat) (c : Conn) (q : RegId) (z : Nat) : (s.setConn p i c).reg64 q z = s.reg64 q z := rfl
@[simp] theorem setConn_active (s : State) (p i : Nat) (c : Conn) (q z : Nat) : (s.setConn p i c).active q z = s.active q z := rfl
@[simp] theorem setConn_inv (s : State) (p i : Nat) (c : Conn) (q z y : Nat) : (s.setConn p i c).inv q z y = s.inv q z y := rfl
@[simp] theorem setConn_isActive (s : State) (p i : Nat) (c : Conn) : (s.setConn p i c).isActive = s.isActive := rfl
@[simp] theorem setConn_mirrorSt (s : State) (p i : Nat) (c : Conn) : (s.setConn p i c).mirrorSt = s.mirrorSt := rfl
@[simp] theorem setConn_present (s : State) (p i : Nat) (c : Conn) (q z : Nat) : (s.setConn p i c).present q z = s.present q z := rfl
@[simp] theorem setConn_off (s : State) (p i : Nat) (c : Conn) : (s.setConn p i c).off = s.off := rfl
@[simp] theorem setConn_tick (s : State) (p i : Nat) (c : Conn) : (s.setConn p i c).tick = s.tick := rfl

/-! ## `State.setAssoc` -/

@[simp] theorem setAssoc_part (s : State) (k : Nat) (a : Assoc) : (s.setAssoc k a).part = s.part := rfl
@[simp] theorem setAssoc_pending (s : State) (k : Nat) (a : Assoc) : (s.setAssoc k a).pending = s.pending := rfl
@[simp] theorem setAssoc_regs (s : State) (k : Nat) (a : Assoc) : (s.setAssoc k a).regs = s.regs := rfl
@[simp] theorem setAssoc_seen (s : State) (k : Nat) (a : Assoc) : (s.setAssoc k a).seen = s.seen := rfl
@[simp] theorem setAssoc_rwo (s : State) (k : Nat) (a : Assoc) : (s.setAssoc k a).rwo = s.rwo := rfl
@[simp] theorem setAssoc_pr (s : State) (k : Nat) (a : Assoc) : (s.setAssoc k a).pr = s.pr := rfl
@[simp] theorem setAssoc_fresh (s : State) (k : Nat) (a : Assoc) : (s.setAssoc k a).fresh = s.fresh := rfl
@[simp] theorem setAssoc_halted (s : State) (k : Nat) (a : Assoc) : (s.setAssoc k a).halted = s.halted := rfl
@[simp] theorem setAssoc_bin (s : State) (k : Nat) (a : Assoc) : (s.setAssoc k a).bin = s.bin := rfl
@[simp] theorem setAssoc_hif (s : State) (k : Nat) (a : Assoc) : (s.setAssoc k a).hif = s.hif := rfl
@[simp] theorem setAssoc_crc (s : State) (k : Nat) (a : Assoc) : (s.setAssoc k a).crc = s.crc := rfl
@[simp] theorem setAssoc_pmc (s : State) (k : Nat) (a : Assoc) : (s.setAssoc k a).pmc = s.pmc := rfl
@[simp] theorem setAssoc_lcs (s : State) (k : Nat) (a : Assoc) : (s.setAssoc k a).lcs = s.lcs := rfl
@[simp] theorem setAssoc_tm (s : State) (k : Nat) (a : Assoc) : (s.setAssoc k a).tm = s.tm := rfl
@[simp] theorem setAssoc_deadline (s : State) (k : Nat) (a : Assoc) : (s.setAssoc k a).deadline = s.deadline := rfl
@[simp] theorem setAssoc_tickWork (s : State) (k : Nat) (a : Assoc) : (s.setAssoc k a).tickWork = s.tickWork := rfl
@[simp] theorem setAssoc_ttx (s : State) (k : Nat) (a : Assoc) : (s.setAssoc k a).ttx = s.ttx := rfl
@[simp] theorem setAssoc_terms (s : State) (k : Nat) (a : Assoc) : (s.setAssoc k a).terms = s.terms := rfl
@[simp] theorem setAssoc_sxt (s : State) (k : Nat) (a : Assoc) : (s.setAssoc k a).sxt = s.sxt := rfl
@[simp] theorem setAssoc_tsi (s : State) (k : Nat) (a : Assoc) : (s.setAssoc k a).tsi = s.tsi := rfl
@[simp] theorem setAssoc_ciph (s : State) (k : Nat) (a : Assoc) : (s.setAssoc k a).ciph = s.ciph := rfl
@[simp] theorem setAssoc_orr (s : State) (k : Nat) (a : Assoc) : (s.setAssoc k a).orr = s.orr := rfl
@[simp] theorem setAssoc_trx (s : State) (k : Nat) (a : Assoc) : (s.setAssoc k a).trx = s.trx := rfl
@[simp] theorem setAssoc_fwdIn (s : State) (k : Nat) (a : Assoc) : (s.setAssoc k a).fwdIn = s.fwdIn := rfl
@[simp] theorem setAssoc_pair (s : State) (k : Nat) (a : Assoc) : (s.setAssoc k a).pair = s.pair := rfl
@[simp] theorem setAssoc_ka (s : State) (k : Nat) (a : Assoc) : (s.setAssoc k a).ka = s.ka := rfl
@[simp] theorem setAssoc_msec (s : State) (k : Nat) (a : Assoc) : (s.setAssoc k a).msec = s.msec := rfl
@[simp] theorem setAssoc_sent (s : State) (k : Nat) (a : Assoc) : (s.setAssoc k a).sent = s.sent := rfl
@[simp] theorem setAssoc_mail (s : State) (k : Nat) (a : Assoc) : (s.setAssoc k a).mail = s.mail := rfl
@[simp] theorem setAssoc_navIn (s : State) (k : Nat) (a : Assoc) : (s.setAssoc k a).navIn = s.navIn := rfl
@[simp] theorem setAssoc_injDone (s : State) (k : Nat) (a : Assoc) : (s.setAssoc k a).injDone = s.injDone := rfl
@[simp] theorem setAssoc_fwd (s : State) (k : Nat) (a : Assoc) : (s.setAssoc k a).fwd = s.fwd := rfl
@[simp] theorem setAssoc_xin (s : State) (k : Nat) (a : Assoc) : (s.setAssoc k a).xin = s.xin := rfl
@[simp] theorem setAssoc_qin (s : State) (k : Nat) (a : Assoc) : (s.setAssoc k a).qin = s.qin := rfl
@[simp] theorem setAssoc_hostIn (s : State) (k : Nat) (a : Assoc) : (s.setAssoc k a).hostIn = s.hostIn := rfl
@[simp] theorem setAssoc_qsch (s : State) (k : Nat) (a : Assoc) : (s.setAssoc k a).qsch = s.qsch := rfl
@[simp] theorem setAssoc_buf (s : State) (k : Nat) (a : Assoc) : (s.setAssoc k a).buf = s.buf := rfl
@[simp] theorem setAssoc_gate (s : State) (k : Nat) (a : Assoc) : (s.setAssoc k a).gate = s.gate := rfl
@[simp] theorem setAssoc_ckt (s : State) (k : Nat) (a : Assoc) : (s.setAssoc k a).ckt = s.ckt := rfl
@[simp] theorem setAssoc_ages (s : State) (k : Nat) (a : Assoc) : (s.setAssoc k a).ages = s.ages := rfl
@[simp] theorem setAssoc_ovrAt (s : State) (k : Nat) (a : Assoc) : (s.setAssoc k a).ovrAt = s.ovrAt := rfl
@[simp] theorem setAssoc_nav (s : State) (k : Nat) (a : Assoc) : (s.setAssoc k a).nav = s.nav := rfl
@[simp] theorem setAssoc_navc (s : State) (k : Nat) (a : Assoc) : (s.setAssoc k a).navc = s.navc := rfl
@[simp] theorem setAssoc_nmem (s : State) (k : Nat) (a : Assoc) : (s.setAssoc k a).nmem = s.nmem := rfl
@[simp] theorem setAssoc_nbad (s : State) (k : Nat) (a : Assoc) : (s.setAssoc k a).nbad = s.nbad := rfl
@[simp] theorem setAssoc_posts (s : State) (k : Nat) (a : Assoc) : (s.setAssoc k a).posts = s.posts := rfl
@[simp] theorem setAssoc_qmap (s : State) (k : Nat) (a : Assoc) : (s.setAssoc k a).qmap = s.qmap := rfl
@[simp] theorem setAssoc_qhold (s : State) (k : Nat) (a : Assoc) : (s.setAssoc k a).qhold = s.qhold := rfl
@[simp] theorem setAssoc_sealS (s : State) (k : Nat) (a : Assoc) : (s.setAssoc k a).sealS = s.sealS := rfl
@[simp] theorem setAssoc_ser (s : State) (k : Nat) (a : Assoc) : (s.setAssoc k a).ser = s.ser := rfl
@[simp] theorem setAssoc_rd (s : State) (k : Nat) (a : Assoc) (q : Nat) : (s.setAssoc k a).rd q = s.rd q := rfl
@[simp] theorem setAssoc_reg (s : State) (k : Nat) (a : Assoc) (q : RegId) (z : Nat) : (s.setAssoc k a).reg q z = s.reg q z := rfl
@[simp] theorem setAssoc_regI (s : State) (k : Nat) (a : Assoc) (q : RegId) (z y : Nat) : (s.setAssoc k a).regI q z y = s.regI q z y := rfl
@[simp] theorem setAssoc_fld (s : State) (k : Nat) (a : Assoc) (q : FldId) (z y : Nat) : (s.setAssoc k a).fld q z y = s.fld q z y := rfl
@[simp] theorem setAssoc_flag (s : State) (k : Nat) (a : Assoc) (q : FldId) (z y : Nat) : (s.setAssoc k a).flag q z y = s.flag q z y := rfl
@[simp] theorem setAssoc_reg64 (s : State) (k : Nat) (a : Assoc) (q : RegId) (z : Nat) : (s.setAssoc k a).reg64 q z = s.reg64 q z := rfl
@[simp] theorem setAssoc_active (s : State) (k : Nat) (a : Assoc) (q z : Nat) : (s.setAssoc k a).active q z = s.active q z := rfl
@[simp] theorem setAssoc_inv (s : State) (k : Nat) (a : Assoc) (q z y : Nat) : (s.setAssoc k a).inv q z y = s.inv q z y := rfl
@[simp] theorem setAssoc_isActive (s : State) (k : Nat) (a : Assoc) : (s.setAssoc k a).isActive = s.isActive := rfl
@[simp] theorem setAssoc_mirrorSt (s : State) (k : Nat) (a : Assoc) : (s.setAssoc k a).mirrorSt = s.mirrorSt := rfl
@[simp] theorem setAssoc_present (s : State) (k : Nat) (a : Assoc) (q z : Nat) : (s.setAssoc k a).present q z = s.present q z := rfl
@[simp] theorem setAssoc_off (s : State) (k : Nat) (a : Assoc) : (s.setAssoc k a).off = s.off := rfl
@[simp] theorem setAssoc_tick (s : State) (k : Nat) (a : Assoc) : (s.setAssoc k a).tick = s.tick := rfl

/-! ## `State.setHot` -/

@[simp] theorem setHot_part (s : State) (sl : Nat) (l : List Hot) : (s.setHot sl l).part = s.part := rfl
@[simp] theorem setHot_pending (s : State) (sl : Nat) (l : List Hot) : (s.setHot sl l).pending = s.pending := rfl
@[simp] theorem setHot_regs (s : State) (sl : Nat) (l : List Hot) : (s.setHot sl l).regs = s.regs := rfl
@[simp] theorem setHot_seen (s : State) (sl : Nat) (l : List Hot) : (s.setHot sl l).seen = s.seen := rfl
@[simp] theorem setHot_rwo (s : State) (sl : Nat) (l : List Hot) : (s.setHot sl l).rwo = s.rwo := rfl
@[simp] theorem setHot_pr (s : State) (sl : Nat) (l : List Hot) : (s.setHot sl l).pr = s.pr := rfl
@[simp] theorem setHot_fresh (s : State) (sl : Nat) (l : List Hot) : (s.setHot sl l).fresh = s.fresh := rfl
@[simp] theorem setHot_halted (s : State) (sl : Nat) (l : List Hot) : (s.setHot sl l).halted = s.halted := rfl
@[simp] theorem setHot_bin (s : State) (sl : Nat) (l : List Hot) : (s.setHot sl l).bin = s.bin := rfl
@[simp] theorem setHot_hif (s : State) (sl : Nat) (l : List Hot) : (s.setHot sl l).hif = s.hif := rfl
@[simp] theorem setHot_crc (s : State) (sl : Nat) (l : List Hot) : (s.setHot sl l).crc = s.crc := rfl
@[simp] theorem setHot_pmc (s : State) (sl : Nat) (l : List Hot) : (s.setHot sl l).pmc = s.pmc := rfl
@[simp] theorem setHot_lcs (s : State) (sl : Nat) (l : List Hot) : (s.setHot sl l).lcs = s.lcs := rfl
@[simp] theorem setHot_tm (s : State) (sl : Nat) (l : List Hot) : (s.setHot sl l).tm = s.tm := rfl
@[simp] theorem setHot_deadline (s : State) (sl : Nat) (l : List Hot) : (s.setHot sl l).deadline = s.deadline := rfl
@[simp] theorem setHot_tickWork (s : State) (sl : Nat) (l : List Hot) : (s.setHot sl l).tickWork = s.tickWork := rfl
@[simp] theorem setHot_ttx (s : State) (sl : Nat) (l : List Hot) : (s.setHot sl l).ttx = s.ttx := rfl
@[simp] theorem setHot_terms (s : State) (sl : Nat) (l : List Hot) : (s.setHot sl l).terms = s.terms := rfl
@[simp] theorem setHot_sxt (s : State) (sl : Nat) (l : List Hot) : (s.setHot sl l).sxt = s.sxt := rfl
@[simp] theorem setHot_tsi (s : State) (sl : Nat) (l : List Hot) : (s.setHot sl l).tsi = s.tsi := rfl
@[simp] theorem setHot_ciph (s : State) (sl : Nat) (l : List Hot) : (s.setHot sl l).ciph = s.ciph := rfl
@[simp] theorem setHot_orr (s : State) (sl : Nat) (l : List Hot) : (s.setHot sl l).orr = s.orr := rfl
@[simp] theorem setHot_trx (s : State) (sl : Nat) (l : List Hot) : (s.setHot sl l).trx = s.trx := rfl
@[simp] theorem setHot_fwdIn (s : State) (sl : Nat) (l : List Hot) : (s.setHot sl l).fwdIn = s.fwdIn := rfl
@[simp] theorem setHot_pair (s : State) (sl : Nat) (l : List Hot) : (s.setHot sl l).pair = s.pair := rfl
@[simp] theorem setHot_ka (s : State) (sl : Nat) (l : List Hot) : (s.setHot sl l).ka = s.ka := rfl
@[simp] theorem setHot_msec (s : State) (sl : Nat) (l : List Hot) : (s.setHot sl l).msec = s.msec := rfl
@[simp] theorem setHot_sent (s : State) (sl : Nat) (l : List Hot) : (s.setHot sl l).sent = s.sent := rfl
@[simp] theorem setHot_mail (s : State) (sl : Nat) (l : List Hot) : (s.setHot sl l).mail = s.mail := rfl
@[simp] theorem setHot_navIn (s : State) (sl : Nat) (l : List Hot) : (s.setHot sl l).navIn = s.navIn := rfl
@[simp] theorem setHot_injDone (s : State) (sl : Nat) (l : List Hot) : (s.setHot sl l).injDone = s.injDone := rfl
@[simp] theorem setHot_fwd (s : State) (sl : Nat) (l : List Hot) : (s.setHot sl l).fwd = s.fwd := rfl
@[simp] theorem setHot_xin (s : State) (sl : Nat) (l : List Hot) : (s.setHot sl l).xin = s.xin := rfl
@[simp] theorem setHot_qin (s : State) (sl : Nat) (l : List Hot) : (s.setHot sl l).qin = s.qin := rfl
@[simp] theorem setHot_hostIn (s : State) (sl : Nat) (l : List Hot) : (s.setHot sl l).hostIn = s.hostIn := rfl
@[simp] theorem setHot_qsch (s : State) (sl : Nat) (l : List Hot) : (s.setHot sl l).qsch = s.qsch := rfl
@[simp] theorem setHot_buf (s : State) (sl : Nat) (l : List Hot) : (s.setHot sl l).buf = s.buf := rfl
@[simp] theorem setHot_gate (s : State) (sl : Nat) (l : List Hot) : (s.setHot sl l).gate = s.gate := rfl
@[simp] theorem setHot_ckt (s : State) (sl : Nat) (l : List Hot) : (s.setHot sl l).ckt = s.ckt := rfl
@[simp] theorem setHot_ages (s : State) (sl : Nat) (l : List Hot) : (s.setHot sl l).ages = s.ages := rfl
@[simp] theorem setHot_ovrAt (s : State) (sl : Nat) (l : List Hot) : (s.setHot sl l).ovrAt = s.ovrAt := rfl
@[simp] theorem setHot_nav (s : State) (sl : Nat) (l : List Hot) : (s.setHot sl l).nav = s.nav := rfl
@[simp] theorem setHot_navc (s : State) (sl : Nat) (l : List Hot) : (s.setHot sl l).navc = s.navc := rfl
@[simp] theorem setHot_nmem (s : State) (sl : Nat) (l : List Hot) : (s.setHot sl l).nmem = s.nmem := rfl
@[simp] theorem setHot_nbad (s : State) (sl : Nat) (l : List Hot) : (s.setHot sl l).nbad = s.nbad := rfl
@[simp] theorem setHot_posts (s : State) (sl : Nat) (l : List Hot) : (s.setHot sl l).posts = s.posts := rfl
@[simp] theorem setHot_qmap (s : State) (sl : Nat) (l : List Hot) : (s.setHot sl l).qmap = s.qmap := rfl
@[simp] theorem setHot_qhold (s : State) (sl : Nat) (l : List Hot) : (s.setHot sl l).qhold = s.qhold := rfl
@[simp] theorem setHot_sealS (s : State) (sl : Nat) (l : List Hot) : (s.setHot sl l).sealS = s.sealS := rfl
@[simp] theorem setHot_ser (s : State) (sl : Nat) (l : List Hot) : (s.setHot sl l).ser = s.ser := rfl
@[simp] theorem setHot_rd (s : State) (sl : Nat) (l : List Hot) (q : Nat) : (s.setHot sl l).rd q = s.rd q := rfl
@[simp] theorem setHot_reg (s : State) (sl : Nat) (l : List Hot) (q : RegId) (z : Nat) : (s.setHot sl l).reg q z = s.reg q z := rfl
@[simp] theorem setHot_regI (s : State) (sl : Nat) (l : List Hot) (q : RegId) (z y : Nat) : (s.setHot sl l).regI q z y = s.regI q z y := rfl
@[simp] theorem setHot_fld (s : State) (sl : Nat) (l : List Hot) (q : FldId) (z y : Nat) : (s.setHot sl l).fld q z y = s.fld q z y := rfl
@[simp] theorem setHot_flag (s : State) (sl : Nat) (l : List Hot) (q : FldId) (z y : Nat) : (s.setHot sl l).flag q z y = s.flag q z y := rfl
@[simp] theorem setHot_reg64 (s : State) (sl : Nat) (l : List Hot) (q : RegId) (z : Nat) : (s.setHot sl l).reg64 q z = s.reg64 q z := rfl
@[simp] theorem setHot_active (s : State) (sl : Nat) (l : List Hot) (q z : Nat) : (s.setHot sl l).active q z = s.active q z := rfl
@[simp] theorem setHot_inv (s : State) (sl : Nat) (l : List Hot) (q z y : Nat) : (s.setHot sl l).inv q z y = s.inv q z y := rfl
@[simp] theorem setHot_isActive (s : State) (sl : Nat) (l : List Hot) : (s.setHot sl l).isActive = s.isActive := rfl
@[simp] theorem setHot_mirrorSt (s : State) (sl : Nat) (l : List Hot) : (s.setHot sl l).mirrorSt = s.mirrorSt := rfl
@[simp] theorem setHot_present (s : State) (sl : Nat) (l : List Hot) (q z : Nat) : (s.setHot sl l).present q z = s.present q z := rfl
@[simp] theorem setHot_off (s : State) (sl : Nat) (l : List Hot) : (s.setHot sl l).off = s.off := rfl
@[simp] theorem setHot_tick (s : State) (sl : Nat) (l : List Hot) : (s.setHot sl l).tick = s.tick := rfl

/-! ## `State.setPool` -/

@[simp] theorem setPool_part (s : State) (i : Nat) (c : CiphS) : (s.setPool i c).part = s.part := rfl
@[simp] theorem setPool_pending (s : State) (i : Nat) (c : CiphS) : (s.setPool i c).pending = s.pending := rfl
@[simp] theorem setPool_regs (s : State) (i : Nat) (c : CiphS) : (s.setPool i c).regs = s.regs := rfl
@[simp] theorem setPool_seen (s : State) (i : Nat) (c : CiphS) : (s.setPool i c).seen = s.seen := rfl
@[simp] theorem setPool_rwo (s : State) (i : Nat) (c : CiphS) : (s.setPool i c).rwo = s.rwo := rfl
@[simp] theorem setPool_pr (s : State) (i : Nat) (c : CiphS) : (s.setPool i c).pr = s.pr := rfl
@[simp] theorem setPool_fresh (s : State) (i : Nat) (c : CiphS) : (s.setPool i c).fresh = s.fresh := rfl
@[simp] theorem setPool_halted (s : State) (i : Nat) (c : CiphS) : (s.setPool i c).halted = s.halted := rfl
@[simp] theorem setPool_bin (s : State) (i : Nat) (c : CiphS) : (s.setPool i c).bin = s.bin := rfl
@[simp] theorem setPool_hif (s : State) (i : Nat) (c : CiphS) : (s.setPool i c).hif = s.hif := rfl
@[simp] theorem setPool_crc (s : State) (i : Nat) (c : CiphS) : (s.setPool i c).crc = s.crc := rfl
@[simp] theorem setPool_pmc (s : State) (i : Nat) (c : CiphS) : (s.setPool i c).pmc = s.pmc := rfl
@[simp] theorem setPool_lcs (s : State) (i : Nat) (c : CiphS) : (s.setPool i c).lcs = s.lcs := rfl
@[simp] theorem setPool_tm (s : State) (i : Nat) (c : CiphS) : (s.setPool i c).tm = s.tm := rfl
@[simp] theorem setPool_deadline (s : State) (i : Nat) (c : CiphS) : (s.setPool i c).deadline = s.deadline := rfl
@[simp] theorem setPool_tickWork (s : State) (i : Nat) (c : CiphS) : (s.setPool i c).tickWork = s.tickWork := rfl
@[simp] theorem setPool_ttx (s : State) (i : Nat) (c : CiphS) : (s.setPool i c).ttx = s.ttx := rfl
@[simp] theorem setPool_terms (s : State) (i : Nat) (c : CiphS) : (s.setPool i c).terms = s.terms := rfl
@[simp] theorem setPool_sxt (s : State) (i : Nat) (c : CiphS) : (s.setPool i c).sxt = s.sxt := rfl
@[simp] theorem setPool_tsi (s : State) (i : Nat) (c : CiphS) : (s.setPool i c).tsi = s.tsi := rfl
@[simp] theorem setPool_alm (s : State) (i : Nat) (c : CiphS) : (s.setPool i c).alm = s.alm := rfl
@[simp] theorem setPool_orr (s : State) (i : Nat) (c : CiphS) : (s.setPool i c).orr = s.orr := rfl
@[simp] theorem setPool_trx (s : State) (i : Nat) (c : CiphS) : (s.setPool i c).trx = s.trx := rfl
@[simp] theorem setPool_fwdIn (s : State) (i : Nat) (c : CiphS) : (s.setPool i c).fwdIn = s.fwdIn := rfl
@[simp] theorem setPool_pair (s : State) (i : Nat) (c : CiphS) : (s.setPool i c).pair = s.pair := rfl
@[simp] theorem setPool_ka (s : State) (i : Nat) (c : CiphS) : (s.setPool i c).ka = s.ka := rfl
@[simp] theorem setPool_msec (s : State) (i : Nat) (c : CiphS) : (s.setPool i c).msec = s.msec := rfl
@[simp] theorem setPool_sent (s : State) (i : Nat) (c : CiphS) : (s.setPool i c).sent = s.sent := rfl
@[simp] theorem setPool_mail (s : State) (i : Nat) (c : CiphS) : (s.setPool i c).mail = s.mail := rfl
@[simp] theorem setPool_navIn (s : State) (i : Nat) (c : CiphS) : (s.setPool i c).navIn = s.navIn := rfl
@[simp] theorem setPool_injDone (s : State) (i : Nat) (c : CiphS) : (s.setPool i c).injDone = s.injDone := rfl
@[simp] theorem setPool_fwd (s : State) (i : Nat) (c : CiphS) : (s.setPool i c).fwd = s.fwd := rfl
@[simp] theorem setPool_xin (s : State) (i : Nat) (c : CiphS) : (s.setPool i c).xin = s.xin := rfl
@[simp] theorem setPool_qin (s : State) (i : Nat) (c : CiphS) : (s.setPool i c).qin = s.qin := rfl
@[simp] theorem setPool_hostIn (s : State) (i : Nat) (c : CiphS) : (s.setPool i c).hostIn = s.hostIn := rfl
@[simp] theorem setPool_qsch (s : State) (i : Nat) (c : CiphS) : (s.setPool i c).qsch = s.qsch := rfl
@[simp] theorem setPool_buf (s : State) (i : Nat) (c : CiphS) : (s.setPool i c).buf = s.buf := rfl
@[simp] theorem setPool_gate (s : State) (i : Nat) (c : CiphS) : (s.setPool i c).gate = s.gate := rfl
@[simp] theorem setPool_ckt (s : State) (i : Nat) (c : CiphS) : (s.setPool i c).ckt = s.ckt := rfl
@[simp] theorem setPool_ages (s : State) (i : Nat) (c : CiphS) : (s.setPool i c).ages = s.ages := rfl
@[simp] theorem setPool_ovrAt (s : State) (i : Nat) (c : CiphS) : (s.setPool i c).ovrAt = s.ovrAt := rfl
@[simp] theorem setPool_nav (s : State) (i : Nat) (c : CiphS) : (s.setPool i c).nav = s.nav := rfl
@[simp] theorem setPool_navc (s : State) (i : Nat) (c : CiphS) : (s.setPool i c).navc = s.navc := rfl
@[simp] theorem setPool_nmem (s : State) (i : Nat) (c : CiphS) : (s.setPool i c).nmem = s.nmem := rfl
@[simp] theorem setPool_nbad (s : State) (i : Nat) (c : CiphS) : (s.setPool i c).nbad = s.nbad := rfl
@[simp] theorem setPool_posts (s : State) (i : Nat) (c : CiphS) : (s.setPool i c).posts = s.posts := rfl
@[simp] theorem setPool_qmap (s : State) (i : Nat) (c : CiphS) : (s.setPool i c).qmap = s.qmap := rfl
@[simp] theorem setPool_qhold (s : State) (i : Nat) (c : CiphS) : (s.setPool i c).qhold = s.qhold := rfl
@[simp] theorem setPool_sealS (s : State) (i : Nat) (c : CiphS) : (s.setPool i c).sealS = s.sealS := rfl
@[simp] theorem setPool_ser (s : State) (i : Nat) (c : CiphS) : (s.setPool i c).ser = s.ser := rfl
@[simp] theorem setPool_rd (s : State) (i : Nat) (c : CiphS) (q : Nat) : (s.setPool i c).rd q = s.rd q := rfl
@[simp] theorem setPool_reg (s : State) (i : Nat) (c : CiphS) (q : RegId) (z : Nat) : (s.setPool i c).reg q z = s.reg q z := rfl
@[simp] theorem setPool_regI (s : State) (i : Nat) (c : CiphS) (q : RegId) (z y : Nat) : (s.setPool i c).regI q z y = s.regI q z y := rfl
@[simp] theorem setPool_fld (s : State) (i : Nat) (c : CiphS) (q : FldId) (z y : Nat) : (s.setPool i c).fld q z y = s.fld q z y := rfl
@[simp] theorem setPool_flag (s : State) (i : Nat) (c : CiphS) (q : FldId) (z y : Nat) : (s.setPool i c).flag q z y = s.flag q z y := rfl
@[simp] theorem setPool_reg64 (s : State) (i : Nat) (c : CiphS) (q : RegId) (z : Nat) : (s.setPool i c).reg64 q z = s.reg64 q z := rfl
@[simp] theorem setPool_active (s : State) (i : Nat) (c : CiphS) (q z : Nat) : (s.setPool i c).active q z = s.active q z := rfl
@[simp] theorem setPool_inv (s : State) (i : Nat) (c : CiphS) (q z y : Nat) : (s.setPool i c).inv q z y = s.inv q z y := rfl
@[simp] theorem setPool_isActive (s : State) (i : Nat) (c : CiphS) : (s.setPool i c).isActive = s.isActive := rfl
@[simp] theorem setPool_mirrorSt (s : State) (i : Nat) (c : CiphS) : (s.setPool i c).mirrorSt = s.mirrorSt := rfl
@[simp] theorem setPool_present (s : State) (i : Nat) (c : CiphS) (q z : Nat) : (s.setPool i c).present q z = s.present q z := rfl
@[simp] theorem setPool_off (s : State) (i : Nat) (c : CiphS) : (s.setPool i c).off = s.off := rfl
@[simp] theorem setPool_tick (s : State) (i : Nat) (c : CiphS) : (s.setPool i c).tick = s.tick := rfl

/-! ## `State.setCore` -/

@[simp] theorem setCore_part (s : State) (i c : Nat) (x : CoreS) : (s.setCore i c x).part = s.part := rfl
@[simp] theorem setCore_pending (s : State) (i c : Nat) (x : CoreS) : (s.setCore i c x).pending = s.pending := rfl
@[simp] theorem setCore_regs (s : State) (i c : Nat) (x : CoreS) : (s.setCore i c x).regs = s.regs := rfl
@[simp] theorem setCore_seen (s : State) (i c : Nat) (x : CoreS) : (s.setCore i c x).seen = s.seen := rfl
@[simp] theorem setCore_rwo (s : State) (i c : Nat) (x : CoreS) : (s.setCore i c x).rwo = s.rwo := rfl
@[simp] theorem setCore_pr (s : State) (i c : Nat) (x : CoreS) : (s.setCore i c x).pr = s.pr := rfl
@[simp] theorem setCore_fresh (s : State) (i c : Nat) (x : CoreS) : (s.setCore i c x).fresh = s.fresh := rfl
@[simp] theorem setCore_halted (s : State) (i c : Nat) (x : CoreS) : (s.setCore i c x).halted = s.halted := rfl
@[simp] theorem setCore_bin (s : State) (i c : Nat) (x : CoreS) : (s.setCore i c x).bin = s.bin := rfl
@[simp] theorem setCore_hif (s : State) (i c : Nat) (x : CoreS) : (s.setCore i c x).hif = s.hif := rfl
@[simp] theorem setCore_crc (s : State) (i c : Nat) (x : CoreS) : (s.setCore i c x).crc = s.crc := rfl
@[simp] theorem setCore_pmc (s : State) (i c : Nat) (x : CoreS) : (s.setCore i c x).pmc = s.pmc := rfl
@[simp] theorem setCore_lcs (s : State) (i c : Nat) (x : CoreS) : (s.setCore i c x).lcs = s.lcs := rfl
@[simp] theorem setCore_tm (s : State) (i c : Nat) (x : CoreS) : (s.setCore i c x).tm = s.tm := rfl
@[simp] theorem setCore_deadline (s : State) (i c : Nat) (x : CoreS) : (s.setCore i c x).deadline = s.deadline := rfl
@[simp] theorem setCore_tickWork (s : State) (i c : Nat) (x : CoreS) : (s.setCore i c x).tickWork = s.tickWork := rfl
@[simp] theorem setCore_ttx (s : State) (i c : Nat) (x : CoreS) : (s.setCore i c x).ttx = s.ttx := rfl
@[simp] theorem setCore_terms (s : State) (i c : Nat) (x : CoreS) : (s.setCore i c x).terms = s.terms := rfl
@[simp] theorem setCore_sxt (s : State) (i c : Nat) (x : CoreS) : (s.setCore i c x).sxt = s.sxt := rfl
@[simp] theorem setCore_tsi (s : State) (i c : Nat) (x : CoreS) : (s.setCore i c x).tsi = s.tsi := rfl
@[simp] theorem setCore_alm (s : State) (i c : Nat) (x : CoreS) : (s.setCore i c x).alm = s.alm := rfl
@[simp] theorem setCore_orr (s : State) (i c : Nat) (x : CoreS) : (s.setCore i c x).orr = s.orr := rfl
@[simp] theorem setCore_trx (s : State) (i c : Nat) (x : CoreS) : (s.setCore i c x).trx = s.trx := rfl
@[simp] theorem setCore_fwdIn (s : State) (i c : Nat) (x : CoreS) : (s.setCore i c x).fwdIn = s.fwdIn := rfl
@[simp] theorem setCore_pair (s : State) (i c : Nat) (x : CoreS) : (s.setCore i c x).pair = s.pair := rfl
@[simp] theorem setCore_ka (s : State) (i c : Nat) (x : CoreS) : (s.setCore i c x).ka = s.ka := rfl
@[simp] theorem setCore_msec (s : State) (i c : Nat) (x : CoreS) : (s.setCore i c x).msec = s.msec := rfl
@[simp] theorem setCore_sent (s : State) (i c : Nat) (x : CoreS) : (s.setCore i c x).sent = s.sent := rfl
@[simp] theorem setCore_mail (s : State) (i c : Nat) (x : CoreS) : (s.setCore i c x).mail = s.mail := rfl
@[simp] theorem setCore_navIn (s : State) (i c : Nat) (x : CoreS) : (s.setCore i c x).navIn = s.navIn := rfl
@[simp] theorem setCore_injDone (s : State) (i c : Nat) (x : CoreS) : (s.setCore i c x).injDone = s.injDone := rfl
@[simp] theorem setCore_fwd (s : State) (i c : Nat) (x : CoreS) : (s.setCore i c x).fwd = s.fwd := rfl
@[simp] theorem setCore_xin (s : State) (i c : Nat) (x : CoreS) : (s.setCore i c x).xin = s.xin := rfl
@[simp] theorem setCore_qin (s : State) (i c : Nat) (x : CoreS) : (s.setCore i c x).qin = s.qin := rfl
@[simp] theorem setCore_hostIn (s : State) (i c : Nat) (x : CoreS) : (s.setCore i c x).hostIn = s.hostIn := rfl
@[simp] theorem setCore_qsch (s : State) (i c : Nat) (x : CoreS) : (s.setCore i c x).qsch = s.qsch := rfl
@[simp] theorem setCore_buf (s : State) (i c : Nat) (x : CoreS) : (s.setCore i c x).buf = s.buf := rfl
@[simp] theorem setCore_gate (s : State) (i c : Nat) (x : CoreS) : (s.setCore i c x).gate = s.gate := rfl
@[simp] theorem setCore_ckt (s : State) (i c : Nat) (x : CoreS) : (s.setCore i c x).ckt = s.ckt := rfl
@[simp] theorem setCore_ages (s : State) (i c : Nat) (x : CoreS) : (s.setCore i c x).ages = s.ages := rfl
@[simp] theorem setCore_ovrAt (s : State) (i c : Nat) (x : CoreS) : (s.setCore i c x).ovrAt = s.ovrAt := rfl
@[simp] theorem setCore_nav (s : State) (i c : Nat) (x : CoreS) : (s.setCore i c x).nav = s.nav := rfl
@[simp] theorem setCore_navc (s : State) (i c : Nat) (x : CoreS) : (s.setCore i c x).navc = s.navc := rfl
@[simp] theorem setCore_nmem (s : State) (i c : Nat) (x : CoreS) : (s.setCore i c x).nmem = s.nmem := rfl
@[simp] theorem setCore_nbad (s : State) (i c : Nat) (x : CoreS) : (s.setCore i c x).nbad = s.nbad := rfl
@[simp] theorem setCore_posts (s : State) (i c : Nat) (x : CoreS) : (s.setCore i c x).posts = s.posts := rfl
@[simp] theorem setCore_qmap (s : State) (i c : Nat) (x : CoreS) : (s.setCore i c x).qmap = s.qmap := rfl
@[simp] theorem setCore_qhold (s : State) (i c : Nat) (x : CoreS) : (s.setCore i c x).qhold = s.qhold := rfl
@[simp] theorem setCore_sealS (s : State) (i c : Nat) (x : CoreS) : (s.setCore i c x).sealS = s.sealS := rfl
@[simp] theorem setCore_ser (s : State) (i c : Nat) (x : CoreS) : (s.setCore i c x).ser = s.ser := rfl
@[simp] theorem setCore_rd (s : State) (i c : Nat) (x : CoreS) (q : Nat) : (s.setCore i c x).rd q = s.rd q := rfl
@[simp] theorem setCore_reg (s : State) (i c : Nat) (x : CoreS) (q : RegId) (z : Nat) : (s.setCore i c x).reg q z = s.reg q z := rfl
@[simp] theorem setCore_regI (s : State) (i c : Nat) (x : CoreS) (q : RegId) (z y : Nat) : (s.setCore i c x).regI q z y = s.regI q z y := rfl
@[simp] theorem setCore_fld (s : State) (i c : Nat) (x : CoreS) (q : FldId) (z y : Nat) : (s.setCore i c x).fld q z y = s.fld q z y := rfl
@[simp] theorem setCore_flag (s : State) (i c : Nat) (x : CoreS) (q : FldId) (z y : Nat) : (s.setCore i c x).flag q z y = s.flag q z y := rfl
@[simp] theorem setCore_reg64 (s : State) (i c : Nat) (x : CoreS) (q : RegId) (z : Nat) : (s.setCore i c x).reg64 q z = s.reg64 q z := rfl
@[simp] theorem setCore_active (s : State) (i c : Nat) (x : CoreS) (q z : Nat) : (s.setCore i c x).active q z = s.active q z := rfl
@[simp] theorem setCore_inv (s : State) (i c : Nat) (x : CoreS) (q z y : Nat) : (s.setCore i c x).inv q z y = s.inv q z y := rfl
@[simp] theorem setCore_isActive (s : State) (i c : Nat) (x : CoreS) : (s.setCore i c x).isActive = s.isActive := rfl
@[simp] theorem setCore_mirrorSt (s : State) (i c : Nat) (x : CoreS) : (s.setCore i c x).mirrorSt = s.mirrorSt := rfl
@[simp] theorem setCore_present (s : State) (i c : Nat) (x : CoreS) (q z : Nat) : (s.setCore i c x).present q z = s.present q z := rfl
@[simp] theorem setCore_off (s : State) (i c : Nat) (x : CoreS) : (s.setCore i c x).off = s.off := rfl
@[simp] theorem setCore_tick (s : State) (i c : Nat) (x : CoreS) : (s.setCore i c x).tick = s.tick := rfl

/-! ## `State.setOrt` -/

@[simp] theorem setOrt_part (s : State) (t : Nat) (x : OrrT) : (s.setOrt t x).part = s.part := rfl
@[simp] theorem setOrt_pending (s : State) (t : Nat) (x : OrrT) : (s.setOrt t x).pending = s.pending := rfl
@[simp] theorem setOrt_regs (s : State) (t : Nat) (x : OrrT) : (s.setOrt t x).regs = s.regs := rfl
@[simp] theorem setOrt_seen (s : State) (t : Nat) (x : OrrT) : (s.setOrt t x).seen = s.seen := rfl
@[simp] theorem setOrt_rwo (s : State) (t : Nat) (x : OrrT) : (s.setOrt t x).rwo = s.rwo := rfl
@[simp] theorem setOrt_pr (s : State) (t : Nat) (x : OrrT) : (s.setOrt t x).pr = s.pr := rfl
@[simp] theorem setOrt_fresh (s : State) (t : Nat) (x : OrrT) : (s.setOrt t x).fresh = s.fresh := rfl
@[simp] theorem setOrt_halted (s : State) (t : Nat) (x : OrrT) : (s.setOrt t x).halted = s.halted := rfl
@[simp] theorem setOrt_bin (s : State) (t : Nat) (x : OrrT) : (s.setOrt t x).bin = s.bin := rfl
@[simp] theorem setOrt_hif (s : State) (t : Nat) (x : OrrT) : (s.setOrt t x).hif = s.hif := rfl
@[simp] theorem setOrt_crc (s : State) (t : Nat) (x : OrrT) : (s.setOrt t x).crc = s.crc := rfl
@[simp] theorem setOrt_pmc (s : State) (t : Nat) (x : OrrT) : (s.setOrt t x).pmc = s.pmc := rfl
@[simp] theorem setOrt_lcs (s : State) (t : Nat) (x : OrrT) : (s.setOrt t x).lcs = s.lcs := rfl
@[simp] theorem setOrt_tm (s : State) (t : Nat) (x : OrrT) : (s.setOrt t x).tm = s.tm := rfl
@[simp] theorem setOrt_deadline (s : State) (t : Nat) (x : OrrT) : (s.setOrt t x).deadline = s.deadline := rfl
@[simp] theorem setOrt_tickWork (s : State) (t : Nat) (x : OrrT) : (s.setOrt t x).tickWork = s.tickWork := rfl
@[simp] theorem setOrt_ttx (s : State) (t : Nat) (x : OrrT) : (s.setOrt t x).ttx = s.ttx := rfl
@[simp] theorem setOrt_terms (s : State) (t : Nat) (x : OrrT) : (s.setOrt t x).terms = s.terms := rfl
@[simp] theorem setOrt_sxt (s : State) (t : Nat) (x : OrrT) : (s.setOrt t x).sxt = s.sxt := rfl
@[simp] theorem setOrt_tsi (s : State) (t : Nat) (x : OrrT) : (s.setOrt t x).tsi = s.tsi := rfl
@[simp] theorem setOrt_alm (s : State) (t : Nat) (x : OrrT) : (s.setOrt t x).alm = s.alm := rfl
@[simp] theorem setOrt_ciph (s : State) (t : Nat) (x : OrrT) : (s.setOrt t x).ciph = s.ciph := rfl
@[simp] theorem setOrt_trx (s : State) (t : Nat) (x : OrrT) : (s.setOrt t x).trx = s.trx := rfl
@[simp] theorem setOrt_fwdIn (s : State) (t : Nat) (x : OrrT) : (s.setOrt t x).fwdIn = s.fwdIn := rfl
@[simp] theorem setOrt_pair (s : State) (t : Nat) (x : OrrT) : (s.setOrt t x).pair = s.pair := rfl
@[simp] theorem setOrt_ka (s : State) (t : Nat) (x : OrrT) : (s.setOrt t x).ka = s.ka := rfl
@[simp] theorem setOrt_msec (s : State) (t : Nat) (x : OrrT) : (s.setOrt t x).msec = s.msec := rfl
@[simp] theorem setOrt_sent (s : State) (t : Nat) (x : OrrT) : (s.setOrt t x).sent = s.sent := rfl
@[simp] theorem setOrt_mail (s : State) (t : Nat) (x : OrrT) : (s.setOrt t x).mail = s.mail := rfl
@[simp] theorem setOrt_navIn (s : State) (t : Nat) (x : OrrT) : (s.setOrt t x).navIn = s.navIn := rfl
@[simp] theorem setOrt_injDone (s : State) (t : Nat) (x : OrrT) : (s.setOrt t x).injDone = s.injDone := rfl
@[simp] theorem setOrt_fwd (s : State) (t : Nat) (x : OrrT) : (s.setOrt t x).fwd = s.fwd := rfl
@[simp] theorem setOrt_xin (s : State) (t : Nat) (x : OrrT) : (s.setOrt t x).xin = s.xin := rfl
@[simp] theorem setOrt_qin (s : State) (t : Nat) (x : OrrT) : (s.setOrt t x).qin = s.qin := rfl
@[simp] theorem setOrt_hostIn (s : State) (t : Nat) (x : OrrT) : (s.setOrt t x).hostIn = s.hostIn := rfl
@[simp] theorem setOrt_qsch (s : State) (t : Nat) (x : OrrT) : (s.setOrt t x).qsch = s.qsch := rfl
@[simp] theorem setOrt_buf (s : State) (t : Nat) (x : OrrT) : (s.setOrt t x).buf = s.buf := rfl
@[simp] theorem setOrt_gate (s : State) (t : Nat) (x : OrrT) : (s.setOrt t x).gate = s.gate := rfl
@[simp] theorem setOrt_ckt (s : State) (t : Nat) (x : OrrT) : (s.setOrt t x).ckt = s.ckt := rfl
@[simp] theorem setOrt_ages (s : State) (t : Nat) (x : OrrT) : (s.setOrt t x).ages = s.ages := rfl
@[simp] theorem setOrt_ovrAt (s : State) (t : Nat) (x : OrrT) : (s.setOrt t x).ovrAt = s.ovrAt := rfl
@[simp] theorem setOrt_nav (s : State) (t : Nat) (x : OrrT) : (s.setOrt t x).nav = s.nav := rfl
@[simp] theorem setOrt_navc (s : State) (t : Nat) (x : OrrT) : (s.setOrt t x).navc = s.navc := rfl
@[simp] theorem setOrt_nmem (s : State) (t : Nat) (x : OrrT) : (s.setOrt t x).nmem = s.nmem := rfl
@[simp] theorem setOrt_nbad (s : State) (t : Nat) (x : OrrT) : (s.setOrt t x).nbad = s.nbad := rfl
@[simp] theorem setOrt_posts (s : State) (t : Nat) (x : OrrT) : (s.setOrt t x).posts = s.posts := rfl
@[simp] theorem setOrt_qmap (s : State) (t : Nat) (x : OrrT) : (s.setOrt t x).qmap = s.qmap := rfl
@[simp] theorem setOrt_qhold (s : State) (t : Nat) (x : OrrT) : (s.setOrt t x).qhold = s.qhold := rfl
@[simp] theorem setOrt_sealS (s : State) (t : Nat) (x : OrrT) : (s.setOrt t x).sealS = s.sealS := rfl
@[simp] theorem setOrt_ser (s : State) (t : Nat) (x : OrrT) : (s.setOrt t x).ser = s.ser := rfl
@[simp] theorem setOrt_rd (s : State) (t : Nat) (x : OrrT) (q : Nat) : (s.setOrt t x).rd q = s.rd q := rfl
@[simp] theorem setOrt_reg (s : State) (t : Nat) (x : OrrT) (q : RegId) (z : Nat) : (s.setOrt t x).reg q z = s.reg q z := rfl
@[simp] theorem setOrt_regI (s : State) (t : Nat) (x : OrrT) (q : RegId) (z y : Nat) : (s.setOrt t x).regI q z y = s.regI q z y := rfl
@[simp] theorem setOrt_fld (s : State) (t : Nat) (x : OrrT) (q : FldId) (z y : Nat) : (s.setOrt t x).fld q z y = s.fld q z y := rfl
@[simp] theorem setOrt_flag (s : State) (t : Nat) (x : OrrT) (q : FldId) (z y : Nat) : (s.setOrt t x).flag q z y = s.flag q z y := rfl
@[simp] theorem setOrt_reg64 (s : State) (t : Nat) (x : OrrT) (q : RegId) (z : Nat) : (s.setOrt t x).reg64 q z = s.reg64 q z := rfl
@[simp] theorem setOrt_active (s : State) (t : Nat) (x : OrrT) (q z : Nat) : (s.setOrt t x).active q z = s.active q z := rfl
@[simp] theorem setOrt_inv (s : State) (t : Nat) (x : OrrT) (q z y : Nat) : (s.setOrt t x).inv q z y = s.inv q z y := rfl
@[simp] theorem setOrt_isActive (s : State) (t : Nat) (x : OrrT) : (s.setOrt t x).isActive = s.isActive := rfl
@[simp] theorem setOrt_mirrorSt (s : State) (t : Nat) (x : OrrT) : (s.setOrt t x).mirrorSt = s.mirrorSt := rfl
@[simp] theorem setOrt_present (s : State) (t : Nat) (x : OrrT) (q z : Nat) : (s.setOrt t x).present q z = s.present q z := rfl
@[simp] theorem setOrt_off (s : State) (t : Nat) (x : OrrT) : (s.setOrt t x).off = s.off := rfl
@[simp] theorem setOrt_tick (s : State) (t : Nat) (x : OrrT) : (s.setOrt t x).tick = s.tick := rfl

/-! ## `State.setAlloc` -/

@[simp] theorem setAlloc_part (s : State) (t n : Nat) (a : OAlloc) : (s.setAlloc t n a).part = s.part := rfl
@[simp] theorem setAlloc_pending (s : State) (t n : Nat) (a : OAlloc) : (s.setAlloc t n a).pending = s.pending := rfl
@[simp] theorem setAlloc_regs (s : State) (t n : Nat) (a : OAlloc) : (s.setAlloc t n a).regs = s.regs := rfl
@[simp] theorem setAlloc_seen (s : State) (t n : Nat) (a : OAlloc) : (s.setAlloc t n a).seen = s.seen := rfl
@[simp] theorem setAlloc_rwo (s : State) (t n : Nat) (a : OAlloc) : (s.setAlloc t n a).rwo = s.rwo := rfl
@[simp] theorem setAlloc_pr (s : State) (t n : Nat) (a : OAlloc) : (s.setAlloc t n a).pr = s.pr := rfl
@[simp] theorem setAlloc_fresh (s : State) (t n : Nat) (a : OAlloc) : (s.setAlloc t n a).fresh = s.fresh := rfl
@[simp] theorem setAlloc_halted (s : State) (t n : Nat) (a : OAlloc) : (s.setAlloc t n a).halted = s.halted := rfl
@[simp] theorem setAlloc_bin (s : State) (t n : Nat) (a : OAlloc) : (s.setAlloc t n a).bin = s.bin := rfl
@[simp] theorem setAlloc_hif (s : State) (t n : Nat) (a : OAlloc) : (s.setAlloc t n a).hif = s.hif := rfl
@[simp] theorem setAlloc_crc (s : State) (t n : Nat) (a : OAlloc) : (s.setAlloc t n a).crc = s.crc := rfl
@[simp] theorem setAlloc_pmc (s : State) (t n : Nat) (a : OAlloc) : (s.setAlloc t n a).pmc = s.pmc := rfl
@[simp] theorem setAlloc_lcs (s : State) (t n : Nat) (a : OAlloc) : (s.setAlloc t n a).lcs = s.lcs := rfl
@[simp] theorem setAlloc_tm (s : State) (t n : Nat) (a : OAlloc) : (s.setAlloc t n a).tm = s.tm := rfl
@[simp] theorem setAlloc_deadline (s : State) (t n : Nat) (a : OAlloc) : (s.setAlloc t n a).deadline = s.deadline := rfl
@[simp] theorem setAlloc_tickWork (s : State) (t n : Nat) (a : OAlloc) : (s.setAlloc t n a).tickWork = s.tickWork := rfl
@[simp] theorem setAlloc_ttx (s : State) (t n : Nat) (a : OAlloc) : (s.setAlloc t n a).ttx = s.ttx := rfl
@[simp] theorem setAlloc_terms (s : State) (t n : Nat) (a : OAlloc) : (s.setAlloc t n a).terms = s.terms := rfl
@[simp] theorem setAlloc_sxt (s : State) (t n : Nat) (a : OAlloc) : (s.setAlloc t n a).sxt = s.sxt := rfl
@[simp] theorem setAlloc_tsi (s : State) (t n : Nat) (a : OAlloc) : (s.setAlloc t n a).tsi = s.tsi := rfl
@[simp] theorem setAlloc_alm (s : State) (t n : Nat) (a : OAlloc) : (s.setAlloc t n a).alm = s.alm := rfl
@[simp] theorem setAlloc_ciph (s : State) (t n : Nat) (a : OAlloc) : (s.setAlloc t n a).ciph = s.ciph := rfl
@[simp] theorem setAlloc_trx (s : State) (t n : Nat) (a : OAlloc) : (s.setAlloc t n a).trx = s.trx := rfl
@[simp] theorem setAlloc_fwdIn (s : State) (t n : Nat) (a : OAlloc) : (s.setAlloc t n a).fwdIn = s.fwdIn := rfl
@[simp] theorem setAlloc_pair (s : State) (t n : Nat) (a : OAlloc) : (s.setAlloc t n a).pair = s.pair := rfl
@[simp] theorem setAlloc_ka (s : State) (t n : Nat) (a : OAlloc) : (s.setAlloc t n a).ka = s.ka := rfl
@[simp] theorem setAlloc_msec (s : State) (t n : Nat) (a : OAlloc) : (s.setAlloc t n a).msec = s.msec := rfl
@[simp] theorem setAlloc_sent (s : State) (t n : Nat) (a : OAlloc) : (s.setAlloc t n a).sent = s.sent := rfl
@[simp] theorem setAlloc_mail (s : State) (t n : Nat) (a : OAlloc) : (s.setAlloc t n a).mail = s.mail := rfl
@[simp] theorem setAlloc_navIn (s : State) (t n : Nat) (a : OAlloc) : (s.setAlloc t n a).navIn = s.navIn := rfl
@[simp] theorem setAlloc_injDone (s : State) (t n : Nat) (a : OAlloc) : (s.setAlloc t n a).injDone = s.injDone := rfl
@[simp] theorem setAlloc_fwd (s : State) (t n : Nat) (a : OAlloc) : (s.setAlloc t n a).fwd = s.fwd := rfl
@[simp] theorem setAlloc_xin (s : State) (t n : Nat) (a : OAlloc) : (s.setAlloc t n a).xin = s.xin := rfl
@[simp] theorem setAlloc_qin (s : State) (t n : Nat) (a : OAlloc) : (s.setAlloc t n a).qin = s.qin := rfl
@[simp] theorem setAlloc_hostIn (s : State) (t n : Nat) (a : OAlloc) : (s.setAlloc t n a).hostIn = s.hostIn := rfl
@[simp] theorem setAlloc_qsch (s : State) (t n : Nat) (a : OAlloc) : (s.setAlloc t n a).qsch = s.qsch := rfl
@[simp] theorem setAlloc_buf (s : State) (t n : Nat) (a : OAlloc) : (s.setAlloc t n a).buf = s.buf := rfl
@[simp] theorem setAlloc_gate (s : State) (t n : Nat) (a : OAlloc) : (s.setAlloc t n a).gate = s.gate := rfl
@[simp] theorem setAlloc_ckt (s : State) (t n : Nat) (a : OAlloc) : (s.setAlloc t n a).ckt = s.ckt := rfl
@[simp] theorem setAlloc_ages (s : State) (t n : Nat) (a : OAlloc) : (s.setAlloc t n a).ages = s.ages := rfl
@[simp] theorem setAlloc_ovrAt (s : State) (t n : Nat) (a : OAlloc) : (s.setAlloc t n a).ovrAt = s.ovrAt := rfl
@[simp] theorem setAlloc_nav (s : State) (t n : Nat) (a : OAlloc) : (s.setAlloc t n a).nav = s.nav := rfl
@[simp] theorem setAlloc_navc (s : State) (t n : Nat) (a : OAlloc) : (s.setAlloc t n a).navc = s.navc := rfl
@[simp] theorem setAlloc_nmem (s : State) (t n : Nat) (a : OAlloc) : (s.setAlloc t n a).nmem = s.nmem := rfl
@[simp] theorem setAlloc_nbad (s : State) (t n : Nat) (a : OAlloc) : (s.setAlloc t n a).nbad = s.nbad := rfl
@[simp] theorem setAlloc_posts (s : State) (t n : Nat) (a : OAlloc) : (s.setAlloc t n a).posts = s.posts := rfl
@[simp] theorem setAlloc_qmap (s : State) (t n : Nat) (a : OAlloc) : (s.setAlloc t n a).qmap = s.qmap := rfl
@[simp] theorem setAlloc_qhold (s : State) (t n : Nat) (a : OAlloc) : (s.setAlloc t n a).qhold = s.qhold := rfl
@[simp] theorem setAlloc_sealS (s : State) (t n : Nat) (a : OAlloc) : (s.setAlloc t n a).sealS = s.sealS := rfl
@[simp] theorem setAlloc_ser (s : State) (t n : Nat) (a : OAlloc) : (s.setAlloc t n a).ser = s.ser := rfl
@[simp] theorem setAlloc_rd (s : State) (t n : Nat) (a : OAlloc) (q : Nat) : (s.setAlloc t n a).rd q = s.rd q := rfl
@[simp] theorem setAlloc_reg (s : State) (t n : Nat) (a : OAlloc) (q : RegId) (z : Nat) : (s.setAlloc t n a).reg q z = s.reg q z := rfl
@[simp] theorem setAlloc_regI (s : State) (t n : Nat) (a : OAlloc) (q : RegId) (z y : Nat) : (s.setAlloc t n a).regI q z y = s.regI q z y := rfl
@[simp] theorem setAlloc_fld (s : State) (t n : Nat) (a : OAlloc) (q : FldId) (z y : Nat) : (s.setAlloc t n a).fld q z y = s.fld q z y := rfl
@[simp] theorem setAlloc_flag (s : State) (t n : Nat) (a : OAlloc) (q : FldId) (z y : Nat) : (s.setAlloc t n a).flag q z y = s.flag q z y := rfl
@[simp] theorem setAlloc_reg64 (s : State) (t n : Nat) (a : OAlloc) (q : RegId) (z : Nat) : (s.setAlloc t n a).reg64 q z = s.reg64 q z := rfl
@[simp] theorem setAlloc_active (s : State) (t n : Nat) (a : OAlloc) (q z : Nat) : (s.setAlloc t n a).active q z = s.active q z := rfl
@[simp] theorem setAlloc_inv (s : State) (t n : Nat) (a : OAlloc) (q z y : Nat) : (s.setAlloc t n a).inv q z y = s.inv q z y := rfl
@[simp] theorem setAlloc_isActive (s : State) (t n : Nat) (a : OAlloc) : (s.setAlloc t n a).isActive = s.isActive := rfl
@[simp] theorem setAlloc_mirrorSt (s : State) (t n : Nat) (a : OAlloc) : (s.setAlloc t n a).mirrorSt = s.mirrorSt := rfl
@[simp] theorem setAlloc_present (s : State) (t n : Nat) (a : OAlloc) (q z : Nat) : (s.setAlloc t n a).present q z = s.present q z := rfl
@[simp] theorem setAlloc_off (s : State) (t n : Nat) (a : OAlloc) : (s.setAlloc t n a).off = s.off := rfl
@[simp] theorem setAlloc_tick (s : State) (t n : Nat) (a : OAlloc) : (s.setAlloc t n a).tick = s.tick := rfl

/-! ## `State.setRx` -/

@[simp] theorem setRx_part (s : State) (t : Nat) (x : TrxS) : (s.setRx t x).part = s.part := rfl
@[simp] theorem setRx_pending (s : State) (t : Nat) (x : TrxS) : (s.setRx t x).pending = s.pending := rfl
@[simp] theorem setRx_regs (s : State) (t : Nat) (x : TrxS) : (s.setRx t x).regs = s.regs := rfl
@[simp] theorem setRx_seen (s : State) (t : Nat) (x : TrxS) : (s.setRx t x).seen = s.seen := rfl
@[simp] theorem setRx_rwo (s : State) (t : Nat) (x : TrxS) : (s.setRx t x).rwo = s.rwo := rfl
@[simp] theorem setRx_pr (s : State) (t : Nat) (x : TrxS) : (s.setRx t x).pr = s.pr := rfl
@[simp] theorem setRx_fresh (s : State) (t : Nat) (x : TrxS) : (s.setRx t x).fresh = s.fresh := rfl
@[simp] theorem setRx_halted (s : State) (t : Nat) (x : TrxS) : (s.setRx t x).halted = s.halted := rfl
@[simp] theorem setRx_bin (s : State) (t : Nat) (x : TrxS) : (s.setRx t x).bin = s.bin := rfl
@[simp] theorem setRx_hif (s : State) (t : Nat) (x : TrxS) : (s.setRx t x).hif = s.hif := rfl
@[simp] theorem setRx_crc (s : State) (t : Nat) (x : TrxS) : (s.setRx t x).crc = s.crc := rfl
@[simp] theorem setRx_pmc (s : State) (t : Nat) (x : TrxS) : (s.setRx t x).pmc = s.pmc := rfl
@[simp] theorem setRx_lcs (s : State) (t : Nat) (x : TrxS) : (s.setRx t x).lcs = s.lcs := rfl
@[simp] theorem setRx_tm (s : State) (t : Nat) (x : TrxS) : (s.setRx t x).tm = s.tm := rfl
@[simp] theorem setRx_deadline (s : State) (t : Nat) (x : TrxS) : (s.setRx t x).deadline = s.deadline := rfl
@[simp] theorem setRx_tickWork (s : State) (t : Nat) (x : TrxS) : (s.setRx t x).tickWork = s.tickWork := rfl
@[simp] theorem setRx_ttx (s : State) (t : Nat) (x : TrxS) : (s.setRx t x).ttx = s.ttx := rfl
@[simp] theorem setRx_terms (s : State) (t : Nat) (x : TrxS) : (s.setRx t x).terms = s.terms := rfl
@[simp] theorem setRx_sxt (s : State) (t : Nat) (x : TrxS) : (s.setRx t x).sxt = s.sxt := rfl
@[simp] theorem setRx_tsi (s : State) (t : Nat) (x : TrxS) : (s.setRx t x).tsi = s.tsi := rfl
@[simp] theorem setRx_alm (s : State) (t : Nat) (x : TrxS) : (s.setRx t x).alm = s.alm := rfl
@[simp] theorem setRx_ciph (s : State) (t : Nat) (x : TrxS) : (s.setRx t x).ciph = s.ciph := rfl
@[simp] theorem setRx_orr (s : State) (t : Nat) (x : TrxS) : (s.setRx t x).orr = s.orr := rfl
@[simp] theorem setRx_fwdIn (s : State) (t : Nat) (x : TrxS) : (s.setRx t x).fwdIn = s.fwdIn := rfl
@[simp] theorem setRx_pair (s : State) (t : Nat) (x : TrxS) : (s.setRx t x).pair = s.pair := rfl
@[simp] theorem setRx_ka (s : State) (t : Nat) (x : TrxS) : (s.setRx t x).ka = s.ka := rfl
@[simp] theorem setRx_msec (s : State) (t : Nat) (x : TrxS) : (s.setRx t x).msec = s.msec := rfl
@[simp] theorem setRx_sent (s : State) (t : Nat) (x : TrxS) : (s.setRx t x).sent = s.sent := rfl
@[simp] theorem setRx_mail (s : State) (t : Nat) (x : TrxS) : (s.setRx t x).mail = s.mail := rfl
@[simp] theorem setRx_navIn (s : State) (t : Nat) (x : TrxS) : (s.setRx t x).navIn = s.navIn := rfl
@[simp] theorem setRx_injDone (s : State) (t : Nat) (x : TrxS) : (s.setRx t x).injDone = s.injDone := rfl
@[simp] theorem setRx_fwd (s : State) (t : Nat) (x : TrxS) : (s.setRx t x).fwd = s.fwd := rfl
@[simp] theorem setRx_xin (s : State) (t : Nat) (x : TrxS) : (s.setRx t x).xin = s.xin := rfl
@[simp] theorem setRx_qin (s : State) (t : Nat) (x : TrxS) : (s.setRx t x).qin = s.qin := rfl
@[simp] theorem setRx_hostIn (s : State) (t : Nat) (x : TrxS) : (s.setRx t x).hostIn = s.hostIn := rfl
@[simp] theorem setRx_qsch (s : State) (t : Nat) (x : TrxS) : (s.setRx t x).qsch = s.qsch := rfl
@[simp] theorem setRx_buf (s : State) (t : Nat) (x : TrxS) : (s.setRx t x).buf = s.buf := rfl
@[simp] theorem setRx_gate (s : State) (t : Nat) (x : TrxS) : (s.setRx t x).gate = s.gate := rfl
@[simp] theorem setRx_ckt (s : State) (t : Nat) (x : TrxS) : (s.setRx t x).ckt = s.ckt := rfl
@[simp] theorem setRx_ages (s : State) (t : Nat) (x : TrxS) : (s.setRx t x).ages = s.ages := rfl
@[simp] theorem setRx_ovrAt (s : State) (t : Nat) (x : TrxS) : (s.setRx t x).ovrAt = s.ovrAt := rfl
@[simp] theorem setRx_nav (s : State) (t : Nat) (x : TrxS) : (s.setRx t x).nav = s.nav := rfl
@[simp] theorem setRx_navc (s : State) (t : Nat) (x : TrxS) : (s.setRx t x).navc = s.navc := rfl
@[simp] theorem setRx_nmem (s : State) (t : Nat) (x : TrxS) : (s.setRx t x).nmem = s.nmem := rfl
@[simp] theorem setRx_nbad (s : State) (t : Nat) (x : TrxS) : (s.setRx t x).nbad = s.nbad := rfl
@[simp] theorem setRx_posts (s : State) (t : Nat) (x : TrxS) : (s.setRx t x).posts = s.posts := rfl
@[simp] theorem setRx_qmap (s : State) (t : Nat) (x : TrxS) : (s.setRx t x).qmap = s.qmap := rfl
@[simp] theorem setRx_qhold (s : State) (t : Nat) (x : TrxS) : (s.setRx t x).qhold = s.qhold := rfl
@[simp] theorem setRx_sealS (s : State) (t : Nat) (x : TrxS) : (s.setRx t x).sealS = s.sealS := rfl
@[simp] theorem setRx_ser (s : State) (t : Nat) (x : TrxS) : (s.setRx t x).ser = s.ser := rfl
@[simp] theorem setRx_rd (s : State) (t : Nat) (x : TrxS) (q : Nat) : (s.setRx t x).rd q = s.rd q := rfl
@[simp] theorem setRx_reg (s : State) (t : Nat) (x : TrxS) (q : RegId) (z : Nat) : (s.setRx t x).reg q z = s.reg q z := rfl
@[simp] theorem setRx_regI (s : State) (t : Nat) (x : TrxS) (q : RegId) (z y : Nat) : (s.setRx t x).regI q z y = s.regI q z y := rfl
@[simp] theorem setRx_fld (s : State) (t : Nat) (x : TrxS) (q : FldId) (z y : Nat) : (s.setRx t x).fld q z y = s.fld q z y := rfl
@[simp] theorem setRx_flag (s : State) (t : Nat) (x : TrxS) (q : FldId) (z y : Nat) : (s.setRx t x).flag q z y = s.flag q z y := rfl
@[simp] theorem setRx_reg64 (s : State) (t : Nat) (x : TrxS) (q : RegId) (z : Nat) : (s.setRx t x).reg64 q z = s.reg64 q z := rfl
@[simp] theorem setRx_active (s : State) (t : Nat) (x : TrxS) (q z : Nat) : (s.setRx t x).active q z = s.active q z := rfl
@[simp] theorem setRx_inv (s : State) (t : Nat) (x : TrxS) (q z y : Nat) : (s.setRx t x).inv q z y = s.inv q z y := rfl
@[simp] theorem setRx_isActive (s : State) (t : Nat) (x : TrxS) : (s.setRx t x).isActive = s.isActive := rfl
@[simp] theorem setRx_mirrorSt (s : State) (t : Nat) (x : TrxS) : (s.setRx t x).mirrorSt = s.mirrorSt := rfl
@[simp] theorem setRx_present (s : State) (t : Nat) (x : TrxS) (q z : Nat) : (s.setRx t x).present q z = s.present q z := rfl
@[simp] theorem setRx_off (s : State) (t : Nat) (x : TrxS) : (s.setRx t x).off = s.off := rfl
@[simp] theorem setRx_tick (s : State) (t : Nat) (x : TrxS) : (s.setRx t x).tick = s.tick := rfl

/-! ## `State.setProf` -/

@[simp] theorem setProf_part (s : State) (t n : Nat) (p : Prof) : (s.setProf t n p).part = s.part := rfl
@[simp] theorem setProf_pending (s : State) (t n : Nat) (p : Prof) : (s.setProf t n p).pending = s.pending := rfl
@[simp] theorem setProf_regs (s : State) (t n : Nat) (p : Prof) : (s.setProf t n p).regs = s.regs := rfl
@[simp] theorem setProf_seen (s : State) (t n : Nat) (p : Prof) : (s.setProf t n p).seen = s.seen := rfl
@[simp] theorem setProf_rwo (s : State) (t n : Nat) (p : Prof) : (s.setProf t n p).rwo = s.rwo := rfl
@[simp] theorem setProf_pr (s : State) (t n : Nat) (p : Prof) : (s.setProf t n p).pr = s.pr := rfl
@[simp] theorem setProf_fresh (s : State) (t n : Nat) (p : Prof) : (s.setProf t n p).fresh = s.fresh := rfl
@[simp] theorem setProf_halted (s : State) (t n : Nat) (p : Prof) : (s.setProf t n p).halted = s.halted := rfl
@[simp] theorem setProf_bin (s : State) (t n : Nat) (p : Prof) : (s.setProf t n p).bin = s.bin := rfl
@[simp] theorem setProf_hif (s : State) (t n : Nat) (p : Prof) : (s.setProf t n p).hif = s.hif := rfl
@[simp] theorem setProf_crc (s : State) (t n : Nat) (p : Prof) : (s.setProf t n p).crc = s.crc := rfl
@[simp] theorem setProf_pmc (s : State) (t n : Nat) (p : Prof) : (s.setProf t n p).pmc = s.pmc := rfl
@[simp] theorem setProf_lcs (s : State) (t n : Nat) (p : Prof) : (s.setProf t n p).lcs = s.lcs := rfl
@[simp] theorem setProf_tm (s : State) (t n : Nat) (p : Prof) : (s.setProf t n p).tm = s.tm := rfl
@[simp] theorem setProf_deadline (s : State) (t n : Nat) (p : Prof) : (s.setProf t n p).deadline = s.deadline := rfl
@[simp] theorem setProf_tickWork (s : State) (t n : Nat) (p : Prof) : (s.setProf t n p).tickWork = s.tickWork := rfl
@[simp] theorem setProf_ttx (s : State) (t n : Nat) (p : Prof) : (s.setProf t n p).ttx = s.ttx := rfl
@[simp] theorem setProf_terms (s : State) (t n : Nat) (p : Prof) : (s.setProf t n p).terms = s.terms := rfl
@[simp] theorem setProf_sxt (s : State) (t n : Nat) (p : Prof) : (s.setProf t n p).sxt = s.sxt := rfl
@[simp] theorem setProf_tsi (s : State) (t n : Nat) (p : Prof) : (s.setProf t n p).tsi = s.tsi := rfl
@[simp] theorem setProf_alm (s : State) (t n : Nat) (p : Prof) : (s.setProf t n p).alm = s.alm := rfl
@[simp] theorem setProf_ciph (s : State) (t n : Nat) (p : Prof) : (s.setProf t n p).ciph = s.ciph := rfl
@[simp] theorem setProf_orr (s : State) (t n : Nat) (p : Prof) : (s.setProf t n p).orr = s.orr := rfl
@[simp] theorem setProf_fwdIn (s : State) (t n : Nat) (p : Prof) : (s.setProf t n p).fwdIn = s.fwdIn := rfl
@[simp] theorem setProf_pair (s : State) (t n : Nat) (p : Prof) : (s.setProf t n p).pair = s.pair := rfl
@[simp] theorem setProf_ka (s : State) (t n : Nat) (p : Prof) : (s.setProf t n p).ka = s.ka := rfl
@[simp] theorem setProf_msec (s : State) (t n : Nat) (p : Prof) : (s.setProf t n p).msec = s.msec := rfl
@[simp] theorem setProf_sent (s : State) (t n : Nat) (p : Prof) : (s.setProf t n p).sent = s.sent := rfl
@[simp] theorem setProf_mail (s : State) (t n : Nat) (p : Prof) : (s.setProf t n p).mail = s.mail := rfl
@[simp] theorem setProf_navIn (s : State) (t n : Nat) (p : Prof) : (s.setProf t n p).navIn = s.navIn := rfl
@[simp] theorem setProf_injDone (s : State) (t n : Nat) (p : Prof) : (s.setProf t n p).injDone = s.injDone := rfl
@[simp] theorem setProf_fwd (s : State) (t n : Nat) (p : Prof) : (s.setProf t n p).fwd = s.fwd := rfl
@[simp] theorem setProf_xin (s : State) (t n : Nat) (p : Prof) : (s.setProf t n p).xin = s.xin := rfl
@[simp] theorem setProf_qin (s : State) (t n : Nat) (p : Prof) : (s.setProf t n p).qin = s.qin := rfl
@[simp] theorem setProf_hostIn (s : State) (t n : Nat) (p : Prof) : (s.setProf t n p).hostIn = s.hostIn := rfl
@[simp] theorem setProf_qsch (s : State) (t n : Nat) (p : Prof) : (s.setProf t n p).qsch = s.qsch := rfl
@[simp] theorem setProf_buf (s : State) (t n : Nat) (p : Prof) : (s.setProf t n p).buf = s.buf := rfl
@[simp] theorem setProf_gate (s : State) (t n : Nat) (p : Prof) : (s.setProf t n p).gate = s.gate := rfl
@[simp] theorem setProf_ckt (s : State) (t n : Nat) (p : Prof) : (s.setProf t n p).ckt = s.ckt := rfl
@[simp] theorem setProf_ages (s : State) (t n : Nat) (p : Prof) : (s.setProf t n p).ages = s.ages := rfl
@[simp] theorem setProf_ovrAt (s : State) (t n : Nat) (p : Prof) : (s.setProf t n p).ovrAt = s.ovrAt := rfl
@[simp] theorem setProf_nav (s : State) (t n : Nat) (p : Prof) : (s.setProf t n p).nav = s.nav := rfl
@[simp] theorem setProf_navc (s : State) (t n : Nat) (p : Prof) : (s.setProf t n p).navc = s.navc := rfl
@[simp] theorem setProf_nmem (s : State) (t n : Nat) (p : Prof) : (s.setProf t n p).nmem = s.nmem := rfl
@[simp] theorem setProf_nbad (s : State) (t n : Nat) (p : Prof) : (s.setProf t n p).nbad = s.nbad := rfl
@[simp] theorem setProf_posts (s : State) (t n : Nat) (p : Prof) : (s.setProf t n p).posts = s.posts := rfl
@[simp] theorem setProf_qmap (s : State) (t n : Nat) (p : Prof) : (s.setProf t n p).qmap = s.qmap := rfl
@[simp] theorem setProf_qhold (s : State) (t n : Nat) (p : Prof) : (s.setProf t n p).qhold = s.qhold := rfl
@[simp] theorem setProf_sealS (s : State) (t n : Nat) (p : Prof) : (s.setProf t n p).sealS = s.sealS := rfl
@[simp] theorem setProf_ser (s : State) (t n : Nat) (p : Prof) : (s.setProf t n p).ser = s.ser := rfl
@[simp] theorem setProf_rd (s : State) (t n : Nat) (p : Prof) (q : Nat) : (s.setProf t n p).rd q = s.rd q := rfl
@[simp] theorem setProf_reg (s : State) (t n : Nat) (p : Prof) (q : RegId) (z : Nat) : (s.setProf t n p).reg q z = s.reg q z := rfl
@[simp] theorem setProf_regI (s : State) (t n : Nat) (p : Prof) (q : RegId) (z y : Nat) : (s.setProf t n p).regI q z y = s.regI q z y := rfl
@[simp] theorem setProf_fld (s : State) (t n : Nat) (p : Prof) (q : FldId) (z y : Nat) : (s.setProf t n p).fld q z y = s.fld q z y := rfl
@[simp] theorem setProf_flag (s : State) (t n : Nat) (p : Prof) (q : FldId) (z y : Nat) : (s.setProf t n p).flag q z y = s.flag q z y := rfl
@[simp] theorem setProf_reg64 (s : State) (t n : Nat) (p : Prof) (q : RegId) (z : Nat) : (s.setProf t n p).reg64 q z = s.reg64 q z := rfl
@[simp] theorem setProf_active (s : State) (t n : Nat) (p : Prof) (q z : Nat) : (s.setProf t n p).active q z = s.active q z := rfl
@[simp] theorem setProf_inv (s : State) (t n : Nat) (p : Prof) (q z y : Nat) : (s.setProf t n p).inv q z y = s.inv q z y := rfl
@[simp] theorem setProf_isActive (s : State) (t n : Nat) (p : Prof) : (s.setProf t n p).isActive = s.isActive := rfl
@[simp] theorem setProf_mirrorSt (s : State) (t n : Nat) (p : Prof) : (s.setProf t n p).mirrorSt = s.mirrorSt := rfl
@[simp] theorem setProf_present (s : State) (t n : Nat) (p : Prof) (q z : Nat) : (s.setProf t n p).present q z = s.present q z := rfl
@[simp] theorem setProf_off (s : State) (t n : Nat) (p : Prof) : (s.setProf t n p).off = s.off := rfl
@[simp] theorem setProf_tick (s : State) (t n : Nat) (p : Prof) : (s.setProf t n p).tick = s.tick := rfl

/-! ## `State.setKt` -/

@[simp] theorem setKt_part (s : State) (k : Nat) (x : KaTerm) : (s.setKt k x).part = s.part := rfl
@[simp] theorem setKt_pending (s : State) (k : Nat) (x : KaTerm) : (s.setKt k x).pending = s.pending := rfl
@[simp] theorem setKt_regs (s : State) (k : Nat) (x : KaTerm) : (s.setKt k x).regs = s.regs := rfl
@[simp] theorem setKt_seen (s : State) (k : Nat) (x : KaTerm) : (s.setKt k x).seen = s.seen := rfl
@[simp] theorem setKt_rwo (s : State) (k : Nat) (x : KaTerm) : (s.setKt k x).rwo = s.rwo := rfl
@[simp] theorem setKt_pr (s : State) (k : Nat) (x : KaTerm) : (s.setKt k x).pr = s.pr := rfl
@[simp] theorem setKt_fresh (s : State) (k : Nat) (x : KaTerm) : (s.setKt k x).fresh = s.fresh := rfl
@[simp] theorem setKt_halted (s : State) (k : Nat) (x : KaTerm) : (s.setKt k x).halted = s.halted := rfl
@[simp] theorem setKt_bin (s : State) (k : Nat) (x : KaTerm) : (s.setKt k x).bin = s.bin := rfl
@[simp] theorem setKt_hif (s : State) (k : Nat) (x : KaTerm) : (s.setKt k x).hif = s.hif := rfl
@[simp] theorem setKt_crc (s : State) (k : Nat) (x : KaTerm) : (s.setKt k x).crc = s.crc := rfl
@[simp] theorem setKt_pmc (s : State) (k : Nat) (x : KaTerm) : (s.setKt k x).pmc = s.pmc := rfl
@[simp] theorem setKt_lcs (s : State) (k : Nat) (x : KaTerm) : (s.setKt k x).lcs = s.lcs := rfl
@[simp] theorem setKt_tm (s : State) (k : Nat) (x : KaTerm) : (s.setKt k x).tm = s.tm := rfl
@[simp] theorem setKt_deadline (s : State) (k : Nat) (x : KaTerm) : (s.setKt k x).deadline = s.deadline := rfl
@[simp] theorem setKt_tickWork (s : State) (k : Nat) (x : KaTerm) : (s.setKt k x).tickWork = s.tickWork := rfl
@[simp] theorem setKt_ttx (s : State) (k : Nat) (x : KaTerm) : (s.setKt k x).ttx = s.ttx := rfl
@[simp] theorem setKt_terms (s : State) (k : Nat) (x : KaTerm) : (s.setKt k x).terms = s.terms := rfl
@[simp] theorem setKt_sxt (s : State) (k : Nat) (x : KaTerm) : (s.setKt k x).sxt = s.sxt := rfl
@[simp] theorem setKt_tsi (s : State) (k : Nat) (x : KaTerm) : (s.setKt k x).tsi = s.tsi := rfl
@[simp] theorem setKt_alm (s : State) (k : Nat) (x : KaTerm) : (s.setKt k x).alm = s.alm := rfl
@[simp] theorem setKt_ciph (s : State) (k : Nat) (x : KaTerm) : (s.setKt k x).ciph = s.ciph := rfl
@[simp] theorem setKt_orr (s : State) (k : Nat) (x : KaTerm) : (s.setKt k x).orr = s.orr := rfl
@[simp] theorem setKt_trx (s : State) (k : Nat) (x : KaTerm) : (s.setKt k x).trx = s.trx := rfl
@[simp] theorem setKt_fwdIn (s : State) (k : Nat) (x : KaTerm) : (s.setKt k x).fwdIn = s.fwdIn := rfl
@[simp] theorem setKt_pair (s : State) (k : Nat) (x : KaTerm) : (s.setKt k x).pair = s.pair := rfl
@[simp] theorem setKt_msec (s : State) (k : Nat) (x : KaTerm) : (s.setKt k x).msec = s.msec := rfl
@[simp] theorem setKt_sent (s : State) (k : Nat) (x : KaTerm) : (s.setKt k x).sent = s.sent := rfl
@[simp] theorem setKt_mail (s : State) (k : Nat) (x : KaTerm) : (s.setKt k x).mail = s.mail := rfl
@[simp] theorem setKt_navIn (s : State) (k : Nat) (x : KaTerm) : (s.setKt k x).navIn = s.navIn := rfl
@[simp] theorem setKt_injDone (s : State) (k : Nat) (x : KaTerm) : (s.setKt k x).injDone = s.injDone := rfl
@[simp] theorem setKt_fwd (s : State) (k : Nat) (x : KaTerm) : (s.setKt k x).fwd = s.fwd := rfl
@[simp] theorem setKt_xin (s : State) (k : Nat) (x : KaTerm) : (s.setKt k x).xin = s.xin := rfl
@[simp] theorem setKt_qin (s : State) (k : Nat) (x : KaTerm) : (s.setKt k x).qin = s.qin := rfl
@[simp] theorem setKt_hostIn (s : State) (k : Nat) (x : KaTerm) : (s.setKt k x).hostIn = s.hostIn := rfl
@[simp] theorem setKt_qsch (s : State) (k : Nat) (x : KaTerm) : (s.setKt k x).qsch = s.qsch := rfl
@[simp] theorem setKt_buf (s : State) (k : Nat) (x : KaTerm) : (s.setKt k x).buf = s.buf := rfl
@[simp] theorem setKt_gate (s : State) (k : Nat) (x : KaTerm) : (s.setKt k x).gate = s.gate := rfl
@[simp] theorem setKt_ckt (s : State) (k : Nat) (x : KaTerm) : (s.setKt k x).ckt = s.ckt := rfl
@[simp] theorem setKt_ages (s : State) (k : Nat) (x : KaTerm) : (s.setKt k x).ages = s.ages := rfl
@[simp] theorem setKt_ovrAt (s : State) (k : Nat) (x : KaTerm) : (s.setKt k x).ovrAt = s.ovrAt := rfl
@[simp] theorem setKt_nav (s : State) (k : Nat) (x : KaTerm) : (s.setKt k x).nav = s.nav := rfl
@[simp] theorem setKt_navc (s : State) (k : Nat) (x : KaTerm) : (s.setKt k x).navc = s.navc := rfl
@[simp] theorem setKt_nmem (s : State) (k : Nat) (x : KaTerm) : (s.setKt k x).nmem = s.nmem := rfl
@[simp] theorem setKt_nbad (s : State) (k : Nat) (x : KaTerm) : (s.setKt k x).nbad = s.nbad := rfl
@[simp] theorem setKt_posts (s : State) (k : Nat) (x : KaTerm) : (s.setKt k x).posts = s.posts := rfl
@[simp] theorem setKt_qmap (s : State) (k : Nat) (x : KaTerm) : (s.setKt k x).qmap = s.qmap := rfl
@[simp] theorem setKt_qhold (s : State) (k : Nat) (x : KaTerm) : (s.setKt k x).qhold = s.qhold := rfl
@[simp] theorem setKt_sealS (s : State) (k : Nat) (x : KaTerm) : (s.setKt k x).sealS = s.sealS := rfl
@[simp] theorem setKt_ser (s : State) (k : Nat) (x : KaTerm) : (s.setKt k x).ser = s.ser := rfl
@[simp] theorem setKt_rd (s : State) (k : Nat) (x : KaTerm) (q : Nat) : (s.setKt k x).rd q = s.rd q := rfl
@[simp] theorem setKt_reg (s : State) (k : Nat) (x : KaTerm) (q : RegId) (z : Nat) : (s.setKt k x).reg q z = s.reg q z := rfl
@[simp] theorem setKt_regI (s : State) (k : Nat) (x : KaTerm) (q : RegId) (z y : Nat) : (s.setKt k x).regI q z y = s.regI q z y := rfl
@[simp] theorem setKt_fld (s : State) (k : Nat) (x : KaTerm) (q : FldId) (z y : Nat) : (s.setKt k x).fld q z y = s.fld q z y := rfl
@[simp] theorem setKt_flag (s : State) (k : Nat) (x : KaTerm) (q : FldId) (z y : Nat) : (s.setKt k x).flag q z y = s.flag q z y := rfl
@[simp] theorem setKt_reg64 (s : State) (k : Nat) (x : KaTerm) (q : RegId) (z : Nat) : (s.setKt k x).reg64 q z = s.reg64 q z := rfl
@[simp] theorem setKt_active (s : State) (k : Nat) (x : KaTerm) (q z : Nat) : (s.setKt k x).active q z = s.active q z := rfl
@[simp] theorem setKt_inv (s : State) (k : Nat) (x : KaTerm) (q z y : Nat) : (s.setKt k x).inv q z y = s.inv q z y := rfl
@[simp] theorem setKt_isActive (s : State) (k : Nat) (x : KaTerm) : (s.setKt k x).isActive = s.isActive := rfl
@[simp] theorem setKt_mirrorSt (s : State) (k : Nat) (x : KaTerm) : (s.setKt k x).mirrorSt = s.mirrorSt := rfl
@[simp] theorem setKt_present (s : State) (k : Nat) (x : KaTerm) (q z : Nat) : (s.setKt k x).present q z = s.present q z := rfl
@[simp] theorem setKt_off (s : State) (k : Nat) (x : KaTerm) : (s.setKt k x).off = s.off := rfl
@[simp] theorem setKt_tick (s : State) (k : Nat) (x : KaTerm) : (s.setKt k x).tick = s.tick := rfl

/-! ## `State.setKg` -/

@[simp] theorem setKg_part (s : State) (k : Nat) (x : KaGroup) : (s.setKg k x).part = s.part := rfl
@[simp] theorem setKg_pending (s : State) (k : Nat) (x : KaGroup) : (s.setKg k x).pending = s.pending := rfl
@[simp] theorem setKg_regs (s : State) (k : Nat) (x : KaGroup) : (s.setKg k x).regs = s.regs := rfl
@[simp] theorem setKg_seen (s : State) (k : Nat) (x : KaGroup) : (s.setKg k x).seen = s.seen := rfl
@[simp] theorem setKg_rwo (s : State) (k : Nat) (x : KaGroup) : (s.setKg k x).rwo = s.rwo := rfl
@[simp] theorem setKg_pr (s : State) (k : Nat) (x : KaGroup) : (s.setKg k x).pr = s.pr := rfl
@[simp] theorem setKg_fresh (s : State) (k : Nat) (x : KaGroup) : (s.setKg k x).fresh = s.fresh := rfl
@[simp] theorem setKg_halted (s : State) (k : Nat) (x : KaGroup) : (s.setKg k x).halted = s.halted := rfl
@[simp] theorem setKg_bin (s : State) (k : Nat) (x : KaGroup) : (s.setKg k x).bin = s.bin := rfl
@[simp] theorem setKg_hif (s : State) (k : Nat) (x : KaGroup) : (s.setKg k x).hif = s.hif := rfl
@[simp] theorem setKg_crc (s : State) (k : Nat) (x : KaGroup) : (s.setKg k x).crc = s.crc := rfl
@[simp] theorem setKg_pmc (s : State) (k : Nat) (x : KaGroup) : (s.setKg k x).pmc = s.pmc := rfl
@[simp] theorem setKg_lcs (s : State) (k : Nat) (x : KaGroup) : (s.setKg k x).lcs = s.lcs := rfl
@[simp] theorem setKg_tm (s : State) (k : Nat) (x : KaGroup) : (s.setKg k x).tm = s.tm := rfl
@[simp] theorem setKg_deadline (s : State) (k : Nat) (x : KaGroup) : (s.setKg k x).deadline = s.deadline := rfl
@[simp] theorem setKg_tickWork (s : State) (k : Nat) (x : KaGroup) : (s.setKg k x).tickWork = s.tickWork := rfl
@[simp] theorem setKg_ttx (s : State) (k : Nat) (x : KaGroup) : (s.setKg k x).ttx = s.ttx := rfl
@[simp] theorem setKg_terms (s : State) (k : Nat) (x : KaGroup) : (s.setKg k x).terms = s.terms := rfl
@[simp] theorem setKg_sxt (s : State) (k : Nat) (x : KaGroup) : (s.setKg k x).sxt = s.sxt := rfl
@[simp] theorem setKg_tsi (s : State) (k : Nat) (x : KaGroup) : (s.setKg k x).tsi = s.tsi := rfl
@[simp] theorem setKg_alm (s : State) (k : Nat) (x : KaGroup) : (s.setKg k x).alm = s.alm := rfl
@[simp] theorem setKg_ciph (s : State) (k : Nat) (x : KaGroup) : (s.setKg k x).ciph = s.ciph := rfl
@[simp] theorem setKg_orr (s : State) (k : Nat) (x : KaGroup) : (s.setKg k x).orr = s.orr := rfl
@[simp] theorem setKg_trx (s : State) (k : Nat) (x : KaGroup) : (s.setKg k x).trx = s.trx := rfl
@[simp] theorem setKg_fwdIn (s : State) (k : Nat) (x : KaGroup) : (s.setKg k x).fwdIn = s.fwdIn := rfl
@[simp] theorem setKg_pair (s : State) (k : Nat) (x : KaGroup) : (s.setKg k x).pair = s.pair := rfl
@[simp] theorem setKg_msec (s : State) (k : Nat) (x : KaGroup) : (s.setKg k x).msec = s.msec := rfl
@[simp] theorem setKg_sent (s : State) (k : Nat) (x : KaGroup) : (s.setKg k x).sent = s.sent := rfl
@[simp] theorem setKg_mail (s : State) (k : Nat) (x : KaGroup) : (s.setKg k x).mail = s.mail := rfl
@[simp] theorem setKg_navIn (s : State) (k : Nat) (x : KaGroup) : (s.setKg k x).navIn = s.navIn := rfl
@[simp] theorem setKg_injDone (s : State) (k : Nat) (x : KaGroup) : (s.setKg k x).injDone = s.injDone := rfl
@[simp] theorem setKg_fwd (s : State) (k : Nat) (x : KaGroup) : (s.setKg k x).fwd = s.fwd := rfl
@[simp] theorem setKg_xin (s : State) (k : Nat) (x : KaGroup) : (s.setKg k x).xin = s.xin := rfl
@[simp] theorem setKg_qin (s : State) (k : Nat) (x : KaGroup) : (s.setKg k x).qin = s.qin := rfl
@[simp] theorem setKg_hostIn (s : State) (k : Nat) (x : KaGroup) : (s.setKg k x).hostIn = s.hostIn := rfl
@[simp] theorem setKg_qsch (s : State) (k : Nat) (x : KaGroup) : (s.setKg k x).qsch = s.qsch := rfl
@[simp] theorem setKg_buf (s : State) (k : Nat) (x : KaGroup) : (s.setKg k x).buf = s.buf := rfl
@[simp] theorem setKg_gate (s : State) (k : Nat) (x : KaGroup) : (s.setKg k x).gate = s.gate := rfl
@[simp] theorem setKg_ckt (s : State) (k : Nat) (x : KaGroup) : (s.setKg k x).ckt = s.ckt := rfl
@[simp] theorem setKg_ages (s : State) (k : Nat) (x : KaGroup) : (s.setKg k x).ages = s.ages := rfl
@[simp] theorem setKg_ovrAt (s : State) (k : Nat) (x : KaGroup) : (s.setKg k x).ovrAt = s.ovrAt := rfl
@[simp] theorem setKg_nav (s : State) (k : Nat) (x : KaGroup) : (s.setKg k x).nav = s.nav := rfl
@[simp] theorem setKg_navc (s : State) (k : Nat) (x : KaGroup) : (s.setKg k x).navc = s.navc := rfl
@[simp] theorem setKg_nmem (s : State) (k : Nat) (x : KaGroup) : (s.setKg k x).nmem = s.nmem := rfl
@[simp] theorem setKg_nbad (s : State) (k : Nat) (x : KaGroup) : (s.setKg k x).nbad = s.nbad := rfl
@[simp] theorem setKg_posts (s : State) (k : Nat) (x : KaGroup) : (s.setKg k x).posts = s.posts := rfl
@[simp] theorem setKg_qmap (s : State) (k : Nat) (x : KaGroup) : (s.setKg k x).qmap = s.qmap := rfl
@[simp] theorem setKg_qhold (s : State) (k : Nat) (x : KaGroup) : (s.setKg k x).qhold = s.qhold := rfl
@[simp] theorem setKg_sealS (s : State) (k : Nat) (x : KaGroup) : (s.setKg k x).sealS = s.sealS := rfl
@[simp] theorem setKg_ser (s : State) (k : Nat) (x : KaGroup) : (s.setKg k x).ser = s.ser := rfl
@[simp] theorem setKg_rd (s : State) (k : Nat) (x : KaGroup) (q : Nat) : (s.setKg k x).rd q = s.rd q := rfl
@[simp] theorem setKg_reg (s : State) (k : Nat) (x : KaGroup) (q : RegId) (z : Nat) : (s.setKg k x).reg q z = s.reg q z := rfl
@[simp] theorem setKg_regI (s : State) (k : Nat) (x : KaGroup) (q : RegId) (z y : Nat) : (s.setKg k x).regI q z y = s.regI q z y := rfl
@[simp] theorem setKg_fld (s : State) (k : Nat) (x : KaGroup) (q : FldId) (z y : Nat) : (s.setKg k x).fld q z y = s.fld q z y := rfl
@[simp] theorem setKg_flag (s : State) (k : Nat) (x : KaGroup) (q : FldId) (z y : Nat) : (s.setKg k x).flag q z y = s.flag q z y := rfl
@[simp] theorem setKg_reg64 (s : State) (k : Nat) (x : KaGroup) (q : RegId) (z : Nat) : (s.setKg k x).reg64 q z = s.reg64 q z := rfl
@[simp] theorem setKg_active (s : State) (k : Nat) (x : KaGroup) (q z : Nat) : (s.setKg k x).active q z = s.active q z := rfl
@[simp] theorem setKg_inv (s : State) (k : Nat) (x : KaGroup) (q z y : Nat) : (s.setKg k x).inv q z y = s.inv q z y := rfl
@[simp] theorem setKg_isActive (s : State) (k : Nat) (x : KaGroup) : (s.setKg k x).isActive = s.isActive := rfl
@[simp] theorem setKg_mirrorSt (s : State) (k : Nat) (x : KaGroup) : (s.setKg k x).mirrorSt = s.mirrorSt := rfl
@[simp] theorem setKg_present (s : State) (k : Nat) (x : KaGroup) (q z : Nat) : (s.setKg k x).present q z = s.present q z := rfl
@[simp] theorem setKg_off (s : State) (k : Nat) (x : KaGroup) : (s.setKg k x).off = s.off := rfl
@[simp] theorem setKg_tick (s : State) (k : Nat) (x : KaGroup) : (s.setKg k x).tick = s.tick := rfl

/-! ## `State.setSy` -/

@[simp] theorem setSy_part (s : State) (i : Nat) (x : MsecS) : (s.setSy i x).part = s.part := rfl
@[simp] theorem setSy_pending (s : State) (i : Nat) (x : MsecS) : (s.setSy i x).pending = s.pending := rfl
@[simp] theorem setSy_regs (s : State) (i : Nat) (x : MsecS) : (s.setSy i x).regs = s.regs := rfl
@[simp] theorem setSy_seen (s : State) (i : Nat) (x : MsecS) : (s.setSy i x).seen = s.seen := rfl
@[simp] theorem setSy_rwo (s : State) (i : Nat) (x : MsecS) : (s.setSy i x).rwo = s.rwo := rfl
@[simp] theorem setSy_pr (s : State) (i : Nat) (x : MsecS) : (s.setSy i x).pr = s.pr := rfl
@[simp] theorem setSy_fresh (s : State) (i : Nat) (x : MsecS) : (s.setSy i x).fresh = s.fresh := rfl
@[simp] theorem setSy_halted (s : State) (i : Nat) (x : MsecS) : (s.setSy i x).halted = s.halted := rfl
@[simp] theorem setSy_bin (s : State) (i : Nat) (x : MsecS) : (s.setSy i x).bin = s.bin := rfl
@[simp] theorem setSy_hif (s : State) (i : Nat) (x : MsecS) : (s.setSy i x).hif = s.hif := rfl
@[simp] theorem setSy_crc (s : State) (i : Nat) (x : MsecS) : (s.setSy i x).crc = s.crc := rfl
@[simp] theorem setSy_pmc (s : State) (i : Nat) (x : MsecS) : (s.setSy i x).pmc = s.pmc := rfl
@[simp] theorem setSy_lcs (s : State) (i : Nat) (x : MsecS) : (s.setSy i x).lcs = s.lcs := rfl
@[simp] theorem setSy_tm (s : State) (i : Nat) (x : MsecS) : (s.setSy i x).tm = s.tm := rfl
@[simp] theorem setSy_deadline (s : State) (i : Nat) (x : MsecS) : (s.setSy i x).deadline = s.deadline := rfl
@[simp] theorem setSy_tickWork (s : State) (i : Nat) (x : MsecS) : (s.setSy i x).tickWork = s.tickWork := rfl
@[simp] theorem setSy_ttx (s : State) (i : Nat) (x : MsecS) : (s.setSy i x).ttx = s.ttx := rfl
@[simp] theorem setSy_terms (s : State) (i : Nat) (x : MsecS) : (s.setSy i x).terms = s.terms := rfl
@[simp] theorem setSy_sxt (s : State) (i : Nat) (x : MsecS) : (s.setSy i x).sxt = s.sxt := rfl
@[simp] theorem setSy_tsi (s : State) (i : Nat) (x : MsecS) : (s.setSy i x).tsi = s.tsi := rfl
@[simp] theorem setSy_alm (s : State) (i : Nat) (x : MsecS) : (s.setSy i x).alm = s.alm := rfl
@[simp] theorem setSy_ciph (s : State) (i : Nat) (x : MsecS) : (s.setSy i x).ciph = s.ciph := rfl
@[simp] theorem setSy_orr (s : State) (i : Nat) (x : MsecS) : (s.setSy i x).orr = s.orr := rfl
@[simp] theorem setSy_trx (s : State) (i : Nat) (x : MsecS) : (s.setSy i x).trx = s.trx := rfl
@[simp] theorem setSy_fwdIn (s : State) (i : Nat) (x : MsecS) : (s.setSy i x).fwdIn = s.fwdIn := rfl
@[simp] theorem setSy_pair (s : State) (i : Nat) (x : MsecS) : (s.setSy i x).pair = s.pair := rfl
@[simp] theorem setSy_ka (s : State) (i : Nat) (x : MsecS) : (s.setSy i x).ka = s.ka := rfl
@[simp] theorem setSy_sent (s : State) (i : Nat) (x : MsecS) : (s.setSy i x).sent = s.sent := rfl
@[simp] theorem setSy_mail (s : State) (i : Nat) (x : MsecS) : (s.setSy i x).mail = s.mail := rfl
@[simp] theorem setSy_navIn (s : State) (i : Nat) (x : MsecS) : (s.setSy i x).navIn = s.navIn := rfl
@[simp] theorem setSy_injDone (s : State) (i : Nat) (x : MsecS) : (s.setSy i x).injDone = s.injDone := rfl
@[simp] theorem setSy_fwd (s : State) (i : Nat) (x : MsecS) : (s.setSy i x).fwd = s.fwd := rfl
@[simp] theorem setSy_xin (s : State) (i : Nat) (x : MsecS) : (s.setSy i x).xin = s.xin := rfl
@[simp] theorem setSy_qin (s : State) (i : Nat) (x : MsecS) : (s.setSy i x).qin = s.qin := rfl
@[simp] theorem setSy_hostIn (s : State) (i : Nat) (x : MsecS) : (s.setSy i x).hostIn = s.hostIn := rfl
@[simp] theorem setSy_qsch (s : State) (i : Nat) (x : MsecS) : (s.setSy i x).qsch = s.qsch := rfl
@[simp] theorem setSy_buf (s : State) (i : Nat) (x : MsecS) : (s.setSy i x).buf = s.buf := rfl
@[simp] theorem setSy_gate (s : State) (i : Nat) (x : MsecS) : (s.setSy i x).gate = s.gate := rfl
@[simp] theorem setSy_ckt (s : State) (i : Nat) (x : MsecS) : (s.setSy i x).ckt = s.ckt := rfl
@[simp] theorem setSy_ages (s : State) (i : Nat) (x : MsecS) : (s.setSy i x).ages = s.ages := rfl
@[simp] theorem setSy_ovrAt (s : State) (i : Nat) (x : MsecS) : (s.setSy i x).ovrAt = s.ovrAt := rfl
@[simp] theorem setSy_nav (s : State) (i : Nat) (x : MsecS) : (s.setSy i x).nav = s.nav := rfl
@[simp] theorem setSy_navc (s : State) (i : Nat) (x : MsecS) : (s.setSy i x).navc = s.navc := rfl
@[simp] theorem setSy_nmem (s : State) (i : Nat) (x : MsecS) : (s.setSy i x).nmem = s.nmem := rfl
@[simp] theorem setSy_nbad (s : State) (i : Nat) (x : MsecS) : (s.setSy i x).nbad = s.nbad := rfl
@[simp] theorem setSy_posts (s : State) (i : Nat) (x : MsecS) : (s.setSy i x).posts = s.posts := rfl
@[simp] theorem setSy_qmap (s : State) (i : Nat) (x : MsecS) : (s.setSy i x).qmap = s.qmap := rfl
@[simp] theorem setSy_qhold (s : State) (i : Nat) (x : MsecS) : (s.setSy i x).qhold = s.qhold := rfl
@[simp] theorem setSy_sealS (s : State) (i : Nat) (x : MsecS) : (s.setSy i x).sealS = s.sealS := rfl
@[simp] theorem setSy_ser (s : State) (i : Nat) (x : MsecS) : (s.setSy i x).ser = s.ser := rfl
@[simp] theorem setSy_rd (s : State) (i : Nat) (x : MsecS) (q : Nat) : (s.setSy i x).rd q = s.rd q := rfl
@[simp] theorem setSy_reg (s : State) (i : Nat) (x : MsecS) (q : RegId) (z : Nat) : (s.setSy i x).reg q z = s.reg q z := rfl
@[simp] theorem setSy_regI (s : State) (i : Nat) (x : MsecS) (q : RegId) (z y : Nat) : (s.setSy i x).regI q z y = s.regI q z y := rfl
@[simp] theorem setSy_fld (s : State) (i : Nat) (x : MsecS) (q : FldId) (z y : Nat) : (s.setSy i x).fld q z y = s.fld q z y := rfl
@[simp] theorem setSy_flag (s : State) (i : Nat) (x : MsecS) (q : FldId) (z y : Nat) : (s.setSy i x).flag q z y = s.flag q z y := rfl
@[simp] theorem setSy_reg64 (s : State) (i : Nat) (x : MsecS) (q : RegId) (z : Nat) : (s.setSy i x).reg64 q z = s.reg64 q z := rfl
@[simp] theorem setSy_active (s : State) (i : Nat) (x : MsecS) (q z : Nat) : (s.setSy i x).active q z = s.active q z := rfl
@[simp] theorem setSy_inv (s : State) (i : Nat) (x : MsecS) (q z y : Nat) : (s.setSy i x).inv q z y = s.inv q z y := rfl
@[simp] theorem setSy_isActive (s : State) (i : Nat) (x : MsecS) : (s.setSy i x).isActive = s.isActive := rfl
@[simp] theorem setSy_mirrorSt (s : State) (i : Nat) (x : MsecS) : (s.setSy i x).mirrorSt = s.mirrorSt := rfl
@[simp] theorem setSy_present (s : State) (i : Nat) (x : MsecS) (q z : Nat) : (s.setSy i x).present q z = s.present q z := rfl
@[simp] theorem setSy_off (s : State) (i : Nat) (x : MsecS) : (s.setSy i x).off = s.off := rfl
@[simp] theorem setSy_tick (s : State) (i : Nat) (x : MsecS) : (s.setSy i x).tick = s.tick := rfl

/-! ## `State.sendMail` -/

@[simp] theorem sendMail_part (s : State) (m : Mail) : (s.sendMail m).part = s.part := rfl
@[simp] theorem sendMail_pending (s : State) (m : Mail) : (s.sendMail m).pending = s.pending := rfl
@[simp] theorem sendMail_regs (s : State) (m : Mail) : (s.sendMail m).regs = s.regs := rfl
@[simp] theorem sendMail_seen (s : State) (m : Mail) : (s.sendMail m).seen = s.seen := rfl
@[simp] theorem sendMail_rwo (s : State) (m : Mail) : (s.sendMail m).rwo = s.rwo := rfl
@[simp] theorem sendMail_pr (s : State) (m : Mail) : (s.sendMail m).pr = s.pr := rfl
@[simp] theorem sendMail_fresh (s : State) (m : Mail) : (s.sendMail m).fresh = s.fresh := rfl
@[simp] theorem sendMail_halted (s : State) (m : Mail) : (s.sendMail m).halted = s.halted := rfl
@[simp] theorem sendMail_bin (s : State) (m : Mail) : (s.sendMail m).bin = s.bin := rfl
@[simp] theorem sendMail_hif (s : State) (m : Mail) : (s.sendMail m).hif = s.hif := rfl
@[simp] theorem sendMail_crc (s : State) (m : Mail) : (s.sendMail m).crc = s.crc := rfl
@[simp] theorem sendMail_pmc (s : State) (m : Mail) : (s.sendMail m).pmc = s.pmc := rfl
@[simp] theorem sendMail_lcs (s : State) (m : Mail) : (s.sendMail m).lcs = s.lcs := rfl
@[simp] theorem sendMail_tm (s : State) (m : Mail) : (s.sendMail m).tm = s.tm := rfl
@[simp] theorem sendMail_deadline (s : State) (m : Mail) : (s.sendMail m).deadline = s.deadline := rfl
@[simp] theorem sendMail_tickWork (s : State) (m : Mail) : (s.sendMail m).tickWork = s.tickWork := rfl
@[simp] theorem sendMail_ttx (s : State) (m : Mail) : (s.sendMail m).ttx = s.ttx := rfl
@[simp] theorem sendMail_terms (s : State) (m : Mail) : (s.sendMail m).terms = s.terms := rfl
@[simp] theorem sendMail_sxt (s : State) (m : Mail) : (s.sendMail m).sxt = s.sxt := rfl
@[simp] theorem sendMail_tsi (s : State) (m : Mail) : (s.sendMail m).tsi = s.tsi := rfl
@[simp] theorem sendMail_alm (s : State) (m : Mail) : (s.sendMail m).alm = s.alm := rfl
@[simp] theorem sendMail_ciph (s : State) (m : Mail) : (s.sendMail m).ciph = s.ciph := rfl
@[simp] theorem sendMail_orr (s : State) (m : Mail) : (s.sendMail m).orr = s.orr := rfl
@[simp] theorem sendMail_trx (s : State) (m : Mail) : (s.sendMail m).trx = s.trx := rfl
@[simp] theorem sendMail_fwdIn (s : State) (m : Mail) : (s.sendMail m).fwdIn = s.fwdIn := rfl
@[simp] theorem sendMail_pair (s : State) (m : Mail) : (s.sendMail m).pair = s.pair := rfl
@[simp] theorem sendMail_ka (s : State) (m : Mail) : (s.sendMail m).ka = s.ka := rfl
@[simp] theorem sendMail_msec (s : State) (m : Mail) : (s.sendMail m).msec = s.msec := rfl
@[simp] theorem sendMail_sent (s : State) (m : Mail) : (s.sendMail m).sent = s.sent := rfl
@[simp] theorem sendMail_navIn (s : State) (m : Mail) : (s.sendMail m).navIn = s.navIn := rfl
@[simp] theorem sendMail_injDone (s : State) (m : Mail) : (s.sendMail m).injDone = s.injDone := rfl
@[simp] theorem sendMail_fwd (s : State) (m : Mail) : (s.sendMail m).fwd = s.fwd := rfl
@[simp] theorem sendMail_xin (s : State) (m : Mail) : (s.sendMail m).xin = s.xin := rfl
@[simp] theorem sendMail_qin (s : State) (m : Mail) : (s.sendMail m).qin = s.qin := rfl
@[simp] theorem sendMail_hostIn (s : State) (m : Mail) : (s.sendMail m).hostIn = s.hostIn := rfl
@[simp] theorem sendMail_qsch (s : State) (m : Mail) : (s.sendMail m).qsch = s.qsch := rfl
@[simp] theorem sendMail_buf (s : State) (m : Mail) : (s.sendMail m).buf = s.buf := rfl
@[simp] theorem sendMail_gate (s : State) (m : Mail) : (s.sendMail m).gate = s.gate := rfl
@[simp] theorem sendMail_ckt (s : State) (m : Mail) : (s.sendMail m).ckt = s.ckt := rfl
@[simp] theorem sendMail_ages (s : State) (m : Mail) : (s.sendMail m).ages = s.ages := rfl
@[simp] theorem sendMail_ovrAt (s : State) (m : Mail) : (s.sendMail m).ovrAt = s.ovrAt := rfl
@[simp] theorem sendMail_nav (s : State) (m : Mail) : (s.sendMail m).nav = s.nav := rfl
@[simp] theorem sendMail_navc (s : State) (m : Mail) : (s.sendMail m).navc = s.navc := rfl
@[simp] theorem sendMail_nmem (s : State) (m : Mail) : (s.sendMail m).nmem = s.nmem := rfl
@[simp] theorem sendMail_nbad (s : State) (m : Mail) : (s.sendMail m).nbad = s.nbad := rfl
@[simp] theorem sendMail_posts (s : State) (m : Mail) : (s.sendMail m).posts = s.posts := rfl
@[simp] theorem sendMail_qmap (s : State) (m : Mail) : (s.sendMail m).qmap = s.qmap := rfl
@[simp] theorem sendMail_qhold (s : State) (m : Mail) : (s.sendMail m).qhold = s.qhold := rfl
@[simp] theorem sendMail_sealS (s : State) (m : Mail) : (s.sendMail m).sealS = s.sealS := rfl
@[simp] theorem sendMail_ser (s : State) (m : Mail) : (s.sendMail m).ser = s.ser := rfl
@[simp] theorem sendMail_rd (s : State) (m : Mail) (q : Nat) : (s.sendMail m).rd q = s.rd q := rfl
@[simp] theorem sendMail_reg (s : State) (m : Mail) (q : RegId) (z : Nat) : (s.sendMail m).reg q z = s.reg q z := rfl
@[simp] theorem sendMail_regI (s : State) (m : Mail) (q : RegId) (z y : Nat) : (s.sendMail m).regI q z y = s.regI q z y := rfl
@[simp] theorem sendMail_fld (s : State) (m : Mail) (q : FldId) (z y : Nat) : (s.sendMail m).fld q z y = s.fld q z y := rfl
@[simp] theorem sendMail_flag (s : State) (m : Mail) (q : FldId) (z y : Nat) : (s.sendMail m).flag q z y = s.flag q z y := rfl
@[simp] theorem sendMail_reg64 (s : State) (m : Mail) (q : RegId) (z : Nat) : (s.sendMail m).reg64 q z = s.reg64 q z := rfl
@[simp] theorem sendMail_active (s : State) (m : Mail) (q z : Nat) : (s.sendMail m).active q z = s.active q z := rfl
@[simp] theorem sendMail_inv (s : State) (m : Mail) (q z y : Nat) : (s.sendMail m).inv q z y = s.inv q z y := rfl
@[simp] theorem sendMail_isActive (s : State) (m : Mail) : (s.sendMail m).isActive = s.isActive := rfl
@[simp] theorem sendMail_mirrorSt (s : State) (m : Mail) : (s.sendMail m).mirrorSt = s.mirrorSt := rfl
@[simp] theorem sendMail_present (s : State) (m : Mail) (q z : Nat) : (s.sendMail m).present q z = s.present q z := rfl
@[simp] theorem sendMail_off (s : State) (m : Mail) : (s.sendMail m).off = s.off := rfl
@[simp] theorem sendMail_tick (s : State) (m : Mail) : (s.sendMail m).tick = s.tick := rfl

/-! ## `State.setFw` -/

@[simp] theorem setFw_part (s : State) (i : Nat) (x : FwdS) : (s.setFw i x).part = s.part := rfl
@[simp] theorem setFw_pending (s : State) (i : Nat) (x : FwdS) : (s.setFw i x).pending = s.pending := rfl
@[simp] theorem setFw_regs (s : State) (i : Nat) (x : FwdS) : (s.setFw i x).regs = s.regs := rfl
@[simp] theorem setFw_seen (s : State) (i : Nat) (x : FwdS) : (s.setFw i x).seen = s.seen := rfl
@[simp] theorem setFw_rwo (s : State) (i : Nat) (x : FwdS) : (s.setFw i x).rwo = s.rwo := rfl
@[simp] theorem setFw_pr (s : State) (i : Nat) (x : FwdS) : (s.setFw i x).pr = s.pr := rfl
@[simp] theorem setFw_fresh (s : State) (i : Nat) (x : FwdS) : (s.setFw i x).fresh = s.fresh := rfl
@[simp] theorem setFw_halted (s : State) (i : Nat) (x : FwdS) : (s.setFw i x).halted = s.halted := rfl
@[simp] theorem setFw_bin (s : State) (i : Nat) (x : FwdS) : (s.setFw i x).bin = s.bin := rfl
@[simp] theorem setFw_hif (s : State) (i : Nat) (x : FwdS) : (s.setFw i x).hif = s.hif := rfl
@[simp] theorem setFw_crc (s : State) (i : Nat) (x : FwdS) : (s.setFw i x).crc = s.crc := rfl
@[simp] theorem setFw_pmc (s : State) (i : Nat) (x : FwdS) : (s.setFw i x).pmc = s.pmc := rfl
@[simp] theorem setFw_lcs (s : State) (i : Nat) (x : FwdS) : (s.setFw i x).lcs = s.lcs := rfl
@[simp] theorem setFw_tm (s : State) (i : Nat) (x : FwdS) : (s.setFw i x).tm = s.tm := rfl
@[simp] theorem setFw_deadline (s : State) (i : Nat) (x : FwdS) : (s.setFw i x).deadline = s.deadline := rfl
@[simp] theorem setFw_tickWork (s : State) (i : Nat) (x : FwdS) : (s.setFw i x).tickWork = s.tickWork := rfl
@[simp] theorem setFw_ttx (s : State) (i : Nat) (x : FwdS) : (s.setFw i x).ttx = s.ttx := rfl
@[simp] theorem setFw_terms (s : State) (i : Nat) (x : FwdS) : (s.setFw i x).terms = s.terms := rfl
@[simp] theorem setFw_sxt (s : State) (i : Nat) (x : FwdS) : (s.setFw i x).sxt = s.sxt := rfl
@[simp] theorem setFw_tsi (s : State) (i : Nat) (x : FwdS) : (s.setFw i x).tsi = s.tsi := rfl
@[simp] theorem setFw_alm (s : State) (i : Nat) (x : FwdS) : (s.setFw i x).alm = s.alm := rfl
@[simp] theorem setFw_ciph (s : State) (i : Nat) (x : FwdS) : (s.setFw i x).ciph = s.ciph := rfl
@[simp] theorem setFw_orr (s : State) (i : Nat) (x : FwdS) : (s.setFw i x).orr = s.orr := rfl
@[simp] theorem setFw_trx (s : State) (i : Nat) (x : FwdS) : (s.setFw i x).trx = s.trx := rfl
@[simp] theorem setFw_fwdIn (s : State) (i : Nat) (x : FwdS) : (s.setFw i x).fwdIn = s.fwdIn := rfl
@[simp] theorem setFw_pair (s : State) (i : Nat) (x : FwdS) : (s.setFw i x).pair = s.pair := rfl
@[simp] theorem setFw_ka (s : State) (i : Nat) (x : FwdS) : (s.setFw i x).ka = s.ka := rfl
@[simp] theorem setFw_msec (s : State) (i : Nat) (x : FwdS) : (s.setFw i x).msec = s.msec := rfl
@[simp] theorem setFw_sent (s : State) (i : Nat) (x : FwdS) : (s.setFw i x).sent = s.sent := rfl
@[simp] theorem setFw_mail (s : State) (i : Nat) (x : FwdS) : (s.setFw i x).mail = s.mail := rfl
@[simp] theorem setFw_navIn (s : State) (i : Nat) (x : FwdS) : (s.setFw i x).navIn = s.navIn := rfl
@[simp] theorem setFw_injDone (s : State) (i : Nat) (x : FwdS) : (s.setFw i x).injDone = s.injDone := rfl
@[simp] theorem setFw_xin (s : State) (i : Nat) (x : FwdS) : (s.setFw i x).xin = s.xin := rfl
@[simp] theorem setFw_qin (s : State) (i : Nat) (x : FwdS) : (s.setFw i x).qin = s.qin := rfl
@[simp] theorem setFw_hostIn (s : State) (i : Nat) (x : FwdS) : (s.setFw i x).hostIn = s.hostIn := rfl
@[simp] theorem setFw_qsch (s : State) (i : Nat) (x : FwdS) : (s.setFw i x).qsch = s.qsch := rfl
@[simp] theorem setFw_buf (s : State) (i : Nat) (x : FwdS) : (s.setFw i x).buf = s.buf := rfl
@[simp] theorem setFw_gate (s : State) (i : Nat) (x : FwdS) : (s.setFw i x).gate = s.gate := rfl
@[simp] theorem setFw_ckt (s : State) (i : Nat) (x : FwdS) : (s.setFw i x).ckt = s.ckt := rfl
@[simp] theorem setFw_ages (s : State) (i : Nat) (x : FwdS) : (s.setFw i x).ages = s.ages := rfl
@[simp] theorem setFw_ovrAt (s : State) (i : Nat) (x : FwdS) : (s.setFw i x).ovrAt = s.ovrAt := rfl
@[simp] theorem setFw_nav (s : State) (i : Nat) (x : FwdS) : (s.setFw i x).nav = s.nav := rfl
@[simp] theorem setFw_navc (s : State) (i : Nat) (x : FwdS) : (s.setFw i x).navc = s.navc := rfl
@[simp] theorem setFw_nmem (s : State) (i : Nat) (x : FwdS) : (s.setFw i x).nmem = s.nmem := rfl
@[simp] theorem setFw_nbad (s : State) (i : Nat) (x : FwdS) : (s.setFw i x).nbad = s.nbad := rfl
@[simp] theorem setFw_posts (s : State) (i : Nat) (x : FwdS) : (s.setFw i x).posts = s.posts := rfl
@[simp] theorem setFw_qmap (s : State) (i : Nat) (x : FwdS) : (s.setFw i x).qmap = s.qmap := rfl
@[simp] theorem setFw_qhold (s : State) (i : Nat) (x : FwdS) : (s.setFw i x).qhold = s.qhold := rfl
@[simp] theorem setFw_sealS (s : State) (i : Nat) (x : FwdS) : (s.setFw i x).sealS = s.sealS := rfl
@[simp] theorem setFw_ser (s : State) (i : Nat) (x : FwdS) : (s.setFw i x).ser = s.ser := rfl
@[simp] theorem setFw_rd (s : State) (i : Nat) (x : FwdS) (q : Nat) : (s.setFw i x).rd q = s.rd q := rfl
@[simp] theorem setFw_reg (s : State) (i : Nat) (x : FwdS) (q : RegId) (z : Nat) : (s.setFw i x).reg q z = s.reg q z := rfl
@[simp] theorem setFw_regI (s : State) (i : Nat) (x : FwdS) (q : RegId) (z y : Nat) : (s.setFw i x).regI q z y = s.regI q z y := rfl
@[simp] theorem setFw_fld (s : State) (i : Nat) (x : FwdS) (q : FldId) (z y : Nat) : (s.setFw i x).fld q z y = s.fld q z y := rfl
@[simp] theorem setFw_flag (s : State) (i : Nat) (x : FwdS) (q : FldId) (z y : Nat) : (s.setFw i x).flag q z y = s.flag q z y := rfl
@[simp] theorem setFw_reg64 (s : State) (i : Nat) (x : FwdS) (q : RegId) (z : Nat) : (s.setFw i x).reg64 q z = s.reg64 q z := rfl
@[simp] theorem setFw_active (s : State) (i : Nat) (x : FwdS) (q z : Nat) : (s.setFw i x).active q z = s.active q z := rfl
@[simp] theorem setFw_inv (s : State) (i : Nat) (x : FwdS) (q z y : Nat) : (s.setFw i x).inv q z y = s.inv q z y := rfl
@[simp] theorem setFw_isActive (s : State) (i : Nat) (x : FwdS) : (s.setFw i x).isActive = s.isActive := rfl
@[simp] theorem setFw_mirrorSt (s : State) (i : Nat) (x : FwdS) : (s.setFw i x).mirrorSt = s.mirrorSt := rfl
@[simp] theorem setFw_present (s : State) (i : Nat) (x : FwdS) (q z : Nat) : (s.setFw i x).present q z = s.present q z := rfl
@[simp] theorem setFw_off (s : State) (i : Nat) (x : FwdS) : (s.setFw i x).off = s.off := rfl
@[simp] theorem setFw_tick (s : State) (i : Nat) (x : FwdS) : (s.setFw i x).tick = s.tick := rfl

/-! ## `State.setQs` -/

@[simp] theorem setQs_part (s : State) (i : Nat) (x : QschS) : (s.setQs i x).part = s.part := rfl
@[simp] theorem setQs_pending (s : State) (i : Nat) (x : QschS) : (s.setQs i x).pending = s.pending := rfl
@[simp] theorem setQs_regs (s : State) (i : Nat) (x : QschS) : (s.setQs i x).regs = s.regs := rfl
@[simp] theorem setQs_seen (s : State) (i : Nat) (x : QschS) : (s.setQs i x).seen = s.seen := rfl
@[simp] theorem setQs_rwo (s : State) (i : Nat) (x : QschS) : (s.setQs i x).rwo = s.rwo := rfl
@[simp] theorem setQs_pr (s : State) (i : Nat) (x : QschS) : (s.setQs i x).pr = s.pr := rfl
@[simp] theorem setQs_fresh (s : State) (i : Nat) (x : QschS) : (s.setQs i x).fresh = s.fresh := rfl
@[simp] theorem setQs_halted (s : State) (i : Nat) (x : QschS) : (s.setQs i x).halted = s.halted := rfl
@[simp] theorem setQs_bin (s : State) (i : Nat) (x : QschS) : (s.setQs i x).bin = s.bin := rfl
@[simp] theorem setQs_hif (s : State) (i : Nat) (x : QschS) : (s.setQs i x).hif = s.hif := rfl
@[simp] theorem setQs_crc (s : State) (i : Nat) (x : QschS) : (s.setQs i x).crc = s.crc := rfl
@[simp] theorem setQs_pmc (s : State) (i : Nat) (x : QschS) : (s.setQs i x).pmc = s.pmc := rfl
@[simp] theorem setQs_lcs (s : State) (i : Nat) (x : QschS) : (s.setQs i x).lcs = s.lcs := rfl
@[simp] theorem setQs_tm (s : State) (i : Nat) (x : QschS) : (s.setQs i x).tm = s.tm := rfl
@[simp] theorem setQs_deadline (s : State) (i : Nat) (x : QschS) : (s.setQs i x).deadline = s.deadline := rfl
@[simp] theorem setQs_tickWork (s : State) (i : Nat) (x : QschS) : (s.setQs i x).tickWork = s.tickWork := rfl
@[simp] theorem setQs_ttx (s : State) (i : Nat) (x : QschS) : (s.setQs i x).ttx = s.ttx := rfl
@[simp] theorem setQs_terms (s : State) (i : Nat) (x : QschS) : (s.setQs i x).terms = s.terms := rfl
@[simp] theorem setQs_sxt (s : State) (i : Nat) (x : QschS) : (s.setQs i x).sxt = s.sxt := rfl
@[simp] theorem setQs_tsi (s : State) (i : Nat) (x : QschS) : (s.setQs i x).tsi = s.tsi := rfl
@[simp] theorem setQs_alm (s : State) (i : Nat) (x : QschS) : (s.setQs i x).alm = s.alm := rfl
@[simp] theorem setQs_ciph (s : State) (i : Nat) (x : QschS) : (s.setQs i x).ciph = s.ciph := rfl
@[simp] theorem setQs_orr (s : State) (i : Nat) (x : QschS) : (s.setQs i x).orr = s.orr := rfl
@[simp] theorem setQs_trx (s : State) (i : Nat) (x : QschS) : (s.setQs i x).trx = s.trx := rfl
@[simp] theorem setQs_fwdIn (s : State) (i : Nat) (x : QschS) : (s.setQs i x).fwdIn = s.fwdIn := rfl
@[simp] theorem setQs_pair (s : State) (i : Nat) (x : QschS) : (s.setQs i x).pair = s.pair := rfl
@[simp] theorem setQs_ka (s : State) (i : Nat) (x : QschS) : (s.setQs i x).ka = s.ka := rfl
@[simp] theorem setQs_msec (s : State) (i : Nat) (x : QschS) : (s.setQs i x).msec = s.msec := rfl
@[simp] theorem setQs_sent (s : State) (i : Nat) (x : QschS) : (s.setQs i x).sent = s.sent := rfl
@[simp] theorem setQs_mail (s : State) (i : Nat) (x : QschS) : (s.setQs i x).mail = s.mail := rfl
@[simp] theorem setQs_navIn (s : State) (i : Nat) (x : QschS) : (s.setQs i x).navIn = s.navIn := rfl
@[simp] theorem setQs_injDone (s : State) (i : Nat) (x : QschS) : (s.setQs i x).injDone = s.injDone := rfl
@[simp] theorem setQs_fwd (s : State) (i : Nat) (x : QschS) : (s.setQs i x).fwd = s.fwd := rfl
@[simp] theorem setQs_xin (s : State) (i : Nat) (x : QschS) : (s.setQs i x).xin = s.xin := rfl
@[simp] theorem setQs_qin (s : State) (i : Nat) (x : QschS) : (s.setQs i x).qin = s.qin := rfl
@[simp] theorem setQs_hostIn (s : State) (i : Nat) (x : QschS) : (s.setQs i x).hostIn = s.hostIn := rfl
@[simp] theorem setQs_buf (s : State) (i : Nat) (x : QschS) : (s.setQs i x).buf = s.buf := rfl
@[simp] theorem setQs_gate (s : State) (i : Nat) (x : QschS) : (s.setQs i x).gate = s.gate := rfl
@[simp] theorem setQs_ckt (s : State) (i : Nat) (x : QschS) : (s.setQs i x).ckt = s.ckt := rfl
@[simp] theorem setQs_ages (s : State) (i : Nat) (x : QschS) : (s.setQs i x).ages = s.ages := rfl
@[simp] theorem setQs_ovrAt (s : State) (i : Nat) (x : QschS) : (s.setQs i x).ovrAt = s.ovrAt := rfl
@[simp] theorem setQs_nav (s : State) (i : Nat) (x : QschS) : (s.setQs i x).nav = s.nav := rfl
@[simp] theorem setQs_navc (s : State) (i : Nat) (x : QschS) : (s.setQs i x).navc = s.navc := rfl
@[simp] theorem setQs_nmem (s : State) (i : Nat) (x : QschS) : (s.setQs i x).nmem = s.nmem := rfl
@[simp] theorem setQs_nbad (s : State) (i : Nat) (x : QschS) : (s.setQs i x).nbad = s.nbad := rfl
@[simp] theorem setQs_posts (s : State) (i : Nat) (x : QschS) : (s.setQs i x).posts = s.posts := rfl
@[simp] theorem setQs_qmap (s : State) (i : Nat) (x : QschS) : (s.setQs i x).qmap = s.qmap := rfl
@[simp] theorem setQs_qhold (s : State) (i : Nat) (x : QschS) : (s.setQs i x).qhold = s.qhold := rfl
@[simp] theorem setQs_sealS (s : State) (i : Nat) (x : QschS) : (s.setQs i x).sealS = s.sealS := rfl
@[simp] theorem setQs_ser (s : State) (i : Nat) (x : QschS) : (s.setQs i x).ser = s.ser := rfl
@[simp] theorem setQs_rd (s : State) (i : Nat) (x : QschS) (q : Nat) : (s.setQs i x).rd q = s.rd q := rfl
@[simp] theorem setQs_reg (s : State) (i : Nat) (x : QschS) (q : RegId) (z : Nat) : (s.setQs i x).reg q z = s.reg q z := rfl
@[simp] theorem setQs_regI (s : State) (i : Nat) (x : QschS) (q : RegId) (z y : Nat) : (s.setQs i x).regI q z y = s.regI q z y := rfl
@[simp] theorem setQs_fld (s : State) (i : Nat) (x : QschS) (q : FldId) (z y : Nat) : (s.setQs i x).fld q z y = s.fld q z y := rfl
@[simp] theorem setQs_flag (s : State) (i : Nat) (x : QschS) (q : FldId) (z y : Nat) : (s.setQs i x).flag q z y = s.flag q z y := rfl
@[simp] theorem setQs_reg64 (s : State) (i : Nat) (x : QschS) (q : RegId) (z : Nat) : (s.setQs i x).reg64 q z = s.reg64 q z := rfl
@[simp] theorem setQs_active (s : State) (i : Nat) (x : QschS) (q z : Nat) : (s.setQs i x).active q z = s.active q z := rfl
@[simp] theorem setQs_inv (s : State) (i : Nat) (x : QschS) (q z y : Nat) : (s.setQs i x).inv q z y = s.inv q z y := rfl
@[simp] theorem setQs_isActive (s : State) (i : Nat) (x : QschS) : (s.setQs i x).isActive = s.isActive := rfl
@[simp] theorem setQs_mirrorSt (s : State) (i : Nat) (x : QschS) : (s.setQs i x).mirrorSt = s.mirrorSt := rfl
@[simp] theorem setQs_present (s : State) (i : Nat) (x : QschS) (q z : Nat) : (s.setQs i x).present q z = s.present q z := rfl
@[simp] theorem setQs_off (s : State) (i : Nat) (x : QschS) : (s.setQs i x).off = s.off := rfl
@[simp] theorem setQs_tick (s : State) (i : Nat) (x : QschS) : (s.setQs i x).tick = s.tick := rfl

/-! ## `State.setGt` -/

@[simp] theorem setGt_part (s : State) (i : Nat) (x : GateS) : (s.setGt i x).part = s.part := rfl
@[simp] theorem setGt_pending (s : State) (i : Nat) (x : GateS) : (s.setGt i x).pending = s.pending := rfl
@[simp] theorem setGt_regs (s : State) (i : Nat) (x : GateS) : (s.setGt i x).regs = s.regs := rfl
@[simp] theorem setGt_seen (s : State) (i : Nat) (x : GateS) : (s.setGt i x).seen = s.seen := rfl
@[simp] theorem setGt_rwo (s : State) (i : Nat) (x : GateS) : (s.setGt i x).rwo = s.rwo := rfl
@[simp] theorem setGt_pr (s : State) (i : Nat) (x : GateS) : (s.setGt i x).pr = s.pr := rfl
@[simp] theorem setGt_fresh (s : State) (i : Nat) (x : GateS) : (s.setGt i x).fresh = s.fresh := rfl
@[simp] theorem setGt_halted (s : State) (i : Nat) (x : GateS) : (s.setGt i x).halted = s.halted := rfl
@[simp] theorem setGt_bin (s : State) (i : Nat) (x : GateS) : (s.setGt i x).bin = s.bin := rfl
@[simp] theorem setGt_hif (s : State) (i : Nat) (x : GateS) : (s.setGt i x).hif = s.hif := rfl
@[simp] theorem setGt_crc (s : State) (i : Nat) (x : GateS) : (s.setGt i x).crc = s.crc := rfl
@[simp] theorem setGt_pmc (s : State) (i : Nat) (x : GateS) : (s.setGt i x).pmc = s.pmc := rfl
@[simp] theorem setGt_lcs (s : State) (i : Nat) (x : GateS) : (s.setGt i x).lcs = s.lcs := rfl
@[simp] theorem setGt_tm (s : State) (i : Nat) (x : GateS) : (s.setGt i x).tm = s.tm := rfl
@[simp] theorem setGt_deadline (s : State) (i : Nat) (x : GateS) : (s.setGt i x).deadline = s.deadline := rfl
@[simp] theorem setGt_tickWork (s : State) (i : Nat) (x : GateS) : (s.setGt i x).tickWork = s.tickWork := rfl
@[simp] theorem setGt_ttx (s : State) (i : Nat) (x : GateS) : (s.setGt i x).ttx = s.ttx := rfl
@[simp] theorem setGt_terms (s : State) (i : Nat) (x : GateS) : (s.setGt i x).terms = s.terms := rfl
@[simp] theorem setGt_sxt (s : State) (i : Nat) (x : GateS) : (s.setGt i x).sxt = s.sxt := rfl
@[simp] theorem setGt_tsi (s : State) (i : Nat) (x : GateS) : (s.setGt i x).tsi = s.tsi := rfl
@[simp] theorem setGt_alm (s : State) (i : Nat) (x : GateS) : (s.setGt i x).alm = s.alm := rfl
@[simp] theorem setGt_ciph (s : State) (i : Nat) (x : GateS) : (s.setGt i x).ciph = s.ciph := rfl
@[simp] theorem setGt_orr (s : State) (i : Nat) (x : GateS) : (s.setGt i x).orr = s.orr := rfl
@[simp] theorem setGt_trx (s : State) (i : Nat) (x : GateS) : (s.setGt i x).trx = s.trx := rfl
@[simp] theorem setGt_fwdIn (s : State) (i : Nat) (x : GateS) : (s.setGt i x).fwdIn = s.fwdIn := rfl
@[simp] theorem setGt_pair (s : State) (i : Nat) (x : GateS) : (s.setGt i x).pair = s.pair := rfl
@[simp] theorem setGt_ka (s : State) (i : Nat) (x : GateS) : (s.setGt i x).ka = s.ka := rfl
@[simp] theorem setGt_msec (s : State) (i : Nat) (x : GateS) : (s.setGt i x).msec = s.msec := rfl
@[simp] theorem setGt_sent (s : State) (i : Nat) (x : GateS) : (s.setGt i x).sent = s.sent := rfl
@[simp] theorem setGt_mail (s : State) (i : Nat) (x : GateS) : (s.setGt i x).mail = s.mail := rfl
@[simp] theorem setGt_navIn (s : State) (i : Nat) (x : GateS) : (s.setGt i x).navIn = s.navIn := rfl
@[simp] theorem setGt_injDone (s : State) (i : Nat) (x : GateS) : (s.setGt i x).injDone = s.injDone := rfl
@[simp] theorem setGt_fwd (s : State) (i : Nat) (x : GateS) : (s.setGt i x).fwd = s.fwd := rfl
@[simp] theorem setGt_xin (s : State) (i : Nat) (x : GateS) : (s.setGt i x).xin = s.xin := rfl
@[simp] theorem setGt_qin (s : State) (i : Nat) (x : GateS) : (s.setGt i x).qin = s.qin := rfl
@[simp] theorem setGt_hostIn (s : State) (i : Nat) (x : GateS) : (s.setGt i x).hostIn = s.hostIn := rfl
@[simp] theorem setGt_qsch (s : State) (i : Nat) (x : GateS) : (s.setGt i x).qsch = s.qsch := rfl
@[simp] theorem setGt_buf (s : State) (i : Nat) (x : GateS) : (s.setGt i x).buf = s.buf := rfl
@[simp] theorem setGt_ckt (s : State) (i : Nat) (x : GateS) : (s.setGt i x).ckt = s.ckt := rfl
@[simp] theorem setGt_ages (s : State) (i : Nat) (x : GateS) : (s.setGt i x).ages = s.ages := rfl
@[simp] theorem setGt_ovrAt (s : State) (i : Nat) (x : GateS) : (s.setGt i x).ovrAt = s.ovrAt := rfl
@[simp] theorem setGt_nav (s : State) (i : Nat) (x : GateS) : (s.setGt i x).nav = s.nav := rfl
@[simp] theorem setGt_navc (s : State) (i : Nat) (x : GateS) : (s.setGt i x).navc = s.navc := rfl
@[simp] theorem setGt_nmem (s : State) (i : Nat) (x : GateS) : (s.setGt i x).nmem = s.nmem := rfl
@[simp] theorem setGt_nbad (s : State) (i : Nat) (x : GateS) : (s.setGt i x).nbad = s.nbad := rfl
@[simp] theorem setGt_posts (s : State) (i : Nat) (x : GateS) : (s.setGt i x).posts = s.posts := rfl
@[simp] theorem setGt_qmap (s : State) (i : Nat) (x : GateS) : (s.setGt i x).qmap = s.qmap := rfl
@[simp] theorem setGt_qhold (s : State) (i : Nat) (x : GateS) : (s.setGt i x).qhold = s.qhold := rfl
@[simp] theorem setGt_sealS (s : State) (i : Nat) (x : GateS) : (s.setGt i x).sealS = s.sealS := rfl
@[simp] theorem setGt_ser (s : State) (i : Nat) (x : GateS) : (s.setGt i x).ser = s.ser := rfl
@[simp] theorem setGt_rd (s : State) (i : Nat) (x : GateS) (q : Nat) : (s.setGt i x).rd q = s.rd q := rfl
@[simp] theorem setGt_reg (s : State) (i : Nat) (x : GateS) (q : RegId) (z : Nat) : (s.setGt i x).reg q z = s.reg q z := rfl
@[simp] theorem setGt_regI (s : State) (i : Nat) (x : GateS) (q : RegId) (z y : Nat) : (s.setGt i x).regI q z y = s.regI q z y := rfl
@[simp] theorem setGt_fld (s : State) (i : Nat) (x : GateS) (q : FldId) (z y : Nat) : (s.setGt i x).fld q z y = s.fld q z y := rfl
@[simp] theorem setGt_flag (s : State) (i : Nat) (x : GateS) (q : FldId) (z y : Nat) : (s.setGt i x).flag q z y = s.flag q z y := rfl
@[simp] theorem setGt_reg64 (s : State) (i : Nat) (x : GateS) (q : RegId) (z : Nat) : (s.setGt i x).reg64 q z = s.reg64 q z := rfl
@[simp] theorem setGt_active (s : State) (i : Nat) (x : GateS) (q z : Nat) : (s.setGt i x).active q z = s.active q z := rfl
@[simp] theorem setGt_inv (s : State) (i : Nat) (x : GateS) (q z y : Nat) : (s.setGt i x).inv q z y = s.inv q z y := rfl
@[simp] theorem setGt_isActive (s : State) (i : Nat) (x : GateS) : (s.setGt i x).isActive = s.isActive := rfl
@[simp] theorem setGt_mirrorSt (s : State) (i : Nat) (x : GateS) : (s.setGt i x).mirrorSt = s.mirrorSt := rfl
@[simp] theorem setGt_present (s : State) (i : Nat) (x : GateS) (q z : Nat) : (s.setGt i x).present q z = s.present q z := rfl
@[simp] theorem setGt_off (s : State) (i : Nat) (x : GateS) : (s.setGt i x).off = s.off := rfl
@[simp] theorem setGt_tick (s : State) (i : Nat) (x : GateS) : (s.setGt i x).tick = s.tick := rfl

/-! ## `State.setCl` -/

@[simp] theorem setCl_part (s : State) (l : Nat) (x : CktS) : (s.setCl l x).part = s.part := rfl
@[simp] theorem setCl_pending (s : State) (l : Nat) (x : CktS) : (s.setCl l x).pending = s.pending := rfl
@[simp] theorem setCl_regs (s : State) (l : Nat) (x : CktS) : (s.setCl l x).regs = s.regs := rfl
@[simp] theorem setCl_seen (s : State) (l : Nat) (x : CktS) : (s.setCl l x).seen = s.seen := rfl
@[simp] theorem setCl_rwo (s : State) (l : Nat) (x : CktS) : (s.setCl l x).rwo = s.rwo := rfl
@[simp] theorem setCl_pr (s : State) (l : Nat) (x : CktS) : (s.setCl l x).pr = s.pr := rfl
@[simp] theorem setCl_fresh (s : State) (l : Nat) (x : CktS) : (s.setCl l x).fresh = s.fresh := rfl
@[simp] theorem setCl_halted (s : State) (l : Nat) (x : CktS) : (s.setCl l x).halted = s.halted := rfl
@[simp] theorem setCl_bin (s : State) (l : Nat) (x : CktS) : (s.setCl l x).bin = s.bin := rfl
@[simp] theorem setCl_hif (s : State) (l : Nat) (x : CktS) : (s.setCl l x).hif = s.hif := rfl
@[simp] theorem setCl_crc (s : State) (l : Nat) (x : CktS) : (s.setCl l x).crc = s.crc := rfl
@[simp] theorem setCl_pmc (s : State) (l : Nat) (x : CktS) : (s.setCl l x).pmc = s.pmc := rfl
@[simp] theorem setCl_lcs (s : State) (l : Nat) (x : CktS) : (s.setCl l x).lcs = s.lcs := rfl
@[simp] theorem setCl_tm (s : State) (l : Nat) (x : CktS) : (s.setCl l x).tm = s.tm := rfl
@[simp] theorem setCl_deadline (s : State) (l : Nat) (x : CktS) : (s.setCl l x).deadline = s.deadline := rfl
@[simp] theorem setCl_tickWork (s : State) (l : Nat) (x : CktS) : (s.setCl l x).tickWork = s.tickWork := rfl
@[simp] theorem setCl_ttx (s : State) (l : Nat) (x : CktS) : (s.setCl l x).ttx = s.ttx := rfl
@[simp] theorem setCl_terms (s : State) (l : Nat) (x : CktS) : (s.setCl l x).terms = s.terms := rfl
@[simp] theorem setCl_sxt (s : State) (l : Nat) (x : CktS) : (s.setCl l x).sxt = s.sxt := rfl
@[simp] theorem setCl_tsi (s : State) (l : Nat) (x : CktS) : (s.setCl l x).tsi = s.tsi := rfl
@[simp] theorem setCl_alm (s : State) (l : Nat) (x : CktS) : (s.setCl l x).alm = s.alm := rfl
@[simp] theorem setCl_ciph (s : State) (l : Nat) (x : CktS) : (s.setCl l x).ciph = s.ciph := rfl
@[simp] theorem setCl_orr (s : State) (l : Nat) (x : CktS) : (s.setCl l x).orr = s.orr := rfl
@[simp] theorem setCl_trx (s : State) (l : Nat) (x : CktS) : (s.setCl l x).trx = s.trx := rfl
@[simp] theorem setCl_fwdIn (s : State) (l : Nat) (x : CktS) : (s.setCl l x).fwdIn = s.fwdIn := rfl
@[simp] theorem setCl_pair (s : State) (l : Nat) (x : CktS) : (s.setCl l x).pair = s.pair := rfl
@[simp] theorem setCl_ka (s : State) (l : Nat) (x : CktS) : (s.setCl l x).ka = s.ka := rfl
@[simp] theorem setCl_msec (s : State) (l : Nat) (x : CktS) : (s.setCl l x).msec = s.msec := rfl
@[simp] theorem setCl_sent (s : State) (l : Nat) (x : CktS) : (s.setCl l x).sent = s.sent := rfl
@[simp] theorem setCl_mail (s : State) (l : Nat) (x : CktS) : (s.setCl l x).mail = s.mail := rfl
@[simp] theorem setCl_navIn (s : State) (l : Nat) (x : CktS) : (s.setCl l x).navIn = s.navIn := rfl
@[simp] theorem setCl_injDone (s : State) (l : Nat) (x : CktS) : (s.setCl l x).injDone = s.injDone := rfl
@[simp] theorem setCl_fwd (s : State) (l : Nat) (x : CktS) : (s.setCl l x).fwd = s.fwd := rfl
@[simp] theorem setCl_xin (s : State) (l : Nat) (x : CktS) : (s.setCl l x).xin = s.xin := rfl
@[simp] theorem setCl_qin (s : State) (l : Nat) (x : CktS) : (s.setCl l x).qin = s.qin := rfl
@[simp] theorem setCl_hostIn (s : State) (l : Nat) (x : CktS) : (s.setCl l x).hostIn = s.hostIn := rfl
@[simp] theorem setCl_qsch (s : State) (l : Nat) (x : CktS) : (s.setCl l x).qsch = s.qsch := rfl
@[simp] theorem setCl_buf (s : State) (l : Nat) (x : CktS) : (s.setCl l x).buf = s.buf := rfl
@[simp] theorem setCl_gate (s : State) (l : Nat) (x : CktS) : (s.setCl l x).gate = s.gate := rfl
@[simp] theorem setCl_ages (s : State) (l : Nat) (x : CktS) : (s.setCl l x).ages = s.ages := rfl
@[simp] theorem setCl_ovrAt (s : State) (l : Nat) (x : CktS) : (s.setCl l x).ovrAt = s.ovrAt := rfl
@[simp] theorem setCl_nav (s : State) (l : Nat) (x : CktS) : (s.setCl l x).nav = s.nav := rfl
@[simp] theorem setCl_navc (s : State) (l : Nat) (x : CktS) : (s.setCl l x).navc = s.navc := rfl
@[simp] theorem setCl_nmem (s : State) (l : Nat) (x : CktS) : (s.setCl l x).nmem = s.nmem := rfl
@[simp] theorem setCl_nbad (s : State) (l : Nat) (x : CktS) : (s.setCl l x).nbad = s.nbad := rfl
@[simp] theorem setCl_posts (s : State) (l : Nat) (x : CktS) : (s.setCl l x).posts = s.posts := rfl
@[simp] theorem setCl_qmap (s : State) (l : Nat) (x : CktS) : (s.setCl l x).qmap = s.qmap := rfl
@[simp] theorem setCl_qhold (s : State) (l : Nat) (x : CktS) : (s.setCl l x).qhold = s.qhold := rfl
@[simp] theorem setCl_sealS (s : State) (l : Nat) (x : CktS) : (s.setCl l x).sealS = s.sealS := rfl
@[simp] theorem setCl_ser (s : State) (l : Nat) (x : CktS) : (s.setCl l x).ser = s.ser := rfl
@[simp] theorem setCl_rd (s : State) (l : Nat) (x : CktS) (q : Nat) : (s.setCl l x).rd q = s.rd q := rfl
@[simp] theorem setCl_reg (s : State) (l : Nat) (x : CktS) (q : RegId) (z : Nat) : (s.setCl l x).reg q z = s.reg q z := rfl
@[simp] theorem setCl_regI (s : State) (l : Nat) (x : CktS) (q : RegId) (z y : Nat) : (s.setCl l x).regI q z y = s.regI q z y := rfl
@[simp] theorem setCl_fld (s : State) (l : Nat) (x : CktS) (q : FldId) (z y : Nat) : (s.setCl l x).fld q z y = s.fld q z y := rfl
@[simp] theorem setCl_flag (s : State) (l : Nat) (x : CktS) (q : FldId) (z y : Nat) : (s.setCl l x).flag q z y = s.flag q z y := rfl
@[simp] theorem setCl_reg64 (s : State) (l : Nat) (x : CktS) (q : RegId) (z : Nat) : (s.setCl l x).reg64 q z = s.reg64 q z := rfl
@[simp] theorem setCl_active (s : State) (l : Nat) (x : CktS) (q z : Nat) : (s.setCl l x).active q z = s.active q z := rfl
@[simp] theorem setCl_inv (s : State) (l : Nat) (x : CktS) (q z y : Nat) : (s.setCl l x).inv q z y = s.inv q z y := rfl
@[simp] theorem setCl_isActive (s : State) (l : Nat) (x : CktS) : (s.setCl l x).isActive = s.isActive := rfl
@[simp] theorem setCl_mirrorSt (s : State) (l : Nat) (x : CktS) : (s.setCl l x).mirrorSt = s.mirrorSt := rfl
@[simp] theorem setCl_present (s : State) (l : Nat) (x : CktS) (q z : Nat) : (s.setCl l x).present q z = s.present q z := rfl
@[simp] theorem setCl_off (s : State) (l : Nat) (x : CktS) : (s.setCl l x).off = s.off := rfl
@[simp] theorem setCl_tick (s : State) (l : Nat) (x : CktS) : (s.setCl l x).tick = s.tick := rfl

/-! ## `State.setNv` -/

@[simp] theorem setNv_part (s : State) (c n : Nat) (e : NavE) : (s.setNv c n e).part = s.part := rfl
@[simp] theorem setNv_pending (s : State) (c n : Nat) (e : NavE) : (s.setNv c n e).pending = s.pending := rfl
@[simp] theorem setNv_regs (s : State) (c n : Nat) (e : NavE) : (s.setNv c n e).regs = s.regs := rfl
@[simp] theorem setNv_seen (s : State) (c n : Nat) (e : NavE) : (s.setNv c n e).seen = s.seen := rfl
@[simp] theorem setNv_rwo (s : State) (c n : Nat) (e : NavE) : (s.setNv c n e).rwo = s.rwo := rfl
@[simp] theorem setNv_pr (s : State) (c n : Nat) (e : NavE) : (s.setNv c n e).pr = s.pr := rfl
@[simp] theorem setNv_fresh (s : State) (c n : Nat) (e : NavE) : (s.setNv c n e).fresh = s.fresh := rfl
@[simp] theorem setNv_halted (s : State) (c n : Nat) (e : NavE) : (s.setNv c n e).halted = s.halted := rfl
@[simp] theorem setNv_bin (s : State) (c n : Nat) (e : NavE) : (s.setNv c n e).bin = s.bin := rfl
@[simp] theorem setNv_hif (s : State) (c n : Nat) (e : NavE) : (s.setNv c n e).hif = s.hif := rfl
@[simp] theorem setNv_crc (s : State) (c n : Nat) (e : NavE) : (s.setNv c n e).crc = s.crc := rfl
@[simp] theorem setNv_pmc (s : State) (c n : Nat) (e : NavE) : (s.setNv c n e).pmc = s.pmc := rfl
@[simp] theorem setNv_lcs (s : State) (c n : Nat) (e : NavE) : (s.setNv c n e).lcs = s.lcs := rfl
@[simp] theorem setNv_tm (s : State) (c n : Nat) (e : NavE) : (s.setNv c n e).tm = s.tm := rfl
@[simp] theorem setNv_deadline (s : State) (c n : Nat) (e : NavE) : (s.setNv c n e).deadline = s.deadline := rfl
@[simp] theorem setNv_tickWork (s : State) (c n : Nat) (e : NavE) : (s.setNv c n e).tickWork = s.tickWork := rfl
@[simp] theorem setNv_ttx (s : State) (c n : Nat) (e : NavE) : (s.setNv c n e).ttx = s.ttx := rfl
@[simp] theorem setNv_terms (s : State) (c n : Nat) (e : NavE) : (s.setNv c n e).terms = s.terms := rfl
@[simp] theorem setNv_sxt (s : State) (c n : Nat) (e : NavE) : (s.setNv c n e).sxt = s.sxt := rfl
@[simp] theorem setNv_tsi (s : State) (c n : Nat) (e : NavE) : (s.setNv c n e).tsi = s.tsi := rfl
@[simp] theorem setNv_alm (s : State) (c n : Nat) (e : NavE) : (s.setNv c n e).alm = s.alm := rfl
@[simp] theorem setNv_ciph (s : State) (c n : Nat) (e : NavE) : (s.setNv c n e).ciph = s.ciph := rfl
@[simp] theorem setNv_orr (s : State) (c n : Nat) (e : NavE) : (s.setNv c n e).orr = s.orr := rfl
@[simp] theorem setNv_trx (s : State) (c n : Nat) (e : NavE) : (s.setNv c n e).trx = s.trx := rfl
@[simp] theorem setNv_fwdIn (s : State) (c n : Nat) (e : NavE) : (s.setNv c n e).fwdIn = s.fwdIn := rfl
@[simp] theorem setNv_pair (s : State) (c n : Nat) (e : NavE) : (s.setNv c n e).pair = s.pair := rfl
@[simp] theorem setNv_ka (s : State) (c n : Nat) (e : NavE) : (s.setNv c n e).ka = s.ka := rfl
@[simp] theorem setNv_msec (s : State) (c n : Nat) (e : NavE) : (s.setNv c n e).msec = s.msec := rfl
@[simp] theorem setNv_sent (s : State) (c n : Nat) (e : NavE) : (s.setNv c n e).sent = s.sent := rfl
@[simp] theorem setNv_mail (s : State) (c n : Nat) (e : NavE) : (s.setNv c n e).mail = s.mail := rfl
@[simp] theorem setNv_navIn (s : State) (c n : Nat) (e : NavE) : (s.setNv c n e).navIn = s.navIn := rfl
@[simp] theorem setNv_injDone (s : State) (c n : Nat) (e : NavE) : (s.setNv c n e).injDone = s.injDone := rfl
@[simp] theorem setNv_fwd (s : State) (c n : Nat) (e : NavE) : (s.setNv c n e).fwd = s.fwd := rfl
@[simp] theorem setNv_xin (s : State) (c n : Nat) (e : NavE) : (s.setNv c n e).xin = s.xin := rfl
@[simp] theorem setNv_qin (s : State) (c n : Nat) (e : NavE) : (s.setNv c n e).qin = s.qin := rfl
@[simp] theorem setNv_hostIn (s : State) (c n : Nat) (e : NavE) : (s.setNv c n e).hostIn = s.hostIn := rfl
@[simp] theorem setNv_qsch (s : State) (c n : Nat) (e : NavE) : (s.setNv c n e).qsch = s.qsch := rfl
@[simp] theorem setNv_buf (s : State) (c n : Nat) (e : NavE) : (s.setNv c n e).buf = s.buf := rfl
@[simp] theorem setNv_gate (s : State) (c n : Nat) (e : NavE) : (s.setNv c n e).gate = s.gate := rfl
@[simp] theorem setNv_ckt (s : State) (c n : Nat) (e : NavE) : (s.setNv c n e).ckt = s.ckt := rfl
@[simp] theorem setNv_ages (s : State) (c n : Nat) (e : NavE) : (s.setNv c n e).ages = s.ages := rfl
@[simp] theorem setNv_ovrAt (s : State) (c n : Nat) (e : NavE) : (s.setNv c n e).ovrAt = s.ovrAt := rfl
@[simp] theorem setNv_navc (s : State) (c n : Nat) (e : NavE) : (s.setNv c n e).navc = s.navc := rfl
@[simp] theorem setNv_nmem (s : State) (c n : Nat) (e : NavE) : (s.setNv c n e).nmem = s.nmem := rfl
@[simp] theorem setNv_nbad (s : State) (c n : Nat) (e : NavE) : (s.setNv c n e).nbad = s.nbad := rfl
@[simp] theorem setNv_posts (s : State) (c n : Nat) (e : NavE) : (s.setNv c n e).posts = s.posts := rfl
@[simp] theorem setNv_qmap (s : State) (c n : Nat) (e : NavE) : (s.setNv c n e).qmap = s.qmap := rfl
@[simp] theorem setNv_qhold (s : State) (c n : Nat) (e : NavE) : (s.setNv c n e).qhold = s.qhold := rfl
@[simp] theorem setNv_sealS (s : State) (c n : Nat) (e : NavE) : (s.setNv c n e).sealS = s.sealS := rfl
@[simp] theorem setNv_ser (s : State) (c n : Nat) (e : NavE) : (s.setNv c n e).ser = s.ser := rfl
@[simp] theorem setNv_rd (s : State) (c n : Nat) (e : NavE) (q : Nat) : (s.setNv c n e).rd q = s.rd q := rfl
@[simp] theorem setNv_reg (s : State) (c n : Nat) (e : NavE) (q : RegId) (z : Nat) : (s.setNv c n e).reg q z = s.reg q z := rfl
@[simp] theorem setNv_regI (s : State) (c n : Nat) (e : NavE) (q : RegId) (z y : Nat) : (s.setNv c n e).regI q z y = s.regI q z y := rfl
@[simp] theorem setNv_fld (s : State) (c n : Nat) (e : NavE) (q : FldId) (z y : Nat) : (s.setNv c n e).fld q z y = s.fld q z y := rfl
@[simp] theorem setNv_flag (s : State) (c n : Nat) (e : NavE) (q : FldId) (z y : Nat) : (s.setNv c n e).flag q z y = s.flag q z y := rfl
@[simp] theorem setNv_reg64 (s : State) (c n : Nat) (e : NavE) (q : RegId) (z : Nat) : (s.setNv c n e).reg64 q z = s.reg64 q z := rfl
@[simp] theorem setNv_active (s : State) (c n : Nat) (e : NavE) (q z : Nat) : (s.setNv c n e).active q z = s.active q z := rfl
@[simp] theorem setNv_inv (s : State) (c n : Nat) (e : NavE) (q z y : Nat) : (s.setNv c n e).inv q z y = s.inv q z y := rfl
@[simp] theorem setNv_isActive (s : State) (c n : Nat) (e : NavE) : (s.setNv c n e).isActive = s.isActive := rfl
@[simp] theorem setNv_mirrorSt (s : State) (c n : Nat) (e : NavE) : (s.setNv c n e).mirrorSt = s.mirrorSt := rfl
@[simp] theorem setNv_present (s : State) (c n : Nat) (e : NavE) (q z : Nat) : (s.setNv c n e).present q z = s.present q z := rfl
@[simp] theorem setNv_off (s : State) (c n : Nat) (e : NavE) : (s.setNv c n e).off = s.off := rfl
@[simp] theorem setNv_tick (s : State) (c n : Nat) (e : NavE) : (s.setNv c n e).tick = s.tick := rfl

/-! ## `State.setCluster` -/

@[simp] theorem setCluster_part (s : State) (c : Nat) (x : NavC) : (s.setCluster c x).part = s.part := rfl
@[simp] theorem setCluster_pending (s : State) (c : Nat) (x : NavC) : (s.setCluster c x).pending = s.pending := rfl
@[simp] theorem setCluster_regs (s : State) (c : Nat) (x : NavC) : (s.setCluster c x).regs = s.regs := rfl
@[simp] theorem setCluster_seen (s : State) (c : Nat) (x : NavC) : (s.setCluster c x).seen = s.seen := rfl
@[simp] theorem setCluster_rwo (s : State) (c : Nat) (x : NavC) : (s.setCluster c x).rwo = s.rwo := rfl
@[simp] theorem setCluster_pr (s : State) (c : Nat) (x : NavC) : (s.setCluster c x).pr = s.pr := rfl
@[simp] theorem setCluster_fresh (s : State) (c : Nat) (x : NavC) : (s.setCluster c x).fresh = s.fresh := rfl
@[simp] theorem setCluster_halted (s : State) (c : Nat) (x : NavC) : (s.setCluster c x).halted = s.halted := rfl
@[simp] theorem setCluster_bin (s : State) (c : Nat) (x : NavC) : (s.setCluster c x).bin = s.bin := rfl
@[simp] theorem setCluster_hif (s : State) (c : Nat) (x : NavC) : (s.setCluster c x).hif = s.hif := rfl
@[simp] theorem setCluster_crc (s : State) (c : Nat) (x : NavC) : (s.setCluster c x).crc = s.crc := rfl
@[simp] theorem setCluster_pmc (s : State) (c : Nat) (x : NavC) : (s.setCluster c x).pmc = s.pmc := rfl
@[simp] theorem setCluster_lcs (s : State) (c : Nat) (x : NavC) : (s.setCluster c x).lcs = s.lcs := rfl
@[simp] theorem setCluster_tm (s : State) (c : Nat) (x : NavC) : (s.setCluster c x).tm = s.tm := rfl
@[simp] theorem setCluster_deadline (s : State) (c : Nat) (x : NavC) : (s.setCluster c x).deadline = s.deadline := rfl
@[simp] theorem setCluster_tickWork (s : State) (c : Nat) (x : NavC) : (s.setCluster c x).tickWork = s.tickWork := rfl
@[simp] theorem setCluster_ttx (s : State) (c : Nat) (x : NavC) : (s.setCluster c x).ttx = s.ttx := rfl
@[simp] theorem setCluster_terms (s : State) (c : Nat) (x : NavC) : (s.setCluster c x).terms = s.terms := rfl
@[simp] theorem setCluster_sxt (s : State) (c : Nat) (x : NavC) : (s.setCluster c x).sxt = s.sxt := rfl
@[simp] theorem setCluster_tsi (s : State) (c : Nat) (x : NavC) : (s.setCluster c x).tsi = s.tsi := rfl
@[simp] theorem setCluster_alm (s : State) (c : Nat) (x : NavC) : (s.setCluster c x).alm = s.alm := rfl
@[simp] theorem setCluster_ciph (s : State) (c : Nat) (x : NavC) : (s.setCluster c x).ciph = s.ciph := rfl
@[simp] theorem setCluster_orr (s : State) (c : Nat) (x : NavC) : (s.setCluster c x).orr = s.orr := rfl
@[simp] theorem setCluster_trx (s : State) (c : Nat) (x : NavC) : (s.setCluster c x).trx = s.trx := rfl
@[simp] theorem setCluster_fwdIn (s : State) (c : Nat) (x : NavC) : (s.setCluster c x).fwdIn = s.fwdIn := rfl
@[simp] theorem setCluster_pair (s : State) (c : Nat) (x : NavC) : (s.setCluster c x).pair = s.pair := rfl
@[simp] theorem setCluster_ka (s : State) (c : Nat) (x : NavC) : (s.setCluster c x).ka = s.ka := rfl
@[simp] theorem setCluster_msec (s : State) (c : Nat) (x : NavC) : (s.setCluster c x).msec = s.msec := rfl
@[simp] theorem setCluster_sent (s : State) (c : Nat) (x : NavC) : (s.setCluster c x).sent = s.sent := rfl
@[simp] theorem setCluster_mail (s : State) (c : Nat) (x : NavC) : (s.setCluster c x).mail = s.mail := rfl
@[simp] theorem setCluster_navIn (s : State) (c : Nat) (x : NavC) : (s.setCluster c x).navIn = s.navIn := rfl
@[simp] theorem setCluster_injDone (s : State) (c : Nat) (x : NavC) : (s.setCluster c x).injDone = s.injDone := rfl
@[simp] theorem setCluster_fwd (s : State) (c : Nat) (x : NavC) : (s.setCluster c x).fwd = s.fwd := rfl
@[simp] theorem setCluster_xin (s : State) (c : Nat) (x : NavC) : (s.setCluster c x).xin = s.xin := rfl
@[simp] theorem setCluster_qin (s : State) (c : Nat) (x : NavC) : (s.setCluster c x).qin = s.qin := rfl
@[simp] theorem setCluster_hostIn (s : State) (c : Nat) (x : NavC) : (s.setCluster c x).hostIn = s.hostIn := rfl
@[simp] theorem setCluster_qsch (s : State) (c : Nat) (x : NavC) : (s.setCluster c x).qsch = s.qsch := rfl
@[simp] theorem setCluster_buf (s : State) (c : Nat) (x : NavC) : (s.setCluster c x).buf = s.buf := rfl
@[simp] theorem setCluster_gate (s : State) (c : Nat) (x : NavC) : (s.setCluster c x).gate = s.gate := rfl
@[simp] theorem setCluster_ckt (s : State) (c : Nat) (x : NavC) : (s.setCluster c x).ckt = s.ckt := rfl
@[simp] theorem setCluster_ages (s : State) (c : Nat) (x : NavC) : (s.setCluster c x).ages = s.ages := rfl
@[simp] theorem setCluster_ovrAt (s : State) (c : Nat) (x : NavC) : (s.setCluster c x).ovrAt = s.ovrAt := rfl
@[simp] theorem setCluster_nav (s : State) (c : Nat) (x : NavC) : (s.setCluster c x).nav = s.nav := rfl
@[simp] theorem setCluster_nmem (s : State) (c : Nat) (x : NavC) : (s.setCluster c x).nmem = s.nmem := rfl
@[simp] theorem setCluster_nbad (s : State) (c : Nat) (x : NavC) : (s.setCluster c x).nbad = s.nbad := rfl
@[simp] theorem setCluster_posts (s : State) (c : Nat) (x : NavC) : (s.setCluster c x).posts = s.posts := rfl
@[simp] theorem setCluster_qmap (s : State) (c : Nat) (x : NavC) : (s.setCluster c x).qmap = s.qmap := rfl
@[simp] theorem setCluster_qhold (s : State) (c : Nat) (x : NavC) : (s.setCluster c x).qhold = s.qhold := rfl
@[simp] theorem setCluster_sealS (s : State) (c : Nat) (x : NavC) : (s.setCluster c x).sealS = s.sealS := rfl
@[simp] theorem setCluster_ser (s : State) (c : Nat) (x : NavC) : (s.setCluster c x).ser = s.ser := rfl
@[simp] theorem setCluster_rd (s : State) (c : Nat) (x : NavC) (q : Nat) : (s.setCluster c x).rd q = s.rd q := rfl
@[simp] theorem setCluster_reg (s : State) (c : Nat) (x : NavC) (q : RegId) (z : Nat) : (s.setCluster c x).reg q z = s.reg q z := rfl
@[simp] theorem setCluster_regI (s : State) (c : Nat) (x : NavC) (q : RegId) (z y : Nat) : (s.setCluster c x).regI q z y = s.regI q z y := rfl
@[simp] theorem setCluster_fld (s : State) (c : Nat) (x : NavC) (q : FldId) (z y : Nat) : (s.setCluster c x).fld q z y = s.fld q z y := rfl
@[simp] theorem setCluster_flag (s : State) (c : Nat) (x : NavC) (q : FldId) (z y : Nat) : (s.setCluster c x).flag q z y = s.flag q z y := rfl
@[simp] theorem setCluster_reg64 (s : State) (c : Nat) (x : NavC) (q : RegId) (z : Nat) : (s.setCluster c x).reg64 q z = s.reg64 q z := rfl
@[simp] theorem setCluster_active (s : State) (c : Nat) (x : NavC) (q z : Nat) : (s.setCluster c x).active q z = s.active q z := rfl
@[simp] theorem setCluster_inv (s : State) (c : Nat) (x : NavC) (q z y : Nat) : (s.setCluster c x).inv q z y = s.inv q z y := rfl
@[simp] theorem setCluster_isActive (s : State) (c : Nat) (x : NavC) : (s.setCluster c x).isActive = s.isActive := rfl
@[simp] theorem setCluster_mirrorSt (s : State) (c : Nat) (x : NavC) : (s.setCluster c x).mirrorSt = s.mirrorSt := rfl
@[simp] theorem setCluster_present (s : State) (c : Nat) (x : NavC) (q z : Nat) : (s.setCluster c x).present q z = s.present q z := rfl
@[simp] theorem setCluster_off (s : State) (c : Nat) (x : NavC) : (s.setCluster c x).off = s.off := rfl
@[simp] theorem setCluster_tick (s : State) (c : Nat) (x : NavC) : (s.setCluster c x).tick = s.tick := rfl

/-! ## `State.setQreg` -/

@[simp] theorem setQreg_part (s : State) (i n r : Nat) (x : QRegion) : (s.setQreg i n r x).part = s.part := rfl
@[simp] theorem setQreg_pending (s : State) (i n r : Nat) (x : QRegion) : (s.setQreg i n r x).pending = s.pending := rfl
@[simp] theorem setQreg_regs (s : State) (i n r : Nat) (x : QRegion) : (s.setQreg i n r x).regs = s.regs := rfl
@[simp] theorem setQreg_seen (s : State) (i n r : Nat) (x : QRegion) : (s.setQreg i n r x).seen = s.seen := rfl
@[simp] theorem setQreg_rwo (s : State) (i n r : Nat) (x : QRegion) : (s.setQreg i n r x).rwo = s.rwo := rfl
@[simp] theorem setQreg_pr (s : State) (i n r : Nat) (x : QRegion) : (s.setQreg i n r x).pr = s.pr := rfl
@[simp] theorem setQreg_fresh (s : State) (i n r : Nat) (x : QRegion) : (s.setQreg i n r x).fresh = s.fresh := rfl
@[simp] theorem setQreg_halted (s : State) (i n r : Nat) (x : QRegion) : (s.setQreg i n r x).halted = s.halted := rfl
@[simp] theorem setQreg_bin (s : State) (i n r : Nat) (x : QRegion) : (s.setQreg i n r x).bin = s.bin := rfl
@[simp] theorem setQreg_hif (s : State) (i n r : Nat) (x : QRegion) : (s.setQreg i n r x).hif = s.hif := rfl
@[simp] theorem setQreg_crc (s : State) (i n r : Nat) (x : QRegion) : (s.setQreg i n r x).crc = s.crc := rfl
@[simp] theorem setQreg_pmc (s : State) (i n r : Nat) (x : QRegion) : (s.setQreg i n r x).pmc = s.pmc := rfl
@[simp] theorem setQreg_lcs (s : State) (i n r : Nat) (x : QRegion) : (s.setQreg i n r x).lcs = s.lcs := rfl
@[simp] theorem setQreg_tm (s : State) (i n r : Nat) (x : QRegion) : (s.setQreg i n r x).tm = s.tm := rfl
@[simp] theorem setQreg_deadline (s : State) (i n r : Nat) (x : QRegion) : (s.setQreg i n r x).deadline = s.deadline := rfl
@[simp] theorem setQreg_tickWork (s : State) (i n r : Nat) (x : QRegion) : (s.setQreg i n r x).tickWork = s.tickWork := rfl
@[simp] theorem setQreg_ttx (s : State) (i n r : Nat) (x : QRegion) : (s.setQreg i n r x).ttx = s.ttx := rfl
@[simp] theorem setQreg_terms (s : State) (i n r : Nat) (x : QRegion) : (s.setQreg i n r x).terms = s.terms := rfl
@[simp] theorem setQreg_sxt (s : State) (i n r : Nat) (x : QRegion) : (s.setQreg i n r x).sxt = s.sxt := rfl
@[simp] theorem setQreg_tsi (s : State) (i n r : Nat) (x : QRegion) : (s.setQreg i n r x).tsi = s.tsi := rfl
@[simp] theorem setQreg_alm (s : State) (i n r : Nat) (x : QRegion) : (s.setQreg i n r x).alm = s.alm := rfl
@[simp] theorem setQreg_ciph (s : State) (i n r : Nat) (x : QRegion) : (s.setQreg i n r x).ciph = s.ciph := rfl
@[simp] theorem setQreg_orr (s : State) (i n r : Nat) (x : QRegion) : (s.setQreg i n r x).orr = s.orr := rfl
@[simp] theorem setQreg_trx (s : State) (i n r : Nat) (x : QRegion) : (s.setQreg i n r x).trx = s.trx := rfl
@[simp] theorem setQreg_fwdIn (s : State) (i n r : Nat) (x : QRegion) : (s.setQreg i n r x).fwdIn = s.fwdIn := rfl
@[simp] theorem setQreg_pair (s : State) (i n r : Nat) (x : QRegion) : (s.setQreg i n r x).pair = s.pair := rfl
@[simp] theorem setQreg_ka (s : State) (i n r : Nat) (x : QRegion) : (s.setQreg i n r x).ka = s.ka := rfl
@[simp] theorem setQreg_msec (s : State) (i n r : Nat) (x : QRegion) : (s.setQreg i n r x).msec = s.msec := rfl
@[simp] theorem setQreg_sent (s : State) (i n r : Nat) (x : QRegion) : (s.setQreg i n r x).sent = s.sent := rfl
@[simp] theorem setQreg_mail (s : State) (i n r : Nat) (x : QRegion) : (s.setQreg i n r x).mail = s.mail := rfl
@[simp] theorem setQreg_navIn (s : State) (i n r : Nat) (x : QRegion) : (s.setQreg i n r x).navIn = s.navIn := rfl
@[simp] theorem setQreg_injDone (s : State) (i n r : Nat) (x : QRegion) : (s.setQreg i n r x).injDone = s.injDone := rfl
@[simp] theorem setQreg_fwd (s : State) (i n r : Nat) (x : QRegion) : (s.setQreg i n r x).fwd = s.fwd := rfl
@[simp] theorem setQreg_xin (s : State) (i n r : Nat) (x : QRegion) : (s.setQreg i n r x).xin = s.xin := rfl
@[simp] theorem setQreg_qin (s : State) (i n r : Nat) (x : QRegion) : (s.setQreg i n r x).qin = s.qin := rfl
@[simp] theorem setQreg_hostIn (s : State) (i n r : Nat) (x : QRegion) : (s.setQreg i n r x).hostIn = s.hostIn := rfl
@[simp] theorem setQreg_qsch (s : State) (i n r : Nat) (x : QRegion) : (s.setQreg i n r x).qsch = s.qsch := rfl
@[simp] theorem setQreg_buf (s : State) (i n r : Nat) (x : QRegion) : (s.setQreg i n r x).buf = s.buf := rfl
@[simp] theorem setQreg_gate (s : State) (i n r : Nat) (x : QRegion) : (s.setQreg i n r x).gate = s.gate := rfl
@[simp] theorem setQreg_ckt (s : State) (i n r : Nat) (x : QRegion) : (s.setQreg i n r x).ckt = s.ckt := rfl
@[simp] theorem setQreg_ages (s : State) (i n r : Nat) (x : QRegion) : (s.setQreg i n r x).ages = s.ages := rfl
@[simp] theorem setQreg_ovrAt (s : State) (i n r : Nat) (x : QRegion) : (s.setQreg i n r x).ovrAt = s.ovrAt := rfl
@[simp] theorem setQreg_nav (s : State) (i n r : Nat) (x : QRegion) : (s.setQreg i n r x).nav = s.nav := rfl
@[simp] theorem setQreg_navc (s : State) (i n r : Nat) (x : QRegion) : (s.setQreg i n r x).navc = s.navc := rfl
@[simp] theorem setQreg_nmem (s : State) (i n r : Nat) (x : QRegion) : (s.setQreg i n r x).nmem = s.nmem := rfl
@[simp] theorem setQreg_nbad (s : State) (i n r : Nat) (x : QRegion) : (s.setQreg i n r x).nbad = s.nbad := rfl
@[simp] theorem setQreg_posts (s : State) (i n r : Nat) (x : QRegion) : (s.setQreg i n r x).posts = s.posts := rfl
@[simp] theorem setQreg_qhold (s : State) (i n r : Nat) (x : QRegion) : (s.setQreg i n r x).qhold = s.qhold := rfl
@[simp] theorem setQreg_sealS (s : State) (i n r : Nat) (x : QRegion) : (s.setQreg i n r x).sealS = s.sealS := rfl
@[simp] theorem setQreg_ser (s : State) (i n r : Nat) (x : QRegion) : (s.setQreg i n r x).ser = s.ser := rfl
@[simp] theorem setQreg_rd (s : State) (i n r : Nat) (x : QRegion) (q : Nat) : (s.setQreg i n r x).rd q = s.rd q := rfl
@[simp] theorem setQreg_reg (s : State) (i n r : Nat) (x : QRegion) (q : RegId) (z : Nat) : (s.setQreg i n r x).reg q z = s.reg q z := rfl
@[simp] theorem setQreg_regI (s : State) (i n r : Nat) (x : QRegion) (q : RegId) (z y : Nat) : (s.setQreg i n r x).regI q z y = s.regI q z y := rfl
@[simp] theorem setQreg_fld (s : State) (i n r : Nat) (x : QRegion) (q : FldId) (z y : Nat) : (s.setQreg i n r x).fld q z y = s.fld q z y := rfl
@[simp] theorem setQreg_flag (s : State) (i n r : Nat) (x : QRegion) (q : FldId) (z y : Nat) : (s.setQreg i n r x).flag q z y = s.flag q z y := rfl
@[simp] theorem setQreg_reg64 (s : State) (i n r : Nat) (x : QRegion) (q : RegId) (z : Nat) : (s.setQreg i n r x).reg64 q z = s.reg64 q z := rfl
@[simp] theorem setQreg_active (s : State) (i n r : Nat) (x : QRegion) (q z : Nat) : (s.setQreg i n r x).active q z = s.active q z := rfl
@[simp] theorem setQreg_inv (s : State) (i n r : Nat) (x : QRegion) (q z y : Nat) : (s.setQreg i n r x).inv q z y = s.inv q z y := rfl
@[simp] theorem setQreg_isActive (s : State) (i n r : Nat) (x : QRegion) : (s.setQreg i n r x).isActive = s.isActive := rfl
@[simp] theorem setQreg_mirrorSt (s : State) (i n r : Nat) (x : QRegion) : (s.setQreg i n r x).mirrorSt = s.mirrorSt := rfl
@[simp] theorem setQreg_present (s : State) (i n r : Nat) (x : QRegion) (q z : Nat) : (s.setQreg i n r x).present q z = s.present q z := rfl
@[simp] theorem setQreg_off (s : State) (i n r : Nat) (x : QRegion) : (s.setQreg i n r x).off = s.off := rfl
@[simp] theorem setQreg_tick (s : State) (i n r : Nat) (x : QRegion) : (s.setQreg i n r x).tick = s.tick := rfl

/-! ## `State.setSeal` -/

@[simp] theorem setSeal_part (s : State) (i : Nat) (x : SealS) : (s.setSeal i x).part = s.part := rfl
@[simp] theorem setSeal_pending (s : State) (i : Nat) (x : SealS) : (s.setSeal i x).pending = s.pending := rfl
@[simp] theorem setSeal_regs (s : State) (i : Nat) (x : SealS) : (s.setSeal i x).regs = s.regs := rfl
@[simp] theorem setSeal_seen (s : State) (i : Nat) (x : SealS) : (s.setSeal i x).seen = s.seen := rfl
@[simp] theorem setSeal_rwo (s : State) (i : Nat) (x : SealS) : (s.setSeal i x).rwo = s.rwo := rfl
@[simp] theorem setSeal_pr (s : State) (i : Nat) (x : SealS) : (s.setSeal i x).pr = s.pr := rfl
@[simp] theorem setSeal_fresh (s : State) (i : Nat) (x : SealS) : (s.setSeal i x).fresh = s.fresh := rfl
@[simp] theorem setSeal_halted (s : State) (i : Nat) (x : SealS) : (s.setSeal i x).halted = s.halted := rfl
@[simp] theorem setSeal_bin (s : State) (i : Nat) (x : SealS) : (s.setSeal i x).bin = s.bin := rfl
@[simp] theorem setSeal_hif (s : State) (i : Nat) (x : SealS) : (s.setSeal i x).hif = s.hif := rfl
@[simp] theorem setSeal_crc (s : State) (i : Nat) (x : SealS) : (s.setSeal i x).crc = s.crc := rfl
@[simp] theorem setSeal_pmc (s : State) (i : Nat) (x : SealS) : (s.setSeal i x).pmc = s.pmc := rfl
@[simp] theorem setSeal_lcs (s : State) (i : Nat) (x : SealS) : (s.setSeal i x).lcs = s.lcs := rfl
@[simp] theorem setSeal_tm (s : State) (i : Nat) (x : SealS) : (s.setSeal i x).tm = s.tm := rfl
@[simp] theorem setSeal_deadline (s : State) (i : Nat) (x : SealS) : (s.setSeal i x).deadline = s.deadline := rfl
@[simp] theorem setSeal_tickWork (s : State) (i : Nat) (x : SealS) : (s.setSeal i x).tickWork = s.tickWork := rfl
@[simp] theorem setSeal_ttx (s : State) (i : Nat) (x : SealS) : (s.setSeal i x).ttx = s.ttx := rfl
@[simp] theorem setSeal_terms (s : State) (i : Nat) (x : SealS) : (s.setSeal i x).terms = s.terms := rfl
@[simp] theorem setSeal_sxt (s : State) (i : Nat) (x : SealS) : (s.setSeal i x).sxt = s.sxt := rfl
@[simp] theorem setSeal_tsi (s : State) (i : Nat) (x : SealS) : (s.setSeal i x).tsi = s.tsi := rfl
@[simp] theorem setSeal_alm (s : State) (i : Nat) (x : SealS) : (s.setSeal i x).alm = s.alm := rfl
@[simp] theorem setSeal_ciph (s : State) (i : Nat) (x : SealS) : (s.setSeal i x).ciph = s.ciph := rfl
@[simp] theorem setSeal_orr (s : State) (i : Nat) (x : SealS) : (s.setSeal i x).orr = s.orr := rfl
@[simp] theorem setSeal_trx (s : State) (i : Nat) (x : SealS) : (s.setSeal i x).trx = s.trx := rfl
@[simp] theorem setSeal_fwdIn (s : State) (i : Nat) (x : SealS) : (s.setSeal i x).fwdIn = s.fwdIn := rfl
@[simp] theorem setSeal_pair (s : State) (i : Nat) (x : SealS) : (s.setSeal i x).pair = s.pair := rfl
@[simp] theorem setSeal_ka (s : State) (i : Nat) (x : SealS) : (s.setSeal i x).ka = s.ka := rfl
@[simp] theorem setSeal_msec (s : State) (i : Nat) (x : SealS) : (s.setSeal i x).msec = s.msec := rfl
@[simp] theorem setSeal_sent (s : State) (i : Nat) (x : SealS) : (s.setSeal i x).sent = s.sent := rfl
@[simp] theorem setSeal_mail (s : State) (i : Nat) (x : SealS) : (s.setSeal i x).mail = s.mail := rfl
@[simp] theorem setSeal_navIn (s : State) (i : Nat) (x : SealS) : (s.setSeal i x).navIn = s.navIn := rfl
@[simp] theorem setSeal_injDone (s : State) (i : Nat) (x : SealS) : (s.setSeal i x).injDone = s.injDone := rfl
@[simp] theorem setSeal_fwd (s : State) (i : Nat) (x : SealS) : (s.setSeal i x).fwd = s.fwd := rfl
@[simp] theorem setSeal_xin (s : State) (i : Nat) (x : SealS) : (s.setSeal i x).xin = s.xin := rfl
@[simp] theorem setSeal_qin (s : State) (i : Nat) (x : SealS) : (s.setSeal i x).qin = s.qin := rfl
@[simp] theorem setSeal_hostIn (s : State) (i : Nat) (x : SealS) : (s.setSeal i x).hostIn = s.hostIn := rfl
@[simp] theorem setSeal_qsch (s : State) (i : Nat) (x : SealS) : (s.setSeal i x).qsch = s.qsch := rfl
@[simp] theorem setSeal_buf (s : State) (i : Nat) (x : SealS) : (s.setSeal i x).buf = s.buf := rfl
@[simp] theorem setSeal_gate (s : State) (i : Nat) (x : SealS) : (s.setSeal i x).gate = s.gate := rfl
@[simp] theorem setSeal_ckt (s : State) (i : Nat) (x : SealS) : (s.setSeal i x).ckt = s.ckt := rfl
@[simp] theorem setSeal_ages (s : State) (i : Nat) (x : SealS) : (s.setSeal i x).ages = s.ages := rfl
@[simp] theorem setSeal_ovrAt (s : State) (i : Nat) (x : SealS) : (s.setSeal i x).ovrAt = s.ovrAt := rfl
@[simp] theorem setSeal_nav (s : State) (i : Nat) (x : SealS) : (s.setSeal i x).nav = s.nav := rfl
@[simp] theorem setSeal_navc (s : State) (i : Nat) (x : SealS) : (s.setSeal i x).navc = s.navc := rfl
@[simp] theorem setSeal_nmem (s : State) (i : Nat) (x : SealS) : (s.setSeal i x).nmem = s.nmem := rfl
@[simp] theorem setSeal_nbad (s : State) (i : Nat) (x : SealS) : (s.setSeal i x).nbad = s.nbad := rfl
@[simp] theorem setSeal_posts (s : State) (i : Nat) (x : SealS) : (s.setSeal i x).posts = s.posts := rfl
@[simp] theorem setSeal_qmap (s : State) (i : Nat) (x : SealS) : (s.setSeal i x).qmap = s.qmap := rfl
@[simp] theorem setSeal_qhold (s : State) (i : Nat) (x : SealS) : (s.setSeal i x).qhold = s.qhold := rfl
@[simp] theorem setSeal_ser (s : State) (i : Nat) (x : SealS) : (s.setSeal i x).ser = s.ser := rfl
@[simp] theorem setSeal_rd (s : State) (i : Nat) (x : SealS) (q : Nat) : (s.setSeal i x).rd q = s.rd q := rfl
@[simp] theorem setSeal_reg (s : State) (i : Nat) (x : SealS) (q : RegId) (z : Nat) : (s.setSeal i x).reg q z = s.reg q z := rfl
@[simp] theorem setSeal_regI (s : State) (i : Nat) (x : SealS) (q : RegId) (z y : Nat) : (s.setSeal i x).regI q z y = s.regI q z y := rfl
@[simp] theorem setSeal_fld (s : State) (i : Nat) (x : SealS) (q : FldId) (z y : Nat) : (s.setSeal i x).fld q z y = s.fld q z y := rfl
@[simp] theorem setSeal_flag (s : State) (i : Nat) (x : SealS) (q : FldId) (z y : Nat) : (s.setSeal i x).flag q z y = s.flag q z y := rfl
@[simp] theorem setSeal_reg64 (s : State) (i : Nat) (x : SealS) (q : RegId) (z : Nat) : (s.setSeal i x).reg64 q z = s.reg64 q z := rfl
@[simp] theorem setSeal_active (s : State) (i : Nat) (x : SealS) (q z : Nat) : (s.setSeal i x).active q z = s.active q z := rfl
@[simp] theorem setSeal_inv (s : State) (i : Nat) (x : SealS) (q z y : Nat) : (s.setSeal i x).inv q z y = s.inv q z y := rfl
@[simp] theorem setSeal_isActive (s : State) (i : Nat) (x : SealS) : (s.setSeal i x).isActive = s.isActive := rfl
@[simp] theorem setSeal_mirrorSt (s : State) (i : Nat) (x : SealS) : (s.setSeal i x).mirrorSt = s.mirrorSt := rfl
@[simp] theorem setSeal_present (s : State) (i : Nat) (x : SealS) (q z : Nat) : (s.setSeal i x).present q z = s.present q z := rfl
@[simp] theorem setSeal_off (s : State) (i : Nat) (x : SealS) : (s.setSeal i x).off = s.off := rfl
@[simp] theorem setSeal_tick (s : State) (i : Nat) (x : SealS) : (s.setSeal i x).tick = s.tick := rfl

/-! ## `State.setLane` -/

@[simp] theorem setLane_part (s : State) (n : Nat) (x : SerS) : (s.setLane n x).part = s.part := rfl
@[simp] theorem setLane_pending (s : State) (n : Nat) (x : SerS) : (s.setLane n x).pending = s.pending := rfl
@[simp] theorem setLane_regs (s : State) (n : Nat) (x : SerS) : (s.setLane n x).regs = s.regs := rfl
@[simp] theorem setLane_seen (s : State) (n : Nat) (x : SerS) : (s.setLane n x).seen = s.seen := rfl
@[simp] theorem setLane_rwo (s : State) (n : Nat) (x : SerS) : (s.setLane n x).rwo = s.rwo := rfl
@[simp] theorem setLane_pr (s : State) (n : Nat) (x : SerS) : (s.setLane n x).pr = s.pr := rfl
@[simp] theorem setLane_fresh (s : State) (n : Nat) (x : SerS) : (s.setLane n x).fresh = s.fresh := rfl
@[simp] theorem setLane_halted (s : State) (n : Nat) (x : SerS) : (s.setLane n x).halted = s.halted := rfl
@[simp] theorem setLane_bin (s : State) (n : Nat) (x : SerS) : (s.setLane n x).bin = s.bin := rfl
@[simp] theorem setLane_hif (s : State) (n : Nat) (x : SerS) : (s.setLane n x).hif = s.hif := rfl
@[simp] theorem setLane_crc (s : State) (n : Nat) (x : SerS) : (s.setLane n x).crc = s.crc := rfl
@[simp] theorem setLane_pmc (s : State) (n : Nat) (x : SerS) : (s.setLane n x).pmc = s.pmc := rfl
@[simp] theorem setLane_lcs (s : State) (n : Nat) (x : SerS) : (s.setLane n x).lcs = s.lcs := rfl
@[simp] theorem setLane_tm (s : State) (n : Nat) (x : SerS) : (s.setLane n x).tm = s.tm := rfl
@[simp] theorem setLane_deadline (s : State) (n : Nat) (x : SerS) : (s.setLane n x).deadline = s.deadline := rfl
@[simp] theorem setLane_tickWork (s : State) (n : Nat) (x : SerS) : (s.setLane n x).tickWork = s.tickWork := rfl
@[simp] theorem setLane_ttx (s : State) (n : Nat) (x : SerS) : (s.setLane n x).ttx = s.ttx := rfl
@[simp] theorem setLane_terms (s : State) (n : Nat) (x : SerS) : (s.setLane n x).terms = s.terms := rfl
@[simp] theorem setLane_sxt (s : State) (n : Nat) (x : SerS) : (s.setLane n x).sxt = s.sxt := rfl
@[simp] theorem setLane_tsi (s : State) (n : Nat) (x : SerS) : (s.setLane n x).tsi = s.tsi := rfl
@[simp] theorem setLane_alm (s : State) (n : Nat) (x : SerS) : (s.setLane n x).alm = s.alm := rfl
@[simp] theorem setLane_ciph (s : State) (n : Nat) (x : SerS) : (s.setLane n x).ciph = s.ciph := rfl
@[simp] theorem setLane_orr (s : State) (n : Nat) (x : SerS) : (s.setLane n x).orr = s.orr := rfl
@[simp] theorem setLane_trx (s : State) (n : Nat) (x : SerS) : (s.setLane n x).trx = s.trx := rfl
@[simp] theorem setLane_fwdIn (s : State) (n : Nat) (x : SerS) : (s.setLane n x).fwdIn = s.fwdIn := rfl
@[simp] theorem setLane_pair (s : State) (n : Nat) (x : SerS) : (s.setLane n x).pair = s.pair := rfl
@[simp] theorem setLane_ka (s : State) (n : Nat) (x : SerS) : (s.setLane n x).ka = s.ka := rfl
@[simp] theorem setLane_msec (s : State) (n : Nat) (x : SerS) : (s.setLane n x).msec = s.msec := rfl
@[simp] theorem setLane_sent (s : State) (n : Nat) (x : SerS) : (s.setLane n x).sent = s.sent := rfl
@[simp] theorem setLane_mail (s : State) (n : Nat) (x : SerS) : (s.setLane n x).mail = s.mail := rfl
@[simp] theorem setLane_navIn (s : State) (n : Nat) (x : SerS) : (s.setLane n x).navIn = s.navIn := rfl
@[simp] theorem setLane_injDone (s : State) (n : Nat) (x : SerS) : (s.setLane n x).injDone = s.injDone := rfl
@[simp] theorem setLane_fwd (s : State) (n : Nat) (x : SerS) : (s.setLane n x).fwd = s.fwd := rfl
@[simp] theorem setLane_xin (s : State) (n : Nat) (x : SerS) : (s.setLane n x).xin = s.xin := rfl
@[simp] theorem setLane_qin (s : State) (n : Nat) (x : SerS) : (s.setLane n x).qin = s.qin := rfl
@[simp] theorem setLane_hostIn (s : State) (n : Nat) (x : SerS) : (s.setLane n x).hostIn = s.hostIn := rfl
@[simp] theorem setLane_qsch (s : State) (n : Nat) (x : SerS) : (s.setLane n x).qsch = s.qsch := rfl
@[simp] theorem setLane_buf (s : State) (n : Nat) (x : SerS) : (s.setLane n x).buf = s.buf := rfl
@[simp] theorem setLane_gate (s : State) (n : Nat) (x : SerS) : (s.setLane n x).gate = s.gate := rfl
@[simp] theorem setLane_ckt (s : State) (n : Nat) (x : SerS) : (s.setLane n x).ckt = s.ckt := rfl
@[simp] theorem setLane_ages (s : State) (n : Nat) (x : SerS) : (s.setLane n x).ages = s.ages := rfl
@[simp] theorem setLane_ovrAt (s : State) (n : Nat) (x : SerS) : (s.setLane n x).ovrAt = s.ovrAt := rfl
@[simp] theorem setLane_nav (s : State) (n : Nat) (x : SerS) : (s.setLane n x).nav = s.nav := rfl
@[simp] theorem setLane_navc (s : State) (n : Nat) (x : SerS) : (s.setLane n x).navc = s.navc := rfl
@[simp] theorem setLane_nmem (s : State) (n : Nat) (x : SerS) : (s.setLane n x).nmem = s.nmem := rfl
@[simp] theorem setLane_nbad (s : State) (n : Nat) (x : SerS) : (s.setLane n x).nbad = s.nbad := rfl
@[simp] theorem setLane_posts (s : State) (n : Nat) (x : SerS) : (s.setLane n x).posts = s.posts := rfl
@[simp] theorem setLane_qmap (s : State) (n : Nat) (x : SerS) : (s.setLane n x).qmap = s.qmap := rfl
@[simp] theorem setLane_qhold (s : State) (n : Nat) (x : SerS) : (s.setLane n x).qhold = s.qhold := rfl
@[simp] theorem setLane_sealS (s : State) (n : Nat) (x : SerS) : (s.setLane n x).sealS = s.sealS := rfl
@[simp] theorem setLane_rd (s : State) (n : Nat) (x : SerS) (q : Nat) : (s.setLane n x).rd q = s.rd q := rfl
@[simp] theorem setLane_reg (s : State) (n : Nat) (x : SerS) (q : RegId) (z : Nat) : (s.setLane n x).reg q z = s.reg q z := rfl
@[simp] theorem setLane_regI (s : State) (n : Nat) (x : SerS) (q : RegId) (z y : Nat) : (s.setLane n x).regI q z y = s.regI q z y := rfl
@[simp] theorem setLane_fld (s : State) (n : Nat) (x : SerS) (q : FldId) (z y : Nat) : (s.setLane n x).fld q z y = s.fld q z y := rfl
@[simp] theorem setLane_flag (s : State) (n : Nat) (x : SerS) (q : FldId) (z y : Nat) : (s.setLane n x).flag q z y = s.flag q z y := rfl
@[simp] theorem setLane_reg64 (s : State) (n : Nat) (x : SerS) (q : RegId) (z : Nat) : (s.setLane n x).reg64 q z = s.reg64 q z := rfl
@[simp] theorem setLane_active (s : State) (n : Nat) (x : SerS) (q z : Nat) : (s.setLane n x).active q z = s.active q z := rfl
@[simp] theorem setLane_inv (s : State) (n : Nat) (x : SerS) (q z y : Nat) : (s.setLane n x).inv q z y = s.inv q z y := rfl
@[simp] theorem setLane_isActive (s : State) (n : Nat) (x : SerS) : (s.setLane n x).isActive = s.isActive := rfl
@[simp] theorem setLane_mirrorSt (s : State) (n : Nat) (x : SerS) : (s.setLane n x).mirrorSt = s.mirrorSt := rfl
@[simp] theorem setLane_present (s : State) (n : Nat) (x : SerS) (q z : Nat) : (s.setLane n x).present q z = s.present q z := rfl
@[simp] theorem setLane_off (s : State) (n : Nat) (x : SerS) : (s.setLane n x).off = s.off := rfl
@[simp] theorem setLane_tick (s : State) (n : Nat) (x : SerS) : (s.setLane n x).tick = s.tick := rfl

/-! ## `State.setLink` -/

@[simp] theorem setLink_part (s : State) (k : Nat) (x : SerLink) : (s.setLink k x).part = s.part := rfl
@[simp] theorem setLink_pending (s : State) (k : Nat) (x : SerLink) : (s.setLink k x).pending = s.pending := rfl
@[simp] theorem setLink_regs (s : State) (k : Nat) (x : SerLink) : (s.setLink k x).regs = s.regs := rfl
@[simp] theorem setLink_seen (s : State) (k : Nat) (x : SerLink) : (s.setLink k x).seen = s.seen := rfl
@[simp] theorem setLink_rwo (s : State) (k : Nat) (x : SerLink) : (s.setLink k x).rwo = s.rwo := rfl
@[simp] theorem setLink_pr (s : State) (k : Nat) (x : SerLink) : (s.setLink k x).pr = s.pr := rfl
@[simp] theorem setLink_fresh (s : State) (k : Nat) (x : SerLink) : (s.setLink k x).fresh = s.fresh := rfl
@[simp] theorem setLink_halted (s : State) (k : Nat) (x : SerLink) : (s.setLink k x).halted = s.halted := rfl
@[simp] theorem setLink_bin (s : State) (k : Nat) (x : SerLink) : (s.setLink k x).bin = s.bin := rfl
@[simp] theorem setLink_hif (s : State) (k : Nat) (x : SerLink) : (s.setLink k x).hif = s.hif := rfl
@[simp] theorem setLink_crc (s : State) (k : Nat) (x : SerLink) : (s.setLink k x).crc = s.crc := rfl
@[simp] theorem setLink_pmc (s : State) (k : Nat) (x : SerLink) : (s.setLink k x).pmc = s.pmc := rfl
@[simp] theorem setLink_lcs (s : State) (k : Nat) (x : SerLink) : (s.setLink k x).lcs = s.lcs := rfl
@[simp] theorem setLink_tm (s : State) (k : Nat) (x : SerLink) : (s.setLink k x).tm = s.tm := rfl
@[simp] theorem setLink_deadline (s : State) (k : Nat) (x : SerLink) : (s.setLink k x).deadline = s.deadline := rfl
@[simp] theorem setLink_tickWork (s : State) (k : Nat) (x : SerLink) : (s.setLink k x).tickWork = s.tickWork := rfl
@[simp] theorem setLink_ttx (s : State) (k : Nat) (x : SerLink) : (s.setLink k x).ttx = s.ttx := rfl
@[simp] theorem setLink_terms (s : State) (k : Nat) (x : SerLink) : (s.setLink k x).terms = s.terms := rfl
@[simp] theorem setLink_sxt (s : State) (k : Nat) (x : SerLink) : (s.setLink k x).sxt = s.sxt := rfl
@[simp] theorem setLink_tsi (s : State) (k : Nat) (x : SerLink) : (s.setLink k x).tsi = s.tsi := rfl
@[simp] theorem setLink_alm (s : State) (k : Nat) (x : SerLink) : (s.setLink k x).alm = s.alm := rfl
@[simp] theorem setLink_ciph (s : State) (k : Nat) (x : SerLink) : (s.setLink k x).ciph = s.ciph := rfl
@[simp] theorem setLink_orr (s : State) (k : Nat) (x : SerLink) : (s.setLink k x).orr = s.orr := rfl
@[simp] theorem setLink_trx (s : State) (k : Nat) (x : SerLink) : (s.setLink k x).trx = s.trx := rfl
@[simp] theorem setLink_fwdIn (s : State) (k : Nat) (x : SerLink) : (s.setLink k x).fwdIn = s.fwdIn := rfl
@[simp] theorem setLink_pair (s : State) (k : Nat) (x : SerLink) : (s.setLink k x).pair = s.pair := rfl
@[simp] theorem setLink_ka (s : State) (k : Nat) (x : SerLink) : (s.setLink k x).ka = s.ka := rfl
@[simp] theorem setLink_msec (s : State) (k : Nat) (x : SerLink) : (s.setLink k x).msec = s.msec := rfl
@[simp] theorem setLink_sent (s : State) (k : Nat) (x : SerLink) : (s.setLink k x).sent = s.sent := rfl
@[simp] theorem setLink_mail (s : State) (k : Nat) (x : SerLink) : (s.setLink k x).mail = s.mail := rfl
@[simp] theorem setLink_navIn (s : State) (k : Nat) (x : SerLink) : (s.setLink k x).navIn = s.navIn := rfl
@[simp] theorem setLink_injDone (s : State) (k : Nat) (x : SerLink) : (s.setLink k x).injDone = s.injDone := rfl
@[simp] theorem setLink_fwd (s : State) (k : Nat) (x : SerLink) : (s.setLink k x).fwd = s.fwd := rfl
@[simp] theorem setLink_xin (s : State) (k : Nat) (x : SerLink) : (s.setLink k x).xin = s.xin := rfl
@[simp] theorem setLink_qin (s : State) (k : Nat) (x : SerLink) : (s.setLink k x).qin = s.qin := rfl
@[simp] theorem setLink_hostIn (s : State) (k : Nat) (x : SerLink) : (s.setLink k x).hostIn = s.hostIn := rfl
@[simp] theorem setLink_qsch (s : State) (k : Nat) (x : SerLink) : (s.setLink k x).qsch = s.qsch := rfl
@[simp] theorem setLink_buf (s : State) (k : Nat) (x : SerLink) : (s.setLink k x).buf = s.buf := rfl
@[simp] theorem setLink_gate (s : State) (k : Nat) (x : SerLink) : (s.setLink k x).gate = s.gate := rfl
@[simp] theorem setLink_ckt (s : State) (k : Nat) (x : SerLink) : (s.setLink k x).ckt = s.ckt := rfl
@[simp] theorem setLink_ages (s : State) (k : Nat) (x : SerLink) : (s.setLink k x).ages = s.ages := rfl
@[simp] theorem setLink_ovrAt (s : State) (k : Nat) (x : SerLink) : (s.setLink k x).ovrAt = s.ovrAt := rfl
@[simp] theorem setLink_nav (s : State) (k : Nat) (x : SerLink) : (s.setLink k x).nav = s.nav := rfl
@[simp] theorem setLink_navc (s : State) (k : Nat) (x : SerLink) : (s.setLink k x).navc = s.navc := rfl
@[simp] theorem setLink_nmem (s : State) (k : Nat) (x : SerLink) : (s.setLink k x).nmem = s.nmem := rfl
@[simp] theorem setLink_nbad (s : State) (k : Nat) (x : SerLink) : (s.setLink k x).nbad = s.nbad := rfl
@[simp] theorem setLink_posts (s : State) (k : Nat) (x : SerLink) : (s.setLink k x).posts = s.posts := rfl
@[simp] theorem setLink_qmap (s : State) (k : Nat) (x : SerLink) : (s.setLink k x).qmap = s.qmap := rfl
@[simp] theorem setLink_qhold (s : State) (k : Nat) (x : SerLink) : (s.setLink k x).qhold = s.qhold := rfl
@[simp] theorem setLink_sealS (s : State) (k : Nat) (x : SerLink) : (s.setLink k x).sealS = s.sealS := rfl
@[simp] theorem setLink_rd (s : State) (k : Nat) (x : SerLink) (q : Nat) : (s.setLink k x).rd q = s.rd q := rfl
@[simp] theorem setLink_reg (s : State) (k : Nat) (x : SerLink) (q : RegId) (z : Nat) : (s.setLink k x).reg q z = s.reg q z := rfl
@[simp] theorem setLink_regI (s : State) (k : Nat) (x : SerLink) (q : RegId) (z y : Nat) : (s.setLink k x).regI q z y = s.regI q z y := rfl
@[simp] theorem setLink_fld (s : State) (k : Nat) (x : SerLink) (q : FldId) (z y : Nat) : (s.setLink k x).fld q z y = s.fld q z y := rfl
@[simp] theorem setLink_flag (s : State) (k : Nat) (x : SerLink) (q : FldId) (z y : Nat) : (s.setLink k x).flag q z y = s.flag q z y := rfl
@[simp] theorem setLink_reg64 (s : State) (k : Nat) (x : SerLink) (q : RegId) (z : Nat) : (s.setLink k x).reg64 q z = s.reg64 q z := rfl
@[simp] theorem setLink_active (s : State) (k : Nat) (x : SerLink) (q z : Nat) : (s.setLink k x).active q z = s.active q z := rfl
@[simp] theorem setLink_inv (s : State) (k : Nat) (x : SerLink) (q z y : Nat) : (s.setLink k x).inv q z y = s.inv q z y := rfl
@[simp] theorem setLink_isActive (s : State) (k : Nat) (x : SerLink) : (s.setLink k x).isActive = s.isActive := rfl
@[simp] theorem setLink_mirrorSt (s : State) (k : Nat) (x : SerLink) : (s.setLink k x).mirrorSt = s.mirrorSt := rfl
@[simp] theorem setLink_present (s : State) (k : Nat) (x : SerLink) (q z : Nat) : (s.setLink k x).present q z = s.present q z := rfl
@[simp] theorem setLink_off (s : State) (k : Nat) (x : SerLink) : (s.setLink k x).off = s.off := rfl
@[simp] theorem setLink_tick (s : State) (k : Nat) (x : SerLink) : (s.setLink k x).tick = s.tick := rfl

/-! ## Free values and the end of a command -/

@[simp] theorem draw_part (s : State) (w : Nat) : (s.draw w).2.part = s.part := rfl
@[simp] theorem drawBytes_part (s : State) (w : Nat) : (s.drawBytes w).2.part = s.part := rfl
@[simp] theorem draw_pending (s : State) (w : Nat) : (s.draw w).2.pending = s.pending := rfl
@[simp] theorem drawBytes_pending (s : State) (w : Nat) : (s.drawBytes w).2.pending = s.pending := rfl
@[simp] theorem draw_regs (s : State) (w : Nat) : (s.draw w).2.regs = s.regs := rfl
@[simp] theorem drawBytes_regs (s : State) (w : Nat) : (s.drawBytes w).2.regs = s.regs := rfl
@[simp] theorem done_regs (s t : State) : (s.done t).regs = t.regs := rfl
@[simp] theorem draw_seen (s : State) (w : Nat) : (s.draw w).2.seen = s.seen := rfl
@[simp] theorem drawBytes_seen (s : State) (w : Nat) : (s.drawBytes w).2.seen = s.seen := rfl
@[simp] theorem done_seen (s t : State) : (s.done t).seen = t.seen := rfl
@[simp] theorem draw_rwo (s : State) (w : Nat) : (s.draw w).2.rwo = s.rwo := rfl
@[simp] theorem drawBytes_rwo (s : State) (w : Nat) : (s.drawBytes w).2.rwo = s.rwo := rfl
@[simp] theorem done_rwo (s t : State) : (s.done t).rwo = t.rwo := rfl
@[simp] theorem draw_pr (s : State) (w : Nat) : (s.draw w).2.pr = s.pr := rfl
@[simp] theorem drawBytes_pr (s : State) (w : Nat) : (s.drawBytes w).2.pr = s.pr := rfl
@[simp] theorem done_pr (s t : State) : (s.done t).pr = t.pr := rfl
@[simp] theorem done_fresh (s t : State) : (s.done t).fresh = t.fresh := rfl
@[simp] theorem draw_halted (s : State) (w : Nat) : (s.draw w).2.halted = s.halted := rfl
@[simp] theorem drawBytes_halted (s : State) (w : Nat) : (s.drawBytes w).2.halted = s.halted := rfl
@[simp] theorem done_halted (s t : State) : (s.done t).halted = t.halted := rfl
@[simp] theorem draw_bin (s : State) (w : Nat) : (s.draw w).2.bin = s.bin := rfl
@[simp] theorem drawBytes_bin (s : State) (w : Nat) : (s.drawBytes w).2.bin = s.bin := rfl
@[simp] theorem done_bin (s t : State) : (s.done t).bin = t.bin := rfl
@[simp] theorem draw_hif (s : State) (w : Nat) : (s.draw w).2.hif = s.hif := rfl
@[simp] theorem drawBytes_hif (s : State) (w : Nat) : (s.drawBytes w).2.hif = s.hif := rfl
@[simp] theorem draw_crc (s : State) (w : Nat) : (s.draw w).2.crc = s.crc := rfl
@[simp] theorem drawBytes_crc (s : State) (w : Nat) : (s.drawBytes w).2.crc = s.crc := rfl
@[simp] theorem done_crc (s t : State) : (s.done t).crc = t.crc := rfl
@[simp] theorem draw_pmc (s : State) (w : Nat) : (s.draw w).2.pmc = s.pmc := rfl
@[simp] theorem drawBytes_pmc (s : State) (w : Nat) : (s.drawBytes w).2.pmc = s.pmc := rfl
@[simp] theorem done_pmc (s t : State) : (s.done t).pmc = t.pmc := rfl
@[simp] theorem draw_lcs (s : State) (w : Nat) : (s.draw w).2.lcs = s.lcs := rfl
@[simp] theorem drawBytes_lcs (s : State) (w : Nat) : (s.drawBytes w).2.lcs = s.lcs := rfl
@[simp] theorem done_lcs (s t : State) : (s.done t).lcs = t.lcs := rfl
@[simp] theorem draw_tm (s : State) (w : Nat) : (s.draw w).2.tm = s.tm := rfl
@[simp] theorem drawBytes_tm (s : State) (w : Nat) : (s.drawBytes w).2.tm = s.tm := rfl
@[simp] theorem done_tm (s t : State) : (s.done t).tm = t.tm := rfl
@[simp] theorem draw_deadline (s : State) (w : Nat) : (s.draw w).2.deadline = s.deadline := rfl
@[simp] theorem drawBytes_deadline (s : State) (w : Nat) : (s.drawBytes w).2.deadline = s.deadline := rfl
@[simp] theorem done_deadline (s t : State) : (s.done t).deadline = t.deadline := rfl
@[simp] theorem draw_tickWork (s : State) (w : Nat) : (s.draw w).2.tickWork = s.tickWork := rfl
@[simp] theorem drawBytes_tickWork (s : State) (w : Nat) : (s.drawBytes w).2.tickWork = s.tickWork := rfl
@[simp] theorem done_tickWork (s t : State) : (s.done t).tickWork = t.tickWork := rfl
@[simp] theorem draw_ttx (s : State) (w : Nat) : (s.draw w).2.ttx = s.ttx := rfl
@[simp] theorem drawBytes_ttx (s : State) (w : Nat) : (s.drawBytes w).2.ttx = s.ttx := rfl
@[simp] theorem done_ttx (s t : State) : (s.done t).ttx = t.ttx := rfl
@[simp] theorem draw_terms (s : State) (w : Nat) : (s.draw w).2.terms = s.terms := rfl
@[simp] theorem drawBytes_terms (s : State) (w : Nat) : (s.drawBytes w).2.terms = s.terms := rfl
@[simp] theorem done_terms (s t : State) : (s.done t).terms = t.terms := rfl
@[simp] theorem draw_sxt (s : State) (w : Nat) : (s.draw w).2.sxt = s.sxt := rfl
@[simp] theorem drawBytes_sxt (s : State) (w : Nat) : (s.drawBytes w).2.sxt = s.sxt := rfl
@[simp] theorem done_sxt (s t : State) : (s.done t).sxt = t.sxt := rfl
@[simp] theorem draw_tsi (s : State) (w : Nat) : (s.draw w).2.tsi = s.tsi := rfl
@[simp] theorem drawBytes_tsi (s : State) (w : Nat) : (s.drawBytes w).2.tsi = s.tsi := rfl
@[simp] theorem done_tsi (s t : State) : (s.done t).tsi = t.tsi := rfl
@[simp] theorem draw_alm (s : State) (w : Nat) : (s.draw w).2.alm = s.alm := rfl
@[simp] theorem drawBytes_alm (s : State) (w : Nat) : (s.drawBytes w).2.alm = s.alm := rfl
@[simp] theorem done_alm (s t : State) : (s.done t).alm = t.alm := rfl
@[simp] theorem draw_ciph (s : State) (w : Nat) : (s.draw w).2.ciph = s.ciph := rfl
@[simp] theorem drawBytes_ciph (s : State) (w : Nat) : (s.drawBytes w).2.ciph = s.ciph := rfl
@[simp] theorem done_ciph (s t : State) : (s.done t).ciph = t.ciph := rfl
@[simp] theorem draw_orr (s : State) (w : Nat) : (s.draw w).2.orr = s.orr := rfl
@[simp] theorem drawBytes_orr (s : State) (w : Nat) : (s.drawBytes w).2.orr = s.orr := rfl
@[simp] theorem done_orr (s t : State) : (s.done t).orr = t.orr := rfl
@[simp] theorem draw_trx (s : State) (w : Nat) : (s.draw w).2.trx = s.trx := rfl
@[simp] theorem drawBytes_trx (s : State) (w : Nat) : (s.drawBytes w).2.trx = s.trx := rfl
@[simp] theorem done_trx (s t : State) : (s.done t).trx = t.trx := rfl
@[simp] theorem draw_fwdIn (s : State) (w : Nat) : (s.draw w).2.fwdIn = s.fwdIn := rfl
@[simp] theorem drawBytes_fwdIn (s : State) (w : Nat) : (s.drawBytes w).2.fwdIn = s.fwdIn := rfl
@[simp] theorem done_fwdIn (s t : State) : (s.done t).fwdIn = t.fwdIn := rfl
@[simp] theorem draw_pair (s : State) (w : Nat) : (s.draw w).2.pair = s.pair := rfl
@[simp] theorem drawBytes_pair (s : State) (w : Nat) : (s.drawBytes w).2.pair = s.pair := rfl
@[simp] theorem done_pair (s t : State) : (s.done t).pair = t.pair := rfl
@[simp] theorem draw_ka (s : State) (w : Nat) : (s.draw w).2.ka = s.ka := rfl
@[simp] theorem drawBytes_ka (s : State) (w : Nat) : (s.drawBytes w).2.ka = s.ka := rfl
@[simp] theorem done_ka (s t : State) : (s.done t).ka = t.ka := rfl
@[simp] theorem draw_msec (s : State) (w : Nat) : (s.draw w).2.msec = s.msec := rfl
@[simp] theorem drawBytes_msec (s : State) (w : Nat) : (s.drawBytes w).2.msec = s.msec := rfl
@[simp] theorem done_msec (s t : State) : (s.done t).msec = t.msec := rfl
@[simp] theorem draw_sent (s : State) (w : Nat) : (s.draw w).2.sent = s.sent := rfl
@[simp] theorem drawBytes_sent (s : State) (w : Nat) : (s.drawBytes w).2.sent = s.sent := rfl
@[simp] theorem done_sent (s t : State) : (s.done t).sent = t.sent := rfl
@[simp] theorem draw_mail (s : State) (w : Nat) : (s.draw w).2.mail = s.mail := rfl
@[simp] theorem drawBytes_mail (s : State) (w : Nat) : (s.drawBytes w).2.mail = s.mail := rfl
@[simp] theorem done_mail (s t : State) : (s.done t).mail = t.mail := rfl
@[simp] theorem draw_navIn (s : State) (w : Nat) : (s.draw w).2.navIn = s.navIn := rfl
@[simp] theorem drawBytes_navIn (s : State) (w : Nat) : (s.drawBytes w).2.navIn = s.navIn := rfl
@[simp] theorem done_navIn (s t : State) : (s.done t).navIn = t.navIn := rfl
@[simp] theorem draw_injDone (s : State) (w : Nat) : (s.draw w).2.injDone = s.injDone := rfl
@[simp] theorem drawBytes_injDone (s : State) (w : Nat) : (s.drawBytes w).2.injDone = s.injDone := rfl
@[simp] theorem done_injDone (s t : State) : (s.done t).injDone = t.injDone := rfl
@[simp] theorem draw_fwd (s : State) (w : Nat) : (s.draw w).2.fwd = s.fwd := rfl
@[simp] theorem drawBytes_fwd (s : State) (w : Nat) : (s.drawBytes w).2.fwd = s.fwd := rfl
@[simp] theorem done_fwd (s t : State) : (s.done t).fwd = t.fwd := rfl
@[simp] theorem draw_xin (s : State) (w : Nat) : (s.draw w).2.xin = s.xin := rfl
@[simp] theorem drawBytes_xin (s : State) (w : Nat) : (s.drawBytes w).2.xin = s.xin := rfl
@[simp] theorem done_xin (s t : State) : (s.done t).xin = t.xin := rfl
@[simp] theorem draw_qin (s : State) (w : Nat) : (s.draw w).2.qin = s.qin := rfl
@[simp] theorem drawBytes_qin (s : State) (w : Nat) : (s.drawBytes w).2.qin = s.qin := rfl
@[simp] theorem done_qin (s t : State) : (s.done t).qin = t.qin := rfl
@[simp] theorem draw_hostIn (s : State) (w : Nat) : (s.draw w).2.hostIn = s.hostIn := rfl
@[simp] theorem drawBytes_hostIn (s : State) (w : Nat) : (s.drawBytes w).2.hostIn = s.hostIn := rfl
@[simp] theorem done_hostIn (s t : State) : (s.done t).hostIn = t.hostIn := rfl
@[simp] theorem draw_qsch (s : State) (w : Nat) : (s.draw w).2.qsch = s.qsch := rfl
@[simp] theorem drawBytes_qsch (s : State) (w : Nat) : (s.drawBytes w).2.qsch = s.qsch := rfl
@[simp] theorem done_qsch (s t : State) : (s.done t).qsch = t.qsch := rfl
@[simp] theorem draw_buf (s : State) (w : Nat) : (s.draw w).2.buf = s.buf := rfl
@[simp] theorem drawBytes_buf (s : State) (w : Nat) : (s.drawBytes w).2.buf = s.buf := rfl
@[simp] theorem done_buf (s t : State) : (s.done t).buf = t.buf := rfl
@[simp] theorem draw_gate (s : State) (w : Nat) : (s.draw w).2.gate = s.gate := rfl
@[simp] theorem drawBytes_gate (s : State) (w : Nat) : (s.drawBytes w).2.gate = s.gate := rfl
@[simp] theorem done_gate (s t : State) : (s.done t).gate = t.gate := rfl
@[simp] theorem draw_ckt (s : State) (w : Nat) : (s.draw w).2.ckt = s.ckt := rfl
@[simp] theorem drawBytes_ckt (s : State) (w : Nat) : (s.drawBytes w).2.ckt = s.ckt := rfl
@[simp] theorem done_ckt (s t : State) : (s.done t).ckt = t.ckt := rfl
@[simp] theorem draw_ages (s : State) (w : Nat) : (s.draw w).2.ages = s.ages := rfl
@[simp] theorem drawBytes_ages (s : State) (w : Nat) : (s.drawBytes w).2.ages = s.ages := rfl
@[simp] theorem done_ages (s t : State) : (s.done t).ages = t.ages := rfl
@[simp] theorem draw_ovrAt (s : State) (w : Nat) : (s.draw w).2.ovrAt = s.ovrAt := rfl
@[simp] theorem drawBytes_ovrAt (s : State) (w : Nat) : (s.drawBytes w).2.ovrAt = s.ovrAt := rfl
@[simp] theorem done_ovrAt (s t : State) : (s.done t).ovrAt = t.ovrAt := rfl
@[simp] theorem draw_nav (s : State) (w : Nat) : (s.draw w).2.nav = s.nav := rfl
@[simp] theorem drawBytes_nav (s : State) (w : Nat) : (s.drawBytes w).2.nav = s.nav := rfl
@[simp] theorem done_nav (s t : State) : (s.done t).nav = t.nav := rfl
@[simp] theorem draw_navc (s : State) (w : Nat) : (s.draw w).2.navc = s.navc := rfl
@[simp] theorem drawBytes_navc (s : State) (w : Nat) : (s.drawBytes w).2.navc = s.navc := rfl
@[simp] theorem done_navc (s t : State) : (s.done t).navc = t.navc := rfl
@[simp] theorem draw_nmem (s : State) (w : Nat) : (s.draw w).2.nmem = s.nmem := rfl
@[simp] theorem drawBytes_nmem (s : State) (w : Nat) : (s.drawBytes w).2.nmem = s.nmem := rfl
@[simp] theorem done_nmem (s t : State) : (s.done t).nmem = t.nmem := rfl
@[simp] theorem draw_nbad (s : State) (w : Nat) : (s.draw w).2.nbad = s.nbad := rfl
@[simp] theorem drawBytes_nbad (s : State) (w : Nat) : (s.drawBytes w).2.nbad = s.nbad := rfl
@[simp] theorem done_nbad (s t : State) : (s.done t).nbad = t.nbad := rfl
@[simp] theorem draw_posts (s : State) (w : Nat) : (s.draw w).2.posts = s.posts := rfl
@[simp] theorem drawBytes_posts (s : State) (w : Nat) : (s.drawBytes w).2.posts = s.posts := rfl
@[simp] theorem done_posts (s t : State) : (s.done t).posts = t.posts := rfl
@[simp] theorem draw_qmap (s : State) (w : Nat) : (s.draw w).2.qmap = s.qmap := rfl
@[simp] theorem drawBytes_qmap (s : State) (w : Nat) : (s.drawBytes w).2.qmap = s.qmap := rfl
@[simp] theorem done_qmap (s t : State) : (s.done t).qmap = t.qmap := rfl
@[simp] theorem draw_qhold (s : State) (w : Nat) : (s.draw w).2.qhold = s.qhold := rfl
@[simp] theorem drawBytes_qhold (s : State) (w : Nat) : (s.drawBytes w).2.qhold = s.qhold := rfl
@[simp] theorem done_qhold (s t : State) : (s.done t).qhold = t.qhold := rfl
@[simp] theorem draw_sealS (s : State) (w : Nat) : (s.draw w).2.sealS = s.sealS := rfl
@[simp] theorem drawBytes_sealS (s : State) (w : Nat) : (s.drawBytes w).2.sealS = s.sealS := rfl
@[simp] theorem done_sealS (s t : State) : (s.done t).sealS = t.sealS := rfl
@[simp] theorem draw_ser (s : State) (w : Nat) : (s.draw w).2.ser = s.ser := rfl
@[simp] theorem drawBytes_ser (s : State) (w : Nat) : (s.drawBytes w).2.ser = s.ser := rfl
@[simp] theorem done_ser (s t : State) : (s.done t).ser = t.ser := rfl
@[simp] theorem done_rd (s t : State) (q : Nat) : (s.done t).rd q = t.rd q := rfl
@[simp] theorem done_reg (s t : State) (q : RegId) (z : Nat) : (s.done t).reg q z = t.reg q z := rfl
@[simp] theorem done_regI (s t : State) (q : RegId) (z y : Nat) : (s.done t).regI q z y = t.regI q z y := rfl
@[simp] theorem done_fld (s t : State) (q : FldId) (z y : Nat) : (s.done t).fld q z y = t.fld q z y := rfl
@[simp] theorem done_flag (s t : State) (q : FldId) (z y : Nat) : (s.done t).flag q z y = t.flag q z y := rfl
@[simp] theorem done_reg64 (s t : State) (q : RegId) (z : Nat) : (s.done t).reg64 q z = t.reg64 q z := rfl


@[simp] theorem done_isActive (s t : State) : (s.done t).isActive = t.isActive := rfl
@[simp] theorem done_mirrorSt (s t : State) : (s.done t).mirrorSt = t.mirrorSt := rfl

/-! ## Counting touches the register file alone -/

theorem intOpt_only (s : State) (a b : Nat) (o : Option Nat) : s.intOpt a b o = { s with regs := (s.intOpt a b o).regs } := by
  cases o <;> rfl

@[simp] theorem intOpt_part (s : State) (a b : Nat) (o : Option Nat) : (s.intOpt a b o).part = s.part := (congrArg State.part (intOpt_only s a b o)).trans rfl
@[simp] theorem intOpt_pending (s : State) (a b : Nat) (o : Option Nat) : (s.intOpt a b o).pending = s.pending := (congrArg State.pending (intOpt_only s a b o)).trans rfl
@[simp] theorem intOpt_seen (s : State) (a b : Nat) (o : Option Nat) : (s.intOpt a b o).seen = s.seen := (congrArg State.seen (intOpt_only s a b o)).trans rfl
@[simp] theorem intOpt_rwo (s : State) (a b : Nat) (o : Option Nat) : (s.intOpt a b o).rwo = s.rwo := (congrArg State.rwo (intOpt_only s a b o)).trans rfl
@[simp] theorem intOpt_pr (s : State) (a b : Nat) (o : Option Nat) : (s.intOpt a b o).pr = s.pr := (congrArg State.pr (intOpt_only s a b o)).trans rfl
@[simp] theorem intOpt_fresh (s : State) (a b : Nat) (o : Option Nat) : (s.intOpt a b o).fresh = s.fresh := (congrArg State.fresh (intOpt_only s a b o)).trans rfl
@[simp] theorem intOpt_halted (s : State) (a b : Nat) (o : Option Nat) : (s.intOpt a b o).halted = s.halted := (congrArg State.halted (intOpt_only s a b o)).trans rfl
@[simp] theorem intOpt_bin (s : State) (a b : Nat) (o : Option Nat) : (s.intOpt a b o).bin = s.bin := (congrArg State.bin (intOpt_only s a b o)).trans rfl
@[simp] theorem intOpt_hif (s : State) (a b : Nat) (o : Option Nat) : (s.intOpt a b o).hif = s.hif := (congrArg State.hif (intOpt_only s a b o)).trans rfl
@[simp] theorem intOpt_crc (s : State) (a b : Nat) (o : Option Nat) : (s.intOpt a b o).crc = s.crc := (congrArg State.crc (intOpt_only s a b o)).trans rfl
@[simp] theorem intOpt_pmc (s : State) (a b : Nat) (o : Option Nat) : (s.intOpt a b o).pmc = s.pmc := (congrArg State.pmc (intOpt_only s a b o)).trans rfl
@[simp] theorem intOpt_lcs (s : State) (a b : Nat) (o : Option Nat) : (s.intOpt a b o).lcs = s.lcs := (congrArg State.lcs (intOpt_only s a b o)).trans rfl
@[simp] theorem intOpt_tm (s : State) (a b : Nat) (o : Option Nat) : (s.intOpt a b o).tm = s.tm := (congrArg State.tm (intOpt_only s a b o)).trans rfl
@[simp] theorem intOpt_deadline (s : State) (a b : Nat) (o : Option Nat) : (s.intOpt a b o).deadline = s.deadline := (congrArg State.deadline (intOpt_only s a b o)).trans rfl
@[simp] theorem intOpt_tickWork (s : State) (a b : Nat) (o : Option Nat) : (s.intOpt a b o).tickWork = s.tickWork := (congrArg State.tickWork (intOpt_only s a b o)).trans rfl
@[simp] theorem intOpt_ttx (s : State) (a b : Nat) (o : Option Nat) : (s.intOpt a b o).ttx = s.ttx := (congrArg State.ttx (intOpt_only s a b o)).trans rfl
@[simp] theorem intOpt_terms (s : State) (a b : Nat) (o : Option Nat) : (s.intOpt a b o).terms = s.terms := (congrArg State.terms (intOpt_only s a b o)).trans rfl
@[simp] theorem intOpt_sxt (s : State) (a b : Nat) (o : Option Nat) : (s.intOpt a b o).sxt = s.sxt := (congrArg State.sxt (intOpt_only s a b o)).trans rfl
@[simp] theorem intOpt_tsi (s : State) (a b : Nat) (o : Option Nat) : (s.intOpt a b o).tsi = s.tsi := (congrArg State.tsi (intOpt_only s a b o)).trans rfl
@[simp] theorem intOpt_alm (s : State) (a b : Nat) (o : Option Nat) : (s.intOpt a b o).alm = s.alm := (congrArg State.alm (intOpt_only s a b o)).trans rfl
@[simp] theorem intOpt_ciph (s : State) (a b : Nat) (o : Option Nat) : (s.intOpt a b o).ciph = s.ciph := (congrArg State.ciph (intOpt_only s a b o)).trans rfl
@[simp] theorem intOpt_orr (s : State) (a b : Nat) (o : Option Nat) : (s.intOpt a b o).orr = s.orr := (congrArg State.orr (intOpt_only s a b o)).trans rfl
@[simp] theorem intOpt_trx (s : State) (a b : Nat) (o : Option Nat) : (s.intOpt a b o).trx = s.trx := (congrArg State.trx (intOpt_only s a b o)).trans rfl
@[simp] theorem intOpt_fwdIn (s : State) (a b : Nat) (o : Option Nat) : (s.intOpt a b o).fwdIn = s.fwdIn := (congrArg State.fwdIn (intOpt_only s a b o)).trans rfl
@[simp] theorem intOpt_pair (s : State) (a b : Nat) (o : Option Nat) : (s.intOpt a b o).pair = s.pair := (congrArg State.pair (intOpt_only s a b o)).trans rfl
@[simp] theorem intOpt_ka (s : State) (a b : Nat) (o : Option Nat) : (s.intOpt a b o).ka = s.ka := (congrArg State.ka (intOpt_only s a b o)).trans rfl
@[simp] theorem intOpt_msec (s : State) (a b : Nat) (o : Option Nat) : (s.intOpt a b o).msec = s.msec := (congrArg State.msec (intOpt_only s a b o)).trans rfl
@[simp] theorem intOpt_sent (s : State) (a b : Nat) (o : Option Nat) : (s.intOpt a b o).sent = s.sent := (congrArg State.sent (intOpt_only s a b o)).trans rfl
@[simp] theorem intOpt_mail (s : State) (a b : Nat) (o : Option Nat) : (s.intOpt a b o).mail = s.mail := (congrArg State.mail (intOpt_only s a b o)).trans rfl
@[simp] theorem intOpt_navIn (s : State) (a b : Nat) (o : Option Nat) : (s.intOpt a b o).navIn = s.navIn := (congrArg State.navIn (intOpt_only s a b o)).trans rfl
@[simp] theorem intOpt_injDone (s : State) (a b : Nat) (o : Option Nat) : (s.intOpt a b o).injDone = s.injDone := (congrArg State.injDone (intOpt_only s a b o)).trans rfl
@[simp] theorem intOpt_fwd (s : State) (a b : Nat) (o : Option Nat) : (s.intOpt a b o).fwd = s.fwd := (congrArg State.fwd (intOpt_only s a b o)).trans rfl
@[simp] theorem intOpt_xin (s : State) (a b : Nat) (o : Option Nat) : (s.intOpt a b o).xin = s.xin := (congrArg State.xin (intOpt_only s a b o)).trans rfl
@[simp] theorem intOpt_qin (s : State) (a b : Nat) (o : Option Nat) : (s.intOpt a b o).qin = s.qin := (congrArg State.qin (intOpt_only s a b o)).trans rfl
@[simp] theorem intOpt_hostIn (s : State) (a b : Nat) (o : Option Nat) : (s.intOpt a b o).hostIn = s.hostIn := (congrArg State.hostIn (intOpt_only s a b o)).trans rfl
@[simp] theorem intOpt_qsch (s : State) (a b : Nat) (o : Option Nat) : (s.intOpt a b o).qsch = s.qsch := (congrArg State.qsch (intOpt_only s a b o)).trans rfl
@[simp] theorem intOpt_buf (s : State) (a b : Nat) (o : Option Nat) : (s.intOpt a b o).buf = s.buf := (congrArg State.buf (intOpt_only s a b o)).trans rfl
@[simp] theorem intOpt_gate (s : State) (a b : Nat) (o : Option Nat) : (s.intOpt a b o).gate = s.gate := (congrArg State.gate (intOpt_only s a b o)).trans rfl
@[simp] theorem intOpt_ckt (s : State) (a b : Nat) (o : Option Nat) : (s.intOpt a b o).ckt = s.ckt := (congrArg State.ckt (intOpt_only s a b o)).trans rfl
@[simp] theorem intOpt_ages (s : State) (a b : Nat) (o : Option Nat) : (s.intOpt a b o).ages = s.ages := (congrArg State.ages (intOpt_only s a b o)).trans rfl
@[simp] theorem intOpt_ovrAt (s : State) (a b : Nat) (o : Option Nat) : (s.intOpt a b o).ovrAt = s.ovrAt := (congrArg State.ovrAt (intOpt_only s a b o)).trans rfl
@[simp] theorem intOpt_nav (s : State) (a b : Nat) (o : Option Nat) : (s.intOpt a b o).nav = s.nav := (congrArg State.nav (intOpt_only s a b o)).trans rfl
@[simp] theorem intOpt_navc (s : State) (a b : Nat) (o : Option Nat) : (s.intOpt a b o).navc = s.navc := (congrArg State.navc (intOpt_only s a b o)).trans rfl
@[simp] theorem intOpt_nmem (s : State) (a b : Nat) (o : Option Nat) : (s.intOpt a b o).nmem = s.nmem := (congrArg State.nmem (intOpt_only s a b o)).trans rfl
@[simp] theorem intOpt_nbad (s : State) (a b : Nat) (o : Option Nat) : (s.intOpt a b o).nbad = s.nbad := (congrArg State.nbad (intOpt_only s a b o)).trans rfl
@[simp] theorem intOpt_posts (s : State) (a b : Nat) (o : Option Nat) : (s.intOpt a b o).posts = s.posts := (congrArg State.posts (intOpt_only s a b o)).trans rfl
@[simp] theorem intOpt_qmap (s : State) (a b : Nat) (o : Option Nat) : (s.intOpt a b o).qmap = s.qmap := (congrArg State.qmap (intOpt_only s a b o)).trans rfl
@[simp] theorem intOpt_qhold (s : State) (a b : Nat) (o : Option Nat) : (s.intOpt a b o).qhold = s.qhold := (congrArg State.qhold (intOpt_only s a b o)).trans rfl
@[simp] theorem intOpt_sealS (s : State) (a b : Nat) (o : Option Nat) : (s.intOpt a b o).sealS = s.sealS := (congrArg State.sealS (intOpt_only s a b o)).trans rfl
@[simp] theorem intOpt_ser (s : State) (a b : Nat) (o : Option Nat) : (s.intOpt a b o).ser = s.ser := (congrArg State.ser (intOpt_only s a b o)).trans rfl
@[simp] theorem intOpt_present (s : State) (a b : Nat) (o : Option Nat) (q z : Nat) : (s.intOpt a b o).present q z = s.present q z := (congrArg (fun (s : State) => s.present q z) (intOpt_only s a b o)).trans rfl
@[simp] theorem intOpt_off (s : State) (a b : Nat) (o : Option Nat) : (s.intOpt a b o).off = s.off := (congrArg (fun (s : State) => s.off ) (intOpt_only s a b o)).trans rfl
@[simp] theorem intOpt_tick (s : State) (a b : Nat) (o : Option Nat) : (s.intOpt a b o).tick = s.tick := (congrArg (fun (s : State) => s.tick ) (intOpt_only s a b o)).trans rfl

theorem countN_only (s : State) (r : RegId) (i n : Nat) : s.countN r i n = { s with regs := (s.countN r i n).regs } := by
  unfold State.countN; split; · rfl
  rw [intOpt_only]; rfl

@[simp] theorem countN_part (s : State) (r : RegId) (i n : Nat) : (s.countN r i n).part = s.part := (congrArg State.part (countN_only s r i n)).trans rfl
@[simp] theorem countN_pending (s : State) (r : RegId) (i n : Nat) : (s.countN r i n).pending = s.pending := (congrArg State.pending (countN_only s r i n)).trans rfl
@[simp] theorem countN_seen (s : State) (r : RegId) (i n : Nat) : (s.countN r i n).seen = s.seen := (congrArg State.seen (countN_only s r i n)).trans rfl
@[simp] theorem countN_rwo (s : State) (r : RegId) (i n : Nat) : (s.countN r i n).rwo = s.rwo := (congrArg State.rwo (countN_only s r i n)).trans rfl
@[simp] theorem countN_pr (s : State) (r : RegId) (i n : Nat) : (s.countN r i n).pr = s.pr := (congrArg State.pr (countN_only s r i n)).trans rfl
@[simp] theorem countN_fresh (s : State) (r : RegId) (i n : Nat) : (s.countN r i n).fresh = s.fresh := (congrArg State.fresh (countN_only s r i n)).trans rfl
@[simp] theorem countN_halted (s : State) (r : RegId) (i n : Nat) : (s.countN r i n).halted = s.halted := (congrArg State.halted (countN_only s r i n)).trans rfl
@[simp] theorem countN_bin (s : State) (r : RegId) (i n : Nat) : (s.countN r i n).bin = s.bin := (congrArg State.bin (countN_only s r i n)).trans rfl
@[simp] theorem countN_hif (s : State) (r : RegId) (i n : Nat) : (s.countN r i n).hif = s.hif := (congrArg State.hif (countN_only s r i n)).trans rfl
@[simp] theorem countN_crc (s : State) (r : RegId) (i n : Nat) : (s.countN r i n).crc = s.crc := (congrArg State.crc (countN_only s r i n)).trans rfl
@[simp] theorem countN_pmc (s : State) (r : RegId) (i n : Nat) : (s.countN r i n).pmc = s.pmc := (congrArg State.pmc (countN_only s r i n)).trans rfl
@[simp] theorem countN_lcs (s : State) (r : RegId) (i n : Nat) : (s.countN r i n).lcs = s.lcs := (congrArg State.lcs (countN_only s r i n)).trans rfl
@[simp] theorem countN_tm (s : State) (r : RegId) (i n : Nat) : (s.countN r i n).tm = s.tm := (congrArg State.tm (countN_only s r i n)).trans rfl
@[simp] theorem countN_deadline (s : State) (r : RegId) (i n : Nat) : (s.countN r i n).deadline = s.deadline := (congrArg State.deadline (countN_only s r i n)).trans rfl
@[simp] theorem countN_tickWork (s : State) (r : RegId) (i n : Nat) : (s.countN r i n).tickWork = s.tickWork := (congrArg State.tickWork (countN_only s r i n)).trans rfl
@[simp] theorem countN_ttx (s : State) (r : RegId) (i n : Nat) : (s.countN r i n).ttx = s.ttx := (congrArg State.ttx (countN_only s r i n)).trans rfl
@[simp] theorem countN_terms (s : State) (r : RegId) (i n : Nat) : (s.countN r i n).terms = s.terms := (congrArg State.terms (countN_only s r i n)).trans rfl
@[simp] theorem countN_sxt (s : State) (r : RegId) (i n : Nat) : (s.countN r i n).sxt = s.sxt := (congrArg State.sxt (countN_only s r i n)).trans rfl
@[simp] theorem countN_tsi (s : State) (r : RegId) (i n : Nat) : (s.countN r i n).tsi = s.tsi := (congrArg State.tsi (countN_only s r i n)).trans rfl
@[simp] theorem countN_alm (s : State) (r : RegId) (i n : Nat) : (s.countN r i n).alm = s.alm := (congrArg State.alm (countN_only s r i n)).trans rfl
@[simp] theorem countN_ciph (s : State) (r : RegId) (i n : Nat) : (s.countN r i n).ciph = s.ciph := (congrArg State.ciph (countN_only s r i n)).trans rfl
@[simp] theorem countN_orr (s : State) (r : RegId) (i n : Nat) : (s.countN r i n).orr = s.orr := (congrArg State.orr (countN_only s r i n)).trans rfl
@[simp] theorem countN_trx (s : State) (r : RegId) (i n : Nat) : (s.countN r i n).trx = s.trx := (congrArg State.trx (countN_only s r i n)).trans rfl
@[simp] theorem countN_fwdIn (s : State) (r : RegId) (i n : Nat) : (s.countN r i n).fwdIn = s.fwdIn := (congrArg State.fwdIn (countN_only s r i n)).trans rfl
@[simp] theorem countN_pair (s : State) (r : RegId) (i n : Nat) : (s.countN r i n).pair = s.pair := (congrArg State.pair (countN_only s r i n)).trans rfl
@[simp] theorem countN_ka (s : State) (r : RegId) (i n : Nat) : (s.countN r i n).ka = s.ka := (congrArg State.ka (countN_only s r i n)).trans rfl
@[simp] theorem countN_msec (s : State) (r : RegId) (i n : Nat) : (s.countN r i n).msec = s.msec := (congrArg State.msec (countN_only s r i n)).trans rfl
@[simp] theorem countN_sent (s : State) (r : RegId) (i n : Nat) : (s.countN r i n).sent = s.sent := (congrArg State.sent (countN_only s r i n)).trans rfl
@[simp] theorem countN_mail (s : State) (r : RegId) (i n : Nat) : (s.countN r i n).mail = s.mail := (congrArg State.mail (countN_only s r i n)).trans rfl
@[simp] theorem countN_navIn (s : State) (r : RegId) (i n : Nat) : (s.countN r i n).navIn = s.navIn := (congrArg State.navIn (countN_only s r i n)).trans rfl
@[simp] theorem countN_injDone (s : State) (r : RegId) (i n : Nat) : (s.countN r i n).injDone = s.injDone := (congrArg State.injDone (countN_only s r i n)).trans rfl
@[simp] theorem countN_fwd (s : State) (r : RegId) (i n : Nat) : (s.countN r i n).fwd = s.fwd := (congrArg State.fwd (countN_only s r i n)).trans rfl
@[simp] theorem countN_xin (s : State) (r : RegId) (i n : Nat) : (s.countN r i n).xin = s.xin := (congrArg State.xin (countN_only s r i n)).trans rfl
@[simp] theorem countN_qin (s : State) (r : RegId) (i n : Nat) : (s.countN r i n).qin = s.qin := (congrArg State.qin (countN_only s r i n)).trans rfl
@[simp] theorem countN_hostIn (s : State) (r : RegId) (i n : Nat) : (s.countN r i n).hostIn = s.hostIn := (congrArg State.hostIn (countN_only s r i n)).trans rfl
@[simp] theorem countN_qsch (s : State) (r : RegId) (i n : Nat) : (s.countN r i n).qsch = s.qsch := (congrArg State.qsch (countN_only s r i n)).trans rfl
@[simp] theorem countN_buf (s : State) (r : RegId) (i n : Nat) : (s.countN r i n).buf = s.buf := (congrArg State.buf (countN_only s r i n)).trans rfl
@[simp] theorem countN_gate (s : State) (r : RegId) (i n : Nat) : (s.countN r i n).gate = s.gate := (congrArg State.gate (countN_only s r i n)).trans rfl
@[simp] theorem countN_ckt (s : State) (r : RegId) (i n : Nat) : (s.countN r i n).ckt = s.ckt := (congrArg State.ckt (countN_only s r i n)).trans rfl
@[simp] theorem countN_ages (s : State) (r : RegId) (i n : Nat) : (s.countN r i n).ages = s.ages := (congrArg State.ages (countN_only s r i n)).trans rfl
@[simp] theorem countN_ovrAt (s : State) (r : RegId) (i n : Nat) : (s.countN r i n).ovrAt = s.ovrAt := (congrArg State.ovrAt (countN_only s r i n)).trans rfl
@[simp] theorem countN_nav (s : State) (r : RegId) (i n : Nat) : (s.countN r i n).nav = s.nav := (congrArg State.nav (countN_only s r i n)).trans rfl
@[simp] theorem countN_navc (s : State) (r : RegId) (i n : Nat) : (s.countN r i n).navc = s.navc := (congrArg State.navc (countN_only s r i n)).trans rfl
@[simp] theorem countN_nmem (s : State) (r : RegId) (i n : Nat) : (s.countN r i n).nmem = s.nmem := (congrArg State.nmem (countN_only s r i n)).trans rfl
@[simp] theorem countN_nbad (s : State) (r : RegId) (i n : Nat) : (s.countN r i n).nbad = s.nbad := (congrArg State.nbad (countN_only s r i n)).trans rfl
@[simp] theorem countN_posts (s : State) (r : RegId) (i n : Nat) : (s.countN r i n).posts = s.posts := (congrArg State.posts (countN_only s r i n)).trans rfl
@[simp] theorem countN_qmap (s : State) (r : RegId) (i n : Nat) : (s.countN r i n).qmap = s.qmap := (congrArg State.qmap (countN_only s r i n)).trans rfl
@[simp] theorem countN_qhold (s : State) (r : RegId) (i n : Nat) : (s.countN r i n).qhold = s.qhold := (congrArg State.qhold (countN_only s r i n)).trans rfl
@[simp] theorem countN_sealS (s : State) (r : RegId) (i n : Nat) : (s.countN r i n).sealS = s.sealS := (congrArg State.sealS (countN_only s r i n)).trans rfl
@[simp] theorem countN_ser (s : State) (r : RegId) (i n : Nat) : (s.countN r i n).ser = s.ser := (congrArg State.ser (countN_only s r i n)).trans rfl
@[simp] theorem countN_present (s : State) (r : RegId) (i n : Nat) (q z : Nat) : (s.countN r i n).present q z = s.present q z := (congrArg (fun (s : State) => s.present q z) (countN_only s r i n)).trans rfl
@[simp] theorem countN_off (s : State) (r : RegId) (i n : Nat) : (s.countN r i n).off = s.off := (congrArg (fun (s : State) => s.off ) (countN_only s r i n)).trans rfl
@[simp] theorem countN_tick (s : State) (r : RegId) (i n : Nat) : (s.countN r i n).tick = s.tick := (congrArg (fun (s : State) => s.tick ) (countN_only s r i n)).trans rfl

theorem count_only (s : State) (r : RegId) (i : Nat) : s.count r i = { s with regs := (s.count r i).regs } := by
  exact countN_only s r i 1

@[simp] theorem count_part (s : State) (r : RegId) (i : Nat) : (s.count r i).part = s.part := (congrArg State.part (count_only s r i)).trans rfl
@[simp] theorem count_pending (s : State) (r : RegId) (i : Nat) : (s.count r i).pending = s.pending := (congrArg State.pending (count_only s r i)).trans rfl
@[simp] theorem count_seen (s : State) (r : RegId) (i : Nat) : (s.count r i).seen = s.seen := (congrArg State.seen (count_only s r i)).trans rfl
@[simp] theorem count_rwo (s : State) (r : RegId) (i : Nat) : (s.count r i).rwo = s.rwo := (congrArg State.rwo (count_only s r i)).trans rfl
@[simp] theorem count_pr (s : State) (r : RegId) (i : Nat) : (s.count r i).pr = s.pr := (congrArg State.pr (count_only s r i)).trans rfl
@[simp] theorem count_fresh (s : State) (r : RegId) (i : Nat) : (s.count r i).fresh = s.fresh := (congrArg State.fresh (count_only s r i)).trans rfl
@[simp] theorem count_halted (s : State) (r : RegId) (i : Nat) : (s.count r i).halted = s.halted := (congrArg State.halted (count_only s r i)).trans rfl
@[simp] theorem count_bin (s : State) (r : RegId) (i : Nat) : (s.count r i).bin = s.bin := (congrArg State.bin (count_only s r i)).trans rfl
@[simp] theorem count_hif (s : State) (r : RegId) (i : Nat) : (s.count r i).hif = s.hif := (congrArg State.hif (count_only s r i)).trans rfl
@[simp] theorem count_crc (s : State) (r : RegId) (i : Nat) : (s.count r i).crc = s.crc := (congrArg State.crc (count_only s r i)).trans rfl
@[simp] theorem count_pmc (s : State) (r : RegId) (i : Nat) : (s.count r i).pmc = s.pmc := (congrArg State.pmc (count_only s r i)).trans rfl
@[simp] theorem count_lcs (s : State) (r : RegId) (i : Nat) : (s.count r i).lcs = s.lcs := (congrArg State.lcs (count_only s r i)).trans rfl
@[simp] theorem count_tm (s : State) (r : RegId) (i : Nat) : (s.count r i).tm = s.tm := (congrArg State.tm (count_only s r i)).trans rfl
@[simp] theorem count_deadline (s : State) (r : RegId) (i : Nat) : (s.count r i).deadline = s.deadline := (congrArg State.deadline (count_only s r i)).trans rfl
@[simp] theorem count_tickWork (s : State) (r : RegId) (i : Nat) : (s.count r i).tickWork = s.tickWork := (congrArg State.tickWork (count_only s r i)).trans rfl
@[simp] theorem count_ttx (s : State) (r : RegId) (i : Nat) : (s.count r i).ttx = s.ttx := (congrArg State.ttx (count_only s r i)).trans rfl
@[simp] theorem count_terms (s : State) (r : RegId) (i : Nat) : (s.count r i).terms = s.terms := (congrArg State.terms (count_only s r i)).trans rfl
@[simp] theorem count_sxt (s : State) (r : RegId) (i : Nat) : (s.count r i).sxt = s.sxt := (congrArg State.sxt (count_only s r i)).trans rfl
@[simp] theorem count_tsi (s : State) (r : RegId) (i : Nat) : (s.count r i).tsi = s.tsi := (congrArg State.tsi (count_only s r i)).trans rfl
@[simp] theorem count_alm (s : State) (r : RegId) (i : Nat) : (s.count r i).alm = s.alm := (congrArg State.alm (count_only s r i)).trans rfl
@[simp] theorem count_ciph (s : State) (r : RegId) (i : Nat) : (s.count r i).ciph = s.ciph := (congrArg State.ciph (count_only s r i)).trans rfl
@[simp] theorem count_orr (s : State) (r : RegId) (i : Nat) : (s.count r i).orr = s.orr := (congrArg State.orr (count_only s r i)).trans rfl
@[simp] theorem count_trx (s : State) (r : RegId) (i : Nat) : (s.count r i).trx = s.trx := (congrArg State.trx (count_only s r i)).trans rfl
@[simp] theorem count_fwdIn (s : State) (r : RegId) (i : Nat) : (s.count r i).fwdIn = s.fwdIn := (congrArg State.fwdIn (count_only s r i)).trans rfl
@[simp] theorem count_pair (s : State) (r : RegId) (i : Nat) : (s.count r i).pair = s.pair := (congrArg State.pair (count_only s r i)).trans rfl
@[simp] theorem count_ka (s : State) (r : RegId) (i : Nat) : (s.count r i).ka = s.ka := (congrArg State.ka (count_only s r i)).trans rfl
@[simp] theorem count_msec (s : State) (r : RegId) (i : Nat) : (s.count r i).msec = s.msec := (congrArg State.msec (count_only s r i)).trans rfl
@[simp] theorem count_sent (s : State) (r : RegId) (i : Nat) : (s.count r i).sent = s.sent := (congrArg State.sent (count_only s r i)).trans rfl
@[simp] theorem count_mail (s : State) (r : RegId) (i : Nat) : (s.count r i).mail = s.mail := (congrArg State.mail (count_only s r i)).trans rfl
@[simp] theorem count_navIn (s : State) (r : RegId) (i : Nat) : (s.count r i).navIn = s.navIn := (congrArg State.navIn (count_only s r i)).trans rfl
@[simp] theorem count_injDone (s : State) (r : RegId) (i : Nat) : (s.count r i).injDone = s.injDone := (congrArg State.injDone (count_only s r i)).trans rfl
@[simp] theorem count_fwd (s : State) (r : RegId) (i : Nat) : (s.count r i).fwd = s.fwd := (congrArg State.fwd (count_only s r i)).trans rfl
@[simp] theorem count_xin (s : State) (r : RegId) (i : Nat) : (s.count r i).xin = s.xin := (congrArg State.xin (count_only s r i)).trans rfl
@[simp] theorem count_qin (s : State) (r : RegId) (i : Nat) : (s.count r i).qin = s.qin := (congrArg State.qin (count_only s r i)).trans rfl
@[simp] theorem count_hostIn (s : State) (r : RegId) (i : Nat) : (s.count r i).hostIn = s.hostIn := (congrArg State.hostIn (count_only s r i)).trans rfl
@[simp] theorem count_qsch (s : State) (r : RegId) (i : Nat) : (s.count r i).qsch = s.qsch := (congrArg State.qsch (count_only s r i)).trans rfl
@[simp] theorem count_buf (s : State) (r : RegId) (i : Nat) : (s.count r i).buf = s.buf := (congrArg State.buf (count_only s r i)).trans rfl
@[simp] theorem count_gate (s : State) (r : RegId) (i : Nat) : (s.count r i).gate = s.gate := (congrArg State.gate (count_only s r i)).trans rfl
@[simp] theorem count_ckt (s : State) (r : RegId) (i : Nat) : (s.count r i).ckt = s.ckt := (congrArg State.ckt (count_only s r i)).trans rfl
@[simp] theorem count_ages (s : State) (r : RegId) (i : Nat) : (s.count r i).ages = s.ages := (congrArg State.ages (count_only s r i)).trans rfl
@[simp] theorem count_ovrAt (s : State) (r : RegId) (i : Nat) : (s.count r i).ovrAt = s.ovrAt := (congrArg State.ovrAt (count_only s r i)).trans rfl
@[simp] theorem count_nav (s : State) (r : RegId) (i : Nat) : (s.count r i).nav = s.nav := (congrArg State.nav (count_only s r i)).trans rfl
@[simp] theorem count_navc (s : State) (r : RegId) (i : Nat) : (s.count r i).navc = s.navc := (congrArg State.navc (count_only s r i)).trans rfl
@[simp] theorem count_nmem (s : State) (r : RegId) (i : Nat) : (s.count r i).nmem = s.nmem := (congrArg State.nmem (count_only s r i)).trans rfl
@[simp] theorem count_nbad (s : State) (r : RegId) (i : Nat) : (s.count r i).nbad = s.nbad := (congrArg State.nbad (count_only s r i)).trans rfl
@[simp] theorem count_posts (s : State) (r : RegId) (i : Nat) : (s.count r i).posts = s.posts := (congrArg State.posts (count_only s r i)).trans rfl
@[simp] theorem count_qmap (s : State) (r : RegId) (i : Nat) : (s.count r i).qmap = s.qmap := (congrArg State.qmap (count_only s r i)).trans rfl
@[simp] theorem count_qhold (s : State) (r : RegId) (i : Nat) : (s.count r i).qhold = s.qhold := (congrArg State.qhold (count_only s r i)).trans rfl
@[simp] theorem count_sealS (s : State) (r : RegId) (i : Nat) : (s.count r i).sealS = s.sealS := (congrArg State.sealS (count_only s r i)).trans rfl
@[simp] theorem count_ser (s : State) (r : RegId) (i : Nat) : (s.count r i).ser = s.ser := (congrArg State.ser (count_only s r i)).trans rfl
@[simp] theorem count_present (s : State) (r : RegId) (i : Nat) (q z : Nat) : (s.count r i).present q z = s.present q z := (congrArg (fun (s : State) => s.present q z) (count_only s r i)).trans rfl
@[simp] theorem count_off (s : State) (r : RegId) (i : Nat) : (s.count r i).off = s.off := (congrArg (fun (s : State) => s.off ) (count_only s r i)).trans rfl
@[simp] theorem count_tick (s : State) (r : RegId) (i : Nat) : (s.count r i).tick = s.tick := (congrArg (fun (s : State) => s.tick ) (count_only s r i)).trans rfl

theorem countN64_only (s : State) (r : RegId) (i n : Nat) : s.countN64 r i n = { s with regs := (s.countN64 r i n).regs } := by
  unfold State.countN64; split; · rfl
  rw [intOpt_only]; rfl

@[simp] theorem countN64_part (s : State) (r : RegId) (i n : Nat) : (s.countN64 r i n).part = s.part := (congrArg State.part (countN64_only s r i n)).trans rfl
@[simp] theorem countN64_pending (s : State) (r : RegId) (i n : Nat) : (s.countN64 r i n).pending = s.pending := (congrArg State.pending (countN64_only s r i n)).trans rfl
@[simp] theorem countN64_seen (s : State) (r : RegId) (i n : Nat) : (s.countN64 r i n).seen = s.seen := (congrArg State.seen (countN64_only s r i n)).trans rfl
@[simp] theorem countN64_rwo (s : State) (r : RegId) (i n : Nat) : (s.countN64 r i n).rwo = s.rwo := (congrArg State.rwo (countN64_only s r i n)).trans rfl
@[simp] theorem countN64_pr (s : State) (r : RegId) (i n : Nat) : (s.countN64 r i n).pr = s.pr := (congrArg State.pr (countN64_only s r i n)).trans rfl
@[simp] theorem countN64_fresh (s : State) (r : RegId) (i n : Nat) : (s.countN64 r i n).fresh = s.fresh := (congrArg State.fresh (countN64_only s r i n)).trans rfl
@[simp] theorem countN64_halted (s : State) (r : RegId) (i n : Nat) : (s.countN64 r i n).halted = s.halted := (congrArg State.halted (countN64_only s r i n)).trans rfl
@[simp] theorem countN64_bin (s : State) (r : RegId) (i n : Nat) : (s.countN64 r i n).bin = s.bin := (congrArg State.bin (countN64_only s r i n)).trans rfl
@[simp] theorem countN64_hif (s : State) (r : RegId) (i n : Nat) : (s.countN64 r i n).hif = s.hif := (congrArg State.hif (countN64_only s r i n)).trans rfl
@[simp] theorem countN64_crc (s : State) (r : RegId) (i n : Nat) : (s.countN64 r i n).crc = s.crc := (congrArg State.crc (countN64_only s r i n)).trans rfl
@[simp] theorem countN64_pmc (s : State) (r : RegId) (i n : Nat) : (s.countN64 r i n).pmc = s.pmc := (congrArg State.pmc (countN64_only s r i n)).trans rfl
@[simp] theorem countN64_lcs (s : State) (r : RegId) (i n : Nat) : (s.countN64 r i n).lcs = s.lcs := (congrArg State.lcs (countN64_only s r i n)).trans rfl
@[simp] theorem countN64_tm (s : State) (r : RegId) (i n : Nat) : (s.countN64 r i n).tm = s.tm := (congrArg State.tm (countN64_only s r i n)).trans rfl
@[simp] theorem countN64_deadline (s : State) (r : RegId) (i n : Nat) : (s.countN64 r i n).deadline = s.deadline := (congrArg State.deadline (countN64_only s r i n)).trans rfl
@[simp] theorem countN64_tickWork (s : State) (r : RegId) (i n : Nat) : (s.countN64 r i n).tickWork = s.tickWork := (congrArg State.tickWork (countN64_only s r i n)).trans rfl
@[simp] theorem countN64_ttx (s : State) (r : RegId) (i n : Nat) : (s.countN64 r i n).ttx = s.ttx := (congrArg State.ttx (countN64_only s r i n)).trans rfl
@[simp] theorem countN64_terms (s : State) (r : RegId) (i n : Nat) : (s.countN64 r i n).terms = s.terms := (congrArg State.terms (countN64_only s r i n)).trans rfl
@[simp] theorem countN64_sxt (s : State) (r : RegId) (i n : Nat) : (s.countN64 r i n).sxt = s.sxt := (congrArg State.sxt (countN64_only s r i n)).trans rfl
@[simp] theorem countN64_tsi (s : State) (r : RegId) (i n : Nat) : (s.countN64 r i n).tsi = s.tsi := (congrArg State.tsi (countN64_only s r i n)).trans rfl
@[simp] theorem countN64_alm (s : State) (r : RegId) (i n : Nat) : (s.countN64 r i n).alm = s.alm := (congrArg State.alm (countN64_only s r i n)).trans rfl
@[simp] theorem countN64_ciph (s : State) (r : RegId) (i n : Nat) : (s.countN64 r i n).ciph = s.ciph := (congrArg State.ciph (countN64_only s r i n)).trans rfl
@[simp] theorem countN64_orr (s : State) (r : RegId) (i n : Nat) : (s.countN64 r i n).orr = s.orr := (congrArg State.orr (countN64_only s r i n)).trans rfl
@[simp] theorem countN64_trx (s : State) (r : RegId) (i n : Nat) : (s.countN64 r i n).trx = s.trx := (congrArg State.trx (countN64_only s r i n)).trans rfl
@[simp] theorem countN64_fwdIn (s : State) (r : RegId) (i n : Nat) : (s.countN64 r i n).fwdIn = s.fwdIn := (congrArg State.fwdIn (countN64_only s r i n)).trans rfl
@[simp] theorem countN64_pair (s : State) (r : RegId) (i n : Nat) : (s.countN64 r i n).pair = s.pair := (congrArg State.pair (countN64_only s r i n)).trans rfl
@[simp] theorem countN64_ka (s : State) (r : RegId) (i n : Nat) : (s.countN64 r i n).ka = s.ka := (congrArg State.ka (countN64_only s r i n)).trans rfl
@[simp] theorem countN64_msec (s : State) (r : RegId) (i n : Nat) : (s.countN64 r i n).msec = s.msec := (congrArg State.msec (countN64_only s r i n)).trans rfl
@[simp] theorem countN64_sent (s : State) (r : RegId) (i n : Nat) : (s.countN64 r i n).sent = s.sent := (congrArg State.sent (countN64_only s r i n)).trans rfl
@[simp] theorem countN64_mail (s : State) (r : RegId) (i n : Nat) : (s.countN64 r i n).mail = s.mail := (congrArg State.mail (countN64_only s r i n)).trans rfl
@[simp] theorem countN64_navIn (s : State) (r : RegId) (i n : Nat) : (s.countN64 r i n).navIn = s.navIn := (congrArg State.navIn (countN64_only s r i n)).trans rfl
@[simp] theorem countN64_injDone (s : State) (r : RegId) (i n : Nat) : (s.countN64 r i n).injDone = s.injDone := (congrArg State.injDone (countN64_only s r i n)).trans rfl
@[simp] theorem countN64_fwd (s : State) (r : RegId) (i n : Nat) : (s.countN64 r i n).fwd = s.fwd := (congrArg State.fwd (countN64_only s r i n)).trans rfl
@[simp] theorem countN64_xin (s : State) (r : RegId) (i n : Nat) : (s.countN64 r i n).xin = s.xin := (congrArg State.xin (countN64_only s r i n)).trans rfl
@[simp] theorem countN64_qin (s : State) (r : RegId) (i n : Nat) : (s.countN64 r i n).qin = s.qin := (congrArg State.qin (countN64_only s r i n)).trans rfl
@[simp] theorem countN64_hostIn (s : State) (r : RegId) (i n : Nat) : (s.countN64 r i n).hostIn = s.hostIn := (congrArg State.hostIn (countN64_only s r i n)).trans rfl
@[simp] theorem countN64_qsch (s : State) (r : RegId) (i n : Nat) : (s.countN64 r i n).qsch = s.qsch := (congrArg State.qsch (countN64_only s r i n)).trans rfl
@[simp] theorem countN64_buf (s : State) (r : RegId) (i n : Nat) : (s.countN64 r i n).buf = s.buf := (congrArg State.buf (countN64_only s r i n)).trans rfl
@[simp] theorem countN64_gate (s : State) (r : RegId) (i n : Nat) : (s.countN64 r i n).gate = s.gate := (congrArg State.gate (countN64_only s r i n)).trans rfl
@[simp] theorem countN64_ckt (s : State) (r : RegId) (i n : Nat) : (s.countN64 r i n).ckt = s.ckt := (congrArg State.ckt (countN64_only s r i n)).trans rfl
@[simp] theorem countN64_ages (s : State) (r : RegId) (i n : Nat) : (s.countN64 r i n).ages = s.ages := (congrArg State.ages (countN64_only s r i n)).trans rfl
@[simp] theorem countN64_ovrAt (s : State) (r : RegId) (i n : Nat) : (s.countN64 r i n).ovrAt = s.ovrAt := (congrArg State.ovrAt (countN64_only s r i n)).trans rfl
@[simp] theorem countN64_nav (s : State) (r : RegId) (i n : Nat) : (s.countN64 r i n).nav = s.nav := (congrArg State.nav (countN64_only s r i n)).trans rfl
@[simp] theorem countN64_navc (s : State) (r : RegId) (i n : Nat) : (s.countN64 r i n).navc = s.navc := (congrArg State.navc (countN64_only s r i n)).trans rfl
@[simp] theorem countN64_nmem (s : State) (r : RegId) (i n : Nat) : (s.countN64 r i n).nmem = s.nmem := (congrArg State.nmem (countN64_only s r i n)).trans rfl
@[simp] theorem countN64_nbad (s : State) (r : RegId) (i n : Nat) : (s.countN64 r i n).nbad = s.nbad := (congrArg State.nbad (countN64_only s r i n)).trans rfl
@[simp] theorem countN64_posts (s : State) (r : RegId) (i n : Nat) : (s.countN64 r i n).posts = s.posts := (congrArg State.posts (countN64_only s r i n)).trans rfl
@[simp] theorem countN64_qmap (s : State) (r : RegId) (i n : Nat) : (s.countN64 r i n).qmap = s.qmap := (congrArg State.qmap (countN64_only s r i n)).trans rfl
@[simp] theorem countN64_qhold (s : State) (r : RegId) (i n : Nat) : (s.countN64 r i n).qhold = s.qhold := (congrArg State.qhold (countN64_only s r i n)).trans rfl
@[simp] theorem countN64_sealS (s : State) (r : RegId) (i n : Nat) : (s.countN64 r i n).sealS = s.sealS := (congrArg State.sealS (countN64_only s r i n)).trans rfl
@[simp] theorem countN64_ser (s : State) (r : RegId) (i n : Nat) : (s.countN64 r i n).ser = s.ser := (congrArg State.ser (countN64_only s r i n)).trans rfl
@[simp] theorem countN64_present (s : State) (r : RegId) (i n : Nat) (q z : Nat) : (s.countN64 r i n).present q z = s.present q z := (congrArg (fun (s : State) => s.present q z) (countN64_only s r i n)).trans rfl
@[simp] theorem countN64_off (s : State) (r : RegId) (i n : Nat) : (s.countN64 r i n).off = s.off := (congrArg (fun (s : State) => s.off ) (countN64_only s r i n)).trans rfl
@[simp] theorem countN64_tick (s : State) (r : RegId) (i n : Nat) : (s.countN64 r i n).tick = s.tick := (congrArg (fun (s : State) => s.tick ) (countN64_only s r i n)).trans rfl

theorem count64_only (s : State) (r : RegId) (i : Nat) : s.count64 r i = { s with regs := (s.count64 r i).regs } := by
  exact countN64_only s r i 1

@[simp] theorem count64_part (s : State) (r : RegId) (i : Nat) : (s.count64 r i).part = s.part := (congrArg State.part (count64_only s r i)).trans rfl
@[simp] theorem count64_pending (s : State) (r : RegId) (i : Nat) : (s.count64 r i).pending = s.pending := (congrArg State.pending (count64_only s r i)).trans rfl
@[simp] theorem count64_seen (s : State) (r : RegId) (i : Nat) : (s.count64 r i).seen = s.seen := (congrArg State.seen (count64_only s r i)).trans rfl
@[simp] theorem count64_rwo (s : State) (r : RegId) (i : Nat) : (s.count64 r i).rwo = s.rwo := (congrArg State.rwo (count64_only s r i)).trans rfl
@[simp] theorem count64_pr (s : State) (r : RegId) (i : Nat) : (s.count64 r i).pr = s.pr := (congrArg State.pr (count64_only s r i)).trans rfl
@[simp] theorem count64_fresh (s : State) (r : RegId) (i : Nat) : (s.count64 r i).fresh = s.fresh := (congrArg State.fresh (count64_only s r i)).trans rfl
@[simp] theorem count64_halted (s : State) (r : RegId) (i : Nat) : (s.count64 r i).halted = s.halted := (congrArg State.halted (count64_only s r i)).trans rfl
@[simp] theorem count64_bin (s : State) (r : RegId) (i : Nat) : (s.count64 r i).bin = s.bin := (congrArg State.bin (count64_only s r i)).trans rfl
@[simp] theorem count64_hif (s : State) (r : RegId) (i : Nat) : (s.count64 r i).hif = s.hif := (congrArg State.hif (count64_only s r i)).trans rfl
@[simp] theorem count64_crc (s : State) (r : RegId) (i : Nat) : (s.count64 r i).crc = s.crc := (congrArg State.crc (count64_only s r i)).trans rfl
@[simp] theorem count64_pmc (s : State) (r : RegId) (i : Nat) : (s.count64 r i).pmc = s.pmc := (congrArg State.pmc (count64_only s r i)).trans rfl
@[simp] theorem count64_lcs (s : State) (r : RegId) (i : Nat) : (s.count64 r i).lcs = s.lcs := (congrArg State.lcs (count64_only s r i)).trans rfl
@[simp] theorem count64_tm (s : State) (r : RegId) (i : Nat) : (s.count64 r i).tm = s.tm := (congrArg State.tm (count64_only s r i)).trans rfl
@[simp] theorem count64_deadline (s : State) (r : RegId) (i : Nat) : (s.count64 r i).deadline = s.deadline := (congrArg State.deadline (count64_only s r i)).trans rfl
@[simp] theorem count64_tickWork (s : State) (r : RegId) (i : Nat) : (s.count64 r i).tickWork = s.tickWork := (congrArg State.tickWork (count64_only s r i)).trans rfl
@[simp] theorem count64_ttx (s : State) (r : RegId) (i : Nat) : (s.count64 r i).ttx = s.ttx := (congrArg State.ttx (count64_only s r i)).trans rfl
@[simp] theorem count64_terms (s : State) (r : RegId) (i : Nat) : (s.count64 r i).terms = s.terms := (congrArg State.terms (count64_only s r i)).trans rfl
@[simp] theorem count64_sxt (s : State) (r : RegId) (i : Nat) : (s.count64 r i).sxt = s.sxt := (congrArg State.sxt (count64_only s r i)).trans rfl
@[simp] theorem count64_tsi (s : State) (r : RegId) (i : Nat) : (s.count64 r i).tsi = s.tsi := (congrArg State.tsi (count64_only s r i)).trans rfl
@[simp] theorem count64_alm (s : State) (r : RegId) (i : Nat) : (s.count64 r i).alm = s.alm := (congrArg State.alm (count64_only s r i)).trans rfl
@[simp] theorem count64_ciph (s : State) (r : RegId) (i : Nat) : (s.count64 r i).ciph = s.ciph := (congrArg State.ciph (count64_only s r i)).trans rfl
@[simp] theorem count64_orr (s : State) (r : RegId) (i : Nat) : (s.count64 r i).orr = s.orr := (congrArg State.orr (count64_only s r i)).trans rfl
@[simp] theorem count64_trx (s : State) (r : RegId) (i : Nat) : (s.count64 r i).trx = s.trx := (congrArg State.trx (count64_only s r i)).trans rfl
@[simp] theorem count64_fwdIn (s : State) (r : RegId) (i : Nat) : (s.count64 r i).fwdIn = s.fwdIn := (congrArg State.fwdIn (count64_only s r i)).trans rfl
@[simp] theorem count64_pair (s : State) (r : RegId) (i : Nat) : (s.count64 r i).pair = s.pair := (congrArg State.pair (count64_only s r i)).trans rfl
@[simp] theorem count64_ka (s : State) (r : RegId) (i : Nat) : (s.count64 r i).ka = s.ka := (congrArg State.ka (count64_only s r i)).trans rfl
@[simp] theorem count64_msec (s : State) (r : RegId) (i : Nat) : (s.count64 r i).msec = s.msec := (congrArg State.msec (count64_only s r i)).trans rfl
@[simp] theorem count64_sent (s : State) (r : RegId) (i : Nat) : (s.count64 r i).sent = s.sent := (congrArg State.sent (count64_only s r i)).trans rfl
@[simp] theorem count64_mail (s : State) (r : RegId) (i : Nat) : (s.count64 r i).mail = s.mail := (congrArg State.mail (count64_only s r i)).trans rfl
@[simp] theorem count64_navIn (s : State) (r : RegId) (i : Nat) : (s.count64 r i).navIn = s.navIn := (congrArg State.navIn (count64_only s r i)).trans rfl
@[simp] theorem count64_injDone (s : State) (r : RegId) (i : Nat) : (s.count64 r i).injDone = s.injDone := (congrArg State.injDone (count64_only s r i)).trans rfl
@[simp] theorem count64_fwd (s : State) (r : RegId) (i : Nat) : (s.count64 r i).fwd = s.fwd := (congrArg State.fwd (count64_only s r i)).trans rfl
@[simp] theorem count64_xin (s : State) (r : RegId) (i : Nat) : (s.count64 r i).xin = s.xin := (congrArg State.xin (count64_only s r i)).trans rfl
@[simp] theorem count64_qin (s : State) (r : RegId) (i : Nat) : (s.count64 r i).qin = s.qin := (congrArg State.qin (count64_only s r i)).trans rfl
@[simp] theorem count64_hostIn (s : State) (r : RegId) (i : Nat) : (s.count64 r i).hostIn = s.hostIn := (congrArg State.hostIn (count64_only s r i)).trans rfl
@[simp] theorem count64_qsch (s : State) (r : RegId) (i : Nat) : (s.count64 r i).qsch = s.qsch := (congrArg State.qsch (count64_only s r i)).trans rfl
@[simp] theorem count64_buf (s : State) (r : RegId) (i : Nat) : (s.count64 r i).buf = s.buf := (congrArg State.buf (count64_only s r i)).trans rfl
@[simp] theorem count64_gate (s : State) (r : RegId) (i : Nat) : (s.count64 r i).gate = s.gate := (congrArg State.gate (count64_only s r i)).trans rfl
@[simp] theorem count64_ckt (s : State) (r : RegId) (i : Nat) : (s.count64 r i).ckt = s.ckt := (congrArg State.ckt (count64_only s r i)).trans rfl
@[simp] theorem count64_ages (s : State) (r : RegId) (i : Nat) : (s.count64 r i).ages = s.ages := (congrArg State.ages (count64_only s r i)).trans rfl
@[simp] theorem count64_ovrAt (s : State) (r : RegId) (i : Nat) : (s.count64 r i).ovrAt = s.ovrAt := (congrArg State.ovrAt (count64_only s r i)).trans rfl
@[simp] theorem count64_nav (s : State) (r : RegId) (i : Nat) : (s.count64 r i).nav = s.nav := (congrArg State.nav (count64_only s r i)).trans rfl
@[simp] theorem count64_navc (s : State) (r : RegId) (i : Nat) : (s.count64 r i).navc = s.navc := (congrArg State.navc (count64_only s r i)).trans rfl
@[simp] theorem count64_nmem (s : State) (r : RegId) (i : Nat) : (s.count64 r i).nmem = s.nmem := (congrArg State.nmem (count64_only s r i)).trans rfl
@[simp] theorem count64_nbad (s : State) (r : RegId) (i : Nat) : (s.count64 r i).nbad = s.nbad := (congrArg State.nbad (count64_only s r i)).trans rfl
@[simp] theorem count64_posts (s : State) (r : RegId) (i : Nat) : (s.count64 r i).posts = s.posts := (congrArg State.posts (count64_only s r i)).trans rfl
@[simp] theorem count64_qmap (s : State) (r : RegId) (i : Nat) : (s.count64 r i).qmap = s.qmap := (congrArg State.qmap (count64_only s r i)).trans rfl
@[simp] theorem count64_qhold (s : State) (r : RegId) (i : Nat) : (s.count64 r i).qhold = s.qhold := (congrArg State.qhold (count64_only s r i)).trans rfl
@[simp] theorem count64_sealS (s : State) (r : RegId) (i : Nat) : (s.count64 r i).sealS = s.sealS := (congrArg State.sealS (count64_only s r i)).trans rfl
@[simp] theorem count64_ser (s : State) (r : RegId) (i : Nat) : (s.count64 r i).ser = s.ser := (congrArg State.ser (count64_only s r i)).trans rfl
@[simp] theorem count64_present (s : State) (r : RegId) (i : Nat) (q z : Nat) : (s.count64 r i).present q z = s.present q z := (congrArg (fun (s : State) => s.present q z) (count64_only s r i)).trans rfl
@[simp] theorem count64_off (s : State) (r : RegId) (i : Nat) : (s.count64 r i).off = s.off := (congrArg (fun (s : State) => s.off ) (count64_only s r i)).trans rfl
@[simp] theorem count64_tick (s : State) (r : RegId) (i : Nat) : (s.count64 r i).tick = s.tick := (congrArg (fun (s : State) => s.tick ) (count64_only s r i)).trans rfl

theorem countI_only (s : State) (r : RegId) (i j : Nat) : s.countI r i j = { s with regs := (s.countI r i j).regs } := by
  unfold State.countI; rw [intOpt_only]; rfl

@[simp] theorem countI_part (s : State) (r : RegId) (i j : Nat) : (s.countI r i j).part = s.part := (congrArg State.part (countI_only s r i j)).trans rfl
@[simp] theorem countI_pending (s : State) (r : RegId) (i j : Nat) : (s.countI r i j).pending = s.pending := (congrArg State.pending (countI_only s r i j)).trans rfl
@[simp] theorem countI_seen (s : State) (r : RegId) (i j : Nat) : (s.countI r i j).seen = s.seen := (congrArg State.seen (countI_only s r i j)).trans rfl
@[simp] theorem countI_rwo (s : State) (r : RegId) (i j : Nat) : (s.countI r i j).rwo = s.rwo := (congrArg State.rwo (countI_only s r i j)).trans rfl
@[simp] theorem countI_pr (s : State) (r : RegId) (i j : Nat) : (s.countI r i j).pr = s.pr := (congrArg State.pr (countI_only s r i j)).trans rfl
@[simp] theorem countI_fresh (s : State) (r : RegId) (i j : Nat) : (s.countI r i j).fresh = s.fresh := (congrArg State.fresh (countI_only s r i j)).trans rfl
@[simp] theorem countI_halted (s : State) (r : RegId) (i j : Nat) : (s.countI r i j).halted = s.halted := (congrArg State.halted (countI_only s r i j)).trans rfl
@[simp] theorem countI_bin (s : State) (r : RegId) (i j : Nat) : (s.countI r i j).bin = s.bin := (congrArg State.bin (countI_only s r i j)).trans rfl
@[simp] theorem countI_hif (s : State) (r : RegId) (i j : Nat) : (s.countI r i j).hif = s.hif := (congrArg State.hif (countI_only s r i j)).trans rfl
@[simp] theorem countI_crc (s : State) (r : RegId) (i j : Nat) : (s.countI r i j).crc = s.crc := (congrArg State.crc (countI_only s r i j)).trans rfl
@[simp] theorem countI_pmc (s : State) (r : RegId) (i j : Nat) : (s.countI r i j).pmc = s.pmc := (congrArg State.pmc (countI_only s r i j)).trans rfl
@[simp] theorem countI_lcs (s : State) (r : RegId) (i j : Nat) : (s.countI r i j).lcs = s.lcs := (congrArg State.lcs (countI_only s r i j)).trans rfl
@[simp] theorem countI_tm (s : State) (r : RegId) (i j : Nat) : (s.countI r i j).tm = s.tm := (congrArg State.tm (countI_only s r i j)).trans rfl
@[simp] theorem countI_deadline (s : State) (r : RegId) (i j : Nat) : (s.countI r i j).deadline = s.deadline := (congrArg State.deadline (countI_only s r i j)).trans rfl
@[simp] theorem countI_tickWork (s : State) (r : RegId) (i j : Nat) : (s.countI r i j).tickWork = s.tickWork := (congrArg State.tickWork (countI_only s r i j)).trans rfl
@[simp] theorem countI_ttx (s : State) (r : RegId) (i j : Nat) : (s.countI r i j).ttx = s.ttx := (congrArg State.ttx (countI_only s r i j)).trans rfl
@[simp] theorem countI_terms (s : State) (r : RegId) (i j : Nat) : (s.countI r i j).terms = s.terms := (congrArg State.terms (countI_only s r i j)).trans rfl
@[simp] theorem countI_sxt (s : State) (r : RegId) (i j : Nat) : (s.countI r i j).sxt = s.sxt := (congrArg State.sxt (countI_only s r i j)).trans rfl
@[simp] theorem countI_tsi (s : State) (r : RegId) (i j : Nat) : (s.countI r i j).tsi = s.tsi := (congrArg State.tsi (countI_only s r i j)).trans rfl
@[simp] theorem countI_alm (s : State) (r : RegId) (i j : Nat) : (s.countI r i j).alm = s.alm := (congrArg State.alm (countI_only s r i j)).trans rfl
@[simp] theorem countI_ciph (s : State) (r : RegId) (i j : Nat) : (s.countI r i j).ciph = s.ciph := (congrArg State.ciph (countI_only s r i j)).trans rfl
@[simp] theorem countI_orr (s : State) (r : RegId) (i j : Nat) : (s.countI r i j).orr = s.orr := (congrArg State.orr (countI_only s r i j)).trans rfl
@[simp] theorem countI_trx (s : State) (r : RegId) (i j : Nat) : (s.countI r i j).trx = s.trx := (congrArg State.trx (countI_only s r i j)).trans rfl
@[simp] theorem countI_fwdIn (s : State) (r : RegId) (i j : Nat) : (s.countI r i j).fwdIn = s.fwdIn := (congrArg State.fwdIn (countI_only s r i j)).trans rfl
@[simp] theorem countI_pair (s : State) (r : RegId) (i j : Nat) : (s.countI r i j).pair = s.pair := (congrArg State.pair (countI_only s r i j)).trans rfl
@[simp] theorem countI_ka (s : State) (r : RegId) (i j : Nat) : (s.countI r i j).ka = s.ka := (congrArg State.ka (countI_only s r i j)).trans rfl
@[simp] theorem countI_msec (s : State) (r : RegId) (i j : Nat) : (s.countI r i j).msec = s.msec := (congrArg State.msec (countI_only s r i j)).trans rfl
@[simp] theorem countI_sent (s : State) (r : RegId) (i j : Nat) : (s.countI r i j).sent = s.sent := (congrArg State.sent (countI_only s r i j)).trans rfl
@[simp] theorem countI_mail (s : State) (r : RegId) (i j : Nat) : (s.countI r i j).mail = s.mail := (congrArg State.mail (countI_only s r i j)).trans rfl
@[simp] theorem countI_navIn (s : State) (r : RegId) (i j : Nat) : (s.countI r i j).navIn = s.navIn := (congrArg State.navIn (countI_only s r i j)).trans rfl
@[simp] theorem countI_injDone (s : State) (r : RegId) (i j : Nat) : (s.countI r i j).injDone = s.injDone := (congrArg State.injDone (countI_only s r i j)).trans rfl
@[simp] theorem countI_fwd (s : State) (r : RegId) (i j : Nat) : (s.countI r i j).fwd = s.fwd := (congrArg State.fwd (countI_only s r i j)).trans rfl
@[simp] theorem countI_xin (s : State) (r : RegId) (i j : Nat) : (s.countI r i j).xin = s.xin := (congrArg State.xin (countI_only s r i j)).trans rfl
@[simp] theorem countI_qin (s : State) (r : RegId) (i j : Nat) : (s.countI r i j).qin = s.qin := (congrArg State.qin (countI_only s r i j)).trans rfl
@[simp] theorem countI_hostIn (s : State) (r : RegId) (i j : Nat) : (s.countI r i j).hostIn = s.hostIn := (congrArg State.hostIn (countI_only s r i j)).trans rfl
@[simp] theorem countI_qsch (s : State) (r : RegId) (i j : Nat) : (s.countI r i j).qsch = s.qsch := (congrArg State.qsch (countI_only s r i j)).trans rfl
@[simp] theorem countI_buf (s : State) (r : RegId) (i j : Nat) : (s.countI r i j).buf = s.buf := (congrArg State.buf (countI_only s r i j)).trans rfl
@[simp] theorem countI_gate (s : State) (r : RegId) (i j : Nat) : (s.countI r i j).gate = s.gate := (congrArg State.gate (countI_only s r i j)).trans rfl
@[simp] theorem countI_ckt (s : State) (r : RegId) (i j : Nat) : (s.countI r i j).ckt = s.ckt := (congrArg State.ckt (countI_only s r i j)).trans rfl
@[simp] theorem countI_ages (s : State) (r : RegId) (i j : Nat) : (s.countI r i j).ages = s.ages := (congrArg State.ages (countI_only s r i j)).trans rfl
@[simp] theorem countI_ovrAt (s : State) (r : RegId) (i j : Nat) : (s.countI r i j).ovrAt = s.ovrAt := (congrArg State.ovrAt (countI_only s r i j)).trans rfl
@[simp] theorem countI_nav (s : State) (r : RegId) (i j : Nat) : (s.countI r i j).nav = s.nav := (congrArg State.nav (countI_only s r i j)).trans rfl
@[simp] theorem countI_navc (s : State) (r : RegId) (i j : Nat) : (s.countI r i j).navc = s.navc := (congrArg State.navc (countI_only s r i j)).trans rfl
@[simp] theorem countI_nmem (s : State) (r : RegId) (i j : Nat) : (s.countI r i j).nmem = s.nmem := (congrArg State.nmem (countI_only s r i j)).trans rfl
@[simp] theorem countI_nbad (s : State) (r : RegId) (i j : Nat) : (s.countI r i j).nbad = s.nbad := (congrArg State.nbad (countI_only s r i j)).trans rfl
@[simp] theorem countI_posts (s : State) (r : RegId) (i j : Nat) : (s.countI r i j).posts = s.posts := (congrArg State.posts (countI_only s r i j)).trans rfl
@[simp] theorem countI_qmap (s : State) (r : RegId) (i j : Nat) : (s.countI r i j).qmap = s.qmap := (congrArg State.qmap (countI_only s r i j)).trans rfl
@[simp] theorem countI_qhold (s : State) (r : RegId) (i j : Nat) : (s.countI r i j).qhold = s.qhold := (congrArg State.qhold (countI_only s r i j)).trans rfl
@[simp] theorem countI_sealS (s : State) (r : RegId) (i j : Nat) : (s.countI r i j).sealS = s.sealS := (congrArg State.sealS (countI_only s r i j)).trans rfl
@[simp] theorem countI_ser (s : State) (r : RegId) (i j : Nat) : (s.countI r i j).ser = s.ser := (congrArg State.ser (countI_only s r i j)).trans rfl
@[simp] theorem countI_present (s : State) (r : RegId) (i j : Nat) (q z : Nat) : (s.countI r i j).present q z = s.present q z := (congrArg (fun (s : State) => s.present q z) (countI_only s r i j)).trans rfl
@[simp] theorem countI_off (s : State) (r : RegId) (i j : Nat) : (s.countI r i j).off = s.off := (congrArg (fun (s : State) => s.off ) (countI_only s r i j)).trans rfl
@[simp] theorem countI_tick (s : State) (r : RegId) (i j : Nat) : (s.countI r i j).tick = s.tick := (congrArg (fun (s : State) => s.tick ) (countI_only s r i j)).trans rfl

/-! ## The register file -/

/-- Register addresses are one to one. -/
theorem regKey_inj {ty inst off ty' inst' off' : Nat} (hi : inst < 256) (ho : off < 4096) (hi' : inst' < 256) (ho' : off' < 4096)
    (h : regKey ty inst off = regKey ty' inst' off') : ty = ty' ∧ inst = inst' ∧ off = off' := by
  unfold regKey at h
  omega

@[simp] theorem keyTy_regKey {ty inst off : Nat} (hi : inst < 256) (ho : off < 4096) : keyTy (regKey ty inst off) = ty := by
  unfold keyTy regKey
  omega

@[simp] theorem keyInst_regKey {ty inst off : Nat} (hi : inst < 256) (ho : off < 4096) : keyInst (regKey ty inst off) = inst := by
  unfold keyInst regKey
  omega

@[simp] theorem keyOff_regKey {ty inst off : Nat} (ho : off < 4096) : keyOff (regKey ty inst off) = off := by
  unfold keyOff regKey
  omega

@[simp] theorem rd_wr_self (s : State) (k : Nat) (v : Word) : (s.wr k v).rd k = v := Tbl.getD_setD_self _ _ _ _

theorem rd_wr_ne (s : State) {j k : Nat} (h : j ≠ k) (v : Word) : (s.wr k v).rd j = s.rd j := Tbl.getD_setD_ne _ _ _ h v

/-- A register reads what was stored in it, modulo its 32 bits. -/
@[simp] theorem reg_setReg_self (s : State) (r : RegId) (i v : Nat) : (s.setReg r i v).reg r i = v % 2 ^ 32 := by
  unfold State.setReg State.reg
  rw [rd_wr_self, BitVec.toNat_ofNat]

/-- A store leaves registers at other addresses alone. -/
theorem reg_setReg_ne (s : State) {r q : RegId} {i j : Nat} (h : q.at j ≠ r.at i) (v : Nat) : (s.setReg r i v).reg q j = s.reg q j := by
  unfold State.setReg State.reg
  rw [rd_wr_ne _ h]

theorem fld_setReg_ne (s : State) {r : RegId} {f : FldId} {i j d : Nat} (h : f.at j d ≠ r.at i) (v : Nat) :
    (s.setReg r i v).fld f j d = s.fld f j d := by
  unfold State.setReg State.fld
  rw [rd_wr_ne _ h]

theorem reg_setFld_ne (s : State) {f : FldId} {q : RegId} {i j d : Nat} (h : q.at j ≠ f.at i d) (v : Nat) :
    (s.setFld f i v d).reg q j = s.reg q j := by
  unfold State.setFld State.reg
  rw [rd_wr_ne _ h]

theorem fld_setFld_ne (s : State) {f g : FldId} {i j d e : Nat} (h : g.at j e ≠ f.at i d) (v : Nat) :
    (s.setFld f i v d).fld g j e = s.fld g j e := by
  unfold State.setFld State.fld
  rw [rd_wr_ne _ h]

/-- A word in three parts: below the field, the field, above it. -/
theorem word_parts (x v p q : Nat) : x - x / p % q * p + v % q * p = x % p + p * (v % q + q * (x / p / q)) := by
  have a := Nat.div_add_mod x p
  have b := Nat.div_add_mod (x / p) q
  have c : p * (x / p) = p * (q * (x / p / q)) + x / p % q * p := by
    conv => lhs; rw [← b]
    rw [Nat.mul_add, Nat.mul_comm p (x / p % q)]
  rw [Nat.mul_add, Nat.mul_comm p (v % q)]
  omega

/-- A field of a word reads what was set in it, modulo its width. -/
theorem bitsOf_setBitsOf_self (x lo w v : Nat) : bitsOf (setBitsOf x lo w v) lo w = v % 2 ^ w := by
  unfold bitsOf setBitsOf bitsOf
  have hp : 0 < 2 ^ lo := Nat.two_pow_pos lo
  rw [word_parts, Nat.add_mul_div_left _ _ hp, Nat.div_eq_of_lt (Nat.mod_lt _ hp), Nat.zero_add, Nat.add_mul_mod_self_left, Nat.mod_mod]

/-- The word stays in its bits. -/
theorem setBitsOf_lt {x lo w v n : Nat} (hx : x < 2 ^ n) (h : lo + w ≤ n) : setBitsOf x lo w v < 2 ^ n := by
  unfold setBitsOf bitsOf
  rw [word_parts]
  have hp : 0 < 2 ^ lo := Nat.two_pow_pos lo
  have hq : 0 < 2 ^ w := Nat.two_pow_pos w
  obtain ⟨k, rfl⟩ := Nat.exists_eq_add_of_le h
  rw [Nat.pow_add, Nat.pow_add] at hx ⊢
  generalize 2 ^ lo = p at *
  generalize 2 ^ w = q at *
  generalize 2 ^ k = r at *
  have h1 : x / p / q < r := by
    rw [Nat.div_div_eq_div_mul]
    exact Nat.div_lt_of_lt_mul hx
  have h2 : v % q + q * (x / p / q) + 1 ≤ q * r := by
    have m := Nat.mod_lt v hq
    have g := Nat.mul_le_mul_left q h1
    rw [Nat.succ_eq_add_one, Nat.mul_add, Nat.mul_one] at g
    omega
  have m := Nat.mod_lt x hp
  have g := Nat.mul_le_mul_left p h2
  rw [Nat.mul_add p _ 1, Nat.mul_one] at g
  rw [Nat.mul_assoc]
  omega

/-- A field reads what was set in it. -/
theorem fld_setFld_self (s : State) (f : FldId) (i v d : Nat) (h : f.lo + f.w ≤ 32) : (s.setFld f i v d).fld f i d = v % 2 ^ f.w := by
  unfold State.setFld State.fld
  rw [rd_wr_self, BitVec.toNat_ofNat, Nat.mod_eq_of_lt (setBitsOf_lt (BitVec.isLt _) h), bitsOf_setBitsOf_self]

/-- A flag reads what was set in it. -/
theorem flag_setFlag_self (s : State) (f : FldId) (i d : Nat) (b : Bool) (h : f.lo + 1 ≤ 32) (hw : f.w = 1) :
    (s.setFlag f i b d).flag f i d = b := by
  unfold State.setFlag State.flag
  rw [fld_setFld_self _ _ _ _ _ (by omega), hw]
  cases b <;> rfl

/-! ## Records: an update's own reading -/

@[simp] theorem nv_setNv_self (s : State) (c n : Nat) (e : NavE) : (s.setNv c n e).nv c n = e := Tbl.get_set_self _ _ _ _

theorem nv_setNv_ne (s : State) {c n d m : Nat} (h : d * 16 + m ≠ c * 16 + n) (e : NavE) : (s.setNv c n e).nv d m = s.nv d m :=
  Tbl.get_set_ne _ _ _ h _

@[simp] theorem cluster_setCluster_self (s : State) (c : Nat) (x : NavC) : (s.setCluster c x).cluster c = x := Tbl.get_set_self _ _ _ _

@[simp] theorem cl_setCl_self (s : State) (l : Nat) (x : CktS) : (s.setCl l x).cl l = x := Tbl.get_set_self _ _ _ _

theorem cl_setCl_ne (s : State) {k l : Nat} (h : k ≠ l) (x : CktS) : (s.setCl l x).cl k = s.cl k := Tbl.get_set_ne _ _ _ h _

@[simp] theorem path_setPath_self (x : CktS) (p : Nat) (y : CktPath) : (x.setPath p y).path p = y := Tbl.get_set_self _ _ _ _

@[simp] theorem pmOf_setPm_self (x : CktS) (e : Nat) (y : Pm) : (x.setPm e y).pmOf e = y := Tbl.get_set_self _ _ _ _

@[simp] theorem term_setTerm_self (s : State) (k : Nat) (x : Term) : (s.setTerm k x).term k = x := Tbl.get_set_self _ _ _ _

theorem term_setTerm_ne (s : State) {j k : Nat} (h : j ≠ k) (x : Term) : (s.setTerm k x).term j = s.term j := Tbl.get_set_ne _ _ _ h _

@[simp] theorem qs_setQs_self (s : State) (i : Nat) (x : QschS) : (s.setQs i x).qs i = x := Tbl.get_set_self _ _ _ _

@[simp] theorem fw_setFw_self (s : State) (i : Nat) (x : FwdS) : (s.setFw i x).fw i = x := Tbl.get_set_self _ _ _ _

@[simp] theorem gt_setGt_self (s : State) (i : Nat) (x : GateS) : (s.setGt i x).gt i = x := Tbl.get_set_self _ _ _ _

@[simp] theorem sealOf_setSeal_self (s : State) (i : Nat) (x : SealS) : (s.setSeal i x).sealOf i = x := Tbl.get_set_self _ _ _ _

@[simp] theorem ring_setRing_self (s : State) (r : Nat) (x : Ring) : (s.setRing r x).ring r = x := Tbl.getD_setD_self _ _ _ _

theorem ring_setRing_ne (s : State) {j k : Nat} (h : j ≠ k) (x : Ring) : (s.setRing k x).ring j = s.ring j := Tbl.getD_setD_ne _ _ _ h _

@[simp] theorem qreg_setQreg_self (s : State) (i n r : Nat) (x : QRegion) : (s.setQreg i n r x).qreg i n r = x := Tbl.get_set_self _ _ _ _

@[simp] theorem conn_setConn_self (s : State) (p i : Nat) (c : Conn) : (s.setConn p i c).conn p i = c := Tbl.get_set_self _ _ _ _

/-! ## The shared operations: everything that each can do -/

/-- A write to a mirrored place acts in the active device. -/
theorem mirrored_active {s : State} (h : s.isActive = true) (f : State → State) : s.mirrored f = f s := by
  simp [State.mirrored, State.mirrorOpen, h]

/-- A write to a mirrored place acts wherever the host may write it. -/
theorem mirrored_open {s : State} (h : s.mirrorOpen = true) (f : State → State) : s.mirrored f = f s := by simp [State.mirrored, h]

/-- In a standby of a pair it is only counted (R468). -/
theorem mirrored_standby {s : State} (h : s.mirrorOpen = false) (f : State → State) :
    s.mirrored f = s.count Reg.PAIR_MIRROR_WRITE_REJECT 0 := by simp [State.mirrored, h]

/-- A device read of host memory leaves the state alone where it is allowed, and counts where it is not (R409). -/
theorem dmaRead_cases (s : State) (w off n : Nat) :
    (s.winOk w off n false = true ∧ s.dmaRead w off n = (s, true)) ∨
    (s.winOk w off n false = false ∧ s.dmaRead w off n = (s.count Reg.HIF_WIN_FAULT 0, false)) := by
  unfold State.dmaRead
  cases s.winOk w off n false <;> simp

/-- A device write of host memory changes the host's memory alone where it is allowed, and counts where it is not (R409). -/
theorem dmaWrite_cases (s : State) (w off : Nat) (d : Bytes) :
    (s.winOk w off d.length true = true ∧
      s.dmaWrite w off d = ({ s with hif := { s.hif with mem := s.hif.mem.writeN ((s.win w).base + off) d } }, true)) ∨
    (s.winOk w off d.length true = false ∧ s.dmaWrite w off d = (s.count Reg.HIF_WIN_FAULT 0, false)) := by
  unfold State.dmaWrite
  cases s.winOk w off d.length true <;> simp

/-- Naming an action adds it at the end of the list, and counts it where its tick is not ahead (R27). -/
theorem name_cases (s : State) (k : NKind) (i j t : Nat) :
    (s.tm.free = true ∨ s.tm.m + 1 < t →
      s.name k i j t = { s with tm := { s.tm with named := s.tm.named ++ [⟨k, i, j, t, false⟩] } }) ∧
    (s.tm.free = false → t ≤ s.tm.m + 1 →
      s.name k i j t = { s.countLate ⟨k, i, j, t, true⟩ with tm := { s.tm with named := s.tm.named ++ [⟨k, i, j, t, true⟩] } }) := by
  refine ⟨fun h => ?_, fun hf ht => ?_⟩
  · have e : (!s.tm.free && decide (t ≤ s.tm.m + 1)) = false := by rcases h with h | h <;> simp [h]
    simp [State.name, e]
  · simp [State.name, hf, ht, State.countLate]

/-- A Logbook entry joins the queue of 32, or is counted lost (R492). -/
theorem logPut_cases (s : State) (e : Bytes) :
    (s.lcs.logQ.length < 32 ∧ s.logPut e = { s with lcs := { s.lcs with logQ := s.lcs.logQ ++ [e] } }) ∨
    (32 ≤ s.lcs.logQ.length ∧ s.logPut e = s.count Reg.LCS_LOG_LOST 0) := by
  unfold State.logPut
  by_cases h : s.lcs.logQ.length < 32
  · exact .inl ⟨h, if_pos h⟩
  · exact .inr ⟨by omega, if_neg h⟩

/-- A halted device is not halted again: the first FATAL event stands (R444). -/
theorem halt_halted {s : State} (h : s.halted = true) (d : Det) (c : EClass) (e : Bool) : s.halt d c e = s := by simp [State.halt, h]

/-- A halt halts. -/
theorem halt_halts (s : State) (d : Det) (c : EClass) (e : Bool) : (s.halt d c e).halted = true := by
  unfold State.halt
  split
  · assumption
  · rfl

/-! ## Events (R435 to R446): what the Binnacle's record never touches -/

/-- The state with everything that an event may write taken out: registers, the Binnacle, the Lodestone, the halt, and what a ZEROISE
clears. -/
def quiet (s : State) : State :=
  let r := State.reset
  { s with regs := [], bin := r.bin, lcs := r.lcs, halted := false, alm := r.alm, ka := r.ka, pair := r.pair, sealS := [], fresh := 0 }

theorem quiet_setReg (s : State) (r : RegId) (i v : Nat) : quiet (s.setReg r i v) = quiet s := (rfl)
theorem quiet_setReg64 (s : State) (r : RegId) (i v : Nat) : quiet (s.setReg64 r i v) = quiet s := (rfl)
theorem quiet_setFld (s : State) (f : FldId) (i v d : Nat) : quiet (s.setFld f i v d) = quiet s := (rfl)
theorem quiet_typeBit (s : State) (r : RegId) (i : Nat) : quiet (s.typeBit r i) = quiet s := (rfl)
theorem quiet_intSet (s : State) (a b c : Nat) : quiet (s.intSet a b c) = quiet s := (rfl)
theorem quiet_bin (s : State) (x : BinS) : quiet { s with bin := x } = quiet s := (rfl)
theorem quiet_halted (s : State) (b : Bool) : quiet { s with halted := b } = quiet s := (rfl)

theorem quiet_count (s : State) (r : RegId) (i : Nat) : quiet (s.count r i) = quiet s := by rw [count_only]; rfl

theorem quiet_countN (s : State) (r : RegId) (i n : Nat) : quiet (s.countN r i n) = quiet s := by rw [countN_only]; rfl

theorem quiet_logPut (s : State) (e : Bytes) : quiet (s.logPut e) = quiet s := by
  rcases logPut_cases s e with ⟨_, h⟩ | ⟨_, h⟩ <;> rw [h]
  · rfl
  · exact quiet_count _ _ _

theorem quiet_log (s : State) (a b c d e f : Nat) : quiet (s.log a b c d e f) = quiet s := quiet_logPut _ _

theorem quiet_zeroise (s : State) : quiet s.zeroise = quiet s := by
  unfold State.zeroise
  dsimp only
  rw [quiet_countN, quiet_count]
  rfl

theorem quiet_halt (s : State) (d : Det) (c : EClass) (e : Bool) : quiet (s.halt d c e) = quiet s := by
  unfold State.halt
  split
  · rfl
  · simp only [quiet_setFld, quiet_halted, quiet_countN, quiet_log, quiet_setReg64, quiet_setReg]

theorem quiet_capture (s : State) (d : Det) (c : EClass) (e : Bool) : quiet (s.capture d c e) = quiet s := by
  unfold State.capture
  dsimp only
  split
  · simp only [quiet_setReg]
  · split
    · split
      · exact quiet_setReg _ _ _ _
      · rfl
    · exact (quiet_bin _ _).trans (quiet_setReg _ _ _ _)

theorem quiet_escalate (s : State) (d : Det) (c : EClass) : quiet (s.escalate d c).1 = quiet s := by
  unfold State.escalate
  dsimp only
  split
  · rfl
  · split
    · rfl
    · split <;> exact quiet_bin _ _


end Sys2Proof.Laws
end

