-- ==== Sys2Proof/WellFormed.lean ====
section
/-! DEFINITION. When a command's operands name things that exist in the part's numbering: each numeric operand below the bound that
its register field, table or frame gives it. The meanings reduce an operand that is not to the field's width. -/

namespace Sys2Proof

/-- The numeric operands of a command with their bounds; an operand without one (a count of events, a weight) is free. -/
def Instr.ranges : Instr → List (Nat × Nat)
  | .registerWrite addr _ be cycle _ => [(addr, 2 ^ 26), (be, 16), (cycle, 312500)]
  | .multiRegisterRequest _ addr _ _ cycle _ => [(addr, 2 ^ 26), (cycle, 312500)]
  | .loRegisterRead master addr cycle => [(master, 64), (addr, 2 ^ 26), (cycle, 312500)]
  | .hiRegisterWrite master addr _ => [(master, 64), (addr, 2 ^ 26)]
  | .loRegisterWrite master addr _ cycle _ => [(master, 64), (addr, 2 ^ 26), (cycle, 312500)]
  | .blockSoftReset ty inst => [(ty, 64), (inst, 256)]
  | .countClrAll ty inst => [(ty, 64), (inst, 256)]
  | .maxClr ty inst => [(ty, 64), (inst, 256)]
  | .tickBoundary => []
  | .epochWrite e => [(e, 2 ^ 48)]
  | .tickOverrun ty inst => [(ty, 256), (inst, 256)]
  | .descriptorAgeExpiry ty inst cycle => [(ty, 64), (inst, 256), (cycle, 312500)]
  | .stageDescriptorReceive ty inst _ => [(ty, 64), (inst, 256)]
  | .xbarCross src dst _ => [(src, 8), (dst, 8)]
  | .ttxFrameStage tree cycle => [(tree, 32), (cycle, 312500)]
  | .talFrameTransmit tree => [(tree, 32)]
  | .ttxUnitPlace tree _ _ => [(tree, 32)]
  | .ttxModeWrite tree _ => [(tree, 32)]
  | .cktLenPgWrite tree page _ => [(tree, 32), (page, 2)]
  | .trxBurstReceive tree utick start _ => [(tree, 32), (utick, 2 ^ 48), (start, 50625)]
  | .rogueLight tree utick first _ => [(tree, 32), (utick, 2 ^ 48), (first, 50625)]
  | .reassemblyExpiry tree => [(tree, 32)]
  | .replayWindowRetire tree => [(tree, 32)]
  | .profileRead tree term => [(tree, 32), (term, 512)]
  | .profileWriteSeed tree term => [(tree, 32), (term, 512)]
  | .profileReseed tree term => [(tree, 32), (term, 512)]
  | .profileInvalidate tree term => [(tree, 32), (term, 512)]
  | .preambleCfgWrite tree _ v => [(tree, 32), (v, 2 ^ 48)]
  | .orrCompute slice => [(slice, 4)]
  | .orrMapPublish tree cycle => [(tree, 32), (cycle, 312500)]
  | .orrHintReceive tree => [(tree, 32)]
  | .allocReadCfg slice ltree alloc => [(slice, 4), (ltree, 8), (alloc, 1024)]
  | .allocWriteCfg slice ltree alloc => [(slice, 4), (ltree, 8), (alloc, 1024)]
  | .allocDelete slice ltree alloc => [(slice, 4), (ltree, 8), (alloc, 1024)]
  | .allocReadState slice ltree alloc => [(slice, 4), (ltree, 8), (alloc, 1024)]
  | .treeCfgWrite slice i _ => [(slice, 4), (i, 8)]
  | .sxtEntriesHandover tree base cycle => [(tree, 32), (base, 50625), (cycle, 312500)]
  | .discWindowOpen tree => [(tree, 32)]
  | .discRespReceive tree utick _ => [(tree, 32), (utick, 2 ^ 48)]
  | .rangingBurst tree term => [(tree, 32), (term, 512)]
  | .sxtControlReceive tree => [(tree, 32)]
  | .ackReceive tree => [(tree, 32)]
  | .ackTimeout tree term => [(tree, 32), (term, 512)]
  | .bcastDeactivateRepeat tree term => [(tree, 32), (term, 512)]
  | .violWindowClose tree term => [(tree, 32), (term, 512)]
  | .rogueWindowClose tree => [(tree, 32)]
  | .quarHoldExpiry tree term => [(tree, 32), (term, 512)]
  | .deactHoldExpiry tree term => [(tree, 32), (term, 512)]
  | .authTimeoutExpiry tree term => [(tree, 32), (term, 512)]
  | .treeParamsSend tree => [(tree, 32)]
  | .termRead tree term => [(tree, 32), (term, 512)]
  | .termWrite tree term => [(tree, 32), (term, 512)]
  | .termDeactivate tree term => [(tree, 32), (term, 512)]
  | .termDeactivateDark tree term => [(tree, 32), (term, 512)]
  | .termQuarantine tree term => [(tree, 32), (term, 512)]
  | .termRelease tree term => [(tree, 32), (term, 512)]
  | .termRerange tree term => [(tree, 32), (term, 512)]
  | .termFind tree term => [(tree, 32), (term, 512)]
  | .termEnable tree term => [(tree, 32), (term, 512)]
  | .termClearViol tree term => [(tree, 32), (term, 512)]
  | .termAllocPush tree term => [(tree, 32), (term, 512)]
  | .termCounterReq tree term => [(tree, 32), (term, 512)]
  | .darkTestStart tree _ => [(tree, 32)]
  | .darkTestEnd tree => [(tree, 32)]
  | .reachCfgWrite tree _ => [(tree, 32)]
  | .discCfgWrite tree _ => [(tree, 32)]
  | .kxSessionOpen tree term => [(tree, 32), (term, 512)]
  | .kxSegReceive tree => [(tree, 32)]
  | .kxStatusReceive tree => [(tree, 32)]
  | .kxAbortReceive tree => [(tree, 32)]
  | .objWaitExpiry tree term _ => [(tree, 32), (term, 512)]
  | .kxVerifyDone tree term => [(tree, 32), (term, 512)]
  | .sessionLimitExpiry tree term => [(tree, 32), (term, 512)]
  | .rekeyDue tree term => [(tree, 32), (term, 512)]
  | .keySwitchStart => []
  | .oldGenerationDestroy ax => [(ax, 2 ^ 18)]
  | .reagreeDue tree term => [(tree, 32), (term, 512)]
  | .reagreeRetryExpiry tree term => [(tree, 32), (term, 512)]
  | .tmsAgeLimit tree term => [(tree, 32), (term, 512)]
  | .groupRekeyStart gax => [(gax, 2 ^ 18)]
  | .kaRekey => []
  | .kaReagree => []
  | .kaGroupRekey => []
  | .loadAnchors window _ => [(window, 16)]
  | .loadDeny window _ => [(window, 16)]
  | .loadChain window _ => [(window, 16)]
  | .clearChain => []
  | .todBroadcast tree => [(tree, 32)]
  | .timeReqReceive tree => [(tree, 32)]
  | .kaNoChainCount => []
  | .drbgReseedRetry _ => []
  | .readAttr ax pos _ => [(ax, 2 ^ 18), (pos, 2)]
  | .setAttr ax pos _ => [(ax, 2 ^ 18), (pos, 2)]
  | .genKey ax pos _ => [(ax, 2 ^ 18), (pos, 2)]
  | .destroyPos ax pos _ => [(ax, 2 ^ 18), (pos, 2)]
  | .destroy ax pos _ => [(ax, 2 ^ 18), (pos, 2)]
  | .importKey ax pos _ _ => [(ax, 2 ^ 18), (pos, 2)]
  | .importPub ax pos _ => [(ax, 2 ^ 18), (pos, 2)]
  | .importOpen ax pos _ _ => [(ax, 2 ^ 18), (pos, 2)]
  | .importClose ax pos _ => [(ax, 2 ^ 18), (pos, 2)]
  | .mkaKdf ax pos _ => [(ax, 2 ^ 18), (pos, 2)]
  | .cmac ax pos _ _ => [(ax, 2 ^ 18), (pos, 2)]
  | .wrap ax pos _ => [(ax, 2 ^ 18), (pos, 2)]
  | .unwrap ax pos _ _ => [(ax, 2 ^ 18), (pos, 2)]
  | .groupMembership ax pos _ => [(ax, 2 ^ 18), (pos, 2)]
  | .almPrefetch slice _ _ => [(slice, 4)]
  | .remaskPassOverdue => []
  | .ciphItem inst _ => [(inst, 8)]
  | .demandLoadComplete inst ax _ => [(inst, 8), (ax, 2 ^ 18)]
  | .missHoldExpiry inst => [(inst, 8)]
  | .katStart inst => [(inst, 8)]
  | .katDone inst fails => [(inst, 8), (fails, 16)]
  | .trkModeWrite _ => []
  | .trkRxFrame port cycle _ _ _ _ => [(port, 32), (cycle, 312500)]
  | .trkTxSelect port cycle => [(port, 32), (cycle, 312500)]
  | .txSaStart inst _ => [(inst, 32)]
  | .saRead inst sc an table => [(inst, 32), (sc, 64), (an, 4), (table, 4)]
  | .saWrite inst sc an table => [(inst, 32), (sc, 64), (an, 4), (table, 4)]
  | .saEnable inst sc an table => [(inst, 32), (sc, 64), (an, 4), (table, 4)]
  | .saDisable inst sc an table => [(inst, 32), (sc, 64), (an, 4), (table, 4)]
  | .trkLinkChange port _ _ _ _ locks => [(port, 32), (locks, 256)]
  | .tcMatchExpiry slice => [(slice, 4)]
  | .fwdFrame slice cycle => [(slice, 4), (cycle, 312500)]
  | .learnRequest slice => [(slice, 4)]
  | .fwdSearch slice => [(slice, 4)]
  | .fwdNext slice _ => [(slice, 4)]
  | .fwdInsert slice => [(slice, 4)]
  | .fwdDelete slice => [(slice, 4)]
  | .flushByPort slice => [(slice, 4)]
  | .tblRead slice table => [(slice, 4), (table, 8)]
  | .tblWrite slice table => [(slice, 4), (table, 8)]
  | .ageSweepStart slice => [(slice, 4)]
  | .ageSweepDone slice cycle => [(slice, 4), (cycle, 312500)]
  | .qschAdmit slice cycle => [(slice, 4), (cycle, 312500)]
  | .spillPageOut slice n => [(slice, 4), (n, 98305)]
  | .pageIn slice table idx _ => [(slice, 4), (table, 8), (idx, 2 ^ 16)]
  | .serveListBuild slice cycle _ _ => [(slice, 4), (cycle, 312500)]
  | .qRead slice table => [(slice, 4), (table, 16)]
  | .qWrite slice table => [(slice, 4), (table, 16)]
  | .qReadState slice table => [(slice, 4), (table, 16)]
  | .qFlush slice table => [(slice, 4), (table, 16)]
  | .queueSample slice => [(slice, 4)]
  | .gateCommit inst cycle => [(inst, 32), (cycle, 312500)]
  | .gateListStart inst cycle => [(inst, 32), (cycle, 312500)]
  | .gateEntryAdvance inst cycle => [(inst, 32), (cycle, 312500)]
  | .cktFrameTransmit link => [(link, 4)]
  | .cktFrameReceive link cycle _ _ => [(link, 4), (cycle, 312500)]
  | .cktSignalChange link _ => [(link, 4)]
  | .pmSecondEnd link => [(link, 4)]
  | .pmBinFinal link => [(link, 4)]
  | .pathRead link path => [(link, 4), (path, 2048)]
  | .pathWrite link path => [(link, 4), (path, 2048)]
  | .pathReadState link path => [(link, 4), (path, 2048)]
  | .pathClearCounts link path => [(link, 4), (path, 2048)]
  | .binRead link ent bin _ => [(link, 4), (ent, 4096), (bin, 64)]
  | .tsiStage cycle _ => [(cycle, 312500)]
  | .connRead page => [(page, 2)]
  | .connWrite => []
  | .connClear => []
  | .copyActive => []
  | .clearPage => []
  | .tsiArm => []
  | .tsiVerifyDone => []
  | .tsiCancel => []
  | .assignPushStandby tree term => [(tree, 32), (term, 512)]
  | .assignPushActive tree term => [(tree, 32), (term, 512)]
  | .incrWrite d incr cycle => [(d, 2), (incr, 2 ^ 32), (cycle, 312500)]
  | .adjAdd d subns => [(d, 2), (subns, 2 ^ 16)]
  | .adjSet d subns => [(d, 2), (subns, 2 ^ 16)]
  | .keepalive d => [(d, 2)]
  | .holdoverEnter d => [(d, 2)]
  | .accGrowth d => [(d, 2)]
  | .domainSwitchStart target mode => [(target, 4), (mode, 2)]
  | .domValidWrite d _ => [(d, 2)]
  | .cmpWrite c _ _ _ _ cycle => [(c, 4), (cycle, 312500)]
  | .cmpFire cycle => [(cycle, 312500)]
  | .ppsInEdge _ cycle => [(cycle, 312500)]
  | .snapshot cycle => [(cycle, 312500)]
  | .navInstruction cluster nav cycle _ _ => [(cluster, 32), (nav, 16), (cycle, 312500)]
  | .wld cluster nav cycle _ => [(cluster, 32), (nav, 16), (cycle, 312500)]
  | .wst cluster nav cycle _ => [(cluster, 32), (nav, 16), (cycle, 312500)]
  | .wadd cluster nav cycle _ => [(cluster, 32), (nav, 16), (cycle, 312500)]
  | .wsub cluster nav cycle _ => [(cluster, 32), (nav, 16), (cycle, 312500)]
  | .wand cluster nav cycle _ => [(cluster, 32), (nav, 16), (cycle, 312500)]
  | .wor cluster nav cycle _ => [(cluster, 32), (nav, 16), (cycle, 312500)]
  | .wxor cluster nav cycle _ => [(cluster, 32), (nav, 16), (cycle, 312500)]
  | .wcmpeq cluster nav cycle _ => [(cluster, 32), (nav, 16), (cycle, 312500)]
  | .wshl cluster nav cycle _ => [(cluster, 32), (nav, 16), (cycle, 312500)]
  | .wshr cluster nav cycle _ => [(cluster, 32), (nav, 16), (cycle, 312500)]
  | .wins cluster nav cycle _ => [(cluster, 32), (nav, 16), (cycle, 312500)]
  | .wext cluster nav cycle _ => [(cluster, 32), (nav, 16), (cycle, 312500)]
  | .crcstep cluster nav cycle _ => [(cluster, 32), (nav, 16), (cycle, 312500)]
  | .mbxSend cluster nav cycle _ _ => [(cluster, 32), (nav, 16), (cycle, 312500)]
  | .mbxRecv cluster nav cycle _ => [(cluster, 32), (nav, 16), (cycle, 312500)]
  | .wft cluster nav cycle _ => [(cluster, 32), (nav, 16), (cycle, 312500)]
  | .flk cluster nav cycle _ => [(cluster, 32), (nav, 16), (cycle, 312500)]
  | .almreq cluster nav cycle _ => [(cluster, 32), (nav, 16), (cycle, 312500)]
  | .mbxDeliver cluster => [(cluster, 32)]
  | .msecRegMessage cluster inst => [(cluster, 32), (inst, 32)]
  | .navInject cluster cycle => [(cluster, 32), (cycle, 312500)]
  | .injectComplete => []
  | .almreqComplete cluster nav => [(cluster, 32), (nav, 16)]
  | .hostMailboxPost cluster => [(cluster, 32)]
  | .navFrameRx cluster => [(cluster, 32)]
  | .navWatchdog cluster nav => [(cluster, 32), (nav, 16)]
  | .engineFail cluster nav => [(cluster, 32), (nav, 16)]
  | .navEnable cluster _ => [(cluster, 32)]
  | .imgLoad cluster _ _ => [(cluster, 32)]
  | .imgLoadDone cluster _ => [(cluster, 32)]
  | .minSvnWrite cluster _ => [(cluster, 32)]
  | .bankArm cluster => [(cluster, 32)]
  | .bankCancel cluster => [(cluster, 32)]
  | .bankForced cluster nav => [(cluster, 32), (nav, 16)]
  | .regionCommit inst _ => [(inst, 64)]
  | .qmapFence inst _ => [(inst, 64)]
  | .sealInit inst => [(inst, 2)]
  | .sealInitDone inst => [(inst, 2)]
  | .hbmLineRead inst master _ _ _ _ => [(inst, 2), (master, 64)]
  | .hbmLineWrite inst master _ _ _ _ _ => [(inst, 2), (master, 64)]
  | .resealRange inst r => [(inst, 2), (r, 4)]
  | .resealNode inst r => [(inst, 2), (r, 4)]
  | .resealDone inst => [(inst, 2)]
  | .doorbellWrite ring index _ => [(ring, 64), (index, 2 ^ 16)]
  | .ringCmdWrite ring cycle _ => [(ring, 8), (cycle, 312500)]
  | .ringCmdRead ring cycle => [(ring, 8), (cycle, 312500)]
  | .ringCmdExec ring cycle _ => [(ring, 8), (cycle, 312500)]
  | .ringCmdBulk ring cycle => [(ring, 8), (cycle, 312500)]
  | .execTimeout ring cycle => [(ring, 8), (cycle, 312500)]
  | .completionPost ring => [(ring, 8)]
  | .exceptionPost ring => [(ring, 64)]
  | .injectionDescriptor ring cycle _ => [(ring, 64), (cycle, 312500)]
  | .hifFault cause => [(cause, 8)]
  | .ringFault ring _ => [(ring, 64)]
  | .hifResume => []
  | .ringEnable _ => []
  | .winFenceRead _ => []
  | .vecEoi v => [(v, 256)]
  | .ringCoalTimeout ring cycle => [(ring, 64), (cycle, 312500)]
  | .msixUnmask v => [(v, 256)]
  | .crcStart inst _ => [(inst, 4)]
  | .crcData8 inst _ => [(inst, 4)]
  | .crcData16 inst _ => [(inst, 4)]
  | .crcData32 inst _ => [(inst, 4)]
  | .crcData128 inst _ => [(inst, 4)]
  | .crcCheck inst => [(inst, 4)]
  | .pmcSnapshot cycle _ => [(cycle, 312500)]
  | .errEvent _ => []
  | .escWindowClose ty inst src => [(ty, 64), (inst, 256), (src, 32)]
  | .errCaptureRelease ty inst => [(ty, 64), (inst, 256)]
  | .errForce ty inst _ => [(ty, 64), (inst, 256)]
  | .severeClear _ _ => []
  | .firstRelease => []
  | .roleInChange _ cycle => [(cycle, 312500)]
  | .roleYield => []
  | .mateHandshakeMessage kind _ => [(kind, 8)]
  | .mateFrameReceive _ => []
  | .linkRekeyDue => []
  | .pairResync => []
  | .pairRekeyNow => []
  | .powerOnSequence _ _ _ _ _ _ => []
  | .perstDeassert => []
  | .porAssert => []
  | .powerCycle _ => []
  | .supplyLoss _ _ => []
  | .vbatLoss => []
  | .lcAdvance target _ _ => [(target, 8)]
  | .readId window => [(window, 16)]
  | .writeRootHash window _ => [(window, 16)]
  | .writeImageKey slot window _ => [(slot, 4), (window, 16)]
  | .revokeImageKey slot => [(slot, 4)]
  | .writeSubsys window _ => [(window, 16)]
  | .logAppend => []
  | .logbookAppend _ => []
  | .tamperSample conds tin => [(conds, 1024), (tin, 16)]
  | .tamperFastDetect i => [(i, 2)]
  | .tampFuse src => [(src, 16)]
  | .tampTest src => [(src, 16)]
  | .tampTestEnd _ => []
  | .rtcSet sec => [(sec, 2 ^ 40)]
  | .tapInstruction ir => [(ir, 256)]
  | .dapaccAccess addr _ cycle _ _ _ => [(addr, 2 ^ 26), (cycle, 312500)]
  | .tokenFifoWrite _ => []
  | .tokenSubmit => []
  | .dbgRelock => []
  | .chalNew => []
  | .unlockExpiry => []
  | .linkBringupStart link => [(link, 5)]
  | .trainingBlockReceive n _ => [(n, 72)]
  | .stepSwitch link => [(link, 5)]
  | .highRateTrainingDone n _ => [(n, 72)]
  | .stepTimeout link => [(link, 5)]
  | .mateCodewordReceive n hdr _ _ _ => [(n, 4), (hdr, 2 ^ 20)]
  | .fastExit n => [(n, 72)]
  | .laneLockLoss n => [(n, 72)]
  | .prbsCtlWrite n _ => [(n, 72)]
  | .injOne n => [(n, 72)]
  | .adaptUpdate n _ => [(n, 72)]
  | .adaptRead n index => [(n, 72), (index, 8)]
  | .adaptReseed n => [(n, 72)]
  | .adaptRetrain n => [(n, 72)]
  | .pcieLinkUp width speed => [(width, 17), (speed, 6)]
  | .electricalIdleDetect n => [(n, 72)]
  | .idleKeepExpiry n => [(n, 72)]
  | .lanePllRelock n => [(n, 72)]
  | .prbsCheck n _ _ => [(n, 72)]

/-- The first operand out of its range, with its bound. -/
def Instr.firstBad (i : Instr) : Option (Nat × Nat) := i.ranges.find? fun q => !decide (q.1 < q.2)

/-- A command whose operands are in their ranges. -/
def Instr.wf (i : Instr) : Bool := i.ranges.all fun q => decide (q.1 < q.2)

end Sys2Proof
end

