-- ==== Sys2Proof/Tests/Slice0.lean ====
section
/-! SUPPORT. Small tests: the checks of WellFormed refuse ill-formed commands, the numbers the spec works out come out of
the model, and for each obligation with hypotheses a concrete state that meets them. -/

namespace Sys2Proof.Tests

open Sys2Proof.Machine

set_option Elab.async false

/-! ## WellFormed refuses what is out of range -/

/-- A dark burst and an empty cipher item. -/
def burst0 : Burst := ⟨false, [], 0, 0, 0, 0, 0⟩

def item0 : CItem := ⟨0, 0, 0, 0, 0, .enc, false, 0, none, [], [], []⟩

theorem test_wf_refuses_1 : ([.registerWrite (2 ^ 26) 0 0 0 [], .registerWrite 0 0 16 0 [], .registerWrite 0 0 0 312500 [],
    .multiRegisterRequest false (2 ^ 26) 0 [] 0 [], .multiRegisterRequest false 0 0 [] 312500 [], .loRegisterRead 64 0 0,
    .loRegisterRead 0 (2 ^ 26) 0, .loRegisterRead 0 0 312500, .hiRegisterWrite 64 0 0, .hiRegisterWrite 0 (2 ^ 26) 0,
    .loRegisterWrite 64 0 0 0 [], .loRegisterWrite 0 (2 ^ 26) 0 0 [], .loRegisterWrite 0 0 0 312500 [], .blockSoftReset 64 0,
    .blockSoftReset 0 256, .countClrAll 64 0, .countClrAll 0 256, .maxClr 64 0, .maxClr 0 256, .epochWrite (2 ^ 48),
    .tickOverrun 256 0, .tickOverrun 0 256, .descriptorAgeExpiry 64 0 0, .descriptorAgeExpiry 0 256 0, .descriptorAgeExpiry 0 0 312500,
    .stageDescriptorReceive 64 0 false, .stageDescriptorReceive 0 256 false, .xbarCross 8 0 false, .xbarCross 0 8 false,
    .ttxFrameStage 32 0, .ttxFrameStage 0 312500, .talFrameTransmit 32, .ttxUnitPlace 32 false none, .ttxModeWrite 32 0,
    .cktLenPgWrite 32 0 0, .cktLenPgWrite 0 2 0, .trxBurstReceive 32 0 0 burst0, .trxBurstReceive 0 (2 ^ 48) 0 burst0,
    .trxBurstReceive 0 0 50625 burst0, .rogueLight 32 0 0 [], .rogueLight 0 (2 ^ 48) 0 [], .rogueLight 0 0 50625 [],
    .reassemblyExpiry 32, .replayWindowRetire 32, .profileRead 32 0, .profileRead 0 512, .profileWriteSeed 32 0,
    .profileWriteSeed 0 512, .profileReseed 32 0, .profileReseed 0 512, .profileInvalidate 32 0, .profileInvalidate 0 512,
    .preambleCfgWrite 32 false 0, .preambleCfgWrite 0 false (2 ^ 48), .orrCompute 4, .orrMapPublish 32 0, .orrMapPublish 0 312500,
    .orrHintReceive 32, .allocReadCfg 4 0 0] :
    List Instr).all (fun c => !c.wf) = true := by decide

theorem test_wf_refuses_2 : ([.allocReadCfg 0 8 0, .allocReadCfg 0 0 1024, .allocWriteCfg 4 0 0, .allocWriteCfg 0 8 0, .allocWriteCfg 0 0 1024,
    .allocDelete 4 0 0, .allocDelete 0 8 0, .allocDelete 0 0 1024, .allocReadState 4 0 0, .allocReadState 0 8 0,
    .allocReadState 0 0 1024, .treeCfgWrite 4 0 0, .treeCfgWrite 0 8 0, .sxtEntriesHandover 32 0 0, .sxtEntriesHandover 0 50625 0,
    .sxtEntriesHandover 0 0 312500, .discWindowOpen 32, .discRespReceive 32 0 [], .discRespReceive 0 (2 ^ 48) [], .rangingBurst 32 0,
    .rangingBurst 0 512, .sxtControlReceive 32, .ackReceive 32, .ackTimeout 32 0, .ackTimeout 0 512, .bcastDeactivateRepeat 32 0,
    .bcastDeactivateRepeat 0 512, .violWindowClose 32 0, .violWindowClose 0 512, .rogueWindowClose 32, .quarHoldExpiry 32 0,
    .quarHoldExpiry 0 512, .deactHoldExpiry 32 0, .deactHoldExpiry 0 512, .authTimeoutExpiry 32 0, .authTimeoutExpiry 0 512,
    .treeParamsSend 32, .termRead 32 0, .termRead 0 512, .termWrite 32 0, .termWrite 0 512, .termDeactivate 32 0,
    .termDeactivate 0 512, .termDeactivateDark 32 0, .termDeactivateDark 0 512, .termQuarantine 32 0, .termQuarantine 0 512,
    .termRelease 32 0, .termRelease 0 512, .termRerange 32 0, .termRerange 0 512, .termFind 32 0, .termFind 0 512, .termEnable 32 0,
    .termEnable 0 512, .termClearViol 32 0, .termClearViol 0 512, .termAllocPush 32 0, .termAllocPush 0 512, .termCounterReq 32 0] :
    List Instr).all (fun c => !c.wf) = true := by decide

theorem test_wf_refuses_3 : ([.termCounterReq 0 512, .darkTestStart 32 0, .darkTestEnd 32, .reachCfgWrite 32 0, .discCfgWrite 32 0, .kxSessionOpen 32 0,
    .kxSessionOpen 0 512, .kxSegReceive 32, .kxStatusReceive 32, .kxAbortReceive 32, .objWaitExpiry 32 0 0, .objWaitExpiry 0 512 0,
    .kxVerifyDone 32 0, .kxVerifyDone 0 512, .sessionLimitExpiry 32 0, .sessionLimitExpiry 0 512, .rekeyDue 32 0, .rekeyDue 0 512,
    .oldGenerationDestroy (2 ^ 18), .reagreeDue 32 0, .reagreeDue 0 512, .reagreeRetryExpiry 32 0, .reagreeRetryExpiry 0 512,
    .tmsAgeLimit 32 0, .tmsAgeLimit 0 512, .groupRekeyStart (2 ^ 18), .loadAnchors 16 [], .loadDeny 16 [], .loadChain 16 [],
    .todBroadcast 32, .timeReqReceive 32, .readAttr (2 ^ 18) 0 false, .readAttr 0 2 false, .setAttr (2 ^ 18) 0 false,
    .setAttr 0 2 false, .genKey (2 ^ 18) 0 false, .genKey 0 2 false, .destroyPos (2 ^ 18) 0 false, .destroyPos 0 2 false,
    .destroy (2 ^ 18) 0 false, .destroy 0 2 false, .importKey (2 ^ 18) 0 false [], .importKey 0 2 false [],
    .importPub (2 ^ 18) 0 false, .importPub 0 2 false, .importOpen (2 ^ 18) 0 false [], .importOpen 0 2 false [],
    .importClose (2 ^ 18) 0 false, .importClose 0 2 false, .mkaKdf (2 ^ 18) 0 false, .mkaKdf 0 2 false, .cmac (2 ^ 18) 0 false [],
    .cmac 0 2 false [], .wrap (2 ^ 18) 0 false, .wrap 0 2 false, .unwrap (2 ^ 18) 0 false [], .unwrap 0 2 false [],
    .groupMembership (2 ^ 18) 0 false, .groupMembership 0 2 false, .almPrefetch 4 [] 0] :
    List Instr).all (fun c => !c.wf) = true := by decide

theorem test_wf_refuses_4 : ([.ciphItem 8 item0, .demandLoadComplete 8 0 false, .demandLoadComplete 0 (2 ^ 18) false, .missHoldExpiry 8, .katStart 8,
    .katDone 8 0, .katDone 0 16, .trkRxFrame 32 0 [] false 0 0, .trkRxFrame 0 312500 [] false 0 0, .trkTxSelect 32 0,
    .trkTxSelect 0 312500, .txSaStart 32 0, .saRead 32 0 0 0, .saRead 0 64 0 0, .saRead 0 0 4 0, .saRead 0 0 0 4, .saWrite 32 0 0 0,
    .saWrite 0 64 0 0, .saWrite 0 0 4 0, .saWrite 0 0 0 4, .saEnable 32 0 0 0, .saEnable 0 64 0 0, .saEnable 0 0 4 0,
    .saEnable 0 0 0 4, .saDisable 32 0 0 0, .saDisable 0 64 0 0, .saDisable 0 0 4 0, .saDisable 0 0 0 4,
    .trkLinkChange 32 false false false false 0, .trkLinkChange 0 false false false false 256, .tcMatchExpiry 4, .fwdFrame 4 0,
    .fwdFrame 0 312500, .learnRequest 4, .fwdSearch 4, .fwdNext 4 false, .fwdInsert 4, .fwdDelete 4, .flushByPort 4, .tblRead 4 0,
    .tblRead 0 8, .tblWrite 4 0, .tblWrite 0 8, .ageSweepStart 4, .ageSweepDone 4 0, .ageSweepDone 0 312500, .qschAdmit 4 0,
    .qschAdmit 0 312500, .spillPageOut 4 0, .spillPageOut 0 98305, .pageIn 4 0 0 false, .pageIn 0 8 0 false,
    .pageIn 0 0 (2 ^ 16) false, .serveListBuild 4 0 [] [], .serveListBuild 0 312500 [] [], .qRead 4 0, .qRead 0 16, .qWrite 4 0,
    .qWrite 0 16, .qReadState 4 0] :
    List Instr).all (fun c => !c.wf) = true := by decide

theorem test_wf_refuses_5 : ([.qReadState 0 16, .qFlush 4 0, .qFlush 0 16, .queueSample 4, .gateCommit 32 0, .gateCommit 0 312500, .gateListStart 32 0,
    .gateListStart 0 312500, .gateEntryAdvance 32 0, .gateEntryAdvance 0 312500, .cktFrameTransmit 4, .cktFrameReceive 4 0 false [],
    .cktFrameReceive 0 312500 false [], .cktSignalChange 4 false, .pmSecondEnd 4, .pmBinFinal 4, .pathRead 4 0, .pathRead 0 2048,
    .pathWrite 4 0, .pathWrite 0 2048, .pathReadState 4 0, .pathReadState 0 2048, .pathClearCounts 4 0, .pathClearCounts 0 2048,
    .binRead 4 0 0 false, .binRead 0 4096 0 false, .binRead 0 0 64 false, .tsiStage 312500 0, .connRead 2, .assignPushStandby 32 0,
    .assignPushStandby 0 512, .assignPushActive 32 0, .assignPushActive 0 512, .incrWrite 2 0 0, .incrWrite 0 (2 ^ 32) 0,
    .incrWrite 0 0 312500, .adjAdd 2 0, .adjAdd 0 (2 ^ 16), .adjSet 2 0, .adjSet 0 (2 ^ 16), .keepalive 2, .holdoverEnter 2,
    .accGrowth 2, .domainSwitchStart 4 0, .domainSwitchStart 0 2, .domValidWrite 2 0, .cmpWrite 4 0 0 0 0 0,
    .cmpWrite 0 0 0 0 0 312500, .cmpFire 312500, .ppsInEdge false 312500, .snapshot 312500, .navInstruction 32 0 0 [] false,
    .navInstruction 0 16 0 [] false, .navInstruction 0 0 312500 [] false, .wld 32 0 0 [], .wld 0 16 0 [], .wld 0 0 312500 [],
    .wst 32 0 0 [], .wst 0 16 0 [], .wst 0 0 312500 []] :
    List Instr).all (fun c => !c.wf) = true := by decide

theorem test_wf_refuses_6 : ([.wadd 32 0 0 [], .wadd 0 16 0 [], .wadd 0 0 312500 [], .wsub 32 0 0 [], .wsub 0 16 0 [], .wsub 0 0 312500 [], .wand 32 0 0 [],
    .wand 0 16 0 [], .wand 0 0 312500 [], .wor 32 0 0 [], .wor 0 16 0 [], .wor 0 0 312500 [], .wxor 32 0 0 [], .wxor 0 16 0 [],
    .wxor 0 0 312500 [], .wcmpeq 32 0 0 [], .wcmpeq 0 16 0 [], .wcmpeq 0 0 312500 [], .wshl 32 0 0 [], .wshl 0 16 0 [],
    .wshl 0 0 312500 [], .wshr 32 0 0 [], .wshr 0 16 0 [], .wshr 0 0 312500 [], .wins 32 0 0 [], .wins 0 16 0 [], .wins 0 0 312500 [],
    .wext 32 0 0 [], .wext 0 16 0 [], .wext 0 0 312500 [], .crcstep 32 0 0 [], .crcstep 0 16 0 [], .crcstep 0 0 312500 [],
    .mbxSend 32 0 0 [] false, .mbxSend 0 16 0 [] false, .mbxSend 0 0 312500 [] false, .mbxRecv 32 0 0 [], .mbxRecv 0 16 0 [],
    .mbxRecv 0 0 312500 [], .wft 32 0 0 [], .wft 0 16 0 [], .wft 0 0 312500 [], .flk 32 0 0 [], .flk 0 16 0 [], .flk 0 0 312500 [],
    .almreq 32 0 0 [], .almreq 0 16 0 [], .almreq 0 0 312500 [], .mbxDeliver 32, .msecRegMessage 32 0, .msecRegMessage 0 32,
    .navInject 32 0, .navInject 0 312500, .almreqComplete 32 0, .almreqComplete 0 16, .hostMailboxPost 32, .navFrameRx 32,
    .navWatchdog 32 0, .navWatchdog 0 16, .engineFail 32 0] :
    List Instr).all (fun c => !c.wf) = true := by decide

theorem test_wf_refuses_7 : ([.engineFail 0 16, .navEnable 32 0, .imgLoad 32 0 [], .imgLoadDone 32 false, .minSvnWrite 32 0, .bankArm 32, .bankCancel 32,
    .bankForced 32 0, .bankForced 0 16, .regionCommit 64 0, .qmapFence 64 0, .sealInit 2, .sealInitDone 2,
    .hbmLineRead 2 0 0 [] false [], .hbmLineRead 0 64 0 [] false [], .hbmLineWrite 2 0 0 [] [] [] [], .hbmLineWrite 0 64 0 [] [] [] [],
    .resealRange 2 0, .resealRange 0 4, .resealNode 2 0, .resealNode 0 4, .resealDone 2, .doorbellWrite 64 0 [],
    .doorbellWrite 0 (2 ^ 16) [], .ringCmdWrite 8 0 [], .ringCmdWrite 0 312500 [], .ringCmdRead 8 0, .ringCmdRead 0 312500,
    .ringCmdExec 8 0 [], .ringCmdExec 0 312500 [], .ringCmdBulk 8 0, .ringCmdBulk 0 312500, .execTimeout 8 0, .execTimeout 0 312500,
    .completionPost 8, .exceptionPost 64, .injectionDescriptor 64 0 [], .injectionDescriptor 0 312500 [], .hifFault 8,
    .ringFault 64 false, .vecEoi 256, .ringCoalTimeout 64 0, .ringCoalTimeout 0 312500, .msixUnmask 256, .crcStart 4 0, .crcData8 4 0,
    .crcData16 4 0, .crcData32 4 0, .crcData128 4 0, .crcCheck 4, .pmcSnapshot 312500 false, .escWindowClose 64 0 0,
    .escWindowClose 0 256 0, .escWindowClose 0 0 32, .errCaptureRelease 64 0, .errCaptureRelease 0 256, .errForce 64 0 0,
    .errForce 0 256 0, .roleInChange false 312500, .mateHandshakeMessage 8 []] :
    List Instr).all (fun c => !c.wf) = true := by decide

theorem test_wf_refuses_8 : ([.lcAdvance 8 [] none, .readId 16, .writeRootHash 16 [], .writeImageKey 4 0 [], .writeImageKey 0 16 [], .revokeImageKey 4,
    .writeSubsys 16 [], .tamperSample 1024 0, .tamperSample 0 16, .tamperFastDetect 2, .tampFuse 16, .tampTest 16, .rtcSet (2 ^ 40),
    .tapInstruction 256, .dapaccAccess (2 ^ 26) none 0 [] false [], .dapaccAccess 0 none 312500 [] false [], .linkBringupStart 5,
    .trainingBlockReceive 72 [], .stepSwitch 5, .highRateTrainingDone 72 [], .stepTimeout 5, .mateCodewordReceive 4 0 [] 0 0,
    .mateCodewordReceive 0 (2 ^ 20) [] 0 0, .fastExit 72, .laneLockLoss 72, .prbsCtlWrite 72 0, .injOne 72, .adaptUpdate 72 [],
    .adaptRead 72 0, .adaptRead 0 8, .adaptReseed 72, .adaptRetrain 72, .pcieLinkUp 17 0, .pcieLinkUp 0 6, .electricalIdleDetect 72,
    .idleKeepExpiry 72, .lanePllRelock 72, .prbsCheck 72 [] false] :
    List Instr).all (fun c => !c.wf) = true := by decide

theorem test_wf_takes_1 : ([.registerWrite (2 ^ 26 - 1) 0 (16 - 1) (312500 - 1) [], .multiRegisterRequest false (2 ^ 26 - 1) 0 [] (312500 - 1) [],
    .loRegisterRead (64 - 1) (2 ^ 26 - 1) (312500 - 1), .hiRegisterWrite (64 - 1) (2 ^ 26 - 1) 0,
    .loRegisterWrite (64 - 1) (2 ^ 26 - 1) 0 (312500 - 1) [], .blockSoftReset (64 - 1) (256 - 1), .countClrAll (64 - 1) (256 - 1),
    .maxClr (64 - 1) (256 - 1), .epochWrite (2 ^ 48 - 1), .tickOverrun (256 - 1) (256 - 1),
    .descriptorAgeExpiry (64 - 1) (256 - 1) (312500 - 1), .stageDescriptorReceive (64 - 1) (256 - 1) false,
    .xbarCross (8 - 1) (8 - 1) false, .ttxFrameStage (32 - 1) (312500 - 1), .talFrameTransmit (32 - 1),
    .ttxUnitPlace (32 - 1) false none, .ttxModeWrite (32 - 1) 0, .cktLenPgWrite (32 - 1) (2 - 1) 0,
    .trxBurstReceive (32 - 1) (2 ^ 48 - 1) (50625 - 1) burst0, .rogueLight (32 - 1) (2 ^ 48 - 1) (50625 - 1) [],
    .reassemblyExpiry (32 - 1), .replayWindowRetire (32 - 1), .profileRead (32 - 1) (512 - 1), .profileWriteSeed (32 - 1) (512 - 1),
    .profileReseed (32 - 1) (512 - 1), .profileInvalidate (32 - 1) (512 - 1), .preambleCfgWrite (32 - 1) false (2 ^ 48 - 1),
    .orrCompute (4 - 1), .orrMapPublish (32 - 1) (312500 - 1), .orrHintReceive (32 - 1),
    .allocReadCfg (4 - 1) (8 - 1) (1024 - 1), .allocWriteCfg (4 - 1) (8 - 1) (1024 - 1), .allocDelete (4 - 1) (8 - 1) (1024 - 1),
    .allocReadState (4 - 1) (8 - 1) (1024 - 1), .treeCfgWrite (4 - 1) (8 - 1) 0, .sxtEntriesHandover (32 - 1) (50625 - 1) (312500 - 1),
    .discWindowOpen (32 - 1), .discRespReceive (32 - 1) (2 ^ 48 - 1) [], .rangingBurst (32 - 1) (512 - 1), .sxtControlReceive (32 - 1),
    .ackReceive (32 - 1), .ackTimeout (32 - 1) (512 - 1), .bcastDeactivateRepeat (32 - 1) (512 - 1),
    .violWindowClose (32 - 1) (512 - 1), .rogueWindowClose (32 - 1), .quarHoldExpiry (32 - 1) (512 - 1),
    .deactHoldExpiry (32 - 1) (512 - 1), .authTimeoutExpiry (32 - 1) (512 - 1), .treeParamsSend (32 - 1), .termRead (32 - 1) (512 - 1),
    .termWrite (32 - 1) (512 - 1), .termDeactivate (32 - 1) (512 - 1), .termDeactivateDark (32 - 1) (512 - 1),
    .termQuarantine (32 - 1) (512 - 1), .termRelease (32 - 1) (512 - 1), .termRerange (32 - 1) (512 - 1), .termFind (32 - 1) (512 - 1),
    .termEnable (32 - 1) (512 - 1), .termClearViol (32 - 1) (512 - 1), .termAllocPush (32 - 1) (512 - 1)] :
    List Instr).all (fun c => c.wf) = true := by decide

theorem test_wf_takes_2 : ([.termCounterReq (32 - 1) (512 - 1), .darkTestStart (32 - 1) 0, .darkTestEnd (32 - 1), .reachCfgWrite (32 - 1) 0,
    .discCfgWrite (32 - 1) 0, .kxSessionOpen (32 - 1) (512 - 1), .kxSegReceive (32 - 1), .kxStatusReceive (32 - 1),
    .kxAbortReceive (32 - 1), .objWaitExpiry (32 - 1) (512 - 1) 0, .kxVerifyDone (32 - 1) (512 - 1),
    .sessionLimitExpiry (32 - 1) (512 - 1), .rekeyDue (32 - 1) (512 - 1), .oldGenerationDestroy (2 ^ 18 - 1),
    .reagreeDue (32 - 1) (512 - 1), .reagreeRetryExpiry (32 - 1) (512 - 1), .tmsAgeLimit (32 - 1) (512 - 1),
    .groupRekeyStart (2 ^ 18 - 1), .loadAnchors (16 - 1) [], .loadDeny (16 - 1) [], .loadChain (16 - 1) [], .todBroadcast (32 - 1),
    .timeReqReceive (32 - 1), .readAttr (2 ^ 18 - 1) (2 - 1) false, .setAttr (2 ^ 18 - 1) (2 - 1) false,
    .genKey (2 ^ 18 - 1) (2 - 1) false, .destroyPos (2 ^ 18 - 1) (2 - 1) false, .destroy (2 ^ 18 - 1) (2 - 1) false,
    .importKey (2 ^ 18 - 1) (2 - 1) false [], .importPub (2 ^ 18 - 1) (2 - 1) false, .importOpen (2 ^ 18 - 1) (2 - 1) false [],
    .importClose (2 ^ 18 - 1) (2 - 1) false, .mkaKdf (2 ^ 18 - 1) (2 - 1) false, .cmac (2 ^ 18 - 1) (2 - 1) false [],
    .wrap (2 ^ 18 - 1) (2 - 1) false, .unwrap (2 ^ 18 - 1) (2 - 1) false [], .groupMembership (2 ^ 18 - 1) (2 - 1) false,
    .almPrefetch (4 - 1) [] 0, .ciphItem (8 - 1) item0, .demandLoadComplete (8 - 1) (2 ^ 18 - 1) false, .missHoldExpiry (8 - 1),
    .katStart (8 - 1), .katDone (8 - 1) (16 - 1), .trkRxFrame (32 - 1) (312500 - 1) [] false 0 0, .trkTxSelect (32 - 1) (312500 - 1),
    .txSaStart (32 - 1) 0, .saRead (32 - 1) (64 - 1) (4 - 1) (4 - 1), .saWrite (32 - 1) (64 - 1) (4 - 1) (4 - 1),
    .saEnable (32 - 1) (64 - 1) (4 - 1) (4 - 1), .saDisable (32 - 1) (64 - 1) (4 - 1) (4 - 1),
    .trkLinkChange (32 - 1) false false false false (256 - 1), .tcMatchExpiry (4 - 1), .fwdFrame (4 - 1) (312500 - 1),
    .learnRequest (4 - 1), .fwdSearch (4 - 1), .fwdNext (4 - 1) false, .fwdInsert (4 - 1), .fwdDelete (4 - 1), .flushByPort (4 - 1),
    .tblRead (4 - 1) (8 - 1)] :
    List Instr).all (fun c => c.wf) = true := by decide

theorem test_wf_takes_3 : ([.tblWrite (4 - 1) (8 - 1), .ageSweepStart (4 - 1), .ageSweepDone (4 - 1) (312500 - 1), .qschAdmit (4 - 1) (312500 - 1),
    .spillPageOut (4 - 1) (98305 - 1), .pageIn (4 - 1) (8 - 1) (2 ^ 16 - 1) false, .serveListBuild (4 - 1) (312500 - 1) [] [],
    .qRead (4 - 1) (16 - 1), .qWrite (4 - 1) (16 - 1), .qReadState (4 - 1) (16 - 1), .qFlush (4 - 1) (16 - 1), .queueSample (4 - 1),
    .gateCommit (32 - 1) (312500 - 1), .gateListStart (32 - 1) (312500 - 1), .gateEntryAdvance (32 - 1) (312500 - 1),
    .cktFrameTransmit (4 - 1), .cktFrameReceive (4 - 1) (312500 - 1) false [], .cktSignalChange (4 - 1) false, .pmSecondEnd (4 - 1),
    .pmBinFinal (4 - 1), .pathRead (4 - 1) (2048 - 1), .pathWrite (4 - 1) (2048 - 1), .pathReadState (4 - 1) (2048 - 1),
    .pathClearCounts (4 - 1) (2048 - 1), .binRead (4 - 1) (4096 - 1) (64 - 1) false, .tsiStage (312500 - 1) 0, .connRead (2 - 1),
    .assignPushStandby (32 - 1) (512 - 1), .assignPushActive (32 - 1) (512 - 1), .incrWrite (2 - 1) (2 ^ 32 - 1) (312500 - 1),
    .adjAdd (2 - 1) (2 ^ 16 - 1), .adjSet (2 - 1) (2 ^ 16 - 1), .keepalive (2 - 1), .holdoverEnter (2 - 1), .accGrowth (2 - 1),
    .domainSwitchStart (4 - 1) (2 - 1), .domValidWrite (2 - 1) 0, .cmpWrite (4 - 1) 0 0 0 0 (312500 - 1), .cmpFire (312500 - 1),
    .ppsInEdge false (312500 - 1), .snapshot (312500 - 1), .navInstruction (32 - 1) (16 - 1) (312500 - 1) [] false,
    .wld (32 - 1) (16 - 1) (312500 - 1) [], .wst (32 - 1) (16 - 1) (312500 - 1) [], .wadd (32 - 1) (16 - 1) (312500 - 1) [],
    .wsub (32 - 1) (16 - 1) (312500 - 1) [], .wand (32 - 1) (16 - 1) (312500 - 1) [], .wor (32 - 1) (16 - 1) (312500 - 1) [],
    .wxor (32 - 1) (16 - 1) (312500 - 1) [], .wcmpeq (32 - 1) (16 - 1) (312500 - 1) [], .wshl (32 - 1) (16 - 1) (312500 - 1) [],
    .wshr (32 - 1) (16 - 1) (312500 - 1) [], .wins (32 - 1) (16 - 1) (312500 - 1) [], .wext (32 - 1) (16 - 1) (312500 - 1) [],
    .crcstep (32 - 1) (16 - 1) (312500 - 1) [], .mbxSend (32 - 1) (16 - 1) (312500 - 1) [] false,
    .mbxRecv (32 - 1) (16 - 1) (312500 - 1) [], .wft (32 - 1) (16 - 1) (312500 - 1) [], .flk (32 - 1) (16 - 1) (312500 - 1) [],
    .almreq (32 - 1) (16 - 1) (312500 - 1) []] :
    List Instr).all (fun c => c.wf) = true := by decide

theorem test_wf_takes_4 : ([.mbxDeliver (32 - 1), .msecRegMessage (32 - 1) (32 - 1), .navInject (32 - 1) (312500 - 1), .almreqComplete (32 - 1) (16 - 1),
    .hostMailboxPost (32 - 1), .navFrameRx (32 - 1), .navWatchdog (32 - 1) (16 - 1), .engineFail (32 - 1) (16 - 1),
    .navEnable (32 - 1) 0, .imgLoad (32 - 1) 0 [], .imgLoadDone (32 - 1) false, .minSvnWrite (32 - 1) 0, .bankArm (32 - 1),
    .bankCancel (32 - 1), .bankForced (32 - 1) (16 - 1), .regionCommit (64 - 1) 0, .qmapFence (64 - 1) 0, .sealInit (2 - 1),
    .sealInitDone (2 - 1), .hbmLineRead (2 - 1) (64 - 1) 0 [] false [], .hbmLineWrite (2 - 1) (64 - 1) 0 [] [] [] [],
    .resealRange (2 - 1) (4 - 1), .resealNode (2 - 1) (4 - 1), .resealDone (2 - 1), .doorbellWrite (64 - 1) (2 ^ 16 - 1) [],
    .ringCmdWrite (8 - 1) (312500 - 1) [], .ringCmdRead (8 - 1) (312500 - 1), .ringCmdExec (8 - 1) (312500 - 1) [],
    .ringCmdBulk (8 - 1) (312500 - 1), .execTimeout (8 - 1) (312500 - 1), .completionPost (8 - 1), .exceptionPost (64 - 1),
    .injectionDescriptor (64 - 1) (312500 - 1) [], .hifFault (8 - 1), .ringFault (64 - 1) false, .vecEoi (256 - 1),
    .ringCoalTimeout (64 - 1) (312500 - 1), .msixUnmask (256 - 1), .crcStart (4 - 1) 0, .crcData8 (4 - 1) 0, .crcData16 (4 - 1) 0,
    .crcData32 (4 - 1) 0, .crcData128 (4 - 1) 0, .crcCheck (4 - 1), .pmcSnapshot (312500 - 1) false,
    .escWindowClose (64 - 1) (256 - 1) (32 - 1), .errCaptureRelease (64 - 1) (256 - 1), .errForce (64 - 1) (256 - 1) 0,
    .roleInChange false (312500 - 1), .mateHandshakeMessage (8 - 1) [], .lcAdvance (8 - 1) [] none, .readId (16 - 1),
    .writeRootHash (16 - 1) [], .writeImageKey (4 - 1) (16 - 1) [], .revokeImageKey (4 - 1), .writeSubsys (16 - 1) [],
    .tamperSample (1024 - 1) (16 - 1), .tamperFastDetect (2 - 1), .tampFuse (16 - 1), .tampTest (16 - 1)] :
    List Instr).all (fun c => c.wf) = true := by decide

theorem test_wf_takes_5 : ([.rtcSet (2 ^ 40 - 1), .tapInstruction (256 - 1), .dapaccAccess (2 ^ 26 - 1) none (312500 - 1) [] false [],
    .linkBringupStart (5 - 1), .trainingBlockReceive (72 - 1) [], .stepSwitch (5 - 1), .highRateTrainingDone (72 - 1) [],
    .stepTimeout (5 - 1), .mateCodewordReceive (4 - 1) (2 ^ 20 - 1) [] 0 0, .fastExit (72 - 1), .laneLockLoss (72 - 1),
    .prbsCtlWrite (72 - 1) 0, .injOne (72 - 1), .adaptUpdate (72 - 1) [], .adaptRead (72 - 1) (8 - 1), .adaptReseed (72 - 1),
    .adaptRetrain (72 - 1), .pcieLinkUp (17 - 1) (6 - 1), .electricalIdleDetect (72 - 1), .idleKeepExpiry (72 - 1),
    .lanePllRelock (72 - 1), .prbsCheck (72 - 1) [] false] :
    List Instr).all (fun c => c.wf) = true := by decide
/-! ## Numbers that the spec works out -/

/-- A state after one command; where the command stops, a state with nothing in it. -/
def after (c : Instr) (s : State) : State := match exec c s with
  | .next t => t
  | _ => State.reset

/-- ASCII "123456789", the usual check text. -/
def digits : Bytes := ascii "123456789"

-- R50: 0x29B1; R424: 0xE3069283; R260: the IEEE 802.3 CRC-32, 0xCBF43926.
theorem test_check_values : crc16 digits = 0x29B1 ∧ crc32c digits = 0xE3069283 ∧ crc32 digits = 0xCBF43926 := by decide +kernel

-- R50: the header of the 1,496-byte frame to terminal 40, class 3.
theorem test_unit_header : unitHeader 1516 323 0 true true false = [0x17, 0xB0, 0x02, 0x86, 0xC0, 0x00, 0x80, 0x2D] := by decide +kernel

-- R39: the twelve bytes before the CRC.
theorem test_frame_header : (frameHeader 0x0CC15A3E7B40 8 (frameFlags 0 false false false) 300).take 12 =
    [0x0C, 0xC1, 0x5A, 0x3E, 0x7B, 0x40, 0x08, 0x00, 0x01, 0x2C, 0x00, 0x00] := by decide +kernel

-- R60: frame byte 16 is XORed with 0x6B; the burst's first report byte with 0x08.
theorem test_scrambler : scrBytes (frameSeed 0x0CC15A3E7B40) 1 = [0x6B] ∧ scrBytes (0x228 * 2 ^ 48 + 0x0CC15A3E7B46) 1 = [0x08] := by
  decide +kernel

-- R78 and the burst of the worked example: one codeword of 2,088 bytes with 1,752 information bytes.
theorem test_burst_layout : layout 141 128 = (1, 2088, 1752) ∧ capOf 97 128 = some 1024 ∧ capOf 96 128 = some 1008 ∧
    capOf 141 128 = some 1728 ∧ capOf 39 128 = some 96 ∧ blocksFor 1024 128 = 97 := by decide +kernel

-- R129: the entry of allocation 81.
theorem test_map_entry : GEnt.bytes ⟨0, 81, 12000, 141, false, false⟩ = [0x05, 0x12, 0xEE, 0x00, 0x08, 0xD0, 0x69, 0xAC] := by decide +kernel

-- R147, the new kiosk: spread, slot, window, span and EQD_DISC.
theorem test_discovery_geometry : spreadOf 4 29 = 9915 ∧ dslotOf 256 = 48 ∧ windowLen 4 29 256 256 = 22251 ∧ spanOf 22251 50157 = 1 ∧
    eqdDiscOf 6 4 = 38676952 := by decide +kernel

-- R202: the IVs of terminal 40's downstream and upstream units.
theorem test_tick_iv : tickIv 0x0CC15A3E7B40 1 4136 8 0 0 0 = [0x0C, 0xC1, 0x5A, 0x3E, 0x7B, 0x40, 0x00, 0x01, 0x04, 0x0A, 0x10, 0x00] ∧
    tickIv 0x0CC15A3E7B46 1 4136 8 1 0 0 = [0x0C, 0xC1, 0x5A, 0x3E, 0x7B, 0x46, 0x00, 0x01, 0x04, 0x0A, 0x11, 0x00] := by decide +kernel

-- R245: the IV of PN 0xE00000001 on port 2, and the PN that the frame's 32 bits stand for.
theorem test_macsec_iv : macsecIv true 0 0xE00000001 2 0x4F1C27A90B86E3D57C129A40 =
      [0x4F, 0x1C, 0x27, 0xAB, 0x0B, 0x86, 0xE3, 0xDB, 0x7C, 0x12, 0x9A, 0x41] ∧
    fullPn true 0xE00000001 1 = 0xE00000001 := by decide +kernel

-- R360: MBX.SEND x10, w4, x11.
theorem test_mbx_send_word : decodeNav 0x0045955B = some (.mbxSend 10 11 4) := by decide +kernel

-- R394, the reset map and the node lost under tree 8: leaf nodes of ASSOC's 64 MiB, and the path of AX 4,136.
theorem test_counter_tree : (treeLevels 9 (32 * unitLines)).take 2 = [131072, 16384] ∧ 4 * 4136 = 16544 ∧ underNode 0 2068 16544 = true ∧
    underNode 1 258 16544 = true ∧ underNode 2 32 16544 = true ∧ underNode 3 4 16544 = true ∧ readCycles 2 = 160 := by decide +kernel

-- R336: the reset increment, and the range that a write is held to.
theorem test_increment : State.reset.reg Reg.AST_INCR_LO 0 = 0xCCCCCCCD := by decide +kernel

-- R424: the reflected CRC-32C of "123456789", its last byte by a DATA8 write of 0x39.
theorem test_crc_unit :
    let s := (State.reset.setFld Reg.CRC_CTL_ALG 0 1).setReg Reg.CRC_XOR_LO 0 0xFFFFFFFF
    (after (.crcData8 0 0x39) (s.setCrc 0 { st := crcFeed 1 0xFFFFFFFF (digits.take 8), bad := false })).crcResult 0 = 0xE3069283 := by
  decide +kernel

-- R438, R450: the first capture of TTX[8] source 0x01 in tick 0x0CC15A3E7E00.
theorem test_first_capture :
    let s := { State.reset with tm := { State.reset.tm with free := false, m := 0x0CC15A3E7E00 } }
    let s := after (.errEvent [⟨Ty.TTX, 8, 1, 0x3A1C, 0, false, none⟩]) s
    s.reg (Reg.ERR_FIRST Ty.TTX) 8 = 0x7E008101 ∧ s.reg (Reg.ERR_CAPTURE_LO Ty.TTX) 8 = 0x3A1C ∧ s.reg Reg.BIN_FIRST_SRC 0 = 0x10088101 := by
  decide +kernel

-- The reset numbers of R147 and R149 that the spec works out for the reset settings.
theorem test_discovery_reset : State.reset.resvMax 0 = 36131 ∧ eqdDiscOf 6 0 = 38880000 := by decide +kernel
/-! ## Every obligation with hypotheses: states that meet them -/

/-- A running state that meets `p`. -/
def On (s : State) (p : Bool) : Bool := !s.halted && !s.off && p

/-- Every clause's hypotheses are met. -/
abbrev All (l : List Bool) : Bool := l.all id

/-- The state after reset. -/
abbrev R : State := State.reset

/-- Reset with the device halted, with its supplies absent, and with one command waiting. -/
def halted : State := { R with halted := true }
def offState : State := { R with lcs := { R.lcs with off := true, dark := true } }
def waiting : State := { R with pending := [.epochWrite 5] }

/-- An access to a register no part has: the last type code that R2 gives to pages. -/
def absentKey : Nat := regKey 0xFE 255 0xFFC

theorem test_meets_StepRunsFrontCommand : All [
    R.pending = [],
    waiting.pending = .epochWrite 5 :: []] = true := by decide +kernel

theorem test_meets_HaltedDeviceIgnoresCommands :
    (halted.halted = true ∧ ¬ ActsHalted (.epochWrite 0)) ∧ (offState.off = true ∧ ¬ ActsOff .tickBoundary) :=
  ⟨⟨rfl, fun h => h⟩, ⟨rfl, fun h => h⟩⟩

theorem test_meets_QueueAndPartKept : ∃ t, exec (.epochWrite 5) waiting = .next t := ⟨_, rfl⟩

theorem test_meets_RoutedLevelsKeepTheirRequest : LevelsSeen waiting ∧ ∃ t, step waiting = .next t :=
  ⟨by unfold LevelsSeen; decide +kernel, _, rfl⟩

theorem test_meets_AbsentPageReadsZeroIgnoresWrites : All [
    (absentKey < 0x0FF00000 ∧ R.present (keyTy absentKey) (keyInst absentKey) = false),
    254 < 255,
    255 < 256] = true := by decide +kernel

theorem test_meets_AccessCodesStoreSetClear :
    (2 ^ 32 - 1 < 2 ^ 32) ∧
    ∀ a ∈ [Acc.rw, .w1c, .w1s, .rwo, .ro, .wo], ∀ p ∈ [(0, 32), (31, 1)],
      ∃ f : FieldSpec, f.acc = a ∧ f.lo = p.1 ∧ f.w = p.2 ∧ f.lo + f.w ≤ 32 := by
  refine ⟨by decide, fun a _ p hp => ⟨⟨p.1, p.2, a, 0, 0, 0, 1, 0, 0⟩, rfl, rfl, rfl, ?_⟩⟩
  exact (by decide : ∀ q ∈ [((0 : Nat), (32 : Nat)), (31, 1)], q.1 + q.2 ≤ 32) p hp

theorem test_meets_RegisterCommandsReadAndWrite : All [
    On R ((14 : Nat) ≠ 15),
    On R ((0x26 : Nat) < 255 ∧ 255 < 256 ∧ R.present 0 0 = true),
    On R (absentKey < 0x0FF00000 ∧ R.present (keyTy (absentKey / 4 * 4)) (keyInst (absentKey / 4 * 4)) = false),
    (let lo := Reg.AST_EPOCH_LO.at 0
     On R (R.present (keyTy lo) (keyInst lo) = true ∧ isLo lo = true)),
    (let lo := Reg.TRX_PREAMBLE_AT_LO.at 31
     On R (lo + 4 < 0x0FF00000 ∧ R.present (keyTy (lo + 4)) (keyInst (lo + 4)) = true ∧
       R.secondary (keyTy (lo + 4)) (keyInst (lo + 4)) (keyOff (lo + 4)) = false ∧ (regSpec (keyTy (lo + 4)) (keyOff (lo + 4))).isSome = true ∧
       isHi (lo + 4) = true)),
    (let lo := regKey 0x1D 3 0xA0
     let s := { R with pr := { R.pr with held := R.pr.held.set none (pairKey 63 (lo + 4)) (some 7) } }
     On s (lo < 0x0FF00000 ∧ s.present (keyTy lo) (keyInst lo) = true ∧ s.secondary (keyTy lo) (keyInst lo) (keyOff lo) = false ∧
       (regSpec (keyTy lo) (keyOff lo)).isSome = true ∧ isLo lo = true ∧ isHi lo = false ∧
       keyTy lo ∉ [Ty.HIF, Ty.AST, Ty.TAMP, Ty.TRX] ∧ mirroredReg (keyTy lo) (keyOff lo) = false ∧
       s.pr.held.get none (pairKey (63 % 64) (lo + 4)) = some 7)),
    On R ((0 : Nat) % 4 = 0 ∧ (0 : Nat) < 0x0FF00000 ∧ isLo 0 = false ∧ isHi 0 = false ∧ R.present (keyTy 0) (keyInst 0) = true),
    On R (Reg.AST_EPOCH_LO.at 0 % 4 = 0 ∧ isLo (Reg.AST_EPOCH_LO.at 0) = true)] = true := by decide +kernel

theorem test_meets_ClearsAndSoftResetOfOnePage : All [
    On R (R.present Ty.SER 71 = true),
    On R (R.present Ty.TTX 31 = true ∧ isTickStage Ty.TTX = true),
    On R (Ty.QSCH = Ty.QSCH ∧ R.present Ty.QSCH 3 = true),
    On R (Ty.FWD = Ty.FWD ∧ R.present Ty.FWD 3 = true),
    On R (¬ (keyTy 0 = Ty.FWD ∧ keyInst 0 = 3) ∧ R.regs.wf resetAt = true),
    On R (keyTy (Reg.FWD_LEARNED.at 3) = Ty.FWD ∧ keyInst (Reg.FWD_LEARNED.at 3) = 3 ∧ isCounter Ty.FWD (keyOff (Reg.FWD_LEARNED.at 3)) = true)] = true := by decide +kernel

/-- Reset with an entry waiting for the Logbook; before the start; halted and unstarted; blank OTP; a life cycle that matches. -/
def logWaits : State := { R with lcs := { R.lcs with logQ := [List.replicate 16 0] } }
def unstarted (s : State) : State := { s with lcs := { s.lcs with started := false } }
def lifeAt (n : Nat) : State :=
  { R with lcs := { R.lcs with otp := { R.lcs.otp with lcState := lcPattern n, div := R.lcs.otp.div.set none n (some 1) } } }

theorem test_meets_StartPowerAndColdResets : All [
    (tampKept (Reg.TAMP_STS.at 0) = false ∨ tampKept (Reg.TAMP_STS.at 0) = true),
    R.halted = false,
    (halted.halted = true ∧ halted.lcs.unlock = none),
    (logWaits.lcs.logQ = List.replicate 16 0 :: [] ∧ logWaits.lcs.otp.log.length < 2048),
    offState.lcs.dark = true,
    R.lcs.dark = false,
    ({ R with lcs := { R.lcs with started := true } } : State).lcs.started = true,
    ((unstarted halted).lcs.started = false ∧ (unstarted halted).halted = true),
    (let r : State := { R with lcs := { R.lcs with started := true, off := false, dark := false } }
     (unstarted R).lcs.started = false ∧ (unstarted R).halted = false ∧ r.startLog.lcEvaluate.halted = false),
    On (unstarted R) ((unstarted R).lcs.started = false),
    (0 ≤ 3 ∧ (lifeAt 0).lcs.otp.lcState = lcPattern 0),
    (3 ≤ 3 ∧ (lifeAt 3).lcs.otp.lcState = lcPattern 3 ∧ (((lifeAt 3).lcs.otp.div.find 3).bind id).isSome = true)] = true := by decide +kernel


/-- A page enabled. -/
def on_ (ty i : Nat) (s : State) : State := s.setReg (Reg.CTL ty) i (s.reg (Reg.CTL ty) i ||| 1)

/-- Reset on the other parts; a lane on line; a frame. -/
def half : State := { R with part := .bv3216 }
def bare : State := { R with part := .bv3200 }
def laneLive (n : Nat) (s : State) : State :=
  (((s.setReg (Reg.CTL Ty.SER) n 1).setFlag Reg.SER_CTL_TX_EN n true).setFlag Reg.SER_CTL_RX_EN n true).setFlag
    Reg.SER_CTL_IDLE n false
def frame : Bytes := [2, 0, 0, 0, 0, 9, 2, 0, 0, 0, 0, 8, 8, 0] ++ List.replicate 46 0
def pkt : Pkt := { data := frame, src := 0, dst := 0, hp := 6, domain := 0, cls := 0, yellow := false, ptp := false, eapol := false, tick := 0, born := 0,
                   tA := 0, tB := 0, el := 0, flow := 0, inj := none }

/-- Link 4 up on lane 71 from one step; lane n with a lane record; a well-formed training block of a lane. -/
def linkAt (k st : Nat) (up : Bool) (s : State) : State := s.setLink k { serLinkReset with step := st, up := up }
def laneAs (n : Nat) (x : SerS) (s : State) : State := s.setLane n x
def block : Bytes := let b := toBE 8 0x5A0FC3A596E13C78 ++ List.replicate 20 0; b ++ toBE 4 (crc32c b)
def wanted : State := R.setFlag Reg.PAIR_CTL_MATE_EN 0 true

theorem test_meets_LanesAndTheirLinks : All [
    On R (R.linkWanted 0 = false),
    On (linkAt 4 1 false R) (((linkAt 4 1 false R).serLink 4).step ≠ 0),
    (let s := R.setFlag Reg.SER_CTL_TX_EN 71 false
     On s (∃ m ∈ linkLanes 4, s.laneTx m = false)),
    (let s := laneLive 64 (laneLive 65 (laneLive 66 (laneLive 67 wanted)))
     On s (s.linkWanted 0 = true ∧ (s.serLink 0).step = 0 ∧ ∀ m ∈ linkLanes 0, s.laneTx m = true)),
    (laneLink 0 = none ∧ laneLink 63 = none ∧ laneLink 64 = some 0 ∧ laneLink 67 = some 0 ∧ laneLink 71 = some 4),
    On R ((R.serLink 0).step = 0),
    (let s := linkAt 4 4 false R
     On s (4 ≤ (s.serLink 4).step)),
    (let s := laneLive 71 (linkAt 4 1 false R)
     On s (laneLink 71 = some 4 ∧ (s.serLink 4).step ≠ 0 ∧ (s.serLink 4).step < 4 ∧ s.laneRx 71 = true ∧ ([] : Bytes).length ≠ 32 ∧
       (s.lane 71).lock = false)),
    (let s := laneLive 71 (linkAt 4 1 false R)
     block.length = 32 ∧ beAt block 0 8 = 0x5A0FC3A596E13C78 ∧ beAt block 28 4 = crc32c (sliceB block 0 28) ∧ (s.serLink 4).step = 1)] = true := by decide +kernel

theorem test_meets_LanesAndTheirLinks_later : All [
    (let s := linkAt 4 3 false R
     On R ((R.serLink 4).step ≠ 3) ∧ On s ((s.serLink 4).step = 3)),
    (let s := linkAt 4 4 false R
     let t : State := { s with tm := { s.tm with tickNo := 100000 } }
     On s (laneLink 71 = some 4 ∧ (s.serLink 4).step = 4 ∧ (s.lane 71).trained = none ∧
       ¬ ∃ m ∈ linkLanes 4, (s.serLink 4).swAt + 8 * s.fld Reg.SER_LINK_CFG_STEP_TIMEOUT m ≤ s.tm.tickNo) ∧
     On t ((t.serLink 4).step = 4 ∧ (t.serLink 4).up = false ∧
       ∃ m ∈ linkLanes 4, (t.serLink 4).swAt + 8 * t.fld Reg.SER_LINK_CFG_STEP_TIMEOUT m ≤ t.tm.tickNo)),
    (let s := laneAs 67 { serReset with trained := some 0 } (laneLive 67 (linkAt 0 4 false R))
     On R (¬ ((R.serLink 0).step = 4)) ∧
     On s (64 ≤ 67 ∧ 67 < 68 ∧ (s.serLink 0).step = 4 ∧ (s.lane 67).trained.isSome = true ∧ s.laneRx 67 = true ∧ (s.lane 67).idleAt = none ∧
       s.flag Reg.SER_STS_MARKER_LOCK 67 = false ∧ (s.serLink 0).up = false ∧ (s.lane 67).cwOk = 0 ∧ 819 ≤ 819)),
    (let s := linkAt 4 4 true R
     let t := laneAs 71 { serReset with idleAt := some 0 } s
     let u : State := { t with tm := { t.tm with tickNo := 100000 } }
     On t ((t.lane 71).idleAt.isSome = true) ∧
     On s (laneLink 71 = some 4 ∧ (s.serLink 4).up = true ∧ (s.lane 71).idleAt = none ∧ 4 ≠ 0) ∧
     On t ((t.lane 71).idleAt = some 0 ∧ (t.serLink 4).up = true ∧ t.tm.tickNo ≤ 0 + 8 * t.fld Reg.SER_LINK_CFG_IDLE_KEEP 71) ∧
     On u ((u.lane 71).idleAt = some 0 ∧ (u.serLink 4).step ≠ 0 ∧ 0 + 8 * u.fld Reg.SER_LINK_CFG_IDLE_KEEP 71 < u.tm.tickNo) ∧
     let v := laneAs 71 { serReset with idleAt := some 0, ownIdle := some 0 } u
     On v (∃ m ∈ linkLanes 4, (v.lane m).ownIdle.isSome = true) ∧ On u (∀ m ∈ linkLanes 4, (u.lane m).ownIdle = none) ∧
     On R ((R.lane 71).idleAt = none ∧ (R.lane 71).ownIdle = none)),
    (let s := laneAs 32 { serReset with pllLost := true } R
     let t := laneAs 0 { serReset with pllLost := true } R
     On bare (bare.present Ty.SER 32 = false) ∧ On s ((s.lane 32).pllLost = true ∧ laneLink 32 = none) ∧
     On R (R.present Ty.SER 63 = true ∧ (R.lane 63).pllLost = false ∧ 32 ≤ 63 ∧ 63 < 64) ∧ On t ((t.lane 0).pllLost = true ∧ laneLink 0 = none)),
    (let s := R.setFlag Reg.CKT_CTL_RX_EN 3 true
     On s (s.present Ty.SER 71 = true ∧ s.laneBusy 71 = true ∧ bitOf 8 3 = true) ∧
     On R (R.laneBusy 71 = false ∧ bitOf 0 4 = false ∧ bitOf 0 5 = false ∧
       (R.plainWrite (Reg.SER_PRBS_CTL.at 71) 0).flag Reg.SER_PRBS_CTL_CHK_EN 71 = false)),
    (let s := (laneLive 71 R).setFlag Reg.SER_PRBS_CTL_CHK_EN 71 true
     On R (R.flag Reg.SER_PRBS_CTL_CHK_EN 71 = false) ∧ On s (s.active Ty.SER 71 = true ∧ s.flag Reg.SER_PRBS_CTL_CHK_EN 71 = true ∧ s.flag Reg.SER_CTL_RX_EN 71 = true)),
    (let s := laneAs 71 { serReset with trained := some 0 } ((laneLive 71 R).setFlag Reg.SER_CTL_ADAPT_EN 71 true)
     On R ((R.lane 71).trained = none) ∧ On s (s.active Ty.SER 71 = true ∧ adaptive 71 = true ∧ s.flag Reg.SER_CTL_ADAPT_EN 71 = true ∧
       (s.lane 71).trained.isSome = true ∧ s.inv Ty.SER 71 0 = false ∧
       ∀ i : Nat, i < 8 → (s.lane 71).seeds.getD i 0 = ((List.range 8).map fun i => (s.lane 71).seeds.getD i 0 % 256).getD i 0)),
    (let s := R.setFld Reg.SER_STS_STATE 71 4
     On R (7 < 8 ∧ R.present Ty.SER 63 = true ∧ adaptive 63 = false) ∧ On R (adaptive 71 = true ∧ (R.fld Reg.SER_STS_STATE 71 == 4) = false) ∧
     On s (adaptive 71 = true ∧ (s.fld Reg.SER_STS_STATE 71 == 4) = true ∧ s.inv Ty.SER 71 0 = false))] = true := by decide +kernel

/-- Slice 3 with a frame in, with one that its domain accepts, with a learn request, and with a running sweep. -/
def fwWith (x : FwdS) : State := { (on_ Ty.FWD 3 R).setFw 3 x with fwdIn := [pkt] }
def dom0 (bits : Nat) : FwdS := fwdReset.setWord 0 0 0 bits
def ent (ty : Nat) : FEnt := { domain := 0, mac := 0x020000000009, dest := 40, group := false, type := ty, hit := false, mark := false, owed := false }
def place : Nat := ((waysOf (bucketsOf 0 0x020000000009).1).headD 0)
def fwEnt (ty : Nat) : FwdS := { fwdReset with tab := Tbl.insert place (ent ty) [] }

/-- A meridian count in use. -/
def counted (s : State) : State := { s with tm := { s.tm with free := false, m := 8000 } }
def standby (s : State) : State := s.setFlag Reg.PAIR_STS_ROLE 0 false

/-- The standby of a pair. -/
def mate (s : State) : State := (standby s).setFlag Reg.PAIR_CTL_PAIR_EN 0 true

theorem test_meets_ForwardingDecisionsAndLearning : All [
    On half (half.present Ty.FWD 3 = false ∧ half.active Ty.FWD 3 = false),
    (let s := R.setReg (Reg.CTL Ty.FWD) 3 0
     On s (s.active Ty.FWD 3 = false)),
    (let s := on_ Ty.FWD 3 R
     let a := (s.advanceTo 312499).ageTo 3
     On s (s.active Ty.FWD 3 = true ∧ a.fwdIn.find? (fun p => p.hp / 2 == 3) = none)),
    (let s := fwWith fwdReset
     let t : State := { s with tm := { s.tm with base := 2 ^ 20 } }
     let a := (t.advanceTo 0).ageTo 3
     On t (t.active Ty.FWD 3 = true ∧ a.fwdIn.find? (fun p => p.hp / 2 == 3) = some pkt ∧ a.tooOld Ty.FWD 3 pkt = true)),
    (let s := fwWith fwdReset
     let a := (s.advanceTo 0).ageTo 3
     let r := { a.ageSeen Ty.FWD 3 pkt with fwdIn := a.fwdIn.erase pkt }
     On s (s.active Ty.FWD 3 = true ∧ a.fwdIn.find? (fun p => p.hp / 2 == 3) = some pkt ∧ a.tooOld Ty.FWD 3 pkt = false ∧ r.inv Ty.FWD 3 1 = false ∧ r.inv Ty.FWD 3 2 = false ∧
       (r.classify 3 pkt).isOk = false)),
    (let s := fwWith ((dom0 1).setWord 1 0 0 (2 ^ 14))
     let a := (s.advanceTo 0).ageTo 3
     let r := { a.ageSeen Ty.FWD 3 pkt with fwdIn := a.fwdIn.erase pkt }
     On s (s.active Ty.FWD 3 = true ∧ a.fwdIn.find? (fun p => p.hp / 2 == 3) = some pkt ∧ a.tooOld Ty.FWD 3 pkt = false ∧ r.inv Ty.FWD 3 1 = false ∧ r.inv Ty.FWD 3 2 = false ∧
       (r.classify 3 pkt).isOk = true)),
    On R (((R.ageTo 3).fw 3).learnQ = []),
    (let s := fwWith { fwEnt 0 with learnQ := [(0, 0x020000000009, 5)] }
     On s ((s.ageTo 3).inv Ty.FWD 3 0 = false ∧ ((s.ageTo 3).fw 3).learnQ = [(0, 0x020000000009, 5)] ∧ ((s.ageTo 3).fw 3).pos 0 0x020000000009 = some place)),
    (let s := fwWith { fwdReset with learnQ := [(0, 0x020000000009, 5)] }
     On s (((s.ageTo 3).fw 3).learnQ = [(0, 0x020000000009, 5)] ∧ ((s.ageTo 3).fw 3).pos 0 0x020000000009 = none)),
    On R ((R.fw 3).sweep = none),
    (let s := fwWith { fwdReset with sweep := some ⟨0, 0, 0⟩ }
     let t : State := { s with tm := { s.tm with base := 4 * fwdPositions + 1 } }
     On s ((s.fw 3).sweep.isSome = true ∧ (s.advanceTo 0).now ≤ 0 + 4 * fwdPositions) ∧
     On t (0 + 4 * fwdPositions < (t.advanceTo 0).now ∧ ((((t.advanceTo 0).ageTo 3).fw 3).sweep).isSome = true))] = true := by decide +kernel

theorem test_meets_ForwardingDecisionsAndLearning_decide : All [
    (beAt ([1, 0x80, 0xC2, 0, 0, 0x0F] ++ frame) 0 6 / 16 = 0x0180C200000),
    (let s := fwWith (fwEnt 0)
     let r := s.count64 Reg.FWD_LOOKUPS_LO 3
     beAt pkt.data 0 6 / 16 ≠ 0x0180C200000 ∧ r.dstLookup 3 pkt = (r, some (ent 0)) ∧ (ent 0).group = false ∧ (ent 0).dest ≠ pkt.src ∧
       (ent 0).dest = ({ pkt with src := 40 } : Pkt).src ∧ r.dstLookup 3 { pkt with src := 40 } = (r, some (ent 0))),
    (let s := fwWith (dom0 1)
     let r := s.count64 Reg.FWD_LOOKUPS_LO 3
     r.dstLookup 3 pkt = (r, none) ∧ bitOf (beAt pkt.data 0 6 / 2 ^ 40) 0 = false ∧ bitOf ((s.fw 3).word 0 pkt.domain 0) 3 = false)] = true := by decide +kernel

/-- Slice 3 with FWD_DATA naming the test address and, in word 2, the destination, type and group bits of `w`. -/
def fwCmd (x : FwdS) (w : Nat) : State :=
  let s := (R.setFw 3 x).setRegI Reg.FWD_DATA 3 0 0x09
  (s.setRegI Reg.FWD_DATA 3 1 0x0200).setRegI Reg.FWD_DATA 3 2 w

theorem test_meets_ForwardingTableCommands : All [
    On half (half.present Ty.FWD 3 = false),
    (let s := fwCmd fwdReset (40 + 2 ^ 16)
     let a := s.ageTo 3
     On s (s.present Ty.FWD 3 = true ∧ (a.fw 3).pos (a.fwdKey 3).1 (a.fwdKey 3).2 = none) ∧
     On s ((a.fw 3).tab.find? (fun q => decide (a.fld Reg.FWD_IDX_INDEX 3 ≤ q.1)) = none ∧ (a.fw 3).tab = [] ∧
       bitsOf (a.fwdData 3 2) 16 2 = 1 ∧ a.portStatus (a.fwdData 3 2 % 2 ^ 15) ≠ 0)),
    (let s := fwCmd (fwEnt 1) (64 + 2 ^ 16)
     let a := s.ageTo 3
     On s (a.inv Ty.FWD 3 0 = false ∧ (a.fw 3).pos (a.fwdKey 3).1 (a.fwdKey 3).2 = some place ∧ (a.fw 3).tab.find place = some (ent 1) ∧ (ent 1).type ≠ 2 ∧
       (a.fw 3).tab.find? (fun q => decide (a.fld Reg.FWD_IDX_INDEX 3 ≤ q.1)) = some (place, ent 1) ∧
       bitsOf (a.fwdData 3 2) 16 2 = 1 ∧ bitOf (a.fwdData 3 2) 15 = false ∧ a.portStatus (a.fwdData 3 2 % 2 ^ 15) = 0)),
    (let s := fwCmd (fwEnt 2) (64 + 2 ^ 16)
     let a := s.ageTo 3
     On s ((a.fw 3).pos (a.fwdKey 3).1 (a.fwdKey 3).2 = some place ∧ (a.fw 3).tab.find place = some (ent 2) ∧ (ent 2).type = 2 ∧ a.mirrorOpen = true ∧
       bitsOf (a.fwdData 3 2) 16 2 = 1 ∧ a.portStatus (a.fwdData 3 2 % 2 ^ 15) = 0)),
    (let s := mate (fwCmd (fwEnt 2) 0)
     let a := s.ageTo 3
     On s ((a.fw 3).pos (a.fwdKey 3).1 (a.fwdKey 3).2 = some place ∧ (a.fw 3).tab.find place = some (ent 2) ∧ a.mirrorOpen = false)),
    (let s := fwCmd (fwEnt 1) (64 + 2 * 2 ^ 16)
     let t := mate s
     On s (bitsOf ((s.ageTo 3).fwdData 3 2) 16 2 = 2 ∧ (s.ageTo 3).mirrorOpen = true) ∧
     On t ((t.ageTo 3).mirrorOpen = false ∧ bitsOf ((t.ageTo 3).fwdData 3 2) 16 2 = 2 ∧ (t.ageTo 3).portStatus 64 = 0 ∧
       ((t.ageTo 3).fw 3).pos ((t.ageTo 3).fwdKey 3).1 ((t.ageTo 3).fwdKey 3).2 = some place)),
    (let s := fwCmd fwdReset (64 + 2 ^ 16)
     let a := s.ageTo 3
     On s (a.portStatus (a.fwdData 3 2 % 2 ^ 15) = 0 ∧ (a.fw 3).pos (a.fwdKey 3).1 (a.fwdKey 3).2 = none ∧ bitsOf (a.fwdData 3 2) 16 2 = 1 ∧
       (a.fw 3).tab = [])),
    (let s := fwCmd fwdReset (20000 + 2 ^ 16)
     On s ((s.ageTo 3).portStatus ((s.ageTo 3).fwdData 3 2 % 2 ^ 15) ≠ 0 ∧ (s.ageTo 3).fwdData 3 2 % 2 ^ 15 ≠ 0x7FFF)),
    (let s := fwCmd fwdReset 0
     let t := fwCmd fwdReset (3 * 2 ^ 16)
     let u := fwCmd fwdReset (2 ^ 15 + 2 ^ 16 + 0x7FFF)
     On s (bitsOf ((s.ageTo 3).fwdData 3 2) 16 2 = 0) ∧ On t (bitsOf ((t.ageTo 3).fwdData 3 2) 16 2 = 3) ∧
     On u (bitOf ((u.ageTo 3).fwdData 3 2) 15 = true ∧ bitOf ((u.ageTo 3).fwdKey 3).2 40 = false ∧ (u.ageTo 3).fwdData 3 2 % 2 ^ 15 = 0x7FFF))] = true := by decide +kernel

theorem test_meets_ForwardingTableCommands_tables : All [
    ([1, 3, 5, 7].all fun t => let s := R.setFld Reg.FWD_IDX_INDEX 3 (2 ^ 18 - 1)
      On s (t < 8 ∧ (s.ageTo 3).tblStatus 3 t ((s.ageTo 3).fld Reg.FWD_IDX_INDEX 3) ≠ 0)),
    ([(0, 16383), (4, 4095), (2, 24 * 1024), (1, 24 * 4096 + 4095)].all fun q => let s := R.setFld Reg.FWD_IDX_INDEX 3 q.2
      On s (q.1 < 8 ∧ (s.ageTo 3).tblStatus 3 q.1 ((s.ageTo 3).fld Reg.FWD_IDX_INDEX 3) = 0 ∧ q.1 ≠ 3)),
    (let x := fwdReset.setWord 1 (24 * 4096 + 7) 0 (2 ^ 14 + 9)
     let s := ((R.setFw 3 x).setFld Reg.FWD_IDX_INDEX 3 (24 * 4096 + 5)).setRegI Reg.FWD_DATA 3 0 (2 ^ 14 + 9)
     let a := s.ageTo 3
     let i := a.fld Reg.FWD_IDX_INDEX 3
     let w := a.fwdData 3 0 % 2 ^ tblBits 1 0
     On s (a.tblStatus 3 1 i = 0 ∧ bitOf w 14 = true ∧ a.vidOf (w % 2 ^ 14) (i / 4096) = some 7 ∧ 7 ≠ i % 4096))] = true := by decide +kernel

/-- Slice 3 with one frame at its egress, and with a queue. -/
def qinWith (p : Pkt) : State := { R with qin := [p] }
def toTerm : Pkt := { pkt with dst := 64 + 24 * 512, domain := 0 }
def qWith (q : QueueS) : State := R.setQs 3 (qschReset.setQueue 0 q)

theorem test_meets_QueuesPagingAndServeLists : All [
    On half (half.present Ty.QSCH 3 = false),
    (let s := R.setReg (Reg.CTL Ty.QSCH) 3 0
     On s (s.present Ty.QSCH 3 = true ∧ s.active Ty.QSCH 3 = false)),
    On R (R.active Ty.QSCH 3 = true ∧ (R.advanceTo 0).qin.find? (fun p => p.hp / 2 == 3) = none),
    (let s := qinWith toTerm
     let a := s.advanceTo 0
     let r : State := { a with qin := a.qin.erase toTerm }
     On s (s.active Ty.QSCH 3 = true ∧ a.qin.find? (fun p => p.hp / 2 == 3) = some toTerm ∧ r.inv Ty.QSCH 3 2 = false ∧ r.inv Ty.QSCH 3 0 = false ∧ r.inv Ty.BUF 0 0 = false ∧
       r.inv Ty.BUF 0 1 = false ∧ r.termDown toTerm = true)),
    (let s := qinWith pkt
     let a := s.advanceTo 0
     let r : State := { a with qin := a.qin.erase pkt }
     On s (r.termDown pkt = false ∧ (r.admitDrop 3 { queueReset with tail := 4096 } (r.queueKey 3 pkt) 0 1 false).isSome = true)),
    (let s := (qinWith pkt).setQs 3 (qschReset.setWord 2 0 0 4096)
     let a := s.advanceTo 0
     let r : State := { a with qin := a.qin.erase pkt }
     let key := r.queueKey 3 pkt
     On s (r.termDown pkt = false ∧ r.admitDrop 3 ((r.qs 3).queue key) key pkt.cls (frameCells pkt) pkt.yellow = none ∧
       bitOf ((r.qs 3).word 4 pkt.cls 0) 1 = false)),
    On R (((R.qs 3).queue 0).spill = 0),
    (let s := qWith { queueReset with head := 32, spill := 9 }
     On s (s.fld Reg.BUF_HEAD_KEEP_CELLS 0 ≤ ((s.qs 3).queue 0).head)),
    (let s := qWith { queueReset with head := 31, spill := 9 }
     let q := (s.qs 3).queue 0
     On s (q.spill ≠ 0 ∧ q.head < s.fld Reg.BUF_HEAD_KEEP_CELLS 0 ∧ min 8 q.spill ≤ s.bankFree 3 ∧ 8 < q.spill))] = true := by decide +kernel

theorem test_meets_QueuesPagingAndServeLists_lists : All [
    (let s := R.setQs 3 { qschReset with credited := 1 }
     On s (s.active Ty.QSCH 3 = true ∧ (s.qs 3).credited = s.tm.tickNo + 1)),
    On R ((R.qs 3).credited ≠ R.tm.tickNo + 1 ∧ R.tm.free = true),
    (let s := standby (counted R)
     On s ((s.qs 3).credited ≠ s.tm.tickNo + 1 ∧ s.isActive = false)),
    (let s := counted R
     On s ((s.qs 3).credited ≠ s.tm.tickNo + 1 ∧ s.tm.free = false ∧ s.isActive = true ∧ s.inTime Ty.QSCH 3 0 = true)),
    (let s := R.setFld Reg.QSCH_Q_IDX_INDEX 3 (2 ^ 16 - 1)
     On s (qIdxOk 0 (s.fld Reg.QSCH_Q_IDX_INDEX 3) = false ∧ qIdxOk 15 (s.fld Reg.QSCH_Q_IDX_INDEX 3) = false)),
    On bare (qIdxOk 0 (bare.fld Reg.QSCH_Q_IDX_INDEX 3) = true ∧ bare.qUnit 3 0 (bare.fld Reg.QSCH_Q_IDX_INDEX 3) = false),
    ([0, 1, 2, 3, 4, 5, 6, 7, 8].all fun t => On R (t < 16 ∧ qIdxOk t (R.fld Reg.QSCH_Q_IDX_INDEX 3) = true ∧ R.qUnit 3 t (R.fld Reg.QSCH_Q_IDX_INDEX 3) = true ∧
      R.inv Ty.QSCH 3 0 = false ∧ R.inv Ty.QSCH 3 1 = false ∧
      R.fld Reg.QSCH_Q_IDX_INDEX 3 = 0)),
    On R (R.on Reg.QSCH_CTL_SAMPLE_EN 3 = false),
    (let s := R.setFlag Reg.QSCH_CTL_SAMPLE_EN 3 true
     On s (s.on Reg.QSCH_CTL_SAMPLE_EN 3 = true ∧ (s.qs 3).sampled + s.fld Reg.QSCH_SAMPLE_CFG_STRIDE 3 ≤ s.tm.tickNo + 1 ∧
       (s.qs 3).sampled ≠ s.tm.tickNo + 1)),
    (let s := R.setFlag Reg.BUF_CTL_SPILL_EN 0 false
     On s (98304 ≤ 98304 ∧ s.present Ty.BUF 0 = true ∧ s.on Reg.BUF_CTL_SPILL_EN 0 = false)),
    On R (R.on Reg.BUF_CTL_SPILL_EN 0 = true ∧ R.buf.spilling.get false 3 = false ∧ R.fld Reg.BUF_WM_SPILL_CELLS 0 ≤ R.bankFree 3),
    (let s : State := { R with buf := { R.buf with withdrawn := R.buf.withdrawn.set 0 3 98304 } }
     On s (s.on Reg.BUF_CTL_SPILL_EN 0 = true ∧ s.bankFree 3 < s.fld Reg.BUF_WM_SPILL_CELLS 0)),
    (let x := R.qs 3
     x.word 2 (x.qword 0 % 64) 1 < ({ queueReset with tail := 4096 } : QueueS).occ + 1),
    (let s := R.setQs 3 (qschReset.setWord 2 0 0 4096)
     let x := s.qs 3
     queueReset.occ + 4096 ≤ x.word 2 (x.qword 0 % 64) 1 ∧ queueReset.occ + 4096 ≤ x.word 2 (x.qword 0 % 64) 0 ∧ 4096 ≤ s.bankFree 3)] = true := by decide +kernel

/-- An administrative list of one entry of 2^20 ns on trunk instance 31, with its cycle; a queued trunk frame. -/
def gateSet (cyc base : Nat) (s : State) : State :=
  let s := s.setGt 31 { gateReset with admin := Tbl.insert 0 (1048576 * 256 + 255) [] }
  ((s.setFld Reg.GATE_ADMIN_LEN_ENTRIES 31 1).setFld Reg.GATE_ADMIN_CYCLE_NS 31 cyc).setReg64 Reg.GATE_ADMIN_BASE_S_LO 31 base
def oneList : TList := ⟨[(255, 1048576)], 1048576, 0⟩
def queued : State := R.setQs 3 (qschReset.setQueue (trunkKey 31 7) { queueReset with frames := [{ pkt with cls := 7 }], head := 1 })

theorem test_meets_GatesAndTrunkSelection : All [
    On (mate R) (31 < 32 ∧ (mate R).present Ty.GATE 31 = true ∧ (mate R).isPrim 31 = true ∧ (mate R).mirrorOpen = false),
    (let f (s : State) := (List.range (s.fld Reg.GATE_ADMIN_LEN_ENTRIES 31)).map fun e => ((s.gt 31).adminAt e % 256, (s.gt 31).adminAt e / 256)
     let s := gateSet 5 0 R
     let t := gateSet 1048576 9 R
     let u := gateSet 1048576 0 R
     On R (t.mirrorOpen = true ∧ u.mirrorOpen = true) ∧
     On s (s.mirrorOpen = true ∧ (f (s.advanceTo 0)).foldl (fun a e => a + e.2) 0 ≠ (s.advanceTo 0).fld Reg.GATE_ADMIN_CYCLE_NS 31) ∧
     On t ((f (t.advanceTo 0)).foldl (fun a e => a + e.2) 0 = (t.advanceTo 0).fld Reg.GATE_ADMIN_CYCLE_NS 31 ∧ (¬ ∃ e ∈ f (t.advanceTo 0), e.2 < 8) ∧
       ceilDiv (t.advanceTo 0).gateTime (2 ^ 32) + 125000 ≤ ((t.advanceTo 0).reg64 Reg.GATE_ADMIN_BASE_S_LO 31 % 2 ^ 48) * 10 ^ 9 +
         (t.advanceTo 0).fld Reg.GATE_ADMIN_BASE_NS_NS 31) ∧
     On u ((f (u.advanceTo 0)).foldl (fun a e => a + e.2) 0 = (u.advanceTo 0).fld Reg.GATE_ADMIN_CYCLE_NS 31 ∧ (¬ ∃ e ∈ f (u.advanceTo 0), e.2 < 8) ∧
       ((u.advanceTo 0).reg64 Reg.GATE_ADMIN_BASE_S_LO 31 % 2 ^ 48) * 10 ^ 9 + (u.advanceTo 0).fld Reg.GATE_ADMIN_BASE_NS_NS 31 <
         ceilDiv (u.advanceTo 0).gateTime (2 ^ 32) + 125000)),
    (let s := R.setGt 31 { gateReset with pend := some oneList, act := some oneList }
     On R (((R.advanceTo 0).gt 31).pend = none ∧ ((R.advanceTo 0).gt 31).act = none) ∧ On s (((s.advanceTo 0).gt 31).pend = some oneList ∧ s.tm.free = true) ∧
     On (counted s) ((((counted s).advanceTo 0).gt 31).pend = some oneList ∧ (((counted s).advanceTo 0).gt 31).act = some oneList ∧
       ((counted s).advanceTo 0).tm.free = false ∧ oneList.start * 2 ^ 32 ≤ ((counted s).advanceTo 0).gateTime))] = true := by decide +kernel

/-- What TRK_TX_SELECT looks at before it picks. -/
def looked (s : State) : State :=
  let a := ((s.advanceTo 0).gateLook 31).trunkAccrue 31
  (List.range 64).foldl (fun (s : State) j => s.trunkClean 31 j ((s.qs 3).queue (trunkKey 31 j)).frames.length) a

theorem test_meets_GatesAndTrunkSelection_selection : All [
    (let s := R.setFld Reg.TRK_MODE_MODE 0 1
     On s (31 < 32 ∧ s.hasPort 31 = false)),
    On R (R.hasPort 31 = true ∧ R.prim 31 = 31 ∧ (((R.advanceTo 0).gateLook 31).trunkAccrue 31).inv Ty.QSCH 3 0 = false ∧
      (((R.advanceTo 0).gateLook 31).trunkAccrue 31).inv Ty.QSCH 3 2 = false ∧ ((looked R).pickQueue 31).2 = none),
    On queued (((looked queued).pickQueue 31).2 = some (7, false) ∧ (((looked queued).pickQueue 31).1.portUp 31 = false) ∧
      ((((looked queued).pickQueue 31).1.qs 3).queue (trunkKey 31 7)).frames = [{ pkt with cls := 7 }] ∧ queued.trunkHead 31 7 = some { pkt with cls := 7 } ∧ ((looked queued).pickQueue 31).1.inv Ty.QSCH 3 2 = false ∧
      (let r := ((looked queued).pickQueue 31).1
       let lost := r.setQs 3 ((r.qs 3).setQueue (trunkKey 31 7) { (({ queueReset with frames := [{ pkt with cls := 7 }], head := 1 } : QueueS).free (frameCells pkt)) with frames := [] })
       lost.inv Ty.QSCH 3 2 = false ∧ lost.portUp 31 = false)),
    (let s := (queued.setFlag Reg.TRK_PORT_CTL_EN 31 true).setFlag Reg.TRK_PORT_STS_LINK 31 true
     On s (((looked s).pickQueue 31).1.portUp 31 = true ∧ ((looked s).pickQueue 31).1.inv Ty.QSCH 3 2 = false ∧ ((looked s).pickQueue 31).2 = some (7, false)))] = true := by decide +kernel


/-- A circuit link 3 that receives, in receiver state `st`, with a link record; a frame header with its check. -/
def rxOn (st : Nat) (x : CktS) : State := (((on_ Ty.CKT 3 R).setCl 3 x).setFlag Reg.CKT_CTL_RX_EN 3 true).setFld Reg.CKT_STS_RX_STATE 3 st
def hdr (k flags : Nat) : Bytes := let h := toBE 6 k ++ toBE 1 3 ++ toBE 1 flags ++ toBE 4 0; h ++ toBE 4 (crc32c h)
def txOn (mode : Nat) (s : State) : State :=
  ((s.setReg (Reg.CTL Ty.CKT) 3 1).setFld Reg.CKT_CTL_TX_MODE 3 mode).setFlag Reg.SER_STS_HIGH_RATE 71 true
def pmBin0 : PmBin := ⟨0, 0, 0, 0, 0, 0, 0, 0, false⟩
def connA : Conn := { connReset with valid := true }

theorem test_meets_CircuitFramesSecondsAndBins : All [
    On bare (3 < 4 ∧ bare.present Ty.CKT 3 = false),
    On R (R.on Reg.CKT_CTL_RX_EN 3 = false),
    On bare (bare.on Reg.CKT_CTL_RX_EN 3 = false),
    (let s := rxOn 0 cktReset
     On s (s.present Ty.CKT 3 = true ∧ s.on Reg.CKT_CTL_RX_EN 3 = true ∧ (s.advanceTo 0).rxState 3 = 0 ∧ cktHdrOk (hdr 7 0) = true ∧
       cktHdrOk [] = false)),
    (let s := rxOn 1 { cktReset with rxLast := some 6 }
     On s ((s.advanceTo 0).rxState 3 = 1 ∧ beAt (hdr 7 0) 0 6 = 7 ∧ (((s.advanceTo 0).cl 3).rxLast.map (· + 1)) = some 7 ∧
       ((s.advanceTo 0).cl 3).conf ≠ 1 ∧ (((s.advanceTo 0).cl 3).rxLast.map (· + 1)) ≠ some (beAt (hdr 9 0) 0 6))),
    (let s := rxOn 1 { cktReset with rxLast := some 6, conf := 1 }
     On s ((s.advanceTo 0).rxState 3 = 1 ∧ ((s.advanceTo 0).cl 3).conf = 1)),
    (let s := rxOn 2 { cktReset with rxLast := some 6, miss := 1 }
     On s (1 < (s.advanceTo 0).rxState 3 ∧ ((((s.advanceTo 0).count Reg.CKT_HDR_MISS 3).cktStart 3 0).cl 3).miss < 2 ∧ cktHdrOk (hdr 8 128) = true ∧ bitOf (beAt (hdr 8 128) 7 1) 7 = true ∧ cktHdrOk (hdr 8 64) = true ∧ bitOf (beAt (hdr 8 64) 7 1) 6 = true ∧
       ((s.advanceTo 0).cl 3).miss ≠ 0 ∧ ((s.advanceTo 0).cl 3).rxLast = some 6 ∧ 6 < beAt (hdr 8 64) 0 6)),
    (let s := rxOn 2 { cktReset with miss := 2 }
     On s (1 < (s.advanceTo 0).rxState 3 ∧ 2 ≤ ((((s.advanceTo 0).count Reg.CKT_HDR_MISS 3).cktStart 3 0).cl 3).miss)),
    (let s := rxOn 2 cktReset
     On s (1 < (s.advanceTo 0).rxState 3 ∧ ((s.advanceTo 0).cl 3).miss = 0 ∧ bitOf (beAt (hdr 7 0) 7 1) 6 = false ∧
       bitOf (beAt (hdr 7 0) 7 1) 7 = false))] = true := by decide +kernel

theorem test_meets_CircuitFramesSecondsAndBins_rest : All [
    On R (R.present Ty.CKT 3 = true ∧ R.fld Reg.CKT_CTL_TX_MODE 3 = 0),
    (let s := txOn 2 R
     On s (¬ (s.active Ty.CKT 3 = false ∨ s.fld Reg.CKT_CTL_TX_MODE 3 = 0 ∨ s.flag Reg.SER_STS_HIGH_RATE (68 + 3) = false) ∧ s.tm.free = true)),
    (let s := txOn 1 (counted R)
     On s (¬ (s.active Ty.CKT 3 = false ∨ s.fld Reg.CKT_CTL_TX_MODE 3 = 0 ∨ s.flag Reg.SER_STS_HIGH_RATE (68 + 3) = false) ∧
       s.fld Reg.CKT_CTL_TX_MODE 3 ≠ 2)),
    (let s := txOn 2 (counted R)
     On s (¬ (s.active Ty.CKT 3 = false ∨ s.fld Reg.CKT_CTL_TX_MODE 3 = 0 ∨ s.flag Reg.SER_STS_HIGH_RATE (68 + 3) = false) ∧
       s.fld Reg.CKT_CTL_TX_MODE 3 = 2 ∧ s.tm.free = false)),
    (let s : State := { R with tm := { R.tm with tickNo := 7999 } }
     On s (s.tm.free = true ∧ (s.cl 3).second + 8000 ≤ s.tm.tickNo + 1 ∧ (s.cl 3).second ≠ s.tm.tickNo + 1)),
    (let s := counted R
     On s (s.tm.free = false ∧ (s.tm.m - s.tm.e) % 8000 = 0)),
    On R (¬ (R.cl 3).second + 8000 ≤ R.tm.tickNo + 1),
    (let s := R.setCl 3 { cktReset with second := 1 }
     On s ((s.cl 3).second = s.tm.tickNo + 1)),
    (let y : Pm := { pmReset with errs := 5 }
     5 ≤ y.errs ∧ y.una = false),
    (let y : Pm := { pmReset with una := true, okRun := 9 }
     ¬ (5 ≤ y.errs ∨ y.defect = true) ∧ y.una = true),
    On bare (bare.present Ty.TSI 0 = false),
    On R (R.tm.free = true),
    On (counted R) ((counted R).present Ty.TSI 0 = true ∧ (counted R).tm.free = false ∧ (counted R).inv Ty.TSI 0 0 = false),
    (let s := ((counted R).setReg (Reg.ERR_INV_CHECK Ty.TSI) 0 1).setConn 0 4 connA
     On s (s.inv Ty.TSI 0 0 = true ∧ s.pageConns (s.tsiPageAt s.nextM) = [(4, connA)]))] = true := by decide +kernel

/-- Link 3's PATH_DATA; the CONN_DATA words; a switch armed; one being verified. -/
def pathData (w0 w1 : Nat) (s : State) : State := (s.setRegI Reg.CKT_PATH_DATA 3 0 w0).setRegI Reg.CKT_PATH_DATA 3 1 w1
def connData (w0 w1 : Nat) (s : State) : State := (s.setRegI Reg.TSI_CONN_DATA 0 0 w0).setRegI Reg.TSI_CONN_DATA 0 1 w1
def armed (s : State) : State := { s with tsi := { s.tsi with armed := some 9000 } }
def verifying (m t : Nat) (f : Bool) (s : State) : State := { s with tsi := { s.tsi with verify := some (m, t, f) } }
def termIn (ax : Nat) (st : TState) (s : State) : State := s.setTerm ax { s.term ax with valid := true, st := st }

theorem test_meets_PathsConnectionsSwitchAndAssignment : All [
    On bare (2047 < 2048 ∧ bare.present Ty.CKT 3 = false ∧ bare.present Ty.TSI 0 = false),
    On R (R.present Ty.CKT 3 = true),
    On (mate R) ((mate R).mirrorOpen = false),
    On R (R.inv Ty.CKT 3 0 = false),
    (let s := pathData 1 (287 + 2 ^ 18) R
     On s (s.mirrorOpen = true ∧ s.regI Reg.CKT_PATH_DATA 3 1 % 2 ^ 29 % 2 ^ 18 < 288)),
    (let s := (pathData 1 (288 + 4 * 2 ^ 18) R).setCl 3 { cktReset with paths := Tbl.insert 5 { pathReset with valid := true, first := 290, count := 2 } [] }
     let w1 := s.regI Reg.CKT_PATH_DATA 3 1 % 2 ^ 29
     On s (¬ (w1 % 2 ^ 18 < 288 ∨ bitsOf w1 18 11 = 0 ∨ 1024 < bitsOf w1 18 11 ∨ 162000 < w1 % 2 ^ 18 + bitsOf w1 18 11) ∧
       bitOf (s.regI Reg.CKT_PATH_DATA 3 0 % 64) 0 = true ∧ ∃ q ∈ (s.cl 3).paths, q.1 ≠ 2047 ∧ q.2.valid = true ∧
         w1 % 2 ^ 18 < q.2.first + q.2.count ∧ q.2.first < w1 % 2 ^ 18 + bitsOf w1 18 11)),
    (let s := pathData 1 (161999 + 2 ^ 18) R
     let w1 := s.regI Reg.CKT_PATH_DATA 3 1 % 2 ^ 29
     On s (¬ (w1 % 2 ^ 18 < 288 ∨ bitsOf w1 18 11 = 0 ∨ 1024 < bitsOf w1 18 11 ∨ 162000 < w1 % 2 ^ 18 + bitsOf w1 18 11) ∧ (s.cl 3).paths = [])),
    On R (4095 < 4096 ∧ 63 < 64 ∧ 2048 < 4095 ∧ 35 < 63),
    On R (2048 ≤ 2048 ∧ 35 ≤ 35 ∧ ((R.cl 3).pmOf 2048).bin 35 = none),
    (let s := R.setCl 3 (cktReset.setPm 2048 { pmReset with q := some pmBin0 })
     On s (((s.cl 3).pmOf 2048).bin 0 = some (pmBin0, false)))] = true := by decide +kernel

theorem test_meets_PathsConnectionsSwitchAndAssignment_switch : All [
    On R (1 < 2 ∧ R.present Ty.TSI 0 = true ∧ R.mirrorOpen = true ∧ R.tsi.armed = none ∧ R.tsi.verify = none ∧ R.inv Ty.TSI 0 0 = false ∧
      connKey 1 (R.reg Reg.TSI_CONN_IDX 0 % 2 ^ 18) ∉ R.tsi.badPar),
    On (mate R) ((mate R).mirrorOpen = false ∧ (mate R).tsi.armed = none ∧ (mate R).tsi.verify = none),
    On (armed R) ((armed R).mirrorOpen = true ∧ (armed R).present Ty.TSI 0 = true ∧ (armed R).tsi.armed.isSome = true),
    On (mate (armed R)) ((mate (armed R)).mirrorOpen = false ∧ (mate (armed R)).present Ty.TSI 0 = true ∧ (mate (armed R)).tsi.armed.isSome = true),
    (let s := connData (2 ^ 31) 0 R
     let c := connOf ((List.range 4).map fun j => s.regI Reg.TSI_CONN_DATA 0 j)
     On s (epKind c.dst ≠ 3 ∧ c.valid = true ∧ max (s.epStatus c.src true) (s.epStatus c.dst false) ≠ 0)),
    (let s := connData (2 ^ 31 + 288) 161999 R
     let c := connOf ((List.range 4).map fun j => s.regI Reg.TSI_CONN_DATA 0 j)
     On s (epKind c.dst ≠ 3 ∧ c.valid = true ∧ max (s.epStatus c.src true) (s.epStatus c.dst false) = 0)),
    (let s := verifying 100 115 true ((R.setConn 1 0 connA).setConn 1 1 connA)
     On s (s.tsi.verify.isSome = true ∧ (verifyPage (s.pageConns s.tsiStandby)).isSome = true)),
    (let s := verifying 100 115 false { R with tsi := { R.tsi with opens := [1] } }
     On s (verifyPage (s.pageConns s.tsiStandby) = none ∧ s.assignOpen ≠ 0)),
    (let s := verifying 100 115 false R
     On s (verifyPage (s.pageConns s.tsiStandby) = none ∧ s.assignOpen = 0 ∧ 115 < 100 + 16)),
    (let s := verifying 100 116 true R
     On s (verifyPage (s.pageConns s.tsiStandby) = none ∧ 100 + 16 ≤ 116)),
    On half (31 < 32 ∧ 511 < 512 ∧ half.present Ty.TSI 0 = true ∧ half.hasTree 31 = false),
    On (armed R) ((armed R).hasTree 31 = true ∧ (armed R).tsi.armed.isSome = true),
    On R (R.hasTree 31 = true ∧ R.tsi.armed = none ∧ (R.term (31 * 512 + 511)).st ≠ .operational),
    (let s := termIn (31 * 512 + 511) .operational R
     On s (s.hasTree 31 = true ∧ s.tsi.armed = none ∧ (s.term (31 * 512 + 511)).st = .operational))] = true := by decide +kernel

/-- Mail for a cluster; a request posted; a navigator record; a load. -/
def mailTo (c : Nat) : Mail := ⟨0, c, some 15, 6, List.replicate 16 0⟩
def hasMail (s : State) : State := { s with mail := [mailTo 31] }
def posted (ep : Nat) (b : Bytes) (s : State) : State := { s with posts := [⟨31, 15, ep, b⟩] }
def nvAs (e : NavE) (s : State) : State := s.setNv 31 15 e
def asks (block : Bytes) : NavE := { naveReset with alm := [⟨0x100000, block, false⟩] }
def slotBlock (op : Nat) : Bytes := toLE 1 op ++ List.replicate 63 0
def loads (img : Bytes) (s : State) : State := s.setCluster 31 { navcReset with load := some ⟨img, 1, true⟩ }

theorem test_meets_ClustersMailboxesAndImages : All [
    On R (31 < 32 ∧ ∀ m ∈ R.mail, m.cluster ≠ 31),
    (let s := hasMail half
     On s (s.mail.find? (fun m => m.cluster == 31) = some (mailTo 31) ∧ s.present Ty.NAV 31 = false)),
    (let s := hasMail R
     On s (s.mail.find? (fun m => m.cluster == 31) = some (mailTo 31) ∧ s.present Ty.NAV 31 = true ∧ s.navLost 31 15 = false ∧
       (s.nv 31 15).rx.length < 64 ∧ (s.nv 31 15).wait = none)),
    (let s := hasMail (nvAs { naveReset with rx := List.replicate 64 ⟨0, 0, []⟩ } R)
     On s (64 ≤ (s.nv 31 15).rx.length)),
    (let s := hasMail (nvAs { naveReset with wait := some ⟨5, true, 0⟩ } R)
     On s (((s.nv 31 15).wait.map (·.msg)) = some true)),
    On R ((R.takePost 31 0xFF01).isNone = true),
    On (posted 0xFF01 [] R) (((posted 0xFF01 [] R).takePost 31 0xFF01).isSome = true),
    On R (R.navIn.find? (fun q => q.1 == 31) = none),
    (let s : State := { half with navIn := [(31, pkt)] }
     On s (s.navIn.find? (fun q => q.1 == 31) = some (31, pkt) ∧ s.present Ty.NAV 31 = false)),
    (let s : State := { R with navIn := [(31, pkt)] }
     let k := ((({ s with navIn := s.navIn.erase (31, pkt) } : State).frameRing 31).cluster 31)
     On s (s.present Ty.NAV 31 = true ∧ (ringSlots k.ring = 0 ∨ ringSlot k.ring < 32 + pkt.data.length))),
    (let s : State := { R.setReg Reg.NAV_RX_RING 31 (4 * 2 ^ 14 + 2 ^ 26) with navIn := [(31, pkt)] }
     let a := ({ s with navIn := s.navIn.erase (31, pkt) } : State).frameRing 31
     let k := a.cluster 31
     On s (s.present Ty.NAV 31 = true ∧ ¬ (k.ring ≠ a.reg Reg.NAV_RX_RING 31 ∨ ringSlots k.ring = 0 ∨ (k.prod + 1) % ringSlots k.ring = k.cons ∨
       ringSlot k.ring < 32 + pkt.data.length))),
    On R ((R.takePost 31 0xFF00).isNone = true),
    (let b : Bytes := toLE 4 0 ++ toLE 2 10236 ++ toLE 2 0xFFFF ++ toLE 2 0 ++ [0, 0, 0, 0, 0, 0]
     let s := posted 0xFF00 b R
     On s ((s.takePost 31 0xFF00).isSome = true ∧ ((s.advanceTo 0).injOk (leAt b 0 4) (leAt b 4 2) (leAt b 6 2) (leAt b 8 2) (leAt b 10 1) = true) ∧
       leAt b 11 1 = 0)),
    (let b : Bytes := toLE 4 0 ++ toLE 2 10237 ++ toLE 2 0xFFFF ++ toLE 2 0 ++ [0, 0, 0, 0, 0, 0]
     let s := posted 0xFF00 b R
     On s ((s.advanceTo 0).injOk (leAt b 0 4) (leAt b 4 2) (leAt b 6 2) (leAt b 8 2) (leAt b 10 1) = false))] = true := by decide +kernel

theorem test_meets_ClustersMailboxesAndImages_requests : All [
    On R (15 < 16 ∧ (R.nv 31 15).alm = []),
    (let s := nvAs (asks (slotBlock 6)) R
     On s ((s.nv 31 15).alm ≠ [] ∧ s.slotMay 32 6 0 = false)),
    (let s := nvAs (asks (slotBlock 13)) R
     On s ((s.nv 31 15).alm ≠ [] ∧ 0 < slotReads 13 false (List.replicate 8 0) ∧ slotReads 13 false (List.replicate 8 0) ≤ 2048 ∧
       leAt (slotBlock 13) 44 4 < slotReads 13 false (List.replicate 8 0))),
    (let s := nvAs (asks (slotBlock 12)) R
     let r := (s.setNv 31 15 { s.nv 31 15 with alm := [] }).slot 12 ⟨32, 0, 0, false, List.replicate 8 0, []⟩
     On s (slotReads 12 false (List.replicate 8 0) = 0 ∧ r.2.st ≠ 0)),
    On half (half.present Ty.NAV 31 = false),
    On R (R.present Ty.NAV 31 = true ∧ R.navLost 31 15 = false ∧ (R.nv 31 15).failed = none),
    (let s := nvAs { naveReset with run := true, idle := 100000 } R
     On s (s.present Ty.NAV 31 = true ∧ (s.nv 31 15).run = true ∧ (s.nv 31 15).wait = none ∧ s.fld Reg.NAV_WDOG_CFG_TICKS 31 ≠ 0 ∧
       s.fld Reg.NAV_WDOG_CFG_TICKS 31 < (s.nv 31 15).idle)),
    On R (¬ (R.nv 31 15).run = true),
    (let s := nvAs { naveReset with failed := some true } R
     On s ((s.nv 31 15).failed.isSome = true)),
    (let s := (nvAs { naveReset with run := true, bank := 1 } R).setFlag Reg.NAV_STS_OLD_BANK_BUSY 31 true
     let t : State := { s with tm := { s.tm with tickNo := 1 } }
     On t (t.flag Reg.NAV_STS_OLD_BANK_BUSY 31 = true ∧ (t.nv 31 15).run = true ∧ (t.nv 31 15).bank ≠ t.actBank 31 ∧
       (t.cluster 31).switched < t.tm.tickNo)),
    (let s := (R.setFlag Reg.NAV_CTL_EN 31 true).setFld Reg.NAV_CTL_RUN_MASK 31 32768
     let a := s.plainWrite (Reg.NAV_CTL.at 31) 0
     let b := R.plainWrite (Reg.NAV_CTL.at 31) (s.reg Reg.NAV_CTL 31)
     On s (s.present Ty.NAV 31 = true ∧ s.flag Reg.NAV_CTL_EN 31 = true ∧ bitOf (s.fld Reg.NAV_CTL_RUN_MASK 31) 15 = true ∧
       a.flag Reg.NAV_CTL_EN 31 = false) ∧
     On R (R.flag Reg.NAV_CTL_EN 31 = false ∧ b.flag Reg.NAV_CTL_EN 31 = true ∧ bitOf (b.fld Reg.NAV_CTL_RUN_MASK 31) 15 = true ∧
       b.navLost 31 15 = false ∧ (R.nv 31 15).failed = none))] = true := by decide +kernel

theorem test_meets_ClustersMailboxesAndImages_images : All [
    (let s := R.setFlag Reg.NAV_IMG_CMD_BUSY 31 true
     On s (s.present Ty.NAV 31 = true ∧ s.flag Reg.NAV_IMG_CMD_BUSY 31 = true)),
    On R (R.flag Reg.NAV_IMG_CMD_BUSY 31 = false ∧ (0 : Nat) % 4 ≠ 1 ∧ (1 : Nat) % 4 = 1),
    (let s := (R.setFlag Reg.NAV_CTL_EN 31 true).setFlag Reg.NAV_STS_ARMED 31 true
     On s (s.flag Reg.NAV_CTL_EN 31 = true ∧ s.flag Reg.NAV_STS_ARMED 31 = true)),
    (let s := R.setFld Reg.NAV_IMG_LEN_BYTES 31 399
     On s (s.flag Reg.NAV_CTL_EN 31 = false ∧ s.fld Reg.NAV_IMG_LEN_BYTES 31 < 400)),
    (let s := R.setFld Reg.NAV_IMG_LEN_BYTES 31 1311104
     On s (400 ≤ s.fld Reg.NAV_IMG_LEN_BYTES 31 ∧ s.fld Reg.NAV_IMG_LEN_BYTES 31 ≤ 1311104 ∧ (s.dmaRead 0 0 1311104).2 = false)),
    (let s : State := { R with hif := { R.hif with linkUp := true, wins := Tbl.insert 0 ⟨0, 1000, true, true, true⟩ [] } }
     On s ((s.dmaRead 0 0 1311104).2 = true)),
    On R ((R.cluster 31).load = none),
    (let s := loads [] R
     On s ((s.cluster 31).load = some ⟨[], 1, true⟩ ∧ s.imgStoreOk 31 = false) ∧
     (let open_ (i : Nat) (s : State) : State := (s.setFlag Reg.SEAL_STS_READY i true).setFlag Reg.SEAL_STS_ROOT_OK i true
      On (open_ 0 (open_ 1 s)) ((open_ 0 (open_ 1 s)).imgStoreOk 31 = true ∧ ((open_ 0 (open_ 1 s)).cluster 31).load.isSome = true))),
    On R (R.reg Reg.NAV_MIN_SVN 31 < 2 ^ 32 - 1 ∧ (0 : Nat) ≤ R.reg Reg.NAV_MIN_SVN 31 ∧ R.bankOk 31 (1 - R.actBank 31) = false),
    (let s := (R.setFlag Reg.NAV_STS_VALID1 31 true).setFlag Reg.NAV_STS_OLD_BANK_BUSY 31 true
     let t := R.setFlag Reg.NAV_STS_VALID1 31 true
     On s (s.bankOk 31 (1 - s.actBank 31) = true ∧ s.flag Reg.NAV_STS_OLD_BANK_BUSY 31 = true) ∧
     On t (t.bankOk 31 (1 - t.actBank 31) = true ∧ ¬ (t.flag Reg.NAV_STS_OLD_BANK_BUSY 31 = true ∨
       ∃ i ∈ List.range 16, (t.nv 31 i).run = true ∧ (t.nv 31 i).bank = 1 - t.actBank 31)))] = true := by decide +kernel


/-- Stack 1 open and with four cached nodes over line 0 of its range 0 of one unit; a word of a wide instruction; navigator 15 of
cluster 31 with a word at its program counter. -/
def sealUp (x : SealS) : State :=
  (((R.setSeal 1 x).setFlag Reg.SEAL_STS_READY 1 true).setFlag Reg.SEAL_STS_ROOT_OK 1 true).setRegI Reg.SEAL_RANGE_CFG 1 0 (0 + 2 ^ 13 + 2 ^ 26)
def opened : SealS := { sealReset with begun := true }
def cached : SealS := { opened with cache := [0, 1, 2, 3].map fun l => ⟨0, l, 0, List.replicate 8 0, false⟩ }
def wide (op f3 f7 rd rs1 rs2 : Nat) : Nat := op + rd * 2 ^ 7 + f3 * 2 ^ 12 + rs1 * 2 ^ 15 + rs2 * 2 ^ 20 + f7 * 2 ^ 25
def navAt (e : NavE) (raw : Nat) : State :=
  let s := nvAs { e with run := true } R
  { s with nmem := s.nmem.writeN (placeBank 31 0 0) (toLE 4 raw) }

/-- The row of what comes next: none for an interrupt, a fault or an illegal instruction. -/
def rowOf (x : NavNext) : Option Nat := match x with
  | .op o _ _ => some o.row
  | _ => none

/-- The navigator is ready and an instruction of the row comes next, when the clear or held interrupt comes. -/
def comes (e : NavE) (raw row : Nat) : Bool :=
  let s := navAt e raw
  On s (s.navReady 31 15 = true ∧ s.inv Ty.NAV 31 2 = false ∧ rowOf ((s.navTime 31 15 0 []).navNext 31 15 true).2 = some row)

theorem test_meets_NavigatorInstructions : All [
    On R (31 < 32 ∧ 15 < 16 ∧ R.navReady 31 15 = false),
    (let s := (R.setNv 31 0 { naveReset with run := true }).setReg (Reg.ERR_INV_CHECK Ty.NAV) 31 4
     On s (s.navReady 31 0 = true ∧ s.inv Ty.NAV 31 2 = true)),
    comes naveReset 0x00000013 0,
    comes naveReset (wide 0x0B 0 0 31 31 31) 1,
    comes naveReset (wide 0x0B 1 127 31 31 31) 2,
    comes naveReset (wide 0x2B 0 3 31 31 31) 3,
    comes naveReset (wide 0x2B 1 3 31 31 31) 4,
    comes naveReset (wide 0x2B 2 0 31 31 31) 5,
    comes naveReset (wide 0x2B 3 0 31 31 31) 6,
    comes naveReset (wide 0x2B 4 0 31 31 31) 7,
    comes naveReset (wide 0x2B 5 3 31 31 31) 8,
    comes naveReset (wide 0x2B 6 3 31 31 31) 9,
    comes naveReset (wide 0x2B 6 35 31 31 31) 10,
    comes naveReset (wide 0x2B 7 127 31 31 0) 11,
    comes naveReset (wide 0x2B 7 63 31 31 0) 12,
    comes naveReset (wide 0x5B 0 63 31 31 31) 13,
    comes naveReset (wide 0x5B 1 0 31 31 31) 14,
    comes naveReset (wide 0x5B 2 0 31 0 31) 15,
    comes naveReset (wide 0x5B 3 0 31 31 0) 16,
    comes naveReset (wide 0x7B 0 0 31 31 0) 17,
    comes naveReset (wide 0x7B 1 0 31 31 0) 18] = true := by decide +kernel

theorem test_meets_NavigatorInstructions_cases : All [
    (let s := navAt naveReset 0
     On s (s.navReady 31 15 = true ∧ ((s.navTime 31 15 0 []).navNext 31 15 false).2 = .illegal 0)),
    (let s := navAt { naveReset with pc := 0x40000 } 0
     On s (((s.navTime 31 15 0 []).navNext 31 15 false).2 = .fault ∧ (((s.navTime 31 15 0 []).navNext 31 15 false).1.nv 31 15).trapped = false)),
    (let s := navAt { naveReset with pc := 0x40000, trapped := true } 0
     On s (((s.navTime 31 15 0 []).navNext 31 15 false).2 = .fault ∧ (((s.navTime 31 15 0 []).navNext 31 15 false).1.nv 31 15).trapped = true)),
    (laneCount 3 ≤ 15 ∧ 0 < laneCount 3),
    naveReset.may 0 = true,
    ({ naveReset with um := true } : NavE).may 0 = false,
    (R.epAllowed 31 0xFF01 = true ∧ R.epAllowed 31 0xFFFF = false),
    naveReset.rx = [],
    naveReset.b = 0,
    naveReset.alm.length < 4] = true := by decide +kernel

theorem test_meets_NavigatorInstructions_irq : All [
    (let e := (naveReset.putCsr 0x304 (BitVec.ofNat 64 (2 ^ 17))).putCsr 0x300 8
     let s := (navAt e 0x13).setNv 31 15 { e with run := true, rx := [⟨0, 0, []⟩] }
     s.navReady 31 15 && (match ((s.navTime 31 15 0 []).navNext 31 15 false).2 with
       | .irq _ => true
       | _ => false)),
    naveReset.pc = 0] = true := by decide +kernel

theorem test_meets_RegionsAndSealedMemory : All [
    On R (63 < 64 ∧ R.present Ty.QMAP 63 = false),
    On R (R.present Ty.QMAP 32 = true ∧ R.flag Reg.QMAP_REGION_SEL_ALL 32 = false),
    (let s := R.setFlag Reg.QMAP_REGION_SEL_ALL 31 true
     On s (s.present Ty.QMAP 31 = true ∧ 31 ≠ 32 ∧ s.flag Reg.QMAP_REGION_SEL_ALL 31 = true)),
    (let s := R.setQreg 31 15 15 { qregReset with cfg := 128 }
     bitOf (s.qreg 31 15 15).cfg 7 = true ∧ bitOf (R.qreg 31 15 15).cfg 7 = false ∧
       ((R.qhold.get qholdReset 31).overlay false (R.qreg 31 15 15) 0).base ≤ ((R.qhold.get qholdReset 31).overlay false (R.qreg 31 15 15) 0).limit),
    On half (1 < 2 ∧ 3 < 4 ∧ half.present Ty.SEAL 1 = false),
    On R (R.present Ty.SEAL 1 = true ∧ (R.sealOf 1).begun = false ∧ R.sealInitErr 1 = 0),
    On (sealUp opened) (((sealUp opened).sealOf 1).begun = true),
    (let s := R.setSeal 1 { sealReset with badStack := true }
     On s (s.sealInitErr 1 ≠ 0)),
    (let s := R.setFlag Reg.SEAL_RESEAL_CMD_BUSY 1 true
     On s (s.flag Reg.SEAL_RESEAL_CMD_BUSY 1 = true)),
    On R (R.flag Reg.SEAL_RESEAL_CMD_BUSY 1 = false ∧ R.flag Reg.SEAL_STS_READY 1 = false),
    (let s := sealUp opened
     On s (s.flag Reg.SEAL_STS_READY 1 = true ∧ s.flag Reg.SEAL_STS_ROOT_OK 1 = true ∧ (s.sealRange 1 0).2.2 ≠ 0 ∧
       (s.sealOf 1).poisoned.find? (fun p => p.1 == 0) = none)),
    (let s := sealUp { opened with poisoned := [(0, 0, 0)] }
     On s ((s.sealOf 1).poisoned.find? (fun p => p.1 == 0) = some (0, 0, 0))),
    (let s := R.setFlag Reg.SEAL_STS_INIT_BUSY 1 true
     On s (s.flag Reg.SEAL_STS_INIT_BUSY 1 = true) ∧ On R (R.flag Reg.SEAL_STS_INIT_BUSY 1 = false ∧ (R.sealOf 1).reseal = none)),
    (let s := sealUp { opened with reseal := some (2, 0, 0, 0) }
     On s ((s.sealOf 1).reseal = some (2, 0, 0, 0)))] = true := by decide +kernel

theorem test_meets_RegionsAndSealedMemory_lines : All [
    (List.replicate 64 (0 : Byte)).length = 64,
    On half (half.present Ty.SEAL 1 = false),
    On R (R.present Ty.SEAL 1 = true ∧ R.flag Reg.SEAL_STS_READY 1 = false),
    (let s := sealUp cached
     On s (¬ (s.flag Reg.SEAL_STS_READY 1 = false ∨ (s.sealOf 1).zeroised = true) ∧
       ¬ (usableUnits * unitLines < usableUnits * unitLines ∧ s.sealMay 1 3 (s.sealPart 1 (usableUnits * unitLines)) = true) ∧
       s.sealMay 1 9 (s.sealPart 1 (usableUnits * unitLines - 1)) = false)),
    (let s := (sealUp cached).setFlag Reg.SEAL_CTL_SCRATCH_DMA 1 true
     let l := usableUnits * unitLines - 1
     On s (l < usableUnits * unitLines ∧ s.sealPart 1 l = .spill ∧ s.sealMay 1 3 (s.sealPart 1 l) = true ∧ (s.sealPart 1 l).isRange = false)),
    (let s := sealUp cached
     On s (s.sealPart 1 0 = .range 0 ∧ s.sealMay 1 0 (.range 0) = true ∧ s.flag Reg.SEAL_STS_ROOT_OK 1 = true ∧
       (s.sealOf 1).resealing 0 (s.rangeLine 1 0 0) = false ∧ (s.sealOf 1).poisonedAt 0 (s.rangeLine 1 0 0) = false ∧
       (s.pathFetch 1 0 (s.rangeLine 1 0 0) [] (s.sealLevels 1 0).length).2.1 = true)),
    (let s := sealUp opened
     On s (s.sealPart 1 0 = .range 0 ∧ (s.pathFetch 1 0 (s.rangeLine 1 0 0) [0, 1, 2, 3] (s.sealLevels 1 0).length).2.1 = false))] = true := by decide +kernel

theorem test_meets_OnlyAPowerCycleEndsAHalt : ∃ t, exec (.epochWrite 0) halted = .next t ∧ halted.halted = true := ⟨_, rfl, rfl⟩


def win (closes : Nat) : State := { R with bin := { R.bin with wins := Tbl.insert (pageKey Ty.TTX 31 * 32 + 4) ⟨1, closes⟩ [] } }
def later (n : Nat) (s : State) : State := { s with tm := { s.tm with tickNo := n } }

theorem test_meets_ErrorEventsAndTheirClears : All [
    On R (R.present Ty.TTX 31 = true ∧ (defaultClass Ty.TTX 2).isSome = true),
    On half (half.present Ty.TTX 31 = false),
    On R (R.secondary Ty.TTX 31 0x030 = false ∧ 0 < 1 ∧ 31 < 32 ∧ (defaultClass Ty.TTX 1).isSome = true),
    On (win 1) (((win 1).bin.wins.find (pageKey Ty.TTX 31 * 32 + 4)).isSome = true),
    (let new (s : State) : Nat := s.reg (Reg.ERR_OVF Ty.TTX) 31 &&& (0xFFFFFFFF ^^^ (s.seen.getD resetAt ((Reg.ERR_OVF Ty.TTX).at 31)).toNat)
     let s := R.setReg (Reg.ERR_OVF Ty.TTX) 31 (2 ^ 31)
     On s (s.present Ty.TTX 31 = true ∧ bitOf (new s) 31 = true) ∧ On R (bitOf (new R) 31 = false ∧ (R.lateOf (pageKey Ty.TTX 31)).n = 0)),
    On R (R.seen.getD resetAt (Reg.BIN_SEVERE_LO.at 0) = R.rd (Reg.BIN_SEVERE_LO.at 0) ∧
      R.seen.getD resetAt (Reg.BIN_SEVERE_HI.at 0) = R.rd (Reg.BIN_SEVERE_HI.at 0))] = true := by decide +kernel

/-- TTX[31] with no escalation threshold, and with an event recorded. -/
def noEsc : State := R.setReg (Reg.ERR_CLASS_CFG Ty.TTX) 31 0
def hadFirst : State := noEsc.setReg (Reg.ERR_FIRST Ty.TTX) 31 (2 ^ 15)

theorem test_meets_EventRecordsTheFirstAndHaltsOnFatal : All [
    (noEsc.present Ty.TTX 31 = true ∧ 2 ^ 32 - 1 < 2 ^ 32 ∧ bitsOf (noEsc.reg (Reg.ERR_CLASS_CFG Ty.TTX) 31) 0 8 = 0 ∧
      noEsc.openWin ⟨Ty.TTX, 31, 2, 2 ^ 32 - 1, 0, true, none⟩ = none),
    (bitOf (noEsc.reg (Reg.ERR_FIRST Ty.TTX) 31) 15 = false ∧ noEsc.halted = false),
    (hadFirst.present Ty.TTX 31 = true ∧ bitsOf (hadFirst.reg (Reg.ERR_CLASS_CFG Ty.TTX) 31) 0 8 = 0 ∧
      hadFirst.openWin ⟨Ty.TTX, 31, 2, 0, 0, false, none⟩ = none ∧ bitOf (hadFirst.reg (Reg.ERR_FIRST Ty.TTX) 31) 15 = true ∧
      bitsOf (hadFirst.reg (Reg.ERR_FIRST Ty.TTX) 31) 8 2 < EClass.fatal.code)] = true := by decide +kernel

theorem test_meets_MeridianCountAdvances : All [
    (R.tm.m + 1 < 2 ^ 48 ∧ (2 ^ 48 - 1) + R.intendedE < 2 ^ 48),
    (let s : State := { R with tm := { R.tm with m := 2 ^ 48 - 2 } }
     s.tm.m + 1 < 2 ^ 48 ∧ 0 + s.intendedE < s.tm.m + 1),
    On R (R.mirrorOpen = true ∧ R.intendedE < 2 ^ 48 - 1),
    On R (0 ≤ R.intendedE),
    On (mate R) ((mate R).mirrorOpen = false)] = true := by decide +kernel

theorem test_meets_TickBoundaryOrderAndHalt : Running R ∧ (halted.off = false ∧ halted.halted = true) := ⟨⟨rfl, rfl⟩, rfl, rfl⟩

def domAs (d : Nat) (x : Dom) : State := R.setDom d x

theorem test_meets_DomainCommandsOfTheAstrolabe : All [
    On R (1 < 2 ∧ 3432537863 ≤ 3432537863 ∧ 3432537863 ≤ 3439409811),
    On R (3439409811 ≤ 3439409811),
    On R (2 ^ 40 - 1 < 2 ^ 40 ∧ 3439409811 < 2 ^ 40 - 1),
    On R (3432537862 < 3432537863),
    On R (2 ^ 16 - 1 < 2 ^ 16),
    On R ((R.dom 1).hold = false),
    (let s := domAs 1 { domReset with hold := true, held := 8000 }
     On s ((s.dom 1).hold = true ∧ s.flag Reg.AST_DOM_CTL_HOLD 0 (0x40 * 1) = false ∧ 8000 ≤ (s.dom 1).held)),
    (let s := (domAs 1 { domReset with since := 2 ^ 32 }).setFld Reg.AST_DOM_HOLD_HOLD_TICKS 0 1 (0x40 * 1)
     On s ((s.dom 1).hold = false ∧ 0 < s.fld Reg.AST_DOM_HOLD_HOLD_TICKS 0 (0x40 * 1) ∧
       s.fld Reg.AST_DOM_HOLD_HOLD_TICKS 0 (0x40 * 1) ≤ (s.dom 1).since))] = true := by decide +kernel

/-- A switch to domain 1 requested with a difference in time, domain 1 valid or not. -/
def switching (step valid : Bool) (t resid : Nat) : State :=
  let s := (domAs 1 { domReset with t := t }).setFlag Reg.AST_DOM_CTL_VALID 0 valid (0x40 * 1)
  { s with tm := { s.tm with swReq := some (1, step), resid := resid } }

theorem test_meets_AdjustmentAndSwitchAtTheBoundary : All [
    (let x : Dom := { domReset with adj := some ⟨true, 1, 2, 3⟩ }
     x.adj = some ⟨true, 1, 2, 3⟩),
    (let x : Dom := { domReset with adj := some ⟨false, 2 ^ 48 - 1, 2, 3⟩ }
     x.adj = some ⟨false, 2 ^ 48 - 1, 2, 3⟩),
    (let s := switching true true 0 0
     s.tm.swReq = some (1, true) ∧ 1 ≠ s.tm.active ∧ s.domValid 1 = true ∧ s.tm.resid = 0),
    (let s := switching false false 0 0
     s.domValid 1 = false),
    (let s := switching false true 0 5
     s.tm.resid ≠ 0),
    (let s := switching false true (10000000 * nsU + 1) 0
     s.tm.swReq = some (1, false) ∧ (((s.dom 1).t : Int) - (s.dom s.tm.active).t).natAbs > 10000000 * nsU),
    (let s := switching false true (10000000 * nsU) 0
     (((s.dom 1).t : Int) - (s.dom s.tm.active).t).natAbs ≤ 10000000 * nsU ∧ ((s.dom 1).t : Int) - (s.dom s.tm.active).t ≠ 0)] = true := by decide +kernel

theorem test_meets_ComparesCapturesAndSnapshots : All [
    On R (3 < 4 ∧ (999999999 : BitVec 32).toNat ≤ 999999999 ∧ 999999999 < (1000000000 : BitVec 32).toNat),
    On R (R.flag Reg.AST_CMP_CTL_EN 0 (16 * 3) = false),
    (let s : State := { R with tm := { R.tm with cmpFired := 8 } }
     On s (bitOf s.tm.cmpFired 3 = true)),
    On R (R.flag Reg.AST_PPS_CFG_PPS_IN_EN 0 = false),
    (let s := R.setFlag Reg.AST_PPS_CFG_PPS_IN_EN 0 true
     On s (s.on Reg.AST_PPS_CFG_PPS_IN_EN 0 = true ∧ (true : Bool) ≠ s.flag Reg.AST_PPS_CFG_PPS_IN_POL 0 ∧ s.tm.ppsIn = none))] = true := by decide +kernel

theorem test_meets_OverrunsAndDescriptorDrops : All [
    (let s := on_ Ty.TSI 0 (counted R)
     On s (255 < 256 ∧ s.hasWork Ty.TSI 0 = true ∧ s.workDone Ty.TSI 0 = false)),
    On R (R.hasWork Ty.TSI 0 = false),
    (let s : State := { counted R with tickWork := Tbl.insert (pageKey Ty.TSI 0) (5, true) [] }
     On s (s.workDone Ty.TSI 0 = true)),
    On R (R.overrunSeen Ty.SXT 3 = false),
    (let s : State := { R with ovrAt := R.ovrAt.set 0 (pageKey Ty.SXT 3) 1 }
     On s (s.overrunSeen Ty.SXT 3 = true)),
    (let s := fwWith fwdReset
     On s (s.present Ty.FWD 3 = true ∧ (s.waitingAt Ty.FWD 3).getLast? = some pkt)),
    (let s : State := { fwWith fwdReset with tm := { R.tm with base := 400000 } }
     let a := s.advanceTo 0
     On s ((a.waitingAt Ty.FWD 3).find? (fun q => decide (a.deadlineOf Ty.FWD 3 < a.now - q.born)) = some pkt)),
    (let p : Pkt := { pkt with hp := 7, dst := 31 }
     let goes (s : State) (q : Pkt) : Bool := q.hp == 7 && s.outHp q == some 7
     let s : State := { R with xin := [p] }
     let u : State := { s with tm := { s.tm with base := 2 ^ 20 } }
     On s (7 < 8 ∧ s.xin.find? (goes s) = some p ∧ (s.xin.takeWhile fun q => !(goes s q)) = [] ∧ s.tooOld Ty.BUF 0 p = false) ∧
     On u (u.xin.find? (goes u) = some p ∧ (u.xin.takeWhile fun q => !(goes u q)) = [] ∧ u.tooOld Ty.BUF 0 p = true))] = true := by decide +kernel

/-- Tree 31 transmitting, in mode `m`, with a transmitter record; what a frame stages. -/
def txAs (m : Nat) (x : TtxS) (s : State) : State := ((s.setTx 31 x).setReg (Reg.CTL Ty.TTX) 31 1).setFld Reg.TTX_CTL_MODE 31 m
def stagedAt (n : Nat) : Staged := ⟨n, [], [], [], 0, false⟩

theorem test_meets_FrameStagingAndTransmission : All [
    On (txAs 2 ttxReset (counted R)) (31 < 32 ∧ (txAs 2 ttxReset (counted R)).stages 31 = true),
    On R (R.stages 31 = false),
    On R ((R.endFrame 31).lineWant 31 = 0),
    On (txAs 1 ttxReset R) (((txAs 1 ttxReset R).endFrame 31).lineWant 31 = 1),
    (let s := txAs 2 ttxReset (counted R)
     On s ((s.endFrame 31).lineWant 31 = 2 ∧ ((s.endFrame 31).tx 31).line = 0 ∧ ((s.endFrame 31).tx 31).wakeAt = none)),
    (let s := txAs 2 { ttxReset with wakeAt := some 0 } (counted R)
     let u := later 1 s
     On s ((s.endFrame 31).lineWant 31 ≠ 0 ∧ ((s.endFrame 31).tx 31).line = 0 ∧ ((s.endFrame 31).tx 31).wakeAt = some (s.endFrame 31).tm.tickNo) ∧
     On u ((u.endFrame 31).lineWant 31 = 2 ∧ ((u.endFrame 31).tx 31).wakeAt ≠ some (u.endFrame 31).tm.tickNo ∧
       ((u.endFrame 31).tx 31).wakeAt.isSome = true)),
    (let s := txAs 2 { ttxReset with line := 1, staged := some (stagedAt 8000) } (counted R)
     On s ((s.endFrame 31).lineWant 31 = 2 ∧ ((s.endFrame 31).tx 31).line ≠ 0 ∧ ((s.endFrame 31).tx 31).staged = some (stagedAt 8000) ∧
       (stagedAt 8000).tick ≤ (s.endFrame 31).tm.m ∧ (s.endFrame 31).tm.m < (stagedAt 8001).tick)),
    (let s := txAs 2 { ttxReset with line := 2 } (counted R)
     On s ((s.endFrame 31).lineWant 31 = 2 ∧ ((s.endFrame 31).tx 31).line ≠ 0 ∧ ((s.endFrame 31).tx 31).staged = none)),
    On R (1 < 2 ∧ R.hasTree 31 = true ∧ R.mirrorOpen = true ∧ 0 = R.tsi.active ∧ 1 ≠ R.tsi.active),
    On (mate R) ((mate R).hasTree 31 = true ∧ (mate R).mirrorOpen = false),
    On half (half.hasTree 31 = false)] = true := by decide +kernel

theorem test_meets_FrameHeaderAndUnitStart : All [
    (31 < 32 ∧ 2 ^ 48 - 1 < 2 ^ 48),
    (R.tx 31).cur = none,
    (((R.beginFrame 31 5 (stagedAt 5)).tx 31).cur).isSome = true,
    0 ≤ 16391 * 0,
    16391 * 2 ≤ 16391 * 2] = true := by decide +kernel

/-- Tree 31 inside a frame; a unit in progress; a frame of a serve list. -/
def inFrame (x : TtxS) : State := R.setTx 31 { x with cur := some (stagedAt 5, []) }
def aUnit : TxUnit := ⟨323, 0, false, false, frame, 0⟩
def served : ServeE := ⟨323, false, pkt⟩

theorem test_meets_UnitsOfAServeList : All [
    On R (31 < 32 ∧ (R.tx 31).cur = none),
    (let s := inFrame { ttxReset with inProg := [aUnit] }
     On s ((s.tx 31).cur = some (stagedAt 5, []) ∧ 9 ≤ frameBytes - unitStart (stagedAt 5) - (s.tx 31).units.length ∧ (s.tx 31).urgNext = false ∧
       (s.tx 31).inProg = [aUnit])),
    (let s := inFrame ttxReset
     On s ((s.tx 31).inProg = [] ∧ (s.tx 31).pick = none)),
    (let s := inFrame { ttxReset with serve := [served] }
     On s ((s.tx 31).inProg = [] ∧ (s.tx 31).pick = some served)),
    16383 < 4 + 16364 + 16,
    60 ≤ aUnit.rest.length] = true := by decide +kernel

-- A frame whose sections leave no room for a unit.
theorem test_meets_UnitsOfAServeList_full :
    ∃ l : List Bytes, frameBytes - unitStart { stagedAt 5 with entries := l } < 9 := by
  have h (n : Nat) : unitStart { stagedAt 5 with entries := List.replicate n [] } = 16 + 8 * n + 64 := by simp [unitStart, stagedAt]
  exact ⟨List.replicate 170989 [], by rw [h]; decide⟩

/-- Receiver 31 on, with the map of a frame: one burst of 141 blocks, or nothing. -/
def mapOf (l : List GEnt) : UMap := ⟨7996, 7996, 0, l, [], 128, [], true⟩
def trxWith (l : List GEnt) : State :=
  (((counted R).setRx 31 { trxReset with maps := [mapOf l] }).setReg (Reg.CTL Ty.TRX) 31 1).setFlag Reg.TRX_CTL_RX_EN 31 true
def grant : GEnt := ⟨1, 40, 100, 141, false, false⟩
def darkB : Burst := ⟨false, [], 0, 0, 0, 0, 0⟩
def litB : Burst := ⟨true, List.replicate 511 false ++ delimBits, 0, 0, 0, 0, 0⟩

theorem test_meets_BurstsAndReceiverState : All [
    On R (31 < 32 ∧ R.mapAt 31 5 = none),
    (let s := trxWith [grant]
     On s (s.rxOn 31 = true ∧ s.mapAt 31 7996 = some (mapOf [grant]) ∧
       ((mapOf [grant]).bursts.find? fun e => e.start == 101 && !(mapOf [grant]).got.contains 101) = none ∧
       ((mapOf [grant]).bursts.find? fun e => e.start == 100 && !(mapOf [grant]).got.contains 100) = some ⟨40, 100, 141, [], true⟩ ∧
       darkB.light = false ∧ s.inv Ty.TRX 31 0 = false ∧ s.inv Ty.SXT 31 0 = false ∧ s.inv Ty.SXT 31 1 = false ∧ s.isRanging 31 7996 ⟨40, 100, 141, [], true⟩ = false ∧
       litB.light = true ∧ litB.guard ≤ s.fld Reg.TRX_LEN_CFG_GUARD_LIGHT_LIM 31 ∧ litB.early ≤ s.fld Reg.TRX_LEN_CFG_EARLY_END_LIM 31 ∧
       delimFind litB (s.fld Reg.TRX_DELIM_CFG_WINDOW 31) (s.fld Reg.TRX_DELIM_CFG_ERR_MAX 31) = some 0)),
    On R (R.rxOn 31 = false),
    On (trxWith []) (∀ b ∈ [32, 0], b ≤ 32),
    (let s := (trxWith []).setFlag Reg.TRX_CTL_ROGUE_EN 31 true
     On s ((∀ b ∈ [33, 128], 32 < b) ∧ usBlocks - 2 + [33, 128].length ≤ usBlocks ∧ s.rxOn 31 = true ∧ s.on Reg.TRX_CTL_ROGUE_EN 31 = true ∧ s.mapAt 31 7996 = some (mapOf []) ∧
       (mapOf []).bursts = [] ∧ (mapOf []).windows = []))] = true := by decide +kernel

theorem test_meets_ProfilesSeedCurrentAndCommands : All [
    On R (31 < 32 ∧ 511 < 512 ∧ R.present Ty.TRX 31 = true),
    On half (half.present Ty.TRX 31 = false),
    ((Prof.ofSeed (2 ^ 27 - 1)).amp = 16 * (((Prof.ofSeed (2 ^ 27 - 1)).amp / 16).toNat : Int)),
    2 ^ 27 - 1 < 2 ^ 27] = true := by decide +kernel

theorem test_meets_PreambleChangeIsNamed : All [
    On R (31 < 32 ∧ R.mirrorOpen = true ∧ R.present Ty.TRX 31 = true),
    On (mate R) ((mate R).mirrorOpen = false ∧ (mate R).present Ty.TRX 31 = true),
    On half (half.present Ty.TRX 31 = false),
    (R.fld Reg.TRX_PREAMBLE_CFG_BITS 31 = R.fld Reg.TRX_PREAMBLE_CFG_CUR 31 ∧
      (R.tm.named.any fun a => a.kind == .preamble && a.inst == 31) = false),
    ((!(counted R).tm.free && decide (8001 ≤ (counted R).tm.m + 1)) = true ∧ (!(counted R).tm.free && decide (8002 ≤ (counted R).tm.m + 1)) = false)] = true := by decide +kernel


def ax0 : Nat := 31 * 512 + 511
def alloc0 : OAlloc := { allocReset with valid := true, type := 1, term := 511 }
def allocWith (a : OAlloc) (s : State) : State := s.setAlloc 31 1023 a
def allocData (w0 w1 : Nat) (s : State) : State := (s.setRegI Reg.ORR_ALLOC_DATA 3 0 w0).setRegI Reg.ORR_ALLOC_DATA 3 1 w1
def treesOn (s : State) : State := s.setFld Reg.ORR_CTL_TREE_EN 3 255

theorem test_meets_AllocationTableCommands : All [
    On half (half.present Ty.ORR 3 = false),
    On R (3 < 4 ∧ 7 < 8 ∧ 1023 < 1024 ∧ R.present Ty.ORR 3 = true ∧ R.mirrorOpen = true ∧
      R.allocStatus 31 1023 ((R.alloc 31 1023).ofWords ((List.range 6).map fun j => R.regI Reg.ORR_ALLOC_DATA 3 j)) = 0),
    (let s := allocData 1 0 R
     On s (s.allocStatus 31 1023 ((s.alloc 31 1023).ofWords ((List.range 6).map fun j => s.regI Reg.ORR_ALLOC_DATA 3 j)) = 2)),
    On (mate R) ((mate R).mirrorOpen = false ∧ (mate R).present Ty.ORR 3 = true),
    (let s := treesOn R
     On s (s.treeEn 31 = true ∧ (s.plainWrite (Reg.ORR_TREE_CFG.at 3 + 4 * 7) 0).fld Reg.ORR_TREE_CFG_D 3 (4 * 7) ≠
       s.fld Reg.ORR_TREE_CFG_D 3 (4 * 7))),
    (let s := allocWith { alloc0 with type := 0, fixStart := 1, fixLen := 1 } R
     let s1 := s.plainWrite (Reg.ORR_TREE_CFG.at 3 + 4 * 7) (2 ^ 32 - 1)
     On s (((s.ort 31).allocs.any fun q => q.2.valid && q.2.type == 0 && decide (q.2.fixStart < s1.fixBase 31)) = true)),
    On R (((R.ort 31).allocs.any fun q => q.2.valid && q.2.type == 0 && decide (q.2.fixStart < 1)) = false ∧ R.treeEn 31 = false)] = true := by decide +kernel

theorem test_meets_WriteAndDeleteOfAnAllocation : All [
    (let s := allocWith alloc0 R
     (s.alloc 31 1023).valid = true ∧ ((s.alloc 31 1023).ofWords [3]).valid = true ∧ (s.alloc 31 1023).type = ((s.alloc 31 1023).ofWords [3]).type ∧
       ((s.alloc 31 1023).ofWords [0]).valid = false ∧ (s.alloc 31 1023).type ≠ ((s.alloc 31 1023).ofWords [5]).type ∧ (s.alloc 31 1023).rtick ≤ 0),
    (R.alloc 31 1023).valid = false,
    (let s := allocWith { alloc0 with rtick := 9 } R
     8 < (s.alloc 31 1023).rtick),
    alloc0.stale 5 6 0 = false,
    (31 ≠ 30 ∨ 1023 ≠ 1023)] = true := by decide +kernel

/-- Slice 3's Orrery at work; terminal 511 of tree 31 in a state with the frame that said so; a hint posted. -/
def orrOn (s : State) : State := (treesOn (counted s)).setReg (Reg.CTL Ty.ORR) 3 (1 + 255 * 2 ^ 8)
def opTerm (s : State) : State := s.setTerm ax0 { termReset with valid := true, st := .operational, opFrame := some 5 }
def hint (op : Nat) : Bytes := toLE 2 1023 ++ [BitVec.ofNat 8 op] ++ List.replicate 13 0

theorem test_meets_GrantComputationAndPublication : All [
    On R (R.orrWorks 3 = false),
    On (orrOn R) ((orrOn R).orrWorks 3 = true),
    On R (31 < 32 ∧ 31 / 8 = 3 ∧ ∀ p ∈ R.posts, ¬ (p.cluster = 31 ∧ p.ep = Ty.ORR * 256 + 31 / 8)),
    (let s := posted (Ty.ORR * 256 + 3) (hint 0) (orrOn R)
     On s (s.posts.find? (fun p => p.cluster == 31 && p.ep == Ty.ORR * 256 + 31 / 8) = some ⟨31, 15, Ty.ORR * 256 + 3, hint 0⟩ ∧ s.hasTree 31 = true ∧
       s.active Ty.ORR (31 / 8) = true ∧ leAt (hint 0) 2 1 = 0)),
    (let s := opTerm (allocWith alloc0 (posted (Ty.ORR * 256 + 3) (hint 3) (orrOn R)))
     let a := s.alloc 31 (leAt (hint 3) 0 2 % 1024)
     On s (1 ≤ leAt (hint 3) 2 1 ∧ leAt (hint 3) 2 1 ≤ 3 ∧ a.valid = true ∧ a.type ≠ 0 ∧ s.reportsOp 31 a.term s.nextM = true ∧
       leAt (hint 3) 8 6 = 0 ∧ (s.ort 31).hints.length < 64)),
    ((R.ort 31).comp = none ∧ R.treeEn 31 = false ∧ R.hasTree 31 = true ∧ R.handed 31 5 = false)] = true := by decide +kernel

theorem test_meets_CodewordArithmeticOfGrants : All [
    (32 < ohOf 128 ∧ ohOf 128 ≤ usBlocks),
    (0 < 1 ∧ 1 ≤ sentOf usBlocks 128)] = true := by decide +kernel

theorem test_meets_TerminalRecordCommands : All [
    On R (31 < 32 ∧ 511 < 512 ∧ R.present Ty.SXT 31 = true ∧ R.inv Ty.SXT 31 0 = false ∧ R.inv Ty.SXT 31 1 = false ∧ R.isActive = true),
    On (standby R) ((standby R).present Ty.SXT 31 = true ∧ (standby R).isActive = false)] = true := by decide +kernel

/-- Tree 31's Sextant at work; with a terminal record; with a Sextant record. -/
def sxtOn (s : State) : State := s.setReg (Reg.CTL Ty.SXT) 31 1
def asTerm (x : Term) (s : State) : State := s.setTerm ax0 x
def asSxt (x : SxtS) (s : State) : State := s.setSx 31 x
def sess0 : Sess :=
  { mode := 1, session := 7, opened := 0, objWait := 5, kxRetry := 1, segMax := 8, limit := 9, timeCheck := false, utcOff := 0, heSni := 0, anchors := [], deny := [], chain := []
    nonce := [], ec := [], kem := [], tx := [], rx := [], started := false, verified := false, fp := 0 }
def ktAs (x : KaTerm) (s : State) : State := s.setKt ax0 x

theorem test_meets_TerminalTimersAndExpiries : All [
    (let s := asTerm { termReset with winCloses := some 0 } R
     On s ((s.term ax0).winCloses = some 0 ∧ 0 ≤ s.tm.tickNo)),
    (let s := asTerm { termReset with winCloses := some 1 } R
     On s ((s.term ax0).winCloses = some 1 ∧ s.tm.tickNo < 1)),
    On R ((R.term ax0).winCloses = none),
    (let s := asSxt { sxtReset with rogue := some (0, 1, false) } R
     On s ((s.sx 31).rogue = some (0, 1, false))),
    (let s := later (2 ^ 32) (asTerm { termReset with st := .quarantined } (R.setFlag Reg.SXT_CTL_AUTO_RELEASE 31 true))
     On s ((s.term ax0).st = .quarantined ∧ s.flag Reg.SXT_CTL_AUTO_RELEASE 31 = true ∧
       max (s.term ax0).since (s.term ax0).lastViol + s.fld Reg.SXT_QUAR_WIN_QUAR_HOLD 31 ≤ s.tm.tickNo)),
    (let s := later (2 ^ 32) (asTerm { termReset with st := .deactivated } R)
     On s ((s.term ax0).st = .deactivated ∧ (s.term ax0).since + s.fld Reg.SXT_LOSS_CFG_DEACT_HOLD 31 ≤ s.tm.tickNo)),
    On R ((R.term ax0).st ≠ .quarantined ∧ (R.term ax0).st ≠ .deactivated ∧ (R.term ax0).st ≠ .authenticating),
    (let s := later (2 ^ 32) (ktAs { kaReset with sess := some sess0 } (asTerm { termReset with st := .authenticating } R))
     On s ((s.term ax0).st = .authenticating ∧ s.isActive = true ∧ (s.term ax0).pend = none ∧
       (s.term ax0).since + 8 * s.fld Reg.SXT_BUDGET_CFG_AUTH_TIMEOUT 31 ≤ s.tm.tickNo ∧ (s.kt ax0).sess.isSome = true)),
    (let s := asTerm { termReset with bcast := some (1, 5, true, 0) } R
     On s ((s.term ax0).bcast = some (1, 5, true, 0) ∧ 0 ≤ s.tm.tickNo ∧ s.isActive = true)),
    (let s := asSxt { sxtReset with darkTest := some (0, 511, 5) } R
     On s ((s.sx 31).darkTest = some (0, 511, 5))),
    On R (R.present Ty.SXT 31 = true ∧ R.isActive = true ∧ (BitVec.ofNat 32 (2 ^ 31 - 1)).toNat < 2 ^ 31 ∧ 2 ^ 31 ≤ (BitVec.ofNat 32 (2 ^ 31)).toNat ∧
      (R.sx 31).darkTest = none ∧ bitsOf (2 ^ 31) 0 9 ≤ bitsOf (2 ^ 31) 16 9),
    On (sxtOn R) ((sxtOn R).active Ty.SXT 31 = true ∧ (sxtOn R).isActive = true ∧ (sxtOn R).inv Ty.SXT 31 0 = false ∧ (sxtOn R).inv Ty.SXT 31 1 = false ∧ ((sxtOn R).term ax0).rangeRes = none),
    (let s := asTerm { termReset with st := .discovered, assignAcked := true, rangeRes := some (5, some 0, 0) } (sxtOn R)
     On s (s.active Ty.SXT 31 = true ∧ s.isActive = true ∧ s.inv Ty.SXT 31 0 = false ∧ s.inv Ty.SXT 31 1 = false ∧ (s.term ax0).rangeRes = some (5, some 0, 0) ∧ (s.term ax0).reRange = false ∧
       (s.term ax0).st = .discovered ∧ (s.term ax0).assignAcked = true ∧ (0 : Int).natAbs ≤ s.fld Reg.SXT_RANGE_CFG_RANGE_TOL 31))] = true := by decide +kernel

/-- A control message of a type under CRC from terminal 511, and one received. -/
def msgOf (ty : Nat) (b : Bytes) : Bytes :=
  let m := [BitVec.ofNat 8 ty, 0] ++ toBE 2 511 ++ toBE 4 0 ++ sliceB b 0 48
  m ++ toBE 4 (crc32c m) ++ toBE 4 0
def ctrl (ty : Nat) (b : Bytes) : CtrlIn := ⟨511, 5, 100, 16, none, false, msgOf ty b⟩
def outMsg (sent tries : Nat) : OutMsg := ⟨0x12, 3, ⟨0x12, 511, [], 0⟩, sent, tries⟩
def ackBody : Bytes := toBE 1 0x12 ++ toBE 1 0 ++ toBE 2 3 ++ List.replicate 44 0

theorem test_meets_ControlMessagesAndAcknowledgements : All [
    On R ((R.sx 31).inbox = []),
    (let s := asSxt { sxtReset with inbox := [ctrl 0x21 ackBody] } (sxtOn R)
     On s (s.active Ty.SXT 31 = true ∧ s.inv Ty.SXT 31 0 = false ∧ s.inv Ty.SXT 31 1 = false ∧ (s.sx 31).inbox = [ctrl 0x21 ackBody] ∧ (s.term (termAx 31 511)).st = .init)),
    (let s := asTerm { termReset with st := .operational } (asSxt { sxtReset with inbox := [ctrl 0x21 ackBody] } (sxtOn R))
     let c := ctrl 0x21 ackBody
     On s (s.isActive = true ∧ (s.term (termAx 31 c.term)).st ≠ .init ∧ c.nth = none ∧ upType (msgType c.msg) = true ∧ msgType c.msg ≠ 0x22 ∧
       envelopeOk c.msg c.term = true ∧ bodyOk (msgType c.msg) (msgBody c.msg) = true ∧ beAt c.msg 1 1 / 128 ≠ 1 ∧
       (s.term (termAx 31 c.term)).keyed = false)),
    On R ((R.sx 31).good.find? (fun c => msgType c.msg == 0x21) = none),
    (let s := asSxt { sxtReset with good := [ctrl 0x21 ackBody] } R
     On s ((s.sx 31).good.find? (fun c => msgType c.msg == 0x21) = some (ctrl 0x21 ackBody) ∧ (s.term ax0).out = none)),
    (let s := asTerm { termReset with out := some (outMsg 0 0) } (asSxt { sxtReset with good := [ctrl 0x21 ackBody] } R)
     On s ((s.term ax0).out = some (outMsg 0 0) ∧ (outMsg 0 0).type = beAt (msgBody (ctrl 0x21 ackBody).msg) 0 1 ∧
       (outMsg 0 0).seq = beAt (msgBody (ctrl 0x21 ackBody).msg) 2 2)),
    On R ((R.term ax0).out = none),
    (let s := asTerm { termReset with out := some (outMsg 0 0) } R
     On s (s.tm.tickNo < 0 + s.fld Reg.SXT_ACT_CFG_ACK_TIMEOUT 31)),
    (let s := later (2 ^ 32) (asTerm { termReset with out := some (outMsg 0 0) } R)
     On s (0 + s.fld Reg.SXT_ACT_CFG_ACK_TIMEOUT 31 ≤ s.tm.tickNo ∧ s.isActive = true ∧ (outMsg 0 0).tries < s.fld Reg.SXT_ACT_CFG_RETRY_MAX 31 ∧ s.groupFull 31 (outMsg 0 0).msg = false ∧
       ({ s with ka := { s.ka with gkSent := s.ka.gkSent.set 0 31 64 } } : State).groupFull 31 ⟨0x49, 511, [], 0⟩ = true)),
    On half (half.active Ty.SXT 31 = false),
    On R (R.tm.free = true),
    (let s := sxtOn (counted R)
     On s (s.active Ty.SXT 31 = true ∧ s.tm.free = false ∧ s.isActive = true ∧ 0 ≤ s.deadlineOf Ty.SXT 31 ∧ s.inv Ty.SXT 31 0 = false ∧ s.inv Ty.SXT 31 1 = false))] = true := by decide +kernel

/-- Tree 31 due a discovery window; one open; a record that a response finds. -/
def at' (m : Nat) (s : State) : State := { s with tm := { s.tm with free := false, m := m } }
def win0 : Window := ⟨5, 1, 22251, 256, 48, 256, 38676952, none, []⟩
def serial : DiscResp := ⟨1, 2, 3, 0, 0x3FFFF, true⟩
def known (s : State) : State := s.setTerm ax0 { termReset with valid := true, vendor := 1, serial := 2 }

theorem test_meets_DiscoveryWindowsAndTreeSettings : All [
    On R (R.flag Reg.SXT_CTL_DISC_EN 31 = false ∧ R.tm.free = true),
    (let p := R.fld Reg.SXT_DISC_CFG_PERIOD 31
     let s := at' (p * 1000 - 1 - R.dOf 31) (sxtOn (R.setFlag Reg.SXT_CTL_DISC_EN 31 true))
     On s (s.active Ty.SXT 31 = true ∧ s.tm.free = false ∧ s.isActive = true ∧ s.flag Reg.SXT_CTL_DISC_EN 31 = true ∧
       (s.nextM + s.dOf 31) % s.fld Reg.SXT_DISC_CFG_PERIOD 31 = 0 ∧ (s.sx 31).windows = [])),
    (let s := at' 5 (asSxt { sxtReset with windows := [win0] } (sxtOn ((on_ Ty.TRX 31 R).setFlag Reg.TRX_CTL_RX_EN 31 true)))
     On s (s.active Ty.SXT 31 = true ∧ s.isActive = true ∧ s.on Reg.TRX_CTL_RX_EN 31 = true ∧ 5 ≤ s.tm.m ∧ (0 : Int) ≤ 0 ∧ (0 : Int) < win0.len * 128 ∧
       (s.sx 31).windows.find? (fun w => w.utick == 5) = some win0 ∧ darkB.light = false ∧ ∀ w ∈ (s.sx 31).windows, w.utick ≠ 6)),
    (let s := known R
     let q := s.term ax0
     s.inv Ty.SXT 31 0 = false ∧ s.inv Ty.SXT 31 1 = false ∧ ((s.termsOf 31).filter (fun n => (s.term (termAx 31 n)).valid && (s.term (termAx 31 n)).vendor == serial.vendor &&
        (s.term (termAx 31 n)).serial == serial.serial)) = [511] ∧ q.dark = false ∧ q.st = .init ∧ q.pend = none ∧ serial.sni = 0x3FFFF ∧
       2125440 ≤ win0.eqdDisc - (2048 - ((serial.slot * win0.dslot * 128 + win0.pdisc * 8 : Nat) : Int)) ∧
       win0.eqdDisc - (38000000 - ((serial.slot * win0.dslot * 128 + win0.pdisc * 8 : Nat) : Int)) < 2125440),
    On half (half.active Ty.SXT 31 = false),
    (let s := at' 15 (sxtOn R)
     On s (s.active Ty.SXT 31 = true ∧ s.tm.free = false ∧ s.isActive = true ∧ s.nextM % 16 = 0 ∧ s.tm.named = [])),
    On R (R.mirrorOpen = true ∧ R.present Ty.SXT 31 = true ∧ bitsOf (5 + 4 * 2 ^ 16) 16 10 < bitsOf (5 + 4 * 2 ^ 16) 0 10 ∧ 600 < bitsOf (601 * 2 ^ 16) 16 10),
    (let v := 200 + 600 * 2 ^ 16
     let s := R.setFld Reg.SXT_DISC_CFG_SLOTS 31 1
     On s (bitsOf v 0 10 ≤ bitsOf v 16 10 ∧ bitsOf v 16 10 ≤ 600 ∧ bitsOf v 16 10 - bitsOf v 0 10 ≤ 400 ∧
       spanOf (windowLen (bitsOf v 0 10) (bitsOf v 16 10) (s.fld Reg.SXT_DISC_CFG_SLOTS 31) (s.discPre 31)) (s.fixBase 31) ≤ 4)),
    (let l (n : Nat) := windowLen (R.fld Reg.SXT_REACH_CFG_MIN 31) (R.fld Reg.SXT_REACH_CFG_MAX 31) (clampNat 1 1024 n) (R.discPre 31)
     spanOf (l 1) (R.fixBase 31) ≤ 4),
    (let s := R.setReg Reg.SXT_REACH_CFG 31 (0 + 600 * 2 ^ 16)
     let l := windowLen (s.fld Reg.SXT_REACH_CFG_MIN 31) (s.fld Reg.SXT_REACH_CFG_MAX 31) (clampNat 1 1024 2047) (s.discPre 31)
     4 < spanOf l (s.fixBase 31))] = true := by decide +kernel

/-- A discovery burst's 88 information bytes with a response of serial 2 of vendor 1, and the burst that carries them. -/
def respWord : Bytes :=
  let h := toBE 2 (0x1FF * 128 + 31 * 4) ++ toBE 6 5 ++ [64, 0, 0, 0]
  let b := toBE 4 1 ++ toBE 4 2 ++ toBE 4 3 ++ toBE 2 0 ++ toBE 3 0x3FFFF ++ [1] ++ List.replicate 30 0
  h ++ toBE 4 (crc32c h) ++ unitHeader 64 0x1FFFE 0 true true false ++
    (let m := [0x20, 0] ++ toBE 2 0x1FF ++ toBE 4 0 ++ b; m ++ toBE 4 (crc32c m) ++ toBE 4 0)
def respBurst : Burst :=
  ⟨true, List.replicate 511 false ++ (delimBits ++ (respWord ++ parityOf (sliceB respWord 0 1824)).flatMap byteBits), 0, 0, 0, 0, 0⟩

theorem packBits_byteBits (l : Bytes) : packBits (l.flatMap byteBits) = l := by
  induction l with
  | nil => rfl
  | cons b r ih =>
    have h : ∀ b : Byte, byteBits b = [b.getLsbD 7, b.getLsbD 6, b.getLsbD 5, b.getLsbD 4, b.getLsbD 3, b.getLsbD 2, b.getLsbD 1, b.getLsbD 0] :=
      fun _ => rfl
    rw [List.flatMap_cons, h]
    simp only [List.cons_append, List.nil_append, packBits, ih]
    congr 1
    revert b
    decide +kernel

theorem respBurst_code : codeOf respBurst 0 = respWord ++ parityOf (sliceB respWord 0 1824) := by
  have h : (575 + (0 : Int)).toNat = (List.replicate 511 false ++ delimBits).length := by decide +kernel
  rw [codeOf, h, respBurst, ← List.append_assoc, List.drop_left, packBits_byteBits]

theorem respBurst_word : cwAt (codeOf respBurst 0) 0 88 = some (respWord, 0) := by
  have l : respWord.length = 88 := by decide +kernel
  have p (d : Bytes) : (parityOf d).length = 336 := by
    simp only [parityOf, sliceB, List.length_append, List.length_replicate, List.length_take]; omega
  have c : sliceB (respWord ++ parityOf (sliceB respWord 0 1824)) 0 424 = respWord ++ parityOf (sliceB respWord 0 1824) := by
    have n : (respWord ++ parityOf (sliceB respWord 0 1824)).length = 424 := by rw [List.length_append, l, p]
    rw [sliceB, List.drop_zero, List.take_of_length_le (by omega), n]; simp
  have s : (sliceB respWord 0 1824).take 88 = respWord := by decide +kernel
  rw [respBurst_code, cwAt]
  simp only [Nat.mul_zero, c]
  rw [List.take_left' l, List.drop_left' l]
  simp [ldpcDecode, s]

theorem test_meets_DiscoveryWindowsAndTreeSettings_response :
    respBurst.light = true ∧ (delimFind respBurst 0 0).isSome = true ∧ cwAt (codeOf respBurst 0) 0 88 = some (respWord, 0) ∧
    (let s := R.setFlag Reg.TRX_CTL_SCR_OFF 31 true
     s.pm = 0 ∧ discRespOf 31 win0 s.pm respWord (s.flag Reg.TRX_CTL_SCR_OFF 31) = some ⟨1, 2, 3, 0, 0x3FFFF, true⟩) ∧ (1, 2) ∉ win0.seen :=
  ⟨rfl, by decide +kernel, respBurst_word, by decide +kernel, by decide⟩


/-- The key agent able to open sessions and start switches; a keyed terminal; a session's objects. -/
def kaOn (s : State) : State :=
  { at' (2 ^ 40) s with ka := { s.ka with drbgOk := true, chain := [1], par := s.ka.par.setD resetAt (Reg.PKA_KA_CTL_KA_EN.at 0 0) 1 } }
def keyed (x : Term) : Term := { x with valid := true, keyed := true, st := .operational }
def rxo (n : Nat) : RxObj := { total := n, segs := [], since := 0, refused := false }
def txo (done : Bool) (k : Nat) : TxObj := { data := [1], sendings := k, todo := [], since := 0, done := done }
def kxMsg (ty : Nat) (b : Bytes) : CtrlIn := ⟨511, 5, 100, 16, none, false, msgOf ty b⟩

/-- Terminal 511 AUTHENTICATING in session 7, with a message of the key agent's received. -/
def inSess (e : Sess) (c : List CtrlIn) : State :=
  ktAs { kaReset with sess := some e } (asTerm { termReset with st := .authenticating } (asSxt { sxtReset with good := c } (kaOn R)))
def segBody (seg : Nat) : Bytes := [4, 7] ++ toBE 2 seg ++ toBE 2 1697 ++ List.replicate 42 0

theorem test_meets_KeyAgreementSessions : All [
    (let s := ktAs { kaReset with waitAt := some 0 } (asTerm { termReset with st := .authenticating } (kaOn R))
     let z := ktAs { kaReset with waitAt := some 0 } (asTerm { termReset with st := .authenticating, noKem := true } (kaOn R))
     On s (s.kaWaits ax0 = true ∧ s.kaMay = true ∧ (s.term ax0).noKem = false) ∧ On z (z.kaWaits ax0 = true ∧ z.kaMay = true ∧ (z.term ax0).noKem = true)),
    (let s := ktAs { kaReset with reDue := true } (asTerm (keyed termReset) (kaOn R))
     On s (s.kaWaits ax0 = false ∧ s.kaReady2 ax0 = true ∧ s.kaMay = true)),
    On R (R.kaMay = false),
    On (kaOn R) ((kaOn R).kaWaits ax0 = false ∧ (kaOn R).kaReady2 ax0 = false ∧ ((kaOn R).sx 31).good = []),
    ([0x41, 0x42, 0x44].all fun ty =>
      let s := asSxt { sxtReset with good := [kxMsg ty []] } R
      On s ((s.sx 31).good = [kxMsg ty []] ∧ msgType (kxMsg ty []).msg = ty ∧ (s.kaSess ax0 0).isNone = true)),
    (let c := kxMsg 0x41 (segBody 42)
     let s := inSess sess0 [c]
     On s ((s.sx 31).good = [c] ∧ msgType c.msg = 0x41 ∧ (s.kaSess ax0 (beAt (msgBody c.msg) 1 1)) = some sess0 ∧ beAt (msgBody c.msg) 0 1 = 4 ∧
       (sess0.rx.find 4).isNone = true ∧ beAt (msgBody c.msg) 4 2 = 1697 ∧ beAt (msgBody c.msg) 2 2 < 43)),
    (let c := kxMsg 0x42 [5, 7, 0]
     let e := { sess0 with tx := Tbl.insert 5 (txo false 1) [] }
     let s := inSess e [c]
     On s (msgType c.msg = 0x42 ∧ s.kaSess ax0 (beAt (msgBody c.msg) 1 1) = some e ∧ (e.tx.find (beAt (msgBody c.msg) 0 1)).isSome = true ∧
       beAt (msgBody c.msg) 2 1 = 0)),
    (let c := kxMsg 0x44 [7, 1]
     let s := inSess sess0 [c]
     On s (msgType c.msg = 0x44 ∧ s.kaSess ax0 (beAt (msgBody c.msg) 0 1) = some sess0)),
    On (standby R) ((standby R).isActive = false),
    On R ((R.kt ax0).sess = none),
    (let e := { sess0 with rx := Tbl.insert 4 (rxo 100) [] }
     let s := inSess e []
     On s (s.isActive = true ∧ (s.kt ax0).sess = some e ∧ e.rx.find 4 = some (rxo 100) ∧ (rxo 100).complete = false ∧ s.tm.tickNo < 0 + e.objWait ∧
       0 + e.objWait ≤ (later 5 s).tm.tickNo)),
    (let e := { sess0 with tx := (Tbl.insert 1 (txo false 4) []).insert 2 (txo false 3) }
     let s := later 10 (inSess e [])
     On s ((s.kt ax0).sess = some e ∧ (e.rx.find 1).isNone = true ∧ e.tx.find 1 = some (txo false 4) ∧ (txo false 4).todo = [] ∧
       0 + 2 * e.objWait ≤ s.tm.tickNo ∧ 4 ≤ (txo false 4).sendings ∧ e.tx.find 2 = some (txo false 3) ∧ (txo false 3).sendings < 4))] = true := by decide +kernel

def tms0 : Tms := ⟨[], 0, 0, 2 ^ 39⟩
def kpos0 : KPos := ⟨[], [], [], true, 0, 0, false⟩
def assocAs (ax : Nat) (a : Assoc) (s : State) : State := s.setAssoc ax a
def active0 (use : Nat) : Assoc := { assocReset with st := .active, usage := use, p0 := some kpos0 }

theorem test_meets_KeyProofAndSwitches : All [
    On (kaOn R) (31 < 32 ∧ 511 < 512 ∧ (kaOn R).isActive = true ∧ (kaOn R).tm.free = false ∧ ((kaOn R).kt ax0).sess = none ∧
      ((kaOn R).kt ax0).tms = none),
    On (inSess sess0 []) (((inSess sess0 []).kt ax0).sess = some sess0 ∧ sess0.verified = false ∧ sess0.rxDone 4 = false),
    (let e := { sess0 with rx := ((Tbl.insert 4 (rxo 0) []).insert 5 (rxo 0)).insert 6 (rxo 0) }
     On (inSess e []) (((inSess e []).kt ax0).sess = some e ∧ e.verified = false ∧ e.rxDone 4 = true ∧ e.rxDone 5 = true ∧ e.rxDone 6 = true)),
    (let f (x : KaTerm) := ktAs { x with tms := some tms0 } (asTerm (keyed termReset) (kaOn R))
     let s := f { kaReset with kgen := 0xFFFFFFFF }
     let t := f kaReset
     let u := f { kaReset with dueAt := some 5 }
     On s ((s.kt ax0).tms.isSome = true ∧ (s.term ax0).keyed = true ∧ (s.term ax0).st.bound = true ∧
       (s.kt ax0).lastSw + s.kaPar Reg.PKA_REKEY_TICKS_TICKS ≤ s.tm.m ∧ (s.kt ax0).kgen = 0xFFFFFFFF ∧ (s.kt ax0).nextTms = none) ∧
     On t ((t.kt ax0).kgen < 0xFFFFFFFF ∧ (t.kt ax0).dueAt = none) ∧
     On u ((u.kt ax0).kgen < 0xFFFFFFFF ∧ (u.kt ax0).dueAt = some 5 ∧ u.ka.started < u.kaPar Reg.PKA_SWITCH_CFG_REKEY_RATE ∧ u.nextSwitch = some ax0)),
    On (kaOn R) ((kaOn R).nextSwitch = none),
    (let f (born : Nat) := ktAs { kaReset with tms := some { tms0 with born := born } } (asTerm (keyed termReset) (kaOn R))
     let s := f (2 ^ 40)
     let t := f 0
     On s (s.tm.m - 2 ^ 40 < s.kaPar Reg.PKA_REAGREE_TICKS_TICKS) ∧
     On t (t.kaPar Reg.PKA_REAGREE_TICKS_TICKS ≤ t.tm.m - 0 ∧ 2 * t.kaPar Reg.PKA_REAGREE_TICKS_TICKS ≤ t.tm.m - 0 ∧ (t.term ax0).st.bound = true ∧
       (t.kt ax0).reDue = false ∧ (t.kt ax0).retryAt = none ∧ (t.kt ax0).nextTms = none ∧ (t.kt ax0).sess = none)),
    (let f (x : KaTerm) := ktAs { x with tms := some { tms0 with born := 0 }, nextTms := some tms0 } (asTerm (keyed termReset) (kaOn R))
     let s := f kaReset
     let t := f { kaReset with sess := some sess0 }
     On s ((s.kt ax0).nextTms.isSome = true ∧ (s.kt ax0).sess = none) ∧
     On t (2 * t.kaPar Reg.PKA_REAGREE_TICKS_TICKS ≤ t.tm.m - 0 ∧ (t.term ax0).st.bound = true ∧ (t.kt ax0).sess.isSome = true)),
    (let s := ktAs { kaReset with retryAt := some 3 } (kaOn R)
     On s ((s.kt ax0).retryAt = some 3)),
    (16383 < 16384 ∧ 20512 ≤ 20512),
    On (kaOn R) (16384 ≤ 20511 ∧ 20511 < 20512 ∧ ((kaOn R).assoc 20511).st = .invalid),
    (let s := assocAs 20511 (active0 0) (kaOn R)
     let k := s.kg 20511
     On s ((k.dueAt.isSome || decide (k.lastSw + s.kaPar Reg.PKA_REKEY_TICKS_TICKS ≤ s.tm.m)) = true ∧ (s.assoc 20511).st ≠ .invalid ∧ k.sw = none ∧
       (s.assoc 20511).sw = none ∧ s.ka.drbgOk = true ∧ (s.groupMembers 20511).any s.kaBusy = false))] = true := by decide +kernel

/-- Window 15 of the host, writable and readable; PKA_TABLE_LEN; KA_ARG naming terminal 511 of tree 31 or a group. -/
def winOn (s : State) : State := { s with hif := { s.hif with linkUp := true, wins := Tbl.insert 15 ⟨0, 1000, true, true, true⟩ [] } }
def tblLen (n : Nat) (s : State) : State := s.setFld Reg.PKA_TABLE_LEN_BYTES 0 n
def karg (b : Bool) (s : State) : State :=
  ((s.setFld Reg.PKA_KA_ARG_TREE 0 31).setFld Reg.PKA_KA_ARG_TERMINAL 0 511).setFlag Reg.PKA_KA_ARG_BCAST 0 b

theorem test_meets_KeyAgentCommandsTablesAndTime : All [
    On (standby R) ((standby R).isActive = false),
    (let s := karg true half
     On s (s.isActive = true ∧ s.fld Reg.PKA_KA_ARG_TREE 0 = 31 ∧ s.hasTree (s.fld Reg.PKA_KA_ARG_TREE 0) = false ∧ s.flag Reg.PKA_KA_ARG_BCAST 0 = true)),
    (let s := karg false R
     On s (s.hasTree 31 = true ∧ (s.term (termAx 31 (s.fld Reg.PKA_KA_ARG_TERMINAL 0))).keyed = false ∧ s.flag Reg.PKA_KA_ARG_BCAST 0 = false ∧
       (s.assoc (16416 + s.fld Reg.PKA_KA_ARG_GROUP 0)).st = .invalid)),
    (let s := assocAs (16384 + 31) (active0 0) (asTerm (keyed termReset) (karg true R))
     On s (s.hasTree 31 = true ∧ (s.term (termAx 31 (s.fld Reg.PKA_KA_ARG_TERMINAL 0))).keyed = true ∧ (s.assoc (16384 + 31)).st ≠ .invalid)),
    ([0, 98, 17 * 97].all fun n => On (tblLen n R) (15 < 16 ∧
      let k := (tblLen n R).fld Reg.PKA_TABLE_LEN_BYTES 0
      k = n ∧ (k % 97 ≠ 0 ∨ k = 0 ∨ 16 < k / 97))),
    ([47, 4097 * 48].all fun n => On (tblLen n R) (let k := (tblLen n R).fld Reg.PKA_TABLE_LEN_BYTES 0
      k = n ∧ (k % 48 ≠ 0 ∨ 4096 < k / 48))),
    ([0, 3073].all fun n => On (tblLen n R) (let k := (tblLen n R).fld Reg.PKA_TABLE_LEN_BYTES 0
      k = n ∧ (k = 0 ∨ 3072 < k))),
    ([97, 16 * 97, 0, 4096 * 48, 1, 3072].all fun n => On (winOn (tblLen n R)) ((winOn (tblLen n R)).winOk 15 0 n false = true ∧
      (tblLen n R).winOk 15 0 n false = false ∧ (winOn (tblLen n R)).reg64 Reg.PKA_TABLE_ADDR_LO 0 = 0)),
    (let s := at' 8000 R
     On s (s.nextM % s.kaPar Reg.PKA_TIME_CFG_TOD_PERIOD ≠ 0)),
    (let s := at' 7999 (sxtOn R)
     On s (s.kaPar Reg.PKA_TIME_CFG_TOD_PERIOD ≠ 0 ∧ s.nextM % s.kaPar Reg.PKA_TIME_CFG_TOD_PERIOD = 0 ∧ s.tm.free = false ∧ s.isActive = true ∧
       s.active Ty.SXT 31 = true ∧ s.ka.todDone.get 0 31 ≠ s.nextM + 1)),
    (let s := asSxt { sxtReset with good := [kxMsg 0x51 []] } (at' 8000 R)
     On s ((s.sx 31).good = [kxMsg 0x51 []] ∧ msgType (kxMsg 0x51 []).msg = 0x51 ∧ s.tm.free = false)),
    On (kaOn R) ((kaOn R).ka.chain ≠ [] ∧ (kaOn R).ka.drbgOk = true),
    On R (R.tm.tickNo < R.ka.noChainAt + 8000 ∧ R.ka.chain = []),
    (let s := later 8000 R
     let t := s.setReg (Reg.ERR_INV_CHECK Ty.PKA) 0 4
     On s (s.ka.chain = [] ∧ s.ka.noChainAt + 8000 ≤ s.tm.tickNo ∧ s.ka.drbgOk = false ∧ s.ka.reseedAt ≤ s.tm.tickNo ∧ s.inv Ty.PKA 0 2 = false) ∧
     On t (t.ka.drbgOk = false ∧ t.ka.reseedAt ≤ t.tm.tickNo ∧ t.inv Ty.PKA 0 2 = true))] = true := by decide +kernel

/-- The association store open; ALM_ARG[0]. -/
def storeOn (s : State) : State := (s.setFlag Reg.SEAL_STS_READY 0 true).setFlag Reg.SEAL_STS_ROOT_OK 0 true
def arg (i v : Nat) (s : State) : State := s.setRegI Reg.ALM_ARG 0 i v
def drbgOn (s : State) : State := { s with ka := { s.ka with drbgOk := true } }

theorem test_meets_SlotCommandsOfOneAssociation : All [
    On half (2 ^ 18 - 1 < 2 ^ 18 ∧ 1 < 2 ∧ half.axAbsent ax0 = true),
    (20511 < 20512 ∧ 28704 ≤ 28711 ∧ 28711 < 28712 ∧ 16415 < 16416),
    On R (R.axAbsent (2 ^ 18 - 1) = false ∧ R.isActive = true),
    On (standby R) ((standby R).axAbsent 20511 = false ∧ (standby R).isActive = false),
    (let s := arg 0 (2 ^ 5) R
     On s (bitsOf (s.regI Reg.ALM_ARG 0 0) 5 2 ≠ (s.assoc 28711).usage ∧ 28711 < 28712)),
    On R (bitsOf (R.regI Reg.ALM_ARG 0 0) 5 2 = (R.assoc 28712).usage ∧ bitOf (R.regI Reg.ALM_ARG 0 0) 3 = false ∧ ((R.assoc 28712).pos 1).isNone = true),
    (let s := assocAs 28712 (active0 0) R
     let t := assocAs 28712 { active0 0 with cur := 1 } R
     On s (((s.assoc 28712).pos 0).isSome = true ∧ (s.assoc 28712).st ≠ .invalid ∧ (s.assoc 28712).cur = 0) ∧
     On t (((t.assoc 28712).pos 0).isSome = true ∧ (t.assoc 28712).cur ≠ 0)),
    On R (R.axAbsent 28703 = false ∧ 20512 ≤ 28703 ∧ 28703 < 28704 ∧ R.ka.drbgOk = false),
    On (drbgOn R) ((drbgOn R).ka.drbgOk = true),
    (let s := assocAs 20511 (active0 0) R
     let t := arg 0 (2 ^ 5) s
     On t (bitsOf (t.regI Reg.ALM_ARG 0 0) 5 2 ≠ (t.assoc 20511).usage ∧ (t.assoc 20511).st ≠ .invalid) ∧
     On s (((s.assoc 20511).pos 1) = none ∧ 16415 < 20512 ∧ 28703 < 28704 ∧ 20512 ≤ 20512)),
    (let s := arg 0 (31 * 2 ^ 9) half
     On s (s.axAbsent 16416 = false ∧ s.isActive = true ∧ 16416 ≤ 16416 ∧ 16416 < 20512 ∧ s.hasTree (bitsOf (s.regI Reg.ALM_ARG 0 0) 9 5) = false)),
    On R (R.hasTree (bitsOf (R.regI Reg.ALM_ARG 0 0) 9 5) = true ∧ R.ka.drbgOk = false),
    On (drbgOn R) ((drbgOn R).hasTree (bitsOf ((drbgOn R).regI Reg.ALM_ARG 0 0) 9 5) = true ∧ (drbgOn R).ka.drbgOk = true ∧
      bitOf ((drbgOn R).regI Reg.ALM_ARG 0 0) 31 = (drbgOn R).alm.members.contains (0, 0)),
    (let s := drbgOn (arg 0 (2 ^ 31) R)
     On s (bitOf (s.regI Reg.ALM_ARG 0 0) 31 = true ∧ s.alm.members.contains (0, 0) = false ∧ s.alm.members.length < 65536 ∧ s.ka.drbgOk = true ∧
       s.storeOk = false ∧ s.hasTree (bitsOf (s.regI Reg.ALM_ARG 0 0) 9 5) = true)),
    (let s := storeOn (drbgOn (assocAs 16416 (active0 0) (arg 0 (2 ^ 31) R)))
     On s (bitOf (s.regI Reg.ALM_ARG 0 0) 31 = true ∧ s.alm.members.contains (0, 0) = false ∧ s.alm.members.length < 65536 ∧ s.ka.drbgOk = true ∧
       s.storeOk = true ∧ (s.assoc 16416).st ≠ .invalid ∧ (s.assoc 16416).pinned 16416 = false ∧ (s.term 0).st ≠ .operational ∧
       s.hasTree (bitsOf (s.regI Reg.ALM_ARG 0 0) 9 5) = true)),
    (let s : State := drbgOn { R with alm := { R.alm with members := [(0, 0)] } }
     On s (bitOf (s.regI Reg.ALM_ARG 0 0) 31 = false ∧ s.alm.members.contains (0, 0) = true ∧ (s.term 0).keyed = false ∧ s.ka.drbgOk = true ∧
       s.hasTree (bitsOf (s.regI Reg.ALM_ARG 0 0) 9 5) = true))] = true := by decide +kernel

theorem test_meets_SlotCommandsOfOneAssociation_full : ∃ l : List (Nat × Nat), 65536 ≤ l.length ∧ l.contains (0, 0) = false :=
  ⟨List.replicate 65536 (1, 1), Nat.le_of_eq List.length_replicate.symm, by rw [List.contains_replicate]; decide⟩

/-- An identity: the Lodestone root in its register, in the field. -/
def rooted (s : State) : State := { s with lcs := { s.lcs with root := some [1], life := .field } }

theorem test_meets_SlotCommandsWithData : All [
    On R (R.isActive = true ∧ R.winOk 0 0 80 false = false ∧ (R.rootScalar "BV3232 import").isNone = true),
    (let s := arg 0 15 (winOn R)
     On s (s.almArgs.getD 0 0 % 16 = 15 ∧ s.winOk 15 0 1665 false = true ∧ s.winOk 15 0 80 false = true ∧ s.storeOk = false)),
    (let s := storeOn (arg 0 15 (winOn R))
     On s (s.storeOk = true ∧ s.alm.isk.get none 0 = none ∧ (s.importBlob 0 []).2.st = 3)),
    (let s := drbgOn (rooted (arg 0 15 (winOn R)))
     let t := s.setReg (Reg.ERR_INV_CHECK Ty.PKA) 0 2
     On s ((s.rootScalar "BV3232 import").isSome = true ∧ s.ka.drbgOk = true ∧ s.winOk 15 0 1665 false = true ∧ (s.idSign []).2.inv Ty.PKA 0 1 = false) ∧
     On t ((t.rootScalar "BV3232 import").isSome = true ∧ (t.idSign []).2.inv Ty.PKA 0 1 = true)),
    (28711 < 28712 ∧ R.useKey 28712 1 = none ∧ R.useKey 28712 3 = none),
    (let s := storeOn (arg 5 28714 (arg 4 28713 (assocAs 28712 (active0 1) R)))
     let put (r : State) (t use : Nat) : State × Nat := (r.setAssoc t { r.assoc t with usage := use }).install t 0 (freshKey [] [] [] true 0) r.usageCfg
     On s (s.useKey 28712 1 = some kpos0 ∧ s.almArgs.getD 4 0 % 2 ^ 18 = 28713 ∧ s.almArgs.getD 5 0 % 2 ^ 18 = 28714 ∧
       (s.assoc 28713).st = .invalid ∧ (s.assoc 28714).st = .invalid ∧ (put s 28713 2).2 = 0 ∧ (put (put s 28713 2).1 28714 3).2 = 0)),
    (let s := arg 5 28713 (arg 4 28713 (assocAs 28712 (active0 1) R))
     On s (s.useKey 28712 1 = some kpos0 ∧ s.almArgs.getD 4 0 % 2 ^ 18 = s.almArgs.getD 5 0 % 2 ^ 18)),
    (let s := assocAs 28712 (active0 2) R
     On s ((s.useKey 28712 2).isSome = true ∧ s.almArgs.getD 3 0 = 0) ∧ On s (s.almArgs.getD 4 0 % 2 ^ 18 < 28712)),
    (let s := arg 3 2048 (arg 0 15 (assocAs 28712 (active0 2) (winOn R)))
     let t := assocAs 28712 { active0 2 with p0 := some { kpos0 with use := 2 } } s
     let u := assocAs 28712 { active0 2 with limit := 1, p0 := some { kpos0 with use := 2 } } s
     On s (s.useKey 28712 2 = some kpos0 ∧ 1 ≤ s.almArgs.getD 3 0 ∧ s.almArgs.getD 3 0 ≤ 2048 ∧ s.winOk 15 0 2048 false = true ∧ (s.keyInvoke 28712).2 = true ∧
       (s.assoc 28712).pos (s.assoc 28712).cur = some kpos0) ∧ On t ((t.keyInvoke 28712).2 = true) ∧
     On u ((u.useKey 28712 2).isSome = true ∧ (u.keyInvoke 28712).2 = false)),
    (let s := arg 1 15 (winOn R)
     On s (s.almArgs.getD 1 0 % 16 = 15 ∧ s.winOk 15 0 40 false = true ∧ s.almArgs.getD 4 0 % 2 ^ 18 < 20512)),
    (let s := arg 4 28703 (arg 1 15 (arg 0 28712 (winOn R)))
     On s (20512 ≤ s.almArgs.getD 4 0 % 2 ^ 18 ∧ s.almArgs.getD 4 0 % 2 ^ 18 < 28704 ∧ 28712 ≤ s.almArgs.getD 0 0 % 2 ^ 18 ∧
       s.axAbsent 28703 = false ∧ s.useKey 28712 3 = none ∧ s.winOk (s.almArgs.getD 1 0 % 16) 0 40 false = true)),
    (let s := assocAs 28703 (active0 0) (assocAs 28712 (active0 3) (arg 4 28703 (arg 1 15 (arg 0 28712 (winOn R)))))
     let u := assocAs 28712 { active0 3 with limit := 0, p0 := some { kpos0 with use := 1 } } s
     On s (s.useKey 28712 3 = some kpos0 ∧ (s.assoc 28703).pos 0 = some kpos0 ∧ s.winOk (s.almArgs.getD 1 0 % 16) 0 40 false = true ∧
       (s.keyInvoke 28712).2 = true ∧ s.axAbsent 28703 = false) ∧
     On u ((u.useKey 28712 3).isSome = true ∧ (u.assoc 28703).pos 0 = some kpos0 ∧ (u.keyInvoke 28712).2 = false))] = true := by decide +kernel

def softItem : CItem := { item0 with ax := 28712, aad := [1], data := [2] }
def heldItem : Held := ⟨28712, heldBytes 2, 0, .item softItem⟩
def poolAs (x : CiphS) (s : State) : State := s.setPool 7 x

theorem test_meets_HotSlotsPoolsAndKnownAnswerTests : All [
    (let s := R.setFlag Reg.ALM_CTL_PREFETCH_EN 0 false
     On s (3 < 4 ∧ s.flag Reg.ALM_CTL_PREFETCH_EN 0 = false) ∧ On R (R.active Ty.ALM 0 = true ∧ R.flag Reg.ALM_CTL_PREFETCH_EN 0 = true)),
    On R (R.tm.tickNo < R.alm.remaskFrom + 1024),
    (let s : State := later 1024 { R with alm := { R.alm with remask := Tbl.insert 0 5 [] } }
     On s (s.alm.remaskLate = false ∧ s.alm.remaskFrom + 1024 ≤ s.tm.tickNo ∧ s.alm.remask.get 0 0 ≠ 0)),
    (let s := assocAs 28712 { active0 0 with sw := some ⟨5, 1, true⟩ } R
     On R ((R.assoc 28712).sw = none) ∧ On s ((s.assoc 28712).sw = some ⟨5, 1, true⟩)),
    On R (7 < 8 ∧ R.active Ty.CIPH 7 = true ∧ isTickIv softItem.ax = false ∧ R.verdict 28712 0 none = .noKey ∧ item0.seq ≤ 65535),
    On R (R.verdict 0 0 none = .refused),
    (let s := assocAs 28712 { active0 0 with st := .stopped } R
     On s (s.verdict 28712 0 none = .stopped)),
    (let s := assocAs 28712 (active0 0) R
     On s (s.verdict 28712 0 (itemPhase softItem) = .ok 0 ∧ s.missing 7 28712 = true ∧ (s.pool 7).missUsed + heldBytes 2 ≤ 262144)),
    (let s := poolAs { ciphReset with miss := [heldItem] } (assocAs 28712 (active0 0) R)
     let t := poolAs { ciphReset with miss := [{ heldItem with bytes := 262144 }] } (assocAs 28712 (active0 0) R)
     On s (s.missing 7 28712 = true ∧ ∃ h ∈ (s.pool 7).miss, h.ax = softItem.ax) ∧ On t (262144 < (t.pool 7).missUsed + heldBytes 2)),
    (let s := (assocAs 28712 (active0 0) R).setHot 3 [⟨4095, 28712, 0, 0, [], [], []⟩]
     On s (s.verdict 28712 0 (itemPhase softItem) = .ok 0 ∧ s.missing 7 28712 = false ∧ s.enabledCores 7 ≠ [] ∧ (s.cipherInv 7 28712).isNone = true ∧
       ((s.assoc 28712).pos 0) = some kpos0)),
    On R (((R.pool 7).miss.filter fun h => h.ax == 28712) = []),
    (let s := poolAs { ciphReset with miss := [heldItem] } (assocAs 28712 (active0 0) R)
     let z := (poolAs { ciphReset with miss := [heldItem] } R).setReg (Reg.ERR_INV_CHECK Ty.ALM) 0 2
     On s (((s.pool 7).miss.filter fun h => h.ax == 28712) = [heldItem] ∧ (((s.missExpire 7).pool 7).miss.filter fun h => h.ax == 28712) = [heldItem] ∧
       ((s.missExpire 7).load 3 28712 0 true).2 = true) ∧
     On z (((z.pool 7).miss.filter fun h => h.ax == 28712) ≠ [] ∧ ((z.missExpire 7).load 3 28712 0 true).2 = false)),
    On R ((R.pool 7).kat = false),
    (let s := poolAs { ciphReset with kat := true } R
     On s ((s.pool 7).kat = true))] = true := by decide +kernel


/-- Trunk port 31 enabled and up; a frame with its FCS. -/
def portOn (s : State) : State := (s.setFlag Reg.TRK_PORT_CTL_EN 31 true).setFlag Reg.TRK_PORT_STS_LINK 31 true
def good (d : Bytes) : Bytes := d ++ fcsOf d
def saData (w0 : Nat) (s : State) : State := s.setRegI Reg.MSEC_SA_DATA 31 0 w0
def saIn (i : Nat) : SaE := { saReset with idx := i, inUse := true }

theorem test_meets_TrunkPortsAndSecureAssociations : All [
    (let s := R.setFld Reg.TRK_MODE_MODE 0 1
     On s (31 < 32 ∧ s.hasPort 31 = false ∧ s.hasPort 7 = true)),
    (let s := R.setFlag Reg.TRK_PORT_CTL_LOOPBACK 31 true
     On s (s.flag Reg.TRK_PORT_CTL_LOOPBACK (s.prim 31) = true)),
    On R (R.hasPort 31 = true ∧ R.flag Reg.TRK_PORT_CTL_LOOPBACK (R.prim 31) = false ∧ R.portUp 31 = false ∧ R.portLanes = 1),
    (let s := portOn R
     let r := ((s.countN64 Reg.TRK_FEC_CORR_CW_LO 31 0).countN Reg.TRK_FEC_UNCORR_CW 31 0)
     let q := r.advanceTo 0
     let f := good frame
     On s (s.hasPort 31 = true ∧ r.portUp 31 = true ∧ q.inv Ty.TRK 31 0 = false ∧ q.inv Ty.TRK 31 1 = false ∧ (f.drop 1).length < 64 ∧
       64 ≤ f.length ∧ f.length ≤ q.fld Reg.TRK_PORT_CTL_MAX_FRAME 31 ∧ f.drop (f.length - 4) = fcsOf (f.take (f.length - 4)) ∧
       frame.drop 56 ≠ fcsOf (frame.take 56) ∧ beAt (f.take (f.length - 4)) 12 2 ≠ 0x8808)),
    (let s := ((R.setFld Reg.TRK_MODE_MODE 0 2).setFlag Reg.TRK_PORT_CTL_EN 24 true).setFlag Reg.TRK_PORT_STS_LINK 24 true
     let q := ((s.countN64 Reg.TRK_FEC_CORR_CW_LO 24 0).countN Reg.TRK_FEC_UNCORR_CW 24 0).advanceTo 0
     On s (s.hasPort 3 = true ∧ s.prim 3 = 24 ∧ s.portUp 3 = true ∧ q.trkMode = 2 ∧ q.inv Ty.TRK 24 0 = false ∧ q.inv Ty.TRK 24 1 = false ∧
       R.trkMode ≠ 2)),
    (let s := R.setFld Reg.TRK_MODE_MODE 0 1
     On s (s.present Ty.MSEC 31 = true ∧ s.prim (s.portOf 31) ≠ 31 ∧ s.regI Reg.MSEC_SA_DATA 31 0 % 2 ^ 13 / 256 ≠ 31 ∧
       (s.sy (s.prim (s.portOf 31))).saAt 0 3 = none ∧ (s.sy (s.prim (s.portOf 31))).saAt 2 255 = none)),
    (let s := half.setRegI Reg.MSEC_SA_DATA 0 0 (31 * 256)
     On s (s.present Ty.MSEC 0 = true ∧ s.prim (s.portOf 0) = 0 ∧ s.inv Ty.MSEC 0 0 = false ∧ s.inv Ty.MSEC 0 1 = false ∧
       ¬ s.present Ty.MSEC (s.regI Reg.MSEC_SA_DATA 0 0 % 2 ^ 13 / 256) = true)),
    On R (R.inv Ty.MSEC 31 0 = false ∧ R.inv Ty.MSEC 31 1 = false),
    (let f := good (frame.take 12 ++ [0x88, 8] ++ List.replicate 46 0)
     64 ≤ f.length ∧ f.drop (f.length - 4) = fcsOf (f.take (f.length - 4)) ∧ beAt (f.take (f.length - 4)) 12 2 = 0x8808),
    (R.flag Reg.MSEC_CTL_EN 31 = false ∧ beAt pkt.data 12 2 ≠ 0x888E),
    On R (R.present Ty.TRK 0 = true),
    On R (63 < 64 ∧ 3 < 4 ∧ R.present Ty.MSEC 31 = true ∧ R.prim (R.portOf 31) = 31 ∧ R.isPrim 31 = true ∧ ((R.sy 31).saAt 0 3).isNone = true ∧
      ((R.sy 31).saAt 2 (63 * 4 + 3)).isNone = true),
    On R (R.portOf (R.regI Reg.MSEC_SA_DATA 31 0 % 2 ^ 13 / 256) ≠ R.portOf 31),
    (let s := saData (31 * 256 + 255) R
     let i := s.regI Reg.MSEC_SA_DATA 31 0 % 2 ^ 13
     On s (¬ (s.portOf (i / 256) ≠ s.portOf 31 ∨ s.present Ty.MSEC (i / 256) = false ∨ s.named 31 0 0 i = true) ∧ s.encoding 31 0 0 = false)),
    (let s := saData (31 * 256 + 255) (R.setSy 31 { msecReset with txSa := Tbl.insert 0 (saIn 7936) [] })
     On s (s.named 31 0 0 8191 = false ∧ s.encoding 31 0 0 = true ∧ (s.sy 31).saAt 0 0 = some (saIn 7936))),
    (bitOf 0 31 = false ∧ bitOf (2 ^ 31) 31 = true ∧ bitOf (2 ^ 31) 2 = false ∧ bitOf (2 ^ 31 + 4) 2 = true),
    (2 ^ 32 - 1 < 2 ^ 32 ∧ 2 ^ 96 - 1 < 2 ^ 96)] = true := by decide +kernel

theorem test_meets_TrunkPortsAndSecureAssociations_long : ∃ f : Bytes, 64 ≤ f.length ∧ R.fld Reg.TRK_PORT_CTL_MAX_FRAME 31 < f.length :=
  ⟨List.replicate 65536 0, by rw [List.length_replicate]; decide, by rw [List.length_replicate]; decide +kernel⟩

/-- The mate link up, with the mirror in state `m`; a handshake under way; a mate frame's header with its check. -/
def linked (m : Nat) (s : State) : State := { s.setFld Reg.PAIR_STS_MIRROR 0 m with pair := { s.pair with up := true, pk := some [1] } }
def hs0 : PairHs := ⟨[], [], [], none, none, [], none⟩
def shaking (h : PairHs) : State := { R with pair := { R.pair with hs := some h } }
def mateHdr (kind : Nat) : Bytes := let h := toBE 6 8000 ++ toBE 2 0 ++ toBE 1 1 ++ toBE 1 kind ++ toBE 2 32; h ++ toBE 4 (crc32c h)
def bothActive (last peer : Nat) : State :=
  let s := (((R.setFlag Reg.PAIR_STS_PEER_ACTIVE 0 true).setFlag Reg.PAIR_CTL_PAIR_EN 0 true).setFlag Reg.PAIR_CTL_YIELD_EN 0 true).setReg64
    Reg.PAIR_LAST_ROLE_LO 0 last
  later 1 { s with pair := { s.pair with up := true, pk := some [1], both := some 0, peerSince := peer } }

theorem test_meets_PairLinkRolesAndHandshake : All [
    On R (R.mirrorSt < 3 ∧ R.mateUp = false),
    On (standby (linked 3 R)) (3 ≤ (standby (linked 3 R)).mirrorSt ∧ (standby (linked 3 R)).mateUp = true ∧
      (standby (linked 3 R)).isActive = false),
    On (linked 5 R) (3 ≤ (linked 5 R).mirrorSt ∧ (linked 5 R).mateUp = true ∧ (linked 5 R).isActive = true ∧ (linked 5 R).tm.tickNo < 0 +
      (linked 5 R).reg Reg.PAIR_LINK_REKEY 0),
    (let s := later (2 ^ 32) (counted (linked 4 R))
     On s (s.pm = 0 ∧ s.mateUp = true ∧ s.tm.free = false ∧ s.pair.rekeyAt + s.reg Reg.PAIR_LINK_REKEY 0 ≤ s.tm.tickNo ∧ s.pair.pk = some [1])),
    On R (R.pair.hs = none),
    On (shaking hs0) ((shaking hs0).pair.hs = some hs0 ∧ hs0.peer = none ∧ beAt [0] 0 1 = (shaking hs0).pm ∧ (shaking hs0).pm = 0),
    (let h := { hs0 with peer := some [1], pk := some [2] }
     On (shaking h) ((shaking h).pair.hs = some h ∧ h.peer = some [1] ∧ h.pk = some [2])),
    (beAt (mateHdr 2) 9 1 ≠ 1 ∧ beAt ([] : Bytes) 12 4 ≠ crc32c (sliceB [] 0 12)),
    (let s := assocAs 28704 (active0 0) (at' 8000 (linked 4 R))
     let f := mateHdr 1
     On s (s.mateUp = true ∧ beAt f 12 4 = crc32c (sliceB f 0 12) ∧ beAt f 9 1 = 1 ∧
       s.verdict 28704 (beAt f 0 6) (some (beAt f 8 1 / 8 % 2)) = .ok 0 ∧ (s.assoc 28704).pos 0 = some kpos0)),
    On R ((R.advanceTo 0).pair.pin = R.pair.pin ∧ (R.advanceTo 0).pair.pin ≠ !R.pair.pin ∧ R.pair.both = none),
    ([(0, 5), (5, 0), (5, 5)].all fun q =>
      let s := bothActive q.1 q.2
      On s (s.pair.both = some 0 ∧ 0 + 1 ≤ s.tm.tickNo ∧ s.mateUp = true ∧ s.isActive = true ∧ s.flag Reg.PAIR_STS_PEER_ACTIVE 0 = true ∧
        s.on Reg.PAIR_CTL_PAIR_EN 0 = true ∧ s.on Reg.PAIR_CTL_YIELD_EN 0 = true ∧ s.pair.yielded = false ∧
        s.reg64 Reg.PAIR_LAST_ROLE_LO 0 = q.1 ∧ s.pair.peerSince = q.2))] = true := by decide +kernel

def life (l : Life) (s : State) : State := { s with lcs := { s.lcs with life := l } }
def logged (n : Nat) (e : Bytes) : State := { R with lcs := { R.lcs with logQ := [e], otp := { R.lcs.otp with log := List.replicate n [] } } }
def entry (code : Nat) : Bytes := List.replicate 6 0 ++ [BitVec.ofNat 8 code] ++ List.replicate 9 0

theorem test_meets_LifeCycleAndOneTimeMemory : All [
    (let s := R.setFlag Reg.LCS_CMD_BUSY 0 true
     On s (s.flag Reg.LCS_CMD_BUSY 0 = true)),
    On R (R.flag Reg.LCS_CMD_BUSY 0 = false ∧ 7 < 8 ∧ (R.setFld Reg.LCS_CMD_TARGET 0 7).lcRefuse 7 ≠ 0 ∧ R.inv Ty.LCS 0 0 = false),
    (let s := life .field R
     On s ((s.setFld Reg.LCS_CMD_TARGET 0 4).lcRefuse 4 = 0 ∧ 4 ≠ 1)),
    (let s := life .blank R
     let r := s.setFld Reg.LCS_CMD_TARGET 0 1
     On s (r.lcRefuse 1 = 0 ∧ (r.enrol (readingsOf [])).2 = false)),
    On R (15 < 16 ∧ R.idKey.isNone = true),
    On (rooted R) ((rooted R).idKey.isSome = true ∧ ((rooted R).idSign []).2.inv Ty.PKA 0 1 = false),
    (let s := (rooted R).setReg (Reg.ERR_INV_CHECK Ty.PKA) 0 2
     On s (s.idKey.isSome = true ∧ (s.idSign []).2.inv Ty.PKA 0 1 = true)),
    On (life .field R) (1 < (life .field R).lcs.life.code ∧ 2 ≤ (life .field R).lcs.life.code ∧ (life .field R).lcs.life.code ≤ 3 ∧
      ((life .field R).lcs.otp.imageKey.get none 3) = none),
    On (life .scrap R) (3 < (life .scrap R).lcs.life.code),
    (let s := winOn (life .factory R)
     On s (s.lcs.life.code ≤ 1 ∧ s.lcs.life.code < 2 ∧ s.lcs.otp.rootHash = none ∧ s.lcs.otp.subsys = none ∧ s.winOk 15 0 48 false = true ∧
       s.winOk 15 0 4 false = true ∧ s.winOk 14 0 48 false = false)),
    (let s : State := { life .factory R with lcs := { (life .factory R).lcs with otp :=
        { R.lcs.otp with rootHash := some [1], subsys := some 5, imageKey := Tbl.insert 3 (some [1]) [] } } }
     On s (s.lcs.otp.rootHash.isSome = true ∧ s.lcs.otp.subsys.isSome = true ∧ (s.lcs.otp.imageKey.get none 3).isSome = true)),
    (R.off = false ∧ R.lcs.logQ = []),
    ([(2030, 0x55), (2032, 0x55), (2047, 0x55), (2048, 0x10)].all fun q =>
      let s := logged q.1 (entry q.2)
      decide (s.off = false ∧ s.lcs.logQ = [entry q.2] ∧ bitOf (beAt (entry q.2) 7 1) 7 = false ∧ s.lcs.otp.log.length = q.1 ∧
        logReserve (beAt (entry q.2) 6 1) = decide (q.2 = 0x10))),
    (let e := List.replicate 7 0 ++ [0x80] ++ List.replicate 8 0
     let s : State := { R with lcs := { R.lcs with logQ := [e, entry 0x11] } }
     decide (s.off = false ∧ s.lcs.logQ = [e, entry 0x11] ∧ bitOf (beAt e 7 1) 7 = true ∧ s.lcs.vbat.slots.length < 8)),
    ((life .factory R).lcs.life.code = 1 ∧ (life .field R).lcs.life.code = 2 ∧ (life .blank R).lcs.life.code = 0 ∧ (life .ret R).lcs.life.code ≤ 3)] = true := by decide +kernel

theorem enrol_true (s : State) (w : List Word) (h : 240 ≤ w.length) : (s.enrol [w]).2 = true := by
  have e : (w.zipIdx.map fun q => [w].all fun r => r.getD q.2 0 == q.1).countP id = w.length := by
    have : ∀ q ∈ w.zipIdx, ([w].all fun r => r.getD q.2 0 == q.1) = true := by
      intro q hq
      have := List.mem_zipIdx hq
      simp_all
    rw [List.countP_map, List.countP_eq_length.mpr (by simpa using this)]
    simp
  have pick : ∀ (c : Prop) [Decidable c] (x y : State × Bool), ¬ c → y.2 = true → (if c then x else y).2 = true := by
    intro c _ x y h k
    rw [if_neg h, k]
  unfold State.enrol
  simp only [List.headD_cons]
  exact pick _ _ _ (by omega) rfl

theorem readings_one (d : List Byte) (h : d.length = 65536) : readingsOf d = [((wordsOf d).drop 0).take 16384] := by
  have hw : (wordsOf d).length = 16384 := by simp [wordsOf, h]
  unfold readingsOf
  simp only [hw]
  rfl

theorem test_meets_LifeCycleAndOneTimeMemory_enrols (s : State) : ∃ d : List Byte, (s.enrol (readingsOf d)).2 = true := by
  refine ⟨List.replicate 65536 0, ?_⟩
  rw [readings_one _ List.length_replicate]
  refine enrol_true s _ ?_
  have : (wordsOf (List.replicate 65536 0)).length = 16384 := by unfold wordsOf; rw [List.length_map, List.length_range, List.length_replicate]
  rw [List.length_take, List.length_drop, this]
  decide

/-- Monitor 1 on with a filter of `f` samples; a test of it under way. -/
def monOn (f : Nat) (s : State) : State := (s.setFlag Reg.TAMP_SRC_CFG_EN 0 true (4 * 1)).setFld Reg.TAMP_SRC_CFG_FILT 0 f (4 * 1)
def testing (s : State) : State := { s with lcs := { s.lcs with test := some 1 } }
def cond1 (s : State) : State := { s with lcs := { s.lcs with cond := 2 } }
def fuse9 (s : State) : State := { s with lcs := { s.lcs with otp := { s.lcs.otp with fuse := 512 } } }

theorem test_meets_TamperMonitorsAndTheClock : All [
    On (life .field R) (15 < 16 ∧ 1 < (life .field R).lcs.life.code),
    On (life .factory R) ((life .factory R).lcs.life.code ≤ 1 ∧ 9 < 10 ∧ bitOf (life .factory R).lcs.otp.fuse 9 = false),
    On (fuse9 (life .factory R)) (bitOf (fuse9 (life .factory R)).lcs.otp.fuse 9 = true),
    On (testing R) ((testing R).lcs.test = some 1 ∧ bitOf (testing R).lcs.cond 1 = false),
    On (cond1 (testing R)) (bitOf (cond1 (testing R)).lcs.cond 1 = true ∧ bitOf (cond1 (testing R)).lcs.raised 1 = false),
    (let s := R.setFlag Reg.TAMP_SRC_CFG_EN 0 false (4 * 1)
     On s (s.lcs.test = none ∧ s.monEn 1 = false)),
    On (monOn 5 R) ((monOn 5 R).lcs.test = none ∧ (monOn 5 R).monEn 1 = true),
    (let s : State := { R with lcs := { R.lcs with vbat := { R.lcs.vbat with frac := 32767 } } }
     1023 < 1024 ∧ 15 < 16 ∧ s.lcs.vbat.frac = 32767 ∧ R.lcs.vbat.frac < 32767 ∧ bitOf (fuse9 R).lcs.otp.fuse 9 = true),
    (let s := [5, 6, 7, 8].foldl (fun (s : State) i => s.setFld Reg.TAMP_SRC_CFG_LEVEL 0 1 (4 * i)) R
     ([5, 6, 7, 8].all fun i => s.fld Reg.TAMP_SRC_CFG_LEVEL 0 (4 * i) == 1) ∧ s.lcs.latched = 0),
    (offState.off = true),
    ((monOn 5 R).off = false ∧ (monOn 5 R).monLive 1 = true ∧ (monOn 5 R).monFilt 1 ≠ 0),
    ((monOn 0 R).monLive 1 = true ∧ (monOn 0 R).monFilt 1 = 0 ∧ (monOn 0 R).lcs.test ≠ some 1 ∧ bitOf (monOn 0 R).lcs.raised 1 = false),
    (let s : State := { monOn 0 R with lcs := { (monOn 0 R).lcs with raised := 2 } }
     s.off = false ∧ s.monLive 1 = true ∧ s.monFilt 1 = 0 ∧ bitOf s.lcs.raised 1 = true)] = true := by decide +kernel

def unlocked (sc t : Nat) (s : State) : State := { s with lcs := { s.lcs with unlock := some (sc, t) } }
def dapacc (s : State) : State := { s with lcs := { s.lcs with ir := 0x20 } }

theorem test_meets_DebugPortTokensAndAccesses : All [
    On R (R.lcs.life ≠ .field ∧ R.lcs.unlock = none),
    On (life .field R) ((life .field R).lcs.life = .field ∧ bitOf (life .field R).scope 3 = false),
    On (unlocked 15 0 R) ((unlocked 15 0 R).lcs.unlock = some (15, 0) ∧ bitOf (unlocked 15 0 R).scope 3 = true),
    (255 < 256 ∧ 254 ≠ 0 ∧ 254 ≠ 1 ∧ 254 ≠ 2 ∧ 254 ≠ 0x20 ∧ ¬ (6 ≤ 254 ∧ 254 ≤ 9)),
    (let s : State := { R with lcs := { R.lcs with blocked := true } }
     s.lcs.blocked = true ∧ R.lcs.blocked = false ∧ R.lcs.life ≠ .field ∧ (life .field R).lcs.life = .field ∧ ([] : List Word).length ≠ 99),
    On R ((R.advanceTo 0).lcs.ir ≠ 0x20),
    (let s := dapacc (life .field R)
     let q := (s.advanceTo 0).qInv 32 0
     On s ((s.advanceTo 0).lcs.ir = 0x20 ∧ q.dbgCheck 0 false (q.dbgAt 0) ≠ 0)),
    (let s := dapacc (life .factory R)
     let q := (s.advanceTo 0).qInv 32 0
     On s ((s.advanceTo 0).lcs.ir = 0x20 ∧ 0x0FFFFFFC < 0x10000000 ∧ q.dbgCheck 0x0FFFFFFC true (q.dbgAt 0x0FFFFFFC) = 0 ∧
       q.dbgCheck 0x0FFFFFFC false (q.dbgAt 0x0FFFFFFC) = 0)),
    (R.dbgLocked 0 = false ∧ R.qHits 32 0 0 4 = [] ∧ keyTy 0 ≠ Ty.DBG ∧ keyTy (regKey Ty.DBG 0 0) = Ty.DBG)] = true := by decide +kernel

/-- Ring r with a ring record; a descriptor; a quiesced interface. -/
def ringAs (r : Nat) (x : Ring) (s : State) : State := s.setRing r x
def ringOn (r : Nat) : Ring := { ringReset r with en := true }
def quiesced (s : State) : State := s.setFlag Reg.HIF_STS_QUIESCED 0 true
def awake (s : State) : State := s.setFlag Reg.HIF_STS_QUIESCED 0 false
def descOf (op n page : Nat) : Bytes := toLE 4 1 ++ toLE 1 op ++ toLE 1 n ++ toLE 2 0 ++ toLE 2 page ++ toLE 2 0x040 ++ toLE 2 0x040 ++ List.replicate 50 0
def injOf (h : Bool) (t : Option Nat) : InjDone := ⟨⟨h, 5, 0, [], false, false, false⟩, 0, t⟩

theorem test_meets_HostRingsAndInterrupts : All [
    On R (R.active Ty.HIF 0 = true ∧ R.inv Ty.HIF 0 0 = false ∧ bitOf 0 0 = false ∧ bitOf 1 0 = true),
    On (quiesced R) ((quiesced R).flag Reg.HIF_STS_QUIESCED 0 = true),
    On (awake R) ((awake R).flag Reg.HIF_STS_QUIESCED 0 = false ∧ ((awake R).ring (min 143 ((awake R).fld Reg.HIF_RING_SEL_RING 0))).en = false),
    (let s := awake (ringAs 143 (ringOn 143) (R.setFld Reg.HIF_RING_SEL_RING 0 143))
     On s (s.flag Reg.HIF_STS_QUIESCED 0 = false ∧ (s.ring (min 143 (s.fld Reg.HIF_RING_SEL_RING 0))).en = true)),
    (let s := awake (winOn (ringAs 143 { ringOn 143 with window := 15 } R))
     let x := s.ring 143
     On s (s.flag Reg.HIF_STS_QUIESCED 0 = false ∧ 143 < 144 ∧ 2 ^ 16 - 1 < 2 ^ 16 ∧ x.en = true ∧ 2 ^ x.log2 ≤ 2 ^ 16 - 1 ∧ (x.devIdx + x.desc.length) % 2 ^ x.log2 = 0 ∧
       x.desc.length + 1 < 2 ^ x.log2 ∧ (1 + 2 ^ x.log2 - 0) % 2 ^ x.log2 = 1 ∧ s.winOk x.window (x.offset + 64 * 0) 64 false = true)),
    (let s := awake (ringAs 143 { ringOn 143 with bellIdx := 9 } R)
     let x := s.ring 143
     On s (s.flag Reg.HIF_STS_QUIESCED 0 = false ∧ 143 < 144 ∧ 256 < 2 ^ 16 ∧ x.en = true ∧ 2 ^ x.log2 ≤ 256 ∧ (x.devIdx + x.desc.length) % 2 ^ x.log2 = 0 ∧
       0 < 2 ^ x.log2 ∧ x.desc.length < 2 ^ x.log2)),
    On R (144 ≤ 144 ∧ (R.ring 143).en = false ∧ 6 < 7 ∧ R.hostIn = [] ∧ R.injDone = []),
    (let s : State := { R with hostIn := [(63, pkt)] }
     On s (63 < 64 ∧ s.hostIn = [(63, pkt)] ∧ (s.ring (16 + 63)).en = false)),
    (let d : Bytes := toLE 8 0 ++ toLE 2 15 ++ toLE 2 2048 ++ List.replicate 52 0
     let s : State := { winOn (ringAs 79 { ringOn 79 with window := 15, desc := [d] } R) with hostIn := [(63, pkt)] }
     let q := State.dmaWrite { s with hostIn := [] } (leAt d 8 1 % 16) (leAt d 0 8) (sliceB pkt.data 0 60)
     On s ((s.ring (16 + 63)).en = true ∧ (s.ring (16 + 63)).desc = [d] ∧ leAt d 10 2 ≠ 0 ∧ min pkt.data.length (leAt d 10 2) = 60 ∧ q.2 = true ∧
       (q.1.ringPut 79 (q.1.frameItem pkt 60)).2 = true)),
    (let s : State := { R with injDone := [injOf true none] }
     On s (s.injDone = [injOf true none] ∧ (s.ring (injOf true none).inj.who).gen = (injOf true none).inj.slot / 2 ^ 16)),
    (let s : State := { R with injDone := [injOf false none] }
     On s (s.injDone = [injOf false none] ∧ (injOf false none).time = none)),
    On R ((R.ring (80 + 63)).en = false),
    (let d : Bytes := List.replicate 64 0
     let s := ringAs 143 { ringOn 143 with desc := [d] } R
     On s ((s.ring (80 + 63)).en = true ∧ (s.ring (80 + 63)).desc = [d] ∧ leAt d 10 2 < 60 ∧ 10236 < leAt (toLE 10 0 ++ toLE 2 10237) 10 2)),
    On R (255 < 256 ∧ (R.vec 255).outstanding = false),
    (let s : State := { R with hif := { R.hif with vecs := Tbl.insert 255 ⟨true, true, false, false, 1⟩ [] } }
     On s ((s.vec 255).outstanding = true))] = true := by decide +kernel

/-- What a ring command looks at first. -/
def cmdState (s : State) : State := (s.advanceTo 0).orphanStep
def cmdRing (op n page : Nat) (s : State) : State := awake (ringAs 7 { ringOn 7 with desc := [descOf op n page] } s)
def crcPage : Nat := Ty.CRC * 256 + 3
def pageFor (op : Nat) : Nat := if op = 4 then Ty.LCS * 256 else crcPage

theorem test_meets_RingCommandsAndRegisterMessages : All [
    On R (7 < 8 ∧ ((cmdState R).ring 7).en = false),
    ([1, 2, 3, 4].all fun op =>
      let s := cmdRing op 1 (pageFor op) R
      let a := cmdState s
      let x := a.ring 7
      let c := cmdOf (descOf op 1 (pageFor op))
      On s (a.active Ty.HIF 0 = true ∧ x.en = true ∧ x.compl = none ∧ x.orphan = none ∧ a.flag Reg.HIF_STS_QUIESCED 0 = false ∧ x.desc = [descOf op 1 (pageFor op)] ∧ a.inv Ty.HIF 0 0 = false ∧
        c.op = op ∧ x.waiting = 0 ∧ ¬ toSigned 32 ((c.seq + 2 ^ 32 - x.lastSeq) % 2 ^ 32) ≤ 0 ∧ c.bad = false ∧ a.present c.ty c.inst = true ∧
        a.pageTaken 7 c.page = false)),
    (let s := ringAs 7 { ringOn 7 with desc := [descOf 1 1 crcPage], lastSeq := 1 } R
     On s (toSigned 32 (((cmdOf (descOf 1 1 crcPage)).seq + 2 ^ 32 - ((cmdState s).ring 7).lastSeq) % 2 ^ 32) ≤ 0)),
    ((cmdOf (descOf 1 9 crcPage)).bad = true),
    (let c := cmdOf (descOf 1 1 (0xFE * 256))
     c.bad = false ∧ R.present c.ty c.inst = false),
    (let s := ringAs 6 { ringOn 6 with desc := [descOf 3 1 crcPage], waiting := 2 } (cmdRing 1 1 crcPage R)
     On s ((cmdState s).pageTaken 7 crcPage = true)),
    (let s := cmdRing 3 1 crcPage R
     let a := cmdState s
     let c := cmdOf (descOf 3 1 crcPage)
     On s (bitOf (a.view (c.key c.cmdOff)) 31 = false ∧
       bitOf (((a.cmdWriteData 7 c).writeReg (1 + 7) (c.key c.cmdOff) c.word []).view (c.key c.cmdOff)) 31 = false)),
    (let d := toLE 4 1 ++ toLE 1 3 ++ toLE 1 0 ++ toLE 2 0 ++ toLE 2 (Ty.LCS * 256) ++ toLE 2 Reg.LCS_CMD.off ++ toLE 2 Reg.LCS_CMD.off ++ List.replicate 50 0
     let s := (awake (ringAs 7 { ringOn 7 with desc := [d] } R)).setFlag Reg.LCS_CMD_BUSY 0 true
     let a := cmdState s
     let c := cmdOf d
     On s (c.bad = false ∧ a.present c.ty c.inst = true ∧ a.pageTaken 7 c.page = false ∧ bitOf (a.view (c.key c.cmdOff)) 31 = true)),
    (let d := toLE 4 1 ++ toLE 1 3 ++ toLE 1 0 ++ toLE 2 0 ++ toLE 2 (Ty.SEAL * 256) ++ toLE 2 0x060 ++ toLE 2 0x060 ++ toLE 2 0 ++ toLE 4 16 ++ List.replicate 44 0
     let s := (awake (ringAs 7 { ringOn 7 with desc := [d] } ((storeOn R).setRegI Reg.SEAL_RANGE_CFG 0 0 (2 ^ 27))))
     let a := cmdState s
     let c := cmdOf d
     On s (c.bad = false ∧ a.present c.ty c.inst = true ∧ a.pageTaken 7 c.page = false ∧ bitOf (a.view (c.key c.cmdOff)) 31 = false ∧
       bitOf (((a.cmdWriteData 7 c).writeReg (1 + 7) (c.key c.cmdOff) c.word []).view (c.key c.cmdOff)) 31 = true)),
    (let s := ringAs 7 { ringOn 7 with desc := [descOf 3 1 crcPage], waiting := 2 } R
     On s (((s.advanceTo 0).ring 7).desc = [descOf 3 1 crcPage] ∧ ((s.advanceTo 0).ring 7).waiting ≠ 0)),
    On R ((R.ring 7).compl = none),
    (let s := ringAs 15 { ringOn 15 with desc := [[]] } (ringAs 7 { ringOn 7 with compl := some [1] } R)
     let q := 8 + (s.ring 7).cq % 8
     On s ((s.ring 7).compl = some [1] ∧ (s.ring q).en = true ∧ (s.ring q).desc ≠ [])),
    On R (31 < 32 ∧ R.posts = []),
    ([(1, 0x40), (2, 0x40), (3, 0)].all fun q =>
      let b : Bytes := toLE 2 q.1 ++ toLE 2 (if q.1 = 3 then 0 else Reg.MSEC_SA_CMD.off) ++ List.replicate 12 0
      let s := posted (Ty.MSEC * 256 + 31) b R
      On s (s.posts = [⟨31, 15, Ty.MSEC * 256 + 31, b⟩] ∧ leAt b 0 1 = q.1 ∧
        (q.1 = 3 ∨ msgOffset (leAt b 2 2) (q.1 == 2) = true)))] = true := by decide +kernel

def snap0 : Snap := ⟨0, 0, 0, [(0, [1])]⟩

theorem test_meets_CheckUnitsAndSnapshots : All [
    On R (3 < 4 ∧ R.active Ty.CRC 3 = true ∧ R.inv Ty.CRC 3 0 = false ∧ bitOf 255 8 = false ∧ bitOf 256 8 = true),
    (2 ^ 16 - 1 < 2 ^ crcBits 2 ∧ 3 < 4),
    On R (R.pmc.latch = none ∧ R.inv Ty.PMC 0 0 = false),
    (let s : State := { R with pmc := { R.pmc with latch := some snap0 } }
     On s (s.pmc.latch = some snap0 ∧ s.inv Ty.PMC 0 0 = false ∧ s.fld Reg.PMC_DUMP_CFG_WINDOW 0 = 0 ∧ (s.dmaRead 0 0 64).2 = false)),
    ([true, false].all fun wr =>
      let s : State := { winOn R with pmc := { R.pmc with latch := some snap0 }, hif := { (winOn R).hif with wins := Tbl.insert 15 ⟨0, 1000, true, true, wr⟩ [] } }
      let s := s.setFld Reg.PMC_DUMP_CFG_WINDOW 0 15
      let r := s.dmaRead (s.fld Reg.PMC_DUMP_CFG_WINDOW 0) (s.reg64 Reg.PMC_DUMP_OFF_LO 0 / 64 * 64 + 0) 64
      On s (s.pmc.latch = some snap0 ∧ s.inv Ty.PMC 0 0 = false ∧ s.reg Reg.PMC_DUMP_IDX 0 = 0 ∧ r.2 = true ∧ (r.1.dmaWrite 15 0 (snap0.slot false [])).2 = wr))] = true := by decide +kernel

end Sys2Proof.Tests
end

/-! PROOF. The family of 00_scope.md: every command completes and keeps the queue and the part, absent pages (R2), and the access codes
of a written field (R7). -/

namespace Sys2Proof.Proofs

open Sys2Proof.Machine Sys2Proof.Laws

/-! ## What the two outcomes of a command have in common -/

/-- An own outcome is a next state. -/
theorem own_next {s : State} {o : Host.Outcome State Fault Refusal} (h : Own s o) : ∃ t, o = .next t := by
  rcases h with h | ⟨t, h⟩
  · exact ⟨s, h⟩
  · exact ⟨s.done t, h⟩

/-- An own outcome keeps the waiting commands and the part, since the end of a command puts both back. -/
theorem own_keeps {s t : State} (h : Own s (.next t)) : t.pending = s.pending ∧ t.part = s.part := by
  rcases h with h | ⟨u, h⟩ <;> cases h
  · exact ⟨rfl, rfl⟩
  · exact ⟨done_pending s u, done_part s u⟩

/-- Presence is a matter of the part alone (R4). -/
theorem present_congr {s t : State} (h : t.part = s.part) (ty inst : Nat) : t.present ty inst = s.present ty inst :=
  congrArg (presentIn · ty inst) h

/-- Settles O2: every command has one of the two own outcomes, and both are next states. -/
theorem everyCommandCompletes : Obligations.EveryCommandCompletes :=
  fun c s => own_next (exec_own c s)

/-- Settles O4: every command has one of the two own outcomes, and both keep the queue and the part. -/
theorem queueAndPartKept : Obligations.QueueAndPartKept := by
  intro c s t h
  obtain ⟨hq, hp⟩ := own_keeps (h ▸ exec_own c s)
  exact ⟨hq, hp, present_congr hp⟩

/-! ## Absent pages and the header of a page (R2, R406, R407) -/

/-- A read of an absent page shows 0 and changes nothing (R2). -/
theorem readReg_absent {s : State} {k : Nat} (master : Nat) (hk : k < 0x0FF00000) (h : s.present (keyTy k) (keyInst k) = false) :
    s.readReg master k = (s, 0) := by
  simp [State.readReg, Nat.not_le.2 hk, h]

/-- A write of an absent page changes nothing (R2). -/
theorem writeReg_absent {s : State} {k : Nat} (master v : Nat) (data : Bytes) (hk : k < 0x0FF00000)
    (h : s.present (keyTy k) (keyInst k) = false) : s.writeReg master k v data = s := by
  simp [State.writeReg, Nat.not_le.2 hk, h]

/-- The pages lie below the MSI-X table (R406). -/
theorem regKey_lt_msix {ty inst off : Nat} (ht : ty < 255) (hi : inst < 256) (ho : off < 4096) : regKey ty inst off < 0x0FF00000 := by
  unfold regKey
  omega

/-- The common header is there in a secondary trunk instance too. -/
theorem secondary_header (s : State) (ty inst : Nat) {off : Nat} (ho : off < 0x40) : s.secondary ty inst off = false := by
  simp [State.secondary, Nat.not_le.2 ho]

/-- A header register shows its value where the page is present, else 0. -/
theorem view_header {s : State} {ty inst off v : Nat} (ht : ty < 255) (hi : inst < 256) (ho : off < 0x40)
    (hv : viewHeader ty inst off = some v) : s.view (regKey ty inst off) = if s.present ty inst then v else 0 := by
  have ho' : off < 4096 := by omega
  have hk : ¬ (0x0FF00000 ≤ regKey ty inst off ∧ regKey ty inst off < 0x0FF02000) :=
    fun h => Nat.not_le.2 (regKey_lt_msix ht hi ho') h.1
  unfold State.view
  rw [if_neg hk]
  simp only [keyTy_regKey hi ho', keyInst_regKey hi ho', keyOff_regKey ho', secondary_header s ty inst ho, hv]
  cases s.present ty inst <;> rfl

/-- CAP shows PRESENT alone: 1 where the page is present, else 0. -/
theorem view_cap (s : State) {ty inst : Nat} (ht : ty < 255) (hi : inst < 256) :
    s.view (regKey ty inst 8) = if s.present ty inst then 1 else 0 :=
  view_header ht hi (by decide) rfl

/-- BLOCK_ID shows type and instance where the page is present, else 0. -/
theorem view_blockId (s : State) {ty inst : Nat} (ht : ty < 255) (hi : inst < 256) :
    s.view (regKey ty inst 0) = if s.present ty inst then ty * 2 ^ 16 + inst else 0 :=
  view_header ht hi (by decide) rfl

/-- TOP is there in every part (R4). -/
theorem present_top (s : State) : s.present Ty.TOP 0 = true := by
  unfold State.present
  cases s.part <;> rfl

/-- Settles O7: reads and writes stop at an absent page, and the header shows what is present. -/
theorem absentPageReadsZeroIgnoresWrites : Obligations.AbsentPageReadsZeroIgnoresWrites := by
  refine ⟨fun s master k v data hk h => ⟨readReg_absent master hk h, writeReg_absent master v data hk h⟩, fun s => ?_, fun s ty inst ht hi => ?_⟩
  · refine ⟨present_top s, ?_, ?_⟩
    · rw [view_blockId s (by decide) (by decide), present_top]; rfl
    · rw [view_cap s (by decide) (by decide), present_top]; rfl
  · rw [view_cap s ht hi]
    cases s.present ty inst <;> simp

/-! ## Bits of fields -/

theorem bitOf_eq_testBit (v i : Nat) : bitOf v i = v.testBit i := by
  rw [Nat.testBit_eq_decide_div_mod_eq]
  rfl

theorem bitsOf_lt (v lo w : Nat) : bitsOf v lo w < 2 ^ w := Nat.mod_lt _ (Nat.two_pow_pos w)

/-- Bit i of a field is bit lo + i of the word. -/
theorem testBit_bitsOf (v lo w i : Nat) : (bitsOf v lo w).testBit i = (decide (i < w) && bitOf v (lo + i)) := by
  rw [bitOf_eq_testBit, bitsOf, Nat.testBit_mod_two_pow, Nat.testBit_div_two_pow, Nat.add_comm]

/-- A bit of the field that was set is the new value's. -/
theorem bitOf_setBitsOf_in (v lo x : Nat) {w i : Nat} (h : i < w) : bitOf (setBitsOf v lo w x) (lo + i) = x.testBit i := by
  have e := congrArg (Nat.testBit · i) (bitsOf_setBitsOf_self v lo w x)
  simpa [testBit_bitsOf, Nat.testBit_mod_two_pow, h] using e

/-- A bit outside the field that was set is as before. -/
theorem bitOf_setBitsOf_out (v x : Nat) {lo w i : Nat} (h : i < lo ∨ lo + w ≤ i) : bitOf (setBitsOf v lo w x) i = bitOf v i := by
  simp only [bitOf_eq_testBit]
  unfold setBitsOf bitsOf
  rw [word_parts, Nat.add_comm, Nat.testBit_two_pow_mul_add _ (Nat.mod_lt _ (Nat.two_pow_pos lo))]
  rcases h with h | h
  · simp [h, Nat.testBit_mod_two_pow]
  · rw [if_neg (by omega), Nat.add_comm, Nat.testBit_two_pow_mul_add _ (Nat.mod_lt _ (Nat.two_pow_pos w)), if_neg (by omega),
      Nat.testBit_div_two_pow, Nat.testBit_div_two_pow]
    congr 1
    omega

/-! ## A written field by its access code (R7, R8) -/

/-- A write changes the word in the field at most. -/
theorem write_setBitsOf (f : FieldSpec) (rwoOpen : Bool) (v old : Nat) :
    FieldSpec.write rwoOpen v old f = old ∨ ∃ y, FieldSpec.write rwoOpen v old f = setBitsOf old f.lo f.w y := by
  unfold FieldSpec.write
  cases f.acc with
  | rw | w1c | w1s => exact .inr ⟨_, rfl⟩
  | rwo => cases rwoOpen; exacts [.inl rfl, .inr ⟨_, rfl⟩]
  | ro | wo => exact .inl rfl

section
variable {f : FieldSpec} (rwoOpen : Bool) (v old : Nat)

/-- RW stores the written field through the storing rule. -/
theorem write_rw (h : f.acc = .rw) :
    bitsOf (FieldSpec.write rwoOpen v old f) f.lo f.w = f.store (bitsOf v f.lo f.w) % 2 ^ f.w := by
  simp only [FieldSpec.write, h, bitsOf_setBitsOf_self]

/-- W1C clears the bits written 1. -/
theorem write_w1c (h : f.acc = .w1c) {i : Nat} (hi : i < f.w) :
    bitOf (FieldSpec.write rwoOpen v old f) (f.lo + i) = (bitOf old (f.lo + i) && !bitOf v (f.lo + i)) := by
  simp only [FieldSpec.write, h]
  rw [bitOf_setBitsOf_in _ _ _ hi, Nat.testBit_and, Nat.sub_sub, Nat.add_comm 1,
    Nat.testBit_two_pow_sub_succ (bitsOf_lt v f.lo f.w)]
  simp [testBit_bitsOf, hi]

/-- W1S sets the bits written 1. -/
theorem write_w1s (h : f.acc = .w1s) {i : Nat} (hi : i < f.w) :
    bitOf (FieldSpec.write rwoOpen v old f) (f.lo + i) = (bitOf old (f.lo + i) || bitOf v (f.lo + i)) := by
  simp only [FieldSpec.write, h]
  rw [bitOf_setBitsOf_in _ _ _ hi, Nat.testBit_or]
  simp [testBit_bitsOf, hi]

/-- RWO stores the written field while its lock is open, and keeps the old one after. -/
theorem write_rwo (h : f.acc = .rwo) :
    bitsOf (FieldSpec.write rwoOpen v old f) f.lo f.w = if rwoOpen then bitsOf v f.lo f.w else bitsOf old f.lo f.w := by
  simp only [FieldSpec.write, h]
  cases rwoOpen with
  | false => rfl
  | true => exact (bitsOf_setBitsOf_self _ _ _ _).trans (Nat.mod_eq_of_lt (bitsOf_lt v f.lo f.w))

/-- RO and WO keep the stored word. -/
theorem write_keeps (h : f.acc = .ro ∨ f.acc = .wo) : FieldSpec.write rwoOpen v old f = old := by
  rcases h with h | h <;> simp only [FieldSpec.write, h]

/-- A write keeps every bit outside the field. -/
theorem write_outside {i : Nat} (hi : i < f.lo ∨ f.lo + f.w ≤ i) : bitOf (FieldSpec.write rwoOpen v old f) i = bitOf old i := by
  rcases write_setBitsOf f rwoOpen v old with h | ⟨y, h⟩ <;> rw [h]
  exact bitOf_setBitsOf_out old y hi

end

/-- Settles O8, one lemma an access code. -/
theorem accessCodesStoreSetClear : Obligations.AccessCodesStoreSetClear := by
  intro f rwoOpen old v _ _
  exact ⟨write_rw rwoOpen v old, fun h _ hi => write_w1c rwoOpen v old h hi, fun h _ hi => write_w1s rwoOpen v old h hi,
    write_rwo rwoOpen v old, write_keeps rwoOpen v old, fun _ hi => write_outside rwoOpen v old hi⟩

end Sys2Proof.Proofs

/-! PROOF. The family of 01_meridian_organisation.md: clears and the soft reset of a page, the count M, the tick boundary, and the
overruns and drops of the stages. -/

namespace Sys2Proof.Proofs

open Sys2Proof.Machine Sys2Proof.Laws

/-! ## Tables with entries removed or changed -/

/-- Keeping the entries of some keys: such a key is found as before, any other is not. -/
theorem find_keepKeys {α : Type} (p : Nat → Bool) (t : Tbl α) (k : Nat) :
    (t.keep fun k _ => p k).find k = if p k then t.find k else none := by
  unfold Tbl.keep
  induction t with
  | nil => simp [Tbl.find]
  | cons e t ih =>
    obtain ⟨k', v⟩ := e
    rw [List.filter_cons]
    by_cases hk : k = k'
    · subst hk
      cases hp : p k <;> simp [Tbl.find, hp, ih]
    · cases hp : p k' <;> simpa [Tbl.find, hk, hp] using ih

/-- A key whose listed value becomes the unlisted one reads as unlisted. -/
theorem getD_mapV_reset {α : Type} [DecidableEq α] {d : Nat → α} {f : Nat → α → α} {k : Nat} (h : ∀ v, f k v = d k) (t : Tbl α) :
    (t.mapV d f).getD d k = d k := by
  unfold Tbl.mapV
  induction t with
  | nil => rfl
  | cons e t ih =>
    obtain ⟨k', v⟩ := e
    rw [List.map_cons, List.filter_cons]
    by_cases hk : k = k'
    · subst hk
      simpa [h] using ih
    · split
      · simpa [Tbl.getD, Tbl.find, hk] using ih
      · exact ih

/-- In a canonical table a key whose values do not change reads as before. -/
theorem getD_mapV_same {α : Type} [DecidableEq α] {d : Nat → α} {f : Nat → α → α} {k : Nat} (h : ∀ v, f k v = v) {t : Tbl α}
    (ht : ∀ e ∈ t, e.2 ≠ d e.1) : (t.mapV d f).getD d k = t.getD d k := by
  unfold Tbl.mapV
  induction t with
  | nil => rfl
  | cons e t ih =>
    obtain ⟨k', v⟩ := e
    obtain ⟨hv, ht⟩ := List.forall_mem_cons.1 ht
    rw [List.map_cons, List.filter_cons]
    by_cases hk : k = k'
    · subst hk
      simp [h, hv, Tbl.getD, Tbl.find]
    · split
      · simpa [Tbl.getD, Tbl.find, hk] using ih ht
      · simpa [Tbl.getD, Tbl.find, hk] using ih ht

/-! ## Clears and the soft reset of one page (R10, R31, R69, R407) -/

/-- A page's counters read their reset values after their clear, and every other register as before. -/
theorem rd_clearCounters (s : State) (ty inst k : Nat) : (s.clearCounters ty inst).rd k =
    if keyTy k = ty ∧ keyInst k = inst ∧ isCounter ty (keyOff k) = true then resetAt k else s.rd k := by
  simp only [State.rd, State.clearCounters, Tbl.getD,
    find_keepKeys fun k => !(keyTy k == ty && keyInst k == inst && isCounter ty (keyOff k))]
  by_cases h : keyTy k = ty ∧ keyInst k = inst ∧ isCounter ty (keyOff k) = true
  · simp [h]
  · rw [if_neg h, if_pos (by simpa [or_assoc, imp_iff_not_or] using h)]

/-- A soft reset changes the listed words of its page alone. -/
theorem softCommon_regs (s : State) (ty inst : Nat) : (s.softCommon ty inst).regs =
    s.regs.mapV resetAt fun k w => if keyTy k == ty && keyInst k == inst then softWord k w else w := rfl

/-- The registers of another page read as before a soft reset. -/
theorem rd_softCommon_other {s : State} {ty inst k : Nat} (h : ¬ (keyTy k = ty ∧ keyInst k = inst)) (hs : s.regs.wf resetAt = true) :
    (s.softCommon ty inst).rd k = s.rd k := by
  simp only [Tbl.wf, Bool.and_eq_true, List.all_eq_true, decide_eq_true_eq] at hs
  obtain ⟨-, hw⟩ := hs
  simp only [State.rd, softCommon_regs]
  refine getD_mapV_same (fun v => ?_) hw
  exact if_neg (by simpa using h)

/-- A counter's word returns to reset at a soft reset. -/
theorem softWord_counter {k : Nat} (h : isCounter (keyTy k) (keyOff k) = true) (w : Word) : softWord k w = resetAt k := by
  simp [softWord, h]

/-- The counters of the page read their reset values after its soft reset. -/
theorem rd_softCommon_counter (s : State) {ty inst k : Nat} (hty : keyTy k = ty) (hi : keyInst k = inst)
    (h : isCounter ty (keyOff k) = true) : (s.softCommon ty inst).rd k = resetAt k := by
  simp only [State.rd, softCommon_regs]
  refine getD_mapV_reset (fun v => ?_) s.regs
  exact (if_pos (by simp [hty, hi])).trans (softWord_counter (hty ▸ h) v)

/-- A soft reset of TOP changes nothing (R407). -/
theorem softReset_top (s : State) (inst : Nat) : s.softReset Ty.TOP inst = s := if_pos rfl

/-- The scheduler's and the forwarder's pages have nothing of their own beyond the common reset. -/
theorem softReset_common {s : State} {ty inst : Nat} (ht : ty = Ty.QSCH ∨ ty = Ty.FWD) (h : s.present ty inst = true) :
    s.softReset ty inst = s.softCommon ty inst := by
  rcases ht with rfl | rfl <;> exact if_neg (by rw [h]; decide)

/-- Settles O10: a clear or a reset is a change of the register table by key, and the soft reset of QSCH and FWD adds nothing. -/
theorem clearsAndSoftResetOfOnePage : Obligations.ClearsAndSoftResetOfOnePage := by
  intro s hr
  refine ⟨fun ty inst h => ?_, rd_clearCounters s, fun ty inst h ht => ?_, fun ty inst ht h => ?_, fun _ _ => rfl,
    fun _ _ _ => rd_softCommon_other, fun _ _ _ => rd_softCommon_counter s, fun inst => ?_⟩
  · exact Gives.of_live (State.clrAll · ty inst) hr rfl (if_pos h)
  · exact Gives.of_live (State.maxClr · ty inst) hr rfl (if_pos (by simp [h, ht]))
  · exact Gives.of_live (State.softReset · ty inst) hr rfl (softReset_common ht h)
  · exact Gives.of_live (State.softReset · Ty.TOP inst) hr rfl (softReset_top s inst)

/-! ## Events leave time alone -/

theorem quiet_lateAdd (s : State) (k w lo hi : Nat) : quiet (s.lateAdd k w lo hi) = quiet s := quiet_bin _ _

/-- The Binnacle's record writes registers, itself, the Lodestone and what a halt or a ZEROISE clears, nothing else. -/
theorem quiet_record (s : State) (d : Det) (c : EClass) : quiet (s.record d c) = quiet s := by
  unfold State.record
  split
  · rfl
  · rw [← quiet_escalate s d c]
    generalize s.escalate d c = r
    obtain ⟨s, c, esc⟩ := r
    cases c <;>
      simp only [apply_ite quiet, ite_self, quiet_halt, quiet_zeroise, quiet_log, quiet_count, quiet_bin, quiet_intSet, quiet_typeBit,
        quiet_lateAdd, quiet_setReg64, quiet_setReg, quiet_capture]

theorem quiet_event (s : State) (d : Det) (c : EClass) : quiet (s.event d c) = quiet s := by
  simp only [State.event, apply_ite quiet, ite_self, quiet_record, quiet_bin]

theorem quiet_raise (s : State) (ty inst src lo hi : Nat) : quiet (s.raise ty inst src lo hi) = quiet s := by
  unfold State.raise
  split
  · exact quiet_event _ _ _
  · rfl

/-- What leaves the quiet part of the state alone leaves time alone. -/
theorem tm_of_quiet {s t : State} (h : quiet t = quiet s) : t.tm = s.tm :=
  (congrArg State.tm h : (quiet t).tm = (quiet s).tm)

@[simp] theorem event_tm (s : State) (d : Det) (c : EClass) : (s.event d c).tm = s.tm := tm_of_quiet (quiet_event s d c)

@[simp] theorem raise_tm (s : State) (ty inst src lo hi : Nat) : (s.raise ty inst src lo hi).tm = s.tm :=
  tm_of_quiet (quiet_raise s ty inst src lo hi)

@[simp] theorem logPut_tm (s : State) (e : Bytes) : (s.logPut e).tm = s.tm := tm_of_quiet (quiet_logPut s e)

/-! ## The count M (R19, R23 to R25) -/

@[simp] theorem timeStepBack_tm (s : State) : s.timeStepBack.tm = s.tm := by
  simp only [State.timeStepBack, logPut_tm, event_tm, count_tm]

/-- The backup cell holds the E in force after a step back. -/
theorem timeStepBack_cellE (s : State) : s.timeStepBack.lcs.vbat.e = s.tm.e := by
  simp only [State.timeStepBack, logPut_tm, event_tm, count_tm]

/-- Settles O26: the four effects are the definition, and none of the first three touches E. -/
theorem timeStepBackDoesFourThings : Obligations.TimeStepBackDoesFourThings :=
  fun s => ⟨rfl, timeStepBack_cellE s⟩

/-- All that a boundary's update of the count does to time (R23): M is the greater of M + 1 and j + E, E is lowered where the time has
stepped back, and nothing is pending. -/
theorem countUpdate_tm (s : State) (j : Nat) : (s.countUpdate j).tm = { s.tm with
    m := max (s.tm.m + 1) (j + s.intendedE) % 2 ^ 48
    e := (if j + s.intendedE < s.tm.m + 1 then s.tm.m + 1 - j else s.intendedE) % 2 ^ 48
    ePend := none } := by
  unfold State.countUpdate
  rcases Nat.lt_trichotomy (s.tm.m + 1) (j + s.intendedE) with h | h | h
  · have hb : ¬ j + s.intendedE < s.tm.m + 1 := by omega
    simp only [h, hb, if_true, if_false, apply_ite State.tm, count_tm, ite_self, Nat.max_eq_right h.le]
    rfl
  · simp only [h, Nat.lt_irrefl, if_false, Nat.max_self]
    rfl
  · have hf : ¬ s.tm.m + 1 < j + s.intendedE := by omega
    simp only [h, hf, if_true, if_false, timeStepBack_tm, Nat.max_eq_left h.le]
    rfl

/-- Below 2^48 the count advances (R23). -/
theorem countUpdate_advances {s : State} {j : Nat} (hm : s.tm.m + 1 < 2 ^ 48) (hj : j + s.intendedE < 2 ^ 48) :
    (s.countUpdate j).tm.m = max (s.tm.m + 1) (j + s.intendedE) ∧ s.tm.m < (s.countUpdate j).tm.m ∧
    (s.countUpdate j).tm.e = (if j + s.intendedE < s.tm.m + 1 then s.tm.m + 1 - j else s.intendedE) ∧
    (s.countUpdate j).tm.ePend = none := by
  have he : (if j + s.intendedE < s.tm.m + 1 then s.tm.m + 1 - j else s.intendedE) < 2 ^ 48 := by split <;> omega
  simp only [countUpdate_tm, Nat.mod_eq_of_lt (max_lt hm hj), Nat.mod_eq_of_lt he, true_and, and_true]
  omega

/-- H lies above the count after its update (R25). -/
theorem highWater_above (s : State) : s.tm.m < s.highWater.lcs.vbat.h :=
  lt_max_of_lt_right (by omega : s.tm.m < s.tm.m / 65536 * 65536 + 131072)

/-- A greater E becomes pending (R19). -/
theorem epochWrite_greater {s : State} {e : Nat} (he : e < 2 ^ 48) (h : s.intendedE < e) :
    s.epochWrite e = { s with tm := { s.tm with ePend := some e } } := by
  simp only [State.epochWrite, Nat.mod_eq_of_lt he, h, if_true]

/-- Any other E is only counted (R19). -/
theorem epochWrite_rejected {s : State} {e : Nat} (he : e < 2 ^ 48) (h : e ≤ s.intendedE) :
    s.epochWrite e = s.count Reg.AST_EPOCH_REJECT 0 := by
  simp only [State.epochWrite, Nat.mod_eq_of_lt he, Nat.not_lt.2 h, if_false]

/-- Settles O25: the update of the count, the high-water mark, and the three answers of EPOCH_WRITE. -/
theorem meridianCountAdvances : Obligations.MeridianCountAdvances := by
  refine ⟨fun s j hm hj => countUpdate_advances hm hj, fun s => ⟨rfl, rfl, highWater_above s, rfl, rfl⟩, fun s e hr he => ⟨?_, ?_, ?_⟩⟩
  · exact fun ho h => Gives.of_live (State.mirrored · (State.epochWrite · e)) hr rfl ((mirrored_open ho _).trans (epochWrite_greater he h))
  · exact fun ho h => Gives.of_live (State.mirrored · (State.epochWrite · e)) hr rfl ((mirrored_open ho _).trans (epochWrite_rejected he h))
  · exact fun ho => Gives.of_live (State.mirrored · (State.epochWrite · e)) hr rfl (mirrored_standby ho _)

/-! ## The boundary of time (R20 to R22): after the new tick begins nothing moves its number or its cycles -/

/-- The tick number, the cycle of the tick and the cycles gone by before it. -/
def tickClock (s : State) : Nat × Nat × Nat := (s.tm.tickNo, s.tm.cycle, s.tm.base)

theorem tickClock_of_tm {s t : State} (h : t.tm = s.tm) : tickClock t = tickClock s := by simp only [tickClock, h]

/-! Proofs of the form `(rfl)` below keep `simp` from using a lemma as a definitional step: the kernel would then compare whole states, and
evaluate the lengths of ticks in them. -/

section
variable (s : State)

theorem tickClock_count (r : RegId) (i : Nat) : tickClock (s.count r i) = tickClock s := tickClock_of_tm (count_tm s r i)
theorem tickClock_setReg (r : RegId) (i v : Nat) : tickClock (s.setReg r i v) = tickClock s := tickClock_of_tm (setReg_tm s r i v)
theorem tickClock_timeStepBack : tickClock s.timeStepBack = tickClock s := tickClock_of_tm (timeStepBack_tm s)
theorem tickClock_setDom (d : Nat) (x : Dom) : tickClock (s.setDom d x) = tickClock s := (rfl)
theorem tickClock_setCount (m e : Nat) : tickClock (s.setCount m e) = tickClock s := (rfl)
theorem tickClock_highWater : tickClock s.highWater = tickClock s := (rfl)

theorem advanceTo_tickNo (c : Nat) : (s.advanceTo c).tm.tickNo = s.tm.tickNo := (rfl)
theorem advanceTo_base (c : Nat) : (s.advanceTo c).tm.base = s.tm.base := (rfl)
theorem advanceTo_len (c : Nat) : (s.advanceTo c).tm.len = s.tm.len := (rfl)

theorem tickClock_len (l : Nat) : tickClock { s with tm := { s.tm with len := l } } = tickClock s := (rfl)

theorem tickClock_plan (l j : Nat) (slewing stepped : Bool) :
    tickClock { s with tm := { s.tm with len := l, planJ := j, slewing := slewing, stepped := stepped } } = tickClock s := (rfl)

theorem tickClock_planStep (l j : Nat) (slewing stepped : Bool) (e : Int) :
    tickClock { s with tm := { s.tm with len := l, planJ := j, slewing := slewing, stepped := stepped, lineErr := e } } = tickClock s := (rfl)

theorem tickClock_gap (was : Bool) (gap : Nat) (e : Int) :
    tickClock { s with tm := { s.tm with wasStep := was, stepGap := gap, lineErr := e } } = tickClock s := (rfl)

theorem tickClock_domainsInvalid : tickClock
    (((s.raise Ty.AST 0 1 0 0).setFlag Reg.AST_DOM_CTL_VALID 0 false).setFlag Reg.AST_DOM_CTL_VALID 0 false 0x40) = tickClock s :=
  tickClock_of_tm (raise_tm s Ty.AST 0 1 0 0)

theorem tickClock_lineTake (d : Int) : tickClock (s.lineTake d) = tickClock s := by
  unfold State.lineTake
  split <;> rfl

theorem tickClock_slewStep : tickClock s.slewStep = tickClock s := by
  unfold State.slewStep
  dsimp only
  split
  · rfl
  · split <;> rfl

theorem tickClock_switchEval : tickClock s.switchEval = tickClock s := by
  unfold State.switchEval
  split
  · rfl
  · dsimp only
    split
    · exact tickClock_count _ _ _
    · split
      · rfl
      · split
        · exact tickClock_count _ _ _
        · split <;> rfl

theorem tickClock_countUpdate (j : Nat) : tickClock (s.countUpdate j) = tickClock s := by
  simp only [tickClock, countUpdate_tm]

theorem tickClock_countStart (j : Nat) : tickClock (s.countStart j) = tickClock s := by
  unfold State.countStart
  dsimp only
  split
  · exact tickClock_timeStepBack _
  · rfl

theorem tickClock_planTick (j : Nat) : tickClock (s.planTick j) = tickClock s := by
  unfold State.planTick
  dsimp only
  split
  · exact (tickClock_plan _ _ _ _ _).trans (tickClock_setReg s _ _ _)
  · split
    · refine (tickClock_plan _ _ _ _ _).trans ?_
      simp only [apply_ite tickClock, tickClock_count, tickClock_setReg, ite_self]
    · exact (tickClock_planStep _ _ _ _ _ _).trans (tickClock_setReg s _ _ _)

/-- The boundary of time begins the next tick at cycle 0, the old tick's length after it began (R20). -/
theorem tickClock_timeBoundary : tickClock s.timeBoundary = (s.tm.tickNo + 1, 0, s.tm.base + s.tm.len) := by
  unfold State.timeBoundary
  extract_lets sAdv bump a b sBump _ sNew _ sGap sCount t0 sAdj sTake sInv sSlew t1 sSwitch sEnd j sStart _ _ _ sPend _
  have hNew : tickClock sNew = (s.tm.tickNo + 1, 0, s.tm.base + s.tm.len) := by
    rw [← advanceTo_tickNo s s.tm.len, ← advanceTo_base s s.tm.len, ← advanceTo_len s s.tm.len]
    rfl
  clear_value sNew
  have hGap : tickClock sGap = tickClock sNew := tickClock_gap _ _ _ _
  have hCount : tickClock sCount = tickClock sGap := by simp only [sCount, apply_ite tickClock, tickClock_countUpdate, ite_self]
  have hInv : tickClock sInv = tickClock sCount := by
    simp only [sInv, sTake, sAdj, apply_ite tickClock, tickClock_domainsInvalid, tickClock_lineTake, tickClock_setDom, ite_self]
  have hEnd : tickClock sEnd = tickClock sInv := by
    simp only [sEnd, sSwitch, sSlew, tickClock_lineTake, tickClock_switchEval, tickClock_slewStep]
  have hPend : tickClock sPend = tickClock sEnd := by
    simp only [sPend]
    split <;> rfl
  rw [← hNew, ← hGap, ← hCount, ← hInv, ← hEnd]
  clear_value sEnd
  split
  · split
    · simp only [sStart, tickClock_highWater, tickClock_planTick, tickClock_countStart]
    · exact (tickClock_len _ _).trans hPend
  · simp only [tickClock_highWater, tickClock_planTick]

/-- The boundary of a running device, part by part (log entry 16). -/
theorem tickBoundary_parts : s.tickBoundary =
    let t := s.boundaryTime.boundaryKeys.boundaryTerms
    (t.boundaryStages s.tm.m (t.tm.stepped || (s.tm.swReq.any (fun r => r.2) && t.tm.active != s.tm.active))).healthStep := by
  unfold State.tickBoundary
  rcases s.tm.swReq with _ | ⟨_, b⟩ <;> simp only [Option.any_none, Option.any_some]

end

/-- Settles O27: the boundary's parts by definition, and the tick's number and cycles through the boundary of time. -/
theorem tickBoundaryOrderAndHalt : Obligations.TickBoundaryOrderAndHalt := by
  refine ⟨fun s ⟨hh, ho⟩ => ?_, fun s ho hh => ?_, fun s => ?_⟩
  · refine Gives.of_powered (fun s => if s.halted then s.timeBoundary else s.tickBoundary) ho rfl ?_
    simp only [hh, Bool.false_eq_true, if_false, tickBoundary_parts]
  · exact Gives.of_powered (fun s => if s.halted then s.timeBoundary else s.tickBoundary) ho rfl (if_pos hh)
  · simpa only [tickClock, Prod.mk.injEq] using tickClock_timeBoundary s

/-! ## Overruns of the tick stages (R30 to R33) -/

/-- A stage whose work is not done answers, overruns, and counts as done (log entry 11). -/
theorem tickOverrun_late {s : State} {ty inst : Nat} (hw : s.hasWork ty inst = true) (hd : s.workDone ty inst = false) :
    s.tickOverrun ty inst =
      let s1 := (s.overrunAnswer ty inst).overrun ty inst (overrunSrc ty)
      { s1 with tickWork := s1.tickWork.set (1, false) (pageKey ty inst) (0, false) } := by
  simp [State.tickOverrun, hw, hd]

/-- A stage with no work, or with its work done, does not overrun. -/
theorem tickOverrun_idle {s : State} {ty inst : Nat} (h : s.hasWork ty inst = false ∨ s.workDone ty inst = true) :
    s.tickOverrun ty inst = s :=
  if_pos (by rcases h with h | h <;> simp [h])

/-- A page counts one overrun a tick (R33). -/
theorem overrun_again {s : State} {ty inst : Nat} (h : s.overrunSeen ty inst = true) (src : Nat) : s.overrun ty inst src = s := if_pos h

/-- The first overrun of a tick and page that the heartbeat does not watch: the count, the tick, the flag and the source (R32). -/
theorem overrun_first {s : State} {ty inst : Nat} (hb : (ty == Ty.TTX || ty == Ty.ORR || ty == Ty.QSCH) = false)
    (h : s.overrunSeen ty inst = false) (src : Nat) : s.overrun ty inst src =
      (((({ s with ovrAt := s.ovrAt.set 0 (pageKey ty inst) (s.tm.tickNo + 1) } : State).count (Reg.OVERRUN_COUNT ty) inst).setReg64
        (Reg.OVERRUN_TICK_LO ty) inst s.tick).intSet ty inst 0).raise ty inst src 0 0 := by
  simp only [State.overrun, h, hb, Bool.false_eq_true, if_false, State.overrunOnce, count_tick]
  rfl

/-! ## Drops of the streaming stages and the crossbar (R17, R28) -/

/-- A descriptor that finds room changes nothing by itself. -/
theorem stageReceive_room (s : State) (ty inst : Nat) : s.stageReceive ty inst false = s := if_pos rfl

/-- A full queue drops its newest descriptor. -/
theorem stageReceive_full {s : State} {ty inst : Nat} {p : Pkt} (h : s.present ty inst = true)
    (hp : (s.waitingAt ty inst).getLast? = some p) : s.stageReceive ty inst true = s.stageDrop ty inst p false := by
  simp [State.stageReceive, h, hp]

/-- The oldest descriptor above the age limit is dropped for its age. -/
theorem ageExpiry_old {s : State} {ty inst cycle : Nat} {p : Pkt} (h : s.present ty inst = true)
    (hp : ((s.advanceTo cycle).waitingAt ty inst).find? ((s.advanceTo cycle).tooOld ty inst) = some p) :
    s.ageExpiry ty inst cycle = ((s.advanceTo cycle).ageSeen ty inst p).stageDrop ty inst p true := by
  simp [State.ageExpiry, h, hp]

/-- The crossbar takes the oldest frame between two half-pipes: it waits behind an older one of its half-pipe and queue, else it is
dropped, for the full FIFO or for its age, or crosses (R17). -/
theorem xbarCross_oldest {s : State} {src dst : Nat} {p : Pkt}
    (hp : s.xin.find? (fun q => q.hp == src && s.outHp q == some dst) = some p) (full : Bool) : s.xbarCross src dst full =
    if (s.xin.takeWhile fun q => !(q.hp == src && s.outHp q == some dst)).any
        (fun q => q.hp == src && q.dst == p.dst && q.domain == p.domain && q.cls == p.cls) then s
    else if full then s.stageDrop Ty.BUF 0 p false
    else if s.tooOld Ty.BUF 0 p then (s.ageSeen Ty.BUF 0 p).stageDrop Ty.BUF 0 p true
    else { s.ageSeen Ty.BUF 0 p with
      xin := (s.ageSeen Ty.BUF 0 p).xin.erase p
      qin := (s.ageSeen Ty.BUF 0 p).qin ++ [{ p with hp := dst, born := (s.ageSeen Ty.BUF 0 p).now }] } := by
  simp only [State.xbarCross, hp]

/-- Settles O31, one lemma a command's case. -/
theorem overrunsAndDescriptorDrops : Obligations.OverrunsAndDescriptorDrops := by
  intro s hr
  refine ⟨fun ty inst ht hi hw hd => ?_, fun ty inst ht hi h => ?_, fun t src h => overrun_first (by decide) h src,
    fun ty inst src h => overrun_again h src, fun ty inst => ?_, fun ty inst p h hp => ?_, fun ty inst cycle p h => ?_,
    fun src dst p hs hd hp => ?_⟩
  · refine Gives.of_live (State.tickOverrun · (ty % 256) (inst % 256)) hr rfl ?_
    rw [Nat.mod_eq_of_lt ht, Nat.mod_eq_of_lt hi]
    exact tickOverrun_late hw hd
  · refine Gives.of_live (State.tickOverrun · (ty % 256) (inst % 256)) hr rfl ?_
    rw [Nat.mod_eq_of_lt ht, Nat.mod_eq_of_lt hi]
    exact tickOverrun_idle h
  · exact Gives.of_live (State.stageReceive · ty inst false) hr rfl (stageReceive_room s ty inst)
  · exact Gives.of_live (State.stageReceive · ty inst true) hr rfl (stageReceive_full h hp)
  · exact fun hp => Gives.of_live (State.ageExpiry · ty inst cycle) hr rfl (ageExpiry_old h hp)
  · have gives {full : Bool} {t : State} (h : s.xbarCross src dst full = t) : Gives (.xbarCross src dst full) s t :=
      Gives.of_live (State.xbarCross · (src % 8) (dst % 8) full) hr rfl (by rw [Nat.mod_eq_of_lt hs, Nat.mod_eq_of_lt hd]; exact h)
    have go := xbarCross_oldest hp
    refine ⟨fun hw full => gives ?_, fun hw => gives ?_, fun hw ho => gives ?_, fun hw ho => gives ?_⟩
    · rw [go, if_pos hw]
    · simp only [go, hw, Bool.false_eq_true, if_false, if_true]
    · simp only [go, hw, ho, Bool.false_eq_true, if_false, if_true]
    · simp only [go, hw, ho, Bool.false_eq_true, if_false]

end Sys2Proof.Proofs

/-! PROOF. The family of 02_tal_downstream.md: the check of a unit header, staging and the frame boundary, what beginning and ending a frame
leave, and the units of a serve list. -/

namespace Sys2Proof.Proofs

open Sys2Proof.Machine Sys2Proof.Laws

/-! ## The unit header and its check (R49, R50) -/

@[simp] theorem length_toBE (n v : Nat) : (toBE n v).length = n := by simp [toBE]

/-- A unit header is six bytes and their check. -/
theorem unitHeader_check (len flow kp : Nat) (lf first urg : Bool) :
    ∃ v, unitHeader len flow kp lf first urg = toBE 6 v ++ toBE 2 (crc16 (toBE 6 v)) := ⟨_, rfl⟩

@[simp] theorem length_unitHeader (len flow kp : Nat) (lf first urg : Bool) : (unitHeader len flow kp lf first urg).length = 8 := by
  obtain ⟨v, h⟩ := unitHeader_check len flow kp lf first urg
  simp [h]

/-- One step of the register of R50: shifted, and XORed with the generator where the bit that leaves it differs from the one that comes. -/
theorem crcBitMsb_16 (x : Nat) (c : Bool) :
    crcBitMsb 16 0x1021 x c = (x * 2 % 2 ^ 16) ^^^ (if x.testBit 15 != c then 0x1021 else 0) := by
  have top : (x / 2 ^ 15 % 2 == 1) = x.testBit 15 := (bitOf_eq_testBit x 15 :)
  simp only [crcBitMsb, top]
  split
  · rfl
  · exact (Nat.xor_zero _).symm

/-- One more byte runs the register over its 8 bits, most significant first. -/
theorem crc16_append (bs : Bytes) (b : Byte) : crc16 (bs ++ [b]) =
    (List.range 8).foldl (fun x i => (x * 2 % 2 ^ 16) ^^^ (if x.testBit 15 != b.toNat.testBit (7 - i) then 0x1021 else 0)) (crc16 bs) := by
  simp only [crc16, crcMsb, List.foldl_append, List.foldl_cons, List.foldl_nil, byteBits, List.foldl_map, crcBitMsb_16]
  rfl

/-- Settles O60: the register bit by bit, the check's place in the header, and the worked values. -/
theorem unitHeaderCheck : Obligations.UnitHeaderCheck := by
  refine ⟨fun bs b => ⟨rfl, crc16_append bs b⟩, fun len flow kp lf first urg => ?_, by decide +kernel, by decide +kernel, by decide +kernel⟩
  obtain ⟨v, h⟩ := unitHeader_check len flow kp lf first urg
  rw [h, List.take_left' (length_toBE 6 v), List.drop_left' (length_toBE 6 v)]

/-! ## Staging and the frame boundary (R36, R41, R64, R65, R69) -/

section
variable {s e : State} {t : Nat} (he : s.endFrame t = e)
include he

/-- The lane goes to electrical idle where nothing is wanted of it (R65). -/
theorem frameBoundary_idle (h : e.lineWant t = 0) : s.frameBoundary t = e.goIdle t := by
  simp [State.frameBoundary, he, h]

/-- A lane whose device has become active in this tick stays idle (R461). -/
theorem frameBoundary_woken (h : e.lineWant t ≠ 0) (hw : (e.tx t).line = 0 ∧ (e.tx t).wakeAt = some e.tm.tickNo) :
    s.frameBoundary t = e.unstage t := by
  simp [State.frameBoundary, he, h, hw]

variable (hw : ¬ ((e.tx t).line = 0 ∧ (e.tx t).wakeAt = some e.tm.tickNo))
include hw

/-- In the mode for gap fill, and on leaving electrical idle, the lane sends gap fill (R65). -/
theorem frameBoundary_gap (h : e.lineWant t = 1 ∨ e.lineWant t = 2 ∧ (e.tx t).line = 0 ∧ (e.tx t).wakeAt = none) :
    s.frameBoundary t = e.goGap t := by
  have hb : ((e.tx t).line == 0 && (e.tx t).wakeAt == some e.tm.tickNo) = false := by simpa using hw
  rcases h with h | ⟨h, hl, ha⟩
  · simp [State.frameBoundary, he, h, hb]
  · simp [State.frameBoundary, he, h, hl, ha]

variable (h : e.lineWant t = 2) (hl : (e.tx t).line ≠ 0 ∨ (e.tx t).wakeAt.isSome = true)
include h hl

/-- A lane that sends frames goes on with the frame staged for this tick or an earlier one, else with gap fill (R64, R68). -/
theorem frameBoundary_frames : s.frameBoundary t = (e.tx t).staged.elim (e.goGap t) fun st =>
    if st.tick ≤ e.tm.m then e.beginFrame t e.tm.m st else e.goGap t := by
  have hb : ((e.tx t).line == 0 && (e.tx t).wakeAt == some e.tm.tickNo) = false := by simpa using hw
  have hg : ((e.tx t).line == 0 && (e.tx t).wakeAt.isNone) = false := by rcases hl with hl | hl <;> simp [hl]
  cases hs : (e.tx t).staged with
  | none => simp [State.frameBoundary, he, h, hb, hg, hs]
  | some st => simp [State.frameBoundary, he, h, hb, hg, hs]

end

/-- Leaving electrical idle starts the gap-fill sequence anew, with a training burst (R64, R65). -/
theorem goGap_eq (s : State) (t : Nat) : s.goGap t =
    let u := s.unstage t
    let y := u.tx t
    u.setTx t { y with
      line := 1, gap := true, serve := y.held ++ y.serve ++ y.next, held := [], next := [], burst := y.line == 0, wakeAt := none
      gapAt := if y.line = 0 then 0 else y.gapAt } := by
  simp only [State.goGap, beq_iff_eq]

/-- The lane's pattern generator stops where MODE leaves idle (R69). -/
theorem ttxCtl_eq (s : State) (t v : Nat) : s.ttxCtl t v =
    let r := s.plainWrite (Reg.TTX_CTL.at t) v
    if r.onFld Reg.TTX_CTL_MODE t = 0 then r else r.genOff (32 + t) := by
  simp only [State.ttxCtl, bne_iff_ne, ne_eq, ite_not]

/-- Settles O32, one lemma a case of the command. -/
theorem frameStagingAndTransmission : Obligations.FrameStagingAndTransmission := by
  intro s t hr ht
  have hm : t % 32 = t := Nat.mod_eq_of_lt ht
  have stage {cycle : Nat} {r : State} (h : (if !s.stages t then s else
      (s.stageFrame t s.nextM (s.inTime Ty.TTX t cycle) (s.inTime Ty.TTX t cycle)).complete Ty.TTX t cycle) = r) :
      Gives (.ttxFrameStage t cycle) s r :=
    Gives.of_live (fun s => if !s.stages (t % 32) then s else
      (s.stageFrame (t % 32) s.nextM (s.inTime Ty.TTX (t % 32) cycle) (s.inTime Ty.TTX (t % 32) cycle)).complete Ty.TTX (t % 32) cycle)
      hr rfl (by simpa only [hm] using h)
  have send {r : State} (h : s.frameBoundary t = r) : Gives (.talFrameTransmit t) s r :=
    Gives.of_live (State.frameBoundary · (t % 32)) hr rfl (by simpa only [hm] using h)
  have len {page : Nat} {v : Word} {r : State} (h : (if s.hasTree t then s.mirrored (State.cktLenWrite · t (page % 2) v.toNat) else s) = r) :
      Gives (.cktLenPgWrite t page v) s r :=
    Gives.of_live (fun s => if s.hasTree (t % 32) then s.mirrored (State.cktLenWrite · (t % 32) (page % 2) v.toNat) else s)
      hr rfl (by simpa only [hm] using h)
  refine ⟨fun cycle h => stage (by rw [h]; rfl), fun cycle h => stage (by rw [h]; rfl),
    ⟨fun h => ?_, fun h hw => ?_, fun h hw => ?_, fun h hw hl => ?_⟩,
    fun v => ?_, fun page v h => len (by rw [h]; rfl), fun page v hp h => ⟨fun ho ha => len ?_, fun ho ha => len ?_, fun ho => len ?_⟩⟩
  · exact send (frameBoundary_idle rfl h)
  · exact send (frameBoundary_woken rfl h hw)
  · exact send ((frameBoundary_gap rfl hw h).trans (goGap_eq _ t))
  · have go := frameBoundary_frames rfl hw h hl
    refine ⟨fun st hs => ⟨fun hb => send ?_, fun hb => send ?_⟩, fun hs => send ?_⟩
    · simp only [go, hs, Option.elim_some, hb, if_true]
    · simp only [go, hs, Option.elim_some, Nat.not_le.2 hb, if_false, goGap_eq]
    · simp only [go, hs, Option.elim_none, goGap_eq]
  · exact Gives.of_live (State.ttxCtl · (t % 32) v.toNat) hr rfl (by rw [hm]; exact ttxCtl_eq s t v.toNat)
  · rw [if_pos h, mirrored_open ho, Nat.mod_eq_of_lt hp]
    exact if_pos (beq_iff_eq.2 ha)
  · rw [if_pos h, mirrored_open ho, Nat.mod_eq_of_lt hp]
    exact if_neg (by simpa using ha)
  · rw [if_pos h, mirrored_standby ho]

/-! ## Units of a serve list (R53, R56, R57, R278) -/

section
variable {s : State} {t : Nat} {onDie : Bool} {ready : Option Nat}

/-- With no frame on the line no unit is placed. -/
theorem unitPlace_noFrame (h : (s.tx t).cur = none) : s.unitPlace t onDie ready = s := by
  simp only [State.unitPlace, h]

variable {st : Staged} {hd : Bytes} (hc : (s.tx t).cur = some (st, hd))
include hc

/-- With no room for a header and a byte no unit is placed. -/
theorem unitPlace_full (h : frameBytes - unitStart st - (s.tx t).units.length < 9) : s.unitPlace t onDie ready = s := by
  simp only [State.unitPlace, hc, h, if_true]

variable (hr : 9 ≤ frameBytes - unitStart st - (s.tx t).units.length)
include hr

/-- The unit in progress gets its next fragment first (R56). -/
theorem unitPlace_inProg {u : TxUnit} {l : List TxUnit} (hu : (s.tx t).urgNext = false) (h : (s.tx t).inProg = u :: l) :
    s.unitPlace t onDie ready =
      (s.resumeCtx (2 * (t / 8) + 1) t u.flow).sendUnit t u (frameBytes - unitStart st - (s.tx t).units.length - 8) ready := by
  simp only [State.unitPlace, hc, Nat.not_lt.2 hr, if_false, hu, h, List.head?_cons, Bool.false_eq_true]

variable (hn : (s.tx t).inProg = [])
include hn

/-- With nothing to place the urgent mark clears. -/
theorem unitPlace_nothing (h : (s.tx t).pick = none) : s.unitPlace t onDie ready = s.setTx t { s.tx t with urgNext := false } := by
  simp only [State.unitPlace, hc, Nat.not_lt.2 hr, if_false, hn, List.head?_nil, ite_self, h]

/-- A frame whose cells are not on die is late (R278). -/
theorem unitPlace_pageLate {e : ServeE} (h : (s.tx t).pick = some e) : s.unitPlace t false ready =
    ((s.setTx t { s.tx t with serve := dropOne e (s.tx t).serve }).count Reg.BUF_PAGE_LATE 0).injFin e.pkt 2 none := by
  simp only [State.unitPlace, hc, Nat.not_lt.2 hr, if_false, hn, List.head?_nil, ite_self, h, Bool.not_false, if_true]

end

/-- A unit above the greatest length is counted and its frame is lost (R53). -/
theorem beginUnit_oversize (s : State) (t n : Nat) {e : ServeE} (h : 16383 < 4 + e.pkt.data.length + 16) :
    s.beginUnit t n e = ((s.count Reg.TTX_UNIT_OVERSIZE t).injFin e.pkt 2 none, none) := if_pos h

@[simp] theorem tx_setTx_self (s : State) (t : Nat) (x : TtxS) : (s.setTx t x).tx t = x := Tbl.get_set_self _ _ _ _

theorem tx_setTx_ne (s : State) {t t' : Nat} (h : t' ≠ t) (x : TtxS) : (s.setTx t x).tx t' = s.tx t' := Tbl.get_set_ne _ _ _ h _

/-- A fragment takes a header and its payload bytes of the unit stream, and changes no register. -/
theorem placeFrag_takes (s : State) (t : Nat) (u : TxUnit) {len : Nat} (h : len ≤ u.rest.length) :
    let r := s.placeFrag t u len
    (r.1.tx t).units.length = (s.tx t).units.length + 8 + len ∧ r.2.rest = u.rest.drop len ∧ r.2.sent = u.sent + len ∧ r.1.regs = s.regs := by
  refine ⟨?_, rfl, rfl, rfl⟩
  simp only [State.placeFrag, tx_setTx_self, List.length_append, length_unitHeader, List.length_take, Nat.min_eq_left h]

/-- Settles O34, one lemma a case of the command. -/
theorem unitsOfAServeList : Obligations.UnitsOfAServeList := by
  refine ⟨fun s t onDie ready hr ht => ?_, fun s t n e => beginUnit_oversize s t n, length_unitHeader, fun s t u len => placeFrag_takes s t u⟩
  have place {r : State} (h : s.unitPlace t onDie ready = r) : Gives (.ttxUnitPlace t onDie ready) s r :=
    Gives.of_live (State.unitPlace · (t % 32) onDie ready) hr rfl (by simpa only [Nat.mod_eq_of_lt ht] using h)
  refine ⟨fun h => place (unitPlace_noFrame h), fun st hd hc => ⟨fun h => place (unitPlace_full hc h), fun u l hroom hu h => ?_,
    fun hroom hn h => ?_, fun e hroom hn h hd => ?_⟩⟩
  · exact place (unitPlace_inProg hc hroom hu h)
  · exact place (unitPlace_nothing hc hroom hn h)
  · subst hd
    exact place (unitPlace_pageLate hc hroom hn h)

/-! ## What the rest of the block leaves alone of the transmitters

The messages and the circuit section of a frame reach the Almanac, the pools, the mate and the Binnacle. None of these writes a register of
a TTX page, or a transmitter but for its units in progress. -/

/-- A transmitter but for its units in progress. -/
def noUnits (x : TtxS) : TtxS := { x with inProg := [] }

/-- The transmitters but for their units in progress, and the registers of their pages. -/
def txPages (s : State) : (Nat → TtxS) × (Nat → Word) := (fun t => noUnits (s.tx t), fun k => if keyTy k = 0x10 then s.rd k else 0)

/-- A register some bytes on from one. -/
theorem at_add (r : RegId) (i d : Nat) : r.at i + d = regKey r.ty i (r.off + d) := by
  simp only [RegId.at, regKey, Nat.add_assoc]

section
variable {s t : State}

theorem tx_of_txPages (h : txPages t = txPages s) (n : Nat) : noUnits (t.tx n) = noUnits (s.tx n) :=
  congrFun (congrArg Prod.fst h) n

theorem rd_of_txPages (h : txPages t = txPages s) {k : Nat} (hk : keyTy k = 0x10) : t.rd k = s.rd k := by
  simpa only [txPages, hk, if_true] using congrFun (congrArg Prod.snd h) k

theorem reg64_of_txPages (h : txPages t = txPages s) {q : RegId} (hq : q.ty = 0x10) (ho : q.off + 4 < 4096) {i : Nat} (hi : i < 256) :
    t.reg64 q i = s.reg64 q i := by
  have page {off : Nat} (ho : off < 4096) : keyTy (regKey q.ty i off) = 0x10 := by rw [keyTy_regKey hi ho, hq]
  rw [State.reg64, State.reg64, at_add, rd_of_txPages h (page ho), rd_of_txPages (k := q.at i) h (page (by omega))]

end

/-- A register of a page that is no transmitter's. -/
structure Foreign (r : RegId) (i : Nat) : Prop where
  ty : r.ty ≠ 0x10
  inst : i < 256
  off : r.off < 4000

/-- What leaves a view of the state alone leaves it alone in a fold. -/
theorem foldl_keeps {α β : Type} {v : State → β} {f : State → α → State} (h : ∀ s a, v (f s a) = v s) (l : List α) (s : State) :
    v (l.foldl f s) = v s := by
  induction l generalizing s with
  | nil => rfl
  | cons a l ih => exact (ih (f s a)).trans (h s a)

/-! ### Registers and counters -/

section
variable (s : State)

theorem txPages_wr {k : Nat} (h : keyTy k ≠ 0x10) (v : Word) : txPages (s.wr k v) = txPages s := by
  have e (j : Nat) : (if keyTy j = 0x10 then (s.wr k v).rd j else 0) = if keyTy j = 0x10 then s.rd j else 0 := by
    by_cases hj : keyTy j = 0x10
    · rw [rd_wr_ne s (fun e => h (by rw [← e, hj]))]
    · simp only [hj, if_false]
  simp only [txPages, e]
  rfl

theorem txPages_wr_page {ty i off : Nat} (ht : ty ≠ 0x10) (hi : i < 256) (ho : off < 4096) (v : Word) :
    txPages (s.wr (regKey ty i off) v) = txPages s :=
  txPages_wr s (by rwa [keyTy_regKey hi ho]) v

variable {r : RegId} {i : Nat} (h : Foreign r i)
include h

theorem txPages_setReg (v : Nat) : txPages (s.setReg r i v) = txPages s := by
  obtain ⟨ht, hi, ho⟩ := h
  exact txPages_wr_page s ht hi (by omega) _

theorem txPages_setReg64 (v : Nat) : txPages (s.setReg64 r i v) = txPages s := by
  obtain ⟨ht, hi, ho⟩ := h
  rw [State.setReg64, at_add]
  exact (txPages_wr_page _ ht hi (by omega) _).trans (txPages_wr_page s ht hi (by omega) _)

omit h in
theorem txPages_intSet {ty : Nat} (ht : ty ≠ 0x10) (hi : i < 256) (b : Nat) : txPages (s.intSet ty i b) = txPages s :=
  txPages_setReg s (r := Reg.INT_STS ty) ⟨ht, hi, Nat.le_of_ble_eq_true rfl⟩ _

theorem txPages_intOpt (o : Option Nat) : txPages (s.intOpt r.ty i o) = txPages s := by
  cases o with
  | none => rfl
  | some b => exact txPages_intSet s h.ty h.inst b

theorem txPages_countN (n : Nat) : txPages (s.countN r i n) = txPages s := by
  unfold State.countN
  split
  · rfl
  · exact (txPages_intOpt _ h _).trans (txPages_setReg s h _)

theorem txPages_count : txPages (s.count r i) = txPages s := txPages_countN s h 1

theorem txPages_countN64 (n : Nat) : txPages (s.countN64 r i n) = txPages s := by
  unfold State.countN64
  split
  · rfl
  · exact (txPages_intOpt _ h _).trans (txPages_setReg64 s h _)

theorem txPages_count64 : txPages (s.count64 r i) = txPages s := txPages_countN64 s h 1

omit h in
theorem txPages_typeBit (h : Foreign r 0) {ty : Nat} (hty : ty < 256) : txPages (s.typeBit r ty) = txPages s := by
  obtain ⟨ht, hi, ho⟩ := h
  rw [State.typeBit, State.setRegI, at_add]
  exact txPages_wr_page s ht hi (by omega) _

omit h in
theorem txPages_setFld {f : FldId} (h : Foreign ⟨f.ty, f.off⟩ i) (v : Nat) : txPages (s.setFld f i v) = txPages s := by
  obtain ⟨ht, hi, ho⟩ := h
  exact txPages_wr_page s ht hi (Nat.lt_trans ho (by decide)) _

end

/-! ### Events (R435 to R446): an event of another page writes that page, the Binnacle's registers and what a halt or a ZEROISE clears -/

theorem txPages_bin (s : State) (x : BinS) : txPages { s with bin := x } = txPages s := (rfl)
theorem txPages_halted (s : State) (b : Bool) : txPages { s with halted := b } = txPages s := (rfl)

theorem txPages_logPut (s : State) (e : Bytes) : txPages (s.logPut e) = txPages s := by
  rcases logPut_cases s e with ⟨_, h⟩ | ⟨_, h⟩ <;> rw [h]
  · rfl
  · exact txPages_count s ⟨by decide, by decide, by decide⟩

theorem txPages_lateAdd (s : State) (k w lo hi : Nat) : txPages (s.lateAdd k w lo hi) = txPages s := txPages_bin _ _

theorem txPages_zeroise (s : State) : txPages s.zeroise = txPages s := by
  unfold State.zeroise
  dsimp only
  rw [txPages_countN _ ⟨by decide, by decide, by decide⟩, txPages_count _ ⟨by decide, by decide, by decide⟩]
  rfl

theorem txPages_halt (s : State) (d : Det) (c : EClass) (e : Bool) : txPages (s.halt d c e) = txPages s := by
  unfold State.halt
  split
  · rfl
  · simp (disch := exact ⟨by decide, by decide, by decide⟩) only [txPages_setFld, txPages_halted, txPages_countN, State.log,
      txPages_logPut, txPages_setReg64, txPages_setReg]

theorem txPages_escalate (s : State) (d : Det) (c : EClass) : txPages (s.escalate d c).1 = txPages s := by
  unfold State.escalate
  dsimp only
  split
  · rfl
  · split
    · rfl
    · split <;> exact txPages_bin _ _

/-- The type and the number of a page that is present are below 256. -/
theorem present_lt {s : State} {ty inst : Nat} (h : s.present ty inst = true) : ty < 256 ∧ inst < 256 := by
  have hi : inst < fullInstances ty := by
    simp only [State.present, presentIn, Bool.and_eq_true, decide_eq_true_eq] at h
    exact h.1
  unfold fullInstances at hi
  split at hi <;> omega

section
variable {d : Det} (ht : d.ty ≠ 0x10)
include ht

theorem txPages_capture (s : State) (hi : d.inst < 256) (c : EClass) (e : Bool) : txPages (s.capture d c e) = txPages s := by
  have own (s : State) (off v : Nat) (ho : off < 4000) : txPages (s.setReg ⟨d.ty, off⟩ d.inst v) = txPages s := txPages_setReg s ⟨ht, hi, ho⟩ v
  unfold State.capture
  dsimp only
  split
  · exact (((own _ _ _ (by decide)).trans (own _ _ _ (by decide))).trans (own _ _ _ (by decide))).trans (own _ _ _ (by decide))
  · split
    · split
      · exact own _ _ _ (by decide)
      · rfl
    · exact (txPages_lateAdd _ _ _ _ _).trans (own _ _ _ (by decide))

/-- The Binnacle's record of an event of a page that is no transmitter's. -/
theorem txPages_record (s : State) (c : EClass) : txPages (s.record d c) = txPages s := by
  unfold State.record
  split
  · rfl
  · rename_i hp
    obtain ⟨hty, hi⟩ := present_lt (by simpa using hp : s.present d.ty d.inst = true)
    rw [← txPages_escalate s d c]
    generalize s.escalate d c = r
    obtain ⟨s, c, esc⟩ := r
    have bit {r : RegId} (h : Foreign r 0) (s : State) : txPages (s.typeBit r d.ty) = txPages s := txPages_typeBit s h hty
    have flag (s : State) (b : Nat) : txPages (s.intSet Ty.BIN 0 b) = txPages s := txPages_intSet s (by decide) (by decide) b
    have onBin (s : State) {r : RegId} (h : Foreign r 0) (p : Bool) : txPages (if p then s.count r 0 else s) = txPages s := by
      cases p
      · rfl
      · exact txPages_count s h
    dsimp -zeta only
    extract_lets was s1 s2 s3 s4 b4 s5 s6 s7 s8 s9 b9 s9' s10 s11
    have h1 : txPages s1 = txPages s := txPages_capture ht s hi c esc
    have h2 : txPages s2 = txPages s1 := txPages_count s1 ⟨ht, hi, Nat.le_of_ble_eq_true rfl⟩
    have h3 : txPages s3 = txPages s2 := (flag _ 1).trans (bit ⟨by decide, by decide, by decide⟩ _)
    have h4 : txPages s4 = txPages s3 := by
      simp (disch := exact ⟨by decide, by decide, by decide⟩) only [s4, apply_ite txPages, txPages_lateAdd, txPages_setReg64, txPages_setReg,
        ite_self]
    have h5 : txPages s5 = txPages s4 := by
      cases c <;> exact txPages_count _ ⟨by decide, by decide, by decide⟩
    have h6 : txPages s6 = txPages s5 := onBin s5 ⟨by decide, by decide, by decide⟩ _
    have h7 : txPages s7 = txPages s6 := onBin s6 ⟨by decide, by decide, by decide⟩ _
    have h8 : txPages s8 = txPages s7 := onBin s7 ⟨by decide, by decide, by decide⟩ _
    have h9 : txPages s9 = txPages s8 := by
      cases c with
      | notice | corrected => rfl
      | severe | fatal => exact (flag _ 0).trans (bit ⟨by decide, by decide, by decide⟩ _)
    have h10 : txPages s10 = txPages s9 := by
      cases c with
      | notice | corrected | fatal => rfl
      | severe =>
        have hs : txPages s9' = txPages s9 := txPages_bin _ _
        simp only [s10, apply_ite txPages, State.log, txPages_logPut, hs, ite_self]
    rw [← h1, ← h2, ← h3, ← h4, ← h5, ← h6, ← h7, ← h8, ← h9, ← h10]
    cases c with
    | notice | corrected | severe => rfl
    | fatal =>
      have h11 : txPages s11 = txPages s10 := txPages_halt s10 _ _ _
      simp only [apply_ite txPages, txPages_zeroise, h11, ite_self]

theorem txPages_event (s : State) (c : EClass) : txPages (s.event d c) = txPages s := by
  have hb (s : State) (p v : Nat) (o : Option Nat) : txPages (s.record ⟨Ty.BIN, 0, 2, p, v, false, o⟩ .notice) = txPages s :=
    txPages_record (d := ⟨Ty.BIN, 0, 2, p, v, false, o⟩) (Nat.ne_of_beq_eq_false rfl) s .notice
  simp only [State.event, apply_ite txPages, ite_self, txPages_record ht, txPages_bin, hb]

end

theorem txPages_raise (s : State) {ty : Nat} (ht : ty ≠ 0x10) (inst src lo hi : Nat) : txPages (s.raise ty inst src lo hi) = txPages s := by
  unfold State.raise
  split
  · exact txPages_event ht _ _
  · rfl

theorem txPages_raiseInv (s : State) {ty : Nat} (ht : ty ≠ 0x10) (inst src elem unit : Nat) :
    txPages (s.raiseInv ty inst src elem unit) = txPages s :=
  txPages_raise _ ht _ _ _ _

/-! ### The mate, messages and event records -/

theorem txPages_setMirror (s : State) (m : Nat) : txPages (s.setMirror m) = txPages s := by
  have flag (s : State) (b : Nat) : txPages (s.intSet Ty.PAIR 0 b) = txPages s := txPages_intSet s (by decide) (by decide) b
  have pair (s : State) (x : PairS) : txPages { s with pair := x } = txPages s := (rfl)
  simp (disch := exact ⟨by decide, by decide, by decide⟩) only [State.setMirror, State.setFlag, apply_ite txPages, txPages_setFld, flag,
    txPages_count, pair, ite_self]

theorem txPages_mirrorStale (s : State) : txPages s.mirrorStale = txPages s := by
  simp only [State.mirrorStale, apply_ite txPages, txPages_setMirror, ite_self]

theorem txPages_mirror (s : State) (m : Nat) (l : List Nat) (d : List Bytes) : txPages (s.mirror m l d) = txPages s := by
  have pair (s : State) (x : PairS) : txPages { s with pair := x } = txPages s := (rfl)
  have inv (s : State) (a b : Nat) : txPages (s.raiseInv Ty.PAIR 0 2 a b) = txPages s := txPages_raiseInv s (by decide) _ _ _ _
  simp (disch := exact ⟨by decide, by decide, by decide⟩) only [State.mirror, apply_ite txPages, txPages_mirrorStale, txPages_count,
    txPages_count64, pair, inv, ite_self]

theorem txPages_mirrorAx (s : State) (ax : Nat) : txPages (s.mirrorAx ax) = txPages s := by
  simp only [State.mirrorAx, apply_ite txPages, txPages_mirror, ite_self]

theorem txPages_name (s : State) (i j n : Nat) : txPages (s.name .phase i j n) = txPages s := by
  have tm (s : State) (x : TimeS) : txPages { s with tm := x } = txPages s := (rfl)
  simp (disch := exact ⟨by decide, by decide, by decide⟩) only [State.name, State.countLate, NKind.late, Named.page, tm, apply_ite txPages,
    txPages_count, ite_self]

theorem txPages_setSwitch (s : State) (ax q n : Nat) : txPages (s.setSwitch ax q n) = txPages s := by
  simp only [State.setSwitch, txPages_mirrorAx, txPages_name]
  rfl

theorem txPages_dmaWrite (s : State) (w off : Nat) (d : Bytes) : txPages (s.dmaWrite w off d).1 = txPages s := by
  rcases dmaWrite_cases s w off d with ⟨_, h⟩ | ⟨_, h⟩ <;> rw [h]
  · rfl
  · exact txPages_count s ⟨by decide, by decide, by decide⟩

theorem txPages_setRing (s : State) (n : Nat) (x : Ring) : txPages (s.setRing n x) = txPages s := (rfl)

theorem txPages_ringFault (s : State) (n : Nat) : txPages (s.ringFault n) = txPages s := by
  simp (disch := exact ⟨by decide, by decide, by decide⟩) only [State.ringFault, txPages_setRing, txPages_countN, txPages_count]

theorem txPages_ringPut (s : State) (n : Nat) (item : Bytes) : txPages (s.ringPut n item).1 = txPages s := by
  unfold State.ringPut
  dsimp only
  split
  · exact (txPages_setRing _ _ _).trans (txPages_dmaWrite _ _ _ _)
  · exact (txPages_ringFault _ _).trans (txPages_dmaWrite _ _ _ _)

theorem txPages_postEvent (s : State) (n ty inst : Nat) (item : Bytes) : txPages (s.postEvent n ty inst item).1 = txPages s := by
  unfold State.postEvent
  dsimp only
  split
  · rfl
  · split
    · rfl
    · split
      · exact txPages_ringPut _ _ _
      · split
        · rfl
        · split
          · exact (txPages_ringPut _ _ _).trans (txPages_dmaWrite _ _ _ _)
          · exact txPages_dmaWrite _ _ _ _

theorem txPages_almEvent (s : State) (code pos ax n : Nat) : txPages (s.almEvent code pos ax n) = txPages s := by
  simp (disch := exact ⟨by decide, by decide, by decide⟩) only [State.almEvent, apply_ite txPages, txPages_count, txPages_postEvent, ite_self]

theorem txPages_tellKa (s : State) (ax n : Nat) : txPages (s.tellKa ax n) = txPages s := (rfl)

theorem txPages_warnTrunk (s : State) (ax p : Nat) : txPages (s.warnTrunk ax p) = txPages s := by
  have mail (s : State) (c : Nat) (b : Bytes) : txPages (s.stageMsg c 0x40 Ty.ALM 0 b) = txPages s := (rfl)
  unfold State.warnTrunk
  split
  · rfl
  · exact foldl_keeps (fun s c => by simp only [apply_ite txPages, mail, ite_self]) _ s

/-! ### The pools and their cores (R212 to R215) -/

theorem txPages_setPool (s : State) (i : Nat) (c : CiphS) : txPages (s.setPool i c) = txPages s := (rfl)
theorem txPages_setCore (s : State) (i c : Nat) (x : CoreS) : txPages (s.setCore i c x) = txPages s := (rfl)
theorem txPages_setAssoc (s : State) (ax : Nat) (a : Assoc) : txPages (s.setAssoc ax a) = txPages s := (rfl)
theorem txPages_alm (s : State) (x : AlmS) : txPages { s with alm := x } = txPages s := (rfl)
theorem txPages_touch (s : State) (sl ax : Nat) : txPages (s.touch sl ax) = txPages s := (rfl)

/-- A change of the units in progress alone. -/
theorem txPages_setInProg (s : State) (t : Nat) (l : List TxUnit) : txPages (s.setTx t { s.tx t with inProg := l }) = txPages s := by
  have e (n : Nat) : noUnits ((s.setTx t { s.tx t with inProg := l }).tx n) = noUnits (s.tx n) := by
    by_cases h : n = t
    · rw [h, tx_setTx_self]
      rfl
    · rw [tx_setTx_ne s h]
  simp only [txPages, e, setTx_rd]

section
variable {i : Nat} (hi : i < 256)
include hi

theorem txPages_abandon (s : State) (j : CoreJob) : txPages (s.abandon i j) = txPages s := by
  unfold State.abandon
  dsimp only
  split
  · exact txPages_count s ⟨by decide, hi, by decide⟩
  · exact (txPages_setInProg _ _ _).trans (txPages_count s ⟨by decide, hi, by decide⟩)

theorem txPages_parkCtx (s : State) (j : CoreJob) : txPages (s.parkCtx i j) = txPages s := by
  have inv (s : State) (a b : Nat) : txPages (s.raiseInv Ty.CIPH i 3 a b) = txPages s := txPages_raiseInv s (by decide) _ _ _ _
  simp (disch := exact ⟨by decide, hi, by decide⟩) only [State.parkCtx, apply_ite txPages, txPages_abandon hi, inv, txPages_count,
    txPages_setPool, ite_self]

theorem txPages_roomAt (s : State) (c : Nat) : txPages (s.roomAt i c) = txPages s := by
  unfold State.roomAt
  dsimp only
  split
  · rfl
  · split
    · exact (txPages_parkCtx hi _ _).trans (txPages_setCore _ _ _ _)
    · rfl

theorem txPages_giveUrgent (s : State) (c : Nat) (j : CoreJob) : txPages (s.giveUrgent i c j) = txPages s := by
  unfold State.giveUrgent
  extract_lets s1 x
  have h1 : txPages s1 = txPages s := by
    simp only [s1]
    split
    · simp only [apply_ite txPages, txPages_roomAt hi, ite_self]
    · rfl
  rw [← h1]
  split
  · exact txPages_setCore _ _ _ _
  · simp (disch := exact ⟨by decide, hi, by decide⟩) only [apply_ite txPages, txPages_count, txPages_setCore, ite_self]

theorem txPages_runCore (s : State) (j : CoreJob) : txPages (s.runCore i j) = txPages s := by
  unfold State.runCore
  extract_lets en free movable first c
  clear_value c
  split
  · split
    · rfl
    · exact txPages_setCore _ _ _ _
  · split
    · rfl
    · exact txPages_giveUrgent hi _ _ _

omit hi in
theorem txPages_invoke (s : State) (ax p : Nat) : txPages (s.invoke ax p) = txPages s := by
  have pair (s : State) (x : PairS) : txPages { s with pair := x } = txPages s := (rfl)
  unfold State.invoke
  dsimp only
  split
  · rfl
  · simp (disch := exact ⟨by decide, by decide, by decide⟩) only [apply_ite txPages, txPages_tellKa, txPages_almEvent, txPages_count,
      txPages_warnTrunk, pair, txPages_setAssoc, ite_self]

theorem txPages_runItem (s : State) (ax p : Nat) (k : CKind) (iv aad d : Bytes) (u : Bool) (w : Option (Nat × Nat)) :
    txPages (s.runItem i ax p k iv aad d u w) = txPages s := by
  simp (disch := exact ⟨by decide, hi, by decide⟩) only [State.runItem, txPages_touch, txPages_runCore hi, txPages_alm, txPages_countN64,
    txPages_count64, txPages_invoke]

theorem txPages_overrunOnce (s : State) (src : Nat) : txPages (s.overrunOnce Ty.CIPH i src) = txPages s := by
  have flag (s : State) (b : Nat) : txPages (s.intSet Ty.CIPH i b) = txPages s := txPages_intSet s (by decide) hi b
  have ev (s : State) (a : Nat) : txPages (s.raise Ty.CIPH i a 0 0) = txPages s := txPages_raise s (by decide) _ _ _ _
  simp (disch := exact ⟨by decide, hi, by decide⟩) only [State.overrunOnce, ev, flag, txPages_setReg64, txPages_count]

theorem txPages_cipherInv {s u : State} {ax : Nat} (h : s.cipherInv i ax = some u) : txPages u = txPages s := by
  have hot (s : State) (n : Nat) (l : List Hot) : txPages (s.setHot n l) = txPages s := (rfl)
  unfold State.cipherInv at h
  split_ifs at h <;> cases h
  · exact txPages_overrunOnce hi _ _
  · rfl
  · exact (txPages_count _ ⟨by decide, hi, by decide⟩).trans ((hot _ _ _).trans (txPages_raiseInv s (by decide) _ _ _ _))
  · exact txPages_raise s (by decide) _ _ _ _
  · exact txPages_raise s (by decide) _ _ _ _

theorem txPages_countVerdict (s : State) (v : Verdict) : txPages (s.countVerdict i v) = txPages s := by
  cases v with
  | ok p => rfl
  | noKey | stopped | refused => exact txPages_count s ⟨by decide, hi, by decide⟩

theorem txPages_hold (s : State) (ax n : Nat) (w : Work) : txPages (s.hold i ax n w) = txPages s := by
  have load (s : State) : txPages (s.count Reg.ALM_DEMAND_LOADS 0) = txPages s := txPages_count s ⟨by decide, by decide, by decide⟩
  simp (disch := exact ⟨by decide, hi, by decide⟩) only [State.hold, apply_ite txPages, txPages_setPool, load, txPages_count, ite_self]

end

/-! ### The sections of a frame (R42 to R48) -/

/-- A keystream writes no transmitter. -/
theorem txPages_keystream (s : State) {t : Nat} (ht : t < 32) (n : Nat) (sec : List (Byte × Option Nat)) (ax : Nat) :
    txPages (s.keystream t n sec ax).1 = txPages s := by
  have hi : 2 * (t / 8) + 1 < 256 := by omega
  unfold State.keystream
  dsimp only
  split
  · split
    · simp only [State.streamHold, apply_ite txPages, txPages_hold hi, ite_self]
    · split
      · rename_i u h
        exact txPages_cipherInv hi h
      · exact txPages_runItem hi _ _ _ _ _ _ _ _ _
  · exact txPages_countVerdict hi _ _

theorem txPages_circuitSection (s : State) {t : Nat} (ht : t < 32) (n : Nat) (l : List (Byte × Option Nat × Bool)) :
    txPages (s.circuitSection t n l).1 = txPages s := by
  unfold State.circuitSection
  dsimp only
  generalize hsec : (l.map fun x => (x.1, x.2.1)) = sec
  generalize (sec.filterMap fun x => x.2).eraseDups = owners
  clear hsec
  induction owners generalizing s sec with
  | nil => rfl
  | cons ax owners ih => exact (ih _ _).trans (txPages_keystream s ht n sec ax)

/-- A message that a frame carries changes terminals, the Sextant and the key agent, no transmitter. -/
theorem txPages_carried (s : State) (t n : Nat) (m : CtlMsg) : txPages (s.carried t n m) = txPages s := by
  have term (s : State) (ax : Nat) (x : Term) : txPages (s.setTerm ax x) = txPages s := (rfl)
  have kt (s : State) (ax : Nat) (x : KaTerm) : txPages (s.setKt ax x) = txPages s := (rfl)
  unfold State.carried
  dsimp only
  split
  · simp only [apply_ite txPages, term, ite_self]
  · simp only [apply_ite txPages, term, ite_self]
  · rfl
  · simp only [apply_ite txPages, State.kaMirror, State.putTerm, txPages_mirror, term, kt, ite_self]
  · split
    · simp only [apply_ite txPages, txPages_setSwitch, State.kaMirror, txPages_mirror, kt, ite_self]
    · rfl
  · split <;> rfl
  · rfl

/-! The transmitters stand where a register is written. The forms `(rfl)` keep `simp` from using them as definitional steps. -/

section
variable (s : State) (i m : Nat)

theorem tx_setReg (r : RegId) (v : Nat) : (s.setReg r i v).tx m = s.tx m := (rfl)
theorem tx_setReg64 (r : RegId) (v : Nat) : (s.setReg64 r i v).tx m = s.tx m := (rfl)
theorem tx_setFld (f : FldId) (v : Nat) : (s.setFld f i v).tx m = s.tx m := (rfl)
theorem tx_countN (r : RegId) (n : Nat) : (s.countN r i n).tx m = s.tx m := by rw [State.tx, countN_ttx, State.tx]
theorem tx_count (r : RegId) : (s.count r i).tx m = s.tx m := tx_countN s i m r 1
theorem tx_countN64 (r : RegId) (n : Nat) : (s.countN64 r i n).tx m = s.tx m := by rw [State.tx, countN64_ttx, State.tx]
theorem tx_count64 (r : RegId) : (s.count64 r i).tx m = s.tx m := tx_countN64 s i m r 1

end

/-! ## Beginning a frame (R36, R37, R56) -/

/-- A register pair `q` of a page type that a write at an offset leaves alone, and the flag of a counter (INT_STS) too. -/
structure Apart (q : RegId) (ty off : Nat) : Prop where
  ty : q.ty = ty
  lo : q.off ≠ off
  hi : q.off + 4 ≠ off
  sts : q.off ≠ 0x14
  stsHi : q.off + 4 ≠ 0x14

section
variable {q : RegId} {i : Nat} (s : State)

theorem reg64_wr_ne {k : Nat} (hl : q.at i ≠ k) (hh : q.at i + 4 ≠ k) (v : Word) : (s.wr k v).reg64 q i = s.reg64 q i := by
  simp only [State.reg64, rd_wr_ne s hl, rd_wr_ne s hh]

theorem reg64_wr {ty off : Nat} (h : Apart q ty off) (v : Word) : (s.wr (regKey ty i off) v).reg64 q i = s.reg64 q i := by
  obtain ⟨ht, hl, hh, -, -⟩ := h
  refine reg64_wr_ne s ?_ ?_ v <;> simp only [RegId.at, regKey, ht] <;> omega

theorem reg64_setReg {r : RegId} (h : Apart q r.ty r.off) (v : Nat) : (s.setReg r i v).reg64 q i = s.reg64 q i := reg64_wr s h _

theorem reg64_setFld {f : FldId} (h : Apart q f.ty f.off) (v : Nat) : (s.setFld f i v).reg64 q i = s.reg64 q i := reg64_wr s h _

theorem reg64_setReg64_self (v : Nat) : (s.setReg64 q i v).reg64 q i = v % 2 ^ 64 := by
  have hl : q.at i ≠ q.at i + 4 := by omega
  simp only [State.setReg64, State.reg64, rd_wr_self, rd_wr_ne _ hl, BitVec.toNat_ofNat]
  omega

theorem reg64_setReg64 {r : RegId} (h : Apart q r.ty r.off) (h4 : Apart q r.ty (r.off + 4)) (v : Nat) :
    (s.setReg64 r i v).reg64 q i = s.reg64 q i := by
  rw [State.setReg64, at_add]
  exact (reg64_wr _ h4 _).trans (reg64_wr s h _)

/-- A counter's flag is set in INT_STS. -/
theorem reg64_intOpt {ty off : Nat} (h : Apart q ty off) (o : Option Nat) : (s.intOpt ty i o).reg64 q i = s.reg64 q i := by
  cases o with
  | none => rfl
  | some b => exact reg64_wr s ⟨h.ty, h.sts, h.stsHi, h.sts, h.stsHi⟩ _

theorem reg64_count64_self (h : Apart q q.ty 0x14) : (s.count64 q i).reg64 q i = (s.reg64 q i + 1) % 2 ^ 64 := by
  refine (reg64_intOpt _ h _).trans ?_
  rw [reg64_setReg64_self, Nat.mod_mod]

theorem reg64_countN {r : RegId} (h : Apart q r.ty r.off) (n : Nat) : (s.countN r i n).reg64 q i = s.reg64 q i := by
  unfold State.countN
  split
  · rfl
  · exact (reg64_intOpt _ h _).trans (reg64_setReg s h _)

theorem reg64_count64 {r : RegId} (h : Apart q r.ty r.off) (h4 : Apart q r.ty (r.off + 4)) :
    (s.count64 r i).reg64 q i = s.reg64 q i :=
  (reg64_intOpt _ h _).trans (reg64_setReg64 s h h4 _)

end

/-- What a transmitter holds once frame n is on the line: the frames held, carried and newly listed are to be sent, in this order (R56). -/
def begun (x : TtxS) (n : Nat) (st : Staged) (h : Bytes) (sym : List Nat) : TtxS :=
  { x with cur := some (st, h), staged := none, units := [], serve := x.held ++ x.serve ++ x.next, next := [], held := [], last := some n
           gap := false, line := 2, gapAt := 0, wakeAt := none, symbols := sym }

/-- What the page of a transmitter records of a frame that begins (R69). -/
def recordFrame (s : State) (t n : Nat) (st : Staged) (gap skip : Bool) (flags : Nat) : State :=
  let s := s.setReg64 Reg.TTX_LAST_TICK_LO t n
  let s := s.setReg Reg.TTX_LAST_SECTIONS t (st.entries.length % 2 ^ 11 + (st.msgs.length + 1) % 2 ^ 9 * 2 ^ 11 + flags / 16 * 2 ^ 20)
  let s := s.setReg Reg.TTX_LAST_UNIT_START t (unitStart st)
  let s := s.setFld Reg.TTX_STS_CKT_PAGE t st.page
  let s := s.count64 Reg.TTX_FRAMES_SENT_LO t
  let s := if gap then s.count Reg.TTX_GAP_FRAMES t else s
  let s := if skip then s.count Reg.TTX_SKIP_FRAMES t else s
  if st.fixedOnly then s.count Reg.TTX_FIXED_ONLY_FRAMES t else s

/-- A staged frame as it is sent: its messages with the fields that name frame n. -/
def sentAs (s : State) (t n : Nat) (st : Staged) : Staged := { st with msgs := st.msgs.map (s.stamp t n) }

/-- The state once a frame's messages and circuit section have had their effects. -/
def sectionsSent (s : State) (t n : Nat) (st : Staged) : State :=
  ((st.msgs.foldl (fun s m => s.carried t n m) s).circuitSection t n st.ckt).1

/-- A frame begins in three parts: its sections, the transmitter, the page's record. -/
theorem beginFrame_parts (s : State) (t n : Nat) (st : Staged) :
    let p := s.fitFrame t n st
    let sent := sentAs p.1 t n p.2
    let u := sectionsSent p.1 t n sent
    ∃ h sym gap skip flags,
      s.beginFrame t n st = recordFrame (u.setTx t (begun (u.tx t) n sent h sym)) t n sent gap skip flags := by
  unfold State.beginFrame
  exact ⟨_, _, _, _, _, rfl⟩

section
variable (s : State) {t : Nat} (n : Nat) (st : Staged)

theorem txPages_sectionsSent (ht : t < 32) : txPages (sectionsSent s t n st) = txPages s :=
  (txPages_circuitSection _ ht _ _).trans (foldl_keeps (fun s m => txPages_carried s t n m) _ s)

theorem recordFrame_tx (gap skip : Bool) (flags m : Nat) : (recordFrame s t n st gap skip flags).tx m = s.tx m := by
  simp only [recordFrame, apply_ite (State.tx · m), tx_count, tx_count64, tx_setFld, tx_setReg, tx_setReg64, ite_self]

theorem recordFrame_lastTick (hn : n < 2 ^ 48) (gap skip : Bool) (flags : Nat) :
    (recordFrame s t n st gap skip flags).reg64 Reg.TTX_LAST_TICK_LO t = n := by
  simp (disch := exact ⟨rfl, by decide, by decide, by decide, by decide⟩) only [recordFrame,
    apply_ite (State.reg64 · Reg.TTX_LAST_TICK_LO t), State.count, reg64_countN, reg64_count64, reg64_setFld,
    reg64_setReg, reg64_setReg64_self, ite_self]
  exact Nat.mod_eq_of_lt (Nat.lt_trans hn (by decide))

theorem recordFrame_framesSent (gap skip : Bool) (flags : Nat) :
    (recordFrame s t n st gap skip flags).reg64 Reg.TTX_FRAMES_SENT_LO t = (s.reg64 Reg.TTX_FRAMES_SENT_LO t + 1) % 2 ^ 64 := by
  simp (disch := exact ⟨rfl, by decide, by decide, by decide, by decide⟩) only [recordFrame,
    apply_ite (State.reg64 · Reg.TTX_FRAMES_SENT_LO t), State.count, reg64_countN, reg64_count64_self,
    reg64_setFld, reg64_setReg, reg64_setReg64, ite_self]

/-- A count that passed a frame over changes what is sent of it, its circuit bytes counted; the transmitters stand (R33, R68). -/
theorem fitFrame_tx (m : Nat) : (s.fitFrame t n st).1.tx m = s.tx m := by
  unfold State.fitFrame
  split
  · rfl
  · exact tx_countN s t m _ _

theorem fitFrame_framesSent : (s.fitFrame t n st).1.reg64 Reg.TTX_FRAMES_SENT_LO t = s.reg64 Reg.TTX_FRAMES_SENT_LO t := by
  unfold State.fitFrame
  split
  · rfl
  · exact reg64_countN (q := Reg.TTX_FRAMES_SENT_LO) (r := Reg.TTX_CKT_FILL_BYTES) s ⟨rfl, by decide, by decide, by decide, by decide⟩ _

/-- What is sent of a staged frame: its page and as many messages; its map and circuit bytes where it was staged for this tick. -/
theorem sentAs_fitFrame : let sent := sentAs (s.fitFrame t n st).1 t n (s.fitFrame t n st).2
    sent.page = st.page ∧ sent.msgs.length = st.msgs.length ∧
    (st.tick = n → sent.entries = st.entries ∧ sent.ckt = st.ckt ∧ sent.fixedOnly = st.fixedOnly) := by
  unfold State.fitFrame
  split
  · exact ⟨rfl, List.length_map _, fun _ => ⟨rfl, rfl, rfl⟩⟩
  · rename_i h
    exact ⟨rfl, List.length_map _, fun e => absurd (beq_iff_eq.2 e) h⟩

end

/-- Beginning frame n puts it on the line and records it. -/
theorem beginFrame_begins (s : State) {t n : Nat} (st : Staged) (ht : t < 32) (hn : n < 2 ^ 48) :
    let r := s.beginFrame t n st
    (∃ sent h, (r.tx t).cur = some (sent, h) ∧ sent.page = st.page ∧ sent.msgs.length = st.msgs.length ∧
      (st.tick = n → sent.entries = st.entries ∧ sent.ckt = st.ckt ∧ sent.fixedOnly = st.fixedOnly)) ∧
    (r.tx t).units = [] ∧ (r.tx t).serve = (s.tx t).held ++ (s.tx t).serve ++ (s.tx t).next ∧ (r.tx t).held = [] ∧ (r.tx t).last = some n ∧
    r.reg64 Reg.TTX_LAST_TICK_LO t = n ∧ r.reg64 Reg.TTX_FRAMES_SENT_LO t = (s.reg64 Reg.TTX_FRAMES_SENT_LO t + 1) % 2 ^ 64 ∧
    ∀ t' : Nat, t' ≠ t → (r.tx t').cur = (s.tx t').cur ∧ (r.tx t').serve = (s.tx t').serve ∧ (r.tx t').line = (s.tx t').line := by
  obtain ⟨h, sym, gap, skip, flags, e⟩ := beginFrame_parts s t n st
  have hsent := sentAs_fitFrame s (t := t) n st
  dsimp only at e hsent ⊢
  generalize sentAs (s.fitFrame t n st).1 t n (s.fitFrame t n st).2 = sent at e hsent
  have htx (m : Nat) : noUnits ((sectionsSent (s.fitFrame t n st).1 t n sent).tx m) = noUnits (s.tx m) :=
    (tx_of_txPages (txPages_sectionsSent _ n sent ht) m).trans (congrArg noUnits (fitFrame_tx s n st m))
  have hframes := (reg64_of_txPages (txPages_sectionsSent (s.fitFrame t n st).1 n sent ht) (q := Reg.TTX_FRAMES_SENT_LO) rfl (by decide)
    (by omega : t < 256)).trans (fitFrame_framesSent s n st)
  generalize sectionsSent (s.fitFrame t n st).1 t n sent = u at e htx hframes
  have hnow : (s.beginFrame t n st).tx t = begun (u.tx t) n sent h sym := by rw [e, recordFrame_tx, tx_setTx_self]
  have hother {t' : Nat} (hne : t' ≠ t) : (s.beginFrame t n st).tx t' = u.tx t' := by rw [e, recordFrame_tx, tx_setTx_ne _ hne]
  rw [hnow]
  refine ⟨⟨sent, h, rfl, hsent⟩, rfl, ?_, rfl, rfl, ?_, ?_, fun t' hne => ?_⟩
  · exact (congrArg (fun x : TtxS => x.held ++ x.serve ++ x.next) (htx t) :)
  · rw [e, recordFrame_lastTick _ n sent hn]
  · rw [e, recordFrame_framesSent, setTx_reg64, hframes]
  · rw [hother hne]
    exact ⟨(congrArg TtxS.cur (htx t') :), (congrArg TtxS.serve (htx t') :), (congrArg TtxS.line (htx t') :)⟩

/-! ## Ending a frame (R52, R64) -/

/-- On an idle lane no symbol has gone out. -/
theorem endFrame_idle {s : State} {t : Nat} (hc : (s.tx t).cur = none) (hl : (s.tx t).line = 0) :
    s.endFrame t = s.setTx t { s.tx t with symbols := [] } := by
  simp [State.endFrame, hc, hl]

/-- A lane with no frame has sent gap fill, after a training burst where it had just left idle. -/
theorem endFrame_gap {s : State} {t : Nat} (hc : (s.tx t).cur = none) (hl : (s.tx t).line ≠ 0) :
    let b := if (s.tx t).burst then trainSymbols else []
    let n := frameSymbols + s.stepSymbols - b.length
    s.endFrame t = s.setTx t { s.tx t with symbols := b ++ gapSymbols (s.tx t).gapAt n, gapAt := (s.tx t).gapAt + n, burst := false } := by
  simp only [State.endFrame, hc, beq_eq_false_iff_ne.2 hl, Bool.false_eq_true, if_false]

/-- A frame that ends leaves no frame and no unit on the line. -/
theorem endFrame_frame {s : State} {t : Nat} {c : Staged × Bytes} (hc : (s.tx t).cur = some c) :
    ((s.endFrame t).tx t).cur = none ∧ ((s.endFrame t).tx t).units = [] := by
  have retire (s : State) (n : Nat) : (s.seqRetire t n).tx t = s.tx t := (rfl)
  obtain ⟨st, h⟩ := c
  simp only [State.endFrame, hc, retire, tx_setTx_self, and_self]

/-- Idle units and tail pad fill what is left exactly (R52). -/
theorem length_idleFill (k r : Nat) : (idleFill k r).length = r := by
  induction k generalizing r with
  | zero => simp [idleFill]
  | succ k ih =>
    unfold idleFill
    split
    · exact List.length_replicate
    · simp only [idleUnit, List.length_append, length_unitHeader, List.length_replicate, ih]
      omega

/-- Settles O33: what beginning a frame leaves, and what ending one does. -/
theorem frameHeaderAndUnitStart : Obligations.FrameHeaderAndUnitStart :=
  ⟨fun s _ _ st ht hn => beginFrame_begins s st ht hn, fun _ _ => endFrame_idle, fun _ _ => endFrame_gap, fun _ _ _ => endFrame_frame,
    fun k r _ => length_idleFill k r⟩

end Sys2Proof.Proofs

/-! PROOF. The family of 03_tal_upstream.md: the arithmetic of grant lengths, the profile commands, the named change of the preamble, and
the bursts, rogue light and expiries of a receiver. -/

namespace Sys2Proof.Proofs

open Sys2Proof.Machine Sys2Proof.Laws

/-! ## Grant lengths and capacities (R78, R120) -/

/-- The bytes of a grant behind its first two blocks, its preamble and its delimiter: what codewords may take. -/
def codeBytes (g p : Nat) : Nat := 16 * (g - 2) - p - 8

/-- The information bytes of so many code bytes: 1,824 for each whole codeword of 2,160, and of a last one what is left beside the 336 of
its parity, where that is enough to send it. -/
def infoBytes (c : Nat) : Nat := 1824 * (c / 2160) + if c % 2160 < 352 then 0 else c % 2160 - 336

theorem codeBytes_mono {g g' : Nat} (h : g ≤ g') (p : Nat) : codeBytes g p ≤ codeBytes g' p := by
  unfold codeBytes
  omega

theorem infoBytes_mono {c c' : Nat} (h : c ≤ c') : infoBytes c ≤ infoBytes c' := by
  unfold infoBytes
  split <;> split <;> omega

/-- Below the least codeword no burst is sent. -/
theorem layout_none {g p : Nat} (h : codeBytes g p < 352) : layout g p = (0, 0, 0) := if_pos h

/-- From the least codeword on a burst has codewords, with the information bytes that fit. -/
theorem layout_some {g p : Nat} (h : 352 ≤ codeBytes g p) : (layout g p).1 ≠ 0 ∧ (layout g p).2.2 = infoBytes (codeBytes g p) := by
  have e : layout g p = _ := if_neg (Nat.not_lt.2 h)
  rw [e, infoBytes]
  unfold codeBytes at h ⊢
  generalize 16 * (g - 2) - p - 8 = c at h ⊢
  split
  next short =>
    rw [if_pos (by omega)]
    constructor <;> dsimp only <;> omega
  next long =>
    refine ⟨by dsimp only; omega, ?_⟩
    split <;> dsimp only <;> omega

/-- The payload of a grant: nothing below the least codeword, and else its information bytes less the header and a report. -/
theorem sentOf_eq (g p : Nat) : sentOf g p = if codeBytes g p < 352 then 0 else infoBytes (codeBytes g p) - 24 := by
  by_cases h : codeBytes g p < 352
  · simp [sentOf, capOf, layout_none h, h]
  · obtain ⟨hk, hi⟩ := layout_some (Nat.not_lt.1 h)
    simp [sentOf, capOf, hk, hi, h]

/-- A grant below the overhead has no room for the least codeword. -/
theorem codeBytes_lt_of_lt_ohOf {g p : Nat} (h : g < ohOf p) : codeBytes g p < 352 := by
  unfold ohOf ceilDiv at h
  unfold codeBytes
  omega

theorem sentOf_eq_zero_of_lt_ohOf {g p : Nat} (h : g < ohOf p) : sentOf g p = 0 := by
  rw [sentOf_eq, if_pos (codeBytes_lt_of_lt_ohOf h)]

/-- A longer grant never carries less. -/
theorem sentOf_mono {g g' : Nat} (h : g ≤ g') (p : Nat) : sentOf g p ≤ sentOf g' p := by
  have hc := codeBytes_mono h p
  have hi := infoBytes_mono hc
  rw [sentOf_eq, sentOf_eq]
  split <;> split <;> omega

/-- The search ends at a value that meets the test where the upper bound does, with a step for every halving of the range: a bound that
meets the test is only ever replaced by one that does. -/
theorem leastIn_meets {P : Nat → Bool} (n : Nat) {lo hi : Nat} (hP : P hi = true) (hle : lo ≤ hi) (hn : hi - lo < 2 ^ n) :
    P (leastIn P n lo hi) = true := by
  induction n generalizing lo hi with
  | zero =>
    have : lo = hi := by omega
    simpa only [leastIn, this] using hP
  | succ n ih =>
    unfold leastIn
    dsimp only
    rw [Nat.pow_succ] at hn
    split
    next h => rwa [Nat.le_antisymm hle h]
    next h =>
      split
      next hm => exact ih hm (by omega) (by omega)
      next hm => exact ih hP (by omega) (by omega)

/-- The blocks computed for x bytes carry them, wherever the whole frame does. -/
theorem le_sentOf_blocksFor {x p : Nat} (hp : ohOf p ≤ usBlocks) (h : x ≤ sentOf usBlocks p) : x ≤ sentOf (blocksFor x p) p :=
  of_decide_eq_true (leastIn_meets (P := fun g => decide (x ≤ sentOf g p)) 17 (decide_eq_true h) hp (by unfold usBlocks; omega))

/-- Settles O41: the numbers by computation, the rest from the payload as a function of the code bytes and from the search's invariant. -/
theorem codewordArithmeticOfGrants : Obligations.CodewordArithmeticOfGrants :=
  ⟨by decide, by decide +kernel, by decide +kernel, by decide, by decide, by decide, fun _ _ => sentOf_eq_zero_of_lt_ohOf,
    fun _ _ p h => sentOf_mono h p, fun _ _ _ => le_sentOf_blocksFor⟩

/-! ## Profiles (R91, R92) -/

/-- A signed field of w bits is read back as it was written. -/
theorem ofSigned_toSigned {w v : Nat} (h : v < 2 ^ w) : ofSigned w (toSigned w v) = v := by
  unfold ofSigned toSigned
  have h' : (v : Int) < 2 ^ w := by exact_mod_cast h
  split
  · rw [Int.emod_eq_of_lt (by omega) h', Int.toNat_natCast]
  · rw [Int.sub_emod_right, Int.emod_eq_of_lt (by omega) h', Int.toNat_natCast]

/-- A number below 2^w is its own field of w bits. -/
theorem ofSigned_natCast {w v : Nat} (h : v < 2 ^ w) : ofSigned w v = v := by
  unfold ofSigned
  rw [Int.emod_eq_of_lt (by omega) (by exact_mod_cast h), Int.toNat_natCast]

/-- A code with no fraction is its own nearest code. -/
theorem nearest_whole (v : Int) : nearest (16 * v) = v := by
  unfold nearest
  omega

/-- The three fields of a word of 27 bits make the word again. -/
theorem profWord_fields {w : Nat} (h : w < 2 ^ 27) : profWord (profAmp w) (profThr w) (profPhase w) true = w + 2 ^ 31 := by
  unfold profWord profAmp profThr profPhase
  rw [ofSigned_natCast (bitsOf_lt _ _ _), ofSigned_natCast (bitsOf_lt _ _ _), ofSigned_toSigned (bitsOf_lt _ _ _)]
  simp only [bitsOf, if_true]
  omega

/-- A word just seeded is shown as the seed. -/
theorem seedWord_ofSeed {w : Nat} (h : w < 2 ^ 27) : (Prof.ofSeed w).seedWord = w + 2 ^ 31 := by
  simp only [Prof.seedWord, Prof.ofSeed, Nat.mod_eq_of_lt h, profWord_fields h]

/-- A word just seeded is shown as the current value. -/
theorem curWord_ofSeed {w : Nat} (h : w < 2 ^ 27) : (Prof.ofSeed w).curWord = w + 2 ^ 31 := by
  simp only [Prof.curWord, Prof.ofSeed, nearest_whole, profWord_fields h]

/-- A value equal to the measured one is not moved by a sixteenth of the difference. -/
theorem add_tdiv_of_eq {v m : Int} (h : v = m) : v + (m - v).tdiv 16 = v := by simp [h]

/-- A command to a tree that is present first shows its operands. -/
theorem profCmd_present {s : State} {t : Nat} (h : s.present Ty.TRX t = true) {n : Nat} (hn : n < 512) (op : Nat) (f : State → State) :
    s.profCmd t n op f = f (s.setReg Reg.TRX_PROFILE_CMD t (n + op * 2 ^ 16)) := by
  simp [State.profCmd, h, Nat.mod_eq_of_lt hn]

/-- A command to a tree that is absent changes nothing. -/
theorem profCmd_absent {s : State} {t : Nat} (h : s.present Ty.TRX t = false) (n op : Nat) (f : State → State) : s.profCmd t n op f = s := by
  simp [State.profCmd, h]

/-- The profiles are no registers. -/
theorem prof_setReg (s : State) (r : RegId) (i v t n : Nat) : (s.setReg r i v).prof t n = s.prof t n := (rfl)

/-- Settles O36: the commands through what showing their operands does, the seeded word through its three fields. -/
theorem profilesSeedCurrentAndCommands : Obligations.ProfilesSeedCurrentAndCommands := by
  refine ⟨fun s t n hr ht hn h => ?_, fun s t n hr ht h => ?_, fun p amp thr phase => ?_, fun w h => ⟨seedWord_ofSeed h, curWord_ofSeed h⟩⟩
  · have hm : t % 32 = t := Nat.mod_eq_of_lt ht
    have hk : n % 512 = n := Nat.mod_eq_of_lt hn
    refine ⟨Gives.of_live _ hr (rfl : _ = execProfileRead t n s) ?_, Gives.of_live _ hr (rfl : _ = execProfileWriteSeed t n s) ?_,
      Gives.of_live _ hr (rfl : _ = execProfileReseed t n s) ?_, Gives.of_live _ hr (rfl : _ = execProfileInvalidate t n s) ?_⟩ <;>
      simp only [hm, hk, profCmd_present h hn, prof_setReg]
  · have hm : t % 32 = t := Nat.mod_eq_of_lt ht
    refine ⟨Gives.of_live _ hr (rfl : _ = execProfileRead t n s) ?_, Gives.of_live _ hr (rfl : _ = execProfileWriteSeed t n s) ?_,
      Gives.of_live _ hr (rfl : _ = execProfileReseed t n s) ?_, Gives.of_live _ hr (rfl : _ = execProfileInvalidate t n s) ?_⟩ <;>
      simp only [hm, profCmd_absent h]
  · exact ⟨rfl, rfl, rfl, rfl, add_tdiv_of_eq, add_tdiv_of_eq⟩

/-! ## The named change of the preamble (R27, R107) -/

/-- Naming an action puts it last in the list, with whether its tick is late; only a late one is counted (R27). -/
theorem name_late (s : State) (k : NKind) (i j T : Nat) :
    let late := !s.tm.free && decide (T ≤ s.tm.m + 1)
    (s.name k i j T).tm.named = s.tm.named ++ [⟨k, i, j, T, late⟩] ∧
      (late = false → (s.name k i j T).regs = s.regs) ∧
      (late = true → (s.name k i j T).regs = (s.countLate ⟨k, i, j, T, true⟩).regs) := by
  obtain ⟨hahead, hlate⟩ := name_cases s k i j T
  cases hl : !s.tm.free && decide (T ≤ s.tm.m + 1) with
  | false =>
    have e := hahead (by simpa [imp_iff_not_or] using hl)
    rw [e]
    exact ⟨rfl, fun _ => rfl, nofun⟩
  | true =>
    obtain ⟨hf, hT⟩ : s.tm.free = false ∧ T ≤ s.tm.m + 1 := by simpa using hl
    rw [hlate hf hT]
    exact ⟨rfl, nofun, fun _ => rfl⟩

/-- Where nothing pends and the length is the one in effect no change is named. -/
theorem preambleArm_inEffect {s : State} {t : Nat} (h : s.fld Reg.TRX_PREAMBLE_CFG_BITS t = s.fld Reg.TRX_PREAMBLE_CFG_CUR t)
    (hp : (s.tm.named.any fun a => a.kind == .preamble && a.inst == t) = false) :
    s.preambleArm t = s.setSx t { s.sx t with params := true } :=
  if_pos (by rw [hp, h]; exact beq_self_eq_true _)

/-- What a write of PREAMBLE_CFG or PREAMBLE_AT does once its value is stored: the record for the mate, and the named change. -/
def preambleStored (s : State) (t : Nat) : State :=
  (s.mirror 3 [2, t, s.reg Reg.TRX_PREAMBLE_CFG t, s.reg64 Reg.TRX_PREAMBLE_AT_LO t] []).preambleArm t

/-- PREAMBLE_CFG_WRITE of a tree that is present. -/
theorem gives_preambleCfgWrite {s r : State} {t : Nat} {at_ : Bool} {v : Nat} (hr : Running s) (ht : t < 32)
    (h : s.present Ty.TRX t = true) (q : s.mirrored (fun s => preambleStored
      (if at_ then s.setReg64 Reg.TRX_PREAMBLE_AT_LO t (v % 2 ^ 48) else s.plainWrite (Reg.TRX_PREAMBLE_CFG.at t) (v % 2 ^ 32)) t) = r) :
    Gives (.preambleCfgWrite t at_ v) s r := by
  refine Gives.of_live _ hr (rfl : _ = execPreambleCfgWrite t at_ v s) ?_
  simp only [Nat.mod_eq_of_lt ht, h, Bool.not_true, Bool.false_eq_true, if_false]
  exact q

/-- PREAMBLE_CFG_WRITE of a tree that is absent. -/
theorem gives_preambleCfgWrite_absent {s : State} {t : Nat} (hr : Running s) (ht : t < 32) (h : s.present Ty.TRX t = false) (at_ : Bool)
    (v : Nat) : Gives (.preambleCfgWrite t at_ v) s s := by
  refine Gives.of_live _ hr (rfl : _ = execPreambleCfgWrite t at_ v s) ?_
  simp only [Nat.mod_eq_of_lt ht, h, Bool.not_false, if_true]

/-- Settles O37: the writes through the gate for mirrored places, the naming through its two cases. -/
theorem preambleChangeIsNamed : Obligations.PreambleChangeIsNamed := by
  refine ⟨fun s t v hr ht => ⟨fun ho h => ⟨?_, ?_⟩, fun b ho h => ?_, fun b h => ?_⟩, fun s t => preambleArm_inEffect, name_late⟩
  · exact gives_preambleCfgWrite hr ht h (mirrored_open ho _)
  · exact gives_preambleCfgWrite hr ht h (mirrored_open ho _)
  · exact gives_preambleCfgWrite hr ht h (mirrored_standby ho _)
  · exact gives_preambleCfgWrite_absent hr ht h b v

/-! ## Bursts received (R74, R95, R96, R106) -/

/-- A record whose page's check bits are not inverted is read as it is (R163). -/
theorem recCheck_clean {s : State} {t : Nat} (h0 : s.inv Ty.SXT t 0 = false) (h1 : s.inv Ty.SXT t 1 = false) (term : Nat) :
    s.recCheck t term = s := by
  simp [State.recCheck, h0, h1]

/-- The receiver takes an expected burst: it has had the burst of that block of frame u, and has the terminal's profile loaded. -/
def takeBurst (s : State) (t u start term : Nat) : State :=
  s.setRx t { s.rx t with
    maps := (s.rx t).maps.map fun y => if y.utick == u then { y with got := start :: y.got } else y
    loaded := s.profFor t term }

section
variable (s : State) (t u start term : Nat)

theorem takeBurst_eq : (s.setRx t { s.rx t with
    maps := (s.rx t).maps.map fun y => if y.utick == u then { y with got := start :: y.got } else y
    loaded := s.profFor t term }) = takeBurst s t u start term := (rfl)

theorem fld_takeBurst (f : FldId) (i d : Nat) : (takeBurst s t u start term).fld f i d = s.fld f i d := setRx_fld s t _ f i d

theorem inv_takeBurst (ty i bit : Nat) : (takeBurst s t u start term).inv ty i bit = s.inv ty i bit := setRx_inv s t _ ty i bit

/-- Whether a burst is a terminal's ranging burst is no matter of the receivers. -/
theorem isRanging_takeBurst (t' u' : Nat) (e : ExpB) : (takeBurst s t u start term).isRanging t' u' e = s.isRanging t' u' e := (rfl)

end

section
variable {s : State} {t u start : Nat} {b : Burst}

/-- A burst of a frame with no map changes nothing. -/
theorem burst_noMap (h : s.mapAt t u = none) : s.burst t u start b = s := by
  simp only [State.burst, h, ite_self]

variable {x : UMap} (hm : s.mapAt t u = some x)
include hm

/-- A burst that the map does not expect at that block, or that has come, changes nothing. -/
theorem burst_unexpected (h : x.bursts.find? (fun e => e.start == start && !x.got.contains start) = none) : s.burst t u start b = s := by
  simp only [State.burst, hm, h, ite_self]

variable {e : ExpB} (he : x.bursts.find? (fun e => e.start == start && !x.got.contains start) = some e) (hon : s.rxOn t = true)
  (hi : s.inv Ty.TRX t 0 = false) (h0 : s.inv Ty.SXT t 0 = false) (h1 : s.inv Ty.SXT t 1 = false)
include he hon hi h0 h1

/-- An expected burst with no light, of a terminal that is not ranging, is counted and a dark burst (R106, R157). -/
theorem burst_dark (hl : b.light = false) (hr : s.isRanging t u e = false) :
    s.burst t u start b = ((takeBurst s t u start e.term).count Reg.TRX_NO_LIGHT t).darkBurst t e.term u := by
  simp only [State.burst, hon, hm, he, hi, hl, takeBurst_eq, recCheck_clean, inv_takeBurst, h0, h1, isRanging_takeBurst, hr,
    Bool.not_true, Bool.not_false, Bool.false_and, Bool.false_eq_true, if_false, if_true]

/-- An expected burst of the right length is delineated from its delimiter on (R96). -/
theorem burst_lit {o : Int} (hl : b.light = true) (hg : b.guard ≤ s.fld Reg.TRX_LEN_CFG_GUARD_LIGHT_LIM t)
    (hee : b.early ≤ s.fld Reg.TRX_LEN_CFG_EARLY_END_LIM t)
    (ho : delimFind b (s.fld Reg.TRX_DELIM_CFG_WINDOW t) (s.fld Reg.TRX_DELIM_CFG_ERR_MAX t) = some o) :
    s.burst t u start b = (takeBurst s t u start e.term).burstFound t u x e b o := by
  simp only [State.burst, hon, hm, he, hi, hl, takeBurst_eq, recCheck_clean, inv_takeBurst, h0, h1, fld_takeBurst, ho,
    Nat.not_lt.2 hg, Nat.not_lt.2 hee, decide_false, Bool.not_true, Bool.or_self, Bool.and_false, Bool.false_eq_true, if_false, if_true]

end

/-! ## Rogue light (R97) -/

/-- Blocks with no more than 32 lit bits make no lit run. -/
theorem litRuns_dark {l : List Nat} (h : ∀ b ∈ l, b ≤ 32) (n : Nat) : litRuns n none l = [] := by
  induction l generalizing n with
  | nil => rfl
  | cons b l ih =>
    obtain ⟨hb, hl⟩ := List.forall_mem_cons.1 h
    simp only [litRuns, Nat.not_lt.2 hb, if_false, ih hl]

/-- Lit blocks carry an open run on to their end. -/
theorem litRuns_open {l : List Nat} (h : ∀ b ∈ l, 32 < b) (n a : Nat) : litRuns n (some a) l = [(a, n + l.length - 1)] := by
  induction l generalizing n with
  | nil => rfl
  | cons b l ih =>
    obtain ⟨hb, hl⟩ := List.forall_mem_cons.1 h
    simp only [litRuns, hb, if_true, Option.getD_some, ih hl, List.length_cons, Nat.add_assoc, Nat.add_comm 1]

/-- Lit blocks alone make one run. -/
theorem litRuns_lit {l : List Nat} (hne : l ≠ []) (h : ∀ b ∈ l, 32 < b) (n : Nat) : litRuns n none l = [(n, n + l.length - 1)] := by
  cases l with
  | nil => exact absurd rfl hne
  | cons b l =>
    obtain ⟨hb, hl⟩ := List.forall_mem_cons.1 h
    simp only [litRuns, hb, if_true, Option.getD_none, litRuns_open hl, List.length_cons, Nat.add_assoc, Nat.add_comm 1]

/-- A receiver that is off, or with ROGUE_EN 0, takes no notice of rogue light. -/
theorem rogueLight_off {s : State} {t : Nat} (h : s.rxOn t = false ∨ s.flag Reg.TRX_CTL_ROGUE_EN t = false) (u first last : Nat) :
    s.rogueLight t u first last = s :=
  if_pos (by rcases h with h | h <;> simp [h, State.on])

/-- A lit run of a frame with no burst and no window counts whole, and is no terminal's. -/
theorem rogueLight_uncovered {s : State} {t u first last : Nat} {x : UMap} (hon : s.rxOn t = true)
    (hen : s.on Reg.TRX_CTL_ROGUE_EN t = true) (hm : s.mapAt t u = some x) (hb : x.bursts = []) (hw : x.windows = [])
    (hl : last < usBlocks) :
    s.rogueLight t u first last = (s.countN Reg.TRX_ROGUE_BLOCKS t (last + 1 - first)).rogue t u first none := by
  simp only [State.rogueLight, hon, hen, hm, hb, hw, Bool.not_true, Bool.or_self, Bool.false_eq_true, if_false, List.map_nil, List.append_nil,
    rogueRuns, List.foldl_nil, List.foldl_cons, List.find?_nil, Option.map_none, Nat.min_eq_left (Nat.le_sub_one_of_lt hl)]

/-- ROGUE_LIGHT with blocks of which none is lit, or with the search off, changes nothing. -/
theorem rogueRuns_quiet {s : State} {t : Nat} {lit : List Nat}
    (h : (∀ b ∈ lit, b ≤ 32) ∨ s.rxOn t = false ∨ s.flag Reg.TRX_CTL_ROGUE_EN t = false) (u first : Nat) :
    (litRuns first none lit).foldl (fun s r => s.rogueLight t u r.1 r.2) s = s := by
  rcases h with h | h
  · rw [litRuns_dark h, List.foldl_nil]
  · generalize litRuns first none lit = l
    induction l with
    | nil => rfl
    | cons r l ih => rwa [List.foldl_cons, rogueLight_off h]

/-- Settles O35, one lemma a case of the command. -/
theorem burstsAndReceiverState : Obligations.BurstsAndReceiverState := by
  intro s t hr ht
  have hmod : t % 32 = t := Nat.mod_eq_of_lt ht
  have receive {u start : Nat} {b : Burst} {r : State} (h : s.burst t u start b = r) : Gives (.trxBurstReceive t u start b) s r :=
    Gives.of_live (State.burst · (t % 32) u start b) hr rfl (by rwa [hmod])
  have light {u first : Nat} {lit : List Nat} {r : State} (h : (litRuns first none lit).foldl (fun s r => s.rogueLight t u r.1 r.2) s = r) :
      Gives (.rogueLight t u first lit) s r := by
    refine Gives.of_live _ hr (rfl : _ = execRogueLight t u first lit s) ?_
    rw [hmod]
    exact h
  refine ⟨fun u start b h => receive (burst_noMap h), fun u start b x _ hm he => receive (burst_unexpected hm he),
    fun u start b x e hon hm he hl hi hg h0 h1 => receive (burst_dark hm he hon hi h0 h1 hl hg),
    fun u start b x e o hon hm he hl hi h0 h1 hg hee ho => receive (burst_lit hm he hon hi h0 h1 hl hg hee ho),
    fun u first lit h => light (rogueRuns_quiet h u first), fun u first lit x hne hlit hlen hon hen hm hb hw => light ?_, ?_, ?_⟩
  · have hpos : 0 < lit.length := List.length_pos_iff.2 hne
    have hlast : first + lit.length - 1 < usBlocks := by omega
    rw [litRuns_lit hne hlit, List.foldl_cons, List.foldl_nil, rogueLight_uncovered hon hen hm hb hw hlast,
      show first + lit.length - 1 + 1 - first = lit.length by omega]
  · exact Gives.of_live _ hr (rfl : _ = execReassemblyExpiry t s) (by rw [hmod])
  · exact Gives.of_live _ hr (rfl : _ = execReplayWindowRetire t s) (by rw [hmod])

end Sys2Proof.Proofs

/-! PROOF. The family of 04_orrery_grants.md: the commands of the allocation table and of TREE_CFG, what a write, a report and a grant leave
in a record, and the computation, publication and hints of a slice. -/

namespace Sys2Proof.Proofs

open Sys2Proof.Machine Sys2Proof.Laws

/-! ## Trees and allocation records -/

@[simp] theorem ort_setOrt_self (s : State) (t : Nat) (x : OrrT) : (s.setOrt t x).ort t = x := Tbl.get_set_self _ _ _ _

theorem ort_setOrt_ne (s : State) {t' t : Nat} (h : t' ≠ t) (x : OrrT) : (s.setOrt t x).ort t' = s.ort t' := Tbl.get_set_ne _ _ _ h _

@[simp] theorem alloc_setAlloc_self (s : State) (t n : Nat) (a : OAlloc) : (s.setAlloc t n a).alloc t n = a := by
  simp only [State.alloc, State.setAlloc, ort_setOrt_self, Tbl.get_set_self]

theorem alloc_setAlloc_ne (s : State) {t n t' n' : Nat} (h : t' ≠ t ∨ n' ≠ n) (a : OAlloc) :
    (s.setAlloc t n a).alloc t' n' = s.alloc t' n' := by
  unfold State.alloc State.setAlloc
  by_cases ht : t' = t
  · subst ht
    rw [ort_setOrt_self]
    exact Tbl.get_set_ne _ _ _ (h.resolve_left (· rfl)) _
  · rw [ort_setOrt_ne s ht]

/-- A change of a tree's state beside its records leaves every record. -/
theorem alloc_setOrt {s : State} {t : Nat} {x : OrrT} (h : x.allocs = (s.ort t).allocs) (t' n : Nat) :
    (s.setOrt t x).alloc t' n = s.alloc t' n := by
  unfold State.alloc
  by_cases ht : t' = t
  · subst ht
    rw [ort_setOrt_self, h]
  · rw [ort_setOrt_ne s ht]

/-- A slice has its eight trees in every part (R4). -/
theorem hasTree_of_slice (s : State) {l i : Nat} (hl : l < 4) (hi : i < 8) : s.hasTree (8 * l + i) = s.present Ty.ORR l := by
  unfold State.hasTree State.present presentIn
  have h32 : 8 * l + i < fullInstances Ty.TTX := show 8 * l + i < 32 by omega
  have h4 : l < fullInstances Ty.ORR := hl
  simp only [h32, h4, decide_true, Bool.true_and]
  cases s.part with
  | bv3232 => rfl
  | bv3216 => exact decide_eq_decide.2 (show 8 * l + i < 16 ↔ l < 2 by omega)
  | bv3200 => rfl

/-! ## The commands of the allocation table (R114, R134, R135, R468) -/

section
variable {s : State} {l i n : Nat} (hl : l < 4) (hi : i < 8) {op : Nat} {f : State → State × Nat}

/-- A command to an absent slice changes nothing. -/
theorem allocCmd_absent (h : s.present Ty.ORR l = false) : s.allocCmd l n i op f = s := by
  simp [State.allocCmd, h]

include hl hi

/-- A command to a present slice acts and shows its STATUS. -/
theorem allocCmd_present (h : s.present Ty.ORR l = true) : s.allocCmd l n i op f = (f s).1.allocDone l n i op (f s).2 := by
  simp only [State.allocCmd, hasTree_of_slice s hl hi, h, Bool.not_true, Bool.false_eq_true, if_false]

theorem allocEdit_absent (h : s.present Ty.ORR l = false) : s.allocEdit l n i op f = s := by
  simp only [State.allocEdit, hasTree_of_slice s hl hi, h, Bool.false_eq_true, if_false, allocCmd_absent h]

theorem allocEdit_open (h : s.present Ty.ORR l = true) (ho : s.mirrorOpen = true) :
    s.allocEdit l n i op f = (f s).1.allocDone l n i op (f s).2 := by
  simp only [State.allocEdit, hasTree_of_slice s hl hi, h, if_true, mirrored_open ho, allocCmd_present hl hi h]

theorem allocEdit_standby (h : s.present Ty.ORR l = true) (ho : s.mirrorOpen = false) :
    s.allocEdit l n i op f = s.count Reg.PAIR_MIRROR_WRITE_REJECT 0 := by
  simp only [State.allocEdit, hasTree_of_slice s hl hi, h, if_true, mirrored_standby ho]

end

/-- The words that ALLOC_DATA of a slice holds. -/
def allocDataWords (s : State) (l : Nat) : List Nat := (List.range 6).map fun j => s.regI Reg.ORR_ALLOC_DATA l j

/-- What WRITE_CFG does where it acts, and its STATUS. -/
def writeCfg (l i n : Nat) (s : State) : State × Nat :=
  let t := 8 * l + i
  let st := s.allocStatus t n ((s.alloc t n).ofWords (allocDataWords s l))
  if st == 0 then
    let s := s.allocWrite t n (allocDataWords s l)
    (s.mirror 6 ([0, t, n] ++ (s.alloc t n).words) [], 0)
  else (s, st)

/-- Words that pass the check are written and mirrored. -/
theorem writeCfg_accepted {s : State} {l i n : Nat}
    (h : s.allocStatus (8 * l + i) n ((s.alloc (8 * l + i) n).ofWords (allocDataWords s l)) = 0) :
    writeCfg l i n s = ((s.allocWrite (8 * l + i) n (allocDataWords s l)).mirror 6
      ([0, 8 * l + i, n] ++ ((s.allocWrite (8 * l + i) n (allocDataWords s l)).alloc (8 * l + i) n).words) [], 0) :=
  if_pos (by rw [h]; rfl)

/-- Words that fail the check give the STATUS and write nothing. -/
theorem writeCfg_refused {s : State} {l i n st : Nat} (hst : st ≠ 0)
    (h : s.allocStatus (8 * l + i) n ((s.alloc (8 * l + i) n).ofWords (allocDataWords s l)) = st) : writeCfg l i n s = (s, st) := by
  subst h
  exact if_neg (by simpa using hst)

section
variable {s r : State} {l i n : Nat} (hr : Running s) (hl : l < 4) (hi : i < 8) (hn : n < 1024)
include hr hl hi hn

theorem gives_allocReadCfg (q : s.allocCmd l n i 1 (fun s => (s.allocShow l (s.alloc (8 * l + i) n).words, 0)) = r) :
    Gives (.allocReadCfg l i n) s r := by
  refine Gives.of_live _ hr (rfl : _ = execAllocReadCfg l i n s) ?_
  simpa only [Nat.mod_eq_of_lt hl, Nat.mod_eq_of_lt hi, Nat.mod_eq_of_lt hn] using q

theorem gives_allocReadState (q : s.allocCmd l n i 4 (fun s => (s.allocShow l (s.alloc (8 * l + i) n).stateWords, 0)) = r) :
    Gives (.allocReadState l i n) s r := by
  refine Gives.of_live _ hr (rfl : _ = execAllocReadState l i n s) ?_
  simpa only [Nat.mod_eq_of_lt hl, Nat.mod_eq_of_lt hi, Nat.mod_eq_of_lt hn] using q

theorem gives_allocWriteCfg (q : s.allocEdit l n i 2 (writeCfg l i n) = r) : Gives (.allocWriteCfg l i n) s r := by
  refine Gives.of_live _ hr (rfl : _ = execAllocWriteCfg l i n s) ?_
  simp only [Nat.mod_eq_of_lt hl, Nat.mod_eq_of_lt hi, Nat.mod_eq_of_lt hn]
  exact q

theorem gives_allocDelete (q : s.allocEdit l n i 3 (fun s =>
      ((s.setAlloc (8 * l + i) n allocReset).mirror 6 ([0, 8 * l + i, n] ++ allocReset.words) [], 0)) = r) :
    Gives (.allocDelete l i n) s r := by
  refine Gives.of_live _ hr (rfl : _ = execAllocDelete l i n s) ?_
  simpa only [Nat.mod_eq_of_lt hl, Nat.mod_eq_of_lt hi, Nat.mod_eq_of_lt hn] using q

end

/-! ## TREE_CFG (R127, R135) -/

section
variable {s r : State} {l i : Nat} {v : Word} (hr : Running s) (hl : l < 4)
include hr hl

theorem gives_treeCfgWrite_absent (h : s.present Ty.ORR l = false) : Gives (.treeCfgWrite l i v) s s := by
  refine Gives.of_live _ hr (rfl : _ = execTreeCfgWrite l i v s) ?_
  simp only [Nat.mod_eq_of_lt hl, h, Bool.false_eq_true, if_false]

theorem gives_treeCfgWrite_open (hi : i < 8) (h : s.present Ty.ORR l = true) (ho : s.mirrorOpen = true) (q : s.treeCfgWrite l i v.toNat = r) :
    Gives (.treeCfgWrite l i v) s r := by
  refine Gives.of_live _ hr (rfl : _ = execTreeCfgWrite l i v s) ?_
  simpa only [Nat.mod_eq_of_lt hl, Nat.mod_eq_of_lt hi, h, if_true, mirrored_open ho] using q

end

/-- The address of TREE_CFG of tree i of slice l. -/
def treeCfgKey (l i : Nat) : Nat := Reg.ORR_TREE_CFG.at l + 4 * i

/-- Some VALID fixed allocation of tree t starts below the FIX_BASE of another state. -/
def fixedBelow (s s' : State) (t : Nat) : Bool :=
  (s.ort t).allocs.any fun q => q.2.valid && q.2.type == 0 && decide (q.2.fixStart < s'.fixBase t)

/-- A new D of an enabled tree, or a FIX_BASE above a fixed allocation, is only counted. -/
theorem treeCfgWrite_refused {s : State} {l i v : Nat}
    (h : s.treeEn (8 * l + i) = true ∧ (s.plainWrite (treeCfgKey l i) v).fld Reg.ORR_TREE_CFG_D l (4 * i) ≠ s.fld Reg.ORR_TREE_CFG_D l (4 * i) ∨
      fixedBelow s (s.plainWrite (treeCfgKey l i) v) (8 * l + i) = true) :
    s.treeCfgWrite l i v = s.count Reg.ORR_CFG_REJECT l :=
  if_pos (by rw [Bool.or_eq_true, Bool.and_eq_true, bne_iff_ne]; exact h)

/-- Any other is stored, and mirrored as it reads. -/
theorem treeCfgWrite_stored {s : State} {l i v : Nat} (hf : fixedBelow s (s.plainWrite (treeCfgKey l i) v) (8 * l + i) = false)
    (hd : s.treeEn (8 * l + i) = false ∨
      (s.plainWrite (treeCfgKey l i) v).fld Reg.ORR_TREE_CFG_D l (4 * i) = s.fld Reg.ORR_TREE_CFG_D l (4 * i)) :
    s.treeCfgWrite l i v = (s.plainWrite (treeCfgKey l i) v).mirror 6
      [1, treeCfgKey l i, ((s.plainWrite (treeCfgKey l i) v).rd (treeCfgKey l i)).toNat] [] := by
  refine if_neg ?_
  rw [Bool.not_eq_true, Bool.or_eq_false_iff, Bool.and_eq_false_iff, bne_eq_false_iff_eq]
  exact ⟨hd, hf⟩

/-- Settles O38: each command through its gate and the cases of what it does there. -/
theorem allocationTableCommands : Obligations.AllocationTableCommands := by
  intro s l i n hr hl hi hn
  refine ⟨fun h => ⟨?_, ?_, ?_, ?_, fun v => ?_⟩, fun h => ⟨?_, ?_, fun ho hst => ?_, fun st ho hne hst => ?_, fun ho => ?_⟩,
    fun ho h => ⟨?_, ?_⟩, fun v h ho => ⟨fun he hd => ?_, fun hf => ?_, fun hf hd => ?_⟩⟩
  · exact gives_allocReadCfg hr hl hi hn (allocCmd_absent h)
  · exact gives_allocReadState hr hl hi hn (allocCmd_absent h)
  · exact gives_allocWriteCfg hr hl hi hn (allocEdit_absent hl hi h)
  · exact gives_allocDelete hr hl hi hn (allocEdit_absent hl hi h)
  · exact gives_treeCfgWrite_absent hr hl h
  · exact gives_allocReadCfg hr hl hi hn (allocCmd_present hl hi h)
  · exact gives_allocReadState hr hl hi hn (allocCmd_present hl hi h)
  · exact gives_allocWriteCfg hr hl hi hn (by rw [allocEdit_open hl hi h ho, writeCfg_accepted hst]; rfl)
  · exact gives_allocWriteCfg hr hl hi hn (by rw [allocEdit_open hl hi h ho, writeCfg_refused hne hst])
  · exact gives_allocDelete hr hl hi hn (allocEdit_open hl hi h ho)
  · exact gives_allocWriteCfg hr hl hi hn (allocEdit_standby hl hi h ho)
  · exact gives_allocDelete hr hl hi hn (allocEdit_standby hl hi h ho)
  · exact gives_treeCfgWrite_open hr hl hi h ho (treeCfgWrite_refused (.inl ⟨he, hd⟩))
  · exact gives_treeCfgWrite_open hr hl hi h ho (treeCfgWrite_refused (.inr hf))
  · exact gives_treeCfgWrite_open hr hl hi h ho (treeCfgWrite_stored hf hd)

/-! ## What a write leaves in a record (R112, R134) -/

/-- The record that a write of configuration a leaves where old stood: a VALID record of the same TYPE keeps what it has, any other starts
with no credits and an empty ledger. -/
def rewritten (old a : OAlloc) : OAlloc :=
  if old.valid && a.valid && old.type == a.type then a
  else { a with
    credA := 0, credM := 0, ledger := [], occ := if old.valid && a.valid then a.occ else 0
    rtick := if old.valid && a.valid then a.rtick else 0, unused := old.valid && a.valid && a.unused
    lastLen := if old.valid && a.valid then a.lastLen else 0, since := if old.valid && a.valid then a.since else 0 }

theorem rewritten_config (old a : OAlloc) :
    (rewritten old a).valid = a.valid ∧ (rewritten old a).type = a.type ∧ (rewritten old a).ra = a.ra ∧ (rewritten old a).fixLen = a.fixLen := by
  unfold rewritten
  split <;> exact ⟨rfl, rfl, rfl, rfl⟩

theorem rewritten_same {old a : OAlloc} (ho : old.valid = true) (ha : a.valid = true) (ht : old.type = a.type) : rewritten old a = a :=
  if_pos (by simp [ho, ha, ht])

theorem rewritten_fresh {old a : OAlloc} (h : old.valid = false ∨ a.valid = false ∨ old.type ≠ a.type) :
    (rewritten old a).credA = 0 ∧ (rewritten old a).credM = 0 ∧ (rewritten old a).ledger = [] := by
  unfold rewritten
  rw [if_neg (by simp only [Bool.and_eq_true, beq_iff_eq]; rintro ⟨⟨ho, ha⟩, ht⟩; simp [ho, ha, ht] at h)]
  exact ⟨rfl, rfl, rfl⟩

/-- Of the records a write changes one; beside the records it can drop only reports that wait for it. -/
theorem allocWrite_eq (s : State) (t n : Nat) (w : List Nat) :
    ∃ s' : State, s'.regs = s.regs ∧ (∀ t' n', s'.alloc t' n' = s.alloc t' n') ∧
      s.allocWrite t n w = s'.setAlloc t n (rewritten (s.alloc t n) ((s.alloc t n).ofWords w)) := by
  refine ⟨_, ?_, fun t' n' => ?_, rfl⟩ <;> split
  · rfl
  · rfl
  · rfl
  · refine alloc_setOrt ?_ t' n'
    rfl

theorem alloc_allocWrite_self (s : State) (t n : Nat) (w : List Nat) :
    (s.allocWrite t n w).alloc t n = rewritten (s.alloc t n) ((s.alloc t n).ofWords w) := by
  obtain ⟨s', -, -, e⟩ := allocWrite_eq s t n w
  rw [e, alloc_setAlloc_self]

theorem alloc_allocWrite_ne (s : State) {t n t' n' : Nat} (h : t' ≠ t ∨ n' ≠ n) (w : List Nat) :
    (s.allocWrite t n w).alloc t' n' = s.alloc t' n' := by
  obtain ⟨s', -, ha, e⟩ := allocWrite_eq s t n w
  rw [e, alloc_setAlloc_ne s' h, ha]

theorem allocWrite_regs (s : State) (t n : Nat) (w : List Nat) : (s.allocWrite t n w).regs = s.regs := by
  obtain ⟨s', hr, -, e⟩ := allocWrite_eq s t n w
  rw [e, setAlloc_regs, hr]

/-! ## Reports, needs and grants (R115, R116, R122) -/

/-- A report of an older tick, or to a record that is not VALID, is ignored. -/
theorem report_ignored {s : State} {t n r : Nat} (h : (s.alloc t n).valid = false ∨ r < (s.alloc t n).rtick) (occ : Nat) :
    s.report t n occ r = s :=
  if_pos (by simpa using h)

/-- Any other replaces OCC and its tick, and drops the ledger up to it. -/
theorem alloc_report {s : State} {t n r : Nat} (hv : (s.alloc t n).valid = true) (hr : (s.alloc t n).rtick ≤ r) (occ : Nat) :
    (s.report t n occ r).alloc t n = { s.alloc t n with
      occ := occ, rtick := r, unused := true, ledger := (s.alloc t n).ledger.filter fun e => decide (r < e.1) } := by
  unfold State.report
  rw [if_neg (by simpa [hv] using hr), alloc_setAlloc_self]

/-- The need without hints, where the report is not stale. -/
theorem need_noHints {a : OAlloc} {u d age : Nat} (h : a.stale u d age = false) :
    (a.need u d age []).1 =
      64 * a.occ - (a.ledger.filter fun e => decide (a.rtick < e.1) && decide (e.1 < u)).foldl (fun x e => x + e.2) 0 := by
  simp only [OAlloc.need, h, Bool.false_eq_true, if_false, List.foldl_nil, List.foldl_filter, Bool.and_eq_true, decide_eq_true_eq]
  omega

/-- Settles O39: the written record, the stored report, the need as a truncated difference, and the entry of a grant. -/
theorem writeAndDeleteOfAnAllocation : Obligations.WriteAndDeleteOfAnAllocation := by
  refine ⟨fun s t n w => ?_, fun s t n occ r => ⟨fun h => report_ignored h occ, fun hv hr => ?_⟩, fun a u d age => need_noHints,
    fun a u p e => ⟨rfl, rfl, List.mem_append_right _ List.mem_cons_self⟩⟩
  · dsimp only
    rw [alloc_allocWrite_self]
    obtain ⟨hv, ht, hra, hlen⟩ := rewritten_config (s.alloc t n) ((s.alloc t n).ofWords w)
    refine ⟨hv, ht, hra, hlen, fun ho ha hty => ?_, rewritten_fresh, allocWrite_regs s t n w, fun t' n' h => alloc_allocWrite_ne s h w⟩
    rw [rewritten_same ho ha hty]
    exact ⟨rfl, rfl, rfl, rfl, rfl⟩
  · rw [alloc_report hv hr]
    exact ⟨rfl, rfl, rfl⟩

/-! ## ORR_COMPUTE and ORR_MAP_PUBLISH (R118, R125, R130, R132) -/

section
variable {s : State} {l t : Nat} (hr : Running s)
include hr

theorem gives_orrCompute_idle (hl : l < 4) (h : s.orrWorks l = false) : Gives (.orrCompute l) s s := by
  refine Gives.of_live _ hr (rfl : _ = execOrrCompute l s) ?_
  simp only [State.orrCompute, Nat.mod_eq_of_lt hl, h, Bool.not_false, if_true]

theorem gives_orrCompute_works (hl : l < 4) (h : s.orrWorks l = true) : Gives (.orrCompute l) s ((treesOf l).foldl (fun s t =>
    if s.treeEn t = true ∧ s.taken t = false then
      (s.handReports t (s.tm.m - if s.overrunSeen Ty.TRX t then 1 else 0)).computeTree t s.nextM
    else s) s) := by
  refine Gives.of_live _ hr (rfl : _ = execOrrCompute l s) ?_
  simp only [State.orrCompute, Nat.mod_eq_of_lt hl, h, Bool.not_true, Bool.false_eq_true, if_false, Bool.and_eq_true,
    Bool.not_eq_true']

theorem gives_orrMapPublish_idle (ht : t < 32) (h : s.orrWorks (t / 8) = false) (cycle : Nat) : Gives (.orrMapPublish t cycle) s s := by
  refine Gives.of_live _ hr (rfl : _ = execOrrMapPublish t cycle s) ?_
  simp only [Nat.mod_eq_of_lt ht, h, Bool.not_false, if_true]

theorem gives_orrMapPublish_works (ht : t < 32) (h : s.orrWorks (t / 8) = true) (cycle : Nat) :
    let ok := s.inTime Ty.ORR (t / 8) cycle
    let r := s.publishTree t s.nextM ok
    Gives (.orrMapPublish t cycle) s (if r.orrDone (t / 8) = true then r.complete Ty.ORR (t / 8) cycle
      else if ok then r else r.overrun Ty.ORR (t / 8) (overrunSrc Ty.ORR)) := by
  refine Gives.of_live _ hr (rfl : _ = execOrrMapPublish t cycle s) ?_
  simp only [Nat.mod_eq_of_lt ht, h, Bool.not_true, Bool.false_eq_true, if_false]

end

/-- A tree with no computed map that is not enabled gets an empty map, once a frame (R132). -/
theorem publishTree_disabled {s : State} {t m : Nat} (ok : Bool) (hc : (s.ort t).comp = none) (he : s.treeEn t = false)
    (ht : s.hasTree t = true) (hm : s.handed t m = false) :
    s.publishTree t m ok =
      (s.setRegI Reg.ORR_LAST_MAP (t / 8) (t % 8) (s.fixBase t % 2 ^ 16 * 2 ^ 13)).handMap t m (m + s.dOf t) false [] [] := by
  simp only [State.publishTree, hc, he, ht, hm, Bool.not_true, Bool.or_self, Bool.false_eq_true, if_false]

/-! ## ORR_HINT_RECEIVE (R118, R119) -/

/-- The hint that a message's bytes hold. -/
def hintOf (msg : Bytes) : Hint := ⟨leAt msg 0 2 % 1024, leAt msg 2 1, leAt msg 4 3, leAt msg 8 6⟩

/-- A hint of an unknown OP is only counted. -/
theorem hintReceive_unknownOp {s : State} {t : Nat} {msg : Bytes} (ha : s.active Ty.ORR (t / 8) = true)
    (h : (hintOf msg).op = 0 ∨ 3 < (hintOf msg).op) : s.hintReceive t msg = s.count Reg.ORR_HINT_REJECT (t / 8) := by
  have hunknown : ((hintOf msg).op == 1 || (hintOf msg).op == 2 || (hintOf msg).op == 3) = false := by
    simp only [Bool.or_eq_false_iff, beq_eq_false_iff_ne]
    omega
  unfold State.hintReceive
  rw [← hintOf]
  simp [ha, hunknown]

/-- A hint of a known OP for the next map, to a VALID dynamic allocation of an OPERATIONAL terminal, joins the tree's hints while there are
fewer than 64. -/
theorem hintReceive_joins {s : State} {t : Nat} {msg : Bytes} (ha : s.active Ty.ORR (t / 8) = true) (h1 : 1 ≤ (hintOf msg).op)
    (h3 : (hintOf msg).op ≤ 3) (hv : (s.alloc t (hintOf msg).alloc).valid = true) (hty : (s.alloc t (hintOf msg).alloc).type ≠ 0)
    (hop : s.reportsOp t (s.alloc t (hintOf msg).alloc).term s.nextM = true) (hu : (hintOf msg).utick = 0)
    (hlen : (s.ort t).hints.length < 64) :
    s.hintReceive t msg = s.setOrt t { s.ort t with hints := (s.ort t).hints ++ [hintOf msg] } := by
  have hknown : ((hintOf msg).op == 1 || (hintOf msg).op == 2 || (hintOf msg).op == 3) = true := by
    simp only [Bool.or_eq_true, beq_iff_eq]
    omega
  unfold State.hintReceive
  rw [← hintOf]
  simp [ha, hknown, hv, hty, hop, hu, hlen]

/-- With no message of a cluster to an endpoint on its way there is none to take. -/
theorem takePost_none {s : State} {c ep : Nat} (h : ∀ p ∈ s.posts, ¬ (p.cluster = c ∧ p.ep = ep)) : s.takePost c ep = none := by
  have hf : (s.posts.find? fun p => p.cluster == c && p.ep == ep) = none := List.find?_eq_none.2 (by simpa using h)
  simp only [State.takePost, hf]

section
variable {s : State} {t : Nat} (hr : Running s) (ht : t < 32)
include hr ht

theorem gives_orrHintReceive_none (h : ∀ p ∈ s.posts, ¬ (p.cluster = t ∧ p.ep = Ty.ORR * 256 + t / 8)) : Gives (.orrHintReceive t) s s := by
  refine Gives.of_live _ hr (rfl : _ = execOrrHintReceive t s) ?_
  simp only [Nat.mod_eq_of_lt ht, takePost_none h]

theorem gives_orrHintReceive_some {p : Post} {r : State}
    (h : s.posts.find? (fun p => p.cluster == t && p.ep == Ty.ORR * 256 + t / 8) = some p) (hp : s.hasTree t = true)
    (q : State.hintReceive { s with posts := s.posts.erase p } t p.body = r) : Gives (.orrHintReceive t) s r := by
  refine Gives.of_live _ hr (rfl : _ = execOrrHintReceive t s) ?_
  simp only [Nat.mod_eq_of_lt ht, State.takePost, h]
  exact (if_pos hp).trans q

end

/-- Settles O40, one lemma a case of the command. -/
theorem grantComputationAndPublication : Obligations.GrantComputationAndPublication := by
  intro s l hr hl
  refine ⟨fun h => ⟨gives_orrCompute_idle hr hl h, ?_⟩, gives_orrCompute_works hr hl, ?_,
    fun t ht h => gives_orrHintReceive_none hr ht h, fun t p ht hp hh ha h => ?_, fun t p ht hp hh ha => ?_,
    fun t m ok => publishTree_disabled ok⟩
  · rintro t cycle ht rfl
    exact gives_orrMapPublish_idle hr ht h cycle
  · rintro t cycle h ht rfl
    exact gives_orrMapPublish_works hr ht h cycle
  · exact gives_orrHintReceive_some hr ht hp hh (hintReceive_unknownOp ha (.inl h))
  · exact fun h1 h3 hv hty hop hu hlen => gives_orrHintReceive_some hr ht hp hh (hintReceive_joins ha h1 h3 hv hty hop hu hlen)

end Sys2Proof.Proofs

/-! PROOF. The family of 05_sextant_terminals.md: the commands of TERM_CMD, the timers of a terminal and of a tree, and control messages. -/

namespace Sys2Proof.Proofs

open Sys2Proof.Machine Sys2Proof.Laws

/-! ## The commands of TERM_CMD (R161, R163, R468) -/

/-- What ends a command on a record: TERM_CMD shows the record, the operation and its STATUS, and a refusal counts. -/
def termEnded (t n op : Nat) (r : State × Nat) : State :=
  let shown := r.1.setReg Reg.SXT_TERM_CMD t (n + op * 2 ^ 16 + r.2 * 2 ^ 24)
  if r.2 = 0 then shown else shown.count Reg.SXT_CFG_REJECT t

theorem termEnded_ite (t n op : Nat) (p : Prop) [Decidable p] (a b : State × Nat) :
    termEnded t n op (if p then a else b) = if p then termEnded t n op a else termEnded t n op b := apply_ite _ _ _ _

section
variable {s : State} {t n op : Nat} (hn : n < 512) (hp : s.present Ty.SXT t = true) (h0 : s.inv Ty.SXT t 0 = false)
  (h1 : s.inv Ty.SXT t 1 = false) (f : State → State × Nat)
include hn hp h0 h1

/-- READ in any device, and every command in the active one, acts and ends with its STATUS. -/
theorem termCmd_acts (ha : op = 1 ∨ s.isActive = true) : s.termCmd t n op f = termEnded t n op (f s) := by
  have hact : (op == 1 || s.isActive) = true := by simpa using ha
  simp only [State.termCmd, hp, recCheck_clean h0 h1, hact, Nat.mod_eq_of_lt hn, beq_iff_eq, Bool.not_true, Bool.false_eq_true, if_false, if_true]
  rfl

/-- In a standby every command but READ ends with STATUS 2; a WRITE of a mirrored record is counted in the pair's page too. -/
theorem termCmd_standby (hop : op ≠ 1) (ha : s.isActive = false) : s.termCmd t n op f =
    termEnded t n op (if op = 2 ∧ s.mirrorOpen = false then s.count Reg.PAIR_MIRROR_WRITE_REJECT 0 else s, 2) := by
  have hidle : (op == 1 || s.isActive) = false := by simpa [ha] using hop
  simp only [State.termCmd, hp, recCheck_clean h0 h1, hidle, Nat.mod_eq_of_lt hn, Bool.and_eq_true, beq_iff_eq, Bool.not_eq_true',
    Bool.not_true, Bool.false_eq_true, if_false]
  rfl

variable {f} {c : Instr} {r : State} (hr : Running s) (ht : t < 32)
  (e : exec c s = live s fun s => s.termCmd (t % 32) (n % 512) op f)
include hr ht e

theorem Gives.of_termCmd (ha : op = 1 ∨ s.isActive = true) (q : termEnded t n op (f s) = r) : Gives c s r :=
  Gives.of_live _ hr e (by rw [Nat.mod_eq_of_lt ht, Nat.mod_eq_of_lt hn, termCmd_acts hn hp h0 h1 f ha, q])

theorem Gives.of_termCmd_standby (hop : op ≠ 1) (ha : s.isActive = false)
    (q : termEnded t n op (if op = 2 ∧ s.mirrorOpen = false then s.count Reg.PAIR_MIRROR_WRITE_REJECT 0 else s, 2) = r) : Gives c s r :=
  Gives.of_live _ hr e (by rw [Nat.mod_eq_of_lt ht, Nat.mod_eq_of_lt hn, termCmd_standby hn hp h0 h1 f hop ha, q])

end

/-- Settles O42: each command acts or is refused as a whole, and where the record's state decides, it decides effect and STATUS together. -/
theorem terminalRecordCommands : Obligations.TerminalRecordCommands := by
  intro s t n hr ht hn hp h0 h1
  have hm : t % 32 = t := Nat.mod_eq_of_lt ht
  have hk : n % 512 = n := Nat.mod_eq_of_lt hn
  refine ⟨Gives.of_termCmd hn hp h0 h1 hr ht rfl (.inl rfl) (by rw [hm, hk]; rfl), fun ha => ?_, fun ha => ?_⟩
  · have acts {c : Instr} {op : Nat} {f : State → State × Nat} {r : State}
        (e : exec c s = live s fun s => s.termCmd (t % 32) (n % 512) op f) (q : termEnded t n op (f s) = r) : Gives c s r :=
      Gives.of_termCmd hn hp h0 h1 hr ht e (.inr ha) q
    refine ⟨acts rfl ?_, acts rfl ?_, acts rfl ?_, acts rfl ?_, acts rfl ?_, acts rfl ?_, acts rfl ?_, acts rfl ?_, acts rfl ?_, acts rfl ?_,
      acts rfl ?_⟩ <;> simp only [hm, hk, beq_iff_eq, termEnded_ite] <;> rfl
  · have refused {c : Instr} {op : Nat} {f : State → State × Nat} {r : State} (hop : op ≠ 1)
        (e : exec c s = live s fun s => s.termCmd (t % 32) (n % 512) op f)
        (q : termEnded t n op (if op = 2 ∧ s.mirrorOpen = false then s.count Reg.PAIR_MIRROR_WRITE_REJECT 0 else s, 2) = r) : Gives c s r :=
      Gives.of_termCmd_standby hn hp h0 h1 hr ht e hop ha q
    refine ⟨refused (by decide) rfl ?_, refused (by decide) rfl rfl, refused (by decide) rfl rfl⟩
    cases s.mirrorOpen <;> rfl

/-! ## What a write of a plain register leaves alone -/

theorem plainWrite_only (s : State) (k v : Nat) :
    s.plainWrite k v = { s with regs := (s.plainWrite k v).regs, rwo := (s.plainWrite k v).rwo } := by
  unfold State.plainWrite
  dsimp only
  split
  · rfl
  · split
    · rfl
    · split
      · rfl
      · split <;> rfl

/-- The registers of other page types read as before. -/
theorem rd_plainWrite_page (s : State) {j k : Nat} (h : keyTy j ≠ keyTy k) (v : Nat) : (s.plainWrite k v).rd j = s.rd j := by
  have hself : j ≠ k := fun e => h (congrArg keyTy e)
  have hsts : j ≠ regKey (keyTy k) (keyInst k) 0x014 := fun e =>
    h (by rw [e, keyTy_regKey (show keyInst k < 256 from Nat.mod_lt _ (by decide)) (by decide)])
  unfold State.plainWrite
  dsimp only
  split
  · rfl
  · split
    · rfl
    · split
      · exact rd_wr_ne s hsts _
      · split <;> exact rd_wr_ne s hself _

theorem sx_plainWrite (s : State) (k v t : Nat) : (s.plainWrite k v).sx t = s.sx t := by rw [plainWrite_only]; rfl

/-- A write to a page other than the pair's leaves the role. -/
theorem isActive_plainWrite (s : State) {k : Nat} (h : keyTy k ≠ Ty.PAIR) (v : Nat) : (s.plainWrite k v).isActive = s.isActive := by
  have hrole : keyTy (Reg.PAIR_STS_ROLE.at 0 0) ≠ keyTy k := fun e => h (e.symm.trans (by decide))
  simp only [State.isActive, State.flag, State.fld, rd_plainWrite_page s hrole]

/-! ## Windows, holds and the dark test (R139, R144, R154, R156) -/

/-- A dark test is started by bit 31 alone. -/
theorem bitOf_31 (v : Word) : bitOf v.toNat 31 = decide (2 ^ 31 ≤ v.toNat) := by
  have hv : v.toNat < 2 ^ 32 := v.isLt
  rw [bitOf, Bool.eq_iff_iff, beq_iff_eq, decide_eq_true_eq]
  omega

section
variable {s : State} {t : Nat} (v : Word)

/-- Without bit 31 the word is only stored. -/
theorem darkStart_stored (h : v.toNat < 2 ^ 31) : s.darkStart t v.toNat = s.plainWrite (Reg.SXT_DARK_TEST.at t) v.toNat := by
  simp only [State.darkStart, bitOf_31, Nat.not_le.2 h, decide_false, Bool.not_false, Bool.true_or, if_true]

/-- With bit 31, no test running and the range in order, a test begins EQD_LEAD ticks after the next frame, and every terminal is told. -/
theorem darkStart_begins (ht : t < 32) (ha : s.isActive = true) (h : 2 ^ 31 ≤ v.toNat) (hd : (s.sx t).darkTest = none)
    (hle : bitsOf v.toNat 0 9 ≤ bitsOf v.toNat 16 9) :
    let s1 := s.plainWrite (Reg.SXT_DARK_TEST.at t) v.toNat
    let u := s1.nextM + s1.fld Reg.SXT_RANGE_CFG_EQD_LEAD t
    s.darkStart t v.toNat =
      (s1.setSx t { s.sx t with darkTest := some (bitsOf v.toNat 0 9, bitsOf v.toNat 16 9, u) }).treeMsg t 0x1A destAll
        (toBE 2 (bitsOf v.toNat 0 9) ++ toBE 2 (bitsOf v.toNat 16 9) ++ toBE 6 u ++ toBE 2 16) := by
  have hpage : keyTy (Reg.SXT_DARK_TEST.at t) ≠ Ty.PAIR := by
    rw [RegId.at, keyTy_regKey (by omega) (by decide)]
    decide
  simp only [State.darkStart, bitOf_31, h, sx_plainWrite, hd, Nat.not_lt.2 hle, isActive_plainWrite s hpage, ha, decide_true, Bool.not_true,
    Option.isSome_none, Bool.or_self, Bool.false_eq_true, if_false]

end

/-- A copy of the broadcast DEACTIVATE that is due goes, and the next one waits ACK_TIMEOUT ticks (R144). -/
theorem bcastRepeat_due {s : State} {t n left reason next : Nat} {dark : Bool}
    (hb : (s.term (termAx t n)).bcast = some (left, reason, dark, next)) (hnext : next ≤ s.tm.tickNo) (ha : s.isActive = true) :
    let x := s.term (termAx t n)
    let left' := if left ≤ 1 then none else some (left - 1, reason, dark, s.tm.tickNo + s.fld Reg.SXT_ACT_CFG_ACK_TIMEOUT t)
    s.bcastRepeat t n = (s.setTerm (termAx t n) { x with bcast := left' }).treeMsg t 0x18 destAll
      (toBE 2 0 ++ toBE 1 reason ++ [if dark then 1 else 0] ++ toBE 4 x.vendor ++ toBE 4 x.serial) := by
  simp only [State.bcastRepeat, hb, Nat.not_lt.2 hnext, ha, decide_false, Bool.not_true, Bool.or_self, Bool.false_eq_true, if_false]

/-- A terminal that no ranging burst was heard from is left as it is (R150). -/
theorem rangeEval_none {s : State} {t n : Nat} (h : (s.term (termAx t n)).rangeRes = none) : s.rangeEval t n = s := by
  simp only [State.rangeEval, h]

/-- A try within RANGE_TOL of a discovered terminal whose ASSIGN is acknowledged succeeds (R150). -/
theorem rangeEval_ok {s : State} {t n u prof : Nat} {o : Int} (h : (s.term (termAx t n)).rangeRes = some (u, some o, prof))
    (hre : (s.term (termAx t n)).reRange = false) (hst : (s.term (termAx t n)).st = .discovered)
    (hack : (s.term (termAx t n)).assignAcked = true) (htol : o.natAbs ≤ s.fld Reg.SXT_RANGE_CFG_RANGE_TOL t) :
    s.rangeEval t n = s.rangeOk t n o prof := by
  simp only [State.rangeEval, h, hre, hst, hack, htol, bne_self_eq_false, decide_true, Bool.and_self, Bool.false_eq_true, if_false, if_true]

section
variable {s r : State} {t n : Nat} (hr : Running s) (ht : t < 32)
include hr ht

theorem gives_darkTestStart {v : Word} (hp : s.present Ty.SXT t = true) (q : s.darkStart t v.toNat = r) : Gives (.darkTestStart t v) s r := by
  refine Gives.of_live _ hr (rfl : _ = execDarkTestStart t v s) ?_
  rw [Nat.mod_eq_of_lt ht, if_pos hp, q]

theorem gives_rangingBurst (hn : n < 512) (hact : s.active Ty.SXT t = true) (ha : s.isActive = true) (h0 : s.inv Ty.SXT t 0 = false)
    (h1 : s.inv Ty.SXT t 1 = false) (q : s.rangeEval t n = r) : Gives (.rangingBurst t n) s r := by
  refine Gives.of_live _ hr (rfl : _ = execRangingBurst t n s) ?_
  rw [Nat.mod_eq_of_lt ht, Nat.mod_eq_of_lt hn, if_pos (by rw [hact, ha]; rfl), recCheck_clean h0 h1, q]

end

/-- Settles O43: each timer by its time and by the state it acts in, the dark test and the ranging burst by what they do there. -/
theorem terminalTimersAndExpiries : Obligations.TerminalTimersAndExpiries := by
  intro s t n hr ht hn
  have hm : t % 32 = t := Nat.mod_eq_of_lt ht
  have hk : n % 512 = n := Nat.mod_eq_of_lt hn
  refine ⟨fun c hc hle => Gives.of_live _ hr (rfl : _ = execViolWindowClose t n s) ?_,
    fun h => Gives.of_live _ hr (rfl : _ = execViolWindowClose t n s) ?_,
    fun c a b h => Gives.of_live _ hr (rfl : _ = execRogueWindowClose t s) ?_,
    fun hst hauto hle => Gives.of_live _ hr (rfl : _ = execQuarHoldExpiry t n s) ?_,
    fun hst => Gives.of_live _ hr (rfl : _ = execQuarHoldExpiry t n s) ?_,
    fun hst hle => Gives.of_live _ hr (rfl : _ = execDeactHoldExpiry t n s) ?_,
    fun hst => Gives.of_live _ hr (rfl : _ = execDeactHoldExpiry t n s) ?_,
    fun hst => Gives.of_live _ hr (rfl : _ = execAuthTimeoutExpiry t n s) ?_,
    fun hst ha hpend hle => Gives.of_live _ hr (rfl : _ = execAuthTimeoutExpiry t n s) ?_,
    fun left reason dark next hb hnext ha => Gives.of_live _ hr (rfl : _ = execBcastDeactivateRepeat t n s) ?_,
    fun a b u h => Gives.of_live _ hr (rfl : _ = execDarkTestEnd t s) ?_,
    fun v hp h => gives_darkTestStart hr ht hp (darkStart_stored v h),
    fun v hp ha h hd hle => gives_darkTestStart hr ht hp (darkStart_begins v ht ha h hd hle),
    fun hact ha h0 h1 h => gives_rangingBurst hr ht hn hact ha h0 h1 (rangeEval_none h),
    fun o u prof hact ha h0 h1 h hre hst hack htol => gives_rangingBurst hr ht hn hact ha h0 h1 (rangeEval_ok h hre hst hack htol)⟩
  · simp only [hm, hk, hc, hle, if_true]
  · rcases h with h | ⟨c, hc, hlt⟩
    · simp only [hm, hk, h]
    · simp only [hm, hk, hc, Nat.not_le.2 hlt, if_false]
  · simp only [hm, h]
  · simp only [hm, hk, hst, hauto, hle, beq_self_eq_true, decide_true, Bool.and_self, if_true]
  · simp only [hm, hk, beq_false_of_ne hst, Bool.false_and, Bool.false_eq_true, if_false]
  · simp only [hm, hk, hst, hle, beq_self_eq_true, decide_true, Bool.and_self, if_true]
  · simp only [hm, hk, beq_false_of_ne hst, Bool.false_and, Bool.false_eq_true, if_false]
  · simp only [hm, hk, beq_false_of_ne hst, Bool.false_and, Bool.false_eq_true, if_false]
  · simp only [hm, hk, hst, ha, hpend, hle, beq_self_eq_true, Option.isNone_none, decide_true, Bool.and_self, if_true]
  · rw [hm, hk]
    exact bcastRepeat_due hb hnext ha
  · simp only [hm, h]

end Sys2Proof.Proofs

namespace Sys2Proof.Machine

/-! ## Two writes of one key of a table

A table whose keys rise keeps only the second write. A list that is no such table need not: where the first write removes the key, every
entry of it goes, and the second write alone would have replaced the first of them. -/

theorem Tbl.insert_insert {α : Type} (k : Nat) (v w : α) (t : Tbl α) : (t.insert k v).insert k w = t.insert k w := by
  induction t with
  | nil => simp [Tbl.insert]
  | cons p t ih =>
    obtain ⟨k', v'⟩ := p
    by_cases hlt : k < k'
    · simp [Tbl.insert, hlt]
    · by_cases heq : k = k'
      · simp [Tbl.insert, heq]
      · simp [Tbl.insert, hlt, heq, ih]

theorem Tbl.erase_insert {α : Type} (k : Nat) (v : α) (t : Tbl α) : (t.insert k v).erase k = t.erase k := by
  induction t with
  | nil => simp [Tbl.insert, Tbl.erase]
  | cons p t ih =>
    obtain ⟨k', v'⟩ := p
    by_cases hlt : k < k'
    · simp [Tbl.insert, Tbl.erase, hlt]
    · by_cases heq : k = k'
      · simp [Tbl.insert, Tbl.erase, heq]
      · simp [Tbl.insert, Tbl.erase, hlt, heq, ih]

theorem Tbl.erase_erase {α : Type} (k : Nat) (t : Tbl α) : (t.erase k).erase k = t.erase k := by
  induction t with
  | nil => rfl
  | cons p t ih =>
    obtain ⟨k', v'⟩ := p
    by_cases heq : k = k'
    · subst heq
      simp only [Tbl.erase, if_true, ih]
    · simp only [Tbl.erase, heq, if_false, ih]

/-- Where every key is above k there is nothing of k to remove. -/
theorem Tbl.erase_above {α : Type} {k : Nat} {t : Tbl α} (h : t.above k = true) : t.erase k = t := by
  induction t with
  | nil => rfl
  | cons p t ih =>
    obtain ⟨k', v'⟩ := p
    simp only [Tbl.above, Bool.and_eq_true, decide_eq_true_eq] at h
    obtain ⟨hlt, habove⟩ := h
    simp only [Tbl.erase, Nat.ne_of_lt hlt, if_false, ih (Tbl.above_mono (Nat.le_of_lt hlt) t habove)]

/-- Where every key is above k an entry of k comes first. -/
theorem Tbl.insert_above {α : Type} {k : Nat} {t : Tbl α} (h : t.above k = true) (v : α) : t.insert k v = (k, v) :: t := by
  cases t with
  | nil => rfl
  | cons p t =>
    obtain ⟨k', v'⟩ := p
    simp only [Tbl.above, Bool.and_eq_true, decide_eq_true_eq] at h
    exact if_pos h.1

theorem Tbl.insert_erase {α : Type} {k : Nat} {t : Tbl α} (h : t.sorted = true) (v : α) : (t.erase k).insert k v = t.insert k v := by
  induction t with
  | nil => rfl
  | cons p t ih =>
    obtain ⟨k', v'⟩ := p
    have habove : Tbl.above k' t = true := h
    have hsorted : Tbl.sorted t = true := by
      cases t with
      | nil => rfl
      | cons q t => simp only [Tbl.above, Bool.and_eq_true] at habove; exact habove.2
    by_cases heq : k = k'
    · subst heq
      simp only [Tbl.erase, if_true, Tbl.erase_above habove, Tbl.insert_above habove, Tbl.insert, Nat.lt_irrefl, if_false]
    · by_cases hlt : k < k'
      · simp only [Tbl.erase, heq, if_false, Tbl.erase_above (Tbl.above_mono (Nat.le_of_lt hlt) t habove)]
      · simp only [Tbl.erase, Tbl.insert, heq, hlt, if_false, ih hsorted]

/-- Of two writes of a key of a table the second stands. -/
theorem Tbl.setD_setD {α : Type} [DecidableEq α] (d : Nat → α) {t : Tbl α} (h : t.sorted = true) (k : Nat) (v w : α) :
    (t.setD d k v).setD d k w = t.setD d k w := by
  unfold Tbl.setD
  by_cases hv : v = d k <;> by_cases hw : w = d k <;>
    simp only [hv, hw, if_true, if_false, Tbl.erase_erase, Tbl.erase_insert, Tbl.insert_erase h, Tbl.insert_insert]

end Sys2Proof.Machine

namespace Sys2Proof.Proofs

open Sys2Proof.Machine Sys2Proof.Laws

/-! ## Control messages received (R145, R153) -/

@[simp] theorem sx_setSx_self (s : State) (t : Nat) (x : SxtS) : (s.setSx t x).sx t = x := Tbl.getD_setD_self _ _ _ _

theorem setSx_setSx {s : State} (h : s.sxt.sorted = true) (t : Nat) (x y : SxtS) : (s.setSx t x).setSx t y = s.setSx t y := by
  simp only [State.setSx, Tbl.setD_setD _ h]

/-- A message that waits for its receiver: from a bound terminal with no key, of an upstream type other than COUNTER_RPT, well formed and
under CRC. -/
structure WaitsUnderCrc (s : State) (t : Nat) (c : CtrlIn) : Prop where
  bound : (s.term (termAx t c.term)).st ≠ .init
  keyless : (s.term (termAx t c.term)).keyed = false
  first : c.nth = none
  type : upType (msgType c.msg) = true
  noReport : msgType c.msg ≠ 0x22
  envelope : envelopeOk c.msg c.term = true
  body : bodyOk (msgType c.msg) (msgBody c.msg) = true
  crc : beAt c.msg 1 1 / 128 ≠ 1

section
variable {s : State} {t : Nat} {c : CtrlIn} {l : List CtrlIn} (hact : s.active Ty.SXT t = true) (h0 : s.inv Ty.SXT t 0 = false)
  (h1 : s.inv Ty.SXT t 1 = false) (ha : s.isActive = true) (hin : (s.sx t).inbox = c :: l) (hw : WaitsUnderCrc s t c)
include h0 h1 ha hin hw

/-- Such a message leaves the inbox in one write of the Sextant and joins the good ones in a second. -/
theorem ctrlReceive_waits : s.ctrlReceive t = (s.setSx t { s.sx t with inbox := l }).setSx t
    { s.sx t with inbox := l, good := (s.sx t).good ++ [c] } := by
  obtain ⟨hbound, hkey, hnth, hty, hrep, henv, hbody, hcrc⟩ := hw
  have hclean : (s.setSx t { s.sx t with inbox := l }).recCheck t c.term = s.setSx t { s.sx t with inbox := l } :=
    recCheck_clean (by rwa [setSx_inv]) (by rwa [setSx_inv]) _
  have hterm (x : SxtS) (k : Nat) : (s.setSx t x).term k = s.term k := rfl
  simp only [State.ctrlReceive, hin, hclean, hterm, sx_setSx_self, setSx_isActive, hnth, hty, henv, hbody, hkey, ha,
    beq_false_of_ne hbound, beq_false_of_ne hrep, beq_false_of_ne hcrc, bne_self_eq_false, Bool.not_true, Bool.false_and, Bool.or_self,
    Bool.false_eq_true, if_false]

variable (hr : Running s) (ht : t < 32)
include hact hr ht

theorem gives_sxtControlReceive_waits : Gives (.sxtControlReceive t) s ((s.setSx t { s.sx t with inbox := l }).setSx t
    { s.sx t with inbox := l, good := (s.sx t).good ++ [c] }) := by
  refine Gives.of_live _ hr (rfl : _ = execSxtControlReceive t s) ?_
  rw [Nat.mod_eq_of_lt ht, if_pos hact, ctrlReceive_waits h0 h1 ha hin hw]

/-- Where the Sextants are listed in rising order, as resets and writes list them, the two writes are one. -/
theorem gives_sxtControlReceive_waits_of_sorted (hs : s.sxt.sorted = true) : Gives (.sxtControlReceive t) s
    (s.setSx t { s.sx t with inbox := l, good := (s.sx t).good ++ [c] }) := by
  rw [← setSx_setSx hs t { s.sx t with inbox := l }]
  exact gives_sxtControlReceive_waits hact h0 h1 ha hin hw hr ht

end

/-- A vendor's message (R144) of terminal 0 under CRC, with an empty body. -/
def vendorMsg : Bytes :=
  let head : Bytes := 0xF0 :: List.replicate 55 0
  head ++ toBE 4 (crc32c head) ++ toBE 4 0

def vendorIn : CtrlIn := ⟨0, 0, 0, 0, none, false, vendorMsg⟩

/-- Sextant 0 at work with one message in its inbox, from an operational terminal, and listed twice: not a table that resets and writes
make, but a state all the same. -/
def listedTwice : State :=
  { State.reset.setReg (Reg.CTL Ty.SXT) 0 1 with
    terms := [(0, { termReset with st := .operational })]
    sxt := [(0, { sxtReset with inbox := [vendorIn] }), (0, sxtReset)] }

theorem listedTwice_waits : listedTwice.sx 0 = { sxtReset with inbox := [vendorIn] } ∧ WaitsUnderCrc listedTwice 0 vendorIn :=
  ⟨by decide +kernel, ⟨by decide +kernel, by decide +kernel, rfl, by decide +kernel, by decide +kernel, by decide +kernel,
    by decide +kernel, by decide +kernel⟩⟩

/-- A command gives one next state, so two states it gives have the same Sextants. -/
theorem Gives.sxt_eq {c : Instr} {s t u : State} (ht : Gives c s t) (hu : Gives c s u) : t.sxt = u.sxt := by
  have e : s.done t = s.done u := Host.Outcome.next.inj (ht.symm.trans hu)
  simpa using congrArg State.sxt e

/-- Refutes O44: the message that waits for its receiver is taken off the inbox and added to the good ones by two writes, and the clause says
one. In `listedTwice` the first write leaves Sextant 0 as at reset, which unlists it, so that the second lists it once; one write
would have left its second entry. Nothing but such a list fails the clause (`gives_sxtControlReceive_waits_of_sorted`). -/
theorem not_controlMessagesAndAcknowledgements : ¬ Obligations.ControlMessagesAndAcknowledgements := by
  intro h
  obtain ⟨hsx, hw⟩ := listedTwice_waits
  have hr : Running listedTwice := ⟨rfl, rfl⟩
  have hact : listedTwice.active Ty.SXT 0 = true := by decide +kernel
  have h0 : listedTwice.inv Ty.SXT 0 0 = false := by decide +kernel
  have h1 : listedTwice.inv Ty.SXT 0 1 = false := by decide +kernel
  have ha : listedTwice.isActive = true := by decide +kernel
  have hin : (listedTwice.sx 0).inbox = vendorIn :: [] := by rw [hsx]
  obtain ⟨-, -, hclause, -⟩ := h listedTwice 0 0 hr (by decide) (by decide)
  have hone := hclause vendorIn [] hact h0 h1 ha hin hw.bound hw.first hw.type hw.noReport hw.envelope hw.body hw.crc hw.keyless
  have htwo := gives_sxtControlReceive_waits hact h0 h1 ha hin hw hr (by decide)
  have hlists := Gives.sxt_eq htwo hone
  rw [hsx] at hlists
  exact absurd (congrArg List.length hlists) (by decide +kernel)

end Sys2Proof.Proofs

/-! PROOF. The family of 06_terminal_keys.md: the sessions of the key agreement, the terminal's proof, key switches, re-agreement and group
rekeys, the driver's commands, the tables of the key agent, the time of day and the DRBG. -/

namespace Sys2Proof.Proofs

open Sys2Proof.Machine Sys2Proof.Laws

/-! ## Taking a good message off its Sextant -/

section
variable {s : State} {t ty : Nat}

theorem takeGood_none (h : ∀ c ∈ (s.sx t).good, msgType c.msg ≠ ty) : s.takeGood t ty = (s, none) := by
  have hfind : (s.sx t).good.find? (fun c => msgType c.msg == ty) = none := List.find?_eq_none.2 fun c hc => by simpa using h c hc
  simp only [State.takeGood, hfind]

/-- Where the oldest good message has the type it is the one taken. -/
theorem takeGood_front {c : CtrlIn} {l : List CtrlIn} (hg : (s.sx t).good = c :: l) (hty : msgType c.msg = ty) :
    s.takeGood t ty = (s.setSx t { s.sx t with good := l }, some c) := by
  simp [State.takeGood, hg, hty]

end

/-! ## Opening a session (R173, R185) -/

section
variable {s : State} {ax : Nat}

theorem kaSession_waits (hw : s.kaWaits ax = true) (hm : s.kaMay = true) : s.kaSession ax =
    if (s.term ax).noKem then
      (((s.setKt ax { s.kt ax with waitAt := none }).count Reg.PKA_KX_FAILED 0).kaEvent 0x30 ax 0x0A 0 0).kaDeact ax 5 false
    else s.kaOpen ax 1 := by
  simp only [State.kaSession, hw, hm, Bool.and_self, if_true]

theorem kaSession_reagrees (hw : s.kaWaits ax = false) (h2 : s.kaReady2 ax = true) (hm : s.kaMay = true) :
    s.kaSession ax = s.kaOpen ax 2 := by
  simp only [State.kaSession, hw, h2, hm, Bool.and_self, Bool.false_and, Bool.false_eq_true, if_false, if_true]

theorem kaSession_idle (h : s.kaMay = false ∨ (s.kaWaits ax = false ∧ s.kaReady2 ax = false)) : s.kaSession ax = s := by
  rcases h with hm | ⟨hw, h2⟩
  · simp only [State.kaSession, hm, Bool.and_false, Bool.false_eq_true, if_false]
  · simp only [State.kaSession, hw, h2, Bool.false_and, Bool.false_eq_true, if_false]

end

/-! ## Segments, statuses and aborts received (R169, R170, R185) -/

section
variable {s r : State} {t : Nat} {c : CtrlIn} {e : Sess}

theorem segReceive_none (h : s.takeGood t 0x41 = (s, none)) : s.segReceive t = s := by simp only [State.segReceive, h]

theorem statusReceive_none (h : s.takeGood t 0x42 = (s, none)) : s.statusReceive t = s := by simp only [State.statusReceive, h]

theorem abortReceive_none (h : s.takeGood t 0x44 = (s, none)) : s.abortReceive t = s := by simp only [State.abortReceive, h]

theorem segReceive_stray (h : s.takeGood t 0x41 = (r, some c)) (hs : r.kaSess (termAx t c.term) (beAt (msgBody c.msg) 1 1) = none) :
    s.segReceive t = r.count Reg.PKA_KX_STRAY 0 := by
  simp only [State.segReceive, h, hs]

theorem statusReceive_stray (h : s.takeGood t 0x42 = (r, some c)) (hs : r.kaSess (termAx t c.term) (beAt (msgBody c.msg) 1 1) = none) :
    s.statusReceive t = r.count Reg.PKA_KX_STRAY 0 := by
  simp only [State.statusReceive, h, hs]

theorem abortReceive_stray (h : s.takeGood t 0x44 = (r, some c)) (hs : r.kaSess (termAx t c.term) (beAt (msgBody c.msg) 0 1) = none) :
    s.abortReceive t = r.count Reg.PKA_KX_STRAY 0 := by
  simp only [State.abortReceive, h, hs]

/-- The first segment of an object of several segments is stored with the tick, and nothing is answered yet. -/
theorem segReceive_first (h : s.takeGood t 0x41 = (r, some c)) {obj total seg : Nat} (hobj : beAt (msgBody c.msg) 0 1 = obj)
    (htotal : beAt (msgBody c.msg) 4 2 = total) (hseg : beAt (msgBody c.msg) 2 2 = seg)
    (hs : r.kaSess (termAx t c.term) (beAt (msgBody c.msg) 1 1) = some e) (hlo : 4 ≤ obj) (hhi : obj ≤ 6) (hnew : e.rx.find obj = none)
    (hlen : totalOk obj total = true) (hin : seg < ceilDiv total 40) (hmany : ceilDiv total 40 ≠ 1) :
    let o : RxObj := { total := total, segs := [(seg, sliceB (msgBody c.msg) 8 40)], since := r.tm.tickNo, refused := false }
    s.segReceive t =
      r.setKt (termAx t c.term) { r.kt (termAx t c.term) with sess := some { e with rx := e.rx.insert obj o } } := by
  intro o
  have hrange : ¬ ((decide (obj < 4) || decide (6 < obj)) = true) := by simp; omega
  have hopen : o.complete = false := by simpa [RxObj.complete, o] using hmany.symm
  simp only [State.segReceive, h, hobj, htotal, hseg, hs, hrange, hnew, hlen, Nat.not_le.2 hin, Bool.not_true, Bool.false_eq_true, if_false]
  exact if_neg (Bool.eq_false_iff.1 hopen)

/-- STATE 0 of an object marks it done. -/
theorem statusReceive_done (h : s.takeGood t 0x42 = (r, some c)) (hs : r.kaSess (termAx t c.term) (beAt (msgBody c.msg) 1 1) = some e)
    {obj : Nat} {o : TxObj} (hobj : beAt (msgBody c.msg) 0 1 = obj) (ho : e.tx.find obj = some o) (hst : beAt (msgBody c.msg) 2 1 = 0) :
    s.statusReceive t = r.setKt (termAx t c.term)
      { r.kt (termAx t c.term) with sess := some { e with tx := e.tx.insert obj { o with done := true, todo := [] } } } := by
  simp only [State.statusReceive, h, hs, hobj, ho, hst]

theorem abortReceive_fails (h : s.takeGood t 0x44 = (r, some c)) (hs : r.kaSess (termAx t c.term) (beAt (msgBody c.msg) 0 1) = some e) :
    s.abortReceive t = r.kaFail (termAx t c.term) (beAt (msgBody c.msg) 1 1) (beAt (msgBody c.msg) 2 1) false := by
  simp only [State.abortReceive, h, hs]

end

/-! ## Waits for objects (R170) -/

section
variable {s : State} {ax obj : Nat} {e : Sess}

theorem objWait_idle (h : s.isActive = false ∨ (s.kt ax).sess = none) : s.objWait ax obj = s := by
  rcases h with ha | hs
  · simp only [State.objWait, ha, Bool.not_false, if_true]
  · simp only [State.objWait, hs, ite_self]

variable (ha : s.isActive = true) (hs : (s.kt ax).sess = some e)
include ha hs

/-- An incomplete object is asked for once OBJ_WAIT ticks have passed. -/
theorem objWait_incomplete {o : RxObj} (ho : e.rx.find obj = some o) (hc : o.complete = false) : s.objWait ax obj =
    if s.tm.tickNo < o.since + e.objWait then s else
      (s.setKt ax { s.kt ax with sess := some { e with rx := e.rx.insert obj { o with since := s.tm.tickNo } } }).kaStatus ax obj e.session 1
        (missingOf o) := by
  simp only [State.objWait, ha, hs, ho, hc, Bool.not_true, Bool.false_or, decide_eq_true_eq, Bool.false_eq_true, if_false]

/-- A sent object with nothing left to send and no STATE 0 goes again as a whole after twice that. -/
theorem objWait_unacknowledged {o : TxObj} (hr : e.rx.find obj = none) (ho : e.tx.find obj = some o) (hd : o.done = false) (htodo : o.todo = [])
    (hlate : o.since + 2 * e.objWait ≤ s.tm.tickNo) : s.objWait ax obj = s.resend ax obj e o (List.range (ceilDiv o.data.length 40)) := by
  simp only [State.objWait, ha, hs, hr, ho, hd, htodo, Nat.not_lt.2 hlate, List.isEmpty_nil, Bool.not_true, Bool.false_or, decide_false,
    Bool.false_eq_true, if_false]

end

/-- Settles O46: each command by the conditions of its rule, the receivers through what taking the oldest good message does. -/
theorem keyAgreementSessions : Obligations.KeyAgreementSessions := by
  intro s t n hr ht hn
  have hm : t % 32 = t := Nat.mod_eq_of_lt ht
  have hk : n % 512 = n := Nat.mod_eq_of_lt hn
  have opens {r : State} (q : s.kaSession (termAx t n) = r) : Gives (.kxSessionOpen t n) s r :=
    Gives.of_live _ hr (rfl : _ = execKxSessionOpen t n s) (by rw [hm, hk, q])
  have seg {r : State} (q : s.segReceive t = r) : Gives (.kxSegReceive t) s r :=
    Gives.of_live _ hr (rfl : _ = execKxSegReceive t s) (by rw [hm, q])
  have status {r : State} (q : s.statusReceive t = r) : Gives (.kxStatusReceive t) s r :=
    Gives.of_live _ hr (rfl : _ = execKxStatusReceive t s) (by rw [hm, q])
  have abort {r : State} (q : s.abortReceive t = r) : Gives (.kxAbortReceive t) s r :=
    Gives.of_live _ hr (rfl : _ = execKxAbortReceive t s) (by rw [hm, q])
  have wait {obj : Nat} {r : State} (q : s.objWait (termAx t n) obj = r) : Gives (.objWaitExpiry t n obj) s r :=
    Gives.of_live _ hr (rfl : _ = execObjWaitExpiry t n obj s) (by rw [hm, hk, q])
  refine ⟨fun hw hmay => opens (kaSession_waits hw hmay), fun hw h2 hmay => opens (kaSession_reagrees hw h2 hmay),
    fun h => opens (kaSession_idle h),
    fun h => ⟨seg (segReceive_none (takeGood_none fun c hc => (h c hc).1)),
      status (statusReceive_none (takeGood_none fun c hc => (h c hc).2.1)),
      abort (abortReceive_none (takeGood_none fun c hc => (h c hc).2.2))⟩,
    fun c l hg => ⟨fun hty hs => seg (segReceive_stray (takeGood_front hg hty) hs),
      fun hty hs => status (statusReceive_stray (takeGood_front hg hty) hs),
      fun hty hs => abort (abortReceive_stray (takeGood_front hg hty) hs),
      fun e hty hs hobj hnew htotal hseg => seg (segReceive_first (takeGood_front hg hty) hobj htotal rfl hs (by decide) (by decide) hnew
        (by decide) hseg (by decide)),
      fun e o hty hs ho hst => status (statusReceive_done (takeGood_front hg hty) hs rfl ho hst),
      fun e hty hs => abort (abortReceive_fails (takeGood_front hg hty) hs)⟩,
    fun obj h => wait (objWait_idle h), fun e obj o ha hs ho hc => ⟨fun hlt => wait ?_, fun hle => wait ?_⟩,
    fun e obj o ha hs hnone ho hd htodo hle => ⟨fun h4 => wait ?_, fun h4 => wait ?_⟩,
    fun hs => Gives.of_live _ hr (rfl : _ = execSessionLimitExpiry t n s) ?_,
    fun e hs => Gives.of_live _ hr (rfl : _ = execSessionLimitExpiry t n s) ?_⟩
  · rw [objWait_incomplete ha hs ho hc, if_pos hlt]
  · rw [objWait_incomplete ha hs ho hc, if_neg (Nat.not_lt.2 hle)]
  · rw [objWait_unacknowledged ha hs hnone ho hd htodo hle, State.resend, if_pos h4]
  · rw [objWait_unacknowledged ha hs hnone ho hd htodo hle, State.resend, if_neg (Nat.not_le.2 h4)]
  · simp only [hm, hk, hs]
  · simp only [hm, hk, hs, Bool.and_eq_true, beq_iff_eq, decide_eq_true_eq]

/-! ## The terminal's proof (R171, R173 to R175) -/

/-- Nothing is judged twice, nor before the three objects are complete. -/
theorem kxVerify_waits {s : State} {ax : Nat} {e : Sess} (hs : (s.kt ax).sess = some e)
    (h : e.verified = true ∨ e.rxDone 4 = false ∨ e.rxDone 5 = false ∨ e.rxDone 6 = false) : s.kxVerify ax = s := by
  rcases h with h | h | h | h <;>
    simp only [State.kxVerify, hs, h, Bool.true_or, Bool.or_true, Bool.false_and, Bool.and_false, Bool.not_false, if_true]

/-! ## Switches and re-agreements that fall due (R180, R183, R184) -/

section
variable {s : State} {ax : Nat}

/-- At the last generation a re-agreement falls due in place of the switch. -/
theorem switchDue_last (hg : (s.kt ax).kgen = 0xFFFFFFFF) (hn : (s.kt ax).nextTms = none) :
    s.switchDue ax = s.setKt ax { s.kt ax with reDue := true } := by
  simp only [State.switchDue, hg, hn, beq_self_eq_true, Option.isNone_none, Bool.and_self, if_true]

theorem switchDue_before (hg : (s.kt ax).kgen < 0xFFFFFFFF) :
    s.switchDue ax = if (s.kt ax).dueAt = none then s.setKt ax { s.kt ax with dueAt := some s.tm.m } else s := by
  simp only [State.switchDue, beq_false_of_ne (Nat.ne_of_lt hg), Option.isNone_iff_eq_none, Bool.false_and, Bool.false_eq_true, if_false]

theorem tmsAge_some {m : Tms} (h : (s.kt ax).tms = some m) : s.tmsAge ax = some (s.tm.m - m.born) := by
  simp only [State.tmsAge, h, Option.map_some]

/-- A re-agreement has not succeeded where it is still open, or formed no master secret. -/
theorem agreed_eq_false {x : KaTerm} (h : x.nextTms = none ∨ x.sess.isSome = true) : x.agreed = false := by
  rcases h with h | h
  · simp only [KaTerm.agreed, h, Option.isSome_none, Bool.false_and]
  · simp only [KaTerm.agreed, Option.isNone_eq_false_iff.2 h, Bool.and_false]

end

section
variable {s r : State} {t n : Nat} (hr : Running s) (ht : t < 32) (hn : n < 512) (ha : s.isActive = true) (hf : s.tm.free = false)
include hr ht hn ha hf

/-- REKEY_TICKS after the last switch of a keyed terminal that is bound, its next one falls due. -/
theorem gives_rekeyDue (hx : (s.kt (termAx t n)).tms.isSome = true) (hkey : (s.term (termAx t n)).keyed = true)
    (hb : (s.term (termAx t n)).st.bound = true) (hle : (s.kt (termAx t n)).lastSw + s.kaPar Reg.PKA_REKEY_TICKS_TICKS ≤ s.tm.m)
    (q : s.switchDue (termAx t n) = r) : Gives (.rekeyDue t n) s r := by
  refine Gives.of_live _ hr (rfl : _ = execRekeyDue t n s) ?_
  simp only [Nat.mod_eq_of_lt ht, Nat.mod_eq_of_lt hn, hf, ha, Option.isNone_eq_false_iff.2 hx, hkey, hb, Nat.not_lt.2 hle, decide_false,
    Bool.not_true, Bool.or_self, Bool.false_eq_true, if_false, q]

end

/-! ## Group rekeys (R179) -/

section
variable {s : State} {g : Nat}

/-- A rekey of a group is due. -/
def groupDue (s : State) (g : Nat) : Bool :=
  (s.kg g).dueAt.isSome || decide ((s.kg g).lastSw + s.kaPar Reg.PKA_REKEY_TICKS_TICKS ≤ s.tm.m)

theorem groupRekey_idle (h : groupDue s g = false ∨ (s.assoc g).st = .invalid ∨ (s.kg g).sw.isSome = true ∨ (s.assoc g).sw.isSome = true) :
    s.groupRekey g = s := by
  refine if_pos ?_
  simp only [groupDue] at h
  rcases h with h | h | h | h <;> simp [h]

/-- A rekey that nothing holds draws the key, places it in the opposite phase and, where it was placed, names T and tells every member. -/
theorem groupRekey_starts (hdue : groupDue s g = true) (hst : (s.assoc g).st ≠ .invalid) (hk : (s.kg g).sw = none) (ha : (s.assoc g).sw = none)
    (hd : s.ka.drbgOk = true) (hbusy : (s.groupMembers g).any s.kaBusy = false) (hact : s.isActive = true) (hf : s.tm.free = false)
    {key : Bytes} {s1 r : State} {st : Nat} (hdraw : s.drawBytes 32 = (key, s1))
    (hplace : s1.install g (1 - (s.assoc g).cur) (freshKey key [] [] true (match (s.assoc g).pos (s.assoc g).cur with
      | some p => p.kgen + 1
      | none => 0)) s1.usageCfg = (r, st)) :
    let q := 1 - (s.assoc g).cur
    let mem := s.groupMembers g
    let u := s.tm.m + s.kaPar Reg.PKA_SWITCH_CFG_SWITCH_LEAD + 2 * ceilDiv (busiest mem) 64
    s.groupRekey g = if st = 0 then
      mem.foldl (fun s ax => s.groupKey ax g false) (((r.setKg g
        { s.kg g with dueAt := none, sw := some (u, q), past := false, waiting := mem, refused := [], late := [] }).setSwitch g q u).kgMirror g)
      else r := by
  have hfree : (!groupDue s g || s.tm.free || !s.isActive || !s.ka.drbgOk || (s.assoc g).st == .invalid || (s.kg g).sw.isSome ||
      (s.assoc g).sw.isSome || (s.groupMembers g).any s.kaBusy) = false := by
    simp [hdue, hf, hact, hd, hst, hk, ha, hbusy]
  rw [groupDue] at hfree
  cases hcur : (s.assoc g).pos (s.assoc g).cur <;> simp only [hcur] at hplace <;>
    simp only [State.groupRekey, hfree, hdraw, hcur, hplace, bne_iff_ne, ne_eq, ite_not, Bool.false_eq_true, if_false]

end

/-- Settles O47: the proof through the chain check's outcome, each due time by the comparison that makes it due, the group rekey through
the draw and the placing of its key. -/
theorem keyProofAndSwitches : Obligations.KeyProofAndSwitches := by
  intro s t n hr ht hn hact hfree
  have hm : t % 32 = t := Nat.mod_eq_of_lt ht
  have hk : n % 512 = n := Nat.mod_eq_of_lt hn
  have verify {r : State} (q : s.kxVerify (termAx t n) = r) : Gives (.kxVerifyDone t n) s r :=
    Gives.of_live _ hr (rfl : _ = execKxVerifyDone t n s) (by rw [hm, hk, q])
  refine ⟨fun hs => verify ?_, fun e hs h => verify (kxVerify_waits hs h), fun e hs hv h4 h5 h6 => ?_,
    fun h => Gives.of_live _ hr (rfl : _ = execRekeyDue t n s) ?_,
    fun hx hkey hb hle => ⟨fun hg hnext => gives_rekeyDue hr ht hn hact hfree hx hkey hb hle (switchDue_last hg hnext),
      fun hg hdue => gives_rekeyDue hr ht hn hact hfree hx hkey hb hle ((switchDue_before hg).trans (if_pos hdue)),
      fun d hg hdue => gives_rekeyDue hr ht hn hact hfree hx hkey hb hle ((switchDue_before hg).trans (if_neg (by simp [hdue])))⟩,
    fun h => Gives.of_live _ hr (rfl : _ = execKeySwitchStart s) ?_,
    fun bx hlt hnext => Gives.of_live _ hr (rfl : _ = execKeySwitchStart s) ?_,
    fun m hx => ⟨fun hlt => Gives.of_live _ hr (rfl : _ = execReagreeDue t n s) ?_,
      fun hle hdue hretry hnext hs => Gives.of_live _ hr (rfl : _ = execReagreeDue t n s) ?_,
      fun hlt => Gives.of_live _ hr (rfl : _ = execTmsAgeLimit t n s) ?_,
      fun hnext hs => Gives.of_live _ hr (rfl : _ = execTmsAgeLimit t n s) ?_,
      fun hle hb hnot => Gives.of_live _ hr (rfl : _ = execTmsAgeLimit t n s) ?_⟩,
    fun u hx => Gives.of_live _ hr (rfl : _ = execReagreeRetryExpiry t n s) ?_,
    fun g h => Gives.of_live _ hr (rfl : _ = execGroupRekeyStart g s) (if_neg ?_),
    fun g hlo hhi => ⟨fun h => Gives.of_live _ hr (rfl : _ = execGroupRekeyStart g s) ?_,
      fun hdue hst hsw hasw hd hbusy => ?_⟩⟩
  · simp only [State.kxVerify, hs]
  · split
    next r code hcheck =>
    refine verify ?_
    rcases hleaf : (chainParse (e.rxBytes 5)).bind (·.head?) with _ | ⟨der, leaf⟩ <;>
      simp only [State.kxVerify, hcheck, hleaf, hs, hv, h4, h5, h6, hact, hfree, Bool.not_true, Bool.and_self, Bool.or_self,
        Bool.false_eq_true, if_false, bne_iff_ne, ne_eq, Bool.not_eq_true']
  · rcases h with h | h <;> simp [hm, hk, h]
  · rcases h with h | h <;> simp [h]
  · simp only [hfree, hact, Nat.not_le.2 hlt, hnext, Bool.not_true, Bool.or_self, decide_false, Bool.false_eq_true, if_false]
  · simp only [hm, hk, tmsAge_some hx, hlt, decide_true, Bool.or_true, if_true]
  · simp only [hm, hk, tmsAge_some hx, hfree, hact, hdue, hretry, hnext, hs, Nat.not_lt.2 hle, Option.isSome_none, decide_false,
      Bool.not_true, Bool.or_self, Bool.false_eq_true, if_false]
  · simp only [hm, hk, tmsAge_some hx, hlt, decide_true, Bool.or_true, if_true]
  · simp only [hm, hk, tmsAge_some hx, KaTerm.agreed, hnext, hs, Option.isNone_none, Bool.and_self, Bool.or_true, Bool.true_or, if_true]
  · simp only [hm, hk, tmsAge_some hx, hfree, hact, hb, agreed_eq_false hnot, Nat.not_lt.2 hle, decide_false, Bool.not_true, Bool.or_self,
      Bool.false_eq_true, if_false]
  · simp only [hm, hk, hx, hact, Bool.and_true, decide_eq_true_eq]
  · rw [Bool.and_eq_true, decide_eq_true_eq, decide_eq_true_eq]
    omega
  · rw [if_pos (by simp [hlo, hhi]), groupRekey_idle h]
  · split
    next key s1 hdraw =>
    split
    next r st hplace =>
    refine Gives.of_live _ hr (rfl : _ = execGroupRekeyStart g s) ?_
    rw [if_pos (by simp [hlo, hhi])]
    exact groupRekey_starts hdue hst hsw hasw hd hbusy hact hfree hdraw hplace

/-! ## The driver's commands (R226) -/

section
variable {s : State}

theorem kaCmd_standby (h : s.isActive = false) (op : Nat) (f : State → State × Nat) :
    s.kaCmd op f = s.setReg Reg.PKA_KA_CMD 0 (op + 2 * 2 ^ 24) := by
  simp only [State.kaCmd, h, Bool.not_false, if_true]

theorem kaCmd_active (h : s.isActive = true) (op : Nat) (f : State → State × Nat) :
    s.kaCmd op f = (f s).1.setReg Reg.PKA_KA_CMD 0 (op + (f s).2 * 2 ^ 24) := by
  simp only [State.kaCmd, h, Bool.not_true, Bool.false_eq_true, if_false]

/-- What KA_REKEY and KA_REAGREE do in the active device: the terminal of KA_ARG is refused, or gets what the command is for. -/
theorem kaCmd_target (h : s.isActive = true) (op : Nat) (f : State → Nat → State) :
    s.kaCmd op (fun s => if s.kaTarget.2 != 0 then (s, s.kaTarget.2) else (f s s.kaTarget.1, 0)) =
      let ax := termAx (s.fld Reg.PKA_KA_ARG_TREE 0) (s.fld Reg.PKA_KA_ARG_TERMINAL 0)
      if s.hasTree (s.fld Reg.PKA_KA_ARG_TREE 0) = false then s.setReg Reg.PKA_KA_CMD 0 (op + 4 * 2 ^ 24)
      else if (s.term ax).keyed = false then s.setReg Reg.PKA_KA_CMD 0 (op + 1 * 2 ^ 24)
      else (f s ax).setReg Reg.PKA_KA_CMD 0 (op + 0 * 2 ^ 24) := by
  rw [kaCmd_active h]
  rcases Bool.eq_false_or_eq_true (s.hasTree (s.fld Reg.PKA_KA_ARG_TREE 0)) with ht | ht
  · rcases Bool.eq_false_or_eq_true (s.term (termAx (s.fld Reg.PKA_KA_ARG_TREE 0) (s.fld Reg.PKA_KA_ARG_TERMINAL 0))).keyed with hk | hk <;>
      simp [State.kaTarget, ht, hk]
  · simp [State.kaTarget, ht]

end

/-! ## The tables of the key agent (R226) -/

/-- What ends a table load: TABLE_CMD shows the command, the window and the STATUS, and TABLE_DONE is set. -/
def tableDone (op window st : Nat) (s : State) : State :=
  (s.setReg Reg.PKA_TABLE_CMD 0 (op + window % 16 * 16 + st * 2 ^ 24)).intSet Ty.PKA 0 4

theorem tableDone_window {w : Nat} (hw : w < 16) (op st : Nat) (s : State) : tableDone op w st s =
    (s.setReg Reg.PKA_TABLE_CMD 0 (op + w * 16 + st * 2 ^ 24)).intSet Ty.PKA 0 4 := by
  rw [tableDone, Nat.mod_eq_of_lt hw]

section
variable {s : State} {op w : Nat} {lenOk : Bool} {f : State → Nat} {g : State → State}

/-- A length that the rule refuses ends the load before any read. -/
theorem tableCmd_badLength (hlen : ¬ lenOk = true) : s.tableCmd op w lenOk f g = tableDone op w 1 s := by
  simp only [State.tableCmd, Bool.eq_false_iff.2 hlen, Bool.not_false, if_true]
  rfl

theorem tableCmd_badWindow (hlen : lenOk = true) (hop : op ≠ 4)
    (hw : s.winOk (w % 16) (s.reg64 Reg.PKA_TABLE_ADDR_LO 0) (s.fld Reg.PKA_TABLE_LEN_BYTES 0) false = false) :
    s.tableCmd op w lenOk f g = tableDone op w 4 (s.count Reg.HIF_WIN_FAULT 0) := by
  simp only [State.tableCmd, State.dmaRead, hlen, hw, beq_false_of_ne hop]
  rfl

/-- What was read is stored where its check ends with STATUS 0; CLEAR_CHAIN, the command 4, reads nothing. -/
theorem tableCmd_read (hlen : lenOk = true)
    (hw : op = 4 ∨ s.winOk (w % 16) (s.reg64 Reg.PKA_TABLE_ADDR_LO 0) (s.fld Reg.PKA_TABLE_LEN_BYTES 0) false = true) :
    s.tableCmd op w lenOk f g = tableDone op w (f s) (if f s = 0 then g s else s) := by
  have hread : (if op = 4 then (s, true) else
      s.dmaRead (w % 16) (s.reg64 Reg.PKA_TABLE_ADDR_LO 0) (s.fld Reg.PKA_TABLE_LEN_BYTES 0)) = (s, true) := by
    rcases hw with rfl | hw
    · rfl
    · simp only [State.dmaRead, hw, if_true, ite_self]
  simp only [State.tableCmd, hlen, hread, beq_iff_eq, Bool.not_true, Bool.false_eq_true, if_false]
  rfl

end

/-! ## The DRBG after a health failure (R228) -/

section
variable {s : State} (hr : Running s) (hd : s.ka.drbgOk = false) (hle : s.ka.reseedAt ≤ s.tm.tickNo)
include hr hd hle

/-- A retry whose health tests fail, by themselves or by the inverted check, raises the error again. -/
theorem gives_drbgReseedRetry_fails {ok : Bool} (h : ok = false ∨ s.inv Ty.PKA 0 2 = true) :
    Gives (.drbgReseedRetry ok) s (((s.invDone Ty.PKA 0 2).raise Ty.PKA 0 4 0 0).drbgFail) := by
  refine Gives.of_live _ hr (rfl : _ = execDrbgReseedRetry ok s) ?_
  have hfails : (!ok || s.inv Ty.PKA 0 2) = true := by simpa using h
  simp only [hd, hfails, Nat.not_lt.2 hle, decide_false, Bool.or_self, Bool.false_eq_true, if_false, if_true]

/-- One whose tests pass restores the DRBG, and draws the device secret where there is none yet. -/
theorem gives_drbgReseedRetry_restores (hi : s.inv Ty.PKA 0 2 = false) :
    let r : State := { s with ka := { s.ka with drbgOk := true } }
    Gives (.drbgReseedRetry true) s (if r.lcs.vbat.secret = none then r.newSecret else r) := by
  refine Gives.of_live _ hr (rfl : _ = execDrbgReseedRetry true s) ?_
  simp only [hd, hi, Nat.not_lt.2 hle, decide_false, Bool.not_true, Bool.or_self, Option.isNone_iff_eq_none, Bool.false_eq_true, if_false]

end

/-- Settles O48: KA_CMD through the terminal it names, the table loads through the three ways one ends, the rest by its condition. -/
theorem keyAgentCommandsTablesAndTime : Obligations.KeyAgentCommandsTablesAndTime := by
  intro s hr
  refine ⟨fun ha => ⟨Gives.of_live _ hr (rfl : _ = execKaRekey s) (kaCmd_standby ha _ _),
      Gives.of_live _ hr (rfl : _ = execKaReagree s) (kaCmd_standby ha _ _),
      Gives.of_live _ hr (rfl : _ = execKaGroupRekey s) (kaCmd_standby ha _ _)⟩,
    fun ha => ?_, fun w d hw => ?_, Gives.of_live _ hr (rfl : _ = execClearChain s) (tableCmd_read rfl (.inl rfl)), fun t ht => ?_,
    fun h => Gives.of_live _ hr (rfl : _ = execKaNoChainCount s) ?_, fun hc hle => Gives.of_live _ hr (rfl : _ = execKaNoChainCount s) ?_,
    fun ok h => Gives.of_live _ hr (rfl : _ = execDrbgReseedRetry ok s) ?_,
    fun hd hle hi ok => gives_drbgReseedRetry_fails hr hd hle (.inr hi),
    fun hd hle hi => ⟨gives_drbgReseedRetry_restores hr hd hle hi, gives_drbgReseedRetry_fails hr hd hle (.inl rfl)⟩⟩
  · have rekey {r : State} (q : _ = r) : Gives .kaRekey s r :=
      Gives.of_live _ hr (rfl : _ = execKaRekey s) ((kaCmd_target ha 1 State.switchDue).trans q)
    have reagree {r : State} (q : _ = r) : Gives .kaReagree s r := Gives.of_live _ hr (rfl : _ = execKaReagree s)
      ((kaCmd_target ha 2 fun s ax => s.setKt ax { s.kt ax with reDue := true, retryAt := none }).trans q)
    have named {b t : Bool} (h : b = false ∨ t = true) : (b && !t) = false := by simpa [imp_iff_not_or] using h
    refine ⟨fun ht => ⟨rekey (if_pos ht), reagree (if_pos ht)⟩, fun ht hk => ⟨rekey ?_, reagree ?_⟩, fun ht hk => ⟨rekey ?_, reagree ?_⟩,
      fun hb ht => Gives.of_live _ hr (rfl : _ = execKaGroupRekey s) ?_, fun hb hst => Gives.of_live _ hr (rfl : _ = execKaGroupRekey s) ?_,
      fun hb hst => Gives.of_live _ hr (rfl : _ = execKaGroupRekey s) ?_⟩
    · simp only [ht, hk, Bool.true_eq_false, if_false, if_true]
    · simp only [ht, hk, Bool.true_eq_false, if_false, if_true]
    · simp only [ht, hk, Bool.true_eq_false, if_false]
    · simp only [ht, hk, Bool.true_eq_false, if_false]
    · simp only [kaCmd_active ha, hb, ht, Bool.not_false, Bool.and_self, if_true]
    · simp only [kaCmd_active ha, named hb, hst, beq_self_eq_true, Bool.false_eq_true, if_false, if_true]
    · simp only [kaCmd_active ha, named hb, beq_false_of_ne hst, Bool.false_eq_true, if_false]
  · have hlow : w % 16 = w := Nat.mod_eq_of_lt hw
    have anchors {r : State} (q : _ = r) : Gives (.loadAnchors w d) s r := Gives.of_live _ hr (rfl : _ = execLoadAnchors w d s) q
    have deny {r : State} (q : _ = r) : Gives (.loadDeny w d) s r := Gives.of_live _ hr (rfl : _ = execLoadDeny w d s) q
    have chain {r : State} (q : _ = r) : Gives (.loadChain w d) s r := Gives.of_live _ hr (rfl : _ = execLoadChain w d s) q
    simp only [← tableDone_window hw]
    refine ⟨fun h => anchors (tableCmd_badLength ?_), fun h => deny (tableCmd_badLength ?_), fun h => chain (tableCmd_badLength ?_),
      fun hwin => ⟨fun h1 h2 => deny (tableCmd_badWindow ?_ (by decide) (by rwa [hlow])),
        fun h1 h2 => chain (tableCmd_badWindow ?_ (by decide) (by rwa [hlow]))⟩,
      fun hwin => ⟨fun h1 h2 h3 => anchors ((tableCmd_read ?_ (.inr (by rwa [hlow]))).trans ?_),
        fun h1 h2 => deny (tableCmd_read ?_ (.inr (by rwa [hlow]))),
        fun h1 h2 => chain ((tableCmd_read ?_ (.inr (by rwa [hlow]))).trans ?_)⟩⟩
    · simp only [Bool.and_eq_true, beq_iff_eq, decide_eq_true_eq]
      omega
    · simp only [Bool.and_eq_true, beq_iff_eq, decide_eq_true_eq]
      omega
    · simp only [Bool.and_eq_true, decide_eq_true_eq]
      omega
    · simp only [h1, h2, beq_self_eq_true, decide_true, Bool.and_self]
    · simp only [Nat.succ_le_of_lt h1, h2, decide_true, Bool.and_self]
    · simp only [h1, h2, h3, beq_self_eq_true, decide_true, Bool.and_self]
    · split <;> rfl
    · simp only [h1, h2, beq_self_eq_true, decide_true, Bool.and_self]
    · simp only [Nat.succ_le_of_lt h1, h2, decide_true, Bool.and_self]
    · split <;> rfl
  · have hm : t % 32 = t := Nat.mod_eq_of_lt ht
    refine ⟨fun h => Gives.of_live _ hr (rfl : _ = execTodBroadcast t s) ?_,
      fun hp hn hf ha hact hdone => Gives.of_live _ hr (rfl : _ = execTodBroadcast t s) ?_,
      fun c l hg hty hf => Gives.of_live _ hr (rfl : _ = execTimeReqReceive t s) ?_⟩
    · rw [hm]
      refine if_pos ?_
      rcases h with h | h | h | h | h <;> simp [h]
    · rw [hm]
      refine if_neg ?_
      simp [hp, hn, hf, ha, hact, hdone]
    · have hkeyed (x : SxtS) (k : Nat) : ((s.setSx t x).term k).keyed = (s.term k).keyed := (rfl)
      simp only [hm, takeGood_front hg hty, hkeyed, setSx_tm, hf, Bool.not_eq_true', Bool.false_eq_true, if_false]
      cases (s.term (termAx t c.term)).keyed <;> simp only [Bool.false_eq_true, Bool.true_eq_false, if_false, if_true]
  · refine if_pos ?_
    rcases h with h | h <;> simp [h]
  · refine if_neg ?_
    simp [hc, hle]
  · refine if_pos ?_
    rcases h with h | h <;> simp [h]

end Sys2Proof.Proofs

/-! PROOF. The family of 07_almanac_cipher.md: the slot commands of ALM_CMD, the hot slots and their re-masking, the items of the pools,
held items and their loads, and the known-answer tests. -/

namespace Sys2Proof.Proofs

open Sys2Proof.Machine Sys2Proof.Laws

/-! ## Ranges of AX, and the operations each of them takes from the host (R191, R207) -/

section
variable {ax : Nat}

theorem axRange_soft : axRange ax = .soft ↔ 28712 ≤ ax := by
  unfold axRange
  split_ifs <;> simp <;> omega

theorem axRange_beq_soft : (axRange ax == .soft) = decide (28712 ≤ ax) := by
  rw [Bool.eq_iff_iff, beq_iff_eq, axRange_soft, decide_eq_true_eq]

/-- No unit owns a software-defined association. -/
theorem axAbsent_soft {s : State} (h : 28712 ≤ ax) : s.axAbsent ax = false := by
  simp only [State.axAbsent, axRange_soft.2 h]

variable (s : State)

/-- GEN_KEY names a trunk SA or a software-defined association. -/
theorem slotMay_genKey : s.slotMay 0 3 ax = decide (20512 ≤ ax ∧ (ax < 28704 ∨ 28712 ≤ ax)) := by
  rw [Bool.eq_iff_iff]
  simp only [State.slotMay, axRange, beq_self_eq_true, if_true]
  split_ifs <;> simp <;> omega

/-- MKA_KDF, CMAC, WRAP and UNWRAP name a software-defined association. -/
theorem slotMay_mka {op : Nat} (h : op = 10 ∨ op = 11 ∨ op = 12 ∨ op = 13) : s.slotMay 0 op ax = decide (28712 ≤ ax) := by
  rcases h with rfl | rfl | rfl | rfl <;> exact axRange_beq_soft

/-- GROUP names a multicast group. -/
theorem slotMay_group : s.slotMay 0 14 ax = decide (16416 ≤ ax ∧ ax < 20512) := by
  rw [Bool.eq_iff_iff]
  simp only [State.slotMay, axRange, beq_self_eq_true, if_true]
  split_ifs <;> simp <;> omega

end

/-! ## The end of a command (R207, R218) -/

/-- ALM_CMD shows the command and its STATUS, and CMD_DONE is set. -/
def cmdShown (ax pos : Nat) (k256 : Bool) (op st : Nat) (s : State) : State :=
  (s.setReg Reg.ALM_CMD 0 (ax + pos * 2 ^ 18 + (if k256 then 2 ^ 19 else 0) + op * 2 ^ 20 + st * 2 ^ 24)).intSet Ty.ALM 0 7

/-- A command that is refused is counted too. -/
def cmdEnded (ax pos : Nat) (k256 : Bool) (op st : Nat) (s : State) : State :=
  cmdShown ax pos k256 op st (if st = 0 then s else s.count Reg.ALM_CMD_REJECT 0)

/-- The words a command leaves in ALM_ARG. -/
def argsShown (l : List Nat) (s : State) : State :=
  (List.range l.length).foldl (fun (s : State) i => s.setRegI Reg.ALM_ARG 0 i (l.getD i 0)) s

/-- A command as the host's ALM_CMD and ALM_ARG hold it, with the bytes of its data area. -/
def hostReq (s : State) (op ax pos : Nat) (k256 : Bool) (data : Bytes) : SlotReq :=
  ⟨0, ax, pos, k256, s.almArgs, sliceB data 0 (slotReads op k256 s.almArgs)⟩

/-- The command reads no data area, or an allowed one. -/
def AreaOk (s : State) (op : Nat) (k256 : Bool) : Prop :=
  let n := slotReads op k256 s.almArgs
  n = 0 ∨ 2048 < n ∨ s.winOk (slotArea op s.almArgs).1 (slotArea op s.almArgs).2 n false = true

section
variable {s r : State} {op ax pos st : Nat} {k256 : Bool} {data : Bytes}

/-- What reading the data area leaves, where it may be read. -/
theorem AreaOk.read (h : AreaOk s op k256) :
    (if slotReads op k256 s.almArgs == 0 || 2048 < slotReads op k256 s.almArgs then (s, true)
      else s.dmaRead (slotArea op s.almArgs).1 (slotArea op s.almArgs).2 (slotReads op k256 s.almArgs)) = (s, true) := by
  rcases h with h | h | h <;> simp [State.dmaRead, h]

variable (hax : ax < 2 ^ 18) (hpos : pos < 2)
include hax hpos

/-- A data area outside its window ends the command before it does anything (R207). -/
theorem hostSlot_denied {n : Nat} (hn : slotReads op k256 s.almArgs = n) (h0 : n ≠ 0) (hle : n ≤ 2048)
    (h : s.winOk (slotArea op s.almArgs).1 (slotArea op s.almArgs).2 n false = false) :
    s.hostSlot op ax pos k256 data = cmdEnded ax pos k256 op 8 (s.count Reg.HIF_WIN_FAULT 0) := by
  have hread : (n == 0 || decide (2048 < n)) = false := by simp [h0, hle]
  simp [-Nat.reducePow, State.hostSlot, State.dmaRead, hn, h, hread, SlotRes.of, cmdEnded, cmdShown, Nat.mod_eq_of_lt hax,
    Nat.mod_eq_of_lt hpos]

variable (ha : AreaOk s op k256)
include ha

/-- A command that answers a STATUS alone; the STATUS 2 and 3 of IMPORT count elsewhere. -/
theorem hostSlot_status (h : s.slot op (hostReq s op ax pos k256 data) = (r, .of st)) (hop : op = 6 → st ≠ 2 ∧ st ≠ 3) :
    s.hostSlot op ax pos k256 data = cmdEnded ax pos k256 op st r := by
  have hcount : (st == 0 || (op == 6 && true && (st == 2 || st == 3))) = (st == 0) := by
    by_cases h6 : op = 6
    · simp [hop h6]
    · simp [h6]
  rw [hostReq, SlotRes.of] at h
  simp only [State.hostSlot, ha.read, h, cmdEnded, cmdShown, hcount, Nat.mod_eq_of_lt hax, Nat.mod_eq_of_lt hpos, List.isEmpty_nil, Bool.not_true,
    Bool.and_false, Bool.false_eq_true, if_false, if_true, beq_iff_eq]

/-- A command that answers with words of ALM_ARG. -/
theorem hostSlot_args {l : List Nat} (h : s.slot op (hostReq s op ax pos k256 data) = (r, ⟨0, some l, []⟩)) :
    s.hostSlot op ax pos k256 data = cmdEnded ax pos k256 op 0 (argsShown l r) := by
  rw [hostReq] at h
  simp only [State.hostSlot, ha.read, h, cmdEnded, cmdShown, argsShown, Nat.mod_eq_of_lt hax, Nat.mod_eq_of_lt hpos, List.isEmpty_nil,
    Bool.not_true, Bool.and_false, Bool.false_eq_true, if_false, if_true, beq_self_eq_true, Bool.true_or]

/-- A command that writes its data area, STATUS 8 where it may not. -/
theorem hostSlot_out {out : Bytes} (h : s.slot op (hostReq s op ax pos k256 data) = (r, ⟨0, none, out⟩)) :
    s.hostSlot op ax pos k256 data = if out = [] then cmdEnded ax pos k256 op 0 r else
      let p := r.dmaWrite (slotArea op s.almArgs).1 (slotArea op s.almArgs).2 out
      cmdEnded ax pos k256 op (if p.2 then 0 else 8) p.1 := by
  rw [hostReq] at h
  by_cases hout : out = []
  · subst hout
    simp only [State.hostSlot, ha.read, h, cmdEnded, cmdShown, Nat.mod_eq_of_lt hax, Nat.mod_eq_of_lt hpos, List.isEmpty_nil, Bool.not_true,
      Bool.and_false, Bool.false_eq_true, if_false, if_true, beq_self_eq_true, Bool.true_or]
  · have hwrites : (true && !out.isEmpty) = true := by simpa using hout
    rcases hw : r.dmaWrite (slotArea op s.almArgs).1 (slotArea op s.almArgs).2 out with ⟨u, ok⟩
    have hcount : (8 == 0 || (op == 6 && true && (8 == 2 || 8 == 3))) = false := by simp
    cases ok <;> simp only [State.hostSlot, ha.read, h, hw, hwrites, hout, hcount, cmdEnded, cmdShown, Nat.mod_eq_of_lt hax,
      Nat.mod_eq_of_lt hpos, Nat.succ_ne_zero, beq_self_eq_true, Bool.true_or, Bool.false_eq_true, if_false, if_true]

end

/-! ## Who may have a command of an association run (R207, R468) -/

/-- The operations on the AX that ALM_CMD names. -/
def needsAx (op : Nat) : Bool := !(decide (6 ≤ op) && decide (op ≤ 9)) && op != 12 && op != 13

section
variable {s : State} {op ax pos : Nat} {k256 : Bool} {data : Bytes} (hax : ax < 2 ^ 18)
include hax

theorem slot_outOfRange (hop : needsAx op = true) (h : s.slotMay 0 op ax = false) :
    s.slot op (hostReq s op ax pos k256 data) = (s, .of 1) := by
  rw [needsAx] at hop
  simp only [State.slot, hostReq, Nat.mod_eq_of_lt hax, hop, h, Bool.not_false, Bool.and_self, if_true]

theorem slot_absent (hop : needsAx op = true) (hmay : s.slotMay 0 op ax = true) (h : s.axAbsent ax = true) :
    s.slot op (hostReq s op ax pos k256 data) = (s, .of 4) := by
  rw [needsAx] at hop
  simp only [State.slot, hostReq, Nat.mod_eq_of_lt hax, hop, h, hmay, Bool.not_true, Bool.and_false, bne_self_eq_false, Bool.and_self,
    Bool.false_eq_true, if_false, if_true]

/-- A standby leaves a mirrored association alone, and counts. -/
theorem slot_mirrored (hop : needsAx op = true) (h1 : op ≠ 1) (hmay : s.slotMay 0 op ax = true) (hhere : s.axAbsent ax = false)
    (hs : s.isActive = false) (hlt : ax < 20512) :
    s.slot op (hostReq s op ax pos k256 data) = (s.count Reg.PAIR_MIRROR_WRITE_REJECT 0, .of 1) := by
  rw [needsAx] at hop
  simp only [State.slot, hostReq, Nat.mod_eq_of_lt hax, hop, hmay, hhere, hs, hlt, bne_iff_ne.2 h1, Bool.not_true, Bool.not_false, Bool.and_false,
    bne_self_eq_false, beq_self_eq_true, decide_true, Bool.and_self, Bool.true_or, Bool.false_eq_true, if_false, if_true]

variable (hhere : s.axAbsent ax = false)
include hhere

theorem slot_readAttr : s.slot 1 (hostReq s 1 ax pos k256 data) = (s, ⟨0, some (s.attrArgs ax), []⟩) := by
  simp [-Nat.reducePow, State.slot, hostReq, State.slotMay, Nat.mod_eq_of_lt hax, hhere]

variable (hown : s.isActive = true ∨ 20512 ≤ ax)
include hown

omit hax hhere in
/-- The active device's host, and any host of an association that is not mirrored, is not turned away. -/
theorem notMirrored : ¬ (s.isActive = false ∧ ax < 20512) := by
  rintro ⟨ha, hlt⟩
  rcases hown with h | h
  · exact absurd (ha.symm.trans h) (by decide)
  · omega

theorem slot_setAttr : s.slot 2 (hostReq s 2 ax pos k256 data) = s.setAttr ax (s.regI Reg.ALM_ARG 0 0) := by
  simp [-Nat.reducePow, State.slot, hostReq, State.slotMay, Nat.mod_eq_of_lt hax, hhere, notMirrored hown, State.almArgs]

theorem slot_destroyPos : s.slot 4 (hostReq s 4 ax pos k256 data) = s.destroyPos ax pos := by
  simp [-Nat.reducePow, State.slot, hostReq, State.slotMay, Nat.mod_eq_of_lt hax, hhere, notMirrored hown]

theorem slot_destroy : s.slot 5 (hostReq s 5 ax pos k256 data) = (s.destroyLogged ax, .of 0) := by
  simp [-Nat.reducePow, State.slot, hostReq, State.slotMay, Nat.mod_eq_of_lt hax, hhere, notMirrored hown]

theorem slot_genKey_noDrbg (hmay : s.slotMay 0 3 ax = true) (h : s.ka.drbgOk = false) :
    s.slot 3 (hostReq s 3 ax pos k256 data) = (s, .of 6) := by
  simp [-Nat.reducePow, State.slot, hostReq, hmay, Nat.mod_eq_of_lt hax, hhere, notMirrored hown, h]

/-- GEN_KEY places what the DRBG gave where a key may be placed, else nothing happened. -/
theorem slot_genKey (hmay : s.slotMay 0 3 ax = true) (h : s.ka.drbgOk = true) {k : Bytes} {s1 r : State} {st : Nat}
    (hdraw : s.drawBytes (if k256 then 32 else 16) = (k, s1)) (hput : s1.install ax pos (freshKey k [] [] k256 0) s.usageCfg = (r, st)) :
    s.slot 3 (hostReq s 3 ax pos k256 data) = (if st = 0 then r else s, .of st) := by
  cases k256 <;> simp only [Bool.false_eq_true, if_false, if_true] at hdraw <;> by_cases h0 : st = 0 <;>
    simp [-Nat.reducePow, State.slot, hostReq, hmay, Nat.mod_eq_of_lt hax, hhere, notMirrored hown, h, hdraw, hput, h0]

theorem slot_group (hmay : s.slotMay 0 14 ax = true) :
    s.slot 14 (hostReq s 14 ax pos k256 data) = s.slotGroup ax (s.regI Reg.ALM_ARG 0 0) := by
  simp [-Nat.reducePow, State.slot, hostReq, hmay, Nat.mod_eq_of_lt hax, hhere, notMirrored hown, State.almArgs]

end

/-- IMPORT_CLOSE names a session, and no association. -/
theorem slot_importClose (s : State) (ax pos : Nat) (k256 : Bool) (data : Bytes) : s.slot 9 (hostReq s 9 ax pos k256 data) =
    ({ s with alm := { s.alm with isk := s.alm.isk.set none (s.regI Reg.ALM_ARG 0 3 % 4) none } }, .of 0) := by
  simp [-Nat.reducePow, State.slot, hostReq, State.almArgs]

/-! ## Attributes and positions (R207, R218) -/

section
variable {s : State} {ax pos w : Nat}

theorem setAttr_newUse (hu : bitsOf w 5 2 ≠ (s.assoc ax).usage) (h : (s.assoc ax).st ≠ .invalid ∨ ax < 28712) :
    s.setAttr ax w = (s, .of 1) := by
  have hfixed : ((s.assoc ax).st == .invalid && axRange ax == .soft) = false := by
    rw [axRange_beq_soft]
    rcases h with h | h
    · rw [beq_false_of_ne h, Bool.false_and]
    · rw [decide_eq_false (Nat.not_le.2 h), Bool.and_false]
  simp only [State.setAttr, bne_iff_ne.2 hu, hfixed, Bool.not_false, Bool.and_self, if_true]

theorem setAttr_unpinned (hu : bitsOf w 5 2 = (s.assoc ax).usage) (hp : bitOf w 3 = false) :
    s.setAttr ax w = ((s.setAssoc ax { s.assoc ax with pin := false, exp := bitOf w 4, usage := (s.assoc ax).usage
                                                       limit := clampNat 20 40 (bitsOf w 16 6) }).mirrorAx ax, .of 0) := by
  simp only [State.setAttr, hu, hp, bne_self_eq_false, Bool.false_and, Bool.false_eq_true, if_false]

theorem destroyPos_empty (h : (s.assoc ax).pos pos = none) : s.destroyPos ax pos = (s, .of 0) := by
  simp only [State.destroyPos, h, Option.isNone_none, if_true]

theorem destroyPos_current (hpos : pos < 2) (hk : ((s.assoc ax).pos pos).isSome = true) (hst : (s.assoc ax).st ≠ .invalid)
    (hcur : (s.assoc ax).cur = pos) : s.destroyPos ax pos = ((s.destroyAx ax false).almEvent 0x44 pos ax 0, .of 0) := by
  simp only [State.destroyPos, Option.isNone_eq_false_iff.2 hk, bne_iff_ne.2 hst, hcur, Nat.mod_eq_of_lt hpos, beq_self_eq_true, Bool.and_self,
    Bool.false_eq_true, if_false, if_true]

theorem destroyPos_other (hpos : pos < 2) (hk : ((s.assoc ax).pos pos).isSome = true) (hcur : (s.assoc ax).cur ≠ pos) :
    s.destroyPos ax pos = (((s.setAssoc ax ((s.assoc ax).setPos pos none)).mirrorAx ax).almEvent 0x44 pos ax 0, .of 0) := by
  simp only [State.destroyPos, Option.isNone_eq_false_iff.2 hk, Nat.mod_eq_of_lt hpos, beq_false_of_ne hcur, Bool.and_false,
    Bool.false_eq_true, if_false]

end

/-! ## Members of a group (R211) -/

/-- Cooling an association changes no terminal's record. -/
theorem coolOut_terms (s : State) (ax : Nat) : (s.coolOut ax).terms = s.terms :=
  foldl_keeps (fun s sl => by simp only [apply_ite State.terms, setHot_terms, ite_self]) _ s

/-- The state with the member off the group's list, and the group out of the slices that hold no member of it now. -/
def memberOut (s : State) (ax m : Nat) : State :=
  ({ s with alm := { s.alm with members := s.alm.members.erase (ax - 16416, m) } } : State).coolOut ax

/-- A member that is taken off the list keeps its own record. -/
theorem memberOut_term (s : State) (ax m k : Nat) : (memberOut s ax m).term k = s.term k := by
  simp only [State.term, memberOut, coolOut_terms]

section
variable {s : State} {ax w : Nat}

/-- The terminal that ALM_ARG[0] names. -/
def groupTerm (w : Nat) : Nat := termAx (bitsOf w 9 5) (bitsOf w 0 9)

theorem groupTerm_eq : termAx (bitsOf w 9 5) (bitsOf w 0 9) = groupTerm w := rfl

theorem slotGroup_noTree (h : s.hasTree (bitsOf w 9 5) = false) : s.slotGroup ax w = (s, .of 4) := by
  simp only [State.slotGroup, h, Bool.not_false, if_true]

theorem slotGroup_noDrbg (ht : s.hasTree (bitsOf w 9 5) = true) (h : s.ka.drbgOk = false) : s.slotGroup ax w = (s, .of 6) := by
  simp only [State.slotGroup, ht, h, Bool.not_true, Bool.not_false, Bool.false_eq_true, if_false, if_true]

variable (ht : s.hasTree (bitsOf w 9 5) = true) (hd : s.ka.drbgOk = true)
include ht hd

/-- A member that joins, or another that leaves, changes nothing. -/
theorem slotGroup_asIs (h : bitOf w 31 = s.alm.members.contains (ax - 16416, groupTerm w)) : s.slotGroup ax w = (s, .of 0) := by
  cases hj : bitOf w 31 <;> rw [hj] at h <;>
    simp only [State.slotGroup, groupTerm_eq, ht, hd, hj, ← h, Bool.not_true, Bool.not_false, Bool.false_eq_true, if_false, if_true]

section
variable (hj : bitOf w 31 = true) (hm : s.alm.members.contains (ax - 16416, groupTerm w) = false)
include hj hm

theorem slotGroup_full (h : 65536 ≤ s.alm.members.length) : s.slotGroup ax w = (s, .of 7) := by
  simp only [State.slotGroup, groupTerm_eq, ht, hd, hj, hm, h, Bool.not_true, Bool.false_eq_true, if_false, if_true]

theorem slotGroup_noStore (hlt : s.alm.members.length < 65536) (h : s.storeOk = false) : s.slotGroup ax w = (s, .of 6) := by
  simp only [State.slotGroup, groupTerm_eq, ht, hd, hj, hm, h, Nat.not_le.2 hlt, Bool.not_true, Bool.not_false, Bool.false_eq_true, if_false, if_true]

theorem slotGroup_join (hlt : s.alm.members.length < 65536) (h : s.storeOk = true) {r : State} {st : Nat}
    (hadd : s.groupAdd ax (ax - 16416) (groupTerm w) = (r, st)) : s.slotGroup ax w =
      (if st ≠ 0 then s else if (r.term (groupTerm w)).st = .operational then r.groupJoin (groupTerm w) ax else r, .of st) := by
  by_cases h0 : st = 0 <;>
    simp [-List.contains_eq_mem, State.slotGroup, groupTerm_eq, ht, hd, hj, hm, h, hadd, h0, Nat.not_le.2 hlt]

omit ht hd hj hm in
/-- A member of a keyed group that is not pinned is only listed. -/
theorem groupAdd_keyed {g m : Nat} (hst : (s.assoc ax).st ≠ .invalid) (hp : (s.assoc ax).pinned ax = false) :
    s.groupAdd ax g m = ({ s with alm := { s.alm with members := s.alm.members ++ [(g, m)] } }, 0) := by
  have hload (l : List (Nat × Nat)) : ({ s with alm := { s.alm with members := l } } : State).loadPinned ax =
      { s with alm := { s.alm with members := l } } := if_neg (Bool.eq_false_iff.1 hp)
  simp only [State.groupAdd, beq_false_of_ne hst, hp, hload, Bool.false_and, Bool.false_eq_true, if_false]

theorem slotGroup_listed (hlt : s.alm.members.length < 65536) (h : s.storeOk = true) (hst : (s.assoc ax).st ≠ .invalid)
    (hp : (s.assoc ax).pinned ax = false) (hop : (s.term (groupTerm w)).st ≠ .operational) : s.slotGroup ax w =
      ({ s with alm := { s.alm with members := s.alm.members ++ [(ax - 16416, groupTerm w)] } }, .of 0) :=
  (slotGroup_join ht hd hj hm hlt h (groupAdd_keyed hst hp)).trans
    (congrArg (Prod.mk · (SlotRes.of 0)) ((if_neg (not_not_intro rfl)).trans (if_neg hop)))

end

/-- The last member that leaves destroys the group; any other has it rekeyed where LEAVE_REKEY says so. A terminal with no key is not told. -/
theorem slotGroup_leave (hlo : 16416 ≤ ax) (hj : bitOf w 31 = false) (hm : s.alm.members.contains (ax - 16416, groupTerm w) = true)
    (hk : (s.term (groupTerm w)).keyed = false) :
    let r := memberOut s ax (groupTerm w)
    s.slotGroup ax w = (if r.alm.members.any (fun p => p.1 == ax - 16416) then
        (if r.kaPar Reg.PKA_KA_CTL_LEAVE_REKEY = 1 ∧ (r.kg ax).dueAt = none then r.setKg ax { r.kg ax with dueAt := some r.tm.m } else r)
      else (r.destroyLogged ax).setKg ax kgReset, .of 0) := by
  have hkey : ((memberOut s ax (groupTerm w)).term (groupTerm w)).keyed = false := by rw [memberOut_term, hk]
  have hg : 16416 + (ax - 16416) = ax := by omega
  rw [memberOut] at *
  simp only [State.slotGroup, groupTerm_eq, ht, hd, hj, hm, State.groupLeave, hkey, hg, Bool.not_true, Bool.false_eq_true, if_false,
    Bool.and_eq_true, beq_iff_eq, Option.isNone_iff_eq_none, apply_ite (Prod.mk · (SlotRes.of 0))]

end

/-- Settles O49: who may have the command run, then what each operation does there, shown with its STATUS in ALM_CMD. -/
theorem slotCommandsOfOneAssociation : Obligations.SlotCommandsOfOneAssociation := by
  intro s ax pos k256 hr hax hpos ans a w
  have hans (r : State) (op st : Nat) : ans r op st ax pos k256 = cmdEnded ax pos k256 op st r := rfl
  clear_value ans
  simp only [hans]
  have ends {c : Instr} {op st : Nat} {r : State} (e : exec c s = live s fun s => s.hostSlot op ax pos k256 [])
      (hread : slotReads op k256 s.almArgs = 0) (hop : op ≠ 6) (h : s.slot op (hostReq s op ax pos k256 []) = (r, .of st)) :
      Gives c s (cmdEnded ax pos k256 op st r) :=
    Gives.of_live _ hr e (hostSlot_status hax hpos (.inl hread) h fun h6 => absurd h6 hop)
  have setAttr {st : Nat} {r : State} (h : s.slot 2 (hostReq s 2 ax pos k256 []) = (r, .of st)) :
      Gives (.setAttr ax pos k256) s (cmdEnded ax pos k256 2 st r) := ends rfl rfl (by decide) h
  have genKey {st : Nat} {r : State} (h : s.slot 3 (hostReq s 3 ax pos k256 []) = (r, .of st)) :
      Gives (.genKey ax pos k256) s (cmdEnded ax pos k256 3 st r) := ends rfl rfl (by decide) h
  have destroyPos {st : Nat} {r : State} (h : s.slot 4 (hostReq s 4 ax pos k256 []) = (r, .of st)) :
      Gives (.destroyPos ax pos k256) s (cmdEnded ax pos k256 4 st r) := ends rfl rfl (by decide) h
  have destroy {st : Nat} {r : State} (h : s.slot 5 (hostReq s 5 ax pos k256 []) = (r, .of st)) :
      Gives (.destroy ax pos k256) s (cmdEnded ax pos k256 5 st r) := ends rfl rfl (by decide) h
  have group {st : Nat} {r : State} (h : s.slot 14 (hostReq s 14 ax pos k256 []) = (r, .of st)) :
      Gives (.groupMembership ax pos k256) s (cmdEnded ax pos k256 14 st r) := ends rfl rfl (by decide) h
  refine ⟨fun habs => ⟨ends rfl rfl (by decide) (slot_absent hax rfl rfl habs), setAttr (slot_absent hax rfl rfl habs),
      destroyPos (slot_absent hax rfl rfl habs), destroy (slot_absent hax rfl rfl habs)⟩,
    fun h => genKey (slot_outOfRange hax rfl ?_), fun h => group (slot_outOfRange hax rfl ?_),
    fun hhere => Gives.of_live _ hr (rfl : _ = execReadAttr ax pos k256 s) (hostSlot_args hax hpos (.inl rfl) (slot_readAttr hax hhere)),
    fun hhere ha hlt => ⟨setAttr (slot_mirrored hax rfl (by decide) rfl hhere ha hlt),
      destroyPos (slot_mirrored hax rfl (by decide) rfl hhere ha hlt), destroy (slot_mirrored hax rfl (by decide) rfl hhere ha hlt)⟩,
    fun hhere hown => ⟨fun hu h => setAttr ((slot_setAttr hax hhere hown).trans (setAttr_newUse hu h)),
      fun hu hp => setAttr ((slot_setAttr hax hhere hown).trans (setAttr_unpinned hu hp)), destroy (slot_destroy hax hhere hown),
      fun hk => destroyPos ((slot_destroyPos hax hhere hown).trans (destroyPos_empty hk)),
      fun hk hst hcur => destroyPos ((slot_destroyPos hax hhere hown).trans (destroyPos_current hpos hk hst hcur)),
      fun hk hcur => destroyPos ((slot_destroyPos hax hhere hown).trans (destroyPos_other hpos hk hcur))⟩,
    fun hhere hlo hrange => ?_, ends rfl rfl (by decide) (slot_importClose s ax pos k256 []), fun hhere ha hlo hhi => ?_⟩
  · rw [slotMay_genKey, decide_eq_false_iff_not]
    omega
  · rw [slotMay_group, decide_eq_false_iff_not]
    omega
  · have hmay : s.slotMay 0 3 ax = true := by
      rw [slotMay_genKey, decide_eq_true_eq]
      exact ⟨hlo, hrange⟩
    exact ⟨fun hd => genKey (slot_genKey_noDrbg hax hhere (.inr hlo) hmay hd),
      fun hd => genKey (slot_genKey hax hhere (.inr hlo) hmay hd rfl rfl)⟩
  · have hmay : s.slotMay 0 14 ax = true := by
      rw [slotMay_group, decide_eq_true_eq]
      exact ⟨hlo, hhi⟩
    have acts {st : Nat} {r : State} (h : s.slotGroup ax w = (r, .of st)) :
        Gives (.groupMembership ax pos k256) s (cmdEnded ax pos k256 14 st r) := group ((slot_group hax hhere (.inl ha) hmay).trans h)
    exact ⟨fun ht => acts (slotGroup_noTree ht), fun ht hd => acts (slotGroup_noDrbg ht hd),
      fun ht hd => ⟨fun h => acts (slotGroup_asIs ht hd h),
        fun hj hm => ⟨fun h => acts (slotGroup_full ht hd hj hm h), fun hlt h => acts (slotGroup_noStore ht hd hj hm hlt h),
          fun hlt h => acts (slotGroup_join ht hd hj hm hlt h rfl),
          fun hlt h hst hp hop => acts (slotGroup_listed ht hd hj hm hlt h hst hp hop)⟩,
        fun hj hm hk => acts (slotGroup_leave ht hd hlo hj hm hk)⟩⟩

/-! ## The commands with a data area or a session (R208 to R210) -/

/-- A field of a message has the length asked for, whatever the message holds. -/
theorem sliceB_length (d : Bytes) (i n : Nat) : (sliceB d i n).length = n := by
  simp only [sliceB, List.length_append, List.length_take, List.length_replicate]
  omega

section
variable {s : State} {ax pos : Nat} {k256 : Bool} {data : Bytes}

/-- Whether a device has a key of its root is a matter of the root and the life cycle, not of the label. -/
theorem rootScalar_isSome (l l' : String) : (s.rootScalar l).isSome = (s.rootScalar l').isSome := by
  unfold State.rootScalar
  cases s.lcs.root with
  | none => rfl
  | some r =>
    dsimp only
    split <;> rfl

theorem idKey_isSome : s.idKey.isSome = (s.rootScalar "BV3232 import").isSome := rootScalar_isSome _ _

section
variable {r : State} (hax : ax < 2 ^ 18) (hpos : pos < 2)
include hax hpos

/-- A refusal of IMPORT with STATUS 2 or 3 counts in IMPORT_REJECT alone. -/
theorem hostSlot_import {st : Nat} (ha : AreaOk s 6 k256) (h : s.slot 6 (hostReq s 6 ax pos k256 data) = (r, .of st)) :
    s.hostSlot 6 ax pos k256 data = if st = 0 ∨ st = 2 ∨ st = 3 then cmdShown ax pos k256 6 st r else cmdEnded ax pos k256 6 st r := by
  rw [hostReq, SlotRes.of] at h
  simp only [State.hostSlot, ha.read, h, cmdEnded, cmdShown, Nat.mod_eq_of_lt hax, Nat.mod_eq_of_lt hpos, List.isEmpty_nil, Bool.not_true,
    Bool.and_false, Bool.false_eq_true, if_false, if_true]
  by_cases h0 : st = 0
  · simp [h0]
  · by_cases h23 : st = 2 ∨ st = 3 <;> simp [h0, h23]

end

section
variable (hact : s.isActive = true)
include hact

theorem slot_import : s.slot 6 (hostReq s 6 ax pos k256 data) =
    if s.storeOk = true then s.importBlob (beAt (sliceB data 0 80) 2 3) (sliceB data 0 80) else (s, .of 6) := by
  cases h : s.storeOk <;> simp [-Nat.reducePow, State.slot, hostReq, hact, slotReads, h]

theorem slot_importPub_none {r : State} (h : s.importPub = (r, none)) : s.slot 7 (hostReq s 7 ax pos k256 data) =
    (r, .of (if (s.rootScalar "BV3232 import").isSome then 3 else 6)) := by
  simp [-Nat.reducePow, State.slot, hostReq, hact, h, idKey_isSome]

theorem slot_importPub_some {r : State} {d : Bytes} (h : s.importPub = (r, some d)) : s.slot 7 (hostReq s 7 ax pos k256 data) =
    (r, ⟨0, none, d⟩) := by
  simp [-Nat.reducePow, State.slot, hostReq, hact, h]

theorem slot_importOpen : s.slot 8 (hostReq s 8 ax pos k256 data) = s.importOpen (s.almArgs.getD 3 0) (sliceB data 0 1665) := by
  simp [-Nat.reducePow, State.slot, hostReq, hact, slotReads]

theorem slot_wrap : s.slot 12 (hostReq s 12 ax pos k256 data) = s.slotWrap 0 s.almArgs := by
  simp [-Nat.reducePow, State.slot, hostReq, hact]

theorem slot_unwrap : s.slot 13 (hostReq s 13 ax pos k256 data) =
    s.slotUnwrap 0 k256 s.almArgs (sliceB data 0 (if k256 then 40 else 24)) := by
  simp [-Nat.reducePow, State.slot, hostReq, hact, slotReads]

variable (hax : ax < 2 ^ 18) (hsoft : 28712 ≤ ax)
include hax hsoft

theorem slot_mkaKdf : s.slot 10 (hostReq s 10 ax pos k256 data) = s.mkaKdf 0 ax s.almArgs := by
  simp [-Nat.reducePow, State.slot, hostReq, hact, Nat.mod_eq_of_lt hax, slotMay_mka, hsoft, axAbsent_soft hsoft]

theorem slot_cmac : s.slot 11 (hostReq s 11 ax pos k256 data) =
    s.slotCmac ax s.almArgs (sliceB data 0 (s.almArgs.getD 3 0)) := by
  simp [-Nat.reducePow, State.slot, hostReq, hact, Nat.mod_eq_of_lt hax, slotMay_mka, hsoft, axAbsent_soft hsoft, slotReads]

end

end

/-! ## Imports (R208, R209) -/

section
variable {s : State}

theorem importBlob_closed {ax : Nat} {d : Bytes} (h : s.alm.isk.get none (beAt d 1 1 % 4) = none) :
    s.importBlob ax d = (s.count Reg.ALM_IMPORT_REJECT 0, .of 3) := by
  simp only [State.importBlob, h]

theorem importPub_noIdentity (h : s.rootScalar "BV3232 import" = none) : s.importPub = (s, none) := by
  simp only [State.importPub, h]

theorem importOpen_noIdentity (h : s.rootScalar "BV3232 import" = none) (n : Nat) (d : Bytes) : s.importOpen n d = (s, .of 6) := by
  simp only [State.importOpen, h]

/-- What IMPORT_PUB signs, and the signature with the state after it. -/
def importSigned (s : State) (k : Bytes) : Bytes × State :=
  s.idSign (ascii "BV3232 import key" ++ toBE 2 s.part.code ++ toBE 1 s.lcs.life.code ++ sliceB (Config.p384Pub k) 0 97 ++
    sliceB (Config.kemPub s.impSeed) 0 1568)

section
variable {k : Bytes} (hk : s.rootScalar "BV3232 import" = some k)
include hk

theorem importPub_badSignature (h : (importSigned s k).2.inv Ty.PKA 0 1 = true) :
    s.importPub = (((importSigned s k).2.invDone Ty.PKA 0 1).raise Ty.PKA 0 3 0 0, none) := by
  rw [importSigned] at h ⊢
  simp only [State.importPub, hk, State.signCheck, h, Bool.false_eq_true, if_false, if_true]

theorem importPub_signed (h : (importSigned s k).2.inv Ty.PKA 0 1 = false) : s.importPub = ((importSigned s k).2,
    some (sliceB (Config.p384Pub k) 0 97 ++ sliceB (Config.kemPub s.impSeed) 0 1568 ++ sliceB (importSigned s k).1 0 96)) := by
  rw [importSigned] at h ⊢
  simp only [State.importPub, hk, State.signCheck, h, Bool.false_eq_true, if_false, if_true]

/-- The key that a session derives from the key server's point and encapsulation. -/
def sessionKey (s : State) (k d : Bytes) : Bytes :=
  let qs := sliceB d 0 97
  let prk := Config.hkdfExtract (List.replicate 48 0) (Config.p384Dh k qs ++ Config.kemDec s.impSeed (sliceB d 97 1568))
  sliceB (Config.hkdfExpand prk (ascii "BV3232 import session" ++ qs) 32) 0 32

theorem importOpen_session (hd : s.ka.drbgOk = true) {n : Nat} {d : Bytes} (hlen : d.length = 1665) : s.importOpen n d =
    if Config.p384OnCurve (sliceB d 0 97) = true then
      ({ s with alm := { s.alm with isk := s.alm.isk.set none (n % 4) (some ⟨sessionKey s k d, none, 0⟩) } }, .of 0)
    else (s, .of 3) := by
  cases hc : Config.p384OnCurve (sliceB d 0 97) <;>
    simp only [State.importOpen, hk, hd, hc, hlen, sessionKey, bne_self_eq_false, Bool.not_true, Bool.not_false, Bool.or_false, Bool.or_true,
      Bool.false_eq_true, if_false, if_true]

end

end

/-! ## Keys of a USE (R194, R210) -/

section
variable {s : State} {ax : Nat}

theorem keyInvoke_some {k : KPos} (hk : (s.assoc ax).pos (s.assoc ax).cur = some k) : s.keyInvoke ax =
    if k.use < 2 ^ (s.assoc ax).limit then (s.invoke ax (s.assoc ax).cur, true) else (s.count Reg.CIPH_USAGE_STOP_DROP 0, false) := by
  simp only [State.keyInvoke, hk]

section
variable {c : Nat} {args : List Nat}

theorem mkaKdf_noKey (h : s.useKey ax 1 = none) : s.mkaKdf c ax args = (s, .of 2) := by
  simp only [State.mkaKdf, h]

/-- The targets of MKA_KDF. -/
def ickOf (args : List Nat) : Nat := args.getD 4 0 % 2 ^ 18
def kekOf (args : List Nat) : Nat := args.getD 5 0 % 2 ^ 18

theorem ickOf_eq : args.getD 4 0 % 2 ^ 18 = ickOf args := rfl

theorem kekOf_eq : args.getD 5 0 % 2 ^ 18 = kekOf args := rfl

/-- A derived key in position 0 of its target, which takes its USE. -/
def kdfPut (cak : KPos) (args : List Nat) (s : State) (t use : Nat) (l : String) : State × Nat :=
  (s.setAssoc t { s.assoc t with usage := use }).install t 0
    (freshKey (Config.mkaKdf cak.key (ascii l) (argBytes args) (if cak.k256 then 32 else 16)) [] [] cak.k256 0) s.usageCfg

/-- The host may name any two software-defined associations as targets. -/
theorem mkaTargets_may (hi : 28712 ≤ ickOf args) (hq : 28712 ≤ kekOf args) : (axRange (ickOf args) == .soft &&
    axRange (kekOf args) == .soft && s.slotMay 0 10 (ickOf args) && s.slotMay 0 10 (kekOf args)) = true := by
  simp [axRange_beq_soft, slotMay_mka, hi, hq]

variable {cak : KPos} (hk : s.useKey ax 1 = some cak)
include hk

theorem mkaKdf_badTarget (h : ickOf args < 28712 ∨ kekOf args < 28712) : s.mkaKdf 0 ax args = (s, .of 1) := by
  have hsoft : (axRange (ickOf args) == .soft && axRange (kekOf args) == .soft) = false := by
    rw [axRange_beq_soft, axRange_beq_soft, Bool.and_eq_false_iff, decide_eq_false_iff_not, decide_eq_false_iff_not, Nat.not_le, Nat.not_le]
    exact h
  simp only [State.mkaKdf, hk, ickOf_eq, kekOf_eq, hsoft, Bool.false_and, Bool.not_false, if_true]

variable (hi : 28712 ≤ ickOf args) (hq : 28712 ≤ kekOf args)
include hi hq

theorem mkaKdf_taken (h : ickOf args = kekOf args ∨ (s.assoc (ickOf args)).st ≠ .invalid ∨ (s.assoc (kekOf args)).st ≠ .invalid) :
    s.mkaKdf 0 ax args = (s, .of 2) := by
  have htaken : (ickOf args == kekOf args || (s.assoc (ickOf args)).st != .invalid || (s.assoc (kekOf args)).st != .invalid) = true := by
    simpa only [Bool.or_eq_true, beq_iff_eq, bne_iff_ne, or_assoc] using h
  simp only [State.mkaKdf, hk, ickOf_eq, kekOf_eq, mkaTargets_may hi hq, htaken, Bool.not_true, Bool.false_eq_true, if_false, if_true]

theorem mkaKdf_derives (hne : ickOf args ≠ kekOf args) (hsi : (s.assoc (ickOf args)).st = .invalid)
    (hsq : (s.assoc (kekOf args)).st = .invalid) {r1 r2 : State} (h1 : kdfPut cak args s (ickOf args) 2 "IEEE8021 ICK" = (r1, 0))
    (h2 : kdfPut cak args r1 (kekOf args) 3 "IEEE8021 KEK" = (r2, 0)) : s.mkaKdf 0 ax args = (r2, .of 0) := by
  have hfree : (ickOf args == kekOf args || (s.assoc (ickOf args)).st != .invalid || (s.assoc (kekOf args)).st != .invalid) = false := by
    simp only [beq_false_of_ne hne, hsi, hsq, bne_self_eq_false, Bool.or_self]
  rw [kdfPut] at h1 h2
  simp only [State.mkaKdf, hk, ickOf_eq, kekOf_eq, mkaTargets_may hi hq, hfree, h1, h2, Bool.not_true, Bool.false_eq_true, if_false,
    bne_self_eq_false]

end

section
variable {args : List Nat} {d : Bytes} {k : KPos} (hk : s.useKey ax 2 = some k)
include hk

theorem slotCmac_badLength (h : args.getD 3 0 = 0 ∨ 2048 < args.getD 3 0) : s.slotCmac ax args d = (s, .of 8) := by
  have hbad : (decide (args.getD 3 0 < 1) || decide (2048 < args.getD 3 0)) = true := by
    rw [Bool.or_eq_true, decide_eq_true_eq, decide_eq_true_eq]
    omega
  simp only [State.slotCmac, hk, hbad, if_true]

variable (hlo : 1 ≤ args.getD 3 0) (hhi : args.getD 3 0 ≤ 2048) {r : State}
include hlo hhi

omit hk in
theorem slotCmac_length : (decide (args.getD 3 0 < 1) || decide (2048 < args.getD 3 0)) = false := by
  rw [decide_eq_false (by omega), decide_eq_false (by omega), Bool.or_self]

theorem slotCmac_limit (hv : s.keyInvoke ax = (r, false)) : s.slotCmac ax args d = (r, .of 2) := by
  simp only [State.slotCmac, hk, slotCmac_length hlo hhi, hv, Bool.not_false, Bool.false_eq_true, if_false, if_true]

theorem slotCmac_tag (hv : s.keyInvoke ax = (r, true)) : s.slotCmac ax args d =
    (r, ⟨0, some ((List.range 4).map fun i => leAt (sliceB (Config.cmac k.key (sliceB d 0 (args.getD 3 0))) 0 16) (4 * i) 4), []⟩) := by
  simp only [State.slotCmac, hk, slotCmac_length hlo hhi, hv, Bool.not_true, Bool.false_eq_true, if_false]

end

/-! ## Keys wrapped (R210) -/

/-- The wrapping key, and the trunk SA and position, that ALM_ARG names. -/
def wrapKek (args : List Nat) : Nat := args.getD 0 0 % 2 ^ 18
def wrapSa (args : List Nat) : Nat := args.getD 4 0 % 2 ^ 18
def wrapPos (args : List Nat) : Nat := args.getD 4 0 / 2 ^ 18 % 2

section
variable {args : List Nat} {k256 : Bool} {d : Bytes}

theorem wrapKek_eq : args.getD 0 0 % 2 ^ 18 = wrapKek args := rfl

theorem trunkArg_eq : trunkArg args = (wrapSa args, wrapPos args) := rfl

theorem isTrunkAx_eq (sa : Nat) : isTrunkAx sa = decide (20512 ≤ sa ∧ sa < 28704) := (Bool.decide_and _ _).symm

theorem wrap_notTrunk (h : wrapSa args < 20512 ∨ 28704 ≤ wrapSa args) :
    s.slotWrap 0 args = (s, .of 1) ∧ s.slotUnwrap 0 k256 args d = (s, .of 1) := by
  have hno : isTrunkAx (wrapSa args) = false := by
    rw [isTrunkAx_eq, decide_eq_false_iff_not]
    omega
  constructor <;> simp only [State.slotWrap, State.slotUnwrap, trunkArg_eq, hno, Bool.not_false, Bool.true_or, if_true]

variable (hlo : 20512 ≤ wrapSa args) (hhi : wrapSa args < 28704) (hsoft : 28712 ≤ wrapKek args)
include hlo hhi hsoft

/-- The host may wrap and unwrap any trunk SA under a software-defined association. -/
theorem wrap_may {op : Nat} (h : op = 10 ∨ op = 11 ∨ op = 12 ∨ op = 13) :
    (!isTrunkAx (wrapSa args) || !s.slotMay 0 op (wrapKek args) || (0 != 0 && !s.navOwns (0 - 1) (wrapSa args))) = false := by
  simp [isTrunkAx_eq, slotMay_mka _ h, hlo, hhi, hsoft]

variable (hhere : s.axAbsent (wrapSa args) = false)
include hhere

theorem wrap_noKey (h : s.useKey (wrapKek args) 3 = none) :
    s.slotWrap 0 args = (s, .of 2) ∧ s.slotUnwrap 0 k256 args d = (s, .of 2) := by
  have hw := wrap_may (s := s) hlo hhi hsoft (op := 12) (by decide)
  have hu := wrap_may (s := s) hlo hhi hsoft (op := 13) (by decide)
  constructor
  · simp only [State.slotWrap, trunkArg_eq, wrapKek_eq, hw, hhere, h, Bool.false_eq_true, if_false]
  · simp only [State.slotUnwrap, trunkArg_eq, wrapKek_eq, hu, hhere, h, Bool.false_eq_true, if_false]

variable {k : KPos} (hk : s.useKey (wrapKek args) 3 = some k) {v : State}
include hk

section
variable {x : KPos} (hx : (s.assoc (wrapSa args)).pos (wrapPos args) = some x)
include hx

theorem slotWrap_limit (hv : s.keyInvoke (wrapKek args) = (v, false)) : s.slotWrap 0 args = (v, .of 2) := by
  have hmay := wrap_may (s := s) hlo hhi hsoft (op := 12) (by decide)
  simp only [State.slotWrap, trunkArg_eq, wrapKek_eq, hmay, hhere, hk, hx, hv, Bool.false_eq_true, if_false]

theorem slotWrap_wraps (hv : s.keyInvoke (wrapKek args) = (v, true)) :
    s.slotWrap 0 args = (v, ⟨0, none, Config.keyWrap k.key x.key⟩) := by
  have hmay := wrap_may (s := s) hlo hhi hsoft (op := 12) (by decide)
  simp only [State.slotWrap, trunkArg_eq, wrapKek_eq, hmay, hhere, hk, hx, hv, Bool.false_eq_true, if_false, if_true]

end

theorem slotUnwrap_limit (hv : s.keyInvoke (wrapKek args) = (v, false)) : s.slotUnwrap 0 k256 args d = (v, .of 2) := by
  have hmay := wrap_may (s := s) hlo hhi hsoft (op := 13) (by decide)
  simp only [State.slotUnwrap, trunkArg_eq, wrapKek_eq, hmay, hhere, hk, hv, Bool.not_false, Bool.false_eq_true, if_false, if_true]

variable (hv : s.keyInvoke (wrapKek args) = (v, true))
include hv

theorem slotUnwrap_bad (hu : Config.keyUnwrap k.key (sliceB d 0 (if k256 then 40 else 24)) = none) :
    s.slotUnwrap 0 k256 args d = (v, .of 3) := by
  have hmay := wrap_may (s := s) hlo hhi hsoft (op := 13) (by decide)
  simp only [State.slotUnwrap, trunkArg_eq, wrapKek_eq, hmay, hhere, hk, hv, hu, Bool.not_true, Bool.false_eq_true, if_false]

/-- An unwrapped key goes where a key may be placed, else nothing beyond the invocation happened. -/
theorem slotUnwrap_key {key : Bytes} (hu : Config.keyUnwrap k.key (sliceB d 0 (if k256 then 40 else 24)) = some key) {r : State} {st : Nat}
    (hput : v.install (wrapSa args) (wrapPos args) (freshKey key [] [] k256 0) v.usageCfg = (r, st)) :
    s.slotUnwrap 0 k256 args d = (if st = 0 then r else v, .of st) := by
  have hmay := wrap_may (s := s) hlo hhi hsoft (op := 13) (by decide)
  by_cases h0 : st = 0 <;>
    simp only [State.slotUnwrap, trunkArg_eq, wrapKek_eq, hmay, hhere, hk, hv, hu, hput, h0, Bool.not_true, Bool.false_eq_true, if_false, if_true,
      bne_iff_ne, ne_eq, not_true_eq_false, not_false_eq_true]

end

end

/-- Settles O50: the data area first, then each command by what it asks of its session, of its key and of its targets. -/
theorem slotCommandsWithData : Obligations.SlotCommandsWithData := by
  intro s ax pos k256 data hr hax hpos hact ans imp w win0 off0 win1 off1
  have hans (r : State) (op st : Nat) : ans r op st ax pos k256 = cmdEnded ax pos k256 op st r := rfl
  have himp (r : State) (st : Nat) : imp r st = cmdShown ax pos k256 6 st r := rfl
  clear_value ans imp
  simp only [hans, himp]
  have ends {c : Instr} {op st : Nat} {d : Bytes} {r : State} (e : exec c s = live s fun s => s.hostSlot op ax pos k256 d)
      (ha : AreaOk s op k256) (hop : op ≠ 6) (h : s.slot op (hostReq s op ax pos k256 d) = (r, .of st)) :
      Gives c s (cmdEnded ax pos k256 op st r) := Gives.of_live _ hr e (hostSlot_status hax hpos ha h fun h6 => absurd h6 hop)
  have imports {r : State} (q : s.hostSlot 6 ax pos k256 data = r) : Gives (.importKey ax pos k256 data) s r :=
    Gives.of_live _ hr (rfl : _ = execImportKey ax pos k256 data s) q
  have importPub {r : State} (q : s.hostSlot 7 ax pos k256 [] = r) : Gives (.importPub ax pos k256) s r :=
    Gives.of_live _ hr (rfl : _ = execImportPub ax pos k256 s) q
  have importOpen {st : Nat} {r : State} (hw : s.winOk win0 off0 1665 false = true)
      (h : s.importOpen (w.getD 3 0) (sliceB data 0 1665) = (r, .of st)) :
      Gives (.importOpen ax pos k256 data) s (cmdEnded ax pos k256 8 st r) :=
    ends rfl (.inr (.inr hw)) (by decide) ((slot_importOpen hact).trans h)
  have mkaKdf {st : Nat} {r : State} (hsoft : 28712 ≤ ax) (h : s.mkaKdf 0 ax w = (r, .of st)) :
      Gives (.mkaKdf ax pos k256) s (cmdEnded ax pos k256 10 st r) :=
    ends rfl (.inl rfl) (by decide) ((slot_mkaKdf hact hax hsoft).trans h)
  have wrap {st : Nat} {r : State} (h : s.slotWrap 0 w = (r, .of st)) : Gives (.wrap ax pos k256) s (cmdEnded ax pos k256 12 st r) :=
    ends rfl (.inl rfl) (by decide) ((slot_wrap hact).trans h)
  have unwrap {st : Nat} {r : State} (hw : s.winOk win1 off1 (if k256 then 40 else 24) false = true)
      (h : s.slotUnwrap 0 k256 w (sliceB data 0 (if k256 then 40 else 24)) = (r, .of st)) :
      Gives (.unwrap ax pos k256 data) s (cmdEnded ax pos k256 13 st r) :=
    ends rfl (.inr (.inr hw)) (by decide) ((slot_unwrap hact).trans h)
  refine ⟨fun hw => imports (hostSlot_denied hax hpos (n := 80) rfl (by decide) (by decide) hw),
    fun hw => ⟨fun h => imports (hostSlot_status hax hpos (.inr (.inr hw)) ((slot_import hact).trans (if_neg (by simp [h]))) (by decide)),
      fun h hs => imports (hostSlot_import hax hpos (.inr (.inr hw)) (((slot_import hact).trans (if_pos h)).trans (importBlob_closed hs))),
      fun r st h hb => imports (hostSlot_import hax hpos (.inr (.inr hw)) (((slot_import hact).trans (if_pos h)).trans hb))⟩,
    fun hk hw => ⟨importPub ?_, importOpen hw (importOpen_noIdentity hk _ _)⟩,
    fun k hk => ⟨fun h => importPub ?_, fun h => importPub ?_⟩, fun k hk hd hw => ?_,
    fun hlt => ends rfl (.inl rfl) (by decide) (slot_outOfRange hax rfl (by simp [slotMay_mka, hlt])),
    fun hsoft hk => mkaKdf hsoft (mkaKdf_noKey hk),
    fun cak hsoft hk => ⟨fun h => mkaKdf hsoft (mkaKdf_badTarget hk h), fun hi hq h => mkaKdf hsoft (mkaKdf_taken hk hi hq h),
      fun r1 r2 hi hq hne hsi hsq h1 h2 => mkaKdf hsoft (mkaKdf_derives hk hi hq hne hsi hsq h1 h2)⟩,
    fun hsoft hn hk => ?_, fun k hsoft hk hlo hhi hw => ?_, fun bx k hk => keyInvoke_some hk, fun hsa hw => ?_, fun hlo hhi hsoft hhere => ?_⟩
  · refine hostSlot_status hax hpos (.inl rfl) ((slot_importPub_none hact (importPub_noIdentity hk)).trans ?_) (by decide)
    rw [hk]
    rfl
  · refine hostSlot_status hax hpos (.inl rfl) ((slot_importPub_none hact (importPub_badSignature hk h)).trans ?_) (by decide)
    rw [hk]
    rfl
  · refine (hostSlot_out hax hpos (.inl rfl) (slot_importPub_some hact (importPub_signed hk h))).trans (if_neg fun hnil => ?_)
    have hlen := congrArg List.length hnil
    simp only [List.length_append, sliceB_length, List.length_nil] at hlen
    omega
  · have hopen := importOpen_session hk hd (n := w.getD 3 0) (sliceB_length data 0 1665)
    split
    next hc => exact importOpen hw (hopen.trans (if_pos hc))
    next hc => exact importOpen hw (hopen.trans (if_neg hc))
  · obtain ⟨k, hk⟩ := Option.isSome_iff_exists.1 hk
    exact ends rfl (hn.elim .inl (.inr ∘ .inl)) (by decide) ((slot_cmac hact hax hsoft).trans (slotCmac_badLength hk hn))
  · have harea : AreaOk s 11 k256 := .inr (.inr hw)
    refine ⟨fun hv => ends rfl harea (by decide) ((slot_cmac hact hax hsoft).trans (slotCmac_limit hk hlo hhi (Prod.ext rfl hv))),
      fun hv => Gives.of_live _ hr (rfl : _ = execCmac ax pos k256 data s) ?_⟩
    refine (hostSlot_args hax hpos harea ((slot_cmac hact hax hsoft).trans (slotCmac_tag hk hlo hhi (Prod.ext rfl hv)))).trans ?_
    rw [argsShown, List.length_map, List.length_range]
  · exact ⟨wrap (wrap_notTrunk hsa (k256 := k256) (d := [])).1, unwrap hw (wrap_notTrunk hsa).2⟩
  · refine ⟨fun hk hw => ⟨wrap (wrap_noKey hlo hhi hsoft hhere hk (k256 := k256) (d := [])).1,
        unwrap hw (wrap_noKey hlo hhi hsoft hhere hk).2⟩,
      fun k x hk hx => ⟨fun hv => wrap (slotWrap_limit hlo hhi hsoft hhere hk hx (Prod.ext rfl hv)),
        fun hv => Gives.of_live _ hr (rfl : _ = execWrap ax pos k256 s) (hostSlot_out hax hpos (.inl rfl)
          ((slot_wrap hact).trans (slotWrap_wraps hlo hhi hsoft hhere hk hx (Prod.ext rfl hv))))⟩,
      fun k hk hw => ⟨fun hv => unwrap hw (slotUnwrap_limit hlo hhi hsoft hhere hk (Prod.ext rfl hv)), fun hv => ?_⟩⟩
    split
    next hu => exact unwrap hw (slotUnwrap_bad hlo hhi hsoft hhere hk (Prod.ext rfl hv) hu)
    next key hu => exact unwrap hw (slotUnwrap_key hlo hhi hsoft hhere hk (Prod.ext rfl hv) hu rfl)

/-! ## Prefetches, the re-masking pass and old generations (R181, R197, R199, R206) -/

section
variable {s : State} {l hold : Nat} {axs : List Nat}

theorem prefetch_off (h : s.active Ty.ALM 0 = false ∨ s.flag Reg.ALM_CTL_PREFETCH_EN 0 = false) : s.prefetch l axs hold = s := by
  have hoff : s.on Reg.ALM_CTL_PREFETCH_EN 0 = false := Bool.and_eq_false_iff.2 h
  simp only [State.prefetch, hoff, Bool.not_false, if_true]

/-- Each association of the list is loaded where it is valid and belongs to the slice. -/
theorem prefetch_on (ha : s.active Ty.ALM 0 = true) (hf : s.flag Reg.ALM_CTL_PREFETCH_EN 0 = true) : s.prefetch l axs hold =
    axs.foldl (fun s ax => if (s.assoc ax).st = .invalid ∨ (s.axSlices ax).contains l = false then s else (s.load l ax hold false).1) s := by
  have hon : s.on Reg.ALM_CTL_PREFETCH_EN 0 = true := Bool.and_eq_true_iff.2 ⟨ha, hf⟩
  simp only [State.prefetch, hon, Bool.not_true, Bool.false_eq_true, if_false, Bool.or_eq_true, beq_iff_eq, Bool.not_eq_true']

theorem retireOld_none {ax : Nat} (h : (s.assoc ax).sw = none) : s.retireOld ax = s := by
  simp only [State.retireOld, h]

theorem retireOld_some {ax : Nat} {w : Sw} (h : (s.assoc ax).sw = some w) : s.retireOld ax =
    if w.taken = true ∧ w.t + 5 ≤ s.tick then (s.setAssoc ax { (s.assoc ax).setPos (1 - w.q) none with sw := none }).mirrorAx ax else s := by
  simp only [State.retireOld, h, Bool.and_eq_true, decide_eq_true_eq]

end

/-! ## Items of a pool (R194, R201, R213) -/

section
variable {s : State} {i : Nat} {it : CItem} (ha : s.active Ty.CIPH i = true) (hseq : isTickIv it.ax = false ∨ it.seq ≤ 65535)
include ha hseq

/-- The pool takes the item this tick. -/
theorem itemArrive_taken : (!s.active Ty.CIPH i || (isTickIv it.ax && decide (65535 < it.seq))) = false := by
  rcases hseq with h | h <;> simp [ha, h]

/-- Work that gets no key is counted by its verdict, and nothing else happens. -/
theorem itemArrive_refused {v : Verdict} (hv : s.verdict it.ax it.tick (itemPhase it) = v) (h : ∀ p, v ≠ .ok p) :
    s.itemArrive i it = s.countVerdict i v := by
  cases v with
  | ok p => exact absurd rfl (h p)
  | noKey | stopped | refused => simp only [State.itemArrive, itemArrive_taken ha hseq, hv, Bool.false_eq_true, if_false]

variable {p : Nat} (hv : s.verdict it.ax it.tick (itemPhase it) = .ok p)
include hv

theorem itemArrive_missing (hm : s.missing i it.ax = true) :
    s.itemArrive i it = s.hold i it.ax (it.aad.length + it.data.length) (.item it) := by
  simp only [State.itemArrive, itemArrive_taken ha hseq, hv, hm, Bool.false_eq_true, if_false, if_true]

/-- A hot item runs: its invocation, its blocks on a core, its result to the half it came from. -/
theorem itemArrive_hot (hm : s.missing i it.ax = false) (hinv : s.cipherInv i it.ax = none) {k : KPos} (hk : (s.assoc it.ax).pos p = some k) :
    let res := itemResult k.key (itemIv s { it with kp := p } i) it
    let r := s.runItem i it.ax p it.kind (itemIv s { it with kp := p } i) it.aad it.data it.urgent none
    let r := if res = none then r.count Reg.CIPH_TAG_FAIL i else r
    s.itemArrive i it = r.setPool i { r.pool i with out := (r.pool i).out ++ [(it.half, res)] } := by
  simp only [State.itemArrive, itemArrive_taken ha hseq, State.itemRun, hv, hm, hinv, hk, Bool.false_eq_true, if_false,
    Option.isNone_iff_eq_none]

end

section
variable {s : State} {i ax n : Nat} {w : Work}

theorem hold_full (h : 262144 < (s.pool i).missUsed + heldBytes n) : s.hold i ax n w = s.count Reg.CIPH_MISS_BUF_FULL i := if_pos h

/-- An item of an AX that waits already joins the buffer without a load of its own. -/
theorem hold_waiting (hfit : (s.pool i).missUsed + heldBytes n ≤ 262144) (h : ∃ h ∈ (s.pool i).miss, h.ax = ax) :
    s.hold i ax n w = s.setPool i { s.pool i with miss := (s.pool i).miss ++ [⟨ax, heldBytes n, s.now, w⟩] } := by
  have hany : ((s.pool i).miss.any fun h => h.ax == ax) = true := by simpa using h
  simp only [State.hold, Nat.not_lt.2 hfit, hany, if_false, if_true]

end

/-! ## Demand loads (R201, R217) -/

section
variable {s : State} {i ax : Nat}

theorem demandDone_none {ok : Bool} (h : ((s.pool i).miss.filter fun h => h.ax == ax) = []) : s.demandDone i ax ok = s := by
  have hany : ((s.pool i).miss.any fun h => h.ax == ax) = false := by simpa using h
  simp only [State.demandDone, hany, Bool.not_false, if_true]

variable (h : ((s.pool i).miss.filter fun h => h.ax == ax) ≠ [])
include h

theorem demandDone_waits : (!(s.pool i).miss.any fun h => h.ax == ax) = false := by simpa using h

theorem demandDone_error : s.demandDone i ax false = ((s.missExpire i).loadErr ax).heldLost ax := by
  simp only [State.demandDone, demandDone_waits h, Bool.false_eq_true, Bool.not_false, if_false, if_true]

variable {l : State}

theorem demandDone_notLoaded (hl : (s.missExpire i).load (i / 2) ax 0 true = (l, false)) : s.demandDone i ax true = l.heldLost ax := by
  simp only [State.demandDone, demandDone_waits h, hl, Bool.false_eq_true, Bool.not_false, if_false, if_true]

/-- The one item that waits within its hold is released, whatever it is. -/
theorem demandDone_one (hl : (s.missExpire i).load (i / 2) ax 0 true = (l, true)) {x : Held}
    (hx : (((s.missExpire i).pool i).miss.filter fun h => h.ax == ax) = [x]) : s.demandDone i ax true =
      ((l.setPool i { l.pool i with miss := (l.pool i).miss.filter fun h => h.ax != ax }).heldAge i x).release i x := by
  obtain ⟨xax, bytes, since, work⟩ := x
  cases work <;> simp [State.demandDone, demandDone_waits h, hl, hx]

end

/-! ## Known-answer tests (R216) -/

/-- A field of a page is no part of a pool. -/
theorem pool_setFld (s : State) (f : FldId) (inst v i : Nat) : (s.setFld f inst v).pool i = s.pool i := (rfl)

/-- Settles O51: each command by the conditions of its rule, an item by its verdict and by whether its key is hot, a load by what it answers. -/
theorem hotSlotsPoolsAndKnownAnswerTests : Obligations.HotSlotsPoolsAndKnownAnswerTests := by
  intro s hr
  refine ⟨fun l axs hold hl => ?_, fun h => Gives.of_live _ hr (rfl : _ = execRemaskPassOverdue s) ?_,
    fun hlate hle hpass => Gives.of_live _ hr (rfl : _ = execRemaskPassOverdue s) ?_,
    fun ax h => Gives.of_live _ hr (rfl : _ = execOldGenerationDestroy ax s) (retireOld_none h),
    fun ax w h => Gives.of_live _ hr (rfl : _ = execOldGenerationDestroy ax s) (retireOld_some h),
    fun i it hi ha hseq => ?_, fun i hi => ?_, fun i ax ok hi => ?_, fun i hi ha => ?_, fun i f hi hk => ?_, fun i f hi hk => ?_⟩
  · have shown {r : State} (q : s.prefetch l axs hold = r) : Gives (.almPrefetch l axs hold) s r :=
      Gives.of_live _ hr (rfl : _ = execAlmPrefetch l axs hold s) (by rw [Nat.mod_eq_of_lt hl, q])
    exact ⟨fun h => shown (prefetch_off h), fun ha hf => shown (prefetch_on ha hf)⟩
  · refine if_neg ?_
    rcases h with h | h <;> simp [h]
  · refine if_pos ?_
    simp [hlate, hle, hpass]
  · have arrives {r : State} (q : s.itemArrive i it = r) : Gives (.ciphItem i it) s r :=
      Gives.of_live _ hr (rfl : _ = execCiphItem i it s) (by rw [Nat.mod_eq_of_lt hi, q])
    exact ⟨fun hv => arrives (itemArrive_refused ha hseq hv fun _ => nofun), fun hv => arrives (itemArrive_refused ha hseq hv fun _ => nofun),
      fun hv => arrives (itemArrive_refused ha hseq hv fun _ => nofun),
      fun p hv hm => ⟨fun h => arrives ((itemArrive_missing ha hseq hv hm).trans (hold_full h)),
        fun hfit h => arrives ((itemArrive_missing ha hseq hv hm).trans (hold_waiting hfit h))⟩,
      fun p k hv hm hinv hk => arrives (itemArrive_hot ha hseq hv hm hinv hk)⟩
  · refine Gives.of_live _ hr (rfl : _ = execMissHoldExpiry i s) ?_
    rw [Nat.mod_eq_of_lt hi]
    rfl
  · have done {ok : Bool} {r : State} (q : s.demandDone i ax ok = r) : Gives (.demandLoadComplete i ax ok) s r :=
      Gives.of_live _ hr (rfl : _ = execDemandLoadComplete i ax ok s) (by rw [Nat.mod_eq_of_lt hi, q])
    intro mine e
    split
    next l loaded hl =>
    exact ⟨fun h => done (demandDone_none h), fun h => done (demandDone_error h), fun h hn => done (demandDone_notLoaded h (hn ▸ hl)),
      fun x h hx hn => done (demandDone_one h (hn ▸ hl) hx)⟩
  · refine Gives.of_live _ hr (rfl : _ = execKatStart i s) ?_
    rw [Nat.mod_eq_of_lt hi, if_pos ha]
    rfl
  · refine Gives.of_live _ hr (rfl : _ = execKatDone i f s) ?_
    simp only [Nat.mod_eq_of_lt hi, hk, Bool.not_false, if_true]
  · refine Gives.of_live _ hr (rfl : _ = execKatDone i f s) ?_
    simp only [Nat.mod_eq_of_lt hi, hk, pool_setFld, Bool.not_true, Bool.false_eq_true, if_false]

end Sys2Proof.Proofs

/-! PROOF. The family of 08_trunk_macsec.md: what a trunk port does with a frame and with its link, the change of the encoding SA, the
commands of the SA and SC tables, and the IV and PN of a MACsec frame. -/

namespace Sys2Proof.Proofs

open Sys2Proof.Machine Sys2Proof.Laws

/-! ## What a counter leaves alone -/

section
variable {k : Nat} {r : RegId} {i : Nat}

/-- A page's flags are one word. -/
theorem rd_intOpt_ne (s : State) {ty : Nat} (h : k ≠ (Reg.INT_STS ty).at i) (o : Option Nat) : (s.intOpt ty i o).rd k = s.rd k := by
  cases o with
  | none => rfl
  | some b => exact rd_wr_ne s h _

/-- A counter writes its word and its page's flags. -/
theorem rd_countN_ne (s : State) (h : k ≠ r.at i) (hs : k ≠ (Reg.INT_STS r.ty).at i) (n : Nat) : (s.countN r i n).rd k = s.rd k := by
  unfold State.countN
  split
  · rfl
  · exact (rd_intOpt_ne _ hs _).trans (rd_wr_ne s h _)

/-- A 64-bit counter writes its two words and its page's flags. -/
theorem rd_countN64_ne (s : State) (h : k ≠ r.at i) (h4 : k ≠ r.at i + 4) (hs : k ≠ (Reg.INT_STS r.ty).at i) (n : Nat) :
    (s.countN64 r i n).rd k = s.rd k := by
  unfold State.countN64
  split
  · rfl
  · exact (rd_intOpt_ne _ hs _).trans ((rd_wr_ne _ h4 _).trans (rd_wr_ne s h _))

end

/-! ## Reception on a trunk port (R229, R232) -/

/-- The FEC codewords met with a frame are counted. -/
def fecCounted (s : State) (i corr bad : Nat) : State := (s.countN64 Reg.TRK_FEC_CORR_CW_LO i corr).countN Reg.TRK_FEC_UNCORR_CW i bad

/-- The FEC counts are no part of TRK_MODE, which places the ports. -/
theorem prim_fecCounted (s : State) (i corr bad k : Nat) : (fecCounted s i corr bad).prim k = s.prim k := by
  have apart (q : RegId) (ho : q.off ≠ 0x040) (hlt : q.off < 4096) (hty : q.ty = 0x18) : Reg.TRK_MODE_MODE.at 0 0 ≠ q.at i := by
    simp only [FldId.at, RegId.at, regKey, Reg.TRK_MODE_MODE, hty]
    omega
  have hmode : (fecCounted s i corr bad).rd (Reg.TRK_MODE_MODE.at 0 0) = s.rd (Reg.TRK_MODE_MODE.at 0 0) := by
    have hflags := apart (Reg.INT_STS Ty.TRK) (by decide) (by decide) rfl
    have hlow := apart Reg.TRK_FEC_CORR_CW_LO (by decide) (by decide) rfl
    have hhigh : _ ≠ Reg.TRK_FEC_CORR_CW_LO.at i + 4 := apart Reg.TRK_FEC_CORR_CW_HI (by decide) (by decide) rfl
    have hbad := apart Reg.TRK_FEC_UNCORR_CW (by decide) (by decide) rfl
    exact (rd_countN_ne _ hbad hflags bad).trans (rd_countN64_ne s hlow hhigh hflags corr)
  simp only [State.prim, State.portLanes, State.trkMode, State.fld, hmode]

/-- A good frame as it goes on from its port, with the times of its arrival. -/
def arrival (s : State) (k : Nat) (d : Bytes) (ta tb el : Nat) : Pkt :=
  { data := d, src := k, dst := 0, hp := s.portHp k 0 (beAt d 0 6), domain := 0, cls := 0, yellow := false, ptp := false, eapol := false
    tick := s.tick, born := s.now, tA := ta, tB := tb, el := el, flow := 0, inj := none }

section
variable {s : State} {k i cycle : Nat} {f : Bytes} {full : Bool}

theorem trkRx_down (h : s.portUp k = false) : s.trkRx k cycle f full = s := by
  simp only [State.trkRx, h, Bool.not_false, if_true]

variable (hi : s.prim k = i) (hup : s.portUp k = true) (h0 : (s.advanceTo cycle).inv Ty.TRK i 0 = false)
  (h1 : (s.advanceTo cycle).inv Ty.TRK i 1 = false)
include hi hup h0 h1

theorem trkRx_runt (h : f.length < 64) : s.trkRx k cycle f full = (s.advanceTo cycle).count Reg.TRK_RX_RUNT i := by
  simp only [State.trkRx, hi, hup, h0, h1, h, Bool.not_true, Bool.false_eq_true, if_false, if_true]

variable (hmin : 64 ≤ f.length)
include hmin

theorem trkRx_oversize (h : (s.advanceTo cycle).fld Reg.TRK_PORT_CTL_MAX_FRAME i < f.length) :
    s.trkRx k cycle f full = (s.advanceTo cycle).count Reg.TRK_RX_OVERSIZE i := by
  simp only [State.trkRx, hi, hup, h0, h1, Nat.not_lt.2 hmin, h, Bool.not_true, Bool.false_eq_true, if_false, if_true]

variable (hmax : f.length ≤ (s.advanceTo cycle).fld Reg.TRK_PORT_CTL_MAX_FRAME i)
include hmax

theorem trkRx_badFcs (h : f.drop (f.length - 4) ≠ fcsOf (f.take (f.length - 4))) :
    s.trkRx k cycle f full = (s.advanceTo cycle).count Reg.TRK_RX_FCS_ERR i := by
  simp only [State.trkRx, hi, hup, h0, h1, Nat.not_lt.2 hmin, Nat.not_lt.2 hmax, bne_iff_ne.2 h, Bool.not_true, Bool.false_eq_true,
    if_false, if_true]

variable (hfcs : f.drop (f.length - 4) = fcsOf (f.take (f.length - 4)))
include hfcs

theorem trkRx_pause (h : beAt (f.take (f.length - 4)) 12 2 = 0x8808) :
    s.trkRx k cycle f full = (s.advanceTo cycle).count Reg.TRK_RX_PAUSE i := by
  simp only [State.trkRx, hi, hup, h0, h1, Nat.not_lt.2 hmin, Nat.not_lt.2 hmax, hfcs, h, bne_self_eq_false, beq_self_eq_true,
    Bool.not_true, Bool.false_eq_true, if_false, if_true]

/-- A good frame is counted with its octets, and then lost where its half-pipe is full in 800GbE mode (R34), else it goes on. -/
theorem trkRx_good {ta tb el : Nat} (h : beAt (f.take (f.length - 4)) 12 2 ≠ 0x8808) :
    let g := ((s.advanceTo cycle).count64 Reg.TRK_RX_FRAMES_LO i).countN64 Reg.TRK_RX_OCTETS_LO i f.length
    g.ingressTimes k = (ta, tb, el) → s.trkRx k cycle f full = if full = true ∧ g.trkMode = 2 then g.count Reg.TRK_HALFPIPE_OVF i
      else g.msecIn k (arrival g k (f.take (f.length - 4)) ta tb el) := by
  intro g htimes
  simp only [g] at htimes
  simp only [State.trkRx, hi, hup, h0, h1, Nat.not_lt.2 hmin, Nat.not_lt.2 hmax, hfcs, beq_false_of_ne h, htimes, bne_self_eq_false,
    Bool.not_true, Bool.false_eq_true, if_false, Bool.and_eq_true, beq_iff_eq]
  rfl

end

/-- On a port without MACsec a frame that is not EAPOL goes to the forwarder as it is. -/
theorem msecIn_off {s : State} {k : Nat} {p : Pkt} (hen : s.flag Reg.MSEC_CTL_EN (s.prim k) = false) (hty : beAt p.data 12 2 ≠ 0x888E) :
    s.msecIn k p = s.toFwd { p with eapol := false } := by
  simp only [State.msecIn, State.rxDeliver, State.on, hen, beq_false_of_ne hty, Bool.false_and, Bool.and_false, Bool.not_false, Bool.or_true,
    Bool.false_eq_true, if_false, if_true]

section
variable {s r : State} {k cycle corr bad : Nat} {f : Bytes} {full : Bool} (hr : Running s) (hk : k < 32)
include hr hk

theorem gives_trkRxFrame_deaf (h : s.hasPort k = false ∨ s.flag Reg.TRK_PORT_CTL_LOOPBACK (s.prim k) = true) :
    Gives (.trkRxFrame k cycle f full corr bad) s s := by
  refine Gives.of_live _ hr (rfl : _ = execTrkRxFrame k cycle f full corr bad s) ?_
  rw [Nat.mod_eq_of_lt hk]
  exact if_pos (by simpa using h)

theorem gives_trkRxFrame (hp : s.hasPort k = true) (hl : s.flag Reg.TRK_PORT_CTL_LOOPBACK (s.prim k) = false)
    (q : (fecCounted s (s.prim k) corr bad).trkRx k cycle f full = r) : Gives (.trkRxFrame k cycle f full corr bad) s r := by
  refine Gives.of_live _ hr (rfl : _ = execTrkRxFrame k cycle f full corr bad s) ?_
  rw [Nat.mod_eq_of_lt hk]
  exact (if_neg (by simp [hp, hl])).trans q

end

/-! ## The link and TRK_MODE (R229, R230, R247) -/

/-- The number whose bit j, for j below n, is p j. -/
def bitSum (p : Nat → Bool) (n : Nat) : Nat := (List.range n).foldl (fun a j => if p j then a + 2 ^ j else a) 0

theorem bitSum_succ (p : Nat → Bool) (n : Nat) : bitSum p (n + 1) = if p n then bitSum p n + 2 ^ n else bitSum p n := by
  simp only [bitSum, List.range_succ, List.foldl_append, List.foldl_cons, List.foldl_nil]

theorem bitSum_lt (p : Nat → Bool) (n : Nat) : bitSum p n < 2 ^ n := by
  induction n with
  | zero => exact Nat.one_pos
  | succ n ih =>
    rw [bitSum_succ, Nat.pow_succ]
    split <;> omega

theorem bitOf_bitSum (p : Nat → Bool) {n j : Nat} (hj : j < n) : bitOf (bitSum p n) j = p j := by
  rw [bitOf_eq_testBit]
  induction n with
  | zero => exact absurd hj (Nat.not_lt_zero j)
  | succ n ih =>
    have htop : (bitSum p n).testBit n = false := Nat.testBit_lt_two_pow (bitSum_lt p n)
    rw [bitSum_succ]
    rcases Nat.lt_succ_iff_lt_or_eq.1 hj with h | rfl
    · rw [apply_ite (Nat.testBit · j), Nat.add_comm, Nat.testBit_two_pow_add_gt h, ite_self, ih h]
    · rw [apply_ite (Nat.testBit · j), Nat.add_comm, Nat.testBit_two_pow_add_eq, htop]
      cases p j <;> rfl

/-- A port has a lane at least. -/
theorem portLanes_pos (s : State) : 0 < s.portLanes := by
  unfold State.portLanes
  split <;> decide

/-- What a port shows of its link where `lock` says which of its lanes are locked. -/
def linkShown (s : State) (i : Nat) (an al lf rf : Bool) (lock : Nat → Bool) : State :=
  let was := s.flag Reg.TRK_PORT_STS_LINK i
  let ok := al && (List.range s.portLanes).all lock
  let en := s.on Reg.TRK_PORT_CTL_EN i
  let up := en && ok && !lf && !rf && (an || !s.on Reg.TRK_PORT_CTL_AN_EN i)
  let b (x : Bool) (j : Nat) : Nat := if x then 2 ^ j else 0
  let r := (List.range s.portLanes).foldl (fun (r : State) j =>
    (r.setReg Reg.TRK_PORT_STS (i + j) (b (lock j) 5)).laneShow (i + j) (lock j) ok up en) s
  let r := r.setReg Reg.TRK_PORT_STS i (b up 0 + b an 1 + b ok 2 + b lf 3 + b rf 4 + b (lock 0) 5)
  let r := if was = true ∧ up = false then r.count Reg.TRK_LINK_DOWN i else r
  if was = up then r else r.intSet Ty.TRK i 0

/-- Only the locks of the port's own lanes matter. -/
theorem linkShown_congr (s : State) (i : Nat) (an al lf rf : Bool) {p q : Nat → Bool} (h : ∀ j < s.portLanes, p j = q j) :
    linkShown s i an al lf rf p = linkShown s i an al lf rf q := by
  have hall : (List.range s.portLanes).all p = (List.range s.portLanes).all q := by
    rw [Bool.eq_iff_iff]
    simp only [List.all_eq_true, List.mem_range]
    exact forall₂_congr fun j hj => by rw [h j hj]
  have hshow (ok up en : Bool) : (List.range s.portLanes).foldl (fun (r : State) j =>
        (r.setReg Reg.TRK_PORT_STS (i + j) (if p j then 2 ^ 5 else 0)).laneShow (i + j) (p j) ok up en) s =
      (List.range s.portLanes).foldl (fun (r : State) j =>
        (r.setReg Reg.TRK_PORT_STS (i + j) (if q j then 2 ^ 5 else 0)).laneShow (i + j) (q j) ok up en) s :=
    List.foldl_ext _ _ _ fun r j hj => by rw [h j (List.mem_range.1 hj)]
  simp only [linkShown, hall, hshow, h 0 (portLanes_pos s)]

section
variable {s : State} {k : Nat}

theorem linkChange_absent (h : s.hasPort k = false) (an al lf rf : Bool) (locks : Nat) : s.linkChange k an al lf rf locks = s := by
  simp only [State.linkChange, h, Bool.not_false, if_true]

theorem ite_and_not {α : Type} (a b : Bool) (x y : α) : (if a && !b then x else y) = if a = true ∧ b = false then x else y := by
  cases a <;> cases b <;> rfl

theorem ite_bne {α : Type} (a b : Bool) (x y : α) : (if a != b then x else y) = if a = b then y else x := by
  cases a <;> cases b <;> rfl

/-- TRK_LINK_CHANGE shows the locks of the lanes whose receivers are on. -/
theorem linkChange_shown (h : s.hasPort k = true) (an al lf rf : Bool) (locks : Nat) : s.linkChange k an al lf rf locks =
    linkShown s (s.prim k) an al lf rf fun j => bitOf locks j && s.on Reg.SER_CTL_RX_EN (s.prim k + j) := by
  rw [← linkShown_congr s (s.prim k) an al lf rf fun j hj =>
    bitOf_bitSum (fun j => bitOf locks j && s.on Reg.SER_CTL_RX_EN (s.prim k + j)) hj]
  simp only [State.linkChange, linkShown, h, Bool.not_true, Bool.false_eq_true, if_false, ite_and_not, ite_bne]
  rfl

end

theorem gives_trkLinkChange {s r : State} {k locks : Nat} {an al lf rf : Bool} (hr : Running s) (hk : k < 32)
    (q : s.linkChange k an al lf rf (locks % 256) = r) : Gives (.trkLinkChange k an al lf rf locks) s r := by
  refine Gives.of_live _ hr (rfl : _ = execTrkLinkChange k an al lf rf locks s) ?_
  rw [Nat.mod_eq_of_lt hk, q]

/-! ## The encoding SA (R236) -/

section
variable {s : State} {i v : Nat}

theorem txSaStart_stored (h : bitOf v 31 = false) : s.txSaStart i v = s.setReg Reg.MSEC_TX_SA_CTL i (v % 8) := by
  simp only [State.txSaStart, h, Bool.not_false, if_true]

/-- Without AT_EN the change applies to the next frame. -/
theorem txSaStart_next (h : bitOf v 31 = true) (hat : bitOf v 2 = false) :
    let r := (s.setReg Reg.MSEC_TX_SA_CTL i (v % 8)).unname .txSa i 0
    s.txSaStart i v = (r.setSy i { r.sy i with next := some (v % 4), atTick := none }).setFlag Reg.MSEC_STS_TX_PENDING i false := by
  simp only [State.txSaStart, h, hat, Bool.not_true, Bool.false_eq_true, if_false]

/-- With AT_EN the change is named for the tick of TX_SA_AT. -/
theorem txSaStart_at (h : bitOf v 31 = true) (hat : bitOf v 2 = true) :
    let r := (s.setReg Reg.MSEC_TX_SA_CTL i (v % 8)).unname .txSa i 0
    s.txSaStart i v =
      ((r.setSy i { r.sy i with next := none, atTick := some (v % 4) }).setFlag Reg.MSEC_STS_TX_PENDING i true).name .txSa i 0
        (s.reg64 Reg.MSEC_TX_SA_AT_LO i % 2 ^ 48) := by
  have apart : Apart Reg.MSEC_TX_SA_AT_LO Reg.MSEC_TX_SA_CTL.ty Reg.MSEC_TX_SA_CTL.off :=
    ⟨rfl, by decide, by decide, by decide, by decide⟩
  simp only [State.txSaStart, h, hat, unname_reg64, reg64_setReg s apart, Bool.not_true, Bool.false_eq_true, if_false, if_true]

end

theorem gives_txSaStart {s r : State} {l : Nat} {v : Word} (hr : Running s) (hl : l < 32) (hp : s.present Ty.MSEC l = true)
    (hprim : s.isPrim l = true) (q : s.txSaStart l v.toNat = r) : Gives (.txSaStart l v) s r := by
  refine Gives.of_live _ hr (rfl : _ = execTxSaStart l v s) ?_
  rw [Nat.mod_eq_of_lt hl, hp, hprim]
  exact q

/-! ## The checks of a table entry (R251) -/

section
variable {s : State} {i : Nat} (h0 : s.inv Ty.MSEC i 0 = false)
include h0

/-- An SC entry whose check bits are not inverted is read as it is. -/
theorem scCheck_clean (n : Nat) : s.scCheck i n = s := by
  unfold State.scCheck
  dsimp only
  split
  · rfl
  · rw [h0]
    rfl

/-- An SA entry whose check bits are not inverted is read as it is. -/
theorem saCheck_clean (h1 : s.inv Ty.MSEC i 1 = false) (table key : Nat) : s.saCheck i table key = s := by
  unfold State.saCheck
  dsimp only
  split
  · rfl
  · rw [h0, h1]
    rfl

end

/-! ## SA_CMD (R234, R249) -/

/-- The key of an entry: the AN of a transmit SA, SC × 4 + AN of a receive SA. -/
def saKey (table sc an : Nat) : Nat := if table = 0 then an else sc * 4 + an

/-- How an SA_CMD ends: its word with the STATUS, CFG_REJECT on a refusal, CMD_DONE. -/
def saDone (l sc an table op st : Nat) (r : State) : State :=
  let r := r.setReg Reg.MSEC_SA_CMD l (sc + an * 64 + table * 2 ^ 8 + op * 2 ^ 16 + st * 2 ^ 24)
  (if st = 0 then r else r.count Reg.MSEC_CFG_REJECT l).intSet Ty.MSEC l 7

section
variable {s : State} {l sc an table op : Nat} {f : State → Nat → Nat → State × Nat}

theorem saCmd_noTable : s.saCmd l sc an 3 op f = s := by
  simp only [State.saCmd, beq_self_eq_true, Bool.true_or, if_true]

variable (hsc : sc < 64) (han : an < 4) (hp : s.present Ty.MSEC l = true) (ht : table ≠ 3)
include hsc han hp ht

/-- Through a port's primary instance a command acts on the tables there. -/
theorem saCmd_primary (hprim : s.prim (s.portOf l) = l) {r : State} {st : Nat} (h : f s l (saKey table sc an) = (r, st)) :
    s.saCmd l sc an table op f = saDone l sc an table op st r := by
  simp only [saKey] at h
  simp only [State.saCmd, saDone, h, hp, hprim, beq_false_of_ne ht, Nat.mod_eq_of_lt hsc, Nat.mod_eq_of_lt han, bne_self_eq_false,
    Bool.not_true, Bool.or_self, Bool.false_and, Bool.false_eq_true, if_false, beq_iff_eq]

/-- Through a secondary instance a command ends with STATUS 1 where it is of an SC, or what it names does not lie there. -/
theorem saCmd_secondary (hsec : s.prim (s.portOf l) ≠ l)
    (h : table = 1 ∨ op = 2 ∧ s.regI Reg.MSEC_SA_DATA l 0 % 2 ^ 13 / 256 ≠ l ∨
      op ≠ 2 ∧ (s.sy (s.prim (s.portOf l))).saAt table (saKey table sc an) = none) :
    s.saCmd l sc an table op f = saDone l sc an table op 1 s := by
  rcases h with rfl | ⟨rfl, hw⟩ | ⟨hop, hno⟩
  · simp only [State.saCmd, hp, bne_iff_ne.2 hsec, Nat.mod_eq_of_lt hsc, Nat.mod_eq_of_lt han, beq_self_eq_true, Bool.true_or, Bool.and_self,
      if_true]
    rfl
  · simp only [State.saCmd, hp, bne_iff_ne.2 hsec, beq_false_of_ne ht, beq_false_of_ne hw, Nat.mod_eq_of_lt hsc, Nat.mod_eq_of_lt han,
      beq_self_eq_true, Bool.not_false, Bool.or_true, Bool.and_self, if_true]
    rfl
  · simp only [saKey, ← beq_iff_eq (b := 0)] at hno
    simp only [State.saCmd, hp, bne_iff_ne.2 hsec, beq_false_of_ne ht, beq_false_of_ne hop, hno, Nat.mod_eq_of_lt hsc, Nat.mod_eq_of_lt han,
      Bool.not_true, Bool.or_self, Bool.false_eq_true, if_false, Bool.not_false, Bool.or_true, Bool.and_self, if_true]
    rfl

end
section
variable {s r : State} {l sc an t : Nat} (hr : Running s) (hl : l < 32) (hsc : sc < 64) (han : an < 4) (ht : t < 4)
include hr hl hsc han ht

theorem gives_saRead (q : s.saRead l sc an t = r) : Gives (.saRead l sc an t) s r := by
  refine Gives.of_live _ hr (rfl : _ = execSaRead l sc an t s) ?_
  rw [Nat.mod_eq_of_lt hl, Nat.mod_eq_of_lt hsc, Nat.mod_eq_of_lt han, Nat.mod_eq_of_lt ht, q]

theorem gives_saWrite (q : s.saWrite l sc an t = r) : Gives (.saWrite l sc an t) s r := by
  refine Gives.of_live _ hr (rfl : _ = execSaWrite l sc an t s) ?_
  rw [Nat.mod_eq_of_lt hl, Nat.mod_eq_of_lt hsc, Nat.mod_eq_of_lt han, Nat.mod_eq_of_lt ht, q]

theorem gives_saEnable (q : s.saEnable l sc an t = r) : Gives (.saEnable l sc an t) s r := by
  refine Gives.of_live _ hr (rfl : _ = execSaEnable l sc an t s) ?_
  rw [Nat.mod_eq_of_lt hl, Nat.mod_eq_of_lt hsc, Nat.mod_eq_of_lt han, Nat.mod_eq_of_lt ht, q]

theorem gives_saDisable (q : s.saDisable l sc an t = r) : Gives (.saDisable l sc an t) s r := by
  refine Gives.of_live _ hr (rfl : _ = execSaDisable l sc an t s) ?_
  rw [Nat.mod_eq_of_lt hl, Nat.mod_eq_of_lt hsc, Nat.mod_eq_of_lt han, Nat.mod_eq_of_lt ht, q]

end

/-- The words of an entry shown in SA_DATA. -/
def saShown (s : State) (l : Nat) (w : List Nat) : State :=
  (List.range 8).foldl (fun (s : State) j => s.setRegI Reg.MSEC_SA_DATA l j (w.getD j 0)) s

/-- The words of an SC entry. -/
def scWords (e : ScE) : List Nat :=
  [(if e.valid && !e.dead then 1 else 0) + (if e.implicit then 2 else 0), e.sci % 2 ^ 32, e.sci / 2 ^ 32 % 2 ^ 32, 0, 0, 0, 0, 0]

/-- The SC entry that SA_DATA holds. -/
def scWritten (s : State) (l : Nat) : ScE :=
  ⟨bitOf (s.regI Reg.MSEC_SA_DATA l 0) 0, bitOf (s.regI Reg.MSEC_SA_DATA l 0) 1,
    s.regI Reg.MSEC_SA_DATA l 1 + s.regI Reg.MSEC_SA_DATA l 2 * 2 ^ 32, false⟩

/-- The entry that SA_DATA holds would be a second IMPLICIT SC. -/
def secondImplicit (s : State) (l sc : Nat) : Bool :=
  (scWritten s l).implicit && (scWritten s l).valid && (s.sy l).sc.any fun q => q.1 != sc && q.2.valid && q.2.implicit

/-- The SA index that SA_DATA holds. -/
def saIdx (s : State) (l : Nat) : Nat := s.regI Reg.MSEC_SA_DATA l 0 % 2 ^ 13

/-- The next PN that SA_DATA holds: its high word is of an XPN suite alone. -/
def saPn (s : State) (l : Nat) : Nat :=
  s.regI Reg.MSEC_SA_DATA l 1 + (if s.xpn l then s.regI Reg.MSEC_SA_DATA l 2 * 2 ^ 32 else 0)

/-- The SA entry that a WRITE stores: what SA_DATA holds, with the entry's own use. -/
def saWritten (s : State) (l table key : Nat) : SaE :=
  { idx := saIdx s l, inUse := (((s.sy l).saAt table key).getD saReset).inUse, pn := saPn s l, low := if table = 0 then 0 else saPn s l
    ssci := s.regI Reg.MSEC_SA_DATA l 3
    salt := s.regI Reg.MSEC_SA_DATA l 4 * 2 ^ 64 + s.regI Reg.MSEC_SA_DATA l 5 * 2 ^ 32 + s.regI Reg.MSEC_SA_DATA l 6
    warned := false, dead := false }

section
variable {s : State} {l sc an t : Nat} (hsc : sc < 64) (han : an < 4) (hp : s.present Ty.MSEC l = true) (hprim : s.prim (s.portOf l) = l)
include hsc han hp hprim

theorem saRead_sc (h0 : s.inv Ty.MSEC l 0 = false) :
    s.saRead l sc an 1 = saDone l sc an 1 1 0 (saShown s l (scWords ((s.sy l).sc.get scReset sc))) :=
  saCmd_primary hsc han hp (by decide) hprim (by simp only [beq_self_eq_true, if_true, scCheck_clean h0]; rfl)

theorem saWrite_sc : s.saWrite l sc an 1 = if secondImplicit s l sc then saDone l sc an 1 2 3 s
    else saDone l sc an 1 2 0 (s.setSy l { s.sy l with sc := (s.sy l).sc.set scReset sc (scWritten s l) }) := by
  split
  next h => exact saCmd_primary hsc han hp (by decide) hprim (if_pos h)
  next h => exact saCmd_primary hsc han hp (by decide) hprim (if_neg h)

variable (ht : t = 0 ∨ t = 2)
include ht

theorem saCmd_sa {op st : Nat} {f : State → Nat → Nat → State × Nat} {r : State} (h : f s l (saKey t sc an) = (r, st)) :
    s.saCmd l sc an t op f = saDone l sc an t op st r :=
  saCmd_primary hsc han hp (by omega) hprim h

theorem saRead_sa (h0 : s.inv Ty.MSEC l 0 = false) (h1 : s.inv Ty.MSEC l 1 = false) : s.saRead l sc an t =
    saDone l sc an t 1 0 (saShown s l (((s.sy l).saAt t (saKey t sc an)).getD saReset).words) := by
  have h : (t == 1) = false := beq_false_of_ne (by omega)
  exact saCmd_sa hsc han hp hprim ht (by simp only [h, Bool.false_eq_true, if_false, saCheck_clean h0 h1]; rfl)

theorem saEnable_unwritten (h : (s.sy l).saAt t (saKey t sc an) = none) : s.saEnable l sc an t = saDone l sc an t 3 2 s :=
  saCmd_sa hsc han hp hprim ht (by simp only [h])

theorem saDisable_unwritten (h : (s.sy l).saAt t (saKey t sc an) = none) : s.saDisable l sc an t = saDone l sc an t 4 2 s :=
  saCmd_sa hsc han hp hprim ht (by simp only [h])

theorem saEnable_written {a : SaE} (h : (s.sy l).saAt t (saKey t sc an) = some a) : s.saEnable l sc an t =
    saDone l sc an t 3 0 (s.setSy l ((s.sy l).putSa t (saKey t sc an) { a with inUse := true })) := by
  have hsa : (t == 1) = false := beq_false_of_ne (by omega)
  exact saCmd_sa hsc han hp hprim ht (by simp only [h, hsa, Bool.false_eq_true, if_false])

theorem saDisable_written {a : SaE} (h : (s.sy l).saAt t (saKey t sc an) = some a) : s.saDisable l sc an t =
    if s.encoding l t an then saDone l sc an t 4 2 s
    else saDone l sc an t 4 0 (s.setSy l ((s.sy l).putSa t (saKey t sc an) { a with inUse := false })) := by
  have hsa : (t == 1) = false := beq_false_of_ne (by omega)
  split
  next he => exact saCmd_sa hsc han hp hprim ht (by simp only [h, he, Bool.or_true, if_true])
  next he => exact saCmd_sa hsc han hp hprim ht (by simp only [h, hsa, he, Bool.or_self, Bool.false_eq_true, if_false])

/-- What a WRITE of an SA does, and its STATUS: an SA on an absent MSEC, outside the port or already named, or the encoding SA is refused. -/
theorem saWrite_sa : s.saWrite l sc an t =
    if s.present Ty.MSEC (saIdx s l / 256) = false then saDone l sc an t 2 4 s
    else if s.portOf (saIdx s l / 256) ≠ s.portOf l ∨ s.named l t (saKey t sc an) (saIdx s l) = true then saDone l sc an t 2 1 s
    else if s.encoding l t an = true then saDone l sc an t 2 2 s
    else saDone l sc an t 2 0 (s.setSy l ((s.sy l).putSa t (saKey t sc an) (saWritten s l t (saKey t sc an)))) := by
  have hsa : ¬ (t == 1) = true := by
    rw [beq_iff_eq]
    omega
  have habs : (!s.present Ty.MSEC (saIdx s l / 256)) = true ↔ s.present Ty.MSEC (saIdx s l / 256) = false := by rw [Bool.not_eq_true']
  have hout : (s.portOf (saIdx s l / 256) != s.portOf l || s.named l t (saKey t sc an) (saIdx s l)) = true ↔
      s.portOf (saIdx s l / 256) ≠ s.portOf l ∨ s.named l t (saKey t sc an) (saIdx s l) = true := by rw [Bool.or_eq_true, bne_iff_ne]
  split_ifs with ha ho he
  · exact saCmd_sa hsc han hp hprim ht ((if_neg hsa).trans (if_pos (habs.2 ha)))
  · exact saCmd_sa hsc han hp hprim ht ((if_neg hsa).trans ((if_neg (ha ∘ habs.1)).trans (if_pos (hout.2 ho))))
  · exact saCmd_sa hsc han hp hprim ht ((if_neg hsa).trans ((if_neg (ha ∘ habs.1)).trans ((if_neg (ho ∘ hout.1)).trans (if_pos he))))
  · refine saCmd_sa hsc han hp hprim ht
      ((if_neg hsa).trans ((if_neg (ha ∘ habs.1)).trans ((if_neg (ho ∘ hout.1)).trans ((if_neg he).trans ?_))))
    simp only [beq_iff_eq]
    rfl

end

/-! ## The PN of a MACsec frame (R238) -/

/-- The PN recovered ends in the 32 bits that the frame carries. -/
theorem fullPn_low (x : Bool) (n : Nat) {l : Nat} (h : l < 2 ^ 32) : fullPn x n l % 2 ^ 32 = l := by
  unfold fullPn
  split
  · exact Nat.mod_eq_of_lt h
  · dsimp only
    split <;> omega

/-- Settles O52: a frame and a link through what the port shows, SA_CMD through the instance it comes by and then the entry it names, the
change of the encoding SA by its two bits. -/
theorem trunkPortsAndSecureAssociations : Obligations.TrunkPortsAndSecureAssociations := by
  refine ⟨fun s k hr hk => ⟨fun cycle f full corr bad h => gives_trkRxFrame_deaf hr hk h, fun cycle f corr bad hp hl => ?_,
      fun p hen hty => msecIn_off hen hty, fun an al lf rf locks h => gives_trkLinkChange hr hk (linkChange_absent h an al lf rf _),
      fun an al lf rf locks h hlt => ?_, fun v h => ?_⟩,
    fun s l sc an hr hl hsc han => ⟨⟨?_, ?_, ?_, ?_⟩, ?_, ?_, fun v hp hprim => ?_⟩,
    fun sci pn ssci salt => ⟨rfl, fun _ _ => rfl⟩, fun n l h => ⟨rfl, fullPn_low true n h⟩, by decide, by decide⟩
  · have hi : (fecCounted s (s.prim k) corr bad).prim k = s.prim k := prim_fecCounted s _ corr bad k
    have receive {full : Bool} {r : State} (q : (fecCounted s (s.prim k) corr bad).trkRx k cycle f full = r) :
        Gives (.trkRxFrame k cycle f full corr bad) s r := gives_trkRxFrame hr hk hp hl q
    refine ⟨fun hdown full => receive (trkRx_down hdown), fun hup h0 h1 => ⟨fun h full => receive (trkRx_runt hi hup h0 h1 h),
      fun hmin h full => receive (trkRx_oversize hi hup h0 h1 hmin h),
      fun hmin hmax h full => receive (trkRx_badFcs hi hup h0 h1 hmin hmax h),
      fun hmin hmax hfcs => ⟨fun h full => receive (trkRx_pause hi hup h0 h1 hmin hmax hfcs h), ?_⟩⟩⟩
    intro g
    split
    next ta tb el htimes =>
    intro hty full
    have good := trkRx_good (full := full) hi hup h0 h1 hmin hmax hfcs hty htimes
    refine ⟨fun h => receive (good.trans (if_pos h)), fun h => receive (good.trans (if_neg ?_))⟩
    rintro ⟨hfull, hmode⟩
    exact h.elim (ne_false_of_eq_true hfull) (absurd hmode)
  · exact gives_trkLinkChange hr hk (by rw [Nat.mod_eq_of_lt hlt, linkChange_shown h]; rfl)
  · refine Gives.of_live _ hr (rfl : _ = execTrkModeWrite v s) ?_
    simp only [h, if_true, State.trkModeWrite, beq_iff_eq]
  · exact gives_saRead hr hl hsc han (by decide) saCmd_noTable
  · exact gives_saWrite hr hl hsc han (by decide) saCmd_noTable
  · exact gives_saEnable hr hl hsc han (by decide) saCmd_noTable
  · exact gives_saDisable hr hl hsc han (by decide) saCmd_noTable
  · intro hp hsec
    refine ⟨⟨?_, ?_, ?_, ?_⟩, fun t ht => ?_⟩
    · exact gives_saRead hr hl hsc han (by decide) (saCmd_secondary hsc han hp (by decide) hsec (.inl rfl))
    · exact gives_saWrite hr hl hsc han (by decide) (saCmd_secondary hsc han hp (by decide) hsec (.inl rfl))
    · exact gives_saEnable hr hl hsc han (by decide) (saCmd_secondary hsc han hp (by decide) hsec (.inl rfl))
    · exact gives_saDisable hr hl hsc han (by decide) (saCmd_secondary hsc han hp (by decide) hsec (.inl rfl))
    · have ht4 : t < 4 := by omega
      have ht3 : t ≠ 3 := by omega
      refine ⟨fun hw => ?_, fun hno => ⟨?_, ?_, ?_⟩⟩
      · exact gives_saWrite hr hl hsc han ht4 (saCmd_secondary hsc han hp ht3 hsec (.inr (.inl ⟨rfl, hw⟩)))
      · exact gives_saRead hr hl hsc han ht4 (saCmd_secondary hsc han hp ht3 hsec (.inr (.inr ⟨by decide, hno⟩)))
      · exact gives_saEnable hr hl hsc han ht4 (saCmd_secondary hsc han hp ht3 hsec (.inr (.inr ⟨by decide, hno⟩)))
      · exact gives_saDisable hr hl hsc han ht4 (saCmd_secondary hsc han hp ht3 hsec (.inr (.inr ⟨by decide, hno⟩)))
  · intro hp hprim h0 h1
    refine ⟨gives_saRead hr hl hsc han (by decide) (saRead_sa hsc han hp hprim (.inl rfl) h0 h1),
      gives_saRead hr hl hsc han (by decide) (saRead_sa hsc han hp hprim (.inr rfl) h0 h1),
      gives_saRead hr hl hsc han (by decide) (saRead_sc hsc han hp hprim h0),
      gives_saWrite hr hl hsc han (by decide) (saWrite_sc hsc han hp hprim), fun t ht => ?_⟩
    have ht4 : t < 4 := by omega
    have write := saWrite_sa hsc han hp hprim ht
    refine ⟨fun habs => gives_saWrite hr hl hsc han ht4 (write.trans ?_), fun hhere hout => gives_saWrite hr hl hsc han ht4 (write.trans ?_),
      fun hhere hout henc => gives_saWrite hr hl hsc han ht4 (write.trans ?_),
      fun hhere hout henc => gives_saWrite hr hl hsc han ht4 (write.trans ?_),
      fun h => ⟨gives_saEnable hr hl hsc han ht4 (saEnable_unwritten hsc han hp hprim ht h),
        gives_saDisable hr hl hsc han ht4 (saDisable_unwritten hsc han hp hprim ht h)⟩,
      fun a h => ⟨gives_saEnable hr hl hsc han ht4 (saEnable_written hsc han hp hprim ht h),
        gives_saDisable hr hl hsc han ht4 (saDisable_written hsc han hp hprim ht h)⟩⟩
    · exact if_pos (Bool.eq_false_iff.2 habs)
    · exact (if_neg (ne_false_of_eq_true hhere)).trans (if_pos hout)
    · exact (if_neg (ne_false_of_eq_true hhere)).trans ((if_neg hout).trans (if_pos henc))
    · exact (if_neg (ne_false_of_eq_true hhere)).trans ((if_neg hout).trans (if_neg (Bool.eq_false_iff.1 henc)))
  · exact ⟨fun h => gives_txSaStart hr hl hp hprim (txSaStart_stored h), fun h hat => gives_txSaStart hr hl hp hprim (txSaStart_next h hat),
      fun h hat => gives_txSaStart hr hl hp hprim (txSaStart_at h hat)⟩

end Sys2Proof.Proofs

/-! PROOF. The family of 09_forwarding.md: what the forwarder does with a frame, its learning and its ageing sweep, and the commands of
its address table and records. -/

namespace Sys2Proof.Proofs

open Sys2Proof.Machine Sys2Proof.Laws

/-! ## A forwarder command on a running device -/

/-- A command of a slice that the part can have gives what its meaning makes of that slice. -/
theorem Gives.of_slice {c : Instr} {s r : State} {l : Nat} (f : State → Nat → State) (hr : Running s) (hl : l < 4)
    (e : exec c s = live s fun s => f s (l % 4)) (q : f s l = r) : Gives c s r :=
  Gives.of_live _ hr e (by rw [Nat.mod_eq_of_lt hl, q])

/-! ## A key in the address table (R262, R270) -/

section
variable {a : State} {l d m : Nat}

/-- A key that no position holds is not found. -/
theorem fwdFind_missing (h : (a.fw l).pos d m = none) : a.fwdFind l d m = (a, none) := by
  simp only [State.fwdFind, h]

/-- A key's position is found where the check of its entry stands. -/
theorem fwdFind_held {p : Nat} (hi : a.inv Ty.FWD l 0 = false) (h : (a.fw l).pos d m = some p) : a.fwdFind l d m = (a, some p) := by
  simp only [State.fwdFind, h, hi, Bool.false_eq_true, if_false]

end

/-! ## The ageing sweep (R269) -/

section
variable {s : State} {l : Nat}

theorem ageStart_underWay (h : (s.fw l).sweep.isSome = true) : s.ageStart l = s := if_pos h

theorem ageStart_begins (h : (s.fw l).sweep = none) :
    s.ageStart l = s.setFw l { s.fw l with parity := !(s.fw l).parity, sweep := some ⟨s.now, 0, 0⟩ } := if_neg (by simp [h])

variable {a : State} {cycle : Nat} {w : Sweep} (ha : s.advanceTo cycle = a)
include ha

/-- With no sweep under way there is none to end. -/
theorem ageDone_idle (h : (a.fw l).sweep = none) : s.ageDone l cycle = a := by
  simp only [State.ageDone, ha, h]

/-- Before the last visit the sweep goes on. -/
theorem ageDone_early (h : (a.fw l).sweep = some w) (hnow : a.now ≤ w.start + 4 * fwdPositions) : s.ageDone l cycle = a := by
  simp only [State.ageDone, ha, h, hnow, if_true]

/-- After the last visit the sweep ends and its count of aged entries shows. -/
theorem ageDone_ends (h : (a.fw l).sweep = some w) (hnow : w.start + 4 * fwdPositions < a.now) {v : Sweep}
    (hv : ((a.ageTo l).fw l).sweep = some v) : s.ageDone l cycle =
      (((a.ageTo l).setFw l { (a.ageTo l).fw l with sweep := none }).setReg Reg.FWD_AGE_RESULT l v.aged).intSet Ty.FWD l 7 := by
  simp only [State.ageDone, ha, h, hv, Nat.not_le.2 hnow, if_false]

end

/-! ## Learning (R264, R266) -/

/-- What LEARN_REQUEST makes of a new key: learned with an event where the table has a place, else counted. -/
def learnPlaced (r : State) (l d m port : Nat) (e : FEnt) : State :=
  if (r.fwdInsert l e).2 then ((r.fwdInsert l e).1.count Reg.FWD_LEARNED l).fwdEvent l 0x50 d m port 0
  else ((r.fwdInsert l e).1.count Reg.FWD_INSERT_FAIL l).fwdEvent l 0x53 d m port 0

section
variable {s a : State} {l d m port : Nat} {rest : List (Nat × Nat × Nat)} (ha : s.ageTo l = a)
include ha

theorem learnOne_empty (h : (a.fw l).learnQ = []) : s.learnOne l = a := by
  simp only [State.learnOne, ha, h]

variable (h : (a.fw l).learnQ = (d, m, port) :: rest)
include h

/-- A request of a key that the table holds by now is a source match of it. -/
theorem learnOne_known {p : Nat} (hi : a.inv Ty.FWD l 0 = false) (hp : (a.fw l).pos d m = some p) :
    s.learnOne l = (a.setFw l { a.fw l with learnQ := rest }).srcHit l p port true := by
  have hfind := fwdFind_held (a := a.setFw l { a.fw l with learnQ := rest }) hi (by rw [fw_setFw_self]; exact hp)
  simp only [State.learnOne, ha, h, hfind]

/-- A request of a new key is an insert of a LEARNED entry. -/
theorem learnOne_new (hp : (a.fw l).pos d m = none) :
    s.learnOne l = learnPlaced (a.setFw l { a.fw l with learnQ := rest }) l d m port
      { domain := d, mac := m, dest := port, group := false, type := 0, hit := true, mark := (a.fw l).parity, owed := false } := by
  have hfind := fwdFind_missing (a := a.setFw l { a.fw l with learnQ := rest }) (by rw [fw_setFw_self]; exact hp)
  simp only [State.learnOne, ha, h, hfind, learnPlaced]
  split <;> simp [*]

end

/-! ## The decision of a classified frame (R256, R257) -/

section
variable {s : State} {l : Nat} {p : Pkt}

/-- A frame dropped in a counter by the decision, in which it has counted as a lookup. -/
def decisionDrop (s : State) (l : Nat) (p : Pkt) (c : RegId) : State := ((s.count64 Reg.FWD_LOOKUPS_LO l).count c l).injFin p 2 none

theorem decideFrame_linkLocal (h : beAt p.data 0 6 / 16 = 0x0180C200000) : s.decideFrame l p =
    if bitOf ((s.fw l).word 0 p.domain 1) 15 then
      (s.count64 Reg.FWD_LOOKUPS_LO l).emit l { p with dst := (s.fw l).word 0 p.domain 1 % 2 ^ 15 }
    else decisionDrop s l p Reg.FWD_LINK_LOCAL_DROP := by
  simp only [State.decideFrame, beq_iff_eq, h, if_true, decisionDrop]

variable (h : beAt p.data 0 6 / 16 ≠ 0x0180C200000)
include h

section
variable {e : FEnt} (hd : (s.count64 Reg.FWD_LOOKUPS_LO l).dstLookup l p = (s.count64 Reg.FWD_LOOKUPS_LO l, some e))
  (hg : e.group = false)
include hd hg

theorem decideFrame_samePort (hs : e.dest = p.src) : s.decideFrame l p = decisionDrop s l p Reg.FWD_SAME_PORT := by
  simp only [State.decideFrame, beq_false_of_ne h, hd, hg, beq_iff_eq, hs, Bool.false_eq_true, if_false, if_true, decisionDrop]

theorem decideFrame_unicast (hs : e.dest ≠ p.src) : s.decideFrame l p =
    if isTermPort e.dest && isTermPort p.src && !bitOf ((s.fw l).word 0 p.domain 0) 1 then decisionDrop s l p Reg.FWD_FENCE_DROP
    else (s.count64 Reg.FWD_LOOKUPS_LO l).emit l { p with dst := e.dest } := by
  simp only [State.decideFrame, beq_false_of_ne h, hd, hg, beq_false_of_ne hs, Bool.false_eq_true, if_false, decisionDrop]

end

theorem decideFrame_unknown
    (hd : (s.count64 Reg.FWD_LOOKUPS_LO l).dstLookup l p = (s.count64 Reg.FWD_LOOKUPS_LO l, none))
    (hu : bitOf (beAt p.data 0 6 / 2 ^ 40) 0 = false) (hf : bitOf ((s.fw l).word 0 p.domain 0) 3 = false) :
    s.decideFrame l p = decisionDrop s l p Reg.FWD_UNKNOWN_DROP := by
  simp only [State.decideFrame, beq_false_of_ne h, hd, hu, hf, Bool.false_eq_true, if_false, Bool.not_false, Bool.and_self, if_true,
    decisionDrop]

end

/-! ## The oldest frame before a forwarder (R28, R254) -/

/-- The frame taken from before the forwarder, its age seen. -/
def frameTaken (a : State) (l : Nat) (p : Pkt) : State := { a.ageSeen Ty.FWD l p with fwdIn := a.fwdIn.erase p }

/-- The policer's entry of a classified frame (R283): of the slice's trunk port and class, or of the terminal's flow. -/
def policerEntry (r : State) (p q : Pkt) : Nat :=
  if p.src < 32 then 8192 + r.prim p.src % 8 * 8 + q.cls else (p.src - 64) / 512 % 8 * 1024 + p.flow

/-- The colour of a classified frame; an injected one is not policed. -/
def frameColour (r : State) (l : Nat) (p q : Pkt) (dei : Bool) : State × Nat :=
  if p.inj.isSome then (r, 0) else r.police l (policerEntry r p q) (frameLen p) dei

/-- What becomes of a frame with its colour: red it is dropped, else its source is looked up, and it goes where its injector said or
where the decision sends it. -/
def colouredFrame (t : State) (l : Nat) (p q : Pkt) (colour : Nat) : State :=
  let q := { q with yellow := colour == 1, hp := t.inHp q }
  let learn := t.on Reg.FWD_CTL_LEARN_EN l && (t.fw l).bit 0 q.domain 0 2 && (t.fw l).bit 3 q.src 0 16
  let u := t.srcLookup l q.domain (beAt q.data 6 6) q.src learn
  if colour = 2 then t.injFin p 2 none else if q.inj.isSome && q.dst != 0xFFFF then u.emit l q else u.decideFrame l q

section
variable {s a : State} {l cycle : Nat} {p : Pkt} (ha : (s.advanceTo cycle).ageTo l = a)
include ha

theorem fwdFrame_none (h : a.fwdIn.find? (fun p => p.hp / 2 == l) = none) : s.fwdFrame l cycle = a := by
  simp only [State.fwdFrame, ha, h]

variable (h : a.fwdIn.find? (fun p => p.hp / 2 == l) = some p)
include h

theorem fwdFrame_tooOld (hold : a.tooOld Ty.FWD l p = true) :
    s.fwdFrame l cycle = (a.ageSeen Ty.FWD l p).stageDrop Ty.FWD l p true := by
  simp only [State.fwdFrame, ha, h, hold, if_true]

variable (hold : a.tooOld Ty.FWD l p = false) (h1 : (frameTaken a l p).inv Ty.FWD l 1 = false)
  (h2 : (frameTaken a l p).inv Ty.FWD l 2 = false)
include hold h1 h2

theorem fwdFrame_unclassified {c : RegId} (hc : (frameTaken a l p).classify l p = .error c) :
    s.fwdFrame l cycle = ((frameTaken a l p).count c l).injFin p 2 none := by
  unfold frameTaken at *
  simp only [State.fwdFrame, ha, h, hold, h1, h2, hc, Bool.false_eq_true, if_false]

theorem fwdFrame_classified {q : Pkt} {dei : Bool} (hc : (frameTaken a l p).classify l p = .ok (q, dei)) :
    s.fwdFrame l cycle = colouredFrame (frameColour (frameTaken a l p) l p q dei).1 l p q (frameColour (frameTaken a l p) l p q dei).2 := by
  unfold frameTaken at *
  simp only [State.fwdFrame, ha, h, hold, h1, h2, hc, Bool.false_eq_true, if_false, colouredFrame, frameColour, policerEntry, beq_iff_eq]

end

/-- Settles O13: the frame by its age, its class and its colour, the decision by what the lookup answers, learning and the sweep by what
waits and what runs. -/
theorem forwardingDecisionsAndLearning : Obligations.ForwardingDecisionsAndLearning := by
  intro s l cycle hr hl
  refine ⟨fun h => ?_, fun h => ⟨?_, ?_, ?_⟩, fun hact => ?_, fun hp => ?_, fun p => ?_⟩
  · exact Gives.of_slice (fun s l => if s.active Ty.FWD l then s.fwdFrame l cycle else s) hr hl rfl (if_neg (by simp [h]))
  · exact Gives.of_slice (fun s l => if s.present Ty.FWD l then s.learnOne l else s) hr hl rfl (if_neg (by simp [h]))
  · exact Gives.of_slice (fun s l => if s.present Ty.FWD l then s.ageStart l else s) hr hl rfl (if_neg (by simp [h]))
  · exact Gives.of_slice (fun s l => if s.present Ty.FWD l then s.ageDone l cycle else s) hr hl rfl (if_neg (by simp [h]))
  · have frame {r : State} (q : s.fwdFrame l cycle = r) : Gives (.fwdFrame l cycle) s r :=
      Gives.of_slice (fun s l => if s.active Ty.FWD l then s.fwdFrame l cycle else s) hr hl rfl ((if_pos hact).trans q)
    exact ⟨fun h => frame (fwdFrame_none rfl h), fun p h => ⟨fun hold => frame (fwdFrame_tooOld rfl h hold), fun hold h1 h2 =>
      ⟨fun c hc => frame (fwdFrame_unclassified rfl h hold h1 h2 hc),
        fun q dei hc => frame (fwdFrame_classified rfl h hold h1 h2 hc)⟩⟩⟩
  · have learn {r : State} (q : s.learnOne l = r) : Gives (.learnRequest l) s r :=
      Gives.of_slice (fun s l => if s.present Ty.FWD l then s.learnOne l else s) hr hl rfl ((if_pos hp).trans q)
    have start {r : State} (q : s.ageStart l = r) : Gives (.ageSweepStart l) s r :=
      Gives.of_slice (fun s l => if s.present Ty.FWD l then s.ageStart l else s) hr hl rfl ((if_pos hp).trans q)
    have done {r : State} (q : s.ageDone l cycle = r) : Gives (.ageSweepDone l cycle) s r :=
      Gives.of_slice (fun s l => if s.present Ty.FWD l then s.ageDone l cycle else s) hr hl rfl ((if_pos hp).trans q)
    exact ⟨⟨fun h => learn (learnOne_empty rfl h), fun d m port rest h => ⟨fun p hi hpos => learn (learnOne_known rfl h hi hpos),
        fun hpos => learn (learnOne_new rfl h hpos)⟩⟩,
      ⟨fun h => start (ageStart_underWay h), fun h => start (ageStart_begins h)⟩,
      fun h => done (ageDone_idle rfl h), fun w h => ⟨fun hnow => done (ageDone_early rfl h hnow),
        fun v hnow hv => done (ageDone_ends rfl h hnow hv)⟩⟩
  · exact ⟨decideFrame_linkLocal, fun e h hd => ⟨decideFrame_samePort h hd, decideFrame_unicast h hd⟩, decideFrame_unknown⟩

end Sys2Proof.Proofs

/-! PROOF. The family of 09_forwarding.md: the commands of the address table and of the forwarder's records. -/

namespace Sys2Proof.Proofs

open Sys2Proof.Machine Sys2Proof.Laws

/-! ## The frame of every FWD_CMD (R267, R270) -/

/-- How a FWD_CMD ends: its word with the STATUS, and with TABLE and START as written where the operation does not use them; CFG_REJECT
on a refusal; CMD_DONE. -/
def fwdCmdEnded (l op table : Nat) (start : Bool) (st : Nat) (r : State) : State :=
  let table := if op = 7 ∨ op = 8 then table else r.fld Reg.FWD_CMD_TABLE l
  let start := if op = 2 then start else r.flag Reg.FWD_CMD_START l
  let r := r.setReg Reg.FWD_CMD l (op + table * 2 ^ 4 + (if start then 2 ^ 7 else 0) + st * 2 ^ 24)
  (if st = 2 ∨ st = 4 ∨ st = 5 ∨ st = 8 then r.count Reg.FWD_CFG_REJECT l else r).intSet Ty.FWD l 6

section
variable {s : State} {l op table : Nat} {start : Bool} {f : State → State × Nat}

theorem fwdCmd_absent (h : s.present Ty.FWD l = false) : s.fwdCmd l op table start f = s := if_pos (by simp [h])

/-- A command to a present slice acts with the table aged up to now. -/
theorem fwdCmd_present {a r : State} {st : Nat} (hp : s.present Ty.FWD l = true) (ha : s.ageTo l = a) (q : f a = (r, st)) :
    s.fwdCmd l op table start f = fwdCmdEnded l op table start st r := by
  simp only [State.fwdCmd, hp, ha, q, Bool.not_true, Bool.false_eq_true, if_false, fwdCmdEnded, beq_iff_eq, Bool.or_eq_true, or_assoc]

end

/-! ## What each command does to a table aged up to now (R265, R267, R268) -/

section
variable {s a : State} {l : Nat} (hp : s.present Ty.FWD l = true) (ha : s.ageTo l = a)
include hp ha

theorem fwdSearch_missing (h : (a.fw l).pos (a.fwdKey l).1 (a.fwdKey l).2 = none) : s.fwdSearch l = fwdCmdEnded l 1 0 false 1 a :=
  fwdCmd_present hp ha (by simp only [fwdFind_missing h])

theorem fwdSearch_held {p : Nat} {e : FEnt} (hi : a.inv Ty.FWD l 0 = false) (h : (a.fw l).pos (a.fwdKey l).1 (a.fwdKey l).2 = some p)
    (he : (a.fw l).tab.find p = some e) : s.fwdSearch l = fwdCmdEnded l 1 0 false 0 (a.fwdShow l p e) :=
  fwdCmd_present hp ha (by simp only [fwdFind_held hi h, he])

theorem fwdNext_none (h : (a.fw l).tab.find? (fun q => decide (a.fld Reg.FWD_IDX_INDEX l ≤ q.1)) = none) :
    s.fwdNext l false = fwdCmdEnded l 2 0 false 1 (a.setFw l { a.fw l with walk := false }) :=
  fwdCmd_present hp ha (by simp only [Bool.false_eq_true, if_false, h])

theorem fwdNext_some {p : Nat} {e : FEnt} (h : (a.fw l).tab.find? (fun q => decide (a.fld Reg.FWD_IDX_INDEX l ≤ q.1)) = some (p, e)) :
    s.fwdNext l false = fwdCmdEnded l 2 0 false 0 ((a.fwdShow l p e).setReg Reg.FWD_IDX l (p + 1)) :=
  fwdCmd_present hp ha (by simp only [Bool.false_eq_true, if_false, h])

/-- A walk that begins on an empty table ends at once. -/
theorem fwdNext_start_empty {r : State} (hr : a.setFw l { a.fw l with moved := false, walk := true } = r) (h : (a.fw l).tab = []) :
    s.fwdNext l true = fwdCmdEnded l 2 0 true 1 (r.setFw l { r.fw l with walk := false }) := by
  have htab : (r.fw l).tab = [] := by rw [← hr, fw_setFw_self]; exact h
  exact fwdCmd_present hp ha (by simp only [if_true, hr, htab, List.find?_nil])

end

/-! ## FWD_INSERT (R263, R265, R267) -/

/-- The entry that FWD_DATA describes, as an insert of a new key stores it. -/
def dataEntry (a : State) (l : Nat) : FEnt :=
  { domain := (a.fwdKey l).1, mac := (a.fwdKey l).2, dest := a.fwdData l 2 % 2 ^ 15, group := bitOf (a.fwdData l 2) 15,
    type := bitsOf (a.fwdData l 2) 16 2, hit := false, mark := (a.fw l).parity, owed := false }

/-- What the destination in FWD_DATA answers: a group always passes. -/
def dataDestStatus (a : State) (l : Nat) : Nat := if bitOf (a.fwdData l 2) 15 then 0 else a.portStatus (a.fwdData l 2 % 2 ^ 15)

/-- The mirror record of a STATIC entry (R467). -/
def staticRecord (a : State) (l : Nat) (e : FEnt) (del : Nat) : State :=
  a.mirror 0x0A [l, e.domain, e.mac, e.dest, if e.group then 1 else 0, del] []

theorem staticMirror_standby {a : State} (h : a.mirrorOpen = false) (l : Nat) (e : FEnt) (del : Bool) :
    a.staticMirror l e del = (a.count Reg.PAIR_MIRROR_WRITE_REJECT 0, false) := if_neg (by simp [h])

theorem staticMirror_open {a : State} (h : a.mirrorOpen = true) (l : Nat) (e : FEnt) (del : Bool) :
    a.staticMirror l e del = (staticRecord a l e (if del then 1 else 0), true) := if_pos h

/-- What FWD_INSERT makes of an entry of its key, and its STATUS: a lower type does not replace a STATIC entry, a STATIC one is mirrored
or refused in a standby, with STATUS 0 by the model's choice, and what replaces an entry keeps its HIT, its MARK and what the sweep owes it
(R265, R468, log entry 71). -/
def insertOver (a : State) (l p : Nat) (o : FEnt) : State × Nat :=
  let put (r : State) : State := r.fwdPut l p { dataEntry a l with hit := o.hit, mark := o.mark, owed := o.owed }
  if o.type = 2 ∧ (dataEntry a l).type = 1 then (a, 2)
  else if (dataEntry a l).type ≠ 2 then (put a, 0)
  else if a.mirrorOpen then (put (staticRecord a l (dataEntry a l) 0), 0) else (a.count Reg.PAIR_MIRROR_WRITE_REJECT 0, 0)

section
variable {a : State} {l p : Nat} {o : FEnt}

theorem insertOver_static (ho : o.type = 2) (hty : (dataEntry a l).type = 1) : insertOver a l p o = (a, 2) := if_pos ⟨ho, hty⟩

theorem insertOver_dynamic (ho : o.type ≠ 2) (hty : (dataEntry a l).type = 1) : insertOver a l p o =
    (a.fwdPut l p { dataEntry a l with hit := o.hit, mark := o.mark, owed := o.owed }, 0) :=
  (if_neg fun h => ho h.1).trans (if_pos (by omega))

variable (hty : (dataEntry a l).type = 2)
include hty

theorem insertOver_mirrored (hm : a.mirrorOpen = true) : insertOver a l p o =
    ((staticRecord a l (dataEntry a l) 0).fwdPut l p { dataEntry a l with hit := o.hit, mark := o.mark, owed := o.owed }, 0) := by
  simp [insertOver, hty, hm]

theorem insertOver_standby (hm : a.mirrorOpen = false) : insertOver a l p o = (a.count Reg.PAIR_MIRROR_WRITE_REJECT 0, 0) := by
  simp [insertOver, hty, hm]

end

/-- FWD_DATA describes no entry that a host may insert: TYPE is neither COPIED nor STATIC, or a group has an individual address. -/
def dataMalformed (a : State) (l : Nat) : Bool :=
  bitsOf (a.fwdData l 2) 16 2 == 0 || bitsOf (a.fwdData l 2) 16 2 == 3 || (bitOf (a.fwdData l 2) 15 && !bitOf (a.fwdKey l).2 40)

theorem dataMalformed_iff {a : State} {l : Nat} : dataMalformed a l = true ↔
    bitsOf (a.fwdData l 2) 16 2 = 0 ∨ bitsOf (a.fwdData l 2) 16 2 = 3 ∨
      (bitOf (a.fwdData l 2) 15 = true ∧ bitOf (a.fwdKey l).2 40 = false) := by
  simp only [dataMalformed, Bool.or_eq_true, Bool.and_eq_true, beq_iff_eq, Bool.not_eq_true', or_assoc]

theorem dataMalformed_eq_false {a : State} {l : Nat} (hty : bitsOf (a.fwdData l 2) 16 2 = 1 ∨ bitsOf (a.fwdData l 2) 16 2 = 2)
    (hg : bitOf (a.fwdData l 2) 15 = false ∨ bitOf (a.fwdKey l).2 40 = true) : dataMalformed a l = false := by
  rcases hty with h | h <;> rcases hg with g | g <;> simp [dataMalformed, h, g]

/-- An insert that both checks let pass goes on. -/
theorem insertChecks_pass {a : State} {l : Nat} {bad badPort r : State × Nat} (hw : dataMalformed a l = false)
    (hst : dataDestStatus a l = 0) :
    (if dataMalformed a l then bad else if dataDestStatus a l != 0 then badPort else r) = r := by
  simp only [hw, hst, bne_self_eq_false, Bool.false_eq_true, if_false]

section
variable {s a : State} {l : Nat} (hp : s.present Ty.FWD l = true) (ha : s.ageTo l = a)
include hp ha

theorem fwdInsertCmd_malformed (h : dataMalformed a l = true) : s.fwdInsertCmd l = fwdCmdEnded l 3 0 false 8 a := by
  unfold dataMalformed at h
  exact fwdCmd_present hp ha (by simp only [h, if_true])

variable (hw : dataMalformed a l = false)
include hw

theorem fwdInsertCmd_badPort (hst : dataDestStatus a l ≠ 0) : s.fwdInsertCmd l = fwdCmdEnded l 3 0 false (dataDestStatus a l) a := by
  unfold dataMalformed at hw
  unfold dataDestStatus at *
  exact fwdCmd_present hp ha (by simp only [hw, Bool.false_eq_true, if_false, bne_iff_ne, hst, if_true, ne_eq, not_false_eq_true])

variable (hst : dataDestStatus a l = 0)
include hst

theorem fwdInsertCmd_known {p : Nat} {o : FEnt} (hpos : (a.fw l).pos (a.fwdKey l).1 (a.fwdKey l).2 = some p)
    (ho : (a.fw l).tab.find p = some o) {r : State} {st : Nat} (q : insertOver a l p o = (r, st)) :
    s.fwdInsertCmd l = fwdCmdEnded l 3 0 false st r := by
  refine fwdCmd_present hp ha (Eq.trans ?_ q)
  dsimp only
  refine (insertChecks_pass hw hst).trans ?_
  simp only [hpos, ho, Option.bind_some, Option.map_some, Bool.and_eq_true, beq_iff_eq, bne_iff_ne]
  cases hm : a.mirrorOpen with
  | true => rw [staticMirror_open hm, insertOver, hm]; rfl
  | false => rw [staticMirror_standby hm, insertOver, hm]; rfl

/-- A new key is placed, or the failure is counted with an event. -/
theorem fwdInsertCmd_new (hpos : (a.fw l).pos (a.fwdKey l).1 (a.fwdKey l).2 = none) (hty : bitsOf (a.fwdData l 2) 16 2 = 1)
    {r : State} {ok : Bool} (q : a.fwdInsert l (dataEntry a l) = (r, ok)) :
    s.fwdInsertCmd l = if ok then fwdCmdEnded l 3 0 false 0 r else fwdCmdEnded l 3 0 false 3
      ((r.count Reg.FWD_INSERT_FAIL l).fwdEvent l 0x53 (a.fwdKey l).1 (a.fwdKey l).2 (a.fwdData l 2 % 2 ^ 15) 0) := by
  simp only [dataEntry, hty] at q
  cases ok <;>
  · refine fwdCmd_present hp ha ?_
    dsimp only
    refine (insertChecks_pass hw hst).trans ?_
    simp only [hpos, hty, Option.bind_none, q]
    rfl

end

/-! ## FWD_DELETE and FLUSH_BY_PORT (R267, R468) -/

section
variable {s a : State} {l : Nat} (hp : s.present Ty.FWD l = true) (ha : s.ageTo l = a)
include hp ha

theorem fwdDelete_missing (h : (a.fw l).pos (a.fwdKey l).1 (a.fwdKey l).2 = none) : s.fwdDelete l = fwdCmdEnded l 4 0 false 1 a :=
  fwdCmd_present hp ha (by simp only [h, Option.bind_none])

theorem fwdDelete_held {p : Nat} {e : FEnt} (h : (a.fw l).pos (a.fwdKey l).1 (a.fwdKey l).2 = some p) (he : (a.fw l).tab.find p = some e) :
    s.fwdDelete l = fwdCmdEnded l 4 0 false 0 (a.fwdRemove l p e).1 :=
  fwdCmd_present hp ha (by simp only [h, he, Option.bind_some, Option.map_some])

theorem flushByPort_badPort (h : a.fwdData l 2 % 2 ^ 15 ≠ 0x7FFF) (hst : a.portStatus (a.fwdData l 2 % 2 ^ 15) ≠ 0) :
    s.flushByPort l = fwdCmdEnded l 5 0 false (a.portStatus (a.fwdData l 2 % 2 ^ 15)) a :=
  fwdCmd_present hp ha (by simp only [beq_false_of_ne h, Bool.false_eq_true, if_false, bne_iff_ne.2 hst, if_true])

/-- A flush of an empty table clears none. -/
theorem flushByPort_empty (h : a.fwdData l 2 % 2 ^ 15 = 0x7FFF ∨ a.portStatus (a.fwdData l 2 % 2 ^ 15) = 0) (ht : (a.fw l).tab = []) :
    s.flushByPort l = fwdCmdEnded l 5 0 false 0 (a.setRegI Reg.FWD_DATA l 3 0) := by
  have hst : (if a.fwdData l 2 % 2 ^ 15 == 0x7FFF then 0 else a.portStatus (a.fwdData l 2 % 2 ^ 15)) = 0 := by
    rcases h with h | h <;> simp only [h, beq_self_eq_true, if_true, ite_self]
  exact fwdCmd_present hp ha (by
    simp only [hst, ht, bne_self_eq_false, Bool.false_eq_true, if_false, List.filter_nil, List.map_nil, List.foldl_nil])

end

section
variable {a : State} {l p : Nat} {e : FEnt}

theorem fwdRemove_dynamic (h : e.type ≠ 2) : (a.fwdRemove l p e).1 = a.fwdClear l p := by
  simp only [State.fwdRemove, bne_iff_ne.2 h, if_true]

theorem fwdRemove_static (h : e.type = 2) (hm : a.mirrorOpen = true) : (a.fwdRemove l p e).1 = (staticRecord a l e 1).fwdClear l p := by
  simp only [State.fwdRemove, h, bne_self_eq_false, Bool.false_eq_true, if_false, staticMirror_open hm, if_true]

theorem fwdRemove_standby (h : e.type = 2) (hm : a.mirrorOpen = false) :
    (a.fwdRemove l p e).1 = a.count Reg.PAIR_MIRROR_WRITE_REJECT 0 := by
  simp only [State.fwdRemove, h, bne_self_eq_false, Bool.false_eq_true, if_false, staticMirror_standby hm]

end

/-! ## TBL_READ and TBL_WRITE (R267, R271) -/

/-- The words of a record that FWD_DATA shows: those its table has. -/
def recordShown (a : State) (l t : Nat) : State :=
  (List.range 4).foldl (fun (s : State) j =>
    s.setRegI Reg.FWD_DATA l j (if tblBits t j = 0 then 0 else (a.fw l).word t (a.fld Reg.FWD_IDX_INDEX l) j)) a

/-- Word j of FWD_DATA, cut to the writable bits of a table's word j. -/
def dataWord (a : State) (l t j : Nat) : Nat := a.fwdData l j % 2 ^ tblBits t j

section
variable {s a : State} {l t i : Nat} (hp : s.present Ty.FWD l = true) (ha : s.ageTo l = a) (hi : a.fld Reg.FWD_IDX_INDEX l = i)
include hp ha hi

theorem tblRead_refused (h : a.tblStatus l t i ≠ 0) : s.tblRead l t = fwdCmdEnded l 7 t false (a.tblStatus l t i) a :=
  fwdCmd_present hp ha (by simp only [hi, bne_iff_ne.2 h, if_true])

theorem tblWrite_refused (h : a.tblStatus l t i ≠ 0) : s.tblWrite l t = fwdCmdEnded l 8 t false (a.tblStatus l t i) a :=
  fwdCmd_present hp ha (by simp only [hi, bne_iff_ne.2 h, if_true])

variable (h : a.tblStatus l t i = 0)
include h

/-- A record of any table but PORT, which also shows its count of learned entries, is shown as it is stored. -/
theorem tblRead_shows (ht : t ≠ 3) : s.tblRead l t = fwdCmdEnded l 7 t false 0 (recordShown a l t) :=
  fwdCmd_present hp ha (by
    simp only [hi, h, bne_self_eq_false, beq_false_of_ne ht, Bool.false_and, Bool.false_eq_true, if_false, beq_iff_eq, recordShown])

/-- A record of AMAP or GROUP, which name nothing that may be absent, is stored. -/
theorem tblWrite_stores (ht : t = 2 ∨ t = 4) : s.tblWrite l t = fwdCmdEnded l 8 t false 0 (a.setFw l
    (if tblBits t 1 = 0 then (a.fw l).setWord t i 0 (dataWord a l t 0)
      else ((a.fw l).setWord t i 0 (dataWord a l t 0)).setWord t i 1 (dataWord a l t 1))) := by
  refine fwdCmd_present hp ha ?_
  rcases ht with rfl | rfl <;> simp [hi, h, dataWord]

end

/-- A VMAP record that gives a domain a second VID on its port is refused (R255). -/
theorem tblWrite_secondVid {s a : State} {l i v : Nat} (hp : s.present Ty.FWD l = true) (ha : s.ageTo l = a)
    (hi : a.fld Reg.FWD_IDX_INDEX l = i) (h : a.tblStatus l 1 i = 0) (hvalid : bitOf (dataWord a l 1 0) 14 = true)
    (hv : a.vidOf (dataWord a l 1 0 % 2 ^ 14) (i / 4096) = some v) (hne : v ≠ i % 4096) :
    s.tblWrite l 1 = fwdCmdEnded l 8 1 false 2 a := by
  unfold dataWord at *
  exact fwdCmd_present hp ha (by simp only [hi, h, hvalid, hv, bne_iff_ne.2 hne, bne_self_eq_false, Nat.reduceBEq, beq_self_eq_true,
      Bool.false_and, Bool.true_and, Bool.or_self, Bool.false_eq_true, if_false, if_true])

/-- Settles O14: each command by what its key, its port or its index meets in the table aged up to now, ended with its STATUS. -/
theorem forwardingTableCommands : Obligations.ForwardingTableCommands := by
  intro s l hr hl
  have search {r : State} (q : s.fwdSearch l = r) : Gives (.fwdSearch l) s r := Gives.of_slice State.fwdSearch hr hl rfl q
  have next {b : Bool} {r : State} (q : s.fwdNext l b = r) : Gives (.fwdNext l b) s r := Gives.of_slice (State.fwdNext · · b) hr hl rfl q
  have insert {r : State} (q : s.fwdInsertCmd l = r) : Gives (.fwdInsert l) s r := Gives.of_slice State.fwdInsertCmd hr hl rfl q
  have delete {r : State} (q : s.fwdDelete l = r) : Gives (.fwdDelete l) s r := Gives.of_slice State.fwdDelete hr hl rfl q
  have flush {r : State} (q : s.flushByPort l = r) : Gives (.flushByPort l) s r := Gives.of_slice State.flushByPort hr hl rfl q
  refine ⟨fun h => ⟨search (fwdCmd_absent h), fun b => next (fwdCmd_absent h), insert (fwdCmd_absent h), delete (fwdCmd_absent h),
    flush (fwdCmd_absent h), fun t => ⟨Gives.of_slice (State.tblRead · · (t % 8)) hr hl rfl (fwdCmd_absent h),
      Gives.of_slice (State.tblWrite · · (t % 8)) hr hl rfl (fwdCmd_absent h)⟩⟩, fun hp => ?_⟩
  intro a fin d m x
  refine ⟨⟨fun h => search (fwdSearch_missing hp rfl h), fun p e hi h he => search (fwdSearch_held hp rfl hi h he)⟩,
    ⟨fun h => next (fwdNext_none hp rfl h), fun p e h => next (fwdNext_some hp rfl h),
      fun h => next (fwdNext_start_empty hp rfl rfl h)⟩,
    ⟨fun h => insert (fwdInsertCmd_malformed hp rfl (dataMalformed_iff.2 h)), fun hty hg => ?_⟩,
    fun h => delete (fwdDelete_missing hp rfl h), fun p e h he => ?_,
    ⟨fun h hst => flush (flushByPort_badPort hp rfl h hst), fun h ht => flush (flushByPort_empty hp rfl h ht)⟩, fun t ht => ?_⟩
  · have hw : dataMalformed a l = false := dataMalformed_eq_false hty hg
    refine ⟨fun hst => insert (fwdInsertCmd_badPort hp rfl hw hst), fun p o hst hpos ho => ?_,
      fun hst hpos hty => insert (fwdInsertCmd_new hp rfl hw hst hpos hty rfl)⟩
    have known {r : State} {st : Nat} (q : insertOver a l p o = (r, st)) : Gives (.fwdInsert l) s (fwdCmdEnded l 3 0 false st r) :=
      insert (fwdInsertCmd_known hp rfl hw hst hpos ho q)
    exact ⟨fun hot hty => known (insertOver_static hot hty), fun hot hty => known (insertOver_dynamic hot hty),
      fun hty hm => known (insertOver_mirrored hty hm), fun hty hm => known (insertOver_standby hty hm)⟩
  · have held : s.fwdDelete l = fwdCmdEnded l 4 0 false 0 (a.fwdRemove l p e).1 := fwdDelete_held hp rfl h he
    have removed {r : State} (q : (a.fwdRemove l p e).1 = r) : Gives (.fwdDelete l) s (fwdCmdEnded l 4 0 false 0 r) :=
      delete (held.trans (congrArg (fwdCmdEnded l 4 0 false 0) q))
    exact ⟨fun h => removed (fwdRemove_dynamic h), fun h hm => removed (fwdRemove_static h hm),
      fun h hm => removed (fwdRemove_standby h hm)⟩
  · have read {r : State} (q : s.tblRead l t = r) : Gives (.tblRead l t) s r :=
      Gives.of_slice (State.tblRead · · (t % 8)) hr hl rfl (by rw [Nat.mod_eq_of_lt ht, q])
    have write {r : State} (q : s.tblWrite l t = r) : Gives (.tblWrite l t) s r :=
      Gives.of_slice (State.tblWrite · · (t % 8)) hr hl rfl (by rw [Nat.mod_eq_of_lt ht, q])
    refine ⟨fun h => ⟨read (tblRead_refused hp rfl rfl h), write (tblWrite_refused hp rfl rfl h)⟩,
      fun h h3 => read (tblRead_shows hp rfl rfl h h3), ?_, ?_, ?_⟩
    · rintro h rfl
      exact write (tblWrite_stores hp rfl rfl h (.inr rfl))
    · rintro h rfl
      exact write (tblWrite_stores hp rfl rfl h (.inl rfl))
    · rintro h rfl hvalid ⟨v, hv, hne⟩
      exact write (tblWrite_secondVid hp rfl rfl h hvalid hv hne)

end Sys2Proof.Proofs

/-! PROOF. The family of 10_queues_gates.md: admission, paging, serve lists, Q_CMD and queue samples. -/

namespace Sys2Proof.Proofs

open Sys2Proof.Machine Sys2Proof.Laws

/-- The checker of queue records strikes nothing while its check bit is not inverted (R301). -/
theorem qRecInv_clear {s : State} {l : Nat} (h : s.inv Ty.QSCH l 0 = false) (key : Nat) : s.qRecInv l key = s := if_neg (by simp [h])

@[simp] theorem queue_setQueue_self (x : QschS) (key : Nat) (q : QueueS) : (x.setQueue key q).queue key = q := Tbl.get_set_self _ _ _ _

theorem countN64_qs (s : State) (r : RegId) (i n l : Nat) : (s.countN64 r i n).qs l = s.qs l :=
  congrArg (Tbl.get qschReset · l) (countN64_qsch s r i n)

/-- An absent slice is not active. -/
theorem active_absent {s : State} {ty inst : Nat} (h : s.present ty inst = false) : s.active ty inst = false := by simp [State.active, h]

/-! ## Admission (R275 to R277) -/

section
variable {s : State} {l key cls c : Nat} {q : QueueS} {yellow : Bool}

/-- A queue does not grow over its MAX (R275). -/
theorem admitDrop_quota (h : (s.qs l).word 2 ((s.qs l).qword key % 64) 1 < q.occ + c) :
    s.admitDrop l q key cls c yellow = some (Reg.QSCH_QUOTA_DROP, l) := if_pos h

/-- A frame that keeps its queue within its minimum is admitted where the bank has its cells (R275). -/
theorem admitDrop_minimum (hmax : q.occ + c ≤ (s.qs l).word 2 ((s.qs l).qword key % 64) 1)
    (hmin : q.occ + c ≤ (s.qs l).word 2 ((s.qs l).qword key % 64) 0) (hfree : c ≤ s.bankFree l) :
    s.admitDrop l q key cls c yellow = none :=
  (if_neg (Nat.not_lt.2 hmax)).trans (if_pos ⟨hmin, .inl hfree⟩)

end

section
variable {s a r : State} {l cycle : Nat} {p : Pkt} (ha : s.advanceTo cycle = a)
include ha

theorem qschAdmit_none (h : a.qin.find? (fun p => p.hp / 2 == l) = none) : s.qschAdmit l cycle = a := by
  simp only [State.qschAdmit, ha, h]

variable (h : a.qin.find? (fun p => p.hp / 2 == l) = some p) (hr : { a with qin := a.qin.erase p } = r)
  (h2 : r.inv Ty.QSCH l 2 = false) (h0 : r.inv Ty.QSCH l 0 = false) (b0 : r.inv Ty.BUF 0 0 = false) (b1 : r.inv Ty.BUF 0 1 = false)
include h hr h2 h0 b0 b1

theorem qschAdmit_termDown (ht : r.termDown p = true) :
    s.qschAdmit l cycle = (r.count Reg.QSCH_TERM_DOWN_DROP l).injFin p 2 none := by
  simp only [State.qschAdmit, ha, h, hr, h2, qRecInv_clear h0, b0, b1, ht, Bool.false_eq_true, if_false, if_true]

variable (ht : r.termDown p = false)
include ht

theorem qschAdmit_drop {k : RegId} {i : Nat}
    (hd : r.admitDrop l ((r.qs l).queue (r.queueKey l p)) (r.queueKey l p) p.cls (frameCells p) p.yellow = some (k, i)) :
    s.qschAdmit l cycle = (r.count k i).injFin p 2 none := by
  simp only [State.qschAdmit, ha, h, hr, h2, qRecInv_clear h0, b0, b1, ht, hd, Bool.false_eq_true, if_false]

/-- A frame of a class with ECN off joins its queue as it is (R276). -/
theorem qschAdmit_joins
    (hd : r.admitDrop l ((r.qs l).queue (r.queueKey l p)) (r.queueKey l p) p.cls (frameCells p) p.yellow = none)
    (hecn : bitOf ((r.qs l).word 4 p.cls 0) 1 = false) :
    s.qschAdmit l cycle = (r.qAppend l (r.queueKey l p) { p with born := r.now }).count64 Reg.QSCH_ENQUEUED_LO l := by
  simp only [State.qschAdmit, ha, h, hr, h2, qRecInv_clear h0, b0, b1, ht, hd, hecn, Bool.false_and, Bool.false_eq_true, if_false]

end

/-! ## Paging (R277, R278) -/

/-- A page comes back only into a queue with cells in HBM and a head part to fill, where the bank has room (log entry 72). -/
theorem pageIn_keeps {s : State} {l key : Nat} (h : ((s.qs l).queue key).spill = 0 ∨
      s.fld Reg.BUF_HEAD_KEEP_CELLS 0 ≤ ((s.qs l).queue key).head ∨ s.bankFree l < min 8 ((s.qs l).queue key).spill) (ok : Bool) :
    s.pageIn l key ok = s :=
  if_pos (by simpa only [Bool.or_eq_true, beq_iff_eq, decide_eq_true_eq, or_assoc] using h)

/-- A queue with its oldest page, n cells, on die. -/
def pagedIn (q : QueueS) (n : Nat) : QueueS := { q with head := q.head + n, spill := q.spill - n }

/-- The queue of a key with its oldest page on die, and the pages that this frees counted. -/
def pageMoved (s : State) (l key : Nat) : State :=
  let q := (s.qs l).queue key
  let q' := pagedIn q (min 8 q.spill)
  (s.setQs l ((s.qs l).setQueue key q')).countN64 Reg.BUF_PAGES_IN_LO 0 (q.pages - q'.pages)

theorem pageMoved_queue (s : State) (l key : Nat) :
    ((pageMoved s l key).qs l).queue key = pagedIn ((s.qs l).queue key) (min 8 ((s.qs l).queue key).spill) := by
  simp only [pageMoved, countN64_qs, qs_setQs_self, queue_setQueue_self]

/-- A good page of a queue that keeps more in HBM moves 8 cells. -/
theorem pageIn_moves {s : State} {l key : Nat} (hs : 8 < ((s.qs l).queue key).spill)
    (hh : ((s.qs l).queue key).head < s.fld Reg.BUF_HEAD_KEEP_CELLS 0) (hf : min 8 ((s.qs l).queue key).spill ≤ s.bankFree l) :
    s.pageIn l key true = ((pageMoved s l key).setQs l (((pageMoved s l key).qs l).setQueue key
      (((pageMoved s l key).qs l).queue key))).spillSettle := by
  have hkept : ((((pageMoved s l key).qs l).queue key).spill == 0) = false := by
    rw [pageMoved_queue]
    exact beq_false_of_ne (by simp only [pagedIn]; omega)
  have hgo : (((s.qs l).queue key).spill == 0 || decide (s.fld Reg.BUF_HEAD_KEEP_CELLS 0 ≤ ((s.qs l).queue key).head) ||
      decide (s.bankFree l < min 8 ((s.qs l).queue key).spill)) = false := by
    simp only [Bool.or_eq_false_iff, beq_eq_false_iff_ne, decide_eq_false_iff_not]
    omega
  unfold pageMoved pagedIn at *
  simp only [State.pageIn, hgo, hkept, Bool.false_eq_true, if_false, if_true]

/-- Bank l begins or ends to page out. -/
def setSpilling (s : State) (l : Nat) (b : Bool) : State := { s with buf := { s.buf with spilling := s.buf.spilling.set false l b } }

section
variable {s : State} {l n : Nat}

theorem spillOut_off (h : s.on Reg.BUF_CTL_SPILL_EN 0 = false) : s.spillOut l n = setSpilling s l false := if_pos (by simp [h])

variable (h : s.on Reg.BUF_CTL_SPILL_EN 0 = true)
include h

/-- A bank that does not page out begins only below WM_SPILL. -/
theorem spillOut_above (hs : s.buf.spilling.get false l = false) (hf : s.fld Reg.BUF_WM_SPILL_CELLS 0 ≤ s.bankFree l) :
    s.spillOut l n = s := by
  have hf' : ¬ s.bankFree l < s.fld Reg.BUF_WM_SPILL_CELLS 0 := Nat.not_lt.2 hf
  simp [State.spillOut, h, hs, hf']

theorem spillOut_below (hf : s.bankFree l < s.fld Reg.BUF_WM_SPILL_CELLS 0) : s.spillOut l n =
    let r := (setSpilling s l true).pageOuts l n
    setSpilling r l (decide (r.bankFree l < r.fld Reg.BUF_WM_STOP_CELLS 0)) :=
  (if_neg (by simp [h])).trans (if_neg (by simp [hf]))

end

/-! ## Serve lists (R286, R287) -/

/-- The shapers of slice l credited for the tick (R285). -/
def sliceCredited (s : State) (l : Nat) : State := s.setQs l { (s.qs l).accrue with credited := s.tm.tickNo + 1 }

/-- The local trees that have a serve list. -/
def listedTrees (r : State) (l : Nat) : List Nat :=
  (List.range 8).filter fun lt => r.hasTree (8 * l + lt) && ((r.qs l).trees.get qtreeReset lt).en

/-- The lists of all trees of a slice, built in time. -/
def listsBuilt (r : State) (l : Nat) (bad : List (Nat × Nat)) : State :=
  (listedTrees r l).foldl (fun (s : State) lt => s.treeList l lt s.tm.m 20480 ((bad.filter fun c => c.1 == lt).map (·.2))) r

section
variable {s : State} {l cycle : Nat} {cut bad : List (Nat × Nat)}

theorem serveBuild_again (h : (s.qs l).credited = s.tm.tickNo + 1) : s.serveBuild l cycle cut bad = s := if_pos (by simp [h])

variable (h : (s.qs l).credited ≠ s.tm.tickNo + 1)
include h

theorem serveBuild_credits (hf : s.tm.free = true ∨ s.isActive = false) : s.serveBuild l cycle cut bad = sliceCredited s l :=
  (if_neg (by simpa using h)).trans (if_pos (by simpa [sliceCredited] using hf))

theorem serveBuild_inTime (hf : s.tm.free = false) (ha : s.isActive = true) (ht : (sliceCredited s l).inTime Ty.QSCH l cycle = true) :
    s.serveBuild l cycle cut bad =
      let q := listsBuilt (sliceCredited s l) l bad
      (((q.prefetch l (q.servedAxs l) q.nextM).setReg Reg.QSCH_STS l 0).complete Ty.QSCH l cycle) := by
  have hgo : ((sliceCredited s l).tm.free || !(sliceCredited s l).isActive) = false := by simp [sliceCredited, hf, ha]
  unfold listsBuilt listedTrees sliceCredited at *
  simp only [State.serveBuild, beq_false_of_ne h, hgo, ht, Bool.not_true, Bool.false_eq_true, if_false, List.find?_nil, List.map_nil,
    List.eraseDups_nil, List.foldl_nil]

end

/-! ## Q_CMD (R298, R299) -/

/-- How a Q_CMD ends: its word with the STATUS, CFG_REJECT on a refusal, CMD_DONE. -/
def qCmdEnded (l op t st : Nat) (r : State) : State :=
  let r := r.setReg Reg.QSCH_Q_CMD l (op + t * 2 ^ 4 + st * 2 ^ 24)
  (if st = 0 then r else r.count Reg.QSCH_CFG_REJECT l).intSet Ty.QSCH l 7

section
variable {s : State} {l t op i : Nat} {f : State → Nat → State × Nat}

theorem qCmd_absent (h : s.present Ty.QSCH l = false) : s.qCmd l t op f = s := if_pos (by simp [h])

variable (hp : s.present Ty.QSCH l = true) (hi : s.fld Reg.QSCH_Q_IDX_INDEX l = i)
include hp hi

/-- An index outside its table, or of an absent unit, is refused (R3, R298). -/
theorem qCmd_refused {st : Nat} (h : (qIdxOk t i = false ∧ st = 8) ∨ (qIdxOk t i = true ∧ s.qUnit l t i = false ∧ st = 4)) :
    s.qCmd l t op f = qCmdEnded l op t st s := by
  rcases h with ⟨hx, rfl⟩ | ⟨hx, hu, rfl⟩
  · simp [State.qCmd, hp, hi, hx, qCmdEnded]
  · simp [State.qCmd, hp, hi, hx, hu, qCmdEnded]

/-- A command of a present unit does what it does there. -/
theorem qCmd_acts (hx : qIdxOk t i = true) (hu : s.qUnit l t i = true) {r : State} {st : Nat} (q : f s i = (r, st)) :
    s.qCmd l t op f = qCmdEnded l op t st r := by
  simp only [State.qCmd, hp, hi, hx, hu, q, Bool.not_true, Bool.false_eq_true, if_false, beq_iff_eq, qCmdEnded]

end

/-- The checkers of a record that a command reads find nothing while no check bit is inverted (R301). -/
theorem qReadCheck_clear {s : State} {l : Nat} (h0 : s.inv Ty.QSCH l 0 = false) (h1 : s.inv Ty.QSCH l 1 = false) (t i : Nat) :
    s.qReadCheck l t i = s := by
  have hpol : s.polInv l i = s := if_neg (by simp [h1])
  simp only [State.qReadCheck, qRecInv_clear h0, hpol, ite_self]

/-- The words of a record as a write stores them. -/
def recordWritten (r : State) (l t i : Nat) : State :=
  r.setQs l ((List.range 6).foldl (fun (x : QschS) j =>
    if qBits t j = 0 then x else x.setWord t i j (qStore t j (r.regI Reg.QSCH_Q_DATA l j))) (r.qs l))

/-- A QUEUE record has one word, stored as it is written. -/
theorem recordWritten_queue (r : State) (l i : Nat) :
    recordWritten r l 0 i = r.setQs l ((r.qs l).setWord 0 i 0 (r.regI Reg.QSCH_Q_DATA l 0 &&& 0xFFFF)) := rfl

/-- The words of a queue's state, as READ_STATE shows them. -/
def queueWords (s : State) (q : QueueS) : List Nat :=
  [q.depth % 2 ^ 32, q.occ % 2 ^ 24, q.pages % 2 ^ 24, q.credit % 2 ^ 28, q.deficit % 2 ^ 24, s.sojourn q]

section
variable {s : State} {l t i : Nat} (hp : s.present Ty.QSCH l = true) (hi : s.fld Reg.QSCH_Q_IDX_INDEX l = i) (hx : qIdxOk t i = true)
  (hu : s.qUnit l t i = true)
include hp hi hx hu

/-- Profile 0 of SPROF is not written (log entry 82). -/
theorem qWrite_sprof0 (ht : t = 3) (h0 : i = 0) : s.qWrite l t = qCmdEnded l 2 t 2 s :=
  qCmd_acts hp hi hx hu (if_pos (by simp [ht, h0]))

theorem qWrite_stores (h : t ≠ 3 ∨ i ≠ 0) : s.qWrite l t = qCmdEnded l 2 t 0 (recordWritten (s.qSettle l t i) l t i) := by
  have hgo : ¬ (t == 3 && i == 0) = true := by simpa [← not_and_or] using h
  refine qCmd_acts hp hi hx hu ((if_neg hgo).trans ?_)
  simp only [recordWritten, beq_iff_eq]

theorem qFlushCmd_queue (h : t = 0 ∨ t = 5) : s.qFlushCmd l t = qCmdEnded l 4 t 0 (s.qFlush l (t * 2 ^ 17 + i)) :=
  qCmd_acts hp hi hx hu (if_pos (by simpa using h))

theorem qFlushCmd_other (h : t ≠ 0 ∧ t ≠ 5) : s.qFlushCmd l t = qCmdEnded l 4 t 8 s :=
  qCmd_acts hp hi hx hu (if_neg (by simpa using h))

variable (h0 : s.inv Ty.QSCH l 0 = false) (h1 : s.inv Ty.QSCH l 1 = false)
include h0 h1

theorem qRead_shows : s.qRead l t =
    qCmdEnded l 1 t 0 (s.qShow l fun j => if qBits t j = 0 then 0 else (s.qs l).word t i j) :=
  qCmd_acts hp hi hx hu (by simp only [qReadCheck_clear h0 h1, beq_iff_eq])

theorem qReadState_queue (h : t = 0 ∨ t = 5) : s.qReadState l t =
    qCmdEnded l 3 t 0 (s.qShow l fun j => (queueWords s ((s.qs l).queue (t * 2 ^ 17 + i))).getD j 0) := by
  refine qCmd_acts hp hi hx hu ?_
  rcases h with rfl | rfl <;> simp only [qReadCheck_clear h0 h1, queueWords]

theorem qReadState_other (h : t ≠ 0 ∧ t ≠ 1 ∧ t ≠ 5 ∧ t ≠ 7) : s.qReadState l t = qCmdEnded l 3 t 8 s := by
  obtain ⟨n0, n1, n5, n7⟩ := h
  refine qCmd_acts hp hi hx hu ?_
  simp only [qReadCheck_clear h0 h1]

end

/-! ## Queue samples (R292) -/

/-- The sampling pointers of slice l past the next round. -/
def sampleMoved (s : State) (l : Nat) : State :=
  let x := s.qs l
  s.setQs l { x with sampled := s.tm.tickNo + 1, sampleT := (x.sampleT + 1024) % 32768, sampleG := (x.sampleG + 64) % 576 }

section
variable {s : State} {l : Nat}

theorem queueSample_waits (h : s.on Reg.QSCH_CTL_SAMPLE_EN l = false ∨
      s.tm.tickNo + 1 < (s.qs l).sampled + s.fld Reg.QSCH_SAMPLE_CFG_STRIDE l ∨ (s.qs l).sampled = s.tm.tickNo + 1) :
    s.queueSample l = s :=
  if_pos (by simpa [or_assoc] using h)

theorem queueSample_round (he : s.on Reg.QSCH_CTL_SAMPLE_EN l = true)
    (hs : (s.qs l).sampled + s.fld Reg.QSCH_SAMPLE_CFG_STRIDE l ≤ s.tm.tickNo + 1) (hn : (s.qs l).sampled ≠ s.tm.tickNo + 1) :
    s.queueSample l =
      let x := s.qs l
      (List.range 64).foldl (fun (s : State) i =>
        let k := (x.sampleG + i) % 576
        if k < 64 then s.sampleOne l 1 0 (k / 8 * 8192 + 4096 + k % 8) else s.sampleOne l 2 5 (k - 64))
      ((List.range 1024).foldl (fun (s : State) i =>
        s.sampleOne l 0 0 ((x.sampleT + i) / 4096 * 8192 + (x.sampleT + i) % 4096)) (sampleMoved s l)) :=
  if_neg (by simpa [he, hn] using hs)

end

/-! ## What the commands of a slice give -/

section
variable {s r : State} {l : Nat} (hr : Running s) (hl : l < 4)
include hr hl

theorem gives_qschAdmit {cycle : Nat} (q : (if s.active Ty.QSCH l then s.qschAdmit l cycle else s) = r) : Gives (.qschAdmit l cycle) s r :=
  Gives.of_slice (fun s l => if s.active Ty.QSCH l then s.qschAdmit l cycle else s) hr hl rfl q

/-- A page comes into a queue of table 5 TRUNKQ or of table 0 QUEUE. -/
theorem gives_pageIn {t i : Nat} {ok : Bool}
    (q : (if s.present Ty.QSCH l then s.pageIn l ((if t = 5 then 5 else 0) * 2 ^ 17 + i % 2 ^ 16) ok else s) = r) :
    Gives (.pageIn l t i ok) s r :=
  Gives.of_slice (fun s l => if s.present Ty.QSCH l then s.pageIn l ((if t == 5 then 5 else 0) * 2 ^ 17 + i % 2 ^ 16) ok else s) hr hl rfl
    (by simpa only [beq_iff_eq] using q)

theorem gives_spillPageOut {n : Nat} (hn : n ≤ 98304) (hp : s.present Ty.BUF 0 = true) (q : s.spillOut l n = r) :
    Gives (.spillPageOut l n) s r :=
  Gives.of_slice (fun s l => if s.present Ty.BUF 0 then s.spillOut l (n % 98305) else s) hr hl rfl
    ((if_pos hp).trans (by rw [Nat.mod_eq_of_lt (by omega), q]))

theorem gives_serveListBuild {cycle : Nat} {cut bad : List (Nat × Nat)}
    (q : (if s.active Ty.QSCH l then s.serveBuild l cycle cut bad else s) = r) : Gives (.serveListBuild l cycle cut bad) s r :=
  Gives.of_slice (fun s l => if s.active Ty.QSCH l then s.serveBuild l cycle cut bad else s) hr hl rfl q

theorem gives_queueSample (q : (if s.present Ty.QSCH l then s.queueSample l else s) = r) : Gives (.queueSample l) s r :=
  Gives.of_slice (fun s l => if s.present Ty.QSCH l then s.queueSample l else s) hr hl rfl q

variable {t : Nat} (ht : t < 16)
include ht

theorem gives_qRead (q : s.qRead l t = r) : Gives (.qRead l t) s r :=
  Gives.of_slice (State.qRead · · (t % 16)) hr hl rfl (by rw [Nat.mod_eq_of_lt ht, q])

theorem gives_qWrite (q : s.qWrite l t = r) : Gives (.qWrite l t) s r :=
  Gives.of_slice (State.qWrite · · (t % 16)) hr hl rfl (by rw [Nat.mod_eq_of_lt ht, q])

theorem gives_qReadState (q : s.qReadState l t = r) : Gives (.qReadState l t) s r :=
  Gives.of_slice (State.qReadState · · (t % 16)) hr hl rfl (by rw [Nat.mod_eq_of_lt ht, q])

theorem gives_qFlush (q : s.qFlushCmd l t = r) : Gives (.qFlush l t) s r :=
  Gives.of_slice (State.qFlushCmd · · (t % 16)) hr hl rfl (by rw [Nat.mod_eq_of_lt ht, q])

end

/-- Settles O15: admission by its decision, paging by what may move, the lists by their tick, Q_CMD by its index and table, and the samples
by their stride. -/
theorem queuesPagingAndServeLists : Obligations.QueuesPagingAndServeLists := by
  intro s l hr hl
  refine ⟨fun h => ?_, fun hp => ⟨fun h cy => ?_, fun h cycle => ?_, fun t i ok => ?_, fun h cycle cut bad => ?_, fun t ht => ?_, ?_⟩,
    fun n hn hp => ?_, fun q key cls c yellow => ⟨admitDrop_quota, admitDrop_minimum⟩⟩
  · have hn : ¬ s.present Ty.QSCH l = true := by simp [h]
    have ha : ¬ s.active Ty.QSCH l = true := by simp [active_absent h]
    exact ⟨fun _ => gives_qschAdmit hr hl (if_neg ha), fun _ _ _ => gives_pageIn hr hl (if_neg hn),
      fun _ _ _ => gives_serveListBuild hr hl (if_neg ha),
      fun t => ⟨Gives.of_slice (State.qRead · · (t % 16)) hr hl rfl (qCmd_absent h),
        Gives.of_slice (State.qWrite · · (t % 16)) hr hl rfl (qCmd_absent h)⟩, gives_queueSample hr hl (if_neg hn)⟩
  · have ha : ¬ s.active Ty.QSCH l = true := by simp [h]
    exact ⟨gives_qschAdmit hr hl (if_neg ha), fun _ _ => gives_serveListBuild hr hl (if_neg ha)⟩
  · have admits {r : State} (q : s.qschAdmit l cycle = r) : Gives (.qschAdmit l cycle) s r := gives_qschAdmit hr hl ((if_pos h).trans q)
    exact ⟨fun hq => admits (qschAdmit_none rfl hq), fun p hq h2 h0 b0 b1 =>
      ⟨fun ht => admits (qschAdmit_termDown rfl hq rfl h2 h0 b0 b1 ht),
        fun k i ht hd => admits (qschAdmit_drop rfl hq rfl h2 h0 b0 b1 ht hd),
        fun ht hd hecn => admits (qschAdmit_joins rfl hq rfl h2 h0 b0 b1 ht hd hecn)⟩⟩
  · exact ⟨fun hk => gives_pageIn hr hl ((if_pos hp).trans (pageIn_keeps hk ok)),
      fun _ hh hf hs => gives_pageIn hr hl ((if_pos hp).trans (pageIn_moves hs hh hf))⟩
  · have build {r : State} (q : s.serveBuild l cycle cut bad = r) : Gives (.serveListBuild l cycle cut bad) s r :=
      gives_serveListBuild hr hl ((if_pos h).trans q)
    exact ⟨fun hc => build (serveBuild_again hc), fun hc hf => build (serveBuild_credits hc hf),
      fun hc hf ha hi => build (serveBuild_inTime hc hf ha hi)⟩
  · refine ⟨fun st h => ⟨gives_qRead hr hl ht (qCmd_refused hp rfl h), gives_qWrite hr hl ht (qCmd_refused hp rfl h),
      gives_qReadState hr hl ht (qCmd_refused hp rfl h), gives_qFlush hr hl ht (qCmd_refused hp rfl h)⟩, fun hx hu h0 h1 => ?_⟩
    refine ⟨gives_qRead hr hl ht (qRead_shows hp rfl hx hu h0 h1), fun h3 hi => gives_qWrite hr hl ht (qWrite_sprof0 hp rfl hx hu h3 hi),
      fun h => gives_qWrite hr hl ht (qWrite_stores hp rfl hx hu h), ?_,
      fun h => ⟨gives_qFlush hr hl ht (qFlushCmd_queue hp rfl hx hu h),
        gives_qReadState hr hl ht (qReadState_queue hp rfl hx hu h0 h1 h)⟩,
      fun h => gives_qFlush hr hl ht (qFlushCmd_other hp rfl hx hu h),
      fun h => gives_qReadState hr hl ht (qReadState_other hp rfl hx hu h0 h1 h)⟩
    rintro rfl
    exact gives_qWrite hr hl ht ((qWrite_stores hp rfl hx hu (.inl (by decide))).trans
      (congrArg (qCmdEnded l 2 0 0) (recordWritten_queue s l _)))
  · exact ⟨fun h => gives_queueSample hr hl ((if_pos hp).trans (queueSample_waits h)),
      fun he hs hn => gives_queueSample hr hl ((if_pos hp).trans (queueSample_round he hs hn))⟩
  · exact ⟨fun h => gives_spillPageOut hr hl hn hp (spillOut_off h),
      fun h hs hf => gives_spillPageOut hr hl hn hp (spillOut_above h hs hf),
      fun h hf => gives_spillPageOut hr hl hn hp (spillOut_below h hf)⟩

end Sys2Proof.Proofs

/-! PROOF. The family of 10_queues_gates.md: the lists of the gates, and the frame that a trunk port takes. -/

namespace Sys2Proof.Proofs

open Sys2Proof.Machine Sys2Proof.Laws

/-! ## GATE_COMMIT (R289, R302) -/

/-- The admin list of lane i: for each entry its gates and its interval. -/
def adminEntries (a : State) (i : Nat) : List (Nat × Nat) :=
  (List.range (a.fld Reg.GATE_ADMIN_LEN_ENTRIES i)).map fun e => ((a.gt i).adminAt e % 256, (a.gt i).adminAt e / 256)

/-- The admin list is no list of a cycle: an interval is below 8 ns, or the intervals do not add up to it. -/
def AdminBad (a : State) (i : Nat) : Prop :=
  (∃ e ∈ adminEntries a i, e.2 < 8) ∨ (adminEntries a i).foldl (fun a e => a + e.2) 0 ≠ a.fld Reg.GATE_ADMIN_CYCLE_NS i

theorem adminCheck_iff {a : State} {i : Nat} : (((adminEntries a i).any fun e => decide (e.2 < 8)) ||
    (adminEntries a i).foldl (fun a e => a + e.2) 0 != a.fld Reg.GATE_ADMIN_CYCLE_NS i) = true ↔ AdminBad a i := by
  simp [AdminBad]

/-- The base time of the admin list, in ns. -/
def adminBase (a : State) (i : Nat) : Nat :=
  (a.reg64 Reg.GATE_ADMIN_BASE_S_LO i % 2 ^ 48) * 10 ^ 9 + a.fld Reg.GATE_ADMIN_BASE_NS_NS i

/-- The first ns at which a list committed now may start. -/
def firstStart (a : State) : Nat := ceilDiv a.gateTime (2 ^ 32) + 125000

/-- The admin list as the list that starts at a time. -/
def adminList (a : State) (i start : Nat) : TList := ⟨adminEntries a i, a.fld Reg.GATE_ADMIN_CYCLE_NS i, start⟩

/-- The gates with a committed list pending, before it is mirrored. -/
def listPending (a : State) (i : Nat) (l : TList) : State := a.setGt i { a.gt i with pend := some l }

section
variable {s a : State} {i cycle : Nat} (hp : s.present Ty.GATE i = true) (hi : s.isPrim i = true) (ha : s.advanceTo cycle = a)
include hp hi ha

/-- A commit to the gates of a present primary lane: the check of the admin list, then its start time. -/
theorem gateCommit_eq : s.gateCommit i cycle =
    if ((adminEntries a i).any fun e => decide (e.2 < 8)) ||
        (adminEntries a i).foldl (fun a e => a + e.2) 0 != a.fld Reg.GATE_ADMIN_CYCLE_NS i then a.count Reg.GATE_CFG_REJECT i
    else if firstStart a ≤ adminBase a i then
      (listPending a i (adminList a i (adminBase a i))).gateMirror i (adminBase a i) (adminList a i (adminBase a i))
    else
      let l := adminList a i (adminBase a i +
        ceilDiv (firstStart a - adminBase a i) (a.fld Reg.GATE_ADMIN_CYCLE_NS i) * a.fld Reg.GATE_ADMIN_CYCLE_NS i)
      ((listPending a i l).count Reg.GATE_PAST_BASE i).gateMirror i (adminBase a i) l := by
  subst ha
  exact if_neg (by simp [hp, hi])

theorem gateCommit_bad (h : AdminBad a i) : s.gateCommit i cycle = a.count Reg.GATE_CFG_REJECT i := by
  rw [gateCommit_eq hp hi ha, if_pos (adminCheck_iff.2 h)]

variable (h : ¬ AdminBad a i)
include h

theorem gateCommit_ahead (hb : firstStart a ≤ adminBase a i) : s.gateCommit i cycle =
    (listPending a i (adminList a i (adminBase a i))).gateMirror i (adminBase a i) (adminList a i (adminBase a i)) := by
  rw [gateCommit_eq hp hi ha, if_neg (mt adminCheck_iff.1 h), if_pos hb]

/-- A base time that has passed, or lies too near, gives way to the first whole cycle from it that does not. -/
theorem gateCommit_past (hb : adminBase a i < firstStart a) {l : TList} (hl : l = adminList a i (adminBase a i +
      ceilDiv (firstStart a - adminBase a i) (a.fld Reg.GATE_ADMIN_CYCLE_NS i) * a.fld Reg.GATE_ADMIN_CYCLE_NS i)) :
    s.gateCommit i cycle = ((listPending a i l).count Reg.GATE_PAST_BASE i).gateMirror i (adminBase a i) l := by
  rw [gateCommit_eq hp hi ha, if_neg (mt adminCheck_iff.1 h), if_neg (Nat.not_le.2 hb), hl]

end

/-! ## GATE_LIST_START and GATE_ENTRY_ADVANCE (R290) -/

/-- A list made active: its entry in force, its cycle and start shown, the switch counted. -/
def listStarted (a : State) (i : Nat) (l : TList) : State :=
  let r := a.setGt i { a.gt i with pend := none, act := some l, entry := l.entry a.gateTime, free := false }
  let r := (r.setReg Reg.GATE_OPER_CYCLE i l.cycle).setReg Reg.GATE_OPER_START_NS i (l.start % 10 ^ 9)
  (r.setReg64 Reg.GATE_OPER_START_S_LO i (l.start / 10 ^ 9 % 2 ^ 48)).count Reg.GATE_LIST_SWITCHES i

section
variable {a : State} {i : Nat} {l : TList}

theorem gateStart_none (h : (a.gt i).pend = none) : a.gateStart i = a := by simp only [State.gateStart, h]

/-- A pending list waits while free ticking and before its start time (log entry 73). -/
theorem gateStart_early (h : (a.gt i).pend = some l) (ht : a.tm.free = true ∨ a.gateTime < l.start * 2 ^ 32) : a.gateStart i = a := by
  simp only [State.gateStart, h]
  exact if_pos (by simpa using ht)

theorem gateStart_due (h : (a.gt i).pend = some l) (hf : a.tm.free = false) (ht : l.start * 2 ^ 32 ≤ a.gateTime) :
    a.gateStart i = listStarted a i l := by
  simp only [State.gateStart, h]
  exact if_neg (by simpa [hf] using ht)

/-- The entry in force stands where no list is active, and while free ticking (log entry 73). -/
theorem gateStep_keeps (h : (a.gt i).act = none ∨ a.tm.free = true) : a.gateStep i = a := by
  cases ha : (a.gt i).act with
  | none => simp only [State.gateStep, ha]
  | some l =>
    simp only [State.gateStep, ha]
    exact if_pos (h.resolve_left (by simp [ha]))

theorem gateStep_moves (h : (a.gt i).act = some l) (hf : a.tm.free = false) :
    a.gateStep i = a.setGt i { a.gt i with entry := l.entry a.gateTime } := by
  simp only [State.gateStep, h, hf, Bool.false_eq_true, if_false]

end

/-! ## TRK_TX_SELECT (R288) -/

/-- The gates of port i seen at a cycle and its queues' credits up to date. -/
def trunkSeen (s : State) (i cycle : Nat) : State := ((s.advanceTo cycle).gateLook i).trunkAccrue i

/-- The heads that can never be sent gone from port i's queues (R285, R291). -/
def trunkCleaned (a : State) (i : Nat) : State :=
  (List.range 64).foldl (fun (s : State) j => s.trunkClean i j ((s.qs (i / 8)).queue (trunkKey i j)).frames.length) a

/-- The checkers of R301 on the waiting heads find nothing while check bit 0 is not inverted. -/
theorem headChecks_clear {a : State} {i : Nat} (h : a.inv Ty.QSCH (i / 8) 0 = false) (js : List Nat) :
    js.foldl (fun (s : State) j => if ((s.qs (i / 8)).queue (trunkKey i j)).frames.isEmpty then s else s.qRecInv (i / 8) (trunkKey i j)) a
      = a :=
  List.foldl_fixed' (fun _ => (congrArg _ (qRecInv_clear h _)).trans (ite_self _)) js

theorem txSelect_noPort {s : State} {k : Nat} (h : s.hasPort k = false) (cycle : Nat) : s.txSelect k cycle = s := if_pos (by simp [h])

/-- Queue `key` without its head, which goes out: the shaper's credit is spent. -/
def headSent (x : QschS) (key : Nat) (p : Pkt) (rest : List Pkt) : QueueS :=
  { (x.queue key).free (frameCells p) with
    frames := rest
    deficit := (x.queue key).deficit
    credit := if bitsOf (x.qword key) 6 10 = 0 then (x.queue key).credit else (x.queue key).credit - 16 * frameLen p }

/-- The head of a strict queue served: the class's pointer moves to the next queue group, and the frame is counted. -/
def strictServed (r : State) (i j : Nat) (p : Pkt) (rest : List Pkt) : State :=
  let x := r.qs (i / 8)
  let y := x.setQueue (trunkKey i j) (headSent x (trunkKey i j) p rest)
  let y := { y with trunk := y.trunk.set 0 (i % 8 * 9 + j % 8) ((j / 8 + 1) % 8) }
  ((r.setQs (i / 8) y).count64 Reg.QSCH_SERVED_LO (i / 8)).countN64 Reg.QSCH_SERVED_BYTES_LO (i / 8) (frameLen p)

/-- The head of a queue taken and lost. -/
def headLost (r : State) (i j : Nat) (p : Pkt) (rest : List Pkt) : State :=
  r.setQs (i / 8) ((r.qs (i / 8)).setQueue (trunkKey i j)
    { ((r.qs (i / 8)).queue (trunkKey i j)).free (frameCells p) with frames := rest })

section
variable {s a r : State} {k i cycle j : Nat} {p : Pkt} {rest : List Pkt} (hport : s.hasPort k = true) (hi : s.prim k = i)
  (ha : trunkSeen s i cycle = a) (h0 : a.inv Ty.QSCH (i / 8) 0 = false)
include hport hi ha h0

theorem txSelect_none (h : ((trunkCleaned a i).pickQueue i).2 = none) : s.txSelect k cycle = ((trunkCleaned a i).pickQueue i).1 := by
  obtain ⟨t, ht⟩ : ∃ t, (trunkCleaned a i).pickQueue i = (t, none) := ⟨_, Prod.ext rfl h⟩
  unfold trunkSeen trunkCleaned at *
  simp only [State.txSelect, hport, hi, ha, headChecks_clear h0, ht, Bool.not_true, Bool.false_eq_true, if_false]

variable (h : (trunkCleaned a i).pickQueue i = (r, some (j, false))) (hq : ((r.qs (i / 8)).queue (trunkKey i j)).frames = p :: rest)
  (h2 : r.inv Ty.QSCH (i / 8) 2 = false)
include h hq h2

theorem txSelect_down (hup : r.portUp k = false) (l2 : (headLost r i j p rest).inv Ty.QSCH (i / 8) 2 = false)
    (lup : (headLost r i j p rest).portUp k = false) :
    s.txSelect k cycle = ((headLost r i j p rest).count Reg.TRK_TX_DISCARD i).injFin p 2 none := by
  unfold trunkSeen trunkCleaned headLost at *
  simp only [State.txSelect, hport, hi, ha, headChecks_clear h0, h, hq, h2, hup, State.trunkLose, l2, lup, Bool.not_true, Bool.not_false,
    Bool.false_or, Bool.false_eq_true, if_false, if_true]

/-- A frame that a port up takes goes out with its header rewritten and the transparent clock's and ONE_STEP's writes in it. -/
theorem txSelect_up (hup : r.portUp k = true) {t u : State} {d : Bytes} (ht : strictServed r i j p rest = t)
    (hout : t.tcEgress k { p with data := t.retag k p } (t.egressEl k) = (u, d)) :
    s.txSelect k cycle = u.msecTx k { p with data := u.oneStep k p d } := by
  unfold trunkSeen trunkCleaned strictServed headSent at *
  simp only [State.txSelect, hport, hi, ha, headChecks_clear h0, h, hq, h2, hup, Bool.not_true, Bool.false_or, Bool.false_eq_true, if_false,
    beq_iff_eq, ht, hout]

end

/-! ## A head that may be taken (R285, R288, R291) -/

theorem trunkHead_some {s : State} {i j : Nat} {p : Pkt} (h : s.trunkHead i j = some p) :
    ∃ rest, ((s.qs (i / 8)).queue (trunkKey i j)).frames = p :: rest ∧
      (∀ (l : TList) (r : Nat), s.gateList i = some l → l.toClose (j % 8) s.gateTime = some r → s.fits i (frameLen p) r = true) ∧
      (bitsOf ((s.qs (i / 8)).qword (trunkKey i j)) 6 10 ≠ 0 → 16 * frameLen p ≤ ((s.qs (i / 8)).queue (trunkKey i j)).credit) := by
  unfold State.trunkHead at h
  cases hf : ((s.qs (i / 8)).queue (trunkKey i j)).frames with
  | nil => simp [hf] at h
  | cons q rest =>
    simp only [hf, Option.ite_none_right_eq_some, Option.some.injEq, Bool.and_eq_true, Bool.or_eq_true, beq_iff_eq, decide_eq_true_eq] at h
    obtain ⟨⟨hgate, hcredit⟩, rfl⟩ := h
    refine ⟨rest, rfl, fun l r hl hr => ?_, fun hp => hcredit.resolve_left hp⟩
    simpa only [hl, hr] using hgate

/-- Settles O16: a commit by its check and its base time, the lists by their start, and the selection by what it picks on a port up or
down. -/
theorem gatesAndTrunkSelection : Obligations.GatesAndTrunkSelection := by
  refine ⟨fun s i cycle hr hi hp hprim => ?_, fun s k cycle hr hk => ?_, fun s i j p => trunkHead_some⟩
  · have commit {r : State} (q : (s.mirrored fun s => s.gateCommit i cycle) = r) : Gives (.gateCommit i cycle) s r :=
      Gives.of_live (fun s => if s.present Ty.GATE (i % 32) && s.isPrim (i % 32) then
          s.mirrored fun s => s.gateCommit (i % 32) cycle else s) hr rfl
        (by rw [Nat.mod_eq_of_lt hi, hp, hprim, ← q]; rfl)
    have start {r : State} (q : (s.advanceTo cycle).gateStart i = r) : Gives (.gateListStart i cycle) s r :=
      Gives.of_live (State.listStart · (i % 32) cycle) hr rfl
        (by rw [Nat.mod_eq_of_lt hi, ← q]; exact if_neg (by simp [hp, hprim]))
    have entry {r : State} (q : (s.advanceTo cycle).gateStep i = r) : Gives (.gateEntryAdvance i cycle) s r :=
      Gives.of_live (State.entryAdvance · (i % 32) cycle) hr rfl
        (by rw [Nat.mod_eq_of_lt hi, ← q]; exact if_neg (by simp [hp, hprim]))
    refine ⟨fun hm => commit (mirrored_standby hm _), fun hm => ?_, fun h => start (gateStart_none h), fun l h =>
      ⟨fun ht => start (gateStart_early h ht), fun hf ht => start (gateStart_due h hf ht)⟩, fun h => entry (gateStep_keeps h),
      fun l h hf => entry (gateStep_moves h hf)⟩
    have go {r : State} (q : s.gateCommit i cycle = r) : Gives (.gateCommit i cycle) s r := commit ((mirrored_open hm _).trans q)
    exact ⟨fun h => go (gateCommit_bad hp hprim rfl h), fun h hb => go (gateCommit_ahead hp hprim rfl h hb),
      fun h hb => go (gateCommit_past hp hprim rfl h hb rfl)⟩
  · have select {r : State} (q : s.txSelect k cycle = r) : Gives (.trkTxSelect k cycle) s r :=
      Gives.of_live (State.txSelect · (k % 32) cycle) hr rfl (by rw [Nat.mod_eq_of_lt hk, q])
    refine ⟨fun h => select (txSelect_noPort h cycle), fun hport h0 _ => ⟨fun h => select (txSelect_none hport rfl rfl h0 h),
      fun r j p rest h hq => ⟨fun h2 hup l2 lup => select (txSelect_down hport rfl rfl h0 h hq h2 hup l2 lup), fun h2 hup => ?_⟩⟩⟩
    split
    next u d hout => exact select (txSelect_up hport rfl rfl h0 h hq h2 hup rfl hout)

end Sys2Proof.Proofs

/-! PROOF. The family of 15_host_interface.md and 16_binnacle_faults.md: a step, the routed levels, and what a halted device does (R406,
R422, R444). -/

namespace Sys2Proof.Proofs

open Sys2Proof.Machine Sys2Proof.Laws

/-! ## A step runs the front command, and no routed level is missed (R406, R422, R423) -/

/-- Settles O1: both halves are the definition of a step. -/
theorem stepRunsFrontCommand : Obligations.StepRunsFrontCommand :=
  ⟨fun _ _ _ => rfl, fun s h => by simp only [step, h]⟩

/-- An outcome that leaves the state alone or settles its vectors keeps every routed level seen. -/
theorem own_levelsSeen {s t : State} (hs : LevelsSeen s) (h : Own s (.next t)) : LevelsSeen t := by
  rcases h with h | ⟨u, h⟩ <;> cases h
  · exact hs
  · exact done_levelsSeen s u

/-- Settles O5: a step idles, or runs a command on a state that differs in its queue alone; the command leaves it or settles its
vectors. -/
theorem routedLevelsKeepTheirRequest : Obligations.RoutedLevelsKeepTheirRequest := by
  intro s t hs h
  unfold step at h
  cases hq : s.pending with
  | nil =>
    rw [hq] at h
    cases h
    exact hs
  | cons c rest =>
    rw [hq] at h
    have hr : LevelsSeen { s with pending := rest } := hs
    exact own_levelsSeen hr (h ▸ exec_own c { s with pending := rest })

/-- Settles O6: no register is stored at reset, so no page has an enabled flag. -/
theorem routedLevelsAtReset : Obligations.RoutedLevelsAtReset := by
  have h : State.reset.levelVecs = [] := rfl
  intro v hv
  rw [h] at hv
  cases hv

/-- What acts under reset acts in a halt too. -/
theorem actsHalted_of_actsOff {c : Instr} (h : ActsOff c) : ActsHalted c := by
  unfold ActsOff at h
  split at h <;> trivial

/-- Settles O3: a command's form says under what the device ignores it. -/
theorem haltedDeviceIgnoresCommands : Obligations.HaltedDeviceIgnoresCommands := by
  refine ⟨fun c s hs hc => ?_, fun c s hs hc => ?_⟩
  · obtain ⟨f, ⟨ho, _⟩ | ⟨_, hh, _⟩ | ⟨_, h⟩⟩ := exec_shape c s
    · exact absurd (actsHalted_of_actsOff ho) hc
    · exact absurd hh hc
    · rw [h, live_halted hs]
  · obtain ⟨f, ⟨ho, _⟩ | ⟨_, _, h⟩ | ⟨_, h⟩⟩ := exec_shape c s
    · exact absurd ho hc
    · rw [h, powered_off hs]
    · rw [h, live_off hs]

/-! ## What keeps a halt (R444): the operations of the commands that act in one -/

/-- Whether a state is halted. The lemmas below move it through the operations by rewriting: unfolding whole states is costly. -/
def haltOf (s : State) : Bool := s.halted

theorem haltOf_eq (s : State) : haltOf s = s.halted := (rfl)

section
variable (s : State)

theorem haltOf_wr (k : Nat) (v : Word) : haltOf (s.wr k v) = haltOf s := (rfl)
theorem haltOf_setReg (r : RegId) (i v : Nat) : haltOf (s.setReg r i v) = haltOf s := (rfl)
theorem haltOf_setReg64 (r : RegId) (i v : Nat) : haltOf (s.setReg64 r i v) = haltOf s := (rfl)
theorem haltOf_setFlag (f : FldId) (i : Nat) (b : Bool) (d : Nat) : haltOf (s.setFlag f i b d) = haltOf s := (rfl)
theorem haltOf_typeBit (r : RegId) (i : Nat) : haltOf (s.typeBit r i) = haltOf s := (rfl)
theorem haltOf_intSet (a b c : Nat) : haltOf (s.intSet a b c) = haltOf s := (rfl)
theorem haltOf_count (r : RegId) (i : Nat) : haltOf (s.count r i) = haltOf s := count_halted s r i
theorem haltOf_countN (r : RegId) (i n : Nat) : haltOf (s.countN r i n) = haltOf s := countN_halted s r i n
theorem haltOf_bin (x : BinS) : haltOf { s with bin := x } = haltOf s := (rfl)
theorem haltOf_lcs (x : LcsS) : haltOf { s with lcs := x } = haltOf s := (rfl)
theorem haltOf_rwo (x : Tbl Bool) : haltOf { s with rwo := x } = haltOf s := (rfl)
theorem haltOf_tm (x : TimeS) : haltOf { s with tm := x } = haltOf s := (rfl)
theorem haltOf_tm_lcs (x : TimeS) (y : LcsS) : haltOf { s with tm := x, lcs := y } = haltOf s := (rfl)
theorem haltOf_setDom (d : Nat) (x : Dom) : haltOf (s.setDom d x) = haltOf s := (rfl)
theorem haltOf_setCount (m e : Nat) : haltOf (s.setCount m e) = haltOf s := (rfl)
theorem haltOf_highWater : haltOf s.highWater = haltOf s := (rfl)
theorem haltOf_advanceTo (c : Nat) : haltOf (s.advanceTo c) = haltOf s := (rfl)
theorem haltOf_lateAdd (k w lo hi : Nat) : haltOf (s.lateAdd k w lo hi) = haltOf s := haltOf_bin s _
theorem haltOf_captRelease (a b : Nat) : haltOf (s.captRelease a b) = haltOf s := by
  unfold State.captRelease
  simp only [haltOf_setReg]
theorem haltOf_batterySlot (e : Bytes) : haltOf (s.batterySlot e) = haltOf s := haltOf_lcs s _
theorem haltOf_halt (d : Det) (c : EClass) (e : Bool) : haltOf (s.halt d c e) = true := halt_halts s d c e

theorem haltOf_logPut (e : Bytes) : haltOf (s.logPut e) = haltOf s := by
  rcases logPut_cases s e with ⟨_, h⟩ | ⟨_, h⟩ <;> rw [h]
  · exact haltOf_lcs s _
  · exact haltOf_count s _ _

theorem haltOf_log (code cls ty inst src detail : Nat) : haltOf (s.log code cls ty inst src detail) = haltOf s := haltOf_logPut s _

theorem haltOf_escalate (d : Det) (c : EClass) : haltOf (s.escalate d c).1 = haltOf s := by
  unfold State.escalate
  dsimp only
  split
  · rfl
  · split
    · rfl
    · split <;> exact haltOf_bin s _

theorem haltOf_capture (d : Det) (c : EClass) (e : Bool) : haltOf (s.capture d c e) = haltOf s := by
  unfold State.capture
  dsimp only
  split
  · simp only [haltOf_setReg]
  · split
    · split
      · exact haltOf_setReg s _ _ _
      · rfl
    · exact (haltOf_lateAdd _ _ _ _ _).trans (haltOf_setReg s _ _ _)

theorem haltOf_zeroise : haltOf s.zeroise = haltOf s := by
  unfold State.zeroise
  dsimp only
  rw [haltOf_countN, haltOf_count]
  rfl

theorem haltOf_unlockEnd : haltOf s.unlockEnd = haltOf s := by
  unfold State.unlockEnd
  simp only [apply_ite haltOf, haltOf_intSet, haltOf_lcs, ite_self]

theorem haltOf_tornEntry (torn : Option Bytes) : haltOf (s.tornEntry torn) = haltOf s := by
  unfold State.tornEntry
  split
  · split <;> rfl
  · rfl

theorem haltOf_batterySlots (l : List Bytes) : haltOf (s.batterySlots l) = haltOf s := by
  unfold State.batterySlots
  split
  · exact foldl_keeps haltOf_batterySlot l s
  · exact haltOf_batterySlot s _

theorem haltOf_cellEvents (evs : List Det) : haltOf (s.cellEvents evs) = haltOf s := by
  unfold State.cellEvents
  simp only [apply_ite haltOf, haltOf_batterySlot, haltOf_lcs, ite_self]

theorem haltOf_logWrite (l : List Bytes) : haltOf (s.logWrite l) = haltOf s := by
  unfold State.logWrite
  simp only [apply_ite haltOf, haltOf_intSet, haltOf_lcs, ite_self]

theorem haltOf_logProgram (l : List Bytes) : haltOf (s.logProgram l) = haltOf s := by
  unfold State.logProgram
  simp only [apply_ite haltOf, haltOf_batterySlots, haltOf_count, haltOf_logWrite, ite_self]

theorem haltOf_supersede (l : List Nat) : haltOf (s.supersede l) = haltOf s := by
  unfold State.supersede
  simp only [apply_ite haltOf, haltOf_countN, ite_self]

theorem haltOf_plainWrite (k v : Nat) : haltOf (s.plainWrite k v) = haltOf s := by
  unfold State.plainWrite
  split
  · rfl
  · split
    · rfl
    · simp only [apply_ite haltOf, haltOf_rwo, haltOf_wr, ite_self]

theorem haltOf_ovfWrite (ty inst v : Nat) : haltOf (s.ovfWrite ty inst v) = haltOf s := by
  unfold State.ovfWrite
  simp only [apply_ite haltOf, haltOf_captRelease, haltOf_setReg, ite_self]

theorem haltOf_haltWrite (k v : Nat) : haltOf (s.haltWrite k v) = haltOf s := by
  unfold State.haltWrite
  simp only [apply_ite haltOf, haltOf_ovfWrite, haltOf_plainWrite, ite_self]

theorem haltOf_readReg (master k : Nat) : haltOf (s.readReg master k).1 = haltOf s := by
  unfold State.readReg State.readLo
  simp only [apply_ite (fun p : State × Nat => haltOf p.1)]
  simp only [haltOf, ite_self]

theorem haltOf_winClose (ty inst src : Nat) : haltOf (s.winClose ty inst src) = haltOf s := by
  unfold State.winClose
  dsimp only
  split
  · simp only [apply_ite haltOf, haltOf_bin, ite_self]
  · rfl

theorem haltOf_vbatLoss : haltOf s.vbatLoss = haltOf s := by
  unfold State.vbatLoss
  split <;> rfl

theorem haltOf_slewStep : haltOf s.slewStep = haltOf s := by
  unfold State.slewStep
  simp only [apply_ite haltOf, haltOf_intSet, haltOf_tm, ite_self]

theorem haltOf_lineTake (d : Int) : haltOf (s.lineTake d) = haltOf s := by
  unfold State.lineTake
  simp only [apply_ite haltOf, haltOf_tm, ite_self]

theorem haltOf_switchEval : haltOf s.switchEval = haltOf s := by
  unfold State.switchEval
  split
  · rfl
  · simp only [apply_ite haltOf, haltOf_intSet, haltOf_count, haltOf_tm, ite_self]

theorem haltOf_planTick (j : Nat) : haltOf (s.planTick j) = haltOf s := by
  unfold State.planTick
  simp only [apply_ite haltOf, haltOf_count, haltOf_setReg, haltOf_tm, ite_self]

end

/-! Operations with an event in them may halt, and never end a halt. -/

section
variable {s : State} (h : haltOf s = true)
include h

theorem foldl_keepsHalt {α : Type} {f : State → α → State} (hf : ∀ s a, haltOf s = true → haltOf (f s a) = true) (l : List α) :
    haltOf (l.foldl f s) = true := by
  induction l generalizing s with
  | nil => exact h
  | cons a l ih => exact ih (hf s a h)

/-- An event's record halts, or leaves the halt as it is. -/
theorem record_keepsHalt (d : Det) (c : EClass) : haltOf (s.record d c) = true := by
  unfold State.record
  split
  · exact h
  · replace h : haltOf (s.escalate d c).1 = true := (haltOf_escalate s d c).trans h
    generalize s.escalate d c = r at h ⊢
    obtain ⟨s, c, esc⟩ := r
    replace h : haltOf s = true := h
    cases c <;>
      simp only [apply_ite haltOf, haltOf_halt, haltOf_zeroise, haltOf_log, haltOf_count, haltOf_bin, haltOf_intSet, haltOf_typeBit,
        haltOf_lateAdd, haltOf_setReg64, haltOf_setReg, haltOf_capture, ite_self, h]

theorem event_keepsHalt (d : Det) (c : EClass) : haltOf (s.event d c) = true := by
  unfold State.event
  split
  · exact h
  · split
    · refine record_keepsHalt ?_ d c
      exact (haltOf_bin _ _).trans (record_keepsHalt h _ _)
    · exact record_keepsHalt h d c

theorem raise_keepsHalt (ty inst src lo hi : Nat) : haltOf (s.raise ty inst src lo hi) = true := by
  unfold State.raise
  split
  · exact event_keepsHalt h _ _
  · exact h

theorem oneEvent_keepsHalt (d : Det) : haltOf (s.oneEvent d) = true := by
  unfold State.oneEvent
  split
  · exact h
  · have hh : s.halted = true := h
    simp only [hh, if_true]
    split
    · exact h
    · exact event_keepsHalt h _ _

theorem events_keepsHalt (l : List Det) : haltOf (s.events l) = true :=
  (haltOf_countN _ _ _ _).trans (foldl_keepsHalt h (fun _ d hs => oneEvent_keepsHalt hs d) _)

theorem logAppend_keepsHalt (torn : Option Bytes) : haltOf (s.logAppend torn) = true := by
  unfold State.logAppend
  dsimp only
  split
  · exact h
  · split
    · refine raise_keepsHalt ?_ _ _ _ _ _
      exact (haltOf_logProgram _ _).trans h
    · exact (haltOf_logProgram _ _).trans h

theorem tamperEvent_keepsHalt (i : Nat) : haltOf (s.tamperEvent i) = true := by
  unfold State.tamperEvent
  dsimp only
  split
  · simp only [haltOf_batterySlot, apply_ite haltOf, haltOf_lcs, ite_self, h]
  · refine raise_keepsHalt ?_ _ _ _ _ _
    simp only [haltOf_logPut, apply_ite haltOf, haltOf_intSet, haltOf_count, ite_self, h]

theorem tamperSample_keepsHalt (conds tin : Nat) : haltOf (s.tamperSample conds tin) = true := by
  unfold State.tamperSample
  extract_lets v v now mask run was fire held sInt lcs t
  have hInt : haltOf sInt = true := by simp only [sInt, apply_ite haltOf, haltOf_intSet, ite_self, h]
  have ht : haltOf t = true := hInt
  exact foldl_keepsHalt ((haltOf_supersede t fire).trans ht) (fun _ i hs => tamperEvent_keepsHalt hs i) fire

theorem fastDetect_keepsHalt (i : Nat) : haltOf (s.fastDetect i) = true := by
  unfold State.fastDetect
  extract_lets lcs t
  have ht : haltOf t = true := h
  simp only [apply_ite haltOf, tamperEvent_keepsHalt ht, h, ht, ite_self]

/-- A write that finds the device halted is one of those that R444 lets through. -/
theorem writeReg_keepsHalt (master k v : Nat) (data : Bytes) : haltOf (s.writeReg master k v data) = true := by
  have hh : s.halted = true := h
  unfold State.writeReg
  simp only [hh, if_true, Bool.not_true, Bool.and_false, Bool.false_eq_true, if_false, apply_ite haltOf, haltOf_haltWrite, h, ite_self]

theorem loRead_keepsHalt (master addr cycle : Nat) : haltOf (s.loRead master addr cycle) = true := by
  unfold State.loRead
  split
  · exact h
  · exact (haltOf_readReg _ _ _).trans ((haltOf_advanceTo s _).trans h)

theorem readAll_keepsHalt (a : Nat) (l : List Nat) (shown : List Nat) :
    haltOf (l.foldl (fun (p : State × List Nat) i => ((p.1.readReg 0 (a + 4 * i)).1, p.2 ++ [(p.1.readReg 0 (a + 4 * i)).2])) (s, shown)).1 = true := by
  induction l generalizing s shown with
  | nil => exact h
  | cons i l ih => exact ih ((haltOf_readReg s 0 _).trans h) _

theorem timeStepBack_keepsHalt : haltOf s.timeStepBack = true := by
  unfold State.timeStepBack
  simp only [haltOf_lcs, haltOf_logPut]
  exact event_keepsHalt ((haltOf_count s _ _).trans h) _ _

theorem countUpdate_keepsHalt (j : Nat) : haltOf (s.countUpdate j) = true := by
  unfold State.countUpdate
  extract_lets m oldE e wrote tm t sFwd
  have back (m e : Nat) : haltOf (t.setCount m e).timeStepBack = true :=
    timeStepBack_keepsHalt ((haltOf_setCount t m e).trans ((haltOf_tm s _).trans h))
  simp only [sFwd, t, apply_ite haltOf, haltOf_count, haltOf_setCount, haltOf_tm, back, h, ite_self]

theorem countStart_keepsHalt (j : Nat) : haltOf (s.countStart j) = true := by
  unfold State.countStart
  dsimp only
  split
  · refine timeStepBack_keepsHalt ?_
    simp only [haltOf_setCount, haltOf_tm, h]
  · simp only [haltOf_setCount, haltOf_tm, h]

theorem porAssert_keepsHalt : haltOf s.porAssert = true := by
  have hh : s.halted = true := h
  unfold State.porAssert
  rw [if_pos hh]
  exact (haltOf_unlockEnd _).trans ((haltOf_lcs s _).trans h)

/-- A loss of the supplies that leaves VDD_CORE up keeps the halt through its cold reset. -/
theorem supplyLoss_keepsHalt (torn : Option Bytes) : haltOf (s.supplyLoss false torn) = true := by
  have hh : s.halted = true := h
  unfold State.supplyLoss
  split
  · exact h
  · simp only [haltOf, hh, Bool.not_false, Bool.and_true]

/-- A halted device's power-on sequence stops before its first step. -/
theorem powerOn_keepsHalt (array : List Word) (navBad katBad : List (Nat × Nat)) (drbg : Bool) (hbmBad pllBad : List Nat) :
    haltOf (s.powerOn array navBad katBad drbg hbmBad pllBad) = true := by
  have hh : s.halted = true := h
  unfold State.powerOn
  split
  · exact h
  · dsimp only
    rw [if_pos hh]
    exact (haltOf_lcs s _).trans h

/-- The boundary of time, which a halted device still has, ends no halt. -/
theorem timeBoundary_keepsHalt : haltOf s.timeBoundary = true := by
  unfold State.timeBoundary
  extract_lets sAdv bump a b sBump tmNew sNew tmGap sGap sCount t0 sAdj sTake sInv sSlew t1 sSwitch sEnd j sStart vbat lcs tmPend sPend tmLen
  have hAdv : haltOf sAdv = true := (haltOf_advanceTo s _).trans h
  clear_value sAdv
  have hBump : haltOf sBump = true := by simp only [sBump, haltOf_setDom, hAdv]
  clear_value sBump
  have hNew : haltOf sNew = true := (haltOf_tm sBump _).trans hBump
  clear_value sNew
  have hGap : haltOf sGap = true := (haltOf_tm sNew _).trans hNew
  clear_value sGap
  have hCount : haltOf sCount = true := by simp only [sCount, apply_ite haltOf, countUpdate_keepsHalt hGap, hGap, ite_self]
  clear_value sCount
  have hTake : haltOf sTake = true := by simp only [sTake, sAdj, haltOf_lineTake, haltOf_setDom, hCount]
  clear_value sTake
  have hInv : haltOf sInv = true := by
    simp only [sInv, apply_ite haltOf, haltOf_setFlag, raise_keepsHalt hTake, hTake, ite_self]
  clear_value sInv
  have hEnd : haltOf sEnd = true := by simp only [sEnd, sSwitch, sSlew, haltOf_lineTake, haltOf_switchEval, haltOf_slewStep, hInv]
  clear_value sEnd
  split
  · split
    · simp only [sStart, haltOf_highWater, haltOf_planTick, countStart_keepsHalt hEnd]
    · have hPend : haltOf sPend = true := by
        simp only [sPend]
        split
        · exact (haltOf_tm_lcs _ _ _).trans hEnd
        · exact hEnd
      exact (haltOf_tm _ _).trans hPend
  · simp only [haltOf_highWater, haltOf_planTick, hEnd]

end

/-- The end of a command's effect keeps a halt. -/
theorem halted_of_done {s t u : State} (h : haltOf u = true) (e : Host.Outcome.next (s.done u) = (.next t : Host.Outcome State Fault Refusal)) :
    t.halted = true := by
  cases e
  exact h

/-- A command that acts always, and keeps a halt. -/
theorem halted_of_always {s t : State} {f : State → State} (hf : haltOf (f s) = true) (e : always s f = .next t) : t.halted = true :=
  halted_of_done hf e

/-- A command that acts with the supplies present, and keeps a halt. -/
theorem halted_of_powered {s t : State} {f : State → State} (h : s.halted = true) (hf : haltOf (f s) = true) (e : powered s f = .next t) :
    t.halted = true := by
  unfold powered at e
  split at e
  · cases e
    exact h
  · exact halted_of_done hf e

/-- Settles O22: a live command does nothing in a halt; of the sixteen that act there only the two named end it. -/
theorem onlyAPowerCycleEndsAHalt : Obligations.OnlyAPowerCycleEndsAHalt := by
  intro c s t e hs
  have h : haltOf s = true := hs
  have hAdv (n : Nat) : haltOf (s.advanceTo n) = true := (haltOf_advanceTo s n).trans h
  by_cases hc : ActsHalted c
  swap
  · rw [(haltedDeviceIgnoresCommands).1 c s hs hc] at e
    cases e
    exact .inl hs
  cases c with
  | registerWrite addr v be cycle data =>
    unfold exec execRegisterWrite at e
    refine .inl (halted_of_powered hs ?_ e)
    simp only [apply_ite haltOf, writeReg_keepsHalt (hAdv _), hAdv, haltOf_count, ite_self]
  | multiRegisterRequest write addr n words cycle data =>
    unfold exec execMultiRegisterRequest at e
    refine .inl (halted_of_powered hs ?_ e)
    dsimp only
    split
    · exact foldl_keepsHalt (hAdv _) (fun _ k h => writeReg_keepsHalt h _ _ _ _) _
    · exact readAll_keepsHalt (hAdv _) _ _ _
  | loRegisterRead master addr cycle => exact .inl (halted_of_powered (f := fun s => s.loRead (master % 64) addr cycle) hs (loRead_keepsHalt h _ _ _) e)
  | tickBoundary =>
    unfold exec execTickBoundary at e
    refine .inl (halted_of_powered hs ?_ e)
    simp only [hs, if_true, timeBoundary_keepsHalt h]
  | errEvent evs =>
    unfold exec execErrEvent at e
    refine .inl (halted_of_always ?_ e)
    simp only [apply_ite haltOf, haltOf_cellEvents, events_keepsHalt h, h, ite_self]
  | escWindowClose ty inst src =>
    exact .inl (halted_of_powered (f := (State.winClose · ty inst src)) hs ((haltOf_winClose s _ _ _).trans h) e)
  | errCaptureRelease ty inst =>
    exact .inl (halted_of_powered (f := (State.ovfWrite · ty inst (2 ^ 31))) hs ((haltOf_ovfWrite s _ _ _).trans h) e)
  | severeClear hi v =>
    unfold exec execSevereClear at e
    exact .inl (halted_of_powered hs ((haltOf_plainWrite s _ _).trans h) e)
  | logbookAppend torn => exact .inl (halted_of_powered (f := (State.logAppend · torn)) hs (logAppend_keepsHalt h _) e)
  | powerOnSequence a nav kat drbg hbm pll =>
    exact .inl (halted_of_always (f := (State.powerOn · a nav kat drbg hbm pll)) (powerOn_keepsHalt h _ _ _ _ _ _) e)
  | porAssert => exact .inl (halted_of_always (f := State.porAssert) (porAssert_keepsHalt h) e)
  | powerCycle torn => exact .inr (.inl ⟨_, rfl⟩)
  | supplyLoss core torn =>
    cases core with
    | true => exact .inr (.inr ⟨_, rfl⟩)
    | false => exact .inl (halted_of_always (f := (State.supplyLoss · false torn)) (supplyLoss_keepsHalt h torn) e)
  | vbatLoss => exact .inl (halted_of_always (f := State.vbatLoss) ((haltOf_vbatLoss s).trans h) e)
  | tamperSample conds tin =>
    exact .inl (halted_of_always (f := (State.tamperSample · (conds % 1024) (tin % 16))) (tamperSample_keepsHalt h _ _) e)
  | tamperFastDetect k => exact .inl (halted_of_always (f := (State.fastDetect · (k % 2))) (fastDetect_keepsHalt h _) e)
  | _ => exact absurd hc id

end Sys2Proof.Proofs

/-! PROOF. The family of 16_binnacle_faults.md: one detected error, injected errors, the clears, and the record of an event (R435 to
R450). -/

namespace Sys2Proof.Proofs

open Sys2Proof.Machine Sys2Proof.Laws

/-! ## The events of one cycle, where there is one (R435, R442) -/

section
variable {s : State} {d : Det}

theorem eventOrder_single (s : State) (d : Det) : s.eventOrder [d] = [d] := by
  have h : oneEach [d] = [d] := by
    cases hf : d.forced <;> simp [oneEach, hf]
  rw [State.eventOrder, h, List.mergeSort_singleton]

theorem eventOrder_nil (s : State) : s.eventOrder [] = [] := List.mergeSort_nil

/-- A response alone supersedes none. -/
theorem superseded_single (s : State) (d : Det) : s.superseded [d] = 0 := by
  have hr : s.rankOf d ≤ 5 := by
    unfold State.rankOf
    split
    · split <;> decide
    · split <;> decide
  simp [State.superseded, Nat.min_eq_right hr]

theorem superseded_nil (s : State) : s.superseded [] = 0 := rfl

/-- One detection of a page that is present, in a device that runs, is its event and the effect listed for it. -/
theorem events_single {c : EClass} (hs : s.halted = false) (hp : s.present d.ty d.inst = true) (hc : defaultClass d.ty d.src = some c) :
    s.events [d] = (s.event d c).errEffect d := by
  have hl : [d].filter (fun d => s.present d.ty d.inst && (defaultClass d.ty d.src).isSome) = [d] := by simp [hp, hc]
  have h1 : s.oneEvent d = (s.event d c).errEffect d := by simp [State.oneEvent, hc, hp, hs]
  simp only [State.events, hl, eventOrder_single, superseded_single, ite_self, List.foldl_cons, List.foldl_nil, h1]
  rfl

/-- A detection of an absent page is none. -/
theorem events_absent (hp : s.present d.ty d.inst = false) : s.events [d] = s := by
  have hl : [d].filter (fun d => s.present d.ty d.inst && (defaultClass d.ty d.src).isSome) = [] := by simp [hp]
  simp only [State.events, hl, eventOrder_nil, superseded_nil, ite_self, List.foldl_nil]
  rfl

end

/-! ## A word with one bit -/

theorem bitOf_two_pow (i j : Nat) : bitOf (2 ^ i) j = decide (i = j) := by
  rw [bitOf_eq_testBit, Nat.testBit_two_pow]

/-- The one index of a range that a test picks. -/
theorem filterMap_range_one {α : Type} {g : Nat → α} {i n : Nat} (hi : i < n) :
    (List.range n).filterMap (fun j => if i = j then some (g j) else none) = [g i] := by
  induction n with
  | zero => exact absurd hi (Nat.not_lt_zero i)
  | succ n ih =>
    rw [List.range_succ, List.filterMap_append]
    rcases Nat.lt_or_eq_of_le (Nat.le_of_lt_succ hi) with h | rfl
    · simp [ih h, Nat.ne_of_lt h]
    · have none : (List.range i).filterMap (fun j => if i = j then some (g j) else none) = [] := by
        refine List.filterMap_eq_nil_iff.2 fun j hj => if_neg ?_
        exact (Nat.ne_of_lt (List.mem_range.1 hj)).symm
      simp [none]

/-- A word with bit i alone names source i alone. -/
theorem errForce_bit (s : State) {ty inst i : Nat} {c : EClass} (h0 : 0 < i) (hi : i < 32) (hc : defaultClass ty i = some c) :
    s.errForce ty inst (2 ^ i) = s.events [⟨ty, inst, i, 0, 0, true, none⟩] := by
  have e : (fun j => if j != 0 && bitOf (2 ^ i) j && (defaultClass ty j).isSome then some (⟨ty, inst, j, 0, 0, true, none⟩ : Det) else none) =
      fun j => if i = j then some ⟨ty, inst, j, 0, 0, true, none⟩ else none := by
    funext j
    by_cases h : i = j
    · subst h
      simp [bitOf_two_pow, hc, Nat.ne_of_gt h0]
    · simp [bitOf_two_pow, h]
  unfold State.errForce
  rw [e, filterMap_range_one hi]

/-! ## The clears (R437, R438, R443, R450) -/

/-- A window closes at its closing boundary or after it. -/
theorem winClose_found {s : State} {ty inst src : Nat} {w : EscWin} (h : s.bin.wins.find (pageKey ty inst * 32 + src) = some w) :
    s.winClose ty inst src =
      if w.closes ≤ s.tm.tickNo then { s with bin := { s.bin with wins := s.bin.wins.erase (pageKey ty inst * 32 + src) } } else s := by
  simp only [State.winClose, h]

section
variable {s : State} {ty inst : Nat}

/-- The bits of ERR_OVF that were set in this cycle. -/
def ovfNew (s : State) (ty inst : Nat) : Nat :=
  s.reg (Reg.ERR_OVF ty) inst &&& (0xFFFFFFFF ^^^ (s.seen.getD resetAt ((Reg.ERR_OVF ty).at inst)).toNat)

/-- The state of a release once ERR_OVF has kept the bits it did not clear. -/
def ovfKept (s : State) (ty inst : Nat) : State :=
  s.setReg (Reg.ERR_OVF ty) inst ((s.reg (Reg.ERR_OVF ty) inst &&& 0xFFFFFFFF) ||| (ovfNew s ty inst &&& 3))

theorem bitOf_release : bitOf (2 ^ 31) 31 = true := rfl

/-- A capture of this very cycle is not released. -/
theorem ovfWrite_release_new (hp : s.present ty inst = true) (h : bitOf (ovfNew s ty inst) 31 = true) :
    s.ovfWrite ty inst (2 ^ 31) = ovfKept s ty inst := by
  unfold ovfNew at h
  simp only [State.ovfWrite, hp, h, bitOf_release, Bool.not_true, Bool.false_eq_true, if_false, Bool.false_or, if_true]
  rfl

/-- With no event of the same cycle waiting, a release empties the capture. -/
theorem ovfWrite_release_old (hp : s.present ty inst = true) (h : bitOf (ovfNew s ty inst) 31 = false)
    (hl : (s.lateOf (pageKey ty inst)).n = 0) : s.ovfWrite ty inst (2 ^ 31) = (ovfKept s ty inst).captRelease ty inst := by
  have hl' (v : Nat) : ((s.setReg (Reg.ERR_OVF ty) inst v).lateOf (pageKey ty inst)).n = 0 := hl
  unfold ovfNew at h
  simp only [State.ovfWrite, hp, h, bitOf_release, Bool.not_true, Bool.false_eq_true, if_false, Bool.false_or, hl', beq_self_eq_true, if_true]
  rfl

end

/-- The two SEVERE words are one write-one-to-clear field each. -/
theorem regSpec_severe (hi : Bool) : regSpec Ty.BIN (if hi then Reg.BIN_SEVERE_HI else Reg.BIN_SEVERE_LO).off = some
    ⟨(if hi then Reg.BIN_SEVERE_HI else Reg.BIN_SEVERE_LO).off, 1, 4, [⟨0, 32, .w1c, 0, 0, 2 ^ 32 - 1, 1, 0, 0⟩]⟩ := by
  cases hi <;> rfl

theorem and_xor_self_of_lt {x : Nat} (h : x < 2 ^ 32) : x &&& (0xFFFFFFFF ^^^ x) = 0 := by
  refine Nat.eq_of_testBit_eq fun i => ?_
  have hm : (0xFFFFFFFF : Nat).testBit i = decide (i < 32) := Nat.testBit_two_pow_sub_one 32 i
  rw [Nat.testBit_and, Nat.testBit_xor, hm, Nat.zero_testBit]
  by_cases hi : i < 32
  · cases x.testBit i <;> simp [hi]
  · rw [Nat.testBit_lt_two_pow (Nat.lt_of_lt_of_le h (Nat.pow_le_pow_right (by decide) (Nat.le_of_not_lt hi)))]
    rfl

/-- Where no bit was set in this cycle a plain write of a 32-bit write-one-to-clear word clears the bits written 1. -/
theorem plainWrite_w1c {s : State} {r : RegId} {i : Nat} (ht : i < 256) (ho : r.off < 4096)
    (hp : s.present r.ty i = true) (hr : regSpec r.ty r.off = some ⟨r.off, 1, 4, [⟨0, 32, .w1c, 0, 0, 2 ^ 32 - 1, 1, 0, 0⟩]⟩)
    (h14 : r.off ≠ 0x014) (h18 : r.off ≠ 0x018) (h34 : r.off ≠ 0x034) (h1c : r.off ≠ 0x01C)
    (hs : s.seen.getD resetAt (r.at i) = s.rd (r.at i)) (v : Word) :
    s.plainWrite (r.at i) v.toNat = s.wr (r.at i) (s.rd (r.at i) &&& ~~~ v) := by
  have hold : (s.rd (r.at i)).toNat < 2 ^ 32 := (s.rd (r.at i)).isLt
  have hjust : s.justSet (r.at i) [⟨0, 32, .w1c, 0, 0, 2 ^ 32 - 1, 1, 0, 0⟩] = 0 := by
    simp [State.justSet, hs, and_xor_self_of_lt hold, bitsOf]
  have hv : v.toNat &&& (0xFFFFFFFF ^^^ 0) = v.toNat := by
    rw [Nat.xor_zero, ← Nat.mod_eq_of_lt v.isLt]
    exact (Nat.and_two_pow_sub_one_eq_mod _ 32).trans (Nat.mod_mod _ _)
  have hnew : BitVec.ofNat 32 (writtenWord [⟨0, 32, .w1c, 0, 0, 2 ^ 32 - 1, 1, 0, 0⟩] (s.rwo.get false (r.at i) == false)
      (s.rd (r.at i)).toNat v.toNat) = s.rd (r.at i) &&& ~~~ v := by
    refine BitVec.eq_of_toNat_eq ?_
    rw [BitVec.toNat_and, BitVec.toNat_not]
    simp only [writtenWord, List.foldl_cons, List.foldl_nil, FieldSpec.write, setBitsOf, bitsOf, Nat.pow_zero, Nat.div_one, Nat.mul_one,
      BitVec.toNat_ofNat, Nat.mod_eq_of_lt hold, Nat.mod_eq_of_lt v.isLt, Nat.sub_self, Nat.zero_add, Nat.mod_mod]
    exact Nat.mod_eq_of_lt (Nat.lt_of_le_of_lt Nat.and_le_left hold)
  unfold State.plainWrite
  have kt : keyTy (r.at i) = r.ty := keyTy_regKey ht ho
  have ki : keyInst (r.at i) = i := keyInst_regKey ht ho
  have ko : keyOff (r.at i) = r.off := keyOff_regKey ho
  simp only [kt, ki, ko, hp, hr, Bool.not_true, Bool.false_eq_true, if_false, h14, h18, h34, h1c, beq_iff_eq, Bool.or_eq_true, or_self, hjust,
    hv, hnew, RegSpec.hasRwo, List.any_cons, List.any_nil, Bool.or_false, reduceCtorEq]

/-- Settles O23, one lemma a command. -/
theorem errorEventsAndTheirClears : Obligations.ErrorEventsAndTheirClears := by
  intro s hr
  obtain ⟨hh, ho⟩ := hr
  have event {d : Det} {t : State} (q : s.events [{ d with forced := false }] = t) : Gives (.errEvent [d]) s t := by
    simp only [Gives, exec, execErrEvent, always, ho, Bool.false_eq_true, if_false, List.map_cons, List.map_nil, q]
  have severe {hi : Bool} {v : Word} {t : State} (q : s.plainWrite ((if hi then Reg.BIN_SEVERE_HI else Reg.BIN_SEVERE_LO).at 0) v.toNat = t) :
      Gives (.severeClear hi v) s t :=
    Gives.of_powered (fun s => s.plainWrite ((if hi then Reg.BIN_SEVERE_HI else Reg.BIN_SEVERE_LO).at 0) v.toNat) ho rfl q
  have hbin : s.present Ty.BIN 0 = true := by
    unfold State.present
    cases s.part <;> rfl
  refine ⟨fun d c hp hc => event (events_single hh hp hc), fun d hp => event (events_absent hp), fun ty inst i c hp hsec h0 hi hc => ?_,
    fun ty inst src w hw => ?_, fun ty inst hp => ?_, fun v hs => ?_, fun v hs => ?_, ?_⟩
  · refine Gives.of_live (fun s => if s.secondary ty inst 0x030 then s else s.errForce ty inst (BitVec.ofNat 32 (2 ^ i)).toNat) ⟨hh, ho⟩ rfl ?_
    rw [BitVec.toNat_ofNat, Nat.mod_eq_of_lt (Nat.pow_lt_pow_right (by decide) hi), hsec, errForce_bit s h0 hi hc]
    exact events_single hh hp hc
  · exact Gives.of_powered (State.winClose · ty inst src) ho rfl (winClose_found hw)
  · extract_lets old new s1
    have release {t : State} (q : s.ovfWrite ty inst (2 ^ 31) = t) : Gives (.errCaptureRelease ty inst) s t :=
      Gives.of_powered (State.ovfWrite · ty inst (2 ^ 31)) ho rfl q
    exact ⟨fun hn => release (ovfWrite_release_new hp hn), fun hn hx => release (ovfWrite_release_old hp hn hx)⟩
  · exact severe (plainWrite_w1c (r := Reg.BIN_SEVERE_LO) (by decide) (by decide) hbin (regSpec_severe false) (by decide) (by decide) (by decide)
      (by decide) hs v)
  · exact severe (plainWrite_w1c (r := Reg.BIN_SEVERE_HI) (by decide) (by decide) hbin (regSpec_severe true) (by decide) (by decide) (by decide)
      (by decide) hs v)
  · refine Gives.of_live State.firstCtl ⟨hh, ho⟩ rfl ?_
    simp only [State.firstCtl, beq_iff_eq]
    rfl

/-! ## The record of an event (R438, R444, R450) -/

/-- A page that the response to an event writes, beside the event's own: the Binnacle's, the Logbook's, TAMP's counters and HEALTH. -/
def Responds (ty : Nat) : Prop := ty = Ty.BIN ∨ ty = Ty.LCS ∨ ty = Ty.TAMP ∨ ty = Ty.PAIR

/-- A register of such a page. -/
def Response (r : RegId) : Prop := Responds r.ty ∧ r.off < 4000

/-- An address on no such page. -/
def Aside (k : Nat) : Prop := ¬ Responds (keyTy k)

section
variable {k : Nat} (h : Aside k) (s : State)
include h

theorem rd_wr_aside {ty off : Nat} (ht : Responds ty) (ho : off < 4096) (v : Word) : (s.wr (regKey ty 0 off) v).rd k = s.rd k := by
  refine rd_wr_ne s (fun e => h ?_) v
  rwa [e, keyTy_regKey (by decide) ho]

theorem rd_setReg_aside {r : RegId} (hr : Response r) (v : Nat) : (s.setReg r 0 v).rd k = s.rd k :=
  rd_wr_aside h s hr.1 (Nat.lt_trans hr.2 (by decide)) _

theorem rd_setReg64_aside {r : RegId} (hr : Response r) (v : Nat) : (s.setReg64 r 0 v).rd k = s.rd k := by
  obtain ⟨ht, ho⟩ := hr
  rw [State.setReg64, at_add, rd_wr_aside h _ ht (by omega)]
  exact rd_wr_aside h s ht (by omega) _

theorem rd_typeBit_aside {r : RegId} (hr : Response r) {ty : Nat} (hty : ty < 256) : (s.typeBit r ty).rd k = s.rd k := by
  obtain ⟨ht, ho⟩ := hr
  rw [State.typeBit, State.setRegI, at_add]
  exact rd_wr_aside h s ht (by omega) _

theorem rd_intSet_aside {ty : Nat} (ht : Responds ty) (b : Nat) : (s.intSet ty 0 b).rd k = s.rd k :=
  rd_setReg_aside h s (r := Reg.INT_STS ty) ⟨ht, Nat.le_of_ble_eq_true rfl⟩ _

theorem rd_countN_aside {r : RegId} (hr : Response r) (n : Nat) : (s.countN r 0 n).rd k = s.rd k := by
  unfold State.countN State.intOpt
  split
  · rfl
  · split
    · exact (rd_intSet_aside h _ hr.1 _).trans (rd_setReg_aside h s hr _)
    · exact rd_setReg_aside h s hr _

theorem rd_count_aside {r : RegId} (hr : Response r) : (s.count r 0).rd k = s.rd k := rd_countN_aside h s hr 1

theorem rd_setFld_aside {f : FldId} (hr : Response ⟨f.ty, f.off⟩) (v : Nat) : (s.setFld f 0 v).rd k = s.rd k :=
  rd_wr_aside h s hr.1 (Nat.lt_trans hr.2 (by decide)) _

theorem rd_logPut_aside (e : Bytes) : (s.logPut e).rd k = s.rd k := by
  rcases logPut_cases s e with ⟨_, q⟩ | ⟨_, q⟩ <;> rw [q]
  · rfl
  · exact rd_count_aside h s ⟨.inr (.inl rfl), by decide⟩

theorem rd_log_aside (code cls ty inst src detail : Nat) : (s.log code cls ty inst src detail).rd k = s.rd k := rd_logPut_aside h s _

omit h in
theorem rd_bin (x : BinS) : ({ s with bin := x } : State).rd k = s.rd k := (rfl)

omit h in
theorem rd_halted (b : Bool) : ({ s with halted := b } : State).rd k = s.rd k := (rfl)

omit h in
theorem rd_lateAdd (j w lo hi : Nat) : (s.lateAdd j w lo hi).rd k = s.rd k := rd_bin s _

theorem rd_zeroise_aside : s.zeroise.rd k = s.rd k := by
  unfold State.zeroise
  dsimp only
  rw [rd_countN_aside h _ ⟨.inl rfl, by decide⟩, rd_count_aside h _ ⟨.inr (.inr (.inl rfl)), by decide⟩]
  rfl

theorem rd_halt_aside (d : Det) (c : EClass) (e : Bool) : (s.halt d c e).rd k = s.rd k := by
  unfold State.halt
  split
  · rfl
  · rw [rd_setFld_aside h _ ⟨.inr (.inr (.inr rfl)), by decide⟩, rd_halted, rd_countN_aside h _ ⟨.inl rfl, by decide⟩, State.log,
      rd_logPut_aside h, rd_setReg64_aside h _ ⟨.inl rfl, by decide⟩, rd_setReg_aside h _ ⟨.inl rfl, by decide⟩]

end

/-- A count leaves every register but its own and its page's flags. -/
theorem rd_count_ne {s : State} {k i : Nat} {r : RegId} (h : k ≠ r.at i) (h' : k ≠ (Reg.INT_STS r.ty).at i) : (s.count r i).rd k = s.rd k := by
  unfold State.count State.countN State.intOpt
  split
  · rfl
  · split
    · exact (rd_wr_ne _ h' _).trans (rd_wr_ne s h _)
    · exact rd_wr_ne s h _

section
variable {s : State} {d : Det} (hp : s.present d.ty d.inst = true) (c : EClass)
include hp

/-- After its capture an event writes its page's count and flags, and the pages that the response writes. -/
theorem rd_record_aside {k : Nat} (h : Aside k) (hc : k ≠ (Reg.ERR_COUNT d.ty).at d.inst) (hi : k ≠ (Reg.INT_STS d.ty).at d.inst) :
    (s.record d c).rd k = ((s.escalate d c).1.capture d (s.escalate d c).2.1 (s.escalate d c).2.2).rd k := by
  obtain ⟨hty, -⟩ := present_lt hp
  unfold State.record
  rw [if_neg (by simp [hp])]
  generalize s.escalate d c = r
  obtain ⟨s, c, esc⟩ := r
  have ofBin {r : RegId} (e : r.ty = Ty.BIN ∧ r.off < 4000) : Response r := ⟨.inl e.1, e.2⟩
  have counted (p : Bool) (t : State) {r : RegId} (e : r.ty = Ty.BIN ∧ r.off < 4000) : (if p then t.count r 0 else t).rd k = t.rd k := by
    cases p
    · rfl
    · exact rd_count_aside h t (ofBin e)
  have marked (t : State) {r : RegId} (e : r.ty = Ty.BIN ∧ r.off < 4000) (b : Nat) : ((t.typeBit r d.ty).intSet Ty.BIN 0 b).rd k = t.rd k :=
    (rd_intSet_aside h _ (.inl rfl) b).trans (rd_typeBit_aside h t (ofBin e) hty)
  dsimp -zeta only
  extract_lets was s1 s2 s3 s4 b4 s5 s6 s7 s8 s9 b9 s9' s10 s11
  have h2 : s2.rd k = s1.rd k := rd_count_ne hc hi
  have h3 : s3.rd k = s2.rd k := marked s2 (by decide) 1
  have h4 : s4.rd k = s3.rd k := by
    simp only [s4]
    split
    · rfl
    · exact (rd_setReg64_aside h _ (ofBin (by decide)) _).trans (rd_setReg_aside h s3 (ofBin (by decide)) _)
  have h5 : s5.rd k = s4.rd k := by cases c <;> exact rd_count_aside h _ (ofBin (by decide))
  have h6 : s6.rd k = s5.rd k := counted esc s5 (by decide)
  have h7 : s7.rd k = s6.rd k := counted _ s6 (by decide)
  have h8 : s8.rd k = s7.rd k := counted _ s7 (by decide)
  have h9 : s9.rd k = s8.rd k := by
    cases c with
    | notice | corrected => rfl
    | severe | fatal => exact marked s8 (by decide) 0
  have h10 : s10.rd k = s9.rd k := by
    cases c with
    | notice | corrected | fatal => rfl
    | severe =>
      simp only [s10]
      split
      · rfl
      · split
        · exact rd_log_aside h s9' _ _ _ _ _ _
        · rfl
  refine Eq.trans ?_ (h10.trans (h9.trans (h8.trans (h7.trans (h6.trans (h5.trans (h4.trans (h3.trans h2))))))))
  cases c with
  | notice | corrected | severe => rfl
  | fatal =>
    have h11 : s11.rd k = s10.rd k := rd_halt_aside h s10 _ _ _
    cases zeroises d
    · exact h11
    · exact (rd_zeroise_aside h s11).trans h11

/-- An event halts where its class is FATAL, and ends no halt. -/
theorem record_haltOf : haltOf (s.record d c) = (haltOf s || (s.escalate d c).2.1 == .fatal) := by
  rw [← haltOf_escalate s d c]
  unfold State.record
  rw [if_neg (by simp [hp])]
  generalize s.escalate d c = r
  obtain ⟨s, c, esc⟩ := r
  cases c <;>
    simp only [apply_ite haltOf, haltOf_halt, haltOf_zeroise, haltOf_log, haltOf_count, haltOf_bin, haltOf_intSet, haltOf_typeBit, haltOf_lateAdd,
      haltOf_setReg64, haltOf_setReg, haltOf_capture, ite_self, beq_self_eq_true, Bool.or_true] <;>
    exact (Bool.or_false _).symm

end

/-- A halt leaves HEALTH 0. -/
theorem halt_health {s : State} (h : s.halted = false) (d : Det) (c : EClass) (e : Bool) :
    (s.halt d c e).fld Reg.PAIR_STS_HEALTH 0 = 0 := by
  unfold State.halt
  rw [if_neg (by simp [h])]
  exact fld_setFld_self _ _ _ _ _ (by decide)

/-- A FATAL event whose response is no ZEROISE leaves HEALTH 0. -/
theorem record_fatal_health {s : State} {d : Det} (hp : s.present d.ty d.inst = true) (hz : zeroises d = false) (hs : s.halted = false)
    (he : (s.escalate d .fatal).2.1 = .fatal) : (s.record d .fatal).fld Reg.PAIR_STS_HEALTH 0 = 0 := by
  have h : haltOf (s.escalate d .fatal).1 = false := (haltOf_escalate s d .fatal).trans hs
  unfold State.record
  rw [if_neg (by simp [hp])]
  generalize s.escalate d .fatal = r at h he ⊢
  obtain ⟨s, c, esc⟩ := r
  obtain rfl : c = .fatal := he
  simp only [hz, Bool.false_eq_true, if_false]
  refine halt_health ?_ _ _ _
  rw [← haltOf_eq]
  simp only [apply_ite haltOf, haltOf_count, haltOf_bin, haltOf_intSet, haltOf_typeBit, haltOf_lateAdd, haltOf_setReg64, haltOf_setReg,
    haltOf_capture, ite_self]
  exact h

/-- With no window open and ESC_N 0 an event that is merged into nothing keeps its class. -/
theorem escalate_off {s : State} {d : Det} (hd : d.into = none) (hw : s.openWin d = none)
    (hn : bitsOf (s.reg (Reg.ERR_CLASS_CFG d.ty) d.inst) 0 8 = 0) (c : EClass) : s.escalate d c = (s, c, false) := by
  simp [State.escalate, hd, hw, hn]

/-! ### The capture of a page (R438) -/

/-- The word of ERR_FIRST. -/
def firstWord (s : State) (d : Det) (c : EClass) : Nat :=
  d.src % 256 + c.code * 256 + (if d.forced then 2048 else 0) + 2 ^ 15 + s.errTick % 2 ^ 16 * 2 ^ 16

theorem firstWord_lt (s : State) (d : Det) (c : EClass) : firstWord s d c < 2 ^ 32 := by
  have hc : c.code ≤ 3 := by cases c <;> decide
  unfold firstWord
  split <;> omega

theorem at_ne_of_off {q r : RegId} (i : Nat) (ht : q.ty = r.ty) (h : q.off ≠ r.off) : q.at i ≠ r.at i := by
  simp only [RegId.at, regKey, ht]
  omega

section
variable {s : State} {d : Det} (c : EClass)

/-- A free capture takes the event. -/
theorem capture_free (h : bitOf (s.reg (Reg.ERR_FIRST d.ty) d.inst) 15 = false) :
    let t := s.capture d c false
    t.reg (Reg.ERR_FIRST d.ty) d.inst = firstWord s d c ∧
    t.reg (Reg.ERR_CAPTURE_LO d.ty) d.inst = (if d.forced then 0 else d.capLo) % 2 ^ 32 ∧
    t.reg (Reg.ERR_CAPTURE_HI d.ty) d.inst = (if d.forced then 0 else d.capHi) % 2 ^ 32 := by
  have ne (a b : Nat) (hab : a ≠ b) (t : State) (v : Nat) : (t.setReg ⟨d.ty, b⟩ d.inst v).reg ⟨d.ty, a⟩ d.inst = t.reg ⟨d.ty, a⟩ d.inst :=
    reg_setReg_ne t (at_ne_of_off (q := ⟨d.ty, a⟩) (r := ⟨d.ty, b⟩) d.inst rfl hab) v
  unfold State.capture
  simp only [h, Bool.not_false, if_true]
  refine ⟨?_, ?_, ?_⟩
  · refine ((ne 0x20 0x2C (by decide) _ _).trans ((ne 0x20 0x28 (by decide) _ _).trans (ne 0x20 0x24 (by decide) _ _))).trans
      ((reg_setReg_self s _ _ _).trans (Eq.trans ?_ (Nat.mod_eq_of_lt (firstWord_lt s d c))))
    unfold firstWord
    cases d.forced <;> rfl
  · exact ((ne 0x24 0x2C (by decide) _ _).trans (ne 0x24 0x28 (by decide) _ _)).trans (reg_setReg_self _ _ _ _)
  · exact (ne 0x28 0x2C (by decide) _ _).trans (reg_setReg_self _ _ _ _)

/-- A capture that is taken keeps its first event, and marks OVF and, for a higher class, MORE_SEVERE. -/
theorem capture_held (hd : d.into = none) (h : bitOf (s.reg (Reg.ERR_FIRST d.ty) d.inst) 15 = true) :
    let t := s.capture d c false
    let o := setBitOf (s.reg (Reg.ERR_OVF d.ty) d.inst) 0 true
    t.reg (Reg.ERR_FIRST d.ty) d.inst = s.reg (Reg.ERR_FIRST d.ty) d.inst ∧
    t.reg (Reg.ERR_OVF d.ty) d.inst =
      (if bitsOf (s.reg (Reg.ERR_FIRST d.ty) d.inst) 8 2 < c.code then setBitOf o 1 true else o) % 2 ^ 32 := by
  unfold State.capture
  simp only [h, hd, Bool.not_true, Bool.false_eq_true, if_false, Option.isSome_none, decide_eq_true_eq]
  exact ⟨reg_setReg_ne s (at_ne_of_off (q := ⟨d.ty, 0x20⟩) (r := ⟨d.ty, 0x2C⟩) d.inst rfl (Nat.ne_of_beq_eq_false rfl)) _, reg_setReg_self s _ _ _⟩

end

theorem not_responds_ttx : ¬ Responds Ty.TTX := by
  unfold Responds
  decide

theorem bitOf_mod_two_pow {v i n : Nat} (h : i < n) : bitOf (v % 2 ^ n) i = bitOf v i := by
  rw [bitOf_eq_testBit, bitOf_eq_testBit, Nat.testBit_mod_two_pow]
  simp [h]

theorem bitOf_setBitOf (v i j : Nat) (b : Bool) : bitOf (setBitOf v i b) j = if j = i then b else bitOf v j := by
  unfold setBitOf
  by_cases h : j = i
  · subst h
    have e := bitOf_setBitsOf_in v j (if b then 1 else 0) (w := 1) (i := 0) (by decide)
    rw [Nat.add_zero] at e
    rw [e, if_pos rfl]
    cases b <;> rfl
  · rw [bitOf_setBitsOf_out _ _ (by omega), if_neg h]

/-- Settles O24: the words of the page's capture through the rest of the record, and what a FATAL event leaves. -/
theorem eventRecordsTheFirstAndHaltsOnFatal : Obligations.EventRecordsTheFirstAndHaltsOnFatal := by
  intro s t src capLo capHi forced c hp hlo hhi d hn hw
  have hd : d.into = none := rfl
  have he (c : EClass) : s.escalate d c = (s, c, false) := escalate_off hd hw hn c
  obtain ⟨-, ht⟩ := present_lt hp
  have word (off : Nat) (ho : off < 4096) (h1 : off ≠ 0x38) (h2 : off ≠ 0x14) : (s.record d c).reg ⟨Ty.TTX, off⟩ t = (s.capture d c false).reg ⟨Ty.TTX, off⟩ t := by
    have e := rd_record_aside (d := d) hp c (k := RegId.at ⟨Ty.TTX, off⟩ t) (by unfold Aside RegId.at; rw [keyTy_regKey ht ho]; exact not_responds_ttx)
      (at_ne_of_off t rfl h1) (at_ne_of_off t rfl h2)
    rw [he] at e
    exact congrArg BitVec.toNat e
  have first := word 0x20 (by decide) (by decide) (by decide)
  have lo := word 0x24 (by decide) (by decide) (by decide)
  have hi := word 0x28 (by decide) (by decide) (by decide)
  refine ⟨fun hf hh => ?_, fun hf => ?_, fun hc hh => ?_⟩
  · obtain ⟨h1, h2, h3⟩ := capture_free (d := d) c hf
    dsimp only [firstWord, d] at h1 h2 h3
    refine ⟨first.trans h1, lo.trans (h2.trans ?_), hi.trans (h3.trans ?_), ?_⟩
    · exact Nat.mod_eq_of_lt (by split <;> omega)
    · exact Nat.mod_eq_of_lt (by split <;> omega)
    · have e := record_haltOf (d := d) hp c
      rw [he, haltOf_eq, haltOf_eq, hh] at e
      rw [e]
      cases c <;> rfl
  · obtain ⟨h1, h2⟩ := capture_held (d := d) c hd hf
    have ovf := (word 0x2C (by decide) (by decide) (by decide)).trans h2
    refine ⟨first.trans h1, ?_, fun hc => ?_⟩
    · refine (congrArg (bitOf · 0) ovf).trans ((bitOf_mod_two_pow (by decide)).trans ?_)
      split <;> simp [bitOf_setBitOf]
    · refine (congrArg (bitOf · 1) ovf).trans ((bitOf_mod_two_pow (by decide)).trans ?_)
      rw [if_pos hc]
      simp [bitOf_setBitOf]
  · subst hc
    refine ⟨?_, record_fatal_health hp rfl hh (by rw [he])⟩
    have e := record_haltOf (d := d) hp .fatal
    rw [he] at e
    exact e.trans (Bool.or_true _)

end Sys2Proof.Proofs

/-! PROOF. The family of 12_astrolabe_time.md: increments, adjustments, holdover, the domain switch, compares, captures and snapshots (R335 to
R349). -/

namespace Sys2Proof.Proofs

open Sys2Proof.Machine Sys2Proof.Laws

/-! ## Increments, adjustments and holdover (R336 to R338, R340, R341) -/

section
variable {s : State} {d v : Nat}

/-- An increment in range is stored at the command's cycle, and disciplines its domain. -/
theorem incrWrite_inRange (hlo : 3432537863 ≤ v) (hhi : v ≤ 3439409811) (cycle : Nat) : s.incrWrite d v cycle =
    ((((s.advanceTo (min cycle s.tm.len)).wr (Reg.AST_INCR_LO.at 0 + 0x40 * d) (BitVec.ofNat 32 v)).wr (Reg.AST_INCR_HI.at 0 + 0x40 * d)
      (BitVec.ofNat 32 (v / 2 ^ 32))).disciplined d) := by
  have hv : v % 2 ^ 40 = v := Nat.mod_eq_of_lt (by omega)
  have hr : ¬ (v < 3432537863 ∨ 3439409811 < v) := by omega
  simp only [State.incrWrite, hv, if_neg hr]

/-- An increment out of range is only counted. -/
theorem incrWrite_outOfRange (hv : v < 2 ^ 40) (h : v < 3432537863 ∨ 3439409811 < v) (cycle : Nat) :
    s.incrWrite d v cycle = s.count Reg.AST_INCR_REJECT 0 := by
  simp only [State.incrWrite, Nat.mod_eq_of_lt hv, if_pos h]

/-- A write of ADJ_CTL with START and OP 1 or 2 pends an ADD or a SET. -/
theorem adjCtlWrite_start {sub op : Nat} (hs : sub < 2 ^ 16) (hop : op = 1 ∨ op = 2) :
    s.adjCtlWrite d (sub + op * 2 ^ 16 + 2 ^ 31) =
      (s.plainWrite (Reg.AST_ADJ_CTL.at 0 + 0x40 * d) (sub + op * 2 ^ 16 + 2 ^ 31)).adjStart d (op == 2) := by
  have h31 : bitOf (sub + op * 2 ^ 16 + 2 ^ 31) 31 = true := by
    unfold bitOf
    rw [beq_iff_eq]
    omega
  have h16 : bitsOf (sub + op * 2 ^ 16 + 2 ^ 31) 16 2 = op := by
    unfold bitsOf
    omega
  rcases hop with rfl | rfl <;> simp only [State.adjCtlWrite, h31, h16, if_true] <;> rfl

/-- A discipline restarts the watchdog of a domain that is not in holdover, or that software holds there. -/
theorem disciplined_keeps (h : (s.dom d).hold = false ∨ s.flag Reg.AST_DOM_CTL_HOLD 0 (0x40 * d) = true) :
    s.disciplined d = s.setDom d { s.dom d with since := 0 } :=
  if_neg (by rcases h with h | h <;> simp [h])

/-- A discipline ends any other holdover. -/
theorem disciplined_ends (h : (s.dom d).hold = true) (hf : s.flag Reg.AST_DOM_CTL_HOLD 0 (0x40 * d) = false) :
    s.disciplined d = (s.setDom d { s.dom d with since := 0, hold := false, held := 0 }).intSet Ty.AST 0 5 :=
  if_pos (by simp [h, hf])

/-- The entry into holdover. -/
theorem enterHoldover_enters (h : (s.dom d).hold = false) : s.enterHoldover d =
    (s.setDom d { s.dom d with hold := true, held := 0, acc := s.fld Reg.AST_DOM_CTL_ACCURACY 0 (0x40 * d) }).intSet Ty.AST 0 5 :=
  if_neg (by simp [h])

end

/-- Settles O28, one lemma a command. -/
theorem domainCommandsOfTheAstrolabe : Obligations.DomainCommandsOfTheAstrolabe := by
  intro s hr
  refine ⟨fun d v cycle hd hlo hhi => ?_, fun d v cycle hv h => ?_, fun d sub hd hs => ?_, fun d sub hd hs => ?_, fun d hd h => ?_,
    fun d hd h hf => ?_, fun d hd h hl hle => ?_, fun d hd h hh => ?_, fun target mode ht hm => ?_, fun d v hd => ?_⟩
  · refine Gives.of_live (State.incrWrite · (d % 2) v cycle) hr rfl ?_
    rw [Nat.mod_eq_of_lt hd]
    exact incrWrite_inRange hlo hhi cycle
  · exact Gives.of_live (State.incrWrite · (d % 2) v cycle) hr rfl (incrWrite_outOfRange hv h cycle)
  · refine Gives.of_live (State.adjCtlWrite · (d % 2) (sub % 2 ^ 16 + 2 ^ 16 + 2 ^ 31)) hr rfl ?_
    rw [Nat.mod_eq_of_lt hd, Nat.mod_eq_of_lt hs]
    exact adjCtlWrite_start (op := 1) hs (.inl rfl)
  · refine Gives.of_live (State.adjCtlWrite · (d % 2) (sub % 2 ^ 16 + 2 * 2 ^ 16 + 2 ^ 31)) hr rfl ?_
    rw [Nat.mod_eq_of_lt hd, Nat.mod_eq_of_lt hs]
    exact adjCtlWrite_start hs (.inr rfl)
  · refine Gives.of_live (State.disciplined · (d % 2)) hr rfl ?_
    rw [Nat.mod_eq_of_lt hd]
    exact disciplined_keeps h
  · refine Gives.of_live (State.disciplined · (d % 2)) hr rfl ?_
    rw [Nat.mod_eq_of_lt hd]
    exact disciplined_ends h hf
  · simp only [Gives, exec, execHoldoverEnter, live_running hr, Nat.mod_eq_of_lt hd, enterHoldover_enters h]
    rw [if_pos (by simp [hle, Nat.ne_of_gt hl])]
  · simp only [Gives, exec, execAccGrowth, live_running hr, Nat.mod_eq_of_lt hd]
    rw [if_pos (by simp [h, hh])]
  · refine Gives.of_live (State.switchStart · target mode) hr rfl ?_
    have hmode : (mode == 1) = decide (mode = 1) := rfl
    simp only [State.switchStart, Nat.mod_eq_of_lt ht, Nat.mod_eq_of_lt hm, hmode]
  · refine Gives.of_live (State.domCtlWrite · (d % 2) v.toNat) hr rfl ?_
    rw [Nat.mod_eq_of_lt hd]
    rfl

/-! ## What a boundary does to them (R337, R339, R340) -/

section
variable {x : Dom} {a : Adj} (h : x.adj = some a)
include h

/-- A pending SET. -/
theorem adjusted_set (hs : a.set = true) :
    x.adjusted = { x with t := (a.sec * secU + (a.ns * nsU + a.sub * 2 ^ 16)) % timeMod, adj := none } := by
  simp only [Dom.adjusted, h, hs, if_true]

/-- A pending ADD, its seconds signed. -/
theorem adjusted_add (hs : a.set = false) : x.adjusted =
    { x with t := (((x.t : Int) + toSigned 48 a.sec * secU + ((a.ns * nsU + a.sub * 2 ^ 16 : Nat) : Int)) % timeMod).toNat, adj := none } := by
  simp only [Dom.adjusted, h, hs, Bool.false_eq_true, if_false]

end

theorem timeMod_pos : (0 : Int) < timeMod := by
  unfold timeMod secU nsU
  decide

/-- What is declared valid stands in the registers. -/
theorem domValid_tm (s : State) (x : TimeS) (d : Nat) : ({ s with tm := x } : State).domValid d = s.domValid d := rfl

section
variable {s : State} {target : Nat} {step : Bool} (h : s.tm.swReq = some (target, step))
include h

/-- A switch to the active domain, to one that is not valid, or with a residual left is refused. -/
theorem switchEval_refused (hr : target = s.tm.active ∨ s.domValid target = false ∨ s.tm.resid ≠ 0) :
    s.switchEval = ({ s with tm := { s.tm with swReq := none } } : State).count Reg.AST_SWITCH_REJECT 0 := by
  unfold State.switchEval
  rw [h]
  refine if_pos ?_
  rcases hr with hr | hr | hr
  · simp [hr]
  · simp [domValid_tm, hr]
  · simp [hr]

variable (ht : target ≠ s.tm.active) (hv : s.domValid target = true) (hz : s.tm.resid = 0)
include ht hv hz

/-- Any other request is judged by its mode. -/
theorem switchEval_judged : s.switchEval =
    let s1 : State := { s with tm := { s.tm with swReq := none } }
    let diff : Int := ((s.dom target).t : Int) - (s.dom s.tm.active).t
    if step then { s with tm := { s.tm with swReq := none, active := target, resid := 0 } }
    else if diff.natAbs > 10000000 * nsU then s1.count Reg.AST_SWITCH_REJECT 0
    else
      let s2 : State := { s with tm := { s.tm with swReq := none, active := target, resid := diff } }
      if diff = 0 then s2.intSet Ty.AST 0 6 else s2 := by
  unfold State.switchEval
  rw [h]
  refine if_neg ?_
  simp [ht, domValid_tm, hv, hz]

end

/-- Settles O29: the two adjustments, and the switch as it is judged. -/
theorem adjustmentAndSwitchAtTheBoundary : Obligations.AdjustmentAndSwitchAtTheBoundary := by
  refine ⟨fun x a ha => ?_, fun s target step h => ?_⟩
  · cases hs : a.set with
    | true =>
      rw [adjusted_set ha hs]
      exact ⟨rfl, rfl, fun _ => congrArg (· % timeMod) (Nat.add_assoc _ _ _).symm, nofun⟩
    | false =>
      rw [adjusted_add ha hs]
      refine ⟨rfl, rfl, nofun, fun _ => ?_⟩
      rw [Int.toNat_of_nonneg (Int.emod_nonneg _ (Int.ne_of_gt timeMod_pos))]
      push_cast
      rfl
  · extract_lets tm s1 diff
    refine ⟨switchEval_refused h, fun ht hv hz => ?_⟩
    have e := switchEval_judged h ht hv hz
    refine ⟨fun hs => ?_, fun hs hd => ?_, fun hs hd h0 => ?_⟩
    · exact e.trans (if_pos hs)
    · exact e.trans ((if_neg (by simp [hs])).trans (if_pos hd))
    · have q : s.switchEval = { s with tm := { s.tm with swReq := none, active := target, resid := diff } } :=
        e.trans ((if_neg (by simp [hs])).trans ((if_neg (Nat.not_lt.2 hd)).trans (if_neg h0)))
      refine ⟨q, ?_⟩
      rw [q]
      have hsub : ((s.dom target).t : Int) - diff = ((s.dom s.tm.active).t : Int) := Int.sub_sub_self _ _
      exact congrArg (fun i : Int => i.toNat % timeMod) hsub

/-! ## Compares, captures, snapshots and the match table (R342 to R345, R349) -/

section
variable {s : State}

/-- A channel that is off, or has fired for its target, does nothing. -/
theorem cmpFire1_quiet {c : Nat} (h : s.flag Reg.AST_CMP_CTL_EN 0 (16 * c) = false ∨ bitOf s.tm.cmpFired c = true) (w : Bool) :
    s.cmpFire1 c w = (s, false) := by
  refine if_pos ?_
  rcases h with h | h <;> simp [State.on, h]

/-- An edge at PPS_IN in a state at its cycle (R344). -/
def ppsEdge (s : State) (rising : Bool) : State :=
  let near := match s.tm.ppsIn with
    | some e => decide ((s.dom 0).el < e + 1000 * nsU)
    | none => false
  if !s.on Reg.AST_PPS_CFG_PPS_IN_EN 0 || (rising == s.flag Reg.AST_PPS_CFG_PPS_IN_POL 0) || near then s else
  let delay := s.fld Reg.AST_PPS_ADJ_IN 0
  let s := s.putTime (Reg.AST_CAPT_S_LO.at 0) (lessDelay (s.dom 0).t delay)
  let s := s.putTime (Reg.AST_CAPT_S_LO.at 0 + 12) (lessDelay (s.dom 1).t delay)
  let s := (s.count Reg.AST_PPS_IN_EDGES 0).intSet Ty.AST 0 8
  { s with tm := { s.tm with ppsIn := some (s.dom 0).el } }

theorem gives_ppsInEdge {rising : Bool} {cycle : Nat} {t : State} (hr : Running s)
    (q : ppsEdge (s.advanceTo (min cycle s.tm.len)) rising = t) : Gives (.ppsInEdge rising cycle) s t :=
  Gives.of_live (fun s => ppsEdge (s.advanceTo (min cycle s.tm.len)) rising) hr rfl q

/-- An edge with the input off, or of the other polarity, is none. -/
theorem ppsEdge_ignored {rising : Bool} (h : s.flag Reg.AST_PPS_CFG_PPS_IN_EN 0 = false ∨ rising = s.flag Reg.AST_PPS_CFG_PPS_IN_POL 0) :
    ppsEdge s rising = s := by
  refine if_pos ?_
  rcases h with h | h <;> simp [State.on, h]

theorem putTime_dom (s : State) (lo t d : Nat) : (s.putTime lo t).dom d = s.dom d := (rfl)

/-- The first edge taken is captured in both domains. -/
theorem ppsEdge_taken {rising : Bool} (hon : s.on Reg.AST_PPS_CFG_PPS_IN_EN 0 = true) (hp : rising ≠ s.flag Reg.AST_PPS_CFG_PPS_IN_POL 0)
    (h : s.tm.ppsIn = none) : ppsEdge s rising =
    let delay := s.fld Reg.AST_PPS_ADJ_IN 0
    let s2 := (s.putTime (Reg.AST_CAPT_S_LO.at 0) (lessDelay (s.dom 0).t delay)).putTime (Reg.AST_CAPT_S_LO.at 0 + 12) (lessDelay (s.dom 1).t delay)
    let s3 := (s2.count Reg.AST_PPS_IN_EDGES 0).intSet Ty.AST 0 8
    { s3 with tm := { s3.tm with ppsIn := some (s.dom 0).el } } := by
  have tm (t : State) : (((t.count Reg.AST_PPS_IN_EDGES 0).intSet Ty.AST 0 8).dom 0) = t.dom 0 := by
    rw [State.dom, intSet_tm, count_tm, State.dom]
  unfold ppsEdge
  rw [h]
  refine (if_neg (by simp [hon, hp])).trans ?_
  simp only [tm, putTime_dom]

theorem putTime_tm (s : State) (lo t : Nat) : (s.putTime lo t).tm = s.tm := (rfl)

theorem putTime_netTime (s : State) (lo t : Nat) : (s.putTime lo t).netTime = s.netTime := (rfl)

theorem putTime_tick (s : State) (lo t : Nat) : (s.putTime lo t).tick = s.tick := (rfl)

theorem advanceTo_tick (s : State) (c : Nat) : (s.advanceTo c).tick = s.tick := (rfl)

/-- A snapshot takes the times of its cycle and the tick. -/
theorem snapshot_takes (s : State) (cycle : Nat) : s.snapshot cycle =
    let s1 := s.advanceTo (min cycle s.tm.len)
    let s2 := ((s1.putTime (Reg.AST_SNAP_S_LO.at 0) (s1.dom 0).t).putTime (Reg.AST_SNAP_S_LO.at 0 + 12) (s1.dom 1).t).putTime
      (Reg.AST_SNAP_S_LO.at 0 + 24) s1.netTime
    (s2.setReg64 Reg.AST_SNAP_TICK_LO 0 s.tick).setReg Reg.AST_SNAP_CYCLE 0 (s1.tm.cycle % 2 ^ 18) := by
  simp only [State.snapshot, putTime_dom, putTime_netTime, putTime_tick, advanceTo_tick, setReg64_tm, putTime_tm]

end

/-- Settles O30, one clause a command; a compare's judgement, a snapshot and an expiry are their definitions. -/
theorem comparesCapturesAndSnapshots : Obligations.ComparesCapturesAndSnapshots := by
  intro s hr
  refine ⟨fun c lo hi ns ctl cycle hc hn => ?_, fun c lo hi ns ctl cycle hc hn => ?_, fun cycle => ?_, fun c w h => cmpFire1_quiet h w,
    fun rising cycle h => ?_, fun rising cycle hon hp hnone => ?_, fun cycle => ?_, fun slice => ?_⟩
  · simp only [Gives, exec, execCmpWrite, live_running hr, Nat.mod_eq_of_lt hc, if_neg (Nat.not_lt.2 hn)]
  · simp only [Gives, exec, execCmpWrite, live_running hr, Nat.mod_eq_of_lt hc, if_pos hn]
  · exact Gives.of_live (fun s => (s.advanceTo (min cycle s.tm.len)).cmpFireAll) hr rfl rfl
  · exact gives_ppsInEdge hr (ppsEdge_ignored h)
  · exact gives_ppsInEdge hr (ppsEdge_taken hon hp hnone)
  · exact Gives.of_live (State.snapshot · cycle) hr rfl (snapshot_takes s cycle)
  · simp only [Gives, exec, execTcMatchExpiry, live_running hr]

end Sys2Proof.Proofs

/-! PROOF. The register commands of 15_host_interface.md: byte enables, the halves of a 64-bit quantity, and requests of several registers (R7,
R11, R406). -/

namespace Sys2Proof.Proofs

open Sys2Proof.Machine Sys2Proof.Laws

/-! ## Which registers have halves, and where the pages lie -/

/-- The halves of 64-bit quantities lie past the common header. -/
theorem pairLo_block {ty off : Nat} (h : off ∈ pairLo ty) : 0x44 ≤ off := by
  have all : ∀ l : List Nat, l.all (0x44 ≤ ·) = true → off ∈ l → 0x44 ≤ off := fun l hl hm => by simpa using List.all_eq_true.1 hl off hm
  unfold pairLo at h
  split at h <;> exact all _ rfl h

theorem isLo_header {k : Nat} (ho : keyOff k < 0x40) : isLo k = false := by
  have : keyOff k ∉ pairLo (keyTy k) := fun hm => absurd (pairLo_block hm) (by omega)
  simpa [isLo] using this

theorem isHi_header {k : Nat} (ho : keyOff k < 0x40) : isHi k = false := by
  have : keyOff k - 4 ∉ pairLo (keyTy k) := fun hm => absurd (pairLo_block hm) (by omega)
  simp [isHi, this]

/-- A present page lies below the MSI-X table (R405). -/
theorem addr_lt_msix {s : State} {k : Nat} (h : s.present (keyTy k) (keyInst k) = true) : k < 0x0FF00000 := by
  have hi : keyInst k < fullInstances (keyTy k) := by
    simp only [State.present, presentIn, Bool.and_eq_true, decide_eq_true_eq] at h
    exact h.1
  have ht : keyTy k ≤ 0x28 := by
    unfold fullInstances at hi
    split at hi <;> omega
  unfold keyTy at ht
  omega

/-! ## Reads and writes by a master (R11, R406) -/

section
variable {s : State} {k : Nat}

/-- A read of a _LO half puts the _HI half into the master's shadow. -/
theorem readReg_lo (master : Nat) (h : s.present (keyTy k) (keyInst k) = true) (hlo : isLo k = true) : s.readReg master k = s.readLo master k := by
  simp [State.readReg, Nat.not_le.2 (addr_lt_msix h), h, hlo]

/-- A read of a register that is no half shows it. -/
theorem readReg_single (master : Nat) (h : s.present (keyTy k) (keyInst k) = true) (hlo : isLo k = false) (hhi : isHi k = false) :
    s.readReg master k = (s, s.view k) := by
  simp [State.readReg, h, hlo, hhi]

/-- Where a write reaches a register: on a present page that is not a secondary copy, a defined offset, no halt. -/
structure Writable (s : State) (k : Nat) : Prop where
  present : s.present (keyTy k) (keyInst k) = true
  primary : s.secondary (keyTy k) (keyInst k) (keyOff k) = false
  defined : (regSpec (keyTy k) (keyOff k)).isSome = true
  runs : s.halted = false

theorem writeReg_hi (w : Writable s k) (master v : Nat) (data : Bytes) (h : isHi k = true) :
    s.writeReg master k v data =
      { s with pr := { s.pr with held := s.pr.held.set none (pairKey master k) (some (BitVec.ofNat 32 v)) } } := by
  simp [State.writeReg, Nat.not_le.2 (addr_lt_msix w.present), w.present, w.primary, Option.isSome_iff_ne_none.1 w.defined, w.runs, h]

theorem writeReg_lo {hi : Word} (w : Writable s k) (master v : Nat) (data : Bytes) (hhi : isHi k = false) (hlo : isLo k = true)
    (hh : s.pr.held.get none (pairKey master (k + 4)) = some hi) :
    s.writeReg master k v data =
      ({ s with pr := { s.pr with held := s.pr.held.erase (pairKey master (k + 4)) } }).pairStore k v hi.toNat := by
  simp [State.writeReg, Nat.not_le.2 (addr_lt_msix w.present), w.present, w.primary, Option.isSome_iff_ne_none.1 w.defined, w.runs, hhi, hlo, hh]

theorem writeReg_single (w : Writable s k) (master v : Nat) (data : Bytes) (hhi : isHi k = false) (hlo : isLo k = false) :
    s.writeReg master k v data = s.blockWrite k v data := by
  simp [State.writeReg, Nat.not_le.2 (addr_lt_msix w.present), w.present, w.primary, Option.isSome_iff_ne_none.1 w.defined, w.runs, hhi, hlo]

/-- A pair with no meaning of its own is stored by its access codes, _HI first. -/
theorem pairStore_plain (lo hi : Nat) (ht : keyTy k ∉ [Ty.HIF, Ty.AST, Ty.TAMP, Ty.TRX, Ty.MSEC]) (hm : mirroredReg (keyTy k) (keyOff k) = false) :
    s.pairStore k lo hi = (s.plainWrite (k + 4) hi).plainWrite k lo := by
  simp only [List.mem_cons, List.not_mem_nil, or_false, not_or] at ht
  obtain ⟨hhif, hast, htamp, htrx, hmsec⟩ := ht
  have off {t : Nat} (h : ¬ keyTy k = t) (b : Bool) : ¬ (keyTy k == t && b) = true := by simp [h]
  have off' {t : Nat} (h : ¬ keyTy k = t) (b b' : Bool) : ¬ (keyTy k == t && b && b') = true := by simp [h]
  unfold State.pairStore
  extract_lets ty o v plain
  clear_value v
  refine (if_neg (off hhif _)).trans ?_
  refine (if_neg (off hhif _)).trans ?_
  refine (if_neg (off hast _)).trans ?_
  refine (if_neg (off hast _)).trans ?_
  refine (if_neg (off hast _)).trans ?_
  refine (if_neg (off' hast _ _)).trans ?_
  refine (if_neg (off hmsec _)).trans ?_
  refine (if_neg (off htamp _)).trans ?_
  refine (if_neg (off htrx _)).trans ?_
  exact if_neg (Bool.not_eq_true _ ▸ hm)

theorem blockWrite_intEn (ty inst v : Nat) (data : Bytes) :
    s.blockWrite (regKey ty inst 0x018) v data = s.plainWrite (regKey ty inst 0x018) v := by
  simp [State.blockWrite, keyOff_regKey (ty := ty) (inst := inst) (show 0x018 < 4096 by decide)]

end

/-! ## The commands -/

theorem advanceTo_halted (s : State) (c : Nat) : (s.advanceTo c).halted = s.halted := (rfl)

section
variable {s : State} {addr : Nat}

theorem gives_registerWrite {r : State} {v : Word} {cycle : Nat} {data : List Byte} (hr : Running s) (ha : addr % 4 = 0)
    (q : (s.advanceTo (min cycle s.tm.len)).writeReg 0 addr v.toNat data = r) : Gives (.registerWrite addr v 15 cycle data) s r := by
  refine Gives.of_powered _ hr.2 (by unfold exec execRegisterWrite; rfl) ?_
  rw [show addr / 4 * 4 = addr by omega]
  exact q

theorem gives_registerWrite_enables {v : Word} {be cycle : Nat} {data : List Byte} (hr : Running s) (hb : be ≠ 15) :
    Gives (.registerWrite addr v be cycle data) s ((s.advanceTo (min cycle s.tm.len)).count Reg.HIF_BAD_ACCESS 0) := by
  refine Gives.of_powered _ hr.2 (by unfold exec execRegisterWrite; rfl) ?_
  rw [if_pos (by simpa using hb), if_neg (by rw [advanceTo_halted, hr.1]; decide)]

theorem gives_loRegisterRead {master cycle : Nat} (hr : Running s) (hp : s.present (keyTy addr) (keyInst addr) = true)
    (hlo : isLo addr = true) : Gives (.loRegisterRead master addr cycle) s
      ((((s.advanceTo (min cycle s.tm.len)).readLo (master % 64) addr).1).answer [(s.advanceTo (min cycle s.tm.len)).view addr]) := by
  refine Gives.of_powered (fun s => s.loRead (master % 64) addr cycle) hr.2 rfl ?_
  unfold State.loRead
  rw [hlo]
  simp only [Bool.not_true, Bool.false_eq_true, if_false, readReg_lo (s := s.advanceTo (min cycle s.tm.len)) (master % 64) hp hlo]
  rfl

theorem gives_hiRegisterWrite {master : Nat} {v : Word} (hr : Running s) (w : Writable s addr) (hhi : isHi addr = true) :
    Gives (.hiRegisterWrite master addr v) s
      { s with pr := { s.pr with held := s.pr.held.set none (pairKey (master % 64) addr) (some v) } } := by
  refine Gives.of_live _ hr rfl ?_
  rw [if_pos hhi, writeReg_hi w _ _ _ hhi, BitVec.ofNat_toNat, BitVec.setWidth_eq]

theorem gives_loRegisterWrite {r : State} {master cycle : Nat} {v : Word} {data : List Byte} (hr : Running s) (hlo : isLo addr = true)
    (q : (s.advanceTo (min cycle s.tm.len)).writeReg (master % 64) addr v.toNat data = r) :
    Gives (.loRegisterWrite master addr v cycle data) s r :=
  Gives.of_live _ hr rfl ((if_pos hlo).trans q)

theorem gives_multiRegisterRequest_readOne {cycle : Nat} {words : List Word} {data : List Byte} (hr : Running s) (ha : addr % 4 = 0)
    (hp : s.present (keyTy addr) (keyInst addr) = true) (hlo : isLo addr = false) (hhi : isHi addr = false) :
    Gives (.multiRegisterRequest false addr 1 words cycle data) s
      ((s.advanceTo (min cycle s.tm.len)).answer [(s.advanceTo (min cycle s.tm.len)).view addr]) := by
  refine Gives.of_powered _ hr.2 (by unfold exec execMultiRegisterRequest; rfl) ?_
  rw [show addr / 4 * 4 = addr by omega]
  simp [readReg_single (s := s.advanceTo (min cycle s.tm.len)) 0 hp hlo hhi, show List.range 1 = [0] from rfl]

/-- A request that writes both halves of a quantity writes _HI first. -/
theorem gives_multiRegisterRequest_writePair {cycle : Nat} {lo hi : Word} {data : List Byte} (hr : Running s) (ha : addr % 4 = 0)
    (hlo : isLo addr = true) : Gives (.multiRegisterRequest true addr 2 [lo, hi] cycle data) s
      (((s.advanceTo (min cycle s.tm.len)).writeReg 0 (addr + 4) hi.toNat data).writeReg 0 addr lo.toNat data) := by
  refine Gives.of_powered _ hr.2 (by unfold exec execMultiRegisterRequest; rfl) ?_
  rw [show addr / 4 * 4 = addr by omega, show min 2 1024 = 2 from rfl]
  simp [writeOrder, hlo]

end

/-- Settles O9: each command moves the counters to its cycle and then reads or writes as R11 and R406 say. -/
theorem registerCommandsReadAndWrite : Obligations.RegisterCommandsReadAndWrite := by
  intro s hr
  refine ⟨fun addr v be cycle data hb => gives_registerWrite_enables hr hb, ?_, ?_, ?_, ?_, ?_, ?_, ?_⟩
  · intro ty inst v cycle data ht hi hp
    have ho : (0x018 : Nat) < 4096 := by decide
    refine gives_registerWrite hr (by unfold regKey; omega) ?_
    have hoff : keyOff (regKey ty inst 0x018) = 0x018 := keyOff_regKey ho
    have w : Writable (s.advanceTo (min cycle s.tm.len)) (regKey ty inst 0x018) := by
      refine ⟨?_, ?_, ?_, hr.1⟩ <;> simp only [keyTy_regKey hi ho, keyInst_regKey hi ho, hoff]
      · exact hp
      · exact secondary_header _ ty inst (by decide)
      · rfl
    rw [writeReg_single w 0 _ data (isHi_header (by omega)) (isLo_header (by omega)), blockWrite_intEn]
  · intro addr v cycle data ha hp
    refine Gives.of_powered _ hr.2 (by unfold exec execRegisterWrite; rfl) ?_
    rw [if_neg (by decide)]
    exact writeReg_absent 0 _ data (by omega) hp
  · intro master addr cycle hp hlo
    exact gives_loRegisterRead hr hp hlo
  · intro master addr v _ hp hs hd hhi
    exact gives_hiRegisterWrite hr ⟨hp, hs, hd, hr.1⟩ hhi
  · intro master addr v hi cycle data _ hp hs hd hlo hhi ht hm hh
    refine gives_loRegisterWrite hr hlo ?_
    rw [writeReg_lo (s := s.advanceTo (min cycle s.tm.len)) ⟨hp, hs, hd, hr.1⟩ _ _ data hhi hlo hh, pairStore_plain _ _ ht hm]
  · intro addr cycle words data ha _ hlo hhi hp
    exact gives_multiRegisterRequest_readOne hr ha hp hlo hhi
  · intro addr cycle lo hi data ha hlo
    exact gives_multiRegisterRequest_writePair hr ha hlo

end Sys2Proof.Proofs

/-! PROOF. The CRC units and the counter snapshots of 15_host_interface.md (R424, R425, R432, R434). -/

namespace Sys2Proof.Proofs

open Sys2Proof.Machine Sys2Proof.Laws

/-! ## The algorithms keep their width, so feeding is feeding one byte string after the other (R424) -/

/-- What each step keeps below a bound, a run over a list does. -/
theorem foldl_lt {α : Type} {f : Nat → α → Nat} {n : Nat} (hf : ∀ a x, a < n → f a x < n) (l : List α) {a : Nat} (ha : a < n) :
    l.foldl f a < n := by
  induction l generalizing a with
  | nil => exact ha
  | cons x l ih => exact ih (hf a x ha)

theorem crcRefl_lt {poly st : Nat} (hp : poly < 2 ^ 32) (hs : st < 2 ^ 32) (d : Bytes) : crcRefl poly st d < 2 ^ 32 := by
  refine foldl_lt (fun a b ha => foldl_lt (fun x _ hx => ?_) _ (Nat.xor_lt_two_pow ha (by omega))) d hs
  split
  · exact Nat.xor_lt_two_pow (by omega) hp
  · omega

theorem crcMsb_lt {w poly st : Nat} (hp : poly < 2 ^ w) (hs : st < 2 ^ w) (d : Bytes) : crcMsb w poly st d < 2 ^ w := by
  refine foldl_lt (fun a b ha => foldl_lt (fun x c _ => ?_) _ ha) d hs
  have hm : x * 2 % 2 ^ w < 2 ^ w := Nat.mod_lt _ (Nat.two_pow_pos w)
  unfold crcBitMsb
  dsimp only
  split
  · exact Nat.xor_lt_two_pow hm hp
  · exact hm

/-- The register of an algorithm after bytes. -/
def crcRun (alg st : Nat) (d : Bytes) : Nat :=
  match alg with
  | 0 => crcRefl 0xEDB88320 st d
  | 1 => crcRefl 0x82F63B78 st d
  | 2 => crcMsb 16 0x1021 st d
  | _ => crcMsb 64 0x42F0E1EBA9EA3693 st d

section
variable {alg st : Nat} (ha : alg < 4) (hs : st < 2 ^ crcBits alg)
include ha hs

theorem crcRun_lt (d : Bytes) : crcRun alg st d < 2 ^ crcBits alg := by
  match alg, ha, hs with
  | 0, _, hs => exact crcRefl_lt (by decide) hs d
  | 1, _, hs => exact crcRefl_lt (by decide) hs d
  | 2, _, hs => exact crcMsb_lt (by decide) hs d
  | 3, _, hs => exact crcMsb_lt (by decide) hs d

theorem crcFeed_eq_run (d : Bytes) : crcFeed alg st d = crcRun alg st d := by
  have hw : crcBits alg ≤ 64 := by unfold crcBits; split <;> decide
  have fits {x : Nat} (h : x < 2 ^ crcBits alg) : (BitVec.ofNat 64 x).toNat = x :=
    (BitVec.toNat_ofNat x 64).trans (Nat.mod_eq_of_lt (Nat.lt_of_lt_of_le h (Nat.pow_le_pow_right (by decide) hw)))
  have hr := fits (crcRun_lt ha hs d)
  unfold crcFeed crcStep
  rw [fits hs]
  match alg, ha, hs with
  | 0, _, hs => rw [show st % 2 ^ 32 = st from Nat.mod_eq_of_lt hs]; exact hr
  | 1, _, hs => rw [show st % 2 ^ 32 = st from Nat.mod_eq_of_lt hs]; exact hr
  | 2, _, hs => rw [show st % 2 ^ 16 = st from Nat.mod_eq_of_lt hs]; exact hr
  | 3, _, hs => exact hr

theorem crcFeed_append (a b : Bytes) : crcFeed alg (crcFeed alg st a) b = crcFeed alg st (a ++ b) := by
  have append : crcRun alg (crcRun alg st a) b = crcRun alg st (a ++ b) := by
    unfold crcRun
    split <;> simp only [crcRefl, crcMsb, List.foldl_append]
  rw [crcFeed_eq_run ha hs, crcFeed_eq_run ha hs, crcFeed_eq_run ha (crcRun_lt ha hs a), append]

end

/-! ## The commands of a unit -/

section
variable {s : State} {i : Nat}

theorem crcStart_stored {v : Nat} (h : bitOf v 8 = false) : s.crcStart i v = s.plainWrite (Reg.CRC_CTL.at i) v := by
  simp [State.crcStart, h]

theorem crcStart_started {v : Nat} (ha : s.active Ty.CRC i = true) (h : bitOf v 8 = true) {r : State}
    (hr : s.plainWrite (Reg.CRC_CTL.at i) v = r) : s.crcStart i v =
      ((r.setCrc i { st := r.reg64 Reg.CRC_INIT_LO i % 2 ^ crcBits (v % 4), bad := false }).setReg64 Reg.CRC_BYTES_LO i 0).setFlag
        Reg.CRC_STS_CHECKED i false := by
  simp [State.crcStart, ha, h, hr]

theorem crcParity_good (h : s.inv Ty.CRC i 0 = false) : s.crcParity i = s := by simp [State.crcParity, h]

theorem crcPut_good (ha : s.active Ty.CRC i = true) (h : s.inv Ty.CRC i 0 = false) (d : Bytes) : s.crcPut i d =
    (s.setCrc i { s.crcU i with st := crcFeed (s.fld Reg.CRC_CTL_ALG i) (s.crcU i).st d }).countN64 Reg.CRC_BYTES_LO i d.length := by
  simp [State.crcPut, ha, crcParity_good h]

theorem crcCheck_good {ok : Bool} {r : State} (ha : s.active Ty.CRC i = true) (h : s.inv Ty.CRC i 0 = false)
    (hok : (!(s.crcU i).bad && s.crcResult i == s.reg64 Reg.CRC_EXPECT_LO i) = ok)
    (hr : ((s.setCrc i { s.crcU i with bad := false }).setFlag Reg.CRC_STS_MATCH i ok).setFlag Reg.CRC_STS_CHECKED i true = r) :
    s.crcCheck i = if ok then r.intSet Ty.CRC i 1 else (r.count Reg.CRC_MISMATCHES i).intSet Ty.CRC i 0 := by
  unfold State.crcCheck
  simp only [ha, Bool.not_true, Bool.false_eq_true, if_false, crcParity_good h, hok, hr]

end

/-! ## Snapshots -/

section
variable {s : State} {x : Snap} {cycle : Nat} {own : Bool}

theorem pmcBoundary_eq (s : State) :
    let f := s.pmc.freeTicks + if s.tm.free then 1 else 0
    let due := s.on Reg.PMC_CTL_EN 0 && (if s.tm.free then f % s.fld Reg.PMC_CTL_K 0 else s.tm.m % s.fld Reg.PMC_CTL_K 0) == 0
    s.pmcBoundary = { s with pmc := if due then { s.pmc with freeTicks := f, seq := s.pmc.seq + 1, latch := some s.pmcLatch, bad := [] }
                                     else { s.pmc with freeTicks := f } } := by
  intro f due
  change (if due = true then _ else _) = _
  clear_value due
  cases due <;> rfl

/-- A latched snapshot takes the slot's first bytes from the host to see whose it is, and is then written or skipped. -/
theorem snapshotPmc_latched (hx : s.pmc.latch = some x) (hi : s.inv Ty.PMC 0 0 = false) {late : Bool} {r a b : State} {rd ok : Bool} {idx win off : Nat}
    (hidx : s.reg Reg.PMC_DUMP_IDX 0 = idx) (hwin : s.fld Reg.PMC_DUMP_CFG_WINDOW 0 = win)
    (hoff : s.reg64 Reg.PMC_DUMP_OFF_LO 0 / 64 * 64 + idx * s.slotBytes = off)
    (hlate : (!(x.tick == s.tm.tickNo) || !s.inTime Ty.PMC 0 cycle || !s.pmc.bad.isEmpty) = late)
    (hr : (if x.tick == s.tm.tickNo then
        ({ s with pmc := { s.pmc with last := s.tm.tickNo + 1, latch := none, bad := [] } } : State).complete Ty.PMC 0 cycle
      else { s with pmc := { s.pmc with last := s.tm.tickNo + 1, latch := none, bad := [] } }) = r)
    (ha : r.dmaRead win off 64 = (a, rd)) (hb : a.dmaWrite win off (x.slot late s.pmc.bad) = (b, ok)) :
    s.snapshotPmc cycle own =
      if !own || !rd then a.count Reg.PMC_SNAP_SKIP 0 else
      if !ok then b.count Reg.PMC_SNAP_SKIP 0 else
      ((b.count Reg.PMC_SNAPSHOTS 0).countN Reg.PMC_SNAP_LATE 0 (if late then 1 else 0)).setReg Reg.PMC_DUMP_IDX 0
        ((idx + 1) % max 1 (((b.count Reg.PMC_SNAPSHOTS 0).countN Reg.PMC_SNAP_LATE 0 (if late then 1 else 0)).fld Reg.PMC_DUMP_CFG_SLOTS 0)) := by
  subst hidx hwin hoff hlate
  unfold State.snapshotPmc
  rw [hx]
  simp only [hi, Bool.false_eq_true, if_false, hr, ha, hb]

end

/-- Settles O59: each command of a unit by cases of its word, the algorithms as runs that keep their width, and the snapshot by what the slot gives. -/
theorem checkUnitsAndSnapshots : Obligations.CheckUnitsAndSnapshots := by
  refine ⟨fun s i hr hi ha => ?_, ?_, fun alg st a b hs hl => crcFeed_append hl hs a b, fun s cycle own hr => ⟨pmcBoundary_eq s, ?_, ?_⟩⟩
  · have hm : i % 4 = i := Nat.mod_eq_of_lt hi
    refine ⟨fun v => ?_, fun hv => ⟨fun v => ?_, ?_⟩⟩
    · have start {r : State} (q : s.crcStart i v.toNat = r) : Gives (.crcStart i v) s r :=
        Gives.of_live (fun s => s.crcStart (i % 4) v.toNat) hr rfl (hm.symm ▸ q)
      exact ⟨fun h => start (crcStart_stored h), fun h => start (crcStart_started ha h rfl)⟩
    · refine ⟨?_, ?_, ?_, ?_⟩
      · exact Gives.of_live (fun s => s.crcPut (i % 4) (toLE 1 v.toNat)) hr rfl (hm.symm ▸ crcPut_good ha hv _)
      · exact Gives.of_live (fun s => s.crcPut (i % 4) (toLE 2 v.toNat)) hr rfl (hm.symm ▸ crcPut_good ha hv _)
      · exact Gives.of_live (fun s => s.crcPut (i % 4) (toLE 4 v.toNat)) hr rfl (hm.symm ▸ crcPut_good ha hv _)
      · exact Gives.of_live (fun s => s.crc128 (i % 4) v.toNat) hr rfl (hm.symm ▸ crcPut_good ha hv _)
    · exact Gives.of_live (fun s => s.crcCheck (i % 4)) hr rfl (hm.symm ▸ crcCheck_good ha hv rfl rfl)
  · refine ⟨?_, ?_, ?_, ?_⟩ <;> decide +kernel
  · intro hn
    refine Gives.of_live (fun s => s.snapshotPmc cycle own) hr rfl ?_
    simp only [State.snapshotPmc, hn]
  · intro x hx hi here idx win off late r0 r
    split
    rename_i a rd ha
    split
    rename_i b ok hb
    have gives {t : State} (q : s.snapshotPmc cycle own = t) : Gives (.pmcSnapshot cycle own) s t :=
      Gives.of_live (fun s => s.snapshotPmc cycle own) hr rfl q
    have eq := snapshotPmc_latched (own := own) (r := r) hx hi rfl rfl rfl rfl rfl ha hb
    refine ⟨fun h => gives ?_, fun ho hd hk => gives ?_, fun ho hd hk => gives ?_⟩
    · rw [eq, if_pos (by rcases h with h | h <;> simp [h])]
    · rw [eq, if_neg (by simp [ho, hd]), if_pos (by simp [hk])]
    · rw [eq, if_neg (by simp [ho, hd]), if_neg (by simp [hk])]

end Sys2Proof.Proofs

/-! PROOF. Rings, doorbells, posts, injections, faults and interrupt vectors of 15_host_interface.md (R411 to R413, R420 to R423). -/

namespace Sys2Proof.Proofs

open Sys2Proof.Machine Sys2Proof.Laws

/-! ## Rings that run -/

section
variable {s : State} {r : Nat} {x y : Ring}

/-- Of two writes of a ring in a row the second stands, where the first is of a running ring. -/
theorem setRing_setRing (h : x.en = true) : (s.setRing r x).setRing r y = s.setRing r y := by
  have hx : x ≠ ringReset r := fun e => Bool.false_ne_true (e ▸ h : (ringReset r).en = true)
  have table (t : Tbl Ring) : (t.setD ringReset r x).setD ringReset r y = t.setD ringReset r y := by
    simp only [Tbl.setD, if_neg hx, Tbl.insert_insert, Tbl.erase_insert]
  unfold State.setRing
  rw [table]

end

/-! ## Doorbells -/

section
variable {s : State} {r i : Nat} {l : List Bytes}

theorem ringUse_good (h : s.inv Ty.HIF 0 0 = false) (f : State → State) : s.ringUse r f = f s := by simp [State.ringUse, h]

theorem doorbell_closed (h : (s.ring r).en = false ∨ s.flag Reg.HIF_STS_QUIESCED 0 = true) : s.doorbell r i l = s := by
  refine if_pos ?_
  rcases h with h | h <;> simp [h]

variable (hen : (s.ring r).en = true) (ha : s.active Ty.HIF 0 = true) (hq : s.flag Reg.HIF_STS_QUIESCED 0 = false)
include hen ha hq

/-- A doorbell of an open ring takes the descriptors up to its index, where it is in the ring and they fit. -/
theorem doorbell_open {n k : Nat} (hn : 2 ^ (s.ring r).log2 = n)
    (hk : (i + n - ((s.ring r).devIdx + (s.ring r).desc.length) % n) % n = k) : s.doorbell r i l =
      if n ≤ i ∨ n < (s.ring r).desc.length + k then s.ringFault r
      else (s.setRing r { s.ring r with bellIdx := i }).takeDescs r ((List.range k).map fun j => l.getD j []) := by
  subst hn hk
  simp [State.doorbell, hen, ha, hq]

theorem doorbell_outside {n : Nat} (hn : 2 ^ (s.ring r).log2 = n) (hi : n ≤ i) : s.doorbell r i l = s.ringFault r :=
  (doorbell_open hen ha hq hn rfl).trans (if_pos (.inl hi))

theorem doorbell_here {n : Nat} (hn : 2 ^ (s.ring r).log2 = n) (hi : i < n) (ho : i = ((s.ring r).devIdx + (s.ring r).desc.length) % n)
    (hl : (s.ring r).desc.length < n) : s.doorbell r i l = s.setRing r { s.ring r with bellIdx := i, stalled := false } := by
  have hk : (i + n - ((s.ring r).devIdx + (s.ring r).desc.length) % n) % n = 0 := by
    rw [← ho, Nat.add_sub_cancel_left, Nat.mod_self]
  rw [doorbell_open hen ha hq hn hk, if_neg (by omega)]
  simp only [List.range_zero, List.map_nil, State.takeDescs, ring_setRing_self]
  exact setRing_setRing hen

/-- The one descriptor of a doorbell that names the next slot, with its window open: stalled at OWN 0, else taken. -/
theorem doorbell_next {n : Nat} {d : Bytes} (hn : 2 ^ (s.ring r).log2 = n) (hi : i < n)
    (ho : (i + n - ((s.ring r).devIdx + (s.ring r).desc.length) % n) % n = 1) (hl : (s.ring r).desc.length + 1 < n)
    (hw : s.winOk (s.ring r).window ((s.ring r).offset + 64 * (((s.ring r).devIdx + (s.ring r).desc.length) % n)) 64 false = true) :
    s.doorbell r i [d] =
      if beAt d 63 1 < 128 then
        ((s.setRing r { s.ring r with bellIdx := i }).count Reg.HIF_OWN_STALL 0).setRing r { s.ring r with bellIdx := i, stalled := true }
      else s.setRing r { s.ring r with bellIdx := i, desc := (s.ring r).desc ++ [sliceB d 0 64], stalled := false } := by
  have read : (s.setRing r { s.ring r with bellIdx := i }).dmaRead (s.ring r).window
      ((s.ring r).offset + 64 * (((s.ring r).devIdx + (s.ring r).desc.length) % n)) 64 = (s.setRing r { s.ring r with bellIdx := i }, true) := if_pos hw
  rw [doorbell_open hen ha hq hn ho, if_neg (by omega), show (List.range 1).map (fun j => [d].getD j []) = [d] from rfl]
  simp only [State.takeDescs, ring_setRing_self, hn, read, Bool.not_true, Bool.false_eq_true, if_false]
  split
  · rfl
  · rw [setRing_setRing (by exact hen), setRing_setRing (by exact hen)]

end

/-! ## Faults -/

section
variable {s : State} {r : Nat}

/-- A ring fault leaves the ring stopped, with ERR and no descriptor. -/
theorem ringFault_stops : ((s.ringFault r).ring r).en = false ∧ ((s.ringFault r).ring r).err = true ∧ ((s.ringFault r).ring r).desc = [] := by
  unfold State.ringFault
  simp only [ring_setRing_self, and_self]

/-- A host-interface fault of the link or of a reset of the function, with no frame on its way (causes 2 to 4). -/
theorem hifFault_link {c n : Nat} (h2 : 2 ≤ c) (h4 : c ≤ 4) (hh : s.hostIn = [])
    (hn : s.hif.rings.foldl (fun a (r, x) => a + x.inFlight r) 0 = n) : s.hifFault c =
      ((({ s with hif := { s.hif with wins := [], rings := s.hif.rings.mapV ringReset fun _ x => x.fault
                                      linkUp := s.hif.linkUp && decide (c = 4) } } : State).setReg Reg.HIF_STS 0
        ((if c = 4 then s.reg Reg.HIF_STS 0 % 256 else 0) + 256 + c * 512)).countN Reg.HIF_DISCARDS 0 n).intSet Ty.HIF 0 0 := by
  subst hn
  have same : ({ s with hostIn := [] } : State) = s := by rw [← hh]
  have hif (h : HifS) : ({ s with hostIn := [], hif := h } : State) = { s with hif := h } := congrArg (fun t : State => { t with hif := h }) same
  unfold State.hifFault
  simp only [hh, List.foldl_nil, List.length_nil, Nat.add_zero]
  rcases (by omega : c = 2 ∨ c = 3 ∨ c = 4) with rfl | rfl | rfl <;>
  · simp only [hif, Nat.reduceBEq, Bool.or_false, Bool.false_eq_true, if_false, if_true, Bool.or_self, Bool.not_true, Bool.not_false,
      Bool.or_true]
    rfl

end

/-! ## Posts to the exception rings -/

section
variable {s : State} {r : Nat} {p : Pkt} (ha : s.active Ty.HIF 0 = true)
include ha

theorem excFrame_none (h : ∀ q ∈ s.hostIn, q.1 ≠ r) : s.excFrame r = s := by
  have hf : (s.hostIn.find? fun q => q.1 == r) = none := List.find?_eq_none.2 fun q hq => by simpa using h q hq
  simp [State.excFrame, ha, hf]

variable (hh : s.hostIn = [(r, p)])
include hh

theorem excFrame_closed (hen : (s.ring (16 + r)).en = false) :
    s.excFrame r = (({ s with hostIn := [] } : State).count Reg.HIF_EXC_FRAME_DROP 0).injFin p 2 none := by
  have erase : [(r, p)].erase (r, p) = [] := List.erase_cons_head _ _
  unfold State.excFrame
  simp only [ha, hh, Bool.not_true, Bool.false_eq_true, if_false, List.find?_cons_of_pos, beq_self_eq_true, erase]
  exact if_pos (by rw [show ({ s with hostIn := [] } : State).ring (16 + r) = s.ring (16 + r) from rfl, hen]; rfl)

/-- A frame for a given descriptor with a buffer goes into it, its item into the ring. -/
theorem excFrame_posted {d : Bytes} {rest : List Bytes} {n : Nat} {r1 r2 : State} (hen : (s.ring (16 + r)).en = true)
    (hd : (s.ring (16 + r)).desc = d :: rest) (hl : leAt d 10 2 ≠ 0) (hn : min p.data.length (leAt d 10 2) = n)
    (h1 : State.dmaWrite { s with hostIn := [] } (leAt d 8 1 % 16) (leAt d 0 8) (sliceB p.data 0 n) = (r1, true))
    (h2 : r1.ringPut (16 + r) (r1.frameItem p n) = (r2, true)) : s.excFrame r = r2.injFin p 0 none := by
  subst hn
  have erase : [(r, p)].erase (r, p) = [] := List.erase_cons_head _ _
  have ring : ({ s with hostIn := [] } : State).ring (16 + r) = s.ring (16 + r) := rfl
  unfold State.excFrame
  simp only [ha, hh, Bool.not_true, Bool.false_eq_true, if_false, List.find?_cons_of_pos, beq_self_eq_true, erase, ring, hen, hd, beq_eq_false_iff_ne.2 hl, h1, h2]

end

/-! ## Injection -/

section
variable {s : State} {r cycle : Nat} {data : Bytes}

theorem injDesc_none (h : (s.ring (80 + r)).en = false ∨ (s.ring (80 + r)).desc = []) : s.injDesc r cycle data = s := by
  unfold State.injDesc
  rcases h with h | h
  · exact if_pos (by simp [h])
  · simp only [h, ite_self]

/-- A descriptor whose length is no frame's is answered STATUS 1. -/
theorem injDesc_badLength {d : Bytes} {rest : List Bytes} (ha : s.active Ty.HIF 0 = true) (hen : (s.ring (80 + r)).en = true)
    (hd : (s.ring (80 + r)).desc = d :: rest) (hl : leAt d 10 2 < 60 ∨ 10236 < leAt d 10 2) : s.injDesc r cycle data =
      ((s.advanceTo (min cycle s.tm.len)).setRing (80 + r)
        { s.ring (80 + r) with desc := rest, devIdx := (s.ring (80 + r)).nextIdx,
                               inj := (s.ring (80 + r)).inj ++ [((s.ring (80 + r)).devIdx, d, none)] }).injResult (80 + r)
        (s.ring (80 + r)).devIdx 1 none := by
  unfold State.injDesc
  simp only [hen, ha, Bool.not_true, Bool.or_self, Bool.false_eq_true, if_false, hd]
  exact if_pos (by rcases hl with h | h <;> simp [h])

theorem injComplete_host {d : InjDone} {rest : List InjDone} (hd : s.injDone = d :: rest) (hh : d.inj.host = true)
    (hg : (s.ring d.inj.who).gen = d.inj.slot / 2 ^ 16) :
    s.injComplete = ({ s with injDone := rest } : State).injResult d.inj.who (d.inj.slot % 2 ^ 16) d.st d.time := by
  unfold State.injComplete
  simp only [hd, hh, if_true]
  exact if_pos (beq_iff_eq.2 hg)

theorem injComplete_navigator {d : InjDone} {rest : List InjDone} (hd : s.injDone = d :: rest) (hh : d.inj.host = false) (ht : d.time = none) :
    s.injComplete = (({ s with injDone := rest } : State).count (if d.st = 0 then Reg.NAV_INJECT_OK else Reg.NAV_INJECT_REJECT) d.inj.who).sendMail
      ⟨0xFF00, d.inj.who, some d.inj.slot, 5, toLE 1 d.st ++ List.replicate 3 0 ++ sliceB d.inj.tag 0 4 ++ List.replicate 8 0⟩ := by
  unfold State.injComplete
  simp only [hd, hh, ht, Bool.false_eq_true, if_false, beq_iff_eq]

end

/-! ## Interrupt vectors and rings enabled -/

section
variable {s : State}

theorem coalTimeout_eq (r cycle : Nat) {t : State} {x : Ring} (ht : s.advanceTo (min cycle s.tm.len) = t) (hx : t.ring r = x) :
    s.coalTimeout r cycle = if x.unsig ≠ 0 ∧ x.coalUs ≠ 0 ∧ x.unsigAt + x.coalUs * 1250 ≤ t.now then
      t.setRing r { x with unsig := 0, req := true } else t := by
  subst ht hx
  unfold State.coalTimeout
  simp only [bne_iff_ne, Bool.and_eq_true, decide_eq_true_eq, and_assoc]

/-- The vector table with one entry written. -/
def putVec (s : State) (v : Nat) (y : Vec) : HifS := { s.hif with vecs := s.hif.vecs.set ⟨false, false, true, false, 0⟩ v y }

theorem vecEoi_quiet {v : Nat} (h : (s.vec v).outstanding = false) : s.vecEoi v = s := if_pos (by simp [h])

theorem vecEoi_outstanding {v : Nat} {y : Vec} {req : Bool} (h : (s.vec v).outstanding = true) (hy : { s.vec v with outstanding := false } = y)
    (hr : (s.levelVecs ++ s.hif.ringVecs).contains v = req) : s.vecEoi v =
      { s with hif := if !(req && s.hif.msixEn) then putVec s v y
                      else if (s.vec v).masked then
                        { putVec s v y with vecs := (putVec s v y).vecs.set ⟨false, false, true, false, 0⟩ v { y with pba := true } }
                      else (putVec s v y).sendVec v { y with req := true } } := by
  subst hy hr
  unfold State.vecEoi putVec
  simp only [h, Bool.not_true, Bool.false_eq_true, if_false, Bool.not_and]

theorem ringEnable_eq {v : Nat} {r : Nat} {x : Ring} (hr : min 143 (s.fld Reg.HIF_RING_SEL_RING 0) = r) (hx : s.ring r = x) : s.ringEnable v =
    if !bitOf v 0 then s.setRing r { x with en := false }
    else if s.flag Reg.HIF_STS_QUIESCED 0 then s.count Reg.HIF_CFG_REJECT 0
    else if x.en then s
    else s.setRing r { x with en := true, err := false, devIdx := 0, bellIdx := 0, handed := 0, desc := [], compl := none, stalled := false
                              inj := [], unsig := 0, req := false, waiting := 0, gen := x.gen + 1 } := by
  subst hr hx
  rfl

end

/-- Settles O57: each command by the lemma of its operation on a page in use whose ring state passes its check. -/
theorem hostRingsAndInterrupts : Obligations.HostRingsAndInterrupts := by
  intro s hr ha hv
  refine ⟨fun v => ?_, fun r i l hr144 hi => ?_, fun r late => ⟨fun h => ?_, fun h he => ?_⟩, fun r => ringFault_stops, fun c h => ?_, fun c h2 h4 hh => ?_,
    Gives.of_live (fun s => s.setFlag Reg.HIF_STS_QUIESCED 0 false) hr rfl rfl, fun n => Gives.of_live (fun s => s.setFld Reg.HIF_WIN_FENCE_WAITED 0 (min n 65535)) hr rfl rfl, fun w k => ?_,
    fun r hr64 h => ?_, fun r p hr64 hh he => ?_, fun r p d rest hr64 hh he hd hl => ?_, fun h => ?_, fun d rest hd => ⟨fun hh hg => ?_, fun hh ht => ?_⟩,
    fun r cycle data hr64 h => ?_, fun r cycle data d rest hr64 he hd hl => ?_, fun r cycle hr144 => ?_, fun v hv256 => ?_⟩
  · have gives {t : State} (q : s.ringEnable v.toNat = t) : Gives (.ringEnable v) s t := Gives.of_live (fun s => s.ringEnable v.toNat) hr rfl q
    have eq := ringEnable_eq (s := s) (v := v.toNat) rfl rfl
    refine ⟨fun h0 => gives (eq.trans ?_), fun h1 hq => gives (eq.trans ?_), fun h1 hq hx => gives (eq.trans ?_), fun h1 hq hx => gives (eq.trans ?_)⟩
    · rw [h0]; rfl
    · rw [h1, hq]; rfl
    · rw [h1, hq, hx]; rfl
    · rw [h1, hq, hx]; rfl
  · have gives {t : State} (q : s.doorbell r i l = t) : Gives (.doorbellWrite r i l) s t := by
      refine Gives.of_live _ hr rfl ((if_pos hr144).trans ((ringUse_good hv _).trans ?_))
      rw [Nat.mod_eq_of_lt hi]
      exact q
    refine ⟨fun h => gives (doorbell_closed h), fun hen hq => ⟨fun hn => gives (doorbell_outside hen ha hq rfl hn),
      fun hn ho hl => gives (doorbell_here hen ha hq rfl hn ho hl), fun d hn ho hl hd hw => gives ?_⟩⟩
    subst hd
    exact doorbell_next hen ha hq rfl hn ho hl hw
  · exact Gives.of_live _ hr rfl (if_neg fun c => by rcases h with h | h; exacts [absurd c.1 (by omega), absurd c.2 (by simp [h])])
  · exact Gives.of_live _ hr rfl (if_pos ⟨h, he⟩)
  · exact Gives.of_live _ hr rfl (if_neg (by omega))
  · exact Gives.of_live _ hr rfl ((if_pos (by omega)).trans (hifFault_link h2 h4 hh rfl))
  · exact Gives.of_live _ hr (by unfold exec execPcieLinkUp; rfl) rfl
  · exact Gives.of_live (fun s => s.excFrame (r % 64)) hr rfl (by rw [Nat.mod_eq_of_lt hr64, excFrame_none ha h])
  · exact Gives.of_live (fun s => s.excFrame (r % 64)) hr rfl (by rw [Nat.mod_eq_of_lt hr64, excFrame_closed ha hh he])
  · intro n
    split
    rename_i r1 ok1 h1
    split
    rename_i r2 ok2 h2
    intro hok1 hok2
    subst hok1 hok2
    exact Gives.of_live (fun s => s.excFrame (r % 64)) hr rfl (by rw [Nat.mod_eq_of_lt hr64, excFrame_posted ha hh he hd hl rfl h1 h2])
  · exact Gives.of_live (fun s => s.injComplete) hr rfl (by simp only [State.injComplete, h])
  · exact Gives.of_live (fun s => s.injComplete) hr rfl (injComplete_host hd hh hg)
  · exact Gives.of_live (fun s => s.injComplete) hr rfl (injComplete_navigator hd hh ht)
  · refine Gives.of_live (fun s => s.ringUse (80 + r % 64) fun s => s.injDesc (r % 64) cycle data) hr rfl ((ringUse_good hv _).trans ?_)
    rw [Nat.mod_eq_of_lt hr64, injDesc_none h]
  · refine Gives.of_live (fun s => s.ringUse (80 + r % 64) fun s => s.injDesc (r % 64) cycle data) hr rfl ((ringUse_good hv _).trans ?_)
    rw [Nat.mod_eq_of_lt hr64, injDesc_badLength ha he hd hl]
  · exact Gives.of_live _ hr rfl ((if_pos hr144).trans (coalTimeout_eq r cycle rfl rfl))
  · have hm : v % 256 = v := Nat.mod_eq_of_lt hv256
    refine ⟨fun h => ?_, fun h => ?_, ?_⟩
    · exact Gives.of_live (fun s => s.vecEoi (v % 256)) hr rfl (by rw [hm, vecEoi_quiet h])
    · exact Gives.of_live (fun s => s.vecEoi (v % 256)) hr rfl (by rw [hm]; exact vecEoi_outstanding h rfl rfl)
    · exact Gives.of_live (fun s => s.vecUnmask (v % 256)) hr rfl (by rw [hm]; rfl)

end Sys2Proof.Proofs

/-! PROOF. The ring commands of 15_host_interface.md and the register messages of 13_navigators.md (R367, R414 to R417). -/

namespace Sys2Proof.Proofs

open Sys2Proof.Machine Sys2Proof.Laws

/-! ## What a command ring does with its head command -/

section
variable {s a : State} {r op cycle : Nat} {data : Bytes} (ha : (s.advanceTo (min cycle s.tm.len)).orphanStep = a)
include ha

/-- A ring that is closed, has a completion or an orphan waiting, or holds no descriptor runs nothing. -/
theorem ringCmd_idle (h : (a.ring r).en = false ∨ (a.ring r).compl.isSome = true ∨ (a.ring r).orphan.isSome = true ∨
    a.flag Reg.HIF_STS_QUIESCED 0 = true ∨ (a.ring r).desc = []) : s.ringCmd r op cycle data = a := by
  unfold State.ringCmd
  simp only [ha]
  rcases h with h | h | h | h | h
  · exact if_pos (by simp [h])
  · exact if_pos (by simp [h])
  · exact if_pos (by simp [h])
  · exact if_pos (by simp [h])
  · simp only [h, ite_self]

/-- A ring that may go on, with its head command. -/
structure Heads (a : State) (r : Nat) (d : Bytes) : Prop where
  lt : r < 8
  active : a.active Ty.HIF 0 = true
  en : (a.ring r).en = true
  compl : (a.ring r).compl = none
  orphan : (a.ring r).orphan = none
  open_ : a.flag Reg.HIF_STS_QUIESCED 0 = false
  head : ∃ rest, (a.ring r).desc = d :: rest
  good : a.inv Ty.HIF 0 0 = false

/-- The head command goes through the checks of R415 in their order. -/
theorem ringCmd_head {d : Bytes} {c : CmdD} (h : Heads a r d) (hc : cmdOf d = c) : s.ringCmd r op cycle data =
    if c.op != op && 1 ≤ c.op && c.op ≤ 4 then a
    else if (a.ring r).waiting == 0 && toSigned 32 ((c.seq + 2 ^ 32 - (a.ring r).lastSeq) % 2 ^ 32) ≤ 0 then a.cmdEnd r c 1 0 []
    else if c.bad then a.cmdEnd r c 3 0 []
    else if !a.present c.ty c.inst then a.cmdEnd r c 4 0 []
    else if a.pageTaken r c.page then a
    else if op == 1 then (a.cmdWriteData r c).cmdEnd r c 0 0 []
    else if op == 2 then (a.cmdReadData r c).1.cmdEnd r c 0 0 (a.cmdReadData r c).2
    else if op == 3 then a.execStep r c data
    else (a.bulk c).1.cmdEnd r c (a.bulk c).2.1 0 (a.bulk c).2.2 := by
  obtain ⟨hlt, hact, hen, hcompl, horphan, hopen, ⟨rest, hd⟩, hgood⟩ := h
  subst hc
  have ring : (decide (8 ≤ r) || !(a.ring r).en || !a.active Ty.HIF 0 || (a.ring r).compl.isSome || (a.ring r).orphan.isSome ||
      a.flag Reg.HIF_STS_QUIESCED 0) = false := by
    simp [hact, hen, hcompl, horphan, hopen, Nat.not_le.2 hlt]
  unfold State.ringCmd
  simp only [ha, ring, Bool.false_eq_true, if_false, hd, ringUse_good hgood]

/-- A command of the row's operation that is no repetition goes on to the checks of its fields and of its page. -/
theorem ringCmd_new {d : Bytes} {c : CmdD} (h : Heads a r d) (hc : cmdOf d = c) (hop : c.op = op)
    (hnew : ¬ toSigned 32 ((c.seq + 2 ^ 32 - (a.ring r).lastSeq) % 2 ^ 32) ≤ 0) : s.ringCmd r op cycle data =
    if c.bad then a.cmdEnd r c 3 0 []
    else if !a.present c.ty c.inst then a.cmdEnd r c 4 0 []
    else if a.pageTaken r c.page then a
    else if op == 1 then (a.cmdWriteData r c).cmdEnd r c 0 0 []
    else if op == 2 then (a.cmdReadData r c).1.cmdEnd r c 0 0 (a.cmdReadData r c).2
    else if op == 3 then a.execStep r c data
    else (a.bulk c).1.cmdEnd r c (a.bulk c).2.1 0 (a.bulk c).2.2 := by
  rw [ringCmd_head ha h hc, if_neg (by simp [hop]), if_neg fun e => hnew (of_decide_eq_true (Bool.and_eq_true_iff.1 e).2)]

/-- A command that no check stops is run by its operation. -/
theorem ringCmd_run {d : Bytes} {c : CmdD} (h : Heads a r d) (hc : cmdOf d = c) (hop : c.op = op)
    (hnew : ¬ toSigned 32 ((c.seq + 2 ^ 32 - (a.ring r).lastSeq) % 2 ^ 32) ≤ 0)
    (hgo : c.bad = false ∧ a.present c.ty c.inst = true ∧ a.pageTaken r c.page = false) : s.ringCmd r op cycle data =
    if op == 1 then (a.cmdWriteData r c).cmdEnd r c 0 0 []
    else if op == 2 then (a.cmdReadData r c).1.cmdEnd r c 0 0 (a.cmdReadData r c).2
    else if op == 3 then a.execStep r c data
    else (a.bulk c).1.cmdEnd r c (a.bulk c).2.1 0 (a.bulk c).2.2 := by
  obtain ⟨hbad, hpage, hfree⟩ := hgo
  rw [ringCmd_new ha h hc hop hnew, if_neg (by simp [hbad]), if_neg (by simp [hpage]), if_neg (by simp [hfree])]

end

/-! ## EXEC -/

section
variable {a : State} {r : Nat} {c : CmdD} {data : Bytes} (hw : (a.ring r).waiting = 0)
include hw

theorem execStep_busy (hb : bitOf (a.view (c.key c.cmdOff)) 31 = true) :
    a.execStep r c data = a.setRing r { a.ring r with waiting := 1, waitAt := a.now } := by
  unfold State.execStep
  simp only [hw, hb, reduceIte, Nat.reduceBEq, Bool.false_eq_true]

omit hw in
/-- The definition is opened as a function: applied, the kernel would evaluate the register's address in it. -/
theorem execDone_eq {w p q : State} {v : Nat} {l : List Nat} (hp : w.readReg (1 + r) (c.key c.cmdOff) = (p, v)) (hq : p.cmdReadData r c = (q, l)) :
    w.execDone r c = q.cmdEnd r c 0 v l := by
  rw [show @State.execDone = _ by delta State.execDone; rfl]
  rw [hp]
  dsimp only
  rw [hq]

/-- A command that starts is given its data and its word, and waits for BUSY or ends. -/
theorem execStep_idle {w : State} (hb : bitOf (a.view (c.key c.cmdOff)) 31 = false)
    (h : (a.cmdWriteData r c).writeReg (1 + r) (c.key c.cmdOff) c.word data = w) : a.execStep r c data =
      if bitOf (w.view (c.key c.cmdOff)) 31 then w.setRing r { w.ring r with waiting := 2, waitAt := w.now } else w.execDone r c := by
  have first : ¬ ((a.ring r).waiting == 2) = true := fun e => absurd (hw.symm.trans (beq_iff_eq.1 e)) (by decide)
  have since (n : Nat) : (if (a.ring r).waiting == 0 then n else (a.ring r).waitAt) = n := if_pos (beq_iff_eq.2 hw)
  simp only [State.execStep, if_neg first, hb, since, h, Bool.false_eq_true, if_false]

end

/-! ## The end of a command -/

section
variable {s b : State} {r cycle : Nat}

theorem execTimeout_idle (hb : s.advanceTo (min cycle s.tm.len) = b) (h : (b.ring r).desc = [] ∨ (b.ring r).waiting = 0) :
    s.execTimeout r cycle = b := by
  unfold State.execTimeout
  simp only [hb]
  rcases h with h | h
  · simp only [h]
  · cases (b.ring r).desc
    · rfl
    · exact if_pos (by simp [h])

theorem execTimeout_waits {d : Bytes} {rest : List Bytes} {c : CmdD} {v : Nat} (hb : s.advanceTo (min cycle s.tm.len) = b)
    (hd : (b.ring r).desc = d :: rest) (hw : (b.ring r).waiting ≠ 0) (hc : cmdOf d = c) (hv : b.view (c.key c.cmdOff) = v) :
    s.execTimeout r cycle = if (b.ring r).waitAt + c.wait * 1250000 ≤ b.now ∧ bitOf v 31 = true then b.cmdEnd r c 5 v [] else b := by
  subst hc hv
  unfold State.execTimeout
  simp only [hb, hd]
  by_cases ht : (b.ring r).waitAt + (cmdOf d).wait * 1250000 ≤ b.now
  · by_cases hv : bitOf (b.view ((cmdOf d).key (cmdOf d).cmdOff)) 31 = true
    · rw [if_neg (by simp [hw, hv, Nat.not_lt.2 ht]), if_pos ⟨ht, hv⟩]
    · rw [if_pos (by simp [hv]), if_neg fun h => hv h.2]
  · rw [if_pos (by simp [Nat.not_le.1 ht]), if_neg fun h => ht h.1]

theorem complPost_waits {q : Nat} (hq : 8 + (s.ring r).cq % 8 = q)
    (h : (s.ring r).compl = none ∨ (s.ring q).en = false ∨ (s.ring q).desc = []) : s.complPost r = s := by
  subst hq
  unfold State.complPost
  cases hb : (s.ring r).compl with
  | none => simp only [hb]
  | some b =>
    simp only [hb]
    refine if_pos ?_
    rcases h with h | h | h
    · rw [hb] at h; cases h
    · simp [h]
    · simp [h]

theorem complPost_posts {q : Nat} {b : Bytes} {t : State} {ok : Bool} (hq : 8 + (s.ring r).cq % 8 = q) (hb : (s.ring r).compl = some b)
    (hen : (s.ring q).en = true) (hd : (s.ring q).desc ≠ []) (ht : s.ringPut q b = (t, ok)) :
    s.complPost r = if ok then (t.setRing r { t.ring r with compl := none }).count64 Reg.HIF_CMD_DONE_LO 0 else t := by
  subst hq
  unfold State.complPost
  simp [hb, hen, hd, ht]

end

/-! ## Register messages -/

section
variable {s : State} {cl i : Nat}

theorem msecMessage_none (h : ∀ p ∈ s.posts, ¬ (p.cluster = cl ∧ p.ep = Ty.MSEC * 256 + i)) : s.msecMessage cl i = s := by
  have hf : (s.posts.find? fun p => p.cluster == cl && p.ep == Ty.MSEC * 256 + i) = none :=
    List.find?_eq_none.2 fun p hp e => h p hp ⟨beq_iff_eq.1 (Bool.and_eq_true_iff.1 e).1, beq_iff_eq.1 (Bool.and_eq_true_iff.1 e).2⟩
  simp only [State.msecMessage, State.takePost, hf]

/-- The reply to a register message. -/
def msecReply (t : State) (p : Post) (cl i st v : Nat) : State := t.sendMail
  ⟨Ty.MSEC * 256 + i, cl, some p.nav, 2, toLE 1 (leAt p.body 0 1) ++ toLE 1 st ++ toLE 2 (leAt p.body 2 2) ++ toLE 4 v ++ sliceB p.body 8 8⟩

variable {p : Post} {l : List Post} (hp : s.posts = p :: l) (hc : p.cluster = cl) (he : p.ep = Ty.MSEC * 256 + i)
include hp hc he

theorem takePost_first : s.takePost cl (Ty.MSEC * 256 + i) = some (p, { s with posts := l }) := by
  subst hc
  simp only [State.takePost, hp, he, List.find?_cons_of_pos, beq_self_eq_true, Bool.and_self, List.erase_cons_head]

theorem msecMessage_write (hop : leAt p.body 0 1 = 1) (ho : msgOffset (leAt p.body 2 2) false = true) : s.msecMessage cl i =
    msecReply (({ s with posts := l } : State).writeReg (16 + cl) (regKey Ty.MSEC i (leAt p.body 2 2)) (leAt p.body 4 4) []) p cl i 0
      (leAt p.body 4 4) := by
  simp only [State.msecMessage, takePost_first hp hc he, hop, ho, Nat.reduceBEq, Bool.and_self, reduceIte, msecReply]

theorem msecMessage_read {t : State} {v : Nat} (hop : leAt p.body 0 1 = 2) (ho : msgOffset (leAt p.body 2 2) true = true)
    (hr : ({ s with posts := l } : State).readReg (16 + cl) (regKey Ty.MSEC i (leAt p.body 2 2)) = (t, v)) :
    s.msecMessage cl i = msecReply t p cl i 0 v := by
  simp only [State.msecMessage, takePost_first hp hc he, hop, ho, hr, Nat.reduceBEq, Bool.false_and, Bool.false_eq_true, Bool.and_self, reduceIte,
    msecReply]

theorem msecMessage_other (h1 : leAt p.body 0 1 ≠ 1) (h2 : leAt p.body 0 1 ≠ 2) :
    s.msecMessage cl i = msecReply { s with posts := l } p cl i 1 (leAt p.body 4 4) := by
  simp only [State.msecMessage, takePost_first hp hc he, beq_eq_false_iff_ne.2 h1, beq_eq_false_iff_ne.2 h2, Bool.false_and, Bool.false_eq_true,
    reduceIte, msecReply]

end

/-- Settles O58: the checks of the head command in their order, then its operation; the timeout, the completion and the messages by cases. -/
theorem ringCommandsAndRegisterMessages : Obligations.RingCommandsAndRegisterMessages := by
  intro s r cycle data hr hr8 a x
  have ea : (s.advanceTo (min cycle s.tm.len)).orphanStep = a := rfl
  clear_value a
  have w {t : State} (q : s.ringCmd r 1 cycle data = t) : Gives (.ringCmdWrite r cycle data) s t := Gives.of_live (·.ringCmd r 1 cycle data) hr rfl q
  have rd {t : State} (q : s.ringCmd r 2 cycle [] = t) : Gives (.ringCmdRead r cycle) s t := Gives.of_live (·.ringCmd r 2 cycle []) hr rfl q
  have ex {t : State} (q : s.ringCmd r 3 cycle data = t) : Gives (.ringCmdExec r cycle data) s t := Gives.of_live (·.ringCmd r 3 cycle data) hr rfl q
  have bk {t : State} (q : s.ringCmd r 4 cycle [] = t) : Gives (.ringCmdBulk r cycle) s t := Gives.of_live (·.ringCmd r 4 cycle []) hr rfl q
  refine ⟨fun h => ⟨w (ringCmd_idle ea h), rd (ringCmd_idle ea h), ex (ringCmd_idle ea h), bk (ringCmd_idle ea h)⟩,
    fun d rest ha hen hcompl horph hq hd hinv => ?_, ⟨fun h => ?_, fun d rest hd hw => ?_⟩, ⟨fun h => ?_, fun b hb hen hd => ?_⟩,
    fun cl i hcl hi => ⟨fun h => ?_, fun p l hp hpc hpe => ?_⟩⟩
  · have hh : Heads a r d := ⟨hr8, ha, hen, hcompl, horph, hq, ⟨rest, hd⟩, hinv⟩
    intro c old go
    have ec : cmdOf d = c := rfl
    clear_value c
    refine ⟨fun hop hw => ⟨fun ho => w ?_, fun ho hbad => w ?_, fun ho hbad hp => w ?_, fun ho hbad hp ht => w ?_, fun ho hgo => w ?_⟩,
      fun hop hw ho hgo => rd (ringCmd_run ea hh ec hop ho hgo), fun hop hw ho hgo => bk (ringCmd_run ea hh ec hop ho hgo), fun hop hw ho hgo => ?_,
      fun hop => w ?_⟩
    · rw [ringCmd_head ea hh ec, if_neg (by simp [hop]), if_pos (Bool.and_eq_true_iff.2 ⟨beq_iff_eq.2 hw, decide_eq_true ho⟩)]
    · rw [ringCmd_new ea hh ec hop ho, if_pos hbad]
    · rw [ringCmd_new ea hh ec hop ho, if_neg (by simp [hbad]), if_pos (by simp [hp])]
    · rw [ringCmd_new ea hh ec hop ho, if_neg (by simp [hbad]), if_neg (by simp [hp]), if_pos ht]
    · exact ringCmd_run ea hh ec hop ho hgo
    · intro busy wr
      have ewr : (a.cmdWriteData r c).writeReg (1 + r) (c.key c.cmdOff) c.word data = wr := rfl
      clear_value wr
      generalize hp : wr.readReg (1 + r) (c.key c.cmdOff) = z
      obtain ⟨p, word⟩ := z
      dsimp only
      generalize hl : p.cmdReadData r c = z
      obtain ⟨q, l⟩ := z
      have run {t : State} (q : a.execStep r c data = t) : s.ringCmd r 3 cycle data = t :=
        (ringCmd_run ea hh ec hop ho hgo).trans ((if_neg (by decide)).trans ((if_neg (by decide)).trans ((if_pos (by decide)).trans q)))
      refine ⟨fun hb => ex (run (execStep_busy hw hb)), fun hb hb' => ex (run ?_), fun hb hb' => ex (run ?_)⟩
      · exact (execStep_idle hw hb ewr).trans (if_pos hb')
      · refine (execStep_idle hw hb ewr).trans ((if_neg fun e => Bool.false_ne_true (hb'.symm.trans e)).trans ?_)
        exact execDone_eq hp hl
    · rw [ringCmd_head ea hh ec, if_pos (by simp [hop])]
  · exact Gives.of_live _ hr rfl ((if_pos hr8).trans (execTimeout_idle rfl h))
  · exact Gives.of_live _ hr rfl ((if_pos hr8).trans (execTimeout_waits rfl hd hw rfl rfl))
  · exact Gives.of_live _ hr rfl ((if_pos hr8).trans (complPost_waits rfl h))
  · split
    rename_i t ok ht
    exact Gives.of_live _ hr rfl ((if_pos hr8).trans (complPost_posts rfl hb hen hd ht))
  · exact Gives.of_live (fun s => s.msecMessage (cl % 32) (i % 32)) hr rfl (by rw [Nat.mod_eq_of_lt hcl, Nat.mod_eq_of_lt hi, msecMessage_none h])
  · have gives {t : State} (q : s.msecMessage cl i = t) : Gives (.msecRegMessage cl i) s t :=
      Gives.of_live (fun s => s.msecMessage (cl % 32) (i % 32)) hr rfl (by rw [Nat.mod_eq_of_lt hcl, Nat.mod_eq_of_lt hi, q])
    exact ⟨fun hop ho => gives (msecMessage_write hp hpc hpe hop ho), fun hop ho => gives (msecMessage_read hp hpc hpe hop ho rfl),
      fun h => gives (msecMessage_other hp hpc hpe h.1 h.2)⟩

end Sys2Proof.Proofs

/-! PROOF. Circuit links of 11_circuits_tsi.md: reception, transmission, seconds, bins and staging (R305 to R323). -/

namespace Sys2Proof.Proofs

open Sys2Proof.Machine Sys2Proof.Laws

/-! ## Reception (R309, R311) -/

section
variable {s a : State} {l cycle : Nat} {f : Bytes}

theorem cktRx_off (at0 : Bool) (h : s.on Reg.CKT_CTL_RX_EN l = false) : s.cktRx l cycle at0 f = s := if_pos (by simp [h])

variable (hon : s.on Reg.CKT_CTL_RX_EN l = true) (ha : s.advanceTo cycle = a)
include hon ha

theorem cktRx_hunt (at0 : Bool) (hst : a.rxState l = 0) : s.cktRx l cycle at0 f =
    if cktHdrOk f then (a.setCl l { a.cl l with conf := 0, rxLast := some (beAt f 0 6), rxBip := none }).setFld Reg.CKT_STS_RX_STATE l 1 else a := by
  unfold State.cktRx
  simp only [hon, Bool.not_true, Bool.false_eq_true, if_false, ha, hst]

theorem cktRx_presync (at0 : Bool) (hst : a.rxState l = 1) : s.cktRx l cycle at0 f =
    if at0 && cktHdrOk f && (a.cl l).rxLast.map (· + 1) == some (beAt f 0 6) then
      if (a.cl l).conf == 1 then
        ((a.setCl l ({ a.cl l with conf := 2, miss := 0, rxLast := some (beAt f 0 6), rxBip := some (bip8 f) }.defect 1 false)).setFld
          Reg.CKT_STS_RX_STATE l 2).cktShow l
      else a.setCl l { a.cl l with conf := (a.cl l).conf + 1, rxLast := some (beAt f 0 6) }
    else a.setFld Reg.CKT_STS_RX_STATE l 0 := by
  unfold State.cktRx
  simp only [hon, Bool.not_true, Bool.false_eq_true, if_false, ha, hst]

variable (hst : 1 < a.rxState l)
include hst

/-- A frame in its place in SYNC: good, or a miss, the third of which in a row loses synchronisation. -/
theorem cktRx_sync {z : State} (hz : (a.count Reg.CKT_HDR_MISS l).cktStart l cycle = z) : s.cktRx l cycle true f =
    if cktHdrOk f then a.cktGood l cycle f
    else if 2 ≤ (z.cl l).miss then
      ((z.setCl l ({ z.cl l with miss := 0, conf := 0, rxBip := none }.defect 1 true)).setFld Reg.CKT_STS_RX_STATE l 0).cktShow l
    else z.setCl l { z.cl l with miss := (z.cl l).miss + 1, rxBip := none, runTick := 0 } := by
  subst hz
  obtain ⟨n, hn⟩ : ∃ n, a.rxState l = n + 2 := ⟨a.rxState l - 2, by omega⟩
  unfold State.cktRx
  simp only [hon, Bool.not_true, Bool.false_eq_true, if_false, ha, hn, if_true]

/-- Whether a frame out of its place in SYNC is a new anchor: its header good and marked, its TICK ahead, and headers missed. -/
def anchors (x : CktS) (f : Bytes) : Bool :=
  cktHdrOk f && (bitOf (beAt f 7 1) 7 || bitOf (beAt f 7 1) 6) && (match x.rxLast with
    | some j => decide (j < beAt f 0 6)
    | none => false) && x.miss != 0

omit hon ha hst in
theorem anchors_true {x : CktS} {j : Nat} (hok : cktHdrOk f = true) (hb : bitOf (beAt f 7 1) 6 = true ∨ bitOf (beAt f 7 1) 7 = true)
    (hj : x.rxLast = some j) (hlt : j < beAt f 0 6) (hm : x.miss ≠ 0) : anchors x f = true := by
  unfold anchors
  rcases hb with hb | hb <;> simp [hok, hb, hj, hlt, hm]

omit hon ha hst in
theorem anchors_false {x : CktS} (h : cktHdrOk f = false ∨ (bitOf (beAt f 7 1) 6 = false ∧ bitOf (beAt f 7 1) 7 = false) ∨ x.miss = 0) :
    anchors x f = false := by
  unfold anchors
  rcases h with h | ⟨h6, h7⟩ | h
  · simp [h]
  · simp [h6, h7]
  · simp [h]

theorem cktRx_astray : s.cktRx l cycle false f =
    if anchors (a.cl l) f then ((a.setCl l { a.cl l with rxBip := none }).count Reg.CKT_RESYNC l).cktGood l cycle f else a := by
  obtain ⟨n, hn⟩ : ∃ n, a.rxState l = n + 2 := ⟨a.rxState l - 2, by omega⟩
  unfold State.cktRx
  simp only [hon, Bool.not_true, Bool.false_eq_true, if_false, ha, hn]
  rfl

end

theorem gives_cktFrameReceive {s r : State} {l cycle : Nat} {at0 : Bool} {f : List Byte} (hr : Running s) (hl : l < 4) (q : s.cktRx l cycle at0 f = r) :
    Gives (.cktFrameReceive l cycle at0 f) s r :=
  Gives.of_live (fun s => s.cktRx (l % 4) cycle at0 f) hr rfl (by rw [Nat.mod_eq_of_lt hl, q])

/-! ## Signal reports and transmission (R305 to R309, R315) -/

section
variable {s : State} {l : Nat}

theorem cktSignal_absent (lost : Bool) (h : s.present Ty.CKT l = false) : s.cktSignal l lost = s := if_pos (by simp [h])

theorem cktSignal_present (lost : Bool) (h : s.present Ty.CKT l = true) :
    s.cktSignal l lost = (s.setCl l ((s.cl l).defect 0 lost)).cktShow l := if_neg (by simp [h])

theorem cktTx_absent (h : s.present Ty.CKT l = false) : s.cktTx l = s := if_pos (by simp [h])

variable {x : CktS} (hp : s.present Ty.CKT l = true) (hx : (s.cl l).endPeriod (s.tm.stepGap * 10368 / (1000 * nsU)) = x)
include hp hx

theorem cktTx_idle (h : s.active Ty.CKT l = false ∨ s.fld Reg.CKT_CTL_TX_MODE l = 0 ∨ s.flag Reg.SER_STS_HIGH_RATE (68 + l) = false) :
    s.cktTx l = s.setCl l { x with line := 0, last := none, gap := false, bip := none, gapAt := 0 } := by
  subst hx
  unfold State.cktTx
  rw [if_neg (by simp [hp])]
  exact if_pos (by rcases h with h | h | h <;> simp [h])

variable (hi : ¬ (s.active Ty.CKT l = false ∨ s.fld Reg.CKT_CTL_TX_MODE l = 0 ∨ s.flag Reg.SER_STS_HIGH_RATE (68 + l) = false))
include hi

omit hp hx in
theorem not_idle : (!s.active Ty.CKT l || s.fld Reg.CKT_CTL_TX_MODE l == 0 || !s.flag Reg.SER_STS_HIGH_RATE (68 + l)) = false := by
  simp only [not_or, Bool.not_eq_false] at hi
  obtain ⟨ha, hm, hh⟩ := hi
  simp [ha, hm, hh]

theorem cktTx_gap (hm : s.fld Reg.CKT_CTL_TX_MODE l ≠ 2 ∨ s.tm.free = true) :
    s.cktTx l = s.setCl l { x with line := 1, gap := true, gapAt := if x.line = 0 then 0 else x.gapAt } := by
  subst hx
  unfold State.cktTx
  rw [if_neg (by simp [hp])]
  refine (if_neg (by simp [not_idle hi])).trans ((if_pos ?_).trans ?_)
  · rcases hm with hm | hm <;> simp [hm]
  · simp only [beq_iff_eq]

end

/-! ## Frames sent -/

section
variable {s : State} {l : Nat} {x : CktS}

/-- The bits of byte 7 of a frame's header: gap, skip, AIS and RDI. -/
def cktFlags (s : State) (l : Nat) (x : CktS) : Nat :=
  let b (v : Bool) (i : Nat) : Nat := if v then 2 ^ i else 0
  b (x.gap || s.tm.wasStep) 7 + b (x.last.map (· + 1) != some s.tm.m) 6 + b (s.flag Reg.CKT_CTL_TX_AIS l) 5 + b (s.flag Reg.CKT_CTL_TX_RDI l) 4

/-- The first 12 bytes of a frame's header, which its CRC-32C covers. -/
def cktHead (s : State) (l : Nat) (x : CktS) : Bytes := toBE 6 s.tm.m ++ toBE 1 l ++ toBE 1 (cktFlags s l x) ++ toBE 4 0

/-- A counter of a circuit link leaves its control word alone. -/
theorem flag_countN_cktCtl (n : Nat) : (s.countN Reg.CKT_FILL_BYTES l n).flag Reg.CKT_CTL_SCR_OFF l = s.flag Reg.CKT_CTL_SCR_OFF l := by
  unfold State.flag State.fld
  rw [rd_countN_ne]
  · exact at_ne_of_off (q := ⟨Ty.CKT, Reg.CKT_CTL_SCR_OFF.off⟩) l rfl (by decide)
  · exact at_ne_of_off (q := ⟨Ty.CKT, Reg.CKT_CTL_SCR_OFF.off⟩) l rfl (by decide)

/-- A framed link sends the frame of the tick: its header, the checks, and what the connections and paths put after them. -/
theorem cktTx_frame (hp : s.present Ty.CKT l = true) (hx : (s.cl l).endPeriod (s.tm.stepGap * 10368 / (1000 * nsU)) = x)
    (hi : ¬ (s.active Ty.CKT l = false ∨ s.fld Reg.CKT_CTL_TX_MODE l = 0 ∨ s.flag Reg.SER_STS_HIGH_RATE (68 + l) = false))
    (hm : s.fld Reg.CKT_CTL_TX_MODE l = 2) (hf : s.tm.free = false) :
    ∃ (u : State) (y : CktS) (rest f : Bytes), s.cktTx l = u.setCl l { y with line := 2, last := some s.tm.m, gap := false, bip := some (bip8 f), sent := f, gapAt := 0 } ∧
      u.ckt = s.ckt ∧
      f = cktScramble (s.flag Reg.CKT_CTL_SCR_OFF l) (cktHead s l x ++ toBE 4 (crc32c (cktHead s l x)) ++ toBE 1 (x.bip.getD 0) ++ rest) := by
  subst hx
  unfold State.cktTx
  rw [if_neg (by simp [hp])]
  extract_lets x mode n gap skip ais b h febe sec page st want s1 body0 body1 body2 body stAt ohead y f s2
  rw [if_neg (by simp [mode, not_idle hi]), if_neg (by simp [mode, hm, hf])]
  refine ⟨s2, y, toBE 1 febe ++ toBE 14 0 ++ ohead ++ body, f, rfl, ?_, ?_⟩
  · simp only [s2, s1, apply_ite State.ckt, count_ckt, countN_ckt, ite_self]
  · have flag : s1.flag Reg.CKT_CTL_SCR_OFF l = s.flag Reg.CKT_CTL_SCR_OFF l := flag_countN_cktCtl _
    simp only [f, flag, sec, List.append_assoc]
    rfl

end

/-! ## Seconds and bins (R319, R320) -/

section
variable {y : Pm} {t thr : Nat}

theorem Pm.closeStray_counts (y : Pm) (t : Nat) : (y.closeStray t).errs = y.errs ∧ (y.closeStray t).defect = y.defect ∧
    (y.closeStray t).una = y.una ∧ (y.closeStray t).sesRun = y.sesRun ∧ (y.closeStray t).okRun = y.okRun := by
  unfold Machine.Pm.closeStray
  dsimp only
  cases strayBin 900 t y.q <;> simp only [Bool.false_eq_true, if_true, if_false] <;> split <;> exact ⟨rfl, rfl, rfl, rfl, rfl⟩

/-- What of an entity's monitoring no bin holds: the counts of its second and its state. -/
def Pm.state (y : Pm) : Nat × Nat × Bool × Bool × Bool := (y.errs, y.far, y.defect, y.rdi, y.una)

theorem Pm.state_roll (y : Pm) (t : Nat) (on : Bool) : Pm.state (y.roll t on) = Pm.state y := by
  unfold Machine.Pm.roll
  dsimp only
  split <;> split <;> rfl

theorem Pm.state_foldl (l : List PmSec) (a b c d : Bool) (y : Pm) :
    Pm.state (l.foldl (fun (y : Pm) r => (y.sec r a b).sec r c d) y) = Pm.state y := by
  induction l generalizing y with
  | nil => rfl
  | cons r l ih => exact (ih _).trans rfl

/-- A severely errored second of an entity whose counts stand. -/
def Pm.severe (y : Pm) (thr : Nat) : Bool := decide (thr ≤ y.errs) || y.defect

/-- A second clears its counts; ten severely errored ones in a row make the entity unavailable, and ten others end that. -/
theorem Pm.state_second (y : Pm) (t thr : Nat) : Pm.state (y.second t thr) =
    (0, 0, false, false, if y.una then !(!Pm.severe y thr && y.okRun == 9) else Pm.severe y thr && y.sesRun == 9) := by
  obtain ⟨herrs, hdefect, huna, hses, hok⟩ := Pm.closeStray_counts y t
  have hsevere : (decide (thr ≤ (y.closeStray t).errs) || (y.closeStray t).defect) = Pm.severe y thr := by rw [herrs, hdefect]; rfl
  unfold Machine.Pm.second
  extract_lets z q day ses fses r sesRun okRun hist y1 y2 y3 y4
  have kept : Pm.state y1 = (0, 0, false, false, y.una) := congrArg (fun b => (0, 0, false, false, b)) huna
  have hr : (sesRun == 10) = (Pm.severe y thr && y.sesRun == 9) := by
    simp only [sesRun, ses, z, hsevere, hses]
    cases Pm.severe y thr <;> simp
  have ho : (okRun == 10) = (!Pm.severe y thr && y.okRun == 9) := by
    simp only [okRun, ses, z, hsevere, hok]
    cases Pm.severe y thr <;> simp
  rw [Pm.state_roll]
  simp only [y4, show y1.una = y.una from huna, hr, ho]
  cases hu : y.una <;> rw [hu] at kept
  · simp only [Bool.false_eq_true, if_false]
    cases Pm.severe y thr && y.sesRun == 9
    · exact kept
    · exact Pm.state_foldl hist _ _ _ _ _
  · simp only [if_true]
    cases !Pm.severe y thr && y.okRun == 9
    · exact kept
    · exact Pm.state_foldl hist _ _ _ _ _

end

section
variable {s : State} {l : Nat}

/-- Whether the second that ends with this tick ends one of the monitoring's. -/
def pmDue (s : State) (l : Nat) : Prop :=
  if s.tm.free then (s.cl l).second + 8000 ≤ s.tm.tickNo + 1 else (s.tm.m - s.tm.e) % 8000 = 0

theorem pmDue_iff : (if s.tm.free then decide ((s.cl l).second + 8000 ≤ s.tm.tickNo + 1) else (s.tm.m - s.tm.e) % 8000 == 0) = true ↔ pmDue s l := by
  unfold pmDue
  cases s.tm.free <;> simp

theorem pmSecond_idle (h : s.present Ty.CKT l = false ∨ ¬ pmDue s l ∨ (s.cl l).second = s.tm.tickNo + 1) : s.pmSecond l = s := by
  unfold State.pmSecond
  rcases h with h | h | h
  · exact if_pos (by simp [h])
  · refine (if_congr Iff.rfl rfl (if_pos ?_)).trans (ite_self _)
    exact Bool.or_eq_true_iff.2 (.inl (Bool.not_eq_true' _ ▸ Bool.eq_false_iff.2 (mt pmDue_iff.1 h)))
  · refine (if_congr Iff.rfl rfl (if_pos ?_)).trans (ite_self _)
    simp [h]

/-- The section's monitoring is untouched by that of the paths, whose numbers are below its own. -/
theorem pmOf_foldl_paths {f : CktS → Nat × CktPath → CktS} (ps : Tbl CktPath) (hps : ∀ q ∈ ps, q.1 < 2048)
    (hf : ∀ x q, q.1 < 2048 → (f x q).pmOf 2048 = x.pmOf 2048) (x : CktS) : (ps.foldl f x).pmOf 2048 = x.pmOf 2048 := by
  induction ps generalizing x with
  | nil => rfl
  | cons q ps ih =>
    exact (ih (fun q' h => hps q' (List.mem_cons_of_mem q h)) _).trans (hf x q (hps q List.mem_cons_self))

theorem pmOf_setPm_self (x : CktS) (e : Nat) (y : Pm) : (x.setPm e y).pmOf e = y := Tbl.get_set_self _ _ _ _

theorem pmOf_setPm_ne (x : CktS) {e k : Nat} (h : k ≠ e) (y : Pm) : (x.setPm e y).pmOf k = x.pmOf k := Tbl.get_set_ne _ _ _ h _

/-- A second that ends is entered in the section's monitoring, or passed over where it is off. -/
theorem pmSecond_due (hp : s.present Ty.CKT l = true) (hd : pmDue s l) (hn : (s.cl l).second ≠ s.tm.tickNo + 1) :
    ∃ y : CktS, s.pmSecond l = (s.setCl l { y with second := s.tm.tickNo + 1 }).cktShow l ∧
      ((∀ q ∈ (s.cl l).paths, q.1 < 2048) → y.pmOf 2048 =
        if s.on Reg.CKT_CTL_PM_EN l then
          (((s.cl l).pmOf 2048).degrade (s.fld Reg.CKT_DEG_CFG_S_THR l)).second (s.pmNow - 1) (s.fld Reg.CKT_SES_CFG_S_SES l)
        else (((s.cl l).pmOf 2048).degrade (s.fld Reg.CKT_DEG_CFG_S_THR l)).skip (s.pmNow - 1)) := by
  unfold State.pmSecond
  rw [if_neg (by simp [hp])]
  extract_lets x due t m deg sec x1 sec1 x2 one x3
  have hdue : due = true := pmDue_iff.2 hd
  rw [if_neg (by simpa [hdue] using hn)]
  refine ⟨x3, rfl, fun hps => ?_⟩
  refine (pmOf_foldl_paths x2.paths hps (fun z q hq => ?_) x2).trans (pmOf_setPm_self x1 2048 sec1)
  simp only [one]
  split
  · rfl
  · exact pmOf_setPm_ne _ (by omega) _

theorem isSome_binDue (t len : Nat) (b : Option PmBin) : (binDue t len b).isSome = true ↔ ∃ c, b = some c ∧ c.start + len + 10 ≤ t := by
  cases b <;> simp [binDue, Option.filter]

theorem pmFinal_absent (h : s.present Ty.CKT l = false) : s.pmFinal l = s := if_pos (by simp [h])

theorem pmFinal_present (h : s.present Ty.CKT l = true) {t : State}
    (ht : s.setCl l { s.cl l with pm := (s.cl l).pm.mapV (fun _ => pmReset) fun _ y => y.final s.pmNow } = t) :
    s.pmFinal l = if ∃ e ∈ (s.cl l).pm, ∃ b, e.2.qEnd = some b ∧ b.start + 910 ≤ s.pmNow then t.intSet Ty.CKT l 4 else t := by
  subst ht
  refine (if_neg (by simp [h])).trans (if_congr ?_ rfl rfl)
  simp only [List.any_eq_true, isSome_binDue, Nat.add_assoc]

end

/-! ## What an event of a page leaves alone -/

/-- A register that no event of a page writes: on no page of the response, and none of the page's capture, flags and count. -/
def EventFree (ty inst k : Nat) : Prop := Aside k ∧ ∀ off ∈ [0x14, 0x20, 0x24, 0x28, 0x2C, 0x38], k ≠ (⟨ty, off⟩ : RegId).at inst

theorem eventFree_of_off {r : RegId} (inst : Nat) (h : Aside (r.at inst)) (ho : r.off ∉ [0x14, 0x20, 0x24, 0x28, 0x2C, 0x38]) :
    EventFree r.ty inst (r.at inst) :=
  ⟨h, fun off hm => at_ne_of_off (q := r) (r := ⟨r.ty, off⟩) inst rfl fun e => ho (e ▸ hm)⟩

theorem rd_escalate (s : State) (d : Det) (c : EClass) (k : Nat) : (s.escalate d c).1.rd k = s.rd k := by
  unfold State.escalate
  dsimp only
  split
  · rfl
  · split
    · rfl
    · split <;> exact rd_bin s _

theorem rd_capture_free {d : Det} {k : Nat} (h : EventFree d.ty d.inst k) (s : State) (c : EClass) (e : Bool) : (s.capture d c e).rd k = s.rd k := by
  have set (s : State) (off v : Nat) (ho : off ∈ [0x14, 0x20, 0x24, 0x28, 0x2C, 0x38]) : (s.setReg ⟨d.ty, off⟩ d.inst v).rd k = s.rd k :=
    rd_wr_ne s (h.2 off ho) _
  unfold State.capture
  dsimp only
  split
  · exact (set _ 0x2C _ (by simp)).trans ((set _ 0x28 _ (by simp)).trans ((set _ 0x24 _ (by simp)).trans (set s 0x20 _ (by simp))))
  · split
    · split
      · exact set s 0x20 _ (by simp)
      · rfl
    · exact (rd_lateAdd _ _ _ _ _).trans (set s 0x2C _ (by simp))

theorem rd_record_free {d : Det} {k : Nat} (h : EventFree d.ty d.inst k) (s : State) (c : EClass) : (s.record d c).rd k = s.rd k := by
  by_cases hp : s.present d.ty d.inst = true
  · rw [rd_record_aside hp c h.1 (h.2 0x38 (by simp)) (h.2 0x14 (by simp)), rd_capture_free h, rd_escalate]
  · exact congrArg (fun t : State => t.rd k) (if_pos (by simpa using hp))

theorem eventFree_bin {k : Nat} (h : Aside k) : EventFree Ty.BIN 0 k :=
  ⟨h, fun off hm e => h (by
    have ho : off < 4096 := by simp only [List.mem_cons, List.not_mem_nil, or_false] at hm; omega
    rw [e, RegId.at, keyTy_regKey (by decide) ho]
    exact .inl rfl)⟩

theorem rd_raise_free {ty inst k : Nat} (h : EventFree ty inst k) (s : State) (src lo hi : Nat) : (s.raise ty inst src lo hi).rd k = s.rd k := by
  unfold State.raise
  split
  · unfold State.event
    split
    · rfl
    · split
      · refine (rd_record_free (d := ⟨ty, inst, src, lo, hi, false, none⟩) h _ _).trans ?_
        exact (rd_bin (s.record _ _) _).trans
          (rd_record_free (d := ⟨Ty.BIN, 0, 2, pageKey ty inst, pageKey ty inst * 2 ^ 16, false, none⟩) (eventFree_bin h.1) s _)
      · rw [rd_record_free (d := ⟨ty, inst, src, lo, hi, false, none⟩) h]
  · rfl

theorem quiet_raiseInv (s : State) (ty inst src e u : Nat) : quiet (s.raiseInv ty inst src e u) = quiet s :=
  (quiet_raise _ _ _ _ _ _).trans rfl

theorem rd_raiseInv_free {ty inst k : Nat} (h : EventFree ty inst k) (s : State) (src e u : Nat) : (s.raiseInv ty inst src e u).rd k = s.rd k :=
  (rd_raise_free h _ _ _ _).trans rfl

/-! ## Staging (R323) -/

section
variable {s a : State} {d r cycle moved : Nat}

theorem stageConn_tm (s : State) (d r : Nat) (c : Conn) : (s.stageConn d r c).tm = s.tm := by
  unfold State.stageConn
  extract_lets got on b s1 moved put
  have h1 : s1.tm = s.tm := by simp only [s1, apply_ite State.tm, count_tm, ite_self]
  have hm (t : State) : (moved t).tm = t.tm := by
    simp only [moved]
    cases got
    · simp only [apply_ite State.tm, count64_tm, ite_self]
    all_goals rfl
  split
  · exact h1
  · split
    · exact (hm _).trans h1
    · split
      · exact (hm _).trans h1
      · exact h1

theorem circuitsMissing_tm (s : State) (t u : Nat) : (s.circuitsMissing t u).tm = s.tm := by
  unfold State.circuitsMissing
  simp only [apply_ite State.tm, countN_tm, ite_self]

/-- A run of steps that keep time may take what they read of time from its start. -/
theorem foldl_tm_const {α : Type} {f : State → Nat → α → State} (hf : ∀ u r x, (f u r x).tm = u.tm) (l : List α) (u : State) {m : Nat} (hm : u.tm.m = m) :
    l.foldl (fun u x => f u (u.tm.m - 1) x) u = l.foldl (fun u x => f u (m - 1) x) u ∧ (l.foldl (fun u x => f u (m - 1) x) u).tm.m = m := by
  induction l generalizing u with
  | nil => exact ⟨rfl, hm⟩
  | cons x l ih =>
    simp only [List.foldl_cons, hm]
    exact ih _ (by rw [hf, hm])

/-- The parity error of an entry read, while ERR_INV_CHECK asks for one, is added to those at hand. -/
theorem connInv_inv (h : s.inv Ty.TSI 0 0 = true) (page i : Nat) :
    (s.connInv page i).inv Ty.TSI 0 0 = true ∧ (s.connInv page i).tm = s.tm ∧
    (s.connInv page i).tsi = { s.tsi with badPar := connKey page i :: s.tsi.badPar.filter (· != connKey page i) } := by
  have e : s.connInv page i = { s.raiseInv Ty.TSI 0 1 i page with tsi :=
      { (s.raiseInv Ty.TSI 0 1 i page).tsi with badPar := connKey page i :: (s.raiseInv Ty.TSI 0 1 i page).tsi.badPar.filter (· != connKey page i) } } :=
    if_pos h
  have q := quiet_raiseInv s Ty.TSI 0 1 i page
  have htsi : (s.raiseInv Ty.TSI 0 1 i page).tsi = s.tsi := (congrArg State.tsi q : (quiet _).tsi = (quiet s).tsi)
  have hrd : (s.raiseInv Ty.TSI 0 1 i page).rd ((Reg.ERR_INV_CHECK Ty.TSI).at 0) = s.rd ((Reg.ERR_INV_CHECK Ty.TSI).at 0) :=
    rd_raiseInv_free (eventFree_of_off 0 (by unfold Aside Responds; decide) (by decide)) s 1 i page
  refine ⟨?_, ?_, ?_⟩
  · rw [e]
    exact (congrArg (fun w : Word => bitOf w.toNat 0) hrd).trans h
  · rw [e]
    exact (tm_of_quiet q :)
  · rw [e]
    simp only [htsi]

/-- Every entry read is added, and the rest of the interchange and time stay. -/
theorem foldl_connInv (d : Nat) (l : List (Nat × Conn)) (s : State) (h : s.inv Ty.TSI 0 0 = true) {page : Nat} (hd : s.tsiPageAt d = page) {t : State}
    (ht : l.foldl (fun u e => u.connInv (u.tsiPageAt d) e.1) s = t) :
    t.tm = s.tm ∧ t.tsi = { s.tsi with badPar := t.tsi.badPar } ∧ ∀ k, k ∈ t.tsi.badPar ↔ k ∈ s.tsi.badPar ∨ ∃ e ∈ l, k = connKey page e.1 := by
  subst ht
  induction l generalizing s with
  | nil => exact ⟨rfl, rfl, fun k => by simp⟩
  | cons e l ih =>
    simp only [List.foldl_cons, hd]
    obtain ⟨hinv, htm, htsi⟩ := connInv_inv h page e.1
    obtain ⟨im, it, ik⟩ := ih (s.connInv page e.1) hinv (by simp only [State.tsiPageAt, htsi]; exact hd)
    refine ⟨im.trans htm, ?_, fun k => (ik k).trans ?_⟩
    · rw [it, htsi]
    · simp only [htsi, List.mem_cons, List.mem_filter, bne_iff_ne, exists_eq_or_imp]
      by_cases hk : k = connKey page e.1 <;> simp [hk]

theorem foldl_connInv_off (d : Nat) (l : List (Nat × Conn)) (h : s.inv Ty.TSI 0 0 = false) :
    l.foldl (fun u e => u.connInv (u.tsiPageAt d) e.1) s = s := by
  induction l with
  | nil => rfl
  | cons e l ih => simpa [State.connInv, h] using ih

/-- What staging does once the entries of the page in effect have been read. -/
def stageRun (d r cycle moved : Nat) (a : State) : State :=
  let l := (a.pageConns (a.tsiPageAt d)).map (·.2)
  let b := (if a.inTime Ty.TSI 0 cycle then l else l.take moved).foldl (fun (u : State) x => u.stageConn d r x) a
  ((List.range 32).foldl (fun (u : State) t => u.circuitsMissing t r) b).complete Ty.TSI 0 cycle

theorem tsiStage_idle (h : s.present Ty.TSI 0 = false ∨ s.tm.free = true) : s.tsiStage cycle moved = s :=
  if_pos (by rcases h with h | h <;> simp [h])

theorem tsiStage_runs (hp : s.present Ty.TSI 0 = true) (hf : s.tm.free = false)
    (ha : (s.pageConns (s.tsiPageAt s.nextM)).foldl (fun (u : State) e => u.connInv (u.tsiPageAt s.nextM) e.1) s = a) (htm : a.tm = s.tm) :
    s.tsiStage cycle moved = stageRun s.nextM (s.tm.m - 1) cycle moved a := by
  subst ha
  unfold State.tsiStage stageRun
  rw [if_neg (by simp [hp, hf])]
  extract_lets d a l l' b
  obtain ⟨first, hm⟩ := foldl_tm_const (f := fun u r x => u.stageConn d r x) (fun u r x => stageConn_tm u d r x) l' a (congrArg TimeS.m htm)
  obtain ⟨second, -⟩ := foldl_tm_const (f := fun u r t => u.circuitsMissing t r) (fun u r t => circuitsMissing_tm u t r) (List.range 32) _ hm
  simp only [b, first, second]
  rfl

end

/-! ## The obligation -/

/-- Settles O17: reception by the receiver's state, transmission by the mode, seconds and bins by what is due, staging by what is read first. -/
theorem circuitFramesSecondsAndBins : Obligations.CircuitFramesSecondsAndBins := by
  refine ⟨fun s l cycle at0 f hr hl => ?_, fun s l lost hr hl => ?_, fun s l hr hl => ?_, fun s l hr hl => ?_, fun y t thr => ?_, fun s cycle moved hr => ?_⟩
  · intro c a x k late z
    have gives {t : State} (q : s.cktRx l cycle at0 f = t) : Gives c s t := gives_cktFrameReceive hr hl q
    refine ⟨fun h => gives (cktRx_off at0 h), fun hon => ⟨fun hst => ⟨fun hok => gives ?_, fun hok => gives ?_⟩,
      fun hst => ⟨fun h0 hok hk => ⟨fun hc => gives ?_, fun hc => gives ?_⟩, fun h => gives ?_⟩,
      fun hst h0 => ⟨fun hok => gives ?_, fun hok hm => gives ?_, fun hok hm => gives ?_⟩, fun hst h0 hok hb hm ⟨j, hj, hlt⟩ => gives ?_,
      fun hst h0 h => gives ?_⟩⟩
    · exact (cktRx_hunt hon rfl at0 hst).trans (if_pos hok)
    · exact (cktRx_hunt hon rfl at0 hst).trans (if_neg (by simp [hok]))
    · exact (cktRx_presync hon rfl at0 hst).trans ((if_pos (by simp [h0, hok, hk, k, x, a])).trans (if_neg (by simpa using hc)))
    · exact (cktRx_presync hon rfl at0 hst).trans ((if_pos (by simp [h0, hok, hk, k, x, a])).trans (if_pos (by simpa using hc)))
    · refine (cktRx_presync hon rfl at0 hst).trans (if_neg ?_)
      rcases h with h | h | h
      · simp [h]
      · simp [h]
      · exact fun e => h (beq_iff_eq.1 (Bool.and_eq_true_iff.1 e).2)
    · exact h0 ▸ (cktRx_sync hon rfl hst rfl).trans (if_pos hok)
    · exact h0 ▸ (cktRx_sync hon rfl hst rfl).trans ((if_neg (by simp [hok])).trans (if_neg (Nat.not_le.2 hm)))
    · exact h0 ▸ (cktRx_sync hon rfl hst rfl).trans ((if_neg (by simp [hok])).trans (if_pos hm))
    · exact h0 ▸ (cktRx_astray hon rfl hst).trans (if_pos (anchors_true hok hb hj hlt hm))
    · exact h0 ▸ (cktRx_astray hon rfl hst).trans (if_neg fun e => Bool.false_ne_true ((anchors_false h).symm.trans e))
  · have gives {t : State} (q : s.cktSignal l lost = t) : Gives (.cktSignalChange l lost) s t :=
      Gives.of_live (fun s => s.cktSignal (l % 4) lost) hr rfl (by rw [Nat.mod_eq_of_lt hl, q])
    exact ⟨fun h => gives (cktSignal_absent lost h), fun h => gives (cktSignal_present lost h)⟩
  · intro c x mode idle
    have gives {t : State} (q : s.cktTx l = t) : Gives c s t := Gives.of_live (fun s => s.cktTx (l % 4)) hr rfl (by rw [Nat.mod_eq_of_lt hl, q])
    refine ⟨fun h => gives (cktTx_absent h), fun hp => ⟨fun hi => gives (cktTx_idle hp rfl hi), fun hi hm => gives (cktTx_gap hp rfl hi hm),
      fun hi hm hf => ?_⟩⟩
    obtain ⟨u, y, rest, fr, e, hu, hfr⟩ := cktTx_frame hp rfl hi hm hf
    refine ⟨_, rest, gives e, ?_⟩
    simp only [cl_setCl_self]
    refine ⟨trivial, trivial, trivial, trivial, hfr, trivial, fun k hk => ?_⟩
    exact (cl_setCl_ne u hk _).trans (congrArg (fun t : Tbl CktS => t.get cktReset k) hu)
  · intro x due
    have second {t : State} (q : s.pmSecond l = t) : Gives (.pmSecondEnd l) s t :=
      Gives.of_live (fun s => s.pmSecond (l % 4)) hr rfl (by rw [Nat.mod_eq_of_lt hl, q])
    have final {t : State} (q : s.pmFinal l = t) : Gives (.pmBinFinal l) s t :=
      Gives.of_live (fun s => s.pmFinal (l % 4)) hr rfl (by rw [Nat.mod_eq_of_lt hl, q])
    refine ⟨fun h => second (pmSecond_idle h), fun hp hd hn => ?_, fun h => final (pmFinal_absent h), fun h => final (pmFinal_present h rfl)⟩
    obtain ⟨y, e, hy⟩ := pmSecond_due hp hd hn
    exact ⟨y, second e, hy⟩
  · have state := Pm.state_second y t thr
    simp only [Pm.state, Prod.mk.injEq] at state
    obtain ⟨he, hf, hd, hrdi, hu⟩ := state
    refine ⟨he, hf, hd, hrdi, fun h => ?_, fun h => ?_⟩
    · simp [hu, h, Pm.severe]
    · simp [hu, h, Pm.severe]
  · intro c d r run
    have gives {t : State} (q : s.tsiStage cycle moved = t) : Gives c s t := Gives.of_live (fun s => s.tsiStage cycle moved) hr rfl q
    refine ⟨fun h => gives (tsiStage_idle h), fun hp hf => ⟨fun hi => gives (tsiStage_runs hp hf (foldl_connInv_off d _ hi) rfl), fun hi => ?_⟩⟩
    obtain ⟨htm, htsi, hk⟩ := foldl_connInv d (s.pageConns (s.tsiPageAt d)) s hi rfl rfl
    exact ⟨_, gives (tsiStage_runs hp hf rfl htm), (congrArg TsiS.conns htsi :), hk⟩

end Sys2Proof.Proofs

/-! PROOF. Path, bin and connection commands, the page switch and slot assignment of 11_circuits_tsi.md (R312, R322 to R332). -/

namespace Sys2Proof.Proofs

open Sys2Proof.Machine Sys2Proof.Laws

/-! ## The mirror leaves other pages alone -/

section
variable {k : Nat} (h : Aside k) (s : State)
include h

theorem rd_setMirror_aside (v : Nat) : (s.setMirror v).rd k = s.rd k := by
  have pair {off : Nat} (ho : off < 4000) : Response ⟨Ty.PAIR, off⟩ := ⟨.inr (.inr (.inr rfl)), ho⟩
  unfold State.setMirror
  split
  · rfl
  · extract_lets s1 p
    have h1 : s1.rd k = s.rd k :=
      (rd_intSet_aside h _ (.inr (.inr (.inr rfl))) _).trans (rd_setFld_aside h s (f := Reg.PAIR_STS_MIRROR) (pair (by decide)) v)
    split
    · exact (rd_count_aside h s1 (pair (by decide))).trans h1
    · split
      · exact (rd_setFld_aside h { s1 with pair := { s1.pair with syncedAt := s1.tm.m } } (f := Reg.PAIR_STS_ACTIVE_STALE) (pair (by decide)) _).trans h1
      · exact h1

theorem rd_mirrorStale_aside : s.mirrorStale.rd k = s.rd k := by
  unfold State.mirrorStale
  split
  · exact rd_setMirror_aside h s 5
  · rfl

theorem eventFree_pair : EventFree Ty.PAIR 0 k :=
  ⟨h, fun off hm e => h (by
    have ho : off < 4096 := by simp only [List.mem_cons, List.not_mem_nil, or_false] at hm; omega
    rw [e, RegId.at, keyTy_regKey (by decide) ho]
    exact .inr (.inr (.inr rfl)))⟩

theorem rd_mirror_aside (m : Nat) (l : List Nat) (d : List Bytes) : (s.mirror m l d).rd k = s.rd k := by
  have sent (p : PairS) : (({ s with pair := p } : State).count64 Reg.PAIR_MIRROR_SENT_LO 0).rd k = s.rd k := by
    unfold State.count64 State.countN64 State.intOpt
    rw [if_neg (by decide)]
    exact (rd_setReg64_aside h ({ s with pair := p } : State) (r := Reg.PAIR_MIRROR_SENT_LO) ⟨.inr (.inr (.inr rfl)), by decide⟩ _).trans rfl
  unfold State.mirror
  split
  · extract_lets r p0 p t
    split
    · exact (rd_mirrorStale_aside h _).trans (rd_count_aside h s ⟨.inr (.inr (.inr rfl)), by decide⟩)
    · split
      · exact (rd_mirrorStale_aside h _).trans ((rd_raiseInv_free (eventFree_pair h) t 2 _ _).trans (sent p))
      · exact sent p
  · rfl

end

/-! ## Path commands (R312, R329, R331) -/

section
variable {s a : State} {l p op st : Nat}

/-- The answer to a path command: its STATUS, CFG_REJECT on a refusal, the interrupt. -/
def pathAns (l p : Nat) (a : State) (op st : Nat) : State :=
  let r := a.setReg Reg.CKT_PATH_CMD l (p + op * 2 ^ 16 + st * 2 ^ 24)
  (if st = 0 then r else r.count Reg.CKT_CFG_REJECT l).intSet Ty.CKT l 6

theorem pathCmd_absent (h : s.present Ty.CKT l = false) (f : State → State × Nat) : s.pathCmd l p op f = s := if_pos (by simp [h])

theorem pathCmd_present (h : s.present Ty.CKT l = true) {f : State → State × Nat} (hf : f s = (a, st)) : s.pathCmd l p op f = pathAns l p a op st := by
  unfold State.pathCmd pathAns
  rw [if_neg (by simp [h])]
  simp only [hf, beq_iff_eq]

theorem pathInv_good (h : s.inv Ty.CKT l 0 = false) : s.pathInv l p = s := if_neg (by simp [h])

theorem pathWrite_absent (h : s.present Ty.CKT l = false) : s.pathWrite l p = s := if_pos (by simp [h])

theorem pathWrite_standby (h : s.present Ty.CKT l = true) (ho : s.mirrorOpen = false) :
    s.pathWrite l p = s.count Reg.PAIR_MIRROR_WRITE_REJECT 0 := (if_neg (by simp [h])).trans (mirrored_standby ho _)

/-- A path's bytes do not lie in the frame, or are not 1 to 1,024. -/
def PathOut (w1 : Nat) : Prop :=
  w1 % 2 ^ 18 < 288 ∨ bitsOf w1 18 11 = 0 ∨ 1024 < bitsOf w1 18 11 ∨ 162000 < w1 % 2 ^ 18 + bitsOf w1 18 11

/-- A valid path that would overlap another. -/
def PathMeets (x : CktS) (p w0 w1 : Nat) : Prop :=
  bitOf w0 0 = true ∧ ∃ q ∈ x.paths, q.1 ≠ p ∧ q.2.valid = true ∧ w1 % 2 ^ 18 < q.2.first + q.2.count ∧ q.2.first < w1 % 2 ^ 18 + bitsOf w1 18 11

theorem pathOut_iff (w1 : Nat) : (decide (w1 % 2 ^ 18 < 288) || bitsOf w1 18 11 == 0 || decide (1024 < bitsOf w1 18 11) ||
    decide (162000 < w1 % 2 ^ 18 + bitsOf w1 18 11)) = true ↔ PathOut w1 := by
  simp only [PathOut, Bool.or_eq_true, decide_eq_true_eq, beq_iff_eq, or_assoc]

theorem pathMeets_iff (x : CktS) (p w0 w1 : Nat) : (bitOf w0 0 && (x.paths.any fun q => q.1 != p && q.2.valid &&
    decide (w1 % 2 ^ 18 < q.2.first + q.2.count) && decide (q.2.first < w1 % 2 ^ 18 + bitsOf w1 18 11))) = true ↔ PathMeets x p w0 w1 := by
  simp only [PathMeets, Bool.and_eq_true, List.any_eq_true, bne_iff_ne, decide_eq_true_eq, and_assoc]

section
variable (h : s.present Ty.CKT l = true) (ho : s.mirrorOpen = true) {w0 w1 : Nat} (h0 : s.regI Reg.CKT_PATH_DATA l 0 % 64 = w0)
  (h1 : s.regI Reg.CKT_PATH_DATA l 1 % 2 ^ 29 = w1)
include h ho h1

theorem pathWrite_out (hout : PathOut w1) : s.pathWrite l p = pathAns l p s 2 8 := by
  subst h1
  exact (if_neg (by simp [h])).trans ((mirrored_open ho _).trans (pathCmd_present h (if_pos ((pathOut_iff _).2 hout))))

include h0

theorem pathWrite_meets (hin : ¬ PathOut w1) (hm : PathMeets (s.cl l) p w0 w1) : s.pathWrite l p = pathAns l p s 2 1 := by
  subst h0 h1
  exact (if_neg (by simp [h])).trans ((mirrored_open ho _).trans
    (pathCmd_present h ((if_neg (mt (pathOut_iff _).1 hin)).trans (if_pos ((pathMeets_iff _ _ _ _).2 hm)))))

theorem pathWrite_stored (hin : ¬ PathOut w1) (hm : ¬ PathMeets (s.cl l) p w0 w1) :
    s.pathWrite l p = pathAns l p ((s.pathPut l p w0 w1).mirror 7 [2, l, p, w0, w1] []) 2 0 := by
  subst h0 h1
  exact (if_neg (by simp [h])).trans ((mirrored_open ho _).trans
    (pathCmd_present h ((if_neg (mt (pathOut_iff _).1 hin)).trans (if_neg (mt (pathMeets_iff _ _ _ _).1 hm)))))

end

end

/-! ## Bins (R320, R331) -/

section
variable {s : State} {l e n : Nat} {ok : Bool}

/-- The answer to BIN_READ. -/
def binAns (l e n : Nat) (a : State) (st : Nat) : State :=
  let r := a.setReg Reg.CKT_BIN_CMD l (e + n * 2 ^ 12 + st * 2 ^ 24)
  (if st = 0 ∨ st = 3 then r else r.count Reg.CKT_CFG_REJECT l).intSet Ty.CKT l 6

/-- The bin of an entity that the store has failed to give is SUSPECT. -/
def markBin (y : Pm) (bin : Nat) : Pm :=
  let mark (b : PmBin) : PmBin := { b with suspect := true }
  if bin == 0 then { y with q := y.q.map mark } else if bin ≤ 32 then { y with qDone := y.qDone.modify (bin - 1) mark }
  else if bin == 33 then { y with day := y.day.map mark } else { y with dayDone := y.dayDone.modify (bin - 34) mark }

theorem bin_markBin {y : Pm} {k : PmBin} {d : Bool} (h : y.bin n = some (k, d)) : (markBin y n).bin n = some ({ k with suspect := true }, d) := by
  unfold markBin Pm.bin at *
  dsimp only
  by_cases h0 : n = 0
  · simp only [h0, beq_self_eq_true, if_true, Option.map_eq_some_iff] at h ⊢
    obtain ⟨b, hb, e⟩ := h
    cases e
    exact ⟨_, ⟨k, hb, rfl⟩, rfl⟩
  · by_cases h32 : n ≤ 32
    · simp only [beq_eq_false_iff_ne.2 h0, Bool.false_eq_true, if_false, h32, if_true, Option.map_eq_some_iff] at h ⊢
      obtain ⟨b, hb, e⟩ := h
      cases e
      exact ⟨_, by rw [List.getElem?_modify_eq, hb]; rfl, rfl⟩
    · by_cases h33 : n = 33
      · subst h33
        obtain ⟨b, hb, e⟩ := Option.map_eq_some_iff.1 (h : y.day.map (fun b => (b, false)) = some (k, d))
        cases e
        exact Option.map_eq_some_iff.2 ⟨_, Option.map_eq_some_iff.2 ⟨k, hb, rfl⟩, rfl⟩
      · simp only [beq_eq_false_iff_ne.2 h0, Bool.false_eq_true, if_false, h32, beq_eq_false_iff_ne.2 h33, Option.map_eq_some_iff] at h ⊢
        obtain ⟨b, hb, e⟩ := h
        cases e
        exact ⟨_, by rw [List.getElem?_modify_eq, hb]; rfl, rfl⟩

theorem binInside (he : e ≤ 2048) (hn : n ≤ 35) : (decide (2048 < e) || decide (35 < n)) = false := by simp [he, hn]

theorem binRead_absent (h : s.present Ty.CKT l = false) : s.binRead l e n ok = s := if_pos (by simp [h])

variable (hp : s.present Ty.CKT l = true)
include hp

theorem binRead_outside (h : 2048 < e ∨ 35 < n) : s.binRead l e n ok = binAns l e n s 8 := by
  unfold State.binRead
  rw [if_neg (by simp [hp])]
  have out : (decide (2048 < e) || decide (35 < n)) = true := by simpa using h
  simp only [out, if_true]
  rfl

theorem binRead_none (he : e ≤ 2048) (hn : n ≤ 35) (h : ((s.cl l).pmOf e).bin n = none) : s.binRead l e n ok = binAns l e n s 1 := by
  unfold State.binRead
  rw [if_neg (by simp [hp])]
  simp only [binInside he hn, Bool.false_eq_true, if_false, h]
  rfl

theorem binRead_shown {k : PmBin} {d : Bool} (he : e ≤ 2048) (hn : n ≤ 35) (h : ((s.cl l).pmOf e).bin n = some (k, d)) :
    s.binRead l e n true =
      binAns l e n ((List.range 6).foldl (fun (a : State) j => a.setRegI Reg.CKT_BIN_DATA l j ((k.words d).getD j 0)) s) 0 := by
  unfold State.binRead
  rw [if_neg (by simp [hp])]
  simp only [binInside he hn, Bool.false_eq_true, if_false, h]
  rfl

theorem binRead_failed {k : PmBin} {d : Bool} (he : e ≤ 2048) (hn : n ≤ 35) (h : ((s.cl l).pmOf e).bin n = some (k, d)) :
    s.binRead l e n false = binAns l e n ((s.raise Ty.CKT l 4 0 0).setCl l ((s.cl l).setPm e (markBin ((s.cl l).pmOf e) n))) 3 := by
  unfold State.binRead
  rw [if_neg (by simp [hp])]
  simp only [binInside he hn, Bool.false_eq_true, if_false, h]
  rfl

end

/-! ## Connection commands (R324, R332) -/

section
variable {s a : State} {op page st : Nat}

/-- The answer to a connection command with PAGE `pg`. -/
def connAns (a : State) (op pg st : Nat) : State :=
  let r := a.setReg Reg.TSI_CONN_CMD 0 (op + pg * 8 + st * 2 ^ 24)
  (if st = 0 then r else r.count Reg.TSI_CFG_REJECT 0).intSet Ty.TSI 0 5

theorem connCmd_absent (h : s.present Ty.TSI 0 = false) (pg : Option Nat) (f : State → State × Nat) : s.connCmd op pg f = s := if_pos (by simp [h])

theorem connCmd_page (h : s.present Ty.TSI 0 = true) {f : State → State × Nat} (hf : f s = (a, st)) :
    s.connCmd op (some page) f = connAns a op page st := by
  unfold State.connCmd connAns
  rw [if_neg (by simp [h])]
  simp only [hf, beq_iff_eq, Option.getD_some]

/-- A command that uses no PAGE answers with the one its register holds, where its effect leaves that register. -/
theorem connCmd_keep (h : s.present Ty.TSI 0 = true) {f : State → State × Nat} (hf : f s = (a, st))
    (ha : a.rd (Reg.TSI_CONN_CMD.at 0) = s.rd (Reg.TSI_CONN_CMD.at 0)) :
    s.connCmd op none f = connAns a op (s.fld Reg.TSI_CONN_CMD_PAGE 0) st := by
  have pg : a.fld Reg.TSI_CONN_CMD_PAGE 0 = s.fld Reg.TSI_CONN_CMD_PAGE 0 := congrArg (fun w : Word => bitsOf w.toNat _ _) ha
  unfold State.connCmd connAns
  rw [if_neg (by simp [h])]
  simp only [hf, beq_iff_eq, Option.getD_none, pg]

theorem connEdit_absent (h : s.present Ty.TSI 0 = false) (f : State → State × Nat) : s.connEdit op f = s := if_pos (by simp [h])

theorem connEdit_standby (h : s.present Ty.TSI 0 = true) (ho : s.mirrorOpen = false) (f : State → State × Nat) :
    s.connEdit op f = s.count Reg.PAIR_MIRROR_WRITE_REJECT 0 := (if_neg (by simp [h])).trans (mirrored_standby ho _)

theorem connEdit_armed (h : s.present Ty.TSI 0 = true) (ho : s.mirrorOpen = true) (har : s.tsi.armed.isSome = true) (f : State → State × Nat) :
    s.connEdit op f = connAns s op (s.fld Reg.TSI_CONN_CMD_PAGE 0) 2 :=
  (if_neg (by simp [h])).trans ((mirrored_open ho _).trans (connCmd_keep h (if_pos har) rfl))

theorem connEdit_free (h : s.present Ty.TSI 0 = true) (ho : s.mirrorOpen = true) (har : s.tsi.armed = none) {f : State → State × Nat}
    (hf : f s = (a, st)) (ha : a.rd (Reg.TSI_CONN_CMD.at 0) = s.rd (Reg.TSI_CONN_CMD.at 0)) :
    s.connEdit op f = connAns a op (s.fld Reg.TSI_CONN_CMD_PAGE 0) st :=
  (if_neg (by simp [h])).trans ((mirrored_open ho _).trans (connCmd_keep h ((if_neg (by simp [har])).trans hf) ha))

theorem aside_connCmd : Aside (Reg.TSI_CONN_CMD.at 0) := by unfold Aside Responds; decide

theorem connRead_good (h : s.present Ty.TSI 0 = true) (hi : s.inv Ty.TSI 0 0 = false) {i : Nat} (hidx : s.reg Reg.TSI_CONN_IDX 0 % 2 ^ 18 = i)
    (hb : connKey page i ∉ s.tsi.badPar) : s.connRead page =
      connAns ((List.range 4).foldl (fun (a : State) j => a.setRegI Reg.TSI_CONN_DATA 0 j ((s.conn page i).words.getD j 0)) s) 1 page 0 := by
  subst hidx
  refine connCmd_page h ?_
  have same : s.connInv page (s.reg Reg.TSI_CONN_IDX 0 % 2 ^ 18) = s := if_neg (by simp [hi])
  have good : s.tsi.badPar.contains (connKey page (s.reg Reg.TSI_CONN_IDX 0 % 2 ^ 18)) = false := by simpa using hb
  simp only [same, good, Bool.not_false, Bool.and_true]

/-- The STATUS of an entry to be written: 8 or 4 for a place out of range or absent. -/
def connStatus (s : State) (c : Conn) : Nat :=
  if epKind c.dst = 3 then 8 else if c.valid then max (s.epStatus c.src true) (s.epStatus c.dst false) else 0

theorem connStatus_eq (c : Conn) :
    (if epKind c.dst == 3 then 8 else if !c.valid then 0 else max (s.epStatus c.src true) (s.epStatus c.dst false)) = connStatus s c := by
  unfold connStatus
  cases c.valid <;> simp

/-- The entry that the data words name. -/
def connWords (s : State) : Conn := connOf ((List.range 4).map fun j => s.regI Reg.TSI_CONN_DATA 0 j)

section
variable (h : s.present Ty.TSI 0 = true) (ho : s.mirrorOpen = true) (har : s.tsi.armed = none)
include h ho har

theorem connWrite_refused (hst : connStatus s (connWords s) ≠ 0) :
    s.connWrite = connAns s 2 (s.fld Reg.TSI_CONN_CMD_PAGE 0) (connStatus s (connWords s)) := by
  refine connEdit_free h ho har ?_ rfl
  simp only [connStatus_eq, ← connWords.eq_1]
  exact if_pos (by simpa using hst)

theorem connWrite_stored (hst : connStatus s (connWords s) = 0) {i : Nat} (hi : s.reg Reg.TSI_CONN_IDX 0 % 2 ^ 18 = i) : s.connWrite =
    connAns ((s.setConn s.tsiStandby i (connWords s)).mirror 7 ([0, s.tsiStandby, i] ++ (connWords s).words) []) 2 (s.fld Reg.TSI_CONN_CMD_PAGE 0) 0 := by
  subst hi
  refine connEdit_free h ho har ?_ ((rd_mirror_aside aside_connCmd _ _ _ _).trans rfl)
  simp only [connStatus_eq, ← connWords.eq_1]
  exact if_neg (by simpa using hst)

theorem connClear_stored {i : Nat} (hi : s.reg Reg.TSI_CONN_IDX 0 % 2 ^ 18 = i) : s.connClear =
    connAns ((s.setConn s.tsiStandby i connReset).mirror 7 ([0, s.tsiStandby, i] ++ connReset.words) []) 3 (s.fld Reg.TSI_CONN_CMD_PAGE 0) 0 := by
  subst hi
  exact connEdit_free h ho har rfl ((rd_mirror_aside aside_connCmd _ _ _ _).trans rfl)

theorem copyActive_stored {l : List (Nat × Conn)}
    (hl : (s.tsi.conns.filterMap fun e => if e.1 / 2 ^ 18 == s.tsi.active then some (e.1 % 2 ^ 18, e.2) else none) = l) : s.copyActive =
    connAns ((s.replacePage s.tsiStandby l).mirror 7 [1, s.tsi.active] []) 4 (s.fld Reg.TSI_CONN_CMD_PAGE 0) 0 := by
  subst hl
  exact connEdit_free h ho har rfl ((rd_mirror_aside aside_connCmd _ _ _ _).trans rfl)

theorem clearPage_stored : s.clearPage =
    connAns ((s.replacePage s.tsiStandby []).mirror 7 [4, s.tsiStandby] []) 5 (s.fld Reg.TSI_CONN_CMD_PAGE 0) 0 :=
  connEdit_free h ho har rfl ((rd_mirror_aside aside_connCmd _ _ _ _).trans rfl)

end

end

/-! ## The page switch (R322, R324) -/

section
variable {s : State} {m t : Nat} {force : Bool}

theorem tsiVerify_none (h : s.tsi.verify = none) : s.tsiVerify = s := by simp only [State.tsiVerify, h]

theorem tsiVerify_page {i r : Nat} (h : s.tsi.verify = some (m, t, force)) (hv : verifyPage (s.pageConns s.tsiStandby) = some (i, r)) :
    s.tsiVerify = (({ s with tsi := { s.tsi with verify := none } } : State).setReg Reg.TSI_VERIFY_RESULT 0 (i + r * 2 ^ 18 + 2 ^ 31)).intSet Ty.TSI 0 2 := by
  have hv' : verifyPage (({ s with tsi := { s.tsi with verify := none } } : State).pageConns
      ({ s with tsi := { s.tsi with verify := none } } : State).tsiStandby) = some (i, r) := hv
  simp only [State.tsiVerify, h, hv']

/-- A page with no failing entry is refused for an assignment outstanding, or for a tick too near; else the switch is armed. -/
theorem tsiVerify_good {a : State} (h : s.tsi.verify = some (m, t, force)) (hv : verifyPage (s.pageConns s.tsiStandby) = none)
    (ha : ({ s with tsi := { s.tsi with verify := none } } : State) = a) : s.tsiVerify =
      if !force && s.assignOpen != 0 then (a.setReg Reg.TSI_VERIFY_RESULT 0 (0 + 4 * 2 ^ 18 + 2 ^ 31)).intSet Ty.TSI 0 2
      else if t < m + 16 then (a.setReg Reg.TSI_VERIFY_RESULT 0 (0 + 5 * 2 ^ 18 + 2 ^ 31)).intSet Ty.TSI 0 2
      else ((a.setReg Reg.TSI_VERIFY_RESULT 0 0).tsiSetArmed t).mirror 7 [3, t, 1] [] := by
  have hv' : verifyPage (a.pageConns a.tsiStandby) = none := ha ▸ hv
  have hopen : a.assignOpen = s.assignOpen := by rw [← ha]; rfl
  simp only [State.tsiVerify, h, ha, hv', hopen]
  by_cases h4 : (!force && s.assignOpen != 0) = true
  · simp only [if_pos h4]
  · by_cases h5 : t < m + 16
    · simp only [if_neg h4, if_pos h5]
    · simp only [if_neg h4, if_neg h5]

theorem tsiArm_absent (h : s.present Ty.TSI 0 = false) : s.tsiArm = s := if_pos (by simp [h])

theorem tsiArm_busy (h : s.tsi.verify.isSome = true ∨ s.tsi.armed.isSome = true) : s.tsiArm = s :=
  if_pos (by rcases h with h | h <;> simp [h])

theorem tsiArm_free (hp : s.present Ty.TSI 0 = true) (hv : s.tsi.verify = none) (har : s.tsi.armed = none) : s.tsiArm = s.mirrored fun s =>
    { s with tsi := { s.tsi with verify := some (s.tm.m, s.reg64 Reg.TSI_SWITCH_AT_LO 0 % 2 ^ 48, s.flag Reg.TSI_SWITCH_CTL_FORCE 0) } } :=
  if_neg (by simp [hp, hv, har])

theorem tsiCancel_none (h : s.present Ty.TSI 0 = false ∨ (s.tsi.armed = none ∧ s.tsi.verify = none)) : s.tsiCancel = s :=
  if_pos (by rcases h with h | ⟨h, h'⟩ <;> simp [*])

theorem tsiCancel_drops (hp : s.present Ty.TSI 0 = true) (h : s.tsi.armed.isSome = true ∨ s.tsi.verify.isSome = true) : s.tsiCancel = s.mirrored fun s =>
    ({ s with tsi := { s.tsi with armed := none, verify := none } }.unname .tsiPage 0 0).mirror 7 [3, 0, 0] [] :=
  if_neg (by rcases h with h | h <;> simp [hp, Option.isSome_iff_ne_none.1 h])

end

/-! ## Slot assignment (R325) -/

section
variable {s : State} {t n op : Nat} {page : State → Nat}

/-- The answer to an assignment command. -/
def assignAns (t n : Nat) (a : State) (op st : Nat) : State :=
  let r := a.setReg Reg.TSI_ASSIGN_CMD 0 (n + t * 2 ^ 9 + op * 2 ^ 16 + st * 2 ^ 24)
  (if st = 0 then r else r.count Reg.TSI_CFG_REJECT 0).intSet Ty.TSI 0 5

theorem assignCmd_absent (h : s.present Ty.TSI 0 = false) : s.assignCmd op t n page = s := if_pos (by simp [h])

theorem assignCmd_status (h : s.present Ty.TSI 0 = true) {st : Nat} (hst : (if !s.hasTree t then 4 else if s.tsi.armed.isSome then 2
    else if (s.term (t * 512 + n)).st != .operational then 1 else 0) = st) :
    s.assignCmd op t n page = assignAns t n (if st = 0 then s.assignPush (page s) t n else s) op st := by
  subst hst
  unfold State.assignCmd assignAns
  rw [if_neg (by simp [h])]
  simp only [beq_iff_eq]

end

/-! ## The obligation -/

/-- Settles O18: each command by the gate of its page, then the lemma of its outcome. -/
theorem pathsConnectionsSwitchAndAssignment : Obligations.PathsConnectionsSwitchAndAssignment := by
  refine ⟨fun s l p hr hl hp2 => ?_, fun s page hr hpage => ?_, fun s t n hr ht hn => ?_⟩
  · intro x y ans b
    have hm : l % 4 = l ∧ p % 2048 = p := ⟨Nat.mod_eq_of_lt hl, Nat.mod_eq_of_lt hp2⟩
    have read {r : State} (q : s.pathRead l p = r) : Gives (.pathRead l p) s r :=
      Gives.of_live (fun s => s.pathRead (l % 4) (p % 2048)) hr rfl (by rw [hm.1, hm.2, q])
    have write {r : State} (q : s.pathWrite l p = r) : Gives (.pathWrite l p) s r :=
      Gives.of_live (fun s => s.pathWrite (l % 4) (p % 2048)) hr rfl (by rw [hm.1, hm.2, q])
    have state {r : State} (q : s.pathReadState l p = r) : Gives (.pathReadState l p) s r :=
      Gives.of_live (fun s => s.pathReadState (l % 4) (p % 2048)) hr rfl (by rw [hm.1, hm.2, q])
    have clear {r : State} (q : s.pathClear l p = r) : Gives (.pathClearCounts l p) s r :=
      Gives.of_live (fun s => s.pathClear (l % 4) (p % 2048)) hr rfl (by rw [hm.1, hm.2, q])
    have bin {r : State} {e n : Nat} {ok : Bool} (q : s.binRead l (e % 4096) (n % 64) ok = r) : Gives (.binRead l e n ok) s r :=
      Gives.of_live (fun s => s.binRead (l % 4) (e % 4096) (n % 64) ok) hr rfl (by rw [hm.1, q])
    refine ⟨fun h => ⟨read (pathCmd_absent h _), write (pathWrite_absent h), state (pathCmd_absent h _), clear (pathCmd_absent h _),
      fun e n ok => bin (binRead_absent h)⟩, fun h => ⟨fun hi => ⟨read (pathCmd_present h ?_), state (pathCmd_present h ?_)⟩,
      clear (pathCmd_present h rfl), fun ho => write (pathWrite_standby h ho), fun ho => ⟨fun hout => write (pathWrite_out h ho rfl hout),
        fun hin hme => write (pathWrite_meets h ho rfl rfl hin hme), fun hin hme => write (pathWrite_stored h ho rfl rfl hin hme)⟩,
      fun e n ok he hn => ?_⟩⟩
    · simp only [pathInv_good hi]
      rfl
    · simp only [pathInv_good hi]
      rfl
    · have at_ {r : State} (q : s.binRead l e n ok = r) : Gives (.binRead l e n ok) s r :=
        bin (by rw [Nat.mod_eq_of_lt he, Nat.mod_eq_of_lt hn, q])
      refine ⟨fun hout => at_ (binRead_outside h hout), fun he hn hb => at_ (binRead_none h he hn hb), fun k d he hn hb => ⟨fun hok => ?_, fun hok => ?_⟩⟩
      · subst hok
        exact at_ (binRead_shown h he hn hb)
      · subst hok
        exact ⟨_, bin_markBin hb, at_ (binRead_failed h he hn hb)⟩
  · intro pg ans i y c st act
    have read {r : State} (q : s.connRead page = r) : Gives (.connRead page) s r :=
      Gives.of_live (fun s => s.connRead (page % 2)) hr rfl (by rw [Nat.mod_eq_of_lt hpage, q])
    have write {r : State} (q : s.connWrite = r) : Gives .connWrite s r := Gives.of_live (fun s => s.connWrite) hr rfl q
    have clear {r : State} (q : s.connClear = r) : Gives .connClear s r := Gives.of_live (fun s => s.connClear) hr rfl q
    have copy {r : State} (q : s.copyActive = r) : Gives .copyActive s r := Gives.of_live (fun s => s.copyActive) hr rfl q
    have clearP {r : State} (q : s.clearPage = r) : Gives .clearPage s r := Gives.of_live (fun s => s.clearPage) hr rfl q
    have arm {r : State} (q : s.tsiArm = r) : Gives .tsiArm s r := Gives.of_live (fun s => s.tsiArm) hr rfl q
    have verify {r : State} (q : s.tsiVerify = r) : Gives .tsiVerifyDone s r := Gives.of_live (fun s => s.tsiVerify) hr rfl q
    have cancel {r : State} (q : s.tsiCancel = r) : Gives .tsiCancel s r := Gives.of_live (fun s => s.tsiCancel) hr rfl q
    refine ⟨fun h => ⟨read (connCmd_absent h _ _), write (connEdit_absent h _), clear (connEdit_absent h _), copy (connEdit_absent h _),
      clearP (connEdit_absent h _), arm (tsiArm_absent h), cancel (tsiCancel_none (.inl h))⟩, fun h => ⟨fun hi hb => read (connRead_good h hi rfl hb),
      fun ho => ⟨write (connEdit_standby h ho _), clear (connEdit_standby h ho _), copy (connEdit_standby h ho _), clearP (connEdit_standby h ho _)⟩,
      fun ho har => ⟨write (connEdit_armed h ho har _), clear (connEdit_armed h ho har _), copy (connEdit_armed h ho har _),
        clearP (connEdit_armed h ho har _)⟩,
      fun ho har => ⟨fun hst => write (connWrite_refused h ho har hst), fun hst => write (connWrite_stored h ho har hst rfl),
        clear (connClear_stored h ho har rfl), copy (copyActive_stored h ho har rfl), clearP (clearPage_stored h ho har)⟩,
      fun hb => arm (tsiArm_busy hb), fun hv har => ⟨fun ho => arm ((tsiArm_free h hv har).trans (mirrored_standby ho _)),
        fun ho => arm ((tsiArm_free h hv har).trans (mirrored_open ho _))⟩⟩, fun hv => verify (tsiVerify_none hv), fun m t force hv => ?_,
      fun har hv => cancel (tsiCancel_none (.inr ⟨har, hv⟩)), fun h hb => ⟨fun ho => cancel ((tsiCancel_drops h hb).trans (mirrored_standby ho _)),
        fun ho => cancel ((tsiCancel_drops h hb).trans (mirrored_open ho _))⟩⟩
    intro a shut
    have clear (hf : force = true ∨ s.assignOpen = 0) : ¬ (!force && s.assignOpen != 0) = true := by rcases hf with hf | hf <;> simp [hf]
    refine ⟨fun i r hb => verify (tsiVerify_page hv hb), fun hb => ⟨fun hf ho => verify ?_, fun hf ht => verify ?_, fun hf ht => verify ?_⟩⟩
    · exact (tsiVerify_good hv hb rfl).trans (if_pos (by simp [hf, ho]))
    · exact (tsiVerify_good hv hb rfl).trans ((if_neg (clear hf)).trans (if_pos ht))
    · exact (tsiVerify_good hv hb rfl).trans ((if_neg (clear hf)).trans (if_neg (by omega)))
  · intro fin both
    have standby {r : State} (q : s.assignCmd 1 t n (fun s => s.tsiStandby) = r) : Gives (.assignPushStandby t n) s r :=
      Gives.of_live (fun s => s.assignCmd 1 (t % 32) (n % 512) fun s => s.tsiStandby) hr rfl (by rw [Nat.mod_eq_of_lt ht, Nat.mod_eq_of_lt hn, q])
    have active {r : State} (q : s.assignCmd 2 t n (fun s => s.tsi.active) = r) : Gives (.assignPushActive t n) s r :=
      Gives.of_live (fun s => s.assignCmd 2 (t % 32) (n % 512) fun s => s.tsi.active) hr rfl (by rw [Nat.mod_eq_of_lt ht, Nat.mod_eq_of_lt hn, q])
    refine ⟨fun h => ⟨standby (assignCmd_absent h), active (assignCmd_absent h)⟩, fun h => ⟨fun htr => ?_, fun htr har => ?_, fun htr har hop => ?_,
      fun htr har hop => ?_⟩⟩
    · exact ⟨standby (assignCmd_status h (st := 4) (by simp [htr])), active (assignCmd_status h (st := 4) (by simp [htr]))⟩
    · exact ⟨standby (assignCmd_status h (st := 2) (by simp [htr, har])), active (assignCmd_status h (st := 2) (by simp [htr, har]))⟩
    · exact ⟨standby (assignCmd_status h (st := 1) (by simp [htr, har, hop])), active (assignCmd_status h (st := 1) (by simp [htr, har, hop]))⟩
    · exact ⟨standby (assignCmd_status h (st := 0) (by simp [htr, har, hop])), active (assignCmd_status h (st := 0) (by simp [htr, har, hop]))⟩

end Sys2Proof.Proofs

/-! PROOF. O19: mailboxes, frames and requests of the clusters, starting and stopping, images and the bank switch. -/

namespace Sys2Proof.Proofs
open Sys2Proof.Machine Sys2Proof.Laws

/-! ## Mailboxes, frames and injection -/

theorem mboxPut_dropped {s : State} {c n : Nat} (m : RxMsg) (h : s.navLost c n = true ∨ 64 ≤ (s.nv c n).rx.length) :
    s.mboxPut c n m = s.count Reg.NAV_MBX_RX_DROP c :=
  if_pos (by simpa using h)

/-- A message that its inbox takes ends a waiting WFT that asked for it. -/
theorem mboxPut_taken {s : State} {c n : Nat} (m : RxMsg) (hl : s.navLost c n = false) (hn : (s.nv c n).rx.length < 64) :
    s.mboxPut c n m = (match (s.nv c n).wait with
      | some w => if w.msg then (s.setNv c n { s.nv c n with rx := (s.nv c n).rx ++ [m] }).wftReturn c n w.rd
          ((s.setNv c n { s.nv c n with rx := (s.nv c n).rx ++ [m] }).tickWord 0 false true)
        else s.setNv c n { s.nv c n with rx := (s.nv c n).rx ++ [m] }
      | none => s.setNv c n { s.nv c n with rx := (s.nv c n).rx ++ [m] }) :=
  if_neg (by simpa [hl] using hn)

theorem mboxPut_quiet {s : State} {c n : Nat} (m : RxMsg) (hl : s.navLost c n = false) (hn : (s.nv c n).rx.length < 64)
    (hw : ∀ w, (s.nv c n).wait = some w → w.msg = false) :
    s.mboxPut c n m = s.setNv c n { s.nv c n with rx := (s.nv c n).rx ++ [m] } := by
  rw [mboxPut_taken m hl hn]
  cases h : (s.nv c n).wait with
  | none => rfl
  | some w => simp [hw w h]

theorem mboxPut_wakes {s : State} {c n : Nat} (m : RxMsg) (hl : s.navLost c n = false) (hn : (s.nv c n).rx.length < 64)
    {w : NavWait} (hw : (s.nv c n).wait = some w) (hm : w.msg = true) :
    s.mboxPut c n m = (s.setNv c n { s.nv c n with rx := (s.nv c n).rx ++ [m] }).wftReturn c n w.rd
      ((s.setNv c n { s.nv c n with rx := (s.nv c n).rx ++ [m] }).tickWord 0 false true) := by
  simp [mboxPut_taken m hl hn, hw, hm]

theorem mboxDeliver_none {s : State} {c : Nat} (h : ∀ m ∈ s.mail, m.cluster ≠ c) : s.mboxDeliver c = s := by
  have hf : s.mail.find? (fun m => m.cluster == c) = none := by simpa [List.find?_eq_none] using h
  simp [State.mboxDeliver, hf]

theorem mboxDeliver_some {s : State} {c : Nat} {m : Mail} (h : s.mail.find? (fun m => m.cluster == c) = some m) :
    s.mboxDeliver c = if ({ s with mail := s.mail.erase m } : State).present Ty.NAV c then
      ({ s with mail := s.mail.erase m } : State).mboxPut c (m.nav.getD (s.fld Reg.NAV_CTL_EVT_NAV c)) ⟨m.src, m.kind, m.body⟩
      else { s with mail := s.mail.erase m } := by
  simp only [State.mboxDeliver, h]
  rfl

theorem hostPost_none {s : State} {c : Nat} (h : s.takePost c 0xFF01 = none) : s.hostPost c = s := by
  simp only [State.hostPost, h]

theorem hostPost_some {s a : State} {c : Nat} {p : Post} (h : s.takePost c 0xFF01 = some (p, a)) :
    s.hostPost c = if (a.postEvent (a.fld Reg.NAV_CTL_HOST_RING c) Ty.NAV c p.body).2 then
        (a.postEvent (a.fld Reg.NAV_CTL_HOST_RING c) Ty.NAV c p.body).1
      else (a.postEvent (a.fld Reg.NAV_CTL_HOST_RING c) Ty.NAV c p.body).1.count Reg.NAV_MBX_DROP c := by
  simp only [State.hostPost, h]

theorem navFrame_none {s : State} {c : Nat} (h : s.navIn.find? (fun q => q.1 == c) = none) : s.navFrame c = s := by
  simp only [State.navFrame, h]

/-- A frame that finds no room in its ring. -/
def ringShut (s : State) (c : Nat) (p : Pkt) : Prop :=
  (s.cluster c).ring ≠ s.reg Reg.NAV_RX_RING c ∨ ringSlots (s.cluster c).ring = 0 ∨
    ((s.cluster c).prod + 1) % ringSlots (s.cluster c).ring = (s.cluster c).cons ∨ ringSlot (s.cluster c).ring < 32 + p.data.length

/-- A frame taken into the next slot of its ring. -/
def ringTake (s : State) (c : Nat) (p : Pkt) : State :=
  let k := s.cluster c
  let b := s.navStore (2 ^ 20) (placeShared c (ringBase k.ring + k.prod * ringSlot k.ring)) (s.slotHead p ++ p.data)
  let b := (b.count Reg.NAV_FRAME_RX c).setCluster c { k with prod := (k.prod + 1) % ringSlots k.ring }
  (b.sendMail ⟨Ty.NAV * 256 + c, c, none, 3, toLE 2 k.prod ++ List.replicate 14 0⟩).injFin p 0 none

theorem navFrame_absent {s : State} {c : Nat} {p : Pkt} (h : s.navIn.find? (fun q => q.1 == c) = some (c, p))
    (hp : s.present Ty.NAV c = false) : s.navFrame c = ({ s with navIn := s.navIn.erase (c, p) } : State).injFin p 2 none := by
  simp only [State.navFrame, h]
  exact if_pos (Bool.not_eq_true' _ |>.mpr hp)

theorem navFrame_present {s : State} {c : Nat} {p : Pkt} (h : s.navIn.find? (fun q => q.1 == c) = some (c, p))
    (hp : s.present Ty.NAV c = true) {a : State} (ha : ({ s with navIn := s.navIn.erase (c, p) } : State).frameRing c = a) :
    s.navFrame c = if ((a.cluster c).ring != a.reg Reg.NAV_RX_RING c || ringSlots (a.cluster c).ring == 0 ||
        ((a.cluster c).prod + 1) % ringSlots (a.cluster c).ring == (a.cluster c).cons ||
        decide (ringSlot (a.cluster c).ring < 32 + p.data.length)) = true
      then (a.count Reg.NAV_FRAME_DROP c).injFin p 2 none else ringTake a c p := by
  subst ha
  simp only [State.navFrame, h]
  exact if_neg fun e => Bool.false_ne_true ((congrArg (!·) hp).symm.trans e)

theorem navFrame_shut {s : State} {c : Nat} {p : Pkt} (h : s.navIn.find? (fun q => q.1 == c) = some (c, p))
    (hp : s.present Ty.NAV c = true) {a : State} (ha : ({ s with navIn := s.navIn.erase (c, p) } : State).frameRing c = a)
    (hs : ringShut a c p) : s.navFrame c = (a.count Reg.NAV_FRAME_DROP c).injFin p 2 none :=
  (navFrame_present h hp ha).trans (if_pos (by simpa [ringShut, or_assoc] using hs))

theorem navFrame_taken {s : State} {c : Nat} {p : Pkt} (h : s.navIn.find? (fun q => q.1 == c) = some (c, p))
    (hp : s.present Ty.NAV c = true) {a : State} (ha : ({ s with navIn := s.navIn.erase (c, p) } : State).frameRing c = a)
    (hs : ¬ ringShut a c p) : s.navFrame c = ringTake a c p :=
  (navFrame_present h hp ha).trans (if_neg (by simpa [ringShut, or_assoc] using hs))

theorem navInject_none {s : State} {c : Nat} (cycle : Nat) (h : s.takePost c 0xFF00 = none) : s.navInject c cycle = s := by
  simp only [State.navInject, h]

/-- What an injection descriptor of a cluster asks to be told back. -/
def injAsk (c : Nat) (p : Post) : Inj :=
  ⟨false, c, p.nav, sliceB p.body 12 4, bitOf (leAt p.body 10 1) 3, bitOf (leAt p.body 10 1) 4, bitOf (leAt p.body 10 1) 5⟩

/-- An injection descriptor whose fields are in range. -/
def descGood (a : State) (p : Post) : Prop :=
  a.injOk (leAt p.body 0 4) (leAt p.body 4 2) (leAt p.body 6 2) (leAt p.body 8 2) (leAt p.body 10 1) = true ∧ leAt p.body 11 1 = 0

theorem navInject_bad {s a : State} {c : Nat} (cycle : Nat) {p : Post} (h : s.takePost c 0xFF00 = some (p, a))
    (hg : ¬ descGood (a.advanceTo (min cycle a.tm.len)) p) :
    s.navInject c cycle = { a.advanceTo (min cycle a.tm.len) with
      injDone := (a.advanceTo (min cycle a.tm.len)).injDone ++ [⟨injAsk c p, 1, none⟩] } := by
  simp only [State.navInject, h]
  refine if_pos ?_
  by_cases hz : leAt p.body 11 1 = 0
  · simpa [hz] using fun hi => hg ⟨hi, hz⟩
  · simp [hz]

theorem navInject_good {s a : State} {c : Nat} (cycle : Nat) {p : Post} (h : s.takePost c 0xFF00 = some (p, a))
    (hg : descGood (a.advanceTo (min cycle a.tm.len)) p) :
    s.navInject c cycle = (a.advanceTo (min cycle a.tm.len)).toFwd
      ((a.advanceTo (min cycle a.tm.len)).injPkt (16448 + c) (c / 8) (c % 8 / 4)
        ((a.advanceTo (min cycle a.tm.len)).nmem.readN (placeShared c (leAt p.body 0 4)) (leAt p.body 4 2))
        (leAt p.body 6 2) (leAt p.body 8 2) (leAt p.body 10 1) (injAsk c p)) := by
  simp only [State.navInject, h]
  exact if_neg (by simp [show (a.advanceTo _).injOk _ _ _ _ _ = true from hg.1, hg.2])

/-! ## Slot requests -/

/-- The answer to a slot request: its words and status in the block, and the message. -/
def almAnswer (c n : Nat) (q : AlmReq) (x : State × Nat × SlotRes) : State :=
  match x.1.navArea q.addr 64 with
  | none => x.1
  | some z =>
    let at_ := z.place c n 0 q.addr
    let b := match x.2.2.args with
      | some l => x.1.navStore (2 ^ 20) (at_ + 8) ((l.take 8).map (toLE 4)).flatten
      | none => x.1
    (b.navStore (2 ^ 20) (at_ + 1) (toLE 1 x.2.1)).sendMail
      ⟨Ty.ALM * 256, c, some n, 4, toLE 1 x.2.1 ++ toLE 1 (leAt q.block 0 1) ++ List.replicate 6 0 ++ sliceB q.block 48 8⟩

/-- The argument words of a request block. -/
def almArgs (q : AlmReq) : List Nat := (List.range 8).map fun i => leAt q.block (8 + 4 * i) 4

/-- The bytes that a request reads. -/
def almNeed (q : AlmReq) : Nat := slotReads (leAt q.block 0 1) (bitOf (leAt q.block 2 1) 1) (almArgs q)

/-- Whether the cluster may use the association that a request names. -/
def almMay (a : State) (c : Nat) (q : AlmReq) : Prop :=
  leAt q.block 0 1 = 12 ∨ leAt q.block 0 1 = 13 ∨ a.slotMay (c + 1) (leAt q.block 0 1) (leAt q.block 4 3 % 2 ^ 18) = true

/-- The slot operation of a request with its data. -/
def almSlot (a : State) (c : Nat) (q : AlmReq) (d : Bytes) : State × SlotRes :=
  a.slot (leAt q.block 0 1)
    ⟨c + 1, leAt q.block 4 3 % 2 ^ 18, leAt q.block 2 1 % 2, bitOf (leAt q.block 2 1) 1, almArgs q, d⟩

/-- The data of a request, where its area can be read. -/
def almData (a : State) (c n : Nat) (q : AlmReq) : State × Option Bytes :=
  if almNeed q == 0 || decide (2048 < almNeed q) then (a, some [])
  else if leAt q.block 44 4 < almNeed q then (a, none)
  else match a.almArea c n 1 (leAt q.block 40 4) (almNeed q) q.user with
    | (s, some p) => (s, some (s.nmem.readN p (almNeed q)))
    | (s, none) => (s, none)

/-- The status of a request whose operation is done, its results stored where they fit. -/
def almStore (c n : Nat) (q : AlmReq) (x : State × SlotRes) : State × Nat × SlotRes :=
  if x.2.st == 0 && !x.2.out.isEmpty then
    if leAt q.block 44 4 < x.2.out.length then (x.1, 8, x.2) else
    match x.1.almArea c n 2 (leAt q.block 40 4) x.2.out.length q.user with
    | (s, some p) => (s.navStore (2 ^ 20) p x.2.out, 0, x.2)
    | (s, none) => (s, 8, x.2)
  else (x.1, x.2.st, x.2)

theorem mayBit_iff (op : Nat) (b : Bool) :
    ((!(if (op == 12 || op == 13) = true then true else b)) = true) ↔ ¬ (op = 12 ∨ op = 13 ∨ b = true) := by
  by_cases h1 : op = 12
  · simp [h1]
  · by_cases h2 : op = 13 <;> simp [h1, h2]

theorem almDone_nil {s : State} {c n : Nat} (h : (s.nv c n).alm = []) : s.almDone c n = s := by
  simp only [State.almDone, h]

section
variable {s a : State} {c n : Nat} {q : AlmReq} {rest : List AlmReq}
  (h : (s.nv c n).alm = q :: rest) (ha : s.setNv c n { s.nv c n with alm := rest } = a)
include h ha

theorem almDone_refused (hm : ¬ almMay a c q) : s.almDone c n = almAnswer c n q (a, 1, SlotRes.of 1) := by
  subst ha
  simp only [State.almDone, h]
  rw [if_pos ((mayBit_iff ..).mpr hm)]
  rfl

/-- A permitted request: its data, then its operation. -/
theorem almDone_permitted (hm : almMay a c q) : s.almDone c n = almAnswer c n q (match (almData a c n q).2 with
    | none => ((almData a c n q).1, 8, SlotRes.of 8)
    | some d => almStore c n q (almSlot (almData a c n q).1 c q d)) := by
  subst ha
  simp only [State.almDone, h]
  rw [if_neg fun e => (mayBit_iff ..).mp e hm]
  rfl

theorem almDone_short (hm : almMay a c q) (h0 : 0 < almNeed q) (h1 : almNeed q ≤ 2048) (h2 : leAt q.block 44 4 < almNeed q) :
    s.almDone c n = almAnswer c n q (a, 8, SlotRes.of 8) := by
  have hd : almData a c n q = (a, none) :=
    (if_neg (by simpa using ⟨h0.ne', h1⟩)).trans (if_pos h2)
  rw [almDone_permitted h ha hm, hd]

/-- A request that reads no data answers what the operation gives. -/
theorem almDone_noData (hm : almMay a c q) (hn : almNeed q = 0 ∨ 2048 < almNeed q) :
    s.almDone c n = almAnswer c n q (almStore c n q (almSlot a c q [])) := by
  have hd : almData a c n q = (a, some []) := if_pos (by simpa using hn)
  rw [almDone_permitted h ha hm, hd]

end

theorem almStore_done {c n : Nat} {q : AlmReq} {x : State × SlotRes} (h : x.2.st ≠ 0 ∨ x.2.out = []) :
    almStore c n q x = (x.1, x.2.st, x.2) := by
  refine if_neg ?_
  rcases h with h | h <;> simp [h]

theorem almStore_short {c n : Nat} {q : AlmReq} {x : State × SlotRes} (h0 : x.2.st = 0) (h1 : x.2.out ≠ [])
    (h2 : leAt q.block 44 4 < x.2.out.length) : almStore c n q x = (x.1, 8, x.2) :=
  (if_pos (by simp [h0, h1])).trans (if_pos h2)

/-! ## Starting and stopping -/

theorem nv_setNv_self (s : State) (c n : Nat) (e : NavE) : (s.setNv c n e).nv c n = e := Tbl.get_set_self ..

theorem nv_setNv_ne (s : State) {c n c' n' : Nat} (e : NavE) (h : c' * 16 + n' ≠ c * 16 + n) :
    (s.setNv c n e).nv c' n' = s.nv c' n' := Tbl.get_set_ne _ _ _ h _

theorem oldBankSettle_nav (s : State) (c : Nat) : (s.oldBankSettle c).nav = s.nav := by
  unfold State.oldBankSettle
  split <;> simp

/-- Whether the registers enable a navigator. -/
def navOn (s : State) (c m : Nat) : Bool := s.flag Reg.NAV_CTL_EN c && bitOf (s.fld Reg.NAV_CTL_RUN_MASK c) m

/-- A navigator that has been stopped. -/
def navHalted (e : NavE) : NavE := { e with run := false, wait := none, start := none, alm := [], resv := none }

/-- A navigator that is to start COLD, where its engine has not failed. -/
def navCold (e : NavE) : NavE := if e.failed.isSome then e else { e with start := some 0 }

/-- What a write of NAV_CTL does to one navigator, which the word before the write had enabled or not. -/
def enableOne (c : Nat) (was : Nat → Bool) (s : State) (m : Nat) : State :=
  if was m == navOn s c m then s
  else if navOn s c m then
    if s.navLost c m || (s.nv c m).failed.isSome then s else s.setNv c m { s.nv c m with start := some 0 }
  else s.navStop c m

theorem enableOne_other (c : Nat) (was : Nat → Bool) (s : State) {m n : Nat} (h : m ≠ n) :
    (enableOne c was s n).nv c m = s.nv c m := by
  have hk : c * 16 + m ≠ c * 16 + n := fun e => h (Nat.add_left_cancel e)
  unfold enableOne State.navStop
  split
  · rfl
  · split
    · split
      · rfl
      · exact nv_setNv_ne s _ hk
    · exact nv_setNv_ne s _ hk

/-- The registers, which say what is enabled, stay. -/
theorem enableOne_regs (c : Nat) (was : Nat → Bool) (s : State) (n : Nat) : (enableOne c was s n).regs = s.regs := by
  unfold enableOne State.navStop
  split
  · rfl
  · split
    · split <;> rfl
    · rfl

/-- A fold over navigators acts on one of them once, by what its own step does. -/
theorem foldl_enableOne (c : Nat) (was : Nat → Bool) {m : Nat} {R : Tbl Word} {F : NavE → NavE}
    (hF : ∀ u : State, u.regs = R → (enableOne c was u m).nv c m = F (u.nv c m)) :
    ∀ (l : List Nat) (u : State), l.Nodup → u.regs = R →
      (l.foldl (enableOne c was) u).nv c m = if m ∈ l then F (u.nv c m) else u.nv c m
  | [], _, _, _ => rfl
  | n :: l, u, hd, hR => by
    obtain ⟨hn, hl⟩ := List.nodup_cons.mp hd
    rw [List.foldl_cons, foldl_enableOne c was hF l _ hl ((enableOne_regs ..).trans hR)]
    by_cases e : m = n
    · subst e
      rw [if_neg hn, if_pos List.mem_cons_self, hF u hR]
    · rw [enableOne_other c was u e]
      simp [e]

theorem navEnable_absent {s : State} {c : Nat} (v : Nat) (h : s.present Ty.NAV c = false) : s.navEnable c v = s :=
  if_pos (by simp [h])

/-- A navigator after a write of NAV_CTL, by what the write does to it. -/
theorem navEnable_nv {s a : State} {c : Nat} {v : Nat} (h : s.present Ty.NAV c = true)
    (ha : s.plainWrite (Reg.NAV_CTL.at c) v = a) {m : Nat} (hm : m < 16) {F : NavE → NavE}
    (hF : ∀ u : State, u.regs = a.regs → (enableOne c (navOn s c) u m).nv c m = F (u.nv c m)) :
    (s.navEnable c v).nv c m = F (s.nv c m) := by
  have hn : a.nav = s.nav := by rw [← ha, plainWrite_only]
  have he : s.navEnable c v = (((List.range 16).foldl (enableOne c (navOn s c)) a).oldBankSettle c) := by
    subst ha
    exact if_neg (by simp [h])
  have hf := foldl_enableOne c (navOn s c) hF (List.range 16) a List.nodup_range rfl
  rw [if_pos (List.mem_range.mpr hm)] at hf
  rw [he]
  calc (((List.range 16).foldl (enableOne c (navOn s c)) a).oldBankSettle c).nv c m
      = ((List.range 16).foldl (enableOne c (navOn s c)) a).nv c m :=
        congrArg (fun t : Tbl NavE => t.get naveReset (c * 16 + m)) (oldBankSettle_nav ..)
    _ = F (a.nv c m) := hf
    _ = F (s.nv c m) := congrArg (fun t : Tbl NavE => F (t.get naveReset (c * 16 + m))) hn

theorem navOn_regs {u a : State} (h : u.regs = a.regs) (c m : Nat) : navOn u c m = navOn a c m := by
  simp only [navOn, State.flag, State.fld, State.rd, h]

theorem enableOne_same {u a : State} {c m : Nat} {was : Nat → Bool} (h : u.regs = a.regs) (hw : was m = navOn a c m) :
    (enableOne c was u m).nv c m = u.nv c m := by
  rw [enableOne, if_pos (by simp [navOn_regs h, hw])]

theorem enableOne_stops {u a : State} {c m : Nat} {was : Nat → Bool} (h : u.regs = a.regs) (hw : was m = true)
    (ho : navOn a c m = false) :
    (enableOne c was u m).nv c m = navHalted (u.nv c m) := by
  rw [enableOne, if_neg (by simp [navOn_regs h, hw, ho]), if_neg (by simp [navOn_regs h, ho])]
  exact nv_setNv_self ..

/-- A navigator just enabled starts COLD, unless it is lost or its engine has failed. -/
theorem enableOne_starts {u a : State} {c m : Nat} {was : Nat → Bool} (h : u.regs = a.regs) (hw : was m = false)
    (ho : navOn a c m = true) (hl : a.navLost c m = false) :
    (enableOne c was u m).nv c m = navCold (u.nv c m) := by
  have hl' : u.navLost c m = false := by simpa only [State.navLost, State.reg, State.rd, h] using hl
  rw [enableOne, if_neg (by simp [navOn_regs h, hw, ho]), if_pos (by simp [navOn_regs h, ho])]
  by_cases hf : (u.nv c m).failed.isSome = true
  · rw [if_pos (by simp [hf]), navCold, if_pos hf]
  · rw [if_neg (by simpa [hl'] using hf), navCold, if_neg hf]
    exact nv_setNv_self ..

theorem navWatchdog_in {s : State} {c n : Nat} (h : ¬ (s.present Ty.NAV c = true ∧ (s.nv c n).run = true ∧ (s.nv c n).wait = none ∧
    s.fld Reg.NAV_WDOG_CFG_TICKS c ≠ 0 ∧ s.fld Reg.NAV_WDOG_CFG_TICKS c < (s.nv c n).idle)) : s.navWatchdog c n = s :=
  if_neg (by simpa [and_assoc] using h)

theorem navWatchdog_late {s : State} {c n : Nat} (h : s.present Ty.NAV c = true ∧ (s.nv c n).run = true ∧ (s.nv c n).wait = none ∧
    s.fld Reg.NAV_WDOG_CFG_TICKS c ≠ 0 ∧ s.fld Reg.NAV_WDOG_CFG_TICKS c < (s.nv c n).idle) :
    s.navWatchdog c n =
      (s.count Reg.NAV_WDOG_RESTARTS c).navStart c n 3 ((s.count Reg.NAV_WDOG_RESTARTS c).tickWord 0 false false) :=
  if_pos (by simpa [and_assoc] using h)

theorem engineFail_none {s : State} {c n : Nat} (raised : Bool)
    (h : s.present Ty.NAV c = false ∨ s.navLost c n = true ∨ (s.nv c n).failed.isSome = true) : s.engineFail c n raised = s :=
  if_pos (by simpa [or_assoc] using h)

theorem engineFail_stops {s : State} {c n : Nat} (raised : Bool) (hp : s.present Ty.NAV c = true) (hl : s.navLost c n = false)
    (hf : (s.nv c n).failed = none) : s.engineFail c n raised =
      ((s.navStop c n).setNv c n { (s.navStop c n).nv c n with rx := [], trapped := false, failed := some raised }).oldBankSettle c :=
  if_neg (by simp [hp, hl, hf])

theorem bankForced_none {s : State} {c n : Nat} (h : ¬ (s.flag Reg.NAV_STS_OLD_BANK_BUSY c = true ∧ (s.nv c n).run = true ∧
    (s.nv c n).bank ≠ s.actBank c ∧ (s.cluster c).switched < s.tm.tickNo)) : s.bankForced c n = s :=
  if_neg (by simpa [and_assoc] using h)

theorem bankForced_old {s : State} {c n : Nat} (h : s.flag Reg.NAV_STS_OLD_BANK_BUSY c = true ∧ (s.nv c n).run = true ∧
    (s.nv c n).bank ≠ s.actBank c ∧ (s.cluster c).switched < s.tm.tickNo) : s.bankForced c n =
      ((s.count Reg.NAV_BANK_FORCED c).navStart c n 1
        ((s.count Reg.NAV_BANK_FORCED c).tickWord ((s.nv c n).b - 1) true false)).oldBankSettle c :=
  if_pos (by simpa [and_assoc] using h)

/-! ## Images -/

theorem imgLoad_idle {s : State} {c : Nat} (v : Nat) (image : Bytes)
    (h : s.present Ty.NAV c = false ∨ s.flag Reg.NAV_IMG_CMD_BUSY c = true) : s.imgLoad c v image = s :=
  if_pos (by simpa using h)

/-- A LOAD after its word is stored as `a`, with the target bank, EN and the length that `a` holds. -/
def imgRun (r : State) (c v : Nat) (image : Bytes) (b : Nat) (en : Bool) (n : Nat) : State :=
  if en && (r.flag Reg.NAV_STS_ARMED c || (List.range 16).any fun i => (r.nv c i).run && (r.nv c i).bank == b) then r.loadEnd c 7
  else if n < 400 || 1311104 < n then (r.bankValid c b none).loadEnd c 9
  else
    match r.dmaRead (bitsOf v 4 4) (r.reg Reg.NAV_IMG_ADDR_LO c + r.reg Reg.NAV_IMG_ADDR_HI c * 2 ^ 32) n with
    | (s, false) => (s.bankValid c b none).loadEnd c 8
    | (s, true) =>
      ((s.setCluster c { s.cluster c with load := some ⟨sliceB image 0 n, b, !en⟩ }).setFlag Reg.NAV_IMG_CMD_BUSY c true).setFlag
        Reg.NAV_STS_LOADING c true

/-- The target bank of a LOAD is in use. -/
def imgUsed (r : State) (c b : Nat) (en : Bool) : Prop :=
  en = true ∧ (r.flag Reg.NAV_STS_ARMED c = true ∨ ∃ i, i < 16 ∧ (r.nv c i).run = true ∧ (r.nv c i).bank = b)

section
variable {s a : State} {c v : Nat} {image : Bytes}
  (hp : s.present Ty.NAV c = true) (hb : s.flag Reg.NAV_IMG_CMD_BUSY c = false)
  (ha : s.plainWrite (Reg.NAV_IMG_CMD.at c) v = a)
include hp hb ha

theorem imgLoad_other (hv : v % 4 ≠ 1) : s.imgLoad c v image = a := by
  subst ha
  exact (if_neg (by simp [hp, hb])).trans (if_pos (by simpa using hv))

theorem imgLoad_run (hv : v % 4 = 1) :
    s.imgLoad c v image = imgRun (a.setFlag Reg.NAV_STS_SDATA_SKIPPED c false) c v image (a.loadBank c)
      (a.flag Reg.NAV_CTL_EN c) (a.fld Reg.NAV_IMG_LEN_BYTES c) := by
  subst ha
  exact (if_neg (by simp [hp, hb])).trans (if_neg (by simp [hv]))

end

theorem usedBit_iff (r : State) (c b : Nat) (x : Bool) :
    ((x || (List.range 16).any fun i => (r.nv c i).run && (r.nv c i).bank == b) = true) ↔
      (x = true ∨ ∃ i, i < 16 ∧ (r.nv c i).run = true ∧ (r.nv c i).bank = b) := by
  simp

section
variable {r : State} {c v b n : Nat} {image : Bytes} {en : Bool}

theorem imgRun_used (h : imgUsed r c b en) : imgRun r c v image b en n = r.loadEnd c 7 :=
  if_pos (by rw [Bool.and_eq_true_iff, usedBit_iff]; exact h)

theorem imgRun_free (h : ¬ imgUsed r c b en) : ¬ (en && (r.flag Reg.NAV_STS_ARMED c ||
    (List.range 16).any fun i => (r.nv c i).run && (r.nv c i).bank == b)) = true := by
  rw [Bool.and_eq_true_iff, usedBit_iff]
  exact h

theorem imgRun_length (h : ¬ imgUsed r c b en) (hn : n < 400 ∨ 1311104 < n) :
    imgRun r c v image b en n = (r.bankValid c b none).loadEnd c 9 :=
  (if_neg (imgRun_free h)).trans (if_pos (by simpa using hn))

theorem imgRun_read (h : ¬ imgUsed r c b en) (h4 : 400 ≤ n) (hn : n ≤ 1311104) {d : State × Bool}
    (hd : r.dmaRead (bitsOf v 4 4) (r.reg Reg.NAV_IMG_ADDR_LO c + r.reg Reg.NAV_IMG_ADDR_HI c * 2 ^ 32) n = d) :
    imgRun r c v image b en n = if d.2 then
        ((d.1.setCluster c { d.1.cluster c with load := some ⟨sliceB image 0 n, b, !en⟩ }).setFlag Reg.NAV_IMG_CMD_BUSY c true).setFlag
          Reg.NAV_STS_LOADING c true
      else (d.1.bankValid c b none).loadEnd c 8 := by
  obtain ⟨t, ok⟩ := d
  refine (if_neg (imgRun_free h)).trans ((if_neg (by simp [h4, hn])).trans ?_)
  rw [hd]
  cases ok <;> rfl

end

theorem imgDone_none {s : State} {c : Nat} (err : Bool) (h : (s.cluster c).load = none) : s.imgDone c err = s := by
  simp only [State.imgDone, h]

/-- The program of a good image in its bank, and the shared-data part where it is written. -/
def imgStore (s : State) (c : Nat) (l : NavLoad) : State :=
  let d := l.image
  let prog := leAt d 12 4
  let lo := placeBank c l.bank 0 / 4
  let a := { s with nmem := s.nmem.writeN (placeBank c l.bank 0) (sliceB d 384 prog) }
  let a := { a with nbad := a.nbad.keep fun k _ => !(decide (lo ≤ k) && decide (k < lo + 2 ^ 16)) }
  let a := if l.sdata then a.navStore (2 ^ 20) (placeShared c (leAt d 24 4)) (d.drop (384 + prog))
    else a.setFlag Reg.NAV_STS_SDATA_SKIPPED c true
  let a := a.setCluster c { a.cluster c with entry := (a.cluster c).entry.set 0 l.bank (leAt d 16 4) }
  (a.bankValid c l.bank (some (leAt d 8 4))).loadEnd c 0

theorem imgDone_cut {s : State} {c : Nat} {err : Bool} {l : NavLoad} (h : (s.cluster c).load = some l)
    (hc : err = true ∨ s.imgStoreOk c = false) :
    s.imgDone c err = ((s.raise Ty.NAV c 3 0 0).bankValid c l.bank none).loadEnd c 8 := by
  have he : (err || !s.imgStoreOk c) = true := by simpa using hc
  simp only [State.imgDone, h, he]
  rfl

theorem imgDone_checked {s : State} {c : Nat} {err : Bool} {l : NavLoad} (h : (s.cluster c).load = some l)
    (hc : ¬ (err = true ∨ s.imgStoreOk c = false)) :
    s.imgDone c err = if s.imgCheck c l.image ≠ 0 then (s.bankValid c l.bank none).loadEnd c (s.imgCheck c l.image)
      else imgStore s c l := by
  have he : (err || !s.imgStoreOk c) = false := by simpa using hc
  simp only [State.imgDone, h, he]
  by_cases hk : s.imgCheck c l.image = 0
  · rw [if_neg (not_not_intro hk)]
    exact if_neg (by simp [hk])
  · rw [if_pos hk]
    exact if_pos (by simp [hk])

theorem minSvnWrite_absent {s : State} {c : Nat} (v : Nat) (h : s.present Ty.NAV c = false) : s.minSvnWrite c v = s :=
  if_pos (by simp [h])

theorem minSvnWrite_rises {s : State} {c v : Nat} (h : s.present Ty.NAV c = true) (hv : s.reg Reg.NAV_MIN_SVN c < v) :
    s.minSvnWrite c v = s.setReg Reg.NAV_MIN_SVN c v :=
  (if_neg (by simp [h])).trans (if_pos hv)

theorem minSvnWrite_refused {s : State} {c v : Nat} (h : s.present Ty.NAV c = true) (hv : v ≤ s.reg Reg.NAV_MIN_SVN c) :
    s.minSvnWrite c v = s.count Reg.NAV_CFG_REJECT c :=
  (if_neg (by simp [h])).trans (if_neg (by omega))

/-! ## The bank switch -/

theorem bankArm_absent {s : State} {c : Nat} (h : s.present Ty.NAV c = false) : s.bankArm c = s :=
  if_pos (by simp [h])

/-- BANK_ARM with the status that its checks give. -/
theorem bankArm_status {s : State} {c st : Nat} (h : s.present Ty.NAV c = true)
    (hst : (if !s.bankOk c (1 - s.actBank c) then 1
      else if s.flag Reg.NAV_STS_OLD_BANK_BUSY c ||
        (List.range 16).any (fun n => (s.nv c n).run && (s.nv c n).bank == 1 - s.actBank c) then 2 else 0) = st) :
    s.bankArm c = if st != 0 then s.setFld Reg.NAV_BANK_CTL_STATUS c st else
      (((s.setFld Reg.NAV_BANK_CTL_STATUS c st).unname .navBank c 0).setFlag Reg.NAV_STS_ARMED c true).name .navBank c 0
        ((s.setFld Reg.NAV_BANK_CTL_STATUS c st).reg64 Reg.NAV_BANK_AT_LO c % 2 ^ 48) := by
  subst hst
  exact if_neg (by simp [h])

/-- Settles O19, outcome by outcome of each operation. -/
theorem clustersMailboxesAndImages : Obligations.ClustersMailboxesAndImages := by
  unfold Obligations.ClustersMailboxesAndImages
  refine ⟨fun s c cycle hr hc => ?_, fun s c n hr hc hn => ?_, fun s c v image err hr hc => ?_⟩
  · have hm : navC c = c := Nat.mod_eq_of_lt hc
    have deliver {r : State} (q : s.mboxDeliver c = r) : Gives (.mbxDeliver c) s r :=
      Gives.of_live (fun s => s.mboxDeliver (navC c)) hr rfl (by rw [hm, q])
    have post {r : State} (q : s.hostPost c = r) : Gives (.hostMailboxPost c) s r :=
      Gives.of_live (fun s => s.hostPost (navC c)) hr rfl (by rw [hm, q])
    have frame {r : State} (q : s.navFrame c = r) : Gives (.navFrameRx c) s r :=
      Gives.of_live (fun s => s.navFrame (navC c)) hr rfl (by rw [hm, q])
    have inject {r : State} (q : s.navInject c cycle = r) : Gives (.navInject c cycle) s r :=
      Gives.of_live (fun s => s.navInject (navC c) cycle) hr rfl (by rw [hm, q])
    refine ⟨fun h => deliver (mboxDeliver_none h), fun m h => ?_, fun h => post (hostPost_none h), fun p a h => post (hostPost_some h),
      fun h => frame (navFrame_none h), fun p h => ⟨fun hp => frame (navFrame_absent h hp), fun hp => ⟨fun hs => frame (navFrame_shut h hp rfl hs),
        fun hs => frame (navFrame_taken h hp rfl hs)⟩⟩,
      fun h => inject (navInject_none cycle h), fun p a h => ⟨fun hg => inject (navInject_bad cycle h hg), fun hg => inject (navInject_good cycle h hg)⟩⟩
    have some_ := mboxDeliver_some h
    refine ⟨fun hp => deliver (some_.trans (if_neg fun e => Bool.false_ne_true (hp.symm.trans e))), fun hp => ⟨fun hd => ?_, fun hl hx => ⟨fun hw => ?_, fun w hw hmsg => ?_⟩⟩⟩
    · exact deliver (some_.trans ((if_pos hp).trans (mboxPut_dropped _ hd)))
    · exact deliver (some_.trans ((if_pos hp).trans (mboxPut_quiet (s := { s with mail := s.mail.erase m }) _ hl hx hw)))
    · exact deliver (some_.trans ((if_pos hp).trans (mboxPut_wakes (s := { s with mail := s.mail.erase m }) _ hl hx hw hmsg)))
  · have hm : navC c = c := Nat.mod_eq_of_lt hc
    have hk : navN n = n := Nat.mod_eq_of_lt hn
    have done {r : State} (q : s.almDone c n = r) : Gives (.almreqComplete c n) s r :=
      Gives.of_live (fun s => s.almDone (navC c) (navN n)) hr rfl (by rw [hm, hk, q])
    have enable {v : Word} {r : State} (q : s.navEnable c v.toNat = r) : Gives (.navEnable c v) s r :=
      Gives.of_live (fun s => s.navEnable (navC c) v.toNat) hr rfl (by rw [hm, q])
    have watchdog {r : State} (q : s.navWatchdog c n = r) : Gives (.navWatchdog c n) s (r.oldBankSettle c) :=
      Gives.of_live (fun s => (s.navWatchdog (navC c) (navN n)).oldBankSettle (navC c)) hr rfl (by rw [hm, hk, q])
    have fail {r : State} (q : s.engineFail c n false = r) : Gives (.engineFail c n) s r :=
      Gives.of_live (fun s => s.engineFail (navC c) (navN n) false) hr rfl (by rw [hm, hk, q])
    have forced {r : State} (q : s.bankForced c n = r) : Gives (.bankForced c n) s r :=
      Gives.of_live (fun s => s.bankForced (navC c) (navN n)) hr rfl (by rw [hm, hk, q])
    refine ⟨fun h => done (almDone_nil h), fun q rest h => ?_, fun v h => enable (navEnable_absent _ h), fun v h => ?_,
      ⟨fun h => watchdog (navWatchdog_in h), fun h => watchdog (navWatchdog_late h)⟩, fun h => fail (engineFail_none false h),
      fun hp hl hf => fail (engineFail_stops false hp hl hf), ⟨fun h => forced (bankForced_none h), fun h => forced (bankForced_old h)⟩⟩
    · refine ⟨fun hm => done (almDone_refused h rfl hm), fun hm h0 h1 h2 => done (almDone_short h rfl hm h0 h1 h2), fun hm hn => ⟨fun hd => ?_, fun h0 h1 h2 => ?_⟩⟩
      · exact done ((almDone_noData h rfl hm hn).trans (congrArg _ (almStore_done hd)))
      · exact done ((almDone_noData h rfl hm hn).trans (congrArg _ (almStore_short h0 h1 h2)))
    · refine ⟨_, enable rfl, fun m hlt => ⟨fun hs => ?_, fun hs ho => ?_, fun hs ho hl hf => ?_⟩⟩
      · exact navEnable_nv h rfl hlt (F := id) fun u hu => enableOne_same hu hs
      · exact navEnable_nv h rfl hlt (F := navHalted) fun u hu => enableOne_stops hu hs ho
      · exact (navEnable_nv h rfl hlt (F := navCold) fun u hu => enableOne_starts hu hs ho hl).trans (if_neg (by simp [hf]))
  · have hm : navC c = c := Nat.mod_eq_of_lt hc
    have load {r : State} (q : s.imgLoad c v.toNat image = r) : Gives (.imgLoad c v image) s r :=
      Gives.of_live (fun s => s.imgLoad (navC c) v.toNat image) hr rfl (by rw [hm, q])
    have loaded {r : State} (q : s.imgDone c err = r) : Gives (.imgLoadDone c err) s r :=
      Gives.of_live (fun s => s.imgDone (navC c) err) hr rfl (by rw [hm, q])
    have minSvn {r : State} (q : s.minSvnWrite c v.toNat = r) : Gives (.minSvnWrite c v) s r :=
      Gives.of_live (fun s => s.minSvnWrite (navC c) v.toNat) hr rfl (by rw [hm, q])
    have arm {r : State} (q : s.bankArm c = r) : Gives (.bankArm c) s r :=
      Gives.of_live (fun s => s.bankArm (navC c)) hr rfl (by rw [hm, q])
    refine ⟨fun h => load (imgLoad_idle _ _ h), fun hp hb => ⟨fun hv => load (imgLoad_other hp hb rfl hv), fun hv => ?_⟩,
      fun h => loaded (imgDone_none err h), fun l h => ⟨fun hc => loaded (imgDone_cut h hc), fun hc => loaded (imgDone_checked h hc)⟩,
      fun h => ⟨minSvn (minSvnWrite_absent _ h), arm (bankArm_absent h)⟩,
      fun h => ⟨fun hv => minSvn (minSvnWrite_rises h hv), fun hv => minSvn (minSvnWrite_refused h hv), fun hb => ?_, fun hb hu => ?_, fun hb hu => ?_⟩,
      Gives.of_live (fun s => (s.unname .navBank (navC c) 0).setFlag Reg.NAV_STS_ARMED (navC c) false) hr rfl (by rw [hm])⟩
    · have run {r : State} (q : imgRun _ c v.toNat image _ _ _ = r) := load ((imgLoad_run hp hb rfl hv).trans q)
      exact ⟨fun hu => run (imgRun_used hu), fun hu hn => run (imgRun_length hu hn), fun hu h4 hn =>
        ⟨fun hd => run ((imgRun_read hu h4 hn rfl).trans (if_neg fun e => Bool.false_ne_true (hd.symm.trans e))),
          fun hd => run ((imgRun_read hu h4 hn rfl).trans (if_pos hd))⟩⟩
    · exact arm (bankArm_status h (st := 1) (if_pos (by simp [hb])))
    · exact arm (bankArm_status h (st := 2) ((if_neg (by simp [hb])).trans (if_pos ((usedBit_iff ..).mpr hu))))
    · exact arm (bankArm_status h (st := 0) ((if_neg (by simp [hb])).trans (if_neg fun e => hu ((usedBit_iff ..).mp e))))

end Sys2Proof.Proofs

/-! PROOF. O20: what a navigator takes next, and the instructions of the wide extension. -/

namespace Sys2Proof.Proofs
open Sys2Proof.Machine Sys2Proof.Laws

/-! ## Registers and retiring -/

/-- An event counter that has run over, with its flag. -/
def overflowed (e : NavE) (i : Nat) (v : BitVec 64) (j : Nat) (w : BitVec 64) : NavE :=
  { (e.putCsr i v).putCsr j w with skid := 0 }

theorem overflowed_keeps (e : NavE) (i : Nat) (v : BitVec 64) (j : Nat) (w : BitVec 64) :
    (overflowed e i v j w).pc = e.pc ∧ (overflowed e i v j w).x = e.x ∧ (overflowed e i v j w).w = e.w ∧
      (overflowed e i v j w).rx = e.rx :=
  ⟨rfl, rfl, rfl, rfl⟩

theorem putCsr_keeps (e : NavE) (i : Nat) (v : BitVec 64) :
    (e.putCsr i v).pc = e.pc ∧ (e.putCsr i v).x = e.x ∧ (e.putCsr i v).w = e.w ∧ (e.putCsr i v).rx = e.rx :=
  ⟨rfl, rfl, rfl, rfl⟩

theorem bump1_eq (ev n : Nat) (e : NavE) (k : Nat) : NavE.bump1 ev n e k =
    if (e.getCsr (0x320 + k)).toNat % 256 != ev || n == 0 || e.csrBit 0x320 k then e
    else if (e.getCsr (0xB00 + k)).toNat + n < 2 ^ 64 then e.putCsr (0xB00 + k) (BitVec.ofNat 64 ((e.getCsr (0xB00 + k)).toNat + n))
    else overflowed e (0xB00 + k) (BitVec.ofNat 64 ((e.getCsr (0xB00 + k)).toNat + n)) (0x320 + k)
      (BitVec.ofNat 64 (setBitOf (e.getCsr (0x320 + k)).toNat 63 true)) := rfl

theorem bump1_keeps (ev k : Nat) (e : NavE) (i : Nat) :
    (NavE.bump1 ev k e i).pc = e.pc ∧ (NavE.bump1 ev k e i).x = e.x ∧ (NavE.bump1 ev k e i).w = e.w ∧
      (NavE.bump1 ev k e i).rx = e.rx := by
  rw [bump1_eq]
  generalize 2 ^ 64 = z
  split
  · exact ⟨rfl, rfl, rfl, rfl⟩
  · split
    · exact putCsr_keeps ..
    · exact overflowed_keeps ..

/-- Counting events leaves the pc, the registers and the queue. -/
theorem bump_keeps (e : NavE) (ev k : Nat) :
    (e.bump ev k).pc = e.pc ∧ (e.bump ev k).x = e.x ∧ (e.bump ev k).w = e.w ∧ (e.bump ev k).rx = e.rx := by
  have h3 := bump1_keeps ev k e 3
  have h4 := bump1_keeps ev k (NavE.bump1 ev k e 3) 4
  have h5 := bump1_keeps ev k (NavE.bump1 ev k (NavE.bump1 ev k e 3) 4) 5
  have h6 := bump1_keeps ev k (NavE.bump1 ev k (NavE.bump1 ev k (NavE.bump1 ev k e 3) 4) 5) 6
  rw [h5.1, h5.2.1, h5.2.2.1, h5.2.2.2, h4.1, h4.2.1, h4.2.2.1, h4.2.2.2, h3.1, h3.2.1, h3.2.2.1, h3.2.2.2] at h6
  exact h6

/-- What an instruction leaves of its navigator once it has retired. -/
def retired (e : NavE) (next : BitVec 64) (wide : Bool) : NavE :=
  let e := { e with pc := next, skid := e.skid + 1 }
  let e := if e.csrBit 0x320 2 then e else e.putCsr 0xB02 (e.getCsr 0xB02 + 1)
  (e.bump 2 1).bump 3 (if wide then 1 else 0)

theorem navReg_eq (s : State) (c n : Nat) (f : NavE → NavE) :
    s.navReg c n f = s.setNv c n (retired (f (s.nv c n)) ((s.nv c n).pc + 4) true) := rfl

theorem retired_keeps (e : NavE) (next : BitVec 64) (wide : Bool) :
    (retired e next wide).pc = next ∧ (retired e next wide).x = e.x ∧ (retired e next wide).w = e.w ∧ (retired e next wide).rx = e.rx := by
  have hc : ∀ a : NavE, (a.pc = next ∧ a.x = e.x ∧ a.w = e.w ∧ a.rx = e.rx) →
      ((a.bump 2 1).bump 3 (if wide then 1 else 0)).pc = next ∧ ((a.bump 2 1).bump 3 (if wide then 1 else 0)).x = e.x ∧
        ((a.bump 2 1).bump 3 (if wide then 1 else 0)).w = e.w ∧ ((a.bump 2 1).bump 3 (if wide then 1 else 0)).rx = e.rx := fun a ha => by
    obtain ⟨p1, x1, w1, r1⟩ := bump_keeps a 2 1
    obtain ⟨p2, x2, w2, r2⟩ := bump_keeps (a.bump 2 1) 3 (if wide then 1 else 0)
    rw [p2, x2, w2, r2, p1, x1, w1, r1]
    exact ha
  refine hc _ ?_
  split <;> exact ⟨rfl, rfl, rfl, rfl⟩

theorem putX_zero (e : NavE) (v : BitVec 64) : e.putX 0 v = e := rfl

theorem getX_putX_self (e : NavE) (v : BitVec 64) {i : Nat} (h : i ≠ 0) : (e.putX i v).getX i = v := by
  rw [NavE.putX, NavE.getX, if_neg h, if_neg h]
  exact Tbl.get_set_self ..

theorem getX_putX_ne (e : NavE) (v : BitVec 64) {i j : Nat} (h : i ≠ j) : (e.putX i v).getX j = e.getX j := by
  unfold NavE.putX NavE.getX
  split
  · rfl
  · split
    · rfl
    · exact Tbl.get_set_ne _ _ _ (Ne.symm h) _

/-! ## What comes next -/

theorem navInstruction_idle {s : State} {c n : Nat} (cycle : Nat) (stalls : List Nat) (hold : Bool) (h : s.navReady c n = false) :
    s.navInstruction c n cycle stalls hold = s :=
  if_pos (by simp [h])

theorem navWide_idle {s : State} {c n : Nat} (row cycle : Nat) (stalls : List Nat) (f : State → Nat → NavOp → State)
    (h : s.navReady c n = false) : s.navWide row c n cycle stalls f = s :=
  if_pos (by simp [h])

theorem navParity_bad {s : State} {c n : Nat} (hn : n = 0) (hi : s.inv Ty.NAV c 2 = true) (f : State → State) :
    s.navParity c n f = (s.engineFail c n false).invDone Ty.NAV c 2 :=
  if_pos (by rw [hn, hi]; rfl)

theorem navParity_good {s : State} {c n : Nat} (h : n ≠ 0 ∨ s.inv Ty.NAV c 2 = false) (f : State → State) :
    s.navParity c n f = f s := by
  refine if_neg fun e => ?_
  obtain ⟨hn, hi⟩ := (Bool.and_eq_true_iff ..).mp e
  rcases h with h | h
  · exact h (beq_iff_eq.mp hn)
  · exact Bool.false_ne_true (h.symm.trans hi)

/-- A navigator's state as an instruction finds it. -/
def navClear (t : State) (c n : Nat) : State := t.setNv c n { t.nv c n with trapped := false }

section
variable {s a t : State} {c n cycle : Nat} {stalls : List Nat}
  (hr : s.navReady c n = true) (hp : n ≠ 0 ∨ s.inv Ty.NAV c 2 = false) (ha : s.navTime c n cycle stalls = a)
include hr hp ha

/-- NAV_INSTRUCTION takes what comes next. -/
theorem navInstruction_next {hold : Bool} {x : NavNext} (h : a.navNext c n hold = (t, x)) :
    s.navInstruction c n cycle stalls hold = (match x with
      | .irq k => t.setNv c n ((t.nv c n).enter true k 0)
      | .fault => if (t.nv c n).trapped then t.navDouble c n else t.navTrap c n 1 (t.nv c n).pc
      | .illegal raw => (navClear t c n).navTrap c n 2 (BitVec.ofNat 64 raw)
      | .op o raw len => if o.row == 0 then (navClear t c n).navBase c n raw len o else s) := by
  subst ha
  refine (if_neg (by simp [hr])).trans ((navParity_good hp _).trans ?_)
  simp only [h]
  cases x with
  | irq k => rfl
  | fault => rfl
  | illegal raw => rfl
  | op o raw len => rfl

/-- A wide command takes its own instruction. -/
theorem navWide_op {o : NavOp} {raw len row : Nat} (f : State → Nat → NavOp → State) (h : a.navNext c n true = (t, .op o raw len))
    (ho : o.row = row) : s.navWide row c n cycle stalls f = f (navClear t c n) raw o := by
  subst ha
  refine (if_neg (by simp [hr])).trans ((navParity_good hp _).trans ?_)
  rw [h]
  exact if_pos (by simp [ho])

/-- A wide command leaves what is not its own. -/
theorem navWide_other {x : NavNext} {row : Nat} (f : State → Nat → NavOp → State) (h : a.navNext c n true = (t, x))
    (ho : ∀ (o : NavOp) (raw len : Nat), x = .op o raw len → o.row ≠ row) : s.navWide row c n cycle stalls f = s := by
  subst ha
  refine (if_neg (by simp [hr])).trans ((navParity_good hp _).trans ?_)
  rw [h]
  cases x with
  | irq k => rfl
  | fault => rfl
  | illegal raw => rfl
  | op o raw len => exact if_neg (by simpa using ho o raw len rfl)

end

/-- The commands of the wide extension with the rows of their instructions. -/
def wideRows (c n cycle : Nat) (stalls : List Nat) (full : Bool) : List (Instr × Nat) :=
  [(.wld c n cycle stalls, 1), (.wst c n cycle stalls, 2), (.wadd c n cycle stalls, 3), (.wsub c n cycle stalls, 4),
    (.wand c n cycle stalls, 5), (.wor c n cycle stalls, 6), (.wxor c n cycle stalls, 7), (.wcmpeq c n cycle stalls, 8),
    (.wshl c n cycle stalls, 9), (.wshr c n cycle stalls, 10), (.wins c n cycle stalls, 11), (.wext c n cycle stalls, 12),
    (.crcstep c n cycle stalls, 13), (.mbxSend c n cycle stalls full, 14), (.mbxRecv c n cycle stalls, 15), (.wft c n cycle stalls, 16),
    (.flk c n cycle stalls, 17), (.almreq c n cycle stalls, 18)]

/-- Each of them is a wide command of its row. -/
theorem wideRows_exec {c n cycle : Nat} {stalls : List Nat} {full : Bool} {i : Instr × Nat} (hi : i ∈ wideRows c n cycle stalls full) (s : State) :
    ∃ f, exec i.1 s = live s fun s => s.navWide i.2 (navC c) (navN n) cycle stalls f := by
  simp only [wideRows, List.mem_cons, List.not_mem_nil, or_false] at hi
  rcases hi with rfl | rfl | rfl | rfl | rfl | rfl | rfl | rfl | rfl | rfl | rfl | rfl | rfl | rfl | rfl | rfl | rfl | rfl <;>
    exact ⟨_, rfl⟩

/-! ## Mailbox, wait, lookup and slot request -/

section
variable {u : State} {c n d r w : Nat}

/-- MBX.SEND retires with its status. -/
def sendDone (c n d : Nat) (b : State) (st : Nat) : State :=
  b.navReg c n fun e => (e.putX d (BitVec.ofNat 64 st)).bump 7 (if st = 0 then 0 else 1)

theorem sendBit (c n d : Nat) (b : State) (st : Nat) :
    (b.navReg c n fun e => (e.putX d (BitVec.ofNat 64 st)).bump 7 (if st == 0 then 0 else 1)) = sendDone c n d b st := by
  simp only [sendDone, beq_iff_eq]

theorem mbxSend_refused {full : Bool} (h : u.epAllowed c (((u.nv c n).getX r).toNat % 2 ^ 16) = false) :
    u.mbxSend c n d r w full = sendDone c n d (u.count Reg.NAV_MBX_REFUSED c) 2 :=
  if_pos (by rw [h]; rfl)

theorem mbxSend_full (h : u.epAllowed c (((u.nv c n).getX r).toNat % 2 ^ 16) = true) :
    u.mbxSend c n d r w true = sendDone c n d (u.count Reg.NAV_MBX_DROP c) 1 :=
  if_neg (by rw [h]; exact Bool.false_ne_true)

theorem mbxSend_sent {ep : Nat} (he : ((u.nv c n).getX r).toNat % 2 ^ 16 = ep) (h : u.epAllowed c ep = true) :
    u.mbxSend c n d r w false = sendDone c n d
      (if ep / 256 = Ty.NAV then (u.count64 Reg.NAV_MBX_SENT_LO c).sendMail ⟨Ty.NAV * 256 + c, ep % 256, none, 6, wideBytes ((u.nv c n).getW w)⟩
        else { u.count64 Reg.NAV_MBX_SENT_LO c with
          posts := (u.count64 Reg.NAV_MBX_SENT_LO c).posts ++ [⟨c, n, ep, wideBytes ((u.nv c n).getW w)⟩] }) 0 := by
  subst he
  refine (if_neg (by rw [h]; exact Bool.false_ne_true)).trans ((if_neg Bool.false_ne_true).trans ?_)
  refine (sendBit ..).trans (congrArg (sendDone c n d · 0) ?_)
  by_cases ht : ((u.nv c n).getX r).toNat % 2 ^ 16 / 256 = Ty.NAV
  · exact (if_pos (beq_iff_eq.mpr ht)).trans (if_pos ht).symm
  · exact (if_neg fun e => ht (beq_iff_eq.mp e)).trans (if_neg ht).symm

theorem mbxRecv_empty (h : (u.nv c n).rx = []) :
    u.mbxRecv c n d w = (u.draw 16).2.navReg c n fun e => e.putX d (BitVec.ofNat 64 (u.draw 16).1) := by
  simp only [State.mbxRecv, h]

theorem mbxRecv_oldest {m : RxMsg} {rest : List RxMsg} (h : (u.nv c n).rx = m :: rest) :
    u.mbxRecv c n d w = u.navReg c n fun e =>
      { (e.putW w (wideOf m.body)).putX d (BitVec.ofNat 64 (m.src % 2 ^ 16 + m.kind * 2 ^ 16)) with rx := rest } := by
  simp only [State.mbxRecv, h]

/-- A navigator at its WFT, its idle boundaries cleared. -/
def wftAt (u : State) (c n : Nat) : State := u.setNv c n { u.nv c n with idle := 0 }

theorem wft_boundary (h : 1 ≤ (u.nv c n).b) :
    u.wft c n d r = (wftAt u c n).wftReturn c n d ((wftAt u c n).tickWord ((u.nv c n).b - 1) true false) :=
  if_pos h

theorem wft_message (hb : (u.nv c n).b = 0) (hm : bitOf ((u.nv c n).getX r).toNat 0 = true) (hx : (u.nv c n).rx ≠ []) :
    u.wft c n d r = (wftAt u c n).wftReturn c n d ((wftAt u c n).tickWord 0 false true) := by
  refine (if_neg (by rw [hb]; exact Nat.not_succ_le_zero 0)).trans (if_pos ?_)
  change (bitOf ((u.nv c n).getX r).toNat 0 && !(u.nv c n).rx.isEmpty) = true
  rw [hm, Bool.true_and, Bool.not_eq_true', List.isEmpty_eq_false_iff]
  exact hx

/-- A navigator that waits in its WFT, its tick complete. -/
def wftWaiting (u : State) (c n d r : Nat) : State :=
  (wftAt u c n).setNv c n { u.nv c n with
    idle := 0, wait := some ⟨d, bitOf ((u.nv c n).getX r).toNat 0, (wftAt u c n).now⟩, done := some (wftAt u c n).tm.cycle }

theorem wft_waits (hb : (u.nv c n).b = 0) (hm : bitOf ((u.nv c n).getX r).toNat 0 = false ∨ (u.nv c n).rx = []) {y : State}
    (hy : wftWaiting u c n d r = y) :
    u.wft c n d r = if y.clusterDone c then y.complete Ty.NAV c (y.clusterCycle c) else y := by
  subst hy
  refine (if_neg (by rw [hb]; exact Nat.not_succ_le_zero 0)).trans (if_neg fun e => ?_)
  obtain ⟨h1, h2⟩ := (Bool.and_eq_true_iff ..).mp e
  rcases hm with h | h
  · exact Bool.false_ne_true (h.symm.trans h1)
  · rw [h] at h2
    exact Bool.false_ne_true h2

theorem almreq_full (h : 4 ≤ (u.nv c n).alm.length) : u.almreq c n d r = u.navReg c n fun e => e.putX d 1 := if_pos h

theorem almreq_taken (h : (u.nv c n).alm.length < 4) : u.almreq c n d r = (match u.navData c n 3 ((u.nv c n).getX r) 64 with
    | (b, none) => b
    | (b, some p) =>
      if 2 ^ 40 ≤ p then b.navTrap c n 7 ((u.nv c n).getX r)
      else (b.count Reg.NAV_ALM_REQ c).navReg c n fun x =>
        { x.putX d 0 with alm := x.alm ++ [⟨((u.nv c n).getX r).toNat, b.nmem.readN p 64, (u.nv c n).dataUser⟩] }) :=
  if_neg (Nat.not_le.mpr h)

end

/-- Settles O20: what comes next decides, and each wide instruction has its own effect. -/
theorem navigatorInstructions : Obligations.NavigatorInstructions := by
  unfold Obligations.NavigatorInstructions
  refine ⟨fun s c n cycle stalls hold full hr hc hn => ?_, fun s c n f => ?_, fun e v i j => ⟨rfl, rfl, getX_putX_self e v, getX_putX_ne e v⟩⟩
  · intro a clear rows base
    have hm : navC c = c := Nat.mod_eq_of_lt hc
    have hk : navN n = n := Nat.mod_eq_of_lt hn
    have basic {r : State} (q : s.navInstruction c n cycle stalls hold = r) : Gives base s r :=
      Gives.of_live (fun s => s.navInstruction (navC c) (navN n) cycle stalls hold) hr rfl (by rw [hm, hk, q])
    have every {i : Instr × Nat} (hi : i ∈ rows) {r : State} (q : ∀ f, s.navWide i.2 c n cycle stalls f = r) : Gives i.1 s r := by
      obtain ⟨f, hf⟩ := wideRows_exec hi s
      exact Gives.of_live _ hr hf (by rw [hm, hk, q])
    refine ⟨fun h => ⟨basic (navInstruction_idle _ _ _ h), fun i hi => every hi fun f => navWide_idle _ _ _ f h⟩, fun h h0 hv => ?_, fun h hp => ?_⟩
    · refine ⟨basic ((if_neg (by simp [h])).trans (navParity_bad h0 hv _)), fun i hi => every hi fun f => ?_⟩
      exact (if_neg (by simp [h])).trans (navParity_bad h0 hv _)
    · refine ⟨fun t k hx => basic (navInstruction_next h hp rfl hx), fun t hx => ⟨fun ht => ?_, fun ht => ?_⟩,
        fun t raw hx => basic (navInstruction_next h hp rfl hx), fun t o raw len hx => ⟨fun ho => ?_, fun ho => ?_⟩,
        fun t x hx i hi ho => every hi fun f => navWide_other h hp rfl f hx ho, fun t o raw len hx => ?_⟩
      · exact basic ((navInstruction_next h hp rfl hx).trans (if_pos ht))
      · exact basic ((navInstruction_next h hp rfl hx).trans (if_neg fun e => Bool.false_ne_true (ht.symm.trans e)))
      · exact basic ((navInstruction_next h hp rfl hx).trans (if_pos (beq_iff_eq.mpr ho)))
      · exact basic ((navInstruction_next h hp rfl hx).trans (if_neg fun e => ho (beq_iff_eq.mp e)))
      · intro u e ill wr xr
        have wide {i : Instr} {row : Nat} {f : State → Nat → NavOp → State} {r : State}
            (he : exec i s = live s fun s => s.navWide row (navC c) (navN n) cycle stalls f) (ho : o.row = row) (q : f u raw o = r) :
            Gives i s r :=
          Gives.of_live _ hr he (by rw [hm, hk, navWide_op h hp rfl f hx ho]; exact q)
        have no {b : Bool} (hb : b = false) : ¬ b = true := fun e => Bool.false_ne_true (hb.symm.trans e)
        refine ⟨fun wd r imm ho => ?_, fun w r imm ho => ?_, fun z d i j ho => ?_, fun z d i j ho => ?_, fun d i j ho => ?_,
          fun d i j ho => ?_, fun d i j ho => ?_, fun z d i j ho => ?_, fun z d i r ho => ?_, fun z d i r ho => ?_,
          fun z q d r ho => ?_, fun z q d i ho => ?_, fun pp k d r w ho => ?_, fun d r w ho => ?_, fun d w ho => ?_,
          fun d r ho => ?_, fun d w ho => ?_, fun d r ho => ?_⟩ <;> subst ho
        · exact wide rfl rfl (by rw [hm, hk]; rfl)
        · exact wide rfl rfl (by rw [hm, hk]; rfl)
        · exact wide rfl rfl (by rw [hm, hk]; rfl)
        · exact wide rfl rfl (by rw [hm, hk]; rfl)
        · exact wide rfl rfl (by rw [hm, hk]; rfl)
        · exact wide rfl rfl (by rw [hm, hk]; rfl)
        · exact wide rfl rfl (by rw [hm, hk]; rfl)
        · exact wide rfl rfl (by simp only [hm, hk, beq_iff_eq]; rfl)
        · exact wide rfl rfl (by rw [hm, hk]; rfl)
        · exact wide rfl rfl (by rw [hm, hk]; rfl)
        · exact ⟨fun hq => wide rfl rfl (by rw [hm, hk]; exact if_pos hq),
            fun hq => wide rfl rfl (by rw [hm, hk]; exact if_neg (Nat.not_le.mpr hq))⟩
        · exact ⟨fun hq => wide rfl rfl (by rw [hm, hk]; exact if_pos hq),
            fun hq => wide rfl rfl (by rw [hm, hk]; exact if_neg (Nat.not_le.mpr hq))⟩
        · exact wide rfl rfl (by rw [hm, hk]; rfl)
        · intro ep body fin b
          refine ⟨fun hy => wide rfl rfl (by rw [hm, hk]; exact if_neg (no hy)), fun hy => ⟨fun hl => ?_, fun hl hf => ?_, fun hl hf => ?_⟩⟩
          · exact wide rfl rfl (by rw [hm, hk]; exact (if_pos hy).trans (mbxSend_refused hl))
          · subst hf
            exact wide rfl rfl (by rw [hm, hk]; exact (if_pos hy).trans (mbxSend_full hl))
          · subst hf
            exact wide rfl rfl (by rw [hm, hk]; exact (if_pos hy).trans (mbxSend_sent rfl hl))
        · refine ⟨fun hy => wide rfl rfl (by rw [hm, hk]; exact if_neg (no hy)), fun hy => ⟨fun hl => ?_, fun m rest hl => ?_⟩⟩
          · exact wide rfl rfl (by rw [hm, hk]; exact (if_pos hy).trans (mbxRecv_empty hl))
          · exact wide rfl rfl (by rw [hm, hk]; exact (if_pos hy).trans (mbxRecv_oldest hl))
        · have wft {r' : State} (q : u.wft c n d r = r') : Gives (.wft c n cycle stalls) s r' := wide rfl rfl (by rw [hm, hk]; exact q)
          refine ⟨fun hb => wft (wft_boundary hb), fun hb hmsg hx => wft (wft_message hb hmsg hx), fun hb hmsg => ?_⟩
          exact wft (wft_waits hb hmsg rfl)
        · exact ⟨fun hy => wide rfl rfl (by rw [hm, hk]; exact if_pos (by rw [hy]; rfl)),
            fun hy => wide rfl rfl (by rw [hm, hk]; exact if_neg (by rw [hy]; exact Bool.false_ne_true))⟩
        · refine ⟨fun hy => wide rfl rfl (by rw [hm, hk]; exact if_neg (no hy)), fun hy => ⟨fun hl => ?_, fun hl => ?_⟩⟩
          · exact wide rfl rfl (by rw [hm, hk]; exact (if_pos hy).trans (almreq_full hl))
          · exact wide rfl rfl (by rw [hm, hk]; exact (if_pos hy).trans (almreq_taken hl))
  · intro t g
    have hr := retired_keeps g ((s.nv c n).pc + 4) true
    have ht : t = s.setNv c n (retired g ((s.nv c n).pc + 4) true) := navReg_eq s c n f
    generalize retired g ((s.nv c n).pc + 4) true = e at hr ht
    obtain ⟨hpc, hx, hw, hrx⟩ := hr
    rw [ht, nv_setNv_self]
    exact ⟨hpc, hx, hw, hrx, rfl, fun d m hd => nv_setNv_ne s e hd⟩

end Sys2Proof.Proofs

/-! PROOF. O21: regions of the Quadrant, and the lines, initialisation and reseal of sealed memory. -/

namespace Sys2Proof.Proofs
open Sys2Proof.Machine Sys2Proof.Laws

/-! ## The Quadrant -/

theorem regionCommit_absent {s : State} {i : Nat} (v : Nat) (h : s.present Ty.QMAP i = false) : s.regionCommit i v = s :=
  if_pos (by simp [h])

theorem regionCommit_one {s : State} {i v : Nat} (h : s.present Ty.QMAP i = true)
    (ha : i = 32 ∨ s.flag Reg.QMAP_REGION_SEL_ALL i = false) {a : State}
    (q : s.qCommit i (s.fld Reg.QMAP_REGION_SEL_NAV i) (s.fld Reg.QMAP_REGION_SEL_REGION i) v = a) :
    s.regionCommit i v = { a with qhold := a.qhold.erase i } := by
  subst q
  refine (if_neg (by simp [h])).trans ?_
  have hb : (i != 32 && s.flag Reg.QMAP_REGION_SEL_ALL i) = false := by rcases ha with h | h <;> simp [h]
  simp only [hb]
  rfl

theorem regionCommit_all {s : State} {i v r : Nat} (h : s.present Ty.QMAP i = true) (hi : i ≠ 32)
    (ha : s.flag Reg.QMAP_REGION_SEL_ALL i = true) (q : s.fld Reg.QMAP_REGION_SEL_REGION i = r) {a : State}
    (qa : (List.range 16).foldl (fun (s : State) n => s.qCommit i n r v) s = a) :
    s.regionCommit i v = { a with qhold := a.qhold.erase i } := by
  subst q qa
  refine (if_neg (by simp [h])).trans ?_
  have hb : (i != 32 && s.flag Reg.QMAP_REGION_SEL_ALL i) = true := by simp [ha, hi]
  simp only [hb]
  rfl

theorem qCommit_refused {s : State} {i n r v : Nat} (h : bitOf (s.qreg i n r).cfg 7 = true ∨
    ((s.qhold.get qholdReset i).overlay (i == 32) (s.qreg i n r) (if i == 32 then v % 256 &&& 0xC3 else v % 128)).limit <
      ((s.qhold.get qholdReset i).overlay (i == 32) (s.qreg i n r) (if i == 32 then v % 256 &&& 0xC3 else v % 128)).base) :
    s.qCommit i n r v = s.count Reg.QMAP_CFG_REJECT i :=
  if_pos (by simpa using h)

theorem qreg_qCommit {s : State} {i n r v : Nat} {y : QRegion}
    (hy : (s.qhold.get qholdReset i).overlay (i == 32) (s.qreg i n r) (if i == 32 then v % 256 &&& 0xC3 else v % 128) = y)
    (hl : bitOf (s.qreg i n r).cfg 7 = false) (h : y.base ≤ y.limit) : (s.qCommit i n r v).qreg i n r = y := by
  subst hy
  have e : s.qCommit i n r v = s.setQreg i n r _ := if_neg (by simpa [hl] using h)
  rw [e]
  exact Tbl.get_set_self ..

/-! ## Parts and lines -/

/-- What says to which part a line belongs. -/
theorem sealPart_congr {s t : State} {i : Nat}
    (h : ∀ off, 0x48 ≤ off → off < 0x5C → t.rd (regKey Ty.SEAL i off) = s.rd (regKey Ty.SEAL i off)) (line : Nat) :
    t.sealPart i line = s.sealPart i line := by
  have range (r : Nat) (hr : r < 4) : t.sealRange i r = s.sealRange i r := by
    have k : Reg.SEAL_RANGE_CFG.at i + 4 * r = regKey Ty.SEAL i (0x4C + 4 * r) := Nat.add_assoc ..
    have e : t.regI Reg.SEAL_RANGE_CFG i r = s.regI Reg.SEAL_RANGE_CFG i r := by
      rw [State.regI, State.regI, k, h (0x4C + 4 * r) (by omega) (by omega)]
    rw [State.sealRange, State.sealRange, e]
  have base : t.fld Reg.SEAL_SPILL_CFG_BASE i = s.fld Reg.SEAL_SPILL_CFG_BASE i :=
    congrArg (fun w : Word => bitsOf w.toNat 0 13) (h 0x48 (by omega) (by omega))
  have size : t.fld Reg.SEAL_SPILL_CFG_SIZE i = s.fld Reg.SEAL_SPILL_CFG_SIZE i :=
    congrArg (fun w : Word => bitsOf w.toNat 16 13) (h 0x48 (by omega) (by omega))
  unfold State.sealPart
  rw [base, size]
  simp only [List.find?, range 0 (by omega), range 1 (by omega), range 2 (by omega), range 3 (by omega)]

theorem sealPart_count64 (s : State) (i line : Nat) : (s.count64 Reg.SEAL_READS_LO i).sealPart i line = s.sealPart i line :=
  sealPart_congr (fun off h1 h2 => by
    refine rd_countN64_ne s ?_ ?_ ?_ 1 <;> simp only [RegId.at, regKey, Reg.SEAL_READS_LO, Reg.INT_STS] <;> omega) line

/-- Looking at a line leaves the registers. -/
theorem lineHeld_regs (s : State) (i line : Nat) : (s.lineHeld i line).2.regs = s.regs := by
  unfold State.lineHeld
  split
  · rfl
  · split <;> rfl

theorem sealPart_lineHeld (s : State) (i line : Nat) : (s.lineHeld i line).2.sealPart i line = s.sealPart i line :=
  sealPart_congr (fun _ _ _ => by simp only [State.rd, lineHeld_regs]) line

theorem lineHeld_setLine (s : State) (i line : Nat) (b : Bytes) : (s.setLine i line b).lineHeld i line = (b, s.setLine i line b) := by
  have h : ((s.setLine i line b).sealOf i).hbm.find line = some b := by
    rw [State.setLine, sealOf_setSeal_self]
    exact Tbl.find_insert_self ..
  simp only [State.lineHeld, h]

/-! ## Accesses to a line -/

section
variable {s : State} {i m line : Nat} {bad : List Nat}

/-- A stack that answers every access with an error. -/
def sealShut (s : State) (i : Nat) : Prop := s.flag Reg.SEAL_STS_READY i = false ∨ (s.sealOf i).zeroised = true

/-- A line that exists, for a master that may reach it. -/
def sealReach (s : State) (i m line : Nat) : Prop :=
  line < usableUnits * unitLines ∧ s.sealMay i m (s.sealPart i line) = true

theorem sealOpen_shut (h : sealShut s i) : s.sealOpen i m line bad = (s.sealAnswer i [] true 0, none) :=
  if_pos (by simpa [sealShut] using h)

theorem sealOpen_ready (h : ¬ sealShut s i) :
    ¬ (!s.flag Reg.SEAL_STS_READY i || (s.sealOf i).zeroised) = true := by simpa [sealShut] using h

theorem sealOpen_blocked (h : ¬ sealShut s i) (hm : ¬ sealReach s i m line) :
    s.sealOpen i m line bad = (s.sealBlock i m line, none) := by
  refine (if_neg (sealOpen_ready h)).trans ?_
  by_cases hl : usableUnits * unitLines ≤ line
  · exact if_pos hl
  · refine (if_neg hl).trans (if_pos ?_)
    rw [Bool.not_eq_true', Bool.eq_false_iff]
    exact fun e => hm ⟨Nat.lt_of_not_le hl, e⟩

/-- The version of a line and the nodes fetched, for an access that may reach its part. -/
def sealEnter (s : State) (i line : Nat) (bad : List Nat) : SealPart → State × Option (Nat × Nat)
  | .range r =>
    if !s.flag Reg.SEAL_STS_ROOT_OK i || (s.sealOf i).resealing r (s.rangeLine i r line) then (s.sealAnswer i [] true 0, none)
    else if (s.sealOf i).poisonedAt r (s.rangeLine i r line) then ((s.count Reg.SEAL_POISON_HIT i).sealAnswer i [] true 0, none)
    else match s.pathFetch i r (s.rangeLine i r line) bad (s.sealLevels i r).length with
      | (t, true, k) => (t, some (t.lineCtr i r (s.rangeLine i r line), k))
      | (t, false, _) => (t.sealAnswer i [] true 0, none)
  | _ => (s, some (0, 0))

theorem sealOpen_reach (h : ¬ sealShut s i) (hm : sealReach s i m line) :
    s.sealOpen i m line bad = sealEnter s i line bad (s.sealPart i line) := by
  refine (if_neg (sealOpen_ready h)).trans ((if_neg (Nat.not_le.mpr hm.1)).trans ((if_neg ?_).trans ?_))
  · rw [hm.2]
    exact Bool.false_ne_true
  · generalize s.sealPart i line = p
    cases p <;> rfl

theorem sealOpen_plain (h : ¬ sealShut s i) (hm : sealReach s i m line) (hp : (s.sealPart i line).isRange = false) :
    s.sealOpen i m line bad = (s, some (0, 0)) := by
  rw [sealOpen_reach h hm]
  cases hq : s.sealPart i line with
  | range r => rw [hq] at hp; cases hp
  | spill => dsimp only [sealEnter]
  | scratch => dsimp only [sealEnter]

/-- A line of a range is open once the nodes of its path stand. -/
theorem sealOpen_range (h : ¬ sealShut s i) (hm : sealReach s i m line) {r : Nat} (hp : s.sealPart i line = .range r)
    (hr : s.flag Reg.SEAL_STS_ROOT_OK i = true) (hs : (s.sealOf i).resealing r (s.rangeLine i r line) = false)
    (hq : (s.sealOf i).poisonedAt r (s.rangeLine i r line) = false) {f : State × Bool × Nat}
    (hf : s.pathFetch i r (s.rangeLine i r line) bad (s.sealLevels i r).length = f) :
    s.sealOpen i m line bad = if f.2.1 then (f.1, some (f.1.lineCtr i r (s.rangeLine i r line), f.2.2)) else (f.1.sealAnswer i [] true 0, none) := by
  obtain ⟨t, ok, k⟩ := f
  rw [sealOpen_reach h hm, hp]
  refine (if_neg ?_).trans ((if_neg ?_).trans ?_)
  · rw [hr, hs]
    exact Bool.false_ne_true
  · rw [hq]
    exact Bool.false_ne_true
  · rw [hf]
    cases ok with
    | false => exact (if_neg Bool.false_ne_true).symm
    | true => exact (if_pos rfl).symm

end

/-- A read of a line outside the ranges that fails. -/
def plainFail (z : State) (i line : Nat) (b : Bytes) : State :=
  (((z.poisonLine i line 0 b).errLine i line).raise Ty.SEAL i 7 (line * 64 % 2 ^ 32) (line * 64 / 2 ^ 32)).sealAnswer i [] true 24

section
variable {s t : State} {i m line : Nat} {bad : List Nat} {got b : Bytes} {ecc : Bool}

theorem lineRead_none (h : s.sealOpen i m line bad = (t, none)) : s.lineRead i m line got ecc bad = t := by
  simp only [State.lineRead, h]

/-- A line outside the ranges is looked at as it is. -/
theorem lineLook_plain (h : (t.sealPart i line).isRange = false) :
    t.lineLook i line 0 b = (t.count64 Reg.SEAL_READS_LO i, (t.count64 Reg.SEAL_READS_LO i).lineState i line 0 b) := by
  refine if_neg ?_
  rw [sealPart_count64, h]
  exact Bool.false_ne_true

section
variable (h : s.sealOpen i m line bad = (s, some (0, 0))) (hp : (s.sealPart i line).isRange = false)
  (hb : (if got = [] then (s.lineHeld i line).1 else sliceB got 0 72) = b)
  {a : State} (ha : (s.lineHeld i line).2.count64 Reg.SEAL_READS_LO i = a)
include h hp hb ha

theorem lineRead_ecc : s.lineRead i m line got true bad = plainFail (a.count Reg.SEAL_ECC_UNCORR i) i line b := by
  subst hb ha
  simp only [State.lineRead, h, sealPart_lineHeld, hp, List.isEmpty_iff]
  rfl

theorem lineRead_plain : s.lineRead i m line got false bad = (match a.lineState i line 0 b with
    | 0 => a.sealAnswer i (sliceB (Config.xtsDec (a.sealKeys i (s.sealPart i line).region).1 (a.sealKeys i (s.sealPart i line).region).2.1
        (lineTweak line 0) (sliceB b 0 64)) 0 64) false 24
    | 1 => ((a.count Reg.SEAL_POISON_HIT i).errLine i line).sealAnswer i [] true 24
    | _ => plainFail (a.count Reg.SEAL_TAG_FAIL i) i line b) := by
  have hk : ((s.lineHeld i line).2.sealPart i line).isRange = false := by rw [sealPart_lineHeld, hp]
  have hq : a.sealPart i line = s.sealPart i line := by rw [← ha, sealPart_count64, sealPart_lineHeld]
  simp only [State.lineRead, h, hk, List.isEmpty_iff, hb, lineLook_plain hk, ha]
  rw [if_neg Bool.false_ne_true, ← hq]
  generalize a.lineState i line 0 b = k
  match k with
  | 0 => rfl
  | 1 => rfl
  | _ + 2 => rfl

end

theorem linePieces_whole {d : Bytes} (hd : d.length = 64) (line : Nat) :
    linePieces (d.length + 1) (line * 64) d = [(line, 0, d)] := by
  have he : d.isEmpty = false := by
    cases d with
    | nil => cases hd
    | cons b d => rfl
  rw [linePieces, he, if_neg Bool.false_ne_true, hd, Nat.mul_mod_left, Nat.mul_div_cancel line (by omega), Nat.sub_zero]
  dsimp only
  rw [List.take_of_length_le (by omega), List.drop_of_length_le (by omega)]
  rfl

/-- A whole aligned line is written as one piece. -/
theorem hbmWrite_whole {d : Bytes} (hd : d.length = 64) :
    s.hbmWrite i m (line * 64) d [got] [ecc] bad = (match s.sealOpen i m line bad with
      | (s, some (ver, _)) => s.lineStore i line ver d
      | (s, none) => s) := by
  rw [State.hbmWrite, linePieces_whole hd]
  exact if_pos (beq_iff_eq.mpr hd)

theorem lineStore_plain (hp : (s.sealPart i line).isRange = false) (ver : Nat) (d : Bytes) :
    s.lineStore i line ver d = ((s.setLine i line (s.lineSeal i line 0 d)).count64 Reg.SEAL_WRITES_LO i).sealAnswer i [] false 0 := by
  unfold State.lineStore
  cases hq : s.sealPart i line with
  | range r => rw [hq] at hp; cases hp
  | spill => rfl
  | scratch => rfl

end

/-! ## Initialisation and reseal -/

section
variable {s : State} {i : Nat}

theorem sealInit_absent (h : s.present Ty.SEAL i = false) : s.sealInit i = s := if_pos (by simp [h])

theorem sealInit_again (h : s.present Ty.SEAL i = true) (hb : (s.sealOf i).begun = true) :
    s.sealInit i = s.count Reg.SEAL_CFG_REJECT i :=
  (if_neg (by simp [h])).trans (if_pos hb)

theorem sealInit_fails (h : s.present Ty.SEAL i = true) (hb : (s.sealOf i).begun = false) {e : Nat}
    (he : s.sealInitErr i = e) (h0 : e ≠ 0) : s.sealInit i = s.setFld Reg.SEAL_STS_INIT_ERR i e := by
  subst he
  exact (if_neg (by simp [h])).trans ((if_neg (by simp [hb])).trans (if_pos (by simpa using h0)))

/-- What the seal root is derived from, besides the nonce. -/
def sealSecret (b : State) : Bytes :=
  match b.lcs.root with
  | some k => k ++ b.lcs.vbat.secret.getD []
  | none => []

theorem sealInit_begins (h : s.present Ty.SEAL i = true) (hb : (s.sealOf i).begun = false) (he : s.sealInitErr i = 0) {a b : State}
    (ha : s.setFld Reg.SEAL_STS_INIT_ERR i (s.sealInitErr i) = a) (hd : (a.drawBytes 48).2 = b) :
    s.sealInit i = ((b.setSeal i { s.sealOf i with sr := some (Config.hkdfExtract (a.drawBytes 48).1 (sealSecret b)), begun := true }).setFlag
      Reg.SEAL_STS_INIT_BUSY i true).setFlag Reg.SEAL_STS_ROOT_OK i
        (b.setSeal i { s.sealOf i with sr := some (Config.hkdfExtract (a.drawBytes 48).1 (sealSecret b)), begun := true }).lcs.root.isSome := by
  subst ha hd
  generalize ha : s.setFld Reg.SEAL_STS_INIT_ERR i (s.sealInitErr i) = a
  have hs : (match (a.drawBytes 48).2.lcs.root with
      | some r => Config.hkdfExtract (a.drawBytes 48).1 (r ++ (a.drawBytes 48).2.lcs.vbat.secret.getD [])
      | none => Config.hkdfExtract (a.drawBytes 48).1 []) = Config.hkdfExtract (a.drawBytes 48).1 (sealSecret (a.drawBytes 48).2) := by
    unfold sealSecret
    cases (a.drawBytes 48).2.lcs.root <;> rfl
  rw [← hs]
  subst ha
  exact (if_neg (by simp [h])).trans ((if_neg (by simp [hb])).trans (if_neg (by simp [he])))

theorem sealInitDone_none (h : s.flag Reg.SEAL_STS_INIT_BUSY i = false) : s.sealInitDone i = s := if_pos (by simp [h])

theorem sealInitDone_ready (h : s.flag Reg.SEAL_STS_INIT_BUSY i = true) :
    s.sealInitDone i = ((s.setFlag Reg.SEAL_STS_INIT_BUSY i false).setFlag Reg.SEAL_STS_READY i true).intSet Ty.SEAL i 0 :=
  if_neg (by simp [h])

theorem resealStart_idle {op r : Nat} (h : s.present Ty.SEAL i = false ∨ s.flag Reg.SEAL_RESEAL_CMD_BUSY i = true) :
    s.resealStart i op r = s :=
  if_pos (by simpa using h)

/-- The word that RESEAL_CMD shows. -/
def resealWord (r op st busy : Nat) : Nat := r + op * 16 + st * 2 ^ 24 + busy * 2 ^ 31

/-- A reseal command that ends at once. -/
def resealFin (s : State) (i r op st : Nat) : State := (s.setReg Reg.SEAL_RESEAL_CMD i (resealWord r op st 0)).intSet Ty.SEAL i 6

/-- A reseal that has begun, of a node where it names one. -/
def resealRun (s : State) (i r op : Nat) (node : Option (Nat × Nat × Nat)) : State :=
  let a := s.setSeal i { s.sealOf i with reseal := some (op, r, (node.getD (r, 0, 0)).2.1, (node.getD (r, 0, 0)).2.2) }
  let a := if op = 1 ∧ (s.sealRange i r).2.2 = 1 then a.destroyAll true else a
  (a.setReg Reg.SEAL_RESEAL_CMD i (resealWord r op 0 1)).setFlag Reg.SEAL_STS_RESEAL_BUSY i true

section
variable {r op : Nat} (h : s.present Ty.SEAL i = true) (hb : s.flag Reg.SEAL_RESEAL_CMD_BUSY i = false) (hr : r < 4) (ho : op < 4)
include h hb hr ho

theorem resealStart_cases : s.resealStart i op r =
    if (!s.flag Reg.SEAL_STS_READY i || !s.flag Reg.SEAL_STS_ROOT_OK i) = true then resealFin s i r op 6
    else if ((s.sealRange i r).2.2 == 0 || (op == 2 && ((s.sealOf i).poisoned.find? fun p => p.1 == r).isNone)) = true then resealFin s i r op 1
    else resealRun s i r op ((s.sealOf i).poisoned.find? fun p => p.1 == r) := by
  refine (if_neg (by simp [h, hb])).trans ?_
  rw [Nat.mod_eq_of_lt hr, Nat.mod_eq_of_lt ho]
  generalize hn : ((s.sealOf i).poisoned.find? fun p => p.1 == r) = node
  dsimp only [resealRun]
  rw [hn]
  simp only [Bool.and_eq_true, beq_iff_eq]
  rfl

theorem resealStart_closed (hc : ¬ (s.flag Reg.SEAL_STS_READY i = true ∧ s.flag Reg.SEAL_STS_ROOT_OK i = true)) :
    s.resealStart i op r = resealFin s i r op 6 :=
  (resealStart_cases h hb hr ho).trans (if_pos (by rw [← Bool.not_and, Bool.not_eq_true', Bool.eq_false_iff, Ne, Bool.and_eq_true]; exact hc))

theorem resealStart_open (hc : s.flag Reg.SEAL_STS_READY i = true ∧ s.flag Reg.SEAL_STS_ROOT_OK i = true) :
    s.resealStart i op r = if (s.sealRange i r).2.2 = 0 ∨ op = 2 ∧ ((s.sealOf i).poisoned.find? fun p => p.1 == r) = none
      then resealFin s i r op 1 else resealRun s i r op ((s.sealOf i).poisoned.find? fun p => p.1 == r) := by
  rw [resealStart_cases h hb hr ho, if_neg (by rw [hc.1, hc.2]; exact Bool.false_ne_true)]
  simp only [Bool.or_eq_true, Bool.and_eq_true, beq_iff_eq, Option.isNone_iff_eq_none]

end

theorem resealDone_none (h : (s.sealOf i).reseal = none) : s.resealDone i = s := by
  simp only [State.resealDone, h]

theorem resealDone_some {op r l n : Nat} (h : (s.sealOf i).reseal = some (op, r, l, n)) {a b : State}
    (ha : s.setSeal i { s.sealOf i with reseal := none } = a)
    (hb : ((if op = 1 then a.resealWhole i r else a.resealSub i r l n).sealShow i).count Reg.SEAL_RESEALS i = b) :
    s.resealDone i = (((b.setFlag Reg.SEAL_RESEAL_CMD_BUSY i false).setFld Reg.SEAL_RESEAL_CMD_STATUS i 0).setFlag
      Reg.SEAL_STS_RESEAL_BUSY i false).intSet Ty.SEAL i 6 := by
  subst ha hb
  simp only [State.resealDone, h, beq_iff_eq]

end

/-- Settles O21: the accesses go through `sealOpen`, outcome by outcome. -/
theorem regionsAndSealedMemory : Obligations.RegionsAndSealedMemory := by
  unfold Obligations.RegionsAndSealedMemory
  have no {b : Bool} (hb : b = false) : ¬ b = true := fun e => Bool.false_ne_true (hb.symm.trans e)
  refine ⟨fun s i w v hr hi => ?_, fun s i n r v => ⟨qCommit_refused, qreg_qCommit rfl⟩, fun s i r hr hi hlt => ?_,
    fun s i m line got ecc bad d hr hi hd => ?_, lineHeld_setLine⟩
  · have hm : i % 64 = i := Nat.mod_eq_of_lt hi
    have commit {r : State} (q : s.regionCommit i v.toNat = r) : Gives (.regionCommit i v) s r :=
      Gives.of_live (fun s => s.regionCommit (i % 64) v.toNat) hr rfl (by rw [hm, q])
    have fence {r : State} (q : (if s.present Ty.QMAP i then s.setFld Reg.QMAP_FENCE_WAITED i (min w 65535) else s) = r) :
        Gives (.qmapFence i w) s r :=
      Gives.of_live (fun s => if s.present Ty.QMAP (i % 64) then s.setFld Reg.QMAP_FENCE_WAITED (i % 64) (min w 65535) else s) hr rfl
        (by rw [hm, q])
    exact ⟨fun h => ⟨commit (regionCommit_absent _ h), fence (if_neg (no h))⟩, fun h => ⟨fun ha => commit (regionCommit_one h ha rfl),
      fun hn ha => commit (regionCommit_all h hn ha rfl rfl), fence (if_pos h)⟩⟩
  · have hm : i % 2 = i := Nat.mod_eq_of_lt hi
    have hq : r % 4 = r := Nat.mod_eq_of_lt hlt
    have init {r : State} (q : s.sealInit i = r) : Gives (.sealInit i) s r :=
      Gives.of_live (fun s => s.sealInit (i % 2)) hr rfl (by rw [hm, q])
    have inited {r : State} (q : s.sealInitDone i = r) : Gives (.sealInitDone i) s r :=
      Gives.of_live (fun s => s.sealInitDone (i % 2)) hr rfl (by rw [hm, q])
    have resealed {r : State} (q : s.resealDone i = r) : Gives (.resealDone i) s r :=
      Gives.of_live (fun s => s.resealDone (i % 2)) hr rfl (by rw [hm, q])
    have reseal {op : Nat} {c : Instr} (hc : (op = 1 ∧ c = .resealRange i r) ∨ (op = 2 ∧ c = .resealNode i r)) {t : State}
        (q : s.resealStart i op r = t) : Gives c s t := by
      obtain ⟨rfl, rfl⟩ | ⟨rfl, rfl⟩ := hc
      · exact Gives.of_live (fun s => s.resealStart (i % 2) 1 (r % 4)) hr rfl (by rw [hm, hq, q])
      · exact Gives.of_live (fun s => s.resealStart (i % 2) 2 (r % 4)) hr rfl (by rw [hm, hq, q])
    refine ⟨fun h => ⟨init (sealInit_absent h), reseal (.inl ⟨rfl, rfl⟩) (resealStart_idle (.inl h)),
      reseal (.inr ⟨rfl, rfl⟩) (resealStart_idle (.inl h))⟩, fun h => ⟨fun hb => init (sealInit_again h hb), fun hb => ⟨fun he => init (sealInit_fails h hb rfl he),
        fun he => init (sealInit_begins h hb he rfl rfl)⟩, fun op c hc => ?_⟩,
      fun h => inited (sealInitDone_none h), fun h => inited (sealInitDone_ready h), fun h => resealed (resealDone_none h),
      fun op q l n h => resealed (resealDone_some h rfl rfl)⟩
    have ho : op < 4 := by obtain ⟨rfl, -⟩ | ⟨rfl, -⟩ := hc <;> omega
    refine ⟨fun hb => reseal hc (resealStart_idle (.inr hb)), fun hb => ?_⟩
    exact ⟨fun hn => reseal hc (resealStart_closed h hb hlt ho hn),
      fun hopen hn => reseal hc ((resealStart_open h hb hlt ho hopen).trans (if_pos hn)),
      fun hopen hn => reseal hc ((resealStart_open h hb hlt ho hopen).trans (if_neg hn))⟩
  · have hm : i % 2 = i := Nat.mod_eq_of_lt hi
    intro rd wr shut p may
    have read {r : State} (h : s.present Ty.SEAL i = true) (q : s.lineRead i m line got ecc bad = r) : Gives rd s r :=
      Gives.of_live (fun s => if s.present Ty.SEAL (i % 2) then s.lineRead (i % 2) m line got ecc bad else s) hr rfl
        (by rw [hm]; exact (if_pos h).trans q)
    have write {r : State} (h : s.present Ty.SEAL i = true) (q : (match s.sealOpen i m line bad with
        | (s, some (ver, _)) => s.lineStore i line ver d
        | (s, none) => s) = r) : Gives wr s r :=
      Gives.of_live (fun s => if s.present Ty.SEAL (i % 2) then s.hbmWrite (i % 2) m (line * 64) d [got] [ecc] bad else s) hr rfl
        (by rw [hm]; exact (if_pos h).trans ((hbmWrite_whole hd).trans q))
    have both {t : State} (h : s.present Ty.SEAL i = true) (q : s.sealOpen i m line bad = (t, none)) : Gives rd s t ∧ Gives wr s t :=
      ⟨read h (lineRead_none q), write h (by rw [q])⟩
    refine ⟨fun h => ⟨?_, ?_⟩, fun h => ⟨fun hs => both h (sealOpen_shut hs), fun hs hy => both h (sealOpen_blocked hs hy),
      fun hs hy hp => ?_, fun hs hy r hp hroot hre hpo => ⟨fun hf => ?_, fun hf => ?_⟩⟩⟩
    · exact Gives.of_live (fun s => if s.present Ty.SEAL (i % 2) then s.lineRead (i % 2) m line got ecc bad else s) hr rfl
        (by rw [hm]; exact if_neg (no h))
    · exact Gives.of_live (fun s => if s.present Ty.SEAL (i % 2) then s.hbmWrite (i % 2) m (line * 64) d [got] [ecc] bad else s) hr rfl
        (by rw [hm]; exact if_neg (no h))
    · have ho := sealOpen_plain (bad := bad) hs hy hp
      refine ⟨fun he => ?_, fun he => ?_, write h ?_⟩
      · subst he
        exact read h (lineRead_ecc ho hp rfl rfl)
      · subst he
        exact read h (lineRead_plain ho hp rfl rfl)
      · rw [ho]
        exact lineStore_plain hp ..
    · exact both h ((sealOpen_range hs hy hp hroot hre hpo rfl).trans (if_neg (no hf)))
    · exact write h (by rw [(sealOpen_range hs hy hp hroot hre hpo rfl).trans (if_pos hf)])

end Sys2Proof.Proofs

/-! PROOF. O53: the mate link's commands, rekeys, handshake and frames; ROLE_IN and the yield. -/

namespace Sys2Proof.Proofs
open Sys2Proof.Machine Sys2Proof.Laws

/-! ## What an event leaves alone -/

/-- A part of the state that no event reaches: neither a register, the Binnacle's own record, the halt or the log's queue, nor what
ZEROISE destroys. -/
structure Untouched {α : Type} (f : State → α) : Prop where
  regs : ∀ (s : State) (r : Tbl Word), f { s with regs := r } = f s
  bin : ∀ (s : State) (b : BinS), f { s with bin := b } = f s
  halted : ∀ (s : State) (b : Bool), f { s with halted := b } = f s
  logQ : ∀ (s : State) (q : List Bytes), f { s with lcs := { s.lcs with logQ := q } } = f s
  fresh : ∀ (s : State) (n : Nat), f { s with fresh := n } = f s
  zeroise : ∀ (s : State) (x : Tbl SealS), f { s with
    lcs := { s.lcs with root := none, vbat := { s.lcs.vbat with secret := none } }
    alm := { s.alm with hot := [], isk := [] }
    ka := { s.ka with terms := [], groups := [] }
    pair := { s.pair with pk := none, hs := none }
    sealS := x } = f s

namespace Untouched

section
variable {α : Type} {f : State → α} (hf : Untouched f) (s : State) (d : Det) (c : EClass)
include hf

theorem setReg (r : RegId) (i v : Nat) : f (s.setReg r i v) = f s := hf.regs ..
theorem setReg64 (r : RegId) (i v : Nat) : f (s.setReg64 r i v) = f s := hf.regs s (s.setReg64 r i v).regs
theorem setFld (g : FldId) (i v d : Nat) : f (s.setFld g i v d) = f s := hf.regs ..
theorem intSet (ty i b : Nat) : f (s.intSet ty i b) = f s := hf.regs ..
theorem typeBit (r : RegId) (ty : Nat) : f (s.typeBit r ty) = f s := hf.regs ..
theorem lateAdd (k w lo hi : Nat) : f (s.lateAdd k w lo hi) = f s := hf.bin ..
theorem countN (r : RegId) (i n : Nat) : f (s.countN r i n) = f s := by rw [countN_only]; exact hf.regs ..
theorem count (r : RegId) (i : Nat) : f (s.count r i) = f s := hf.countN s r i 1
theorem count64 (r : RegId) (i : Nat) : f (s.count64 r i) = f s := by rw [count64_only]; exact hf.regs ..

theorem logPut (e : Bytes) : f (s.logPut e) = f s := by
  rcases logPut_cases s e with ⟨_, h⟩ | ⟨_, h⟩ <;> rw [h]
  · exact hf.logQ ..
  · exact hf.count ..

theorem log (a b c d e g : Nat) : f (s.log a b c d e g) = f s := hf.logPut ..

theorem zeroised : f s.zeroise = f s := by
  unfold State.zeroise
  dsimp only
  rw [hf.countN, hf.count]
  exact hf.zeroise ..

theorem halt (e : Bool) : f (s.halt d c e) = f s := by
  unfold State.halt
  split
  · rfl
  · rw [hf.setFld, hf.halted, hf.countN, hf.log, hf.setReg64, hf.setReg]

theorem capture (e : Bool) : f (s.capture d c e) = f s := by
  unfold State.capture
  dsimp only
  split
  · rw [hf.setReg, hf.setReg, hf.setReg, hf.setReg]
  · split
    · split
      · exact hf.setReg ..
      · rfl
    · exact (hf.lateAdd ..).trans (hf.setReg ..)

theorem escalate : f (s.escalate d c).1 = f s := by
  unfold State.escalate
  dsimp only
  split
  · rfl
  · split
    · rfl
    · split <;> exact hf.bin ..

theorem record : f (s.record d c) = f s := by
  unfold State.record
  split
  · rfl
  · rw [← hf.escalate s d c]
    generalize s.escalate d c = r
    obtain ⟨s, c, esc⟩ := r
    cases c <;>
      simp only [apply_ite f, ite_self, hf.halt, hf.zeroised, hf.log, hf.count, hf.bin, hf.intSet, hf.typeBit, hf.lateAdd, hf.setReg64,
        hf.setReg, hf.capture]

theorem event : f (s.event d c) = f s := by
  simp only [State.event, apply_ite f, ite_self, hf.record, hf.bin]

theorem raise (ty i src lo hi : Nat) : f (s.raise ty i src lo hi) = f s := by
  unfold State.raise
  split
  · exact hf.event ..
  · rfl

theorem raiseInv (ty i src e u : Nat) : f (s.raiseInv ty i src e u) = f s := (hf.raise ..).trans (hf.fresh ..)

end

end Untouched

/-! ## What the mirror leaves of the link key -/

/-- The associations and the epoch of the link key. -/
def linkKeys (s : State) : Tbl Assoc × Nat := (s.alm.recs, s.pair.epoch)

theorem untouched_linkKeys : Untouched linkKeys := ⟨fun _ _ => rfl, fun _ _ => rfl, fun _ _ => rfl, fun _ _ => rfl, fun _ _ => rfl, fun _ _ => rfl⟩

section
variable (s : State)

theorem linkKeys_setMirror (m : Nat) : linkKeys (s.setMirror m) = linkKeys s := by
  unfold State.setMirror
  dsimp only
  split
  · rfl
  · split
    · exact untouched_linkKeys.count ..
    · split <;> rfl

theorem linkKeys_mirrorStale : linkKeys s.mirrorStale = linkKeys s := by
  unfold State.mirrorStale
  split
  · exact linkKeys_setMirror ..
  · rfl

theorem linkKeys_mirror (k : Nat) (l : List Nat) (b : List Bytes) : linkKeys (s.mirror k l b) = linkKeys s := by
  unfold State.mirror
  split
  · dsimp only
    split
    · rw [linkKeys_mirrorStale, untouched_linkKeys.count]
    · split
      · rw [linkKeys_mirrorStale]
        exact (untouched_linkKeys.raiseInv ..).trans (untouched_linkKeys.count64 ..)
      · exact untouched_linkKeys.count64 ..
  · rfl

theorem linkKeys_name (k : NKind) (i x t : Nat) : linkKeys (s.name k i x t) = linkKeys s := by
  unfold State.name
  dsimp only
  split
  · exact untouched_linkKeys.count ..
  · rfl

end

/-! ## Link rekeys (R466) -/

theorem present_pair (s : State) : s.present Ty.PAIR 0 = true := by
  unfold State.present
  cases s.part <;> rfl

theorem mirrorAx_link (s : State) : s.mirrorAx 28704 = s := if_pos (by omega)

/-- A link key named for tick t: its epoch, and the pending switch of the association. -/
theorem linkSwitch_named {s : State} {pk : Bytes} (h : s.pair.pk = some pk) (e t : Nat) :
    (linkKeys (s.linkSwitch e t)).2 = e ∧
      ((linkKeys (s.linkSwitch e t)).1.get assocReset 28704).sw = some ⟨t, e % 2, false⟩ := by
  have hs : ∃ a : State, linkKeys a = (a.alm.recs, e) ∧
      s.linkSwitch e t = a.setSwitch 28704 (e % 2) t := by
    simp only [State.linkSwitch, h]
    exact ⟨_, rfl, rfl⟩
  obtain ⟨a, ha, hl⟩ := hs
  have hk : linkKeys (s.linkSwitch e t) =
      linkKeys (a.setAssoc 28704 { a.assoc 28704 with sw := some ⟨t, e % 2, false⟩ }) := by
    rw [hl, State.setSwitch, mirrorAx_link, linkKeys_name]
  rw [hk]
  refine ⟨congrArg Prod.snd ha, ?_⟩
  exact congrArg Assoc.sw (Tbl.get_set_self ..)

/-- Telling the mate of the new key changes neither. -/
theorem linkKeys_linkRekey (s : State) : linkKeys s.linkRekey = linkKeys (s.linkSwitch (s.pair.epoch + 1) (s.tm.m + 32)) := by
  unfold State.linkRekey
  dsimp only
  split
  · exact linkKeys_mirror ..
  · rfl

theorem linkRekey_named {s : State} {pk : Bytes} (h : s.pair.pk = some pk) :
    s.linkRekey.pair.epoch = s.pair.epoch + 1 ∧
      (s.linkRekey.assoc 28704).sw = some ⟨s.tm.m + 32, (s.pair.epoch + 1) % 2, false⟩ := by
  have hn := linkSwitch_named h (s.pair.epoch + 1) (s.tm.m + 32)
  rw [← linkKeys_linkRekey] at hn
  exact hn

/-! ## Commands and handshake (R465, R472) -/

section
variable {s : State} {op : Nat} {f : State → State}

theorem pairCmd_down (h : s.mirrorSt < 3 ∨ s.mateUp = false) : s.pairCmd op f = s.setReg Reg.PAIR_CMD 0 (op + 1 * 2 ^ 24) := by
  have hc : (decide (s.mirrorSt < 3) || !s.mateUp) = true := by simpa using h
  refine (if_neg (by rw [present_pair]; exact Bool.false_ne_true)).trans ?_
  simp only [hc]
  rfl

theorem pairCmd_standby (h3 : 3 ≤ s.mirrorSt) (hu : s.mateUp = true) (ha : s.isActive = false) :
    s.pairCmd op f = s.setReg Reg.PAIR_CMD 0 (op + 2 * 2 ^ 24) := by
  have hc : (decide (s.mirrorSt < 3) || !s.mateUp) = false := by simpa [hu] using h3
  refine (if_neg (by rw [present_pair]; exact Bool.false_ne_true)).trans ?_
  simp only [hc, ha]
  rfl

theorem pairCmd_done (h3 : 3 ≤ s.mirrorSt) (hu : s.mateUp = true) (ha : s.isActive = true) :
    s.pairCmd op f = (f s).setReg Reg.PAIR_CMD 0 (op + 0 * 2 ^ 24) := by
  have hc : (decide (s.mirrorSt < 3) || !s.mateUp) = false := by simpa [hu] using h3
  refine (if_neg (by rw [present_pair]; exact Bool.false_ne_true)).trans ?_
  simp only [hc, ha]
  rfl

theorem forceResync_eq (s : State) :
    s.forceResync = if s.mirrorSt = 3 then s.resyncStart.count Reg.PAIR_RESYNCS 0 else s.resyncStart := by
  simp only [State.forceResync, beq_iff_eq]

theorem hsMessage_none (kind : Nat) (d : Bytes) (h : s.pair.hs = none) : s.hsMessage kind d = s := by
  simp only [State.hsMessage, h]

theorem helloCause_same {d : Bytes} (h : beAt d 0 1 = s.pm) : s.helloCause d = 1 := if_pos (by simp [h])

variable {h : PairHs} (hs : s.pair.hs = some h)
include hs

theorem hsMessage_fails {d : Bytes} {c : Nat} (hp : h.peer = none) (hc : s.helloCause d = c) (h0 : c ≠ 0) :
    s.hsMessage 0 d = s.hsFail c := by
  subst hc
  simp only [State.hsMessage, hs, hp]
  exact if_pos (by simpa using h0)

theorem hsMessage_hello {d : Bytes} (hp : h.peer = none) (hc : s.helloCause d = 0) (h0 : s.pm = 0) :
    s.hsMessage 0 d = { s with pair := { s.pair with hs := some { h with peer := some d } } } := by
  simp only [State.hsMessage, hs, hp, hc, h0]
  rfl

theorem hsMessage_proof {peer pk : Bytes} (d : Bytes) (hp : h.peer = some peer) (hk : h.pk = some pk) :
    s.hsMessage 2 d = if Config.p384Verify (sliceB peer 3 97) (proofMsg (1 - s.pm) h.th) d then s.hsDone pk else s.hsFail 5 := by
  simp only [State.hsMessage, hs, hp, hk]

end

/-! ## Frames, ROLE_IN and the yield (R462, R464) -/

section
variable {s : State}

theorem mateReceive_ignored {f : Bytes} (h : s.mateUp = false ∨ beAt f 12 4 ≠ crc32c (sliceB f 0 12) ∨ beAt f 9 1 ≠ 1) :
    s.mateReceive f = s :=
  if_pos (by simpa [or_assoc] using h)

theorem mateReceive_good {f : Bytes} {p : Nat} {k : KPos} (hu : s.mateUp = true) (hc : beAt f 12 4 = crc32c (sliceB f 0 12))
    (hk : beAt f 9 1 = 1) (hv : s.verdict 28704 (beAt f 0 6) (some (beAt f 8 1 / 8 % 2)) = .ok p) (ha : (s.assoc 28704).pos p = some k) :
    s.mateReceive f = (match Config.gcmDec k.key (tickIv (beAt f 0 6) (beAt f 6 2) 28704 0 (beAt f 8 1 % 2) (beAt f 8 1 % 2) (beAt f 8 1 / 8 % 2))
        (sliceB f 0 16) (sliceB f 16 (beAt f 10 2 - 16)) (sliceB f (beAt f 10 2) 16) with
      | none => (((s.invoke 28704 p).count Reg.PAIR_MATE_TAG_FAIL 0).raise Ty.PAIR 0 4 0 0).mirrorStale
      | some pt => ((recsOf pt.length pt).foldl State.applyRec (s.invoke 28704 p)).peerFlags (beAt f 0 6) (beAt f 8 1)) := by
  refine (if_neg (by simp [hu, hc, hk])).trans ?_
  simp only [hv, ha] <;> rfl

theorem roleIn_same {b : Bool} {cycle : Nat} (h : (s.advanceTo (min cycle s.tm.len)).pair.pin = b) :
    s.roleIn b cycle = s.advanceTo (min cycle s.tm.len) :=
  if_pos (by simp [h])

theorem roleIn_other {b : Bool} {cycle : Nat} {r : State} (hr : s.advanceTo (min cycle s.tm.len) = r) (h : r.pair.pin ≠ b) :
    s.roleIn b cycle = { r.roleFilter with pair := { r.roleFilter.pair with pin := b, pinAt := r.roleFilter.now } } := by
  subst hr
  exact if_neg (by simpa using h)

theorem roleYield_none (h : s.pair.both = none ∨ s.pair.yielded = true ∨ s.isActive = false ∨ s.on Reg.PAIR_CTL_YIELD_EN 0 = false) :
    s.roleYield = s := by
  unfold State.roleYield
  cases hb : s.pair.both with
  | none => rfl
  | some k =>
    refine if_neg ?_
    rcases h with h | h | h | h <;> simp_all

/-- What a device and its peer need for one of them to yield. -/
structure BothActive (s : State) (k : Nat) : Prop where
  both : s.pair.both = some k
  since : k + 1 ≤ s.tm.tickNo
  up : s.mateUp = true
  me : s.isActive = true
  peer : s.flag Reg.PAIR_STS_PEER_ACTIVE 0 = true
  pair : s.on Reg.PAIR_CTL_PAIR_EN 0 = true
  yield : s.on Reg.PAIR_CTL_YIELD_EN 0 = true
  not : s.pair.yielded = false

theorem roleYield_earlier {k : Nat} (h : BothActive s k) (he : s.reg64 Reg.PAIR_LAST_ROLE_LO 0 < s.pair.peerSince ∨
    (s.reg64 Reg.PAIR_LAST_ROLE_LO 0 = s.pair.peerSince ∧ s.pm = 1)) :
    s.roleYield = { s with pair := { s.pair with yielded := true } }.count Reg.PAIR_YIELDS 0 := by
  obtain ⟨hb, hs, hu, hm, hp, hpe, hy, hn⟩ := h
  simp only [State.roleYield, hb]
  exact if_pos (by simp [hs, hu, hm, hp, hpe, hy, hn, he])

theorem roleYield_later {k : Nat} (h : BothActive s k) (he : s.pair.peerSince < s.reg64 Reg.PAIR_LAST_ROLE_LO 0 ∨
    (s.reg64 Reg.PAIR_LAST_ROLE_LO 0 = s.pair.peerSince ∧ s.pm = 0)) : s.roleYield = s := by
  obtain ⟨hb, -⟩ := h
  simp only [State.roleYield, hb]
  refine if_neg fun e => ?_
  simp only [Bool.and_eq_true, Bool.or_eq_true, decide_eq_true_eq, beq_iff_eq] at e
  omega

end

/-- Settles O53, outcome by outcome. -/
theorem pairLinkRolesAndHandshake : Obligations.PairLinkRolesAndHandshake := by
  unfold Obligations.PairLinkRolesAndHandshake
  intro s hr
  have resync {r : State} (q : s.pairCmd 1 State.forceResync = r) : Gives .pairResync s r :=
    Gives.of_live (fun s => s.pairCmd 1 State.forceResync) hr rfl q
  have rekey {r : State} (q : s.pairCmd 2 (fun s => if s.tm.free then s else s.linkRekey) = r) : Gives .pairRekeyNow s r :=
    Gives.of_live (fun s => s.pairCmd 2 fun s => if s.tm.free then s else s.linkRekey) hr rfl q
  have due {r : State} (q : (if s.pm == 0 && s.mateUp && !s.tm.free && decide (s.pair.rekeyAt + s.reg Reg.PAIR_LINK_REKEY 0 ≤ s.tm.tickNo)
      then s.linkRekey else s) = r) : Gives .linkRekeyDue s r :=
    Gives.of_live (fun s => if s.pm == 0 && s.mateUp && !s.tm.free && decide (s.pair.rekeyAt + s.reg Reg.PAIR_LINK_REKEY 0 ≤ s.tm.tickNo)
      then s.linkRekey else s) hr rfl q
  have message {kind : Nat} {d : Bytes} {r : State} (q : s.hsMessage kind d = r) : Gives (.mateHandshakeMessage kind d) s r :=
    Gives.of_live (fun s => s.hsMessage kind d) hr rfl q
  have receive {f : Bytes} {r : State} (q : s.mateReceive f = r) : Gives (.mateFrameReceive f) s r :=
    Gives.of_live (fun s => s.mateReceive f) hr rfl q
  have role {b : Bool} {cycle : Nat} {r : State} (q : s.roleIn b cycle = r) : Gives (.roleInChange b cycle) s r :=
    Gives.of_live (fun s => s.roleIn b cycle) hr rfl q
  have yield {r : State} (q : s.roleYield = r) : Gives .roleYield s r := Gives.of_live (fun s => s.roleYield) hr rfl q
  refine ⟨⟨fun h => ⟨resync (pairCmd_down h), rekey (pairCmd_down h)⟩, fun h3 hu ha => ⟨resync (pairCmd_standby h3 hu ha), rekey (pairCmd_standby h3 hu ha)⟩,
    fun h3 hu ha => ⟨resync ?_, rekey (pairCmd_done h3 hu ha)⟩⟩, fun h => due (if_neg ?_), fun h0 hu hf ht => due (if_pos ?_),
    fun pk hk => linkRekey_named hk, fun kind d h => message (hsMessage_none kind d h), fun h d hs hp => ⟨fun hm => ?_, fun h0 => message ?_⟩,
    fun h peer pk d hs hp hk => message (hsMessage_proof hs d hp hk), fun f h => receive (mateReceive_ignored h),
    fun f p k hu hc h1 => fun hv ha => receive (mateReceive_good hu hc h1 hv ha), fun b cycle => ⟨fun h => role ?_, fun h => role (roleIn_other rfl h)⟩,
    fun h => yield (roleYield_none h), fun k hb hs hu hm hp hpe hy hn => ⟨fun he => yield (roleYield_earlier ⟨hb, hs, hu, hm, hp, hpe, hy, hn⟩ he),
      fun he => yield (roleYield_later ⟨hb, hs, hu, hm, hp, hpe, hy, hn⟩ he)⟩⟩
  · exact (pairCmd_done h3 hu ha).trans (congrArg (fun r : State => r.setReg Reg.PAIR_CMD 0 (1 + 0 * 2 ^ 24)) (forceResync_eq s))
  · rcases h with h | h | h | h
    · simp [h]
    · simp [h]
    · simp [h]
    · simp [Nat.not_le.mpr h]
  · simp [h0, hu, hf, ht]
  · exact message (hsMessage_fails hs hp (helloCause_same hm) (Nat.succ_ne_zero 0))
  · by_cases hc : s.helloCause d = 0
    · exact (hsMessage_hello hs hp hc h0).trans (if_pos hc).symm
    · exact (hsMessage_fails hs hp rfl hc).trans (if_neg hc).symm
  · exact roleIn_same h

end Sys2Proof.Proofs

/-! PROOF. O54: life-cycle changes, the one-time fields and the Logbook. -/

namespace Sys2Proof.Proofs
open Sys2Proof.Machine Sys2Proof.Laws

/-! ## The command word -/

/-- A field that is written leaves the bits above it. -/
theorem setBitsOf_div (v lo w x : Nat) : setBitsOf v lo w x / 2 ^ (lo + w) = v / 2 ^ (lo + w) := by
  have hp : 0 < 2 ^ (lo + w) := Nat.two_pow_pos _
  have hlt : v % 2 ^ lo + 2 ^ lo * (x % 2 ^ w) < 2 ^ (lo + w) := by
    have h1 := Nat.mod_lt v (Nat.two_pow_pos lo)
    have h2 : 2 ^ lo * (x % 2 ^ w + 1) ≤ 2 ^ lo * 2 ^ w := Nat.mul_le_mul_left _ (Nat.mod_lt x (Nat.two_pow_pos w))
    rw [Nat.pow_add]
    rw [Nat.mul_add] at h2
    omega
  have he : setBitsOf v lo w x = v % 2 ^ lo + 2 ^ lo * (x % 2 ^ w) + 2 ^ (lo + w) * (v / 2 ^ (lo + w)) := by
    have h := word_parts v x (2 ^ lo) (2 ^ w)
    rw [Nat.div_div_eq_div_mul, ← Nat.pow_add] at h
    rw [setBitsOf, bitsOf, h, Nat.mul_add, Nat.pow_add, Nat.mul_assoc, Nat.add_assoc]
  rw [he, Nat.add_mul_div_left _ _ hp, Nat.div_eq_of_lt hlt, Nat.zero_add]

theorem bitsOf_setBitsOf_above {v lo w : Nat} (x : Nat) (hl : lo + w ≤ 31) :
    bitsOf (BitVec.ofNat 32 (setBitsOf v lo w x)).toNat 31 1 = bitsOf v 31 1 := by
  obtain ⟨k, hk⟩ := Nat.exists_eq_add_of_le hl
  have h31 (n : Nat) : n / 2 ^ 31 = n / 2 ^ (lo + w) / 2 ^ k := by rw [Nat.div_div_eq_div_mul, ← Nat.pow_add, ← hk]
  have h : setBitsOf v lo w x / 2 ^ 31 = v / 2 ^ 31 := by rw [h31, h31, setBitsOf_div]
  rw [bitsOf, bitsOf, BitVec.toNat_ofNat]
  omega

theorem busy_setFld (s : State) {f : FldId} (ht : f.ty = Ty.LCS) (ho : f.off = Reg.LCS_CMD_BUSY.off) (hl : f.lo + f.w ≤ 31) (v : Nat) :
    (s.setFld f 0 v).flag Reg.LCS_CMD_BUSY 0 = s.flag Reg.LCS_CMD_BUSY 0 := by
  have hf : f.at 0 0 = Reg.LCS_CMD_BUSY.at 0 0 := by
    rw [FldId.at, FldId.at, ht, ho]
    rfl
  have h : (s.setFld f 0 v).fld Reg.LCS_CMD_BUSY 0 = s.fld Reg.LCS_CMD_BUSY 0 := by
    rw [State.fld, State.fld, State.setFld, hf, rd_wr_self]
    exact bitsOf_setBitsOf_above v hl
  rw [State.flag, State.flag, h]

theorem inv_setFld (s : State) {f : FldId} (ht : f.ty = Ty.LCS) (ho : f.off ≠ 0x34) (v b : Nat) :
    (s.setFld f 0 v).inv Ty.LCS 0 b = s.inv Ty.LCS 0 b := by
  have hf : (Reg.ERR_INV_CHECK Ty.LCS).at 0 ≠ f.at 0 0 := by
    rw [RegId.at, FldId.at, regKey, regKey, ht]
    intro e
    exact ho (Nat.add_left_cancel e).symm
  rw [State.inv, State.inv, State.reg, State.reg, State.setFld, rd_wr_ne s hf]

/-- A command register that takes a command now: neither BUSY nor inverted check bits. -/
structure LcsFree (s : State) : Prop where
  idle : s.flag Reg.LCS_CMD_BUSY 0 = false
  good : s.inv Ty.LCS 0 0 = false

theorem LcsFree.window {s : State} (h : LcsFree s) (w : Nat) : LcsFree (s.setFld Reg.LCS_CMD_WINDOW 0 w) := by
  have hb := busy_setFld s (f := Reg.LCS_CMD_WINDOW) rfl rfl (by decide) w
  have hi := inv_setFld s (f := Reg.LCS_CMD_WINDOW) rfl (by decide) w 0
  constructor
  · rw [hb, h.idle]
  · rw [hi, h.good]

theorem LcsFree.slot {s : State} (h : LcsFree s) (k : Nat) : LcsFree (s.setFld Reg.LCS_CMD_SLOT 0 k) := by
  have hb := busy_setFld s (f := Reg.LCS_CMD_SLOT) rfl rfl (by decide) k
  have hi := inv_setFld s (f := Reg.LCS_CMD_SLOT) rfl (by decide) k 0
  constructor
  · rw [hb, h.idle]
  · rw [hi, h.good]

/-! ## Commands -/

section
variable {s : State}

theorem lcsArgs_busy (slot : Option Nat) (w : Nat) (h : s.flag Reg.LCS_CMD_BUSY 0 = true) : s.lcsArgs slot w = s := if_pos h

theorem lcsArgs_window (w : Nat) (h : LcsFree s) : s.lcsArgs none w = s.setFld Reg.LCS_CMD_WINDOW 0 w :=
  if_neg (by simp [h.idle])

theorem lcsArgs_slot (k w : Nat) (h : LcsFree s) :
    s.lcsArgs (some k) w = (s.setFld Reg.LCS_CMD_WINDOW 0 w).setFld Reg.LCS_CMD_SLOT 0 k :=
  if_neg (by simp [h.idle])

theorem lcsCmd_busy (op : Nat) (f : Bool → State → State × Nat) (h : s.flag Reg.LCS_CMD_BUSY 0 = true) : s.lcsCmd op f = s := if_pos h

theorem lcsCmd_runs {op : Nat} {f : Bool → State → State × Nat} (h : LcsFree s) {r : State × Nat} (hf : f false s = r) :
    s.lcsCmd op f = r.1.lcsDone op r.2 := by
  refine (if_neg (by simp [h.idle])).trans ?_
  simp only [h.good]
  rw [if_neg Bool.false_ne_true, hf]

/-- The life-cycle states by their numbers. -/
theorem lifeIn_iff (lo hi : Nat) : s.lifeIn lo hi = true ↔ lo ≤ s.lcs.life.code ∧ s.lcs.life.code ≤ hi := by
  simp [State.lifeIn]

theorem lifeIn_not {lo hi : Nat} (h : s.lcs.life.code < lo ∨ hi < s.lcs.life.code) : (!s.lifeIn lo hi) = true := by
  simp [State.lifeIn]
  omega

theorem lifeIn_yes {lo hi : Nat} (h1 : lo ≤ s.lcs.life.code) (h2 : s.lcs.life.code ≤ hi) : ¬ (!s.lifeIn lo hi) = true := by
  simp [State.lifeIn, h1, h2]

theorem lcsRead_allowed {w n : Nat} (f : State → State × Nat) (h : s.winOk w (s.reg64 Reg.LCS_ADDR_LO 0) n false = true) :
    s.lcsRead w n f = f s := by
  rw [State.lcsRead, State.dmaRead, if_pos h]
  rfl

theorem lcsRead_refused {w n : Nat} (f : State → State × Nat) (h : s.winOk w (s.reg64 Reg.LCS_ADDR_LO 0) n false = false) :
    s.lcsRead w n f = (s.count Reg.HIF_WIN_FAULT 0, 8) := by
  rw [State.lcsRead, State.dmaRead, if_neg (by simp [h])]
  rfl

/-! ## One-time fields (R482, R498) -/

section
variable {w : Nat} {d : Bytes} (h : LcsFree s)
include h

theorem writeRootHash_late (hl : 1 < s.lcs.life.code) : s.writeRootHash w d = s.lcsDone 3 1 :=
  lcsCmd_runs h (r := (s, 1)) (if_pos (lifeIn_not (.inr hl)))

theorem writeSubsys_late (hl : 1 < s.lcs.life.code) : s.writeSubsys w d = s.lcsDone 6 1 :=
  lcsCmd_runs h (r := (s, 1)) (if_pos (lifeIn_not (.inr hl)))

theorem writeRootHash_again (hl : s.lcs.life.code ≤ 1) (hs : s.lcs.otp.rootHash.isSome = true) : s.writeRootHash w d = s.lcsDone 3 4 :=
  lcsCmd_runs h (r := (s, 4)) ((if_neg (lifeIn_yes (Nat.zero_le _) hl)).trans (if_pos (by rw [hs]; rfl)))

theorem writeSubsys_again (hl : s.lcs.life.code ≤ 1) (hs : s.lcs.otp.subsys.isSome = true) : s.writeSubsys w d = s.lcsDone 6 4 :=
  lcsCmd_runs h (r := (s, 4)) ((if_neg (lifeIn_yes (Nat.zero_le _) hl)).trans (if_pos (by rw [hs]; rfl)))

theorem writeRootHash_read (hl : s.lcs.life.code ≤ 1) (hs : s.lcs.otp.rootHash = none)
    (hw : s.winOk w (s.reg64 Reg.LCS_ADDR_LO 0) 48 false = true) :
    s.writeRootHash w d = (s.setOtp { s.lcs.otp with rootHash := some (sliceB d 0 48) }).lcsDone 3 0 :=
  lcsCmd_runs h (r := (s.setOtp { s.lcs.otp with rootHash := some (sliceB d 0 48) }, 0))
    ((if_neg (lifeIn_yes (Nat.zero_le _) hl)).trans ((if_neg (by simp [hs])).trans ((lcsRead_allowed _ hw).trans (by simp only [hs]; rfl))))

theorem writeRootHash_closed (hl : s.lcs.life.code ≤ 1) (hs : s.lcs.otp.rootHash = none)
    (hw : s.winOk w (s.reg64 Reg.LCS_ADDR_LO 0) 48 false = false) :
    s.writeRootHash w d = (s.count Reg.HIF_WIN_FAULT 0).lcsDone 3 8 :=
  lcsCmd_runs h (r := (s.count Reg.HIF_WIN_FAULT 0, 8))
    ((if_neg (lifeIn_yes (Nat.zero_le _) hl)).trans ((if_neg (by simp [hs])).trans (lcsRead_refused _ hw)))

theorem writeSubsys_read (hl : s.lcs.life.code ≤ 1) (hs : s.lcs.otp.subsys = none)
    (hw : s.winOk w (s.reg64 Reg.LCS_ADDR_LO 0) 4 false = true) :
    s.writeSubsys w d = (s.setOtp { s.lcs.otp with subsys := some (leAt d 0 4) }).lcsDone 6 0 :=
  lcsCmd_runs h (r := (s.setOtp { s.lcs.otp with subsys := some (leAt d 0 4) }, 0))
    ((if_neg (lifeIn_yes (Nat.zero_le _) hl)).trans ((if_neg (by simp [hs])).trans ((lcsRead_allowed _ hw).trans (by
      simp only [hs, Option.getD_none, Nat.or_zero]))))

theorem writeImageKey_late {k : Nat} (hl : 3 < s.lcs.life.code) : s.writeImageKey k w d = s.lcsDone 4 1 :=
  lcsCmd_runs h (r := (s, 1)) (if_pos (lifeIn_not (.inr hl)))

theorem writeImageKey_again {k : Nat} (hl : s.lcs.life.code ≤ 3) (hs : (s.lcs.otp.imageKey.get none k).isSome = true) :
    s.writeImageKey k w d = s.lcsDone 4 4 :=
  lcsCmd_runs h (r := (s, 4)) ((if_neg (lifeIn_yes (Nat.zero_le _) hl)).trans (if_pos (by rw [hs]; rfl)))

theorem writeImageKey_read {k : Nat} (hl : s.lcs.life.code ≤ 3) (hs : s.lcs.otp.imageKey.get none k = none)
    (hw : s.winOk w (s.reg64 Reg.LCS_ADDR_LO 0) 48 false = true) :
    s.writeImageKey k w d = ((s.setOtp { s.lcs.otp with imageKey := s.lcs.otp.imageKey.set none k (some (sliceB d 0 48)) }).log
      0x16 0 Ty.LCS 0 0 k).lcsDone 4 0 :=
  lcsCmd_runs h (r := ((s.setOtp { s.lcs.otp with imageKey := s.lcs.otp.imageKey.set none k (some (sliceB d 0 48)) }).log
      0x16 0 Ty.LCS 0 0 k, 0))
    ((if_neg (lifeIn_yes (Nat.zero_le _) hl)).trans ((if_neg (by simp [hs])).trans ((lcsRead_allowed _ hw).trans (by
      simp only [hs]; rfl))))

theorem revokeImageKey_refused {k : Nat} (hl : s.lcs.life.code < 2 ∨ 3 < s.lcs.life.code) : s.revokeImageKey k = s.lcsDone 5 1 :=
  lcsCmd_runs h (r := (s, 1)) (if_pos (lifeIn_not hl))

theorem revokeImageKey_done {k : Nat} (h2 : 2 ≤ s.lcs.life.code) (h3 : s.lcs.life.code ≤ 3) :
    s.revokeImageKey k = ((s.setOtp { s.lcs.otp with revoked := setBitOf s.lcs.otp.revoked k true }).log 0x16 0 Ty.LCS 0 0 (k + 256)).lcsDone 5 0 :=
  lcsCmd_runs h (r := ((s.setOtp { s.lcs.otp with revoked := setBitOf s.lcs.otp.revoked k true }).log 0x16 0 Ty.LCS 0 0 (k + 256), 0))
    (if_neg (lifeIn_yes h2 h3))

theorem readId_none (hk : s.idKey = none) : s.readId w = s.lcsDone 2 6 :=
  lcsCmd_runs h (r := (s, 6)) (by simp only [hk])

end

/-- What READ_ID signs, after the public key. -/
def idMsg (s : State) (k : Bytes) : Bytes :=
  ascii "BV3232 identity" ++ toBE 2 s.part.code ++ toBE 1 s.lcs.life.code ++ toBE 4 s.div ++ Config.p384Pub k

/-- READ_ID of a device with an identity: a signature that fails its check ends with 6, another is written out. -/
theorem readId_signed {w : Nat} (h : LcsFree s) {k : Bytes} (hk : s.idKey = some k) {z : Bytes × State} (hz : s.idSign (idMsg s k) = z) :
    s.readId w = if z.2.inv Ty.PKA 0 1 then ((z.2.invDone Ty.PKA 0 1).raise Ty.PKA 0 3 0 0).lcsDone 2 6
      else (z.2.dmaWrite w (z.2.reg64 Reg.LCS_ADDR_LO 0) (Config.p384Pub k ++ z.1)).1.lcsDone 2
        (if (z.2.dmaWrite w (z.2.reg64 Reg.LCS_ADDR_LO 0) (Config.p384Pub k ++ z.1)).2 then 0 else 8) := by
  by_cases hi : z.2.inv Ty.PKA 0 1 = true
  · rw [if_pos hi]
    refine lcsCmd_runs h (r := (((z.2.invDone Ty.PKA 0 1).raise Ty.PKA 0 3 0 0), 6)) ?_
    simp only [hk, show s.idSign (ascii "BV3232 identity" ++ toBE 2 s.part.code ++ toBE 1 s.lcs.life.code ++ toBE 4 s.div ++ Config.p384Pub k) = z from hz,
      State.signCheck, if_pos hi]
    rfl
  · rw [if_neg hi]
    refine lcsCmd_runs h (r := ((z.2.dmaWrite w (z.2.reg64 Reg.LCS_ADDR_LO 0) (Config.p384Pub k ++ z.1)).1,
      if (z.2.dmaWrite w (z.2.reg64 Reg.LCS_ADDR_LO 0) (Config.p384Pub k ++ z.1)).2 then 0 else 8)) ?_
    simp only [hk, show s.idSign (ascii "BV3232 identity" ++ toBE 2 s.part.code ++ toBE 1 s.lcs.life.code ++ toBE 4 s.div ++ Config.p384Pub k) = z from hz,
      State.signCheck, if_neg hi]
    rfl

end

/-! ## Life-cycle changes (R479, R480) -/

theorem lcRefuse_not_next {s : State} {tg : Nat} (h : tg = s.lcs.life.code ∨ 4 < tg ∨ (tg ≠ s.lcs.life.code + 1 ∧ tg ≠ 4) ∨ 3 < s.lcs.life.code) :
    s.lcRefuse tg = 1 := by
  refine if_pos ?_
  simp only [Bool.or_eq_true, Bool.and_eq_true, beq_iff_eq, decide_eq_true_eq, bne_iff_ne]
  omega

/-- A target that comes next, or SCRAP, is refused for what it lacks. -/
theorem lcRefuse_next {s : State} {tg : Nat} (h : tg = s.lcs.life.code + 1 ∨ tg = 4) (hl : s.lcs.life.code ≤ 3) :
    s.lcRefuse tg = if (tg == 2 && s.lcs.otp.rootHash.isNone) = true then 2
      else if (s.lcs.life.code == 2 && tg == 3 && !s.lcs.retToken) = true then 3 else 0 := by
  refine if_neg ?_
  simp only [Bool.or_eq_true, Bool.and_eq_true, beq_iff_eq, decide_eq_true_eq, bne_iff_ne]
  omega

theorem lcRefuse_field {s : State} (hl : s.lcs.life.code = 1) : s.lcRefuse 2 = if s.lcs.otp.rootHash = none then 2 else 0 := by
  rw [lcRefuse_next (.inl (by omega)) (by omega), hl]
  cases s.lcs.otp.rootHash <;> simp

theorem lcRefuse_return {s : State} (hl : s.lcs.life.code = 2) : s.lcRefuse 3 = if s.lcs.retToken = false then 3 else 0 := by
  rw [lcRefuse_next (.inl (by omega)) (by omega), hl]
  cases s.lcs.retToken <;> simp

theorem lcRefuse_scrap {s : State} (hl : s.lcs.life.code ≤ 3) : s.lcRefuse 4 = 0 := by
  rw [lcRefuse_next (.inr rfl) hl]
  simp

theorem lcRefuse_factory {s : State} (hl : s.lcs.life.code = 0) : s.lcRefuse 1 = 0 := by
  rw [lcRefuse_next (.inl (by omega)) (by omega), hl]
  simp

/-- A change under way: everything destroyed, and the target's bytes programmed up to a loss of power. -/
def lcProgrammed (r : State) (tg : Nat) (c : Option (Nat × Nat)) : State :=
  (r.lcDestroy tg).setOtp { (r.lcDestroy tg).lcs.otp with
    lcState := lcProgram (r.lcDestroy tg).lcs.otp.lcState (lcBytes (r.lcDestroy tg).lcs.otp.lcState tg) c }

/-- The end of a change: finished, or BUSY where the power was lost. -/
def lcEnded (r : State) (tg : Nat) (c : Option (Nat × Nat)) : State :=
  if c = none then ((lcProgrammed r tg c).lcFinish tg).lcsDone 1 0 else (lcProgrammed r tg c).setFlag Reg.LCS_CMD_BUSY 0 true

section
variable {s r : State} {tg : Nat} {d : Bytes} {c : Option (Nat × Nat)}
  (h : s.flag Reg.LCS_CMD_BUSY 0 = false) (hr : s.setFld Reg.LCS_CMD_TARGET 0 tg = r)
include h hr

theorem lcAdvance_refused {st : Nat} (hs : r.lcRefuse tg = st) (h0 : st ≠ 0) : s.lcAdvance tg d c = r.lcsDone 1 st := by
  subst hr hs
  exact (if_neg (by simp [h])).trans (if_pos (by simpa using h0))

/-- An allowed change, after the enrolment where it is one into FACTORY. -/
theorem lcAdvance_allowed (hs : r.lcRefuse tg = 0) {e : State × Bool} (he : (if tg == 1 then r.enrol (readingsOf d) else (r, true)) = e) :
    s.lcAdvance tg d c = if (!e.2) = true then e.1.lcsDone 1 5 else lcEnded e.1 tg c := by
  subst hr he
  refine (if_neg (by simp [h])).trans ((if_neg (by simp [hs])).trans ?_)
  generalize (if (tg == 1) = true then (s.setFld Reg.LCS_CMD_TARGET 0 tg).enrol (readingsOf d) else (s.setFld Reg.LCS_CMD_TARGET 0 tg, true)) = e
  obtain ⟨e, ok⟩ := e
  cases c with
  | none => rfl
  | some c => rfl

theorem lcAdvance_plain (hs : r.lcRefuse tg = 0) (ht : tg ≠ 1) : s.lcAdvance tg d c = lcEnded r tg c := by
  rw [lcAdvance_allowed h hr hs (e := (r, true)) (if_neg (by simp [ht]))]
  rfl

theorem lcAdvance_enrols (hs : r.lcRefuse tg = 0) (ht : tg = 1) (he : (r.enrol (readingsOf d)).2 = true) :
    s.lcAdvance tg d c = lcEnded (r.enrol (readingsOf d)).1 tg c := by
  rw [lcAdvance_allowed h hr hs (e := r.enrol (readingsOf d)) (if_pos (by simp [ht])), he]
  rfl

theorem lcAdvance_unstable (hs : r.lcRefuse tg = 0) (ht : tg = 1) (he : (r.enrol (readingsOf d)).2 = false) :
    s.lcAdvance tg d c = (r.enrol (readingsOf d)).1.lcsDone 1 5 := by
  rw [lcAdvance_allowed h hr hs (e := r.enrol (readingsOf d)) (if_pos (by simp [ht])), he]
  rfl

end

/-! ## The pattern of LC_STATE (R479) -/

/-- Any bit of the byte that SCRAP programs first makes a state past every other. -/
theorem lcProgram_scrap {v bits : Nat} (h0 : 0 < bits) (hb : bits < 256) : 2 ^ 24 ≤ lcProgram v (lcBytes v 4) (some (0, bits)) := by
  have hor : 0 < bitsOf v 24 8 ||| bits % 256 := Nat.lt_of_lt_of_le (by omega) Nat.right_le_or
  have hlt : bitsOf v 24 8 ||| bits % 256 < 2 ^ 8 := Nat.or_lt_two_pow (Nat.mod_lt _ (Nat.two_pow_pos 8)) (Nat.mod_lt _ (Nat.two_pow_pos 8))
  have e : lcProgram v (lcBytes v 4) (some (0, bits)) = setBitsOf v (8 * 3) 8 (bitsOf v (8 * 3) 8 ||| bits % 256) := rfl
  rw [e, setBitsOf]
  change 2 ^ 24 ≤ v - bitsOf v 24 8 * 2 ^ 24 + (bitsOf v 24 8 ||| bits % 256) % 2 ^ 8 * 2 ^ 24
  rw [Nat.mod_eq_of_lt hlt]
  omega

theorem lcProgram_whole (n : Nat) (h : n ≤ 4) : lcProgram (lcPattern n) (lcBytes (lcPattern n) 4) none = 0xFFFFFFFF := by
  interval_cases n <;> rfl

/-! ## The Logbook (R491, R492) -/

section
variable {s : State}

theorem logAppend_nothing (t : Option Bytes) (h : s.lcs.logQ = []) : s.logAppend t = s := by
  simp only [State.logAppend, h]
  rfl

theorem logAppend_one {e : Bytes} {q : List Bytes} (h : s.lcs.logQ = e :: q) (hc : bitOf (beAt e 7 1) 7 = false) (t : Option Bytes) :
    s.logAppend t = (match t with
      | some b => (({ s with lcs := { s.lcs with logQ := q } } : State).logProgram [sliceB b 0 16]).raise Ty.LCS 0 4 0 0
      | none => ({ s with lcs := { s.lcs with logQ := q } } : State).logProgram [e]) := by
  have hn : logNext (e :: q) = ([e], q) := if_neg (by simp [hc])
  cases t <;> simp only [State.logAppend, h, hn] <;> rfl

theorem logAppend_pair {e c : Bytes} {q : List Bytes} (h : s.lcs.logQ = e :: c :: q) (hc : bitOf (beAt e 7 1) 7 = true) :
    s.logAppend none = ({ s with lcs := { s.lcs with logQ := q } } : State).logProgram [e, c] := by
  have hn : logNext (e :: c :: q) = ([e, c], q) := if_pos hc
  simp only [State.logAppend, h, hn]
  rfl

theorem logProgram_room {e : Bytes} (h : s.lcs.otp.log.length < 2031) :
    s.logProgram [e] = { s with lcs := { s.lcs with otp := { s.lcs.otp with log := s.lcs.otp.log ++ [e] } } } := by
  have h1 : ¬ (decide (2048 < s.lcs.otp.log.length + [e].length) || (decide (2032 ≤ s.lcs.otp.log.length) && !logReserve (beAt e 6 1))) = true := by
    simp
    omega
  refine (if_neg h1).trans ?_
  have h2 : ¬ (decide (s.lcs.otp.log.length < 2032) && decide (2032 ≤ s.lcs.otp.log.length + [e].length)) = true := by
    simp
    omega
  have h3 : ¬ (decide (s.lcs.otp.log.length < 2048) && decide (2048 ≤ s.lcs.otp.log.length + [e].length)) = true := by
    simp
    omega
  simp only [State.logWrite]
  rw [if_neg h3, if_neg h2]

theorem logProgram_dropped {e : Bytes} (h : 2032 ≤ s.lcs.otp.log.length)
    (hr : logReserve (beAt e 6 1) = false) : s.logProgram [e] = s.count Reg.LCS_LOG_FULL_DROP 0 := by
  refine (if_pos (by simp [h, hr])).trans (if_neg ?_)
  simp [hr]

theorem logProgram_full {e : Bytes} (h : 2048 ≤ s.lcs.otp.log.length) (hr : logReserve (beAt e 6 1) = true) :
    s.logProgram [e] = (s.count Reg.LCS_LOG_FULL_DROP 0).batterySlots [e] := by
  have hn : 2048 < s.lcs.otp.log.length + [e].length := by
    rw [List.length_singleton]
    omega
  exact (if_pos (by simp only [hn, decide_true, Bool.true_or])).trans (if_pos (by simp [hr, h]))

theorem batterySlots_one {e : Bytes} (h : s.lcs.vbat.slots.length < 8) : s.batterySlots [e] = s.batterySlot e := if_pos h

end

/-- Settles O54: the commands by their outcomes, the changes by the enrolment, the Logbook by its length. -/
theorem lifeCycleAndOneTimeMemory : Obligations.LifeCycleAndOneTimeMemory := by
  unfold Obligations.LifeCycleAndOneTimeMemory
  refine ⟨fun s hr => ?_, fun s ho => ?_, fun s tg => ⟨lcRefuse_not_next, fun hl ht => ?_, fun hl ht => ?_, fun hl ht => ?_, fun hl ht => ?_⟩,
    rfl, rfl, rfl, fun n hn => ⟨lcProgram_whole n hn, fun bits h0 hb => lcProgram_scrap h0 hb⟩⟩
  · have adv {tg : Nat} {d : Bytes} {c : Option (Nat × Nat)} {r : State} (ht : tg < 8) (q : s.lcAdvance tg d c = r) : Gives (.lcAdvance tg d c) s r :=
      Gives.of_live (fun s => s.lcAdvance (tg % 8) d c) hr rfl (by rw [Nat.mod_eq_of_lt ht, q])
    have read {w : Nat} {r : State} (q : (s.lcsArgs none (w % 16)).readId (w % 16) = r) : Gives (.readId w) s r :=
      Gives.of_live (fun s => (s.lcsArgs none (w % 16)).readId (w % 16)) hr rfl q
    have hash {w : Nat} {d : Bytes} {r : State} (q : (s.lcsArgs none (w % 16)).writeRootHash (w % 16) d = r) : Gives (.writeRootHash w d) s r :=
      Gives.of_live (fun s => (s.lcsArgs none (w % 16)).writeRootHash (w % 16) d) hr rfl q
    have sub {w : Nat} {d : Bytes} {r : State} (q : (s.lcsArgs none (w % 16)).writeSubsys (w % 16) d = r) : Gives (.writeSubsys w d) s r :=
      Gives.of_live (fun s => (s.lcsArgs none (w % 16)).writeSubsys (w % 16) d) hr rfl q
    have key {k w : Nat} {d : Bytes} {r : State} (q : (s.lcsArgs (some (k % 4)) (w % 16)).writeImageKey (k % 4) (w % 16) d = r) :
        Gives (.writeImageKey k w d) s r :=
      Gives.of_live (fun s => (s.lcsArgs (some (k % 4)) (w % 16)).writeImageKey (k % 4) (w % 16) d) hr rfl q
    have revoke {k : Nat} {r : State} (q : (s.lcsArgs (some (k % 4)) (s.fld Reg.LCS_CMD_WINDOW 0)).revokeImageKey (k % 4) = r) :
        Gives (.revokeImageKey k) s r :=
      Gives.of_live (fun s => (s.lcsArgs (some (k % 4)) (s.fld Reg.LCS_CMD_WINDOW 0)).revokeImageKey (k % 4)) hr rfl q
    have logSw {r : State} (q : s.logSw = r) : Gives .logAppend s r := Gives.of_live (fun s => s.logSw) hr rfl q
    refine ⟨fun hb => ⟨fun tg d c => ?_, fun w => ?_, fun w d => ⟨?_, ?_⟩, fun k w d => ?_, fun k => ?_, logSw (lcsCmd_busy _ _ hb)⟩, fun hb => ⟨fun tg d c ht => ?_, fun hi => ?_⟩⟩
    · exact Gives.of_live (fun s => s.lcAdvance (tg % 8) d c) hr rfl (if_pos hb)
    · exact read (by rw [lcsArgs_busy _ _ hb]; exact lcsCmd_busy _ _ hb)
    · exact hash (by rw [lcsArgs_busy _ _ hb]; exact lcsCmd_busy _ _ hb)
    · exact sub (by rw [lcsArgs_busy _ _ hb]; exact lcsCmd_busy _ _ hb)
    · exact key (by rw [lcsArgs_busy _ _ hb]; exact lcsCmd_busy _ _ hb)
    · exact revoke (by rw [lcsArgs_busy _ _ hb]; exact lcsCmd_busy _ _ hb)
    · refine ⟨fun st hs h0 => adv ht (lcAdvance_refused hb rfl hs h0), fun hs h1 => ⟨fun hc => ?_, fun hc => ?_⟩,
        fun hs h1 he => adv ht (lcAdvance_enrols hb rfl hs h1 he), fun hs h1 he => adv ht (lcAdvance_unstable hb rfl hs h1 he)⟩
      · exact adv ht ((lcAdvance_plain hb rfl hs h1).trans (if_pos hc))
      · exact adv ht ((lcAdvance_plain hb rfl hs h1).trans (if_neg hc))
    · have free : LcsFree s := ⟨hb, hi⟩
      intro life o
      refine ⟨fun w hw => ?_, fun w d hw => ?_, fun k hk => ?_, logSw (lcsCmd_runs free rfl)⟩
      · have hm : w % 16 = w := Nat.mod_eq_of_lt hw
        have go {r : State} (q : (s.setFld Reg.LCS_CMD_WINDOW 0 w).readId w = r) : Gives (.readId w) s r :=
          read (by rw [hm, lcsArgs_window w free, q])
        refine ⟨fun hk => go (readId_none (free.window w) hk), fun k hk => ?_⟩
        have signed := readId_signed (w := w) (free.window w) hk rfl
        generalize hz : (s.setFld Reg.LCS_CMD_WINDOW 0 w).idSign (idMsg (s.setFld Reg.LCS_CMD_WINDOW 0 w) k) = z at signed
        obtain ⟨sig, r⟩ := z
        intro pub
        rw [show (s.setFld Reg.LCS_CMD_WINDOW 0 w).idSign
          (ascii "BV3232 identity" ++ toBE 2 s.part.code ++ toBE 1 life ++ toBE 4 s.div ++ pub) = (sig, r) from hz]
        refine ⟨fun hx => go (signed.trans (if_pos hx)), fun hx => ?_⟩
        have written := signed.trans (if_neg fun e => Bool.false_ne_true (hx.symm.trans e))
        change _ = (r.dmaWrite w (r.reg64 Reg.LCS_ADDR_LO 0) (pub ++ sig)).1.lcsDone 2
          (if (r.dmaWrite w (r.reg64 Reg.LCS_ADDR_LO 0) (pub ++ sig)).2 = true then 0 else 8) at written
        generalize r.dmaWrite w (r.reg64 Reg.LCS_ADDR_LO 0) (pub ++ sig) = y at written ⊢
        obtain ⟨t, ok⟩ := y
        exact go written
      · have hm : w % 16 = w := Nat.mod_eq_of_lt hw
        have goHash {r : State} (q : (s.setFld Reg.LCS_CMD_WINDOW 0 w).writeRootHash w d = r) : Gives (.writeRootHash w d) s r :=
          hash (by rw [hm, lcsArgs_window w free, q])
        have goSub {r : State} (q : (s.setFld Reg.LCS_CMD_WINDOW 0 w).writeSubsys w d = r) : Gives (.writeSubsys w d) s r :=
          sub (by rw [hm, lcsArgs_window w free, q])
        have fw := free.window w
        refine ⟨fun hl => ⟨goHash (writeRootHash_late fw hl), goSub (writeSubsys_late fw hl)⟩, fun hl => ⟨fun hs => goHash (writeRootHash_again fw hl hs),
          fun hs => goSub (writeSubsys_again fw hl hs), fun hs hwin => goHash (writeRootHash_read fw hl hs hwin),
          fun hs hwin => goHash (writeRootHash_closed fw hl hs hwin), fun hs hwin => goSub (writeSubsys_read fw hl hs hwin)⟩, fun k hk => ?_⟩
        have go {r : State} (q : ((s.setFld Reg.LCS_CMD_WINDOW 0 w).setFld Reg.LCS_CMD_SLOT 0 k).writeImageKey k w d = r) : Gives (.writeImageKey k w d) s r :=
          key (by rw [hm, Nat.mod_eq_of_lt hk, lcsArgs_slot k w free, q])
        exact ⟨fun hl => go (writeImageKey_late (fw.slot k) hl), fun hl hs => go (writeImageKey_again (fw.slot k) hl hs),
          fun hl hs hwin => go (writeImageKey_read (fw.slot k) hl hs hwin)⟩
      · have go {r : State} (q : ((s.setFld Reg.LCS_CMD_WINDOW 0 (s.fld Reg.LCS_CMD_WINDOW 0)).setFld Reg.LCS_CMD_SLOT 0 k).revokeImageKey k = r) :
            Gives (.revokeImageKey k) s r :=
          revoke (by rw [Nat.mod_eq_of_lt hk, lcsArgs_slot k _ free, q])
        exact ⟨fun hl => go (revokeImageKey_refused ((free.window _).slot k) hl), fun h2 h3 => go (revokeImageKey_done ((free.window _).slot k) h2 h3)⟩
  · have append {t : Option Bytes} {r : State} (q : s.logAppend t = r) : Gives (.logbookAppend t) s r :=
      Gives.of_powered (fun s => s.logAppend t) ho rfl q
    refine ⟨fun h t => append (logAppend_nothing t h), fun e q h hc => ⟨fun hn => ?_, fun hn hl hv => ?_, fun hn hv => ⟨?_, fun hs => ?_⟩,
      fun b => append (logAppend_one h hc (some b))⟩, fun e c q h hc => append (logAppend_pair h hc)⟩
    · exact append ((logAppend_one h hc none).trans (logProgram_room (s := { s with lcs := { s.lcs with logQ := q } }) hn))
    · exact append ((logAppend_one h hc none).trans (logProgram_dropped (s := { s with lcs := { s.lcs with logQ := q } }) hn hv))
    · exact append ((logAppend_one h hc none).trans (logProgram_full (s := { s with lcs := { s.lcs with logQ := q } }) hn hv))
    · exact append ((logAppend_one h hc none).trans ((logProgram_full (s := { s with lcs := { s.lcs with logQ := q } }) hn hv).trans
        (batterySlots_one (by rw [count_lcs]; exact hs))))
  · exact ht ▸ lcRefuse_field hl
  · exact ht ▸ lcRefuse_return hl
  · exact ht ▸ lcRefuse_scrap hl
  · exact ht ▸ lcRefuse_factory hl

end Sys2Proof.Proofs

/-! PROOF. O55: tamper commands, samples and fast detectors; the battery clock. -/

namespace Sys2Proof.Proofs
open Sys2Proof.Machine Sys2Proof.Laws

/-! ## Commands (R488, R489) -/

/-- The end of a tamper command. -/
def tampFin (src : Nat) (r : State) (op st : Nat) : State :=
  (if st = 0 then r.setReg Reg.TAMP_CMD 0 (src + op * 16 + st * 2 ^ 24)
    else (r.setReg Reg.TAMP_CMD 0 (src + op * 16 + st * 2 ^ 24)).count Reg.TAMP_CFG_REJECT 0).intSet Ty.TAMP 0 3

section
variable {s : State} {src : Nat}

theorem tampCmd_done {op : Nat} {f : State → State × Nat} {r : State × Nat} (h : f s = r) : s.tampCmd src op f = tampFin src r.1 op r.2 := by
  simp only [State.tampCmd, h, beq_iff_eq]
  rfl

theorem tampFuse_late (h : 1 < s.lcs.life.code) : s.tampFuse src = tampFin src s 1 1 :=
  tampCmd_done (r := (s, 1)) (if_pos (lifeIn_not (.inr h)))

theorem tampFuse_none (h : s.lcs.life.code ≤ 1) (hs : 9 < src) : s.tampFuse src = tampFin src s 1 3 :=
  tampCmd_done (r := (s, 3)) ((if_neg (lifeIn_yes (Nat.zero_le _) h)).trans (if_pos hs))

theorem tampFuse_fused (h : s.lcs.life.code ≤ 1) (hs : src ≤ 9) (hf : bitOf s.lcs.otp.fuse src = true) : s.tampFuse src = tampFin src s 1 0 :=
  tampCmd_done (r := (s, 0)) ((if_neg (lifeIn_yes (Nat.zero_le _) h)).trans ((if_neg (Nat.not_lt.mpr hs)).trans (if_pos hf)))

theorem tampFuse_fuses (h : s.lcs.life.code ≤ 1) (hs : src ≤ 9) (hf : bitOf s.lcs.otp.fuse src = false) :
    s.tampFuse src = tampFin src (((s.setOtp { s.lcs.otp with fuse := setBitOf s.lcs.otp.fuse src true }).setFlag
      Reg.TAMP_SRC_CFG_EN 0 false (4 * src)).log 0x15 0 Ty.TAMP 0 0 src) 1 0 :=
  tampCmd_done (r := (((s.setOtp { s.lcs.otp with fuse := setBitOf s.lcs.otp.fuse src true }).setFlag
      Reg.TAMP_SRC_CFG_EN 0 false (4 * src)).log 0x15 0 Ty.TAMP 0 0 src, 0))
    ((if_neg (lifeIn_yes (Nat.zero_le _) h)).trans ((if_neg (Nat.not_lt.mpr hs)).trans (if_neg (by simp [hf]))))

theorem tampTest_running (h : s.lcs.test.isSome = true) : s.tampTest src = tampFin src s 2 2 :=
  tampCmd_done (r := (s, 2)) (if_pos h)

theorem tampTest_none (h : s.lcs.test = none) (hs : 9 < src ∨ s.monEn src = false) : s.tampTest src = tampFin src s 2 3 :=
  tampCmd_done (r := (s, 3)) ((if_neg (by simp [h])).trans (if_pos (by simpa using hs)))

theorem tampTest_runs (h : s.lcs.test = none) (hs : src ≤ 9) (he : s.monEn src = true) :
    s.tampTest src = tampFin src (({ s with lcs := { s.lcs with test := some src } } : State).count Reg.TAMP_TESTS 0) 2 0 := by
  refine tampCmd_done (r := (({ s with lcs := { s.lcs with test := some src } } : State).count Reg.TAMP_TESTS 0, 0)) ?_
  exact (if_neg (by simp [h])).trans (if_neg (by simpa [he] using hs))

theorem testEnd_none (d : Bool) (h : s.lcs.test = none) : s.testEnd d = s := by
  simp only [State.testEnd, h]

/-- TAMP_TEST_STS shows the outcome of the test of a monitor. -/
def testShown (s : State) (i : Nat) (d : Bool) : State :=
  ({ s with lcs := { s.lcs with test := none } } : State).setReg Reg.TAMP_TEST_STS 0
    (setBitOf (setBitOf (s.reg Reg.TAMP_TEST_STS 0) i d) (16 + i) !d)

/-- A condition of monitor i that still holds and has not been raised is the event. -/
def testEvent (q : State) (i : Nat) : State :=
  if bitOf q.lcs.cond i && !bitOf q.lcs.raised i then
    { q with lcs := { q.lcs with raised := setBitOf q.lcs.raised i true } }.tamperEvent i else q

theorem testEnd_detected {i : Nat} (h : s.lcs.test = some i) : s.testEnd true = testEvent (testShown s i true) i := by
  simp only [State.testEnd, h]
  rfl

theorem testEnd_failed {i : Nat} (h : s.lcs.test = some i) :
    s.testEnd false = testEvent (((testShown s i false).intSet Ty.TAMP 0 1).raise Ty.TAMP 0 3 i 0) i := by
  simp only [State.testEnd, h]
  rfl

end

/-! ## What a tamper event leaves alone -/

/-- The battery clock and the conditions shown. -/
def cell (s : State) : Nat × Nat × Nat := (s.lcs.vbat.frac, s.lcs.vbat.sec, s.lcs.cond)

theorem untouched_cell : Untouched cell := ⟨fun _ _ => rfl, fun _ _ => rfl, fun _ _ => rfl, fun _ _ => rfl, fun _ _ => rfl, fun _ _ => rfl⟩

theorem cell_batterySlot (s : State) (e : Bytes) : cell (s.batterySlot e) = cell s := by
  unfold State.batterySlot Vbat.slot
  split <;> rfl

theorem cell_tamperEvent (s : State) (i : Nat) : cell (s.tamperEvent i) = cell s := by
  unfold State.tamperEvent
  dsimp only
  split
  · rw [cell_batterySlot]
    split <;> rfl
  · rw [untouched_cell.raise, untouched_cell.logPut]
    split
    · rw [untouched_cell.intSet, untouched_cell.count]
    · exact untouched_cell.count ..

theorem cell_supersede (s : State) (l : List Nat) : cell (s.supersede l) = cell s := by
  unfold State.supersede
  dsimp only
  split
  · exact untouched_cell.countN ..
  · rfl

theorem cell_foldl_tamperEvent : ∀ (l : List Nat) (s : State), cell (l.foldl State.tamperEvent s) = cell s
  | [], _ => rfl
  | i :: l, s => (cell_foldl_tamperEvent l _).trans (cell_tamperEvent s i)

/-! ## Masks of the monitors -/

/-- The mask of the monitors below n of which p holds. -/
def maskOf (p : Nat → Bool) (n : Nat) : Nat := (List.range n).foldl (fun a i => a + if p i then 2 ^ i else 0) 0

theorem maskOf_succ (p : Nat → Bool) (n : Nat) : maskOf p (n + 1) = maskOf p n + if p n then 2 ^ n else 0 := by
  simp [maskOf, List.range_succ, List.foldl_append]

theorem maskOf_lt (p : Nat → Bool) : ∀ n, maskOf p n < 2 ^ n
  | 0 => Nat.one_pos
  | n + 1 => by
    have h := maskOf_lt p n
    rw [maskOf_succ, Nat.pow_succ]
    split <;> omega

theorem bitOf_maskOf (p : Nat → Bool) {i : Nat} : ∀ {n : Nat}, i < n → bitOf (maskOf p n) i = p i
  | n + 1, h => by
    have hlt := maskOf_lt p n
    rw [maskOf_succ, bitOf]
    rcases Nat.lt_succ_iff_lt_or_eq.mp h with hi | rfl
    · rw [← bitOf_maskOf p hi, bitOf]
      obtain ⟨k, rfl⟩ := Nat.exists_eq_add_of_lt hi
      have h2 : 2 ^ (i + k + 1) = 2 ^ i * (2 * 2 ^ k) := by rw [Nat.pow_succ, Nat.pow_add, Nat.mul_assoc, Nat.mul_comm (2 ^ k)]
      split
      · rw [h2, Nat.add_mul_div_left _ _ (Nat.two_pow_pos i), Nat.add_mul_mod_self_left]
      · rfl
    · rw [Nat.add_div_of_dvd_left (by split <;> simp), Nat.div_eq_of_lt hlt]
      cases p i <;> simp

theorem maskOf_eq_zero {p : Nat → Bool} : ∀ {n : Nat}, (∀ i, i < n → p i = false) → maskOf p n = 0
  | 0, _ => rfl
  | n + 1, h => by rw [maskOf_succ, maskOf_eq_zero fun i hi => h i (Nat.lt_succ_of_lt hi), h n (Nat.lt_succ_self n)]; rfl

/-! ## Samples (R486) -/

/-- Monitor i's condition at a sample. -/
def condNow (s : State) (conds tin i : Nat) : Bool :=
  if 5 ≤ i && i ≤ 8 then bitOf tin (i - 5) != (s.fld Reg.TAMP_SRC_CFG_LEVEL 0 (4 * i) == 1)
  else bitOf conds i || (i < 2 && s.monFilt i != 0 && bitOf s.lcs.latched i)

/-- The conditions that a sample shows. -/
def condMask (s : State) (conds tin : Nat) : Nat :=
  maskOf (fun i => condNow s conds tin i && !bitOf s.lcs.otp.fuse i && !(s.off && i < 2)) 10

/-- One count of the battery clock. -/
def clockStep (v : Vbat) : Vbat :=
  if v.frac = 32767 then { v with frac := 0, sec := (v.sec + 1) % 2 ^ 40 } else { v with frac := v.frac + 1 }

/-- What a sample does with the conditions that it shows. -/
def sampleTaken (s : State) (mask : Nat) : State :=
  let run := (List.range 10).foldl (fun (t : Tbl Nat) i =>
    t.set 0 i (if bitOf mask i && s.monLive i then min 255 (s.lcs.run.get 0 i + 1) else 0)) s.lcs.run
  let was (i : Nat) : Bool := bitOf s.lcs.raised i || (i < 2 && s.monFilt i == 0 && bitOf s.lcs.latched i)
  let fire := (List.range 10).filter fun i =>
    bitOf mask i && s.monLive i && s.lcs.test != some i && !was i && decide (max 1 (s.monFilt i) ≤ run.get 0 i)
  let held := maskOf (fun i => bitOf mask i && (was i || fire.contains i)) 10
  let a := if bitOf mask 9 && !bitOf s.lcs.cond 9 && !s.off then s.intSet Ty.TAMP 0 2 else s
  let a := { a with lcs := { a.lcs with vbat := clockStep s.lcs.vbat, cond := mask, run := run, latched := 0, raised := held } }
  fire.foldl State.tamperEvent (a.supersede fire)

theorem tamperSample_eq (s : State) (conds tin : Nat) : s.tamperSample conds tin = sampleTaken s (condMask s conds tin) := by
  have hv : (if s.lcs.vbat.frac == 32767 then { s.lcs.vbat with frac := 0, sec := (s.lcs.vbat.sec + 1) % 2 ^ 40 }
      else { s.lcs.vbat with frac := s.lcs.vbat.frac + 1 }) = clockStep s.lcs.vbat := by
    simp only [clockStep, beq_iff_eq]
  unfold sampleTaken
  rw [← hv]
  rfl

/-- A sample ends with the clock one count on and the mask shown. -/
theorem cell_tamperSample (s : State) (conds tin : Nat) :
    cell (s.tamperSample conds tin) = ((clockStep s.lcs.vbat).frac, (clockStep s.lcs.vbat).sec, condMask s conds tin) := by
  rw [tamperSample_eq]
  unfold sampleTaken
  dsimp only
  rw [cell_foldl_tamperEvent, cell_supersede]
  rfl

theorem clockStep_second {v : Vbat} (h : v.frac = 32767) : (clockStep v).frac = 0 ∧ (clockStep v).sec = (v.sec + 1) % 2 ^ 40 := by
  rw [clockStep, if_pos h]
  exact ⟨rfl, rfl⟩

theorem clockStep_count {v : Vbat} (h : v.frac < 32767) : (clockStep v).frac = v.frac + 1 ∧ (clockStep v).sec = v.sec := by
  rw [clockStep, if_neg h.ne]
  exact ⟨rfl, rfl⟩

/-- A fused monitor shows no condition. -/
theorem condMask_fused {s : State} {i : Nat} (conds tin : Nat) (hi : i < 10) (h : bitOf s.lcs.otp.fuse i = true) :
    bitOf (condMask s conds tin) i = false := by
  rw [condMask, bitOf_maskOf _ hi, h, Bool.not_true, Bool.and_false, Bool.false_and]

theorem bitOf_zero (i : Nat) : bitOf 0 i = false := by simp [bitOf]

/-- No condition: every input of the outer monitors at its idle level, and none of the others. -/
theorem condNow_none {s : State} (hl : ∀ i : Nat, 5 ≤ i → i ≤ 8 → s.fld Reg.TAMP_SRC_CFG_LEVEL 0 (4 * i) = 1) (ht : s.lcs.latched = 0)
    {i : Nat} : condNow s 0 15 i = false := by
  unfold condNow
  by_cases h : 5 ≤ i ∧ i ≤ 8
  · obtain ⟨h5, h8⟩ := h
    rw [if_pos (by simp [h5, h8]), hl i h5 h8]
    interval_cases i <;> rfl
  · rw [if_neg (by simpa using h), ht, bitOf_zero, Bool.and_false, Bool.or_false]

theorem condMask_none {s : State} (hl : ∀ i : Nat, 5 ≤ i → i ≤ 8 → s.fld Reg.TAMP_SRC_CFG_LEVEL 0 (4 * i) = 1) (ht : s.lcs.latched = 0) :
    condMask s 0 15 = 0 :=
  maskOf_eq_zero fun i _ => by rw [condNow_none hl ht, Bool.false_and, Bool.false_and]

/-- A sample of which no monitor shows a condition. -/
theorem tamperSample_none {s : State} {conds tin : Nat} (h : condMask s conds tin = 0) :
    s.tamperSample conds tin = { s with lcs := { s.lcs with
      vbat := clockStep s.lcs.vbat, cond := 0, run := (List.range 10).foldl (fun (t : Tbl Nat) i => t.set 0 i 0) s.lcs.run, latched := 0, raised := 0 } } := by
  rw [tamperSample_eq, h]
  simp only [sampleTaken, bitOf_zero, Bool.false_and, if_neg Bool.false_ne_true, List.filter_false]
  rw [maskOf_eq_zero fun _ _ => rfl]
  rfl

/-! ## Fast detectors -/

section
variable {s : State} {i : Nat}

theorem fastDetect_dead (h : s.off = true ∨ s.monLive i = false) : s.fastDetect i = s := if_pos (by simpa using h)

theorem fastDetect_latched (h : s.off = false) (hl : s.monLive i = true) (hf : s.monFilt i ≠ 0) :
    s.fastDetect i = { s with lcs := { s.lcs with latched := setBitOf s.lcs.latched i true } } :=
  (if_neg (by simp [h, hl])).trans (if_pos (by simpa using hf))

theorem fastDetect_event (h : s.off = false) (hl : s.monLive i = true) (hf : s.monFilt i = 0) (ht : s.lcs.test ≠ some i)
    (hr : bitOf s.lcs.raised i = false) :
    s.fastDetect i = ({ s with lcs := { s.lcs with latched := setBitOf s.lcs.latched i true } } : State).tamperEvent i :=
  (if_neg (by simp [h, hl])).trans ((if_neg (by simp [hf])).trans (if_neg (by simp [ht, hr])))

theorem fastDetect_known (h : s.off = false) (hl : s.monLive i = true) (hf : s.monFilt i = 0)
    (hr : s.lcs.test = some i ∨ bitOf s.lcs.raised i = true) : s.fastDetect i = s :=
  (if_neg (by simp [h, hl])).trans ((if_neg (by simp [hf])).trans (if_pos (by simpa using hr)))

end

/-- Settles O55: a sample by the conditions it shows, the rest by their outcomes. -/
theorem tamperMonitorsAndTheClock : Obligations.TamperMonitorsAndTheClock := by
  unfold Obligations.TamperMonitorsAndTheClock
  have no {b : Bool} (hb : b = false) : ¬ b = true := fun e => Bool.false_ne_true (hb.symm.trans e)
  refine ⟨fun s hr => ⟨fun src hs => ?_, fun d h => ?_, fun d i h => ?_, fun sec => ?_⟩, fun s conds tin hc ht => ?_, fun s => ?_, fun s i hi => ?_⟩
  · have hm : src % 16 = src := Nat.mod_eq_of_lt hs
    have fuse {r : State} (q : s.tampFuse src = r) : Gives (.tampFuse src) s r :=
      Gives.of_live (fun s => s.tampFuse (src % 16)) hr rfl (by rw [hm, q])
    have test {r : State} (q : s.tampTest src = r) : Gives (.tampTest src) s r :=
      Gives.of_live (fun s => s.tampTest (src % 16)) hr rfl (by rw [hm, q])
    exact ⟨fun h => fuse (tampFuse_late h), fun h h9 => fuse (tampFuse_none h h9), fun h h9 hf => fuse (tampFuse_fused h h9 hf),
      fun h h9 hf => fuse (tampFuse_fuses h h9 hf), fun h => test (tampTest_running h), fun h hn => test (tampTest_none h hn),
      fun h h9 he => test (tampTest_runs h h9 he)⟩
  · exact Gives.of_live (fun s => s.testEnd d) hr rfl (testEnd_none d h)
  · have ended {r : State} (q : s.testEnd d = r) : Gives (.tampTestEnd d) s r := Gives.of_live (fun s => s.testEnd d) hr rfl q
    refine ⟨fun hc hd => ?_, fun hd => ?_, fun hc hw hd => ?_⟩ <;> subst hd
    · exact ended ((testEnd_detected h).trans (if_neg (by rw [show bitOf (testShown s i true).lcs.cond i = false from hc]; exact Bool.false_ne_true)))
    · exact ended (testEnd_failed h)
    · exact ended ((testEnd_detected h).trans (if_pos (by
        rw [show bitOf (testShown s i true).lcs.cond i = true from hc, show bitOf (testShown s i true).lcs.raised i = false from hw]; rfl)))
  · exact Gives.of_live (fun s => s.rtcSet sec) hr rfl rfl
  · have hg : Gives (.tamperSample conds tin) s (s.tamperSample conds tin) :=
      Gives.of_always (fun s => s.tamperSample (conds % 1024) (tin % 16)) rfl (by rw [Nat.mod_eq_of_lt hc, Nat.mod_eq_of_lt ht])
    have h := cell_tamperSample s conds tin
    have hf : (s.tamperSample conds tin).lcs.vbat.frac = (clockStep s.lcs.vbat).frac := congrArg Prod.fst h
    have hs : (s.tamperSample conds tin).lcs.vbat.sec = (clockStep s.lcs.vbat).sec := congrArg (·.2.1) h
    have hk : (s.tamperSample conds tin).lcs.cond = condMask s conds tin := congrArg (·.2.2) h
    refine ⟨hg, ⟨fun h => ?_, fun h => ?_⟩, fun i hi hfu => ?_⟩
    · rw [hf, hs]
      exact clockStep_second h
    · rw [hf, hs]
      exact clockStep_count h
    · rw [hk]
      exact condMask_fused conds tin hi hfu
  · intro v v' hl ht
    exact Gives.of_always (fun s => s.tamperSample (0 % 1024) (15 % 16)) rfl (tamperSample_none (condMask_none hl ht))
  · have fast {r : State} (q : s.fastDetect i = r) : Gives (.tamperFastDetect i) s r :=
      Gives.of_always (fun s => s.fastDetect (i % 2)) rfl (by rw [Nat.mod_eq_of_lt hi, q])
    exact ⟨fun h => fast (fastDetect_dead h), fun h hl hf => fast (fastDetect_latched h hl hf),
      fun h hl hf ht hra => fast (fastDetect_event h hl hf ht hra), fun h hl hf hk => fast (fastDetect_known h hl hf hk)⟩

end Sys2Proof.Proofs

/-! PROOF. O56: instructions, challenges, tokens and accesses of the debug port. -/

namespace Sys2Proof.Proofs
open Sys2Proof.Machine Sys2Proof.Laws

/-! ## Instructions and unlocks (R493, R496) -/

/-- The instruction register selects an instruction. -/
def tapAt (s : State) (ir : Nat) : State := { s with lcs := { s.lcs with ir := ir } }

section
variable {s : State} {ir : Nat}

theorem tapInstr_plain (h : ir = 0xFF ∨ ir = 1 ∨ ir = 2 ∨ ir = 0x20) : s.tapInstr ir = tapAt s ir :=
  if_pos (by simpa [or_assoc] using h)

/-- A code that is none of the plain instructions. -/
theorem tapInstr_not_plain (hF : ir ≠ 0xFF) (h1 : ir ≠ 1) (h2 : ir ≠ 2) (h20 : ir ≠ 0x20) :
    s.tapInstr ir = if (ir == 0 || (decide (6 ≤ ir) && decide (ir ≤ 9))) = true then
      (if (s.portOpen || bitOf s.scope 3) = true then tapAt s ir else (tapAt s 0xFF).count Reg.DBG_REFUSED 0) else tapAt s 0xFF :=
  if_neg (by simp [hF, h1, h2, h20])

theorem tapInstr_test (h : ir = 0 ∨ (6 ≤ ir ∧ ir ≤ 9)) :
    s.tapInstr ir = if (s.portOpen || bitOf s.scope 3) = true then tapAt s ir else (tapAt s 0xFF).count Reg.DBG_REFUSED 0 :=
  (tapInstr_not_plain (by omega) (by omega) (by omega) (by omega)).trans (if_pos (by simpa using h))

theorem tapInstr_other (h0 : ir ≠ 0) (h1 : ir ≠ 1) (h2 : ir ≠ 2) (h20 : ir ≠ 0x20) (h : ¬ (6 ≤ ir ∧ ir ≤ 9)) : s.tapInstr ir = tapAt s 0xFF := by
  by_cases hF : ir = 0xFF
  · subst hF
    exact tapInstr_plain (.inl rfl)
  · exact (tapInstr_not_plain hF h1 h2 h20).trans (if_neg (by simpa [h0] using h))

theorem portOpen_iff : s.portOpen = true ↔ s.lcs.life ≠ .field := by simp [State.portOpen]

theorem unlockEnd_none (h : s.lcs.unlock = none) : s.unlockEnd = s := if_pos (by simp [h])

theorem unlockEnd_some {u : Nat × Nat} (h : s.lcs.unlock = some u) :
    s.unlockEnd = ({ s with lcs := { s.lcs with unlock := none } } : State).intSet Ty.DBG 0 3 := if_neg (by simp [h])

end

/-! ## Tokens (R496) -/

section
variable {s : State} {l : List Word}

theorem tokenStatus_blocked (h : s.lcs.blocked = true) : s.tokenStatus l = 6 := if_pos h

theorem tokenStatus_state (h : s.lcs.blocked = false) (hl : s.lcs.life ≠ .field) : s.tokenStatus l = 5 :=
  (if_neg (by simp [h])).trans (if_pos (by simpa using hl))

theorem tokenStatus_length (h : s.lcs.blocked = false) (hl : s.lcs.life = .field) (hn : l.length ≠ 99) : s.tokenStatus l = 1 :=
  (if_neg (by simp [h])).trans ((if_neg (by simp [hl])).trans (if_pos (by simp [hn])))

end

/-- A token's words as bytes. -/
def tokenBytes (s : State) : Bytes := s.lcs.fifo.flatMap fun w => toBE 4 w.toNat

/-- The port once a token has been looked at: its STATUS shown, the FIFO empty, a new challenge drawn. -/
def tokenShown (s : State) : State :=
  (({ s with lcs := { s.lcs with fifo := [] } } : State).setFld Reg.DBG_TOKEN_CMD_STATUS 0 (s.tokenStatus s.lcs.fifo)).newChallenge

/-- An unlock with the SCOPE and the duration of a token. -/
def tokenGood (r : State) (d : Bytes) : State :=
  (({ r with lcs := { r.lcs with
      unlock := some (beAt d 290 4, r.tm.tickNo + 8000 * beAt d 294 4), fails := 0, retToken := r.lcs.retToken || bitOf (beAt d 290 4) 31 } } : State).count
    Reg.DBG_UNLOCKS 0).log 0x41 0 Ty.DBG 0 0 (beAt d 290 4 % 2 ^ 24)

/-- A refusal with its event. -/
def tokenBad (r : State) (st : Nat) : State := ((r.count Reg.DBG_UNLOCK_FAIL 0).log 0x42 0 Ty.DBG 0 1 st).raise Ty.DBG 0 1 0 st

theorem tokenSubmit_eq (s : State) : s.tokenSubmit =
    if s.tokenStatus s.lcs.fifo = 0 then tokenGood (tokenShown s) (tokenBytes s)
    else if s.tokenStatus s.lcs.fifo = 6 then tokenBad (tokenShown s) (s.tokenStatus s.lcs.fifo)
    else { tokenBad (tokenShown s) (s.tokenStatus s.lcs.fifo) with lcs := { (tokenBad (tokenShown s) (s.tokenStatus s.lcs.fifo)).lcs with
      fails := (tokenBad (tokenShown s) (s.tokenStatus s.lcs.fifo)).lcs.fails + 1
      blocked := decide (4 ≤ (tokenBad (tokenShown s) (s.tokenStatus s.lcs.fifo)).lcs.fails + 1) } } := by
  unfold State.tokenSubmit
  simp only [beq_iff_eq]
  rfl

/-! ## Accesses (R494, R495) -/

section
variable {s : State} {a : Nat} {v : Option Word} {got : Bytes} {ecc : Bool} {bad : List Nat}

theorem dapacc_other (h : s.lcs.ir ≠ 0x20) : s.dapacc a v got ecc bad = s := if_pos (by simpa using h)

section
variable (h : s.lcs.ir = 0x20) {p : Nat} (hp : a % 2 ^ 40 / 4 * 4 = p) {q : State} (hq : s.qInv 32 0 = q)
include h hp hq

theorem dapacc_refused {n : Nat} (hn : q.dbgCheck p v.isSome (q.dbgAt p) = n) (h0 : n ≠ 0) :
    s.dapacc a v got ecc bad = q.dbgRefuse p v.isSome n := by
  subst hp hq
  refine (if_neg (by simp [h])).trans ?_
  dsimp only
  rw [hn]
  cases n with
  | zero => exact absurd rfl h0
  | succ n => rfl

theorem dapacc_page (hn : p < 0x10000000) (hc : q.dbgCheck p v.isSome (q.dbgAt p) = 0) :
    s.dapacc a v got ecc bad = q.dbgDo v got ecc bad (.page p) := by
  have ht : q.dbgAt p = some (.page p) := if_pos hn
  subst hp hq
  refine (if_neg (by simp [h])).trans ?_
  dsimp only
  rw [hc, ht]
  rfl

end

theorem dbgCheck_own {k : Nat} (w : Bool) (h : keyTy k = Ty.DBG) : s.dbgCheck a w (some (.page k)) = 0 := if_pos (by simp [h])

/-- Where no region covers the access, the life cycle or the SCOPE decides. -/
theorem dbgCheck_uncovered (w : Bool) {t : DbgAt} (hl : s.dbgLocked a = false) (hq : s.qHits 32 0 a 4 = [])
    (ht : ∀ k, t = .page k → keyTy k ≠ Ty.DBG) :
    s.dbgCheck a w (some t) = if s.lcs.life ≠ .field ∨ bitOf s.scope t.scopeBit = true then 0 else 2 := by
  have h2 : s.dbgCheck a w (some t) = if (s.portOpen || bitOf s.scope t.scopeBit) = true then 0 else 2 := by
    unfold State.dbgCheck
    dsimp only
    rw [hq, hl]
    refine (if_neg ?_).trans (if_neg (by simp))
    cases t with
    | page k => simpa using ht k rfl
    | nav p => simp
    | hbm i o => simp
  rw [h2]
  simp only [Bool.or_eq_true, portOpen_iff]

end

/-- Settles O56, outcome by outcome. -/
theorem debugPortTokensAndAccesses : Obligations.DebugPortTokensAndAccesses := by
  unfold Obligations.DebugPortTokensAndAccesses
  intro s hr
  have tap {ir : Nat} (hi : ir < 256) {r : State} (q : s.tapInstr ir = r) : Gives (.tapInstruction ir) s r :=
    Gives.of_live (fun s => s.tapInstr (ir % 256)) hr rfl (by rw [Nat.mod_eq_of_lt hi, q])
  have relock {r : State} (q : s.unlockEnd = r) : Gives .dbgRelock s r := Gives.of_live (fun s => s.unlockEnd) hr rfl q
  have expiry {r : State} (q : (match s.lcs.unlock with
      | some (_, t) => if t ≤ s.tm.tickNo then s.unlockEnd else s
      | none => s) = r) : Gives .unlockExpiry s r := by
    refine Gives.of_live _ hr (by unfold exec execUnlockExpiry; rfl) (Eq.trans ?_ q)
    cases s.lcs.unlock <;> rfl
  have access {a : Nat} {v : Option Word} {cycle : Nat} {got : List Byte} {ecc : Bool} {bad : List Nat} {r : State}
      (q : (s.advanceTo (min cycle s.tm.len)).dapacc a v got ecc bad = r) : Gives (.dapaccAccess a v cycle got ecc bad) s r :=
    Gives.of_live (fun s => (s.advanceTo (min cycle s.tm.len)).dapacc a v got ecc bad) hr rfl q
  refine ⟨fun ir h => tap (by omega) (tapInstr_plain h), fun ir h => ⟨fun ho => tap (by omega) ((tapInstr_test h).trans (if_pos ?_)),
      fun hl hs => tap (by omega) ((tapInstr_test h).trans (if_neg ?_))⟩, fun ir hi h0 h1 h2 h20 h => tap hi (tapInstr_other h0 h1 h2 h20 h),
    Gives.of_live (fun s => s.newChallenge) hr rfl rfl, fun h => ⟨relock (unlockEnd_none h), expiry (by rw [h])⟩,
    fun sc t h => ⟨relock (unlockEnd_some h), expiry (by rw [h, ← unlockEnd_some h])⟩,
    fun v => Gives.of_live (fun s => s.tokenWord v) hr rfl rfl, Gives.of_live (fun s => s.tokenSubmit) hr rfl (tokenSubmit_eq s),
    fun l => ⟨tokenStatus_blocked, tokenStatus_state, tokenStatus_length⟩, fun a v cycle got ecc bad => ⟨fun h => access (dapacc_other h),
      fun h hc => access (dapacc_refused h rfl rfl rfl hc), fun h hp hc => ⟨fun w hw => ?_, fun hw => ?_⟩⟩,
    fun a w t hl hq ht => dbgCheck_uncovered w hl hq ht, fun a k w h => dbgCheck_own w h⟩
  · rcases ho with ho | ho
    · rw [portOpen_iff.mpr ho]; rfl
    · rw [ho, Bool.or_true]
  · rw [hs, Bool.or_false, portOpen_iff]
    exact not_not_intro hl
  · subst hw
    exact access (dapacc_page h rfl rfl hp hc)
  · subst hw
    exact access (dapacc_page h rfl rfl hp hc)

end Sys2Proof.Proofs

/-! PROOF. O12: bring-up, training, electrical idle, loss of lock, PRBS and adaptation of lanes. -/

namespace Sys2Proof.Proofs
open Sys2Proof.Machine Sys2Proof.Laws

theorem lane_setLane_self (s : State) (n : Nat) (x : SerS) : (s.setLane n x).lane n = x := Tbl.get_set_self ..

theorem on_iff {s : State} {f : FldId} {n : Nat} : s.on f n = true ↔ s.active f.ty n = true ∧ s.flag f n = true := by simp [State.on]

theorem off_of {s : State} {f : FldId} {n : Nat} (h : s.active f.ty n = false ∨ s.flag f n = false) : s.on f n = false := by
  simpa [State.on, imp_iff_not_or] using h

theorem laneLink_low {n : Nat} (h : n < 64) : laneLink n = none := if_pos h

/-! ## Bring-up (R506, R507) -/

section
variable {s : State} {k : Nat}

theorem linkStart_not (h : s.linkWanted k = false ∨ (s.serLink k).step ≠ 0 ∨ ∃ m ∈ linkLanes k, s.laneTx m = false) : s.linkStart k = s := by
  refine if_neg fun hc => ?_
  simp only [Bool.and_eq_true, beq_iff_eq, List.all_eq_true] at hc
  obtain ⟨⟨hw, h0⟩, ha⟩ := hc
  rcases h with h | h | ⟨m, hm, h⟩
  · exact Bool.false_ne_true (h.symm.trans hw)
  · exact h h0
  · exact Bool.false_ne_true (h.symm.trans (ha m hm))

theorem linkStart_trains (hw : s.linkWanted k = true) (h0 : (s.serLink k).step = 0) (ha : ∀ m ∈ linkLanes k, s.laneTx m = true) :
    s.linkStart k = s.linkTrain k :=
  if_pos (by simpa [hw, h0] using ha)

theorem stepSwitch_not (h : (s.serLink k).step ≠ 3) : s.stepSwitch k = s := if_pos (by simpa using h)

/-- A lane of a link that has switched to the high rate. -/
def laneSwitched (s : State) (m : Nat) : State :=
  ((s.setLane m { s.lane m with lock := false, blkOk := 0, blkBad := 0, cwOk := 0, cwBad := 0, rlock := false, trained := none, tb := [] }).setFlag
    Reg.SER_STS_HIGH_RATE m true).laneState m 3

theorem stepSwitch_at (h : (s.serLink k).step = 3) :
    s.stepSwitch k = (linkLanes k).foldl laneSwitched (s.setLink k { s.serLink k with step := 4, swAt := s.tm.tickNo, txAt := 0, cws := [] }) :=
  if_neg (by simp [h])

/-- Some lane of the link finds the switch STEP_TIMEOUT ms ago. -/
def StepLate (s : State) (k : Nat) : Prop :=
  ∃ m ∈ linkLanes k, (s.serLink k).swAt + 8 * s.fld Reg.SER_LINK_CFG_STEP_TIMEOUT m ≤ s.tm.tickNo

theorem stepTimeout_fails (h : (s.serLink k).step = 4) (hu : (s.serLink k).up = false) (hl : StepLate s k) : s.stepTimeout k = s.stepFail k :=
  if_pos (by simpa [h, hu, StepLate] using hl)

theorem stepTimeout_not (h : (s.serLink k).step ≠ 4 ∨ (s.serLink k).up = true ∨ ¬ StepLate s k) : s.stepTimeout k = s := by
  refine if_neg fun hc => ?_
  simp only [Bool.and_eq_true, beq_iff_eq, Bool.not_eq_true', List.any_eq_true, decide_eq_true_eq] at hc
  obtain ⟨⟨h4, hu⟩, hl⟩ := hc
  rcases h with h | h | h
  · exact h h4
  · exact Bool.false_ne_true (hu.symm.trans h)
  · exact h hl

end

/-! ## Training blocks and the end of training (R507) -/

section
variable {s : State} {n : Nat} {b : Bytes}

theorem trainBlock_none (h : laneLink n = none) : s.trainBlock n b = s := by simp only [State.trainBlock, h]

section
variable {j : Nat} (hj : laneLink n = some j)
include hj

theorem trainBlock_out (h : (s.serLink j).step = 0 ∨ 4 ≤ (s.serLink j).step ∨ s.laneRx n = false) : s.trainBlock n b = s := by
  simp only [State.trainBlock, hj]
  exact if_pos (by simpa [or_assoc] using h)

variable (h0 : (s.serLink j).step ≠ 0) (h4 : (s.serLink j).step < 4) (hx : s.laneRx n = true)
include h0 h4 hx

/-- A bad block on a lane without block lock starts the count of good ones again. -/
theorem trainBlock_bad (hb : b.length ≠ 32) (hl : (s.lane n).lock = false) :
    s.trainBlock n b = s.setLane n { s.lane n with blkOk := 0, blkBad := min 4 ((s.lane n).blkBad + 1), ready := 0, lock := false } := by
  simp only [State.trainBlock, hj]
  refine (if_neg (by simp [h0, hx, h4])).trans ((if_neg (by simp [hb])).trans ((if_neg (by simp [hl])).trans ?_))
  rw [hl, Bool.false_and]

omit h0 h4 in
theorem trainBlock_good (hb : b.length = 32) (hm : beAt b 0 8 = 0x5A0FC3A596E13C78) (hc : beAt b 28 4 = crc32c (sliceB b 0 28))
    (h1 : (s.serLink j).step = 1) :
    s.trainBlock n b = (((s.setLane n { s.lane n with
        blkOk := min 16 ((s.lane n).blkOk + 1), blkBad := 0, lock := (s.lane n).lock || decide (16 ≤ (s.lane n).blkOk + 1)
        cap := bitOf (beAt b 10 1) 0, lane := beAt b 8 1 % 4, ready := 0 }).setFlag Reg.SER_STS_SIGNAL n true).setFlag
      Reg.SER_STS_CDR_LOCK n true).linkAdvance j := by
  simp only [State.trainBlock, hj]
  refine (if_neg (by simp [h1, hx])).trans ((if_pos (by simp [hb, hm, hc])).trans ?_)
  rw [h1]
  rfl

end

/-- The values that training ends on. -/
def adaptVals (v : List Nat) : List Nat := (List.range 8).map fun i => v.getD i 0 % 256

/-- A lane whose high-rate training is done. -/
def laneTrained (s : State) (n : Nat) (v : List Nat) : State :=
  s.setLane n { s.lane n with trained := some s.tm.tickNo, seeds := adaptVals v, cur := adaptVals v }

theorem trainingDone_none {v : List Nat} (h : laneLink n = none) :
    s.trainingDone n v = if n < 32 ∧ s.present Ty.SER n = true then laneTrained s n v else s := by
  simp only [State.trainingDone, h, Bool.and_eq_true, decide_eq_true_eq]
  rfl

theorem trainingDone_link {v : List Nat} {j : Nat} (h : laneLink n = some j) :
    s.trainingDone n v = if (s.serLink j).step = 4 ∧ (s.lane n).trained = none then laneTrained s n v else s := by
  simp only [State.trainingDone, h, Bool.and_eq_true, beq_iff_eq, Option.isNone_iff_eq_none]
  rfl

end

/-! ## Mate codewords (R508, R509) -/

section
variable {s : State} {n hdr fec skew : Nat} {ch : Bytes}

/-- The receiver of a mate lane runs at the high rate. -/
def MateLaneOn (s : State) (n : Nat) : Prop :=
  (s.serLink 0).step = 4 ∧ (s.lane n).trained.isSome = true ∧ s.laneRx n = true ∧ (s.lane n).idleAt = none

theorem mateLaneOn_iff :
    MateLaneOn s n ↔ ¬ ((s.serLink 0).step != 4 || (s.lane n).trained.isNone || !s.laneRx n || (s.lane n).idleAt.isSome) = true := by
  simp [MateLaneOn, and_assoc, Option.isSome_iff_ne_none]

theorem mateCodeword_off (h : ¬ MateLaneOn s n) : s.mateCodeword n hdr ch fec skew = s := if_pos (not_not.mp (mt mateLaneOn_iff.mpr h))

/-- A lane after the first good codeword. -/
def firstCodeword (x : SerS) (hdr skew : Nat) : SerS :=
  { x with cwOk := 1, cwBad := 0, cwNext := (hdr % 65536 + 1) % 65536, lane := hdr / 2 ^ 18 % 4, rlock := bitOf hdr 17, skew := skew }

theorem flag_setReg_deskew (v : Nat) : (s.setReg Reg.SER_DESKEW n v).flag Reg.SER_STS_MARKER_LOCK n = s.flag Reg.SER_STS_MARKER_LOCK n := by
  refine congrArg (· == 1) (fld_setReg_ne s ?_ v)
  simp only [FldId.at, RegId.at, regKey, Reg.SER_DESKEW, Reg.SER_STS_MARKER_LOCK]
  omega

theorem mateCodeword_first (hn : n ∈ linkLanes 0) (h : MateLaneOn s n) (hl : s.flag Reg.SER_STS_MARKER_LOCK n = false)
    (hu : (s.serLink 0).up = false) (h0 : (s.lane n).cwOk = 0) (hs : skew ≤ 819) :
    s.mateCodeword n hdr ch 0 skew = (s.setReg Reg.SER_DESKEW n (min skew 2047)).setLane n (firstCodeword (s.lane n) hdr skew) := by
  have hf := (flag_setReg_deskew (s := s) (n := n) (min skew 2047)).trans hl
  have hm : ((s.setReg Reg.SER_DESKEW n (min skew 2047)).setLane n (firstCodeword (s.lane n) hdr skew)).markerLock = false :=
    List.all_eq_false.mpr ⟨n, hn, by simp [hf]⟩
  have hg : ((0 != 2) && ((s.lane n).cwOk == 0 || hdr % 65536 == (s.lane n).cwNext) && decide (skew ≤ 819)) = true := by simp [h0, hs]
  have hx : { s.lane n with
      cwOk := min 4 ((s.lane n).cwOk + 1), cwBad := 0, cwNext := (hdr % 65536 + 1) % 65536, lane := hdr / 2 ^ 18 % 4, rlock := bitOf hdr 17
      skew := skew } = firstCodeword (s.lane n) hdr skew := by rw [h0]; rfl
  have hc : (decide (4 ≤ (firstCodeword (s.lane n) hdr skew).cwOk) && (firstCodeword (s.lane n) hdr skew).cwBad == 0) = false := rfl
  have hk : (((s.setReg Reg.SER_DESKEW n (min skew 2047)).setLane n (firstCodeword (s.lane n) hdr skew)).serLink 0).up = false := hu
  refine (if_neg (mateLaneOn_iff.mp h)).trans ?_
  simp only [Nat.reduceBEq, Bool.false_eq_true, if_false, hg, if_true, hx, hc, setLane_flag, hf, Bool.false_and, hm, hk, Bool.not_false,
    Bool.true_or]

end

/-! ## Electrical idle and fast exit (R511, R512) -/

section
variable {s : State} {n : Nat}

theorem idleDetect_not (h : laneLink n = none ∨ (s.lane n).idleAt.isSome = true) : s.idleDetect n = s := by
  cases hj : laneLink n with
  | none => simp only [State.idleDetect, hj]
  | some j =>
    simp only [State.idleDetect, hj]
    exact if_pos (by simp [h.resolve_left (by simp [hj])])

theorem idleDetect_records {j : Nat} (hj : laneLink n = some j) (hu : (s.serLink j).up = true) (hi : (s.lane n).idleAt = none) (h0 : j ≠ 0) :
    s.idleDetect n = ((s.setLane n { s.lane n with idleAt := some s.tm.tickNo }).setFlag Reg.SER_STS_SIGNAL n false).laneState n 5 := by
  simp only [State.idleDetect, hj]
  exact (if_neg (by simp [hu, hi])).trans (if_neg (by simp [h0]))

theorem fastExit_no_idle (h : (s.lane n).idleAt = none) : s.fastExit n = s := by
  unfold State.fastExit
  rw [h]
  cases laneLink n <;> rfl

theorem fastExit_late {j t : Nat} (hj : laneLink n = some j) (hi : (s.lane n).idleAt = some t)
    (h : t + 8 * s.fld Reg.SER_LINK_CFG_IDLE_KEEP n < s.tm.tickNo) : s.fastExit n = s := by
  simp only [State.fastExit, hj, hi]
  exact if_neg (by simp [Nat.not_le.mpr h])

theorem fastExit_ends {j t : Nat} (hj : laneLink n = some j) (h0 : j ≠ 0) (hi : (s.lane n).idleAt = some t) (hu : (s.serLink j).up = true)
    (h : s.tm.tickNo ≤ t + 8 * s.fld Reg.SER_LINK_CFG_IDLE_KEEP n) :
    s.fastExit n = ((s.setLane n { s.lane n with idleAt := none }).laneState n (if (s.lane n).ownIdle.isSome then 5 else 4)).count
      Reg.SER_IDLE_EXITS n := by
  simp only [State.fastExit, hj, hi]
  exact (if_pos (by simp [h, hu])).trans (if_neg (by simp [h0]))

theorem idleExpiry_no_idle (hi : (s.lane n).idleAt = none) (ho : (s.lane n).ownIdle = none) : s.idleExpiry n = s := by
  cases hj : laneLink n with
  | none => simp only [State.idleExpiry, hj]
  | some j => simp [State.idleExpiry, hj, hi, ho]

theorem idleExpiry_late {j t : Nat} (hj : laneLink n = some j) (hi : (s.lane n).idleAt = some t)
    (h : t + 8 * s.fld Reg.SER_LINK_CFG_IDLE_KEEP n < s.tm.tickNo) (h0 : (s.serLink j).step ≠ 0) :
    s.idleExpiry n = if ((linkLanes j).any fun m => (s.lane m).ownIdle.isSome) = true then s.linkIdle j else s.linkTrain j := by
  simp only [State.idleExpiry, hj, hi]
  exact if_pos (by simp [h, h0])

end

/-! ## Loss of lock (R529, R532) -/

section
variable {s : State} {n : Nat}

theorem laneLoss_not (h : s.present Ty.SER n = false ∨ (s.lane n).pllLost = true) : s.laneLoss n = s := if_pos (by simpa using h)

theorem laneLoss_tree (hp : s.present Ty.SER n = true) (hl : (s.lane n).pllLost = false) (h32 : 32 ≤ n) (h64 : n < 64) :
    s.laneLoss n = ((((s.setLane n { s.lane n with pllLost := true }).setFlag Reg.SER_STS_CDR_LOCK n false).count Reg.SER_LOCK_LOSS n).raise
      Ty.SER n 3 0 0).laneState n 5 := by
  refine (if_neg (by simp [hp, hl])).trans ?_
  rw [laneLink_low h64]
  exact congrArg (State.laneState · n 5) (if_neg (Nat.not_lt.mpr h32))

theorem laneRelock_locked (h : (s.lane n).pllLost = false) : s.laneRelock n = s := if_pos (by simp [h])

theorem laneRelock_no_link (h : (s.lane n).pllLost = true) (hj : laneLink n = none) :
    s.laneRelock n = (s.setLane n { s.lane n with pllLost := false }).laneState n (if n < 32 then 1 else 0) := by
  refine (if_neg (by simp [h])).trans ?_
  rw [hj]

end

/-! ## PRBS (R513) -/

section
variable {s : State} {n v : Nat} (hp : s.present Ty.SER n = true)
include hp

theorem prbsWrite_busy (hb : s.laneBusy n = true) (h : bitOf v 3 = true ∨ bitOf v 4 = true) : s.prbsWrite n v = s.count Reg.SER_CFG_REJECT n :=
  (if_neg (by simp [hp])).trans (if_pos (by simpa [hb] using h))

theorem prbsWrite_stops (hb : s.laneBusy n = false) (h5 : bitOf v 5 = false)
    (hc : (s.plainWrite (Reg.SER_PRBS_CTL.at n) v).flag Reg.SER_PRBS_CTL_CHK_EN n = false) :
    s.prbsWrite n v = ((s.plainWrite (Reg.SER_PRBS_CTL.at n) v).setLane n
      { (s.plainWrite (Reg.SER_PRBS_CTL.at n) v).lane n with prbsRun := 0 }).setFlag Reg.SER_STS_PRBS_LOCK n false := by
  refine (if_neg (by simp [hp])).trans ((if_neg (by simp [hb])).trans ?_)
  rw [h5]
  exact (if_neg Bool.false_ne_true).trans (if_neg (by simp [off_of (.inr hc)]))

end

/-- The received bits taken one by one. -/
def prbsBits (s : State) (n : Nat) (bits : List Bool) (lose : Bool) : State :=
  if !s.on Reg.SER_PRBS_CTL_CHK_EN n || !s.on Reg.SER_CTL_RX_EN n then s else
  let r := bits.foldl (fun (s : State) e => s.prbsBit n e) s
  if lose then (r.setLane n { r.lane n with prbsRun := 0 }).setFlag Reg.SER_STS_PRBS_LOCK n false else r

section
variable {s : State} {n : Nat} {bits : List Bool} {lose : Bool}

theorem prbsBits_off (h : s.active Ty.SER n = false ∨ s.flag Reg.SER_PRBS_CTL_CHK_EN n = false ∨ s.flag Reg.SER_CTL_RX_EN n = false) :
    prbsBits s n bits lose = s := by
  refine if_pos ?_
  rcases h with h | h | h
  · simp [off_of (f := Reg.SER_CTL_RX_EN) (.inl h)]
  · simp [off_of (f := Reg.SER_PRBS_CTL_CHK_EN) (.inr h)]
  · simp [off_of (f := Reg.SER_CTL_RX_EN) (.inr h)]

theorem prbsBits_on (ha : s.active Ty.SER n = true) (hc : s.flag Reg.SER_PRBS_CTL_CHK_EN n = true) (hx : s.flag Reg.SER_CTL_RX_EN n = true)
    {r : State} (hr : bits.foldl (fun (s : State) e => s.prbsBit n e) s = r) :
    prbsBits s n bits lose = if lose then (r.setLane n { r.lane n with prbsRun := 0 }).setFlag Reg.SER_STS_PRBS_LOCK n false else r := by
  subst hr
  exact if_neg (by simp [on_iff.mpr ⟨ha, hc⟩, on_iff.mpr ⟨ha, hx⟩])

end

/-! ## Adaptation (R515, R516) -/

section
variable {s : State} {n : Nat}

theorem adaptUpdate_not {v : List Nat} (h : s.active Ty.SER n = false ∨ adaptive n = false ∨ s.flag Reg.SER_CTL_ADAPT_EN n = false ∨
    (s.lane n).trained = none) : s.adaptUpdate n v = s := by
  refine if_pos ?_
  rcases h with h | h | h | h
  · simp [off_of (f := Reg.SER_CTL_ADAPT_EN) (.inl h)]
  · simp [h]
  · simp [off_of (f := Reg.SER_CTL_ADAPT_EN) (.inr h)]
  · simp [h]

theorem adaptErr_good (h : s.inv Ty.SER n 0 = false) : s.adaptErr n = s := if_neg (by simp [h])

/-- A value that is its seed has not drifted. -/
theorem not_drifted (i x a b c : Nat) : drifted i x x a b c = false := by simp [drifted]

theorem adaptUpdate_no_drift {v : List Nat} (ha : s.active Ty.SER n = true) (hd : adaptive n = true) (he : s.flag Reg.SER_CTL_ADAPT_EN n = true)
    (ht : (s.lane n).trained.isSome = true) (hi : s.inv Ty.SER n 0 = false)
    (hv : ∀ i, i < 8 → (s.lane n).seeds.getD i 0 = (adaptVals v).getD i 0) :
    s.adaptUpdate n v = s.setLane n { s.lane n with cur := adaptVals v } := by
  have hon : s.on Reg.SER_CTL_ADAPT_EN n = true := on_iff.mpr ⟨ha, he⟩
  refine (if_neg (by simp [hd, hon, Option.isSome_iff_ne_none.mp ht])).trans ?_
  rw [adaptErr_good hi]
  refine List.foldlRecOn (motive := fun r => r = s.setLane n { s.lane n with cur := adaptVals v }) _ _ rfl fun r hr i hi => ?_
  have hd : ∀ a b c, drifted i ((s.lane n).seeds.getD i 0) ((adaptVals v).getD i 0) a b c = false := fun a b c => by
    rw [hv i (List.mem_range.mp hi)]
    exact not_drifted ..
  rw [← hr, lane_setLane_self]
  exact if_neg (by rw [Bool.and_eq_true]; exact fun e => Bool.false_ne_true ((hd ..).symm.trans e.1))

/-- The end of an adaptation command. -/
def adaptFin (n : Nat) (r : State) (i op st : Nat) : State := r.setReg Reg.SER_ADAPT_CMD n (i + op * 16 + st * 2 ^ 24)

/-- The lane is UP. -/
def laneUp (s : State) (n : Nat) : Bool := if n < 32 then s.portUp (s.portOf n) else s.fld Reg.SER_STS_STATE n == 4

/-- The STATUS of an adaptation command. -/
def adaptSt (s : State) (n : Nat) : Nat := if (!adaptive n) = true then 1 else if (!laneUp s n) = true then 2 else 0

section
variable {op i : Nat} {f : State → State} (hp : s.present Ty.SER n = true)
include hp

theorem adaptCmd_present : s.adaptCmd n op i f = adaptFin n (if (adaptSt s n == 0) = true then f s else s) i op (adaptSt s n) :=
  if_neg (by simp [hp])

theorem adaptCmd_tree (hd : adaptive n = false) : s.adaptCmd n op i f = adaptFin n s i op 1 := by
  rw [adaptCmd_present hp, adaptSt, hd]
  rfl

theorem adaptCmd_down (hd : adaptive n = true) (hu : laneUp s n = false) : s.adaptCmd n op i f = adaptFin n s i op 2 := by
  rw [adaptCmd_present hp, adaptSt, hd, hu]
  rfl

theorem adaptCmd_up (hd : adaptive n = true) (hu : laneUp s n = true) : s.adaptCmd n op i f = adaptFin n (f s) i op 0 := by
  rw [adaptCmd_present hp, adaptSt, hd, hu]
  rfl

theorem adaptRead_up (hd : adaptive n = true) (hu : laneUp s n = true) (hi : s.inv Ty.SER n 0 = false) :
    s.adaptRead n i = adaptFin n (s.setReg Reg.SER_ADAPT_DATA n ((s.lane n).seeds.getD i 0 + (s.lane n).cur.getD i 0 * 256)) i 1 0 := by
  refine (adaptCmd_up hp hd hu).trans ?_
  rw [adaptErr_good hi]

end

end

/-- Settles O12, outcome by outcome. -/
theorem lanesAndTheirLinks : Obligations.LanesAndTheirLinks := by
  unfold Obligations.LanesAndTheirLinks
  intro s n k hr hn hk
  have hm : n % 72 = n := Nat.mod_eq_of_lt hn
  have hmk : k % 5 = k := Nat.mod_eq_of_lt hk
  have link {c : Instr} {r : State} (f : State → Nat → State) (e : exec c s = live s fun s => f s (k % 5)) (q : f s k = r) : Gives c s r :=
    Gives.of_live (fun s => f s (k % 5)) hr e (by rw [hmk, q])
  have lane {c : Instr} {r : State} (f : State → Nat → State) (e : exec c s = live s fun s => f s (n % 72)) (q : f s n = r) : Gives c s r :=
    Gives.of_live (fun s => f s (n % 72)) hr e (by rw [hm, q])
  refine ⟨fun h => link State.linkStart rfl (linkStart_not h), fun hw h0 ha => link State.linkStart rfl (linkStart_trains hw h0 ha),
    fun b h => ?_, fun b j hj => ⟨fun h => ?_, fun h0 h4 hx => ⟨fun hb hl => ?_, fun hb h1 hc hs => ?_⟩⟩,
    fun h => link State.stepSwitch rfl (stepSwitch_not h), fun h => link State.stepSwitch rfl (stepSwitch_at h),
    fun v => ⟨fun h => ?_, fun j h => ?_⟩,
    ⟨fun h4 hu hl => link State.stepTimeout rfl (stepTimeout_fails h4 hu hl), fun h => link State.stepTimeout rfl (stepTimeout_not h)⟩,
    fun hdr ch fec skew h64 h68 => ?_, fun h => lane State.idleDetect rfl (idleDetect_not h),
    fun j hj hu hi h0 => lane State.idleDetect rfl (idleDetect_records hj hu hi h0), fun h => lane State.fastExit rfl (fastExit_no_idle h),
    fun j t hj h0 hi hu => ⟨fun h => lane State.fastExit rfl (fastExit_late hj hi h), fun h => lane State.fastExit rfl (fastExit_ends hj h0 hi hu h)⟩,
    fun hi ho => lane State.idleExpiry rfl (idleExpiry_no_idle hi ho),
    fun j t hj hi h h0 => ⟨fun ho => ?_, fun ho => ?_⟩,
    fun h => lane State.laneLoss rfl (laneLoss_not h), fun hp hl h32 h64 => lane State.laneLoss rfl (laneLoss_tree hp hl h32 h64),
    fun h => lane State.laneRelock rfl (laneRelock_locked h), fun h hj => lane State.laneRelock rfl (laneRelock_no_link h hj),
    lane State.injOne rfl rfl, fun v hp => ⟨fun hb h => ?_, fun hb _ h5 hc => ?_⟩,
    fun errs lose => ⟨fun h => ?_, fun ha hc hx => ?_⟩, fun v h => ?_, fun v ha hd he ht hi hv => ?_, fun i hi hp => ?_⟩
  · exact lane (fun s n => s.trainBlock n b) rfl (trainBlock_none h)
  · exact lane (fun s n => s.trainBlock n b) rfl (trainBlock_out hj h)
  · exact lane (fun s n => s.trainBlock n b) rfl (trainBlock_bad hj h0 h4 hx hb hl)
  · exact lane (fun s n => s.trainBlock n b) rfl (trainBlock_good hj hx hb h1 hc hs)
  · exact lane (fun s n => s.trainingDone n v) rfl (trainingDone_none h)
  · exact lane (fun s n => s.trainingDone n v) rfl (trainingDone_link h)
  · have hn' : 64 + (n - 64) % 4 = n := by omega
    have mate {f : Nat} {r : State} (q : s.mateCodeword n hdr ch f skew = r) : Gives (.mateCodewordReceive (n - 64) hdr ch f skew) s r :=
      Gives.of_live (fun s => s.mateCodeword (64 + (n - 64) % 4) hdr ch f skew) hr rfl (by rw [hn', q])
    have hl : n ∈ linkLanes 0 := by
      simp only [linkLanes, beq_self_eq_true, if_true, List.mem_cons, List.not_mem_nil, or_false]
      omega
    exact ⟨fun h => mate (mateCodeword_off h), fun h hf hu h0 hs => mate (mateCodeword_first hl h hf hu h0 hs)⟩
  · exact lane State.idleExpiry rfl ((idleExpiry_late hj hi h h0).trans (if_neg (by simpa using ho)))
  · exact lane State.idleExpiry rfl ((idleExpiry_late hj hi h h0).trans (if_pos (by simpa using ho)))
  · exact lane (fun s n => s.prbsWrite n v.toNat) rfl (prbsWrite_busy hp hb h)
  · exact lane (fun s n => s.prbsWrite n v.toNat) rfl (prbsWrite_stops hp hb h5 hc)
  · exact lane (fun s n => prbsBits s n errs lose) rfl (prbsBits_off h)
  · exact lane (fun s n => prbsBits s n errs lose) rfl (prbsBits_on ha hc hx rfl)
  · exact lane (fun s n => s.adaptUpdate n v) rfl (adaptUpdate_not h)
  · exact lane (fun s n => s.adaptUpdate n v) rfl (adaptUpdate_no_drift ha hd he ht hi hv)
  · have hi8 : i % 8 = i := Nat.mod_eq_of_lt hi
    have read {r : State} (q : s.adaptRead n i = r) : Gives (.adaptRead n i) s r :=
      lane (fun s n => s.adaptRead n (i % 8)) rfl (by rw [hi8, q])
    have reseed {r : State} (q : s.adaptReseed n (s.fld Reg.SER_ADAPT_CMD_INDEX n) = r) : Gives (.adaptReseed n) s r :=
      lane (fun s n => s.adaptReseed n (s.fld Reg.SER_ADAPT_CMD_INDEX n)) rfl q
    have retrain {r : State} (q : s.adaptRetrain n (s.fld Reg.SER_ADAPT_CMD_INDEX n) = r) : Gives (.adaptRetrain n) s r :=
      lane (fun s n => s.adaptRetrain n (s.fld Reg.SER_ADAPT_CMD_INDEX n)) rfl q
    exact ⟨fun hd => ⟨read (adaptCmd_tree hp hd), reseed (adaptCmd_tree hp hd), retrain (adaptCmd_tree hp hd)⟩,
      fun hd hu => ⟨read (adaptCmd_down hp hd hu), reseed (adaptCmd_down hp hd hu), retrain (adaptCmd_down hp hd hu)⟩,
      fun hd hu => ⟨fun hi => read (adaptRead_up hp hd hu hi), reseed (adaptCmd_up hp hd hu), retrain (adaptCmd_up hp hd hu)⟩⟩

end Sys2Proof.Proofs

/-! PROOF. O11: the hardware sequence does more than its statement says. -/

namespace Sys2Proof.Proofs
open Sys2Proof.Machine Sys2Proof.Laws

/-- The device at reset with its sequence begun, the Logbook and the life cycle evaluated. -/
def evaluated : State :=
  ({ State.reset with lcs := { State.reset.lcs with started := true, off := false, dark := false } } : State).startLog.lcEvaluate

/-- The whole of a sequence in which nothing fails, as the statement has it after the life cycle. -/
def claimedStart (e : State) : State := ((e.lodestone []).startDrbg true).newChallenge

theorem evaluated_running : evaluated.halted = false := by decide +kernel

/-- The sequence notes that pool 0's known-answer tests are done … -/
theorem powerOn_katDone : (State.reset.powerOn [] [] [] true [] []).flag Reg.CIPH_TEST_KAT_DONE 0 = true := by decide +kernel

/-- … and what the statement names leaves that flag 0. -/
theorem claimedStart_katDone : (claimedStart evaluated).flag Reg.CIPH_TEST_KAT_DONE 0 = false := by decide +kernel

/-- A command gives one state, so its flags are those of that state. -/
theorem flag_of_gives {c : Instr} {s t u : State} (ht : Gives c s t) (hu : Gives c s u) (f : FldId) (i : Nat) : t.flag f i = u.flag f i := by
  have e : s.done t = s.done u := Host.Outcome.next.inj (ht.symm.trans hu)
  rw [← done_flag s t, e, done_flag]

theorem gives_powerOn (s : State) (a : List Word) (nav kat : List (Nat × Nat)) (drbg : Bool) (hbm pll : List Nat) :
    Gives (.powerOnSequence a nav kat drbg hbm pll) s (s.powerOn a nav kat drbg hbm pll) :=
  Gives.of_always (fun s => s.powerOn a nav kat drbg hbm pll) rfl rfl

/-- Refutes O11: from reset, a sequence in which nothing fails sets CIPH_TEST_KAT_DONE of every present pool, a step of the model
between the engines and the failing cores that the statement leaves out. -/
theorem not_startPowerAndColdResets : ¬ Obligations.StartPowerAndColdResets := by
  unfold Obligations.StartPowerAndColdResets
  rintro ⟨h, -⟩
  obtain ⟨-, -, -, -, -, -, -, -, -, start, -⟩ := h State.reset
  have claimed : Gives (.powerOnSequence [] [] [] true [] []) State.reset (claimedStart evaluated) :=
    (((start [] [] [] true [] []).2 rfl).2 rfl).2 evaluated_running
  have flags := flag_of_gives (gives_powerOn ..) claimed Reg.CIPH_TEST_KAT_DONE 0
  exact Bool.false_ne_true (claimedStart_katDone.symm.trans (flags.symm.trans powerOn_katDone))

end Sys2Proof.Proofs
